-- ==== Sys2Proof/Word.lean ====
section
/-! DEFINITION. Words, bytes and the sparse tables that every layer of the model uses. -/

namespace Sys2Proof

/-- One byte. -/
abbrev Byte := BitVec 8

/-- A control-space register or an FP32 bit pattern. -/
abbrev W32 := BitVec 32

/-- A scalar register of a bench sequencer. -/
abbrev W64 := BitVec 64

/-- An EQ instruction word (R69). -/
abbrev W128 := BitVec 128

/-- A status code of Table 3.10 (R111). -/
abbrev Status := BitVec 16

/-- A sparse table from numbers to values: pairs with strictly rising keys. An absent key holds the
default that the reader names. -/
abbrev Tab (α : Type) := List (Nat × α)

end Sys2Proof
end

