-- ==== Sys2Proof/Syntax.lean ====
section
/-! DEFINITION. The commands of the block: one constructor of `Instr` for each row of the opcode table, with the
row's operands, and the types of those operands. A command that the spec ties to time carries the part time `t`, in
nanoseconds, at which it comes (R40). -/

namespace Sys2Proof

/-- A bench, die × 8 + bench (07, "Partitions and bandwidth regulators"). -/
abbrev BenchId := Fin 32
/-- A partition. -/
abbrev PartId := Fin 8
/-- An optical engine E0 to E11. -/
abbrev EngineId := Fin 12
/-- An HBM stack M0 to M11. -/
abbrev StackId := Fin 12
/-- A sector, numbered as chapter 15 numbers sectors: 0 to 23 compute, 24 to 31 hub. -/
abbrev SectorId := Fin 32
/-- A part time, in nanoseconds. -/
abbrev Time := Nat

/-- The access paths of Table 1.11 that name registers, and the management packets of R357. -/
inductive Path where
  | session (n : Fin 32)
  | admin
  | window (n : Fin 32)
  | i3c
  | mgmt (node : BitVec 13)
  deriving DecidableEq, Repr

/-- The fields of an EQ instruction word other than OPC and UNIT (Table 3.1). -/
structure Fields where
  idx  : BitVec 4
  psel : BitVec 4
  pinv : BitVec 1
  fmt  : BitVec 7
  mod  : BitVec 8
  o1   : BitVec 8
  o2   : BitVec 8
  o3   : BitVec 8
  o4   : BitVec 8
  imm  : BitVec 60
  deriving DecidableEq, Repr

/-- A direction of an optical lane (Table 16.1, KIND 5). -/
inductive LaneDir where
  | tx
  | rx
  deriving DecidableEq, Repr

/-- A 64-byte access at a pseudo-channel (R281). -/
inductive Access64 where
  | read
  | write (data : List Byte)
  deriving DecidableEq, Repr

/-- An atomic operation, Table 11.4. -/
inductive AtomicOp where
  | addI32 | addI64 | addF32 | minS32 | minS64 | minU32 | minU64 | minF32
  | maxS32 | maxS64 | maxU32 | maxU64 | maxF32 | cas32 | cas64
  deriving DecidableEq, Repr

/-- A link of the fabric: every lane from this part to one other part at one hop kind (chapter 10); or the lanes of a Stratus module through
one memory engine (R287), `far` being 2 × module + engine − 8. -/
structure LinkId where
  memory   : Bool
  isGlobal : Bool
  far      : BitVec 13
  deriving DecidableEq, Repr

/-- A route header, Table 10.3. -/
structure Route where
  dst   : BitVec 13
  src   : BitVec 13
  epoch : BitVec 2
  typ   : BitVec 2
  cls   : BitVec 1
  ord   : Bool
  igrp  : BitVec 9
  via   : Bool
  mc    : Bool
  slice : BitVec 12
  nflit : Nat
  gl    : BitVec 9
  gm    : BitVec 4
  stg   : BitVec 2
  /-- The reserved bits 43, 63:61 and 127:79, as they arrived. -/
  rsv   : Nat
  deriving DecidableEq, Repr

/-- A transport header, Table 11.5. -/
structure Transport where
  op     : BitVec 5
  ord    : Bool
  wide   : Bool
  retry  : Bool
  arg    : BitVec 8
  tag    : BitVec 14
  seq    : BitVec 16
  lag    : BitVec 10
  pord   : BitVec 10
  inst   : BitVec 8
  offset : BitVec 48
  /-- The reserved bits of Table 11.5, as they arrived. -/
  rsv    : Nat
  deriving DecidableEq, Repr

/-- A signature, Table 12.5. -/
structure Signature where
  op    : BitVec 8
  mode  : BitVec 8
  group : BitVec 16
  seq   : BitVec 32
  count : BitVec 32
  root  : BitVec 16
  mlen  : BitVec 16
  deriving DecidableEq, Repr

/-- A contribution to a signature round, in order of arrival. -/
structure GatherItem where
  member : Nat
  sig    : Signature
  values : List Int
  flags  : Nat
  deriving DecidableEq, Repr

/-- What a collective packet carries (chapter 12). The member indexes name sender and receiver. -/
inductive CollMsg where
  /-- A signature round's contribution, with the scalar values of a CSRED (R401, R407). -/
  | contribution (sig : Signature) (member : Nat) (values : List Int) (flags : BitVec 2) (chunkLog : Nat)
  /-- The contributions gathered in one fabric group, from its lowest member to member 0's part (R403). -/
  | summary (group : BitVec 16) (seq : BitVec 32) (lead : Nat) (items : List GatherItem)
  /-- GO, with member 0's chunk size and, for CSRED, the reduced values (R403, R407). -/
  | go (group : BitVec 16) (seq : BitVec 32) (chunkLog : Nat) (values : List Int) (flags : BitVec 2)
  /-- A chunk contribution to the owner of a block (R401, R410). -/
  | chunk (sig : Signature) (fromMember toMember chunk : Nat) (data : List Byte)
  /-- A result chunk, or a chunk of CTAG and CTBC (R409, R410). -/
  | result (group : BitVec 16) (seq : BitVec 32) (fromMember toMember chunk : Nat) (data : List Byte) (sat : Bool)
  /-- ABORT (R404). -/
  | abort (group : BitVec 16) (seq : BitVec 32) (status : Status) (member : Nat) (rank : BitVec 14)
  /-- The answer of R402 to a member's signature, or to its chunk contribution: receiving member and chunk. -/
  | notReady (group : BitVec 16) (seq : BitVec 32) (member : Nat) (chunk : Option (Nat × Nat))
  deriving DecidableEq, Repr

/-- The body of a fabric packet behind its route header. -/
inductive Body where
  | transport (h : Transport) (payload : List Byte)
  /-- A request to a gateway, with the remote domain and node that its rank entry names (R389). -/
  | gateway (rdom : BitVec 16) (rnode : BitVec 13) (h : Transport) (payload : List Byte)
  | collective (m : CollMsg)
  /-- A drop notice (R355): the status and the dropped packet's own header and body words. -/
  | notice (status : Status) (h : Option Transport) (m : Option CollMsg)
  /-- A management packet: a register write of a manager (R357). -/
  | mgmtWrite (addr : W32) (value : W32)
  /-- DRAINED of R349, from a node. -/
  | drained
  /-- A weather record of Table 10.10. -/
  | weather (bytes : List Byte)
  deriving DecidableEq, Repr

/-- A fabric packet. -/
structure Packet where
  route : Route
  body  : Body
  deriving DecidableEq, Repr

/-- A hello flit (R331). -/
structure Hello where
  node   : BitVec 13
  domain : BitVec 16
  engine : Nat
  fibre  : Nat
  colour : Nat
  deriving DecidableEq, Repr

/-- A receive lane that lost its light, and whether the peer's park marker came on it before (R324). -/
structure LostLane where
  lane   : Fin 64
  parked : Bool
  deriving DecidableEq, Repr

/-- The bytes 8 to 251 of a flit and its CRC-32, as they came (Table 10.9). -/
structure FlitBytes where
  bytes : List Byte
  crc   : W32
  deriving DecidableEq, Repr

/-- A flit, Table 10.9. `packet` is the packet of the flit when its TAIL completes one. -/
structure Flit where
  seq    : Nat
  ack    : Nat
  nak    : Bool
  vc     : BitVec 3
  stg    : BitVec 2
  head   : Bool
  tail   : Bool
  crvc   : BitVec 3
  crstg  : BitVec 2
  crpool : Bool
  crcnt  : BitVec 6
  idle   : Bool
  packet : Option Packet
  deriving DecidableEq, Repr

/-- A mailbox message, Table 13.5, as received. `pcrcOk` says whether PCRC matches the payload. -/
structure Message where
  vminor  : Nat
  vmajor  : Nat
  typ     : BitVec 16
  length  : Nat
  session : BitVec 16
  status  : BitVec 16
  seq     : W32
  flags   : W32
  pcrcOk  : Bool
  zeroOk  : Bool
  payload : List Byte
  deriving DecidableEq, Repr

/-- An internet address of a host port, first transmitted byte first (Table 14.13). -/
inductive HostAddr where
  | v4 (a : BitVec 32)
  | v6 (a : BitVec 128)
  deriving DecidableEq, Repr

/-- A frame on a host port, with the address it asks for or is sent to (R416). -/
inductive HostFrame where
  | arp (target : BitVec 32)
  | neighbour (target : BitVec 128)
  | icmpEcho (dst : HostAddr)
  /-- RoCE v2 on UDP port 4791. -/
  | roce (dst : HostAddr) (qp : Nat) (opcode : Nat) (ce : Bool)
  | tcp (dst : HostAddr) (port : Nat) (syn : Bool)
  /-- A priority flow control frame (R418): a class and its pause in quanta of 512 bit times. -/
  | pfc (prio : Fin 8) (quanta : BitVec 16)
  | other
  deriving DecidableEq, Repr

/-- What a connection request asks for (R419). -/
inductive ConnKind where
  | newSession
  | data (session : Fin 32)
  /-- From a host address: its family, 4 or 6, × 2^128, and the 16 bytes of Table 14.12 as a little-endian number. -/
  | admin (addr : Nat)
  /-- From a gateway of a domain, for ORD traffic or for the rest (R390). -/
  | gateway (rdom : BitVec 16) (ord : Bool)
  | unreliable
  deriving DecidableEq, Repr

/-- What a connection request asks for besides its use (R417): the path MTU in bytes, and the peer's retry count and timeout. -/
structure ConnTerms where
  mtu     : Nat
  retries : BitVec 3
  timeout : BitVec 5
  deriving DecidableEq, Repr

/-- A connection request: what it is for, and the terms it asks for. -/
structure ConnAsk where
  kind  : ConnKind
  terms : ConnTerms
  deriving DecidableEq, Repr

/-- One image of Table 14.4 with its body. -/
structure Image where
  /-- Header bytes 0 to 511, the signed message. -/
  signed  : List Byte
  rsaKey  : List Byte
  slhKey  : List Byte
  rsaSig  : List Byte
  slhSig  : List Byte
  /-- Header bytes 17,552 to 20,479. -/
  pad     : List Byte
  body    : List Byte
  deriving DecidableEq, Repr

/-- An identity memory record as read (Table 18.5): none when the memory does not answer. -/
abbrev IdRecord := Option (List Byte)

/-- What an atomic or access of the open-site die asks (R521). -/
inductive DieAccess where
  | read (va : Nat)
  | write (va : Nat) (data : List Byte)
  | atomic (va : Nat) (op : AtomicOp) (operand compare : W64)
  deriving DecidableEq, Repr

/-- Where an SPDM request came from (R457). -/
inductive SpdmFrom where
  | mctp
  | tcp (conn : Nat)
  deriving DecidableEq, Repr

/-- A reason for the calibration of R322. -/
inductive CalReason where
  | startUp
  | period
  | offset
  | powerFall
  deriving DecidableEq, Repr

/-- What a gateway carries (R389). -/
inductive GatewayMove where
  /-- An accepted request of source `src`, carried to the other domain's gateway and answered by it. -/
  | outward (src : BitVec 13) (seq : BitVec 16) (status : Status) (data : List Byte)
  /-- An operation that arrives on a gateway queue pair, for node `rnode` of this domain: a read of `len` bytes, or a write. -/
  | inward (qp : Nat) (part : PartId) (rnode : BitVec 13) (offset : BitVec 48) (write : Option (List Byte)) (len : Nat)
  deriving DecidableEq, Repr

/-- What an environment report of a laser shows (R313). -/
structure LaserReading where
  /-- Output into the fibre, 0.1 dBm. -/
  power     : Int
  /-- Bias, 0.5 mA units. -/
  bias      : Nat
  /-- Fall of the output within the last 1 s with no change of bias, 0.1 dB. -/
  fall1s    : Int
  /-- Lock error, 0.1 GHz. -/
  lockErr   : Int
  /-- Time the lock error has been beyond ±2.5 GHz, µs. -/
  offTimeUs : Nat
  deriving DecidableEq, Repr

/-- One sample set for a weather record lane: occupancy and back-pressure histograms (Table 10.10). -/
structure WeatherLane where
  occ : List Nat
  bp  : List Nat
  deriving DecidableEq, Repr

/-- A flow over a native die link (R513): source, destination and virtual channel of its packets, and the role that carries them
(Table 17.2). -/
structure NdlFlow where
  src  : Nat
  dst  : Nat
  vc   : Nat
  role : Fin 4
  deriving DecidableEq, Repr

/-- A group over a native die link: its sequence number and the flows of its packets. -/
structure NdlGroup where
  seq   : Nat
  flows : List NdlFlow
  deriving DecidableEq, Repr

/-- The Wardens' computed plan for one sector (R479 to R483). -/
structure PlanEntry where
  /-- Voltage added over the factory value, mV, before the cap of R483. -/
  guardMv  : Nat
  /-- Further reduction of fmax that the slack target needs, 25 MHz steps. -/
  fmaxDown : Nat
  /-- Least slack over the last period, 0.1%. -/
  slack    : Nat
  deriving DecidableEq, Repr

/-- A training result of one direction of a die-link module (R514, R515): failed wires of the lower and upper half,
of the valid wire, and whether the forwarded clock works. -/
structure DirTest where
  failLow  : Nat
  failHigh : Nat
  clockOk  : Bool
  deriving DecidableEq, Repr

/-- A command of the block: one constructor for each row of the opcode table, in the table's order. -/
inductive Instr where
  /-- REGISTER_WRITE (R36). A write through an access path to a control-space register with no row of its own takes effect, or is refused with 0x081D, is ignored under RO/RSV/RWL, or fails with a bounds or fence status. -/
  | registerWrite (path : Path) (addr : W32) (value : W32) (t : Time)
  /-- WORK_CLOCK_UPDATE (R470). Every 1 µs each compute sector recomputes its work clock, gate and voltage from target, fmax, band and ladder step. -/
  | workClockUpdate (sector : Fin 24) (t : Time)
  /-- ISSUE_STEP (R107). Once per home-sector cycle the sequencer fetches, decodes, checks, predicates and issues or stalls the next word of its stream. -/
  | issueStep (b : BenchId) (t : Time)
  /-- STREAM_BUFFER_FILL (R107). A branch target outside the stream buffer is fetched from device memory and the stalled sequencer resumes when the words arrive. -/
  | streamBufferFill (b : BenchId)
  /-- STATION_START (R123). Once per cycle of its sector clock a station starts its next queued instruction when dependencies have retired, inputs are present and credits are held, after its start checks. -/
  | stationStart (b : BenchId) (ord : Fin 13)
  /-- STATION_RETIRE (R54). A station instruction completes, writes its results in queue order, returns input credits and posts its Assay update. -/
  | stationRetire (b : BenchId) (ord : Fin 13)
  /-- SADD (R83). Adds two scalars modulo 2^64. -/
  | sadd (b : BenchId) (f : Fields)
  /-- SSUB (R83). Subtracts two scalars modulo 2^64. -/
  | ssub (b : BenchId) (f : Fields)
  /-- SMUL (R83). Writes the low 64 bits of the product of two scalars. -/
  | smul (b : BenchId) (f : Fields)
  /-- SAND (R83). Bitwise AND of two scalars. -/
  | sand (b : BenchId) (f : Fields)
  /-- SOR (R83). Bitwise OR of two scalars. -/
  | sor (b : BenchId) (f : Fields)
  /-- SXOR (R83). Bitwise XOR of two scalars. -/
  | sxor (b : BenchId) (f : Fields)
  /-- SSHL (R83). Shifts a scalar left by sb[5:0]. -/
  | sshl (b : BenchId) (f : Fields)
  /-- SSHR (R83). Shifts a scalar right, filling with zeros. -/
  | sshr (b : BenchId) (f : Fields)
  /-- SSRA (R83). Shifts a scalar right, copying the sign. -/
  | ssra (b : BenchId) (f : Fields)
  /-- SMIN (R83). Writes the smaller of two scalars, signed or unsigned by MOD[0]. -/
  | smin (b : BenchId) (f : Fields)
  /-- SMAX (R83). Writes the larger of two scalars, signed or unsigned by MOD[0]. -/
  | smax (b : BenchId) (f : Fields)
  /-- SLI (R83). Loads the sign-extended immediate into a scalar. -/
  | sli (b : BenchId) (f : Fields)
  /-- SLIH (R83). Loads IMM[31:0] into the high half of a scalar, keeping the low half. -/
  | slih (b : BenchId) (f : Fields)
  /-- SADDI (R83). Adds the sign-extended immediate to a scalar. -/
  | saddi (b : BenchId) (f : Fields)
  /-- SLD (R84). Loads 8 bytes of bench store into a scalar, faulting on misalignment or granules not held. -/
  | sld (b : BenchId) (f : Fields)
  /-- SST (R84). Stores a scalar into 8 bytes of bench store. -/
  | sst (b : BenchId) (f : Fields)
  /-- SCMP (R83). Sets a predicate from a comparison of two scalars. -/
  | scmp (b : BenchId) (f : Fields)
  /-- PLOG (R83). Sets a predicate from a logical operation on two predicates. -/
  | plog (b : BenchId) (f : Fields)
  /-- THSET (R86). Sets a tile handle to a range of bench-store lines and reads its header. -/
  | thset (b : BenchId) (f : Fields)
  /-- THMOV (R83). Copies one tile handle to another. -/
  | thmov (b : BenchId) (f : Fields)
  /-- THGET (R83). Reads one field of a tile handle into a scalar. -/
  | thget (b : BenchId) (f : Fields)
  /-- CHOPEN (R91). Opens a channel with its credits, slot size and kind, takes storage from one half and binds the port. -/
  | chopen (b : BenchId) (f : Fields)
  /-- CHCLOSE (R92). Unbinds the port and begins the close of the channel, or only unbinds an out port. -/
  | chclose (b : BenchId) (f : Fields)
  /-- PBIND (R93). Binds or unbinds a port to a channel identifier and direction. -/
  | pbind (b : BenchId) (f : Fields)
  /-- CHSTAT (R83). Reads a channel's free credits, packets present, open and closing state into a scalar. -/
  | chstat (b : BenchId) (f : Fields)
  /-- BR (R87). Branches relative to the branching word, ending loops whose body it leaves. -/
  | br (b : BenchId) (f : Fields)
  /-- BRS (R89). Branches to the offset held in a scalar. -/
  | brs (b : BenchId) (f : Fields)
  /-- LOOP (R88). Repeats the following body of B words sa times, or skips it when sa is 0. -/
  | loop (b : BenchId) (f : Fields)
  /-- CALL (R89). Pushes the return offset and loop depth and branches. -/
  | call (b : BenchId) (f : Fields)
  /-- RET (R89). Pops the return stack, discards loops above the recorded depth and branches. -/
  | ret (b : BenchId) (f : Fields)
  /-- WAITQ (R94). Holds issue until every earlier instruction to the named queues has retired. -/
  | waitq (b : BenchId) (f : Fields)
  /-- WAITP (R83). Holds issue until a predicate has the requested value. -/
  | waitp (b : BenchId) (f : Fields)
  /-- FENCE (R96). Holds issue until the bench, device or global scope of earlier writes is complete. -/
  | fence (b : BenchId) (f : Fields)
  /-- WAITC (R95). Holds issue until a channel holds enough packets or free credits. -/
  | waitc (b : BenchId) (f : Fields)
  /-- YIELD (R63). Marks a yield point; retires at once, or stops the role when a preemption request is pending. -/
  | yield (b : BenchId) (f : Fields)
  /-- END (R97). Ends the role; the sequencer issues nothing more while queued instructions run to retirement. -/
  | endRole (b : BenchId) (f : Fields)
  /-- NOP (R83). Does nothing. -/
  | nop (b : BenchId) (f : Fields)
  /-- BENCHID (R83). Writes the physical die, bench and sectors of the role into a scalar. -/
  | benchid (b : BenchId) (f : Fields)
  /-- SYSTEM_QUEUE_TAKE (R108). A hub engine takes the next entry from a bench's system queue in issue order. -/
  | systemQueueTake (b : BenchId) (t : Time)
  /-- SEGMENT_END (R102). A segment of a split request ends as landed, failed or untouched. -/
  | segmentEnd (req : Nat) (seg : Nat) (t : Time)
  /-- FAULT_ARBITRATION (R113). A fault report reaching the scheduler's fault arbiter is recorded as the first fault or counted as a later one. -/
  | faultArbitration (hub : Fin 2) (n : Nat) (t : Time)
  /-- PROGRAM_END (R59). When every role has ended and all its transfers have completed, the part closes channels, frees granules and pages and writes the completion. -/
  | programEnd (prog : Nat) (t : Time)
  /-- CHANNEL_WRITE_COMPLETE (R49). A producer's packet becomes complete in its slot, holding the credit until then. -/
  | channelWriteComplete (b : BenchId) (ch : Fin 64)
  /-- CREDIT_RETURN (R51). A credit returned across the on-die network or die links arrives at a bridge channel's producer. -/
  | creditReturn (b : BenchId) (ch : Fin 64)
  /-- CHANNEL_CLOSE_COMPLETE (R53). A closing channel whose slots are empty and credits returned is freed, or is discarded when its consumer is fenced. -/
  | channelCloseComplete (b : BenchId) (ch : Fin 64) (t : Time)
  /-- MMA (R126). Contracts two tiles exactly along K and adds the scaled sum into an FP32 accumulator buffer. -/
  | mma (b : BenchId) (i : Fin 4)
  /-- MMADR (R131). Drains an accumulator buffer as one packet, clearing it unless KEEP is set. -/
  | mmadr (b : BenchId) (i : Fin 4)
  /-- ACCLD (R132). Loads an accumulator buffer from an FP32 packet. -/
  | accld (b : BenchId) (i : Fin 4)
  /-- ACCZ (R132). Clears an accumulator buffer and removes its extent. -/
  | accz (b : BenchId) (i : Fin 4)
  /-- QNT (R136). Quantises a wide tile to a narrow format with scale choice, rotation, spill, rounding and possible escalation. -/
  | qnt (b : BenchId) (i : Fin 2)
  /-- DQT (R138). Dequantises a packet to FP32, BF16 or FP16, optionally undoing its rotation. -/
  | dqt (b : BenchId) (i : Fin 2)
  /-- HAD (R139). Applies the Hadamard rotation or its inverse to an FP32 tile. -/
  | had (b : BenchId) (i : Fin 2)
  /-- ASY (R140). Adds a tile's statistics to the Assay counters of a TAG without writing a packet. -/
  | asy (b : BenchId) (i : Fin 2)
  /-- VSEQ (R143). Runs a chain slot's steps on every lane over up to four operands and writes its outputs. -/
  | vseq (b : BenchId) (i : Fin 2)
  /-- VRED (R145). Reduces each row or column of a tile by sum, max, min or sum of squares. -/
  | vred (b : BenchId) (i : Fin 2)
  /-- FXLOAD (R141). Loads a chain program's constants and steps from bench store into a chain slot. -/
  | fxload (b : BenchId) (i : Fin 2)
  /-- VFILL (R146). Writes a tile whose every element is one value. -/
  | vfill (b : BenchId) (i : Fin 2)
  /-- SWT (R147). Transposes a tile without block scales. -/
  | swt (b : BenchId)
  /-- SWX (R148). Copies a region of one tile into another with its scales. -/
  | swx (b : BenchId)
  /-- SWGA (R149). Gathers rows from listed bench-store addresses into a tile. -/
  | swga (b : BenchId)
  /-- SWSC (R149). Scatters the rows of a tile to listed bench-store addresses. -/
  | swsc (b : BenchId)
  /-- SWC (R150). Copies bytes within bench store as if through a buffer. -/
  | swc (b : BenchId)
  /-- CRED (R151). Folds N packets into an FP32 accumulator tile by add, max or min. -/
  | cred (b : BenchId)
  /-- CXSUM (R152). Adds every element or its square exactly into a 128-bit fixed-point accumulator. -/
  | cxsum (b : BenchId)
  /-- SPRD (R154). Reads bytes from a global pointer into bench store as a split request. -/
  | sprd (b : BenchId) (i : Fin 2) (t : Time)
  /-- SPWR (R154). Writes bytes from bench store to a global pointer as a split request. -/
  | spwr (b : BenchId) (i : Fin 2) (t : Time)
  /-- SPTLD (R155). Loads a tile packet from a global pointer after checking its header. -/
  | sptld (b : BenchId) (i : Fin 2) (t : Time)
  /-- SPTST (R155). Stores a tile packet to a global pointer. -/
  | sptst (b : BenchId) (i : Fin 2) (t : Time)
  /-- SPXF (R159). Moves one packet unchanged into a bridge channel through an out port. -/
  | spxf (b : BenchId) (i : Fin 2)
  /-- SPPF (R160). Warms the TLB and asks Drift to make a range resident in HBM. -/
  | sppf (b : BenchId) (i : Fin 2)
  /-- HENC (R162). Computes Cauchy Reed–Solomon parity shards over data shards. -/
  | henc (b : BenchId)
  /-- HDEC (R163). Rebuilds lost shards from surviving shards. -/
  | hdec (b : BenchId)
  /-- HSUM (R164). Computes a CRC-32C or CRC-64 checksum, optionally continuing a previous one. -/
  | hsum (b : BenchId)
  /-- COLLECTIVE_CHUNK_FOLD (R410). The owner's CRU0 folds a received chunk contribution into its staging accumulator, taking turns with the role's instructions. -/
  | collectiveChunkFold (b : BenchId)
  /-- ASSAY_UPDATE_APPLY (R208). A posted Assay update is applied to its TAG's record by the hub of its parity, or discarded when disabled or the line is bad. -/
  | assayUpdateApply (p : PartId) (hub : Fin 2) (t : Time)
  /-- SEEDSET (R186). Loads a numeric seed slot in both Tempers. -/
  | seedset (b : BenchId)
  /-- ASYCLR (R209). Zeroes the Assay records of a tag range after its role's updates are applied. -/
  | asyclr (b : BenchId)
  /-- NUMHIST (R194). Commits each tag's pending maximum into its scale history. -/
  | numhist (b : BenchId)
  /-- ASYSYNC (R208). Retires when every Assay update posted by earlier instructions of the role has been written. -/
  | asysync (b : BenchId)
  /-- NUM_CTL_WRITE (R204). A write of NUM_CTL sets its controls, refusing ASYEN with 0x0602 unless the table is mapped and pinned, and flushing updates when ASYEN is cleared. -/
  | numCtlWrite (path : Path) (p : PartId) (value : W32) (t : Time)
  /-- NUM_ASYBASE_WRITE (R210). A write of the Assay table base is ignored with 0x0602 while ASYEN is 1. -/
  | numAsybaseWrite (path : Path) (p : PartId) (hi : Bool) (value : W32) (t : Time)
  /-- GALLOC (R222). Allocates a contiguous run of free granules from the requested half. -/
  | galloc (b : BenchId)
  /-- GFREE (R224). Returns a run of granules the role holds, after earlier users complete. -/
  | gfree (b : BenchId)
  /-- PALLOC (R231). Maps and allocates a range of pages in HBM, tier 2 or both, with attributes. -/
  | palloc (b : BenchId) (t : Time)
  /-- PFREE (R233). Unmaps a range, waits for translated segments, aborts migration and frees frames to scrubbing. -/
  | pfree (b : BenchId)
  /-- PPIN (R234). Pins a range in HBM, promoting tier-2 pages, or unpins it. -/
  | ppin (b : BenchId) (t : Time)
  /-- PPROT (R230). Sets or clears write permission on a range of pages. -/
  | pprot (b : BenchId)
  /-- PQUERY (R238). Writes one page's leaf entry, without its frame, to a scalar. -/
  | pquery (b : BenchId)
  /-- PAGE_WALK (R239). A Sprue TLB miss completes its hardware walk and resumes or redirects the segment. -/
  | pageWalk (req : Nat) (seg : Nat) (t : Time)
  /-- DRIFT_DEMAND_FETCH (R244). Drift starts moving a tier-2 page to HBM for a waiting segment, demoting a page first if needed or failing with 0x0503. -/
  | driftDemandFetch (p : PartId) (vpn : Nat) (t : Time)
  /-- DRIFT_FRAGMENT_ARRIVE (R245). A 64 KiB fragment of a page in migration lands and waiting reads on it resume. -/
  | driftFragmentArrive (p : PartId) (vpn : Nat) (frag : Fin 32) (t : Time)
  /-- DRIFT_MOVE_COMPLETE (R245). A migration ends, the leaf entry is switched to the new frame and the old frame goes to scrubbing. -/
  | driftMoveComplete (p : PartId) (vpn : Nat) (t : Time)
  /-- DRIFT_DEMOTE (R243). Above the high watermark Drift demotes the coldest HBM page to tier 2, or stops with a Warning when no tier-2 frame is free. -/
  | driftDemote (p : PartId) (t : Time)
  /-- HEAT_DECAY (R242). At every DECAY period Drift halves HEAT in every leaf of the partition. -/
  | heatDecay (p : PartId) (t : Time)
  /-- FRAME_SCRUB (R228). A hub finishes scrubbing a freed frame to zero and returns it to the free list, releasing a waiting PALLOC. -/
  | frameScrub (hub : Fin 2)
  /-- ALC_QUOTA_WRITE (R226). A write of an HBM or tier-2 quota is accepted or refused with 0x0286. -/
  | alcQuotaWrite (path : Path) (p : PartId) (tier2 : Bool) (value : W32) (t : Time)
  /-- SCH_BENCH_WRITE (R248). A write of a partition's bench mask is accepted or refused with 0x0285. -/
  | schBenchWrite (path : Path) (p : PartId) (value : W32) (t : Time)
  /-- SCH_CTL_WRITE (R249). A write of SCH_CTL sets or clears EN and the scheduling controls, refusing EN with RATE 0. -/
  | schCtlWrite (path : Path) (p : PartId) (value : W32) (t : Time)
  /-- SCH_SAVEQ_WRITE (R227). A write of the save-page reservation is accepted or refused with 0x0286. -/
  | schSaveqWrite (path : Path) (p : PartId) (value : W32) (t : Time)
  /-- ALC_BW_WRITE (R253). A write of RATE, DEPTH and BORROW is accepted or refused with 0x0286. -/
  | alcBwWrite (path : Path) (p : PartId) (value : W32) (t : Time)
  /-- TOKEN_REFILL (R251). Every NOCCLK cycle each partition's bucket in each regulator group refills and waiting accesses are admitted. -/
  | tokenRefill
  /-- LAUNCH_RECORD_TAKE (R433). The scheduler takes a launch record from HEAD, queues its program or completes it with 0x0816. -/
  | launchRecordTake (sess : Fin 32) (list : Nat) (t : Time)
  /-- PROGRAM_PLACE (R255). The scheduler places the first program in priority order on benches, or preempts or waits. -/
  | programPlace (p : PartId) (t : Time)
  /-- PROGRAM_START (R57). When every role's granules and stream are loaded, each sequencer begins at its first word. -/
  | programStart (prog : Nat) (t : Time)
  /-- ROLE_STOP_AT_YIELD (R64). A role at a YIELD stops once its instructions have retired, its non-live channels are empty and no collective or fetch is outstanding. -/
  | roleStopAtYield (prog : Nat) (role : Nat)
  /-- YIELD_TIMEOUT (R65). When not every role stops within YTO, the request is withdrawn and stopped roles resume. -/
  | yieldTimeout (prog : Nat) (t : Time)
  /-- PREEMPT_SAVE_COMPLETE (R261). The live state of every stopped role has been saved and the program becomes Saved. -/
  | preemptSaveComplete (prog : Nat) (t : Time)
  /-- RESTORE_COMPLETE (R66). The restored state of a resumed program is in place and each role restarts after its YIELD. -/
  | restoreComplete (prog : Nat) (t : Time)
  /-- HBM_ACCESS (R281). A 64-byte access is applied at its pseudo-channel in arrival order, corrected or failing as uncorrectable or poisoned. -/
  | hbmAccess (pa : Nat) (acc : Access64) (err : List (Nat × BitVec 16)) (t : Time)
  /-- HBM_SCRUB (R271). The memory core reads a line in its scrub pass and writes corrected data back unless a program write intervened. -/
  | hbmScrub (pa : Nat) (err : List (Nat × BitVec 16)) (wrote : Bool) (t : Time)
  /-- STACK_TEMP_SAMPLE (R278). Every 32 µs the stack temperature is sampled and the refresh rate and hot throttle change with hysteresis. -/
  | stackTempSample (stack : StackId) (temp : Int) (t : Time)
  /-- NEAR_MEMORY_ATOMIC (R282). An atomic unit applies one read-modify-write to an aligned word and returns the old value. -/
  | nearMemoryAtomic (pa : Nat) (op : AtomicOp) (operand : W64) (compare : W64)
  /-- MODULE_PARITY_LOSS (R288). After every lane of a Stratus module through one engine stays down 10 ms, the module loses that parity or is fenced. -/
  | moduleParityLoss (m : Fin 4) (odd : Bool) (t : Time)
  /-- RING_LOOP_UPDATE (R304). Every 5 µs each ring's heater is updated from its monitor photodiode, taking the lane down when out of reach. -/
  | ringLoopUpdate (e : EngineId) (dir : LaneDir) (l : Fin 64) (lockErr : Int) (heater : Nat) (temp : Int) (t : Time)
  /-- LANE_POWER_SAMPLE (R307). Every 10 µs each receive lane's power and error rate set its margin condition and may take it down. -/
  | lanePowerSample (e : EngineId) (l : Fin 64) (power : Int) (berHigh : Bool) (ber : BitVec 8) (temp : Int) (t : Time)
  /-- LOSS_OF_LIGHT (R308). The analogue detector marks a lane down, stops its paired transmit lane and hands in-flight flits to replay. -/
  | lossOfLight (e : EngineId) (l : LostLane) (t : Time)
  /-- LANE_RETRAIN (R309). A down lane with margin at both ends retrains, or is fenced after 8 downs in 60 s. -/
  | laneRetrain (e : EngineId) (dir : LaneDir) (l : Fin 64) (near : Int) (far : Int) (t : Time)
  /-- LANE_UP (R309). A trained lane returns to up after its error rate stays low for 1 ms. -/
  | laneUp (e : EngineId) (dir : LaneDir) (l : Fin 64) (berLow : Bool) (t : Time)
  /-- LASER_BIAS_STEP (R312). The engine core raises a laser's bias by 0.5 mA to hold its output. -/
  | laserBiasStep (e : EngineId) (k : Fin 16) (power : Int)
  /-- LASER_FADE_DECLARE (R313). The engine core declares a laser faded or dead and queues its swap. -/
  | laserFadeDeclare (e : EngineId) (k : Fin 16) (r : LaserReading) (t : Time)
  /-- SWAP_WARM (R314). A swap starts by warming the spare laser to its operating point. -/
  | swapWarm (e : EngineId) (t : Time)
  /-- SWAP_LOCK (R315). The warmed spare is locked to its wavelength. -/
  | swapLock (e : EngineId) (err : Int) (t : Time)
  /-- SWAP_QUIESCE (R316). Routers stop giving flits to the colour and outstanding flits are acknowledged or replayed elsewhere. -/
  | swapQuiesce (e : EngineId) (t : Time)
  /-- SWAP_SWITCH (R315). The pair switch changes over to the spare laser. -/
  | swapSwitch (e : EngineId) (t : Time)
  /-- SWAP_RESUME (R314). After retrain the colour returns to service and the faded laser is marked spent. -/
  | swapResume (e : EngineId) (t : Time)
  /-- SWAP_ABANDON (R315). A spare not locked by 6.0 ms is marked failed and the colour stays on the faded laser. -/
  | swapAbandon (e : EngineId) (t : Time)
  /-- CALIBRATION_DUE (R322). Periodic or early calibration of an engine's colours is started. -/
  | calibrationDue (e : EngineId) (why : CalReason) (t : Time)
  /-- CALIBRATION_WINDOW (R323). One colour is quiesced for 0.5 ms, calibrated and returned to service. -/
  | calibrationWindow (e : EngineId) (k : Fin 16) (t : Time)
  /-- OPT_CALNOW (R322). OPT_CTL.CALNOW starts a full calibration of the engine. -/
  | optCalnow (path : Path) (e : EngineId) (value : W32) (t : Time)
  /-- OPT_PARK (R324). Setting OPT_CTL.PARK sends park markers and turns off the lane datapaths; clearing it retrains them. -/
  | optPark (path : Path) (e : EngineId) (value : W32) (t : Time)
  /-- OPT_SWAP_REQ (R314). OPT_SWAP.REQ requests a swap of laser K as if it had faded. -/
  | optSwapReq (path : Path) (e : EngineId) (value : W32) (t : Time)
  /-- OPT_SWAP_UNFENCE (R309). OPT_SWAP.UNFENCE clears the fence of one optical lane. -/
  | optSwapUnfence (path : Path) (e : EngineId) (value : W32) (t : Time)
  /-- FIBRE_OPEN_DETECT (R325). A transmit fibre found open closes its shutter to below −10 dBm within 1 ms. -/
  | fibreOpenDetect (e : EngineId) (f : Fin 4)
  /-- SHUTTER_PROBE (R325). Every 1 s an open fibre is probed at reduced power and returns to full power when light is found. -/
  | shutterProbe (e : EngineId) (f : Fin 4) (found : Bool)
  /-- ENGINE_CORE_RESTART (R327). An engine core finishes its restart and resumes fade detection, swaps and calibration. -/
  | engineCoreRestart (e : EngineId) (t : Time)
  /-- HELLO_SEND (R331). A sender transmits a hello flit at training and every 1 ms. -/
  | helloSend (e : EngineId) (f : Fin 4) (k : Fin 16) (t : Time)
  /-- HELLO_RECEIVE (R331). A received hello is checked against the wiring rules and may fence the lane as miswired. -/
  | helloReceive (e : EngineId) (f : Fin 4) (k : Fin 16) (h : Hello) (t : Time)
  /-- DISCOVERY_COMPLETE (R333). Discovery completes 2 ms after the last lane comes up. -/
  | discoveryComplete (t : Time)
  /-- PACKET_INJECT (R337). The network interface routes a new packet by its entry, refusing it with 0x0401 or 0x0402. -/
  | packetInject (p : PartId) (pkt : Packet) (t : Time)
  /-- PACKET_ARRIVE (R337). A router handles an arriving packet by stage, forwarding, delivering, copying or dropping it. -/
  | packetArrive (link : LinkId) (pkt : Packet) (t : Time)
  /-- FAB_SWAP (R347). FAB_TBL.SWAP makes the shadow set active with the next epoch, or is refused with 0x0406. -/
  | fabSwap (path : Path) (value : W32) (t : Time)
  /-- FAB_FORCE (R350). FAB_TBL.FORCE releases the draining set at once. -/
  | fabForce (path : Path) (value : W32) (t : Time)
  /-- DRAIN_MARKER_ARRIVE (R348). A drain marker arrives and the router sends the next markers when their conditions hold. -/
  | drainMarkerArrive (link : LinkId) (typ : BitVec 2) (stage : Fin 6) (t : Time)
  /-- DRAIN_RELEASE (R349). When all markers have passed and no old packet remains, the old set is released and DRAINED sent. -/
  | drainRelease (t : Time)
  /-- DRAIN_WARN_TIMEOUT (R350). A drain lasting beyond DRAINWARN raises one Warning event. -/
  | drainWarnTimeout (t : Time)
  /-- FLIT_RECEIVE (R352). A received flit is checked, delivered in SEQ order or held, credits and acknowledgements are taken, and NAK is sent on CRC failure. -/
  | flitReceive (link : LinkId) (flit : Flit) (wire : FlitBytes) (fec : Option Nat) (t : Time)
  /-- FLIT_GAP_TIMEOUT (R352). A gap open for 2 µs sends NAK. -/
  | flitGapTimeout (link : LinkId) (t : Time)
  /-- REPLAY_TIMEOUT (R352). With no acknowledgement within REPLAYTO the sender resends from the first unacknowledged flit. -/
  | replayTimeout (link : LinkId) (t : Time)
  /-- NAK_RECEIVE (R352). On NAK the sender replays from the first unacknowledged flit over any up lane. -/
  | nakReceive (link : LinkId) (ack : Nat) (t : Time)
  /-- LINK_FAILURE (R354). After LINKTO a link is declared failed and its packets are dropped with 0x0407 or 0x0404. -/
  | linkFailure (link : LinkId) (t : Time)
  /-- WEATHER_RECORD (R356). Every 100 µs the part builds a weather record and sends every DIV-th to the collector. -/
  | weatherRecord (lanes : List WeatherLane) (t : Time)
  /-- WEATHER_APPEND (R356). The collector's Steward appends a received weather record to its ring. -/
  | weatherAppend (bytes : List Byte)
  /-- FAB_PSLICE_WRITE (R346). A slice binding write is accepted or refused with 0x0408. -/
  | fabPsliceWrite (path : Path) (p : PartId) (value : W32) (t : Time)
  /-- RLD (R363). Loads 4 or 8 bytes from a global pointer, completing with status scalar and predicate. -/
  | rld (b : BenchId) (t : Time)
  /-- RST (R363). Stores 4 or 8 bytes to a global pointer. -/
  | rst (b : BenchId) (t : Time)
  /-- RAMO (R366). Applies a remote atomic at the home and returns the old value. -/
  | ramo (b : BenchId) (t : Time)
  /-- RPUT (R365). Moves bytes from the partition's space to a home as a split request. -/
  | rput (b : BenchId) (t : Time)
  /-- RGET (R365). Moves bytes from a home into the partition's space as a split request. -/
  | rget (b : BenchId) (t : Time)
  /-- ROWN (R382). Asks the home for an ownership state change of a region. -/
  | rown (b : BenchId) (t : Time)
  /-- RANK_TABLE_WRITE (R361). A rank-table entry write takes effect for later operations, or is refused with 0x0102. -/
  | rankTableWrite (path : Path) (p : PartId) (r : Fin 16384) (hi : Bool) (value : W32) (t : Time)
  /-- REQUEST_ARRIVE (R373). A home takes a request as stale, new, duplicate or done against the source's window. -/
  | requestArrive (pkt : Packet) (t : Time)
  /-- REQUEST_APPLY (R381). An accepted request is applied at its pseudo-channel in acceptance order and its response sent. -/
  | requestApply (src : BitVec 13) (seq : BitVec 16) (t : Time)
  /-- RESPONSE_ARRIVE (R377). A final response completes the operation; later responses to the tag are discarded. -/
  | responseArrive (pkt : Packet) (t : Time)
  /-- NACK_RESEND (R375). 2 µs after a NACK the source sends the same request again. -/
  | nackResend (tag : Nat) (t : Time)
  /-- REMOTE_RETRANSMIT (R377). On a drop notice or after RTO the source resends the request, or gives up after RETRIES. -/
  | remoteRetransmit (tag : Nat) (notice : Bool) (t : Time)
  /-- FLOOR_SEND (R378). 20 µs after the floor advances with no request to that home, the source sends FLOOR. -/
  | floorSend (home : BitVec 13) (t : Time)
  /-- RMA_PURGE (R376). RMA_PURGE.GO discards the window states and ledger entries of one source node. -/
  | rmaPurge (path : Path) (value : W32) (t : Time)
  /-- GATEWAY_FORWARD (R389). A gateway carries an operation over RoCE to the remote domain's gateway. -/
  | gatewayForward (g : GatewayMove) (t : Time)
  /-- GATEWAY_CONNECTION_LOST (R390). A gateway that loses its remote connection completes its operations with 0x0489. -/
  | gatewayConnectionLost (rdom : BitVec 16) (t : Time)
  /-- CBAR (R406). Barrier over a collective group. -/
  | cbar (b : BenchId) (t : Time)
  /-- CSRED (R407). Reduces up to eight scalar values across the group's members. -/
  | csred (b : BenchId) (t : Time)
  /-- CTAR (R409). All-reduce of a tensor across the group. -/
  | ctar (b : BenchId) (t : Time)
  /-- CTRS (R409). Reduce-scatter of a tensor across the group. -/
  | ctrs (b : BenchId) (t : Time)
  /-- CTAG (R409). All-gather of a tensor across the group. -/
  | ctag (b : BenchId) (t : Time)
  /-- CTBC (R409). Broadcast of the root member's tensor to every member. -/
  | ctbc (b : BenchId) (t : Time)
  /-- SIGNATURE_ARRIVE (R403). A signature arrives at member 0's part and, when all are in, GO is sent or the collective aborts. -/
  | signatureArrive (p : PartId) (src : BitVec 13) (msg : CollMsg) (t : Time)
  /-- NOT_READY_RESEND (R402). A contribution answered not-ready is sent again after 2 µs. -/
  | notReadyResend (p : PartId) (group : BitVec 16) (seq : BitVec 32) (member : Nat) (t : Time)
  /-- GO_ARRIVE (R410). GO reaches a member, which begins sending its chunks. -/
  | goArrive (p : PartId) (msg : CollMsg) (t : Time)
  /-- CHUNK_ARRIVE (R410). A chunk contribution or result chunk arrives, is staged or written, or discarded as a duplicate. -/
  | chunkArrive (p : PartId) (src : BitVec 13) (msg : CollMsg) (t : Time)
  /-- COLLECTIVE_ABORT (R404). ABORT reaches a member, which discards staging and completes the collective with its status. -/
  | collectiveAbort (p : PartId) (msg : CollMsg) (t : Time)
  /-- COLLECTIVE_TIMEOUT (R413). COLTO passes with contributions missing and the collective aborts with 0x0702. -/
  | collectiveTimeout (p : PartId) (group : BitVec 16) (seq : BitVec 32) (member : Nat) (t : Time)
  /-- COLLECTIVE_RESEND (R412). 2 µs after a drop notice a collective packet is resent. -/
  | collectiveResend (p : PartId) (dst : BitVec 13) (msg : CollMsg) (t : Time)
  /-- OPEN (R421). Opens a session in a partition, returning session, token and status-window rkey. -/
  | openSession (qp : Nat) (part : Nat) (key : W32) (t : Time)
  /-- ATTACH (R425). Reattaches to a session, returning it to Open. -/
  | attach (qp : Nat) (sess : Nat) (token : W32) (key : W32) (t : Time)
  /-- CLOSE (R426). Closes a session, refused while programs exist unless FORCE. -/
  | close (qp : Nat) (force : Bool) (t : Time)
  /-- HEARTBEAT (R423). Renews the lease and returns the time remaining. -/
  | heartbeat (qp : Nat) (t : Time)
  /-- REGREAD (R429). Reads up to 1,024 registers in payload order. -/
  | regread (qp : Nat) (addrs : List W32) (t : Time)
  /-- REGWRITE (R429). Writes up to 1,024 registers in order, stopping at the first refusal. -/
  | regwrite (qp : Nat) (writes : List (W32 × W32)) (t : Time)
  /-- MRREG (R430). Registers a device-virtual range as an RDMA region. -/
  | mrreg (qp : Nat) (base : Nat) (len : Nat) (access : BitVec 2) (t : Time)
  /-- MRDEREG (R430). Deregisters an RDMA region. -/
  | mrdereg (qp : Nat) (rkey : W32) (t : Time)
  /-- INTAKE_ADD (R432). Registers an intake list over pinned pages. -/
  | intakeAdd (qp : Nat) (base : Nat) (entries : Nat) (cap : Nat) (notify : Bool) (t : Time)
  /-- INTAKE_DEL (R433). Removes an intake list. -/
  | intakeDel (qp : Nat) (list : Nat) (t : Time)
  /-- CANCEL (R434). Ends the program of a launch record at its next YIELD, or at once with FORCE. -/
  | cancel (qp : Nat) (list : Nat) (record : Nat) (force : Bool) (t : Time)
  /-- EVSUB (R504). Sets the lowest severity sent to this mailbox. -/
  | evsub (qp : Nat) (severity : Nat) (t : Time)
  /-- GWCONN (R431). Builds the gateway queue pairs to one remote gateway. -/
  | gwconn (qp : Nat) (rdom : BitVec 16) (addr : Nat) (port : Nat) (t : Time)
  /-- MESSAGE_RECEIVE (R427). A mailbox message is checked, deduplicated by sequence, queued or refused. -/
  | messageReceive (qp : Nat) (m : Message) (t : Time)
  /-- LEASE_CHECK (R423). Every 10 ms the Steward checks leases and orphans sessions whose lease expired. -/
  | leaseCheck (t : Time)
  /-- ORPHRUN_EXPIRE (R424). When ORPHRUN elapses, unstopped programs end with 0x0817 and the session enters Holding. -/
  | orphrunExpire (sess : Fin 32) (t : Time)
  /-- HOLD_EXPIRE (R424). When HOLD elapses, Saved programs are discarded and the session's lists, regions and pages are freed. -/
  | holdExpire (sess : Fin 32) (t : Time)
  /-- SESSION_FREED (R424). When the last frame of a freeing session leaves use, the session is Closed and its slot free. -/
  | sessionFreed (sess : Fin 32) (t : Time)
  /-- TAIL_NOTICE (R433). An RDMA write covering TAIL, or the 100 µs poll, finds new posted records. -/
  | tailNotice (sess : Fin 32) (list : Nat) (t : Time)
  /-- RDMA_DATA_ACCESS (R430). An RDMA WRITE or READ reaches a registered region and completes or fails with a remote access error. -/
  | rdmaDataAccess (qp : Nat) (rkey : W32) (va : Nat) (write : Option (List Byte)) (len : Nat) (t : Time)
  /-- STATUS_WINDOW_READ (R435). An RDMA READ of the status window returns one snapshot of the partition's view. -/
  | statusWindowRead (qp : Nat) (rkey : W32) (addr : Nat) (len : Nat) (t : Time)
  /-- HOST_FRAME_RECEIVE (R416). A frame on a host port is answered, accepted as RoCE or SPDM TCP, reset or discarded. -/
  | hostFrameReceive (port : Fin 4) (fr : HostFrame) (t : Time)
  /-- CNP_RECEIVE (R418). A congestion notification halves the queue pair's send rate. -/
  | cnpReceive (qp : Nat) (t : Time)
  /-- CE_MARK_RECEIVE (R418). A CE-marked packet makes the part send one congestion notification, at most once per 50 µs. -/
  | ceMarkReceive (qp : Nat) (t : Time)
  /-- CNP_RATE_RECOVER (R418). Every 55 µs without notification the queue pair's rate rises by 5% of line rate. -/
  | cnpRateRecover (qp : Nat) (t : Time)
  /-- CONNECTION_REQUEST (R419). A RoCE connection request creates a queue pair or is rejected beyond the limits. -/
  | connectionRequest (port : Fin 4) (ask : ConnAsk) (t : Time)
  /-- HOST_PORT_LINK_DOWN (R420). A port's link goes down and its queue pairs fail while sessions remain. -/
  | hostPortLinkDown (port : Fin 4) (t : Time)
  /-- WATCHDOG_EXPIRE (R438). A processor's watchdog expires and the processor restarts alone. -/
  | watchdogExpire (i : Fin 35) (t : Time)
  /-- FWP_RESTART (R438). FWP_CTL.RESTART restarts one firmware processor. -/
  | fwpRestart (path : Path) (value : W32) (t : Time)
  /-- FWP_UNFENCE (R440). FWP_CTL.UNFENCE clears a processor's fence and restarts it once. -/
  | fwpUnfence (path : Path) (value : W32) (t : Time)
  /-- PROCESSOR_RESTART_DONE (R439). A restarted processor runs again, or is fenced after three restarts in 10 minutes. -/
  | processorRestartDone (i : Fin 35) (t : Time)
  /-- STEWARD_FAILOVER (R439). A fenced Steward core's duties pass to the next core within 10 ms. -/
  | stewardFailover (i : Fin 35) (t : Time)
  /-- BOOT_START (R446). The boot core leaves reset, samples the straps, reads the boot records and chooses the bank. -/
  | bootStart (straps : BitVec 16) (t : Time)
  /-- BOOT_IMAGES_VERIFIED (R447). Images are verified and measured and the processors released, or the boot falls back or enters recovery. -/
  | bootImagesVerified (t : Time)
  /-- IDENTITY_KEYS_READY (R459). The derived identity keys become ready and signed SPDM responses are served. -/
  | identityKeysReady (t : Time)
  /-- TRIAL_TIMEOUT (R448). 30 s into a trial boot TRIAL is cleared if all processors run, or the part is reset. -/
  | trialTimeout (t : Time)
  /-- UPD_STAGE (R453). UPD_CTL.STAGE verifies, erases, writes and reads back an image set into the inactive bank. -/
  | updStage (path : Path) (value : W32) (mctp : Option (List Byte)) (t : Time)
  /-- UPD_ACTIVATE_LIVE (R454). Live activation restarts processors one at a time onto the staged images. -/
  | updActivateLive (path : Path) (value : W32) (t : Time)
  /-- UPD_ACTIVATE_RESET (R455). Reset activation names the staged bank active on trial and resets the part. -/
  | updActivateReset (path : Path) (value : W32) (t : Time)
  /-- UPD_COMMIT (R451). COMMIT blows counter fuses to the active set SVN and revokes named vendor slots. -/
  | updCommit (path : Path) (value : W32) (t : Time)
  /-- UPD_ABORT (R456). ABORT withdraws a pending request or stops a paused live activation. -/
  | updAbort (path : Path) (value : W32) (t : Time)
  /-- EMERGENCY_HOLDOFF_END (R456). 100 ms after the last emergency clears, a deferred request starts or a paused activation resumes. -/
  | emergencyHoldoffEnd (t : Time)
  /-- LIVE_ACTIVATION_STEP (R454). A processor has started on its new image, is measured into MR11, and the next one is taken or the sequence pauses. -/
  | liveActivationStep (ok : Bool) (t : Time)
  /-- ATT_EXTEND (R450). ATT_EXTCTL.GO extends MR12 to MR15 with the digest in ATT_EXTD. -/
  | attExtend (path : Path) (value : W32) (t : Time)
  /-- ATT_OWNER_ENROL (R445). ATT_OWNCTL.ENROL fuses a digest into an owner key slot. -/
  | attOwnerEnrol (path : Path) (value : W32) (t : Time)
  /-- ATT_OWNER_REVOKE (R452). ATT_OWNCTL.REVOKE revokes an owner slot unless none would remain. -/
  | attOwnerRevoke (path : Path) (value : W32) (t : Time)
  /-- GET_VERSION (R457). SPDM request for supported versions. -/
  | getVersion (src : SpdmFrom) (t : Time)
  /-- GET_CAPABILITIES (R457). SPDM request for capabilities. -/
  | getCapabilities (src : SpdmFrom) (t : Time)
  /-- NEGOTIATE_ALGORITHMS (R458). SPDM algorithm negotiation of RSA-3072 and SHA-384. -/
  | negotiateAlgorithms (src : SpdmFrom) (rsa3072 : Bool) (sha384 : Bool) (t : Time)
  /-- GET_DIGESTS (R457). SPDM request for certificate chain digests. -/
  | getDigests (src : SpdmFrom) (t : Time)
  /-- GET_CERTIFICATE (R459). SPDM request for a certificate chain. -/
  | getCertificate (src : SpdmFrom) (slot : Nat) (offset : Nat) (len : Nat) (t : Time)
  /-- CHALLENGE (R458). SPDM challenge answered with dual-signed CHALLENGE_AUTH. -/
  | challenge (src : SpdmFrom) (slot : Nat) (nonce : List Byte) (t : Time)
  /-- GET_MEASUREMENTS (R460). SPDM request for measurement indices, signed when asked. -/
  | getMeasurements (src : SpdmFrom) (index : Nat) (signed : Bool) (nonce : List Byte) (t : Time)
  /-- SPDM_UNSUPPORTED (R457). Any other SPDM request is answered ERROR UnsupportedRequest. -/
  | spdmUnsupported (src : SpdmFrom) (code : Byte) (t : Time)
  /-- SPDM_SIGN_COMPLETE (R461). A queued signed response finishes signing and is sent. -/
  | spdmSignComplete (t : Time)
  /-- SPDM_TCP_CONNECT (R457). A TCP connection to the SPDM port is accepted up to 8 or reset. -/
  | spdmTcpConnect (port : Fin 4) (t : Time)
  /-- AVSBUS_READBACK (R466). Every 50 µs Steward core 3 reads VFEED voltage and current. -/
  | avsbusReadback (mv : Nat) (amps : Nat) (t : Time)
  /-- PACKAGE_POWER_SAMPLE (R469). Every 100 µs package power is measured and compared with the effective TDP. -/
  | packagePowerSample (sectorMw : Nat) (rails : List (Option Nat)) (t : Time)
  /-- LADDER_STEP (R473). Every 20 µs each sector's current ladder steps up when over or down after 2 ms clear. -/
  | ladderStep (sector : SectorId) (amps : Nat) (t : Time)
  /-- RATE_EVALUATE (R475). Every 5 µs a sector's rate of rise is evaluated, raising a warning or cutting two steps. -/
  | rateEvaluate (sector : SectorId) (sensors : List Int) (t : Time)
  /-- PWR_BRAKE (R541). PWR_BRAKE_N held low for 1 µs sends every compute sector to step 15. -/
  | pwrBrake (low : Bool) (t : Time)
  /-- CONVERTER_FAULT (R541). PMB_ALERT_N confirmed as a converter fault sends every compute sector to step 15. -/
  | converterFault (active : Bool) (confirmed : Bool) (t : Time)
  /-- REGULATOR_FAULT (R468). A regulator fault fences the sector and turns its regulator off. -/
  | regulatorFault (sector : SectorId) (t : Time)
  /-- THERMAL_TRIP (R478). A sensor at 118 °C trips the part, darkening lasers, asserting THERMTRIP_N and turning off regulators. -/
  | thermalTrip (sensor : BitVec 8) (temp : Int) (t : Time)
  /-- PATH_MONITOR_ALARM (R480). Slack below 3% lowers the sector clock by 100 MHz and raises its guard. -/
  | pathMonitorAlarm (sector : Fin 24) (slack : Nat) (t : Time)
  /-- MARGIN_PLAN_COMPUTE (R481). At boot, every PERIOD or on AGE_CTL.NOW the Wardens compute a shadow margin plan. -/
  | marginPlanCompute (entries : List PlanEntry) (refresh : List Nat) (vfeed : Int) (lasers : List (Nat × Nat)) (heaters : List Nat) (t : Time)
  /-- AGE_NOW (R481). AGE_CTL.NOW starts a plan recomputation. -/
  | ageNow (path : Path) (value : W32) (t : Time)
  /-- PLAN_APPLY (R482). A shadow plan change is applied to a sector at once or at its quiet point. -/
  | planApply (sector : SectorId) (t : Time)
  /-- CAL_STORE (R486). CAL_CTL.STORE checks an overlay and writes it to the older flash copy. -/
  | calStore (path : Path) (value : W32) (t : Time)
  /-- CAL_APPLY (R486). CAL_CTL.APPLY puts the newest stored overlay in force and extends MR9. -/
  | calApply (path : Path) (value : W32) (t : Time)
  /-- CAL_CLEAR (R486). CAL_CTL.CLEAR erases both overlay copies and returns to factory values. -/
  | calClear (path : Path) (value : W32) (t : Time)
  /-- ERR_FENCE (R552). ERR_CMD.FENCE fences the unit in ERR_UNIT with cause 0x0309. -/
  | errFence (path : Path) (value : W32) (t : Time)
  /-- ERR_UNFENCE (R492). ERR_CMD.UNFENCE starts recovery of a Fenced unit or is refused. -/
  | errUnfence (path : Path) (value : W32) (t : Time)
  /-- FENCE_CAUSE (R490). A fence cause moves a unit and its fenced-with units to Draining, or abandons recovery. -/
  | fenceCause (kind : Fin 11) (index : Nat) (cause : Status) (t : Time)
  /-- DRAIN_END (R491). A Draining unit whose work has ended, or reached DRAINMAX, becomes Fenced. -/
  | drainEnd (kind : Fin 11) (index : Nat) (t : Time)
  /-- RECOVERY_END (R492). Recovery passes and the unit returns to Up, or fails and it returns to Fenced. -/
  | recoveryEnd (kind : Fin 11) (index : Nat) (pass : Bool) (failed : List Nat) (t : Time)
  /-- UNCONTAINED_ERROR (R496). An uncontained error fences every partition and records ERR_FATAL. -/
  | uncontainedError (kind : Fin 11) (index : Nat) (t : Time)
  /-- CENSUS (R501). A partition-scope census written to a buffer in the partition's space. -/
  | census (b : BenchId) (t : Time)
  /-- ERR_CENSUS_GO (R500). ERR_CENSUS.GO starts a part-scope census. -/
  | errCensusGo (path : Path) (value : W32) (t : Time)
  /-- CENSUS_COMPLETE (R499). A census has taken every count at one cut and written its header and entries. -/
  | censusComplete (t : Time)
  /-- EVPOST (R507). Posts a telemetry record from a program. -/
  | evpost (b : BenchId) (t : Time)
  /-- EVENT_RAISE (R505). An event enters the telemetry queue, folds, drops or overflows by severity. -/
  | eventRaise (code : BitVec 16) (sev : Fin 5) (part : Option PartId) (unit : W32) (data : W64) (t : Time)
  /-- TELEMETRY_QUEUE_LEAVE (R504). A record leaves the queue into the ring, is lost, or leaves after 1 ms with no ring, and its copies are taken. -/
  | telemetryQueueLeave (t : Time)
  /-- NDL_GROUP_RECEIVE (R510). A die-link group is accepted on its check or a replay is requested. -/
  | ndlGroupReceive (m : Fin 328) (dir : Fin 2) (group : NdlGroup) (checkOk : Bool) (ack : Nat) (t : Time)
  /-- NDL_RETRAIN (R516). A module whose replays exceed RPTHR retrains, repairs and resumes or is fenced. -/
  | ndlRetrain (m : Fin 328) (dir : Fin 2) (r0 : DirTest) (r1 : DirTest) (inTime : Bool) (t : Time)
  /-- NDL_AUTO_RECOVER (R517). The part starts a fenced module's recovery itself up to AUTORET times in 60 s. -/
  | ndlAutoRecover (m : Fin 328) (t : Time)
  /-- DIE_LINK_TRAIN (R514). At start-up every module direction trains and maps failed wires onto spares. -/
  | dieLinkTrain (m : Fin 328) (r0 : DirTest) (r1 : DirTest) (t : Time)
  /-- UCIE_DISCOVERY (R520). The adapter discovers the open-site die, reads its identity and negotiates rate and width. -/
  | ucieDiscovery (id : Option W64) (rate : List Nat) (narrow : List Bool) (t : Time)
  /-- UCIE_ACCESS (R521). An access from the open-site die is served in its partition's space or refused. -/
  | ucieAccess (a : DieAccess) (t : Time)
  /-- UCIE_MODULE_DOWN (R522). A UCIe module down for 10 ms is fenced, clearing EN when all four are. -/
  | ucieModuleDown (m : Fin 4) (t : Time)
  /-- DBG_LOOP (R523). DBG_LOOP.GO runs a loopback test of a fenced module. -/
  | dbgLoop (path : Path) (value : W32) (t : Time)
  /-- DBG_P1500 (R525). DBG_P1500.GO runs a stack's IEEE 1500 test when all its pseudo-channels are fenced. -/
  | dbgP1500 (path : Path) (value : W32) (t : Time)
  /-- POWER_ON_RESET (R542). SYS_PWROK rising starts the part from reset. -/
  | powerOnReset
  /-- BOARD_RESET (R542). SYS_RST_N low for 10 µs resets the part, discarding volatile state. -/
  | boardReset (t : Time)
  /-- PWROK_FALL (R533). SYS_PWROK falling acts as a board reset until it rises again. -/
  | pwrokFall (t : Time)
  /-- INTERNAL_RESET (R542). A trial failure, reset activation or REFCLK loss resets the part internally. -/
  | internalReset (cause : Fin 3) (t : Time)
  /-- REFCLK_LOSS (R530). REFCLK missing for 1 µs puts the PLLs into holdover. -/
  | refclkLoss (t : Time)
  /-- REFCLK_HOLDOVER_EXPIRE (R530). REFCLK absent past 100 µs holdover causes an internal reset held until it returns. -/
  | refclkHoldoverExpire (t : Time)
  /-- REFCLK_RETURN (R530). REFCLK returns and the internal reset is released 1 ms later. -/
  | refclkReturn (t : Time)
  /-- PLL_LOCK (R545). The PLLs lock and the sector regulators start in groups. -/
  | pllLock (t : Time)
  /-- REGULATORS_UP (R545). Every sector regulator is in regulation and die-link training begins. -/
  | regulatorsUp (t : Time)
  /-- IDENTITY_READ (R538). Tray, Stratus and LSM identity memories are read, GEN_CONFIG and MR10 set and BRDCAP loaded. -/
  | identityRead (tray : IdRecord) (stratus : List IdRecord) (lsms : List IdRecord) (converters : List Bool) (t : Time)
  /-- LASER_ENABLE (R540). LASER_EN rises for an engine once every condition holds, and falls within 10 µs when one ceases. -/
  | laserEnable (e : EngineId) (t : Time)
  /-- LSM_PRESENCE_CHANGE (R540). LSM_PRES_N rises while lit, dropping LASER_EN and fencing the engine. -/
  | lsmPresenceChange (e : EngineId) (present : Bool) (t : Time)
  /-- HBM_TRAINING_DONE (R274). Stacks finish training, failing pseudo-channels are fenced and ALC_AVAIL is set. -/
  | hbmTrainingDone (fails : List Nat) (t : Time)
  /-- HOST_PORTS_TRAINED (R545). The host ports finish training and the admin mailbox accepts connections. -/
  | hostPortsTrained (up : List Bool) (t : Time)
  /-- LANE_ABSENT_TIMEOUT (R546). A lane whose far end shows no light 1 s after LASER_EN rose is taken as absent. -/
  | laneAbsentTimeout (e : EngineId) (f : Fin 4) (k : Fin 16) (t : Time)
  /-- VFEED_RESTORE (R478). VFEED restored after being removed for at least 100 ms clears the latched thermal trip and the part starts as after power-good. -/
  | vfeedRestore (removedNs : Nat)
  /-- RESET_RELEASE (R542). SYS_RST_N rising after a board reset, or 1 ms after the cause of a trial-failure or reset-activation internal reset, releases the part and starts the Table 18.6 timeline. -/
  | resetRelease (t : Time)
  /-- HOST_PORT_LINK_UP (R420). A host port that was down, for example after a swap on E10 or E11, finishes training and accepts queue pairs again. -/
  | hostPortLinkUp (port : Fin 4) (t : Time)
  /-- MODULE_FAILURE_REPORT (R288). A Stratus module reports its own failure and is fenced as R246 states. -/
  | moduleFailureReport (m : Fin 4) (t : Time)
  /-- UPD_STAGE_COMPLETE (R453). Flash staging finishes its erase, write and read-back, marks the bank or copy staged or failed, and clears BUSY. -/
  | updStageComplete (flashOk : Bool) (t : Time)
  /-- COMMIT_COMPLETE (R451). The fuse blowing of a COMMIT finishes, the fused counter and revoke fuses are final and BUSY clears. -/
  | commitComplete (t : Time)
  /-- CAL_COMMAND_COMPLETE (R486). A STORE, APPLY or CLEAR of the calibration overlay finishes its flash work, sets CAL_STAT.RESULT and clears BUSY. -/
  | calCommandComplete (flashOk : Bool) (t : Time)
  /-- DBG_LOOP_COMPLETE (R523). The 100 µs loopback test ends, DBG_LOOPRES is written and BUSY clears. -/
  | dbgLoopComplete (first : Nat) (errs : Nat) (t : Time)
  /-- DBG_P1500_COMPLETE (R525). The stack's IEEE 1500 test ends with pass or fail and BUSY clears. -/
  | dbgP1500Complete (pass : Bool) (t : Time)
  /-- QUANTUM_EXPIRE (R257). An equal-priority program reaches QUANTUM since placement and becomes a preemption candidate for a waiting program. -/
  | quantumExpire (prog : Nat) (t : Time)
  /-- LSM_HOURS_UPDATE (R538). Once per lit hour the engine core rewrites the LSM's HOURS record, raising a Warning if the rewrite fails. -/
  | lsmHoursUpdate (e : EngineId) (ok : Bool) (t : Time)
  deriving DecidableEq, Repr

end Sys2Proof
end

