-- ==== Sys2Proof/Machine/Tab.lean ====
section
/-! DEFINITION. Operations on sparse tables, on lists used as queues, and on byte strings. -/

namespace Sys2Proof.Machine

/-- The entry of key `k`, if the table holds one. -/
def tget? {α : Type} : Tab α → Nat → Option α
  | [], _ => none
  | (k, v) :: t, n => bif k == n then some v else tget? t n

/-- The entry of key `k`, or the default `d`. -/
def tget {α : Type} (t : Tab α) (k : Nat) (d : α) : α := (tget? t k).getD d

/-- The table without key `n`. -/
def terase {α : Type} : Tab α → Nat → Tab α
  | [], _ => []
  | (k, v) :: t, n => bif k == n then terase t n else (k, v) :: terase t n

/-- The table with `v` at key `n`, keys rising. -/
def tset {α : Type} : Tab α → Nat → α → Tab α
  | [], n, v => [(n, v)]
  | (k, w) :: t, n, v =>
    bif n == k then (n, v) :: t
    else bif Nat.blt n k then (n, v) :: (k, w) :: t
    else (k, w) :: tset t n v

/-- The table with the entry of key `n` (or `d`) changed by `f`. -/
def tmod {α : Type} (t : Tab α) (n : Nat) (d : α) (f : α → α) : Tab α := tset t n (f (tget t n d))

/-- Whether the table holds key `n`. -/
def thas {α : Type} (t : Tab α) (n : Nat) : Bool := (tget? t n).isSome

/-- The lowest of the first `n` numbers from `i` that satisfies `p`. -/
def lowest (p : Nat → Bool) : Nat → Nat → Option Nat
  | 0, _ => none
  | n + 1, i => bif p i then some i else lowest p n (i + 1)

/-- The last `n` entries of a list. -/
def keepLast {α : Type} (n : Nat) (l : List α) : List α := l.drop (l.length - n)

/-- The index of the first entry that satisfies `p`. -/
def firstIdx {α : Type} (p : α → Bool) : List α → Option Nat
  | [] => none
  | x :: l => bif p x then some 0 else (firstIdx p l).map (· + 1)

/-- The list with the entry at index `n`, if there is one, changed by `f`. -/
def listMod {α : Type} (l : List α) (n : Nat) (f : α → α) : List α :=
  match l, n with
  | [], _ => []
  | x :: l, 0 => f x :: l
  | x :: l, n + 1 => x :: listMod l n f

/-- The list without the entry at index `n`. -/
def listDrop {α : Type} (l : List α) (n : Nat) : List α :=
  match l, n with
  | [], _ => []
  | _ :: l, 0 => l
  | x :: l, n + 1 => x :: listDrop l n

/-- The list with the first entry that satisfies `p` changed by `f`. -/
def modFirst {α : Type} (p : α → Bool) (f : α → α) : List α → List α
  | [] => []
  | x :: l => bif p x then f x :: l else x :: modFirst p f l

/-- The sum of a list of numbers. -/
def sumNat (l : List Nat) : Nat := l.foldl (· + ·) 0

/-- The greatest of a list of numbers, 0 for none. -/
def maxNat (l : List Nat) : Nat := l.foldl Nat.max 0

/-- A number held at no more than `m`. -/
def satTo (m n : Nat) : Nat := Nat.min m n

/-- A 32-bit counter that saturates, raised by `n`. -/
def satAdd32 (w : W32) (n : Nat) : W32 := BitVec.ofNat 32 (satTo 0xFFFFFFFF (w.toNat + n))

/-! ## Bytes, little-endian (R8) -/

/-- The `n` low bytes of `v`, the lowest first. -/
def leBytes : Nat → Nat → List Byte
  | 0, _ => []
  | n + 1, v => BitVec.ofNat 8 v :: leBytes n (v / 256)

/-- The number that little-endian bytes spell. -/
def leNat : List Byte → Nat
  | [] => 0
  | b :: bs => b.toNat + 256 * leNat bs

/-- `n` bytes of a byte string from offset `o`, zeros beyond its end. -/
def sliceBytes (bs : List Byte) (o n : Nat) : List Byte :=
  let l := (bs.drop o).take n
  l ++ List.replicate (n - l.length) 0

/-- The little-endian number in `n` bytes of a byte string from offset `o`. -/
def leAt (bs : List Byte) (o n : Nat) : Nat := leNat (sliceBytes bs o n)

/-- The big-endian bytes of `v`, `n` of them. -/
def beBytes (n v : Nat) : List Byte := (leBytes n v).reverse

/-- The byte string with `new` written over it at offset `o` (within its length). -/
def overBytes (bs : List Byte) (o : Nat) (new : List Byte) : List Byte :=
  bs.take o ++ new ++ bs.drop (o + new.length)

/-- Bits `[h:l]` of a number. -/
def bits (v h l : Nat) : Nat := v / 2 ^ l % 2 ^ (h + 1 - l)

/-- A number with bits `[h:l]` replaced by `x` (modulo the field's size). -/
def setBits (v h l x : Nat) : Nat :=
  v - bits v h l * 2 ^ l + (x % 2 ^ (h + 1 - l)) * 2 ^ l

/-- Bit `n` of a number. -/
def bit (v n : Nat) : Bool := v / 2 ^ n % 2 == 1

/-- A Boolean as 0 or 1. -/
def b01 (b : Bool) : Nat := bif b then 1 else 0

/-- The number of set bits among the low `n` bits of `v`. -/
def popcount : Nat → Nat → Nat
  | 0, _ => 0
  | n + 1, v => v % 2 + popcount n (v / 2)

/-- Sign-extended value of the low `n` bits (n ≥ 1). -/
def signed (n v : Nat) : Int :=
  let m := v % 2 ^ n
  if m < 2 ^ (n - 1) then (m : Int) else (m : Int) - (2 ^ n : Nat)

/-- An integer as an unsigned number of `n` bits, two's complement. -/
def unsign (n : Nat) (v : Int) : Nat := (v % ((2 ^ n : Nat) : Int)).toNat

end Sys2Proof.Machine
end

