-- ==== Sys2Proof/Machine/Bits.lean ====
section
/-! DEFINITION. Checks on byte strings (CRC-32C, CRC-32, CRC-64), the SHA-384 digest, the draw of R179, arithmetic in GF(2^8)
and GF(2^16). -/

namespace Sys2Proof.Machine

/-! ## CRCs, bit-reflected, initial value and final inversion all ones -/

/-- One bit of a reflected CRC with polynomial `poly`. -/
def crcBit (poly c : Nat) : Nat := bif c % 2 == 1 then Nat.xor (c / 2) poly else c / 2
/-- Eight bits. -/
def crcByte (poly c : Nat) : Nat :=
  crcBit poly (crcBit poly (crcBit poly (crcBit poly (crcBit poly (crcBit poly (crcBit poly (crcBit poly c)))))))
def crcRun (poly : Nat) : List Byte → Nat → Nat
  | [], c => c
  | b :: bs, c => crcRun poly bs (crcByte poly (Nat.xor c b.toNat))

/-- CRC-32C (Castagnoli), the header check of Table 2.1. -/
def crc32c (bs : List Byte) : Nat := Nat.xor (crcRun 0x82F63B78 bs 0xFFFFFFFF) 0xFFFFFFFF
/-- CRC-32 with the IEEE 802.3 polynomial. -/
def crc32 (bs : List Byte) : Nat := Nat.xor (crcRun 0xEDB88320 bs 0xFFFFFFFF) 0xFFFFFFFF

/-! ## The draw of R179 -/

def m64 (n : Nat) : Nat := n % 2 ^ 64
/-- The finaliser `mix` of R179. -/
def mix (z : Nat) : Nat :=
  let z := m64 (Nat.xor z (z / 2 ^ 30) * 0xBF58476D1CE4E5B9)
  let z := m64 (Nat.xor z (z / 2 ^ 27) * 0x94D049BB133111EB)
  Nat.xor z (z / 2 ^ 31)
/-- The function `draw` of R179. -/
def draw (seed stream seq d n : Nat) : Nat :=
  let g := 0x9E3779B97F4A7C15
  let c := stream * 2 ^ 32 + seq
  let z := mix (m64 (seed + g * (c + 1)))
  mix (m64 (z + g * (d * 2 ^ 48 + n + 1)))
/-- The 24-bit draw of element `n` for stochastic rounding, domain 0. -/
def srDraw (seed stream seq n : Nat) : Nat := bits (draw seed stream seq 0 n) 63 40
/-- Whether the sign of position `k` under the Hadamard rotation is negative (R198), domain 1. -/
def signDraw (seed k : Nat) : Bool := bit (draw seed 0 0 1 k) 63

/-! ## Finite fields -/

/-- Product in GF(2^w) with reduction polynomial `poly` (its top bit included). -/
def gfMul (w poly : Nat) : Nat → Nat → Nat → Nat
  | 0, _, _ => 0
  | n + 1, a, b =>
    let r := gfMul w poly n (let a2 := a * 2; bif bit a2 w then Nat.xor a2 poly else a2) (b / 2)
    bif b % 2 == 1 then Nat.xor r a else r
/-- Power by squaring, `n` bits of exponent. -/
def gfPow (mul : Nat → Nat → Nat) : Nat → Nat → Nat → Nat
  | 0, _, _ => 1
  | n + 1, a, e =>
    let r := gfPow mul n (mul a a) (e / 2)
    bif e % 2 == 1 then mul r a else r

/-! ## SHA-384 -/

def ror64 (x n : Nat) : Nat := x / 2 ^ n + x % 2 ^ n * 2 ^ (64 - n)
def xor3 (a b c : Nat) : Nat := Nat.xor (Nat.xor a b) c

/-- Word `i` of a number in which `n` words of 64 bits stand, the first highest. -/
def wordAt (n v i : Nat) : Nat := v / 2 ^ (64 * (n - 1 - i)) % 2 ^ 64

/-- The round constants, five to a number, the first of each highest. -/
def shaTable : List Nat :=
  [0x428a2f98d728ae227137449123ef65cdb5c0fbcfec4d3b2fe9b5dba58189dbbc3956c25bf348b538,
   0x59f111f1b605d019923f82a4af194f9bab1c5ed5da6d8118d807aa98a303024212835b0145706fbe,
   0x243185be4ee4b28c550c7dc3d5ffb4e272be5d74f27b896f80deb1fe3b1696b19bdc06a725c71235,
   0xc19bf174cf692694e49b69c19ef14ad2efbe4786384f25e30fc19dc68b8cd5b5240ca1cc77ac9c65,
   0x2de92c6f592b02754a7484aa6ea6e4835cb0a9dcbd41fbd476f988da831153b5983e5152ee66dfab,
   0xa831c66d2db43210b00327c898fb213fbf597fc7beef0ee4c6e00bf33da88fc2d5a79147930aa725,
   0x06ca6351e003826f142929670a0e6e7027b70a8546d22ffc2e1b21385c26c9264d2c6dfc5ac42aed,
   0x53380d139d95b3df650a73548baf63de766a0abb3c77b2a881c2c92e47edaee692722c851482353b,
   0xa2bfe8a14cf10364a81a664bbc423001c24b8b70d0f89791c76c51a30654be30d192e819d6ef5218,
   0xd69906245565a910f40e35855771202a106aa07032bbd1b819a4c116b8d2d0c81e376c085141ab53,
   0x2748774cdf8eeb9934b0bcb5e19b48a8391c0cb3c5c95a634ed8aa4ae3418acb5b9cca4f7763e373,
   0x682e6ff3d6b2b8a3748f82ee5defb2fc78a5636f43172f6084c87814a1f0ab728cc702081a6439ec,
   0x90befffa23631e28a4506cebde82bde9bef9a3f7b2c67915c67178f2e372532bca273eceea26619c,
   0xd186b8c721c0c207eada7dd6cde0eb1ef57d4f7fee6ed17806f067aa72176fba0a637dc5a2c898a6,
   0x113f9804bef90dae1b710b35131c471b28db77f523047d8432caab7b40c724933c9ebe0a15c9bebc,
   0x431d67c49c100d4c4cc5d4becb3e42b6597f299cfc657e2a5fcb6fab3ad6faec6c44198c4a475817]

/-- The two rotations and the third, or the shift, of a word that the digest mixes. -/
def shaMix (shift : Bool) (a b c x : Nat) : Nat := xor3 (ror64 x a) (ror64 x b) (bif shift then x / 2 ^ c else ror64 x c)

/-- One round: `hi` and `lo` hold the last four words that each half of the working state took, newest first; `kw` is the
round's constant and message word together. -/
def shaRound (hi lo : List Nat) (kw : Nat) : List Nat × List Nat :=
  match hi, lo with
  | p :: q :: r :: old :: _, x :: y :: z :: w :: _ =>
    let pick := Nat.xor z (Nat.land x (Nat.xor y z))
    let most := Nat.lor (Nat.land p q) (Nat.land r (Nat.lor p q))
    let t := w + shaMix false 14 18 41 x + pick + kw
    ([m64 (t + shaMix false 28 34 39 p + most), p, q, r], [m64 (old + t), x, y, z])
  | _, _ => (hi, lo)

/-- `n` rounds from round `i`; `win` holds the message words of this round and of the fifteen after it. -/
def shaRounds : Nat → Nat → List Nat → List Nat → List Nat → List Nat × List Nat
  | 0, _, _, hi, lo => (hi, lo)
  | n + 1, i, win, hi, lo =>
    let m := fun (j : Nat) => (win[j]?).getD 0
    let more := m64 (shaMix true 19 61 6 (m 14) + m 9 + shaMix true 1 8 7 (m 1) + m 0)
    let st := shaRound hi lo (wordAt 5 ((shaTable[i / 5]?).getD 0) (i % 5) + m 0)
    shaRounds n (i + 1) (win.drop 1 ++ [more]) st.1 st.2

/-- The big-endian number that bytes spell. -/
def beNat (bs : List Byte) : Nat := leNat bs.reverse

/-- `n` blocks of 128 bytes taken into the chaining value, whose words stand in two halves of four. -/
def shaBlocks : Nat → List Byte → List Nat → List Nat → List Nat
  | 0, _, hi, lo => hi ++ lo
  | n + 1, bs, hi, lo =>
    let v := beNat (bs.take 128)
    let st := shaRounds 80 0 ((List.range 16).map (wordAt 16 v)) hi lo
    let plus := List.zipWith fun a b => m64 (a + b)
    shaBlocks n (bs.drop 128) (plus hi st.1) (plus lo st.2)

/-- SHA-384: 48 bytes. -/
def sha384 (m : List Byte) : List Byte :=
  let n := (m.length + 144) / 128
  let zeros := List.replicate (128 * n - m.length - 17) 0
  let start := 0xcbbb9d5dc1059ed8629a292a367cd5079159015a3070dd17152fecd8f70e593967332667ffc00b318eb44a8768581511db0c2e0d64f98fa747b5481dbefa4fa4
  let word := wordAt 8 start
  let v := shaBlocks n (m ++ [0x80] ++ zeros ++ beBytes 16 (8 * m.length)) ([0, 1, 2, 3].map word) ([4, 5, 6, 7].map word)
  (v.take 6).flatMap (beBytes 8)

end Sys2Proof.Machine
end

