-- ==== Sys2Proof/Machine/Numerics.lean ====
section
/-! DEFINITION. Number formats and rounding (chapter 05): exact values, codes, scales, rounding to nearest even, stochastic
rounding, and the FP32 values that stations compute with. -/

namespace Sys2Proof.Machine

/-! ## Exact values -/

/-- An exact value num ÷ den, den positive. -/
structure Ex where
  num : Int
  den : Nat
  deriving DecidableEq, Repr

def Ex.zero : Ex := ⟨0, 1⟩
def Ex.one : Ex := ⟨1, 1⟩
def exOfInt (n : Int) : Ex := ⟨n, 1⟩
/-- n × 2^k. -/
def exPow (n : Int) (k : Int) : Ex :=
  match k with
  | .ofNat k => ⟨n * (2 ^ k : Nat), 1⟩
  | .negSucc k => ⟨n, 2 ^ (k + 1)⟩
def exAdd (a b : Ex) : Ex :=
  bif a.den == b.den then ⟨a.num + b.num, a.den⟩
  else bif b.den % a.den == 0 then ⟨a.num * ((b.den / a.den : Nat) : Int) + b.num, b.den⟩
  else bif a.den % b.den == 0 then ⟨a.num + b.num * ((a.den / b.den : Nat) : Int), a.den⟩
  else ⟨a.num * (b.den : Int) + b.num * (a.den : Int), a.den * b.den⟩
def exNeg (a : Ex) : Ex := ⟨-a.num, a.den⟩
def exSub (a b : Ex) : Ex := exAdd a (exNeg b)
def exMul (a b : Ex) : Ex := ⟨a.num * b.num, a.den * b.den⟩
def exIsZero (a : Ex) : Bool := a.num == 0
def exIsNeg (a : Ex) : Bool := decide (a.num < 0)
def exAbs (a : Ex) : Ex := ⟨(a.num.natAbs : Int), a.den⟩
def exLe (a b : Ex) : Bool := decide (a.num * (b.den : Int) ≤ b.num * (a.den : Int))
def exLt (a b : Ex) : Bool := decide (a.num * (b.den : Int) < b.num * (a.den : Int))
/-- a ÷ b for b not zero. -/
def exDiv (a b : Ex) : Ex :=
  bif decide (b.num < 0) then ⟨-(a.num * (b.den : Int)), a.den * b.num.natAbs⟩
  else ⟨a.num * (b.den : Int), a.den * b.num.natAbs⟩
def exMax (a b : Ex) : Ex := bif exLt a b then b else a
def exSum (l : List Ex) : Ex := l.foldl exAdd Ex.zero

/-! ## Magnitudes: exact, possibly over √2 (R198) -/

/-- A magnitude num ÷ den, divided by √2 when `surd`. -/
structure Mag where
  num  : Nat
  den  : Nat
  surd : Bool
  deriving DecidableEq, Repr

def magOf (a : Ex) (surd : Bool) : Mag := ⟨a.num.natAbs, a.den, surd⟩
/-- Whether a magnitude is at most n ÷ d. -/
def magLe (m : Mag) (n d : Nat) : Bool :=
  bif m.surd then Nat.ble (m.num * m.num * (d * d)) (2 * (n * n) * (m.den * m.den))
  else Nat.ble (m.num * d) (n * m.den)
/-- Whether a magnitude is less than n ÷ d. -/
def magLt (m : Mag) (n d : Nat) : Bool :=
  bif m.surd then Nat.blt (m.num * m.num * (d * d)) (2 * (n * n) * (m.den * m.den))
  else Nat.blt (m.num * d) (n * m.den)
/-- A magnitude divided by n ÷ d, n not zero. -/
def magDiv (m : Mag) (n d : Nat) : Mag := ⟨m.num * d, m.den * n, m.surd⟩
def magIsZero (m : Mag) : Bool := m.num == 0

/-! ## Formats -/

/-- How a format encodes infinities and NaNs. -/
inductive Specials where
  | none | ieee | e4m3
  deriving DecidableEq, Repr

/-- A sign, exponent and mantissa format (Table 5.1), with the largest finite magnitude code. -/
structure FpFormat where
  ebits : Nat
  mbits : Nat
  bias  : Nat
  maxCode : Nat
  special : Specials
  deriving DecidableEq, Repr

def fE2M1 : FpFormat := ⟨2, 1, 1, 0x7, .none⟩
def fE1M1 : FpFormat := ⟨1, 1, 1, 0x3, .none⟩
def fE2M3 : FpFormat := ⟨2, 3, 1, 0x1F, .none⟩
def fE3M2 : FpFormat := ⟨3, 2, 3, 0x1F, .none⟩
def fE4M3 : FpFormat := ⟨4, 3, 7, 0x7E, .e4m3⟩
def fE5M2 : FpFormat := ⟨5, 2, 15, 0x7B, .ieee⟩
def fFP16 : FpFormat := ⟨5, 10, 15, 0x7BFF, .ieee⟩
def fBF16 : FpFormat := ⟨8, 7, 127, 0x7F7F, .ieee⟩
def fFP32 : FpFormat := ⟨8, 23, 127, 0x7F7FFFFF, .ieee⟩
/-- The unsigned micro-block scale (R168); every byte is finite. -/
def fUE5M3 : FpFormat := ⟨5, 3, 15, 0xFF, .none⟩

/-- The element format of a format code (Table 3.4, Table 5.1); none for TQ2, TQ1, MXINT8 and codes without elements. -/
def fpOf : Nat → Option FpFormat
  | 0x01 => some fE2M1 | 0x10 => some fE2M1 | 0x02 => some fE1M1 | 0x11 => some fE2M3 | 0x12 => some fE3M2
  | 0x13 => some fE4M3 | 0x20 => some fE4M3 | 0x14 => some fE5M2 | 0x21 => some fE5M2 | 0x22 => some fBF16
  | 0x23 => some fFP16 | 0x24 => some fFP32 | _ => none

/-- The value of a magnitude code as num ÷ den (R165). -/
def fpMag (f : FpFormat) (c : Nat) : Nat × Nat :=
  let e := c / 2 ^ f.mbits
  let m := c % 2 ^ f.mbits
  let n := bif e == 0 then m else 2 ^ f.mbits + m
  let e := Nat.max e 1
  bif Nat.ble (f.bias + f.mbits) e then (n * 2 ^ (e - f.bias - f.mbits), 1) else (n, 2 ^ (f.bias + f.mbits - e))

/-- A decoded value. -/
inductive FVal where
  | fin (neg : Bool) (num den : Nat)
  | inf (neg : Bool)
  | nan
  deriving DecidableEq, Repr

/-- The value of a code (R165, Table 5.1). -/
def fpVal (f : FpFormat) (c : Nat) : FVal :=
  let neg := bit c (f.ebits + f.mbits)
  let c := c % 2 ^ (f.ebits + f.mbits)
  bif Nat.ble c f.maxCode then let v := fpMag f c; .fin neg v.1 v.2
  else match f.special with
    | .none => let v := fpMag f c; .fin neg v.1 v.2
    | .e4m3 => .nan
    | .ieee => bif c % 2 ^ f.mbits == 0 then .inf neg else .nan

/-- The canonical NaN of a format (R184). -/
def fpNan (f : FpFormat) : Nat :=
  match f.special with
  | .e4m3 => 0x7F
  | _ => bif f.mbits == 2 then 0x7E else (2 ^ f.ebits - 1) * 2 ^ f.mbits + 2 ^ (f.mbits - 1)
/-- The infinity code of an IEEE format. -/
def fpInf (f : FpFormat) (neg : Bool) : Nat :=
  (2 ^ f.ebits - 1) * 2 ^ f.mbits + b01 neg * 2 ^ (f.ebits + f.mbits)

/-! ## Rounding -/

/-- The largest code from `lo` below `lo + 2^n` whose magnitude is at most `m`; `val` rises with the code. -/
def searchCode (val : Nat → Nat × Nat) (m : Mag) : Nat → Nat → Nat
  | 0, lo => lo
  | n + 1, lo =>
    let mid := lo + 2 ^ n
    let v := val mid
    bif magLe m v.1 v.2 && !(magLt m v.1 v.2) then searchCode val m n mid
    else bif magLe m v.1 v.2 then searchCode val m n lo
    else searchCode val m n mid

/-- Magnitude codes beyond the largest finite one act as ever greater values in the search. -/
def capped (val : Nat → Nat × Nat) (maxCode c : Nat) : Nat × Nat :=
  bif Nat.ble c maxCode then val c else let v := val maxCode; (v.1 * 2 + v.2 * (c + 1), v.2)

/-- A rounded magnitude: its code, whether the value was out of range (R178), whether the value lay strictly between codes. -/
structure Rounded where
  code    : Nat
  oor     : Bool
  inexact : Bool
  deriving DecidableEq, Repr

/-- Where a magnitude lies among the codes of a format: the code at or below it. -/
def lowerCode (val : Nat → Nat × Nat) (maxCode nbits : Nat) (m : Mag) : Nat :=
  searchCode (capped val maxCode) m nbits 0

/-- Round to nearest, ties to the even code (R176); beyond the largest magnitude the largest is written (R178). -/
def roundNear (val : Nat → Nat × Nat) (maxCode nbits : Nat) (m : Mag) : Rounded :=
  let top := val maxCode
  bif !(magLe m top.1 top.2) then ⟨maxCode, true, true⟩
  else
    let c := lowerCode val maxCode nbits m
    let v := val c
    bif magLe m v.1 v.2 then ⟨c, false, false⟩
    else
      let w := val (c + 1)
      -- the midpoint of v and w over a common denominator
      let n := v.1 * w.2 + w.1 * v.2
      let d := 2 * v.2 * w.2
      bif magLt m n d then ⟨c, false, true⟩
      else bif magLe m n d then ⟨bif c % 2 == 0 then c else c + 1, false, true⟩
      else ⟨c + 1, false, true⟩

/-- The largest F below 2^n from `lo` for which the magnitude is at least v + F × (w − v) ÷ 2^24 (all over `d`). -/
def searchF (m : Mag) (v w d : Nat) : Nat → Nat → Nat
  | 0, lo => lo
  | n + 1, lo =>
    let mid := lo + 2 ^ n
    bif magLt m (v * 2 ^ 24 + mid * (w - v)) (d * 2 ^ 24) then searchF m v w d n lo else searchF m v w d n mid

/-- The same from above, for a negative y: the largest F for which the magnitude is at most w − F × (w − v) ÷ 2^24. -/
def searchFneg (m : Mag) (v w d : Nat) : Nat → Nat → Nat
  | 0, lo => lo
  | n + 1, lo =>
    let mid := lo + 2 ^ n
    bif Nat.ble (mid * (w - v)) (w * 2 ^ 24) && magLe m (w * 2 ^ 24 - mid * (w - v)) (d * 2 ^ 24) then
      searchFneg m v w d n mid
    else searchFneg m v w d n lo

/-- Stochastic rounding (R177): `hi` when u < F. For a negative y the upper neighbour is the smaller magnitude. -/
def roundStoch (val : Nat → Nat × Nat) (maxCode nbits : Nat) (neg : Bool) (u : Nat) (m : Mag) : Rounded :=
  let top := val maxCode
  bif !(magLe m top.1 top.2) then ⟨maxCode, true, true⟩
  else
    let c := lowerCode val maxCode nbits m
    let v := val c
    bif magLe m v.1 v.2 then ⟨c, false, false⟩
    else
      let w := val (c + 1)
      let d := v.2 * w.2
      let vn := v.1 * w.2
      let wn := w.1 * v.2
      bif neg then ⟨bif Nat.blt u (searchFneg m vn wn d 25 0) then c else c + 1, false, true⟩
      else ⟨bif Nat.blt u (searchF m vn wn d 25 0) then c + 1 else c, false, true⟩

/-- The least code whose value is at least a magnitude (rounding toward +∞), the largest finite one beyond it. -/
def roundUp (val : Nat → Nat × Nat) (maxCode nbits : Nat) (m : Mag) : Nat :=
  let top := val maxCode
  bif !(magLe m top.1 top.2) then maxCode
  else
    let c := lowerCode val maxCode nbits m
    let v := val c
    bif magLe m v.1 v.2 then c else c + 1

/-- The bits of a magnitude code of a format. -/
def magBits (f : FpFormat) : Nat := f.ebits + f.mbits

/-- An exact value (over √2 when `surd`) rounded to nearest even in a format with a sign: the code and whether it saturated. A result of zero is
written positive (R167). -/
def fpRoundS (f : FpFormat) (x : Ex) (surd : Bool) : Nat × Bool :=
  let r := roundNear (fpMag f) f.maxCode (magBits f) (magOf x surd)
  (r.code + b01 (exIsNeg x && !(r.code == 0)) * 2 ^ magBits f, r.oor)
def fpRound (f : FpFormat) (x : Ex) : Nat × Bool := fpRoundS f x false

/-! ## FP32 values -/

/-- A finite decoded value as an exact one. -/
def exOfFin (neg : Bool) (num den : Nat) : Ex := ⟨bif neg then -(num : Int) else (num : Int), den⟩

/-- An FP32 bit pattern decoded. -/
def f32Val (v : W32) : FVal := fpVal fFP32 v.toNat
/-- The exact value of a finite FP32 pattern, zero for the others. -/
def f32Ex (v : W32) : Ex :=
  match f32Val v with
  | .fin n a b => exOfFin n a b
  | _ => Ex.zero
/-- An exact value rounded to FP32 and whether it saturated (R178, R182). -/
def f32Round (x : Ex) : W32 × Bool := let r := fpRound fFP32 x; (BitVec.ofNat 32 r.1, r.2)
def f32Nan : W32 := 0x7FC00000
def f32Inf (neg : Bool) : W32 := bif neg then 0xFF800000 else 0x7F800000
/-- The largest finite FP32 value with a sign. -/
def f32Top (neg : Bool) : W32 := bif neg then 0xFF7FFFFF else 0x7F7FFFFF
def f32One : W32 := 0x3F800000
def f32IsNan (v : W32) : Bool := match f32Val v with | .nan => true | _ => false
def f32IsInf (v : W32) : Bool := match f32Val v with | .inf _ => true | _ => false
def f32IsFin (v : W32) : Bool := match f32Val v with | .fin _ _ _ => true | _ => false
def f32Sign (v : W32) : Bool := bit v.toNat 31
def f32IsZero (v : W32) : Bool := v.toNat % 2 ^ 31 == 0

/-- A result with its saturation count. -/
structure FRes where
  val : W32
  sat : Bool
  deriving DecidableEq, Repr

/-- A rounded exact result; a zero takes the given sign. -/
def f32Exact (x : Ex) (zeroNeg : Bool) : FRes :=
  bif exIsZero x then ⟨bif zeroNeg then 0x80000000 else 0, false⟩
  else
    let r := fpRound fFP32 x
    -- a result that rounds to zero keeps its sign
    bif r.1 == 0 && exIsNeg x then ⟨0x80000000, false⟩ else ⟨BitVec.ofNat 32 r.1, r.2⟩

/-- FP32 sum: one rounding, a finite overflow saturates, infinities and NaNs follow IEEE 754 (R122, R184). -/
def f32Add (a b : W32) : FRes :=
  match f32Val a, f32Val b with
  | .nan, _ => ⟨f32Nan, false⟩
  | _, .nan => ⟨f32Nan, false⟩
  | .inf s, .inf t => ⟨bif s == t then f32Inf s else f32Nan, false⟩
  | .inf s, _ => ⟨f32Inf s, false⟩
  | _, .inf s => ⟨f32Inf s, false⟩
  | .fin _ _ _, .fin _ _ _ => f32Exact (exAdd (f32Ex a) (f32Ex b)) (f32IsZero a && f32IsZero b && f32Sign a && f32Sign b)
def f32Neg (a : W32) : W32 := bif f32IsNan a then f32Nan else a ^^^ 0x80000000
def f32Abs (a : W32) : W32 := bif f32IsNan a then f32Nan else a &&& 0x7FFFFFFF
def f32Sub (a b : W32) : FRes := bif f32IsNan b then ⟨f32Nan, false⟩ else f32Add a (b ^^^ 0x80000000)
/-- FP32 product. -/
def f32Mul (a b : W32) : FRes :=
  let s := xor (f32Sign a) (f32Sign b)
  match f32Val a, f32Val b with
  | .nan, _ => ⟨f32Nan, false⟩
  | _, .nan => ⟨f32Nan, false⟩
  | .inf _, .inf _ => ⟨f32Inf s, false⟩
  | .inf _, _ => ⟨bif f32IsZero b then f32Nan else f32Inf s, false⟩
  | _, .inf _ => ⟨bif f32IsZero a then f32Nan else f32Inf s, false⟩
  | .fin _ _ _, .fin _ _ _ => f32Exact (exMul (f32Ex a) (f32Ex b)) s
/-- FP32 fused multiply-add a × b + c with one rounding. -/
def f32Fma (a b c : W32) : FRes :=
  bif f32IsNan a || f32IsNan b || f32IsNan c then ⟨f32Nan, false⟩
  else bif (f32IsInf a && f32IsZero b) || (f32IsZero a && f32IsInf b) then ⟨f32Nan, false⟩
  else
    let s := xor (f32Sign a) (f32Sign b)
    bif f32IsInf a || f32IsInf b then
      bif f32IsInf c && !(f32Sign c == s) then ⟨f32Nan, false⟩ else ⟨f32Inf s, false⟩
    else bif f32IsInf c then ⟨f32Inf (f32Sign c), false⟩
    else
      let pz := f32IsZero a || f32IsZero b
      f32Exact (exAdd (exMul (f32Ex a) (f32Ex b)) (f32Ex c)) (pz && f32IsZero c && s && f32Sign c)
/-- FP32 quotient; a finite value other than zero divided by zero saturates (R142). -/
def f32Div (a b : W32) : FRes :=
  let s := xor (f32Sign a) (f32Sign b)
  match f32Val a, f32Val b with
  | .nan, _ => ⟨f32Nan, false⟩
  | _, .nan => ⟨f32Nan, false⟩
  | .inf _, .inf _ => ⟨f32Nan, false⟩
  | .inf _, _ => ⟨f32Inf s, false⟩
  | _, .inf _ => ⟨bif s then 0x80000000 else 0, false⟩
  | .fin _ _ _, .fin _ _ _ =>
    bif f32IsZero b then (bif f32IsZero a then ⟨f32Nan, false⟩ else ⟨f32Top s, true⟩)
    else f32Exact (exDiv (f32Ex a) (f32Ex b)) s

/-- The order of two FP32 values that are not NaN, −0 below +0: a below b. -/
def f32Below (a b : W32) : Bool :=
  let key := fun (v : W32) => bif f32Sign v then 2 ^ 31 - 1 - v.toNat % 2 ^ 31 else 2 ^ 31 + v.toNat % 2 ^ 31
  Nat.blt (key a) (key b)
/-- Minimum and maximum with −0 below +0; a NaN operand gives the canonical NaN (R282). -/
def f32Min (a b : W32) : W32 := bif f32IsNan a || f32IsNan b then f32Nan else bif f32Below b a then b else a
def f32Max (a b : W32) : W32 := bif f32IsNan a || f32IsNan b then f32Nan else bif f32Below a b then b else a
/-- The larger of two non-negative finite FP32 patterns. -/
def f32Larger (a b : Nat) : Nat := Nat.max a b

/-- A magnitude rounded to the nearest FP32 pattern, saturating. -/
def f32OfMag (m : Mag) : Nat := (roundNear (fpMag fFP32) fFP32.maxCode 31 m).code

end Sys2Proof.Machine
end

