-- ==== Sys2Proof/Config.lean ====
section
/-! DEFINITION. What one part fixes in its fuses, its ROM and its factory calibration, and the values that the spec leaves
open. None of these constants has a body: a claim holds whatever they are. -/

namespace Sys2Proof.Config

/-- A byte of bench store that nothing has written since its granule was granted (R224): bench, grant, address. -/
opaque staleByte : Nat → Nat → Nat → Byte

/-- Fused steppings (GEN_STEP) and serial number. -/
opaque genStep : BitVec 24
opaque genSerial : BitVec 64

/-- The row of a pseudo-channel address: bank and row selection is not part of the architecture (R265). -/
opaque rowOf : Nat → Nat → Nat
/-- The bank of a row, and the spare rows of a bank (R272), by pseudo-channel. -/
opaque bankOf : Nat → Nat → Nat
opaque bankSpares : Nat → Nat → Nat
/-- The spare rows of a stack, fused (MEM_REPAIR.SPARE). -/
opaque spareRows : Nat → BitVec 16


/-- The mean read latency of a Stratus module over the last 1 ms, in ns, at a part time (T2M_LATNS): the spec gives its meaning and no
timing that would fix it. -/
opaque tier2Latency : Nat → Nat → BitVec 16

/-- The hash that fixes the module of a flow on a die link: source, destination, virtual channel (R513). -/
opaque dieHash : Nat → Nat → Nat → Nat
/-- The hash that fixes the path of an ORD packet: source, destination (R343). -/
opaque ordHash : Nat → Nat → Nat
/-- The random intermediate group, and the choice among equally queued exits, by number (R337). -/
opaque drawGroup : Nat → Nat
opaque drawExit : Nat → Nat
/-- The undefined contents of a released table set: its number and the entry (R349). -/
opaque staleRoute : Nat → Nat → BitVec 64
opaque staleTree : Nat → Nat → BitVec 64

/-- Factory values of a sector (R484): current ceiling in A, fmax in 25 MHz units, and voltage at a frequency point in 0.1 mV. -/
opaque iceil : Nat → Nat
opaque factoryFmax : Nat → Nat
opaque factoryVolt : Nat → Nat → Nat
/-- The factory VFEED setpoint, mV. -/
opaque factoryFeed : Nat
/-- Factory DAC tap: engine, lane, band, tap (R301, Table 9.2). -/
opaque factoryTap : Nat → Nat → Nat → Nat → Int
/-- The bias of a laser when it is lit: engine, laser, or 16 + laser for its spare, in 0.5 mA (R312). -/
opaque startBias : Nat → Nat → Nat

/-- Digests of the vendor keys fused at manufacture (R444), of the boot ROM, and of the factory calibration (Table 14.6). -/
opaque vendorKey : Nat → BitVec 384
opaque romDigest : BitVec 384
opaque calDigest : BitVec 384
/-- Whether an RSASSA-PSS signature verifies: modulus, message, signature; and an SLH-DSA-SHA2-192s signature: key, message, signature
(R443, R444). -/
opaque rsaVerifies : List Byte → List Byte → List Byte → Bool
opaque slhVerifies : List Byte → List Byte → List Byte → Bool
/-- The device's signatures over the measurements or the authentication it sends (R458, R459), by the number of the signature. -/
opaque rsaSign : Nat → BitVec 3072
opaque slhSign : Nat → List Byte
/-- How many fuses of a COMMIT that power loss cut short had blown, by number (R451). -/
opaque fusesBlown : Nat → Nat

/-- The CODE of an event to which the spec gives none: 0 tray record, 1 Stratus record, 2 converter, 3 LSM rewrite, 4 laser bias trend,
5 heater trend (Table 15.6). -/
opaque eventCode : Nat → BitVec 16

/-- Attach tokens and remote keys, by number (R421, R430). -/
opaque attachToken : Nat → BitVec 32
opaque remoteKey : Nat → BitVec 32

/-- The status of a mailbox request to which the spec gives no result: 0 MRDEREG of an rkey that the session does not have, 1 INTAKE_ADD
with ENTRIES outside 1 to 4,096, 2 INTAKE_DEL and 3 CANCEL of a list that the session does not have, 4 GWCONN beyond the limits of R419, 5
REGREAD and REGWRITE of more than 1,024 registers. -/
opaque requestRefusal : Nat → BitVec 16
/-- What HEARTBEAT on the admin mailbox, which has no lease, answers as the lease remaining. -/
opaque adminLease : Nat
/-- Path MTU (4,096 when true, else 1,024), retry count and timeout of a queue pair that the gateway asks for, as its peer negotiates
(R417). -/
opaque gatewayTerms : Nat → Bool × BitVec 3 × BitVec 5

/-- The status that answers an access of the open-site die to which the spec gives none: 0 while EN is 0, 1 an access that is no aligned
64-byte unit or word (R521). -/
opaque dieRefusal : Nat → BitVec 16

/-- The MEMBER and RANK that a collective on a group reports which an imbalance of the census has made dead (R498, R413), by the group's
census index. -/
opaque deadMember : Nat → Nat × Nat

/-- The credits of a die-link module (Table 16.3, kind 4). -/
opaque moduleCredits : Nat → Nat

end Sys2Proof.Config
end

