-- ==== Sys2Proof/Machine/RegMap.lean ====
section
/-! DEFINITION. The control space: every register of the spec's register tables with its place (R34, R213, R263,
R291, R328, R357, R391, R415, R436, R462, R488, R508, R526), its fields, their access codes (R10, Table 0.5) and
their reset values. -/

namespace Sys2Proof.Machine

/-- The access codes of Table 0.5. -/
inductive Acc where
  | ro | rw | rw1c | rwl | wo | rsv
  deriving DecidableEq, Repr

/-- The registers of the control space, by the names of their tables. -/
inductive Reg where
  /-- GEN_PART -/
  | genPart
  /-- GEN_STEP -/
  | genStep
  /-- GEN_STRAP -/
  | genStrap
  /-- GEN_CONFIG -/
  | genConfig
  /-- GEN_SERIAL_LO -/
  | genSerialLo
  /-- GEN_SERIAL_HI -/
  | genSerialHi
  /-- GEN_TIME_LO -/
  | genTimeLo
  /-- GEN_TIME_HI -/
  | genTimeHi
  /-- STW_PKEY -/
  | stwPkey
  /-- STW_TIMES -/
  | stwTimes
  /-- STW_SESS -/
  | stwSess
  /-- STW_SSTATE -/
  | stwSstate
  /-- ATT_MR -/
  | attMr
  /-- ATT_MRCNT -/
  | attMrcnt
  /-- ATT_BOOT -/
  | attBoot
  /-- ATT_SVN -/
  | attSvn
  /-- ATT_VER -/
  | attVer
  /-- ATT_KEYS -/
  | attKeys
  /-- ATT_EXTD -/
  | attExtd
  /-- ATT_EXTCTL -/
  | attExtctl
  /-- ATT_OWNCTL -/
  | attOwnctl
  /-- UPD_SRC_LO -/
  | updSrcLo
  /-- UPD_SRC_HI -/
  | updSrcHi
  /-- UPD_LEN -/
  | updLen
  /-- UPD_CTL -/
  | updCtl
  /-- UPD_STAT -/
  | updStat
  /-- FWP_STAT -/
  | fwpStat
  /-- FWP_CTL -/
  | fwpCtl
  /-- PWR_TDP -/
  | pwrTdp
  /-- PWR_CTL -/
  | pwrCtl
  /-- PWR_PKG -/
  | pwrPkg
  /-- PWR_FEED -/
  | pwrFeed
  /-- PWR_EMERG -/
  | pwrEmerg
  /-- PWR_SECT -/
  | pwrSect
  /-- PWR_SCNT -/
  | pwrScnt
  /-- THM_CTL -/
  | thmCtl
  /-- THM_TRIP -/
  | thmTrip
  /-- THM_SECT -/
  | thmSect
  /-- AGE_CTL -/
  | ageCtl
  /-- AGE_STAT -/
  | ageStat
  /-- AGE_HOURS -/
  | ageHours
  /-- AGE_SECT -/
  | ageSect
  /-- CAL_CTL -/
  | calCtl
  /-- CAL_SRC_LO -/
  | calSrcLo
  /-- CAL_SRC_HI -/
  | calSrcHi
  /-- CAL_LEN -/
  | calLen
  /-- CAL_STAT -/
  | calStat
  /-- SCH_BENCH -/
  | schBench
  /-- SCH_CTL -/
  | schCtl
  /-- SCH_STAT -/
  | schStat
  /-- SCH_SAVEQ -/
  | schSaveq
  /-- SCH_PREEMPT -/
  | schPreempt
  /-- ALC_HBMQ -/
  | alcHbmq
  /-- ALC_T2Q -/
  | alcT2q
  /-- ALC_HBMUSE -/
  | alcHbmuse
  /-- ALC_T2USE -/
  | alcT2use
  /-- ALC_PINNED -/
  | alcPinned
  /-- ALC_BW -/
  | alcBw
  /-- ALC_AVAIL -/
  | alcAvail
  /-- ALC_T2AVAIL -/
  | alcT2avail
  /-- PGE_CTL -/
  | pgeCtl
  /-- PGE_PROMO -/
  | pgePromo
  /-- PGE_DEMO -/
  | pgeDemo
  /-- PGE_STALL -/
  | pgeStall
  /-- PGE_STALLUS -/
  | pgeStallus
  /-- PGE_NOFRAME -/
  | pgeNoframe
  /-- NUM_CTL -/
  | numCtl
  /-- NUM_ASYBASE_LO -/
  | numAsybaseLo
  /-- NUM_ASYBASE_HI -/
  | numAsybaseHi
  /-- NUM_ASYLOST_LO -/
  | numAsylostLo
  /-- NUM_ASYLOST_HI -/
  | numAsylostHi
  /-- NUM_ASYPEND -/
  | numAsypend
  /-- SEQ_STATE -/
  | seqState
  /-- SEQ_PC_LO -/
  | seqPcLo
  /-- SEQ_PC_HI -/
  | seqPcHi
  /-- SEQ_FAULT -/
  | seqFault
  /-- SEQ_FOFF_LO -/
  | seqFoffLo
  /-- SEQ_FOFF_HI -/
  | seqFoffHi
  /-- SEQ_FCOUNT -/
  | seqFcount
  /-- SEQ_ISSUE_LO -/
  | seqIssueLo
  /-- SEQ_ISSUE_HI -/
  | seqIssueHi
  /-- SEQ_STALL_LO -/
  | seqStallLo
  /-- SEQ_STALL_HI -/
  | seqStallHi
  /-- MEM_STAT -/
  | memStat
  /-- MEM_CECNT -/
  | memCecnt
  /-- MEM_UECNT -/
  | memUecnt
  /-- MEM_POISON -/
  | memPoison
  /-- MEM_FENCE_LO -/
  | memFenceLo
  /-- MEM_FENCE_HI -/
  | memFenceHi
  /-- MEM_ECCCTL -/
  | memEccctl
  /-- MEM_SCRUB -/
  | memScrub
  /-- MEM_REPAIR -/
  | memRepair
  /-- MEM_ATOM_LO -/
  | memAtomLo
  /-- MEM_ATOM_HI -/
  | memAtomHi
  /-- MEM_ATOMSAT -/
  | memAtomsat
  /-- MEM_LASTERR -/
  | memLasterr
  /-- T2M_STAT -/
  | t2mStat
  /-- T2M_CECNT -/
  | t2mCecnt
  /-- T2M_UECNT -/
  | t2mUecnt
  /-- T2M_LATNS -/
  | t2mLatns
  /-- OPT_STAT -/
  | optStat
  /-- OPT_CTL -/
  | optCtl
  /-- OPT_MARGIN -/
  | optMargin
  /-- OPT_CAL -/
  | optCal
  /-- OPT_SWAP -/
  | optSwap
  /-- OPT_LSR -/
  | optLsr
  /-- OPT_TXL -/
  | optTxl
  /-- OPT_RXL -/
  | optRxl
  /-- FAB_CTL -/
  | fabCtl
  /-- FAB_ID -/
  | fabId
  /-- FAB_TBL -/
  | fabTbl
  /-- FAB_LTIME -/
  | fabLtime
  /-- FAB_MGR -/
  | fabMgr
  /-- FAB_WX -/
  | fabWx
  /-- FAB_WXRING_LO -/
  | fabWxringLo
  /-- FAB_WXRING_HI -/
  | fabWxringHi
  /-- FAB_DROP_EPOCH -/
  | fabDropEpoch
  /-- FAB_DROP_ROUTE -/
  | fabDropRoute
  /-- FAB_DROP_SLICE -/
  | fabDropSlice
  /-- FAB_DROP_LINK -/
  | fabDropLink
  /-- FAB_REPLAY -/
  | fabReplay
  /-- FAB_CRCERR -/
  | fabCrcerr
  /-- FAB_FECUNC -/
  | fabFecunc
  /-- FAB_LINKFAIL -/
  | fabLinkfail
  /-- FAB_PSLICE -/
  | fabPslice
  /-- FAB_GLMAP -/
  | fabGlmap
  /-- FAB_SRT_LO -/
  | fabSrtLo
  /-- FAB_SRT_HI -/
  | fabSrtHi
  /-- FAB_STREE_LO -/
  | fabStreeLo
  /-- FAB_STREE_HI -/
  | fabStreeHi
  /-- FAB_ART_LO -/
  | fabArtLo
  /-- FAB_ART_HI -/
  | fabArtHi
  /-- FAB_ATREE_LO -/
  | fabAtreeLo
  /-- FAB_ATREE_HI -/
  | fabAtreeHi
  /-- RMA_CTL -/
  | rmaCtl
  /-- RMA_OUT -/
  | rmaOut
  /-- RMA_RETRY -/
  | rmaRetry
  /-- RMA_UNKNOWN -/
  | rmaUnknown
  /-- RMA_OWNUSE -/
  | rmaOwnuse
  /-- RMA_TIMER -/
  | rmaTimer
  /-- RMA_GW -/
  | rmaGw
  /-- RMA_LEDGER -/
  | rmaLedger
  /-- RMA_NACK -/
  | rmaNack
  /-- RMA_STALE -/
  | rmaStale
  /-- RMA_DUP -/
  | rmaDup
  /-- RMA_PURGE -/
  | rmaPurge
  /-- RMA_DROPHDR -/
  | rmaDrophdr
  /-- RMA_RANK_LO -/
  | rmaRankLo
  /-- RMA_RANK_HI -/
  | rmaRankHi
  /-- COL_CTL -/
  | colCtl
  /-- COL_GROUPS -/
  | colGroups
  /-- COL_ABORTS -/
  | colAborts
  /-- COL_LASTAB -/
  | colLastab
  /-- COL_LASTOFF -/
  | colLastoff
  /-- COL_INUSE -/
  | colInuse
  /-- COL_RESEND -/
  | colResend
  /-- COL_DUP -/
  | colDup
  /-- COL_NOTREADY -/
  | colNotready
  /-- HST_PSTAT -/
  | hstPstat
  /-- HST_CTL -/
  | hstCtl
  /-- HST_CNP -/
  | hstCnp
  /-- HST_DROP -/
  | hstDrop
  /-- ERR_UNIT -/
  | errUnit
  /-- ERR_CMD -/
  | errCmd
  /-- ERR_CTL -/
  | errCtl
  /-- ERR_COUNT -/
  | errCount
  /-- ERR_IMBAL -/
  | errImbal
  /-- ERR_FATAL -/
  | errFatal
  /-- ERR_FATUNIT -/
  | errFatunit
  /-- ERR_FATTIME_LO -/
  | errFattimeLo
  /-- ERR_FATTIME_HI -/
  | errFattimeHi
  /-- ERR_CENSUS -/
  | errCensus
  /-- ERR_CENSDST_LO -/
  | errCensdstLo
  /-- ERR_CENSDST_HI -/
  | errCensdstHi
  /-- ERR_CENSLEN -/
  | errCenslen
  /-- TEL_CTL -/
  | telCtl
  /-- TEL_RING_LO -/
  | telRingLo
  /-- TEL_RING_HI -/
  | telRingHi
  /-- TEL_PROD_LO -/
  | telProdLo
  /-- TEL_PROD_HI -/
  | telProdHi
  /-- TEL_CONS_LO -/
  | telConsLo
  /-- TEL_CONS_HI -/
  | telConsHi
  /-- TEL_QUSE -/
  | telQuse
  /-- TEL_DROPT -/
  | telDropt
  /-- TEL_COND -/
  | telCond
  /-- TEL_LOSTI -/
  | telLosti
  /-- TEL_LOSTW -/
  | telLostw
  /-- TEL_OVFE -/
  | telOvfe
  /-- TEL_OVFF -/
  | telOvff
  /-- TEL_LOSTR -/
  | telLostr
  /-- NDL_STAT -/
  | ndlStat
  /-- NDL_REPLAY -/
  | ndlReplay
  /-- NDL_RETRAIN -/
  | ndlRetrain
  /-- NDL_CTL -/
  | ndlCtl
  /-- NDL_CFGERR -/
  | ndlCfgerr
  /-- UCI_STAT -/
  | uciStat
  /-- UCI_CTL -/
  | uciCtl
  /-- UCI_ID_LO -/
  | uciIdLo
  /-- UCI_ID_HI -/
  | uciIdHi
  /-- UCI_ERR -/
  | uciErr
  /-- DBG_LOOP -/
  | dbgLoop
  /-- DBG_LOOPRES -/
  | dbgLoopres
  /-- DBG_P1500 -/
  | dbgP1500
  deriving DecidableEq, Repr

/-- A field: bits `[hi:lo]`, its access code and its reset value. -/
structure RegField where
  hi    : Nat
  lo    : Nat
  acc   : Acc
  reset : Nat
  deriving DecidableEq, Repr

/-- A row of a register table: the address of its first instance, two counts of instances with their strides,
and its fields. -/
structure RegRow where
  base   : Nat
  n1     : Nat
  s1     : Nat
  n2     : Nat
  s2     : Nat
  fields : List RegField
  deriving DecidableEq, Repr

/-- The row of each register. A field whose table gives a word for its reset value (fused, detected, sampled, OTP,
flash, straps, boot config) stands with 0 here; what it reads as is computed when it is read. -/
def regRow : Reg → RegRow
  | .genPart => ⟨0x00000000, 1, 0, 1, 0, [⟨31, 16, .ro, 3495⟩, ⟨15, 0, .ro, 2432⟩]⟩
  | .genStep => ⟨0x00000004, 1, 0, 1, 0, [⟨31, 24, .rsv, 0⟩, ⟨23, 16, .ro, 0⟩, ⟨15, 8, .ro, 0⟩, ⟨7, 0, .ro, 0⟩]⟩
  | .genStrap => ⟨0x00000008, 1, 0, 1, 0, [⟨31, 16, .rsv, 0⟩, ⟨15, 14, .ro, 0⟩, ⟨13, 13, .ro, 0⟩, ⟨12, 6, .ro, 0⟩,
      ⟨5, 0, .ro, 0⟩]⟩
  | .genConfig => ⟨0x0000000C, 1, 0, 1, 0, [⟨31, 18, .rsv, 0⟩, ⟨17, 6, .ro, 0⟩, ⟨5, 5, .ro, 0⟩, ⟨4, 4, .ro, 0⟩,
      ⟨3, 0, .ro, 0⟩]⟩
  | .genSerialLo => ⟨0x00000010, 1, 0, 1, 0, [⟨31, 0, .ro, 0⟩]⟩
  | .genSerialHi => ⟨0x00000014, 1, 0, 1, 0, [⟨31, 0, .ro, 0⟩]⟩
  | .genTimeLo => ⟨0x00000018, 1, 0, 1, 0, [⟨31, 0, .ro, 0⟩]⟩
  | .genTimeHi => ⟨0x0000001C, 1, 0, 1, 0, [⟨31, 0, .ro, 0⟩]⟩
  | .stwPkey => ⟨0x00100000, 8, 0x1000, 1, 0, [⟨31, 0, .wo, 0⟩]⟩
  | .stwTimes => ⟨0x00100004, 8, 0x1000, 1, 0, [⟨31, 24, .rw, 10⟩, ⟨23, 16, .rw, 30⟩, ⟨15, 8, .rw, 3⟩,
      ⟨7, 0, .rw, 50⟩]⟩
  | .stwSess => ⟨0x00100008, 8, 0x1000, 1, 0, [⟨31, 0, .ro, 0⟩]⟩
  | .stwSstate => ⟨0x00108000, 32, 0x4, 1, 0, [⟨31, 29, .ro, 0⟩, ⟨28, 26, .ro, 0⟩, ⟨25, 16, .rsv, 0⟩,
      ⟨15, 0, .ro, 0⟩]⟩
  | .attMr => ⟨0x00200000, 16, 0x40, 12, 0x4, [⟨31, 0, .ro, 0⟩]⟩
  | .attMrcnt => ⟨0x00200400, 16, 0x4, 1, 0, [⟨31, 0, .ro, 0⟩]⟩
  | .attBoot => ⟨0x00200500, 1, 0, 1, 0, [⟨31, 16, .ro, 0⟩, ⟨15, 8, .rsv, 0⟩, ⟨7, 7, .ro, 0⟩, ⟨6, 6, .ro, 0⟩,
      ⟨5, 4, .ro, 0⟩, ⟨3, 3, .ro, 0⟩, ⟨2, 1, .rsv, 0⟩, ⟨0, 0, .ro, 0⟩]⟩
  | .attSvn => ⟨0x00200504, 1, 0, 1, 0, [⟨31, 24, .rsv, 0⟩, ⟨23, 16, .ro, 0⟩, ⟨15, 8, .ro, 255⟩, ⟨7, 7, .rsv, 0⟩,
      ⟨6, 0, .ro, 0⟩]⟩
  | .attVer => ⟨0x00200508, 1, 0, 1, 0, [⟨31, 0, .ro, 0⟩]⟩
  | .attKeys => ⟨0x0020050C, 1, 0, 1, 0, [⟨31, 16, .rsv, 0⟩, ⟨15, 12, .ro, 0⟩, ⟨11, 8, .ro, 0⟩, ⟨7, 4, .ro, 0⟩,
      ⟨3, 2, .rsv, 0⟩, ⟨1, 0, .ro, 0⟩]⟩
  | .attExtd => ⟨0x00200600, 12, 0x4, 1, 0, [⟨31, 0, .rw, 0⟩]⟩
  | .attExtctl => ⟨0x00200630, 1, 0, 1, 0, [⟨31, 31, .wo, 0⟩, ⟨30, 30, .rwl, 0⟩, ⟨29, 4, .rsv, 0⟩, ⟨3, 0, .rw, 12⟩]⟩
  | .attOwnctl => ⟨0x00200634, 1, 0, 1, 0, [⟨31, 31, .wo, 0⟩, ⟨30, 30, .wo, 0⟩, ⟨29, 8, .rsv, 0⟩, ⟨7, 4, .ro, 0⟩,
      ⟨3, 2, .rsv, 0⟩, ⟨1, 0, .rw, 0⟩]⟩
  | .updSrcLo => ⟨0x00200700, 1, 0, 1, 0, [⟨31, 12, .rw, 0⟩, ⟨11, 0, .rsv, 0⟩]⟩
  | .updSrcHi => ⟨0x00200704, 1, 0, 1, 0, [⟨31, 19, .rsv, 0⟩, ⟨18, 16, .rw, 0⟩, ⟨15, 0, .rw, 0⟩]⟩
  | .updLen => ⟨0x00200708, 1, 0, 1, 0, [⟨31, 27, .rsv, 0⟩, ⟨26, 0, .rw, 0⟩]⟩
  | .updCtl => ⟨0x0020070C, 1, 0, 1, 0, [⟨31, 31, .wo, 0⟩, ⟨30, 30, .wo, 0⟩, ⟨29, 29, .wo, 0⟩, ⟨28, 28, .wo, 0⟩,
      ⟨27, 2, .rsv, 0⟩, ⟨1, 1, .rw, 0⟩, ⟨0, 0, .rw, 0⟩]⟩
  | .updStat => ⟨0x00200710, 1, 0, 1, 0, [⟨31, 28, .ro, 0⟩, ⟨27, 27, .ro, 0⟩, ⟨26, 26, .ro, 0⟩, ⟨25, 25, .ro, 0⟩,
      ⟨24, 24, .ro, 0⟩, ⟨23, 23, .ro, 0⟩, ⟨22, 22, .rw1c, 0⟩, ⟨21, 15, .ro, 0⟩, ⟨14, 6, .ro, 0⟩, ⟨5, 0, .ro, 0⟩]⟩
  | .fwpStat => ⟨0x00200800, 35, 0x4, 1, 0, [⟨31, 30, .ro, 0⟩, ⟨29, 25, .ro, 0⟩, ⟨24, 24, .ro, 0⟩,
      ⟨23, 16, .rsv, 0⟩, ⟨15, 0, .ro, 0⟩]⟩
  | .fwpCtl => ⟨0x00200900, 1, 0, 1, 0, [⟨31, 31, .wo, 0⟩, ⟨30, 30, .wo, 0⟩, ⟨29, 6, .rsv, 0⟩, ⟨5, 0, .rw, 0⟩]⟩
  | .pwrTdp => ⟨0x00300000, 1, 0, 1, 0, [⟨31, 31, .rwl, 0⟩, ⟨30, 28, .rsv, 0⟩, ⟨27, 16, .rwl, 2800⟩,
      ⟨15, 12, .rsv, 0⟩, ⟨11, 0, .rwl, 2500⟩]⟩
  | .pwrCtl => ⟨0x00300004, 1, 0, 1, 0, [⟨31, 7, .rsv, 0⟩, ⟨6, 0, .rw, 64⟩]⟩
  | .pwrPkg => ⟨0x00300008, 1, 0, 1, 0, [⟨31, 16, .ro, 0⟩, ⟨15, 0, .ro, 0⟩]⟩
  | .pwrFeed => ⟨0x0030000C, 1, 0, 1, 0, [⟨31, 16, .rw, 1700⟩, ⟨15, 12, .rsv, 0⟩, ⟨11, 0, .ro, 0⟩]⟩
  | .pwrEmerg => ⟨0x00300010, 1, 0, 1, 0, [⟨31, 4, .rsv, 0⟩, ⟨3, 3, .ro, 0⟩, ⟨2, 2, .ro, 0⟩, ⟨1, 1, .ro, 0⟩,
      ⟨0, 0, .ro, 0⟩]⟩
  | .pwrSect => ⟨0x00300100, 32, 0x4, 1, 0, [⟨31, 28, .ro, 0⟩, ⟨27, 20, .ro, 0⟩, ⟨19, 12, .ro, 0⟩, ⟨11, 0, .ro, 0⟩]⟩
  | .pwrScnt => ⟨0x00300200, 32, 0x4, 1, 0, [⟨31, 16, .ro, 0⟩, ⟨15, 0, .ro, 0⟩]⟩
  | .thmCtl => ⟨0x00400000, 1, 0, 1, 0, [⟨31, 31, .rwl, 0⟩, ⟨30, 24, .rsv, 0⟩, ⟨23, 16, .rwl, 110⟩,
      ⟨15, 8, .rwl, 20⟩, ⟨7, 0, .rwl, 8⟩]⟩
  | .thmTrip => ⟨0x00400004, 1, 0, 1, 0, [⟨31, 31, .ro, 0⟩, ⟨30, 16, .rsv, 0⟩, ⟨15, 8, .ro, 0⟩, ⟨7, 0, .ro, 0⟩]⟩
  | .thmSect => ⟨0x00400100, 32, 0x4, 1, 0, [⟨31, 24, .ro, 0⟩, ⟨23, 21, .ro, 0⟩, ⟨20, 8, .ro, 0⟩, ⟨7, 0, .ro, 0⟩]⟩
  | .ageCtl => ⟨0x00500000, 1, 0, 1, 0, [⟨31, 31, .rwl, 0⟩, ⟨30, 16, .rsv, 0⟩, ⟨15, 8, .rwl, 24⟩, ⟨7, 1, .rsv, 0⟩,
      ⟨0, 0, .wo, 0⟩]⟩
  | .ageStat => ⟨0x00500004, 1, 0, 1, 0, [⟨31, 16, .ro, 0⟩, ⟨15, 8, .ro, 0⟩, ⟨7, 0, .ro, 0⟩]⟩
  | .ageHours => ⟨0x00500008, 1, 0, 1, 0, [⟨31, 0, .ro, 0⟩]⟩
  | .ageSect => ⟨0x00500100, 32, 0x4, 1, 0, [⟨31, 24, .ro, 0⟩, ⟨23, 16, .ro, 0⟩, ⟨15, 8, .ro, 0⟩, ⟨7, 0, .ro, 0⟩]⟩
  | .calCtl => ⟨0x00600000, 1, 0, 1, 0, [⟨31, 31, .rwl, 0⟩, ⟨30, 3, .rsv, 0⟩, ⟨2, 2, .wo, 0⟩, ⟨1, 1, .wo, 0⟩,
      ⟨0, 0, .wo, 0⟩]⟩
  | .calSrcLo => ⟨0x00600004, 1, 0, 1, 0, [⟨31, 12, .rw, 0⟩, ⟨11, 0, .rsv, 0⟩]⟩
  | .calSrcHi => ⟨0x00600008, 1, 0, 1, 0, [⟨31, 19, .rsv, 0⟩, ⟨18, 16, .rw, 0⟩, ⟨15, 0, .rw, 0⟩]⟩
  | .calLen => ⟨0x0060000C, 1, 0, 1, 0, [⟨31, 16, .rsv, 0⟩, ⟨15, 0, .rw, 0⟩]⟩
  | .calStat => ⟨0x00600010, 1, 0, 1, 0, [⟨31, 28, .ro, 0⟩, ⟨27, 27, .ro, 0⟩, ⟨26, 26, .ro, 0⟩, ⟨25, 13, .ro, 0⟩,
      ⟨12, 0, .ro, 0⟩]⟩
  | .schBench => ⟨0x01000000, 8, 0x1000, 1, 0, [⟨31, 0, .rwl, 0⟩]⟩
  | .schCtl => ⟨0x01000004, 8, 0x1000, 1, 0, [⟨31, 31, .rwl, 0⟩, ⟨30, 24, .rsv, 0⟩, ⟨23, 16, .rw, 10⟩,
      ⟨15, 8, .rw, 0⟩, ⟨7, 7, .rw, 0⟩, ⟨6, 3, .rsv, 0⟩, ⟨2, 0, .rwl, 7⟩]⟩
  | .schStat => ⟨0x01000008, 8, 0x1000, 1, 0, [⟨31, 16, .ro, 0⟩, ⟨15, 8, .ro, 0⟩, ⟨7, 0, .ro, 0⟩]⟩
  | .schSaveq => ⟨0x0100000C, 8, 0x1000, 1, 0, [⟨31, 16, .ro, 0⟩, ⟨15, 0, .rwl, 0⟩]⟩
  | .schPreempt => ⟨0x01000010, 8, 0x1000, 1, 0, [⟨31, 16, .ro, 0⟩, ⟨15, 0, .ro, 0⟩]⟩
  | .alcHbmq => ⟨0x01100000, 8, 0x1000, 1, 0, [⟨31, 19, .rsv, 0⟩, ⟨18, 0, .rw, 0⟩]⟩
  | .alcT2q => ⟨0x01100004, 8, 0x1000, 1, 0, [⟨31, 21, .rsv, 0⟩, ⟨20, 0, .rw, 0⟩]⟩
  | .alcHbmuse => ⟨0x01100008, 8, 0x1000, 1, 0, [⟨18, 0, .ro, 0⟩]⟩
  | .alcT2use => ⟨0x0110000C, 8, 0x1000, 1, 0, [⟨20, 0, .ro, 0⟩]⟩
  | .alcPinned => ⟨0x01100010, 8, 0x1000, 1, 0, [⟨18, 0, .ro, 0⟩]⟩
  | .alcBw => ⟨0x01100014, 8, 0x1000, 1, 0, [⟨31, 31, .rw, 0⟩, ⟨30, 28, .rsv, 0⟩, ⟨27, 16, .rw, 64⟩,
      ⟨15, 9, .rsv, 0⟩, ⟨8, 0, .rw, 0⟩]⟩
  | .alcAvail => ⟨0x01108000, 1, 0, 1, 0, [⟨31, 21, .rsv, 0⟩, ⟨20, 0, .ro, 0x5e000⟩]⟩
  | .alcT2avail => ⟨0x01108004, 1, 0, 1, 0, [⟨20, 0, .ro, 0⟩]⟩
  | .pgeCtl => ⟨0x01200000, 8, 0x1000, 1, 0, [⟨31, 31, .rwl, 0⟩, ⟨30, 24, .rsv, 0⟩, ⟨23, 16, .rwl, 95⟩,
      ⟨15, 8, .rwl, 90⟩, ⟨7, 0, .rwl, 10⟩]⟩
  | .pgePromo => ⟨0x01200004, 8, 0x1000, 1, 0, [⟨31, 0, .ro, 0⟩]⟩
  | .pgeDemo => ⟨0x01200008, 8, 0x1000, 1, 0, [⟨31, 0, .ro, 0⟩]⟩
  | .pgeStall => ⟨0x0120000C, 8, 0x1000, 1, 0, [⟨31, 0, .ro, 0⟩]⟩
  | .pgeStallus => ⟨0x01200010, 8, 0x1000, 1, 0, [⟨31, 0, .ro, 0⟩]⟩
  | .pgeNoframe => ⟨0x01200014, 8, 0x1000, 1, 0, [⟨31, 0, .ro, 0⟩]⟩
  | .numCtl => ⟨0x01300000, 8, 0x1000, 1, 0, [⟨31, 31, .rwl, 0⟩, ⟨30, 3, .rsv, 0⟩, ⟨2, 2, .rw, 0⟩, ⟨1, 1, .rw, 0⟩,
      ⟨0, 0, .rw, 0⟩]⟩
  | .numAsybaseLo => ⟨0x01300004, 8, 0x1000, 1, 0, [⟨31, 21, .rwl, 0⟩, ⟨20, 0, .rsv, 0⟩]⟩
  | .numAsybaseHi => ⟨0x01300008, 8, 0x1000, 1, 0, [⟨31, 16, .rsv, 0⟩, ⟨15, 0, .rwl, 0⟩]⟩
  | .numAsylostLo => ⟨0x0130000C, 8, 0x1000, 1, 0, [⟨31, 0, .ro, 0⟩]⟩
  | .numAsylostHi => ⟨0x01300010, 8, 0x1000, 1, 0, [⟨31, 0, .ro, 0⟩]⟩
  | .numAsypend => ⟨0x01300014, 8, 0x1000, 1, 0, [⟨31, 16, .rsv, 0⟩, ⟨15, 0, .ro, 0⟩]⟩
  | .seqState => ⟨0x02100000, 4, 0x400000, 8, 0x20000, [⟨31, 21, .rsv, 0⟩, ⟨20, 16, .ro, 0⟩, ⟨15, 12, .rsv, 0⟩,
      ⟨11, 8, .ro, 0⟩, ⟨7, 3, .rsv, 0⟩, ⟨2, 0, .ro, 0⟩]⟩
  | .seqPcLo => ⟨0x02100004, 4, 0x400000, 8, 0x20000, [⟨31, 0, .ro, 0⟩]⟩
  | .seqPcHi => ⟨0x02100008, 4, 0x400000, 8, 0x20000, [⟨31, 0, .ro, 0⟩]⟩
  | .seqFault => ⟨0x0210000C, 4, 0x400000, 8, 0x20000, [⟨31, 31, .rw1c, 0⟩, ⟨30, 20, .rsv, 0⟩, ⟨19, 16, .ro, 0⟩,
      ⟨15, 0, .ro, 0⟩]⟩
  | .seqFoffLo => ⟨0x02100010, 4, 0x400000, 8, 0x20000, [⟨31, 0, .ro, 0⟩]⟩
  | .seqFoffHi => ⟨0x02100014, 4, 0x400000, 8, 0x20000, [⟨31, 0, .ro, 0⟩]⟩
  | .seqFcount => ⟨0x02100018, 4, 0x400000, 8, 0x20000, [⟨31, 0, .ro, 0⟩]⟩
  | .seqIssueLo => ⟨0x0210001C, 4, 0x400000, 8, 0x20000, [⟨31, 0, .ro, 0⟩]⟩
  | .seqIssueHi => ⟨0x02100020, 4, 0x400000, 8, 0x20000, [⟨31, 0, .ro, 0⟩]⟩
  | .seqStallLo => ⟨0x02100024, 4, 0x400000, 8, 0x20000, [⟨31, 0, .ro, 0⟩]⟩
  | .seqStallHi => ⟨0x02100028, 4, 0x400000, 8, 0x20000, [⟨31, 0, .ro, 0⟩]⟩
  | .memStat => ⟨0x03000000, 12, 0x10000, 1, 0, [⟨31, 24, .ro, 0⟩, ⟨23, 18, .rsv, 0⟩, ⟨17, 16, .ro, 0⟩,
      ⟨15, 2, .rsv, 0⟩, ⟨1, 1, .ro, 0⟩, ⟨0, 0, .ro, 0⟩]⟩
  | .memCecnt => ⟨0x03000004, 12, 0x10000, 1, 0, [⟨31, 0, .ro, 0⟩]⟩
  | .memUecnt => ⟨0x03000008, 12, 0x10000, 1, 0, [⟨31, 0, .ro, 0⟩]⟩
  | .memPoison => ⟨0x0300000C, 12, 0x10000, 1, 0, [⟨31, 0, .ro, 0⟩]⟩
  | .memFenceLo => ⟨0x03000010, 12, 0x10000, 1, 0, [⟨31, 0, .ro, 0⟩]⟩
  | .memFenceHi => ⟨0x03000014, 12, 0x10000, 1, 0, [⟨31, 0, .ro, 0⟩]⟩
  | .memEccctl => ⟨0x03000018, 12, 0x10000, 1, 0, [⟨31, 31, .rwl, 0⟩, ⟨30, 24, .rsv, 0⟩, ⟨23, 16, .rwl, 4⟩,
      ⟨15, 0, .rwl, 1024⟩]⟩
  | .memScrub => ⟨0x0300001C, 12, 0x10000, 1, 0, [⟨31, 16, .ro, 0⟩, ⟨15, 8, .rsv, 0⟩, ⟨7, 0, .rw, 24⟩]⟩
  | .memRepair => ⟨0x03000020, 12, 0x10000, 1, 0, [⟨31, 16, .ro, 0⟩, ⟨15, 0, .ro, 0⟩]⟩
  | .memAtomLo => ⟨0x03000024, 12, 0x10000, 1, 0, [⟨31, 0, .ro, 0⟩]⟩
  | .memAtomHi => ⟨0x03000028, 12, 0x10000, 1, 0, [⟨31, 0, .ro, 0⟩]⟩
  | .memAtomsat => ⟨0x0300002C, 12, 0x10000, 1, 0, [⟨31, 0, .ro, 0⟩]⟩
  | .memLasterr => ⟨0x03000030, 12, 0x10000, 1, 0, [⟨31, 26, .ro, 0⟩, ⟨25, 24, .ro, 0⟩, ⟨23, 0, .rsv, 0⟩]⟩
  | .t2mStat => ⟨0x03400000, 4, 0x1000, 1, 0, [⟨31, 31, .ro, 0⟩, ⟨30, 30, .ro, 0⟩, ⟨29, 29, .ro, 0⟩,
      ⟨28, 28, .ro, 0⟩, ⟨27, 22, .ro, 0⟩, ⟨21, 21, .rsv, 0⟩, ⟨20, 0, .ro, 0⟩]⟩
  | .t2mCecnt => ⟨0x03400004, 4, 0x1000, 1, 0, [⟨31, 0, .ro, 0⟩]⟩
  | .t2mUecnt => ⟨0x03400008, 4, 0x1000, 1, 0, [⟨31, 0, .ro, 0⟩]⟩
  | .t2mLatns => ⟨0x0340000C, 4, 0x1000, 1, 0, [⟨15, 0, .ro, 0⟩]⟩
  | .optStat => ⟨0x04000000, 12, 0x20000, 1, 0, [⟨31, 28, .ro, 0⟩, ⟨27, 27, .ro, 0⟩, ⟨26, 26, .ro, 0⟩,
      ⟨25, 25, .ro, 0⟩, ⟨24, 24, .rsv, 0⟩, ⟨23, 16, .ro, 0⟩, ⟨15, 8, .ro, 0⟩, ⟨7, 0, .ro, 0⟩]⟩
  | .optCtl => ⟨0x04000004, 12, 0x20000, 1, 0, [⟨31, 31, .rwl, 0⟩, ⟨30, 3, .rsv, 0⟩, ⟨2, 2, .rw, 0⟩,
      ⟨1, 1, .wo, 0⟩, ⟨0, 0, .rsv, 0⟩]⟩
  | .optMargin => ⟨0x04000008, 12, 0x20000, 1, 0, [⟨31, 16, .rsv, 0⟩, ⟨15, 8, .rwl, 40⟩, ⟨7, 0, .rwl, 20⟩]⟩
  | .optCal => ⟨0x0400000C, 12, 0x20000, 1, 0, [⟨31, 24, .ro, 0⟩, ⟨23, 16, .rsv, 0⟩, ⟨15, 8, .rwl, 24⟩,
      ⟨7, 0, .ro, 0⟩]⟩
  | .optSwap => ⟨0x04000010, 12, 0x20000, 1, 0, [⟨31, 31, .wo, 0⟩, ⟨30, 30, .wo, 0⟩, ⟨29, 24, .rw, 0⟩,
      ⟨23, 20, .rw, 0⟩, ⟨19, 16, .ro, 0⟩, ⟨15, 12, .ro, 0⟩, ⟨11, 8, .ro, 0⟩, ⟨7, 7, .rw, 0⟩, ⟨6, 0, .ro, 0⟩]⟩
  | .optLsr => ⟨0x04000100, 12, 0x20000, 16, 0x4, [⟨31, 30, .ro, 0⟩, ⟨29, 29, .ro, 0⟩, ⟨28, 28, .ro, 0⟩,
      ⟨27, 24, .rsv, 0⟩, ⟨23, 16, .ro, 0⟩, ⟨15, 8, .ro, 0⟩, ⟨7, 0, .ro, 0⟩]⟩
  | .optTxl => ⟨0x04001000, 12, 0x20000, 64, 0x8, [⟨31, 16, .ro, 0⟩, ⟨15, 8, .ro, 0⟩, ⟨7, 4, .ro, 0⟩, ⟨3, 0, .ro, 0⟩]⟩
  | .optRxl => ⟨0x04001004, 12, 0x20000, 64, 0x8, [⟨31, 16, .ro, 0⟩, ⟨15, 8, .ro, 0⟩, ⟨7, 4, .rsv, 0⟩,
      ⟨3, 0, .ro, 0⟩]⟩
  | .fabCtl => ⟨0x05000000, 1, 0, 1, 0, [⟨31, 31, .rwl, 0⟩, ⟨30, 26, .rsv, 0⟩, ⟨25, 16, .rw, 512⟩,
      ⟨15, 8, .rw, 10⟩, ⟨7, 4, .rsv, 0⟩, ⟨3, 3, .rw, 1⟩, ⟨2, 0, .rsv, 0⟩]⟩
  | .fabId => ⟨0x05000004, 1, 0, 1, 0, [⟨31, 16, .rwl, 0⟩, ⟨15, 13, .rsv, 0⟩, ⟨12, 0, .ro, 0⟩]⟩
  | .fabTbl => ⟨0x05000008, 1, 0, 1, 0, [⟨31, 31, .wo, 0⟩, ⟨30, 30, .wo, 0⟩, ⟨29, 29, .rw, 0⟩, ⟨28, 27, .rsv, 0⟩,
      ⟨26, 26, .ro, 0⟩, ⟨25, 24, .ro, 0⟩, ⟨23, 16, .rsv, 0⟩, ⟨15, 0, .ro, 0⟩]⟩
  | .fabLtime => ⟨0x0500000C, 1, 0, 1, 0, [⟨31, 16, .rw, 1000⟩, ⟨15, 0, .rw, 400⟩]⟩
  | .fabMgr => ⟨0x05000010, 4, 0x4, 1, 0, [⟨31, 31, .rwl, 0⟩, ⟨30, 13, .rsv, 0⟩, ⟨12, 0, .rwl, 0⟩]⟩
  | .fabWx => ⟨0x05000020, 1, 0, 1, 0, [⟨31, 31, .rw, 0⟩, ⟨30, 24, .rsv, 0⟩, ⟨23, 16, .rw, 1⟩, ⟨15, 13, .rsv, 0⟩,
      ⟨12, 0, .rw, 0⟩]⟩
  | .fabWxringLo => ⟨0x05000024, 1, 0, 1, 0, [⟨31, 21, .rw, 0⟩, ⟨20, 0, .rsv, 0⟩]⟩
  | .fabWxringHi => ⟨0x05000028, 1, 0, 1, 0, [⟨31, 27, .rsv, 0⟩, ⟨26, 24, .rw, 0⟩, ⟨23, 16, .rw, 0⟩, ⟨15, 0, .rw, 0⟩]⟩
  | .fabDropEpoch => ⟨0x05000030, 1, 0, 1, 0, [⟨31, 0, .ro, 0⟩]⟩
  | .fabDropRoute => ⟨0x05000034, 1, 0, 1, 0, [⟨31, 0, .ro, 0⟩]⟩
  | .fabDropSlice => ⟨0x05000038, 1, 0, 1, 0, [⟨31, 0, .ro, 0⟩]⟩
  | .fabDropLink => ⟨0x0500003C, 1, 0, 1, 0, [⟨31, 0, .ro, 0⟩]⟩
  | .fabReplay => ⟨0x05000040, 1, 0, 1, 0, [⟨31, 0, .ro, 0⟩]⟩
  | .fabCrcerr => ⟨0x05000044, 1, 0, 1, 0, [⟨31, 0, .ro, 0⟩]⟩
  | .fabFecunc => ⟨0x05000048, 1, 0, 1, 0, [⟨31, 0, .ro, 0⟩]⟩
  | .fabLinkfail => ⟨0x0500004C, 1, 0, 1, 0, [⟨31, 0, .ro, 0⟩]⟩
  | .fabPslice => ⟨0x05000100, 8, 0x4, 1, 0, [⟨31, 31, .rwl, 0⟩, ⟨30, 12, .rsv, 0⟩, ⟨11, 0, .rwl, 0⟩]⟩
  | .fabGlmap => ⟨0x05001000, 384, 0x4, 1, 0, [⟨31, 31, .ro, 0⟩, ⟨30, 30, .ro, 0⟩, ⟨29, 13, .rsv, 0⟩,
      ⟨12, 0, .ro, 0⟩]⟩
  | .fabSrtLo => ⟨0x05100000, 8192, 0x8, 1, 0, [⟨31, 0, .rw, 0⟩]⟩
  | .fabSrtHi => ⟨0x05100004, 8192, 0x8, 1, 0, [⟨31, 0, .rw, 0⟩]⟩
  | .fabStreeLo => ⟨0x05120000, 1024, 0x8, 1, 0, [⟨31, 0, .rw, 0⟩]⟩
  | .fabStreeHi => ⟨0x05120004, 1024, 0x8, 1, 0, [⟨31, 0, .rw, 0⟩]⟩
  | .fabArtLo => ⟨0x05200000, 8192, 0x8, 1, 0, [⟨31, 0, .ro, 0⟩]⟩
  | .fabArtHi => ⟨0x05200004, 8192, 0x8, 1, 0, [⟨31, 0, .ro, 0⟩]⟩
  | .fabAtreeLo => ⟨0x05220000, 1024, 0x8, 1, 0, [⟨31, 0, .ro, 0⟩]⟩
  | .fabAtreeHi => ⟨0x05220004, 1024, 0x8, 1, 0, [⟨31, 0, .ro, 0⟩]⟩
  | .rmaCtl => ⟨0x05400000, 8, 0x1000, 1, 0, [⟨31, 31, .rwl, 0⟩, ⟨30, 17, .rsv, 0⟩, ⟨16, 16, .rw, 0⟩,
      ⟨15, 15, .rsv, 0⟩, ⟨14, 0, .rwl, 0x4000⟩]⟩
  | .rmaOut => ⟨0x05400004, 8, 0x1000, 1, 0, [⟨31, 15, .rsv, 0⟩, ⟨14, 0, .ro, 0⟩]⟩
  | .rmaRetry => ⟨0x05400008, 8, 0x1000, 1, 0, [⟨31, 0, .ro, 0⟩]⟩
  | .rmaUnknown => ⟨0x0540000C, 8, 0x1000, 1, 0, [⟨31, 0, .ro, 0⟩]⟩
  | .rmaOwnuse => ⟨0x05400010, 8, 0x1000, 1, 0, [⟨31, 17, .rsv, 0⟩, ⟨16, 0, .ro, 0⟩]⟩
  | .rmaTimer => ⟨0x05408000, 1, 0, 1, 0, [⟨31, 28, .rw, 3⟩, ⟨27, 16, .rsv, 0⟩, ⟨15, 0, .rw, 0x2710⟩]⟩
  | .rmaGw => ⟨0x05408004, 1, 0, 1, 0, [⟨31, 31, .rw, 0⟩, ⟨30, 0, .rsv, 0⟩]⟩
  | .rmaLedger => ⟨0x05408008, 1, 0, 1, 0, [⟨31, 17, .rsv, 0⟩, ⟨16, 0, .ro, 0⟩]⟩
  | .rmaNack => ⟨0x0540800C, 1, 0, 1, 0, [⟨31, 0, .ro, 0⟩]⟩
  | .rmaStale => ⟨0x05408010, 1, 0, 1, 0, [⟨31, 0, .ro, 0⟩]⟩
  | .rmaDup => ⟨0x05408014, 1, 0, 1, 0, [⟨31, 0, .ro, 0⟩]⟩
  | .rmaPurge => ⟨0x05408018, 1, 0, 1, 0, [⟨31, 31, .wo, 0⟩, ⟨30, 13, .rsv, 0⟩, ⟨12, 0, .rw, 0⟩]⟩
  | .rmaDrophdr => ⟨0x0540801C, 1, 0, 1, 0, [⟨31, 0, .ro, 0⟩]⟩
  | .rmaRankLo => ⟨0x05500000, 8, 0x20000, 16384, 0x8, [⟨31, 0, .rwl, 0⟩]⟩
  | .rmaRankHi => ⟨0x05500004, 8, 0x20000, 16384, 0x8, [⟨31, 0, .rwl, 0⟩]⟩
  | .colCtl => ⟨0x05800000, 8, 0x1000, 1, 0, [⟨31, 31, .rwl, 0⟩, ⟨30, 16, .rsv, 0⟩, ⟨15, 0, .rwl, 1000⟩]⟩
  | .colGroups => ⟨0x05800004, 8, 0x1000, 1, 0, [⟨31, 7, .rsv, 0⟩, ⟨6, 0, .ro, 0⟩]⟩
  | .colAborts => ⟨0x05800008, 8, 0x1000, 1, 0, [⟨31, 0, .ro, 0⟩]⟩
  | .colLastab => ⟨0x0580000C, 8, 0x1000, 1, 0, [⟨31, 16, .ro, 0⟩, ⟨15, 0, .ro, 0⟩]⟩
  | .colLastoff => ⟨0x05800010, 8, 0x1000, 1, 0, [⟨31, 30, .rsv, 0⟩, ⟨29, 16, .ro, 0⟩, ⟨15, 0, .ro, 0⟩]⟩
  | .colInuse => ⟨0x05808000, 1, 0, 1, 0, [⟨31, 7, .rsv, 0⟩, ⟨6, 0, .ro, 0⟩]⟩
  | .colResend => ⟨0x05808004, 1, 0, 1, 0, [⟨31, 0, .ro, 0⟩]⟩
  | .colDup => ⟨0x05808008, 1, 0, 1, 0, [⟨31, 0, .ro, 0⟩]⟩
  | .colNotready => ⟨0x0580800C, 1, 0, 1, 0, [⟨31, 0, .ro, 0⟩]⟩
  | .hstPstat => ⟨0x06000000, 4, 0x100, 1, 0, [⟨31, 31, .ro, 0⟩, ⟨30, 20, .rsv, 0⟩, ⟨19, 10, .ro, 0⟩,
      ⟨9, 0, .rsv, 0⟩]⟩
  | .hstCtl => ⟨0x06000004, 4, 0x100, 1, 0, [⟨31, 31, .rw, 0⟩, ⟨30, 3, .rsv, 0⟩, ⟨2, 0, .rw, 3⟩]⟩
  | .hstCnp => ⟨0x06000008, 4, 0x100, 1, 0, [⟨31, 0, .ro, 0⟩]⟩
  | .hstDrop => ⟨0x0600000C, 4, 0x100, 1, 0, [⟨31, 0, .ro, 0⟩]⟩
  | .errUnit => ⟨0x07000000, 1, 0, 1, 0, [⟨31, 24, .rw, 0⟩, ⟨23, 0, .rw, 0⟩]⟩
  | .errCmd => ⟨0x07000004, 1, 0, 1, 0, [⟨31, 31, .wo, 0⟩, ⟨30, 30, .wo, 0⟩, ⟨29, 12, .rsv, 0⟩, ⟨11, 10, .ro, 0⟩,
      ⟨9, 8, .rsv, 0⟩, ⟨7, 0, .ro, 0⟩]⟩
  | .errCtl => ⟨0x07000008, 1, 0, 1, 0, [⟨31, 31, .rwl, 0⟩, ⟨30, 16, .rsv, 0⟩, ⟨15, 0, .rwl, 10⟩]⟩
  | .errCount => ⟨0x0700000C, 1, 0, 1, 0, [⟨31, 16, .ro, 0⟩, ⟨15, 0, .ro, 0⟩]⟩
  | .errImbal => ⟨0x07000010, 1, 0, 1, 0, [⟨31, 0, .ro, 0⟩]⟩
  | .errFatal => ⟨0x07000014, 1, 0, 1, 0, [⟨31, 31, .ro, 0⟩, ⟨30, 16, .rsv, 0⟩, ⟨15, 0, .ro, 0⟩]⟩
  | .errFatunit => ⟨0x07000018, 1, 0, 1, 0, [⟨31, 0, .ro, 0⟩]⟩
  | .errFattimeLo => ⟨0x0700001C, 1, 0, 1, 0, [⟨31, 0, .ro, 0⟩]⟩
  | .errFattimeHi => ⟨0x07000020, 1, 0, 1, 0, [⟨31, 0, .ro, 0⟩]⟩
  | .errCensus => ⟨0x07000024, 1, 0, 1, 0, [⟨31, 31, .wo, 0⟩, ⟨30, 30, .ro, 0⟩, ⟨29, 16, .rsv, 0⟩, ⟨15, 0, .ro, 0⟩]⟩
  | .errCensdstLo => ⟨0x07000028, 1, 0, 1, 0, [⟨31, 6, .rw, 0⟩, ⟨5, 0, .rsv, 0⟩]⟩
  | .errCensdstHi => ⟨0x0700002C, 1, 0, 1, 0, [⟨31, 19, .rsv, 0⟩, ⟨18, 16, .rw, 0⟩, ⟨15, 0, .rw, 0⟩]⟩
  | .errCenslen => ⟨0x07000030, 1, 0, 1, 0, [⟨31, 0, .rw, 0⟩]⟩
  | .telCtl => ⟨0x07100000, 1, 0, 1, 0, [⟨31, 31, .rwl, 0⟩, ⟨30, 1, .rsv, 0⟩, ⟨0, 0, .rw, 0⟩]⟩
  | .telRingLo => ⟨0x07100004, 1, 0, 1, 0, [⟨31, 21, .rwl, 0⟩, ⟨20, 0, .rsv, 0⟩]⟩
  | .telRingHi => ⟨0x07100008, 1, 0, 1, 0, [⟨31, 27, .rsv, 0⟩, ⟨26, 24, .rwl, 0⟩, ⟨23, 16, .rwl, 0⟩,
      ⟨15, 0, .rwl, 0⟩]⟩
  | .telProdLo => ⟨0x0710000C, 1, 0, 1, 0, [⟨31, 0, .ro, 0⟩]⟩
  | .telProdHi => ⟨0x07100010, 1, 0, 1, 0, [⟨31, 0, .ro, 0⟩]⟩
  | .telConsLo => ⟨0x07100014, 1, 0, 1, 0, [⟨31, 0, .rw, 0⟩]⟩
  | .telConsHi => ⟨0x07100018, 1, 0, 1, 0, [⟨31, 0, .rw, 0⟩]⟩
  | .telQuse => ⟨0x0710001C, 1, 0, 1, 0, [⟨31, 20, .ro, 0⟩, ⟨19, 9, .ro, 0⟩, ⟨8, 0, .ro, 0⟩]⟩
  | .telDropt => ⟨0x07100020, 1, 0, 1, 0, [⟨31, 0, .ro, 0⟩]⟩
  | .telCond => ⟨0x07100024, 1, 0, 1, 0, [⟨31, 0, .ro, 0⟩]⟩
  | .telLosti => ⟨0x07100028, 1, 0, 1, 0, [⟨31, 0, .ro, 0⟩]⟩
  | .telLostw => ⟨0x0710002C, 1, 0, 1, 0, [⟨31, 0, .ro, 0⟩]⟩
  | .telOvfe => ⟨0x07100030, 1, 0, 1, 0, [⟨31, 0, .ro, 0⟩]⟩
  | .telOvff => ⟨0x07100034, 1, 0, 1, 0, [⟨31, 0, .ro, 0⟩]⟩
  | .telLostr => ⟨0x07100038, 1, 0, 1, 0, [⟨31, 0, .ro, 0⟩]⟩
  | .ndlStat => ⟨0x08000000, 328, 0x40, 1, 0, [⟨31, 29, .ro, 0⟩, ⟨28, 27, .ro, 0⟩, ⟨26, 26, .ro, 0⟩,
      ⟨25, 25, .ro, 0⟩, ⟨24, 10, .rsv, 0⟩, ⟨9, 5, .ro, 0⟩, ⟨4, 0, .ro, 0⟩]⟩
  | .ndlReplay => ⟨0x08000004, 328, 0x40, 1, 0, [⟨31, 0, .ro, 0⟩]⟩
  | .ndlRetrain => ⟨0x08000008, 328, 0x40, 1, 0, [⟨31, 0, .ro, 0⟩]⟩
  | .ndlCtl => ⟨0x08008000, 1, 0, 1, 0, [⟨31, 31, .rwl, 0⟩, ⟨30, 20, .rsv, 0⟩, ⟨19, 16, .rwl, 3⟩, ⟨15, 0, .rwl, 16⟩]⟩
  | .ndlCfgerr => ⟨0x08008004, 1, 0, 1, 0, [⟨31, 20, .rsv, 0⟩, ⟨19, 0, .ro, 0⟩]⟩
  | .uciStat => ⟨0x08100000, 1, 0, 1, 0, [⟨31, 31, .ro, 0⟩, ⟨30, 27, .ro, 0⟩, ⟨26, 25, .ro, 0⟩, ⟨24, 21, .ro, 0⟩,
      ⟨20, 0, .rsv, 0⟩]⟩
  | .uciCtl => ⟨0x08100004, 1, 0, 1, 0, [⟨31, 31, .rwl, 0⟩, ⟨30, 30, .rw, 0⟩, ⟨29, 3, .rsv, 0⟩, ⟨2, 0, .rwl, 0⟩]⟩
  | .uciIdLo => ⟨0x08100008, 1, 0, 1, 0, [⟨31, 0, .ro, 0⟩]⟩
  | .uciIdHi => ⟨0x0810000C, 1, 0, 1, 0, [⟨31, 0, .ro, 0⟩]⟩
  | .uciErr => ⟨0x08100010, 1, 0, 1, 0, [⟨31, 0, .ro, 0⟩]⟩
  | .dbgLoop => ⟨0x09000000, 1, 0, 1, 0, [⟨31, 31, .wo, 0⟩, ⟨30, 30, .ro, 0⟩, ⟨29, 29, .rw, 0⟩, ⟨28, 27, .rw, 0⟩,
      ⟨26, 18, .rw, 0⟩, ⟨17, 16, .ro, 0⟩, ⟨15, 0, .rsv, 0⟩]⟩
  | .dbgLoopres => ⟨0x09000004, 1, 0, 1, 0, [⟨31, 23, .ro, 0⟩, ⟨22, 16, .rsv, 0⟩, ⟨15, 0, .ro, 0⟩]⟩
  | .dbgP1500 => ⟨0x09000008, 1, 0, 1, 0, [⟨31, 31, .wo, 0⟩, ⟨30, 30, .ro, 0⟩, ⟨29, 28, .ro, 0⟩, ⟨27, 4, .rsv, 0⟩,
      ⟨3, 0, .rw, 0⟩]⟩

/-- Part 1 of the list of all registers, by rising address. -/
def regsPart1 : List Reg :=
  [.genPart, .genStep, .genStrap, .genConfig, .genSerialLo, .genSerialHi, .genTimeLo, .genTimeHi, .stwPkey,
   .stwTimes, .stwSess, .stwSstate, .attMr, .attMrcnt, .attBoot, .attSvn, .attVer, .attKeys, .attExtd, .attExtctl,
   .attOwnctl, .updSrcLo, .updSrcHi, .updLen, .updCtl, .updStat, .fwpStat, .fwpCtl, .pwrTdp, .pwrCtl, .pwrPkg,
   .pwrFeed, .pwrEmerg, .pwrSect, .pwrScnt, .thmCtl, .thmTrip, .thmSect, .ageCtl, .ageStat]

/-- Part 2 of the list of all registers, by rising address. -/
def regsPart2 : List Reg :=
  [.ageHours, .ageSect, .calCtl, .calSrcLo, .calSrcHi, .calLen, .calStat, .schBench, .schCtl, .schStat, .schSaveq,
   .schPreempt, .alcHbmq, .alcT2q, .alcHbmuse, .alcT2use, .alcPinned, .alcBw, .alcAvail, .alcT2avail, .pgeCtl,
   .pgePromo, .pgeDemo, .pgeStall, .pgeStallus, .pgeNoframe, .numCtl, .numAsybaseLo, .numAsybaseHi, .numAsylostLo,
   .numAsylostHi, .numAsypend, .seqState, .seqPcLo, .seqPcHi, .seqFault, .seqFoffLo, .seqFoffHi, .seqFcount,
   .seqIssueLo]

/-- Part 3 of the list of all registers, by rising address. -/
def regsPart3 : List Reg :=
  [.seqIssueHi, .seqStallLo, .seqStallHi, .memStat, .memCecnt, .memUecnt, .memPoison, .memFenceLo, .memFenceHi,
   .memEccctl, .memScrub, .memRepair, .memAtomLo, .memAtomHi, .memAtomsat, .memLasterr, .t2mStat, .t2mCecnt,
   .t2mUecnt, .t2mLatns, .optStat, .optCtl, .optMargin, .optCal, .optSwap, .optLsr, .optTxl, .optRxl, .fabCtl,
   .fabId, .fabTbl, .fabLtime, .fabMgr, .fabWx, .fabWxringLo, .fabWxringHi, .fabDropEpoch, .fabDropRoute,
   .fabDropSlice, .fabDropLink]

/-- Part 4 of the list of all registers, by rising address. -/
def regsPart4 : List Reg :=
  [.fabReplay, .fabCrcerr, .fabFecunc, .fabLinkfail, .fabPslice, .fabGlmap, .fabSrtLo, .fabSrtHi, .fabStreeLo,
   .fabStreeHi, .fabArtLo, .fabArtHi, .fabAtreeLo, .fabAtreeHi, .rmaCtl, .rmaOut, .rmaRetry, .rmaUnknown,
   .rmaOwnuse, .rmaTimer, .rmaGw, .rmaLedger, .rmaNack, .rmaStale, .rmaDup, .rmaPurge, .rmaDrophdr, .rmaRankLo,
   .rmaRankHi, .colCtl, .colGroups, .colAborts, .colLastab, .colLastoff, .colInuse, .colResend, .colDup,
   .colNotready, .hstPstat, .hstCtl]

/-- Part 5 of the list of all registers, by rising address. -/
def regsPart5 : List Reg :=
  [.hstCnp, .hstDrop, .errUnit, .errCmd, .errCtl, .errCount, .errImbal, .errFatal, .errFatunit, .errFattimeLo,
   .errFattimeHi, .errCensus, .errCensdstLo, .errCensdstHi, .errCenslen, .telCtl, .telRingLo, .telRingHi,
   .telProdLo, .telProdHi, .telConsLo, .telConsHi, .telQuse, .telDropt, .telCond, .telLosti, .telLostw, .telOvfe,
   .telOvff, .telLostr, .ndlStat, .ndlReplay, .ndlRetrain, .ndlCtl, .ndlCfgerr, .uciStat, .uciCtl, .uciIdLo,
   .uciIdHi, .uciErr]

/-- Part 6 of the list of all registers, by rising address. -/
def regsPart6 : List Reg :=
  [.dbgLoop, .dbgLoopres, .dbgP1500]

/-- All registers. -/
def allRegs : List Reg := regsPart1 ++ regsPart2 ++ regsPart3 ++ regsPart4 ++ regsPart5 ++ regsPart6

/-- The HI register of a LO register (R13). -/
def Reg.hiOf : Reg → Option Reg
  | .genSerialLo => some .genSerialHi
  | .genTimeLo => some .genTimeHi
  | .updSrcLo => some .updSrcHi
  | .calSrcLo => some .calSrcHi
  | .numAsybaseLo => some .numAsybaseHi
  | .numAsylostLo => some .numAsylostHi
  | .seqPcLo => some .seqPcHi
  | .seqFoffLo => some .seqFoffHi
  | .seqIssueLo => some .seqIssueHi
  | .seqStallLo => some .seqStallHi
  | .memFenceLo => some .memFenceHi
  | .memAtomLo => some .memAtomHi
  | .fabWxringLo => some .fabWxringHi
  | .fabSrtLo => some .fabSrtHi
  | .fabStreeLo => some .fabStreeHi
  | .fabArtLo => some .fabArtHi
  | .fabAtreeLo => some .fabAtreeHi
  | .rmaRankLo => some .rmaRankHi
  | .errFattimeLo => some .errFattimeHi
  | .errCensdstLo => some .errCensdstHi
  | .telRingLo => some .telRingHi
  | .telProdLo => some .telProdHi
  | .telConsLo => some .telConsHi
  | .uciIdLo => some .uciIdHi
  | _ => none

/-- The LO register of a HI register (R13). -/
def Reg.loOf : Reg → Option Reg
  | .genSerialHi => some .genSerialLo
  | .genTimeHi => some .genTimeLo
  | .updSrcHi => some .updSrcLo
  | .calSrcHi => some .calSrcLo
  | .numAsybaseHi => some .numAsybaseLo
  | .numAsylostHi => some .numAsylostLo
  | .seqPcHi => some .seqPcLo
  | .seqFoffHi => some .seqFoffLo
  | .seqIssueHi => some .seqIssueLo
  | .seqStallHi => some .seqStallLo
  | .memFenceHi => some .memFenceLo
  | .memAtomHi => some .memAtomLo
  | .fabWxringHi => some .fabWxringLo
  | .fabSrtHi => some .fabSrtLo
  | .fabStreeHi => some .fabStreeLo
  | .fabArtHi => some .fabArtLo
  | .fabAtreeHi => some .fabAtreeLo
  | .rmaRankHi => some .rmaRankLo
  | .errFattimeHi => some .errFattimeLo
  | .errCensdstHi => some .errCensdstLo
  | .telRingHi => some .telRingLo
  | .telProdHi => some .telProdLo
  | .telConsHi => some .telConsLo
  | .uciIdHi => some .uciIdLo
  | _ => none

/-- The register whose bit 31 (or, for ATT_EXTCTL and CAL_CTL, whose LOCK field) locks the RWL fields of a register
(R10, R12), in the same instance. -/
def Reg.lockedBy : Reg → Option Reg
  | .numCtl => some .numCtl
  | .numAsybaseLo => some .numCtl
  | .numAsybaseHi => some .numCtl
  | .schCtl => some .schCtl
  | .schBench => some .schCtl
  | .schSaveq => some .schCtl
  | .pgeCtl => some .pgeCtl
  | .memEccctl => some .memEccctl
  | .optCtl => some .optCtl
  | .optMargin => some .optCtl
  | .optCal => some .optCtl
  | .fabCtl => some .fabCtl
  | .fabId => some .fabCtl
  | .fabMgr => some .fabCtl
  | .fabPslice => some .fabCtl
  | .rmaCtl => some .rmaCtl
  | .rmaRankLo => some .rmaCtl
  | .rmaRankHi => some .rmaCtl
  | .colCtl => some .colCtl
  | .pwrTdp => some .pwrTdp
  | .thmCtl => some .thmCtl
  | .ageCtl => some .ageCtl
  | .errCtl => some .errCtl
  | .telCtl => some .telCtl
  | .telRingLo => some .telCtl
  | .telRingHi => some .telCtl
  | .ndlCtl => some .ndlCtl
  | .uciCtl => some .uciCtl
  | .attExtctl => some .attExtctl
  | .calCtl => some .calCtl
  | _ => none

end Sys2Proof.Machine
end

