-- ==== Sys2Proof/Machine/State.lean ====
section
/-! DEFINITION. The state of the block as plain data, the reasons a step can stop, and the state after reset. -/

namespace Sys2Proof.Machine

/-- Faults of the model. It has none: what the spec calls a fault of a program is an effect on the state, a report on
its way to the fault arbiter (R113), and every command of the table ends in a next state. -/
inductive Fault where
  deriving DecidableEq, Repr

/-- Refusals of the model. -/
inductive Refusal where
  /-- Raised by an arm of exec for a command that has no meaning yet. Safe: nothing is claimed of it. -/
  | notModelled (mnemonic : String)
  deriving DecidableEq, Repr

/-! ## Benches (chapters 02, 03, 04) -/

/-- A tile handle (R45): start line, line count, and the 64 header bytes as last written, byte 0 lowest. -/
structure Handle where
  start : Nat
  lines : Nat
  hdr   : BitVec 512
  deriving DecidableEq, Repr

/-- The directions of R82. -/
inductive PortDir where
  | loc | inn | out
  deriving DecidableEq, Repr

/-- What a port is bound to (Table 3.5): a channel identifier, a direction, and for an out port the consumer role. -/
structure Port where
  id   : Nat
  dir  : PortDir
  role : Nat
  deriving DecidableEq, Repr

/-- A loop-stack entry: the byte offsets of the body's start and end, how many more times it runs, and (the model's own) the
depth of the return stack at its LOOP. -/
structure LoopEntry where
  start : Nat
  stop  : Nat
  left  : Nat
  calls : Nat
  deriving DecidableEq, Repr

/-- A return-stack entry: the return offset and the loop-stack depth. -/
structure RetEntry where
  off   : Nat
  depth : Nat
  deriving DecidableEq, Repr

/-- An Anvil accumulator buffer (R128, R129): FP32 bits at row × 128 + column, its extent, its saturation count. -/
structure Accum where
  val : Tab W32
  ext : Option (Nat × Nat)
  sat : Nat
  deriving DecidableEq, Repr

/-- A Flux chain slot (R141): the constants and the step words. -/
structure Chain where
  consts : List W32
  steps  : List W32
  deriving DecidableEq, Repr

/-- One posted update of an Assay record (R204 to R208): what it adds and the greatest value it brings. -/
structure AssayUpd where
  tag     : Nat
  eid     : Nat
  adds    : Tab Nat
  maxAbs  : Nat
  deriving DecidableEq, Repr

/-- What an executed station instruction leaves when it retires, in order (R54). -/
inductive Eff where
  | handle (t : Nat) (h : Handle)
  | store (addr : Nat) (bytes : List Byte)
  | send (port : Port) (packet : List Byte)
  | accum (k : Nat) (a : Accum)
  | chain (k : Nat) (c : Chain)
  | scalar (n : Nat) (v : W64)
  | pred (n : Nat) (v : Bool)
  | assay (u : AssayUpd)
  | clamps (n : Nat)
  deriving DecidableEq, Repr

/-- How far a queued instruction has come. -/
inductive Phase where
  | queued | started | executed
  deriving DecidableEq, Repr

/-- An entry of a station queue or of the system queue: its number within the bench, the offset of its word, the word,
the scalars read at issue for O1 to O4 (R81), the ports resolved at issue (R82), the rank entry of its remote pointer (R360), the
entries it waits for (R109), how far it has come, the seed value and Assay history read when it started (R186, R194), the requests it waits for, and what it leaves
when it retires. -/
structure Entry where
  eid   : Nat
  off   : Nat
  word  : W128
  vals  : List W64
  ports : List (Option Port)
  rank  : Nat
  deps  : List Nat
  phase : Phase
  seed  : W64
  hist  : Nat
  reqs  : List Nat
  effs  : List Eff
  deriving DecidableEq, Repr

/-- An open or closing channel, in its consumer's bench (R46, R49, R53). -/
structure Channel where
  closing   : Bool
  prod      : Nat
  cons      : Nat
  credits   : Nat
  slot      : Nat
  bridge    : Bool
  prodRole  : Nat
  far       : Bool
  grans     : List Nat
  packets   : List (List Byte)
  /-- How many of the packets at the front an instruction is reading. -/
  reading   : Nat
  /-- The packets of writes in progress, oldest first. -/
  writing   : List (List Byte)
  returning : Nat
  deriving DecidableEq, Repr

/-- Who holds a granule (R221); a granule that no entry lists is in the free pool. -/
inductive GranOwner where
  | role
  /-- Allocated by GALLOC. -/
  | alloc
  | channel (id : Nat)
  | staging (group : Nat)
  deriving DecidableEq, Repr

/-- A tracked use of tile handles (R109): the last writer and the readers that have not retired. -/
structure HandleUse where
  writer  : Option Nat
  readers : List Nat
  deriving DecidableEq, Repr

/-- One bench: sequencer, stations and bench store. -/
structure Bench where
  /-- The program placed on the bench and its role there. -/
  prog    : Option Nat
  role    : Nat
  scalars : Tab W64
  preds   : Tab Bool
  handles : Tab Handle
  ports   : Tab Port
  loops   : List LoopEntry
  rets    : List RetEntry
  pc      : Nat
  /-- Device-virtual base and length of the control stream; the stream buffer's first word and its words. -/
  sbase   : Nat
  slen    : Nat
  bufAt   : Nat
  buf     : List W128
  /-- SEQ_STATE, SEQ_FAULT, SEQ_FOFF, SEQ_FCOUNT, SEQ_ISSUE and SEQ_STALL (Table 3.13). -/
  seq     : Nat
  cause   : Nat
  fvalid  : Bool
  ford    : Nat
  fstatus : Status
  foff    : Nat
  fcount  : Nat
  issued  : W64
  stalled : W64
  /-- Station queues by ordinal, oldest first; the system queue, and the entry the hub has taken from it. -/
  queues  : Tab (List Entry)
  sysq    : List Entry
  taken   : Option Entry
  nextId  : Nat
  uses    : Tab HandleUse
  /-- Completion predicates that still wait on a request (R103). -/
  waitPreds : List Nat
  grans   : Tab GranOwner
  /-- How often each granule has been granted. -/
  gens    : Tab Nat
  /-- Bytes of bench store written since their granule was granted, and the 64-byte lines marked poisoned (R270). -/
  store   : Tab Byte
  badLines : List Nat
  /-- Sums and inputs of CXSUM that were clamped: each counts as one saturation (R122, R408). -/
  clamps : Nat
  /-- The model's own: of a granule restored with a role, the bench and the grant its unwritten bytes date from (R66). -/
  origin  : Tab (Nat × Nat)
  /-- Accumulators by 2 × anvil + buffer. -/
  accs    : Tab Accum
  /-- Chain slots by 8 × Flux + slot. -/
  chains  : Tab Chain
  /-- Seed slots (R185). -/
  seeds   : Tab W64
  chans   : Tab Channel
  /-- Per Sprue, the pages whose leaf entries its TLB holds, newest first (R239). -/
  tlbs    : Tab (List Nat)
  /-- The id of the YIELD the role has stopped at. -/
  yielded : Option Nat
  /-- Ordinals of the units that have detected a fault and start nothing more (Table 3.12). -/
  halted  : List Nat
  deriving DecidableEq, Repr

/-- A bench with no role. -/
def Bench.reset : Bench :=
  { prog := none, role := 0, scalars := [], preds := [], handles := [], ports := [], loops := [], rets := [], pc := 0,
    sbase := 0, slen := 0, bufAt := 0, buf := [], seq := 0, cause := 0, fvalid := false, ford := 0, fstatus := 0,
    foff := 0, fcount := 0, issued := 0, stalled := 0, queues := [], sysq := [], taken := none, nextId := 0, uses := [],
    waitPreds := [], grans := [], gens := [], store := [], badLines := [], clamps := 0,
    origin := [], accs := [], chains := [], seeds := [], chans := [],
    tlbs := [], yielded := none, halted := [] }

/-! ## Allocation, paging, scheduling (chapter 07) -/

/-- A leaf entry (Table 7.4), valid. `frame` is PA[41:21]; `res` is RES; `owner` is the session that R424 frees the
page with, when it has one. -/
structure Leaf where
  res   : Nat
  wr    : Bool
  pin   : Bool
  psc   : Bool
  t2d   : Bool
  fen   : Bool
  prog  : Nat
  frame : Nat
  heat  : Nat
  owner : Option Nat
  deriving DecidableEq, Repr

/-- A move of one page (R245): the frame it moves to, the fragments that have arrived, whether a PPIN waits for it. -/
structure PageMove where
  toHbm  : Bool
  target : Nat
  frags  : List Nat
  pinAfter : Bool
  deriving DecidableEq, Repr

/-- An ABORT for a group that is not active on this part yet (R405). -/
structure EarlyAbort where
  group  : Nat
  seq    : Nat
  status : Status
  who    : Nat
  rank   : Nat
  deriving DecidableEq, Repr

/-- The state of one partition that no register holds. -/
structure Partition where
  leaves    : Tab Leaf
  /-- Leaves already unmapped whose translated segments have not all ended (R233). -/
  going     : Tab Leaf
  moves     : Tab PageMove
  /-- The global group that the last placement used (R266). -/
  lastGroup : Option Nat
  /-- Demand fetches asked for and prefetches asked for by SPPF, oldest first. -/
  demand    : List Nat
  prefetch  : List Nat
  /-- Above the high watermark since the last warning (R243). -/
  highWarn  : Bool
  /-- Use has risen above HIWM and not yet fallen to LOWM (R243). -/
  demoting  : Bool
  /-- When HEAT was last halved (R242). -/
  decayed   : Time
  /-- Tokens of each bucket in eighths of a byte, and what has been refilled, spent and discarded (Table 16.3). -/
  tokens    : Tab Nat
  refilled  : Tab Nat
  spent     : Tab Nat
  discarded : Tab Nat
  /-- What each bucket owes for an access admitted with too few tokens, and the groups at which an access waits (R251). -/
  owed      : Tab Nat
  waits     : List Nat
  /-- Posted Assay updates not yet applied, oldest first, each with its poster as 64 × program + role. -/
  assayQ    : List (Nat × AssayUpd)
  /-- Aborts for groups of the partition that are not active on this part yet (R405). -/
  early     : List EarlyAbort
  /-- Channels closed with packets discarded since the last census of the partition: bench × 64 + id, credits, packets. -/
  fclosed   : List (Nat × Nat × Nat)
  /-- The same since the last part-scope census. -/
  fclosedAll : List (Nat × Nat × Nat)
  /-- Ledger entries created by atomics of other parts (Table 16.3, kind 7). -/
  ledgerMade : Nat
  deriving DecidableEq, Repr

def Partition.reset : Partition :=
  { leaves := [], going := [], moves := [], lastGroup := none, demand := [], prefetch := [], highWarn := false, demoting := false, decayed := 0, tokens := [],
    refilled := [], spent := [], discarded := [], owed := [], waits := [], assayQ := [], early := [], fclosed := [], fclosedAll := [], ledgerMade := 0 }

/-- A page table in the reserve (R237): its partition, its level (0 root, 1 second, 2 leaf) and which one of its level it is. -/
structure TablePage where
  part  : Nat
  level : Nat
  index : Nat
  deriving DecidableEq, Repr

/-- The state of a frame that is not free. -/
inductive FrameState where
  | used | scrub | withdrawn
  deriving DecidableEq, Repr

/-- A role of a program image (Table 2.8). -/
structure RoleDesc where
  soff  : Nat
  slen  : Nat
  homeG : Nat
  farG  : Nat
  aff   : Nat
  deriving DecidableEq, Repr

/-- A yield-table entry (Table 2.10). -/
structure YieldDesc where
  role : Nat
  acc  : Nat
  id   : Nat
  live : Nat
  deriving DecidableEq, Repr

/-- A group table entry with its member list (Tables 12.1, 12.2): the rank and role of each member, and, from placement
on, the node of each (R393). -/
structure GroupDesc where
  group   : Nat
  tv      : Bool
  members : List (Nat × Nat)
  chunk   : Nat
  depth   : Nat
  tree    : Nat
  nodes   : List (Option Nat)
  deriving DecidableEq, Repr

/-- The states of Table 7.6. -/
inductive ProgState where
  | queued | placing | running | preempting | saved | restoring | ending | complete
  deriving DecidableEq, Repr

/-- The first fault of a program (R60, R113). -/
structure FirstFault where
  role   : Nat
  ord    : Nat
  off    : Nat
  status : Status
  deriving DecidableEq, Repr

/-- A program (Table 7.6). -/
structure Prog where
  part    : Nat
  sess    : Option Nat
  list    : Nat
  recIdx  : Nat
  image   : Nat
  length  : Nat
  pri     : Nat
  cookie  : Nat
  arrival : Nat
  state   : ProgState
  roles   : List RoleDesc
  yields  : List YieldDesc
  groups  : List GroupDesc
  /-- The bench of each role. -/
  place   : List Nat
  /-- When Running began, and when it was last placed. -/
  started : Time
  placed  : Time
  lastTimeout : Option Time
  /-- A preemption request stands since this time. -/
  preempt : Option Time
  /-- The request does not time out (CANCEL, orphaned sessions, closing). -/
  standing : Bool
  /-- When the program stops at its yields it ends with this status. -/
  endWith : Option Status
  fault   : Option FirstFault
  fcount  : Nat
  quantum : Bool
  savePages : Nat
  /-- The save pages of each role in use, by frame, and the saved benches. -/
  saveFrames : List (List Nat)
  saved   : List Bench
  deriving DecidableEq, Repr

/-- A fault report on its way to the arbiter (R113). -/
structure FaultReport where
  prog   : Nat
  bench  : Nat
  role   : Nat
  ord    : Nat
  off    : Nat
  status : Status
  deriving DecidableEq, Repr

/-! ## Containment and telemetry (chapter 16) -/

/-- The fence states of R490. -/
inductive FenceState where
  | up | draining | fenced | recovering
  deriving DecidableEq, Repr

/-- The fence state of a unit, since when it has it, and the cause. -/
structure UnitFence where
  state : FenceState
  since : Time
  cause : Status
  deriving DecidableEq, Repr

/-- A telemetry record (Table 16.7). -/
structure TelRecord where
  time  : Nat
  code  : BitVec 16
  sev   : Nat
  cond  : Bool
  part  : Option Nat
  unit  : Nat
  count : Nat
  last  : Nat
  data  : W64
  deriving DecidableEq, Repr

/-- A slot of the event queue and its class: 0 shared, 1 Error, 2 Fatal (R505). -/
structure QueuedRecord where
  rec_ : TelRecord
  slot : Nat
  deriving DecidableEq, Repr

/-- A census that runs (R499): the partition for partition scope and the remote-operation number of its CENSUS (R501), the partition that
holds the buffer, the buffer's address and length. -/
structure Census where
  part  : Option Nat
  op    : Option Nat
  space : Nat
  dest  : Nat
  len   : Nat
  deriving DecidableEq, Repr

/-! ## The block -/

/-- LO captures and held LO writes of one access path (R13), by the address of the LO register. -/
structure PathRegs where
  capture : Tab W32
  held    : Tab W32
  deriving DecidableEq, Repr

/-! ## Split requests (chapters 03, 04) -/

/-- How far a segment of a split request has come (R102, R157). -/
inductive SegState where
  /-- Not started. -/
  | untouched
  /-- Its TLB lookup missed and a walk is due (R239). -/
  | walking
  /-- It waits for Drift (R157, R244, R245). -/
  | waiting
  /-- Translated; its data move next. -/
  | moving
  | landed
  | failed
  /-- Ended with its destination untouched. -/
  | refused
  deriving DecidableEq, Repr

/-- A segment: the device-virtual address, the near address (bench store, or the own partition's space), the length; of a remote
segment also the packets that have not ended, those that succeeded, and whether one completed with 0x0488 (R385, R386). -/
structure Seg where
  va     : Nat
  loc    : Nat
  len    : Nat
  state  : SegState
  status : Status
  since  : Time
  todo   : Nat
  okN    : Nat
  unk    : Bool
  deriving DecidableEq, Repr

/-- A split request: the bench and entry that made it, its partition, its ordinal (a Sprue's, or 13 of the system queue), whether
it writes the far end, its segments, its record, completion predicate and SOFT. A remote request holds the rank entry
translated at issue (R361), ORD, and whether its near end is the own partition's device memory. `prog` and `role` are those that made it,
`faulted` says that it has faulted its program (R104), `first` holds the header that a SPTLD has read, and `land` the bytes that bench store
takes when the request ends (R54). -/
structure Req where
  prog   : Option Nat
  role   : Nat
  bench  : Nat
  eid    : Nat
  part   : Nat
  ord    : Nat
  off    : Nat
  write  : Bool
  segs   : List Seg
  record : Option Nat
  pred   : Nat
  soft   : Bool
  done   : Bool
  rank   : Option Nat
  ordered : Bool
  nearDev : Bool
  /-- The near end is a packet outside bench store (a port's); a SPTLD still reads its header into it. -/
  buf    : Option (List Byte)
  head   : Bool
  faulted : Bool
  first  : Option (List Byte)
  land   : List (Nat × List Byte)
  deriving DecidableEq, Repr

/-! ## Remote memory (chapter 11) -/

/-- A remote operation of one request: RLD, RST, RAMO or ROWN (R362, R364). -/
structure RemoteOp where
  prog   : Option Nat
  role   : Nat
  bench  : Nat
  part   : Nat
  off    : Nat
  opc    : Nat
  wide   : Bool
  dest   : Nat
  status : Nat
  pred   : Nat
  soft   : Bool
  deriving DecidableEq, Repr

/-- What a transaction belongs to. -/
inductive TxnOwner where
  | op (n : Nat)
  | seg (req seg : Nat)
  | floor
  /-- An operation that another domain's gateway delivered over a queue pair (R389). -/
  | gateway (qp : Nat)
  deriving DecidableEq, Repr

/-- A request packet that awaits its final response (R379), or one that waits to be sent. `rank` is the rank entry; `near` says that
the pointer named space 0 (R359); `sent` is when it, or the NACK it met, last went over. -/
structure Txn where
  owner   : TxnOwner
  part    : Nat
  near    : Bool
  rank    : Nat
  hdr     : Transport
  payload : List Byte
  sent    : Time
  tries   : Nat
  nacked  : Bool
  deriving DecidableEq, Repr

/-- The sequence of requests to one home (R372): the next SEQ, those outstanding in order, the ORD ones among them, the partition of
the last, when a request was last sent or the floor last advanced, and whether the floor has advanced since a request (R378). -/
structure PairSeq where
  next     : Nat
  out      : List Nat
  ords     : List Nat
  part     : Nat
  near     : Bool
  sentAt   : Time
  floorDue : Bool
  deriving DecidableEq, Repr

/-- A request that a home has accepted (R373), and the page it waits for Drift to promote (R387). -/
structure HomeReq where
  pkt    : Packet
  part   : Nat
  done   : Bool
  wait   : Option Nat
  status : Status
  old    : Nat
  /-- A repeated read that is to be answered again by reading again (R373). -/
  again  : Bool
  deriving DecidableEq, Repr

/-- What a home keeps of a source: its INST, floor, the requests in its window, and the requests that it last answered with NACK (R373, R375,
R376). -/
structure Source where
  inst   : Nat
  floor  : Nat
  reqs   : Tab HomeReq
  nacked : Tab (Nat × Transport)
  deriving DecidableEq, Repr

/-- An ownership entry (R382): exclusive with its owner, or shared with its holders. -/
inductive Owner where
  | shared (holders : Nat)
  | exclusive (node : Nat)
  deriving DecidableEq, Repr

/-! ## Optical engines (chapter 09) -/

/-- What a lane keeps beside its register: when it went down within the last 60 s (R309), successive samples below −12.0 dBm, its
condition in Table 9.4 (0 good, 1 low, 2 critical), since when it trains, since when it is not up (R354), and since when it neither is up nor
is held for a swap or a calibration (R288). -/
structure LaneAux where
  downs : List Time
  low   : Nat
  cond  : Nat
  since : Time
  notUp : Time
  off   : Time
  deriving DecidableEq, Repr

def LaneAux.reset : LaneAux := { downs := [], low := 0, cond := 0, since := 0, notUp := 0, off := 0 }

/-- The swap that runs (Table 9.6): the laser, whether it is dead, whether the spare is locked, when it began. -/
structure Swap where
  laser  : Nat
  dead   : Bool
  locked : Bool
  began  : Time
  deriving DecidableEq, Repr

/-- An optical engine: lanes by 64 × direction + index, band, above 90 °C, bias in 0.5 mA units by pair, and by 16 + pair of a spare that
a swap warms, the swap and those that wait or are
to be declared again after a core restart, the calibration that runs and the colours due, the last full calibration, open fibres,
LASER_EN and when it rose, the presence pin and whether the LSM was found at start-up and of the right type. -/
structure Engine where
  lanes   : Tab LaneAux
  band    : Nat
  hot     : Bool
  bias    : Tab Nat
  swap    : Option Swap
  queue   : List (Nat × Bool)
  redo    : List (Nat × Bool)
  cal     : Option (Nat × Time)
  calTodo : List Nat
  calAt   : Time
  opened  : List Nat
  lit     : Bool
  litAt   : Time
  /-- Until when a peer's flow control holds back each port of a host engine (R418). -/
  paused  : Tab Time
  present : Bool
  lsm     : Bool
  deriving DecidableEq, Repr

def Engine.reset : Engine :=
  { lanes := [], band := 0, hot := false, bias := [], swap := none, queue := [], redo := [], cal := none, calTodo := [], calAt := 0,
    opened := [], lit := false, litAt := 0, paused := [], present := false, lsm := false }

/-- What a queue pair serves (R419). -/
inductive QpKind where
  | fresh
  | mailbox (sess : Nat)
  | data (sess : Nat)
  | admin
  | gateway (rdom : Nat) (ord : Bool)
  deriving DecidableEq, Repr

/-- A queue pair (R417, R418): its port, use, whether it is in the error state, its send rate in 2^−32 of line rate, when the last
notification arrived or the rate last rose, and when one was last sent. -/
structure QueuePair where
  port    : Nat
  kind    : QpKind
  terms   : ConnTerms
  failed  : Bool
  rate    : Nat
  rateAt  : Time
  sentCnp : Option Time
  deriving DecidableEq, Repr

/-! ## Fabric (chapter 10) -/

/-- A table set (R335, R344, R347): its routing and tree entries; one that no entry lists is 0, or, in a released set, a free value of the
number in `undef` (R349). -/
structure TableSet where
  routes : Tab (BitVec 64)
  trees  : Tab (BitVec 64)
  undef  : Option Nat
  deriving DecidableEq, Repr

/-- Where a packet on its way holds input credits (R353): link, 4 × VC + STG, shared and dedicated flits not yet returned. -/
structure Origin where
  link   : Nat
  vs     : Nat
  shared : Nat
  ded    : Nat
  deriving DecidableEq, Repr

/-- A packet that waits for a link: its hop stage, the flits already sent, the quiesced global lane it waits for (R338), the input
credits it holds. -/
structure TxItem where
  pkt  : Packet
  sent : Nat
  gl   : Option Nat
  orig : Option Origin
  deriving DecidableEq, Repr

/-- A packet delivered to a partition. -/
structure Arrived where
  time : Time
  part : Nat
  pkt  : Packet
  /-- The input credits that a request holds until the remote-memory engine takes it (R353, R380). -/
  orig : Option Origin
  deriving DecidableEq, Repr

/-- A flit that is not acknowledged, and its packet (R352, R354). -/
structure SentFlit where
  flit : Flit
  pkt  : Packet
  deriving DecidableEq, Repr

/-- One link (R351 to R354), by 8,192 × (global) + far node, or 16,384 + `far` of a memory link. As sender: next SEQ, unacknowledged flits, when acknowledgements last
advanced, shared and dedicated credits spent, packets that wait. As receiver: next SEQ expected, flits held ahead of a gap, since
when the gap is open, credits in use and owed, the credits of packets in progress. Drain markers received, as 6 × TYPE + stage, and
those that wait for a held lane. When it last sent or heard an acknowledgement (R352), the TYPE last served and the management flits of the
present microsecond (Table 10.5), and the outage for which it has failed (R354). -/
structure Link where
  seq     : Nat
  unacked : List SentFlit
  ackAt   : Time
  tryAt   : Time
  turn    : Nat
  mgAt    : Time
  mgSent  : Nat
  toMark  : List Nat
  failedAt : Option Time
  shared  : Nat
  ded     : Tab Nat
  queue   : List TxItem
  next    : Nat
  held    : List Flit
  gap     : Option Time
  inShared : Nat
  inDed   : Tab Nat
  owed    : Tab Nat
  part    : Tab Origin
  marks   : List Nat
  deriving DecidableEq, Repr

def Link.reset : Link :=
  { seq := 0, unacked := [], ackAt := 0, tryAt := 0, turn := 0, mgAt := 0, mgSent := 0, toMark := [], failedAt := none, shared := 0, ded := [], queue := [], next := 0, held := [], gap := none, inShared := 0,
    inDed := [], owed := [], part := [], marks := [] }
/-! ## Collectives (chapter 12) -/

/-- A collective that a member of this part has issued and that is not complete: its word's fields, its values and flags (SAT 1, NONFIN
2), the chunk size's log2 once GO has come and when it came, how many of its sends are done, the chunks written (block, chunk), its own
block's chunks that are folded, and the SAT so far. -/
structure Coll where
  prog    : Nat
  bench   : Nat
  part    : Nat
  group   : Nat
  member  : Nat
  off     : Nat
  word    : W128
  sig     : Signature
  dst     : Nat
  src     : Nat
  values  : List Int
  flags   : Nat
  go      : Option Nat
  goAt    : Time
  pos     : Nat
  got     : List (Nat × Nat)
  folded  : List Nat
  sat     : Bool
  deriving DecidableEq, Repr

/-- The signature round of one sequence at the part of a fabric group's lowest member, member 0's among them, and since when (R403). -/
structure Gather where
  since : Time
  items : List GatherItem
  deriving DecidableEq, Repr

/-- The accumulator of one chunk of a member's block: FP32 elements, whether one saturated, the members folded (R410). -/
structure ChunkAcc where
  seq    : Nat
  member : Nat
  chunk  : Nat
  vals   : List W32
  sat    : Bool
  folded : List Nat
  deriving DecidableEq, Repr

/-- A chunk contribution in a staging slot. -/
structure Staged where
  seq    : Nat
  sender : Nat
  member : Nat
  chunk  : Nat
  data   : List Byte
  deriving DecidableEq, Repr

/-- The record of a packet received (R412): kind 0 signature, 1 contribution, 2 result, 3 GO, 4 the signatures of a fabric group. -/
structure CollSeen where
  kind   : Nat
  seq    : Nat
  sender : Nat
  member : Nat
  chunk  : Nat
  deriving DecidableEq, Repr

/-- An ABORT for a sequence that a member has not issued (R405). -/
structure CollAbort where
  member : Nat
  seq    : Nat
  status : Status
  who    : Nat
  rank   : Nat
  deriving DecidableEq, Repr

/-- What the part keeps of an active group: its program, the next sequence of each member, the member and RANK that made it dead, when it is (R413), recorded aborts,
signature rounds by sequence, accumulators, staged contributions, what has been received, and the counts of Table 16.3. -/
structure CollGroup where
  prog     : Nat
  seqs     : Tab Nat
  dead     : Option (Nat × Nat)
  aborts   : List CollAbort
  rounds   : Tab Gather
  accs     : List ChunkAcc
  staged   : List Staged
  seen     : List CollSeen
  received : Nat
  folded   : Nat
  dups     : Nat
  aborted  : Nat
  deriving DecidableEq, Repr
/-! ## Sessions (chapter 13) -/

/-- The states of Table 13.2; `freeing` is a session whose freeing has begun. -/
inductive SessState where
  | closed | open_ | orphaned | holding | freeing
  deriving DecidableEq, Repr

/-- An RDMA region (R430), and the pages to which a PFREE has revoked it. -/
structure Region where
  rkey  : W32
  base  : Nat
  len   : Nat
  read  : Bool
  write : Bool
  revoked : List Nat
  deriving DecidableEq, Repr

/-- An intake list (R432, R433). -/
structure IntakeList where
  base    : Nat
  entries : Nat
  cap     : Nat
  notify  : Bool
  head    : Nat
  done    : Nat
  stopped : Bool
  deriving DecidableEq, Repr

/-- A session (R421 to R426). -/
structure Session where
  state   : SessState
  part    : Nat
  token   : W32
  window  : W32
  /-- When its lease was last renewed, and when it became Orphaned. -/
  renewed : Time
  since   : Time
  regions : List Region
  lists   : Tab IntakeList
  evsub   : Option Nat
  deriving DecidableEq, Repr

def Session.reset : Session :=
  { state := .closed, part := 0, token := 0, window := 0, renewed := 0, since := 0, regions := [], lists := [],
    evsub := none }

/-- What the reply to a request carries besides its status (Table 13.6). -/
inductive ReplyBody where
  | none
  | opened (sess : Nat) (token window : W32)
  | lease (ms : Nat)
  | values (l : List W32)
  | refusedAt (index : Nat)
  | rkey (k : W32)
  | listNo (n : Nat)
  deriving DecidableEq, Repr

/-- A reply: the request's type and sequence, the session it names, its status and payload. -/
structure Reply where
  typ    : BitVec 16
  seq    : W32
  sess   : BitVec 16
  status : Status
  body   : ReplyBody
  deriving DecidableEq, Repr

/-- A mailbox: requests not answered, oldest first, and the replies to the last 64 sequences, oldest first (R428). -/
structure Mailbox where
  queue   : List Message
  replies : List Reply
  deriving DecidableEq, Repr

/-- What an RDMA access of a host ends with (R430, R435). -/
inductive RdmaResult where
  | done (data : List Byte)
  | accessError
  deriving DecidableEq, Repr
/-! ## Firmware, boot and attestation (chapter 14) -/

/-- The states of a bank, or of a copy of an owner image (R441, R453). -/
inductive BankState where
  | erased | staging | staged
  deriving DecidableEq, Repr

/-- A bank: its state and its directory, image ID and image of each entry. -/
structure Bank where
  state  : BankState
  images : List (Nat × Image)
  deriving DecidableEq, Repr

/-- A valid copy of the boot record (R442): its sequence number, active bank (false A), TRIAL, TRIED and boot count. -/
structure BootRec where
  seq   : Nat
  bankB : Bool
  trial : Bool
  tried : Bool
  count : Nat
  deriving DecidableEq, Repr

/-- The flash (Table 14.3). A boot record copy that is not valid is none; so is an erased overlay copy. AGE_HOURS is kept in it. -/
structure Flash where
  rec0   : Option BootRec
  rec1   : Option BootRec
  chain0 : List Byte
  chain1 : List Byte
  cfg0   : Bank
  cfg1   : Bank
  map0   : Bank
  map1   : Bank
  cal0   : Option (List Byte)
  cal1   : Option (List Byte)
  bankA  : Bank
  bankB  : Bank
  hours  : Nat
  deriving DecidableEq, Repr

/-- A key slot of the OTP (R444): the fused digest, when one is, and the revoke fuse. -/
structure KeySlot where
  key     : Option (BitVec 384)
  revoked : Bool
  deriving DecidableEq, Repr

/-- The OTP that changes: vendor and owner key slots, the fused counter. -/
structure Otp where
  vendor  : List KeySlot
  owner   : List KeySlot
  counter : Nat
  deriving DecidableEq, Repr

/-- An update in progress (R453 to R456). -/
inductive Update where
  /-- The set being written: to the inactive bank, or to a copy of an owner image. -/
  | stage (images : List (Nat × Image))
  /-- The processors still to move, the one in hand first; whether the sequence pauses; whether ABORT came meanwhile. -/
  | live (procs : List Nat) (paused stop : Bool)
  | commit
  deriving DecidableEq, Repr

/-- A request that waits for the hold-off (R456). -/
inductive Deferred where
  | reset | live | commit
  deriving DecidableEq, Repr

/-- What an SPDM response says; the message layouts are the standard's. -/
inductive SpdmBody where
  | version
  | capabilities
  | algorithms
  | digests (l : List (Nat × BitVec 384))
  | certificate (slot : Nat) (portion : List Byte) (remainder : Nat)
  | challengeAuth (slot : Nat) (certHash : BitVec 384) (nonce : List Byte)
  /-- Index and value of each measurement. -/
  | measurements (l : List (Nat × BitVec 384)) (nonce : List Byte)
  | busy
  | unsupported (code : Byte)
  | invalid
  deriving DecidableEq, Repr

/-- A signed response that waits (R461). -/
structure SignReq where
  src  : SpdmFrom
  body : SpdmBody
  deriving DecidableEq, Repr
/-! ## Power, temperature and ageing (chapter 15) -/

/-- A sector: how long its ladder has been clear (ns), its temperature samples (0.1 °C, newest first), the rate warning, the last rate
cut, at or above HOTCUT, the last change of band, the last path-monitor alarm, its regulator off, the gate in sixteenths, the work-clock
target it has taken (25 MHz), the plan's voltage (mV) and fmax reduction in force, the overlay's voltage offset (2.5 mV) and fmax
reduction in force. -/
structure Sector where
  clear   : Nat
  samples : List Int
  warn    : Bool
  cutAt   : Option Time
  hot     : Bool
  bandAt  : Option Time
  alarmAt : Option Time
  regOff  : Bool
  gate    : Nat
  ftgt    : Nat
  guard   : Nat
  down    : Nat
  ovV     : Int
  ovF     : Nat
  deriving DecidableEq, Repr

def Sector.reset : Sector :=
  { clear := 0, samples := [], warn := false, cutAt := none, hot := false, bandAt := none, alarmAt := none, regOff := true, gate := 16,
    ftgt := 64, guard := 0, down := 0, ovV := 0, ovF := 0 }

/-- A shadow plan (R481, R482): the entries not yet applied, by sector, and a VFEED change not yet applied. -/
structure Plan where
  todo  : Tab PlanEntry
  vfeed : Option Int
  deriving DecidableEq, Repr

/-- A calibration command that runs (R486): STORE with its overlay, APPLY, CLEAR. -/
inductive CalBusy where
  | store (overlay : List Byte)
  | apply
  | clear
  deriving DecidableEq, Repr
/-! ## Die links (chapter 17) -/

/-- One direction of a native link module: as receiver, the sequence of the next group; as sender, the last group acknowledged, the groups
sent and not accepted, and those moved here from a module that has stopped, by their flows, oldest first (R513); the replays within the last
millisecond (R510, R516). -/
structure NdlDir where
  next    : Nat
  acked   : Nat
  unacked : List (List NdlFlow)
  moved   : List (List NdlFlow)
  replays : List Time
  deriving DecidableEq, Repr

/-- A native link module: its directions, when it retrained within the last second and recovered by itself within the last 60 s (R517). -/
structure NdlModule where
  dir0     : NdlDir
  dir1     : NdlDir
  retrains : List Time
  autos    : List Time
  deriving DecidableEq, Repr

def NdlModule.reset : NdlModule :=
  { dir0 := ⟨0, 0, [], [], []⟩, dir1 := ⟨0, 0, [], [], []⟩, retrains := [], autos := [] }
/-! ## Reset and start-up (chapter 18) -/

/-- Why the part is in reset. -/
inductive ResetCause where
  | board | pwrok | internal | refclk
  deriving DecidableEq, Repr
/-- What the block sends. The list of them is the model's own field. -/
inductive Output where
  /-- A register access completes with this status and value (R10, R33, R36, R37). -/
  | access (path : Path) (addr : W32) (status : Status) (value : W32)
  /-- An EVENT copy for a session's mailbox, for the admin mailbox (none), and one that the I3C queue took (R504). -/
  | event (sess : Option Nat) (r : TelRecord)
  /-- The answer to a 64-byte access at a pseudo-channel (R281): status and, for a read, the data. -/
  | line (pa : Nat) (status : Status) (data : List Byte)
  /-- The answer of a near-memory atomic unit (R282): status and the old value. -/
  | atomic (pa : Nat) (status : Status) (old : W64)
  /-- A COMPLETE message (Table 13.6). -/
  | complete (sess : Nat) (list : Nat) (rec_ : Nat) (status : Status)
  /-- Park markers on every lane of an engine (R324). -/
  | park (engine : Nat)
  /-- A flit on a link (Table 10.9). -/
  | flit (link : LinkId) (f : Flit)
  /-- A hello on a transmit lane (R331). -/
  | hello (engine lane : Nat) (h : Hello)
  /-- A drain marker on a link (R348). -/
  | marker (link : LinkId) (typ stage epoch : Nat)
  /-- A refusal of a packet at injection (R336, R344). -/
  | injectRefused (part : Nat) (status : Status)
  /-- An operation that a gateway carries to another domain's gateway over a queue pair: RDMA READ or WRITE (R389). -/
  | gatewayOp (qp rnode : Nat) (write : Bool) (offset : Nat) (data : List Byte) (len : Nat)
  /-- The answer to an operation that another domain's gateway delivered over a queue pair (R389). -/
  | gatewayAnswer (qp : Nat) (status : Status) (data : List Byte)
  /-- A reply on a queue pair (R427). -/
  | reply (qp : Nat) (r : Reply)
  /-- The end of an RDMA access of a host (R430, R435). -/
  | rdma (qp : Nat) (r : RdmaResult)
  /-- A queue pair goes to the error state with a remote invalid-request error (R417). -/
  | invalidRequest (qp : Nat)
  /-- A congestion notification packet (R418). -/
  | cnp (qp : Nat)
  /-- A connection request accepted as a queue pair, or rejected (R419). -/
  | connection (port : Nat) (qp : Option Nat)
  /-- An answer to ARP, neighbour discovery or echo, with the port's own addresses; a reset of a TCP segment (R416). -/
  | frameAnswer (port : Nat) (mac : BitVec 48) (addr : HostAddr)
  | tcpReset (port : Nat)
  /-- Gateway queue pairs that GWCONN asks the remote gateway for (R431). -/
  | gatewayConnect (rdom addr port : Nat) (qps : List Nat)
  /-- An SPDM response; a signed one carries the RSA and the SLH-DSA signature over the same bytes (R458). -/
  | spdm (src : SpdmFrom) (body : SpdmBody) (sigs : Option (BitVec 3072 × List Byte))
  /-- A TCP connection attempt to the SPDM port answered: accepted as connection `conn`, or reset (R457). -/
  | tcp (port : Nat) (conn : Option Nat)
  /-- A receiver of a die link asks for a group again (R510). -/
  | ndlReplay (module dir seq : Nat)
  /-- The answer to an access of the open-site die (R521). -/
  | die (status : Status) (data : List Byte)
  /-- The engine core rewrites the HOURS record of its LSM, lit hours since the lasers were lit (R538). -/
  | lsmHours (engine hours : Nat)
  deriving DecidableEq, Repr

/-- The whole block. -/
structure State where
  /-- Part time (R40), ns. -/
  time    : Nat
  /-- The model's own: numbers the free values taken. -/
  free    : Nat
  /-- The model's own: what the block has sent, oldest first. -/
  out     : List Output
  /-- Control-space registers that no other field holds, by address; an absent one holds its reset value. -/
  ctl     : Tab W32
  /-- R13 registers of the access paths: sessions 0 to 31, admin 32, status windows 33 + n, I3C 65, managers 66 + node. -/
  paths   : Tab PathRegs
  benches : Tab Bench
  parts   : Tab Partition
  /-- Frames that are not free, by PA[41:21]. -/
  frames  : Tab FrameState
  /-- Frames that wait for scrubbing, by hub, in the order they were freed (R228). -/
  scrubQ  : Tab (List Nat)
  /-- Non-leaf entries held by each hub's walk cache, newest first (R239): partition × 2^18 + VA[47:30]. -/
  walks   : Tab (List Nat)
  progs   : Tab Prog
  nextProg : Nat
  reports : List FaultReport
  /-- Device memory by physical address; an absent byte is 0 (R228). -/
  mem     : Tab Byte
  /-- Poisoned lines, physical address ÷ 64, rising (R269). -/
  poison  : List Nat
  /-- Lines whose stored codeword shows errors: the symbols that differ from the codeword of the line's bytes (R267 to R269). -/
  flaws   : Tab (List (Nat × BitVec 16))
  /-- Page tables by their place in the reserve, physical address ÷ 4,096 (R237); the groups whose reserve frames are withdrawn (R274). -/
  tables  : Tab TablePage
  reserveOut : List Nat
  /-- Per pseudo-channel: the second of its corrected count and the count; when it recorded uncorrectable errors within the last hour. -/
  pcErrs  : Tab (Nat × Nat × List Time)
  /-- Rows that showed corrected errors, with the passes they did (R272). -/
  rowErrs : Tab (List Nat)
  /-- Spare rows used, by pseudo-channel + 768 × bank (R272); the lines of each stack that the scrub pass has read (R271). -/
  sparesUsed : Tab Nat
  scrubbed : Tab (List Nat)
  /-- The Error of R277 has been raised in this spell. -/
  quotaErr : Bool
  /-- Fence states by unit identifier; an absent unit is Up (R490). -/
  units   : Tab UnitFence
  /-- The event queue, oldest first, and the I3C event queue (R504). -/
  telQ    : List QueuedRecord
  i3cQ    : List TelRecord
  /-- The census that runs, and how many have run since reset (R499). -/
  census  : Option Census
  censuses : Nat
  /-- Remote operations of one request, transactions by tag, request packets that wait to be sent, the sequences of each home. -/
  rops    : Tab RemoteOp
  nextRop : Nat
  txns    : Tab Txn
  sendQ   : List Txn
  pairs   : Tab PairSeq
  /-- As a home: sources by node, accepted requests in order of acceptance (source, SEQ), ownership by partition and region. -/
  sources : Tab Source
  accepted : List (Nat × Nat)
  owners  : Tab (Tab Owner)
  /-- Split requests to device memory, by number. -/
  reqs    : Tab Req
  nextReq : Nat
  /-- Optical engines. -/
  engines : Tab Engine
  /-- Queue pairs by number, and the next number. -/
  qps     : Tab QueuePair
  nextQp  : Nat
  /-- Fabric: the active set, the old set while draining, the shadow set; the active epoch, whether a swap has happened, since when
  the part drains, whether the warning of R350 is out, the markers sent (6 × TYPE + stage). -/
  fabActive : TableSet
  fabOld    : Option TableSet
  fabShadow : TableSet
  epoch     : Nat
  swapped   : Bool
  drainAt   : Time
  drainWarned : Bool
  sentMarks : List Nat
  links     : Tab Link
  /-- The path of ORD packets by destination: epoch, group port and global lane of the exit (R343). -/
  ordPaths  : Tab (Nat × Nat × Nat)
  /-- Packets delivered to the network interface that no engine has taken, with their time and partition; the Steward's queue (R341,
  R346). -/
  arrived   : List Arrived
  stewardQ  : List (Packet × Option Origin)
  /-- The node first recorded for each receive lane, 64 × engine + lane (R331); the wiring map of R332; discovery done, fabric-ready
  since (R333). -/
  helloFrom : Tab Nat
  fabMap    : Option (Tab Nat)
  discovered : Bool
  fabReady  : Option Time
  /-- The weather period's end and number, and the drop and replay counts at its start (R356). -/
  wxAt      : Time
  wxPeriod  : Nat
  wxDrops   : Nat
  wxReplays : Nat
  /-- Drops by fabric engine: packets dropped, notices discarded (Table 16.3, kind 8). -/
  drops     : Tab (Nat × Nat)
  /-- Drop notices that were put in a link's queue, with the engine of their drop; those sent are forgotten when another is put there. -/
  notices   : List (Packet × Nat)
  /-- Collectives not complete, by number; what the part keeps of each group, by partition × 65,536 + group. -/
  colls   : Tab Coll
  nextColl : Nat
  groups  : Tab CollGroup
  /-- Mailboxes: 0 to 31 of the sessions, 32 of the admin host, 64 + n of the new queue pair n. -/
  mailboxes : Tab Mailbox
  sessions : Tab Session
  /-- The admin mailbox's EVSUB severity. -/
  adminEvsub : Option Nat
  /-- Flash and OTP, which survive a reset (R543). -/
  flash    : Flash
  otp      : Otp
  /-- The measurement registers. -/
  mrs      : Tab (BitVec 384)
  /-- BOOT_SEL as sampled is in GEN_STRAP. Whether the boot core has left reset and when, the bank it boots (true B), images verified and
  processors released, recovery, identity keys ready. -/
  bootAt   : Option Time
  bootB    : Bool
  verified : Bool
  recovery : Bool
  keysReady : Bool
  /-- The vendor image in use by ID (for processors moved by live activation the new image); the bodies of the BOOTCFG and FABMAP in use,
  and their header digests. -/
  images   : Tab Image
  bootCfg  : Option (List Byte)
  cfgDigest : Option (BitVec 384)
  mapDigest : Option (BitVec 384)
  /-- Restarts of each processor (R440), and the Steward core that carries the duties of each Steward core. -/
  restarts : Tab (List Time)
  duties   : Tab Nat
  /-- When the carrier of the duties of Steward core 0 stopped, while every lease pauses (R423). -/
  stewardGone : Option Time
  update   : Option Update
  deferred : Option Deferred
  /-- Signed SPDM requests, the one being signed first; SPDM TCP connections, and their next number. -/
  signQ    : List SignReq
  conns    : List Nat
  nextConn : Nat
  /-- An owner slot was enrolled when the boot core left reset (R445); Wardens that have been fenced since reset (Table 14.2). -/
  owned    : Bool
  noRestart : List Nat
  /-- Sectors; package power samples (mW, newest first, at most 10); whether the package mean is over the TDP (R472) and the VFEED current
  over IMAX; the last readings of VHBMC, VHBMQ, VHBMP and VAUX (mW); whether the converters of Table 18.4 answered; the last cut anywhere;
  when an emergency of Table 14.7 last ended. -/
  sectors  : Tab Sector
  pkg      : List Nat
  pkgOver  : Bool
  feedOver : Bool
  rails    : List Nat
  convs    : List Bool
  cutAt    : Option Time
  emergAt  : Option Time
  /-- The shadow plan, when the last plan was computed, a plan asked for, the work clocks started; the plan's VFEED choice; the
  minimum refresh rates in force, and those of the plan alone; the refresh band of each stack's temperature. -/
  shadow   : Option Plan
  planAt   : Option Time
  planNow  : Bool
  clocksOn : Bool
  planFeed : Int
  minRefresh : Tab Nat
  planRefresh : Tab Nat
  refBand  : Tab Nat
  /-- The overlay in force, and the calibration command that runs. -/
  overlay  : Option (List Byte)
  calBusy  : Option CalBusy
  /-- Native link modules; the pages in the 256-entry TLB of the UCIe adapter, newest first; the adapter is off (R520); since when a
  UCIe module is down. -/
  ndl      : Tab NdlModule
  uciTlb   : List Nat
  uciOff   : Bool
  uciDown  : Tab Time
  /-- Since when a DBG test runs (R523). -/
  loopAt   : Time
  /-- Why the part is in reset, when it is, and since when; REFCLK missing since; a thermal trip latched (R478); PLLs locked, sector
  regulators in regulation, identity memories read, host ports trained; lanes taken as absent, as engine × 64 + lane. -/
  inReset  : Option ResetCause
  resetAt  : Time
  refLost  : Option Time
  tripped  : Bool
  pllLock  : Bool
  regsUp   : Bool
  idsRead  : Bool
  hostsUp  : Bool
  absent   : List Nat
  /-- SYS_RST_N is low (R542). -/
  rstLow   : Bool
  /-- Commands that wait, the next one first. -/
  pending : List Instr
  deriving DecidableEq, Repr

/-- The machine right after reset: every register at the reset value of its table, every store empty. -/
def State.reset : State :=
  { time := 0, free := 0, out := [], ctl := [], paths := [], benches := [], parts := [], frames := [], scrubQ := [],
    walks := [], progs := [], nextProg := 0, reports := [], mem := [], poison := [], flaws := [], tables := [], reserveOut := [],
    pcErrs := [], rowErrs := [], sparesUsed := [], scrubbed := [],
    quotaErr := false, units := [], telQ := [], i3cQ := [], census := none, censuses := 0,
    reqs := [], nextReq := 0,
    rops := [], nextRop := 0, txns := [], sendQ := [], pairs := [], sources := [], accepted := [], owners := [],
    engines := [], qps := [], nextQp := 0,
    fabActive := ⟨[], [], none⟩, fabOld := none, fabShadow := ⟨[], [], none⟩, epoch := 0, swapped := false, drainAt := 0,
    drainWarned := false, sentMarks := [], links := [], ordPaths := [], arrived := [], stewardQ := [], helloFrom := [],
    fabMap := none, discovered := false, fabReady := none, wxAt := 0, wxPeriod := 0, wxDrops := 0, wxReplays := 0, drops := [], notices := [],
    colls := [], nextColl := 0, groups := [],
    mailboxes := [], sessions := [], adminEvsub := none,
    flash := { rec0 := none, rec1 := none, chain0 := [], chain1 := [], cfg0 := ⟨.erased, []⟩, cfg1 := ⟨.erased, []⟩,
               map0 := ⟨.erased, []⟩, map1 := ⟨.erased, []⟩, cal0 := none, cal1 := none, bankA := ⟨.erased, []⟩,
               bankB := ⟨.erased, []⟩, hours := 0 },
    otp := { vendor := [0, 1, 2, 3].map (fun n => ⟨some (Config.vendorKey n), false⟩),
             owner := [0, 1, 2, 3].map (fun _ => ⟨none, false⟩), counter := 0 },
    mrs := [], bootAt := none, bootB := false, verified := false, recovery := false, keysReady := false, images := [], bootCfg := none,
    cfgDigest := none, mapDigest := none, restarts := [], duties := [], stewardGone := none, update := none, deferred := none, signQ := [], conns := [],
    nextConn := 0, owned := false, noRestart := [],
    sectors := [], pkg := [], pkgOver := false, feedOver := false, rails := [], convs := [], cutAt := none, emergAt := none,
    shadow := none, planAt := none, planNow := false, clocksOn := false, planFeed := 0, minRefresh := [], planRefresh := [], refBand := [],
    overlay := none, calBusy := none,
    ndl := [], uciTlb := [], uciOff := false, uciDown := [], loopAt := 0,
    inReset := none, resetAt := 0, refLost := none, tripped := false, pllLock := false, regsUp := false, idsRead := false, hostsUp := false,
    absent := [], rstLow := false,
    pending := [] }

end Sys2Proof.Machine
end

