-- ==== Sys2Proof/Machine/Ops.lean ====
section
/-! DEFINITION. Named operations over the state that every family uses: part time, outputs, free values, registers,
benches and partitions, events (R502 to R505) and fault reports (R113). -/

namespace Sys2Proof.Machine

/-! ## Time, outputs, free values -/

/-- Part time moves on to the time at which a command comes; it never steps backwards (R40). -/
def atTime (t : Time) (s : State) : State := { s with time := Nat.max s.time t }

/-- The block sends `o`. -/
def emit (o : Output) (s : State) : State := { s with out := s.out ++ [o] }

/-- The number of the next free value, and the state that has taken it. -/
def takeFree (s : State) : Nat × State := (s.free, { s with free := s.free + 1 })

/-! ## Registers -/

/-- The address of instance (i, j) of a register. -/
def regAddr (r : Reg) (i j : Nat) : Nat :=
  let w := regRow r
  w.base + i * w.s1 + j * w.s2

/-- The reset value of a register, from the Reset column of its table. -/
def regReset (r : Reg) : Nat := (regRow r).fields.foldl (fun a f => a + f.reset * 2 ^ f.lo) 0

/-- The stored value of a register. -/
def raw (s : State) (r : Reg) (i j : Nat) : Nat :=
  (tget s.ctl (regAddr r i j) (BitVec.ofNat 32 (regReset r))).toNat

/-- The register with a new stored value. -/
def setRaw (r : Reg) (i j v : Nat) (s : State) : State :=
  { s with ctl := tset s.ctl (regAddr r i j) (BitVec.ofNat 32 v) }

/-- Bits `[h:l]` of a stored register. -/
def fld (s : State) (r : Reg) (i j h l : Nat) : Nat := bits (raw s r i j) h l

/-- Bit `n` of a stored register. -/
def flag (s : State) (r : Reg) (i j n : Nat) : Bool := bit (raw s r i j) n

/-- Bits `[h:l]` of a stored register set to `v`. -/
def setFld (r : Reg) (i j h l v : Nat) (s : State) : State :=
  setRaw r i j (setBits (raw s r i j) h l v) s

/-- Bits `[h:l]` of a stored register raised by `n`, saturating. -/
def bumpFld (r : Reg) (i j h l n : Nat) (s : State) : State :=
  setFld r i j h l (satTo (2 ^ (h + 1 - l) - 1) (fld s r i j h l + n)) s

/-- A 32-bit counter register raised by `n`, saturating. -/
def bump (r : Reg) (i j n : Nat) (s : State) : State := bumpFld r i j 31 0 n s

/-- The 64-bit quantity in a LO and a HI register. -/
def raw64 (s : State) (lo hi : Reg) (i j : Nat) : Nat := raw s lo i j + 2 ^ 32 * raw s hi i j

/-- The 64-bit quantity in a LO and a HI register set, modulo 2^64. -/
def setRaw64 (lo hi : Reg) (i j v : Nat) (s : State) : State :=
  setRaw hi i j (v / 2 ^ 32 % 2 ^ 32) (setRaw lo i j (v % 2 ^ 32) s)

/-! ## Benches, partitions, programs -/

def bench (s : State) (b : Nat) : Bench := tget s.benches b Bench.reset
def setBench (b : Nat) (x : Bench) (s : State) : State := { s with benches := tset s.benches b x }
def modBench (b : Nat) (f : Bench → Bench) (s : State) : State := setBench b (f (bench s b)) s
def partition (s : State) (p : Nat) : Partition := tget s.parts p Partition.reset
def setPartition (p : Nat) (x : Partition) (s : State) : State := { s with parts := tset s.parts p x }
def modPartition (p : Nat) (f : Partition → Partition) (s : State) : State := setPartition p (f (partition s p)) s
def setProg (n : Nat) (x : Prog) (s : State) : State := { s with progs := tset s.progs n x }

/-- Program `n` changed by `f`, if there is one. -/
def modProg (n : Nat) (f : Prog → Prog) (s : State) : State :=
  match tget? s.progs n with
  | some x => setProg n (f x) s
  | none => s

/-- The partition of the program on a bench. -/
def benchPart (s : State) (b : Nat) : Nat :=
  match (bench s b).prog with
  | none => 0
  | some n => match tget? s.progs n with | some x => x.part | none => 0

/-- Home and far sector index within the die, Table 1.4, by bench index within the die. -/
def homeIdx : Nat → Nat
  | 0 => 0 | 1 => 1 | 2 => 2 | 3 => 5 | 4 => 3 | 5 => 4 | 6 => 5 | _ => 2
def farIdx : Nat → Nat
  | 0 => 3 | 1 => 0 | 2 => 1 | 3 => 2 | 4 => 0 | 5 => 3 | 6 => 4 | _ => 5

/-- The sectors of a bench, numbered over the part (compute sectors 0 to 23, six to a die). -/
def homeSector (b : Nat) : Nat := b / 8 * 6 + homeIdx (b % 8)
def farSector (b : Nat) : Nat := b / 8 * 6 + farIdx (b % 8)

/-- Whether a station ordinal lies in the far half (Table 1.5). -/
def farOrdinal (k : Nat) : Bool := k == 2 || k == 3 || k == 5 || k == 7 || k == 9 || k == 11

/-- The sector of a station (R19). -/
def stationSector (b k : Nat) : Nat := bif farOrdinal k then farSector b else homeSector b

/-- The benches with a station or a sequencer in a compute sector (R27). -/
def sectorBenches (sec : Nat) : List Nat :=
  (List.range 32).filter fun b => homeSector b == sec || farSector b == sec

/-! ## Events -/

/-- Shared, Error and Fatal slots of the event queue in use. -/
def slotsUsed (s : State) (c : Nat) : Nat := (s.telQ.filter (fun q => q.slot == c)).length

/-- The record of an event that happens now. -/
def newRecord (s : State) (code : BitVec 16) (sev : Nat) (part : Option Nat) (unit : Nat) (data : W64) : TelRecord :=
  { time := s.time, code := code, sev := sev, cond := false, part := part, unit := unit, count := 1, last := 0,
    data := data }

/-- A record put at the end of the event queue in a slot of class `c`. -/
def enqueue (r : TelRecord) (c : Nat) (s : State) : State := { s with telQ := s.telQ ++ [⟨r, c⟩] }

/-- Whether a queued record has the CODE, UNIT, PART and severity of `r` (R505). -/
def sameEvent (r : TelRecord) (q : QueuedRecord) : Bool :=
  q.rec_.code == r.code && q.rec_.unit == r.unit && q.rec_.part == r.part && q.rec_.sev == r.sev

/-- A record with one more event folded into it at time `now` (R505). -/
def fold (now : Nat) (q : QueuedRecord) : QueuedRecord :=
  { q with rec_ := { q.rec_ with cond := true, count := satTo 0xFFFFFFFF (q.rec_.count + 1),
                                 last := satTo 0xFFFFFFFF ((now - q.rec_.time) / 1000) } }

/-- A shared slot for `r`, or else the loss counted in `lost`. -/
def takeShared (r : TelRecord) (lost : Reg) (s : State) : State :=
  bif Nat.blt (slotsUsed s 0) 2816 then enqueue r 0 s else bump lost 0 0 1 s

/-- Info and Warning from their threshold on: fold into the oldest match, else take a shared slot. -/
def foldOr (r : TelRecord) (lost : Reg) (s : State) : State :=
  bif s.telQ.any (sameEvent r) then
    bump .telCond 0 0 1 { s with telQ := modFirst (sameEvent r) (fold s.time) s.telQ }
  else takeShared r lost s

/-- ERR_FATAL holds the first Fatal event since reset. -/
def holdFatal (r : TelRecord) (s : State) : State :=
  bif flag s .errFatal 0 0 31 then s
  else setRaw64 .errFattimeLo .errFattimeHi 0 0 r.time
    (setRaw .errFatunit 0 0 r.unit (setRaw .errFatal 0 0 (2 ^ 31 + r.code.toNat) s))

/-- An event enters the queue, folds, is dropped or overflows, by its severity: 0 Fatal, 1 Error, 2 Warning, 3 Info,
4 Trace (R505). -/
def raise (code : BitVec 16) (sev : Nat) (part : Option Nat) (unit : Nat) (data : W64) (s : State) : State :=
  let r := newRecord s code sev part unit data
  let u := slotsUsed s 0
  match sev with
  | 0 =>
    let s := holdFatal r s
    bif Nat.blt u 2816 then enqueue r 0 s
    else bif Nat.blt (slotsUsed s 1) 1024 then enqueue r 1 s
    else bif Nat.blt (slotsUsed s 2) 256 then enqueue r 2 s
    else bump .telOvff 0 0 1 s
  | 1 =>
    bif Nat.blt u 2816 then enqueue r 0 s
    else bif Nat.blt (slotsUsed s 1) 1024 then enqueue r 1 s
    else bump .telOvfe 0 0 1 s
  | 2 => bif Nat.ble 2112 u then foldOr r .telLostw s else enqueue r 0 s
  | 3 => bif Nat.ble 1408 u then foldOr r .telLosti s else enqueue r 0 s
  | _ =>
    bif flag s .telCtl 0 0 0 then
      bif Nat.ble 1408 u then bump .telDropt 0 0 1 s else enqueue r 0 s
    else s

/-! ## Statuses -/

/-- The first failure among a list of statuses. -/
def firstStatus : List Status → Status
  | [] => 0
  | s :: l => bif s == 0 then firstStatus l else s

/-- A status that applies under a condition. -/
def failIf (c : Bool) (st : Status) : Status := bif c then st else 0

/-! ## Fault reports -/

/-- The list of halted units with `ord` in it. -/
def insertHalt (ord : Nat) (l : List Nat) : List Nat := bif l.contains ord then l else ord :: l

/-- A unit of bench `b` detects a fault and stops starting instructions: the report leaves for the arbiter, SEQ_FAULT and SEQ_FOFF take the bench's
first fault and SEQ_FCOUNT counts later ones (R113, Table 3.13). Ordinals: 0 to 12 stations, 13 the system queue, 15 the
sequencer. -/
def reportFault (b ord off : Nat) (st : Status) (s : State) : State :=
  let x := bench s b
  match x.prog with
  | none => s
  | some n =>
    let x' := bif x.fvalid then { x with fcount := satTo 0xFFFFFFFF (x.fcount + 1) }
              else { x with fvalid := true, ford := ord, fstatus := st, foff := off }
    { setBench b { x' with halted := insertHalt ord x'.halted } s with reports := s.reports ++ [⟨n, b, x.role, ord, off, st⟩] }

/-- An emergency of Table 14.7 ends now (R456). -/
def emergEnds (s : State) : State := { s with emergAt := some s.time }

/-! ## Fence states -/

/-- A unit identifier (R489). -/
def unitId (kind index : Nat) : Nat := kind * 2 ^ 24 + index

/-- The fence state of a unit. -/
def unitState (s : State) (kind index : Nat) : FenceState :=
  match tget? s.units (unitId kind index) with
  | some u => u.state
  | none => .up

def isUp (s : State) (kind index : Nat) : Bool := unitState s kind index == .up

/-- The unit takes a fence state now, with a cause. -/
def setUnit (kind index : Nat) (st : FenceState) (cause : Status) (s : State) : State :=
  match st with
  | .up => { s with units := terase s.units (unitId kind index) }
  | _ => { s with units := tset s.units (unitId kind index) ⟨st, s.time, cause⟩ }

end Sys2Proof.Machine
end

