-- ==== Sys2Proof/Machine/DieFlows.lean ====
section
/-! DEFINITION. Which module of a die link carries a flow, and the groups that move when a module stops (R511, R513). -/

namespace Sys2Proof.Machine

/-! ## Links -/

/-- The modules of a die link, by link: L0 to L7, then the links of E0 to E11 (Table 17.1). -/
def linkModules (l : Nat) : List Nat :=
  bif Nat.blt l 4 then (List.range 16).map (16 * l + ·)
  else bif Nat.blt l 8 then (List.range 24).map (64 + 24 * (l - 4) + ·)
  else (List.range 14).map (160 + 14 * (l - 8) + ·)
/-- The link of a module. -/
def moduleLink (m : Nat) : Nat :=
  bif Nat.blt m 64 then m / 16 else bif Nat.blt m 160 then 4 + (m - 64) / 24 else 8 + (m - 160) / 14

def ndlModule (s : State) (m : Nat) : NdlModule := tget s.ndl m NdlModule.reset
def modNdl (m : Nat) (f : NdlModule → NdlModule) (s : State) : State := { s with ndl := tset s.ndl m (f (ndlModule s m)) }
def ndlDir (x : NdlModule) (d : Nat) : NdlDir := bif d == 0 then x.dir0 else x.dir1
def modDir (m d : Nat) (f : NdlDir → NdlDir) (s : State) : State :=
  modNdl m (fun x => bif d == 0 then { x with dir0 := f x.dir0 } else { x with dir1 := f x.dir1 }) s

/-- STATE of NDL_STAT as it is kept; a fence shows over it (Table 17.5). -/
def ndlState (s : State) (m : Nat) : Nat := fld s .ndlStat m 0 31 29
def setNdlState (m st : Nat) (s : State) : State := setFld .ndlStat m 0 31 29 st s
/-- Whether a module carries traffic. -/
def ndlUp (s : State) (m : Nat) : Bool := isUp s 4 m && ndlState s m == 2

/-! ## The module of a flow (R513) -/

/-- The modules of a link that carry the traffic of a role: those of the role that are up, else the general ones, else any that is up. -/
def roleModules (s : State) (l role : Nat) : List Nat :=
  let up := (linkModules l).filter (ndlUp s)
  let of := fun (r : Nat) => up.filter fun m => fld s .ndlStat m 0 28 27 == r
  bif !(of role).isEmpty then of role else bif !(of 0).isEmpty then of 0 else up

/-- The module that serves a flow of a link, by a hash of source, destination and virtual channel; none while no module is up. -/
def flowModule (s : State) (l : Nat) (f : NdlFlow) : Option Nat :=
  let ms := roleModules s l f.role.val
  ms[Config.dieHash f.src f.dst f.vc % ms.length]?

/-- Groups of a direction of a module that the receiver has not accepted: those moved to it go first. -/
def ndlWaiting (s : State) (m d : Nat) : List (List NdlFlow) := (ndlDir (ndlModule s m) d).moved ++ (ndlDir (ndlModule s m) d).unacked

/-- Whether two groups share a flow. -/
def flowsMeet (a b : List NdlFlow) : Bool := a.any fun f => b.contains f

/-- The parts of a group by the module that now serves their flows, when each has one. -/
def splitGroup (s : State) (l : Nat) (g : List NdlFlow) : List (Nat × List NdlFlow) :=
  let ms := (g.filterMap (flowModule s l)).eraseDups
  ms.map fun m => (m, g.filter fun f => flowModule s l f == some m)

/-- A group moves to the modules that now serve its flows. -/
def moveGroup (l d : Nat) (s : State) (g : List NdlFlow) : State :=
  (splitGroup s l g).foldl (fun s c => modDir c.1 d (fun x => { x with moved := x.moved ++ [c.2] }) s) s

/-- The groups that a stopped module's direction has not had accepted are sent again elsewhere, in order. -/
def moveDir (l m d : Nat) (s : State) : State :=
  (ndlWaiting s m d).foldl (moveGroup l d) (modDir m d (fun x => { x with unacked := [], moved := [] }) s)

/-- The groups of every module of a link that carries no traffic move, once a module of it is up. -/
def moveStopped (l : Nat) (s : State) : State :=
  bif (linkModules l).any (ndlUp s) then
    ((linkModules l).filter fun m => !(ndlUp s m)).foldl (fun s m => moveDir l m 1 (moveDir l m 0 s)) s
  else s

/-- Whether a group may be the next that a direction of a module accepts: the module serves its flows, or it was sent there before they moved;
and no earlier group of theirs waits, here among those moved or on another module of the link (R513). -/
def groupFits (s : State) (m d : Nat) (g : List NdlFlow) : Bool :=
  let l := moduleLink m
  let x := ndlDir (ndlModule s m) d
  let here := (x.moved.find? (flowsMeet g)).all (· == g)
  let there := (linkModules l).any fun k => !(k == m) && (ndlWaiting s k d).any (flowsMeet g)
  x.unacked.contains g || (here && !there && g.all fun f => flowModule s l f == some m)

/-- The first of a list that equals a group leaves it. -/
def dropGroup (g : List NdlFlow) (l : List (List NdlFlow)) : List (List NdlFlow) := l.erase g

end Sys2Proof.Machine
end

