-- ==== Sys2Proof/Machine/LaneState.lean ====
section
/-! DEFINITION. Lanes of the optical engines: their registers, their states and their roles (Table 9.1, Table 9.10, R292, R294,
R297, R300). -/

namespace Sys2Proof.Machine

def engine (s : State) (e : Nat) : Engine := tget s.engines e Engine.reset
def modEngine (e : Nat) (f : Engine → Engine) (s : State) : State := { s with engines := tset s.engines e (f (engine s e)) }

/-- The role of an engine: 0 local, 1 global, 2 memory, 3 host (Table 9.1, R292). -/
def engineRole (s : State) (e : Nat) : Nat :=
  bif Nat.ble 10 e then 3 else bif Nat.ble 8 e then 2 else fld s .optStat e 0 31 28
def isHostEngine (e : Nat) : Bool := Nat.ble 10 e

/-- Whether firmware processor `i` runs. -/
def coreRuns (s : State) (i : Nat) : Bool := isUp s 10 i && fld s .fwpStat i 0 31 30 == 0
/-- Whether the Steward core that carries the duties of Steward core `i` (1 to 4 for cores 0 to 3) runs (Table 14.2). -/
def dutyRuns (s : State) (i : Nat) : Bool := coreRuns s (tget s.duties i i)
/-- Whether the engine core of engine `e` runs (Table 14.1). -/
def engineCore (s : State) (e : Nat) : Bool := coreRuns s (11 + e)

/-! ## Lanes (Table 9.10) -/

/-- How many lanes an engine has in each direction: 64, or 8 on a host engine (R328). -/
def engineLanes (e : Nat) : Nat := bif Nat.ble 10 e then 8 else 64

/-- The register of a lane's state: direction 0 transmit, 1 receive. -/
def laneReg (d : Nat) : Reg := bif d == 0 then .optTxl else .optRxl
def laneState (s : State) (e d l : Nat) : Nat := fld s (laneReg d) e l 3 0
def laneAux (s : State) (e d l : Nat) : LaneAux := tget (engine s e).lanes (64 * d + l) LaneAux.reset
def modLane (e d l : Nat) (f : LaneAux → LaneAux) (s : State) : State :=
  modEngine e (fun x => { x with lanes := tset x.lanes (64 * d + l) (f (tget x.lanes (64 * d + l) LaneAux.reset)) }) s

/-- A host port loses its link: HST_PSTAT.UP clears and its queue pairs fail (R318, R420). -/
def hostPortFail (port : Nat) (s : State) : State :=
  setFld .hstPstat port 0 31 31 0 { s with qps := s.qps.map fun q => bif q.2.port == port then (q.1, { q.2 with failed := true }) else q }
/-- The port of a host lane (Table 13.1). -/
def lanePort (e l : Nat) : Nat := (e - 10) * 2 + l / 4

/-- Whether a peer's priority flow control holds back what a host port sends on its RoCE priority (R418). -/
def portPaused (s : State) (port : Nat) : Bool :=
  flag s .hstCtl port 0 31 && Nat.blt s.time (tget (engine s (10 + port / 2)).paused port 0)
/-- Whether a queue pair's port is held back. -/
def qpPaused (s : State) (qp : Nat) : Bool := match tget? s.qps qp with | some q => portPaused s q.port | none => false

/-- A lane state in which the lane is up, or held for a swap or a calibration (Table 9.10). -/
def laneHolds (st : Nat) : Bool := st == 2 || st == 3 || st == 4

/-- A lane takes a state: since when it is not up, and since when it is down, follow (R288, R354). A host port cannot lose one lane and keep
running (R318). -/
def setLane (e d l st : Nat) (s : State) : State :=
  let old := laneState s e d l
  let s := modLane e d l (fun a => { a with notUp := bif old == 2 && !(st == 2) then s.time else a.notUp
                                            off := bif laneHolds old && !(laneHolds st) then s.time else a.off })
    (setFld (laneReg d) e l 3 0 st s)
  bif isHostEngine e && laneHolds old && !(laneHolds st) && flag s .hstPstat (lanePort e l) 0 31 then hostPortFail (lanePort e l) s else s

/-- The unit index of a lane (Table 16.1). -/
def laneUnit (e d l : Nat) : Nat := e * 128 + d * 64 + l

/-- Whether every fabric lane stays down: no BOOTCFG in use, or WIRING_MODE 1 with no FABMAP in use (R445, R463, R332). -/
def fabricBarred (s : State) : Bool := s.bootCfg.isNone || (flag s .genStrap 0 0 13 && s.fabMap.isNone)

/-- λ00 of a local or global fibre carries the calibration pattern and no flits (R300). -/
def monitorLane (s : State) (e l : Nat) : Bool := Nat.ble (engineRole s e) 1 && l % 16 == 0

/-- The state of a lane in service: up, or monitor for λ00. -/
def serviceState (s : State) (e l : Nat) : Nat := bif monitorLane s e l then 7 else 2

/-- A lane in service, quiesced, calibrating or in training. -/
def laneLive (st : Nat) : Bool := st == 1 || st == 2 || st == 3 || st == 4 || st == 7

/-- Whether the lanes of an engine must stay down: a fabric engine where R332 or R445 bars it. -/
def laneBarred (s : State) (e : Nat) : Bool := Nat.ble (engineRole s e) 1 && fabricBarred s

/-- The transmit lane toward the peer that a receive lane hears (R297, R308). -/
def pairedLane (s : State) (e l : Nat) : Nat :=
  bif Nat.ble (engineRole s e) 1 then l / 16 * 16 + (16 - l % 16) % 16 else l

/-- The lane numbers of module `m` on a memory engine: four wavelengths on each of four fibres (R285), numbered fibre × 16 +
wavelength. -/
def moduleLanes (m : Nat) : List Nat := (List.range 16).map fun k => k / 4 * 16 + 4 * m + k % 4

end Sys2Proof.Machine
end

