-- ==== Sys2Proof/Machine/Codeword.lean ====
section
/-! DEFINITION. The Reed–Solomon code of a 64-byte access (R267, R268): what the decoder makes of an error pattern. -/

namespace Sys2Proof.Machine

def rsMul (a b : Nat) : Nat := gfMul 16 0x1100B 16 a b
def rsPow (a e : Nat) : Nat := gfPow rsMul 16 a e
/-- The inverse of a non-zero element. -/
def rsInv (a : Nat) : Nat := rsPow a 65534
/-- The power of α of symbol `k` of the codeword: data symbols 0 to 31 above check symbols 32 to 35. -/
def rsExp (k : Nat) : Nat := bif Nat.blt k 32 then k + 4 else k - 32
def rsLoc (k : Nat) : Nat := rsPow 2 (rsExp k)

/-- Syndrome `j` of an error pattern, given as symbol numbers with their differences. -/
def syndrome (err : List (Nat × BitVec 16)) (j : Nat) : Nat :=
  err.foldl (fun a e => Nat.xor a (rsMul e.2.toNat (rsPow (rsLoc e.1) j))) 0

/-- What the decoder makes of an error pattern: the differences it takes out, or none when it reports an uncorrectable
error. It corrects every error in at most two symbols (R268). -/
def rsDecode (err : List (Nat × BitVec 16)) : Option (List (Nat × Nat)) :=
  let s0 := syndrome err 0
  let s1 := syndrome err 1
  let s2 := syndrome err 2
  let s3 := syndrome err 3
  bif s0 == 0 && s1 == 0 && s2 == 0 && s3 == 0 then some []
  else
    let det := Nat.xor (rsMul s0 s2) (rsMul s1 s1)
    bif det == 0 then
      -- one symbol: the ratios of the syndromes agree and name a symbol of the codeword
      match (List.range 36).find? (fun k => rsMul s0 (rsLoc k) == s1 && rsMul s1 (rsLoc k) == s2 && rsMul s2 (rsLoc k) == s3
          && !(s0 == 0)) with
      | some k => some [(k, s0)]
      | none => none
    else
      let di := rsInv det
      let a1 := rsMul (Nat.xor (rsMul s0 s3) (rsMul s1 s2)) di
      let a2 := rsMul (Nat.xor (rsMul s1 s3) (rsMul s2 s2)) di
      -- the locators are the roots of x² + a1 x + a2
      match (List.range 36).filter (fun k => let x := rsLoc k; xor3 (rsMul x x) (rsMul a1 x) a2 == 0) with
      | [i, j] =>
        let x := rsLoc i
        let y := rsLoc j
        let e2 := rsMul (Nat.xor (rsMul s0 x) s1) (rsInv (Nat.xor x y))
        some [(i, Nat.xor s0 e2), (j, e2)]
      | _ => none

/-- A codeword's data with differences put into its symbols; data symbol `i` is bytes 2i and 2i + 1 (R267). -/
def xorSymbols (data : List Byte) (ds : List (Nat × Nat)) : List Byte :=
  ds.foldl (fun bs d =>
    bif Nat.blt d.1 32 then
      listMod (listMod bs (2 * d.1) (fun b => b ^^^ BitVec.ofNat 8 d.2)) (2 * d.1 + 1) (fun b => b ^^^ BitVec.ofNat 8 (d.2 / 256))
    else bs) data

/-- Error patterns with no difference left out. -/
def realErrs (err : List (Nat × BitVec 16)) : List (Nat × BitVec 16) := err.filter fun e => Nat.blt e.1 36 && !(e.2 == 0)

/-- The data that an error pattern leaves after the decoder has taken out what it found. -/
def decodedData (data : List Byte) (err : List (Nat × BitVec 16)) (ds : List (Nat × Nat)) : List Byte :=
  xorSymbols (xorSymbols data (err.map fun e => (e.1, e.2.toNat))) ds

/-- Whether a codeword with this error pattern is uncorrectable. -/
def badWord (err : List (Nat × BitVec 16)) : Bool := (rsDecode (realErrs err)).isNone

end Sys2Proof.Machine
end

