-- ==== Sys2Proof/Machine/Memory.lean ====
section
/-! DEFINITION. Device memory: where a frame lies (R264 to R266), free frames, quotas and use counts (R225 to R228), the
page tables as the partitions' leaves (R237), bandwidth tokens (R251), poison (R269) and reads and writes of
device-virtual space. -/

namespace Sys2Proof.Machine

/-! ## Bytes and lines -/

/-- The byte at a physical address; one that no write has reached reads as zero (R228). -/
def memGet (s : State) (pa : Nat) : Byte := tget s.mem pa 0

/-- A byte written; a zero needs no entry. -/
def cellSet (m : Tab Byte) (pa : Nat) (v : Byte) : Tab Byte := bif v == 0 then terase m pa else tset m pa v

/-- Bytes written from a physical address upward. -/
def cellsWrite (m : Tab Byte) (pa : Nat) : List Byte → Tab Byte
  | [] => m
  | v :: vs => cellsWrite (cellSet m pa v) (pa + 1) vs

/-- The canonical form of device memory: addresses rise strictly and no entry is zero. -/
def Memory.wf (m : Tab Byte) : Bool :=
  m.all (fun c => !(c.2 == 0)) && (m.zip m.tail).all (fun c => Nat.blt c.1.1 c.2.1)

/-- `n` bytes from a physical address. -/
def memRead (s : State) (pa : Nat) : Nat → List Byte
  | 0 => []
  | n + 1 => memGet s pa :: memRead s (pa + 1) n

/-- The numbers of the 64-byte lines that `n` bytes from `pa` touch. -/
def linesOf (pa n : Nat) : List Nat :=
  bif n == 0 then [] else (List.range ((pa + n - 1) / 64 - pa / 64 + 1)).map (· + pa / 64)

/-- A sorted list of numbers with `x` in it. -/
def insertNat (x : Nat) : List Nat → List Nat
  | [] => [x]
  | y :: l => bif x == y then y :: l else bif Nat.blt x y then x :: y :: l else y :: insertNat x l

/-- Whether a line is poisoned. -/
def poisoned (s : State) (line : Nat) : Bool := s.poison.contains line

/-- The error pattern that the stored codeword of a line shows. -/
def flawOf (s : State) (line : Nat) : List (Nat × BitVec 16) := tget s.flaws line []
/-- Whether the stored codeword of a line is uncorrectable. -/
def flawBad (s : State) (line : Nat) : Bool := badWord (flawOf s line)

/-- Bytes written to device memory. A write of all 64 bytes of a line clears its poison (R269); the line is a fresh codeword, as is one
that a shorter write finds correctable. -/
def memWrite (pa : Nat) (bs : List Byte) (s : State) : State :=
  let lines := linesOf pa bs.length
  let whole := lines.filter fun l => Nat.ble pa (l * 64) && Nat.ble (l * 64 + 64) (pa + bs.length)
  { s with mem := cellsWrite s.mem pa bs, poison := s.poison.filter (fun l => !(whole.contains l))
           flaws := s.flaws.filter fun f => !(whole.contains f.1) && !(lines.contains f.1 && !(badWord f.2)) }

/-- A line written whose stored codeword then shows an error pattern: what a read decodes it to stands in memory, with what the decoder
takes out as its flaw; one that is uncorrectable keeps the pattern (R268). -/
def flawWrite (line : Nat) (data : List Byte) (err : List (Nat × BitVec 16)) (s : State) : State :=
  match rsDecode (realErrs err) with
  | none => let s := memWrite (line * 64) data s
            { s with flaws := tset s.flaws line (realErrs err) }
  | some ds =>
    let s := memWrite (line * 64) (decodedData data (realErrs err) ds) s
    bif ds.isEmpty then s else { s with flaws := tset s.flaws line (ds.map fun d => (d.1, BitVec.ofNat 16 d.2)) }

/-- A line written back marked poisoned (R269). -/
def poisonLine (line : Nat) (s : State) : State := { s with poison := insertNat line s.poison, flaws := terase s.flaws line }

/-! ## Where a frame lies -/

/-- The frames of HBM (Table 7.1), by PA[41:21]. -/
def hbmFrames : Nat := 393216
/-- Frames of the system reserve (R225). -/
def reserveFrames : Nat := 8192
def isHbm (frame : Nat) : Bool := Nat.blt frame hbmFrames
/-- The first PA[41:21] of Stratus module `m` (Table 7.1). -/
def moduleBase (m : Nat) : Nat := 0x80000 + m * 0x60000
def isTier2 (frame : Nat) : Bool := Nat.ble 0x80000 frame && Nat.blt frame (0x80000 + 4 * 0x60000)
/-- The module and the frame number within it of a tier-2 frame. -/
def moduleOf (frame : Nat) : Nat := (frame - 0x80000) / 0x60000
def frameInModule (frame : Nat) : Nat := (frame - 0x80000) % 0x60000
/-- The frame number whose parity R228, R241 and R286 use. -/
def frameNumber (frame : Nat) : Nat := bif isHbm frame then frame else frameInModule frame

/-- The global regulator group of an HBM frame (R264). -/
def groupOf (frame : Nat) : Nat := frame % 96
/-- The global pseudo-channel (stack × 64 + p) of an HBM address (R264, R265). -/
def pcOf (pa : Nat) : Nat :=
  let g := groupOf (pa / 2 ^ 21)
  let c := bits pa 20 8
  g * 8 + Nat.xor (c % 8) (c / 8 % 8)
/-- The pseudo-channel address of an HBM address (R265). -/
def pcAddress (pa : Nat) : Nat := pa / 2 ^ 21 / 96 * 262144 + bits pa 20 8 / 8 * 256 + pa % 256

/-- Whether a pseudo-channel is not Up. -/
def pcFenced (s : State) (pc : Nat) : Bool := !(isUp s 7 pc)
/-- Whether any pseudo-channel of a regulator group is not Up; its frames are then withdrawn (R274). -/
def groupFenced (s : State) (g : Nat) : Bool := (List.range 8).any fun k => pcFenced s (g * 8 + k)

/-- Whether a Stratus module was detected at start-up (R290). -/
def modulePresent (s : State) (m : Nat) : Bool := flag s .genConfig 0 0 m
/-- Whether a module's frames of a parity can be reached: present, not fenced, parity not lost (R288, R289). T2M_STAT[29]
marks even frames lost, [28] odd ones. -/
def parityUp (s : State) (m parity : Nat) : Bool :=
  modulePresent s m && isUp s 8 m && !(flag s .t2mStat m 0 (bif parity == 0 then 29 else 28))

/-- Whether a frame lies in a unit that cannot be used. -/
def frameFenced (s : State) (frame : Nat) : Bool :=
  bif isHbm frame then groupFenced s (groupOf frame)
  else !(parityUp s (moduleOf frame) (frameInModule frame % 2))

/-! ## Frames: free, used, waiting for scrubbing -/

/-- Whether a frame is on a free list. -/
def frameFree (s : State) (frame : Nat) : Bool :=
  !(thas s.frames frame) && !(isHbm frame && Nat.blt frame reserveFrames) && !(frameFenced s frame)

/-- The free frame in a group's lowest slot (R266 names the group; the slot is a choice). -/
def freeInGroup (s : State) (g : Nat) : Option Nat :=
  (lowest (fun j => frameFree s (j * 96 + g)) 4096 0).map fun j => j * 96 + g

/-- The first group from `g` upward, modulo 96, that has a free frame, and that frame (R266). -/
def findGroup (s : State) : Nat → Nat → Option (Nat × Nat)
  | 0, _ => none
  | n + 1, g =>
    match freeInGroup s (g % 96) with
    | some f => some (g % 96, f)
    | none => findGroup s n (g + 1)

/-- The frame that the next placement of partition `p` in HBM takes, with its group. -/
def nextHbm (s : State) (p : Nat) : Option (Nat × Nat) :=
  findGroup s 96 (match (partition s p).lastGroup with | some g => g + 1 | none => 0)

/-- The lowest free tier-2 frame (which one is a choice). -/
def nextTier2 (s : State) : Option Nat :=
  (List.range 4).findSome? fun m =>
    bif modulePresent s m && (parityUp s m 0 || parityUp s m 1) then
      (lowest (fun f => frameFree s (moduleBase m + f)) 393216 0).map (moduleBase m + ·)
    else none

/-- Whether some frame of a tier waits for scrubbing. -/
def scrubWaiting (s : State) (hbm : Bool) : Bool :=
  s.frames.any fun f => f.2 == .scrub && isHbm f.1 == hbm && !(frameFenced s f.1)

/-- A frame taken into use. -/
def useFrame (frame : Nat) (s : State) : State := { s with frames := tset s.frames frame .used }

/-- A frame freed: it waits for scrubbing on the hub of its parity (R228), unless its unit is fenced (R275). -/
def releaseFrame (frame : Nat) (s : State) : State :=
  bif frameFenced s frame then { s with frames := tset s.frames frame .withdrawn }
  else
    let h := frameNumber frame % 2
    { s with frames := tset s.frames frame .scrub, scrubQ := tset s.scrubQ h (tget s.scrubQ h [] ++ [frame]) }

/-- Frames taken by a partition in HBM: the group used is remembered (R266). -/
def takeHbm (p frame g : Nat) (s : State) : State :=
  modPartition p (fun x => { x with lastGroup := some g }) (useFrame frame s)

/-! ## Use counts and quotas -/

/-- Pages of a partition that count against its HBM quota: in HBM or in migration (R227), and those on their way out (R233). -/
def hbmPages (s : State) (p : Nat) : Nat :=
  (((partition s p).leaves ++ (partition s p).going).filter fun l => !(l.2.res == 1)).length
/-- ALC_HBMUSE: those pages and the reserved save pages (R227). -/
def hbmUse (s : State) (p : Nat) : Nat := hbmPages s p + fld s .schSaveq p 0 15 0
/-- ALC_T2USE. -/
def t2Use (s : State) (p : Nat) : Nat := (((partition s p).leaves ++ (partition s p).going).filter fun l => !(l.2.res == 0)).length
/-- ALC_PINNED. -/
def pinnedPages (s : State) (p : Nat) : Nat := ((partition s p).leaves.filter fun l => l.2.pin).length
def hbmQuota (s : State) (p : Nat) : Nat := fld s .alcHbmq p 0 18 0
def t2Quota (s : State) (p : Nat) : Nat := fld s .alcT2q p 0 20 0
/-- The pin limit of R234: the HBM quota less the save area. -/
def pinLimit (s : State) (p : Nat) : Nat := hbmQuota s p - fld s .schSaveq p 0 15 0

/-- ALC_AVAIL: the HBM frames outside the reserve, less the frames of fenced groups that were free when the group was
fenced (R225, R274), as ALC_AVAIL's register holds it. -/
def alcAvail (s : State) : Nat := fld s .alcAvail 0 0 20 0
/-- Fitted tier-2 frames that can be reached (R288 to R290). -/
def t2Avail (s : State) : Nat :=
  sumNat ((List.range 4).map fun m => 196608 * (b01 (parityUp s m 0) + b01 (parityUp s m 1)))

/-! ## Bandwidth tokens -/

/-- The depth of a partition's buckets in eighths of a byte; DEPTH 0 is treated as 1 (Table 7.9). -/
def bucketDepth (s : State) (p : Nat) : Nat := Nat.max 1 (fld s .alcBw p 0 27 16) * 1024 * 8

/-- Tokens of a bucket; a bucket is full at reset. -/
def bucket (s : State) (p g : Nat) : Nat := tget (partition s p).tokens g (bucketDepth s p)

/-- What a partition owes a group for accesses already admitted, in eighths of a byte. -/
def owedAt (s : State) (p g : Nat) : Nat := tget (partition s p).owed g 0

/-- Whether an access of partition `p` finds 64 bytes of tokens in group `g` and nothing owed (R251). -/
def hasTokens (s : State) (p g : Nat) : Bool := Nat.ble 512 (bucket s p g) && owedAt s p g == 0

/-- Whether an access of another partition waits in group `g`. -/
def othersWait (s : State) (p g : Nat) : Bool := s.parts.any fun x => x.1 != p && x.2.waits.contains g

/-- Whether BORROW admits an access of `p` in group `g`: no other partition waits there (R251). -/
def mayBorrow (s : State) (p g : Nat) : Bool := flag s .alcBw p 0 31 && !(othersWait s p g)

/-- Whether an access of partition `p` in group `g` is admitted (R251). -/
def admitted (s : State) (p g : Nat) : Bool := hasTokens s p g || mayBorrow s p g

/-- An admitted access of `n` bytes takes its tokens. What the bucket lacks of them it owes, and pays from its refills before it admits
another; an access that borrows leaves the tokens as they are (R251). -/
def spendTokens (p g n : Nat) (s : State) : State :=
  let had := bucket s p g
  let taken := Nat.min had (8 * n)
  bif !(hasTokens s p g) && mayBorrow s p g then
    modPartition p (fun x => { x with waits := x.waits.filter (· != g) }) s
  else
    modPartition p (fun x => { x with
      tokens := tset x.tokens g (had - taken)
      spent := tset x.spent g (tget x.spent g 0 + taken)
      owed := tset x.owed g (tget x.owed g 0 + (8 * n - taken))
      waits := x.waits.filter (· != g) }) s

/-- Tokens for the lines that `n` bytes at an HBM address touch. -/
def spendAt (p pa n : Nat) (s : State) : State :=
  bif isHbm (pa / 2 ^ 21) then spendTokens p (groupOf (pa / 2 ^ 21)) (64 * (linesOf pa n).length) s else s

/-- Whether an access at an address is admitted; only HBM has buckets. -/
def admittedAt (s : State) (p pa : Nat) : Bool := !(isHbm (pa / 2 ^ 21)) || admitted s p (groupOf (pa / 2 ^ 21))

/-- An access that is not admitted waits at its group (R251). -/
def waitAt (p pa : Nat) (s : State) : State :=
  bif isHbm (pa / 2 ^ 21) then modPartition p (fun x => { x with waits := insertNat (groupOf (pa / 2 ^ 21)) x.waits }) s else s

/-- An access of `n` bytes at `pa` on behalf of partition `p`: admitted with its tokens taken it goes on as `f`, otherwise it waits. -/
def whenAdmitted (p pa n : Nat) (f : State → State) (s : State) : State :=
  bif admittedAt s p pa then f (spendAt p pa n s) else waitAt p pa s

/-! ## The reserve and the page tables (R225, R237, R274) -/

/-- Whether a frame belongs to the system reserve: one of its 8,192, not withdrawn with its regulator group. -/
def reserveHas (s : State) (frame : Nat) : Bool := Nat.blt frame reserveFrames && !(s.reserveOut.contains (groupOf frame))

/-- The 4 KiB place of the reserve that holds a table of partition `p`: level 0 root, 1 second, 2 leaf; which one of its level. -/
def tableAt (s : State) (p level index : Nat) : Option Nat :=
  (s.tables.find? fun t => t.2.part == p && t.2.level == level && t.2.index == index).map (·.1)

/-- The lowest free place for a table. -/
def freeTable (s : State) : Option Nat :=
  lowest (fun k => !(thas s.tables k) && reserveHas s (k / 512)) (reserveFrames * 512) 0

/-- A table built in the reserve, when there is none yet. -/
def buildTable (p level index : Nat) (s : State) : State :=
  match tableAt s p level index, freeTable s with
  | none, some k => { s with tables := tset s.tables k ⟨p, level, index⟩ }
  | _, _ => s

/-- The three tables that lead to a page (R237): VA[47:39], VA[38:30] and VA[29:21]. -/
def buildTables (p vpn : Nat) (s : State) : State :=
  buildTable p 2 (vpn / 512) (buildTable p 1 (vpn / 262144) (buildTable p 0 0 s))

/-- The reserve frames of a group are withdrawn; the hardware builds the tables that lay there elsewhere (R274). -/
def withdrawReserve (g : Nat) (s : State) : State :=
  let s := { s with reserveOut := insertNat g s.reserveOut }
  let lost := s.tables.filter fun t => groupOf (t.1 / 512) == g
  lost.foldl (fun s t => buildTable t.2.part t.2.level t.2.index s)
    { s with tables := s.tables.filter fun t => !(groupOf (t.1 / 512) == g) }

/-- A non-leaf entry: V, and the physical address of the next table (Table 7.3). -/
def nextWord : Option Nat → Nat
  | some k => 1 + k * 4096
  | none => 0

/-- A leaf as Table 7.4 lays it out, with the given FRAME. -/
def leafWord (l : Leaf) (frame : Nat) : Nat :=
  1 + l.res * 2 + b01 l.wr * 8 + b01 l.pin * 16 + b01 l.psc * 32 + b01 l.t2d * 64 + b01 l.fen * 128
    + l.prog % 8192 * 256 + frame % 2 ^ 21 * 2 ^ 21 + l.heat % 256 * 2 ^ 48

/-! ## Translation -/

/-- The leaf of a page. -/
def leaf? (s : State) (p vpn : Nat) : Option Leaf := tget? (partition s p).leaves vpn
def setLeaf (p vpn : Nat) (l : Leaf) (s : State) : State :=
  modPartition p (fun x => { x with leaves := tset x.leaves vpn l }) s

/-- Entry `i` of a table, 8 bytes: Table 7.3 in a root or second-level table, Table 7.4 in a leaf table (R237). -/
def tableEntry (s : State) (t : TablePage) (i : Nat) : Nat :=
  match t.level with
  | 0 => nextWord (tableAt s t.part 1 i)
  | 1 => nextWord (tableAt s t.part 2 (t.index * 512 + i))
  | _ => match leaf? s t.part (t.index * 512 + i) with | some l => leafWord l l.frame | none => 0

/-- The entry of the table at place `k`. -/
def entryAt (s : State) (k i : Nat) : Nat := match tget? s.tables k with | some t => tableEntry s t i | none => 0

/-- A walk of partition `p`'s tables to the leaf entry of a page: zero where an entry is not valid. -/
def walkWord (s : State) (p vpn : Nat) : Nat :=
  match tableAt s p 0 0 with
  | none => 0
  | some k0 =>
    let e0 := entryAt s k0 (vpn / 262144)
    bif !(bit e0 0) then 0
    else
      let e1 := entryAt s (e0 / 4096) (vpn / 512 % 512)
      bif !(bit e1 0) then 0 else entryAt s (e1 / 4096) (vpn % 512)

/-- Every change of a leaf invalidates it in every TLB of the partition's benches (R240). -/
def dropTlb (p vpn : Nat) (s : State) : State :=
  { s with benches := s.benches.map fun x =>
      bif benchPart s x.1 == p then (x.1, { x.2 with tlbs := x.2.tlbs.map fun t => (t.1, t.2.filter (· != vpn)) })
      else x }

/-- HEAT rises by 1, saturating at 255 (R242). -/
def heatPage (p vpn : Nat) (s : State) : State :=
  match leaf? s p vpn with
  | some l => setLeaf p vpn { l with heat := satTo 255 (l.heat + 1) } s
  | none => s

/-- The frame from which a read of a page is served: during a move the page is where it was (R245). -/
def readFrame (l : Leaf) : Nat := l.frame

/-- What an access to one 64-byte line of a page meets. -/
inductive LineResult where
  | ok
  | fail (st : Status)
  deriving DecidableEq, Repr

/-- Whether the unit that serves the line at `pa` is fenced: its pseudo-channel (R275), or its module's parity (R246, R288). -/
def lineFenced (s : State) (pa : Nat) : Bool :=
  bif isHbm (pa / 2 ^ 21) then pcFenced s (pcOf pa) else frameFenced s (pa / 2 ^ 21)

/-- A read of the line at physical address `pa`: fenced units 0x0301 (R275, R246), poison 0x0582, an uncorrectable codeword 0x0581
(R269, R287). -/
def lineRead (s : State) (pa : Nat) : LineResult :=
  bif lineFenced s pa then .fail 0x0301
  else bif poisoned s (pa / 64) then .fail 0x0582
  else bif flawBad s (pa / 64) then .fail 0x0581 else .ok

/-- The first failure among the lines of `n` bytes at `pa`. -/
def linesRead (s : State) (pa n : Nat) : LineResult :=
  (linesOf pa n).foldl (fun r l => match r with | .ok => lineRead s (l * 64) | e => e) .ok

/-- A page of a partition for a read or a write: its leaf, or the status of the access (R230, R236, R275, R246). -/
def pageAccess (s : State) (p va : Nat) (write : Bool) : Except Status Leaf :=
  match leaf? s p (va / 2 ^ 21) with
  | none => .error 0x0501
  | some l =>
    bif write && !l.wr then .error 0x0502
    else bif write && (l.fen || frameFenced s l.frame) then .error 0x0301
    else .ok l

/-- The physical address of a device-virtual one under its leaf. -/
def paOf (l : Leaf) (va : Nat) : Nat := readFrame l * 2 ^ 21 + va % 2 ^ 21

/-- The pieces of a range that lie in one page each: address and length. -/
def pagePieces : Nat → Nat → Nat → List (Nat × Nat)
  | 0, _, _ => []
  | fuel + 1, va, n =>
    bif n == 0 then []
    else
      let k := Nat.min n (2 ^ 21 - va % 2 ^ 21)
      (va, k) :: pagePieces fuel (va + k) (n - k)

/-- The pieces of `n` bytes from `va`. -/
def piecesOf (va n : Nat) : List (Nat × Nat) := pagePieces (n / 2 ^ 21 + 2) va n

/-- A read of device-virtual space by a unit of the part (the scheduler, the Steward, a collective engine): the bytes, or
the status of the first failing access in order of address. Tier-2 pages are read where they lie (R247). -/
def spaceRead (s : State) (p va n : Nat) : Except Status (List Byte) :=
  (piecesOf va n).foldl (fun r pc =>
    match r with
    | .error e => .error e
    | .ok bs =>
      match pageAccess s p pc.1 false with
      | .error e => .error e
      | .ok l =>
        match linesRead s (paOf l pc.1) pc.2 with
        | .fail e => .error e
        | .ok => .ok (bs ++ memRead s (paOf l pc.1) pc.2)) (.ok [])

/-- The status of a write of `n` bytes to device-virtual space: the first failing page's. -/
def spaceWritable (s : State) (p va n : Nat) : Status :=
  (piecesOf va n).foldl (fun r pc =>
    bif r == 0 then
      match pageAccess s p pc.1 true with
      | .error e => e
      | .ok _ => 0
    else r) 0

/-- A write to a page aborts its move to tier 2 (R245). -/
def abortMoveOut (p vpn : Nat) (s : State) : State :=
  match tget? (partition s p).moves vpn, leaf? s p vpn with
  | some m, some l =>
    bif m.toHbm then s
    else releaseFrame m.target (modPartition p (fun x => { x with
      moves := terase x.moves vpn, leaves := tset x.leaves vpn { l with res := 0 } }) (dropTlb p vpn s))
  | _, _ => s

/-- Whether a page moves to HBM: a write to it waits until the move ends (R245). -/
def movesIn (s : State) (p vpn : Nat) : Bool := match tget? (partition s p).moves vpn with | some m => m.toHbm | none => false

/-- Whether a page of a range moves to HBM. -/
def rangeMovesIn (s : State) (p va n : Nat) : Bool := (piecesOf va n).any fun c => movesIn s p (c.1 / 2 ^ 21)

/-- A write of a page that moves to HBM reaches the fragments that have already arrived as well, so that neither copy is stale (R245). -/
def writeArrived (p va : Nat) (bs : List Byte) (s : State) : State :=
  match tget? (partition s p).moves (va / 2 ^ 21) with
  | some m =>
    bif m.toHbm then
      m.frags.foldl (fun s k =>
        let lo := Nat.max (va % 2 ^ 21) (k * 65536)
        let hi := Nat.min (va % 2 ^ 21 + bs.length) (k * 65536 + 65536)
        bif Nat.blt lo hi then memWrite (m.target * 2 ^ 21 + lo) ((bs.drop (lo - va % 2 ^ 21)).take (hi - lo)) s else s) s
    else s
  | none => s

/-- Bytes written through a page of a partition, which the caller has checked. A page that moves out stays in HBM. -/
def pageWrite (p va : Nat) (bs : List Byte) (s : State) : State :=
  let s := abortMoveOut p (va / 2 ^ 21) s
  match leaf? s p (va / 2 ^ 21) with
  | none => s
  | some l => writeArrived p va bs (memWrite (paOf l va) bs s)

/-- A write of device-virtual space by a unit of the part: every byte is written, or none and the status says why. -/
def spaceWrite (p va : Nat) (bs : List Byte) (s : State) : Status × State :=
  let st := spaceWritable s p va bs.length
  bif st == 0 then
    (0, (piecesOf va bs.length).foldl (fun s pc => pageWrite p pc.1 (sliceBytes bs (pc.1 - va) pc.2) s) s)
  else (st, s)

/-- The lines of a range that give no data when read: poisoned ones, and those whose codeword is uncorrectable. -/
def badLines (s : State) (pa n : Nat) : List Nat :=
  (s.poison ++ (s.flaws.filter fun f => badWord f.2).map (·.1)).filter fun l => Nat.ble pa (l * 64) && Nat.blt (l * 64) (pa + n)

/-- `n` bytes of one frame copied to another at an offset; a line that gives no data arrives poisoned (R270, R287). -/
def copyFrame (src dst off n : Nat) (s : State) : State :=
  let bytes := memRead s (src * 2 ^ 21 + off) n
  let bad := badLines s (src * 2 ^ 21 + off) n
  let s := memWrite (dst * 2 ^ 21 + off) bytes s
  { s with poison := bad.foldl (fun q l => insertNat (l - src * 32768 + dst * 32768) q) s.poison }

/-- A frame scrubbed to zero; scrubbing clears poison (R228, R269). -/
def zeroFrame (frame : Nat) (s : State) : State :=
  { s with mem := s.mem.filter (fun c => !(c.1 / 2 ^ 21 == frame)), poison := s.poison.filter (fun l => !(l / 32768 == frame))
           flaws := s.flaws.filter (fun f => !(f.1 / 32768 == frame)) }

end Sys2Proof.Machine
end

