-- ==== Sys2Proof/Machine/Fence.lean ====
section
/-! DEFINITION. Fencing: what a fence cause does to a unit and to the units fenced with it (R489 to R494, R552, R553, R27,
R246, R274, R288, R289, Table 14.2). -/

namespace Sys2Proof.Machine

/-- The partition that a unit's events name: a partition itself, otherwise none. -/
def unitPart (kind index : Nat) : Option Nat := bif kind == 9 then some index else none

/-- A fence cause reaches one unit: it is counted; an Up unit becomes Draining and raises 0x9001; a Recovering unit returns
to Fenced; a Draining or Fenced unit stays as it is (R490, R493, R553). -/
def noteCause (kind index : Nat) (cause : Status) (s : State) : State :=
  let s := bumpFld .errCount 0 0 15 0 1 s
  match unitState s kind index with
  | .up => raise 0x9001 1 (unitPart kind index) (unitId kind index) (BitVec.ofNat 64 (2 ^ 16 + cause.toNat))
             (setUnit kind index .draining cause s)
  | .recovering => setUnit kind index .fenced cause s
  | _ => s

/-- A fenced bench stops its program as though the bench had faulted (R61): a report with 0x0302 from the sequencer at its
next word; the sequencer's state is 6. -/
def benchDrains (b : Nat) (s : State) : State :=
  let x := bench s b
  match x.prog with
  | none => s
  | some _ => modBench b (fun x => { x with seq := 6 }) (reportFault b 15 x.pc 0x0302 s)

/-- The stations that recover with a bench return to Fenced with it. -/
def stationsFenced (b : Nat) (s : State) : State :=
  (List.range 13).foldl (fun s k =>
    bif unitState s 1 (b * 16 + k) == .recovering then setUnit 1 (b * 16 + k) .fenced 0x030F s else s) s

/-- A fence cause reaches a bench. -/
def causeBench (b : Nat) (cause : Status) (s : State) : State :=
  bif isUp s 2 b then benchDrains b (noteCause 2 b cause s)
  else bif unitState s 2 b == .recovering then stationsFenced b (noteCause 2 b cause s)
  else noteCause 2 b cause s

/-- A fence cause reaches a station: its bench is fenced with it, or abandons its recovery with it. -/
def causeStation (index : Nat) (cause : Status) (s : State) : State :=
  bif isUp s 1 index || unitState s 1 index == .recovering then causeBench (index / 16) 0x030F (noteCause 1 index cause s)
  else noteCause 1 index cause s

/-- A fence cause reaches a sector: the benches of a compute sector are fenced with it (R27). -/
def causeSector (sec : Nat) (cause : Status) (s : State) : State :=
  bif isUp s 3 sec then
    let s := noteCause 3 sec cause s
    bif Nat.blt sec 24 then (sectorBenches sec).foldl (fun s b => causeBench b 0x030F s) s else s
  else noteCause 3 sec cause s

/-! ## What waits for a page -/

/-- Segment `seg` of request `req` changed. -/
def modSeg (req seg : Nat) (f : Seg → Seg) (s : State) : State :=
  match tget? s.reqs req with
  | some r => { s with reqs := tset s.reqs req { r with segs := listMod r.segs seg f } }
  | none => s

/-- The segments that wait for a page, as request and segment numbers. -/
def waitingOn (s : State) (p vpn : Nat) : List (Nat × Nat) :=
  s.reqs.flatMap fun r =>
    bif r.2.part == p && r.2.rank.isNone then
      ((List.range r.2.segs.length).filter (fun k => match r.2.segs[k]? with
        | some g => g.state == .waiting && g.va / 2 ^ 21 == vpn
        | none => false)).map fun k => (r.1, k)
    else []

/-- A segment's wait on a fetch ends: PGE_STALLUS counts it in µs (Table 7.10). -/
def endWait (req seg : Nat) (st : SegState) (status : Status) (s : State) : State :=
  match tget? s.reqs req with
  | none => s
  | some r =>
    match r.segs[seg]? with
    | none => s
    | some g => bump .pgeStallus r.part 0 ((s.time - g.since) / 1000)
        (modSeg req seg (fun g => { g with state := st, status := status }) s)

/-- Requests that a home holds for a page fail with a status (R387, R244). -/
def failHome (p vpn : Nat) (st : Status) (s : State) : State :=
  let fail := fun (r : HomeReq) => bif r.part == p && r.wait == some vpn then { r with wait := none, status := st } else r
  { s with sources := s.sources.map fun x => (x.1, { x.2 with reqs := x.2.reqs.map fun r => (r.1, fail r.2) }) }

/-- Everything that waits for Drift to bring a page in fails with a status, and the page is no longer asked for. -/
def failWaiting (p vpn : Nat) (st : Status) (s : State) : State :=
  let s := modPartition p (fun x => { x with demand := x.demand.filter (· != vpn), prefetch := x.prefetch.filter (· != vpn) }) s
  failHome p vpn st ((waitingOn s p vpn).foldl (fun s w => endWait w.1 w.2 .refused st s) s)

/-- Whether a segment or a home's request waits for a page. -/
def pageAwaited (s : State) (p vpn : Nat) : Bool :=
  !((waitingOn s p vpn).isEmpty) || s.sources.any fun x => x.2.reqs.any fun r => r.2.part == p && r.2.wait == some vpn

/-- A page that something waits for is asked of Drift again. -/
def askAgain (p vpn : Nat) (s : State) : State :=
  bif pageAwaited s p vpn then
    modPartition p (fun x => { x with demand := bif x.demand.contains vpn then x.demand else x.demand ++ [vpn] }) s
  else s

/-! ## Fenced memory -/

/-- A leaf with FEN set when its frame satisfies `p`. -/
def fenLeaf (p : Nat → Bool) (l : Leaf) : Leaf := bif p l.frame then { l with fen := true } else l

/-- Whether a page of partition `q` has a frame that satisfies `p`. -/
def pageIn (s : State) (p : Nat → Bool) (q v : Nat) : Bool :=
  match leaf? s q v with
  | some l => p l.frame
  | none => false

/-- What waits for a tier-2 page whose frame satisfies `q` fails with 0x0301 (R246). -/
def failFenced (q : Nat → Bool) (s : State) : State :=
  s.parts.foldl (fun s x => x.2.leaves.foldl (fun s l =>
    bif l.2.res == 1 && q l.2.frame && pageAwaited s x.1 l.1 then failWaiting x.1 l.1 0x0301 s else s) s) s

/-- FEN is set in every leaf whose frame satisfies `p`, after the leaf is invalidated everywhere (R240). -/
def setFen (p : Nat → Bool) (s : State) : State :=
  let inval (n : Nat) (t : Nat × List Nat) := (t.1, t.2.filter (fun v => !(pageIn s p n v)))
  failFenced p { s with
    parts := s.parts.map (fun x => (x.1, { x.2 with leaves := x.2.leaves.map (fun l => (l.1, fenLeaf p l.2)) }))
    benches := s.benches.map (fun x => (x.1, { x.2 with tlbs := x.2.tlbs.map (inval (benchPart s x.1)) })) }

/-- A move of partition `p` is aborted: the page stays where it was, the frame it was moving to is released, and what waits for the page
asks for it again (R233, R240, R246). -/
def abortMove (p vpn : Nat) (s : State) : State :=
  match tget? (partition s p).moves vpn, leaf? s p vpn with
  | some m, some l =>
    askAgain p vpn (releaseFrame m.target (modPartition p (fun x => { x with
      moves := terase x.moves vpn
      leaves := tset x.leaves vpn { l with res := bif m.toHbm then 1 else 0 } }) (dropTlb p vpn s)))
  | _, _ => s

/-- Every move with a frame that satisfies `q`, as source or target, is aborted (R246). -/
def abortMoves (q : Nat → Bool) (s : State) : State :=
  (List.range 8).foldl (fun s p =>
    (partition s p).moves.foldl (fun s m =>
      let src := match leaf? s p m.1 with | some l => q l.frame | none => false
      bif src || q m.2.target then abortMove p m.1 s else s) s) s

/-- When the quotas exceed ALC_AVAIL an Error is raised once (R277). -/
def checkQuotas (s : State) : State :=
  let short := Nat.blt (alcAvail s) (sumNat ((List.range 8).map (hbmQuota s)))
  bif short && !s.quotaErr then raise 0xC005 1 none 0 0 { s with quotaErr := true }
  else bif short then s else { s with quotaErr := false }

/-- A pseudo-channel is fenced: FEN in every leaf of its group, ALC_AVAIL lowered by the group's free frames outside the
reserve, and the group's reserve frames withdrawn (R274). -/
def causePc (pc : Nat) (cause : Status) (s : State) : State :=
  bif isUp s 7 pc then
    let g := pc / 8
    let was := groupFenced s g
    let free := bif was then 0 else ((List.range 4096).filter fun j => frameFree s (j * 96 + g)).length
    let s := noteCause 7 pc cause s
    let q := fun f => isHbm f && groupOf f == g
    let s := withdrawReserve g (setFen q (abortMoves q s))
    checkQuotas (setFld .alcAvail 0 0 20 0 (alcAvail s - free) s)
  else noteCause 7 pc cause s

/-- A Stratus module is fenced (R246). -/
def causeModule (m : Nat) (cause : Status) (s : State) : State :=
  bif isUp s 8 m then
    let q := fun f => isTier2 f && moduleOf f == m
    setFen q (abortMoves q (noteCause 8 m cause s))
  else noteCause 8 m cause s

/-- A module loses the frames of one parity: T2M_STAT marks it, the pages are treated as a fenced module's, and a module
that has lost both is fenced (R288). -/
def loseParity (m parity : Nat) (s : State) : State :=
  bif modulePresent s m then
    let bitNo := bif parity == 0 then 29 else 28
    let other := bif parity == 0 then 28 else 29
    let q := fun f => isTier2 f && moduleOf f == m && frameInModule f % 2 == parity
    let s := setFen q (abortMoves q (setFld .t2mStat m 0 bitNo bitNo 1 s))
    bif flag s .t2mStat m 0 other then causeModule m 0x030D s else s
  else s

/-- A fence cause reaches an optical lane; a lane that was Up or Recovering shows state Fenced, unless it is unused (Table 9.10, R310). -/
def causeLane (index : Nat) (cause : Status) (s : State) : State :=
  bif isUp s 5 index || unitState s 5 index == .recovering then
    let e := index / 128
    let d := index / 64 % 2
    let l := index % 64
    let s := noteCause 5 index cause s
    bif laneState s e d l == 8 then s else setLane e d l 6 s
  else noteCause 5 index cause s

/-- An optical engine is fenced with its lanes and closes every shutter (R326); E8 and E9 take their parity of every module with them
(R289). -/
def causeEngine (e : Nat) (cause : Status) (s : State) : State :=
  bif isUp s 6 e then
    let s := noteCause 6 e cause s
    let s := (List.range 2).foldl (fun s d => (List.range (engineLanes e)).foldl (fun s l =>
      causeLane (e * 128 + d * 64 + l) 0x030F s) s) s
    let s := bif isHostEngine e then s else modEngine e (fun x => { x with opened := [0, 1, 2, 3] }) s
    bif e == 8 then (List.range 4).foldl (fun s m => loseParity m 0 s) s
    else bif e == 9 then (List.range 4).foldl (fun s m => loseParity m 1 s) s
    else s
  else noteCause 6 e cause s

/-- The sessions of a fenced partition become Holding (Table 13.2). -/
def holdSessions (p : Nat) (s : State) : State :=
  { s with sessions := s.sessions.map fun q =>
      bif q.2.part == p && (q.2.state == .open_ || q.2.state == .orphaned) then
        (q.1, { q.2 with state := .holding, since := s.time })
      else q }

/-- A fenced partition ends its programs with 0x0305. -/
def causePartition (p : Nat) (cause : Status) (s : State) : State :=
  bif isUp s 9 p then
    let s := holdSessions p (noteCause 9 p cause s)
    s.progs.foldl (fun s n =>
      bif n.2.part == p then
        match n.2.place with
        | b :: _ => reportFault b 15 (bench s b).pc 0x0305 s
        | [] => s
      else s) s
  else noteCause 9 p cause s

/-- The update ends with a result: not BUSY, nothing deferred. -/
def endUpdate (result : Nat) (s : State) : State :=
  setFld .updStat 0 0 31 28 result (setFld .updStat 0 0 27 26 0 { s with update := none, deferred := none })

/-- The boot core stops: staging aborts with RESULT 7 and its target stays unbootable (Table 14.8). -/
def abortStaging (s : State) : State :=
  match s.update with
  | some (.stage _) => endUpdate 7 s
  | _ => s

/-- The processor in hand fails: live activation stops with RESULT 7 (Table 14.8). -/
def stopLive (i : Nat) (s : State) : State :=
  match s.update with
  | some (.live (j :: _) false _) => bif i == j then endUpdate 7 s else s
  | _ => s

/-- Every lease pauses when the processor that carries Steward core 0's duties stops (R423). -/
def pauseLeases (i : Nat) (s : State) : State :=
  bif tget s.duties 1 1 == i && s.stewardGone.isNone then { s with stewardGone := some s.time } else s

/-- What Table 14.2 and Table 14.8 say of a fenced processor, apart from engines. -/
def processorStops (i : Nat) (s : State) : State :=
  let s := stopLive i (setFld .fwpStat i 0 31 30 2 (pauseLeases i s))
  let s := bif i == 0 then abortStaging s else s
  bif Nat.ble 5 i && Nat.ble i 10 && !(s.noRestart.contains i) then { s with noRestart := i :: s.noRestart } else s

/-- A firmware processor is fenced as Table 14.2 says: an engine core's engine with it; the fourth Steward core raises a
Fatal event. -/
def causeProcessor (i : Nat) (cause : Status) (s : State) : State :=
  bif isUp s 10 i then
    let s := processorStops i (noteCause 10 i cause s)
    bif Nat.ble 11 i && Nat.ble i 22 then causeEngine (i - 11) 0x030E s
    else bif (List.range 4).all (fun k => !(isUp s 10 (k + 1))) && Nat.ble 1 i && Nat.ble i 4 then
      raise 0xD005 0 none (unitId 10 i) 0 s
    else s
  else bif unitState s 10 i == .recovering then setFld .fwpStat i 0 31 30 2 (noteCause 10 i cause s)
  else noteCause 10 i cause s

/-- The three links of a compute die (Table 17.1). -/
def dieLinks : Nat → List Nat
  | 0 => [0, 2, 4] | 1 => [0, 3, 6] | 2 => [1, 2, 5] | _ => [1, 3, 7]
/-- Whether no module of a link is Up. -/
def linkDead (s : State) (l : Nat) : Bool := (linkModules l).all fun m => !(isUp s 4 m)

/-- A native link module is fenced: a compute die with no module Up on its links loses its sectors, an engine with none is fenced (R518). Its
groups move (R513). -/
def causeNative (m : Nat) (cause : Status) (s : State) : State :=
  let was := isUp s 4 m
  let l := moduleLink m
  let s := moveStopped l (noteCause 4 m cause s)
  bif !was || !(linkDead s l) then s
  else bif Nat.ble 8 l then causeEngine (l - 8) 0x030D s
  else (List.range 4).foldl (fun s d =>
    bif (dieLinks d).contains l && (dieLinks d).all (linkDead s) then
      (List.range 6).foldl (fun s k => causeSector (6 * d + k) 0x030D s) s
    else s) s

/-- A UCIe module is fenced: with all four fenced EN is cleared (R522). -/
def causeUcie (m : Nat) (cause : Status) (s : State) : State :=
  let s := noteCause 4 m cause s
  bif (List.range 4).all (fun k => !(isUp s 4 (328 + k))) then setFld .uciCtl 0 0 30 30 0 s else s

/-- A fence cause reaches a unit of Table 16.1. -/
def fenceCause (kind index : Nat) (cause : Status) (s : State) : State :=
  match kind with
  | 1 => causeStation index cause s
  | 2 => causeBench index cause s
  | 3 => causeSector index cause s
  | 4 => bif Nat.blt index 328 then causeNative index cause s else causeUcie index cause s
  | 5 => causeLane index cause s
  | 6 => causeEngine index cause s
  | 7 => causePc index cause s
  | 8 => causeModule index cause s
  | 9 => causePartition index cause s
  | 10 => causeProcessor index cause s
  | k => noteCause k index cause s

/-- Whether Table 16.1 has a unit of this kind and index. -/
def unitExists (kind index : Nat) : Bool :=
  match kind with
  | 1 => Nat.blt index 512 && Nat.blt (index % 16) 13
  | 2 => Nat.blt index 32
  | 3 => Nat.blt index 32
  | 4 => Nat.blt index 332
  | 5 => Nat.blt index 1536 && Nat.blt (index % 64) (engineLanes (index / 128))
  | 6 => Nat.blt index 12
  | 7 => Nat.blt index 768
  | 8 => Nat.blt index 4
  | 9 => Nat.blt index 8
  | 10 => Nat.blt index 35
  | _ => false

/-- Whether every enclosing unit of a unit is Up (R492). -/
def enclosingUp (s : State) (kind index : Nat) : Bool :=
  match kind with
  | 1 => isUp s 2 (index / 16)
  | 2 => isUp s 3 (homeSector index) && isUp s 3 (farSector index)
  | 5 => isUp s 6 (index / 128)
  | _ => true

/-- A unit returns to Up and raises 0x9002 (R553). -/
def unitUp (kind index : Nat) (s : State) : State :=
  raise 0x9002 3 (unitPart kind index) (unitId kind index) 0 (setUnit kind index .up 0 s)

end Sys2Proof.Machine
end

