-- ==== Sys2Proof/Machine/Operands.lean ====
section
/-! DEFINITION. The operand forms of the EQ instructions: the fields of a word (Table 3.1), register specifiers (Table 3.2),
reads and writes of scalars, predicates, handles and ports (R79, R81, R82), granules (R221, R84), and bench-store bytes. -/

namespace Sys2Proof.Machine

/-! ## The fields of a word (Table 3.1) -/

def wOpc (w : W128) : Nat := bits w.toNat 127 120
def wUnit (w : W128) : Nat := bits w.toNat 119 116
def wIdx (w : W128) : Nat := bits w.toNat 115 112
def wPsel (w : W128) : Nat := bits w.toNat 111 108
def wPinv (w : W128) : Bool := bit w.toNat 107
def wFmt (w : W128) : Nat := bits w.toNat 106 100
def wMod (w : W128) : Nat := bits w.toNat 99 92
/-- The register specifier of operand `n`, 1 to 4. -/
def wOperand (w : W128) (n : Nat) : Nat := bits w.toNat (99 - 8 * n) (92 - 8 * n)
def wImm (w : W128) : Nat := bits w.toNat 59 0
/-- Bits `[h:l]` of MOD and of IMM. -/
def wModBits (w : W128) (h l : Nat) : Nat := bits (wMod w) h l
def wImmBits (w : W128) (h l : Nat) : Nat := bits (wImm w) h l
/-- FILE and INDEX of operand `n` (Table 3.2). -/
def wFile (w : W128) (n : Nat) : Nat := wOperand w n / 64
def wIndex (w : W128) (n : Nat) : Nat := wOperand w n % 64
/-- MOD[7], SOFT. -/
def wSoft (w : W128) : Bool := bit (wMod w) 7

/-- The word of a unit and opcode with the other fields given. -/
def wordOf (unit opc : Nat) (f : Fields) : W128 :=
  BitVec.ofNat 128 (opc * 2 ^ 120 + unit * 2 ^ 116 + f.idx.toNat * 2 ^ 112 + f.psel.toNat * 2 ^ 108
    + f.pinv.toNat * 2 ^ 107 + f.fmt.toNat * 2 ^ 100 + f.mod.toNat * 2 ^ 92 + f.o1.toNat * 2 ^ 84 + f.o2.toNat * 2 ^ 76
    + f.o3.toNat * 2 ^ 68 + f.o4.toNat * 2 ^ 60 + f.imm.toNat)

/-- The fields of a word other than OPC and UNIT. -/
def fieldsOf (w : W128) : Fields :=
  { idx := BitVec.ofNat 4 (wIdx w), psel := BitVec.ofNat 4 (wPsel w), pinv := BitVec.ofBool (wPinv w),
    fmt := BitVec.ofNat 7 (wFmt w), mod := BitVec.ofNat 8 (wMod w), o1 := BitVec.ofNat 8 (wOperand w 1),
    o2 := BitVec.ofNat 8 (wOperand w 2), o3 := BitVec.ofNat 8 (wOperand w 3), o4 := BitVec.ofNat 8 (wOperand w 4),
    imm := BitVec.ofNat 60 (wImm w) }

/-! ## Registers of the sequencer -/

/-- Scalar `n`; s0 reads zero (R79). -/
def getS (x : Bench) (n : Nat) : W64 := bif n == 0 then 0 else tget x.scalars n 0
/-- Scalar `n` written; a write to s0 is discarded (R79). -/
def putS (n : Nat) (v : W64) (x : Bench) : Bench :=
  bif n == 0 then x else { x with scalars := tset x.scalars n v }
/-- Predicate `n`; p0 reads 1 (R79). -/
def getP (x : Bench) (n : Nat) : Bool := bif n == 0 then true else tget x.preds n false
/-- Predicate `n` written; a write to p0 is discarded (R79). -/
def putP (n : Nat) (v : Bool) (x : Bench) : Bench :=
  bif n == 0 then x else { x with preds := tset x.preds n v }
def getT (x : Bench) (n : Nat) : Option Handle := tget? x.handles n
def putT (n : Nat) (h : Handle) (x : Bench) : Bench := { x with handles := tset x.handles n h }
def getC (x : Bench) (n : Nat) : Option Port := tget? x.ports n
def putC (n : Nat) (p : Port) (x : Bench) : Bench := { x with ports := tset x.ports n p }
def dropC (n : Nat) (x : Bench) : Bench := { x with ports := terase x.ports n }

/-- The captured scalar of operand `n` of an entry (R81). -/
def eVal (e : Entry) (n : Nat) : W64 := (e.vals[n - 1]?).getD 0
/-- The resolved port of operand `n` of an entry (R82). -/
def ePort (e : Entry) (n : Nat) : Option Port := (e.ports[n - 1]?).getD none

/-! ## Bench store -/

/-- Bytes in bench store (Table 0.2, R84). -/
def benchBytes : Nat := 25165824

/-- Whether the role holds a granule: declared, or allocated with GALLOC (R221). -/
def roleHolds (x : Bench) (g : Nat) : Bool :=
  match tget? x.grans g with
  | some .role => true
  | some .alloc => true
  | _ => false

/-- Whether the role holds every granule of `n` bytes from `a`. -/
def holdsBytes (x : Bench) (a n : Nat) : Bool :=
  Nat.ble (a + n) benchBytes &&
  (n == 0 || (List.range ((a + n - 1) / 65536 - a / 65536 + 1)).all fun k => roleHolds x (a / 65536 + k))

/-- How often granule `g` of the bench has been granted. -/
def granGen (x : Bench) (g : Nat) : Nat := tget x.gens g 0

/-- Bytes written to bench store. -/
def storeCells (m : Tab Byte) (a : Nat) : List Byte → Tab Byte
  | [] => m
  | v :: vs => storeCells (tset m a v) (a + 1) vs
/-- A write of all 64 bytes of a line of bench store clears its poison (R269, R270). -/
def storeWrite (a : Nat) (bs : List Byte) (x : Bench) : Bench :=
  { x with store := storeCells x.store a bs
           badLines := x.badLines.filter fun l => !(Nat.ble a (l * 64) && Nat.ble (l * 64 + 64) (a + bs.length)) }

/-- Whether `n` bytes of bench store from `a` touch a poisoned line (R270). -/
def storeBad (x : Bench) (a n : Nat) : Bool := (linesOf a n).any fun l => x.badLines.contains l

/-- What an instruction fails with that reads a line of bench store which its check code cannot correct (R491, Table 16.2). -/
def arrayError : Status := 0x0301

/-- A granule given to an owner: what it held is undefined to its new holder (R224). -/
def grant (g : Nat) (o : GranOwner) (x : Bench) : Bench :=
  { x with grans := tset x.grans g o, gens := tset x.gens g (granGen x g + 1),
           store := x.store.filter (fun c => !(c.1 / 65536 == g)), origin := terase x.origin g
           badLines := x.badLines.filter fun l => !(l / 1024 == g) }

/-- A granule returned to the free pool. -/
def ungrant (g : Nat) (x : Bench) : Bench := { x with grans := terase x.grans g }

/-- The free granules of a half, rising. -/
def freeGrans (x : Bench) (far : Bool) : List Nat :=
  ((List.range 192).map (· + bif far then 192 else 0)).filter fun g => !(thas x.grans g)

/-- The lowest start of a run of `n` free granules of a half (R222). -/
def freeRun (x : Bench) (far : Bool) (n : Nat) : Option Nat :=
  let base := bif far then 192 else 0
  lowest (fun g => (List.range n).all fun k => !(thas x.grans (g + k))) (192 + 1 - n) base

/-! ## The system queue -/

/-- The entry that the hub has taken from a bench's system queue, if it is the given instruction. -/
def sysEntry (s : State) (b unit opc : Nat) : Option Entry :=
  match (bench s b).taken with
  | none => none
  | some e => bif wUnit e.word == unit && wOpc e.word == opc && !((bench s b).halted.contains 13) then some e else none

/-- Entry `eid` no longer counts as a reader or writer of any handle (R109). -/
def dropUses (eid : Nat) (x : Bench) : Bench :=
  { x with uses := x.uses.map fun u =>
      (u.1, { writer := (bif u.2.writer == some eid then none else u.2.writer)
              readers := u.2.readers.filter (· != eid) }) }

/-- The taken system-queue instruction retires (R108). -/
def sysRetire (b : Nat) (s : State) : State :=
  modBench b (fun x => match x.taken with
    | some e => dropUses e.eid { x with taken := none }
    | none => x) s

/-- The taken system-queue instruction writes its scalar result in O1 and retires. -/
def sysResult (b : Nat) (e : Entry) (v : W64) (s : State) : State :=
  sysRetire b (modBench b (putS (wIndex e.word 1) v) s)

/-- The taken system-queue instruction faults: ordinal 13, and it does not retire (R112, R113). -/
def sysFault (b : Nat) (e : Entry) (st : Status) (s : State) : State := reportFault b 13 e.off st s

end Sys2Proof.Machine
end

