-- ==== Sys2Proof/Machine/EqDecode.lean ====
section
/-! DEFINITION. Decoding of EQ instruction words: the operand form of every opcode and the decode checks of R70 to R78 in the
order of R75. -/

namespace Sys2Proof.Machine

/-- The file an operand uses (Table 3.2, Table 4.1); `tile` is a handle or a port. -/
inductive OpKind where
  | none | scalar | pred | handle | inout | port | tile
  deriving DecidableEq, Repr

/-- The format codes that an instruction accepts (R76). -/
inductive FmtSet where
  /-- FMT is an unused field. -/
  | unused
  /-- Only 0x00. -/
  | zero
  | fp32 | fp32H
  /-- FP32, BF16, FP16; with HDR. -/
  | wide | wideH
  /-- Formats without scales; with HDR. -/
  | plain | plainH
  /-- Every packet format and HDR. -/
  | packetH
  /-- Every packet format but FP32. -/
  | narrow
  /-- What MMA accepts as an operand (R128). -/
  | mma
  deriving DecidableEq, Repr

/-- A row: opcode, operands O1 to O4, accepted formats, the bits of MOD and of IMM that the instruction uses. -/
structure OpRow where
  opc  : Nat
  ops  : List OpKind
  fmts : FmtSet
  mods : Nat
  imms : Nat
  deriving DecidableEq, Repr

/-- Codes that may stand in a packet (Table 3.4). -/
def isPacketFmt (f : Nat) : Bool :=
  (Nat.ble 1 f && Nat.ble f 4) || (Nat.ble 0x10 f && Nat.ble f 0x15) || (Nat.ble 0x20 f && Nat.ble f 0x24)
def isWideFmt (f : Nat) : Bool := Nat.ble 0x22 f && Nat.ble f 0x24
def isPlainFmt (f : Nat) : Bool := Nat.ble 0x20 f && Nat.ble f 0x24
def isTqFmt (f : Nat) : Bool := Nat.ble 1 f && Nat.ble f 4
def isMxFmt (f : Nat) : Bool := Nat.ble 0x10 f && Nat.ble f 0x15
/-- Codes marked Narrow in Table 3.4. -/
def isNarrowFmt (f : Nat) : Bool := isTqFmt f || f == 0x10
/-- MXFP8 codes, in which an escalated packet arrives. -/
def isMxfp8 (f : Nat) : Bool := f == 0x13 || f == 0x14
/-- Formats that may carry a spill area (Table 2.1). -/
def isSpillFmt (f : Nat) : Bool := f == 1 || f == 2 || f == 0x10

/-- Whether an instruction accepts a format code (R76). -/
def fmtAccepts : FmtSet → Nat → Bool
  | .unused, f => f == 0
  | .zero, f => f == 0
  | .fp32, f => f == 0x24
  | .fp32H, f => f == 0x24 || f == 0x7F
  | .wide, f => isWideFmt f
  | .wideH, f => isWideFmt f || f == 0x7F
  | .plain, f => isPlainFmt f
  | .plainH, f => isPlainFmt f || f == 0x7F
  | .packetH, f => isPacketFmt f || f == 0x7F
  | .narrow, f => isPacketFmt f && !(f == 0x24)
  | .mma, f => (isPacketFmt f && !(f == 0x24)) || f == 0x7F

/-- Unit 0, Table 3.6. -/
def eqRows0 : List OpRow := [
  ⟨0x01, [.scalar, .scalar, .scalar, .none], .unused, 0x0, 0x0⟩,
  ⟨0x02, [.scalar, .scalar, .scalar, .none], .unused, 0x0, 0x0⟩,
  ⟨0x03, [.scalar, .scalar, .scalar, .none], .unused, 0x0, 0x0⟩,
  ⟨0x04, [.scalar, .scalar, .scalar, .none], .unused, 0x0, 0x0⟩,
  ⟨0x05, [.scalar, .scalar, .scalar, .none], .unused, 0x0, 0x0⟩,
  ⟨0x06, [.scalar, .scalar, .scalar, .none], .unused, 0x0, 0x0⟩,
  ⟨0x07, [.scalar, .scalar, .scalar, .none], .unused, 0x0, 0x0⟩,
  ⟨0x08, [.scalar, .scalar, .scalar, .none], .unused, 0x0, 0x0⟩,
  ⟨0x09, [.scalar, .scalar, .scalar, .none], .unused, 0x0, 0x0⟩,
  ⟨0x0A, [.scalar, .scalar, .scalar, .none], .unused, 0x1, 0x0⟩,
  ⟨0x0B, [.scalar, .scalar, .scalar, .none], .unused, 0x1, 0x0⟩,
  ⟨0x0C, [.scalar, .none, .none, .none], .unused, 0x0, 0xFFFFFFFFFFFFFFF⟩,
  ⟨0x0D, [.scalar, .none, .none, .none], .unused, 0x0, 0xFFFFFFFF⟩,
  ⟨0x0E, [.scalar, .scalar, .none, .none], .unused, 0x0, 0xFFFFFFFFFFFFFFF⟩,
  ⟨0x10, [.scalar, .scalar, .none, .none], .unused, 0x0, 0xFFFFFF⟩,
  ⟨0x11, [.scalar, .scalar, .none, .none], .unused, 0x0, 0xFFFFFF⟩,
  ⟨0x18, [.pred, .scalar, .scalar, .none], .unused, 0x7, 0x0⟩,
  ⟨0x19, [.pred, .pred, .pred, .none], .unused, 0x3, 0x0⟩,
  ⟨0x20, [.handle, .scalar, .none, .none], .unused, 0x0, 0x1FF⟩,
  ⟨0x21, [.handle, .handle, .none, .none], .unused, 0x0, 0x0⟩,
  ⟨0x22, [.scalar, .handle, .none, .none], .unused, 0xF, 0x0⟩,
  ⟨0x28, [.port, .none, .none, .none], .unused, 0x0, 0xFFFFFFFFC000000⟩,
  ⟨0x29, [.port, .none, .none, .none], .unused, 0x0, 0x0⟩,
  ⟨0x2A, [.port, .none, .none, .none], .unused, 0x0, 0xFFF800000000000⟩,
  ⟨0x2B, [.scalar, .port, .none, .none], .unused, 0x0, 0x0⟩,
  ⟨0x30, [.none, .none, .none, .none], .unused, 0x0, 0xFFFFFFFF⟩,
  ⟨0x31, [.none, .scalar, .none, .none], .unused, 0x0, 0x0⟩,
  ⟨0x32, [.none, .scalar, .none, .none], .unused, 0x0, 0xFFFF⟩,
  ⟨0x33, [.none, .none, .none, .none], .unused, 0x0, 0xFFFFFFFF⟩,
  ⟨0x34, [.none, .none, .none, .none], .unused, 0x0, 0x0⟩,
  ⟨0x38, [.none, .none, .none, .none], .unused, 0x0, 0x3FFF⟩,
  ⟨0x39, [.none, .pred, .none, .none], .unused, 0x1, 0x0⟩,
  ⟨0x3A, [.none, .none, .none, .none], .unused, 0x3, 0x0⟩,
  ⟨0x3B, [.none, .port, .none, .none], .unused, 0x0, 0x1F⟩,
  ⟨0x3C, [.none, .none, .none, .none], .unused, 0x0, 0xFFFF⟩,
  ⟨0x3D, [.none, .none, .none, .none], .unused, 0x0, 0x0⟩,
  ⟨0x3E, [.none, .none, .none, .none], .unused, 0x0, 0x0⟩,
  ⟨0x3F, [.scalar, .none, .none, .none], .unused, 0x0, 0x0⟩]

/-- Unit 1, Table 4.4. -/
def eqRows1 : List OpRow := [
  ⟨0x01, [.tile, .tile, .none, .none], .mma, 0xF, 0x7F⟩,
  ⟨0x02, [.tile, .scalar, .none, .none], .wide, 0x3, 0x0⟩,
  ⟨0x03, [.tile, .none, .none, .none], .fp32H, 0x1, 0x0⟩,
  ⟨0x04, [.none, .none, .none, .none], .zero, 0x1, 0x0⟩]

/-- Unit 2, Tables 4.6 and 4.7. -/
def eqRows2 : List OpRow := [
  ⟨0x01, [.tile, .tile, .scalar, .scalar], .narrow, 0x7F, 0xF1FFF⟩,
  ⟨0x02, [.tile, .tile, .none, .none], .wide, 0x1, 0xF0000⟩,
  ⟨0x03, [.tile, .tile, .none, .none], .fp32, 0x3, 0xF0007⟩,
  ⟨0x04, [.tile, .none, .none, .none], .wideH, 0x0, 0xFFFF⟩]

/-- Unit 3, Table 4.8. -/
def eqRows3 : List OpRow := [
  ⟨0x01, [.tile, .tile, .tile, .tile], .wide, 0xFF, 0x7⟩,
  ⟨0x02, [.tile, .tile, .scalar, .none], .wide, 0xF, 0x0⟩,
  ⟨0x03, [.scalar, .none, .none, .none], .zero, 0x0, 0xFF⟩,
  ⟨0x04, [.tile, .scalar, .scalar, .none], .plain, 0x0, 0xFFFF⟩]

/-- Unit 4, Table 4.12. -/
def eqRows4 : List OpRow := [
  ⟨0x01, [.tile, .tile, .none, .none], .plainH, 0x0, 0x0⟩,
  ⟨0x02, [.tile, .inout, .none, .none], .packetH, 0x0, 0xFFFFFFFFFFF⟩,
  ⟨0x03, [.scalar, .tile, .scalar, .scalar], .plain, 0x0, 0x0⟩,
  ⟨0x04, [.tile, .scalar, .scalar, .none], .plainH, 0x0, 0x0⟩,
  ⟨0x05, [.scalar, .scalar, .scalar, .none], .zero, 0x0, 0x0⟩]

/-- Unit 5, Table 4.14. -/
def eqRows5 : List OpRow := [
  ⟨0x01, [.tile, .inout, .none, .none], .wideH, 0x3, 0xFFFF⟩,
  ⟨0x02, [.tile, .scalar, .none, .none], .wideH, 0x1, 0x0⟩]

/-- Unit 6, Table 4.15. -/
def eqRows6 : List OpRow := [
  ⟨0x01, [.scalar, .scalar, .scalar, .pred], .zero, 0x80, 0xFFFFFF⟩,
  ⟨0x02, [.scalar, .scalar, .scalar, .pred], .zero, 0x80, 0xFFFFFF⟩,
  ⟨0x03, [.tile, .scalar, .none, .pred], .packetH, 0x80, 0xFFFFFF⟩,
  ⟨0x04, [.tile, .scalar, .none, .pred], .packetH, 0x80, 0xFFFFFF⟩,
  ⟨0x05, [.tile, .port, .none, .none], .packetH, 0x0, 0x0⟩,
  ⟨0x06, [.none, .scalar, .scalar, .none], .zero, 0x0, 0x0⟩]

/-- Unit 7, Table 4.16. -/
def eqRows7 : List OpRow := [
  ⟨0x01, [.scalar, .scalar, .scalar, .scalar], .zero, 0x0, 0x3FF⟩,
  ⟨0x02, [.scalar, .scalar, .scalar, .scalar], .zero, 0x0, 0x3FFFFFFFFFFFF⟩,
  ⟨0x03, [.scalar, .scalar, .scalar, .none], .zero, 0x7, 0x0⟩]

/-- Unit 8, Tables 11.3 and 12.3. -/
def eqRows8 : List OpRow := [
  ⟨0x01, [.scalar, .scalar, .none, .pred], .unused, 0xA1, 0x3F⟩,
  ⟨0x02, [.scalar, .scalar, .none, .pred], .unused, 0xA1, 0x3F⟩,
  ⟨0x03, [.scalar, .scalar, .scalar, .pred], .unused, 0xAF, 0x3F⟩,
  ⟨0x04, [.scalar, .scalar, .scalar, .pred], .unused, 0xA0, 0xFFFFFF⟩,
  ⟨0x05, [.scalar, .scalar, .scalar, .pred], .unused, 0xA0, 0xFFFFFF⟩,
  ⟨0x08, [.none, .scalar, .none, .pred], .unused, 0x83, 0x3F⟩,
  ⟨0x80, [.none, .none, .none, .pred], .unused, 0x80, 0x3FFFFF⟩,
  ⟨0x81, [.scalar, .none, .none, .pred], .unused, 0x9F, 0x3FFFFFF⟩,
  ⟨0x82, [.scalar, .scalar, .scalar, .pred], .unused, 0x87, 0x3FFFFF⟩,
  ⟨0x83, [.scalar, .scalar, .scalar, .pred], .unused, 0x87, 0x3FFFFF⟩,
  ⟨0x84, [.scalar, .scalar, .scalar, .pred], .unused, 0x80, 0x3FFFFF⟩,
  ⟨0x85, [.scalar, .scalar, .scalar, .pred], .unused, 0x80, 0x3FFFFFFFFF⟩]

/-- Unit 9, Tables 7.2, 6.5 and 16.4. -/
def eqRows9 : List OpRow := [
  ⟨0x01, [.scalar, .scalar, .scalar, .none], .unused, 0xBF, 0x0⟩,
  ⟨0x02, [.none, .scalar, .scalar, .none], .unused, 0x0, 0x0⟩,
  ⟨0x03, [.none, .scalar, .scalar, .none], .unused, 0x1, 0x0⟩,
  ⟨0x04, [.none, .scalar, .scalar, .none], .unused, 0x1, 0x0⟩,
  ⟨0x05, [.scalar, .scalar, .none, .none], .unused, 0x0, 0x0⟩,
  ⟨0x08, [.scalar, .none, .none, .none], .unused, 0x81, 0x1FF⟩,
  ⟨0x09, [.none, .scalar, .none, .none], .unused, 0x0, 0x1FF⟩,
  ⟨0x40, [.none, .scalar, .none, .none], .unused, 0x0, 0xF⟩,
  ⟨0x41, [.none, .scalar, .scalar, .none], .unused, 0x1, 0x0⟩,
  ⟨0x42, [.none, .scalar, .scalar, .none], .unused, 0x0, 0x0⟩,
  ⟨0x43, [.none, .none, .none, .none], .unused, 0x0, 0x0⟩,
  ⟨0x60, [.none, .scalar, .scalar, .pred], .unused, 0x80, 0x3F⟩,
  ⟨0x61, [.none, .scalar, .none, .none], .unused, 0x7, 0xFFF⟩]

/-- The rows of a unit. -/
def eqRows : Nat → List OpRow
  | 0 => eqRows0 | 1 => eqRows1 | 2 => eqRows2 | 3 => eqRows3 | 4 => eqRows4 | 5 => eqRows5 | 6 => eqRows6
  | 7 => eqRows7 | 8 => eqRows8 | 9 => eqRows9 | _ => []

/-- The row of a unit and an opcode; none where the spec leaves the opcode undefined (R71). -/
def opRow (unit opc : Nat) : Option OpRow := (eqRows unit).find? fun r => r.opc == opc

/-- The count of a bench's stations of a unit (Table 1.3). -/
def unitCount : Nat → Nat
  | 1 => 4 | 2 => 2 | 3 => 2 | 4 => 1 | 5 => 1 | 6 => 2 | 7 => 1 | _ => 1

/-- The station ordinal of a unit and an index (Table 1.5). -/
def ordinalOf : Nat → Nat → Nat
  | 1, i => i | 2, i => 4 + i | 3, i => 6 + i | 4, _ => 8 | 5, _ => 9 | 6, i => 10 + i | _, _ => 12

/-- The kinds of the operands of a word; a VSEQ operand of direction 0 is unused (R143). -/
def wordKinds (r : OpRow) (w : W128) : List OpKind :=
  bif wUnit w == 3 && wOpc w == 1 then
    (List.range 4).map fun k => bif wModBits w (2 * k + 1) (2 * k) == 0 then .none else .tile
  else r.ops

/-- Fields that must be zero under the value of another field, and reserved values (R70). -/
def reservedField (w : W128) : Bool :=
  let m := wMod w
  match wUnit w, wOpc w with
  | 0, 0x18 => Nat.ble 6 (bits m 2 0)
  | 0, 0x28 => !(bit (wImm w) 31) && !(wImmBits w 30 26 == 0)
  | 0, 0x2A => !(wImmBits w 53 52 == 3) && !(wImmBits w 51 47 == 0)
  | 0, 0x3A => bits m 1 0 == 3
  | 2, 0x01 =>
    (!(bit m 1) && !(wImmBits w 2 0 == 0)) || (!(bit m 3) && !(wImmBits w 12 3 == 0))
      || (!(bit m 0) && !(bit m 1) && !(wImmBits w 19 16 == 0))
  | 2, 0x02 => !(bit m 0) && !(wImmBits w 19 16 == 0)
  | 5, 0x01 => bits m 1 0 == 3
  | 7, 0x03 => Nat.ble 2 (bits m 1 0)
  | 8, 0x03 => bits m 3 0 == 15
  | 8, 0x08 => bits m 1 0 == 3
  | 9, 0x01 => bits m 1 0 == 3
  | _, _ => false

/-- Whether a specifier names the file and a register of its operand (R73, R117). -/
def specOk (k : OpKind) (sp : Nat) : Bool :=
  let f := sp / 64
  let i := sp % 64
  match k with
  | .none => true
  | .scalar => f == 0
  | .pred => f == 1 && Nat.blt i 16
  | .handle => f == 2 && Nat.blt i 32
  | .inout => f == 2 && Nat.blt i 32
  | .port => f == 3 && Nat.blt i 16
  | .tile => (f == 2 && Nat.blt i 32) || (f == 3 && Nat.blt i 16)

/-- The operands of a word with their kinds, O1 first. -/
def wordOps (r : OpRow) (w : W128) : List (OpKind × Nat) :=
  (wordKinds r w).zip [wOperand w 1, wOperand w 2, wOperand w 3, wOperand w 4]

/-- Unused fields that are not zero and reserved values (R70, R72, R76). -/
def resvFails (r : OpRow) (w : W128) : Bool :=
  ((wUnit w == 0 || Nat.ble 8 (wUnit w)) && !(wIdx w == 0))
    || (r.fmts == .unused && !(wFmt w == 0))
    || !(Nat.land (wMod w) r.mods == wMod w) || !(Nat.land (wImm w) r.imms == wImm w)
    || (wordOps r w).any (fun o => o.1 == .none && !(o.2 == 0))
    || reservedField w

/-- The decode checks of a word, in the order of R75; 0x0000 when it passes. -/
def decodeChecks (w : W128) : Status :=
  match opRow (wUnit w) (wOpc w) with
  | none => 0x0101
  | some r =>
    bif Nat.ble (unitCount (wUnit w)) (wIdx w) && Nat.ble 1 (wUnit w) && Nat.ble (wUnit w) 7 then 0x0105
    else bif resvFails r w then 0x0102
    else bif (wordOps r w).any fun o => !(specOk o.1 o.2) then 0x0103
    else bif !(fmtAccepts r.fmts (wFmt w)) then 0x0104
    else bif wUnit w == 1 && wOpc w == 1 && !(fmtAccepts .mma (wImmBits w 6 0)) then 0x0104
    else 0

/-! ## How operands are used -/

/-- Operands read as tile sources, written as destinations, and in-out (Table 4.1), by operand number. -/
def tileUse (w : W128) : List Nat × List Nat × List Nat :=
  match wUnit w, wOpc w with
  | 1, 1 => ([1, 2], [], [])
  | 1, 2 => ([], [1], [])
  | 1, 3 => ([1], [], [])
  | 2, 4 => ([1], [], [])
  | 2, _ => ([1], [2], [])
  | 3, 1 =>
    let dir := fun d => (List.range 4).filterMap fun k => bif wModBits w (2 * k + 1) (2 * k) == d then some (k + 1) else none
    (dir 1, dir 2, dir 3)
  | 3, 2 => ([1], [2], [])
  | 3, 4 => ([], [1], [])
  | 4, 1 => ([1], [2], [])
  | 4, 2 => ([1], [], [2])
  | 4, 3 => ([], [2], [])
  | 4, 4 => ([1], [], [])
  | 5, 1 => ([1], [], [2])
  | 5, 2 => ([1], [], [])
  | 6, 3 => ([], [1], [])
  | 6, 4 => ([1], [], [])
  | 6, 5 => ([1], [2], [])
  | _, _ => ([], [], [])

/-- The operand that holds a packet identity scalar (R121). -/
def sidOperand (w : W128) : Option Nat :=
  match wUnit w, wOpc w with
  | 1, 2 => some 2
  | 2, 1 => some 3
  | 3, 2 => some 3
  | 3, 4 => some 3
  | 4, 3 => some 4
  | _, _ => none

/-- The completion predicate that a word names (R103, R364), when it has one. -/
def completionPred (w : W128) : Option Nat :=
  match opRow (wUnit w) (wOpc w) with
  | none => none
  | some r => bif Nat.ble 6 (wUnit w) && r.ops[3]? == some .pred then some (wIndex w 4 % 16) else none

/-- Counts and lengths of zero (R99), from the word and the scalars of O1 to O4. -/
def countZero (w : W128) (v : Nat → Nat) : Bool :=
  let i := fun h l => wImmBits w h l == 0
  match wUnit w, wOpc w with
  | 0, 0x20 => i 8 0
  | 0, 0x28 => i 53 49
  | 0, 0x32 => v 2 == 0 || i 15 0
  | 0, 0x3B => i 4 0
  | 3, 0x03 => i 7 3
  | 3, 0x04 => i 7 0 || i 15 8
  | 4, 0x02 => i 21 14 || i 29 22
  | 4, 0x03 => v 3 == 0
  | 4, 0x04 => v 3 == 0
  | 4, 0x05 => v 3 == 0
  | 5, 0x01 => i 15 0
  | 6, 0x01 => v 3 == 0
  | 6, 0x02 => v 3 == 0
  | 6, 0x06 => v 3 == 0
  | 7, 0x01 => i 5 0 || i 9 6 || v 3 == 0
  | 7, 0x02 => i 5 0 || i 9 6 || v 3 == 0 || i 49 10
  | 7, 0x03 => v 2 == 0
  | 8, 0x04 => v 3 == 0
  | 8, 0x05 => v 3 == 0
  | 8, 0x81 => i 25 22
  | 8, 0x82 => v 3 == 0
  | 8, 0x83 => v 3 == 0
  | 8, 0x84 => v 3 == 0
  | 8, 0x85 => v 3 == 0
  | 9, 0x01 => v 3 == 0
  | 9, 0x02 => v 3 == 0
  | 9, 0x03 => v 3 == 0
  | 9, 0x04 => v 3 == 0
  | 9, 0x08 => i 8 0
  | 9, 0x09 => i 8 0
  | 9, 0x41 => v 3 == 0
  | 9, 0x42 => v 3 == 0
  | 9, 0x60 => v 3 == 0
  | _, _ => false

/-- Whether a length of zero still writes a completion record and sets the completion predicate (R99, R105). -/
def splitCapable (w : W128) : Bool :=
  (wUnit w == 6 && (wOpc w == 1 || wOpc w == 2)) || (wUnit w == 8 && (wOpc w == 4 || wOpc w == 5))

end Sys2Proof.Machine
end

