-- ==== Sys2Proof/Machine/LineErrors.lean ====
section
/-! DEFINITION. Errors of memory lines: what a read counts, raises and leaves (R269, R273, R287). -/

namespace Sys2Proof.Machine

/-! ## Error counts (R273) -/

/-- MEM_LASTERR takes the last error's pseudo-channel and kind. -/
def lastErr (pc kind : Nat) (s : State) : State := setRaw .memLasterr (pc / 64) 0 (pc % 64 * 2 ^ 26 + kind * 2 ^ 24) s

/-- Per pseudo-channel: the second and its corrected count, and when the uncorrectable errors of the last hour came. -/
def pcCounts (s : State) (pc : Nat) : Nat × Nat × List Time := tget s.pcErrs pc (0, 0, [])

/-- A corrected access: counted, an Info event, and one Warning when the second's count passes CETHR. -/
def corrected (pc : Nat) (s : State) : State :=
  let c := pcCounts s pc
  let sec := s.time / 1000000000
  let n := (bif c.1 == sec then c.2.1 else 0) + 1
  let s := { s with pcErrs := tset s.pcErrs pc (sec, n, c.2.2) }
  let s := raise 0xC001 3 none (unitId 7 pc) 0 (lastErr pc 1 (bump .memCecnt (pc / 64) 0 1 s))
  bif n == fld s .memEccctl (pc / 64) 0 15 0 + 1 then raise 0xC002 2 none (unitId 7 pc) 0 s else s

/-- An uncorrectable error found at an HBM line: counted, an Error event, and the pseudo-channel fenced when it has recorded UETHR
within one hour (0 never). -/
def countBad (pc : Nat) (s : State) : State :=
  let c := pcCounts s pc
  let times := (c.2.2.filter fun t => Nat.blt s.time (t + 3600000000000)) ++ [s.time]
  let thr := fld s .memEccctl (pc / 64) 0 23 16
  let s := { s with pcErrs := tset s.pcErrs pc (c.1, c.2.1, times) }
  let s := raise 0x0581 1 none (unitId 7 pc) 0 (lastErr pc 2 (bump .memUecnt (pc / 64) 0 1 s))
  bif !(thr == 0) && Nat.ble thr times.length then fenceCause 7 pc 0x030C s else s

/-- An uncorrectable access: the line is written back poisoned and the error counted (R269, R273). -/
def uncorrectable (line pc : Nat) (s : State) : State := countBad pc (poisonLine line s)

/-- A read of a line poisoned earlier: 0x0582. -/
def poisonRead (pc : Nat) (s : State) : State := raise 0x0582 1 none (unitId 7 pc) 0 (lastErr pc 3 s)

/-! ## What a read of a line leaves -/

/-- A line of a Stratus module whose codeword shows errors: the module reports them, and the part counts them (R287, Table 8.7). -/
def moduleReport (pa : Nat) (err : List (Nat × BitVec 16)) (s : State) : State :=
  let m := moduleOf (pa / 2 ^ 21)
  match rsDecode err with
  | none => raise 0x0581 1 none (unitId 8 m) 0 (bump .t2mUecnt m 0 1 s)
  | some [] => s
  | some _ => bump .t2mCecnt m 0 1 s

/-- What a read of the line at `pa`, whose codeword shows `err`, leaves behind: a poisoned line, a corrected or an uncorrectable error
counted (R269, R273, R287). -/
def lineShows (pa : Nat) (err : List (Nat × BitVec 16)) (s : State) : State :=
  let pc := pcOf pa
  bif lineFenced s pa then s
  else bif poisoned s (pa / 64) then
    bif isHbm (pa / 2 ^ 21) then poisonRead pc s else raise 0x0582 1 none (unitId 8 (moduleOf (pa / 2 ^ 21))) 0 s
  else bif !(isHbm (pa / 2 ^ 21)) then moduleReport pa err s
  else
    match rsDecode err with
    | none => uncorrectable (pa / 64) pc s
    | some [] => s
    | some _ => corrected pc s

/-- What a read of a line leaves behind. -/
def lineSeen (pa : Nat) (s : State) : State := lineShows pa (flawOf s (pa / 64)) s

/-- What a read of `n` bytes at `pa` leaves behind, up to its first line that gives no data. -/
def linesSeen (pa n : Nat) (s : State) : State :=
  ((linesOf pa n).foldl (fun (a : Bool × State) l =>
    bif a.1 then a else (!(lineRead a.2 (l * 64) == .ok), lineSeen (l * 64) a.2)) (false, s)).2

/-- What a move of `n` bytes from `pa` leaves behind: the errors that their lines show (R273, R287); poisoned lines travel (R270). -/
def flawsSeen (pa n : Nat) (s : State) : State :=
  (s.flaws.filter fun f => Nat.ble pa (f.1 * 64) && Nat.blt (f.1 * 64) (pa + n)).foldl (fun s f =>
    bif poisoned s f.1 then s else lineSeen (f.1 * 64) s) s

/-- What `spaceRead` of the same range leaves behind. -/
def spaceSeen (p va n : Nat) (s : State) : State :=
  ((piecesOf va n).foldl (fun (a : Bool × State) pc =>
    bif a.1 then a
    else
      match pageAccess a.2 p pc.1 false with
      | .error _ => (true, a.2)
      | .ok l => (!(linesRead a.2 (paOf l pc.1) pc.2 == .ok), linesSeen (paOf l pc.1) pc.2 a.2)) (false, s)).2

end Sys2Proof.Machine
end

