-- ==== Sys2Proof/Machine/Paging.lean ====
section
/-! DEFINITION. Allocation and paging: the instructions of Table 7.2, walks (R239), Drift (R241 to R247), scrubbing (R228)
and the bandwidth tokens (R251). -/

namespace Sys2Proof.Machine

/-- A byte of bench store of bench `b`; one not written since its granule was granted is a free value (R224), and stays the same one
when the granule is restored on another bench (R66). -/
def storeByte (b : Nat) (x : Bench) (a : Nat) : Byte :=
  match tget? x.store a, tget? x.origin (a / 65536) with
  | some v, _ => v
  | none, some o => Config.staleByte o.1 o.2 a
  | none, none => Config.staleByte b (granGen x (a / 65536)) a

/-- `n` bytes of bench store of bench `b`, whose contents are `x`. -/
def storeBytes (b : Nat) (x : Bench) (a : Nat) : Nat → List Byte
  | 0 => []
  | n + 1 => storeByte b x a :: storeBytes b x (a + 1) n

/-- `n` bytes of bench store of bench `b`. -/
def storeRead (s : State) (b a n : Nat) : List Byte := storeBytes b (bench s b) a n

/-! ## Which pages are in use (R235) -/

/-- The pages of the partition's Assay table, while ASYEN is 1: 65,536 records of 128 bytes from NUM_ASYBASE (R204). -/
def assayPage (s : State) (p vpn : Nat) : Bool :=
  let base := (raw s .numAsybaseLo p 0 + 2 ^ 32 * raw s .numAsybaseHi p 0) / 2 ^ 21
  flag s .numCtl p 0 0 && Nat.ble base vpn && Nat.blt vpn (base + 4)

/-- The pages of an intake list: a 64-byte header and its records (R432). -/
def listPage (l : IntakeList) (vpn : Nat) : Bool :=
  Nat.ble (l.base / 2 ^ 21) vpn && Nat.ble vpn ((l.base + 64 * (l.entries + 1) - 1) / 2 ^ 21)

/-- A page that must stay mapped and pinned (R235). -/
def pageInUse (s : State) (p vpn : Nat) : Bool :=
  assayPage s p vpn ||
  s.sessions.any fun q => q.2.part == p && !(q.2.state == .closed) && q.2.lists.any fun l => Nat.blt l.1 8 && listPage l.2 vpn

/-! ## The page instructions -/

/-- The pages of a range. -/
def pageRange (va count : Nat) : List Nat := (List.range count).map (· + va / 2 ^ 21)

/-- The first range check of R230: alignment, and the end of the 48-bit space. -/
def rangeBad (va count : Nat) : Bool := !(va % 2 ^ 21 == 0) || Nat.blt (2 ^ 48) (va + count * 2 ^ 21)

/-- Whether every page of a range is mapped. -/
def allMapped (s : State) (p : Nat) (vs : List Nat) : Bool := vs.all fun v => (leaf? s p v).isSome

/-- The attributes a PALLOC gives its pages. -/
structure PageAttr where
  wr  : Bool
  psc : Bool
  t2d : Bool
  pin : Bool
  prog : Nat
  owner : Option Nat
  deriving DecidableEq, Repr

/-- The leaf of a new page. -/
def newLeaf (a : PageAttr) (hbm : Bool) (frame : Nat) : Leaf :=
  { res := bif hbm then 0 else 1, wr := a.wr, pin := a.pin && hbm, psc := a.psc, t2d := a.t2d, fen := false,
    prog := bif a.psc then a.prog else 0, frame := frame, heat := 0, owner := a.owner }

/-- What placing pages comes to. -/
inductive Placing where
  | placed (s : State)
  /-- Every free frame of the tier still waits for scrubbing (R228). -/
  | wait
  /-- No free frame is left after this many pages (R277). -/
  | short (n : Nat) (s : State)

/-- Pages placed one after the other, the first `h` in HBM and the rest in tier 2 (R231, R266). -/
def placePages (a : PageAttr) (p : Nat) : List Nat → Nat → Nat → State → Placing
  | [], _, _, s => .placed s
  | v :: vs, h, n, s =>
    match h with
    | h' + 1 =>
      match nextHbm s p with
      | some (g, f) => placePages a p vs h' (n + 1) (setLeaf p v (newLeaf a true f) (buildTables p v (takeHbm p f g s)))
      | none => bif scrubWaiting s true then .wait else .short n s
    | 0 =>
      match nextTier2 s with
      | some f => placePages a p vs 0 (n + 1) (setLeaf p v (newLeaf a false f) (buildTables p v (useFrame f s)))
      | none => bif scrubWaiting s false then .wait else .short n s

/-- How many pages of a request each tier takes, or the status that refuses it (R231, R232): HBM pages, tier-2 pages. -/
def splitTiers (s : State) (p tier count : Nat) (pin soft : Bool) : Except Status (Nat × Nat) :=
  let hq := hbmQuota s p - hbmUse s p
  let tq := t2Quota s p - t2Use s p
  let pq := pinLimit s p - pinnedPages s p
  match tier with
  | 0 =>
    bif soft then .ok (Nat.min count (bif pin then Nat.min hq pq else hq), 0)
    else bif Nat.blt hq count then .error 0x0504
    else bif pin && Nat.blt pq count then .error 0x0506
    else .ok (count, 0)
  | 1 =>
    bif !((List.range 4).any (modulePresent s)) then .error 0x0507
    else bif soft then .ok (0, Nat.min count tq)
    else bif Nat.blt tq count then .error 0x0504 else .ok (0, count)
  | _ =>
    let h := Nat.min count (bif pin then Nat.min hq pq else hq)
    bif Nat.ble (count - h) tq then .ok (h, count - h)
    else bif soft then .ok (h, tq) else .error 0x0504

/-- PALLOC (R230 to R232): maps and allocates the pages of a range, or has no effect. -/
def pallocEntry (b : Nat) (e : Entry) (s : State) : State :=
  let w := e.word
  let p := benchPart s b
  let va := (eVal e 2).toNat
  let count := (eVal e 3).toNat
  let tier := wModBits w 1 0
  let pin := bit (wMod w) 5
  let soft := wSoft w
  let n := match (bench s b).prog with | some n => n | none => 0
  let a : PageAttr := { wr := bit (wMod w) 2, psc := bit (wMod w) 3, t2d := bit (wMod w) 4, pin := pin, prog := n,
                        owner := match tget? s.progs n with | some x => x.sess | none => none }
  bif pin && (tier == 1 || a.t2d) then sysFault b e 0x0184 s
  else bif rangeBad va count then sysFault b e 0x0284 s
  else bif (pageRange va count).any (fun v => (leaf? s p v).isSome) then sysFault b e 0x0505 s
  else bif (pageRange va count).any (fun v => thas (partition s p).going v) then s
  else
    match splitTiers s p tier count pin soft with
    | .error st => sysFault b e st s
    | .ok (h, t) =>
      match placePages a p (pageRange va (h + t)) h 0 s with
      | .wait => s
      | .placed s' => sysResult b e (BitVec.ofNat 64 (h + t)) s'
      | .short k s' => bif soft then sysResult b e (BitVec.ofNat 64 k) s' else sysFault b e 0x0504 s

/-- A command that comes at `t` and acts on the taken system-queue entry of unit and opcode, or is no event. -/
def onSys (b unit opc : Nat) (f : Entry → State → State) (s : State) : State :=
  match sysEntry s b unit opc with
  | some e => f e s
  | none => s

def execPalloc (b : BenchId) (t : Time) (s : State) : Host.Outcome State Fault Refusal :=
  .next (onSys b.val 9 0x01 (pallocEntry b.val) (atTime t s))

/-- Whether a segment already translated lies in a page of a partition (R233). -/
def pageBusy (s : State) (p vpn : Nat) : Bool :=
  s.reqs.any fun r => r.2.part == p && r.2.rank.isNone && r.2.segs.any fun g => g.state == .moving && g.va / 2 ^ 21 == vpn

/-- A page unmapped: the entry leaves every TLB, a move of it is aborted, what waits for it fails with 0x0501, and its frame goes to
scrubbing, once the segments already translated have ended (R233, R240). -/
def unmapPage (p vpn : Nat) (s : State) : State :=
  match leaf? s p vpn with
  | none => s
  | some _ =>
  let s := failWaiting p vpn 0x0501 (abortMove p vpn (dropTlb p vpn s))
  match leaf? s p vpn with
  | none => s
  | some l =>
    bif pageBusy s p vpn then modPartition p (fun x => { x with leaves := terase x.leaves vpn, going := tset x.going vpn l }) s
    else releaseFrame l.frame (modPartition p (fun x => { x with leaves := terase x.leaves vpn }) s)

/-- The frames of unmapped pages whose translated segments have all ended go to scrubbing. -/
def reapPages (p : Nat) (s : State) : State :=
  (partition s p).going.foldl (fun s l =>
    bif pageBusy s p l.1 then s
    else releaseFrame l.2.frame (modPartition p (fun x => { x with going := terase x.going l.1 }) s)) s

/-- PFREE of a page in RDMA regions revokes access to that page alone (R430). -/
def revokeIn (v : Nat) (r : Region) : Region :=
  bif Nat.ble (r.base / 2 ^ 21) v && Nat.blt (v * 2 ^ 21) (r.base + r.len) then { r with revoked := v :: r.revoked } else r
def revokePage (p v : Nat) (s : State) : State :=
  { s with sessions := s.sessions.map fun q => bif q.2.part == p then (q.1, { q.2 with regions := q.2.regions.map (revokeIn v) }) else q }

/-- PFREE (R230, R233, R235). It unmaps the range, waits for segments already translated, and retires when the frames have left the
partition's use counts. -/
def pfreeEntry (b : Nat) (e : Entry) (s : State) : State :=
  let p := benchPart s b
  let va := (eVal e 2).toNat
  let count := (eVal e 3).toNat
  let vs := pageRange va count
  let left := fun (s : State) => vs.any fun v => thas (partition s p).going v
  bif e.phase == .started then
    let s := reapPages p s
    bif left s then s else sysRetire b s
  else bif rangeBad va count then sysFault b e 0x0284 s
  else bif !(allMapped s p vs) then sysFault b e 0x0501 s
  else bif vs.any (pageInUse s p) then sysFault b e 0x0508 s
  else
    let s := vs.foldl (fun s v => revokePage p v (unmapPage p v s)) s
    bif left s then modBench b (fun x => { x with taken := some { e with phase := .started } }) s else sysRetire b s

def execPfree (b : BenchId) (s : State) : Host.Outcome State Fault Refusal :=
  .next (onSys b.val 9 0x02 (pfreeEntry b.val) s)

/-! ## Drift -/

/-- A move of a page to an HBM frame begins: RES 2 (R241, Table 7.5). -/
def beginIn (p vpn : Nat) (l : Leaf) (f g : Nat) (pinAfter : Bool) (s : State) : State :=
  modPartition p (fun x => { x with
    moves := tset x.moves vpn { toHbm := true, target := f, frags := [], pinAfter := pinAfter }
    leaves := tset x.leaves vpn { l with res := 2 } }) (takeHbm p f g (dropTlb p vpn s))

/-- The HBM-resident page with the lowest HEAT that Drift may demote, ties to the lowest address (R243, R241). -/
def coldest (s : State) (p : Nat) : Option (Nat × Leaf) :=
  ((partition s p).leaves.filter fun l => l.2.res == 0 && !l.2.pin && !l.2.t2d && !l.2.fen).foldl (fun r l =>
    match r with
    | none => some l
    | some m => bif Nat.blt l.2.heat m.2.heat then some l else some m) none

/-- A demotion of the coldest page begins: RES 3 (R243). It needs a tier-2 frame within the quota. -/
def beginDemote (p : Nat) (s : State) : Option State :=
  match coldest s p, nextTier2 s with
  | some (v, l), some f =>
    bif Nat.blt (t2Use s p) (t2Quota s p) then
      some (modPartition p (fun x => { x with
        moves := tset x.moves v { toHbm := false, target := f, frags := [], pinAfter := false }
        leaves := tset x.leaves v { l with res := 3 } }) (useFrame f (dropTlb p v s)))
    else none
  | _, _ => none

/-- Whether the partition has a free HBM frame within its quota. -/
def hbmRoom (s : State) (p : Nat) : Option (Nat × Nat) :=
  bif Nat.blt (hbmUse s p) (hbmQuota s p) then nextHbm s p else none

/-- PPIN of one page that is in HBM. -/
def pinPage (p v : Nat) (on : Bool) (s : State) : State :=
  match leaf? s p v with
  | some l => setLeaf p v { l with pin := on } (dropTlb p v s)
  | none => s

/-- PPIN (R234, R235): unpins, or pins. Tier-2 pages are promoted first; the instruction stays until they are resident. -/
def ppinEntry (b : Nat) (e : Entry) (s : State) : State :=
  let p := benchPart s b
  let va := (eVal e 2).toNat
  let count := (eVal e 3).toNat
  let vs := pageRange va count
  let unpin := bit (wMod e.word) 0
  bif rangeBad va count then sysFault b e 0x0284 s
  else bif !(allMapped s p vs) then sysFault b e 0x0501 s
  else bif unpin then
    bif vs.any (pageInUse s p) then sysFault b e 0x0508 s
    else sysRetire b (vs.foldl (fun s v => pinPage p v false s) s)
  else
    let fresh := vs.filter fun v => match leaf? s p v with | some l => !l.pin | none => false
    bif vs.any (fun v => match leaf? s p v with | some l => l.t2d | none => false) then sysFault b e 0x0184 s
    else bif Nat.blt (pinLimit s p) (pinnedPages s p + fresh.length) then sysFault b e 0x0506 s
    else
      let away := vs.filter fun v => match leaf? s p v with | some l => !(l.res == 0) | none => false
      match away with
      | [] => sysRetire b (vs.foldl (fun s v => pinPage p v true s) s)
      | _ =>
        -- a promotion is asked of Drift for each page of the range that is in tier 2
        modPartition p (fun x => { x with demand := away.foldl (fun d v => bif d.contains v then d else d ++ [v]) x.demand }) s

def execPpin (b : BenchId) (t : Time) (s : State) : Host.Outcome State Fault Refusal :=
  .next (onSys b.val 9 0x03 (ppinEntry b.val) (atTime t s))

/-- PPROT: WR of every page of the range is MOD[0] (R230, Table 7.2). -/
def pprotEntry (b : Nat) (e : Entry) (s : State) : State :=
  let p := benchPart s b
  let va := (eVal e 2).toNat
  let count := (eVal e 3).toNat
  let vs := pageRange va count
  bif rangeBad va count then sysFault b e 0x0284 s
  else bif !(allMapped s p vs) then sysFault b e 0x0501 s
  else sysRetire b (vs.foldl (fun s v => match leaf? s p v with
    | some l => setLeaf p v { l with wr := bit (wMod e.word) 0 } (dropTlb p v s)
    | none => s) s)

def execPprot (b : BenchId) (s : State) : Host.Outcome State Fault Refusal :=
  .next (onSys b.val 9 0x04 (pprotEntry b.val) s)

/-- PQUERY: the leaf entry with FRAME zero, or zero for a page that is not mapped (R238). -/
def pqueryEntry (b : Nat) (e : Entry) (s : State) : State :=
  let va := (eVal e 2).toNat
  sysResult b e (match leaf? s (benchPart s b) (va / 2 ^ 21) with
    | some l => BitVec.ofNat 64 (leafWord l 0)
    | none => 0) s

def execPquery (b : BenchId) (s : State) : Host.Outcome State Fault Refusal :=
  .next (onSys b.val 9 0x05 (pqueryEntry b.val) s)

/-! ## Granules -/

/-- GALLOC (R222, R223): the lowest run of the half that is long enough. -/
def gallocEntry (b : Nat) (e : Entry) (s : State) : State :=
  let n := wImmBits e.word 8 0
  let far := bit (wMod e.word) 0
  bif Nat.blt 192 n then sysFault b e 0x0201 s
  else
    match freeRun (bench s b) far n with
    | some g => sysResult b e (BitVec.ofNat 64 (g * 65536))
        (modBench b (fun x => (List.range n).foldl (fun x k => grant (g + k) .alloc x) x) s)
    | none => bif wSoft e.word then sysResult b e 0 s else sysFault b e 0x0281 s

def execGalloc (b : BenchId) (s : State) : Host.Outcome State Fault Refusal :=
  .next (onSys b.val 9 0x08 (gallocEntry b.val) s)

/-- Whether every station queue of a bench holds only entries issued after entry `eid`. -/
def earlierRetired (x : Bench) (eid : Nat) : Bool :=
  x.queues.all fun q => q.2.all fun e => Nat.blt eid e.eid

/-- GFREE (R224): the run returns to the free pool once the instructions issued before it have retired; until then the
command is no event. -/
def gfreeEntry (b : Nat) (e : Entry) (s : State) : State :=
  let x := bench s b
  let a := (eVal e 2).toNat
  let n := wImmBits e.word 8 0
  let run := (List.range n).map (· + a / 65536)
  bif Nat.blt 192 n then sysFault b e 0x0201 s
  else bif !(a % 65536 == 0) || !(run.all fun g => tget? x.grans g == some .alloc) then sysFault b e 0x0206 s
  else bif !(earlierRetired x e.eid) then s
  else sysRetire b (modBench b (fun x => run.foldl (fun x g => ungrant g x) x) s)

def execGfree (b : BenchId) (s : State) : Host.Outcome State Fault Refusal :=
  .next (onSys b.val 9 0x09 (gfreeEntry b.val) s)

/-! ## Segments and walks -/

/-- A newest-first list of at most `n` names with `v` at its front. -/
def touchLru (n v : Nat) (l : List Nat) : List Nat := (v :: l.filter (· != v)).take n

/-- The 64 KiB fragments of a page that a segment touches. -/
def fragsOf (g : Seg) : List Nat :=
  (List.range 32).filter fun k =>
    Nat.blt (g.va % 2 ^ 21) ((k + 1) * 65536) && Nat.blt (k * 65536) (g.va % 2 ^ 21 + g.len)

/-- Whether every fragment that a segment touches has already arrived in a move to HBM (R245). -/
def fragsHere (s : State) (p v : Nat) (g : Seg) : Bool :=
  match tget? (partition s p).moves v with
  | some m => m.toHbm && (fragsOf g).all fun k => m.frags.contains k
  | none => false

/-- A segment has its leaf entry: what the touch does (R157, R242 to R246). A page in tier 2 that is not T2D waits for Drift;
an unmapped page fails with 0x0501, a page without WR with 0x0502 on a write, a page of a fenced module with 0x0301. -/
def touchSegment (req seg : Nat) (r : Req) (g : Seg) (s : State) : State :=
  let p := r.part
  let v := g.va / 2 ^ 21
  -- a segment refused before a byte moves leaves its destination untouched (Example 3.2)
  let refuse := fun st => modSeg req seg (fun g => { g with state := .refused, status := st }) s
  match leaf? s p v with
  | none => refuse 0x0501
  | some l =>
    let s := heatPage p v s
    bif r.write && !l.wr then refuse 0x0502
    else bif r.write && l.fen then refuse 0x0301
    else bif l.res == 1 && l.fen then refuse 0x0301
    else bif (l.res == 1 && !l.t2d) || (l.res == 2 && (r.write || !(fragsHere s p v g))) then
      bump .pgeStall p 0 1 (modSeg req seg (fun g => { g with state := .waiting, since := s.time })
        (bif l.res == 1 then modPartition p (fun x => { x with
           demand := bif x.demand.contains v then x.demand else x.demand ++ [v] }) s else s))
    else modSeg req seg (fun g => { g with state := .moving }) s

/-- PAGE_WALK: the walk of a segment whose TLB lookup missed ends; the leaf enters the Sprue's TLB (256 entries) and the
non-leaf entry the hub's walk cache (64 entries), and the segment goes on (R239). -/
def pageWalk (req seg : Nat) (s : State) : State :=
  match tget? s.reqs req with
  | none => s
  | some r =>
    match r.segs[seg]? with
    | none => s
    | some g =>
      bif g.state == .walking then
        let v := g.va / 2 ^ 21
        let hub := r.part % 2
        let s := { s with walks := tset s.walks hub (touchLru 64 (r.part * 2 ^ 18 + v / 512) (tget s.walks hub [])) }
        let s := bif (leaf? s r.part v).isSome then
            modBench r.bench (fun x => { x with tlbs := tset x.tlbs (r.ord % 2) (touchLru 256 v (tget x.tlbs (r.ord % 2) [])) }) s
          else s
        touchSegment req seg r g s
      else s

def execPageWalk (req seg : Nat) (t : Time) (s : State) : Host.Outcome State Fault Refusal :=
  .next (pageWalk req seg (atTime t s))

/-! ## Drift's events -/

/-- Drift turns to a page asked for: it takes a frame and RES becomes 2; with no frame it demotes a page first; when none can
be demoted the waiting segments fail with 0x0503 (R244). A prefetch is taken only while no demand waits and no demotion is due (R247), and
is dropped when no frame is free. A T2D page stays where it is (R241). -/
def demandFetch (p vpn : Nat) (s : State) : State :=
  let x := partition s p
  let asked := x.demand.contains vpn
  let hinted := x.prefetch.contains vpn && x.demand.isEmpty && !x.demoting
  bif !(asked || hinted) then s
  else
    let forget := modPartition p (fun x => { x with demand := x.demand.filter (· != vpn)
                                                    prefetch := x.prefetch.filter (· != vpn) })
    match leaf? s p vpn with
    | none => failWaiting p vpn 0x0501 s
    | some l =>
      bif !(l.res == 1) || l.t2d then forget s
      else bif l.fen || frameFenced s l.frame then failWaiting p vpn 0x0301 s
      else
        match hbmRoom s p with
        | some (g, f) => forget (beginIn p vpn l f g false s)
        | none =>
          bif !asked then forget s
          else bif x.moves.any (fun m => !m.2.toHbm) || (scrubWaiting s true && Nat.blt (hbmUse s p) (hbmQuota s p)) then s
          else
            match beginDemote p s with
            | some s' => s'
            | none => failWaiting p vpn 0x0503 (bump .pgeNoframe p 0 (waitingOn s p vpn).length s)

def execDriftDemandFetch (p : PartId) (vpn : Nat) (t : Time) (s : State) : Host.Outcome State Fault Refusal :=
  .next (demandFetch p.val vpn (atTime t s))

/-- A read that waits for fragments of a page goes on once all of them are there (R245, Table 7.5). -/
def resumeReads (p vpn : Nat) (frags : List Nat) (s : State) : State :=
  (waitingOn s p vpn).foldl (fun s w =>
    match tget? s.reqs w.1 with
    | none => s
    | some r =>
      match r.segs[w.2]? with
      | none => s
      | some g => bif !r.write && (fragsOf g).all (fun k => frags.contains k) then endWait w.1 w.2 .moving 0 s else s) s

/-- A fragment of a page is copied with its poison (R270); an error that fences its unit has ended the move (R246). -/
def fragmentMove (p vpn frag : Nat) (m : PageMove) (l : Leaf) (s : State) : State :=
  let frags := insertNat frag m.frags
  let s := flawsSeen (l.frame * 2 ^ 21 + frag * 65536) 65536 s
  bif !(thas (partition s p).moves vpn) then s
  else
    let s := copyFrame l.frame m.target (frag * 65536) 65536 s
    let s := modPartition p (fun x => { x with moves := tset x.moves vpn { m with frags := frags } }) s
    bif m.toHbm then resumeReads p vpn frags s else s

/-- A fragment of a page arrives, as fast as the page's regulators admit it (R247, R251). A write waits for the end of the move. -/
def fragmentArrive (p vpn frag : Nat) (s : State) : State :=
  match tget? (partition s p).moves vpn, leaf? s p vpn with
  | some m, some l =>
    bif m.frags.contains frag then s
    else whenAdmitted p ((bif m.toHbm then m.target else l.frame) * 2 ^ 21 + frag * 65536) 65536 (fragmentMove p vpn frag m l) s
  | _, _ => s

def execDriftFragmentArrive (p : PartId) (vpn : Nat) (frag : Fin 32) (t : Time) (s : State) :
    Host.Outcome State Fault Refusal :=
  .next (fragmentArrive p.val vpn frag.val (atTime t s))

/-- A move whose 32 fragments have arrived ends: the entry is switched, the old frame goes to scrubbing, and what waited for
the page goes on (R245, Table 7.5). -/
def moveComplete (p vpn : Nat) (s : State) : State :=
  match tget? (partition s p).moves vpn, leaf? s p vpn with
  | some m, some l =>
    bif m.frags.length == 32 then
      let s := dropTlb p vpn s
      let s := modPartition p (fun x => { x with
        moves := terase x.moves vpn
        leaves := tset x.leaves vpn { l with res := (bif m.toHbm then 0 else 1), frame := m.target } }) s
      let s := releaseFrame l.frame s
      let s := bump (bif m.toHbm then .pgePromo else .pgeDemo) p 0 1 s
      bif m.toHbm then (waitingOn s p vpn).foldl (fun s w => endWait w.1 w.2 .moving 0 s) s else s
    else s
  | _, _ => s

def execDriftMoveComplete (p : PartId) (vpn : Nat) (t : Time) (s : State) : Host.Outcome State Fault Refusal :=
  .next (moveComplete p.val vpn (atTime t s))

/-- HIWM and LOWM in percent; HIWM above 100 is treated as 100 (Table 7.10). -/
def highMark (s : State) (p : Nat) : Nat := Nat.min 100 (fld s .pgeCtl p 0 23 16)
def lowMark (s : State) (p : Nat) : Nat := fld s .pgeCtl p 0 15 8

/-- Drift looks at a partition's HBM use and begins one demotion while use has risen above HIWM and not fallen to LOWM (R243); demand
fetches go before it (R247). A demotion that no free tier-2 frame within the quota can take raises a Warning once per crossing. -/
def driftDemote (p : Nat) (s : State) : State :=
  let use := hbmUse s p - ((partition s p).moves.filter fun m => !m.2.toHbm).length
  let q := hbmQuota s p
  let high := Nat.blt (highMark s p * q) (use * 100)
  let under := Nat.ble (use * 100) (lowMark s p * q)
  let on := Nat.blt (lowMark s p) (highMark s p) && (high || ((partition s p).demoting && !under))
  let s := modPartition p (fun x => { x with demoting := on, highWarn := x.highWarn && high }) s
  bif !on then s
  else bif !((nextTier2 s).isSome && Nat.blt (t2Use s p) (t2Quota s p)) then
    bif (partition s p).highWarn then s
    else raise 0xC006 2 (some p) 0 0 (modPartition p (fun x => { x with highWarn := true }) s)
  else bif !((partition s p).demand.isEmpty) then s
  else match beginDemote p s with | some s' => s' | none => s

def execDriftDemote (p : PartId) (t : Time) (s : State) : Host.Outcome State Fault Refusal :=
  .next (driftDemote p.val (atTime t s))

/-- At every period DECAY (units of 100 µs, 0 never) HEAT of every leaf is halved, rounding down (R242). -/
def heatDecay (p : Nat) (s : State) : State :=
  let period := fld s .pgeCtl p 0 7 0 * 100000
  let x := partition s p
  bif period == 0 || Nat.blt s.time (x.decayed + period) then s
  else modPartition p (fun x => { x with
    decayed := s.time, leaves := x.leaves.map (fun l => (l.1, { l.2 with heat := l.2.heat / 2 })) }) s

def execHeatDecay (p : PartId) (t : Time) (s : State) : Host.Outcome State Fault Refusal :=
  .next (heatDecay p.val (atTime t s))

/-- A hub scrubs the frame that was freed first: it reads zero and is free again (R228). -/
def frameScrub (hub : Nat) (s : State) : State :=
  match tget s.scrubQ hub [] with
  | [] => s
  | f :: q =>
    let s := zeroFrame f { s with scrubQ := tset s.scrubQ hub q }
    bif frameFenced s f then { s with frames := tset s.frames f .withdrawn } else { s with frames := terase s.frames f }

def execFrameScrub (hub : Fin 2) (s : State) : Host.Outcome State Fault Refusal := .next (frameScrub hub.val s)

/-- One NOCCLK cycle of one bucket: rate × 0.625 bytes more, at most the depth; what the depth turns away is discarded
(R251, Table 16.3). What the bucket owes is paid first; an access that now finds its tokens waits no longer. -/
def refillBucket (p depth add : Nat) (g : Nat) (s : State) : State :=
  let pay := Nat.min add (owedAt s p g)
  let v := bucket s p g + (add - pay)
  let left := owedAt s p g - pay
  modPartition p (fun x => { x with
    tokens := tset x.tokens g (Nat.min depth v)
    owed := bif left == 0 then terase x.owed g else tset x.owed g left
    spent := tset x.spent g (tget x.spent g 0 + pay)
    waits := bif left == 0 && Nat.ble 512 (Nat.min depth v) then x.waits.filter (· != g) else x.waits
    refilled := tset x.refilled g (tget x.refilled g 0 + add)
    discarded := tset x.discarded g (tget x.discarded g 0 + (v - depth)) }) s

/-- One NOCCLK cycle of every bucket. -/
def tokenRefill (s : State) : State :=
  (List.range 8).foldl (fun s p =>
    let rate := fld s .alcBw p 0 8 0
    bif rate == 0 then s
    else (List.range 96).foldl (fun s g => refillBucket p (bucketDepth s p) (rate * 5) g s) s) s

def execTokenRefill (s : State) : Host.Outcome State Fault Refusal := .next (tokenRefill s)

/-! ## The checks of the allocation registers -/

/-- A write of ALC_HBMQ or ALC_T2Q (R226): 0x0286 when the sum of the quotas would exceed what there is, or the quota would
fall below the partition's use. -/
def quotaStatus (s : State) (p : Nat) (tier2 : Bool) (v : Nat) : Status :=
  let others := sumNat (((List.range 8).filter (· != p)).map (bif tier2 then t2Quota s else hbmQuota s))
  let avail := bif tier2 then t2Avail s else alcAvail s
  let use := bif tier2 then t2Use s p else hbmUse s p
  let old := bif tier2 then t2Quota s p else hbmQuota s p
  bif Nat.blt avail (others + v) || (Nat.blt v old && Nat.blt v use) then 0x0286 else 0

/-- A write of SCH_SAVEQ.PAGES (R227): 0x0286 when ALC_HBMUSE would exceed ALC_HBMQ. -/
def saveqStatus (s : State) (p v : Nat) : Status :=
  bif Nat.blt (hbmQuota s p) (hbmPages s p + v) then 0x0286 else 0

/-- A write of ALC_BW (R252, R253): 0x0286 when RATE would be 0 under EN, or the rates would sum to more than 256. -/
def bwStatus (s : State) (p v : Nat) : Status :=
  let rate := bits v 8 0
  let others := sumNat (((List.range 8).filter (· != p)).map fun q => fld s .alcBw q 0 8 0)
  bif (rate == 0 && flag s .schCtl p 0 7) || Nat.blt 256 (others + rate) then 0x0286 else 0

/-- A write of SCH_CTL (R252): 0x0286 when EN is set while RATE is 0. -/
def schCtlStatus (s : State) (p v : Nat) : Status :=
  bif bit v 7 && fld s .alcBw p 0 8 0 == 0 then 0x0286 else 0

/-- A write of SCH_BENCH (R248, Table 7.8): 0x0285 when the partition is locked, a bench of another partition would be added, or a bench with a role would be removed. -/
def benchMaskStatus (s : State) (p v : Nat) : Status :=
  let old := raw s .schBench p 0
  bif flag s .schCtl p 0 31 then 0x0285
  else bif (List.range 32).any (fun b => bit v b && !(bit old b) &&
      (List.range 8).any fun q => q != p && bit (raw s .schBench q 0) b) then 0x0285
  else bif (List.range 32).any (fun b => bit old b && !(bit v b) && (bench s b).prog.isSome) then 0x0285
  else 0

end Sys2Proof.Machine
end

