-- ==== Sys2Proof/Machine/Images.lean ====
section
/-! DEFINITION. Program images: the checks of Table 2.3, R56, R392 and R550, and what an image describes (Tables 2.7 to 2.10,
12.1 and 12.2). -/

namespace Sys2Proof.Machine

/-- What a program image describes. -/
structure ImageDesc where
  roles  : List RoleDesc
  yields : List YieldDesc
  groups : List GroupDesc
  deriving DecidableEq, Repr

/-- Whether bytes `[a, b)` of a byte string are zero. -/
def zeroBytes (bs : List Byte) (a b : Nat) : Bool := ((bs.drop a).take (b - a)).all (· == 0)

/-- The entries of `n` bytes each that lie one after the other from `off`. -/
def entriesAt (bs : List Byte) (off size count : Nat) : List (List Byte) :=
  (List.range count).map fun k => sliceBytes bs (off + k * size) size

/-- A role table entry (Table 2.8). -/
def roleOf (e : List Byte) : RoleDesc :=
  { soff := leAt e 0 8, slen := leAt e 8 8, homeG := leAt e 16 2, farG := leAt e 18 2, aff := leAt e 20 1 }

/-- The checks of a role entry against the control-stream section `[strm, chan)`. -/
def roleOk (strm chan : Nat) (e : List Byte) : Bool :=
  let r := roleOf e
  r.soff % 16 == 0 && Nat.ble strm r.soff && Nat.ble (r.soff + r.slen) chan && r.slen % 16 == 0 && !(r.slen == 0)
    && Nat.ble r.homeG 192 && Nat.ble r.farG 192 && Nat.ble r.aff 15 && zeroBytes e 21 32

/-- The checks of a channel plan entry (Table 2.9, R47). Credits of 0 describe no channel, so its slot is not checked. -/
def planOk (nrole : Nat) (e : List Byte) : Bool :=
  let prole := leAt e 0 1
  let crole := leAt e 1 1
  let credits := leAt e 2 1
  let slot := leAt e 4 2
  Nat.blt prole nrole && Nat.blt crole nrole && !(prole == crole) && Nat.ble credits 16
    && (credits == 0 || (Nat.ble 1 slot && Nat.ble slot 257)) && zeroBytes e 3 4 && zeroBytes e 6 16

/-- A yield table entry (Table 2.10). -/
def yieldOf (e : List Byte) : YieldDesc :=
  { role := leAt e 0 1, acc := leAt e 1 1, id := leAt e 2 2, live := leAt e 8 8 }

/-- Increasing role order, and ids strictly increasing within a role. -/
def yieldOrder : List YieldDesc → Bool
  | a :: b :: l => (Nat.blt a.role b.role || (a.role == b.role && Nat.blt a.id b.id)) && yieldOrder (b :: l)
  | _ => true

/-- A group table entry (Table 12.1) with its member list (Table 12.2). -/
def groupOfEntry (img e : List Byte) : GroupDesc :=
  let m := leAt e 4 4
  let ms := (entriesAt img (leAt e 8 4) 4 m).map leNat
  { group := leAt e 0 2, tv := bit (leAt e 2 1) 0, members := ms.map (fun v => (bits v 13 0, bits v 20 16)),
    chunk := bif leAt e 12 1 == 0 then 18 else leAt e 12 1, depth := bif leAt e 13 1 == 0 then 4 else leAt e 13 1,
    tree := bits (leAt e 14 2) 9 0, nodes := [] }

/-- Whether no entry of a list occurs twice. -/
def noRepeats {α : Type} [BEq α] : List α → Bool
  | [] => true
  | x :: l => !(l.contains x) && noRepeats l

/-- The checks of a group table entry (R392): ranges, zero fields, the member list within the image and without repeats,
DEPTH × chunk at most 8 MiB. -/
def groupOk (img : List Byte) (total nrole : Nat) (e : List Byte) : Bool :=
  let m := leAt e 4 4
  let off := leAt e 8 4
  let chunk := leAt e 12 1
  let depth := leAt e 13 1
  let g := groupOfEntry img e
  Nat.ble 1 m && Nat.ble m 65536 && off % 4 == 0 && Nat.ble (off + 4 * m) total
    && (chunk == 0 || (Nat.ble 16 chunk && Nat.ble chunk 22)) && Nat.ble depth 8
    && Nat.ble (leAt e 2 1) 1 && Nat.ble (leAt e 14 2) 1023 && zeroBytes e 3 4 && zeroBytes e 16 32
    && Nat.ble (g.depth * 2 ^ g.chunk) (2 ^ 23)
    && ((entriesAt img off 4 m).map leNat).all (fun v => bits v 15 14 == 0 && bits v 31 21 == 0)
    && g.members.all (fun v => Nat.blt v.2 nrole) && noRepeats g.members

/-- The header's checks (Table 2.7). -/
def headerOk (h : List Byte) (length : Nat) : Bool :=
  let nrole := leAt h 6 2
  let total := leAt h 8 8
  let ro := leAt h 16 8
  let so := leAt h 24 8
  let co := leAt h 32 8
  let yo := leAt h 40 8
  let go := leAt h 48 8
  let nchan := leAt h 56 2
  leAt h 0 4 == 0x47454D49 && leAt h 5 1 == 3 && Nat.ble (leAt h 4 1) 1 && Nat.ble 1 nrole && Nat.ble nrole 32
    && zeroBytes h 62 4096 && Nat.ble total length && Nat.ble nchan 2048
    && [ro, so, co, yo, go].all (fun o => o % 4096 == 0)
    && Nat.ble 4096 ro && Nat.ble (ro + 32 * nrole) so && Nat.ble so co && Nat.ble (co + 16 * nchan) yo
    && Nat.ble (yo + 16 * leAt h 58 2) go && Nat.ble (go + 32 * leAt h 60 2) total

/-- The checks of the sections behind the header, and what they describe. -/
def sectionsOf (img : List Byte) : Option ImageDesc :=
  let nrole := leAt img 6 2
  let so := leAt img 24 8
  let co := leAt img 32 8
  let roles := entriesAt img (leAt img 16 8) 32 nrole
  let plan := entriesAt img co 16 (leAt img 56 2)
  let ys := entriesAt img (leAt img 40 8) 16 (leAt img 58 2)
  let gs := entriesAt img (leAt img 48 8) 32 (leAt img 60 2)
  let yields := ys.map yieldOf
  let groups := gs.map (groupOfEntry img)
  bif roles.all (roleOk so co) && plan.all (planOk nrole)
      && ys.all (fun e => Nat.blt (leAt e 0 1) nrole && zeroBytes e 4 8) && yieldOrder yields
      && gs.all (groupOk img (leAt img 8 8) nrole) && noRepeats (groups.map (·.group)) then
    some { roles := roles.map roleOf, yields := yields, groups := groups }
  else none

/-- The scheduler reads and checks an image (R56, R550): what it describes, or the completion that refuses it. -/
def readImage (s : State) (p image length : Nat) : Except Status ImageDesc :=
  bif !(image % 4096 == 0) || Nat.blt length 4096 then .error 0x010B
  else
    match spaceRead s p image 4096 with
    | .error e => .error e
    | .ok h =>
      bif !(headerOk h length) then .error 0x010B
      else
        match spaceRead s p image (leAt h 8 8) with
        | .error e => .error e
        | .ok img =>
          match sectionsOf img with
          | some d => .ok d
          | none => .error 0x010B

/-- What the scheduler's reads of an image leave behind (R269). -/
def imageSeen (p image length : Nat) (s : State) : State :=
  bif !(image % 4096 == 0) || Nat.blt length 4096 then s
  else
    match spaceRead s p image 4096 with
    | .error _ => spaceSeen p image 4096 s
    | .ok h => bif headerOk h length then spaceSeen p image (leAt h 8 8) s else spaceSeen p image 4096 s

end Sys2Proof.Machine
end

