-- ==== Sys2Proof/Machine/Scheduling.lean ====
section
/-! DEFINITION. The stream scheduler: launch records (R433), placement (R219, R220, R254 to R256), starting (R57), faults and
the end of a program (R59 to R62, R113, R262), preemption (R63 to R66, R257 to R261). -/

namespace Sys2Proof.Machine

/-! ## Launch records -/

def session (s : State) (n : Nat) : Session := tget s.sessions n Session.reset
def setSession (n : Nat) (x : Session) (s : State) : State := { s with sessions := tset s.sessions n x }
def modSession (n : Nat) (f : Session → Session) (s : State) : State := setSession n (f (session s n)) s

/-- An intake list of a session. -/
def intakeList (s : State) (n l : Nat) : Option IntakeList := tget? (session s n).lists l
def modList (n l : Nat) (f : IntakeList → IntakeList) (s : State) : State :=
  match intakeList s n l with
  | some x => modSession n (fun q => { q with lists := tset q.lists l (f x) }) s
  | none => s

/-- Where record `n` of a list lies. -/
def recordAt (l : IntakeList) (n : Nat) : Nat := l.base + 64 + 64 * (n % l.entries)

/-- A write by the part to an intake list of a partition. The list's pages are pinned; a write that fails is lost. -/
def listWrite (p va : Nat) (bs : List Byte) (s : State) : State := (spaceWrite p va bs s).2

/-- The part's fields of a completed record, bytes 24 to 57 (Table 13.8). -/
def completionBytes (st : Status) (role ord off fcount start stop prog : Nat) : List Byte :=
  leBytes 2 st.toNat ++ leBytes 1 role ++ leBytes 1 ord ++ leBytes 8 off ++ leBytes 4 (satTo 0xFFFFFFFF fcount)
    ++ leBytes 8 start ++ leBytes 8 stop ++ leBytes 2 prog

/-- Completion of record `n` of list `l` of session `q`: bytes 24 to 57, then STATE 3, then DONE, then COMPLETE when the list has NOTIFY
(R434). A list that INTAKE_DEL has removed stands under l + 8 × k until its programs have ended. -/
def completeRecord (q l n : Nat) (bytes : List Byte) (st : Status) (s : State) : State :=
  match intakeList s q l with
  | none => s
  | some x =>
    let p := (session s q).part
    let s := listWrite p (recordAt x n + 24) bytes s
    let s := listWrite p (recordAt x n + 13) [3] s
    let s := modList q l (fun x => { x with done := x.done + 1 }) s
    let s := listWrite p (x.base + 8) (leBytes 4 (x.done + 1)) s
    bif x.notify then emit (.complete q (l % 8) n st) s else s

/-- A list is stopped with an Error event (R433). -/
def stopList (q l : Nat) (code : BitVec 16) (data : Nat) (s : State) : State :=
  raise code 1 (some (session s q).part) 0 (BitVec.ofNat 64 data) (modList q l (fun x => { x with stopped := true }) s)

/-- The lowest program number not in use (PROG of Table 13.8 is 13 bits). -/
def freeProg (s : State) : Nat := (lowest (fun n => !(thas s.progs n)) 8192 0).getD 0

/-- A program just taken from a launch record. -/
def newProg (part sess list recIdx image length pri cookie arrival : Nat) : Prog :=
  { part := part, sess := some sess, list := list, recIdx := recIdx, image := image, length := length, pri := pri,
    cookie := cookie, arrival := arrival, state := .queued, roles := [], yields := [], groups := [], place := [],
    started := 0, placed := 0, lastTimeout := none, preempt := none, standing := false, endWith := none, fault := none, fcount := 0,
    quantum := false, savePages := 0, saveFrames := [], saved := [] }

/-- LAUNCH_RECORD_TAKE: the scheduler takes the record at HEAD of a watched list (R433). It is no event when the list is
not watched (Table 13.2, R249), is stopped, or holds no posted record. -/
def launchTake (q l : Nat) (s : State) : State :=
  let x := session s q
  let p := x.part
  match tget? x.lists l with
  | none => s
  | some li =>
    bif li.stopped || Nat.ble 8 l || !(x.state == .open_) || !(flag s .schCtl p 0 7) || !(isUp s 9 p) then s
    else
      match spaceRead s p li.base 12 with
      | .error e => stopList q l e (l % 256 * 2 ^ 16) (spaceSeen p li.base 12 s)
      | .ok h =>
        let s := spaceSeen p li.base 12 s
        let ahead := (leAt h 0 4 + 2 ^ 32 - li.head % 2 ^ 32) % 2 ^ 32
        bif ahead == 0 then s
        else bif Nat.blt li.entries ahead then stopList q l 0xE004 0x081C s
        else
          let idx := li.head % li.entries
          match spaceRead s p (recordAt li li.head) 64 with
          | .error e => stopList q l e (idx + l % 256 * 2 ^ 16) (spaceSeen p (recordAt li li.head) 64 s)
          | .ok r =>
            let s := spaceSeen p (recordAt li li.head) 64 s
            let n := li.head
            let s := modList q l (fun x => { x with head := n + 1 }) s
            let s := listWrite p (li.base + 4) (leBytes 4 (n + 1)) s
            bif leAt r 13 1 == 1 then
              let s := listWrite p (recordAt li n + 13) [2] s
              let pri := Nat.min (leAt r 12 1 % 8) (Nat.min li.cap (fld s .schCtl p 0 2 0))
              let num := freeProg s
              setProg num (newProg p q l n (leAt r 0 8) (leAt r 8 4) pri (leAt r 16 8) s.nextProg)
                { s with nextProg := s.nextProg + 1 }
            else completeRecord q l n (completionBytes 0x0816 0 0 0 0 0 s.time 0) 0x0816 s

def execLaunchRecordTake (sess : Fin 32) (list : Nat) (t : Time) (s : State) : Host.Outcome State Fault Refusal :=
  .next (launchTake sess.val list (atTime t s))

/-- The save pages of a program go back to scrubbing (R262). -/
def releaseSaved (x : Prog) (s : State) : State := x.saveFrames.flatten.foldl (fun s f => releaseFrame f s) s

/-- The completion of a program (R59, R60): the record is written, its save pages are freed and the program is gone. -/
def completeProg (n : Nat) (x : Prog) (st : Status) (s : State) : State :=
  let f := match x.fault with | some f => f | none => ⟨0, 0, 0, st⟩
  let bytes := completionBytes st f.role f.ord f.off x.fcount x.started s.time n
  let s := match x.sess with
    | some q => completeRecord q x.list x.recIdx bytes st s
    | none => s
  releaseSaved x { s with progs := terase s.progs n }

/-! ## Placement -/

/-- The ladder step and band of a sector. -/
def sectorStep (s : State) (sec : Nat) : Nat := fld s .pwrSect sec 0 31 28
def sectorBand (s : State) (sec : Nat) : Nat := fld s .thmSect sec 0 23 21

/-- Whether a sector is at a ladder step below 100% or in band B3 or B4 (R255). -/
def sectorHot (s : State) (sec : Nat) : Bool := Nat.blt 0 (sectorStep s sec) || Nat.ble 3 (sectorBand s sec)

/-- The cost of a bench (R255). -/
def benchCost (s : State) (b : Nat) : Nat :=
  let secs := [homeSector b, farSector b]
  let hot := (secs.filter (sectorHot s)).length
  let busy := ((List.range 32).filter fun c =>
    c != b && (bench s c).prog.isSome && (secs.contains (homeSector c) || secs.contains (farSector c))).length
  4 * hot + busy

/-- Whether partition `p` has bench `b`. -/
def hasBench (s : State) (p b : Nat) : Bool := bit (raw s .schBench p 0) b

/-- Whether a bench can take a role: free, not fenced, with no fenced sector. -/
def benchFree (s : State) (b : Nat) : Bool :=
  (bench s b).prog.isNone && isUp s 2 b && isUp s 3 (homeSector b) && isUp s 3 (farSector b)

/-- The candidate of least cost, ties to the lowest number. -/
def leastCost (s : State) : List Nat → Option Nat
  | [] => none
  | b :: l =>
    match leastCost s l with
    | none => some b
    | some c => bif Nat.ble (benchCost s b) (benchCost s c) then some b else some c

/-- Roles assigned in increasing number (R255): the benches still free, the die of each affinity group, and the benches so
far. -/
def assign (s : State) (all : List RoleDesc) : List RoleDesc → List Nat → Tab Nat → List Nat → Option (List Nat)
  | [], _, _, acc => some acc
  | r :: rs, free, dies, acc =>
    let size := (all.filter fun q => q.aff == r.aff).length
    let cand :=
      bif r.aff == 0 then free
      else match tget? dies r.aff with
        | some d => free.filter fun b => b / 8 == d
        | none => free.filter fun b => Nat.ble size (free.filter fun c => c / 8 == b / 8).length
    match leastCost s cand with
    | none => none
    | some b =>
      assign s all rs (free.filter (· != b)) (bif r.aff == 0 then dies else tset dies r.aff (b / 8)) (acc ++ [b])

/-- The staging granules of a group on a member bench: DEPTH × chunk bytes in whole granules (R394). -/
def stagingGrans (g : GroupDesc) : Nat := (g.depth * 2 ^ g.chunk + 65535) / 65536

/-- A partition's rank entry as one number (Table 11.2). -/
def rankEntry (s : State) (p r : Nat) : Nat := raw s .rmaRankLo p r + 2 ^ 32 * raw s .rmaRankHi p r

/-- The part's own node number (R39, R329). -/
def ownNode (s : State) : Nat := fld s .genStrap 0 0 12 0

/-- The node of a rank, when its entry is valid. -/
def rankNode (s : State) (p r : Nat) : Option Nat :=
  bif bit (rankEntry s p r) 0 then some (bits (rankEntry s p r) 28 16) else none

/-- A group with its ranks translated (R393). -/
def translate (s : State) (p : Nat) (g : GroupDesc) : GroupDesc :=
  { g with nodes := g.members.map fun m => rankNode s p m.1 }

/-- Whether role `r` of this part is a member of a translated group. -/
def isMember (s : State) (g : GroupDesc) (r : Nat) : Bool :=
  (g.members.zip g.nodes).any fun m => m.1.2 == r && m.2 == some (ownNode s)

/-- The granules a role needs in the home and the far half, without staging, and its staging. -/
def stagingOf (s : State) (gs : List GroupDesc) (r : Nat) : Nat :=
  sumNat ((gs.filter fun g => isMember s g r).map stagingGrans)

/-- Whether a program can never be placed in its partition (R256, R393, R395). -/
def neverPlaced (s : State) (p : Nat) (roles : List RoleDesc) (gs : List GroupDesc) : Bool :=
  let mine := (List.range 32).filter (hasBench s p)
  let sized := fun a => (roles.filter fun r => r.aff == a).length
  Nat.blt mine.length roles.length
    || (List.range 15).any (fun k => (List.range 4).all fun d =>
        Nat.blt ((mine.filter fun b => b / 8 == d).length) (sized (k + 1)))
    || (List.range roles.length).any (fun r => match roles[r]? with
        | some d => Nat.blt 384 (d.homeG + d.farG + stagingOf s gs r)
        | none => false)
    || Nat.blt 64 gs.length
    || gs.any (fun g => g.members.any fun m => bit (rankEntry s p m.1) 1)

/-- Whether a program's groups are active: from its placement until it ends, or is saved (R395). -/
def groupsActive (x : Prog) : Bool :=
  x.state == .placing || x.state == .running || x.state == .preempting || x.state == .restoring || x.state == .ending
    || x.state == .saved

/-- The groups active on the part: partition and group of each. -/
def activeGroups (s : State) : List (Nat × GroupDesc) :=
  s.progs.flatMap fun x => bif groupsActive x.2 then x.2.groups.map (fun g => (x.2.part, g)) else []

/-- Whether a program's groups must wait (R395). -/
def groupsWait (s : State) (p : Nat) (gs : List GroupDesc) : Bool :=
  let act := activeGroups s
  Nat.blt 64 (act.length + gs.length) || gs.any fun g => act.any fun a => a.1 == p && a.2.group == g.group

/-- Granules granted one after the other. -/
def grantAll (o : GranOwner) (gs : List Nat) (x : Bench) : Bench := gs.foldl (fun x g => grant g o x) x

/-- The last `n` of a rising list of free granules of the far half, the rest from the home half (R220). -/
def stagingPick (x : Bench) (n : Nat) : List Nat :=
  let far := keepLast n (freeGrans x true)
  far ++ keepLast (n - far.length) (freeGrans x false)

/-- A role placed on bench `b`: declared granules in fixed positions (R219), staging (R220), and every item of R80 and R115
at its start value. -/
def placeRole (s : State) (n r : Nat) (d : RoleDesc) (image : Nat) (gs : List GroupDesc) (b : Nat) : Bench :=
  let old := bench s b
  let x : Bench := { Bench.reset with prog := some n, role := r, gens := old.gens, sbase := image + d.soff, slen := d.slen }
  let x := grantAll .role (List.range d.homeG) x
  let x := grantAll .role ((List.range d.farG).map (· + 192)) x
  gs.foldl (fun x g => bif isMember s g r then grantAll (.staging g.group) (stagingPick x (stagingGrans g)) x else x) x

/-- Roles placed on their benches. -/
def placeRoles (n image : Nat) (gs : List GroupDesc) : List RoleDesc → Nat → List Nat → State → State
  | d :: ds, r, b :: bs, s => placeRoles n image gs ds (r + 1) bs (setBench b (placeRole s n r d image gs b) s)
  | _, _, _, s => s

/-- The free benches of a partition. -/
def freeBenches (s : State) (p : Nat) : List Nat := (List.range 32).filter fun b => hasBench s p b && benchFree s b

/-- Whether one program stands before another in the order of R254. -/
def before (a b : Nat × Prog) : Bool :=
  Nat.blt b.2.pri a.2.pri
    || (a.2.pri == b.2.pri && ((a.2.state == .saved && b.2.state == .queued)
        || (a.2.state == b.2.state && Nat.blt a.2.arrival b.2.arrival)))

/-- The first program of a partition that waits, in the order of R254. -/
def firstWaiting (s : State) (p : Nat) : Option (Nat × Prog) :=
  (s.progs.filter fun x => x.2.part == p && (x.2.state == .queued || (x.2.state == .saved && x.2.preempt.isNone))).foldl (fun r x =>
    match r with
    | none => some x
    | some y => bif before x y then some x else some y) none

/-! ## Preemption -/

/-- Bytes of live state of a role (R260): held granules, storage of the channels given, accumulators given at 64 KiB, and a
16 KiB record. -/
def liveBytes (x : Bench) (chans accs : Nat) : Nat :=
  let held := (x.grans.filter fun g => g.2 == .role || g.2 == .alloc).length
  let storage := sumNat ((x.chans.filter fun c => bit chans c.1).map fun c => c.2.grans.length)
  (held + storage + popcount 8 accs) * 65536 + 16384

/-- Save pages of so many bytes. -/
def pagesOf (n : Nat) : Nat := (n + 2 ^ 21 - 1) / 2 ^ 21

/-- Save pages in use by a partition (SCH_SAVEQ.USED). -/
def saveUsed (s : State) (p : Nat) : Nat :=
  sumNat ((s.progs.filter fun x => x.2.part == p).map fun x => x.2.savePages)

/-- Save pages a role needs at the YIELD of its yield table where it needs the most (R258, R260). -/
def rolePages (x : Prog) (r : Nat) (o : Bench) : Nat :=
  (x.yields.filter fun y => y.role == r).foldl (fun a y => Nat.max a (pagesOf (liveBytes o y.live y.acc))) (pagesOf (liveBytes o 0 0))

/-- Save pages a running program could need. -/
def estPages (s : State) (x : Prog) : Nat :=
  sumNat ((List.range x.place.length).map fun r => match x.place[r]? with | some b => rolePages x r (bench s b) | none => 0)

/-- Whether a running program may be chosen for preemption to make room for priority `pri` (R257, R258). -/
def mayPreempt (s : State) (pri : Nat) (x : Prog) : Bool :=
  x.state == .running && x.preempt.isNone
    && (Nat.blt x.pri pri || (x.pri == pri && x.quantum && Nat.blt 0 (fld s .schCtl x.part 0 15 8)))
    && !(fld s .schCtl x.part 0 23 16 == 0)
    && (match x.lastTimeout with | some t => Nat.ble (t + 100000000) s.time | none => true)
    && Nat.ble (saveUsed s x.part + estPages s x) (fld s .schSaveq x.part 0 15 0)

/-- Insertion by a Boolean order. -/
def insertBy {α : Type} (le : α → α → Bool) (x : α) : List α → List α
  | [] => [x]
  | y :: l => bif le x y then x :: y :: l else y :: insertBy le x l

/-- The benches of a program taken as free. -/
def withoutProg (x : Prog) (s : State) : State := x.place.foldl (fun s b => modBench b (fun o => { o with prog := none }) s) s

/-- Whether the roles of a program can be assigned to the free benches (R255). -/
def rolesFit (s : State) (p : Nat) (roles : List RoleDesc) : Bool := (assign s roles roles (freeBenches s p) [] []).isSome

/-- The programs chosen, in order, until the benches they free suffice (R257). -/
def chooseVictims (p : Nat) (roles : List RoleDesc) : List (Nat × Prog) → List Nat → State → Option (List Nat)
  | [], acc, s => bif rolesFit s p roles then some acc else none
  | x :: l, acc, s => bif rolesFit s p roles then some acc else chooseVictims p roles l (acc ++ [x.1]) (withoutProg x.2 s)

/-- A preemption request is issued to a program. -/
def requestPreempt (n : Nat) (standing : Bool) (s : State) : State :=
  modProg n (fun x => { x with preempt := some s.time, standing := standing,
                               state := bif x.state == .running then .preempting else x.state }) s

/-- When the first waiting program cannot be placed, programs of lower priority are asked to stop (R257). -/
def tryPreempt (p pri : Nat) (roles : List RoleDesc) (s : State) : State :=
  bif s.progs.any fun x => x.2.part == p && x.2.state == .preempting && !x.2.standing then s
  else
    let cands := (s.progs.filter fun x => x.2.part == p && mayPreempt s pri x.2).foldl
      (fun l x => insertBy (fun a b => Nat.blt a.2.pri b.2.pri || (a.2.pri == b.2.pri && Nat.ble b.2.started a.2.started)) x l) []
    match chooseVictims p roles cands [] s with
    | none => s
    | some ns => ns.foldl (fun s n => requestPreempt n false s) s

/-- A waiting program placed, if it fits now; otherwise room may be made for it. -/
def placeProg (p n : Nat) (x : Prog) (s : State) : State :=
  match assign s x.roles x.roles (freeBenches s p) [] [] with
  | none => tryPreempt p x.pri x.roles s
  | some bs =>
    bif x.state == .saved then
      -- the benches are chosen and their sequencer registers reset (R115); the saved state is loaded by the restore
      let s := (bs.zip x.saved).foldl (fun s c => modBench c.1 (fun o =>
        { Bench.reset with gens := o.gens, prog := some n, role := c.2.role }) s) s
      setProg n { x with state := .restoring, place := bs } s
    else
      setProg n { x with state := .placing, place := bs } (placeRoles n x.image x.groups x.roles 0 bs s)

/-- The earliest queued program of a partition that can never be placed (R256). -/
def hopeless (s : State) (p : Nat) : Option (Nat × Prog) :=
  (s.progs.filter fun x => x.2.part == p && x.2.state == .queued && match readImage s p x.2.image x.2.length with
    | .ok d => neverPlaced s p d.roles (d.groups.map (translate s p))
    | .error _ => false).foldl (fun r x =>
      match r with
      | none => some x
      | some y => bif Nat.blt x.2.arrival y.2.arrival then some x else r) none

/-- The first waiting program considered: its image refused (R56), itself placed, or left waiting (R58). -/
def placeFirst (p n : Nat) (x : Prog) (s : State) : State :=
  bif x.state == .saved then placeProg p n x s
  else
    match readImage s p x.image x.length with
    | .error st => completeProg n x st (imageSeen p x.image x.length s)
    | .ok d =>
      let gs := d.groups.map (translate s p)
      bif groupsWait s p gs then s
      else placeProg p n { x with roles := d.roles, yields := d.yields, groups := gs } (imageSeen p x.image x.length s)

/-- PROGRAM_PLACE: the scheduler completes a program that can never be placed, whatever its turn (R256), or considers the first program
in the order of R254. It is no event while the partition is not enabled (R249). -/
def programPlace (p : Nat) (s : State) : State :=
  bif !(flag s .schCtl p 0 7) || !(isUp s 9 p) then s
  else
    match hopeless s p, firstWaiting s p with
    | some (n, x), _ => completeProg n x 0x0282 (imageSeen p x.image x.length s)
    | none, some (n, x) => placeFirst p n x s
    | none, none => s

def execProgramPlace (p : PartId) (t : Time) (s : State) : Host.Outcome State Fault Refusal :=
  .next (programPlace p.val (atTime t s))

/-! ## Starting -/

/-- The words of a control stream from byte offset `off`, at most `n`: what the sequencer fetches from device memory. -/
def streamWords (s : State) (p : Nat) (x : Bench) (off n : Nat) : Except Status (List W128) :=
  let k := Nat.min n ((x.slen - off) / 16)
  match spaceRead s p (x.sbase + off) (16 * k) with
  | .error e => .error e
  | .ok bs => .ok ((List.range k).map fun i => BitVec.ofNat 128 (leAt bs (16 * i) 16))

/-- What the fetch of those words leaves behind (R269). -/
def streamSeen (p : Nat) (x : Bench) (off n : Nat) (s : State) : State :=
  spaceSeen p (x.sbase + off) (16 * Nat.min n ((x.slen - off) / 16)) s

/-- The stream buffer holds 2,048 words. -/
def bufferWords : Nat := 2048

/-- A sequencer begins at the first word of its stream (R57). -/
def startRole (p b : Nat) (s : State) : State :=
  let x := bench s b
  let s' := streamSeen p x 0 bufferWords s
  match streamWords s p x 0 bufferWords with
  | .error _ => modBench b (fun x => { x with seq := 1, bufAt := 0, buf := [] }) s'
  | .ok ws => modBench b (fun x => { x with seq := 1, bufAt := 0, buf := ws }) s'

/-- PROGRAM_START: every role is placed and loaded, and the program runs (R57). -/
def programStart (n : Nat) (s : State) : State :=
  match tget? s.progs n with
  | some x =>
    bif x.state == .placing then
      setProg n { x with state := bif x.preempt.isSome then .preempting else .running, started := s.time, placed := s.time } (x.place.foldl (fun s b => startRole x.part b s) s)
    else s
  | none => s

def execProgramStart (prog : Nat) (t : Time) (s : State) : Host.Outcome State Fault Refusal :=
  .next (programStart prog (atTime t s))

/-! ## The next word -/

/-- The call depth of the innermost loop is the present one, so the loop takes its back edge here (R88, R89). -/
def loopHere (x : Bench) (l : LoopEntry) : Bool := l.calls == x.rets.length

/-- Loops whose body ends at the pc: back edges, and ends of loops that have run (R88). -/
def takeBackEdge : Nat → Bench → Bench
  | 0, x => x
  | n + 1, x =>
    match x.loops with
    | [] => x
    | l :: ls =>
      bif l.stop == x.pc && loopHere x l then
        bif Nat.blt 0 l.left then { x with pc := l.start, loops := { l with left := l.left - 1 } :: ls }
        else takeBackEdge n { x with loops := ls }
      else x

/-- A word has issued: the pc takes its new value and the loops are looked at. -/
def seqNext (npc : Nat) (x : Bench) : Bench :=
  takeBackEdge 5 { x with pc := npc, seq := 1, cause := 0, issued := x.issued + 1 }

/-! ## Stopping and ending -/

/-- A segment that had not been handed to memory ends untouched when its program stops (Table 3.12). -/
def dropSeg (g : Seg) : Seg :=
  match g.state with
  | .untouched => { g with state := .refused }
  | .walking => { g with state := .refused }
  | .waiting => { g with state := .refused }
  | _ => g

/-- A bench stops: nothing more issues, unretired instructions and channel writes in progress are abandoned (Table 3.12). -/
def stopBench (x : Bench) : Bench :=
  { x with seq := (bif x.seq == 6 then 6 else 5), cause := 0, queues := [], sysq := [], taken := none, uses := [],
           yielded := none,
           chans := x.chans.map fun c => (c.1, { c.2 with reading := 0, writing := [] }) }

/-- Every role of a program stops at once (R60); a preemption request is withdrawn (R61). -/
def stopProg (n : Nat) (s : State) : State :=
  match tget? s.progs n with
  | none => s
  | some x =>
    let s := x.place.foldl (fun s b => modBench b stopBench s) s
    let s := { s with reqs := s.reqs.map fun r =>
      bif r.2.prog == some n then (r.1, { r.2 with segs := r.2.segs.map dropSeg }) else r }
    setProg n { x with state := .ending, preempt := none, standing := false } s

/-- Whether one report wins over another (R113): the lowest role, then the lowest ordinal. -/
def reportBefore (a b : FaultReport) : Bool := Nat.blt a.role b.role || (a.role == b.role && Nat.ble a.ord b.ord)

/-- The report of a program that wins among some. -/
def winner (n : Nat) : List FaultReport → Option FaultReport
  | [] => none
  | r :: l =>
    bif r.prog == n then
      match winner n l with
      | none => some r
      | some q => bif reportBefore r q then some r else some q
    else winner n l

/-- The reports of one cycle reach the arbiter for program `n` (R113, R114): the first fault is recorded and the program
stops; every other report is counted. -/
def arbitrate (rs : List FaultReport) (n : Nat) (s : State) : State :=
  match tget? s.progs n, winner n rs with
  | some x, some w =>
    let k := (rs.filter fun r => r.prog == n).length
    match x.fault with
    | some _ => setProg n { x with fcount := x.fcount + k } s
    | none => stopProg n (setProg n { x with fault := some ⟨w.role, w.ord, w.off, w.status⟩, fcount := x.fcount + (k - 1) } s)
  | _, _ => s

/-- Whether a report goes to the arbiter of a hub: the one that serves the partition of its program. -/
def reportTo (s : State) (hub : Nat) (r : FaultReport) : Bool :=
  match tget? s.progs r.prog with
  | some x => x.part % 2 == hub
  | none => false

/-- FAULT_ARBITRATION: the oldest `n` reports on their way to a hub's arbiter reach it in one control-clock cycle. -/
def faultArbitration (hub n : Nat) (s : State) : State :=
  let mine := s.reports.filter (reportTo s hub)
  let now := mine.take n
  let rest := s.reports.filter (fun r => (tget? s.progs r.prog).isSome && !(reportTo s hub r)) ++ mine.drop n
  let progs := now.foldl (fun l r => bif l.contains r.prog then l else l ++ [r.prog]) ([] : List Nat)
  progs.foldl (fun s n => arbitrate now n s) { s with reports := rest }

/-- Whether a bench has nothing queued. -/
def benchIdle (x : Bench) : Bool := x.queues.all (fun q => q.2.isEmpty) && x.sysq.isEmpty && x.taken.isNone

/-- Whether a split request of a program has not completed (R59). -/
def reqsOpen (s : State) (n : Nat) : Bool := s.reqs.any fun r => r.2.prog == some n && !r.2.done

/-- Whether a remote operation of role `r` of a program has not completed (R96). -/
def remoteOpen (s : State) (n r : Nat) : Bool :=
  s.rops.any (fun o => o.2.prog == some n && o.2.role == r)
    || s.reqs.any fun q => q.2.prog == some n && q.2.role == r && q.2.rank.isSome && !q.2.done

/-- Whether a role has a collective in progress (R259). -/
def collBusy (s : State) (b : Nat) : Bool := s.colls.any fun c => c.2.bench == b

/-- Whether something that a program issued has not completed: a Sprue transfer, a remote operation or a collective. -/
def outstanding (s : State) (n : Nat) (x : Prog) : Bool :=
  reqsOpen s n || s.rops.any (fun o => o.2.prog == some n) || x.place.any (collBusy s)

/-- A bench without its role: its store is discarded (R62), and the sequencer's registers stay readable until the next
placement (R115). -/
def releaseBench (x : Bench) : Bench :=
  { Bench.reset with role := x.role, pc := x.pc, seq := x.seq, cause := 0, fvalid := x.fvalid, ford := x.ford,
                     fstatus := x.fstatus, foff := x.foff, fcount := x.fcount, issued := x.issued, stalled := x.stalled,
                     gens := x.gens }

/-- The channels of a bench that hold packets when its program ends, for the census (R59). -/
def discarded (b : Nat) (x : Bench) : List (Nat × Nat × Nat) :=
  (x.chans.filter fun c => !(c.2.packets.isEmpty)).map fun c => (b * 64 + c.1, c.2.credits, c.2.packets.length)

/-- Channels closed with their contents discarded are noted for the next census of each scope. -/
def noteClosed (p : Nat) (l : List (Nat × Nat × Nat)) (s : State) : State :=
  modPartition p (fun q => { q with fclosed := q.fclosed ++ l, fclosedAll := q.fclosedAll ++ l }) s

/-- The program-scoped pages of a program are freed (R59, R262). -/
def freeScoped (p n : Nat) (s : State) : State :=
  ((partition s p).leaves.filter fun l => l.2.psc && l.2.prog == n).foldl (fun s l => unmapPage p l.1 s) s

/-- What every end of a program frees, and its completion (R59, R262). -/
def endProg (n : Nat) (x : Prog) (st : Status) (s : State) : State :=
  let s := x.place.foldl (fun s b =>
    let o := bench s b
    setBench b (releaseBench o) (noteClosed x.part (discarded b o) s)) s
  let s := { s with reqs := s.reqs.filter (fun r => !(r.2.prog == some n)), colls := s.colls.filter fun c => !(c.2.prog == n) }
  completeProg n x st (reapPages x.part (freeScoped x.part n s))

/-- PROGRAM_END: a program whose roles have ended, or that was stopped, ends once everything it issued has completed
(R59, R60). -/
def programEnd (n : Nat) (s : State) : State :=
  match tget? s.progs n with
  | none => s
  | some x =>
    let done := x.state == .ending
      || ((x.state == .running || x.state == .preempting) && x.place.all fun b => (bench s b).seq == 4 && benchIdle (bench s b))
    bif done && !(outstanding s n x) && !(s.reports.any fun r => r.prog == n) then
      let st := match x.fault, x.endWith with
        | some f, _ => f.status
        | none, some e => bif x.state == .ending then e else 0
        | none, none => 0
      endProg n x st s
    else s

def execProgramEnd (prog : Nat) (t : Time) (s : State) : Host.Outcome State Fault Refusal :=
  .next (programEnd prog (atTime t s))

/-- A program stops at once and will end with a status that is no fault of its own (CANCEL with FORCE, R424, R426): a running
program is stopped, a program without benches completes now. -/
def killProg (n : Nat) (st : Status) (s : State) : State :=
  match tget? s.progs n with
  | none => s
  | some x =>
    bif x.state == .queued || x.state == .saved then completeProg n x st (freeScoped x.part n s)
    else stopProg n (setProg n { x with endWith := some st } s)

/-! ## The bench of a role -/

/-- The bench of role `r` of a program, wherever it stands: its number, and the bench, which is a saved one after a preemption. -/
def roleBench (s : State) (n r : Nat) : Option (Nat × Bench) :=
  match tget? s.progs n with
  | none => none
  | some x =>
    match x.saved[r]?, x.place[r]? with
    | some o, _ => some (32, o)
    | none, some b => some (b, bench s b)
    | none, none => none

/-- The bench of role `r` of a program changed, wherever it stands (R66, R103). -/
def modRole (n r : Nat) (f : Bench → Bench) (s : State) : State :=
  match tget? s.progs n with
  | none => s
  | some x =>
    bif x.saved.isEmpty then
      match x.place[r]? with
      | some b => modBench b f s
      | none => s
    else setProg n { x with saved := listMod x.saved r f } s

/-- A remote operation or collective of role `r` faults its program: on its bench, or, while the program is saved, to the arbiter alone. -/
def roleFault (n r ord off : Nat) (st : Status) (s : State) : State :=
  match tget? s.progs n with
  | none => s
  | some x =>
    match x.saved[r]?, x.place[r]? with
    | some _, _ => { s with reports := s.reports ++ [⟨n, 32, r, ord, off, st⟩] }
    | none, some b => reportFault b ord off st s
    | none, none => s

/-! ## Yields, saves and restores -/

/-- The yield-table entry of the YIELD a role stands at. -/
def yieldEntry (x : Prog) (r id : Nat) : Option YieldDesc := x.yields.find? fun y => y.role == r && y.id == id

/-- Whether a segment of a bench waits on Drift (R259). -/
def driftWait (s : State) (b : Nat) : Bool := s.reqs.any fun r => r.2.bench == b && r.2.rank.isNone && r.2.segs.any fun g => g.state == .waiting

/-- Whether a role has stopped: at a yield, or it has ended and everything it queued has retired. -/
def roleStopped (x : Bench) : Bool := x.seq == 3 || (x.seq == 4 && benchIdle x)

/-- ROLE_STOP_AT_YIELD: under a standing request a role that stands at a YIELD stops, once its instructions have retired and
every channel not declared live there is empty, with no collective in progress and no segment waiting on Drift (R64, R259). The YIELD has
then issued, with a back edge that its loop takes there (R65, R88). -/
def roleStop (n r : Nat) (s : State) : State :=
  match tget? s.progs n with
  | none => s
  | some x =>
    match x.place[r]? with
    | none => s
    | some b =>
      let o := bench s b
      match o.yielded with
      | none => s
      | some id =>
        let live := match yieldEntry x r id with | some y => y.live | none => 0
        let ok := x.preempt.isSome && o.seq == 2 && benchIdle o
          && o.chans.all (fun c => bit live c.1 || (c.2.packets.isEmpty && c.2.writing.isEmpty))
          && !(driftWait s b) && !(collBusy s b)
        bif ok then setBench b { seqNext (o.pc + 16) o with seq := 3 } s else s

def execRoleStopAtYield (prog role : Nat) (s : State) : Host.Outcome State Fault Refusal := .next (roleStop prog role s)

/-- A preemption request is withdrawn and the stopped roles go on after their YIELD (R65). -/
def withdraw (n : Nat) (s : State) : State :=
  match tget? s.progs n with
  | none => s
  | some x =>
    let s := x.place.foldl (fun s b => modBench b (fun o =>
      bif o.seq == 3 then { o with seq := 1, yielded := none } else { o with yielded := none }) s) s
    setProg n { x with preempt := none, standing := false, state := bif x.state == .preempting then .running else x.state } s

/-- The roles of a program that did not stop, one bit each (R553). -/
def notStopped (s : State) (x : Prog) : Nat :=
  sumNat ((List.range x.place.length).map fun r =>
    match x.place[r]? with
    | some b => bif roleStopped (bench s b) then 0 else 2 ^ r
    | none => 0)

/-- YIELD_TIMEOUT: YTO after the request not every role has stopped; the request is withdrawn and the timeout recorded
(R65, R553). YTO does not apply to a standing request (R424). -/
def yieldTimeout (n : Nat) (s : State) : State :=
  match tget? s.progs n with
  | none => s
  | some x =>
    match x.preempt with
    | none => s
    | some t0 =>
      let late := notStopped s x
      bif x.standing || late == 0 || Nat.blt s.time (t0 + fld s .schCtl x.part 0 23 16 * 1000000) then s
      else
        let s := withdraw n s
        let s := modProg n (fun x => { x with lastTimeout := some s.time }) s
        raise 0xE001 2 (some x.part) 0 (BitVec.ofNat 64 (late + n % 8192 * 2 ^ 32)) (bumpFld .schPreempt x.part 0 31 16 1 s)

def execYieldTimeout (prog : Nat) (t : Time) (s : State) : Host.Outcome State Fault Refusal :=
  .next (yieldTimeout prog (atTime t s))

/-- What a role declares live where it has stopped: channels and accumulators. A role that has ended declares none. -/
def declaredLive (x : Prog) (o : Bench) : Nat × Nat :=
  match o.yielded with
  | some id => (match yieldEntry x o.role id with | some y => (y.live, y.acc) | none => (0, 0))
  | none => (0, 0)

/-- What is saved of bench `b`: the accumulators declared live, and the rest of R260. Staging granules are released (R259); an unwritten
byte of a granule stays the free value it was (R66). -/
def savedBench (x : Prog) (b : Nat) (o : Bench) : Bench :=
  let keep := o.grans.filter fun g => match g.2 with | .staging _ => false | _ => true
  { o with accs := o.accs.filter (fun a => bit (declaredLive x o).2 a.1)
           grans := keep
           origin := keep.map fun g => (g.1, tget o.origin g.1 (b, granGen o g.1))
           tlbs := [], buf := [], bufAt := 0 }

/-- The bytes of live state of a stopped role, and its save pages (R260, Table 7.7). -/
def stoppedBytes (x : Prog) (o : Bench) : Nat := liveBytes o (declaredLive x o).1 (declaredLive x o).2
def stoppedPages (x : Prog) (o : Bench) : Nat := pagesOf (stoppedBytes x o)

/-- The granules of a stopped role in the order in which its save pages hold them, 64 KiB each from the first byte on. -/
def savedGrans (x : Prog) (o : Bench) : List Nat :=
  (o.grans.filter fun g => g.2 == .role || g.2 == .alloc).map (·.1)
    ++ (o.chans.filter fun c => bit (declaredLive x o).1 c.1).flatMap fun c => c.2.grans

/-- The address of line `q` of a role's save pages. -/
def savedLine (fs : List Nat) (q : Nat) : Nat := (fs[q / 32768]?).getD 0 * 32768 + q % 32768

/-- `k` frames for save pages, where the next placements of the partition would lie; R266 counts none of them. -/
def takeSaves (p : Nat) : Nat → State → List Nat → Option (List Nat × State)
  | 0, s, acc => some (acc, s)
  | k + 1, s, acc =>
    match nextHbm s p with
    | some (_, f) => takeSaves p k (useFrame f s) (acc ++ [f])
    | none => none

/-- The save pages of every role. -/
def takeAll (p : Nat) : List Nat → State → List (List Nat) → Option (List (List Nat) × State)
  | [], s, acc => some (acc, s)
  | k :: ks, s, acc => match takeSaves p k s [] with | some (fs, s) => takeAll p ks s (acc ++ [fs]) | none => none

/-- The accesses of a save or a restore: for each frame of a role's save pages the bytes of live state in it. -/
def savedParts (fs : List Nat) (n : Nat) : List (Nat × Nat) :=
  (List.range fs.length).map fun k => ((fs[k]?).getD 0 * 2 ^ 21, Nat.min (2 ^ 21) (n - k * 2 ^ 21))

/-- Saves and restores take tokens as other accesses do (R251, R261): all of them are admitted, or the groups where one is not. -/
def admitParts (p : Nat) (l : List (Nat × Nat)) (f : State → State) (s : State) : State :=
  bif l.all fun c => admittedAt s p c.1 then f (l.foldl (fun s c => spendAt p c.1 c.2 s) s)
  else l.foldl (fun s c => bif admittedAt s p c.1 then s else waitAt p c.1 s) s

/-- A save carries poisoned lines of bench store as poisoned (R270). -/
def saveBad (x : Prog) (o : Bench) (fs : List Nat) (s : State) : State :=
  (savedGrans x o).zipIdx.foldl (fun s g => (o.badLines.filter fun l => l / 1024 == g.1).foldl (fun s l =>
    poisonLine (savedLine fs (g.2 * 1024 + l % 1024)) s) s) s

/-- The live state of every role is in the save area and the benches are free. -/
def saveDone (n : Nat) (x : Prog) (fs : List (List Nat)) (s : State) : State :=
  let saved := x.place.map fun b => savedBench x b (bench s b)
  let s := (x.place.zip fs).foldl (fun s c => modBench c.1 releaseBench (saveBad x (bench s c.1) c.2 s)) s
  setProg n { x with state := .saved, saved := saved, savePages := fs.flatten.length, saveFrames := fs, place := [], quantum := false,
                     preempt := bif x.standing then x.preempt else none }
    (bumpFld .schPreempt x.part 0 15 0 1 s)

/-- PREEMPT_SAVE_COMPLETE: every role has stopped; the live state is in the save area and the benches are free (R66, R260,
Table 7.6). A program that is to end at its yields ends instead (R434). When the free save pages cannot hold the state
the request is withdrawn. -/
def saveComplete (n : Nat) (s : State) : State :=
  match tget? s.progs n with
  | none => s
  | some x =>
    bif x.preempt.isSome && (x.state == .preempting) && x.place.all (fun b => roleStopped (bench s b)) then
      bif x.endWith.isSome then stopProg n s
      else
        let need := x.place.map fun b => stoppedPages x (bench s b)
        bif Nat.ble (saveUsed s x.part + sumNat need) (fld s .schSaveq x.part 0 15 0) then
          match takeAll x.part need s [] with
          | some (fs, s') =>
            let parts := (x.place.zip fs).flatMap fun c => savedParts c.2 (stoppedBytes x (bench s c.1))
            bif parts.all fun c => admittedAt s x.part c.1 then admitParts x.part parts (saveDone n x fs) s'
            else admitParts x.part parts (saveDone n x fs) s
          | none => bif scrubWaiting s true || x.standing then s else withdraw n s
        else bif x.standing then s else withdraw n s
    else s

/-- The lines of bench store that a restore finds poisoned in a role's save pages. -/
def loadBad (s : State) (x : Prog) (o : Bench) (fs : List Nat) : List Nat :=
  (savedGrans x o).zipIdx.flatMap fun g => ((List.range fs.length).flatMap fun k =>
    (badLines s ((fs[k]?).getD 0 * 2 ^ 21) (2 ^ 21)).map fun l => l - (fs[k]?).getD 0 * 32768 + k * 32768).filterMap fun q =>
      bif q / 1024 == g.2 then some (g.1 * 1024 + q % 1024) else none

/-- A saved bench loaded on physical bench `b`: granules keep their numbers, staging is reserved again (R259, R260); the sequencer's
registers that no state record holds keep what the placement gave them (R115). -/
def loadBench (s : State) (x : Prog) (b : Nat) (o : Bench) (fs : List Nat) : Bench :=
  let c := bench s b
  let y := { o with gens := c.gens, badLines := loadBad s x o fs, yielded := none, seq := bif o.seq == 3 then 1 else o.seq
                    fvalid := c.fvalid, ford := c.ford, fstatus := c.fstatus, foff := c.foff, fcount := c.fcount
                    issued := c.issued, stalled := c.stalled }
  x.groups.foldl (fun y g => bif isMember s g o.role then grantAll (.staging g.group) (stagingPick y (stagingGrans g)) y else y) y

/-- The saved state is loaded, every role goes on after its YIELD and the save pages go to scrubbing. -/
def restoreDone (n : Nat) (x : Prog) (s : State) : State :=
  let s := x.saveFrames.flatten.foldl (fun s f => flawsSeen (f * 2 ^ 21) (2 ^ 21) s) s
  let s := (x.place.zip (x.saved.zip x.saveFrames)).foldl (fun s c => setBench c.1 (loadBench s x c.1 c.2.1 c.2.2) s) s
  setProg n { x with state := bif x.standing then .preempting else .running, saved := [], savePages := 0, saveFrames := [], placed := s.time,
                     preempt := bif x.standing then some s.time else none } (releaseSaved x s)

/-- RESTORE_COMPLETE: the saved state is loaded and every role goes on after its YIELD (R66), as fast as the regulators admit it (R261). -/
def restoreComplete (n : Nat) (s : State) : State :=
  match tget? s.progs n with
  | none => s
  | some x =>
    bif x.state == .restoring then
      admitParts x.part ((x.saved.zip x.saveFrames).flatMap fun c => savedParts c.2 (stoppedBytes x c.1)) (restoreDone n x) s
    else s

def execRestoreComplete (prog : Nat) (t : Time) (s : State) : Host.Outcome State Fault Refusal :=
  .next (restoreComplete prog (atTime t s))

/-- QUANTUM_EXPIRE: a program has run QUANTUM since its placement and may be preempted for one of equal priority (R257). -/
def quantumExpire (n : Nat) (s : State) : State :=
  match tget? s.progs n with
  | none => s
  | some x =>
    let q := fld s .schCtl x.part 0 15 8
    bif x.state == .running && !(q == 0) && Nat.ble (x.placed + q * 1000000) s.time then
      setProg n { x with quantum := true } s
    else s

def execQuantumExpire (prog : Nat) (t : Time) (s : State) : Host.Outcome State Fault Refusal :=
  .next (quantumExpire prog (atTime t s))

end Sys2Proof.Machine
end

