-- ==== Sys2Proof/Machine/Sequencer.lean ====
section
/-! DEFINITION. The bench sequencer: the issue procedure (R107 to R110), the unit 0 instructions of Table 3.6, channels and ports
(R46 to R53, R82, R91 to R93), and the issue checks of R549. -/

namespace Sys2Proof.Machine

/-! ## Channels -/

/-- The bench of role `r` of the program on bench `b`. -/
def peerBench (s : State) (b r : Nat) : Option Nat :=
  match (bench s b).prog with
  | none => none
  | some n => match tget? s.progs n with | some x => x.place[r]? | none => none

def chan? (s : State) (b id : Nat) : Option Channel := tget? (bench s b).chans id
def modChan (b id : Nat) (f : Channel → Channel) (s : State) : State :=
  modBench b (fun x => match tget? x.chans id with
    | some c => { x with chans := tset x.chans id (f c) }
    | none => x) s

/-- Where the channel of a port lies: the consumer's bench and the identifier, when a channel with that identifier stands there
(for an out port, one opened with this role as its producer). -/
def portChan (s : State) (b : Nat) (p : Port) : Option (Nat × Nat × Channel) :=
  match p.dir with
  | .out =>
    match peerBench s b p.role with
    | none => none
    | some c =>
      match chan? s c p.id with
      | some ch => bif ch.bridge && ch.prodRole == (bench s b).role then some (c, p.id, ch) else none
      | none => none
  | _ =>
    match chan? s b p.id with
    | some ch => some (b, p.id, ch)
    | none => none

/-- Whether the channel that an out port leads to was opened for a producer other than station `ord` of this role (R82). -/
def notProducer (s : State) (b ord : Nat) (p : Port) : Bool :=
  match peerBench s b p.role with
  | none => false
  | some c =>
    match chan? s c p.id with
    | some ch => !(ch.bridge && ch.prodRole == (bench s b).role && ch.prod == ord)
    | none => false

/-- The bench that produces into a channel of bench `b`. -/
def producerBench (s : State) (b : Nat) (ch : Channel) : Option Nat :=
  bif ch.bridge then peerBench s b ch.prodRole else some b

/-- How many credits of channel `id` of bench `c` an entry of bench `b` holds for writes of its own: it has started, and its packets are
not yet on their way. An executed SPXF has its packet on the way to the slot. -/
def entryWrites (s : State) (b c id : Nat) (e : Entry) : Nat :=
  bif e.phase == .queued || (e.phase == .executed && wUnit e.word == 6 && wOpc e.word == 5) then 0
  else ((tileUse e.word).2.1.filter fun k =>
    match ePort e k with
    | some p =>
      p.id == id && (match p.dir with
        | .loc => b == c
        | .out => peerBench s b p.role == some c
        | .inn => false)
    | none => false).length

/-- Credits held by writes that have started and are not yet on their way to the slot (R49). -/
def heldCredits (s : State) (c id : Nat) (ch : Channel) : Nat :=
  match producerBench s c ch with
  | none => 0
  | some b => sumNat ((tget (bench s b).queues ch.prod []).map (entryWrites s b c id))

/-- Free credits of a channel (R49). -/
def freeCredits (s : State) (c id : Nat) (ch : Channel) : Nat :=
  ch.credits - (ch.packets.length + ch.reading + ch.writing.length + ch.returning + heldCredits s c id ch)

/-- The program on a bench. -/
def benchProg (s : State) (b : Nat) : Option Prog :=
  match (bench s b).prog with
  | some n => tget? s.progs n
  | none => none

/-! ## What an issue step comes to -/

/-- A sequencer faults: the report carries ordinal 15 and the offset of the word, and the sequencer stops (R112, R115, R549). -/
def seqFault (b : Nat) (st : Status) (s : State) : State :=
  modBench b (fun x => { x with seq := 5, cause := 0 }) (reportFault b 15 (bench s b).pc st s)

/-- A sequencer stalls for this cycle with a cause of Table 3.13. -/
def seqStall (b cause : Nat) (s : State) : State :=
  modBench b (fun x => { x with seq := 2, cause := cause, stalled := x.stalled + 1 }) s

/-- A branch target: inside the control stream and a multiple of 16 (R87). -/
def targetOk (x : Bench) (t : Int) : Bool := decide (0 ≤ t) && decide (t < (x.slen : Int)) && t % 16 == 0

/-- BR and BRS end every open loop whose body the target leaves, the innermost first (R89). -/
def leaveLoops (t : Nat) : List LoopEntry → List LoopEntry
  | [] => []
  | l :: ls => bif Nat.ble l.start t && Nat.blt t l.stop then l :: ls else leaveLoops t ls

/-- What the execution of a unit 0 instruction comes to. -/
inductive SeqRes where
  | fault (st : Status)
  | stall (cause : Nat)
  /-- It has issued, with its effect on the bench; the next pc. -/
  | done (x : Bench) (npc : Nat)

/-! ## Unit 0 instructions (Table 3.6) -/

/-- The scalar operand `n` of a word, read now (R81). -/
def sOf (x : Bench) (w : W128) (n : Nat) : W64 := getS x (wIndex w n)
def pOf (x : Bench) (w : W128) (n : Nat) : Bool := getP x (wIndex w n)

/-- A result written to O1, and on to the next word. -/
def seqPutS (x : Bench) (w : W128) (v : W64) : SeqRes := .done (putS (wIndex w 1) v x) (x.pc + 16)
/-- An operation on two scalars. -/
def alu (x : Bench) (w : W128) (f : W64 → W64 → W64) : SeqRes := seqPutS x w (f (sOf x w 2) (sOf x w 3))
/-- IMM sign-extended to 64 bits. -/
def simm (w : W128) (n : Nat) : W64 := BitVec.ofInt 64 (signed n (wImm w))

/-- SMIN and SMAX: MOD[0] = 0 compares signed, 1 unsigned. -/
def below (w : W128) (a b : W64) : Bool := bif bit (wMod w) 0 then a.ult b else a.slt b

/-- SLD (R84). -/
def seqSld (s : State) (b : Nat) (x : Bench) (w : W128) : SeqRes :=
  let a := (sOf x w 2 + BitVec.ofNat 64 (wImmBits w 23 0)).toNat
  bif !(a % 8 == 0) || !(holdsBytes x a 8) then .fault 0x0206
  else bif storeBad x a 8 then .fault arrayError
  else seqPutS x w (BitVec.ofNat 64 (leNat (storeRead s b a 8)))
/-- SST (R84, R85). -/
def seqSst (x : Bench) (w : W128) : SeqRes :=
  let a := (sOf x w 2 + BitVec.ofNat 64 (wImmBits w 23 0)).toNat
  bif !(a % 8 == 0) || !(holdsBytes x a 8) then .fault 0x0206
  else .done (storeWrite a (leBytes 8 (sOf x w 1).toNat) x) (x.pc + 16)

/-- The condition of SCMP by MOD[2:0]. -/
def scmpCond (m : Nat) (a b : W64) : Bool :=
  match m with
  | 0 => a == b
  | 1 => !(a == b)
  | 2 => a.slt b
  | 3 => a.sle b
  | 4 => a.ult b
  | _ => a.ule b
/-- The operation of PLOG by MOD[1:0]. -/
def plogOp (m : Nat) (a b : Bool) : Bool :=
  match m with
  | 0 => a && b
  | 1 => a || b
  | 2 => xor a b
  | _ => a && !b

/-- Whether an entry with this id still stands in a queue of the bench. -/
def entryLive (x : Bench) (eid : Nat) : Bool :=
  x.queues.any (fun q => q.2.any fun e => e.eid == eid) || x.sysq.any (fun e => e.eid == eid)
    || (match x.taken with | some e => e.eid == eid | none => false)

/-- Whether a handle has a writer that has not retired, and whether it has such readers (R109). -/
def writerLive (x : Bench) (t : Nat) : Bool := match tget? x.uses t with | some u => u.writer.isSome | none => false
def readersLive (x : Bench) (t : Nat) : Bool := match tget? x.uses t with | some u => !(u.readers.isEmpty) | none => false

/-- THSET (R86): the header is read from the start line and not checked. -/
def seqThset (s : State) (b : Nat) (x : Bench) (w : W128) : SeqRes :=
  let n := wImmBits w 8 0
  let line := (sOf x w 2).toNat
  let t := wIndex w 1
  bif Nat.blt 257 n then .fault 0x0201
  else bif !(holdsBytes x (line * 256) (n * 256)) then .fault 0x0206
  else bif writerLive x t || readersLive x t then .stall 4
  else bif storeBad x (line * 256) 64 then .fault arrayError
  else .done (putT t ⟨line, n, BitVec.ofNat 512 (leNat (storeRead s b (line * 256) 64))⟩ x) (x.pc + 16)
/-- THMOV (R109). -/
def seqThmov (x : Bench) (w : W128) : SeqRes :=
  match getT x (wIndex w 2) with
  | none => .fault 0x0202
  | some h =>
    bif writerLive x (wIndex w 2) || writerLive x (wIndex w 1) || readersLive x (wIndex w 1) then .stall 4
    else .done (putT (wIndex w 1) h x) (x.pc + 16)
/-- The field of a header that THGET selects: first byte and length. -/
def thgetField : Nat → Nat × Nat
  | 0 => (0, 2) | 1 => (2, 1) | 2 => (3, 1) | 3 => (4, 2) | 4 => (6, 1) | 5 => (7, 1) | 6 => (8, 4) | 7 => (12, 4)
  | 8 => (16, 4) | 9 => (20, 4) | 10 => (24, 2) | 11 => (26, 2) | 12 => (28, 2) | 13 => (30, 2) | _ => (32, 4)
/-- THGET. -/
def seqThget (x : Bench) (w : W128) : SeqRes :=
  match getT x (wIndex w 2) with
  | none => .fault 0x0202
  | some h =>
    bif writerLive x (wIndex w 2) then .stall 4
    else
      let m := wModBits w 3 0
      let f := thgetField m
      let v := bif m == 15 then h.start + h.lines * 2 ^ 32 else bits h.hdr.toNat (8 * (f.1 + f.2) - 1) (8 * f.1)
      seqPutS x w (BitVec.ofNat 64 v)

/-- Granules that a channel needs: credits × slot lines, 256 lines to a granule (R46). -/
def chanGrans (credits slot : Nat) : Nat := (credits * slot + 255) / 256

/-- The parameter checks of CHOPEN (R47, R91). -/
def chopenBad (x : Bench) (w : W128) : Bool :=
  let slot := wImmBits w 48 40
  let kind := bit (wImm w) 31
  Nat.blt 16 (wImmBits w 53 49) || slot == 0 || Nat.blt 257 slot || Nat.blt 12 (wImmBits w 39 36) || Nat.blt 12 (wImmBits w 35 32)
    || (kind && !(wImmBits w 39 36 == 10) && !(wImmBits w 39 36 == 11)) || (kind && wImmBits w 30 26 == x.role)

/-- CHOPEN (R46, R47, R91, R92, R222, R223). -/
def seqChopen (x : Bench) (w : W128) : SeqRes :=
  let id := wImmBits w 59 54
  let credits := wImmBits w 53 49
  let slot := wImmBits w 48 40
  let cons := wImmBits w 35 32
  let bridge := bit (wImm w) 31
  bif chopenBad x w then .fault 0x0204
  else
    match tget? x.chans id with
    | some c => bif c.closing then .stall 10 else .fault 0x0203
    | none =>
      let n := chanGrans credits slot
      let own := freeGrans x (farOrdinal cons)
      let other := freeGrans x (!(farOrdinal cons))
      let pick := bif Nat.ble n own.length then own.take n else other.take n
      bif Nat.ble n own.length || Nat.ble n other.length then
        let x := pick.foldl (fun x g => grant g (.channel id) x) x
        let far := bif Nat.ble n own.length then farOrdinal cons else !(farOrdinal cons)
        let ch : Channel := ⟨false, wImmBits w 39 36, cons, credits, slot, bridge, wImmBits w 30 26, far, pick, [], 0, [], 0⟩
        .done (putC (wIndex w 1) ⟨id, bif bridge then .inn else .loc, 0⟩ { x with chans := tset x.chans id ch }) (x.pc + 16)
      else bif x.chans.any (fun c => c.2.closing) then .stall 11
      else .fault 0x0281

/-- CHCLOSE (R92). -/
def seqChclose (x : Bench) (w : W128) : SeqRes :=
  match getC x (wIndex w 1) with
  | none => .fault 0x0205
  | some p =>
    let y := dropC (wIndex w 1) x
    match p.dir with
    | .out => .done y (x.pc + 16)
    | _ =>
      let chans := match tget? y.chans p.id with | some c => tset y.chans p.id { c with closing := true } | none => y.chans
      .done { y with chans := chans } (x.pc + 16)

/-- PBIND (R93). -/
def seqPbind (x : Bench) (w : W128) : SeqRes :=
  let id := wImmBits w 59 54
  let c := wIndex w 1
  let isOpen := match tget? x.chans id with | some ch => !ch.closing | none => false
  match wImmBits w 53 52 with
  | 0 => .done (dropC c x) (x.pc + 16)
  | 1 => bif isOpen then .done (putC c ⟨id, .loc, 0⟩ x) (x.pc + 16) else .fault 0x0205
  | 2 => bif isOpen then .done (putC c ⟨id, .inn, 0⟩ x) (x.pc + 16) else .fault 0x0205
  | _ => .done (putC c ⟨id, .out, wImmBits w 51 47⟩ x) (x.pc + 16)

/-- CHSTAT: free credits, packets present, open, closing. -/
def seqChstat (s : State) (b : Nat) (x : Bench) (w : W128) : SeqRes :=
  match getC x (wIndex w 2) with
  | none => .fault 0x0205
  | some p =>
    match portChan s b p with
    | none => seqPutS x w 0
    | some (c, id, ch) =>
      seqPutS x w (BitVec.ofNat 64 (freeCredits s c id ch % 32 + ch.packets.length % 32 * 2 ^ 8 + b01 (!ch.closing) * 2 ^ 16
        + b01 ch.closing * 2 ^ 17))

/-- A branch to `t` (R87, R89). -/
def seqBranch (x : Bench) (t : Int) : SeqRes :=
  bif targetOk x t then .done { x with loops := leaveLoops t.toNat x.loops } t.toNat else .fault 0x0207
/-- The target of BR and CALL: relative to the word itself. -/
def relTarget (x : Bench) (w : W128) : Int := (x.pc : Int) + 16 * signed 32 (wImmBits w 31 0)

/-- LOOP (R88). -/
def seqLoop (x : Bench) (w : W128) : SeqRes :=
  let n := (sOf x w 2).toNat
  let stop := x.pc + 16 + 16 * wImmBits w 15 0
  bif Nat.blt 0xFFFFFFFF n then .fault 0x0201
  else bif Nat.ble 4 x.loops.length then .fault 0x0208
  else
    let enclosed := match x.loops with
      | l :: _ => Nat.ble l.start x.pc && Nat.blt x.pc l.stop && Nat.blt l.stop stop
      | [] => false
    bif Nat.blt x.slen stop || enclosed then .fault 0x0207
    else .done { x with loops := ⟨x.pc + 16, stop, n - 1, x.rets.length⟩ :: x.loops } (x.pc + 16)
/-- CALL (R87, R89, R90). -/
def seqCall (x : Bench) (w : W128) : SeqRes :=
  let t := relTarget x w
  bif !(targetOk x t) then .fault 0x0207
  else bif Nat.ble 16 x.rets.length then .fault 0x0208
  else .done { x with rets := ⟨x.pc + 16, x.loops.length⟩ :: x.rets } t.toNat
/-- RET (R87, R89, R90). -/
def seqRet (x : Bench) : SeqRes :=
  match x.rets with
  | [] => .fault 0x0208
  | r :: rs =>
    bif targetOk x (r.off : Int) then .done { x with rets := rs, loops := x.loops.drop (x.loops.length - r.depth) } r.off
    else .fault 0x0207

/-- Whether a queue that WAITQ names holds an instruction that has not retired (R94). -/
def queuesBusy (x : Bench) (mask : Nat) : Bool :=
  (List.range 13).any (fun k => bit mask k && !((tget x.queues k []).isEmpty))
    || (bit mask 13 && (!(x.sysq.isEmpty) || x.taken.isSome))

/-- Whether an instruction of a station writes bench store: a tile, a slot, a record or plain bytes (Table 3.8). -/
def writesStore (w : W128) : Bool :=
  match wUnit w, wOpc w with
  | 1, 2 => true | 1, _ => false
  | 2, 4 => false | 2, _ => true
  | 3, 3 => false | 3, _ => true
  | 4, _ => true | 5, _ => true
  | 6, 6 => false | 6, _ => true
  | 7, _ => true | _, _ => false

/-- Whether a channel write by a station of the bench is on its way to its slot. -/
def writesInFlight (s : State) (b : Nat) : Bool :=
  s.benches.any fun c => c.2.chans.any fun ch => !(ch.2.writing.isEmpty) && producerBench s c.1 ch.2 == some b

/-- Whether an instruction of unit 8 with one of these opcodes waits in the system queue, or has been taken and not accepted. -/
def sysWaits (x : Bench) (opcs : List Nat) : Bool :=
  (x.sysq ++ x.taken.toList).any fun e => wUnit e.word == 8 && opcs.contains (wOpc e.word)

/-- Whether a split request of a role has not completed: its record is still to be written (R103). -/
def roleReqs (s : State) (n r : Nat) : Bool := s.reqs.any fun q => q.2.prog == some n && q.2.role == r && !q.2.done

/-- Whether the scope of a FENCE is met (Table 3.8): RPUT and RGET write their records in bench store, and RST, RAMO and RPUT reach
their homes. Sprue writes to device memory retire when they have landed, so scope 1 holds when scope 0 does. -/
def fenceMet (s : State) (b : Nat) (x : Bench) (scope : Nat) : Bool :=
  let open_ := fun (f : Nat → Nat → Bool) => match x.prog with | some n => f n x.role | none => false
  !(x.queues.any fun q => q.2.any fun e => writesStore e.word) && !(writesInFlight s b)
    && !(sysWaits x [4, 5]) && !(open_ (roleReqs s))
    && (Nat.blt scope 2 || !(sysWaits x [2, 3, 4] || open_ (remoteOpen s)))

/-- WAITC (R95). -/
def seqWaitc (s : State) (b : Nat) (x : Bench) (w : W128) : SeqRes :=
  let n := wImmBits w 4 0
  match getC x (wIndex w 2) with
  | none => .fault 0x0205
  | some p =>
    bif Nat.blt 16 n then .fault 0x0201
    else
      match portChan s b p, p.dir with
      | some (c, id, ch), .out => bif Nat.ble n (freeCredits s c id ch) && !ch.closing then .done x (x.pc + 16) else .stall 7
      | some (_, _, ch), _ => bif Nat.ble n ch.packets.length then .done x (x.pc + 16) else .stall 7
      | none, .out => .stall 7
      | none, _ => .fault 0x0205

/-- YIELD (R63, R64, Table 3.10): with a request pending it holds until the role stops here (ROLE_STOP_AT_YIELD). -/
def seqYield (s : State) (b : Nat) (x : Bench) (w : W128) : SeqRes :=
  let id := wImmBits w 15 0
  match benchProg s b with
  | none => .fault 0x020A
  | some p =>
    bif (yieldEntry p x.role id).isNone then .fault 0x020A
    else bif p.preempt.isSome then .stall 9 else .done x (x.pc + 16)

/-- BENCHID: die, bench within the die, home and far sector. -/
def benchIdWord (b : Nat) : Nat := b / 8 + b % 8 * 4 + homeIdx (b % 8) * 2 ^ 5 + farIdx (b % 8) * 2 ^ 8

/-- A unit 0 instruction that has passed decode, predicate and zero-count, executed at issue. -/
def seqExec (s : State) (b : Nat) (x : Bench) (w : W128) : SeqRes :=
  match wOpc w with
  | 0x01 => alu x w (· + ·)
  | 0x02 => alu x w (· - ·)
  | 0x03 => alu x w (· * ·)
  | 0x04 => alu x w (· &&& ·)
  | 0x05 => alu x w (· ||| ·)
  | 0x06 => alu x w (· ^^^ ·)
  | 0x07 => alu x w fun a c => a <<< (c.toNat % 64)
  | 0x08 => alu x w fun a c => a >>> (c.toNat % 64)
  | 0x09 => alu x w fun a c => a.sshiftRight (c.toNat % 64)
  | 0x0A => alu x w fun a c => bif below w c a then c else a
  | 0x0B => alu x w fun a c => bif below w a c then c else a
  | 0x0C => seqPutS x w (simm w 60)
  | 0x0D => seqPutS x w (BitVec.ofNat 64 (wImmBits w 31 0 * 2 ^ 32 + (sOf x w 1).toNat % 2 ^ 32))
  | 0x0E => seqPutS x w (sOf x w 2 + simm w 60)
  | 0x10 => seqSld s b x w
  | 0x11 => seqSst x w
  | 0x18 => .done (putP (wIndex w 1) (scmpCond (wModBits w 2 0) (sOf x w 2) (sOf x w 3)) x) (x.pc + 16)
  | 0x19 => .done (putP (wIndex w 1) (plogOp (wModBits w 1 0) (pOf x w 2) (pOf x w 3)) x) (x.pc + 16)
  | 0x20 => seqThset s b x w
  | 0x21 => seqThmov x w
  | 0x22 => seqThget x w
  | 0x28 => seqChopen x w
  | 0x29 => seqChclose x w
  | 0x2A => seqPbind x w
  | 0x2B => seqChstat s b x w
  | 0x30 => seqBranch x (relTarget x w)
  | 0x31 => seqBranch x ((sOf x w 2).toNat : Int)
  | 0x32 => seqLoop x w
  | 0x33 => seqCall x w
  | 0x34 => seqRet x
  | 0x38 => bif queuesBusy x (wImmBits w 13 0) then .stall 5 else .done x (x.pc + 16)
  | 0x39 => bif pOf x w 2 == !(bit (wMod w) 0) then .done x (x.pc + 16) else .stall 6
  | 0x3A => bif fenceMet s b x (wModBits w 1 0) then .done x (x.pc + 16) else .stall 8
  | 0x3B => seqWaitc s b x w
  | 0x3C => seqYield s b x w
  | 0x3F => seqPutS x w (BitVec.ofNat 64 (benchIdWord b))
  | _ => .done x (x.pc + 16)

/-! ## Issue checks of the queued instructions (R549) -/

/-- A port read through at issue (R82): bound local or in, its channel open with this station as consumer. -/
def readPortBad (s : State) (b ord : Nat) (p : Option Port) : Bool :=
  match p with
  | none => true
  | some p =>
    match p.dir with
    | .out => true
    | d =>
      match chan? s b p.id with
      | none => true
      | some c => !(c.cons == ord) || !(c.bridge == (d == .inn))

/-- A port written through at issue (R82): bound local or out with this station as the channel's producer. A bridge that the
consumer has not opened is not checked (R52, R93); only a Sprue produces into one (R51). -/
def writePortBad (s : State) (b unit ord : Nat) (p : Option Port) : Bool :=
  match p with
  | none => true
  | some p =>
    match p.dir with
    | .inn => true
    | .out =>
      !(unit == 6) || notProducer s b ord p
    | .loc =>
      match chan? s b p.id with
      | none => true
      | some c => !(c.prod == ord) || c.bridge

/-- The check of one tile operand at issue: a handle written (R45), a port usable in its direction (R82, R143), SPXF's
destination bound out (Table 4.15). -/
def tileCheck (s : State) (b ord : Nat) (x : Bench) (w : W128) (k : Nat) : Status :=
  let use := tileUse w
  let i := wIndex w k
  bif wFile w k == 2 then failIf (getT x i).isNone 0x0202
  else bif use.2.2.contains k then 0x0205
  else bif use.2.1.contains k then
    failIf (writePortBad s b (wUnit w) ord (getC x i)
      || (wUnit w == 6 && wOpc w == 5 && !(match getC x i with | some p => p.dir == .out | none => true))) 0x0205
  else failIf (readPortBad s b ord (getC x i)) 0x0205

/-- A port named twice, or a destination handle also named elsewhere (R118). -/
def aliased (w : W128) : Bool :=
  let use := tileUse w
  let all := use.1 ++ use.2.1 ++ use.2.2
  let dst := use.2.1 ++ use.2.2
  all.any fun k => all.any fun j => !(j == k) && wOperand w k == wOperand w j
    && (wFile w k == 3 || dst.contains k || dst.contains j)

/-- The limits that an operand sets, checked in its turn: the slot of QNT's destination (R50), and the counts that a scalar gives (R100,
R146, R149, R151, R161, R212). -/
def operandLimit (s : State) (b : Nat) (x : Bench) (w : W128) (v : Nat → Nat) (n : Nat) : Status :=
  match wUnit w, wOpc w, n with
  | 2, 1, 2 =>
    failIf (bit (wMod w) 3 && wFile w 2 == 3 && (match getC x (wIndex w 2) with
      | some p => (match portChan s b p with | some (_, _, c) => Nat.blt c.slot 67 | none => false)
      | none => false)) 0x010A
  | 4, 3, 3 => failIf (Nat.blt 128 (v 3)) 0x0201
  | 4, 4, 3 => failIf (Nat.blt 128 (v 3)) 0x0201
  | 7, 1, 3 => failIf (Nat.blt 1048576 (v 3)) 0x0201
  | 7, 2, 3 => failIf (Nat.blt 1048576 (v 3)) 0x0201
  | 9, 0x41, 3 => failIf (Nat.blt 65536 (v 2 + v 3)) 0x0201
  | 9, 0x42, 3 => failIf (Nat.blt 65536 (v 2 + v 3)) 0x0201
  | _, _, _ => 0

/-- The modifier and immediate checks of QNT (R134) and HAD (R139), and the limits on counts given by IMM (R99, R100, R141, R161, R229),
and the operands of CENSUS and EVPOST (R501, R507). -/
def limitCheck (s : State) (b : Nat) (w : W128) (v : Nat → Nat) : Status :=
  let i := fun h l => wImmBits w h l
  let m := wMod w
  match wUnit w, wOpc w with
  | 2, 1 =>
    failIf ((bit m 2 && !(isSpillFmt (wFmt w))) || (bit m 3 && !(isNarrowFmt (wFmt w))) || (bit m 6 && !(bit m 3))
        || (bit m 1 && (i 2 0 == 0 || Nat.blt 4 (i 2 0)))) 0x0184
  | 2, 3 => failIf (i 2 0 == 0 || Nat.blt 4 (i 2 0)) 0x0184
  | 3, 3 => failIf (Nat.blt 16 (i 7 3)) 0x0201
  | 3, 4 => failIf (Nat.blt 128 (i 7 0) || Nat.blt 128 (i 15 8)) 0x0201
  | 5, 1 => failIf (Nat.blt 1 (i 15 0) && wFile w 1 == 2) 0x0201
  | 7, 1 => failIf (Nat.blt 32 (i 5 0) || Nat.blt 8 (i 9 6)) 0x0201
  | 7, 2 => failIf (Nat.blt 32 (i 5 0) || Nat.blt 8 (i 9 6)) 0x0201
  | 9, 0x08 => failIf (Nat.blt 192 (i 8 0)) 0x0201
  | 9, 0x09 => failIf (Nat.blt 192 (i 8 0)) 0x0201
  | 9, 0x41 => failIf (!(flag s .numCtl (benchPart s b) 0 0)) 0x0602
  | 9, 0x42 => failIf (!(flag s .numCtl (benchPart s b) 0 0)) 0x0602
  | 9, 0x60 => failIf (!(v 2 / 2 ^ 48 == 0) || !(v 2 % 64 == 0) || !(v 3 % 64 == 0) || Nat.blt (v 3) 64) 0x0308
  | 9, 0x61 => failIf (Nat.blt (wModBits w 2 0) 2 || Nat.blt 4 (wModBits w 2 0)) 0x0308
  | _, _ => 0

/-! ## Pointers (R358, R359) and the issue checks of unit 8 -/

def ptrSpace (v : Nat) : Nat := bits v 50 48
def ptrNode (v : Nat) : Nat := bits v 63 51
def ptrOff (v : Nat) : Nat := bits v 47 0
/-- Reserved SPACE, or NODE not zero in space 0 (R359). -/
def ptrBad (v : Nat) : Bool := Nat.ble 3 (ptrSpace v) || (ptrSpace v == 0 && !(ptrNode v == 0))
/-- The rank a pointer names (R359). -/
def ptrRank (v : Nat) : Nat := ptrNode v + 8192 * (ptrSpace v - 1)
/-- The rank entry of a pointer; for space 0 the own partition on this part, as a valid entry (R359, R360). -/
def ptrEntry (s : State) (p v : Nat) : Nat :=
  bif ptrSpace v == 0 then 1 + ownNode s * 2 ^ 16 else rankEntry s p (ptrRank v)
/-- Whether a rank entry goes through a gateway. -/
def entryGw (e : Nat) : Bool := bit e 1

/-- The operand that holds the pointer to the home (Tables 11.3, 4.15). -/
def homeOperand (w : W128) : Option Nat :=
  match wUnit w, wOpc w with
  | 8, 4 => some 1
  | 8, n => bif Nat.blt n 0x80 then some 2 else none
  | 6, 1 => some 2 | 6, 2 => some 1 | 6, 3 => some 2 | 6, 4 => some 2 | 6, 6 => some 2
  | _, _ => none

/-- Pieces of `n` bytes cut at the 2 MiB boundaries of two addresses (R101, R385): offset and length. -/
def cutPieces : Nat → Nat → Nat → Nat → Nat → List (Nat × Nat)
  | 0, _, _, _, _ => []
  | f + 1, a, b, o, n =>
    bif n == 0 then []
    else
      let k := Nat.min n (Nat.min (2 ^ 21 - a % 2 ^ 21) (2 ^ 21 - b % 2 ^ 21))
      (o, k) :: cutPieces f (a + k) (b + k) (o + k) (n - k)

/-- AOPs of 4 bytes (Table 11.4). -/
def aopNarrow (n : Nat) : Bool := n == 0 || n == 2 || n == 3 || n == 5 || n == 7 || n == 8 || n == 10 || n == 12 || n == 13

/-- The checks of a pointer operand at issue (R359, R360). -/
def ptrIssue (s : State) (p v : Nat) : Status :=
  firstStatus [failIf (ptrBad v) 0x0481, failIf (!(bit (ptrEntry s p v) 0)) 0x0483]

/-- The group of a role of a program, when the role is a member (R393). -/
def groupOfWord (s : State) (b : Nat) (w : W128) : Option GroupDesc :=
  match benchProg s b with
  | none => none
  | some x => (x.groups.find? fun g => g.group == wImmBits w 15 0).bind fun g =>
      bif isMember s g (bench s b).role then some g else none

/-- The checks of a collective at issue (R398), in the order of that rule. -/
def collIssue (s : State) (b : Nat) (w : W128) (v : Nat → Nat) : Status :=
  let m := wMod w
  let opc := wOpc w
  match groupOfWord s b w with
  | none => 0x0705
  | some g =>
    let n := g.members.length
    let stype := bits m 4 2
    let rop := bits m 1 0
    let modeBad := (opc == 0x81 && (rop == 3 || Nat.ble 5 stype || (Nat.ble 3 stype && !(rop == 0))))
      || ((opc == 0x82 || opc == 0x83) && rop == 3) || (opc == 0x85 && Nat.ble n (wImmBits w 37 22))
    let count := wImmBits w 25 22
    let regs := bif Nat.ble 3 stype then 2 * count else count
    let d := wIndex w 1
    let len := v 3
    let tensor := Nat.ble 0x82 opc
    let ptrs := [v 1, v 2]
    let outLen := bif opc == 0x84 then n * len else bif opc == 0x83 then len / n else len
    firstStatus [failIf modeBad 0x0706,
      failIf (opc == 0x81 && Nat.blt 8 count) 0x0201,
      failIf (opc == 0x81 && (d == 0 || Nat.blt 64 (d + regs))) 0x0706,
      failIf (tensor && Nat.blt (2 ^ 32 - 64) len) 0x0201,
      failIf (tensor && (ptrs.any (fun p => !(p / 2 ^ 48 == 0) || !(p % 64 == 0)) || !(len % 64 == 0)
        || ((opc == 0x82 || opc == 0x83) && !(len % (64 * n) == 0))
        || Nat.blt (2 ^ 48) (v 2 + len) || Nat.blt (2 ^ 48) (v 1 + outLen))) 0x0706]

/-- The issue checks of unit 8 (R101, R359, R360, R363, R365, R382, R389, R398). -/
def remoteIssue (s : State) (b : Nat) (x : Bench) (w : W128) (v : Nat → Nat) : Status :=
  let p := benchPart s b
  let m := wMod w
  let e := ptrEntry s p (v 2)
  let width := bif wOpc w == 3 then (bif aopNarrow (bits m 3 0) then 4 else 8) else bif bit m 0 then 8 else 4
  let off := fun n => ptrOff (v n)
  -- the near pointer is in space 0 (Table 11.3)
  let near := fun n => failIf (!(v n / 2 ^ 48 == 0)) 0x0481
  let split := fun c1 c2 => firstStatus [c1, failIf (!(off 1 % 64 == 0)) 0x0482, c2, failIf (!(off 2 % 64 == 0)) 0x0482,
    failIf (Nat.blt 134217728 (v 3)) 0x0201, failIf (!(v 3 % 64 == 0)) 0x0482,
    failIf (Nat.blt (2 ^ 48) (off 1 + v 3) || Nat.blt (2 ^ 48) (off 2 + v 3)) 0x0484,
    failIf (!(wImmBits w 23 0 % 32 == 0) || !(holdsBytes x (wImmBits w 23 0) 32)) 0x0206,
    failIf (Nat.blt 64 (cutPieces 200 (off 1) (off 2) 0 (v 3)).length) 0x0209]
  bif !(wUnit w == 8) then 0
  else
    match wOpc w with
    | 1 => firstStatus [ptrIssue s p (v 2), failIf (!(off 2 % width == 0)) 0x0482]
    | 2 => firstStatus [ptrIssue s p (v 2), failIf (!(off 2 % width == 0)) 0x0482]
    | 3 => firstStatus [ptrIssue s p (v 2), failIf (!(off 2 % width == 0)) 0x0482, failIf (entryGw e) 0x048A]
    | 4 => split (ptrIssue s p (v 1)) (near 2)
    | 5 => split (near 1) (ptrIssue s p (v 2))
    | 8 => firstStatus [ptrIssue s p (v 2), failIf (entryGw e) 0x048A]
    | _ => collIssue s b w v

/-- The issue checks of a queued instruction, in the order of the operands, then MOD and IMM (R549). -/
def issueChecks (s : State) (b ord : Nat) (x : Bench) (w : W128) (v : Nat → Nat) : Status :=
  let use := tileUse w
  let tiles := use.1 ++ use.2.1 ++ use.2.2
  let sid := match sidOperand w with
    | some k => fun n => failIf (n == k && Nat.ble (2 ^ 48) (v k)) 0x0184
    | none => fun _ => 0
  let per := fun n => firstStatus [bif tiles.contains n then tileCheck s b ord x w n else 0, operandLimit s b x w v n, sid n]
  firstStatus [failIf (aliased w) 0x018D, per 1, per 2, per 3, per 4, remoteIssue s b x w v, limitCheck s b w v]

/-! ## Entering a queue -/

/-- The scalars of O1 to O4, captured at issue; 0 for an operand that is no scalar (R81). CSRED's value registers follow (R398). -/
def captureVals (x : Bench) (w : W128) : List W64 :=
  ([1, 2, 3, 4].map fun n => bif wFile w n == 0 then sOf x w n else 0)
    ++ bif wUnit w == 8 && wOpc w == 0x81 then (List.range 16).map (fun k => getS x (wIndex w 1 + k)) else []
/-- The ports of O1 to O4, resolved at issue (R82). -/
def capturePorts (x : Bench) (w : W128) : List (Option Port) :=
  [1, 2, 3, 4].map fun n => bif wFile w n == 3 then getC x (wIndex w n) else none

/-- The handles that some operands of a word name, each once. -/
def handlesOf (w : W128) (ks : List Nat) : List Nat := ((ks.filter fun k => wFile w k == 2).map (wIndex w)).eraseDups

/-- Whether a ninth reader of a handle would be tracked (R109). -/
def readersFull (x : Bench) (w : W128) : Bool :=
  (handlesOf w (tileUse w).1).any fun t => match tget? x.uses t with | some u => Nat.ble 8 u.readers.length | none => false

/-- The seed slot that a Temper instruction names, when it uses one (R187). -/
def seedSlot (w : W128) : Option Nat :=
  match wUnit w, wOpc w with
  | 2, 1 => bif bit (wMod w) 0 || bit (wMod w) 1 then some (wImmBits w 19 16) else none
  | 2, 2 => bif bit (wMod w) 0 then some (wImmBits w 19 16) else none
  | 2, 3 => some (wImmBits w 19 16)
  | _, _ => none

/-- SEEDSETs to a slot that have not retired. -/
def seedsets (x : Bench) (n : Nat) : List Nat :=
  let l := x.sysq ++ (match x.taken with | some e => [e] | none => [])
  (l.filter fun e => wUnit e.word == 9 && wOpc e.word == 0x40 && wImmBits e.word 3 0 == n).map (·.eid)

/-- What an instruction waits for before it starts (R109, R187). -/
def depsOf (x : Bench) (w : W128) : List Nat :=
  let use := tileUse w
  let rd := handlesOf w (use.1 ++ use.2.2)
  let wr := handlesOf w (use.2.1 ++ use.2.2)
  let writers := (rd ++ wr).filterMap fun t => match tget? x.uses t with | some u => u.writer | none => none
  let readers := wr.flatMap fun t => match tget? x.uses t with | some u => u.readers | none => []
  let seeds := match seedSlot w with | some n => seedsets x n | none => []
  writers ++ readers ++ seeds

/-- The handle uses with a new entry noted (R109): readers that have not retired stay tracked when a new writer issues. -/
def noteUses (x : Bench) (w : W128) (eid : Nat) : Tab HandleUse :=
  let use := tileUse w
  let u := (handlesOf w use.1).foldl (fun u t => tmod u t ⟨none, []⟩ fun h => { h with readers := h.readers ++ [eid] }) x.uses
  (handlesOf w (use.2.1 ++ use.2.2)).foldl (fun u t => tmod u t ⟨none, []⟩ fun h => { h with writer := some eid }) u

/-- A completion predicate is cleared at issue and waits (R103). -/
def clearPred (w : W128) (x : Bench) : Bench :=
  match completionPred w with
  | none => x
  | some 0 => x
  | some n => { putP n false x with waitPreds := n :: x.waitPreds }

/-- A word enters its queue. -/
def enqueueWord (x : Bench) (w : W128) (rank : Nat) : Bench :=
  let e : Entry := ⟨x.nextId, x.pc, w, captureVals x w, capturePorts x w, rank, depsOf x w, .queued, 0, 0, [], []⟩
  let x := { x with nextId := x.nextId + 1, uses := noteUses x w e.eid }
  let x := clearPred w x
  bif Nat.ble 8 (wUnit w) then { x with sysq := x.sysq ++ [e] }
  else
    let k := ordinalOf (wUnit w) (wIdx w)
    { x with queues := tset x.queues k (tget x.queues k [] ++ [e]) }

/-- Whether the queue of a word is full: 32 entries of a station, 16 of the system queue (R108). -/
def queueFull (x : Bench) (w : W128) : Bool :=
  bif Nat.ble 8 (wUnit w) then Nat.ble 16 (x.sysq.length + b01 x.taken.isSome)
  else Nat.ble 32 (tget x.queues (ordinalOf (wUnit w) (wIdx w)) []).length

/-! ## The issue procedure -/

/-- The completion record of a request of length zero (R105, Table 3.9). -/
def emptyRecord : List Byte := leBytes 2 1 ++ leBytes 1 0 ++ leBytes 1 0xFF ++ List.replicate 28 0

/-- A completion predicate set, its wait over (R103). -/
def setPred (n : Nat) (x : Bench) : Bench := { putP n true x with waitPreds := x.waitPreds.filter (· != n) }

/-- A word with a count or length of zero completes at issue (R99, R105); a LOOP skips its body (R88). -/
def completeEmpty (b : Nat) (x : Bench) (w : W128) (s : State) : State :=
  let npc := bif wUnit w == 0 && wOpc w == 0x32 && sOf x w 2 == 0 then x.pc + 16 + 16 * wImmBits w 15 0 else x.pc + 16
  bif !(npc == x.pc + 16) && !(targetOk x (npc : Int)) then seqFault b 0x0207 s
  else
    let x := bif splitCapable w then
        setPred (wIndex w 4 % 16) (storeWrite (wImmBits w 23 0) emptyRecord x)
      else x
    setBench b (seqNext npc x) s

/-- A word with its operands read: issue checks, then execution in the sequencer or the way into its queue. -/
def issueOperands (b : Nat) (x : Bench) (w : W128) (s : State) : State :=
  bif wUnit w == 0 then
    match seqExec s b x w with
    | .fault st => seqFault b st s
    | .stall c =>
      let s := bif c == 9 then modBench b (fun x => { x with yielded := some (wImmBits w 15 0) }) s else s
      seqStall b c s
    | .done y npc =>
      let y := seqNext npc y
      setBench b (bif wOpc w == 0x3D then { y with seq := 4 } else y) s
  else
    let ord := bif Nat.ble 8 (wUnit w) then 13 else ordinalOf (wUnit w) (wIdx w)
    let vals := captureVals x w
    let v := fun n => ((vals[n - 1]?).getD 0).toNat
    let st := issueChecks s b ord x w v
    bif !(st == 0) then seqFault b st s
    else bif queueFull x w then seqStall b (bif Nat.ble 8 (wUnit w) then 3 else 2) s
    else bif readersFull x w then seqStall b 4 s
    else
      let rank := match homeOperand w with
        | some k => bif ptrBad (v k) then 0 else ptrEntry s (benchPart s b) (v k)
        | none => 0
      setBench b (seqNext (x.pc + 16) (enqueueWord x w rank)) s

/-- The sequencer of bench `b` takes word `w` at its pc: decode checks, predicate, interlock of the completion predicate,
zero counts, then the rest (R107, R110). -/
def issueWord (b : Nat) (w : W128) (s : State) : State :=
  let x := bench s b
  let st := decodeChecks w
  bif !(st == 0) then seqFault b st s
  else bif xor (getP x (wPsel w)) (wPinv w) == false then setBench b (seqNext (x.pc + 16) x) s
  else bif (match completionPred w with | some n => x.waitPreds.contains n | none => false) then seqStall b 4 s
  else
    let vals := captureVals x w
    let v := fun n => ((vals[n - 1]?).getD 0).toNat
    bif countZero w v then completeEmpty b x w s else issueOperands b x w s

/-- Whether the sequencer of a bench issues: its role runs or stalls (Table 3.13). -/
def seqRuns (x : Bench) : Bool := (x.seq == 1 || x.seq == 2) && x.prog.isSome

/-- A unit 0 command: the sequencer takes that word. -/
def seqCommand (b : Nat) (opc : Nat) (f : Fields) (s : State) : State :=
  bif seqRuns (bench s b) then issueWord b (wordOf 0 opc f) s else s

/-! ## Fetching -/

/-- The word of the stream buffer at a byte offset. -/
def bufferWord (x : Bench) (pc : Nat) : Option W128 :=
  bif Nat.ble x.bufAt (pc / 16) then x.buf[pc / 16 - x.bufAt]? else none

/-- Prefetch: while the pc lies in the buffer, words up to 64 ahead of it are fetched, and the buffer keeps its last 2,048. -/
def prefetch (b : Nat) (s : State) : State :=
  let x := bench s b
  let stop := x.bufAt + x.buf.length
  bif Nat.ble x.bufAt (x.pc / 16) && Nat.ble (x.pc / 16) stop && Nat.blt stop (x.pc / 16 + 64) && Nat.blt (16 * stop) x.slen then
    let n := x.pc / 16 + 64 - stop
    let s' := streamSeen (benchPart s b) x (16 * stop) n s
    match streamWords s (benchPart s b) x (16 * stop) n with
    | .error _ => s'
    | .ok ws =>
      let all := x.buf ++ ws
      setBench b { x with buf := keepLast bufferWords all, bufAt := stop + ws.length - (keepLast bufferWords all).length } s'
  else s

/-- ISSUE_STEP: one cycle of a sequencer (R107). -/
def issueStep (b : Nat) (s : State) : State :=
  let x := bench s b
  bif !(seqRuns x) then s
  else bif x.pc == x.slen then seqFault b 0x0207 s
  else
    match bufferWord x x.pc with
    | none => seqStall b 1 s
    | some w => prefetch b (issueWord b w s)

def execIssueStep (b : BenchId) (t : Time) (s : State) : Host.Outcome State Fault Refusal := .next (issueStep b.val (atTime t s))

/-- STREAM_BUFFER_FILL: a sequencer that stalls on a fetch has its words fetched from device memory. A fetch that fails faults the
role with the status of the access. -/
def streamFill (b : Nat) (s : State) : State :=
  let x := bench s b
  bif seqRuns x && x.cause == 1 && Nat.blt x.pc x.slen then
    let s' := streamSeen (benchPart s b) x x.pc bufferWords s
    match streamWords s (benchPart s b) x x.pc bufferWords with
    | .error st => seqFault b st s'
    | .ok ws => setBench b { x with bufAt := x.pc / 16, buf := ws, seq := 1, cause := 0 } s'
  else s

def execStreamBufferFill (b : BenchId) (s : State) : Host.Outcome State Fault Refusal := .next (streamFill b.val s)

/-! ## Meanings of the unit 0 commands -/

/-- SADD: the sequencer takes this word (R83). -/
def execSadd (b : BenchId) (f : Fields) (s : State) : Host.Outcome State Fault Refusal :=
  .next (seqCommand b.val 0x01 f s)
/-- SSUB: the sequencer takes this word (R83). -/
def execSsub (b : BenchId) (f : Fields) (s : State) : Host.Outcome State Fault Refusal :=
  .next (seqCommand b.val 0x02 f s)
/-- SMUL: the sequencer takes this word (R83). -/
def execSmul (b : BenchId) (f : Fields) (s : State) : Host.Outcome State Fault Refusal :=
  .next (seqCommand b.val 0x03 f s)
/-- SAND: the sequencer takes this word (R83). -/
def execSand (b : BenchId) (f : Fields) (s : State) : Host.Outcome State Fault Refusal :=
  .next (seqCommand b.val 0x04 f s)
/-- SOR: the sequencer takes this word (R83). -/
def execSor (b : BenchId) (f : Fields) (s : State) : Host.Outcome State Fault Refusal :=
  .next (seqCommand b.val 0x05 f s)
/-- SXOR: the sequencer takes this word (R83). -/
def execSxor (b : BenchId) (f : Fields) (s : State) : Host.Outcome State Fault Refusal :=
  .next (seqCommand b.val 0x06 f s)
/-- SSHL: the sequencer takes this word (R83). -/
def execSshl (b : BenchId) (f : Fields) (s : State) : Host.Outcome State Fault Refusal :=
  .next (seqCommand b.val 0x07 f s)
/-- SSHR: the sequencer takes this word (R83). -/
def execSshr (b : BenchId) (f : Fields) (s : State) : Host.Outcome State Fault Refusal :=
  .next (seqCommand b.val 0x08 f s)
/-- SSRA: the sequencer takes this word (R83). -/
def execSsra (b : BenchId) (f : Fields) (s : State) : Host.Outcome State Fault Refusal :=
  .next (seqCommand b.val 0x09 f s)
/-- SMIN: the sequencer takes this word (R83). -/
def execSmin (b : BenchId) (f : Fields) (s : State) : Host.Outcome State Fault Refusal :=
  .next (seqCommand b.val 0x0A f s)
/-- SMAX: the sequencer takes this word (R83). -/
def execSmax (b : BenchId) (f : Fields) (s : State) : Host.Outcome State Fault Refusal :=
  .next (seqCommand b.val 0x0B f s)
/-- SLI: the sequencer takes this word (R83). -/
def execSli (b : BenchId) (f : Fields) (s : State) : Host.Outcome State Fault Refusal :=
  .next (seqCommand b.val 0x0C f s)
/-- SLIH: the sequencer takes this word (R83). -/
def execSlih (b : BenchId) (f : Fields) (s : State) : Host.Outcome State Fault Refusal :=
  .next (seqCommand b.val 0x0D f s)
/-- SADDI: the sequencer takes this word (R83). -/
def execSaddi (b : BenchId) (f : Fields) (s : State) : Host.Outcome State Fault Refusal :=
  .next (seqCommand b.val 0x0E f s)
/-- SLD: the sequencer takes this word (R83). -/
def execSld (b : BenchId) (f : Fields) (s : State) : Host.Outcome State Fault Refusal :=
  .next (seqCommand b.val 0x10 f s)
/-- SST: the sequencer takes this word (R83). -/
def execSst (b : BenchId) (f : Fields) (s : State) : Host.Outcome State Fault Refusal :=
  .next (seqCommand b.val 0x11 f s)
/-- SCMP: the sequencer takes this word (R83). -/
def execScmp (b : BenchId) (f : Fields) (s : State) : Host.Outcome State Fault Refusal :=
  .next (seqCommand b.val 0x18 f s)
/-- PLOG: the sequencer takes this word (R83). -/
def execPlog (b : BenchId) (f : Fields) (s : State) : Host.Outcome State Fault Refusal :=
  .next (seqCommand b.val 0x19 f s)
/-- THSET: the sequencer takes this word (R83). -/
def execThset (b : BenchId) (f : Fields) (s : State) : Host.Outcome State Fault Refusal :=
  .next (seqCommand b.val 0x20 f s)
/-- THMOV: the sequencer takes this word (R83). -/
def execThmov (b : BenchId) (f : Fields) (s : State) : Host.Outcome State Fault Refusal :=
  .next (seqCommand b.val 0x21 f s)
/-- THGET: the sequencer takes this word (R83). -/
def execThget (b : BenchId) (f : Fields) (s : State) : Host.Outcome State Fault Refusal :=
  .next (seqCommand b.val 0x22 f s)
/-- CHOPEN: the sequencer takes this word (R83). -/
def execChopen (b : BenchId) (f : Fields) (s : State) : Host.Outcome State Fault Refusal :=
  .next (seqCommand b.val 0x28 f s)
/-- CHCLOSE: the sequencer takes this word (R83). -/
def execChclose (b : BenchId) (f : Fields) (s : State) : Host.Outcome State Fault Refusal :=
  .next (seqCommand b.val 0x29 f s)
/-- PBIND: the sequencer takes this word (R83). -/
def execPbind (b : BenchId) (f : Fields) (s : State) : Host.Outcome State Fault Refusal :=
  .next (seqCommand b.val 0x2A f s)
/-- CHSTAT: the sequencer takes this word (R83). -/
def execChstat (b : BenchId) (f : Fields) (s : State) : Host.Outcome State Fault Refusal :=
  .next (seqCommand b.val 0x2B f s)
/-- BR: the sequencer takes this word (R83). -/
def execBr (b : BenchId) (f : Fields) (s : State) : Host.Outcome State Fault Refusal :=
  .next (seqCommand b.val 0x30 f s)
/-- BRS: the sequencer takes this word (R83). -/
def execBrs (b : BenchId) (f : Fields) (s : State) : Host.Outcome State Fault Refusal :=
  .next (seqCommand b.val 0x31 f s)
/-- LOOP: the sequencer takes this word (R83). -/
def execLoop (b : BenchId) (f : Fields) (s : State) : Host.Outcome State Fault Refusal :=
  .next (seqCommand b.val 0x32 f s)
/-- CALL: the sequencer takes this word (R83). -/
def execCall (b : BenchId) (f : Fields) (s : State) : Host.Outcome State Fault Refusal :=
  .next (seqCommand b.val 0x33 f s)
/-- RET: the sequencer takes this word (R83). -/
def execRet (b : BenchId) (f : Fields) (s : State) : Host.Outcome State Fault Refusal :=
  .next (seqCommand b.val 0x34 f s)
/-- WAITQ: the sequencer takes this word (R83). -/
def execWaitq (b : BenchId) (f : Fields) (s : State) : Host.Outcome State Fault Refusal :=
  .next (seqCommand b.val 0x38 f s)
/-- WAITP: the sequencer takes this word (R83). -/
def execWaitp (b : BenchId) (f : Fields) (s : State) : Host.Outcome State Fault Refusal :=
  .next (seqCommand b.val 0x39 f s)
/-- FENCE: the sequencer takes this word (R83). -/
def execFence (b : BenchId) (f : Fields) (s : State) : Host.Outcome State Fault Refusal :=
  .next (seqCommand b.val 0x3A f s)
/-- WAITC: the sequencer takes this word (R83). -/
def execWaitc (b : BenchId) (f : Fields) (s : State) : Host.Outcome State Fault Refusal :=
  .next (seqCommand b.val 0x3B f s)
/-- YIELD: the sequencer takes this word (R83). -/
def execYield (b : BenchId) (f : Fields) (s : State) : Host.Outcome State Fault Refusal :=
  .next (seqCommand b.val 0x3C f s)
/-- END: the sequencer takes this word (R83). -/
def execEnd (b : BenchId) (f : Fields) (s : State) : Host.Outcome State Fault Refusal :=
  .next (seqCommand b.val 0x3D f s)
/-- NOP: the sequencer takes this word (R83). -/
def execNop (b : BenchId) (f : Fields) (s : State) : Host.Outcome State Fault Refusal :=
  .next (seqCommand b.val 0x3E f s)
/-- BENCHID: the sequencer takes this word (R83). -/
def execBenchid (b : BenchId) (f : Fields) (s : State) : Host.Outcome State Fault Refusal :=
  .next (seqCommand b.val 0x3F f s)

/-! ## Channel events -/

/-- CHANNEL_WRITE_COMPLETE: the oldest write in progress is complete in its slot (R49). -/
def channelWriteComplete (b id : Nat) (s : State) : State :=
  modChan b id (fun c => match c.writing with
    | [] => c
    | p :: ps => { c with packets := c.packets ++ [p], writing := ps }) s

def execChannelWriteComplete (b : BenchId) (ch : Fin 64) (s : State) : Host.Outcome State Fault Refusal :=
  .next (channelWriteComplete b.val ch.val s)

/-- CREDIT_RETURN: a credit on its way reaches the producer (R49, R51). -/
def creditReturn (b id : Nat) (s : State) : State := modChan b id (fun c => { c with returning := c.returning - 1 }) s

def execCreditReturn (b : BenchId) (ch : Fin 64) (s : State) : Host.Outcome State Fault Refusal :=
  .next (creditReturn b.val ch.val s)

/-- Whether a close can complete: every slot empty and every credit returned (R53). -/
def closeReady (s : State) (b id : Nat) (c : Channel) : Bool :=
  c.packets.isEmpty && c.writing.isEmpty && c.reading == 0 && c.returning == 0 && heldCredits s b id c == 0

/-- A channel gone and its granules free. -/
def dropChan (id : Nat) (c : Channel) (x : Bench) : Bench :=
  c.grans.foldl (fun x g => ungrant g x) { x with chans := terase x.chans id }

/-- CHANNEL_CLOSE_COMPLETE (R53): a closing channel that is empty goes; one whose consumer station is fenced goes with what it holds,
which the census counts. -/
def channelClose (b id : Nat) (s : State) : State :=
  match chan? s b id with
  | none => s
  | some c =>
    bif !c.closing then s
    else bif closeReady s b id c then modBench b (dropChan id c) s
    else bif !(isUp s 1 (b * 16 + c.cons)) then
      noteClosed (benchPart s b) [(b * 64 + id, c.credits, c.packets.length)] (modBench b (dropChan id c) s)
    else s

def execChannelCloseComplete (b : BenchId) (ch : Fin 64) (t : Time) (s : State) : Host.Outcome State Fault Refusal :=
  .next (channelClose b.val ch.val (atTime t s))

end Sys2Proof.Machine
end

