-- ==== Sys2Proof/Machine/Tiles.lean ====
section
/-! DEFINITION. Tile packets (chapters 02, 05): header, checks, element values and codes, and packets that stations write. -/

namespace Sys2Proof.Machine

/-! ## Formats of packets -/

/-- Bits of an element (Table 5.6). -/
def elemWidth (f : Nat) : Nat :=
  match f with
  | 0x01 => 4 | 0x02 => 3 | 0x03 => 2 | 0x04 => 1 | 0x10 => 4 | 0x11 => 6 | 0x12 => 6 | 0x13 => 8 | 0x14 => 8 | 0x15 => 8
  | 0x20 => 8 | 0x21 => 8 | 0x22 => 16 | 0x23 => 16 | _ => 32
/-- Scale bytes of a packet: one for 16 elements in a TQ format, one for 32 in an MX format. -/
def scaleBytes (f : Nat) : Nat := bif isTqFmt f then 1024 else bif isMxFmt f then 512 else 0
/-- Whether a format is block-scaled. -/
def blockScaled (f : Nat) : Bool := isTqFmt f || isMxFmt f
/-- Block length along K. -/
def blockLen (f : Nat) : Nat := bif isTqFmt f then 16 else 32
/-- Where the scales, and the spill area, begin (Table 5.5). -/
def scaleOff (f : Nat) : Nat := 64 + 2048 * elemWidth f
def spillOff (f : Nat) : Nat := scaleOff f + scaleBytes f
/-- Packet length in bytes (Table 2.2). -/
def pktLen (f : Nat) (spill : Bool) : Nat := spillOff f + 512 * b01 spill
/-- Lines of a packet of so many bytes (R44). -/
def linesFor (n : Nat) : Nat := (n + 255) / 256

/-! ## Packets as read -/

/-- A packet: the fields of its header (Table 2.1) and all its bytes. -/
structure Pkt where
  fmt    : Nat
  rows   : Nat
  cols   : Nat
  tag    : Nat
  flags  : Nat
  rotblk : Nat
  seq    : Nat
  tscale : Nat
  stream : Nat
  bytes  : Nat
  sat    : Nat
  spovf  : Nat
  zero   : Nat
  under  : Nat
  maxabs : Nat
  data   : Array Byte

def Pkt.esc (p : Pkt) : Bool := bit p.flags 0
def Pkt.spill (p : Pkt) : Bool := bit p.flags 1
def Pkt.rot (p : Pkt) : Bool := bit p.flags 2
/-- ORIENT: K runs along rows. -/
def Pkt.orient (p : Pkt) : Bool := bit p.flags 3

/-- The header fields of a packet's bytes. -/
def parsePkt (bs : List Byte) : Pkt :=
  let h := bs.take 64
  let g := fun o n => leAt h o n
  { fmt := g 0 2, rows := g 2 1, cols := g 3 1, tag := g 4 2, flags := g 6 1, rotblk := g 7 1, seq := g 8 4, tscale := g 12 4,
    stream := g 16 4, bytes := g 20 4, sat := g 24 2, spovf := g 26 2, zero := g 28 2, under := g 30 2, maxabs := g 32 4,
    data := bs.toArray }

/-- Whether a tile scale is legal: finite and positive, and 1.0 unless the format is a TQ one (R171). -/
def tscaleOk (f t : Nat) : Bool :=
  bif isTqFmt f then Nat.blt 0 t && Nat.ble t 0x7F7FFFFF else t == 0x3F800000

/-- The header checks of R41, HCRC first. -/
def headerCheck (bs : List Byte) : Status :=
  let p := parsePkt (bs.take 64)
  bif !(crc32c (sliceBytes bs 0 60) == leAt bs 60 4) then 0x0107
  else
    let ok := isPacketFmt p.fmt && Nat.ble 1 p.rows && Nat.ble p.rows 128 && Nat.ble 1 p.cols && Nat.ble p.cols 128
      && Nat.blt p.flags 16 && (!p.esc || isMxfp8 p.fmt) && (!p.spill || isSpillFmt p.fmt)
      && (bif p.rot then Nat.ble 1 p.rotblk && Nat.ble p.rotblk 4 else p.rotblk == 0)
      && tscaleOk p.fmt p.tscale && p.bytes == pktLen p.fmt p.spill
    bif ok then 0 else 0x0106

/-- Whether an instruction's format code accepts a packet (R78). `allowed` is for code 0x7F. -/
def pktAccepts (code : Nat) (allowed : Nat → Bool) (p : Pkt) : Bool :=
  bif code == 0x7F then allowed p.fmt
  else code == p.fmt || (isNarrowFmt code && p.esc && isMxfp8 p.fmt)

/-! ## Elements -/

/-- Byte `n` of a packet. -/
def Pkt.byte (p : Pkt) (n : Nat) : Nat := ((p.data[n]?).getD 0).toNat
/-- `n` bytes, little-endian, from an offset. -/
def Pkt.le (p : Pkt) (o : Nat) : Nat → Nat
  | 0 => 0
  | n + 1 => p.byte o + 256 * p.le (o + 1) n

/-- The code of element `n` (Table 5.6: the elements are a little-endian bit stream). -/
def Pkt.code (p : Pkt) (n : Nat) : Nat :=
  let w := elemWidth p.fmt
  bif Nat.ble 8 w then p.le (64 + n * (w / 8)) (w / 8)
  else p.le (64 + n * w / 8) 2 / 2 ^ (n * w % 8) % 2 ^ w

/-- The position of an element: (a, k) from row and column (R172). -/
def akOf (orient : Bool) (r c : Nat) : Nat × Nat := bif orient then (c, r) else (r, c)
/-- The index of element (row, column). -/
def Pkt.index (p : Pkt) (r c : Nat) : Nat :=
  bif blockScaled p.fmt then let q := akOf p.orient r c; q.1 * 128 + q.2 else r * 128 + c
/-- The block of (a, k). -/
def blockOf (f a k : Nat) : Nat := bif isTqFmt f then a * 8 + k / 16 else a * 4 + k / 32
/-- Valid extents: along K and along the other axis. -/
def Pkt.kExt (p : Pkt) : Nat := bif p.orient then p.rows else p.cols
def Pkt.aExt (p : Pkt) : Nat := bif p.orient then p.cols else p.rows

/-- The value of a code of a format (R165, R166, Table 5.4). -/
def codeVal (f c : Nat) : FVal :=
  match fpOf f with
  | some g => fpVal g c
  | none =>
    match f with
    | 0x03 => .fin (c == 3) (c % 2) 1
    | 0x04 => .fin (c == 1) 1 1
    | _ => let i := signed 8 c; .fin (decide (i < 0)) i.natAbs 64

/-- A value in the arithmetic of the stations: exact, infinite or NaN. -/
inductive Val where
  | fin (x : Ex)
  | inf (neg : Bool)
  | nan
  deriving DecidableEq, Repr

def valOf : FVal → Val
  | .fin n a b => .fin (exOfFin n a b)
  | .inf n => .inf n
  | .nan => .nan

/-- The value of a UE5M3 scale byte (R168). -/
def ue5m3 (c : Nat) : Ex := let v := fpMag fUE5M3 c; ⟨(v.1 : Int), v.2⟩
/-- The value of an E8M0 scale byte (R169); none for 0xFF. -/
def e8m0 (c : Nat) : Option Ex := bif c == 255 then none else some (exPow 1 ((c : Int) - 127))

/-- The residuals of element (a, k): those of unused or ignored entries left out (R173). -/
def Pkt.residual (p : Pkt) (a k : Nat) : Val :=
  bif !p.spill then .fin Ex.zero
  else
    let o := spillOff p.fmt + 4 * a
    [0, 2].foldl (fun r i =>
      bif p.byte (o + i + 1) == k && Nat.blt k 128 then
        match r, fpVal fE4M3 (p.byte (o + i)) with
        | .fin x, .fin n c d => .fin (exAdd x (exOfFin n c d))
        | _, _ => .nan
      else r) (.fin Ex.zero)

/-- A finite or special value scaled by an exact positive or zero factor. -/
def valScale (t : Ex) : Val → Val
  | .fin x => .fin (exMul t x)
  | v => v

/-- The represented value of element (row, column) without the tile scale: s × (c + r) (R170). -/
def Pkt.unscaled (p : Pkt) (r c : Nat) : Val :=
  let q := akOf p.orient r c
  let v := valOf (codeVal p.fmt (p.code (p.index r c)))
  bif isTqFmt p.fmt || isMxFmt p.fmt then
    let sb := p.byte (scaleOff p.fmt + blockOf p.fmt q.1 q.2)
    let sc := bif isTqFmt p.fmt then some (ue5m3 sb) else e8m0 sb
    match sc, v, p.residual q.1 q.2 with
    | none, _, _ => .nan
    | some t, .fin x, .fin y => .fin (exMul t (exAdd x y))
    | some _, .inf n, .fin _ => .inf n
    | some _, _, _ => .nan
  else v
/-- The tile scale. -/
def Pkt.scale (p : Pkt) : Ex := f32Ex (BitVec.ofNat 32 p.tscale)
/-- The represented value of an element (R170). -/
def Pkt.val (p : Pkt) (r c : Nat) : Val := bif isTqFmt p.fmt then valScale p.scale (p.unscaled r c) else p.unscaled r c

/-- An FP32, BF16 or FP16 code widened exactly to FP32 (R183); a NaN is canonical. -/
def widen (f c : Nat) : W32 :=
  match f with
  | 0x24 => bif f32IsNan (BitVec.ofNat 32 c) then f32Nan else BitVec.ofNat 32 c
  | 0x22 => bif f32IsNan (BitVec.ofNat 32 (c * 65536)) then f32Nan else BitVec.ofNat 32 (c * 65536)
  | _ =>
    match fpVal fFP16 c with
    | .nan => f32Nan
    | .inf n => f32Inf n
    | .fin n a b => bif a == 0 then (bif n then 0x80000000 else 0) else (f32Round (exOfFin n a b)).1
/-- Element (row, column) of an unscaled wide packet as FP32. -/
def Pkt.wide (p : Pkt) (r c : Nat) : W32 := widen p.fmt (p.code (r * 128 + c))

/-! ## Packets as written -/

/-- A header and the codes of a packet to be written; elements outside the valid region are zero (R43). -/
structure NewPkt where
  fmt    : Nat
  rows   : Nat
  cols   : Nat
  tag    : Nat
  flags  : Nat
  rotblk : Nat
  seq    : Nat
  stream : Nat
  tscale : Nat
  sat    : Nat
  spovf  : Nat
  zero   : Nat
  under  : Nat
  maxabs : Nat

/-- The 64 header bytes; HCRC is computed last (R120). Counts are limited to 16 bits. -/
def headerBytes (p : NewPkt) : List Byte :=
  let c16 := fun n => leBytes 2 (satTo 0xFFFF n)
  let h := leBytes 2 p.fmt ++ leBytes 1 p.rows ++ leBytes 1 p.cols ++ leBytes 2 p.tag ++ leBytes 1 p.flags ++ leBytes 1 p.rotblk
    ++ leBytes 4 p.seq ++ leBytes 4 p.tscale ++ leBytes 4 p.stream ++ leBytes 4 (pktLen p.fmt (bit p.flags 1))
    ++ c16 p.sat ++ c16 p.spovf ++ c16 p.zero ++ c16 p.under ++ leBytes 4 p.maxabs ++ List.replicate 24 0
  h ++ leBytes 4 (crc32c h)

/-- `n` codes of `w` bits packed from bit 0 up into `8 ÷ gcd` groups: 8 codes make `w` bytes. -/
def packCodes (w : Nat) (code : Nat → Nat) : Nat → Nat → List Byte
  | 0, _ => []
  | n + 1, i =>
    leBytes w ((List.range 8).foldl (fun a j => a + code (8 * i + j) * 2 ^ (w * j)) 0) ++ packCodes w code n (i + 1)

/-- The element array of 16,384 codes. -/
def elemBytes (f : Nat) (code : Nat → Nat) : List Byte := packCodes (elemWidth f) code 2048 0

/-- The bytes of a packet of an unscaled format, from the code of each valid element. -/
def plainPkt (p : NewPkt) (code : Nat → Nat → Nat) : List Byte :=
  headerBytes p ++ elemBytes p.fmt fun n =>
    bif Nat.blt (n / 128) p.rows && Nat.blt (n % 128) p.cols then code (n / 128) (n % 128) else 0

/-- A value written in a format without scales: code and whether it saturated; NaN canonical, infinities kept where the format has
them and the largest value otherwise (R122, R178, R184). -/
def plainCode (f : Nat) (surd : Bool) (v : Val) : Nat × Bool :=
  match fpOf f with
  | none => (0, false)
  | some g =>
    match v with
    | .fin x => fpRoundS g x surd
    | .nan => (fpNan g, false)
    | .inf n => (bif g.special == .ieee then fpInf g n else g.maxCode + b01 n * 2 ^ magBits g, false)

/-- What a set of values adds to a header: zeros, underflows, saturations and the greatest finite magnitude (R120). -/
structure Stats where
  zero  : Nat
  under : Nat
  sat   : Nat
  big   : Ex
  deriving DecidableEq, Repr

/-- One value counted: whether it was written as zero, and whether it saturated. -/
def Stats.count (t : Stats) (v : Val) (asZero sat : Bool) : Stats :=
  match v with
  | .fin x =>
    { zero := t.zero + b01 (exIsZero x), under := t.under + b01 (asZero && !(exIsZero x)), sat := t.sat + b01 sat,
      big := exMax t.big (exAbs x) }
  | _ => { t with sat := t.sat + b01 sat }

/-- Whether a code of an unscaled format is a zero. -/
def zeroCode (f c : Nat) : Bool := match fpOf f with | some g => c % 2 ^ magBits g == 0 | none => false

/-- All (row, column) pairs of a region. -/
def region (rows cols : Nat) : List (Nat × Nat) := (List.range rows).flatMap fun r => (List.range cols).map fun c => (r, c)

/-- A packet of an unscaled format from values before the output rounding, each rounded to nearest even once (R120, R175);
the values are over √2 when `surd`. -/
def valuePkt (p : NewPkt) (surd : Bool) (val : Nat → Nat → Val) : NewPkt × List Byte :=
  let f := p.fmt
  let count := fun (t : Stats) (q : Nat × Nat) =>
    let v := val q.1 q.2
    let r := plainCode f surd v
    t.count v (zeroCode f r.1) r.2
  let st := (region p.rows p.cols).foldl count ⟨0, 0, 0, Ex.zero⟩
  let p := { p with sat := p.sat + st.sat, zero := st.zero, under := st.under, maxabs := f32OfMag (magOf st.big surd) }
  (p, plainPkt p fun r c => (plainCode f surd (val r c)).1)

/-- A NewPkt with no counts, TSCALE 1.0. -/
def newPkt (fmt rows cols tag seq stream flags rotblk : Nat) : NewPkt :=
  { fmt := fmt, rows := rows, cols := cols, tag := tag, flags := flags, rotblk := rotblk, seq := seq, stream := stream,
    tscale := 0x3F800000, sat := 0, spovf := 0, zero := 0, under := 0, maxabs := 0 }

/-- SEQ and TAG of a packet identity scalar (Table 4.2). -/
def sidSeq (v : W64) : Nat := bits v.toNat 31 0
def sidTag (v : W64) : Nat := bits v.toNat 47 32

/-! ## Operands of an executing instruction -/

/-- How many packets of a channel the operands `ks` of an entry read through ports: one each (R51). -/
def portReads (e : Entry) (id : Nat) (ks : List Nat) : Nat :=
  (ks.filter fun k => match ePort e k with | some p => p.id == id | none => false).length

/-- How many packets of the channel are read before that of operand `n` of `e`: by entries of its station that started before it, and
by its own operands that come first. -/
def claimedBefore (s : State) (b k : Nat) (e : Entry) (n id : Nat) : Nat :=
  sumNat (((tget (bench s b).queues k []).filter fun o => Nat.blt o.eid e.eid && !(o.phase == .queued)).map fun o =>
      portReads o id (tileUse o.word).1)
    + portReads e id ((tileUse e.word).1.takeWhile (· != n))

/-- The bytes of the packet that operand `n` of an entry names as a source, or the status that stops it: the handle's lines, as far
as the header's length goes, or the oldest packet of the channel not read by an earlier instruction. -/
def sourceBytes (s : State) (b ord : Nat) (e : Entry) (n : Nat) : Except Status (List Byte) :=
  bif wFile e.word n == 2 then
    match getT (bench s b) (wIndex e.word n) with
    | none => .error 0x0202
    | some h =>
      let a := h.start * 256
      let x := bench s b
      bif !(holdsBytes x a 64) then .error 0x0206
      else bif storeBad x a 64 then .error arrayError
      else
        let hd := storeRead s b a 64
        let len := leAt hd 20 4
        bif headerCheck hd == 0 then
          bif !(holdsBytes x a len) then .error 0x0206
          else bif storeBad x a len then .error arrayError
          else .ok (storeRead s b a len)
        else .ok hd
  else
    match ePort e n with
    | none => .error 0x0205
    | some p =>
      match chan? s b p.id with
      | none => .error 0x0205
      | some c => match c.packets[claimedBefore s b ord e n p.id]? with | some bs => .ok bs | none => .error 0x0205

/-- A source packet with the checks of R41. -/
def sourcePkt (s : State) (b ord : Nat) (e : Entry) (n : Nat) : Except Status Pkt :=
  match sourceBytes s b ord e n with
  | .error st => .error st
  | .ok bs => let st := headerCheck bs; bif st == 0 then .ok (parsePkt bs) else .error st

/-- A source packet with the checks of R41 and R78. -/
def sourceFmt (s : State) (b ord : Nat) (e : Entry) (n code : Nat) (allowed : Nat → Bool) : Except Status Pkt :=
  match sourcePkt s b ord e n with
  | .error st => .error st
  | .ok p => bif pktAccepts code allowed p then .ok p else .error 0x0109

/-- Room at operand `n` for a packet of `len` bytes: the handle's capacity (R116) or the channel's slot (R50). -/
def roomCheck (s : State) (b : Nat) (e : Entry) (n len : Nat) : Status :=
  bif wFile e.word n == 2 then
    match getT (bench s b) (wIndex e.word n) with
    | none => 0x0202
    | some h => bif Nat.blt h.lines (linesFor len) then 0x0181 else failIf (!(holdsBytes (bench s b) (h.start * 256) len)) 0x0206
  else
    match ePort e n with
    | none => 0x0205
    | some p => match portChan s b p with
      | some (_, _, c) => failIf (Nat.blt c.slot (linesFor len)) 0x010A
      | none => 0

/-- The effects of a packet written to operand `n` (R116, R45, R49). -/
def writePkt (s : State) (b : Nat) (e : Entry) (n : Nat) (bs : List Byte) : List Eff :=
  bif wFile e.word n == 2 then
    match getT (bench s b) (wIndex e.word n) with
    | none => []
    | some h => [.store (h.start * 256) bs,
                 .handle (wIndex e.word n) ⟨h.start, linesFor bs.length, BitVec.ofNat 512 (leNat (bs.take 64))⟩]
  else
    match ePort e n with
    | none => []
    | some p => [.send p bs]

/-! ## Executing -/

/-- The started entry that an instruction command executes: the oldest of its station that has started and not executed, if it is
that instruction. -/
def startedEntry (s : State) (b ord unit opc : Nat) : Option Entry :=
  match (tget (bench s b).queues ord []).find? (fun e => e.phase == .started) with
  | none => none
  | some e =>
    bif wUnit e.word == unit && wOpc e.word == opc && !((bench s b).halted.contains ord) then some e else none

/-- An entry of a station changed. -/
def modEntry (b ord eid : Nat) (f : Entry → Entry) (s : State) : State :=
  modBench b (fun x => { x with queues := tset x.queues ord (modFirst (fun e => e.eid == eid) f (tget x.queues ord [])) }) s

/-- What executing an instruction comes to: a fault, or what it leaves when it retires. -/
inductive ExecRes where
  | fault (st : Status)
  /-- A fault that still counts non-finite inputs (R202). -/
  | trap (st : Status) (u : AssayUpd)
  | effs (l : List Eff)

/-- The role on a bench as posted updates name it: its program and its number, which a preemption does not change. -/
def roleKey (s : State) (b : Nat) : Option Nat := (bench s b).prog.map fun n => n * 64 + (bench s b).role

/-- An Assay update of a bench is posted: accepted while ASYEN is 1, otherwise discarded and counted (R208, R210). -/
def postAssay (b : Nat) (u : AssayUpd) (s : State) : State :=
  let p := benchPart s b
  bif flag s .numCtl p 0 0 then modPartition p (fun q => { q with assayQ := q.assayQ ++ [((roleKey s b).getD 0, u)] }) s
  else setRaw64 .numAsylostLo .numAsylostHi p 0 (satTo (2 ^ 64 - 1) (raw64 s .numAsylostLo .numAsylostHi p 0 + 1)) s

/-- A station's instruction faults. One that has read an uncorrectable line of bench store fences its station (Table 16.2, R552). -/
def stationFault (b ord : Nat) (e : Entry) (st : Status) (s : State) : State :=
  let s := reportFault b ord e.off st s
  bif st == arrayError then causeStation (b * 16 + ord) 0x030B s else s

/-- An instruction command: the started entry executes and holds its effects until it retires (R54, R112). -/
def stationExec (b ord unit opc : Nat) (f : Entry → ExecRes) (s : State) : State :=
  match startedEntry s b ord unit opc with
  | none => s
  | some e =>
    match f e with
    | .fault st => stationFault b ord e st s
    | .trap st u => stationFault b ord e st (postAssay b u s)
    | .effs l => modEntry b ord e.eid (fun e => { e with phase := .executed, effs := l }) s

/-- An Assay update of a packet written by an instruction of the last row of Table 6.4. -/
def pktAssay (eid : Nat) (p : NewPkt) : Eff :=
  .assay { tag := p.tag, eid := eid, adds := [(0, satTo 0xFFFF p.zero), (1, satTo 0xFFFF p.under), (2, satTo 0xFFFF p.sat), (8, 1)],
           maxAbs := p.maxabs }

end Sys2Proof.Machine
end

