-- ==== Sys2Proof/Machine/Anvil.lean ====
section
/-! DEFINITION. The Anvil (R125 to R133): MMA, MMADR, ACCLD and ACCZ. -/

namespace Sys2Proof.Machine

/-- A cleared accumulator buffer: zeros, no extent, no saturations (R128). -/
def Accum.clear : Accum := { val := [], ext := none, sat := 0 }

/-- The number of the buffer an entry names: MOD[0] of the Anvil in IDX. -/
def bufferOf (w : W128) : Nat := 2 * wIdx w + b01 (bit (wMod w) 0)
def accum (s : State) (b : Nat) (w : W128) : Accum := tget (bench s b).accs (bufferOf w) Accum.clear

/-- The rank class of a format (Table 4.5). -/
def rankClass (f : Nat) : Nat :=
  bif f == 3 || f == 4 then 16 else bif isNarrowFmt f then 8 else bif f == 0x22 || f == 0x23 then 2 else 4
/-- Whether MMA accepts a packet's format under HDR (R128). -/
def mmaFmt (f : Nat) : Bool := isPacketFmt f && !(f == 0x24)

/-- The two operands of an MMA with the header and format checks of R125, in its order. -/
def mmaSources (s : State) (b ord : Nat) (e : Entry) : Except Status (Pkt × Pkt) :=
  let w := e.word
  match sourcePkt s b ord e 1 with
  | .error st => .error st
  | .ok p =>
    match sourcePkt s b ord e 2 with
    | .error st => .error st
    | .ok q =>
      bif !(pktAccepts (wFmt w) mmaFmt p) then .error 0x0109
      else bif !(pktAccepts (wImmBits w 6 0) mmaFmt q) then .error 0x0109
      else .ok (p, q)

/-- Checks 1 to 5 of R125. -/
def mmaCheck (acc : Accum) (w : W128) (p q : Pkt) : Status :=
  let clr := bit (wMod w) 1
  firstStatus [failIf (!(p.orient == bit (wMod w) 2) || !(q.orient == bit (wMod w) 3)) 0x0108,
    failIf (rankClass p.fmt == 16) 0x0187,
    failIf (!(p.rot == q.rot) || !(p.rotblk == q.rotblk)) 0x0185,
    failIf (!(p.kExt == q.kExt)) 0x0182,
    failIf (!clr && (match acc.ext with | some x => !(x == (p.aExt, q.aExt)) | none => false)) 0x0183]

/-- The value, without tile scale, of the element at (a, k) of an operand. -/
def Pkt.atAk (p : Pkt) (a k : Nat) : Val := bif p.orient then p.unscaled k a else p.unscaled a k

/-- A product of two values; zero times an infinity is NaN (R130). -/
def valMul : Val → Val → Val
  | .nan, _ => .nan
  | _, .nan => .nan
  | .fin x, .fin y => .fin (exMul x y)
  | .inf n, .inf m => .inf (xor n m)
  | .inf n, .fin y => bif exIsZero y then .nan else .inf (xor n (exIsNeg y))
  | .fin x, .inf n => bif exIsZero x then .nan else .inf (xor n (exIsNeg x))
/-- A sum of two values; infinities of opposite signs give NaN (R130). -/
def valAdd : Val → Val → Val
  | .nan, _ => .nan
  | _, .nan => .nan
  | .fin x, .fin y => .fin (exAdd x y)
  | .inf n, .inf m => bif n == m then .inf n else .nan
  | .inf n, .fin _ => .inf n
  | .fin _, .inf n => .inf n

/-- The exact sum over k of products (R126, R127). -/
def dot (f g : Nat → Val) (n : Nat) : Val := (List.range n).foldl (fun a k => valAdd a (valMul (f k) (g k))) (.fin Ex.zero)

/-- A value rounded to FP32 with its saturation. -/
def f32OfVal : Val → FRes
  | .nan => ⟨f32Nan, false⟩
  | .inf n => ⟨f32Inf n, false⟩
  | .fin x => let r := f32Round x; ⟨r.1, r.2⟩

/-- Element (m, n) of the product with both tile scales, rounded once, added to the accumulator and rounded once (R126): the
new element and the saturations. -/
def mmaElem (t : Ex) (f g : Nat → Val) (k : Nat) (old : W32) : W32 × Nat :=
  let x := f32OfVal (valScale t (dot f g k))
  let y := f32Add old x.val
  (y.val, b01 x.sat + b01 y.sat)

/-- The buffer after an MMA (R126 to R129). -/
def mmaResult (acc : Accum) (clr : Bool) (p q : Pkt) : Accum :=
  let k := p.kExt
  let t := exMul (bif isTqFmt p.fmt then p.scale else Ex.one) (bif isTqFmt q.fmt then q.scale else Ex.one)
  let pa := ((region p.aExt k).map fun x => p.atAk x.1 x.2).toArray
  let qa := ((region q.aExt k).map fun x => q.atAk x.1 x.2).toArray
  let old := bif clr then Accum.clear else acc
  let els := (region p.aExt q.aExt).map fun x =>
    (x.1 * 128 + x.2, mmaElem t (fun i => (pa[x.1 * k + i]?).getD .nan) (fun i => (qa[x.2 * k + i]?).getD .nan) k
      (tget old.val (x.1 * 128 + x.2) 0))
  { val := els.map fun c => (c.1, c.2.1), ext := some (p.aExt, q.aExt), sat := old.sat + sumNat (els.map fun c => c.2.2) }

/-- MMA. -/
def mmaExec (b ord : Nat) (e : Entry) (s : State) : ExecRes :=
  match mmaSources s b ord e with
  | .error st => .fault st
  | .ok (p, q) =>
    let acc := accum s b e.word
    let st := mmaCheck acc e.word p q
    bif !(st == 0) then .fault st else .effs [.accum (bufferOf e.word) (mmaResult acc (bit (wMod e.word) 1) p q)]

def execMma (b : BenchId) (i : Fin 4) (s : State) : Host.Outcome State Fault Refusal :=
  .next (stationExec b.val (ordinalOf 1 i.val) 1 0x01 (fun e => mmaExec b.val (ordinalOf 1 i.val) e s) s)

/-- MMADR: the packet of a buffer (R131). FP32 elements are written unchanged. -/
def mmadrExec (b : Nat) (e : Entry) (s : State) : ExecRes :=
  let w := e.word
  let acc := accum s b w
  match acc.ext with
  | none => .fault 0x018E
  | some (rows, cols) =>
    let sid := eVal e 2
    let el := fun r c => tget acc.val (r * 128 + c) 0
    let p := { newPkt (wFmt w) rows cols (sidTag sid) (sidSeq sid) 0 0 0 with sat := acc.sat }
    let v := valuePkt p false fun r c => valOf (f32Val (el r c))
    let bs := bif wFmt w == 0x24 then plainPkt v.1 (fun r c => (widen 0x24 (el r c).toNat).toNat) else v.2
    .effs (writePkt s b e 1 bs ++ (bif bit (wMod w) 1 then [] else [.accum (bufferOf w) Accum.clear]) ++ [pktAssay e.eid v.1])

def execMmadr (b : BenchId) (i : Fin 4) (s : State) : Host.Outcome State Fault Refusal :=
  .next (stationExec b.val (ordinalOf 1 i.val) 1 0x02 (fun e => mmadrExec b.val e s) s)

/-- ACCLD (R132). -/
def accldExec (b ord : Nat) (e : Entry) (s : State) : ExecRes :=
  match sourceFmt s b ord e 1 (wFmt e.word) (· == 0x24) with
  | .error st => .fault st
  | .ok p =>
    .effs [.accum (bufferOf e.word)
      { val := (region p.rows p.cols).map fun q => (q.1 * 128 + q.2, p.wide q.1 q.2), ext := some (p.rows, p.cols), sat := 0 }]

def execAccld (b : BenchId) (i : Fin 4) (s : State) : Host.Outcome State Fault Refusal :=
  .next (stationExec b.val (ordinalOf 1 i.val) 1 0x03 (fun e => accldExec b.val (ordinalOf 1 i.val) e s) s)

/-- ACCZ (R132). -/
def execAccz (b : BenchId) (i : Fin 4) (s : State) : Host.Outcome State Fault Refusal :=
  .next (stationExec b.val (ordinalOf 1 i.val) 1 0x04 (fun e => .effs [.accum (bufferOf e.word) Accum.clear]) s)

/-- What an Anvil checks when it starts an instruction (R125, R131, R132, R116). -/
def anvilStart (b ord : Nat) (e : Entry) (s : State) : Status :=
  match wOpc e.word with
  | 0x01 =>
    match mmaSources s b ord e with
    | .error st => st
    | .ok (p, q) => mmaCheck (accum s b e.word) e.word p q
  | 0x02 =>
    bif (accum s b e.word).ext.isNone then 0x018E else roomCheck s b e 1 (pktLen (wFmt e.word) false)
  | 0x03 =>
    match sourceFmt s b ord e 1 (wFmt e.word) (· == 0x24) with
    | .error st => st
    | .ok _ => 0
  | _ => 0

end Sys2Proof.Machine
end

