-- ==== Sys2Proof/Machine/Fabric.lean ====
section
/-! DEFINITION. The fabric (chapter 10): table sets, routing (R335 to R339), the link layer (R351 to R354), drops and notices (R355),
delivery (R341, R346), injection (R336, R343, R344), table epochs and drain markers (R347 to R350), discovery (R331 to R333) and
weather records (R356). -/

namespace Sys2Proof.Machine

/-! ## Table sets -/

def TableSet.route (x : TableSet) (d : Nat) : Nat :=
  match tget? x.routes d with
  | some v => v.toNat
  | none => match x.undef with | some g => (Config.staleRoute g d).toNat | none => 0
def TableSet.tree (x : TableSet) (d : Nat) : Nat :=
  match tget? x.trees d with
  | some v => v.toNat
  | none => match x.undef with | some g => (Config.staleTree g d).toNat | none => 0

/-- Fields of a routing entry (Table 10.4). -/
def rtV (e : Nat) : Bool := bit e 0
def rtMode (e : Nat) : Nat := bits e 3 1
def rtAllows (e p : Nat) : Bool := bit e (4 + p)
/-- Exit `n`: group port and global lane. -/
def rtExit (e n : Nat) : Nat × Nat := (bits e (15 + 13 * n) (12 + 13 * n), bits e (24 + 13 * n) (16 + 13 * n))
/-- The valid exits (R335). -/
def rtExits (e : Nat) : List (Nat × Nat) := ((List.range 4).map (rtExit e)).filter fun x => !(x.2 % 16 == 0)

def oldEpoch (s : State) : Nat := (s.epoch + 3) % 4
/-- The set that routes packets of an epoch, if the router holds it (R347, R350). -/
def setOf (s : State) (ep : Nat) : Option TableSet :=
  bif ep == s.epoch then some s.fabActive else bif ep == oldEpoch s then s.fabOld else none

def draining (s : State) : Bool := s.fabOld.isSome

/-! ## Links and lanes -/

def groupNo (node : Nat) : Nat := node / 16
def portNo (node : Nat) : Nat := node % 16
def linkKey (l : LinkId) : Nat := (bif l.memory then 16384 else bif l.isGlobal then 8192 else 0) + l.far.toNat
def keyLink (k : Nat) : LinkId := ⟨Nat.ble 16384 k, Nat.ble 8192 k && Nat.blt k 16384, BitVec.ofNat 13 k⟩
/-- Whether a link leads to a Stratus module (R287). -/
def isMemory (k : Nat) : Bool := Nat.ble 16384 k
def localKey (s : State) (q : Nat) : Nat := groupNo (ownNode s) * 16 + q
def link (s : State) (k : Nat) : Link := tget s.links k Link.reset
def modLink (k : Nat) (f : Link → Link) (s : State) : State := { s with links := tset s.links k (f (link s k)) }

/-- The engines of a role, rising. -/
def roleEngines (s : State) (r : Nat) : List Nat := (List.range 8).filter fun e => engineRole s e == r
/-- The lane of a global lane index: engine and lane (chapter 10, "Wiring, sky panels and discovery"). -/
def glLane (s : State) (gl : Nat) : Option (Nat × Nat) := ((roleEngines s 1)[gl / 64]?).map fun e => (e, gl % 64)
/-- The global lane index of a lane of a global engine. -/
def laneGl (s : State) (e l : Nat) : Option Nat := (firstIdx (· == e) (roleEngines s 1)).map (64 * · + l)
/-- The far node of a global lane, once found. -/
def glFar (s : State) (gl : Nat) : Option Nat :=
  bif Nat.blt gl 384 && flag s .fabGlmap gl 0 31 then some (fld s .fabGlmap gl 0 12 0) else none
def glState (s : State) (gl : Nat) : Nat := match glLane s gl with | some (e, l) => laneState s e 0 l | none => 0

/-- The transmit lanes of a link: engine and lane (R297, R298, R351, R285). -/
def linkLanes (s : State) (k : Nat) : List (Nat × Nat) :=
  bif Nat.blt k 8192 then
    let c := (portNo k + 16 - portNo (ownNode s)) % 16
    bif !(groupNo k == groupNo (ownNode s)) || c == 0 then []
    else (roleEngines s 0).flatMap fun e => (List.range 4).map fun f => (e, 16 * f + c)
  else bif isMemory k then
    bif Nat.blt k (16384 + 8) then (moduleLanes ((k - 16384) / 2)).map fun l => (8 + k % 2, l) else []
  else (List.range 384).filterMap fun gl => bif glFar s gl == some (k - 8192) then glLane s gl else none
/-- Whether a link has an up lane. -/
def linkUp (s : State) (k : Nat) : Bool := (linkLanes s k).any fun x => laneState s x.1 0 x.2 == 2

/-- The up lanes of a link. -/
def upLanes (s : State) (k : Nat) : Nat := ((linkLanes s k).filter fun x => laneState s x.1 0 x.2 == 2).length
/-- Whether a link without an up lane has one that is only quiesced or calibrating (R316, R338). -/
def linkHeld (s : State) (k : Nat) : Bool :=
  !(linkUp s k) && (linkLanes s k).any fun x => laneState s x.1 0 x.2 == 3 || laneState s x.1 0 x.2 == 4

/-- The links of a hop stage: local for stages 0 and 2, global for 1. -/
def stageLinks (s : State) (stg : Nat) : List Nat :=
  bif stg == 1 then
    ((List.range 384).filterMap (glFar s)).foldl (fun l n => bif l.contains (8192 + n) then l else l ++ [8192 + n]) []
  else ((List.range 16).filter fun q => !(q == portNo (ownNode s))).map (localKey s)

/-! ## The sending end of a link (R352, R353) -/

/-- The number of the queue of a packet: 4 × VC + STG (R340). -/
def packetVs (p : Packet) : Nat := 4 * (2 * p.route.typ.toNat + p.route.cls.toNat) + p.route.stg.toNat

/-- A flit's credit return and what stays owed: at most 63 credits of one queue and pool. -/
def takeOwed (o : Tab Nat) : (Nat × Nat) × Tab Nat :=
  match o with
  | [] => ((0, 0), [])
  | (k, n) :: r => ((k, Nat.min n 63), bif Nat.ble n 63 then r else (k, n - 63) :: r)

/-- A flit of a link with its acknowledgement and credits; `o` is the owed queue (32 × pool + 4 × VC + STG) and its count. -/
def newFlit (l : Link) (seq : Nat) (nak idle head tail : Bool) (vs : Nat) (o : Nat × Nat) (p : Option Packet) : Flit :=
  { seq := seq, ack := (l.next + 4095) % 4096, nak := nak, vc := BitVec.ofNat 3 (vs / 4), stg := BitVec.ofNat 2 vs, head := head, tail := tail,
    crvc := BitVec.ofNat 3 (o.1 % 32 / 4), crstg := BitVec.ofNat 2 o.1, crpool := Nat.ble 32 o.1,
    crcnt := BitVec.ofNat 6 o.2, idle := idle, packet := p }

/-- An idle flit, with the acknowledgement and one owed credit return. -/
def sendIdle (k : Nat) (nak : Bool) (s : State) : State :=
  let l := link s k
  let o := takeOwed l.owed
  emit (.flit (keyLink k) (newFlit l l.seq nak true false false 0 o.1 none)) (modLink k (fun l => { l with owed := o.2 }) s)

/-- Whether the far end has a credit for a queue: shared first, then dedicated (R353). -/
def creditPool (l : Link) (vs : Nat) : Option Bool :=
  bif Nat.blt l.shared 1024 then some true else bif Nat.blt (tget l.ded vs 0) 16 then some false else none

/-- The flits of a packet that can go now, at most `n`: the link, the item, and the flits. -/
def sendFlits : Nat → Time → Link → TxItem → List Flit → Link × TxItem × List Flit
  | 0, _, l, it, fs => (l, it, fs)
  | n + 1, now, l, it, fs =>
    let vs := packetVs it.pkt
    bif Nat.ble it.pkt.route.nflit it.sent || Nat.ble 1024 l.unacked.length then (l, it, fs)
    else
      match creditPool l vs with
      | none => (l, it, fs)
      | some sh =>
        let tail := it.sent + 1 == it.pkt.route.nflit
        let o := takeOwed l.owed
        let f := newFlit l l.seq false false (it.sent == 0) tail vs o.1 (bif tail then some it.pkt else none)
        let l := { l with seq := (l.seq + 1) % 4096, unacked := l.unacked ++ [⟨f, it.pkt⟩], ackAt := bif l.unacked.isEmpty then now else l.ackAt, tryAt := bif l.unacked.isEmpty then now else l.tryAt,
                          owed := o.2, shared := l.shared + b01 sh, ded := bif sh then l.ded else tset l.ded vs (tget l.ded vs 0 + 1) }
        sendFlits n now l { it with sent := it.sent + 1 } (fs ++ [f])

/-- `n` flits leave the input queue they held credits of: the credits are owed to the sender (R353). -/
def returnCredits (n : Nat) (o : Option Origin) (s : State) : State × Option Origin :=
  match o with
  | none => (s, none)
  | some o =>
    let a := Nat.min n o.shared
    let d := Nat.min (n - a) o.ded
    let owe := fun (t : Tab Nat) (k n : Nat) => bif n == 0 then t else tset t k (tget t k 0 + n)
    (modLink o.link (fun l => { l with
      inShared := l.inShared - a, inDed := tset l.inDed o.vs (tget l.inDed o.vs 0 - d),
      owed := owe (owe l.owed (32 + o.vs) a) o.vs d }) s,
     some { o with shared := o.shared - a, ded := o.ded - d })
/-- Every credit of a packet is returned. -/
def returnAll (o : Option Origin) (s : State) : State := (returnCredits 100 o s).1

/-- Whether an item waits for a quiesced global lane (R338). -/
def laneWaits (s : State) (it : TxItem) : Bool :=
  match it.gl with
  | some gl => glState s gl == 3 || glState s gl == 4
  | none => false

/-- The most management flits that a link carries in 1 µs: 1/16 of what its up lanes carry, 25 GB/s each in flits of 256 bytes
(Table 10.5). -/
def mgmtCap (s : State) (k : Nat) : Nat := upLanes s k * 25000 / 4096

/-- How many flits an item may send now. -/
def flitBudget (s : State) (k : Nat) (it : TxItem) : Nat :=
  bif it.pkt.route.typ == 3 then Nat.min 17 (mgmtCap s k - (link s k).mgSent) else 17

/-- What sending `n` flits of a TYPE leaves for the arbitration of a link. -/
def noteServed (typ n : Nat) (l : Link) : Link :=
  bif n == 0 then l else bif typ == 3 then { l with mgSent := l.mgSent + n } else { l with turn := typ }

/-- One item of a link's queue in its turn: what is left of the queue, and the queues that a waiting item blocks. -/
def pumpItem (k : Nat) (a : State × List TxItem × List Nat) (it : TxItem) : State × List TxItem × List Nat :=
  let vs := packetVs it.pkt
  bif a.2.2.contains vs || laneWaits a.1 it then (a.1, a.2.1 ++ [it], vs :: a.2.2)
  else
    let r := sendFlits (flitBudget a.1 k it) a.1.time (link a.1 k) it []
    let s := modLink k (fun _ => noteServed it.pkt.route.typ.toNat (r.2.1.sent - it.sent) r.1) a.1
    let s := r.2.2.foldl (fun s f => emit (.flit (keyLink k) f) s) s
    let c := returnCredits (r.2.1.sent - it.sent) it.orig s
    bif Nat.ble it.pkt.route.nflit r.2.1.sent then (c.1, a.2.1, a.2.2)
    else (c.1, a.2.1 ++ [{ r.2.1 with orig := c.2 }], vs :: a.2.2)

/-- Lists served in turn, one item of each at a time. -/
def inTurns : Nat → List (List TxItem) → List TxItem
  | 0, _ => []
  | n + 1, ls => ls.filterMap List.head? ++ inTurns n (ls.map List.tail)

/-- The order in which a link takes its queue: management first, then requests, responses and collectives in turn, beginning after the TYPE
last served (Table 10.5). -/
def arbitration (l : Link) : List TxItem :=
  let of := fun (n : Nat) => l.queue.filter fun it => it.pkt.route.typ.toNat == n
  of 3 ++ inTurns l.queue.length [of ((l.turn + 1) % 3), of ((l.turn + 2) % 3), of (l.turn % 3)]

/-- Markers that waited for a lane of a link go out on it. -/
def flushMarks (k : Nat) (s : State) : State :=
  (link s k).toMark.foldl (fun s m => emit (.marker (keyLink k) (m / 6) (m % 6) (oldEpoch s)) s) (modLink k (fun l => { l with toMark := [] }) s)

/-- A link with an up lane sends what its credits and its window of 1,024 flits allow, in order within each queue (Table 10.5, R351,
R352). -/
def pump (k : Nat) (s : State) : State :=
  bif linkUp s k then
    let s := modLink k (fun l => bif Nat.ble (l.mgAt + 1000) s.time then { l with mgAt := s.time, mgSent := 0 } else l) (flushMarks k s)
    let r := (arbitration (link s k)).foldl (pumpItem k) (s, [], [])
    modLink k (fun l => { l with queue := r.2.1 }) r.1
  else s

/-- Every link sends what it can; credits still owed go out on idle flits. -/
def pumpAll (s : State) : State :=
  let s := s.links.foldl (fun s k => pump k.1 s) s
  s.links.foldl (fun s k => (link s k.1).owed.foldl (fun s _ => bif linkUp s k.1 then sendIdle k.1 false s else s) s) s

/-- A packet waits for a link at a hop stage. -/
def enqueueOn (k : Nat) (pkt : Packet) (gl : Option Nat) (o : Option Origin) (s : State) : State :=
  modLink k (fun l => { l with queue := l.queue ++ [⟨pkt, 0, gl, o⟩] }) s

/-! ## Where a packet goes (R337, R338) -/

/-- What a router does with a packet. -/
inductive Hop where
  | deliver (p : Packet)
  /-- Onto a link; the global lane when it waits for that lane. -/
  | send (k : Nat) (p : Packet) (gl : Option Nat)
  | drop (st : Status)
  deriving DecidableEq, Repr

def setStg (p : Packet) (n : Nat) : Packet := { p with route := { p.route with stg := BitVec.ofNat 2 n } }
def sendLocal (s : State) (p : Packet) (stg q : Nat) : Hop := .send (localKey s q) (setStg p stg) none

/-- Whether a global lane can take a packet now. -/
def glUsable (s : State) (gl : Nat) : Bool := glState s gl == 2 && (glFar s gl).isSome
/-- send_global with R338; `e` is the entry that named the exit. -/
def sendGlobal (s : State) (p : Packet) (e : Nat) : Hop :=
  let gl := p.route.gl.toNat
  let go := fun (gl : Nat) (w : Option Nat) =>
    match glFar s gl with
    | some n => Hop.send (8192 + n) (setStg { p with route := { p.route with gl := BitVec.ofNat 9 gl } } 1) w
    | none => Hop.drop 0x0404
  bif (glState s gl == 3 || glState s gl == 4) && (glFar s gl).isSome then go gl (some gl)
  else bif glUsable s gl then go gl none
  else bif p.route.ord then .drop 0x0404
  else
    match (rtExits e).find? fun x => x.1 == portNo (ownNode s) && glUsable s x.2 with
    | some x => go x.2 none
    | none => .drop 0x0404

/-- Packets that wait for the link of an exit. -/
def exitQueue (s : State) (x : Nat × Nat) : Nat :=
  bif x.1 == portNo (ownNode s) then
    match glFar s x.2 with | some n => (link s (8192 + n)).queue.length | none => 0
  else (link s (localKey s x.1)).queue.length
/-- Whether an exit is up, as far as this part can see. -/
def exitUp (s : State) (x : Nat × Nat) : Bool := bif x.1 == portNo (ownNode s) then glUsable s x.2 else linkUp s (localKey s x.1)

/-- pick_exit: ORD packets by the hash over the valid exits that are up (R343), others the least queued. -/
def pickExit (s : State) (e : Nat) (p : Packet) : Option (Nat × Nat) :=
  let xs := rtExits e
  bif p.route.ord then
    let ups := xs.filter (exitUp s)
    let ups := bif ups.isEmpty then xs else ups
    bif ups.isEmpty then none else ups[Config.ordHash p.route.src.toNat p.route.dst.toNat % ups.length]?
  else
    let least := xs.foldl (fun m x => Nat.min m (exitQueue s x)) (2 ^ 64)
    let ties := xs.filter fun x => exitQueue s x == least
    bif ties.isEmpty then none else ties[Config.drawExit s.free % ties.length]?

/-- take_exit. An entry without a valid exit leads nowhere. -/
def takeExit (s : State) (p : Packet) (e : Nat) : Hop :=
  match pickExit s e p with
  | none => .drop 0x0404
  | some x =>
    let p := { p with route := { p.route with gm := BitVec.ofNat 4 x.1, gl := BitVec.ofNat 9 x.2 } }
    bif x.1 == portNo (ownNode s) then sendGlobal s p e else sendLocal s p 0 x.1

/-- NGRP, 0 treated as 1 (Table 10.11). -/
def ngrp (s : State) : Nat := Nat.max 1 (fld s .fabCtl 0 0 25 16)

/-- inject, for an entry whose V is 1 and whose MODE is not reserved. -/
def injectHop (s : State) (t : TableSet) (p : Packet) : Hop :=
  let dst := p.route.dst.toNat
  let e := t.route dst
  match rtMode e with
  | 0 => .deliver p
  | 1 => sendLocal s p 2 (portNo dst)
  | 3 =>
    let g := Config.drawGroup s.free % ngrp s
    let m := rtMode (t.route (g * 16))
    bif !p.route.ord && flag s .fabCtl 0 0 3 && !(g == groupNo (ownNode s)) && !(g == groupNo dst) && (m == 2 || m == 3) then
      takeExit s { p with route := { p.route with via := true, igrp := BitVec.ofNat 9 g } } (t.route (g * 16))
    else takeExit s p e
  | _ => takeExit s p e

/-- arrive, for a unicast packet at hop stage `stg`. -/
def arriveHop (s : State) (t : TableSet) (p : Packet) (stg : Nat) : Hop :=
  let dst := p.route.dst.toNat
  let e := bif p.route.via then t.route (p.route.igrp.toNat * 16) else t.route dst
  match stg with
  | 0 => sendGlobal s p e
  | 1 =>
    bif !(groupNo (ownNode s) == groupNo dst) then
      bif p.route.cls == 1 then .drop 0x0404
      else
        let p := { p with route := { p.route with cls := 1, via := false } }
        let e := t.route dst
        bif rtMode e == 4 || !(rtV e) then .drop 0x0404
        else
          match rtMode e with
          | 0 => .deliver p
          | 1 => sendLocal s p 2 (portNo dst)
          | _ => takeExit s p e
    else bif dst == ownNode s then .deliver p
    else sendLocal s p 2 (portNo dst)
  | _ => .deliver p

/-- The copies a part makes of a multicast packet, by how it reached it; `none` at the root (R345). -/
def treeHops (s : State) (e : Nat) (p : Packet) (stg : Option Nat) : List Hop :=
  let dlv := bif bit e 16 then [Hop.deliver p] else []
  let mask := fun (stg : Nat) => ((List.range 16).filter fun q => bit e q && !(q == portNo (ownNode s))).map fun q =>
    bif linkUp s (localKey s q) || linkHeld s (localKey s q) then sendLocal s p stg q else .drop 0x0404
  let glob := ((List.range 4).map fun n => bits e (29 + 9 * n) (21 + 9 * n)).filterMap fun gl =>
    bif gl % 16 == 0 then none
    else
      let q := { p with route := { p.route with gl := BitVec.ofNat 9 gl } }
      some (match glFar s gl with
        | some n => bif glState s gl == 2 then .send (8192 + n) (setStg q 1) none
          else bif glState s gl == 3 || glState s gl == 4 then .send (8192 + n) (setStg q 1) (some gl) else .drop 0x0404
        | none => .drop 0x0404)
  match stg with
  | none => dlv ++ mask 0 ++ glob
  | some 0 => dlv ++ glob
  | some 1 => dlv ++ mask 2
  | _ => [.deliver p]

/-! ## Delivery and drops -/

/-- The partition bound to a slice (R346). -/
def slicePart (s : State) (slice : Nat) : Option Nat :=
  (List.range 8).find? fun p => flag s .fabPslice p 0 31 && fld s .fabPslice p 0 11 0 == slice
/-- The slice of a partition, if it has one. -/
def partSlice (s : State) (p : Nat) : Option Nat := bif flag s .fabPslice p 0 31 then some (fld s .fabPslice p 0 11 0) else none
/-- Whether a node is a manager (R346, R357). -/
def isManager (s : State) (n : Nat) : Bool := (List.range 4).any fun k => flag s .fabMgr k 0 31 && fld s .fabMgr k 0 12 0 == n

/-- The register that counts a drop (Table 10.11, Table 10.12). -/
def dropCounter (st : Status) : Reg :=
  bif st == 0x0403 then .fabDropEpoch else bif st == 0x0405 then .fabDropSlice else bif st == 0x0407 then .fabDropLink else .fabDropRoute

/-- What the Steward accepts of a management packet (R346): those of the managers, and of any node the weather records that R356 sends to a
collector and the DRAINED that R349 sends to the managers. -/
def stewardTakes (s : State) (p : Packet) : Bool :=
  match p.body with
  | .drained => true
  | .weather _ => true
  | _ => isManager s p.route.src.toNat

/-- What delivery of a packet comes to: a drop with a status, or the new state (R341, R346). A management packet that the Steward does not
accept is discarded. A request keeps its input credits until it is taken (R380). -/
def deliverTo (p : Packet) (o : Option Origin) (s : State) : Except Status State :=
  bif p.route.typ == 3 then
    bif !(p.route.slice == 0xFFF) then .error 0x0405
    else bif !(stewardTakes s p) then .ok (returnAll o s)
    else bif Nat.blt s.stewardQ.length 64 then .ok (returnAll o { s with stewardQ := s.stewardQ ++ [(p, none)] })
    else .ok { s with stewardQ := s.stewardQ ++ [(p, o)] }
  else
    match slicePart s p.route.slice.toNat with
    | none => .error 0x0405
    | some n =>
      bif p.route.typ == 0 then .ok { s with arrived := s.arrived ++ [⟨s.time, n, p, o⟩] }
      else .ok (returnAll o { s with arrived := s.arrived ++ [⟨s.time, n, p, none⟩] })

def isNotice (p : Packet) : Bool := match p.body with | .notice _ _ _ => true | _ => false

/-- The drop notice of a packet (R355). -/
def noticeOf (s : State) (p : Packet) (st : Status) : Packet :=
  { route := { p.route with dst := p.route.src, src := BitVec.ofNat 13 (ownNode s), epoch := BitVec.ofNat 2 s.epoch, typ := 1, cls := 0,
                            ord := false, via := false, igrp := 0, mc := false, nflit := 1, gl := 0, gm := 0, stg := 0, rsv := 0 },
    body := match p.body with
      | .transport h _ => .notice st (some h) none
      | .gateway _ _ h _ => .notice st (some h) none
      | .collective m => .notice st none (some m)
      | _ => .notice st none none }

/-- The fabric engine on which a drop is counted: that of the first lane of the link the packet came from, E0 for one that came from no
link. -/
def dropEngine (s : State) (o : Option Origin) : Nat :=
  match o with
  | some g => (match linkLanes s g.link with | x :: _ => x.1 | [] => 0)
  | none => 0
/-- A drop, and a notice discarded, in the counts of Table 16.3, kind 8. -/
def noteDrop (e dropped lost : Nat) (s : State) : State :=
  { s with drops := tmod s.drops e (0, 0) fun (x : Nat × Nat) => (x.1 + dropped, x.2 + lost) }

/-- A notice that is lost is counted only. -/
def noticeLost (e : Nat) (st : Status) (s : State) : State := bump (dropCounter st) 0 0 1 (noteDrop e 0 1 s)

/-- Whether a packet waits whole in a link's queue. -/
def queuedWhole (s : State) (q : Packet) : Bool := s.links.any fun l => l.2.queue.any fun it => it.sent == 0 && it.pkt == q
/-- A notice of a drop on engine `e` now waits for a link. -/
def noteNotice (q : Packet) (e : Nat) (s : State) : State :=
  { s with notices := (s.notices.filter fun n => queuedWhole s n.1) ++ [(q, e)] }

/-- A drop notice goes out from this part; one that cannot be routed is discarded and counted (R355). -/
def sendNotice (eng : Nat) (p : Packet) (st : Status) (s : State) : State :=
  let q := noticeOf s p st
  let e := s.fabActive.route q.route.dst.toNat
  bif q.route.dst.toNat == ownNode s then
    match deliverTo q none s with | .ok s => s | .error st => noticeLost eng st s
  else bif !(rtV e) || Nat.ble 5 (rtMode e) then noticeLost eng 0x0404 s
  else
    match injectHop s s.fabActive q with
    | .deliver q => (match deliverTo q none s with | .ok s => s | .error st => noticeLost eng st s)
    | .send k q gl => { noteNotice q eng (enqueueOn k q gl none s) with free := s.free + 1 }
    | .drop st => noticeLost eng st s

/-- A packet or copy is dropped: counted, its input credits returned, and SRC told (R350, R337, R346, R354, R355). -/
def dropPacket (p : Packet) (st : Status) (o : Option Origin) (s : State) : State :=
  let e := dropEngine s o
  let s := returnAll o (bump (dropCounter st) 0 0 1 (noteDrop e 1 (b01 (isNotice p)) s))
  bif isNotice p then s else sendNotice e p st s

/-- What a router decided is done. -/
def doHop (p : Packet) (o : Option Origin) (s : State) (h : Hop) : State :=
  match h with
  | .deliver q => (match deliverTo q o s with | .ok s => s | .error st => dropPacket q st o s)
  | .send k q gl => pump k (enqueueOn k q gl o s)
  | .drop st => dropPacket p st o s

/-! ## Arrival (R334, R337, R345) -/

/-- A route header with a reserved value or bit (Table 10.3). -/
def routeBad (p : Packet) : Bool :=
  let r := p.route
  !(r.rsv == 0) || r.stg == 3 || r.nflit == 0 || Nat.blt 17 r.nflit || (r.mc && !(r.dst.toNat / 1024 == 0))

/-- A router handles a packet that arrives at hop stage `stg`. -/
def arrivePacket (p : Packet) (stg : Nat) (o : Option Origin) (s : State) : State :=
  bif routeBad p then returnAll o (bump .fabDropRoute 0 0 1 s)
  else
    match setOf s p.route.epoch.toNat with
    | none => dropPacket p 0x0403 o s
    | some t =>
      let s' := { s with free := s.free + 1 }
      bif p.route.mc then
        let hs := treeHops s (t.tree (p.route.dst.toNat % 1024)) p (some stg)
        hs.foldl (fun s h => doHop p none s h) (returnAll o s')
      else doHop p o s' (arriveHop s t p stg)

/-- PACKET_ARRIVE: only hellos are accepted until the first table swap (R333). -/
def packetArrive (_ : LinkId) (p : Packet) (s : State) : State :=
  bif s.swapped then pumpAll (arrivePacket p p.route.stg.toNat none s) else s

def execPacketArrive (link : LinkId) (pkt : Packet) (t : Time) (s : State) : Host.Outcome State Fault Refusal :=
  .next (packetArrive link pkt (atTime t s))

/-! ## Injection (R336, R343, R344, R346) -/

/-- What injection comes to; `held` is a packet that must wait for its ORD path (R343). -/
inductive Injected where
  | sent (s : State)
  | refused (st : Status)
  | held

/-- The bytes of a packet's body behind the route header, up to what a packet holds. -/
def bodyBytes : Body → Nat
  | .transport _ p => 16 + p.length
  | .gateway _ _ _ p => 16 + p.length
  | .collective (.contribution _ _ v _ _) => 16 + 16 * v.length
  | .collective (.go _ _ _ v _) => 16 + 16 * v.length
  | .collective (.summary _ _ _ l) => 16 + sumNat (l.map fun i => 16 + 16 * i.values.length)
  | .collective (.chunk _ _ _ _ d) => 16 + d.length
  | .collective (.result _ _ _ _ _ d _) => 16 + d.length
  | .weather b => 16 + b.length
  | _ => 16
/-- NFLIT: 244 bytes to a flit, at most 17 (Table 10.9). -/
def flitsOf (b : Body) : Nat := Nat.min 17 ((16 + bodyBytes b + 243) / 244)

/-- The path an ORD packet would take now: epoch, group port and global lane of its exit; a hop within the group has no exit, and a packet
that is dropped has no path. -/
def pathOf (s : State) (h : Hop) : Option (Nat × Nat × Nat) :=
  match h with
  | .send _ p _ => some (s.epoch, p.route.gm.toNat, p.route.gl.toNat)
  | .deliver _ => some (s.epoch, 0, 0)
  | .drop _ => none

/-- Whether an ORD request to a destination awaits its final response. -/
def ordOutstanding (s : State) (dst : Nat) : Bool :=
  s.txns.any fun t => t.2.hdr.ord && bits t.2.rank 28 16 == dst && !t.2.near

/-- An ORD packet goes out and its path is kept. -/
def ordOut (p : Packet) (h : Hop) (s : State) : State :=
  doHop p none (match pathOf s h with | some q => { s with ordPaths := tset s.ordPaths p.route.dst.toNat q } | none => s) h

/-- A packet whose header the network interface has filled is routed. A new ORD packet waits while its path would change under ORD
packets that await their completion; a retransmission keeps the old path, or is dropped when that path has failed (R343). -/
def routeOut (p : Packet) (again : Bool) (s : State) : Injected :=
  let h := injectHop s s.fabActive p
  let s' := { s with free := s.free + 1 }
  let dst := p.route.dst.toNat
  bif p.route.ord then
    match tget? s.ordPaths dst with
    | some q =>
      bif pathOf s h == some q || !(ordOutstanding s dst) then .sent (ordOut p h s')
      else bif !again then .held
      else
        let x := (q.2.1, q.2.2)
        let r : Packet := { p with route := { p.route with gm := BitVec.ofNat 4 x.1, gl := BitVec.ofNat 9 x.2 } }
        .sent (doHop p none s' (bif x.2 == 0 then sendLocal s p 2 (portNo dst)
          else bif !(exitUp s x) then .drop 0x0404
          else bif x.1 == portNo (ownNode s) then sendGlobal s r 0 else sendLocal s r 0 x.1))
    | none => .sent (ordOut p h s')
  else .sent (doHop p none s' h)

/-- The network interface takes a packet of partition `p` (R336, R344, R346), or of the Steward (TYPE 3); `again` marks a
retransmission. -/
def inject (part : Nat) (pkt : Packet) (again : Bool) (s : State) : Injected :=
  let mgmt := pkt.route.typ == 3
  match (bif mgmt then some 0xFFF else partSlice s part) with
  | none => .refused 0x0402
  | some slice =>
    let r := { pkt.route with
      src := BitVec.ofNat 13 (ownNode s), epoch := BitVec.ofNat 2 s.epoch, cls := 0, via := false, igrp := 0, slice := BitVec.ofNat 12 slice,
      nflit := flitsOf pkt.body, gl := 0, gm := 0, stg := 0, rsv := 0 }
    let p : Packet := { pkt with route := r }
    bif r.mc then
      let e := s.fabActive.tree (r.dst.toNat % 1024)
      bif Nat.blt r.typ.toNat 2 || !(bit e 20) || (!mgmt && !(bits e 19 17 == part)) then .refused 0x0401
      else .sent ((treeHops s e p none).foldl (fun s h => doHop p none s h) s)
    else
      let e := s.fabActive.route r.dst.toNat
      let exitless := (rtMode e == 2 || rtMode e == 3 || rtMode e == 4) && (rtExits e).isEmpty
      bif !(rtV e) || Nat.ble 5 (rtMode e) || exitless then .refused 0x0401
      else bif !mgmt && !(rtAllows e part) then .refused 0x0402
      else routeOut p again s

/-- A route header to a node. -/
def routeTo (dst typ : Nat) (ord mc : Bool) : Route :=
  { dst := BitVec.ofNat 13 dst, src := 0, epoch := 0, typ := BitVec.ofNat 2 typ, cls := 0, ord := ord, igrp := 0, via := false, mc := mc,
    slice := 0, nflit := 1, gl := 0, gm := 0, stg := 0, rsv := 0 }

/-- The Steward sends a management packet; one that is refused is not sent. -/
def sendMgmt (dst : Nat) (b : Body) (s : State) : State :=
  match inject 0 ⟨routeTo dst 3 false false, b⟩ false s with
  | .sent s => s
  | _ => s

/-- An engine takes a packet from those delivered to the network interface: the packet with its time and partition. -/
def takeArrived (q : Arrived → Bool) (s : State) : Option (Arrived × State) :=
  match firstIdx q s.arrived with
  | none => none
  | some n => (s.arrived[n]?).map fun x => (x, returnAll x.orig { s with arrived := listDrop s.arrived n })

/-- The Steward takes the first packet of its queue that satisfies `q`; the 64th of the rest enters the queue. -/
def takeMgmt (q : Packet → Bool) (s : State) : Option (Packet × State) :=
  match firstIdx (fun (x : Packet × Option Origin) => q x.1) s.stewardQ with
  | none => none
  | some n =>
    match s.stewardQ[n]? with
    | none => none
    | some x =>
      let l := listDrop s.stewardQ n
      let s := returnAll x.2 { s with stewardQ := l }
      match l[63]? with
      | some y => some (x.1, returnAll y.2 { s with stewardQ := listMod l 63 fun z => (z.1, none) })
      | none => some (x.1, s)

/-! ## The receiving end of a link (R351 to R353) -/

/-- Bytes 0 to 7 of a flit (Table 10.9). -/
def flitHead (f : Flit) : Nat :=
  f.seq % 4096 + f.ack % 4096 * 2 ^ 12 + b01 f.nak * 2 ^ 24 + f.vc.toNat * 2 ^ 25 + f.stg.toNat * 2 ^ 28 + b01 f.head * 2 ^ 30
    + b01 f.tail * 2 ^ 31 + f.crvc.toNat * 2 ^ 32 + f.crstg.toNat * 2 ^ 35 + b01 f.crpool * 2 ^ 37 + f.crcnt.toNat * 2 ^ 38 + b01 f.idle * 2 ^ 44
/-- The CRC-32 of a flit whose bytes 8 to 251 are given: over bytes 0 to 251 (Table 10.9). -/
def flitCrc (f : Flit) (bytes : List Byte) : W32 := BitVec.ofNat 32 (crc32 (leBytes 8 (flitHead f) ++ sliceBytes bytes 0 244))

/-- An acknowledgement up to `ack` (R352). -/
def takeAck (ack : Nat) (now : Time) (l : Link) : Link :=
  match firstIdx (fun (f : SentFlit) => f.flit.seq == ack) l.unacked with
  | some n => { l with unacked := l.unacked.drop (n + 1), ackAt := now, tryAt := now }
  | none => l

/-- Credits that the far end returns (R353). -/
def takeCredits (f : Flit) (l : Link) : Link :=
  let vs := 4 * f.crvc.toNat + f.crstg.toNat
  let n := f.crcnt.toNat
  bif f.crpool then { l with shared := l.shared - n } else { l with ded := tset l.ded vs (tget l.ded vs 0 - n) }

/-- The sender resends from the first unacknowledged flit over any up lane (R352). -/
def replay (k : Nat) (s : State) : State :=
  bif linkUp s k then
    let l := link s k
    let s := l.unacked.foldl (fun s f => emit (.flit (keyLink k) { f.flit with ack := (l.next + 4095) % 4096 }) s) s
    modLink k (fun l => { l with tryAt := s.time }) (bump .fabReplay 0 0 l.unacked.length s)
  else s

/-- A flit delivered in order: it takes an input credit, and with the tail its packet arrives. -/
def deliverFlit (k : Nat) (f : Flit) (s : State) : State :=
  let l := link s k
  let vs := 4 * f.vc.toNat + f.stg.toNat
  let sh := Nat.blt l.inShared 1024
  let o := bif f.head then ⟨k, vs, 0, 0⟩ else tget l.part vs ⟨k, vs, 0, 0⟩
  let o : Origin := { o with shared := o.shared + b01 sh, ded := o.ded + b01 (!sh) }
  let s := modLink k (fun l => { l with
    next := (l.next + 1) % 4096, inShared := l.inShared + b01 sh,
    inDed := bif sh then l.inDed else tset l.inDed vs (tget l.inDed vs 0 + 1),
    part := bif f.tail then terase l.part vs else tset l.part vs o }) s
  bif f.tail then
    match f.packet with
    | some p => arrivePacket p f.stg.toNat (some o) s
    | none => returnAll (some o) s
  else s

/-- Held flits that are next in order are delivered. -/
def drainHeld : Nat → Nat → State → State
  | 0, _, s => s
  | n + 1, k, s =>
    let l := link s k
    match l.held.find? (fun f => f.seq == l.next) with
    | none => s
    | some f => drainHeld n k (deliverFlit k f (modLink k (fun l => { l with held := l.held.filter fun g => !(g.seq == f.seq) }) s))

/-- The gap is open while flits are held. -/
def noteGap (k : Nat) (s : State) : State :=
  modLink k (fun l => { l with gap := bif l.held.isEmpty then none else (match l.gap with | some t => some t | none => some s.time) }) s

/-- A flit with packet bytes: delivered in SEQ order, held ahead of a gap (up to 512), or a duplicate (R352). -/
def sequencedFlit (k : Nat) (f : Flit) (s : State) : State :=
  let l := link s k
  let ahead := (f.seq + 4096 - l.next) % 4096
  bif ahead == 0 then noteGap k (drainHeld 512 k (deliverFlit k f s))
  else bif Nat.blt ahead 2048 && Nat.blt l.held.length 512 && !(l.held.any fun g => g.seq == f.seq) then
    noteGap k (modLink k (fun l => { l with held := l.held ++ [f] }) s)
  else s

/-- FLIT_RECEIVE: the flit with its bytes 8 to 251 and its CRC as they came. `fec` is some where a codeword that the flit touches could not be
corrected, and how many such codewords it is the first to touch; its CRC then fails (R351). -/
def flitReceive (k : Nat) (f : Flit) (bytes : List Byte) (crc : W32) (fec : Option Nat) (s : State) : State :=
  let s := match fec with | some n => bump .fabFecunc 0 0 n s | none => s
  bif !s.swapped && !(isMemory k) then s
  else bif fec.isSome || !(crc == flitCrc f bytes) then sendIdle k true (bump .fabCrcerr 0 0 1 s)
  else
    let s := modLink k (fun l => takeCredits f (takeAck f.ack s.time l)) s
    let s := bif f.nak then replay k s else s
    let s := bif f.idle then s else sendIdle k false (sequencedFlit k f s)
    pumpAll s

/-- FLIT_GAP_TIMEOUT: a gap has stayed open for 2 µs and NAK is sent. -/
def gapTimeout (k : Nat) (s : State) : State :=
  match (link s k).gap with
  | some g => bif Nat.ble (g + 2000) s.time then sendIdle k true (modLink k (fun l => { l with gap := some s.time }) s) else s
  | none => s

def execFlitGapTimeout (link : LinkId) (t : Time) (s : State) : Host.Outcome State Fault Refusal :=
  .next (gapTimeout (linkKey link) (atTime t s))

/-- REPLAY_TIMEOUT: no acknowledgement within REPLAYTO (10 ns units). -/
def replayTimeout (k : Nat) (s : State) : State :=
  let l := link s k
  bif !l.unacked.isEmpty && Nat.ble (l.tryAt + 10 * fld s .fabLtime 0 0 15 0) s.time then replay k s else s

def execReplayTimeout (link : LinkId) (t : Time) (s : State) : Host.Outcome State Fault Refusal :=
  .next (replayTimeout (linkKey link) (atTime t s))

/-- NAK_RECEIVE: a NAK with its ACK. -/
def nakReceive (k ack : Nat) (s : State) : State := replay k (modLink k (takeAck ack s.time) s)

def execNakReceive (link : LinkId) (ack : Nat) (t : Time) (s : State) : Host.Outcome State Fault Refusal :=
  .next (nakReceive (linkKey link) ack (atTime t s))

/-! ## Link failure (R354) -/

/-- Since when a link has had no up lane. -/
def linkDownSince (s : State) (k : Nat) : Nat := maxNat ((linkLanes s k).map fun x => (laneAux s x.1 0 x.2).notUp)

/-- Whether a link has failed: no up lane for LINKTO, once for each time that it has none, or acknowledgements that stand still for LINKTO
(µs). What a memory link's lanes do to its module is R288's. -/
def linkFailed (s : State) (k : Nat) : Bool :=
  let timeout := 1000 * fld s .fabLtime 0 0 31 16
  let l := link s k
  bif isMemory k then false
  else bif linkUp s k then !l.unacked.isEmpty && Nat.ble (l.ackAt + timeout) s.time
  else Nat.ble (linkDownSince s k + timeout) s.time && !(l.failedAt == some (linkDownSince s k))

/-- The packets of a failed link: those with an unacknowledged flit, then those that wait. -/
def failedPackets (l : Link) : List (Packet × Option Origin) × List (Packet × Option Origin) :=
  let part := fun (it : TxItem) => Nat.blt 0 it.sent && l.unacked.any fun f => !f.flit.tail && f.pkt == it.pkt
  (((l.unacked.filter fun f => f.flit.tail).map fun f => (f.pkt, none)) ++ (l.queue.filter part).map (fun it => (it.pkt, it.orig)),
   (l.queue.filter fun it => !(part it)).map fun it => (it.pkt, it.orig))

/-- LINK_FAILURE: the packets are dropped, FAB_LINKFAIL rises, and both ends begin again with full credits (R353, R354). -/
def linkFailure (k : Nat) (s : State) : State :=
  bif !(linkLanes s k).isEmpty && linkFailed s k then
    let l := link s k
    let ps := failedPackets l
    let s := bump .fabLinkfail 0 0 1 (modLink k (fun l => { Link.reset with
      marks := l.marks, failedAt := bif linkUp s k then none else some (linkDownSince s k) }) s)
    let s := ps.1.foldl (fun s p => dropPacket p.1 0x0407 p.2 s) s
    pumpAll (ps.2.foldl (fun s p => dropPacket p.1 0x0404 p.2 s) s)
  else s

def execLinkFailure (link : LinkId) (t : Time) (s : State) : Host.Outcome State Fault Refusal :=
  .next (linkFailure (linkKey link) (atTime t s))

/-! ## Table epochs (R347 to R350) -/

/-- A packet of the old epoch and a TYPE, and its stage as 3 × CLASS + STG. -/
def oldPacket (s : State) (typ : Nat) (p : Packet) : Bool := p.route.epoch.toNat == oldEpoch s && p.route.typ.toNat == typ
def packetStage (p : Packet) : Nat := 3 * p.route.cls.toNat + p.route.stg.toNat

/-- Whether an old packet of a TYPE waits for an output link of a stage, or is not acknowledged on one. -/
def oldWaits (s : State) (typ stage : Nat) : Bool :=
  let q := fun (p : Packet) => oldPacket s typ p && packetStage p == stage
  s.links.any fun l => l.2.queue.any (fun it => q it.pkt) || l.2.unacked.any fun f => q f.pkt

/-- Whether an old packet of a TYPE that came at a stage before `stage` is still in an input queue: held ahead of a gap, received in part (its
epoch comes with its tail), or waiting for the Steward. -/
def oldHeld (s : State) (typ stage : Nat) : Bool :=
  s.links.any (fun l =>
    l.2.held.any (fun f => match f.packet with | some p => oldPacket s typ p && Nat.blt (packetStage p) stage | none => false)
      || l.2.part.any fun x => x.1 / 8 == typ && Nat.blt (3 * (x.1 / 4 % 2) + x.1 % 4) stage)
    || s.stewardQ.any fun x => x.2.isSome && oldPacket s typ x.1 && Nat.blt (packetStage x.1) stage

/-- Whether the markers of a stage have come on every input link of it; a link with no up lane counts as done (R348). -/
def stageMarked (s : State) (typ stage : Nat) : Bool :=
  (stageLinks s (stage % 3)).all fun k => !(linkUp s k) || (link s k).marks.contains (6 * typ + stage)

/-- The marker of a stage goes out when its conditions hold (R348); on a link whose lanes are only held it waits for one of them. -/
def sendMark (s : State) (m : Nat) : State :=
  let typ := m / 6
  let stage := m % 6
  bif !(s.sentMarks.contains m) && (List.range stage).all (fun e => stageMarked s typ e && s.sentMarks.contains (6 * typ + e)) && !(oldWaits s typ stage)
      && !(oldHeld s typ stage) then
    (stageLinks s (stage % 3)).foldl (fun s k =>
      bif linkUp s k then emit (.marker (keyLink k) typ stage (oldEpoch s)) s
      else bif linkHeld s k then modLink k (fun l => { l with toMark := l.toMark ++ [m] }) s
      else s) { s with sentMarks := s.sentMarks ++ [m] }
  else s
/-- Every marker that can go out goes out, in stage order. -/
def drainProgress (s : State) : State := bif draining s then (List.range 24).foldl sendMark s else s

/-- The old set is released: it becomes the shadow, undefined until it is rewritten (R349). -/
def releaseOld (s : State) : State :=
  let s := emergEnds s
  { s with fabOld := none, fabShadow := ⟨[], [], some s.free⟩, free := s.free + 1, sentMarks := [],
           links := s.links.map fun l => (l.1, { l.2 with marks := [], toMark := [] }) }

/-- Packets dropped so far. -/
def dropCount (s : State) : Nat := raw s .fabDropEpoch 0 0 + raw s .fabDropRoute 0 0 + raw s .fabDropSlice 0 0 + raw s .fabDropLink 0 0
/-- FAB_TBL.SWAP: 0x0406, or the shadow set becomes active (R347). -/
def fabSwapStatus (s : State) : Status := failIf (!(flag s .fabTbl 0 0 29) || draining s) 0x0406
def fabSwap (s : State) : State :=
  let s := setFld .fabTbl 0 0 29 29 0 s
  let ready := match s.fabReady with | some t => some t | none => bif s.discovered then some s.time else none
  drainProgress { s with fabOld := some s.fabActive, fabActive := s.fabShadow, fabShadow := ⟨[], [], none⟩, epoch := (s.epoch + 1) % 4,
                         swapped := true, drainAt := s.time, drainWarned := false, fabReady := ready, wxAt := bif ready == s.fabReady then s.wxAt else s.time,
                         wxDrops := bif ready == s.fabReady then s.wxDrops else dropCount s,
                         wxReplays := bif ready == s.fabReady then s.wxReplays else raw s .fabReplay 0 0 }

/-- FAB_TBL.FORCE: the old set is released at once (R350). -/
def fabForce (s : State) : State := bif draining s then releaseOld s else s

/-- DRAIN_MARKER_ARRIVE. -/
def markerArrive (k typ stage : Nat) (s : State) : State :=
  let m := 6 * typ + stage
  drainProgress (modLink k (fun l => { l with marks := bif l.marks.contains m then l.marks else l.marks ++ [m] }) s)

def execDrainMarkerArrive (link : LinkId) (typ : BitVec 2) (stage : Fin 6) (t : Time) (s : State) : Host.Outcome State Fault Refusal :=
  .next (markerArrive (linkKey link) typ.toNat stage.val (atTime t s))

/-- DRAIN_RELEASE: every marker of all four TYPEs has been received and sent and no old packet is held; DRAINED goes to the managers
(R349). -/
def drainRelease (s : State) : State :=
  let s := drainProgress s
  bif draining s && (List.range 24).all (fun m => stageMarked s (m / 6) (m % 6) && s.sentMarks.contains m && !(oldWaits s (m / 6) (m % 6))
      && !(oldHeld s (m / 6) 6)) then
    (List.range 4).foldl (fun s n => bif flag s .fabMgr n 0 31 then sendMgmt (fld s .fabMgr n 0 12 0) .drained s else s) (releaseOld s)
  else s

def execDrainRelease (t : Time) (s : State) : Host.Outcome State Fault Refusal := .next (drainRelease (atTime t s))

/-- DRAIN_WARN_TIMEOUT: a drain that lasts longer than DRAINWARN raises one Warning (R350). -/
def drainWarn (s : State) : State :=
  bif draining s && !s.drainWarned && Nat.blt (s.drainAt + 1000000 * fld s .fabCtl 0 0 15 8) s.time then
    raise 0xB00C 2 none 0 0 { s with drainWarned := true }
  else s

def execDrainWarnTimeout (t : Time) (s : State) : Host.Outcome State Fault Refusal := .next (drainWarn (atTime t s))

/-- FAB_TBL: DRAINING, EPOCH and DRAINT (10 µs units) as they read now. -/
def fabTblRead (s : State) : Nat :=
  raw s .fabTbl 0 0 + b01 (draining s) * 2 ^ 26 + s.epoch * 2 ^ 24
    + (bif draining s then satTo 0xFFFF ((s.time - s.drainAt) / 10000) else 0)

/-- A write of FAB_PSLICE that R346 refuses: a slice bound to another partition, or 0xFFF. -/
def psliceStatus (s : State) (p v : Nat) : Status :=
  failIf (bit v 31 && (bits v 11 0 == 0xFFF || (List.range 8).any fun q =>
    !(q == p) && flag s .fabPslice q 0 31 && fld s .fabPslice q 0 11 0 == bits v 11 0)) 0x0408

/-- A link has lanes again: it sends what waits, and during a drain first the markers already passed (R348, R338). -/
def lanesBack (s : State) : State := pumpAll (drainProgress s)
/-- The link of a transmit lane of a local or global engine. -/
def laneLink (s : State) (e l : Nat) : Option Nat :=
  bif engineRole s e == 0 then bif l % 16 == 0 then none else some (localKey s ((portNo (ownNode s) + l % 16) % 16))
  else bif engineRole s e == 1 then (laneGl s e l).bind fun gl => (glFar s gl).map (8192 + ·)
  else none
/-- During a drain a link that has trained, or has been found, first sends the markers this part has already passed (R348). -/
def catchUpMarks (k : Nat) (s : State) : State :=
  bif draining s then
    (s.sentMarks.filter fun m => (m % 3 == 1) == Nat.ble 8192 k).foldl (fun s m => emit (.marker (keyLink k) (m / 6) (m % 6) (oldEpoch s)) s)
      (modLink k (fun l => { l with toMark := [] }) s)
  else s
/-- A transmit lane has trained; with the first up lane of its link the link has. -/
def laneTrained (e l : Nat) (s : State) : State :=
  match laneLink s e l with
  | none => s
  | some k => lanesBack (emergEnds (bif upLanes s k == 1 then catchUpMarks k s else s))

/-! ## Discovery (R331 to R333) -/

def ownDomain (s : State) : Nat := fld s .fabId 0 0 31 16
/-- HELLO_SEND: an up fabric lane sends a hello. -/
def helloSend (e f k : Nat) (s : State) : State :=
  let l := 16 * f + k
  bif Nat.ble (engineRole s e) 1 && laneState s e 0 l == 2 then
    emit (.hello e l { node := BitVec.ofNat 13 (ownNode s), domain := BitVec.ofNat 16 (ownDomain s), engine := e, fibre := f, colour := k }) s
  else s

def execHelloSend (e : EngineId) (f : Fin 4) (k : Fin 16) (t : Time) (s : State) : Host.Outcome State Fault Refusal :=
  .next (helloSend e.val f.val k.val (atTime t s))

/-- WIRING_MODE as sampled at start-up (Table 18.2). -/
def wiringFixed (s : State) : Bool := flag s .genStrap 0 0 13
/-- The checks of Table 10.2 for a hello on receive lane `l`; the peer of a lane whose receive colour is `c` is reached on colour
16 − c (R297). -/
def helloOk (s : State) (e l : Nat) (h : Hello) : Bool :=
  let n := h.node.toNat
  let k := pairedLane s e l % 16
  let first := match tget? s.helloFrom (64 * e + l) with | some m => m == n | none => true
  let place := bif wiringFixed s then (match s.fabMap with | some m => tget? m (64 * e + l) == some n | none => false)
    else bif engineRole s e == 0 then n == groupNo (ownNode s) * 16 + (portNo (ownNode s) + k) % 16
    else !(groupNo n == groupNo (ownNode s))
  h.domain.toNat == ownDomain s && first && place

/-- HELLO_RECEIVE: a hello that passes is recorded; one that fails fences the lane, sets MISWIRE and raises one Error (R331). -/
def helloReceive (e f k : Nat) (h : Hello) (s : State) : State :=
  let l := 16 * f + k
  let gl := bif engineRole s e == 1 then laneGl s e (pairedLane s e l) else none
  bif !(Nat.ble (engineRole s e) 1) || k == 0 || !(laneState s e 1 l == 2) then s
  else bif helloOk s e l h then
    let s := bif thas s.helloFrom (64 * e + l) then s else { s with helloFrom := tset s.helloFrom (64 * e + l) h.node.toNat }
    match gl with
    | some g =>
      let k := 8192 + h.node.toNat
      let known := (stageLinks s 1).contains k
      let s := setRaw .fabGlmap g 0 (2 ^ 31 + h.node.toNat) s
      pumpAll (bif !known && linkUp s k then catchUpMarks k s else s)
    | none => s
  else
    let s := match gl with | some g => setFld .fabGlmap g 0 30 30 1 s | none => s
    let u := laneUnit e 1 l
    bif isUp s 5 u then raise 0xB00A 1 none (unitId 5 u) 0 (causeLane u 0x030D s) else s

def execHelloReceive (e : EngineId) (f : Fin 4) (k : Fin 16) (h : Hello) (t : Time) (s : State) : Host.Outcome State Fault Refusal :=
  .next (helloReceive e.val f.val k.val h (atTime t s))

/-- A fabric receive lane that discovery waits for: down or in training, and not taken as absent (R333, R546). -/
def laneAwaited (s : State) (e l : Nat) : Bool :=
  Nat.ble (engineRole s e) 1 && Nat.ble (laneState s e 1 l) 1 && !(s.absent.contains (e * 64 + l))
/-- DISCOVERY_COMPLETE: discovery is done; with a set of epoch 1 or later the part is fabric-ready (R333). -/
def discoveryComplete (s : State) : State :=
  bif s.discovered || (List.range 8).any (fun e => (List.range 64).any (laneAwaited s e)) then s
  else
    bif s.swapped then { s with discovered := true, fabReady := some s.time, wxAt := s.time, wxDrops := dropCount s, wxReplays := raw s .fabReplay 0 0 }
    else { s with discovered := true }

def execDiscoveryComplete (t : Time) (s : State) : Host.Outcome State Fault Refusal := .next (discoveryComplete (atTime t s))

/-! ## Weather maps (R356) -/

/-- Four 7-bit bins, the lowest bin in the lowest bits. -/
def histogram (l : List Nat) : Nat := (List.range 4).foldl (fun a k => a + (l[k]?).getD 0 % 128 * 2 ^ (7 * k)) 0
/-- Lane `i` of a record: engine and lane. -/
def wxLane (i : Nat) : Nat × Nat := (i / 60, 16 * (i / 15 % 4) + i % 15 + 1)
/-- The record of Table 10.10 at the end of the present period. -/
def weatherBytes (lanes : List WeatherLane) (s : State) : List Byte :=
  let lane := fun i =>
    let w := wxLane i
    let x := (lanes[i]?).getD ⟨[], []⟩
    leBytes 8 (histogram x.occ + histogram x.bp * 2 ^ 28 + laneState s w.1 0 w.2 * 2 ^ 56)
  let body := (List.range 480).flatMap lane
  let head := leBytes 2 (ownNode s) ++ leBytes 2 (ownDomain s) ++ leBytes 4 s.wxPeriod ++ leBytes 8 (s.wxAt + 100000)
    ++ leBytes 2 (s.epoch + 4 * b01 (draining s)) ++ leBytes 2 480 ++ leBytes 4 (dropCount s - s.wxDrops) ++ leBytes 4 (raw s .fabReplay 0 0 - s.wxReplays)
  head ++ leBytes 4 (crc32c (head ++ [0, 0, 0, 0] ++ body)) ++ body

/-- WEATHER_RECORD: a period of 100 µs ends; while EN is 1 a record is built, and every DIV-th goes to DEST (R356). -/
def weatherRecord (lanes : List WeatherLane) (s : State) : State :=
  bif s.fabReady.isSome && Nat.ble (s.wxAt + 100000) s.time then
    let bs := weatherBytes lanes s
    let n := Nat.max 1 (fld s .fabWx 0 0 23 16)
    let send := flag s .fabWx 0 0 31 && (s.wxPeriod + 1) % n == 0
    let dst := fld s .fabWx 0 0 12 0
    let s := { s with wxAt := s.wxAt + 100000, wxPeriod := s.wxPeriod + 1, wxDrops := dropCount s, wxReplays := raw s .fabReplay 0 0 }
    bif send then sendMgmt dst (.weather bs) s else s
  else s

def execWeatherRecord (lanes : List WeatherLane) (t : Time) (s : State) : Host.Outcome State Fault Refusal :=
  .next (weatherRecord lanes (atTime t s))

/-- A record put in the ring of `slots` slots at `base`: slot 0 counts, records fill slots 1 onward in turn. -/
def ringPut (p base slots : Nat) (bytes : List Byte) (s : State) : State :=
  match spaceRead s p base 8 with
  | .error _ => spaceSeen p base 8 s
  | .ok c =>
    let s := spaceSeen p base 8 s
    (spaceWrite p base (leBytes 8 (leNat c + 1)) (spaceWrite p (base + 4096 * (1 + leNat c % (slots - 1))) bytes s).2).2

/-- WEATHER_APPEND: the Steward appends a received record to its ring. -/
def weatherAppend (bytes : List Byte) (s : State) : State :=
  match takeMgmt (fun p => p.body == .weather bytes) s with
  | none => s
  | some (_, s) =>
    let slots := 512 * fld s .fabWxringHi 0 0 23 16
    let p := fld s .fabWxringHi 0 0 26 24
    let base := fld s .fabWxringHi 0 0 15 0 * 2 ^ 32 + fld s .fabWxringLo 0 0 31 21 * 2 ^ 21
    bif slots == 0 then s else ringPut p base slots bytes s

def execWeatherAppend (bytes : List Byte) (s : State) : Host.Outcome State Fault Refusal := .next (weatherAppend bytes s)

end Sys2Proof.Machine
end

