-- ==== Sys2Proof/Machine/Hbm.lean ====
section
/-! DEFINITION. The memory tiers (chapter 08): 64-byte accesses with the Reed–Solomon code (R267 to R270, R273, R281), scrub
and row repair (R271, R272), refresh and temperature (R278, R280), near-memory atomics (R282, R284), and the Stratus modules'
losses (R288). -/

namespace Sys2Proof.Machine

/-! ## HBM_ACCESS -/

/-- Whether an HBM address lies in a page that maps a fenced group: writes to it fail (R275). -/
def groupGone (s : State) (pa : Nat) : Bool := groupFenced s (groupOf (pa / 2 ^ 21))

/-- A 64-byte read of a line, whose codeword shows the errors it was stored with and those of `err` (R268, R269, R275, R287). -/
def lineAccessRead (pa : Nat) (err : List (Nat × BitVec 16)) (s : State) : State :=
  let shown := flawOf s (pa / 64) ++ realErrs err
  let s' := lineShows pa shown s
  bif lineFenced s pa then emit (.line pa 0x0301 []) s'
  else bif poisoned s (pa / 64) then emit (.line pa 0x0582 []) s'
  else
    match rsDecode shown with
    | none => emit (.line pa 0x0581 []) s'
    | some ds => emit (.line pa 0 (decodedData (memRead s pa 64) shown ds)) s'

/-- HBM_ACCESS: a 64-byte access at its pseudo-channel, or at the module that holds a tier-2 line (R287); accesses to a line take effect in
the order they come (R281). A write to a page of a fenced unit fails (R275, R246); the codeword that a write stores may show errors, which
later reads find. It is no event at an address that is no line of memory. -/
def hbmAccess (pa : Nat) (acc : Access64) (err : List (Nat × BitVec 16)) (s : State) : State :=
  bif !(pa % 64 == 0) || !(isHbm (pa / 2 ^ 21) || isTier2 (pa / 2 ^ 21)) then s
  else
    match acc with
    | .read => lineAccessRead pa err s
    | .write data =>
      bif frameFenced s (pa / 2 ^ 21) then emit (.line pa 0x0301 []) s
      else emit (.line pa 0 []) (flawWrite (pa / 64) (sliceBytes data 0 64) err s)

def execHbmAccess (pa : Nat) (acc : Access64) (err : List (Nat × BitVec 16)) (t : Time) (s : State) :
    Host.Outcome State Fault Refusal :=
  .next (hbmAccess pa acc err (atTime t s))

/-! ## Scrub and row repair (R271, R272) -/

/-- A row showed a corrected error in scrub pass `pass`: at its third pass it is replaced by a spare row of its bank, or a Warning says
that none is left (R272). -/
def rowError (stack pc pa pass : Nat) (s : State) : State :=
  let key := Config.rowOf pc (pcAddress pa)
  let row := pc + 768 * key
  let bank := Config.bankOf pc key
  let used := tget s.sparesUsed (pc + 768 * bank) 0
  let old := tget s.rowErrs row []
  let now := bif old.contains pass then old else old ++ [pass]
  bif !(now.length == 3 && old.length == 2) then { s with rowErrs := tset s.rowErrs row now }
  else
    bif Nat.blt used (Config.bankSpares pc bank) then
      bumpFld .memRepair stack 0 15 0 1 { s with rowErrs := terase s.rowErrs row, sparesUsed := tset s.sparesUsed (pc + 768 * bank) (used + 1) }
    else raise 0xC003 2 none (unitId 7 pc) 0 { s with rowErrs := tset s.rowErrs row now }

/-- The lines of a stack: 32,768 frames of 2 MiB. -/
def stackLines : Nat := 32768 * 32768

/-- A line has been read in the scrub pass of its stack; the pass that has read every line is complete (R271, Table 8.6). -/
def scrubbedLine (stack line : Nat) (s : State) : State :=
  let read := insertNat line (tget s.scrubbed stack [])
  bif read.length == stackLines then bumpFld .memScrub stack 0 31 16 1 { s with scrubbed := terase s.scrubbed stack }
  else { s with scrubbed := tset s.scrubbed stack read }

/-- Whether a stack's memory core runs. -/
def memoryCoreRuns (s : State) (stack : Nat) : Bool := isUp s 10 (23 + stack) && fld s .fwpStat (23 + stack) 0 31 30 == 0

/-- The scrub's read of a line: corrected data are written back and an uncorrectable line poisoned, unless a program write has reached the
line in between (`wrote`), which keeps the program's data (R269, R271). -/
def scrubRead (pa : Nat) (err : List (Nat × BitVec 16)) (wrote : Bool) (s : State) : State :=
  let pc := pcOf pa
  let stack := pc / 64
  let shown := (bif wrote then [] else flawOf s (pa / 64)) ++ realErrs err
  bif pcFenced s pc || (!wrote && poisoned s (pa / 64)) then s
  else
    match rsDecode shown with
    | none => bif wrote then countBad pc s else uncorrectable (pa / 64) pc s
    | some [] => s
    | some ds =>
      let got := decodedData (memRead s pa 64) shown ds
      let s := rowError stack pc pa (fld s .memScrub stack 0 31 16) (corrected pc s)
      bif wrote then s else memWrite pa got s

/-- HBM_SCRUB: the memory core reads a line, once in each pass. It is no event while PERIOD is 0 or the memory core does not run, and for a
line that the pass has read. -/
def hbmScrub (pa : Nat) (err : List (Nat × BitVec 16)) (wrote : Bool) (s : State) : State :=
  let stack := pcOf pa / 64
  bif !(pa % 64 == 0) || !(isHbm (pa / 2 ^ 21)) || fld s .memScrub stack 0 7 0 == 0 || !(memoryCoreRuns s stack)
      || (tget s.scrubbed stack []).contains (pa / 64) then s
  else scrubbedLine stack (pa / 64) (scrubRead pa err wrote s)

def execHbmScrub (pa : Nat) (err : List (Nat × BitVec 16)) (wrote : Bool) (t : Time) (s : State) :
    Host.Outcome State Fault Refusal :=
  .next (hbmScrub pa err wrote (atTime t s))

/-! ## Refresh and temperature (R278, R280) -/

/-- The refresh rate of a stack at a temperature, from the rate it had: thresholds 85 and 95 °C rising, 3 °C lower falling. -/
def refreshRate (old : Nat) (temp : Int) : Nat :=
  let up := bif decide (95 < temp) then 2 else bif decide (85 < temp) then 1 else 0
  let down := bif decide (92 < temp) then 2 else bif decide (82 < temp) then 1 else 0
  bif Nat.ble old up then up else Nat.min old down

/-- STACK_TEMP_SAMPLE: MEM_STAT takes the temperature, the refresh rate, and HOT: set at 105 °C with an Error event, cleared
below 102 °C, which ends a thermal emergency. The margin plan may ask for more refreshes (R482). Without its memory core the base die
forces 4× (Table 14.2). -/
def stackTemp (stack : Nat) (temp : Int) (s : State) : State :=
  let hot := flag s .memStat stack 0 1
  let band := refreshRate (tget s.refBand stack 0) temp
  let rate := bif memoryCoreRuns s stack then Nat.max band (tget s.minRefresh stack 0) else 2
  let s := { s with refBand := tset s.refBand stack band }
  let s := setFld .memStat stack 0 31 24 (unsign 8 temp) (setFld .memStat stack 0 17 16 rate s)
  bif !hot && decide (105 ≤ temp) then
    raise 0xC004 1 none 0 (BitVec.ofNat 64 stack) (setFld .memStat stack 0 1 1 1 s)
  else bif hot && decide (temp < 102) then emergEnds (setFld .memStat stack 0 1 1 0 s)
  else s

def execStackTempSample (stack : StackId) (temp : Int) (t : Time) (s : State) : Host.Outcome State Fault Refusal :=
  .next (stackTemp stack.val temp (atTime t s))

/-! ## Near-memory atomics (R282) -/

/-- The width in bytes of an atomic's word. -/
def atomicWidth : AtomicOp → Nat
  | .addI64 => 8 | .minS64 => 8 | .minU64 => 8 | .maxS64 => 8 | .maxU64 => 8 | .cas64 => 8
  | _ => 4

/-- The new word of an atomic and whether an FP32 sum saturated (R282). -/
def atomicNew (op : AtomicOp) (old operand compare : Nat) : Nat × Bool :=
  let b := 8 * atomicWidth op
  let x := old % 2 ^ b
  let y := operand % 2 ^ b
  let f := fun (v : Nat) => BitVec.ofNat 32 v
  match op with
  | .addI32 => ((x + y) % 2 ^ 32, false)
  | .addI64 => ((x + y) % 2 ^ 64, false)
  | .addF32 => let r := f32Add (f x) (f y); (r.val.toNat, r.sat)
  | .minS32 => (bif decide (signed 32 y < signed 32 x) then y else x, false)
  | .minS64 => (bif decide (signed 64 y < signed 64 x) then y else x, false)
  | .minU32 => (Nat.min x y, false)
  | .minU64 => (Nat.min x y, false)
  | .minF32 => ((f32Min (f x) (f y)).toNat, false)
  | .maxS32 => (bif decide (signed 32 x < signed 32 y) then y else x, false)
  | .maxS64 => (bif decide (signed 64 x < signed 64 y) then y else x, false)
  | .maxU32 => (Nat.max x y, false)
  | .maxU64 => (Nat.max x y, false)
  | .maxF32 => ((f32Max (f x) (f y)).toNat, false)
  | .cas32 => (bif x == compare % 2 ^ 32 then y else x, false)
  | .cas64 => (bif x == compare % 2 ^ 64 then y else x, false)

/-- What an FP32 atomic returns for the old word: the canonical NaN when an operand is a NaN (R282). -/
def atomicOld (op : AtomicOp) (old operand : Nat) : Nat :=
  match op with
  | .addF32 | .minF32 | .maxF32 =>
    bif f32IsNan (BitVec.ofNat 32 old) || f32IsNan (BitVec.ofNat 32 operand) then f32Nan.toNat else old % 2 ^ 32
  | _ => old % 2 ^ (8 * atomicWidth op)

/-- An atomic at an HBM address: its status, the old value, and the state after it. A failure leaves the word unchanged
(R284, R275). -/
def atomicAt (pa : Nat) (op : AtomicOp) (operand compare : Nat) (s : State) : Status × W64 × State :=
  let pc := pcOf pa
  bif groupGone s pa then (0x0301, 0, s)
  else bif poisoned s (pa / 64) then (0x0582, 0, lineSeen pa s)
  else bif flawBad s (pa / 64) then (0x0581, 0, lineSeen pa s)
  else
    let n := atomicWidth op
    let old := leNat (memRead s pa n)
    let r := atomicNew op old operand compare
    let s := memWrite pa (leBytes n r.1) (lineSeen pa s)
    let st := pc / 64
    let s := setRaw64 .memAtomLo .memAtomHi st 0 (raw64 s .memAtomLo .memAtomHi st 0 + 1) s
    (0, BitVec.ofNat 64 (atomicOld op old operand), bif r.2 then bump .memAtomsat st 0 1 s else s)

/-- NEAR_MEMORY_ATOMIC: the unit of a pseudo-channel applies an atomic to a naturally aligned word (R282). It is no event at
an address that is not aligned or not HBM. -/
def nearAtomic (pa : Nat) (op : AtomicOp) (operand compare : W64) (s : State) : State :=
  bif !(pa % atomicWidth op == 0) || !(isHbm (pa / 2 ^ 21)) then s
  else
    let r := atomicAt pa op operand.toNat compare.toNat s
    emit (.atomic pa r.1 r.2.1) r.2.2

def execNearMemoryAtomic (pa : Nat) (op : AtomicOp) (operand compare : W64) (s : State) :
    Host.Outcome State Fault Refusal :=
  .next (nearAtomic pa op operand compare s)

/-! ## Stratus modules (R288) -/

/-- Whether one direction of a lane is up, or held for a swap or a calibration (R288). -/
def laneServes (s : State) (e d l : Nat) : Bool := laneHolds (laneState s e d l)
/-- Whether one direction of a lane serves, or has stayed down for more than 10 ms since it last did and since its engine was lit. -/
def settled (s : State) (e d l : Nat) : Bool :=
  laneServes s e d l || Nat.blt (Nat.max (laneAux s e d l).off (engine s e).litAt + 10000000) s.time
/-- Whether a lane of a memory engine has stayed down for more than 10 ms. -/
def laneGone (s : State) (e l : Nat) : Bool :=
  !(laneServes s e 0 l && laneServes s e 1 l) && settled s e 0 l && settled s e 1 l

/-- MODULE_PARITY_LOSS: every lane of a module through one engine has stayed down for more than 10 ms; the module loses that
engine's parity (R288). It is no event while a lane of it has not or the module is not fitted. -/
def parityLoss (m : Nat) (odd : Bool) (s : State) : State :=
  let e := bif odd then 9 else 8
  bif !(modulePresent s m) || !((moduleLanes m).all (laneGone s e)) || flag s .t2mStat m 0 (bif odd then 28 else 29) then s
  else loseParity m (b01 odd) s

def execModuleParityLoss (m : Fin 4) (odd : Bool) (t : Time) (s : State) : Host.Outcome State Fault Refusal :=
  .next (parityLoss m.val odd (atTime t s))

/-- MODULE_FAILURE_REPORT: a fitted module reports its own failure and is fenced (R288, R246). -/
def moduleFailure (m : Nat) (s : State) : State := bif modulePresent s m then fenceCause 8 m 0x030E s else s

def execModuleFailureReport (m : Fin 4) (t : Time) (s : State) : Host.Outcome State Fault Refusal :=
  .next (moduleFailure m.val (atTime t s))

end Sys2Proof.Machine
end

