-- ==== Sys2Proof/Machine/Remote.lean ====
section
/-! DEFINITION. Remote memory (chapter 11): operations and their transactions (R362 to R365, R379), the exactly-once exchange (R372 to
R378), the home (R366, R368, R370, R373 to R376, R380 to R384, R387) and gateways (R389, R390). -/

namespace Sys2Proof.Machine

/-! ## Headers (Tables 11.4 to 11.6) -/

/-- INST: the low byte of the boot count (R376). -/
def ownInst (s : State) : Nat := fld s .attBoot 0 0 23 16

/-- A request header before it is numbered. -/
def requestHdr (op : Nat) (ord wide : Bool) (arg offset : Nat) : Transport :=
  { op := BitVec.ofNat 5 op, ord := ord, wide := wide, retry := false, arg := BitVec.ofNat 8 arg, tag := 0, seq := 0, lag := 0, pord := 0,
    inst := 0, offset := BitVec.ofNat 48 offset, rsv := 0 }

/-- The operation of an AOP (Table 11.4). -/
def aopOf : Nat → Option AtomicOp
  | 0 => some .addI32 | 1 => some .addI64 | 2 => some .addF32 | 3 => some .minS32 | 4 => some .minS64 | 5 => some .minU32
  | 6 => some .minU64 | 7 => some .minF32 | 8 => some .maxS32 | 9 => some .maxS64 | 10 => some .maxU32 | 11 => some .maxU64
  | 12 => some .maxF32 | 13 => some .cas32 | 14 => some .cas64 | _ => none
def aopCas (n : Nat) : Bool := n == 13 || n == 14

/-- Fields of a rank entry (Table 11.2). -/
def entryNode (e : Nat) : Nat := bits e 28 16
def entryRdom (e : Nat) : Nat := bits e 47 32
def entryRnode (e : Nat) : Nat := bits e 60 48

/-! ## Transactions as source -/

def remoteOp? (s : State) (n : Nat) : Option RemoteOp := tget? s.rops n
def modReq (n : Nat) (f : Req → Req) (s : State) : State :=
  match tget? s.reqs n with
  | some r => { s with reqs := tset s.reqs n (f r) }
  | none => s

/-- The bench a transaction works for. -/
def ownerBench (s : State) : TxnOwner → Option Nat
  | .op n => (remoteOp? s n).map (·.bench)
  | .seg r _ => (tget? s.reqs r).map (·.bench)
  | _ => none
/-- While requests of a bench wait to be sent, no further unit 8 instruction of it is accepted (R379). -/
def waitsToSend (s : State) (b : Nat) : Bool := s.sendQ.any fun t => ownerBench s t.owner == some b

/-- A partition's OUTMAX: 1 to 16,384, 0 treated as 1 (Table 11.10). -/
def outMax (s : State) (p : Nat) : Nat := Nat.min 16384 (Nat.max 1 (fld s .rmaCtl p 0 14 0))
/-- RMA_OUT: transactions of a partition outstanding. -/
def outCount (s : State) (p : Nat) : Nat := (s.txns.filter fun t => t.2.part == p).length

def pairOf (s : State) (node : Nat) : PairSeq := tget s.pairs node ⟨0, [], [], 0, false, 0, false⟩
/-- The floor of a pair: the lowest SEQ without a final response (R372). -/
def pairFloor (x : PairSeq) : Nat := x.out.headD x.next
def seqDiff (a b : Nat) : Nat := (a + 65536 - b % 65536) % 65536

/-- RMA_UNKNOWN counts completions with 0x0488 and 0x0489. -/
def countUnknown (p : Nat) (st : Status) (s : State) : State := bif st == 0x0488 || st == 0x0489 then bump .rmaUnknown p 0 1 s else s

/-- A remote operation completes: result, status scalar and predicate in its role, wherever that stands, or the fault of the program (R66,
R364). -/
def completeOp (n : Nat) (st : Status) (data : List Byte) (s : State) : State :=
  match remoteOp? s n with
  | none => s
  | some r =>
    let s := countUnknown r.part st { s with rops := terase s.rops n }
    match r.prog with
    | none => s
    | some p =>
      bif !(st == 0) && !r.soft then roleFault p r.role 13 r.off st s
      else modRole p r.role (fun x =>
        let x := bif st == 0 && (r.opc == 1 || r.opc == 3) then putS r.dest (BitVec.ofNat 64 (leNat data)) x else x
        setPred r.pred (putS r.status (BitVec.ofNat 64 st.toNat) x)) s

/-- Ownership of a region of a partition. -/
def regionOwner (s : State) (p region : Nat) : Option Owner := tget? (tget s.owners p []) region
/-- Whether enforced ownership denies an access by a node (R384). -/
def ownDenied (s : State) (p offset : Nat) (write : Bool) (node : Nat) : Bool :=
  flag s .rmaCtl p 0 16 &&
  match regionOwner s p (offset / 2 ^ 21) with
  | some (.exclusive n) => !(n == node)
  | some (.shared _) => write
  | none => false

/-- Whether enforced ownership denies this part an access of its own space (R384). -/
def nearDenied (s : State) (r : Req) (a : Nat) (write : Bool) : Bool := r.nearDev && ownDenied s r.part a write (ownNode s)

/-- Bytes of a request's near end: device memory of its partition, a packet, or bench store. -/
def nearRead (r : Req) (a n : Nat) (s : State) : Except Status (List Byte) :=
  bif nearDenied s r a false then .error 0x0486
  else bif r.nearDev then spaceRead s r.part a n
  else match r.buf with
    | some bs => .ok (sliceBytes bs a n)
    | none => bif storeBad (bench s r.bench) a n then .error arrayError else .ok (storeRead s r.bench a n)
/-- What that read leaves behind. -/
def nearSeen (r : Req) (a n : Nat) (s : State) : State := bif r.nearDev && !(nearDenied s r a false) then spaceSeen r.part a n s else s
/-- Bytes written at the near end of request `q`, or the status that stops it. Bench store takes them when the request ends, so that no
other station's write comes between them (R54). -/
def nearWrite (q : Nat) (r : Req) (a : Nat) (bs : List Byte) (s : State) : Status × State :=
  bif nearDenied s r a true then (0x0486, s)
  else bif r.nearDev then spaceWrite r.part a bs s
  else match r.buf with
    | some _ => (0, modReq q (fun r => { r with buf := r.buf.map fun old => overBytes old a bs }) s)
    | none => (0, modReq q (fun r => { r with land := r.land ++ [(a, bs)] }) s)

/-- One packet of a segment has ended (R385, R386). A read's bytes are written at the near end; a near end that cannot be written fails
the packet. -/
def packetEnd (req k : Nat) (off : Nat) (st : Status) (data : List Byte) (s : State) : State :=
  match tget? s.reqs req with
  | none => s
  | some r =>
    match r.segs[k]? with
    | none => s
    | some g =>
      let s := countUnknown r.part st s
      let near := g.loc + (off - g.va)
      let w := bif st == 0 && !r.write then
          nearWrite req r near data s
        else (st, s)
      let st' := w.1
      modSeg req k (fun g => { g with
        todo := g.todo - 1, okN := g.okN + b01 (st' == 0), status := bif g.status == 0 then st' else g.status,
        unk := g.unk || st == 0x0488 || (r.write && st == 0x0489) }) w.2

/-- What a transaction's owner learns at its end. -/
def endOwner (t : Txn) (st : Status) (data : List Byte) (s : State) : State :=
  match t.owner with
  | .op n => completeOp n st data s
  | .seg r k => packetEnd r k t.hdr.offset.toNat st data s
  | .floor => s
  | .gateway q => emit (.gatewayAnswer q st data) s

/-- A transaction ends: its tag and its place in the pair's sequence are free; the floor may advance (R372, R378). The end of a FLOOR
asks for no further one. -/
def finishTxn (tag : Nat) (st : Status) (data : List Byte) (s : State) : State :=
  match tget? s.txns tag with
  | none => s
  | some t =>
    let node := entryNode t.rank
    let x := pairOf s node
    let seq := t.hdr.seq.toNat
    let moved := x.out.headD (seq + 1) == seq
    let x := { x with out := x.out.filter (· != seq), ords := x.ords.filter (· != seq), sentAt := bif moved then s.time else x.sentAt,
                      floorDue := x.floorDue || (moved && !(t.owner == .floor)) }
    endOwner t st data { s with txns := terase s.txns tag, pairs := tset s.pairs node x }

/-- The packet of a numbered request. -/
def requestPacket (t : Txn) : Packet :=
  { route := routeTo (entryNode t.rank) 0 t.hdr.ord false,
    body := bif entryGw t.rank then
        .gateway (BitVec.ofNat 16 (entryRdom t.rank)) (BitVec.ofNat 13 (entryRnode t.rank)) t.hdr t.payload
      else .transport t.hdr t.payload }

/-- A packet of partition `p` to this part itself, without a fabric hop (R359). -/
def arriveSelf (p : Nat) (pkt : Packet) (s : State) : State :=
  let me := BitVec.ofNat 13 (ownNode s)
  { s with arrived := s.arrived ++ [⟨s.time, p, { pkt with route := { pkt.route with src := me, dst := me, nflit := flitsOf pkt.body } }, none⟩] }

/-- A request packet goes out. -/
def putRequest (t : Txn) (again : Bool) (s : State) : Injected :=
  bif t.near then .sent (arriveSelf t.part (requestPacket t) s) else inject t.part (requestPacket t) again s

/-- The near end of a PUT that is still to be read when it is sent: its request, address and length (R365, R385). -/
def putSource (t : Txn) (s : State) : Option (Req × Nat × Nat) :=
  match t.owner with
  | .seg q k =>
    bif t.hdr.op == 3 && t.payload.isEmpty then
      (tget? s.reqs q).bind fun r => (r.segs[k]?).map fun g => (r, g.loc + (t.hdr.offset.toNat - g.va), (t.hdr.arg.toNat + 1) * 64)
    else none
  | _ => none

/-- The payload of a request as it is sent, and what reading it leaves behind. -/
def putPayload (t : Txn) (s : State) : Except Status (List Byte) :=
  match putSource t s with
  | some (r, a, n) => nearRead r a n s
  | none => .ok t.payload
def putSeen (t : Txn) (s : State) : State := match putSource t s with | some (r, a, n) => nearSeen r a n s | none => s

/-- What sending a waiting request comes to. -/
inductive Sent where
  | sent (s : State)
  | waits
  | failed (st : Status) (s : State)

/-- A waiting request is sent: a free tag, the partition's limit, the window of 1,024, and injection (R372, R379, R336). -/
def trySend (t : Txn) (s : State) : Sent :=
  let node := entryNode t.rank
  let x := pairOf s node
  match lowest (fun k => !(thas s.txns k)) 16384 0 with
  | none => .waits
  | some tag =>
    bif Nat.ble (outMax s t.part) (outCount s t.part) || Nat.ble 1024 (seqDiff x.next (pairFloor x)) then .waits
    else
      match putPayload t s with
      | .error st => .failed st (putSeen t s)
      | .ok payload =>
        let pord := match x.ords.getLast? with | some q => seqDiff x.next q | none => 0
        let h := { t.hdr with tag := BitVec.ofNat 14 tag, seq := BitVec.ofNat 16 x.next, lag := BitVec.ofNat 10 (seqDiff x.next (pairFloor x)),
                              pord := BitVec.ofNat 10 pord, inst := BitVec.ofNat 8 (ownInst s) }
        let t := { t with hdr := h, payload := payload, sent := s.time }
        match putRequest t false (putSeen t s) with
        | .held => .waits
        | .refused st => .failed st (putSeen t s)
        | .sent s =>
          let x := { x with next := (x.next + 1) % 65536, out := x.out ++ [x.next], ords := bif h.ord then x.ords ++ [x.next] else x.ords,
                            part := t.part, near := t.near, sentAt := s.time, floorDue := false }
          .sent { s with txns := tset s.txns tag t, pairs := tset s.pairs node x }

/-- One waiting request in its turn; `blocked` are the nodes and partitions with an earlier request that still waits. -/
def sendTurn (a : State × List Txn × List (Nat × Nat)) (t : Txn) : State × List Txn × List (Nat × Nat) :=
  let key := (entryNode t.rank, t.part)
  bif a.2.2.contains key then (a.1, a.2.1 ++ [t], a.2.2)
  else
    match trySend t a.1 with
    | .waits => (a.1, a.2.1 ++ [t], key :: a.2.2)
    | .failed st s => (endOwner t st [] (emit (.injectRefused t.part st) s), a.2.1, a.2.2)
    | .sent s => (s, a.2.1, a.2.2)

/-- The engine sends what can be sent, in order. -/
def sendWaiting (s : State) : State :=
  let r := s.sendQ.foldl sendTurn ({ s with sendQ := [] }, [], [])
  { r.1 with sendQ := r.2.1 ++ r.1.sendQ }

/-- A request enters the engine. -/
def enterRequest (t : Txn) (s : State) : State := sendWaiting { s with sendQ := s.sendQ ++ [t] }

/-- A request again, with RETRY set and the same SEQ, TAG and home (R377); a refusal at injection completes the operation (R388). -/
def resend (tag : Nat) (s : State) : State :=
  match tget? s.txns tag with
  | none => s
  | some t =>
    let x := pairOf s (entryNode t.rank)
    let t := { t with sent := s.time, nacked := false,
                      hdr := { t.hdr with retry := true, lag := BitVec.ofNat 10 (seqDiff t.hdr.seq.toNat (pairFloor x)) } }
    let s := { s with txns := tset s.txns tag t }
    match putRequest t true s with
    | .sent s => s
    | .refused st => sendWaiting (finishTxn tag st [] s)
    | .held => s

/-! ## Instructions -/

/-- A unit 8 operation of one request is accepted: it retires from the system queue (R362). -/
def acceptOp (b : Nat) (e : Entry) (hdr : Transport) (payload : List Byte) (dest : Nat) (s : State) : State :=
  bif waitsToSend s b then s
  else
    let p := benchPart s b
    let n := s.nextRop
    let r : RemoteOp := {
      prog := (bench s b).prog, role := (bench s b).role, bench := b, part := p, off := e.off, opc := wOpc e.word, wide := hdr.wide, dest := dest,
      status := wImmBits e.word 5 0, pred := wIndex e.word 4, soft := wSoft e.word }
    let t : Txn := {
      owner := .op n, part := p, near := ptrSpace (eVal e 2).toNat == 0, rank := e.rank, hdr := hdr, payload := payload,
      sent := s.time, tries := 0, nacked := false }
    enterRequest t (sysRetire b { s with rops := tset s.rops n r, nextRop := n + 1 })

def offsetOf (e : Entry) (k : Nat) : Nat := ptrOff (eVal e k).toNat
def ordOf (e : Entry) : Bool := bit (wMod e.word) 5
def wideOf (e : Entry) : Bool := bit (wMod e.word) 0

/-- RLD (R363). -/
def rldEntry (b : Nat) (e : Entry) (s : State) : State :=
  acceptOp b e (requestHdr 0 (ordOf e) (wideOf e) 0 (offsetOf e 2)) [] (wIndex e.word 1) s
def execRld (b : BenchId) (t : Time) (s : State) : Host.Outcome State Fault Refusal :=
  .next (onSys b.val 8 0x01 (rldEntry b.val) (atTime t s))

/-- RST (R363). -/
def rstEntry (b : Nat) (e : Entry) (s : State) : State :=
  acceptOp b e (requestHdr 1 (ordOf e) (wideOf e) 0 (offsetOf e 2)) (leBytes (bif wideOf e then 8 else 4) (eVal e 1).toNat) 0 s
def execRst (b : BenchId) (t : Time) (s : State) : Host.Outcome State Fault Refusal :=
  .next (onSys b.val 8 0x02 (rstEntry b.val) (atTime t s))

/-- RAMO (R363, R366): the operand; for CAS the compare value first. -/
def ramoEntry (b : Nat) (e : Entry) (s : State) : State :=
  let aop := wModBits e.word 3 0
  let operand := leBytes 8 (eVal e 3).toNat
  acceptOp b e (requestHdr 2 (ordOf e) (!(aopNarrow aop)) aop (offsetOf e 2))
    (bif aopCas aop then leBytes 8 (eVal e 1).toNat ++ operand else operand) (wIndex e.word 1) s
def execRamo (b : BenchId) (t : Time) (s : State) : Host.Outcome State Fault Refusal :=
  .next (onSys b.val 8 0x03 (ramoEntry b.val) (atTime t s))

/-- ROWN (R382). -/
def rownEntry (b : Nat) (e : Entry) (s : State) : State :=
  acceptOp b e (requestHdr 5 false false (wModBits e.word 1 0) (offsetOf e 2)) [] 0 s
def execRown (b : BenchId) (t : Time) (s : State) : Host.Outcome State Fault Refusal :=
  .next (onSys b.val 8 0x08 (rownEntry b.val) (atTime t s))

/-- The requests of a remote segment: at most 4,096 bytes each (R367). -/
def segPackets : Nat → Nat → Nat → List (Nat × Nat)
  | 0, _, _ => []
  | f + 1, off, n => bif n == 0 then [] else (off, Nat.min n 4096) :: segPackets f (off + 4096) (n - 4096)

/-- The bytes of segment `k` that have been read already: the header of a SPTLD, which belongs to segment 0 (R155). -/
def segRead (r : Req) (k : Nat) : Nat := bif k == 0 then (match r.first with | some hd => hd.length | none => 0) else 0
/-- The packets of segment `k`: offset and length. -/
def packetsOf (r : Req) (k : Nat) (g : Seg) : List (Nat × Nat) := segPackets 513 (g.va + segRead r k) (g.len - segRead r k)

/-- The transactions of segment `k` of request `q`. -/
def segTxns (q k : Nat) (r : Req) (g : Seg) (rank : Nat) (near : Bool) : List Txn :=
  (packetsOf r k g).map fun x =>
    {
      owner := .seg q k, part := r.part, near := near, rank := rank,
      hdr := requestHdr (bif r.write then 3 else 4) r.ordered false ((x.2 + 63) / 64 - 1) x.1,
      payload := [], sent := 0, tries := 0, nacked := false }

/-- A remote segment begins: its packets wait to be sent. -/
def startRemoteSeg (q k : Nat) (near : Bool) (s : State) : State :=
  match tget? s.reqs q with
  | none => s
  | some r =>
    match r.segs[k]?, r.rank with
    | some g, some e =>
      let ts := segTxns q k r g e near
      let s := modSeg q k (fun g => { g with state := .moving, todo := ts.length }) s
      { s with sendQ := s.sendQ ++ ts }
    | _, _ => s

/-- A segment that has not begun. -/
def newSeg (va loc len : Nat) : Seg := { va := va, loc := loc, len := len, state := .untouched, status := 0, since := 0, todo := 0, okN := 0, unk := false }

/-- RPUT and RGET are accepted: the request is cut at the page boundaries of both ends, and every segment begins (R101, R365, R385). -/
def acceptSplit (b : Nat) (e : Entry) (put : Bool) (s : State) : State :=
  bif waitsToSend s b then s
  else
    let far := bif put then 1 else 2
    let near := bif put then 2 else 1
    let fo := offsetOf e far
    let no := offsetOf e near
    let q := s.nextReq
    let segs := (cutPieces 200 fo no 0 (eVal e 3).toNat).map fun c => newSeg (fo + c.1) (no + c.1) c.2
    let r : Req := {
      prog := (bench s b).prog, role := (bench s b).role, faulted := false, first := none, land := [],
      bench := b, eid := e.eid, part := benchPart s b, ord := 13, off := e.off, write := put, segs := segs,
      record := some (wImmBits e.word 23 0), pred := wIndex e.word 4, soft := wSoft e.word, done := false, rank := some e.rank,
      ordered := ordOf e, nearDev := true, buf := none, head := false }
    let local_ := ptrSpace (eVal e far).toNat == 0
    let s := sysRetire b { s with reqs := tset s.reqs q r, nextReq := q + 1 }
    sendWaiting ((List.range segs.length).foldl (fun s k => startRemoteSeg q k local_ s) s)

def execRput (b : BenchId) (t : Time) (s : State) : Host.Outcome State Fault Refusal :=
  .next (onSys b.val 8 0x04 (fun e s => acceptSplit b.val e true s) (atTime t s))
def execRget (b : BenchId) (t : Time) (s : State) : Host.Outcome State Fault Refusal :=
  .next (onSys b.val 8 0x05 (fun e s => acceptSplit b.val e false s) (atTime t s))

/-! ## The home -/

def sourceOf (s : State) (n : Nat) : Option Source := tget? s.sources n
def homeReq (s : State) (src seq : Nat) : Option HomeReq := (sourceOf s src).bind fun x => tget? x.reqs seq
def modHomeReq (src seq : Nat) (f : HomeReq → HomeReq) (s : State) : State :=
  match sourceOf s src with
  | none => s
  | some x =>
    match tget? x.reqs seq with
    | none => s
    | some r => { s with sources := tset s.sources src { x with reqs := tset x.reqs seq (f r) } }

/-- The header and payload of a request packet. -/
def packetHdr (p : Packet) : Option (Transport × List Byte) :=
  match p.body with
  | .transport h b => some (h, b)
  | .gateway _ _ h b => some (h, b)
  | _ => none
def isGwPacket (p : Packet) : Bool := match p.body with | .gateway _ _ _ _ => true | _ => false

/-- R368: an undefined OP, a reserved bit, an ARG or a payload that does not fit the OP. -/
def hdrBad (h : Transport) (payload : List Byte) : Bool :=
  let a := h.arg.toNat
  let n := payload.length
  !(h.rsv == 0) ||
  match h.op.toNat with
  | 0 => !(a == 0) || !(n == 0)
  | 1 => !(a == 0) || !(n == (bif h.wide then 8 else 4))
  | 2 => Nat.ble 15 a || !(n == (bif aopCas a then 16 else 8))
  | 3 => Nat.ble 64 a || !(n == (a + 1) * 64)
  | 4 => Nat.ble 64 a || !(n == 0)
  | 5 => Nat.ble 3 a || !(n == 0)
  | 6 => !(a == 0) || !(n == 0)
  | _ => true

/-- The requests with a ledger entry: atomics accepted and not below the floor of a source that the home still keeps (R374, R376). -/
def ledgerReqs (s : State) : List HomeReq :=
  (s.sources.filter fun x => Nat.blt x.1 8192).flatMap fun x => (x.2.reqs.filter fun r =>
    Nat.blt (seqDiff r.1 x.2.floor) 32768 && match packetHdr r.2.pkt with | some (h, _) => h.op == 2 | none => false).map (·.2)
/-- The ledger's entries in use. -/
def ledgerUsed (s : State) : Nat := (ledgerReqs s).length

/-- The key under which the home keeps what it had accepted of a source whose states it discarded: above the 8,192 nodes, whose number is
the rest by 8,192. -/
def lostKey (s : State) (src : Nat) : Nat := ((lowest (fun k => !(thas s.sources (src + 8192 * (k + 1)))) 4096 0).getD 4096 + 1) * 8192 + src
/-- Whether a key is such a one. -/
def isLostKey (src : Nat) : Bool := Nat.ble 8192 src

/-- Everything a home keeps of a source goes (R376). What it had accepted still waits in its queues and is applied and answered (R381). -/
def dropSource (src : Nat) (s : State) : State :=
  match sourceOf s src with
  | none => s
  | some x =>
    let left := x.reqs.filter fun r => !r.2.done
    bif left.isEmpty then { s with sources := terase s.sources src }
    else
      let k := lostKey s src
      { s with sources := tset (terase s.sources src) k { x with reqs := left, nacked := [] }
               accepted := s.accepted.map fun a => bif a.1 == src then (k, a.2) else a }

/-- The floor of a source rises; the states below it are forgotten (R373), those of requests still to be applied once they are answered
(R381). -/
def raiseFloor (src floor : Nat) (s : State) : State :=
  match sourceOf s src with
  | none => s
  | some x =>
    let adv := seqDiff floor x.floor
    bif adv == 0 || Nat.ble 32768 adv then s
    else
      let above := fun (k : Nat) => Nat.blt (seqDiff k floor) 32768
      { s with sources := tset s.sources src { x with floor := floor, reqs := x.reqs.filter (fun r => above r.1 || !r.2.done)
                                                      nacked := x.nacked.filter fun n => above n.1 } }

/-- What ROWN comes to (Table 11.9, R383): a status, or the region's new state. -/
def ownResult (s : State) (p region req node : Nat) : Status × Option Owner :=
  let cur := regionOwner s p region
  match req, cur with
  | 0, none => (0, none)
  | 1, none => bif Nat.ble 65536 (tget s.owners p []).length then (0x048B, none) else (0, some (.shared 1))
  | 2, none => bif Nat.ble 65536 (tget s.owners p []).length then (0x048B, none) else (0, some (.exclusive node))
  | 1, some (.shared h) => bif Nat.ble 65535 h then (0x0485, cur) else (0, some (.shared (h + 1)))
  | 0, some (.shared h) => (0, bif Nat.ble h 1 then none else some (.shared (h - 1)))
  | 1, some (.exclusive n) => bif n == node then (0, some (.shared 1)) else (0x0485, cur)
  | 0, some (.exclusive n) => bif n == node then (0, none) else (0x0485, cur)
  | _, _ => (0x0485, cur)

def isWriteOp (op : Nat) : Bool := op == 1 || op == 2 || op == 3
/-- The bytes of device memory that a request touches. -/
def reqLen (h : Transport) : Nat :=
  match h.op.toNat with
  | 0 => bif h.wide then 8 else 4
  | 1 => bif h.wide then 8 else 4
  | 2 => bif aopNarrow h.arg.toNat then 4 else 8
  | 3 => (h.arg.toNat + 1) * 64
  | 4 => (h.arg.toNat + 1) * 64
  | _ => 0

/-- A home answers (Table 11.6). A response that cannot be injected is lost, and the source asks again. -/
def respond (p key : Nat) (h : Transport) (op : Nat) (st : Status) (data : List Byte) (s : State) : State :=
  let r : Transport := { h with op := BitVec.ofNat 5 op, ord := false, retry := false, arg := bif op == 0x13 then h.arg else 0, lag := 0, pord := 0,
                                inst := BitVec.ofNat 8 (ownInst s), offset := BitVec.ofNat 48 st.toNat, rsv := 0 }
  let src := key % 8192
  let pkt : Packet := ⟨routeTo src 1 false false, .transport r data⟩
  bif src == ownNode s then arriveSelf p pkt s
  else
    match inject p pkt false s with
    | .sent s => s
    | _ => s

/-- The response operation of a request operation. -/
def answerOp (op : Nat) : Nat := bif op == 0 then 0x10 else bif op == 2 then 0x12 else bif op == 4 then 0x13 else 0x11

/-- Whether a read at the home is served from fragments that have arrived in a move to HBM (R245). -/
def homeFrags (s : State) (p : Nat) (h : Transport) : Bool :=
  !(isWriteOp h.op.toNat) && fragsHere s p (h.offset.toNat / 2 ^ 21) (newSeg h.offset.toNat 0 (reqLen h))

/-- A page for a home access: its leaf, a status, or `none` while it waits for Drift (R387, R230, R236, R246, R275). -/
def homePage (s : State) (p : Nat) (h : Transport) : Option (Except Status Leaf) :=
  let op := h.op.toNat
  match leaf? s p (h.offset.toNat / 2 ^ 21) with
  | none => some (.error 0x0501)
  | some l =>
    bif isWriteOp op && !l.wr then some (.error 0x0502)
    else bif isWriteOp op && (l.fen || frameFenced s l.frame) then some (.error 0x0301)
    else bif l.t2d && op == 2 then some (.error 0x0583)
    else bif (l.res == 1 && !l.t2d) || (l.res == 2 && !(homeFrags s p h)) then (bif l.fen then some (.error 0x0301) else none)
    else some (.ok l)

/-- A home access asks Drift for its page (R284, R387). -/
def waitPage (p vpn : Nat) (s : State) : State :=
  modPartition p (fun x => { x with demand := bif x.demand.contains vpn then x.demand else x.demand ++ [vpn] }) s

/-- The data of a read at the home, with the failure of its first bad line. -/
def homeRead (s : State) (p : Nat) (l : Leaf) (h : Transport) : Status × List Byte × State :=
  let pa := paOf l h.offset.toNat
  let n := reqLen h
  let s := spendAt p pa n s
  match linesRead s pa n with
  | .fail st => (st, [], linesSeen pa n s)
  | .ok => (0, memRead s pa n, linesSeen pa n s)

/-- An atomic of a request at a page of partition `p`. -/
def homeAtomic (p va pa : Nat) (h : Transport) (payload : List Byte) (s : State) : Status × Nat × List Byte × State :=
  match aopOf h.arg.toNat with
  | none => (0, 0, [], s)
  | some op =>
    let cas := aopCas h.arg.toNat
    let r := atomicAt pa op (leAt payload (bif cas then 8 else 0) 8) (leAt payload 0 8) (abortMoveOut p (va / 2 ^ 21) (spendAt p pa 8 s))
    (r.1, r.2.1.toNat, leBytes 8 r.2.1.toNat, r.2.2)

/-- An accepted request is applied at its page: status, old value, data (R366, R381). -/
def homeApply (p : Nat) (l : Leaf) (h : Transport) (payload : List Byte) (s : State) : Status × Nat × List Byte × State :=
  let va := h.offset.toNat
  let pa := paOf l va
  match h.op.toNat with
  | 2 => homeAtomic p va pa h payload s
  | 1 => (0, 0, [], pageWrite p va payload (spendAt p pa (reqLen h) s))
  | 3 => (0, 0, [], pageWrite p va payload (spendAt p pa (reqLen h) s))
  | _ => let r := homeRead s p l h; (r.1, 0, r.2.1, r.2.2)

/-- Whether request `a` must be applied before request `b` of one partition: one line in common, or a ROWN of the region (R381). -/
def mustPrecede (a b : Transport) : Bool :=
  let region := a.offset.toNat / 2 ^ 21 == b.offset.toNat / 2 ^ 21
  bif a.op == 5 || b.op == 5 then region && !(a.op == 6) && !(b.op == 6)
  else bif a.op == 6 || b.op == 6 then false
  else Nat.ble (a.offset.toNat / 64 * 64) (b.offset.toNat + reqLen b - 1) && Nat.ble (b.offset.toNat / 64 * 64) (a.offset.toNat + reqLen a - 1)

/-- Whether an accepted request is first in its turn. -/
def inTurn (s : State) (src seq : Nat) (r : HomeReq) : Bool :=
  (s.accepted.takeWhile fun a => !(a == (src, seq))).all fun a =>
    match homeReq s a.1 a.2 with
    | none => true
    | some q => q.done || !(q.part == r.part) ||
      match packetHdr q.pkt, packetHdr r.pkt with
      | some (x, _), some (y, _) => !(mustPrecede x y)
      | _, _ => true

/-- Whether an ORD request's predecessor has been applied, or lies below the floor (R370), or is one that a discarded source will not send. -/
def ordReady (s : State) (src seq : Nat) (h : Transport) : Bool :=
  bif !h.ord || h.pord == 0 then true
  else
    let prev := seqDiff seq h.pord.toNat
    match sourceOf s src with
    | none => true
    | some x =>
      match tget? x.reqs prev with
      | some r => r.done
      | none => Nat.ble 32768 (seqDiff prev x.floor) || isLostKey src

/-- Held ORD requests of a source. -/
def heldOrds (s : State) (src : Nat) : Nat :=
  match sourceOf s src with
  | none => 0
  | some x => (x.reqs.filter fun r => !r.2.done && (match packetHdr r.2.pkt with | some (h, _) => !(ordReady s src r.1 h) | none => false)).length

/-- The state of an answered request goes when the floor has passed it or its source's states were discarded. -/
def forget (src seq : Nat) (s : State) : State :=
  match sourceOf s src with
  | none => s
  | some x =>
    bif isLostKey src || Nat.ble 32768 (seqDiff seq x.floor) then
      let l := terase x.reqs seq
      { s with sources := bif isLostKey src && l.isEmpty then terase s.sources src else tset s.sources src { x with reqs := l } }
    else s

/-- A request is done and answered. -/
def finishHome (src seq : Nat) (r : HomeReq) (h : Transport) (st : Status) (old : Nat) (data : List Byte) (s : State) : State :=
  let s := modHomeReq src seq (fun r => { r with done := true, wait := none, status := st, old := old, again := false }) s
  respond r.part src h (answerOp h.op.toNat) st data (forget src seq { s with accepted := s.accepted.filter fun a => !(a == (src, seq)) })

/-- A done request is answered again without being applied: an atomic from the ledger, a read by reading again, which waits as the first did
for the remote gateway or for Drift (R373, R374, R387, R390). -/
def answerAgain (src : Nat) (r : HomeReq) (h : Transport) (s : State) : State :=
  let seq := h.seq.toNat
  let later := fun (w : Option Nat) => modHomeReq src seq (fun r => { r with again := true, wait := w, status := 0 })
  bif h.op == 2 then respond r.part src h 0x12 r.status (leBytes 8 r.old) s
  else bif !(h.op == 0 || h.op == 4) then respond r.part src h 0x11 r.status [] s
  else bif isGwPacket r.pkt then later none s
  else
    match homePage s r.part h with
    | some (.ok l) => let q := homeRead s r.part l h; respond r.part src h (answerOp h.op.toNat) q.1 q.2.1 q.2.2
    | some (.error st) => respond r.part src h (answerOp h.op.toNat) st [] s
    | none => waitPage r.part (h.offset.toNat / 2 ^ 21) (later (some (h.offset.toNat / 2 ^ 21)) s)

/-- A NACK, which the home remembers until it accepts the request (R375, R377). -/
def nack (p src : Nat) (h : Transport) (s : State) : State :=
  let s := match sourceOf s src with
    | some x => { s with sources := tset s.sources src { x with nacked := tset x.nacked h.seq.toNat (p, h) } }
    | none => s
  respond p src h 0x14 0 [] (bump .rmaNack 0 0 1 s)

/-- The queue that an accepted request for an HBM page takes (R380): its pseudo-channel. -/
def reqPc (s : State) (r : HomeReq) : Option Nat :=
  match packetHdr r.pkt with
  | none => none
  | some (h, _) =>
    bif 5 ≤ h.op.toNat then none
    else (leaf? s r.part (h.offset.toNat / 2 ^ 21)).bind fun l => bif isHbm l.frame then some (pcOf (paOf l h.offset.toNat)) else none
/-- Whether the queue of 256 and the overflow pools of the two hubs, 4,096 each, are full for a new request (R380, Example 11.2). -/
def queueBusy (s : State) (r : HomeReq) : Bool :=
  match reqPc s r with
  | none => false
  | some pc =>
    let qs := s.accepted.filterMap fun a => (homeReq s a.1 a.2).bind (reqPc s)
    let n := fun c => (qs.filter (· == c)).length
    Nat.ble 256 (n pc) && Nat.ble 8192 (sumNat ((List.range 768).map fun c => n c - 256))

/-- REQUEST_ARRIVE: a delivered request is taken against its source's window (R368, R370, R373 to R376, R384). -/
def requestArrive (pkt : Packet) (s : State) : State :=
  match takeArrived (fun a => a.pkt == pkt && a.pkt.route.typ == 0) s, packetHdr pkt with
  | some (a, s'), some (h, payload) =>
    let src := pkt.route.src.toNat
    let seq := h.seq.toNat
    let fresh : HomeReq := ⟨pkt, a.part, false, none, 0, 0, false⟩
    bif hdrBad h payload || (isGwPacket pkt && !(flag s .rmaGw 0 0 31)) then bump .rmaDrophdr 0 0 1 s'
    else
      let floor := seqDiff seq h.lag.toNat
      let known := match sourceOf s' src with | some x => x.inst == h.inst.toNat | none => false
      let s1 := bif known then raiseFloor src floor s'
        else let d := dropSource src s'; { d with sources := tset d.sources src ⟨h.inst.toNat, floor, [], []⟩ }
      match sourceOf s1 src with
      | none => s1
      | some x =>
        bif Nat.ble 1024 (seqDiff seq x.floor) then bump .rmaStale 0 0 1 s1
        else
          match tget? x.reqs seq with
          | some r => bif r.done && !r.again then answerAgain src r h (bump .rmaDup 0 0 1 s1) else bump .rmaDup 0 0 1 s1
          | none =>
            bif h.op == 2 && Nat.ble 65536 (ledgerUsed s1) then nack a.part src h s1
            else bif !(ordReady s1 src seq h) && Nat.ble 64 (heldOrds s1 src) then nack a.part src h s1
            else bif queueBusy s1 fresh then s
            else
              let deny := Nat.blt h.op.toNat 5 && !(isGwPacket pkt) && ownDenied s1 a.part h.offset.toNat (isWriteOp h.op.toNat) src
              let s1 := bif h.op == 2 then modPartition a.part (fun x => { x with ledgerMade := x.ledgerMade + 1 }) s1 else s1
              { s1 with sources := tset s1.sources src { x with reqs := tset x.reqs seq { fresh with status := bif deny then 0x0486 else 0 }, nacked := terase x.nacked seq }
                        accepted := s1.accepted ++ [(src, seq)] }
  | _, _ => s

def execRequestArrive (pkt : Packet) (t : Time) (s : State) : Host.Outcome State Fault Refusal :=
  .next (requestArrive pkt (atTime t s))

/-- The key under which the home keeps request `seq` of a node: the one accepted first, when its source has begun again (R376). -/
def homeKey (s : State) (src seq : Nat) : Nat :=
  match s.accepted.find? fun a => a.1 % 8192 == src && a.2 == seq with
  | some a => a.1
  | none => src

/-- An access at the home's page, as fast as the partition's regulators admit it (R251). -/
def applyAt (src seq : Nat) (r : HomeReq) (h : Transport) (payload : List Byte) (l : Leaf) (s : State) : State :=
  bif admittedAt s r.part (paOf l h.offset.toNat) then
    let q := homeApply r.part l h payload (heatPage r.part (h.offset.toNat / 2 ^ 21) s)
    finishHome src seq r h q.1 q.2.1 q.2.2.1 q.2.2.2
  else waitAt r.part (paOf l h.offset.toNat) s

/-- REQUEST_APPLY: an accepted request whose turn has come is applied and answered, or waits for its page or its tokens (R251, R370, R381,
R387); a read that is to be answered again is read again (R373). -/
def requestApply (src seq : Nat) (s : State) : State :=
  match homeReq s src seq with
  | none => s
  | some r =>
    match packetHdr r.pkt with
    | none => s
    | some (h, payload) =>
      bif isGwPacket r.pkt || r.wait.isSome || !(r.again || (!r.done && inTurn s src seq r && ordReady s src seq h)) then s
      else bif !(r.status == 0) then finishHome src seq r h r.status 0 [] s
      else
        let region := h.offset.toNat / 2 ^ 21
        match h.op.toNat with
        | 6 => finishHome src seq r h 0 0 [] s
        | 5 =>
          let o := ownResult s r.part region h.arg.toNat (src % 8192)
          let t := tget s.owners r.part []
          let s := bif o.1 == 0 then
              { s with owners := tset s.owners r.part (match o.2 with | some w => tset t region w | none => terase t region) } else s
          finishHome src seq r h o.1 0 [] s
        | _ =>
          match homePage s r.part h with
          | some (.error st) => finishHome src seq r h st 0 [] s
          | some (.ok l) => applyAt src seq r h payload l s
          | none => waitPage r.part region (modHomeReq src seq (fun r => { r with wait := some region }) s)

/-- A request that waits for Drift looks at its page again once it is resident. -/
def homeWake (src seq : Nat) (s : State) : State :=
  match homeReq s src seq with
  | none => s
  | some r =>
    match r.wait with
    | none => s
    | some v =>
      let here := match packetHdr r.pkt with | some (h, _) => homeFrags s r.part h | none => false
      match leaf? s r.part v with
      | some l => bif l.res == 0 || l.res == 3 || l.t2d || here then modHomeReq src seq (fun r => { r with wait := none }) s else s
      | none => modHomeReq src seq (fun r => { r with wait := none }) s

def execRequestApply (src : BitVec 13) (seq : BitVec 16) (t : Time) (s : State) : Host.Outcome State Fault Refusal :=
  let s := atTime t s
  let k := homeKey s src.toNat seq.toNat
  .next (requestApply k seq.toNat (homeWake k seq.toNat s))

/-! ## Responses and retries at the source -/

/-- The request operation that a response operation answers fits. -/
def answers (req resp : Nat) : Bool := resp == 0x14 || resp == answerOp req

/-- The home sends again the response that a notice says was dropped, to each source with a request that the header answers (R377). -/
def respondAgain (st : Status) (h : Transport) (s : State) : State :=
  let seq := h.seq.toNat
  bif !(st == 0x0404 || st == 0x0407) then s
  else bif h.op == 0x14 then
    s.sources.foldl (fun s x => match tget? x.2.nacked seq with
      | some q => bif q.2.tag == h.tag then respond q.1 x.1 q.2 0x14 0 [] s else s
      | none => s) s
  else
    s.sources.foldl (fun s x => match tget? x.2.reqs seq with
      | some r => (match packetHdr r.pkt with
        | some (q, _) => bif r.done && !r.again && q.tag == h.tag && answers q.op.toNat h.op.toNat then answerAgain x.1 r q s else s
        | none => s)
      | none => s) s

/-- RESPONSE_ARRIVE: the first final response completes its transaction; later ones are counted in RMA_DUP; a NACK asks for a resend
after 2 µs; a notice for a response makes the home send it again (R375, R377). -/
def responseArrive (pkt : Packet) (s : State) : State :=
  match pkt.body with
  | .notice st (some h) _ =>
    bif Nat.ble 0x10 h.op.toNat then
      match takeArrived (fun a => a.pkt == pkt) s with
      | some (_, s) => respondAgain st h s
      | none => s
    else s
  | .transport h data =>
    match takeArrived (fun a => a.pkt == pkt && a.pkt.route.typ == 1) s with
    | none => s
    | some (_, s) =>
      match tget? s.txns h.tag.toNat with
      | none => bump .rmaDup 0 0 1 s
      | some t =>
        bif !(t.hdr.seq == h.seq) || !(answers t.hdr.op.toNat h.op.toNat) || !(entryNode t.rank == pkt.route.src.toNat) then bump .rmaDup 0 0 1 s
        else bif h.op == 0x14 then { s with txns := tset s.txns h.tag.toNat { t with nacked := true, sent := s.time } }
        else sendWaiting (finishTxn h.tag.toNat (BitVec.ofNat 16 h.offset.toNat) data s)
  | _ => s

def execResponseArrive (pkt : Packet) (t : Time) (s : State) : Host.Outcome State Fault Refusal :=
  .next (responseArrive pkt (atTime t s))

/-- NACK_RESEND: 2 µs after a NACK the request is sent again; it counts as no retry (R375). -/
def nackResend (tag : Nat) (s : State) : State :=
  match tget? s.txns tag with
  | some t => bif t.nacked && Nat.ble (t.sent + 2000) s.time then resend tag s else s
  | none => s

def execNackResend (tag : Nat) (t : Time) (s : State) : Host.Outcome State Fault Refusal := .next (nackResend tag (atTime t s))

/-- What an operation completes with when its retries are used up (R377). -/
def giveUpStatus (op : Nat) : Status := bif op == 0 || op == 4 then 0x0487 else 0x0488

/-- A retransmission, or the end of the retries. -/
def retry (tag : Nat) (t : Txn) (s : State) : State :=
  bif Nat.ble (fld s .rmaTimer 0 0 31 28) t.tries then sendWaiting (finishTxn tag (giveUpStatus t.hdr.op.toNat) [] s)
  else resend tag (bump .rmaRetry t.part 0 1 { s with txns := tset s.txns tag { t with tries := t.tries + 1 } })

/-- RTO in ns; 0 is treated as 1 µs. -/
def rtoNs (s : State) : Nat := 1000 * Nat.max 1 (fld s .rmaTimer 0 0 15 0)

/-- REMOTE_RETRANSMIT: on a drop notice with 0x0404 or 0x0407 that has arrived, or once RTO has passed (R377). -/
def remoteRetransmit (tag : Nat) (notice : Bool) (s : State) : State :=
  match tget? s.txns tag with
  | none => s
  | some t =>
    bif notice then
      match takeArrived (fun a => match a.pkt.body with
          | .notice st (some h) _ => (st == 0x0404 || st == 0x0407) && Nat.blt h.op.toNat 0x10 && h.tag.toNat == tag && h.seq == t.hdr.seq
          | _ => false) s with
      | some (_, s) => retry tag t s
      | none => s
    else bif !t.nacked && Nat.ble (t.sent + rtoNs s) s.time then retry tag t s else s

def execRemoteRetransmit (tag : Nat) (notice : Bool) (t : Time) (s : State) : Host.Outcome State Fault Refusal :=
  .next (remoteRetransmit tag notice (atTime t s))

/-- FLOOR_SEND: the floor to a home has advanced and no request went to it for 20 µs (R378). -/
def floorSend (home : Nat) (s : State) : State :=
  let x := pairOf s home
  bif x.floorDue && Nat.ble (x.sentAt + 20000) s.time then
    let s := { s with pairs := tset s.pairs home { x with floorDue := false } }
    enterRequest {
      owner := .floor, part := x.part, near := x.near, rank := 1 + home * 2 ^ 16, hdr := requestHdr 6 false false 0 0, payload := [],
                   sent := s.time, tries := 0, nacked := false } s
  else s

def execFloorSend (home : BitVec 13) (t : Time) (s : State) : Host.Outcome State Fault Refusal :=
  .next (floorSend home.toNat (atTime t s))

/-! ## Gateways (R389, R390) -/

/-- The queue pair to a remote domain's gateway that carries a request: ORD traffic has one of its own (R390). -/
def gatewayQp (s : State) (rdom : Nat) (ord : Bool) : Option Nat :=
  (s.qps.find? fun q => !q.2.failed && (match q.2.kind with | .gateway d o => d == rdom && o == ord | _ => false)).map (·.1)

/-- A write in the gateway's charge: where it goes, and its bytes. -/
def gatewayWrite (s : State) (a : Nat × Nat) : Option (BitVec 16 × BitVec 13 × Transport × List Byte) :=
  (homeReq s a.1 a.2).bind fun r => match r.pkt.body with
    | .gateway d n h p => bif isWriteOp h.op.toNat && !(h.op == 2) && !r.done then some (d, n, h, p) else none
    | _ => none

/-- The writes that one transfer carries from the first on: those of its source that follow in order of acceptance, go on where it ends and
come to no more than 64 KiB with it (R389). The requests so far, and the bytes. -/
def gatewayRun (s : State) (d : BitVec 16) (n : BitVec 13) (ord : Bool) (start : Nat) :
    List (Nat × Nat) → List (Nat × Nat) → List Byte → List (Nat × Nat) × List Byte
  | [], run, bs => (run, bs)
  | a :: l, run, bs =>
    match gatewayWrite s a with
    | none => (run, bs)
    | some (d', n', h, p) =>
      bif d' == d && n' == n && h.ord == ord && h.offset.toNat == start + bs.length && Nat.ble (bs.length + p.length) 65536
          && (ordReady s a.1 a.2 h || run.contains (a.1, seqDiff a.2 h.pord.toNat)) then
        gatewayRun s d n ord start l (run ++ [a]) (bs ++ p)
      else (run, bs)

/-- A request in the gateway's charge completes. -/
def gatewayEnd (st : Status) (data : List Byte) (s : State) (a : Nat × Nat) : State :=
  match homeReq s a.1 a.2 with
  | none => s
  | some r => match packetHdr r.pkt with | some (h, _) => finishHome a.1 a.2 r h st 0 data s | none => s

/-- An accepted request is carried to the remote gateway, which answers it, with the writes that go on from it (R389). Atomics and ownership
changes are not carried. -/
def gatewayOut (src seq : Nat) (st : Status) (data : List Byte) (s : State) : State :=
  match homeReq s src seq with
  | none => s
  | some r =>
    match r.pkt.body with
    | .gateway rdom rnode h payload =>
      let op := h.op.toNat
      bif !(r.again || (!r.done && ordReady s src seq h)) then s
      else bif op == 6 then finishHome src seq r h 0 0 [] s
      else bif op == 2 || op == 5 then finishHome src seq r h 0x048A 0 [] s
      else
        match gatewayQp s rdom.toNat h.ord with
        | none => s
        | some q =>
          bif qpPaused s q then s
          else bif isWriteOp op then
            let later := ((s.accepted.dropWhile fun a => !(a == (src, seq))).drop 1).filter fun a => a.1 == src
            let run := gatewayRun s rdom rnode h.ord h.offset.toNat later [(src, seq)] payload
            run.1.foldl (gatewayEnd st []) (emit (.gatewayOp q rnode.toNat true h.offset.toNat run.2 run.2.length) s)
          else
            finishHome src seq r h st 0 (sliceBytes data 0 (reqLen h)) (emit (.gatewayOp q rnode.toNat false h.offset.toNat [] (reqLen h)) s)
    | _ => s

/-- The requests that a transfer of `n` bytes makes at its home: whole units of 64 bytes, at most 4,096 in one page, and otherwise 8 or 4
bytes (R363, R365, R367). -/
def gatewayPackets : Nat → Nat → Nat → List (Nat × Nat)
  | 0, _, _ => []
  | f + 1, off, n =>
    bif n == 0 then []
    else
      let k := bif off % 64 == 0 && Nat.ble 64 n then Nat.min (Nat.min 4096 (n / 64 * 64)) (2 ^ 21 - off % 2 ^ 21)
        else bif off % 8 == 0 && Nat.ble 8 n then 8 else 4
      (off, k) :: gatewayPackets f (off + k) (n - k)

/-- An operation that arrives from a remote gateway becomes requests of this gateway's own. -/
def gatewayIn (qp p rnode offset : Nat) (write : Option (List Byte)) (len : Nat) (s : State) : State :=
  match tget? s.qps qp with
  | none => s
  | some q =>
    match q.kind with
    | .gateway _ ord =>
      bif q.failed || !(flag s .rmaGw 0 0 31) then s
      else
        let n := match write with | some d => d.length | none => len
        let one := fun (off k : Nat) (d : List Byte) =>
          let small := k == 4 || k == 8
          let op := bif write.isSome then (bif small then 1 else 3) else (bif small then 0 else 4)
          ({ owner := .gateway qp, part := p, near := false, rank := 1 + rnode * 2 ^ 16,
             hdr := requestHdr op ord (k == 8) (bif small then 0 else (k + 63) / 64 - 1) off,
             payload := bif write.isSome then d else [], sent := s.time, tries := 0, nacked := false } : Txn)
        let ts := (gatewayPackets 16384 offset n).map fun x => one x.1 x.2 (match write with | some d => sliceBytes d (x.1 - offset) x.2 | none => [])
        sendWaiting { s with sendQ := s.sendQ ++ ts }
    | _ => s

def gatewayMove (g : GatewayMove) (s : State) : State :=
  match g with
  | .outward src seq st data => gatewayOut (homeKey s src.toNat seq.toNat) seq.toNat st data s
  | .inward qp p rnode off w n => gatewayIn qp p.val rnode.toNat off.toNat w n s

def execGatewayForward (g : GatewayMove) (t : Time) (s : State) : Host.Outcome State Fault Refusal :=
  .next (gatewayMove g (atTime t s))

/-- A queue pair to a domain fails. -/
def failGateway (rdom : Nat) (q : QueuePair) : QueuePair :=
  match q.kind with
  | .gateway d _ => bif d == rdom then { q with failed := true } else q
  | _ => q
/-- An accepted request to a lost domain completes. -/
def loseGateway (rdom : Nat) (s : State) (a : Nat × Nat) : State :=
  match homeReq s a.1 a.2 with
  | none => s
  | some r =>
    match r.pkt.body with
    | .gateway d _ h _ => bif d.toNat == rdom && !r.done then finishHome a.1 a.2 r h 0x0489 0 [] s else s
    | _ => s
/-- A repeated read that waited for a lost domain is answered. -/
def loseAgain (rdom : Nat) (s : State) (a : Nat × Nat) : State :=
  match homeReq s a.1 a.2 with
  | none => s
  | some r =>
    match r.pkt.body with
    | .gateway d _ h _ => bif d.toNat == rdom && r.again then finishHome a.1 a.2 r h 0x0489 0 [] s else s
    | _ => s
/-- GATEWAY_CONNECTION_LOST: every operation in the gateway's charge for that domain completes with 0x0489 (R390). -/
def gatewayLost (rdom : Nat) (s : State) : State :=
  let s := s.accepted.foldl (loseGateway rdom) { s with qps := s.qps.map fun (q : Nat × QueuePair) => (q.1, failGateway rdom q.2) }
  (s.sources.flatMap fun x => (x.2.reqs.filter fun r => r.2.again).map fun r => (x.1, r.1)).foldl (loseAgain rdom) s

def execGatewayConnectionLost (rdom : BitVec 16) (t : Time) (s : State) : Host.Outcome State Fault Refusal :=
  .next (gatewayLost rdom.toNat (atTime t s))

/-! ## PACKET_INJECT -/

/-- PACKET_INJECT: the network interface takes a packet; a refusal is told, and the request of a live transaction then completes with
that status (R336, R388). -/
def packetInject (p : Nat) (pkt : Packet) (s : State) : State :=
  match inject p pkt false s with
  | .sent s => pumpAll s
  | .held => s
  | .refused st =>
    let s := emit (.injectRefused p st) s
    match pkt.body with
    | .transport h _ =>
      match tget? s.txns h.tag.toNat with
      | some t => bif t.hdr == h && t.part == p && pkt.route.typ == 0 then sendWaiting (finishTxn h.tag.toNat st [] s) else s
      | none => s
    | _ => s

def execPacketInject (p : PartId) (pkt : Packet) (t : Time) (s : State) : Host.Outcome State Fault Refusal :=
  .next (packetInject p.val pkt (atTime t s))

/-! ## What registers show and do -/

/-- RMA_PURGE.GO: everything kept of a source goes (R376). -/
def rmaPurge (node : Nat) (s : State) : State := dropSource node s
/-- RMA_OWNUSE: ownership entries in use. -/
def ownUse (s : State) (p : Nat) : Nat := (tget s.owners p []).length
/-- A write of a rank-table half with a reserved bit set is refused with 0x0102 (R361). -/
def rankStatus (hi : Bool) (v : Nat) : Status :=
  failIf (bif hi then !(bits v 31 29 == 0) else !(bits v 15 2 == 0) || !(bits v 31 29 == 0)) 0x0102

end Sys2Proof.Machine
end

