-- ==== Sys2Proof/Machine/Assay.lean ====
section
/-! DEFINITION. Assay (R204 to R211), the seed slots (R185, R186) and the numeric system instructions (R194, R209, R212). -/

namespace Sys2Proof.Machine

/-! ## Records (Table 6.3) -/

/-- Where the record of a TAG lies. -/
def assayAddr (s : State) (p tag : Nat) : Nat :=
  fld s .numAsybaseHi p 0 15 0 * 2 ^ 32 + fld s .numAsybaseLo p 0 31 21 * 2 ^ 21 + 128 * tag

/-- The fields that an event adds to: offset and width in bytes, by the keys of an update. -/
def assayField : Nat → Nat × Nat
  | 0 => (0, 8) | 1 => (8, 8) | 2 => (16, 8) | 3 => (24, 8) | 4 => (32, 8) | 5 => (40, 4) | 6 => (44, 4) | 7 => (48, 4) | _ => (56, 4)

/-- A counter of a record raised, held at its largest value (R206). -/
def assayAdd (bs : List Byte) (k n : Nat) : List Byte :=
  let f := assayField k
  overBytes bs f.1 (leBytes f.2 (satTo (256 ^ f.2 - 1) (leAt bs f.1 f.2 + n)))
/-- An FP32 magnitude of a record raised. -/
def assayRaise (bs : List Byte) (o v : Nat) : List Byte := overBytes bs o (leBytes 4 (Nat.max (leAt bs o 4) v))

/-- The counters of a record after an update (R205): key 9 raises PEND, the others add. -/
def assayApplied (bs : List Byte) (u : AssayUpd) : List Byte :=
  let bs := u.adds.foldl (fun bs a => bif a.1 == 9 then assayRaise bs 60 a.2 else assayAdd bs a.1 a.2) bs
  assayRaise bs 52 u.maxAbs

/-- An update is written to its record at `a`, or discarded and counted when the record's line cannot be read; the first non-finite
input of a TAG raises a Warning (R208, R210, R211). -/
def updateAt (p a : Nat) (u : AssayUpd) (s : State) : State :=
  match spaceRead s p a 64 with
  | .error _ =>
    spaceSeen p a 64 (setRaw64 .numAsylostLo .numAsylostHi p 0 (satTo (2 ^ 64 - 1) (raw64 s .numAsylostLo .numAsylostHi p 0 + 1)) s)
  | .ok bs =>
    let new := assayApplied bs u
    let s := (spaceWrite p a new (spaceSeen p a 64 s)).2
    bif flag s .numCtl p 0 2 && leAt bs 48 4 == 0 && Nat.blt 0 (leAt new 48 4) then
      raise 0xE002 2 (some p) (unitId 9 p) (BitVec.ofNat 64 u.tag) s
    else s

/-- An update is applied to the record of its TAG. -/
def applyUpdate (p : Nat) (u : AssayUpd) (s : State) : State := updateAt p (assayAddr s p u.tag) u s

/-- ASSAY_UPDATE_APPLY: a hub applies the oldest posted update of a TAG of its parity (R207, R208). -/
def assayApply (p hub : Nat) (s : State) : State :=
  match firstIdx (fun (x : Nat × AssayUpd) => x.2.tag % 2 == hub) (partition s p).assayQ with
  | none => s
  | some n =>
    match (partition s p).assayQ[n]? with
    | none => s
    | some x => applyUpdate p x.2 (modPartition p (fun q => { q with assayQ := listDrop q.assayQ n }) s)

def execAssayUpdateApply (p : PartId) (hub : Fin 2) (t : Time) (s : State) : Host.Outcome State Fault Refusal :=
  .next (assayApply p.val hub.val (atTime t s))

/-- Clearing ASYEN first writes every update already accepted (R210). -/
def assayFlush (p : Nat) (s : State) : State :=
  (partition s p).assayQ.foldl (fun s x => applyUpdate p x.2 s) (modPartition p (fun q => { q with assayQ := [] }) s)

/-- Whether the four pages of the table are mapped and pinned in HBM (R204). -/
def assayPinned (s : State) (p : Nat) : Bool :=
  (List.range 4).all fun k => match leaf? s p (assayAddr s p 0 / 2 ^ 21 + k) with
    | some l => l.pin && l.res == 0
    | none => false

/-- The status of a write of NUM_CTL (R204), and of NUM_ASYBASE (R210). -/
def numCtlStatus (s : State) (p v : Nat) : Status := failIf (bit v 0 && !(flag s .numCtl p 0 0) && !(assayPinned s p)) 0x0602
def asybaseStatus (s : State) (p : Nat) : Status := failIf (flag s .numCtl p 0 0) 0x0602
/-- What a write of NUM_CTL does beside the register. -/
def numCtlWritten (p old value : Nat) (s : State) : State := bif bit old 0 && !(bit value 0) then assayFlush p s else s

/-- The largest of the 16 history entries of a TAG, as FP32 bits; 0 while ASYEN is 0 (R193, R210). -/
def historyMax (s : State) (p tag : Nat) : Nat :=
  bif flag s .numCtl p 0 0 then
    match spaceRead s p (assayAddr s p tag + 64) 64 with
    | .ok bs => maxNat ((List.range 16).map fun k => leAt bs (4 * k) 4)
    | .error _ => 0
  else 0

/-! ## System instructions (Table 6.5) -/

/-- Whether every update that the role posted has been written: those of instructions that it retired before, on whatever bench (R208). -/
def roleSynced (s : State) (b : Nat) : Bool := !((partition s (benchPart s b)).assayQ.any fun x => some x.1 == roleKey s b)

/-- Whether a Temper instruction issued before entry `e` that names seed slot `n` has still to start, and so to capture it (R187). -/
def seedWanted (x : Bench) (n : Nat) (e : Entry) : Bool :=
  x.queues.any fun q => q.2.any fun o => o.phase == .queued && Nat.blt o.eid e.eid && seedSlot o.word == some n

/-- SEEDSET (R186): it waits for the instructions issued before it that use the slot's old value (R187). -/
def seedsetEntry (b : Nat) (e : Entry) (s : State) : State :=
  let n := wImmBits e.word 3 0
  bif seedWanted (bench s b) n e then s
  else sysRetire b (modBench b (fun x => { x with seeds := tset x.seeds n (eVal e 2) }) s)
def execSeedset (b : BenchId) (s : State) : Host.Outcome State Fault Refusal := .next (onSys b.val 9 0x40 (seedsetEntry b.val) s)

/-- The TAGs of a range: O2 the first, O3 the count. -/
def tagRange (e : Entry) : List Nat := (List.range (eVal e 3).toNat).map (· + (eVal e 2).toNat)

/-- An instruction on a range of TAGs, once the role's updates are written; it faults with 0x0602 when ASYEN has been cleared
(R212). -/
def tagInstr (b : Nat) (e : Entry) (f : Nat → Nat → State → State) (s : State) : State :=
  let p := benchPart s b
  bif !(flag s .numCtl p 0 0) then sysFault b e 0x0602 s
  else bif !(roleSynced s b) then s
  else sysRetire b ((tagRange e).foldl (fun s g => f p g s) s)

/-- A record cleared: bytes 0 to 63, or 0 to 127 (R209). -/
def clearRecord (n p tag : Nat) (s : State) : State := (spaceWrite p (assayAddr s p tag) (List.replicate n 0) s).2
/-- ASYCLR (R209). -/
def execAsyclr (b : BenchId) (s : State) : Host.Outcome State Fault Refusal :=
  .next (onSys b.val 9 0x41 (fun e s => tagInstr b.val e (clearRecord (bif bit (wMod e.word) 0 then 128 else 64)) s) s)

/-- The history in the record at `a` committed (R194). A record that cannot be read stays as it is. -/
def commitAt (p a : Nat) (s : State) : State :=
  match spaceRead s p a 128 with
  | .error _ => spaceSeen p a 128 s
  | .ok bs => (spaceWrite p (a + 60) ([0, 0, 0, 0] ++ sliceBytes bs 60 4 ++ sliceBytes bs 64 60) (spaceSeen p a 128 s)).2

/-- A TAG's history committed. -/
def commitHistory (p tag : Nat) (s : State) : State := commitAt p (assayAddr s p tag) s
/-- NUMHIST (R194). -/
def execNumhist (b : BenchId) (s : State) : Host.Outcome State Fault Refusal :=
  .next (onSys b.val 9 0x42 (fun e s => tagInstr b.val e commitHistory s) s)

/-- ASYSYNC (R208). -/
def asysyncEntry (b : Nat) (_ : Entry) (s : State) : State := bif roleSynced s b then sysRetire b s else s
def execAsysync (b : BenchId) (s : State) : Host.Outcome State Fault Refusal := .next (onSys b.val 9 0x43 (asysyncEntry b.val) s)

/-- NUM_ASYPEND: updates accepted and not yet written. -/
def assayPending (s : State) (p : Nat) : Nat := satTo 0xFFFF (partition s p).assayQ.length

end Sys2Proof.Machine
end

