-- ==== Sys2Proof/Machine/Optics.lean ====
section
/-! DEFINITION. Optical engines (chapter 09): lanes, rings and margins (R304 to R309), lasers and spare swaps (R312 to R321),
calibration (R322, R323), parking (R324), shutters (R325) and engine-core restarts (R327). -/

namespace Sys2Proof.Machine

/-- A lane goes down; one that goes down 8 times within 60 s is fenced with cause 0x030C (R309, R552). -/
def laneDown (e d l : Nat) (s : State) : State :=
  bif laneLive (laneState s e d l) then
    let recent := (laneAux s e d l).downs.filter fun t => Nat.blt s.time (t + 60000000000)
    let downs := recent ++ [s.time]
    let s := modLane e d l (fun a => { a with downs := downs, low := 0 }) s
    bif Nat.ble 8 downs.length then causeLane (laneUnit e d l) 0x030C s
    else setLane e d l 0 s
  else s

/-- A receive lane loses its light: it and its paired transmit lane are down (R308), or parked when the peer's park marker came on it before
(R324); a host port goes down with its lane (R318). -/
def lightLost (e l : Nat) (parked : Bool) (s : State) : State :=
  let p := pairedLane s e l
  bif parked && !(isHostEngine e) then
    let park := fun (d l : Nat) (s : State) => bif laneLive (laneState s e d l) then setLane e d l 5 s else s
    park 0 p (park 1 l s)
  else
    let s := laneDown e 1 l s
    bif laneHolds (laneState s e 0 p) then setLane e 0 p 0 s else s

/-- A fitted module that has lost light on every lane through both engines is fenced (R288). -/
def moduleDark (m : Nat) (s : State) : State :=
  let dark := fun (e l : Nat) => laneState s e 1 l == 0 || laneState s e 1 l == 6
  bif modulePresent s m && (moduleLanes m).all (fun l => dark 8 l && dark 9 l) then causeModule m 0x030D s else s

def execLossOfLight (e : EngineId) (l : LostLane) (t : Time) (s : State) : Host.Outcome State Fault Refusal :=
  let s := atTime t s
  .next (bif Nat.blt l.lane.val (engineLanes e.val) then
    let r := lightLost e.val l.lane.val l.parked s
    bif e.val == 8 || e.val == 9 then moduleDark (l.lane.val % 16 / 4) r else r
  else s)

/-! ## Temperature bands (R302, R305, R477, Table 15.4) -/

/-- The band at a temperature, from the band before: thresholds 50, 75, 90 and 100 °C rising, 3 °C lower falling. -/
def bandAt (old : Nat) (temp : Int) : Nat :=
  let at_ := fun (k : Int) => bif decide (100 + k ≤ temp) then 4 else bif decide (90 + k ≤ temp) then 3
    else bif decide (75 + k ≤ temp) then 2 else bif decide (50 + k ≤ temp) then 1 else 0
  let up := at_ 0
  bif Nat.ble old up then up else Nat.min old (at_ (-3))

/-- The driver-die temperature of an engine: OPT_STAT.TEMP, its band, the waveform sets of the lanes that no swap holds, and one
Warning per crossing of 90 °C. -/
def engineTemp (e : Nat) (temp : Int) (s : State) : State :=
  let x := engine s e
  let band := bandAt x.band temp
  let hot := decide (90 < temp)
  let held := fun l => match x.swap with | some w => l % 16 == w.laser | none => false
  let s := setFld .optStat e 0 23 16 (unsign 8 temp) (modEngine e (fun x => { x with band := band, hot := hot }) s)
  let s := (List.range (engineLanes e)).foldl (fun s l => bif held l then s else setFld .optTxl e l 7 4 band s) s
  bif hot && !x.hot then raise 0xB002 2 none (unitId 6 e) 0 s else bif x.hot && !hot then emergEnds s else s

/-- RING_LOOP_UPDATE: the ring's lock error and heater power; a heater at zero with a lock error beyond ±6.0 GHz takes the lane down
(R304, R305). -/
def ringLoop (e d l : Nat) (err : Int) (heater : Nat) (temp : Int) (s : State) : State :=
  let s := engineTemp e temp s
  let s := bif d == 0 then setFld .optTxl e l 31 16 (unsign 16 err) (setFld .optTxl e l 15 8 heater s) else s
  let s := setFld .optCal e 0 7 0 (satTo 255 (Nat.max (fld s .optCal e 0 7 0) err.natAbs)) s
  bif heater == 0 && Nat.blt 60 err.natAbs then laneDown e d l s else s

def dirIdx : LaneDir → Nat
  | .tx => 0
  | .rx => 1

def execRingLoopUpdate (e : EngineId) (dir : LaneDir) (l : Fin 64) (lockErr : Int) (heater : Nat) (temp : Int) (t : Time) (s : State) :
    Host.Outcome State Fault Refusal :=
  let s := atTime t s
  .next (bif Nat.blt l.val (engineLanes e.val) then ringLoop e.val (dirIdx dir) l.val lockErr heater temp s else s)

/-- The condition of Table 9.4 for a margin in 0.1 dB. -/
def marginCond (s : State) (e : Nat) (margin : Int) : Nat :=
  let warn := fld s .optMargin e 0 15 8
  let swap := Nat.min warn (fld s .optMargin e 0 7 0)
  bif decide (margin < (swap : Int)) then 2 else bif decide (margin < (warn : Int)) then 1 else 0

/-- LANE_POWER_SAMPLE: received power and error rate, the margin's condition with its events, and the Down tests (R307). -/
def lanePower (e l : Nat) (power : Int) (berHigh : Bool) (ber : Nat) (temp : Int) (s : State) : State :=
  let s := engineTemp e temp s
  let s := setFld .optRxl e l 31 16 (unsign 16 power) (setFld .optRxl e l 15 8 ber s)
  let a := laneAux s e 1 l
  let c := marginCond s e (power + 120)
  let low := bif decide (power < -120) then a.low + 1 else 0
  let s := modLane e 1 l (fun a => { a with cond := c, low := low }) s
  let u := unitId 5 (laneUnit e 1 l)
  let s := bif Nat.blt a.cond c then (bif c == 2 then raise 0xB004 1 none u 0 s else raise 0xB003 2 none u 0 s) else s
  bif Nat.ble 3 low || berHigh then laneDown e 1 l s else s

def execLanePowerSample (e : EngineId) (l : Fin 64) (power : Int) (berHigh : Bool) (ber : BitVec 8) (temp : Int) (t : Time) (s : State) :
    Host.Outcome State Fault Refusal :=
  let s := atTime t s
  .next (bif Nat.blt l.val (engineLanes e.val) then lanePower e.val l.val power berHigh ber.toNat temp s else s)

/-- Whether a transmit lane lies on a fibre whose shutter is closed (R325). -/
def shuttered (s : State) (e d l : Nat) : Bool := d == 0 && (engine s e).opened.contains (l / 16)

/-- LANE_RETRAIN: a down lane whose ends both see a margin of 0.5 dB begins to train (R309), or one that the peer had parked (R324); a fabric
lane only where R332 and R445 allow it, and no lane behind a closed shutter (R325). -/
def laneRetrain (e d l : Nat) (near far : Int) (s : State) : State :=
  bif (laneState s e d l == 0 || laneState s e d l == 5) && decide (5 ≤ near) && decide (5 ≤ far) && isUp s 6 e && !(flag s .optCtl e 0 2)
      && !(laneBarred s e) && !(shuttered s e d l) then
    modLane e d l (fun a => { a with since := s.time }) (setLane e d l 1 s)
  else s

def execLaneRetrain (e : EngineId) (dir : LaneDir) (l : Fin 64) (near far : Int) (t : Time) (s : State) :
    Host.Outcome State Fault Refusal :=
  let s := atTime t s
  .next (bif Nat.blt l.val (engineLanes e.val) then laneRetrain e.val (dirIdx dir) l.val near far s else s)

/-- LANE_UP: a training lane whose error rate has stayed below 1.0 × 10^−5 for 1 ms is up; a lane that recovered from a fence is Up
(R309, Table 16.1). -/
def laneRise (e d l : Nat) (berLow : Bool) (s : State) : State :=
  bif laneState s e d l == 1 && berLow && Nat.ble ((laneAux s e d l).since + 1000000) s.time && !(laneBarred s e) && !(shuttered s e d l) then
    let s := setLane e d l (serviceState s e l) s
    let s := bif d == 0 then setFld .optTxl e l 7 4 (engine s e).band s else s
    bif unitState s 5 (laneUnit e d l) == .recovering then unitUp 5 (laneUnit e d l) s else s
  else s

def execLaneUp (e : EngineId) (dir : LaneDir) (l : Fin 64) (berLow : Bool) (t : Time) (s : State) :
    Host.Outcome State Fault Refusal :=
  let s := atTime t s
  .next (bif Nat.blt l.val (engineLanes e.val) then
    let r := laneRise e.val (dirIdx dir) l.val berLow s
    bif dirIdx dir == 0 && laneState s e.val 0 l.val == 1 && laneState r e.val 0 l.val == 2 then laneTrained e.val l.val r else r
  else s)

/-! ## Lasers -/

/-- The transmit lanes that laser `k` feeds (R295, Table 9.5). -/
def laserLanes (e k : Nat) : List Nat := bif isHostEngine e then [k] else (List.range 4).map (16 * · + k)
/-- How many laser pairs an LSM has. -/
def laserCount (e : Nat) : Nat := bif isHostEngine e then 8 else 16

/-- LASER_BIAS_STEP: the engine core raises a lit laser's bias by 0.5 mA, up to 180 mA, while its output is below +16.0 dBm
(R312). -/
def biasStep (e k : Nat) (power : Int) (s : State) : State :=
  let x := engine s e
  bif x.lit && engineCore s e && Nat.blt k (laserCount e) then
    let b := tget x.bias k 0
    let b := bif decide (power < 160) && Nat.blt b 360 then b + 1 else b
    setFld .optLsr e k 23 16 (b / 2) (setFld .optLsr e k 15 8 (unsign 8 power)
      (modEngine e (fun x => { x with bias := tset x.bias k b }) s))
  else s

def execLaserBiasStep (e : EngineId) (k : Fin 16) (power : Int) (s : State) : Host.Outcome State Fault Refusal :=
  .next (biasStep e.val k.val power s)

/-- Colour `k` has no working laser: its lanes stay down, with an Error event (R320). -/
def noLaser (e k : Nat) (s : State) : State :=
  raise 0xB009 1 none (unitId 6 e) 0
    (setFld .optLsr e k 31 30 2 ((laserLanes e k).foldl (fun s l => setLane e 0 l 8 s) s))

/-- QUEUED of OPT_SWAP follows the queue. -/
def showQueue (e : Nat) (s : State) : State := setFld .optSwap e 0 11 8 (satTo 15 (engine s e).queue.length) s

/-- Whether a laser that has been declared has been declared dead. -/
def knownDead (x : Engine) (k : Nat) : Bool :=
  x.queue.contains (k, true) || (match x.swap with | some w => w.laser == k && w.dead | none => false)

/-- A laser that waits for its swap, or is in it, is dead (R313, R319). -/
def markDead (k : Nat) (x : Engine) : Engine :=
  { x with queue := x.queue.map (fun q => (q.1, q.2 || q.1 == k)), swap := x.swap.map fun w => { w with dead := w.dead || w.laser == k } }

/-- A laser is declared faded or dead: an Info event, and a swap waits; without a usable spare its colour is lost (R313, R314,
R320). A faded laser may later be declared dead. -/
def declareFade (e k : Nat) (dead : Bool) (s : State) : State :=
  bif fld s .optLsr e k 31 30 == 2 then s
  else bif flag s .optLsr e k 29 then
    bif dead && !(knownDead (engine s e) k) then raise 0xB006 3 none (unitId 6 e) 0 (modEngine e (markDead k) s) else s
  else
    let s := raise 0xB006 3 none (unitId 6 e) 0 s
    bif flag s .optLsr e k 28 then noLaser e k s
    else showQueue e (modEngine e (fun x => { x with queue := x.queue ++ [(k, dead)] }) (setFld .optLsr e k 29 29 1 s))

/-- Whether a reading shows a faded laser, and a dead one (R313). -/
def readingDead (r : LaserReading) : Bool := decide (r.power < 60)
def readingFaded (r : LaserReading) : Bool :=
  (decide (r.power < 150) && Nat.ble 360 r.bias) || decide (15 ≤ r.fall1s)
    || (Nat.blt 25 r.lockErr.natAbs && Nat.ble 10000 r.offTimeUs) || readingDead r

/-- LASER_FADE_DECLARE. -/
def fadeDeclare (e k : Nat) (r : LaserReading) (s : State) : State :=
  bif (engine s e).lit && engineCore s e && Nat.blt k (laserCount e) then
    let s := setFld .optLsr e k 23 16 (r.bias / 2) (setFld .optLsr e k 15 8 (unsign 8 r.power) (setFld .optLsr e k 7 0 (unsign 8 r.lockErr)
      (modEngine e (fun x => { x with bias := tset x.bias k r.bias }) s)))
    bif readingFaded r then declareFade e k (readingDead r) s else s
  else s

def execLaserFadeDeclare (e : EngineId) (k : Fin 16) (r : LaserReading) (t : Time) (s : State) : Host.Outcome State Fault Refusal :=
  .next (fadeDeclare e.val k.val r (atTime t s))

/-! ## Spare-laser swap (R314 to R321) -/

def swapStep (s : State) (e : Nat) : Nat := fld s .optSwap e 0 19 16
def setStep (e n : Nat) (s : State) : State :=
  let s' := setFld .optSwap e 0 19 16 n s
  bif n == 0 && !(fld s .optSwap e 0 19 16 == 0) then emergEnds s' else s'
def setSwap (e : Nat) (w : Option Swap) (s : State) : State := modEngine e (fun x => { x with swap := w }) s

/-- Whether a laser is swapped without quiescing: a dead one, or λ00 of a local or global engine (R319). -/
def noQuiesce (s : State) (e : Nat) (w : Swap) : Bool := w.dead || (w.laser == 0 && Nat.ble (engineRole s e) 1)

/-- SWAP_WARM: the first declared laser's swap begins and its spare is brought to its bias, unless a calibration of its colour still runs
(R314, Table 9.6, Table 9.7). -/
def swapWarm (e : Nat) (s : State) : State :=
  let x := engine s e
  match x.swap, x.queue with
  | none, (k, dead) :: q =>
    let calRuns := match x.cal with | some c => c.1 == k | none => false
    bif x.lit && engineCore s e && !calRuns then
      showQueue e (setStep e 1 (setFld .optSwap e 0 15 12 k
        (modEngine e (fun x => { x with swap := some ⟨k, dead, false, s.time⟩, queue := q
                                        bias := tset x.bias (16 + k) (Config.startBias e (16 + k)) }) s)))
    else s
  | _, _ => s

def execSwapWarm (e : EngineId) (t : Time) (s : State) : Host.Outcome State Fault Refusal := .next (swapWarm e.val (atTime t s))

/-- SWAP_LOCK: the warmed spare is locked when its error is within ±1.0 GHz (0.1 GHz units). -/
def swapLock (e : Nat) (err : Int) (s : State) : State :=
  match (engine s e).swap with
  | some w => bif (swapStep s e == 1 || swapStep s e == 2) then
      setStep e 2 (setSwap e (some { w with locked := Nat.ble err.natAbs 10 }) s) else s
  | none => s

def execSwapLock (e : EngineId) (err : Int) (t : Time) (s : State) : Host.Outcome State Fault Refusal :=
  .next (swapLock e.val err (atTime t s))

/-- Lanes of laser `k` in state `a` go to state `b`. -/
def moveLanes (e k a b : Nat) (s : State) : State :=
  (laserLanes e k).foldl (fun s l => bif laneState s e 0 l == a then setLane e 0 l b s else s) s

/-- SWAP_QUIESCE: the colour takes no new flits (R316). -/
def swapQuiesce (e : Nat) (s : State) : State :=
  match (engine s e).swap with
  | some w => bif swapStep s e == 2 && w.locked && !(noQuiesce s e w) then setStep e 3 (moveLanes e w.laser 2 3 s) else s
  | none => s

def execSwapQuiesce (e : EngineId) (t : Time) (s : State) : Host.Outcome State Fault Refusal :=
  .next (swapQuiesce e.val (atTime t s))

/-- SWAP_SWITCH: the pair switch begins to change over, which takes a host port down (R318), and a second time when it has changed
over to the spare, whose bias the engine core then holds (R312), and the retrain begins. -/
def swapSwitch (e : Nat) (s : State) : State :=
  match (engine s e).swap with
  | none => s
  | some w =>
    let n := swapStep s e
    bif n == 3 || (n == 2 && w.locked && noQuiesce s e w) then
      setStep e 4 (bif isHostEngine e then hostPortFail (lanePort e w.laser) s else s)
    else bif n == 4 then
      let b := tget (engine s e).bias (16 + w.laser) 0
      setStep e 5 (setFld .optLsr e w.laser 31 30 1 (setFld .optLsr e w.laser 23 16 (b / 2)
        (modEngine e (fun x => { x with bias := tset x.bias w.laser b }) s)))
    else s

def execSwapSwitch (e : EngineId) (t : Time) (s : State) : Host.Outcome State Fault Refusal :=
  .next (swapSwitch e.val (atTime t s))

/-- SWAP_RESUME: the colour returns to service with the waveform set of the present band; the faded laser is spent (Table 9.6,
R321). -/
def swapResume (e : Nat) (s : State) : State :=
  match (engine s e).swap with
  | some w =>
    bif swapStep s e == 5 then
      let s := (laserLanes e w.laser).foldl (fun s l =>
        let s := setFld .optTxl e l 7 4 (engine s e).band s
        bif laneState s e 0 l == 3 || (w.dead && laneState s e 0 l == 0 && !(laneBarred s e)) then setLane e 0 l (serviceState s e l) s else s) s
      let s := setFld .optLsr e w.laser 29 28 1 (bumpFld .optSwap e 0 6 0 1 (setStep e 0 (setSwap e none s)))
      raise 0xB007 3 none (unitId 6 e) 0 s
    else s
  | none => s

def execSwapResume (e : EngineId) (t : Time) (s : State) : Host.Outcome State Fault Refusal :=
  .next (lanesBack (swapResume e.val (atTime t s)))

/-- SWAP_ABANDON: a spare that is not locked by 6.0 ms is marked failed and the colour stays on the faded laser, with an Error event;
a dead laser then leaves its colour without a working laser (R315, R320). -/
def swapAbandon (e : Nat) (s : State) : State :=
  match (engine s e).swap with
  | some w =>
    bif Nat.ble (swapStep s e) 2 && !w.locked && Nat.ble (w.began + 6000000) s.time then
      let s := raise 0xB008 1 none (unitId 6 e) 0 (setFld .optLsr e w.laser 29 28 1 (setStep e 0 (setSwap e none s)))
      bif w.dead then noLaser e w.laser s else s
    else s
  | none => s

def execSwapAbandon (e : EngineId) (t : Time) (s : State) : Host.Outcome State Fault Refusal :=
  .next (swapAbandon e.val (atTime t s))

/-- The engine core stops: before the switch step the spare is turned off, the colour returns to service on the faded laser, and the
fade is declared again after the restart (Table 9.7). -/
def engineCoreStops (e : Nat) (s : State) : State :=
  match (engine s e).swap with
  | some w =>
    bif Nat.ble (swapStep s e) 3 then
      let s := setFld .optLsr e w.laser 29 29 0 (setStep e 0 (moveLanes e w.laser 3 2 s))
      modEngine e (fun x => { x with swap := none, redo := x.redo ++ [(w.laser, w.dead)] }) s
    else s
  | none => s

/-- LASER_EN falls: every laser goes dark and the swap is abandoned, its spare not failed (R311, Table 9.7). -/
def lasersDark (e : Nat) (s : State) : State :=
  let s := match (engine s e).swap with
    | some w => setFld .optLsr e w.laser 29 29 0 (setStep e 0 s)
    | none => s
  let s := (List.range (engineLanes e)).foldl (fun s l =>
    let st := laneState s e 0 l
    bif laneLive st then setLane e 0 l 0 s else s) s
  modEngine e (fun x => { x with swap := none, lit := false, cal := none }) s

/-! ## Calibration (R322, R323) -/

/-- Whether a colour of an engine may be calibrated now: on a host engine only while its port is down (R323). -/
def mayCalibrate (s : State) (e k : Nat) : Bool := !(isHostEngine e) || !(flag s .hstPstat (lanePort e k) 0 31)

/-- CALIBRATION_DUE: a full calibration is due at start-up, every CALPER hours of operation, or early (R322). Host lanes are
calibrated only at start-up and while their port is down (R323). -/
def calibrationDue (e : Nat) (why : CalReason) (s : State) : State :=
  let x := engine s e
  let per := fld s .optCal e 0 15 8
  let due := match why with
    | .period => !(per == 0) && Nat.ble (x.calAt + per * 3600000000000) s.time
    | _ => true
  bif due && engineCore s e && x.lit then
    modEngine e (fun x => { x with calTodo := (List.range (laserCount e)).filter (mayCalibrate s e) }) s
  else s

def execCalibrationDue (e : EngineId) (why : CalReason) (t : Time) (s : State) : Host.Outcome State Fault Refusal :=
  .next (calibrationDue e.val why (atTime t s))

/-- A fenced lane may return: it becomes Recovering and down, to retrain (R309, Table 16.1). An unused lane stays as it is (R310, R320). -/
def laneReturn (e d l : Nat) (s : State) : State :=
  bif unitState s 5 (laneUnit e d l) == .fenced && isUp s 6 e && !(laneState s e d l == 8) then
    setLane e d l 0 (setUnit 5 (laneUnit e d l) .recovering 0 s)
  else s

/-- CALIBRATION_WINDOW: the window of colour `k` begins, with its lanes quiesced, or ends after 0.5 ms: its lanes return to service,
fenced ones may retrain, and with the last colour the full calibration is done. A colour under a swap is deferred (R323, R309,
Table 9.7). -/
def calWindow (e k : Nat) (s : State) : State :=
  let x := engine s e
  match x.cal with
  | none =>
    let held := match x.swap with | some w => w.laser == k | none => false
    bif x.calTodo.contains k && !held && engineCore s e && x.lit && mayCalibrate s e k then
      modEngine e (fun x => { x with cal := some (k, s.time) }) (moveLanes e k 7 4 (moveLanes e k 2 4 s))
    else s
  | some (j, t0) =>
    bif j == k && Nat.ble (t0 + 500000) s.time then
      let s := (laserLanes e k).foldl (fun s l =>
        bif laneState s e 0 l == 4 then setLane e 0 l (serviceState s e l) s else s) s
      let s := (laserLanes e k).foldl (fun s l => laneReturn e 1 l (laneReturn e 0 l s)) s
      let todo := x.calTodo.filter (· != k)
      let s := modEngine e (fun x => { x with cal := none, calTodo := todo }) s
      bif todo.isEmpty then setFld .optCal e 0 7 0 0 (modEngine e (fun x => { x with calAt := s.time }) s) else s
    else s

def execCalibrationWindow (e : EngineId) (k : Fin 16) (t : Time) (s : State) : Host.Outcome State Fault Refusal :=
  .next (lanesBack (calWindow e.val k.val (atTime t s)))

/-- OPT_CAL.AGE: hours since the last full calibration (Table 9.9). -/
def calAge (s : State) (e : Nat) : Nat := satTo 255 ((s.time - (engine s e).calAt) / 3600000000000)

/-! ## What writes of OPT registers do -/

/-- CALNOW starts a full calibration of an engine other than a host engine (Table 9.9, R323). -/
def calNow (e : Nat) (s : State) : State :=
  bif isHostEngine e then s else modEngine e (fun x => { x with calTodo := List.range 16 }) s

/-- PARK changed (R324): the lanes of a fabric or memory engine are parked behind park markers, or retrain. -/
def parkEngine (e : Nat) (on : Bool) (s : State) : State :=
  let each := fun (f : Nat → Nat → State → State) (s : State) =>
    (List.range 2).foldl (fun s d => (List.range (engineLanes e)).foldl (fun s l => f d l s) s) s
  bif on then
    each (fun d l s => bif Nat.ble (laneState s e d l) 4 || laneState s e d l == 7 then setLane e d l 5 s else s) (emit (.park e) s)
  else
    each (fun d l s => bif laneState s e d l == 5 then
      (bif laneBarred s e then setLane e d l 0 s else modLane e d l (fun a => { a with since := s.time }) (setLane e d l 1 s)) else s) s

/-- A write of OPT_CTL takes effect: PARK is ignored on a host engine. -/
def optCtlWritten (e old value : Nat) (s : State) : State :=
  let s := bif bit value 1 then calNow e s else s
  bif isHostEngine e then setFld .optCtl e 0 2 2 0 s
  else bif bit value 2 == bit old 2 then s else parkEngine e (bit value 2) s

/-- A write of OPT_SWAP takes effect: REQ swaps laser K as if declared faded, UNFENCE clears the fence of a lane (R309, R314). -/
def optSwapWritten (e value : Nat) (s : State) : State :=
  let k := bits value 23 20
  let l := bits value 29 24
  let s := bif bit value 31 && Nat.blt k (laserCount e) && (engine s e).lit then declareFade e k false s else s
  bif bit value 30 && Nat.blt l (engineLanes e) then laneReturn e (bits value 7 7) l s else s

/-! ## Shutters (R325) -/

/-- Whether a receive fibre has light on a colour. -/
def fibreLit (s : State) (e f : Nat) : Bool := (List.range 16).any fun k => laneLive (laneState s e 1 (16 * f + k))

/-- FIBRE_OPEN_DETECT: an open fibre's shutter closes, and its lanes are down. A memory fibre is open only when every colour of its paired
receive fibre is lost (R325). -/
def fibreOpen (e f : Nat) (s : State) : State :=
  bif isHostEngine e || (engine s e).opened.contains f || (engineRole s e == 2 && fibreLit s e f) then s
  else
    (List.range 16).foldl (fun s k => laneDown e 0 (16 * f + k) s) (modEngine e (fun x => { x with opened := f :: x.opened }) s)

def execFibreOpenDetect (e : EngineId) (f : Fin 4) (s : State) : Host.Outcome State Fault Refusal := .next (fibreOpen e.val f.val s)

/-- SHUTTER_PROBE: a probe that finds the light again opens the shutter; the lanes then retrain. A fenced engine keeps its shutters closed
(R326). -/
def shutterProbe (e f : Nat) (found : Bool) (s : State) : State :=
  bif found && isUp s 6 e then modEngine e (fun x => { x with opened := x.opened.filter (· != f) }) s else s

def execShutterProbe (e : EngineId) (f : Fin 4) (found : Bool) (s : State) : Host.Outcome State Fault Refusal :=
  .next (shutterProbe e.val f.val found s)

end Sys2Proof.Machine
end

