-- ==== Sys2Proof/Machine/Power.lean ====
section
/-! DEFINITION. Power, temperature and ageing (chapter 15): the work clock (R470), the current ladder (R471 to R476), bands (R477), package
power (R469), the margin plan (R479 to R483) and calibration overlays (R484 to R487). -/

namespace Sys2Proof.Machine

/-! ## Sectors -/

def sector (s : State) (k : Nat) : Sector := tget s.sectors k Sector.reset
def modSector (k : Nat) (f : Sector → Sector) (s : State) : State := { s with sectors := tset s.sectors k (f (sector s k)) }
/-- Sectors 0 to 23 are compute sectors. -/
def isCompute (k : Nat) : Bool := Nat.blt k 24
def ladder (s : State) (k : Nat) : Nat := fld s .pwrSect k 0 31 28
def band (s : State) (k : Nat) : Nat := fld s .thmSect k 0 23 21
/-- The Warden of a sector's die: 5 to 8 for C0 to C3, 9 and 10 for H0 and H1 (Table 14.1). -/
def wardenOf (k : Nat) : Nat := bif isCompute k then 5 + k / 6 else 9 + (k - 24) / 4

/-- A signed field. -/
def sfld (s : State) (r : Reg) (i h l : Nat) : Int := signed (h + 1 - l) (fld s r i 0 h l)

/-! ## The work clock (R470, R486) -/

def bandFmax (b : Nat) : Nat := bif Nat.ble 4 b then 64 else bif b == 3 then 72 else 76
/-- The voltage guard of a band, mV (Table 15.4). -/
def bandGuard (b : Nat) : Nat := match b with | 0 => 20 | 1 => 10 | 2 => 15 | 3 => 25 | _ => 35
/-- A sector's voltage at a frequency in a band, 0.1 mV: factory value, overlay, plan and guard. -/
def voltAt (s : State) (k f b : Nat) : Int :=
  let x := sector s k
  (Config.factoryVolt k f : Int) + 25 * x.ovV + ((10 * (x.guard + bandGuard b) : Nat) : Int)
/-- The largest frequency not above `f` whose voltage does not exceed 0.95 V; 0.80 GHz when there is none. -/
def withinVolt (s : State) (k b : Nat) : Nat → Nat
  | 0 => 32
  | n + 1 => bif Nat.ble (n + 1) 32 then 32 else bif decide (voltAt s k (n + 1) b ≤ 9500) then n + 1 else withinVolt s k b n
/-- fmax_sector after overlay and plan. -/
def fmaxSector (s : State) (k : Nat) : Nat :=
  let x := sector s k
  withinVolt s k (band s k) (Config.factoryFmax k - x.ovF - x.down)

/-- The rail in steps of 2.5 mV above 0.55 V, at least the voltage asked for, and at most 0.95 V. -/
def voltCode (v : Int) : Nat := Nat.min 160 ((v - 5500 + 24).toNat / 25)

/-- A work-clock target as taken: 32 to 76. -/
def clampFtgt (n : Nat) : Nat := Nat.max 32 (Nat.min 76 n)

/-- WORK_CLOCK_UPDATE: a compute sector sets its clock, gate and voltage. A target written while the Warden restarts waits for it
(Table 15.3). -/
def workClock (k : Nat) (s : State) : State :=
  bif !s.clocksOn || (sector s k).regOff then s
  else
    let s := bif coreRuns s (wardenOf k) then modSector k (fun x => { x with ftgt := clampFtgt (fld s .pwrCtl 0 0 6 0) }) s else s
    let b := band s k
    let base := Nat.min (sector s k).ftgt (Nat.min (fmaxSector s k) (bandFmax b))
    let cap := base * (300 - 13 * ladder s k)
    let f := Nat.max 32 (cap / 300)
    let gate := bif Nat.blt cap (32 * 300) then (16 * cap + 9599) / 9600 else 16
    setFld .pwrSect k 0 27 20 f (setFld .pwrSect k 0 19 12 (voltCode (voltAt s k f b)) (modSector k (fun x => { x with gate := gate }) s))

def execWorkClockUpdate (sector : Fin 24) (t : Time) (s : State) : Host.Outcome State Fault Refusal :=
  .next (workClock sector.val (atTime t s))

/-! ## The ladder (R471 to R476) -/

/-- A sector's current limit in thirtieths of a hundredth of ICEIL: amps × 300 are compared with ICEIL × (300 − 13 step). -/
def overCurrent (k step amps : Nat) : Bool := Nat.blt (Config.iceil k * (300 - 13 * step)) (amps * 300)

/-- A sector's ladder is set; leaving step 15 ends a power emergency. -/
def setLadder (k step : Nat) (s : State) : State :=
  let s' := setFld .pwrSect k 0 31 28 step s
  bif ladder s k == 15 && !(step == 15) then emergEnds s' else s'

/-- A cut to a step (R475, R476): it is counted, and clear restarts. -/
def cutTo (k step : Nat) (s : State) : State :=
  setLadder k step (bumpFld .pwrScnt k 0 31 16 1 (modSector k (fun x => { x with clear := 0 }) s))
/-- Every compute sector goes to step 15. -/
def cutCompute (s : State) : State := (List.range 24).foldl (fun s k => cutTo k 15 s) s

/-- Whether a sector is over (R472). -/
def sectorOver (s : State) (k amps : Nat) : Bool :=
  overCurrent k (ladder s k) amps || band s k == 4 || (isCompute k && (s.pkgOver || s.feedOver))

/-- LADDER_STEP: every 20 µs (R473); while PWR_BRAKE_N is asserted a compute sector does not step up (R476). Control-clock logic keeps it
running in a fenced sector, whose regulator may be off (R27). -/
def ladderStep (k amps : Nat) (s : State) : State :=
  let x := sector s k
  let s := setFld .pwrSect k 0 11 0 (satTo 4095 amps) s
  let step := ladder s k
  bif sectorOver s k amps then
    let s := bif Nat.blt step 15 then bumpFld .pwrScnt k 0 15 0 1 (setLadder k (step + 1) s) else s
    modSector k (fun x => { x with clear := 0 }) s
  else bif x.warn then modSector k (fun x => { x with clear := 0 }) s
  else
    let clear := x.clear + 20000
    bif Nat.ble 2000000 clear && Nat.blt 0 step && !(isCompute k && flag s .pwrEmerg 0 0 3) then
      setLadder k (step - 1) (modSector k (fun x => { x with clear := 0 }) s)
    else modSector k (fun x => { x with clear := clear }) s

def execLadderStep (sector : SectorId) (amps : Nat) (t : Time) (s : State) : Host.Outcome State Fault Refusal :=
  .next (ladderStep sector.val amps (atTime t s))

/-- Thresholds of THM_CTL as clamped (Table 15.10), in 0.5 °C/ms and °C. -/
def rateCut (s : State) : Nat := Nat.max 8 (Nat.min 20 (fld s .thmCtl 0 0 15 8))
def rateWarn (s : State) : Nat := Nat.max 2 (Nat.min (rateCut s) (fld s .thmCtl 0 0 7 0))
def hotCut (s : State) : Nat := Nat.max 90 (Nat.min 110 (fld s .thmCtl 0 0 23 16))

def sumInt (l : List Int) : Int := l.foldl (· + ·) 0
/-- The rise between the means of two groups of eight samples 200 µs apart, times 8, in 0.1 °C (R474). -/
def riseOf (l : List Int) : Int := bif Nat.ble 48 l.length then sumInt (l.take 8) - sumInt ((l.drop 40).take 8) else 0

/-! The entries of an overlay (Table 15.7). -/

def ovCount (bs : List Byte) : Nat := leAt bs 8 2
def ovKind (bs : List Byte) (n : Nat) : Nat := leAt bs (32 + 8 * n) 1
def ovIndex (bs : List Byte) (n : Nat) : Nat := leAt bs (33 + 8 * n) 2
def ovValue (bs : List Byte) (n : Nat) : Int := signed 32 (leAt bs (36 + 8 * n) 4)
/-- The value that an overlay gives an item; 0 when it has none. -/
def ovItem (o : Option (List Byte)) (kind index : Nat) : Int :=
  match o with
  | none => 0
  | some bs =>
    match (List.range (ovCount bs)).find? (fun n => ovKind bs n == kind && ovIndex bs n == index) with
    | some n => ovValue bs n
    | none => 0

/-- How many thermal sensors a sector has (Table 15.8). -/
def sensorCount (k : Nat) : Nat := bif isCompute k then 4 else 2
/-- The highest of some readings. -/
def maxInt : List Int → Int
  | [] => 0
  | [v] => v
  | v :: l => max v (maxInt l)
/-- A sector's temperature: the highest of its sensors' readings, each with the offset that the overlay in force gives it (R17, Table
15.8, KIND 3). -/
def hottest (s : State) (k : Nat) (sensors : List Int) : Int :=
  maxInt ((sensors.take (sensorCount k)).zipIdx.map fun v => v.1 + ovItem s.overlay 3 (4 * k + v.2))

/-- The sector's temperature, band and peak (R17, R477). -/
def sectorTemp (k : Nat) (temp : Int) (s : State) : State :=
  let c := temp / 10
  let old := band s k
  -- thresholds in 0.1 °C: the band rises at and above a whole degree, and falls below one
  let new := bandAt old c
  let s := setFld .thmSect k 0 31 24 (unsign 8 c) s
  let s := bif decide (sfld s .thmSect k 7 0 < c) then setFld .thmSect k 0 7 0 (unsign 8 c) s else s
  bif new == old then s
  else
    let s := setFld .thmSect k 0 23 21 new (modSector k (fun x => { x with bandAt := some s.time }) s)
    bif old == 4 then emergEnds s else s

/-- A rate-of-rise cut (R475). -/
def rateCutNow (k : Nat) (s : State) : State :=
  let s := cutTo k (Nat.min 15 (ladder s k + 2)) s
  modSector k (fun x => { x with cutAt := some s.time }) { s with cutAt := some s.time }

/-- A sector temperature (0.1 °C): band, HOTCUT, rate of rise, warning and cuts (R474 to R477). -/
def tempSample (k : Nat) (temp : Int) (s : State) : State :=
  let s := sectorTemp k temp (modSector k (fun x => { x with samples := (temp :: x.samples).take 48 }) s)
  let x := sector s k
  let rise := riseOf x.samples
  let s := setFld .thmSect k 0 20 8 (unsign 13 (rise * 5 / 8)) s
  let hot := decide (((10 * hotCut s : Nat) : Int) ≤ temp)
  let s := bif hot && !x.hot then raise 0xA002 1 none (unitId 3 k) 0 (cutTo k 15 s) else s
  let warn := decide (((8 * rateWarn s : Nat) : Int) ≤ rise)
  let s := bif warn && !x.warn then raise 0xA001 2 none (unitId 3 k) 0 s else s
  let cut := decide (((8 * rateCut s : Nat) : Int) ≤ rise)
  let due := match x.cutAt with | some t0 => Nat.ble (t0 + 200000) s.time | none => true
  let s := modSector k (fun x => { x with hot := hot, warn := warn, cutAt := bif cut then x.cutAt else none }) s
  bif cut && due then rateCutNow k s else s

/-- RATE_EVALUATE: every 5 µs the sector's sensors are sampled, which keep running when the sector is fenced (R27). -/
def rateEvaluate (k : Nat) (sensors : List Int) (s : State) : State := tempSample k (hottest s k sensors) s

def execRateEvaluate (sector : SectorId) (sensors : List Int) (t : Time) (s : State) : Host.Outcome State Fault Refusal :=
  .next (rateEvaluate sector.val sensors (atTime t s))

/-- PWR_BRAKE: PWR_BRAKE_N changes, held for 1 µs (R476, R541). -/
def pwrBrake (low : Bool) (s : State) : State :=
  let s := setFld .pwrEmerg 0 0 3 3 (b01 low) s
  bif low then cutCompute s else s

def execPwrBrake (low : Bool) (t : Time) (s : State) : Host.Outcome State Fault Refusal := .next (pwrBrake low (atTime t s))

/-- CONVERTER_FAULT: PMB_ALERT_N low acts once Steward core 3 confirms the fault, or at once while that core does not run (R476,
R541). -/
def converterFault (active confirmed : Bool) (s : State) : State :=
  let was := flag s .pwrEmerg 0 0 2
  bif active then
    bif confirmed || !(dutyRuns s 4) then
      let s := setFld .pwrEmerg 0 0 2 2 1 s
      bif was then s else raise 0xA003 1 none 0 0 (cutCompute s)
    else s
  else bif was then emergEnds (setFld .pwrEmerg 0 0 2 2 0 s) else s

def execConverterFault (active confirmed : Bool) (t : Time) (s : State) : Host.Outcome State Fault Refusal :=
  .next (converterFault active confirmed (atTime t s))

/-- REGULATOR_FAULT: the sector is fenced and its regulator goes off (R468). -/
def regulatorFault (k : Nat) (s : State) : State :=
  let s := fenceCause 3 k 0x030A s
  setFld .pwrSect k 0 27 0 0 (modSector k (fun x => { x with regOff := true }) s)

def execRegulatorFault (sector : SectorId) (t : Time) (s : State) : Host.Outcome State Fault Refusal :=
  .next (regulatorFault sector.val (atTime t s))

/-! ## Package power (R466, R469, R472) -/

/-- The effective TDP, W: each field clamped to 1,600 to 2,800. -/
def clampTdp (n : Nat) : Nat := Nat.max 1600 (Nat.min 2800 n)
def effTdp (s : State) : Nat := Nat.min (clampTdp (fld s .pwrTdp 0 0 11 0)) (clampTdp (fld s .pwrTdp 0 0 27 16))

/-- The powers of Table 18.4 for converters that did not answer, mW: VHBMC, VHBMQ, VHBMP, VAUX. -/
def railDefault : List Nat := [252000, 82500, 45000, 19800]

/-- What a rail counts for: a converter that answered gives its last reading, held while Steward core 3 restarts. -/
def railPower (s : State) (new : List (Option Nat)) (n : Nat) : Nat :=
  let dflt := (railDefault[n]?).getD 0
  bif (s.convs[n + 1]?).getD false then
    match bif dutyRuns s 4 then (new[n]?).getD none else none with
    | some v => v
    | none => (s.rails[n]?).getD dflt
  else dflt

/-- PACKAGE_POWER_SAMPLE: the sector regulators' input power and the rails (mW); the running mean of 1 ms against the TDP. -/
def packagePower (mw : Nat) (new : List (Option Nat)) (s : State) : State :=
  let rails := (List.range 4).map (railPower s new)
  let pkg := ((mw + sumNat rails) :: s.pkg).take 10
  let mean := sumNat pkg / pkg.length
  let s := { s with pkg := pkg, rails := rails,
                    pkgOver := (bif s.pkgOver then Nat.ble (980 * effTdp s) mean else Nat.blt (1000 * effTdp s) mean) }
  let w := satTo 65535 (mean / 1000)
  let s := setFld .pwrPkg 0 0 15 0 w s
  setFld .pwrPkg 0 0 31 16 (Nat.max w (fld s .pwrPkg 0 0 31 16)) s

def execPackagePowerSample (sectorMw : Nat) (rails : List (Option Nat)) (t : Time) (s : State) : Host.Outcome State Fault Refusal :=
  .next (packagePower sectorMw rails (atTime t s))

/-- The VFEED setpoint: factory value, overlay offset and the plan's choice, within 1.70 to 1.85 V (R466). -/
def feedSetpoint (s : State) (ov : Int) : Nat :=
  (max 1700 (min 1850 ((Config.factoryFeed : Int) + 5 * ov + s.planFeed))).toNat

/-- AVSBUS_READBACK: the VFEED current against IMAX; no reading comes while Steward core 3 does not run. -/
def avsReadback (amps : Nat) (s : State) : State :=
  bif dutyRuns s 4 then { s with feedOver := Nat.blt (fld s .pwrFeed 0 0 31 16) amps } else s

def execAvsbusReadback (_mv amps : Nat) (t : Time) (s : State) : Host.Outcome State Fault Refusal := .next (avsReadback amps (atTime t s))

/-! ## Overlays (R484 to R487) -/

/-- Tap `k` of a lane in a band under an overlay (Table 9.2). -/
def laneTap (o : Option (List Byte)) (e lane b k : Nat) : Int :=
  Config.factoryTap e lane b k + ovItem o 4 (e * 1024 + lane * 15 + b * 3 + k)
/-- The limits of three taps (R301). -/
def tapsWithin (cm c0 cp : Int) : Bool :=
  decide (-4 ≤ cm) && decide (cm ≤ 0) && decide (8 ≤ c0) && decide (c0 ≤ 15) && decide (-4 ≤ cp) && decide (cp ≤ 0) && decide (c0 - cm - cp ≤ 15)
/-- The DAC code for the next, the present and the last symbol (R301). -/
def dacCode (cm c0 cp next now last : Int) : Int := 8 * (16 + cm * next + c0 * now + cp * last)
/-- The DAC code that drives a transmit lane, with the waveform set of the band it has taken up (R302). -/
def laneDac (s : State) (e l : Nat) (next now last : Int) : Int :=
  let b := fld s .optTxl e l 7 4
  dacCode (laneTap s.overlay e l b 0) (laneTap s.overlay e l b 1) (laneTap s.overlay e l b 2) next now last
/-- The taps of a lane in a band stay within R301. -/
def tapsOk (bs : List Byte) (index : Nat) : Bool :=
  let e := index / 1024
  let lane := index % 1024 / 15
  let b := index % 1024 % 15 / 3
  tapsWithin (laneTap (some bs) e lane b 0) (laneTap (some bs) e lane b 1) (laneTap (some bs) e lane b 2)

/-- Whether an entry's kind and index exist and its value is within bounds (Table 15.8). -/
def ovEntryOk (bs : List Byte) (n : Nat) : Bool :=
  let i := ovIndex bs n
  let v := ovValue bs n
  let within := fun (a b : Int) => decide (a ≤ v) && decide (v ≤ b)
  leAt bs (35 + 8 * n) 1 == 0 && match ovKind bs n with
  | 1 => Nat.blt i 32 && within (-4) 12
  | 2 => Nat.blt i 24 && within 0 44
  | 3 => Nat.blt i 128 && (Nat.blt i 96 || Nat.blt (i % 4) 2) && within (-10) 10
  | 4 => Nat.blt (i / 1024) 10 && Nat.blt (i % 1024) 960 && within (-2) 2 && tapsOk bs i
  | 5 => i == 0 && within (-5) 5
  | 6 => Nat.blt i 12 && within 0 2
  | _ => false

/-- The check of an overlay (R485): RESULT 0, 4 or 5, and the first failing entry. -/
def overlayCheck (bs : List Byte) : Nat × Nat :=
  let n := ovCount bs
  let head := leAt bs 0 4 == 0x4C414344 && Nat.ble n 4096 && leAt bs 10 2 == 0 && (sliceBytes bs 16 16).all (· == 0)
    && bs.length == 32 + 8 * n && leAt bs 12 4 == crc32c (bs.drop 32)
  let bad := fun (k : Nat) => !(ovEntryOk bs k)
    || (List.range k).any fun j => ovKind bs j == ovKind bs k && ovIndex bs j == ovIndex bs k
  bif !head then (4, 0)
  else match (List.range n).find? bad with
    | some k => (5, k)
    | none => (0, 0)

def ovVersion (bs : List Byte) : Nat := leAt bs 4 4
/-- The newest valid stored copy. -/
def newestOverlay (f : Flash) : Option (List Byte) :=
  let ok := fun (o : Option (List Byte)) => match o with | some bs => bif (overlayCheck bs).1 == 0 then some bs else none | none => none
  match ok f.cal0, ok f.cal1 with
  | some a, some b => some (bif Nat.blt (ovVersion a) (ovVersion b) then b else a)
  | some a, none => some a
  | none, b => b

/-- Whether a change of a sector's overlay applies at once: more voltage, less fmax (R486). -/
def ovSector (s : State) (k : Nat) : Int × Nat := (ovItem s.overlay 1 k, (ovItem s.overlay 2 k).toNat)

/-- The refresh rates in force take a new minimum. -/
def setMinRefresh (m r : Nat) (s : State) : State :=
  let s := { s with minRefresh := tset s.minRefresh m r }
  let rate := bif memoryCoreRuns s m then Nat.max (tget s.refBand m 0) r else 2
  setFld .memStat m 0 17 16 rate s

/-- Whether a sector is at a quiet point (R482). -/
def quiet (s : State) (k : Nat) : Bool :=
  let x := sector s k
  let past := fun (o : Option Time) (d : Nat) => match o with | some t0 => Nat.ble (t0 + d) s.time | none => true
  ladder s k == 0 && !x.warn && past x.bandAt 100000000 && past x.alarmAt 1000000000 && coreRuns s (wardenOf k)

/-- The overlay's items of a sector, where they apply now: raises and reductions at once, the rest at a quiet point. -/
def applyOverlay (k : Nat) (s : State) : State :=
  let x := sector s k
  let o := ovSector s k
  bif (o.1 == x.ovV && o.2 == x.ovF) then s
  else bif decide (x.ovV < o.1) || Nat.blt x.ovF o.2 || quiet s k then modSector k (fun x => { x with ovV := o.1, ovF := o.2 }) s
  else s

/-- The VFEED setpoint follows when every compute sector is at a quiet point (R482); it does not change when its converter did not
answer (Table 18.4). -/
def applyFeed (s : State) : State :=
  bif (List.range 24).all (quiet s) && (s.convs[0]?).getD true then
    let s := match s.shadow with
      | some p => (match p.vfeed with
        | some v => { s with planFeed := v, shadow := some { p with vfeed := none } }
        | none => s)
      | none => s
    setFld .pwrFeed 0 0 11 0 (feedSetpoint s (ovItem s.overlay 5 0)) s
  else s

/-- PENDING and ENDMARGIN of AGE_STAT: sectors with a plan entry or an overlay change not yet applied, and compute sectors whose fmax the plan
lowers. -/
def showPlan (s : State) : State :=
  let todo := fun (k : Nat) => (match s.shadow with | some p => (tget? p.todo k).isSome | none => false)
    || !((ovSector s k).1 == (sector s k).ovV && (ovSector s k).2 == (sector s k).ovF)
  setFld .ageStat 0 0 7 0 ((List.range 24).filter fun k => Nat.blt 0 (sector s k).down).length
    (setFld .ageStat 0 0 15 8 ((List.range 32).filter todo).length s)

/-- An overlay, or none, is put in force (R486, R487); MR9 is extended by the caller. -/
def overlayInForce (o : Option (List Byte)) (s : State) : State :=
  let s := { s with overlay := o }
  let s := (List.range 32).foldl (fun s k => applyOverlay k s) s
  let s := (List.range 12).foldl (fun s m => setMinRefresh m (Nat.max (tget s.planRefresh m 0) (ovItem o 6 m).toNat) s) s
  let s := setFld .calStat 0 0 26 26 (b01 o.isSome) s
  showPlan (applyFeed (setFld .calStat 0 0 12 0 (match o with | some bs => ovVersion bs | none => 0) s))

/-! ## The margin plan (R479 to R483) -/

/-- AGE_CTL.PERIOD in ns; 0 is treated as 24 hours. -/
def planPeriod (s : State) : Nat := (let p := fld s .ageCtl 0 0 15 8; bif p == 0 then 24 else p) * 3600000000000

/-- MARGIN_PLAN_COMPUTE: at boot, every PERIOD hours, or when asked for, a shadow plan replaces the one before it. Minimum refresh rates
apply at the stacks' next refresh command. Lasers whose BIASMAX and engines whose heater reach are projected within 30 days give a Warning
each (Table 15.6). The first plan after reset starts the work clocks (Table 18.7). -/
def planCompute (entries : List PlanEntry) (refresh : List Nat) (vfeed : Int) (lasers : List (Nat × Nat)) (heaters : List Nat) (s : State) :
    State :=
  let due := match s.planAt with | some t0 => s.planNow || Nat.ble (t0 + planPeriod s) s.time | none => true
  bif !due then s
  else
    let todo := (List.range 24).filterMap fun k => (entries[k]?).map fun e => (k, e)
    let s := todo.foldl (fun s e => setFld .ageSect e.1 0 15 8 (satTo 255 e.2.slack) s) s
    let s := (List.range 12).foldl (fun (s : State) m =>
      let r := Nat.min 2 ((refresh[m]?).getD 0)
      setMinRefresh m (Nat.max r (ovItem s.overlay 6 m).toNat) { s with planRefresh := tset s.planRefresh m r }) s
    let s := { s with shadow := some ⟨todo, some vfeed⟩, planAt := some s.time, planNow := false, clocksOn := true }
    let s := lasers.foldl (fun s x => raise (Config.eventCode 4) 2 none (unitId 6 x.1) (BitVec.ofNat 64 x.2) s) s
    let s := heaters.foldl (fun s e => raise (Config.eventCode 5) 2 none (unitId 6 e) 0 s) s
    showPlan (bumpFld .ageStat 0 0 31 16 1 s)

def execMarginPlanCompute (entries : List PlanEntry) (refresh : List Nat) (vfeed : Int) (lasers : List (Nat × Nat)) (heaters : List Nat)
    (t : Time) (s : State) : Host.Outcome State Fault Refusal := .next (planCompute entries refresh vfeed lasers heaters (atTime t s))

/-- PLAN_APPLY: a sector takes its entry of the shadow plan, at once or at its quiet point; a first reduction of fmax raises an Error event
(R482, R483). -/
def planApply (k : Nat) (s : State) : State :=
  let s := applyOverlay k s
  let s := match s.shadow with
    | none => s
    | some p =>
      match tget? p.todo k with
      | none => s
      | some e =>
        let x := sector s k
        let g := Nat.min 50 e.guardMv
        bif Nat.blt x.guard g || Nat.blt x.down e.fmaxDown || quiet s k then
          let s := { s with shadow := some { p with todo := terase p.todo k } }
          let s := modSector k (fun x => { x with guard := g, down := e.fmaxDown }) s
          bif x.down == 0 && Nat.blt 0 e.fmaxDown then raise 0xA005 1 none (unitId 3 k) 0 s else s
        else s
  showPlan (applyFeed s)

def execPlanApply (sector : SectorId) (t : Time) (s : State) : Host.Outcome State Fault Refusal := .next (planApply sector.val (atTime t s))

/-- PATH_MONITOR_ALARM: slack below 3% (0.1% units) drops the clock by 100 MHz, not below 0.80 GHz (R30); the Warden raises the plan guard by 10 mV (R480). -/
def pathAlarm (k slack : Nat) (s : State) : State :=
  bif Nat.ble 30 slack then s
  else
    let f := fld s .pwrSect k 0 27 20
    let s := setFld .pwrSect k 0 27 20 (bif (sector s k).regOff then f else Nat.max 32 (f - 4)) (modSector k (fun x => { x with alarmAt := some s.time }) s)
    let s := bif coreRuns s (wardenOf k) then modSector k (fun x => { x with guard := Nat.min 50 (x.guard + 10) }) s else s
    raise 0xA004 2 none (unitId 3 k) 0 (bumpFld .ageSect k 0 7 0 1 s)

def execPathMonitorAlarm (sector : Fin 24) (slack : Nat) (t : Time) (s : State) : Host.Outcome State Fault Refusal :=
  .next (pathAlarm sector.val slack (atTime t s))

/-! ## Emergencies (Table 14.7) -/

def powerEmergency (s : State) : Bool :=
  (List.range 32).any (fun k => ladder s k == 15) || flag s .pwrEmerg 0 0 2
    || (match s.cutAt with | some t0 => Nat.blt s.time (t0 + 2000000) | none => false)
def thermalEmergency (s : State) : Bool :=
  (List.range 32).any (fun k => band s k == 4) || (List.range 12).any (fun m => flag s .memStat m 0 1)
    || s.engines.any fun e => e.2.hot
/-- Whether a fabric link that has a lane in service, or that is expected to, has no up lane. -/
def linkDown (s : State) (k : Nat) : Bool :=
  !(linkUp s k) && (linkLanes s k).any fun x => !(laneState s x.1 0 x.2 == 8) && !(s.absent.contains (x.1 * 64 + x.2))
def fabricEmergency (s : State) : Bool :=
  draining s || (List.range 12).any (fun e => !(swapStep s e == 0)) || (stageLinks s 0 ++ stageLinks s 1).any (linkDown s)
def emergency (s : State) : Bool := powerEmergency s || thermalEmergency s || fabricEmergency s
/-- No emergency is active, and the last one cleared at least 100 ms ago (R456). -/
def calm (s : State) : Bool :=
  !(emergency s) && (match s.emergAt with | some t0 => Nat.ble (t0 + 100000000) s.time | none => true)
    && (match s.cutAt with | some t0 => Nat.ble (t0 + 102000000) s.time | none => true)

/-! ## What registers show -/

/-- PWR_EMERG.CUT and FLOOR. -/
def emergBits (s : State) : Nat :=
  b01 ((List.range 32).any fun k => ladder s k == 15)
    + 2 * b01 (match s.cutAt with | some t0 => Nat.blt s.time (t0 + 2000000) | none => false)
/-- AGE_SECT.GUARD and FMAX. -/
def ageGuard (s : State) (k : Nat) : Nat := satTo 255 (sector s k).guard
def ageFmax (s : State) (k : Nat) : Nat := bif isCompute k then satTo 255 (fmaxSector s k) else 0
/-- AGE_HOURS: the hours kept in flash and those since reset. -/
def ageHours (s : State) : Nat := s.flash.hours + s.time / 3600000000000
/-- THM_CTL as clamped when written (Table 15.10), from the value written. -/
def clampThm (v : Nat) : Nat :=
  let hot := Nat.max 90 (Nat.min 110 (bits v 23 16))
  let cut := Nat.max 8 (Nat.min 20 (bits v 15 8))
  let warn := Nat.max 2 (Nat.min cut (bits v 7 0))
  bits v 31 24 * 2 ^ 24 + hot * 2 ^ 16 + cut * 2 ^ 8 + warn
/-- PWR_TDP as clamped. -/
def clampPwrTdp (v : Nat) : Nat := bits v 31 28 * 2 ^ 28 + clampTdp (bits v 27 16) * 2 ^ 16 + bits v 15 12 * 2 ^ 12 + clampTdp (bits v 11 0)
/-- PWR_CTL as clamped. -/
def clampPwrCtl (v : Nat) : Nat := v / 128 * 128 + clampFtgt (v % 128)

end Sys2Proof.Machine
end

