-- ==== Sys2Proof/Machine/Firmware.lean ====
section
/-! DEFINITION. Firmware processors (R437 to R440, Table 14.2, Table 14.8, R327): watchdogs, restarts and fences; measurement registers
(R450). -/

namespace Sys2Proof.Machine

/-! ## Measurement registers -/

/-- The SHA-384 of a byte string as a 48-byte digest, byte 0 lowest. -/
def digestOf (bs : List Byte) : BitVec 384 := BitVec.ofNat 384 (leNat (sha384 bs))
def digestBytes (d : BitVec 384) : List Byte := leBytes 48 d.toNat
/-- The digest of zero bytes, which stands for what is absent (Table 14.6, R487, R538). -/
def emptyDigest : BitVec 384 := digestOf []

def mr (s : State) (n : Nat) : BitVec 384 := tget s.mrs n 0
/-- MRn := SHA-384(MRn ∥ D); ATT_MRCNTn counts it (R450). -/
def extendMr (n : Nat) (d : BitVec 384) (s : State) : State :=
  bump .attMrcnt n 0 1 { s with mrs := tset s.mrs n (digestOf (digestBytes (mr s n) ++ digestBytes d)) }

/-! ## Restarts (R438 to R440) -/

/-- STATE of FWP_STAT: 0 running, 1 restarting, 2 fenced, 3 held in reset. -/
def procState (s : State) (i : Nat) : Nat := fld s .fwpStat i 0 31 30
/-- The image of a processor (Table 14.1), by image ID. -/
def procImage (i : Nat) : Nat :=
  bif i == 0 then 1 else bif Nat.ble i 4 then 2 else bif Nat.ble i 8 then 3 else bif Nat.ble i 10 then 4 else bif Nat.ble i 22 then 5 else 6
/-- The hub of engine `e` (Table 1.1): 9 and 10 are the Wardens of H0 and H1. -/
def engineWarden (e : Nat) : Nat := bif [0, 1, 2, 6, 8, 10].contains e then 9 else 10
/-- The Warden that restarts an engine core or a memory core (Table 14.1). -/
def wardenFor (i : Nat) : Option Nat :=
  bif Nat.ble 11 i && Nat.ble i 22 then some (engineWarden (i - 11)) else bif Nat.ble 23 i then some (5 + (i - 23) / 3) else none
/-- A core whose Warden has been fenced cannot be restarted until the next reset (Table 14.2). -/
def mayRestart (s : State) (i : Nat) : Bool := match wardenFor i with | some w => !(s.noRestart.contains w) | none => true

/-- The base die forces 4× refresh while its memory core does not run (Table 14.2). -/
def forceRefresh (m : Nat) (s : State) : State := setFld .memStat m 0 17 16 2 s
/-- The memory core takes the refresh rate over again. -/
def bandRefresh (m : Nat) (s : State) : State :=
  setFld .memStat m 0 17 16 (Nat.max (tget s.refBand m 0) (tget s.minRefresh m 0)) s

/-- Signed SPDM requests that wait are answered Busy when the boot core restarts (Table 14.2). -/
def busyAll (s : State) : State :=
  s.signQ.foldl (fun s q => emit (.spdm q.src .busy none) s) { s with signQ := [] }

/-- What stops with a processor that restarts (Table 14.2). -/
def processorHolds (i : Nat) (s : State) : State :=
  let s := pauseLeases i s
  bif i == 0 then busyAll (abortStaging s)
  else bif Nat.ble 11 i && Nat.ble i 22 then engineCoreStops (i - 11) s
  else bif Nat.ble 23 i then forceRefresh (i - 23) s
  else s

/-- A processor starts to restart: it is counted and noted. -/
def beginRestart (i : Nat) (s : State) : State :=
  let s := bumpFld .fwpStat i 0 29 25 1 (setFld .fwpStat i 0 31 30 1 s)
  processorHolds i { s with restarts := tset s.restarts i (tget s.restarts i [] ++ [s.time]) }

/-- The processor restarts alone, when it runs and can (R438). -/
def procRestart (i : Nat) (s : State) : State :=
  bif Nat.blt i 35 && coreRuns s i && mayRestart s i then beginRestart i s else s

/-- WATCHDOG_EXPIRE. -/
def execWatchdogExpire (i : Fin 35) (t : Time) (s : State) : Host.Outcome State Fault Refusal := .next (procRestart i.val (atTime t s))

/-- UNFENCE clears a fence and restarts the processor once (R440): its history is cleared. -/
def procUnfence (i : Nat) (s : State) : State :=
  bif Nat.blt i 35 && unitState s 10 i == .fenced && mayRestart s i then
    beginRestart i (setUnit 10 i .recovering 0 { s with restarts := terase s.restarts i })
  else s

/-- A write of FWP_CTL takes effect. -/
def fwpCtlWritten (v : Nat) (s : State) : State :=
  let i := bits v 5 0
  let s := bif bit v 31 then procRestart i s else s
  bif bit v 30 then procUnfence i s else s

/-- The fades declared before an engine core stopped are declared again (Table 9.7). -/
def engineCoreBack (e : Nat) (s : State) : State :=
  let todo := (engine s e).redo
  todo.foldl (fun s k => declareFade e k.1 k.2 s) (modEngine e (fun x => { x with redo := [] }) s)

/-- Restarts within the last 10 minutes. -/
def recentRestarts (s : State) (i : Nat) : Nat :=
  ((tget s.restarts i []).filter fun t => Nat.ble s.time (t + 600000000000)).length

/-- Leases pause while Steward core 0's duties stand still; each resumes with at least HBPER remaining (R423). -/
def resumeLeases (s : State) : State :=
  let since := s.stewardGone.getD s.time
  let one := fun (x : Session) =>
    let times := raw s .stwTimes x.part 0
    let per := Nat.max 1 (bits times 7 0) * 10000000
    let lease := Nat.max 1 (bits times 15 8) * per
    bif x.state == .open_ then { x with renewed := Nat.max (x.renewed + (s.time - since)) (s.time + per - lease) } else x
  bif s.stewardGone.isNone then s
  else { s with stewardGone := none, sessions := s.sessions.map fun (q : Nat × Session) => (q.1, one q.2) }

/-- The processor runs again (R439). A Steward core takes its own duties back. -/
def processorBack (i : Nat) (s : State) : State :=
  let s := setFld .fwpStat i 0 31 30 0 { s with duties := terase s.duties i }
  let s := bif unitState s 10 i == .recovering then unitUp 10 i s else s
  bif tget s.duties 1 1 == i then resumeLeases s
  else bif Nat.ble 11 i && Nat.ble i 22 then engineCoreBack (i - 11) s
  else bif Nat.ble 23 i then bandRefresh (i - 23) s
  else s

/-- Whether live activation has processor `i` in hand; it is then LIVE_ACTIVATION_STEP that ends its restart. -/
def inHand (s : State) (i : Nat) : Bool := match s.update with | some (.live (j :: _) false _) => i == j | _ => false

/-- A restart ends: three within 10 minutes fence the processor, with an Error event (R440). -/
def restartDone (i : Nat) (s : State) : State :=
  bif !(procState s i == 1) || inHand s i || !(mayRestart s i) then s
  else bif Nat.ble 3 (recentRestarts s i) then causeProcessor i 0x030C s
  else processorBack i s

/-- ENGINE_CORE_RESTART: an engine core finishes its restart; fade detection, swaps and calibration resume (R327). -/
def execEngineCoreRestart (e : EngineId) (t : Time) (s : State) : Host.Outcome State Fault Refusal :=
  .next (restartDone (11 + e.val) (atTime t s))

/-- The next Steward core that is not fenced, in index order wrapping from 4 to 1. -/
def nextSteward (s : State) (i : Nat) : Option Nat := ([1, 2, 3].map fun k => (i - 1 + k) % 4 + 1).find? fun j => isUp s 10 j

/-- STEWARD_FAILOVER: the duties that a fenced Steward core carries pass on (Table 14.2). -/
def stewardFailover (i : Nat) (s : State) : State :=
  bif Nat.ble 1 i && Nat.ble i 4 && !(isUp s 10 i) then
    match nextSteward s i with
    | some j => [1, 2, 3, 4].foldl (fun s d => bif tget s.duties d d == i then { s with duties := tset s.duties d j } else s) s
    | none => s
  else s

def execStewardFailover (i : Fin 35) (t : Time) (s : State) : Host.Outcome State Fault Refusal := .next (stewardFailover i.val (atTime t s))

end Sys2Proof.Machine
end

