-- ==== Sys2Proof/Machine/Reset.lean ====
section
/-! DEFINITION. Resets (R542 to R544, R530, R533), the thermal trip (R478), and what the registers show of flash and OTP. -/

namespace Sys2Proof.Machine

/-! ## Boot record, banks and OTP -/

/-- The boot record in force and whether it is copy 1: the valid copy with the higher sequence number (R442); with no valid copy, bank A,
sequence 0 and count 0, in copy 1. -/
def bootRecord (f : Flash) : Bool × BootRec :=
  match f.rec0, f.rec1 with
  | some a, some b => bif Nat.blt a.seq b.seq then (true, b) else (false, a)
  | some a, none => (false, a)
  | none, some b => (true, b)
  | none, none => (true, ⟨0, false, false, false, 0⟩)
def bootRec (s : State) : BootRec := (bootRecord s.flash).2

/-- The record changes: the other copy is written with the sequence number raised by one. -/
def writeRecord (r : BootRec) (s : State) : State :=
  let old := bootRecord s.flash
  let r := { r with seq := (old.2.seq + 1) % 2 ^ 32 }
  { s with flash := bif old.1 then { s.flash with rec0 := some r } else { s.flash with rec1 := some r } }

def bankOf (s : State) (b : Bool) : Bank := bif b then s.flash.bankB else s.flash.bankA
def setBank (b : Bool) (x : Bank) (s : State) : State :=
  { s with flash := bif b then { s.flash with bankB := x } else { s.flash with bankA := x } }

/-- Fields of an image header (Table 14.4). -/
def imgId (x : Image) : Nat := leAt x.signed 4 2
def imgSlot (x : Image) : Nat := leAt x.signed 6 1
def imgVersion (x : Image) : Nat := leAt x.signed 8 4
def imgSvn (x : Image) : Nat := leAt x.signed 12 1
def imgCompat (x : Image) : Nat := leAt x.signed 20 4

/-- The set SVN of a bank: the lowest SVN among its images (R451). -/
def setSvn (b : Bank) : Nat := b.images.foldl (fun a i => Nat.min a (imgSvn i.2)) (match b.images with | i :: _ => imgSvn i.2 | [] => 0)
def bankImage (b : Bank) (id : Nat) : Option Image := (b.images.find? fun i => i.1 == id).map Prod.snd

/-- Whether an owner slot is enrolled (R445). -/
def ownedNow (s : State) : Bool := s.otp.owner.any fun k => k.key.isSome

/-- A bit for each slot that satisfies `p`. -/
def slotBits (p : KeySlot → Bool) (l : List KeySlot) : Nat :=
  (List.range 4).foldl (fun a n => a + (match l[n]? with | some k => b01 (p k) | none => 0) * 2 ^ n) 0

/-- ATT_BOOT, ATT_SVN and ATT_KEYS show flash, OTP and the running set. -/
def showAtt (s : State) : State :=
  let r := bootRec s
  let act := bankOf s s.bootB
  let other := bankOf s (!r.bankB)
  let s := setFld .attBoot 0 0 31 16 (r.count % 65536) s
  let s := setFld .attBoot 0 0 7 7 (b01 r.trial) (setFld .attBoot 0 0 0 0 (b01 r.bankB) (setFld .attBoot 0 0 3 3 (b01 (ownedNow s)) s))
  let s := setFld .attSvn 0 0 15 8 (bif other.state == .staged then setSvn other else 0xFF) (setFld .attSvn 0 0 6 0 s.otp.counter s)
  let s := bif s.verified then setFld .attSvn 0 0 23 16 (setSvn act) s else s
  setFld .attKeys 0 0 15 12 (slotBits (fun k => k.revoked) s.otp.vendor)
    (setFld .attKeys 0 0 11 8 (slotBits (fun k => k.key.isSome) s.otp.owner)
      (setFld .attKeys 0 0 7 4 (slotBits (fun k => k.revoked) s.otp.owner) s))

/-! ## COMMIT (R451, R452) -/

/-- REVOKE of the active BOOTFW, without the slot that the active set is signed with. -/
def revokeMask (b : Bank) : Nat := match bankImage b 1 with | some x => setBits (leAt x.signed 7 1 % 16) (imgSlot x) (imgSlot x) 0 | none => 0
def revokeSlots (mask : Nat) : List KeySlot → Nat → List KeySlot
  | [], _ => []
  | k :: l, n => (bif bit mask n then { k with revoked := true } else k) :: revokeSlots mask l (n + 1)

/-- The fuses that a COMMIT cut short has blown: a free number of those due (R451). -/
def cutShort (s : State) : State :=
  match s.update with
  | some .commit =>
    let due := setSvn (bankOf s (bootRec s).bankB) - s.otp.counter
    let f := takeFree s
    let g := takeFree f.2
    let mask := Nat.land (revokeMask (bankOf s (bootRec s).bankB)) (Config.fusesBlown g.1)
    { g.2 with otp := { s.otp with counter := s.otp.counter + Config.fusesBlown f.1 % (due + 1), vendor := revokeSlots mask s.otp.vendor 0 } }
  | _ => s

/-! ## Reset -/

/-- What a reset leaves (R543): every register at its Reset value, every unit Up, every store dropped; OTP, flash and the thermal-trip
latch stay, and AGE_HOURS with the flash. -/
def resetBlock (cause : Option ResetCause) (s : State) : State :=
  let s := cutShort s
  let trip := raw s .thmTrip 0 0
  showAtt { State.reset with
    time := s.time, free := s.free, out := s.out, pending := s.pending, flash := { s.flash with hours := ageHours s }, otp := s.otp,
    tripped := s.tripped, rstLow := s.rstLow, inReset := cause, resetAt := s.time,
    ctl := (bif s.tripped then [(regAddr .thmTrip 0 0, BitVec.ofNat 32 trip)] else []) }

/-- The start event (Table 18.6): part time is zero (R40). -/
def startEvent (s : State) : State := { s with inReset := none, time := 0, resetAt := 0 }

/-- POWER_ON_RESET: SYS_PWROK rises; the part starts when SYS_RST_N is high too. -/
def powerOn (s : State) : State :=
  bif s.rstLow then resetBlock (some .board) s else startEvent (resetBlock none s)

def execPowerOnReset (s : State) : Host.Outcome State Fault Refusal := .next (powerOn s)

/-- BOARD_RESET: SYS_RST_N has been low for 10 µs. -/
def boardReset (s : State) : State :=
  let cause := match s.inReset with | some .pwrok => ResetCause.pwrok | _ => .board
  resetBlock (some cause) { s with rstLow := true }

def execBoardReset (t : Time) (s : State) : Host.Outcome State Fault Refusal := .next (boardReset (atTime t s))

/-- PWROK_FALL: SYS_PWROK falls, a board reset until it rises again. -/
def execPwrokFall (t : Time) (s : State) : Host.Outcome State Fault Refusal := .next (resetBlock (some .pwrok) (atTime t s))

/-- INTERNAL_RESET: causes 0 trial failure, 1 reset activation, 2 REFCLK loss. -/
def internalReset (cause : Nat) (s : State) : State := resetBlock (some (bif cause == 2 then .refclk else .internal)) s

def execInternalReset (cause : Fin 3) (t : Time) (s : State) : Host.Outcome State Fault Refusal := .next (internalReset cause.val (atTime t s))

/-- RESET_RELEASE: SYS_RST_N rises, or 1 ms has passed since the cause of an internal reset. -/
def resetRelease (s : State) : State :=
  match s.inReset with
  | some .board => startEvent { s with rstLow := false }
  | some .internal => bif Nat.ble (s.resetAt + 1000000) s.time then (bif s.rstLow then s else startEvent s) else s
  | _ => { s with rstLow := false }

def execResetRelease (t : Time) (s : State) : Host.Outcome State Fault Refusal := .next (resetRelease (atTime t s))

/-! ## REFCLK (R530) -/

/-- REFCLK_LOSS: REFCLK has been missing for 1 µs; the PLLs hold their frequency. -/
def refclkLoss (s : State) : State := bif s.refLost.isNone then { s with refLost := some s.time } else s
def execRefclkLoss (t : Time) (s : State) : Host.Outcome State Fault Refusal := .next (refclkLoss (atTime t s))

/-- REFCLK_HOLDOVER_EXPIRE: after 100 µs of holdover the part resets and waits for REFCLK. -/
def holdoverExpire (s : State) : State :=
  match s.refLost with
  | some t0 => bif Nat.ble (t0 + 100000) s.time && s.inReset.isNone then
      { internalReset 2 s with refLost := some t0 } else s
  | none => s
def execRefclkHoldoverExpire (t : Time) (s : State) : Host.Outcome State Fault Refusal := .next (holdoverExpire (atTime t s))

/-- REFCLK_RETURN: the holdover ends; a reset that waits for REFCLK is released 1 ms later, which is the start event. -/
def refclkReturn (s : State) : State :=
  let s := { s with refLost := none }
  match s.inReset with
  | some .refclk => startEvent s
  | _ => s
def execRefclkReturn (t : Time) (s : State) : Host.Outcome State Fault Refusal := .next (refclkReturn (atTime t s))

/-! ## Thermal trip (R478) -/

/-- THERMAL_TRIP: at 118 °C the trip is latched, lasers and sector regulators but that of H0.S0 go off. The part then answers I3C reads of
GEN and THM_TRIP only: the rest of its volatile state is dropped. -/
def thermalTrip (sensor : Nat) (temp : Int) (s : State) : State :=
  bif s.tripped || decide (temp < 118) then s
  else
    let trip := 2 ^ 31 + sensor * 256 + unsign 8 temp
    let keep := s.ctl.filter fun c => Nat.blt c.1 0x100000
    let s' := { State.reset with
      time := s.time, free := s.free, out := s.out, pending := s.pending, flash := { s.flash with hours := ageHours s },
      otp := s.otp, tripped := true, rstLow := s.rstLow, inReset := s.inReset, resetAt := s.resetAt,
      ctl := keep ++ [(regAddr .thmTrip 0 0, BitVec.ofNat 32 trip)] }
    modSector 24 (fun x => { x with regOff := false }) s'

def execThermalTrip (sensor : BitVec 8) (temp : Int) (t : Time) (s : State) : Host.Outcome State Fault Refusal :=
  .next (thermalTrip sensor.toNat temp (atTime t s))

/-- VFEED_RESTORE: VFEED comes back after at least 100 ms: the latch is clear and the part starts as after power-good. -/
def vfeedRestore (removedNs : Nat) (s : State) : State :=
  bif Nat.ble 100000000 removedNs then startEvent (resetBlock none { s with tripped := false, rstLow := false }) else s

def execVfeedRestore (removedNs : Nat) (s : State) : Host.Outcome State Fault Refusal := .next (vfeedRestore removedNs s)

end Sys2Proof.Machine
end

