-- ==== Sys2Proof/Machine/Boot.lean ====
section
/-! DEFINITION. Image verification (R443 to R445, R463, R464) and the boot (R446 to R450, Table 14.5, Table 14.6). -/

namespace Sys2Proof.Machine

/-! ## Images -/

def zeros (bs : List Byte) : Bool := bs.all (· == 0)

/-- The header's fixed fields (Table 14.4): MAGIC, ID, the zero fields, LENGTH. -/
def imageHeaderOk (x : Image) (id : Nat) : Bool :=
  let b := x.signed
  b.length == 512 && leAt b 0 4 == 0x57464D44 && imgId x == id && Nat.blt (imgSlot x) 4
    && (bif id == 1 then Nat.blt (leAt b 7 1) 16 else leAt b 7 1 == 0) && Nat.ble (imgSvn x) (bif Nat.blt id 0x100 then 64 else 0)
    && leAt b 13 3 == 0 && leAt b 16 4 == x.body.length && zeros (b.drop 72) && x.rsaKey.length == 384 && x.slhKey.length == 48
    && x.rsaSig.length == 384 && x.slhSig.length == 16224 && x.pad.length == 2928 && zeros x.pad

/-- The digest of a slot: SHA-384 of RSAKEY followed by SLHKEY (R444). -/
def keyDigest (x : Image) : BitVec 384 := digestOf (x.rsaKey ++ x.slhKey)
def keySlotOk (slots : List KeySlot) (x : Image) : Bool :=
  match slots[imgSlot x]? with
  | some k => k.key == some (keyDigest x) && !k.revoked
  | none => false
/-- Both signatures are always checked. -/
def imageSigned (x : Image) : Bool :=
  let rsa := Config.rsaVerifies x.rsaKey x.signed x.rsaSig
  let slh := Config.slhVerifies x.slhKey x.signed x.slhSig
  rsa && slh
def bodyDigestOk (x : Image) : Bool := sha384 x.body == sliceBytes x.signed 24 48

/-- The BOOTCFG body (R463, Table 14.12). -/
def bootCfgOk (b : List Byte) : Bool :=
  let n := leAt b 8 1
  let port := fun (k : Nat) =>
    let p := sliceBytes b (128 + 64 * k) 64
    leAt p 6 2 == 0 && leAt p 13 3 == 0 && leAt p 37 3 == 0 && zeros (sliceBytes p 56 8)
  let admin := fun (a : Nat) =>
    let e := sliceBytes b (384 + 32 * a) 32
    bif Nat.blt a n then (leAt e 0 1 == 4 && zeros (sliceBytes e 1 15) && zeros (sliceBytes e 20 12)) || (leAt e 0 1 == 6 && zeros (sliceBytes e 1 15))
    else zeros e
  Nat.ble 896 b.length && leAt b 0 4 == 1 && Nat.blt (leAt b 4 1) 2 && Nat.blt (leAt b 5 1) 16 && Nat.ble n 16 && leAt b 9 7 == 0
    && zeros (sliceBytes b 98 30) && (List.range 4).all port && (List.range 16).all admin

/-- The FABMAP body (R464, Table 14.14) for a part whose node is `node`. -/
def fabMapOk (node : Nat) (b : List Byte) : Bool :=
  Nat.ble 1936 b.length && leAt b 0 4 == 1 && leAt b 4 2 == node && leAt b 6 10 == 0
    && (List.range 480).all fun i => Nat.blt (leAt b (16 + 4 * i) 4) 16384

/-- Verification of a vendor image (R444): 0, or the RESULT of UPD_STAT that names the failure. -/
def verifyVendor (s : State) (id : Nat) (x : Image) : Nat :=
  bif !(imageHeaderOk x id) then 5 else bif !(keySlotOk s.otp.vendor x) then 3 else bif !(imageSigned x) then 2
  else bif !(bodyDigestOk x) then 2 else bif Nat.blt (imgSvn x) s.otp.counter then 4 else 0

/-- Verification of an owner image: an unowned part checks MAGIC, ID and DIGEST only (R445); and the body. -/
def verifyOwner (s : State) (id : Nat) (x : Image) : Nat :=
  let head := bif s.owned then (bif !(imageHeaderOk x id) then 5 else bif !(keySlotOk s.otp.owner x) then 3 else bif !(imageSigned x) then 2 else 0)
    else bif leAt x.signed 0 4 == 0x57464D44 && imgId x == id then 0 else 5
  bif !(head == 0) then head
  else bif !(bodyDigestOk x) then 2
  else bif (bif id == 0x101 then bootCfgOk x.body else fabMapOk (ownNode s) x.body) then 0 else 5

/-- Whether a bank may boot: staged, the six images, each verified. -/
def bankPasses (s : State) (b : Bank) : Bool :=
  b.state == .staged && b.images.length == 6
    && [1, 2, 3, 4, 5, 6].all fun id => match bankImage b id with | some x => verifyVendor s id x == 0 | none => false

/-- A copy of an owner image, when it is staged and verified. -/
def validCopy (s : State) (id : Nat) (b : Bank) : Option Image :=
  match b.state, b.images with
  | .staged, [(_, x)] => bif verifyOwner s id x == 0 then some x else none
  | _, _ => none
/-- The copies of BOOTCFG or FABMAP. -/
def ownerCopies (s : State) (id : Nat) : Bank × Bank := bif id == 0x101 then (s.flash.cfg0, s.flash.cfg1) else (s.flash.map0, s.flash.map1)
/-- The valid copy with the higher VERSION, and whether it is copy 1 (R441). -/
def ownerInUse (s : State) (id : Nat) : Option (Bool × Image) :=
  match validCopy s id (ownerCopies s id).1, validCopy s id (ownerCopies s id).2 with
  | some a, some b => some (bif Nat.blt (imgVersion a) (imgVersion b) then (true, b) else (false, a))
  | some a, none => some (false, a)
  | none, some b => some (true, b)
  | none, none => none

/-! ## BOOT_START -/

/-- What MR0 receives of the OTP: the digest of slot keys, enrolment and revoke fuses, the fused counter and the owned state. -/
def otpBytes (s : State) : List Byte :=
  let slot := fun (k : KeySlot) => leBytes 48 (match k.key with | some d => d.toNat | none => 0) ++ [BitVec.ofNat 8 (b01 k.key.isSome), BitVec.ofNat 8 (b01 k.revoked)]
  s.otp.vendor.flatMap slot ++ s.otp.owner.flatMap slot ++ [BitVec.ofNat 8 s.otp.counter, BitVec.ofNat 8 (b01 (ownedNow s))]

/-- BOOT_SEL as sampled. -/
def bootSel (s : State) : Nat := fld s .genStrap 0 0 15 14

/-- The boot count rises by one, in a new copy of the record (R442). -/
def raiseCount (s : State) : State := let r := bootRec s; writeRecord { r with count := (r.count + 1) % 2 ^ 32 } s

/-- The bank that BOOT_SEL 0 chooses, with the trial logic of R448. -/
def trialChoice (s : State) : State :=
  let r := bootRec s
  bif r.trial && r.tried then
    setFld .updStat 0 0 31 28 10 { (writeRecord { r with bankB := !r.bankB, trial := false, tried := false } s) with bootB := !r.bankB }
  else bif r.trial then { (writeRecord { r with tried := true } s) with bootB := r.bankB }
  else { s with bootB := r.bankB }

/-- Recovery: no processor but the boot core starts (R449). -/
def enterRecovery (s : State) : State := showAtt (raiseCount { s with recovery := true })

/-- BOOT_START: the boot core leaves reset: straps are sampled, the other processors are held, the bank is chosen and MR0 extended
(R446, R534, Table 14.5). -/
def bootStart (straps : Nat) (s : State) : State :=
  bif s.inReset.isSome || s.tripped || !s.regsUp || s.bootAt.isSome then s
  else
    let s := setRaw .genStrap 0 0 straps { s with bootAt := some s.time, owned := ownedNow s }
    let s := (List.range 34).foldl (fun s k => setFld .fwpStat (k + 1) 0 31 30 3 s) s
    let sel := bootSel s
    let s := setFld .attBoot 0 0 5 4 sel s
    let s := bif sel == 0 then trialChoice s else { s with bootB := sel == 2 }
    let bank : Byte := bif sel == 3 then 2 else BitVec.ofNat 8 (b01 s.bootB)
    let s := extendMr 0 (digestOf [bank, BitVec.ofNat 8 sel]) (extendMr 0 (digestOf (otpBytes s)) (extendMr 0 Config.romDigest s))
    bif sel == 3 then enterRecovery s else showAtt s

def execBootStart (straps : BitVec 16) (t : Time) (s : State) : Host.Outcome State Fault Refusal := .next (bootStart straps.toNat (atTime t s))

/-! ## BOOT_IMAGES_VERIFIED -/

def headerDigest (x : Image) : BitVec 384 := digestOf x.signed

/-- The bank that boots: the chosen one, or, with BOOT_SEL 0, the other one with the fall-back of R447. -/
def fallBack (s : State) : Option State :=
  bif bankPasses s (bankOf s s.bootB) then some s
  else bif bootSel s == 0 && bankPasses s (bankOf s (!s.bootB)) then
    let b := !s.bootB
    let s := writeRecord { bootRec s with bankB := b, trial := false, tried := false } { s with bootB := b }
    some (raise 0xD001 1 none (unitId 10 0) 0 (setFld .attBoot 0 0 6 6 1 s))
  else none

/-- The roles of the engine pairs (R292): E0 and E3, E1 and E4, E2 and E5, E6 and E7. -/
def rolePair (e : Nat) : Nat := bif Nat.ble 6 e then 3 else e % 3
def setRoles (roles : Nat) (s : State) : State :=
  (List.range 12).foldl (fun s e =>
    setFld .optStat e 0 31 28 (bif Nat.ble 10 e then 3 else bif Nat.ble 8 e then 2 else b01 (bit roles (rolePair e))) s) s

/-- The default roles of a die link, module by module in the order of Table 17.2; all general on the links of the engines. -/
def defaultRoles (l : Nat) : List Nat :=
  bif Nat.blt l 4 then List.replicate 4 0 ++ List.replicate 12 1
  else bif Nat.blt l 8 then List.replicate 8 0 ++ List.replicate 8 1 ++ List.replicate 4 2 ++ List.replicate 4 3
  else List.replicate 14 0
/-- The roles that NDLROLE gives to the modules of a link (Table 14.13). -/
def givenRoles (body : List Byte) (l : Nat) : List Nat := (linkModules l).map fun m => leAt body (16 + m / 4) 1 / 4 ^ (m % 4) % 4
/-- A configuration that breaks R512: fewer than 2 general modules, or one that is not general on the link of an engine. -/
def rolesBad (l : Nat) (rs : List Nat) : Bool :=
  bif Nat.blt l 8 then Nat.blt (rs.filter (· == 0)).length 2 else rs.any (fun r => !(r == 0))
/-- The modules of a link take their roles (R511, R512). -/
def linkRoles (body : Option (List Byte)) (s : State) (l : Nat) : State :=
  let given := match body with | some b => givenRoles b l | none => defaultRoles l
  let s := bif rolesBad l given then setFld .ndlCfgerr 0 0 l l 1 s else s
  let rs := bif rolesBad l given then defaultRoles l else given
  ((linkModules l).zip rs).foldl (fun s x => setFld .ndlStat x.1 0 28 27 x.2 s) s
def moduleRoles (body : Option (List Byte)) (s : State) : State := (List.range 20).foldl (linkRoles body) s

/-- BOOTCFG in use: roles and compatibility mode; without one, no host address, no fabric lane and a Fatal event (R445, R463). The roles
are then the default ones. -/
def useBootCfg (s : State) : State :=
  match ownerInUse s 0x101 with
  | some (_, x) =>
    let roles := leAt x.body 5 1 % 16
    let s := { s with bootCfg := some x.body, cfgDigest := some (headerDigest x) }
    let s := setFld .genConfig 0 0 5 5 (leAt x.body 4 1 % 2) s
    let s := bif roles == 15 then raise 0xB001 1 none 0 0 (setRoles 8 s) else setRoles roles s
    extendMr 6 (headerDigest x) (moduleRoles (some x.body) s)
  | none => extendMr 6 emptyDigest (raise 0xD002 0 none 0 0 (moduleRoles none (setRoles 8 s)))

/-- The lanes of a FABMAP body: the node of each lit receive lane, by 64 × engine + lane. -/
def fabMapLanes (b : List Byte) : Tab Nat :=
  (List.range 480).filterMap fun i =>
    let v := leAt b (16 + 4 * i) 4
    bif bit v 13 then some (64 * (i / 60) + 16 * (i / 15 % 4) + i % 15 + 1, v % 8192) else none

/-- FABMAP is read in WIRING_MODE 1 only (R332, R464). -/
def useFabMap (s : State) : State :=
  bif !(flag s .genStrap 0 0 13) then extendMr 7 emptyDigest s
  else match ownerInUse s 0x102 with
    | some (_, x) => extendMr 7 (headerDigest x) { s with fabMap := some (fabMapLanes x.body), mapDigest := some (headerDigest x) }
    | none => extendMr 7 emptyDigest (raise 0xB00B 0 none 0 0 s)

/-- RESULT and BADIDX of CAL_STAT show a check (R485). -/
def showCheck (c : Nat × Nat) (s : State) : State := setFld .calStat 0 0 31 28 c.1 (setFld .calStat 0 0 25 13 c.2 s)

/-- The overlay of a boot (R485, R487): the newest valid copy; with none but a stored one, that one is rejected with an Error event. -/
def bootOverlay (s : State) : State :=
  match newestOverlay s.flash with
  | some bs => extendMr 9 (digestOf bs) (overlayInForce (some bs) s)
  | none =>
    let s := match s.flash.cal0, s.flash.cal1 with
      | none, none => s
      | some bs, _ => raise 0xA006 1 none 0 0 (showCheck (overlayCheck bs) s)
      | none, some bs => raise 0xA006 1 none 0 0 (showCheck (overlayCheck bs) s)
    extendMr 9 emptyDigest (overlayInForce none s)

/-- The images of the bank in use are measured, in the order of Table 14.5. -/
def useImages (b : Bank) (s : State) : State :=
  let ext := fun (id n : Nat) (s : State) => match bankImage b id with | some x => extendMr n (headerDigest x) s | none => s
  let s := useBootCfg (ext 1 1 s)
  let s := bootOverlay (extendMr 8 Config.calDigest (useFabMap s))
  let s := ext 6 5 (ext 5 4 (ext 4 3 (ext 3 3 (ext 2 2 s))))
  let s := { s with images := [1, 2, 3, 4, 5, 6].filterMap fun id => (bankImage b id).map fun x => (id, x) }
  match bankImage b 1 with
  | some x => setRaw .attVer 0 0 (imgVersion x) (setFld .attKeys 0 0 1 0 (imgSlot x) s)
  | none => s

/-- A processor starts on its image. -/
def startProc (i : Nat) (s : State) : State :=
  setFld .fwpStat i 0 31 30 0 (setFld .fwpStat i 0 15 0 (match tget? s.images (procImage i) with | some x => imgVersion x % 65536 | none => 0) s)

/-- BOOT_IMAGES_VERIFIED: images are verified, measured and put to use, the boot count rises and the processors are released; or the part
enters recovery (R447). -/
def bootImages (s : State) : State :=
  bif s.bootAt.isNone || s.verified || s.recovery then s
  else match fallBack s with
    | none => enterRecovery s
    | some s =>
      let s := useImages (bankOf s s.bootB) (raiseCount s)
      showAtt ((List.range 35).foldl (fun s i => startProc i s) { s with verified := true })

def execBootImagesVerified (t : Time) (s : State) : Host.Outcome State Fault Refusal := .next (bootImages (atTime t s))

/-- IDENTITY_KEYS_READY: 600 ms into the boot (R459, R461). -/
def keysReadyNow (s : State) : State :=
  match s.bootAt with
  | some t0 => bif Nat.ble (t0 + 600000000) s.time then { s with keysReady := true } else s
  | none => s
def execIdentityKeysReady (t : Time) (s : State) : Host.Outcome State Fault Refusal := .next (keysReadyNow (atTime t s))

/-- TRIAL_TIMEOUT: 30 s into a trial boot (R448). -/
def trialTimeout (s : State) : State :=
  let r := bootRec s
  match s.bootAt with
  | some t0 =>
    bif r.trial && r.tried && bootSel s == 0 && Nat.ble (t0 + 30000000000) s.time then
      bif (List.range 35).all (coreRuns s) then
        setFld .updStat 0 0 31 28 9 (showAtt (writeRecord { r with trial := false, tried := false } s))
      else internalReset 0 s
    else s
  | none => s
def execTrialTimeout (t : Time) (s : State) : Host.Outcome State Fault Refusal := .next (trialTimeout (atTime t s))

end Sys2Proof.Machine
end

