-- ==== Sys2Proof/Machine/Lanes.lean ====
section
/-! DEFINITION. The operations of a Flux chain (Tables 4.9 to 4.11, R142) and packets written from FP32 lanes. -/

namespace Sys2Proof.Machine

/-! ## Exact functions in fixed point

A value of EXP, LOG, TANH or SIGM that is not one of the trivial ones is irrational. It is computed with `fixBits` fractional bits and
rounded once. UNVERIFIED: that no FP32 argument brings it within the error of a rounding boundary. -/

def fixBits : Nat := 320
def fixOne : Int := (2 ^ fixBits : Nat)

/-- Σ z × t^(2i) ÷ (2i + 1) over `n` terms, all in fixed point: `z` is t, `tt` its square. -/
def atanhSum (tt : Int) : Nat → Int → Int → Int
  | 0, _, _ => 0
  | n + 1, z, i => z / i + atanhSum tt n (z * tt / fixOne) (i + 2)
/-- 2 × atanh(a ÷ b) for 0 ≤ a ÷ b ≤ 1 ÷ 3. -/
def atanh2 (a b : Nat) : Int :=
  let t : Int := (a * 2 ^ fixBits / b : Nat)
  2 * atanhSum (t * t / fixOne) 110 t 1
def ln2Fix : Int := atanh2 1 3

/-- Σ of z × r^i ÷ i! from i on. -/
def expSum (r : Int) : Nat → Int → Int → Int
  | 0, _, _ => 0
  | n + 1, z, i => z + expSum r n (z * r / fixOne / i) (i + 1)
/-- e^x for |x| at most 200. -/
def expEx (x : Ex) : Ex :=
  let f := x.num * fixOne / (x.den : Int)
  let k := f / ln2Fix
  let e := expSum (f - k * ln2Fix) 90 fixOne 1
  exMul ⟨e, 2 ^ fixBits⟩ (exPow 1 k)

/-- The exponent of a positive value: the greatest e from −150 to 127 with 2^e at most it. -/
def floorLog2 (x : Ex) : Int :=
  (List.range 278).foldl (fun (m : Int) (i : Nat) => bif exLe (exPow 1 ((i : Int) - 150)) x then (i : Int) - 150 else m) (-150)
/-- ln x for a positive FP32 value. -/
def lnEx (x : Ex) : Ex :=
  let e := floorLog2 x
  let m := exMul x (exPow 1 (-e))
  ⟨e * ln2Fix + atanh2 (m.num.natAbs - m.den) (m.num.natAbs + m.den), 2 ^ fixBits⟩

/-- The integer square root of a number below 4^n. -/
def isqrt (x : Nat) : Nat → Nat → Nat
  | 0, r => r
  | n + 1, r => bif Nat.ble ((r + 2 ^ n) * (r + 2 ^ n)) x then isqrt x n (r + 2 ^ n) else isqrt x n r
/-- √x for x positive: exact where it is a dyadic number, otherwise a value between the same neighbours. -/
def sqrtEx (x : Ex) : Ex :=
  let n := x.num.natAbs * 2 ^ (2 * fixBits)
  let r := isqrt (n / x.den) 480 0
  bif r * r * x.den == n then ⟨(r : Int), 2 ^ fixBits⟩ else ⟨((2 * r + 1 : Nat) : Int), 2 ^ (fixBits + 1)⟩

/-! ## Chain operations (Table 4.11) -/

/-- A value that no rounding changes. -/
def plainRes (v : W32) : FRes := ⟨v, false⟩

/-- SQRT and RSQRT. -/
def laneSqrt (a : W32) : FRes :=
  match f32Val a with
  | .nan => plainRes f32Nan
  | .inf n => plainRes (bif n then f32Nan else f32Inf false)
  | .fin n _ _ => bif f32IsZero a then plainRes a else bif n then plainRes f32Nan else f32Exact (sqrtEx (f32Ex a)) false
def laneRsqrt (a : W32) : FRes :=
  match f32Val a with
  | .nan => plainRes f32Nan
  | .inf n => plainRes (bif n then f32Nan else 0)
  | .fin n _ _ =>
    bif f32IsZero a then ⟨f32Top n, true⟩
    else bif n then plainRes f32Nan else f32Exact (sqrtEx (exDiv Ex.one (f32Ex a))) false
/-- EXP. -/
def laneExp (a : W32) : FRes :=
  match f32Val a with
  | .nan => plainRes f32Nan
  | .inf n => plainRes (bif n then 0 else f32Inf false)
  | .fin _ _ _ =>
    let x := f32Ex a
    bif exIsZero x then plainRes f32One
    else bif exLt ⟨89, 1⟩ x then ⟨f32Top false, true⟩
    else bif exLt x ⟨-110, 1⟩ then plainRes 0
    else f32Exact (expEx x) false
/-- LOG. -/
def laneLog (a : W32) : FRes :=
  match f32Val a with
  | .nan => plainRes f32Nan
  | .inf n => plainRes (bif n then f32Nan else f32Inf false)
  | .fin n _ _ =>
    bif f32IsZero a then ⟨f32Top true, true⟩
    else bif n then plainRes f32Nan
    else bif a == f32One then plainRes 0
    else f32Exact (lnEx (f32Ex a)) false
/-- TANH. -/
def laneTanh (a : W32) : FRes :=
  match f32Val a with
  | .nan => plainRes f32Nan
  | .inf n => plainRes (bif n then 0xBF800000 else f32One)
  | .fin n _ _ =>
    let x := f32Ex a
    bif f32IsZero a then plainRes a
    else bif exLt ⟨20, 1⟩ (exAbs x) then plainRes (bif n then 0xBF800000 else f32One)
    else
      let e := expEx (exMul ⟨2, 1⟩ x)
      f32Exact ⟨e.num - (e.den : Int), e.num.natAbs + e.den⟩ false
/-- SIGM. -/
def laneSigm (a : W32) : FRes :=
  match f32Val a with
  | .nan => plainRes f32Nan
  | .inf n => plainRes (bif n then 0 else f32One)
  | .fin _ _ _ =>
    let x := f32Ex a
    bif exLt ⟨30, 1⟩ x then plainRes f32One
    else bif exLt x ⟨-110, 1⟩ then plainRes 0
    else
      let e := expEx x
      f32Exact ⟨e.num, e.num.natAbs + e.den⟩ false

/-- How many sources an operation of Table 4.11 has; none for an undefined one. -/
def chainArity : Nat → Option Nat
  | 0x01 => some 1 | 0x02 => some 2 | 0x03 => some 2 | 0x04 => some 2 | 0x05 => some 3 | 0x06 => some 2 | 0x07 => some 2
  | 0x08 => some 1 | 0x09 => some 3 | 0x10 => some 1 | 0x11 => some 1 | 0x12 => some 1 | 0x13 => some 1 | 0x14 => some 1
  | 0x15 => some 1 | 0x16 => some 1 | 0x17 => some 2 | _ => none

/-- An operation of Table 4.11. -/
def chainOp (op : Nat) (a b c : W32) : FRes :=
  match op with
  | 0x01 => plainRes (bif f32IsNan a then f32Nan else a)
  | 0x02 => f32Add a b
  | 0x03 => f32Sub a b
  | 0x04 => f32Mul a b
  | 0x05 => f32Fma a b c
  | 0x06 => plainRes (f32Min a b)
  | 0x07 => plainRes (f32Max a b)
  | 0x08 => plainRes (f32Abs a)
  | 0x09 => plainRes (f32Min (f32Max a b) c)
  | 0x10 => f32Div f32One a
  | 0x11 => laneSqrt a
  | 0x12 => laneRsqrt a
  | 0x13 => laneExp a
  | 0x14 => laneLog a
  | 0x15 => laneTanh a
  | 0x16 => laneSigm a
  | _ => f32Div a b

/-- Whether a step word may stand in a slot (R141). -/
def stepOk (w : W32) : Bool :=
  let v := w.toNat
  match chainArity (bits v 31 26) with
  | none => false
  | some n => bits v 6 0 == 0 && (Nat.ble 2 n || bits v 16 12 == 0) && (Nat.ble 3 n || bits v 11 7 == 0)

/-- A lane: its registers and whether any step has saturated (R144). -/
structure Lane where
  v   : List W32
  sat : Bool
  deriving DecidableEq, Repr

/-- Source `n` of a step: lane registers, then constants (Table 4.10). -/
def laneSrc (c : Chain) (l : Lane) (n : Nat) : W32 :=
  bif Nat.blt n 16 then (l.v[n]?).getD 0 else (c.consts[n - 16]?).getD 0
/-- One step. -/
def laneStep (c : Chain) (l : Lane) (w : W32) : Lane :=
  let v := w.toNat
  let r := chainOp (bits v 31 26) (laneSrc c l (bits v 21 17)) (laneSrc c l (bits v 16 12)) (laneSrc c l (bits v 11 7))
  ⟨listMod l.v (bits v 25 22) (fun _ => r.val), l.sat || r.sat⟩
/-- The lane after the slot's steps. -/
def laneRun (c : Chain) (l : Lane) : Lane := c.steps.foldl (laneStep c) l

/-! ## Packets from FP32 lanes -/

/-- An FP32 value in a format without scales: nearest even, saturating, the sign of a zero kept, a NaN canonical, an infinity kept where
the format has one (R122, R146, R184): the code and whether it saturated. -/
def laneCode (f : Nat) (v : W32) : Nat × Bool :=
  match fpOf f with
  | none => (0, false)
  | some g =>
    match f32Val v with
    | .nan => (fpNan g, false)
    | .inf n => (bif g.special == .ieee then fpInf g n else g.maxCode + b01 n * 2 ^ magBits g, false)
    | .fin n a b =>
      let r := roundNear (fpMag g) g.maxCode (magBits g) ⟨a, b, false⟩
      (r.code + b01 n * 2 ^ magBits g, r.oor)

/-- A packet of FP32 lanes; `hit` says which elements have saturated already (R120, R144). -/
def lanePkt (p : NewPkt) (hit : Nat → Nat → Bool) (val : Nat → Nat → W32) : NewPkt × List Byte :=
  let f := p.fmt
  let count := fun (t : Stats) (q : Nat × Nat) =>
    let v := val q.1 q.2
    let r := laneCode f v
    t.count (valOf (f32Val v)) (zeroCode f r.1) (r.2 || hit q.1 q.2)
  let st := (region p.rows p.cols).foldl count ⟨0, 0, 0, Ex.zero⟩
  let p := { p with sat := p.sat + st.sat, zero := st.zero, under := st.under, maxabs := f32OfMag (magOf st.big false) }
  (p, plainPkt p fun r c => (laneCode f (val r c)).1)

/-- Values of a region by row and column, looked up in an array. -/
def gridOf {α : Type} (rows cols : Nat) (d : α) (f : Nat → Nat → α) : Nat → Nat → α :=
  let a := ((region rows cols).map fun q => f q.1 q.2).toArray
  fun r c => (a[r * cols + c]?).getD d

end Sys2Proof.Machine
end

