-- ==== Sys2Proof/Machine/Flux.lean ====
section
/-! DEFINITION. The Flux (R141 to R146): VSEQ, VRED, FXLOAD and VFILL. -/

namespace Sys2Proof.Machine

/-- The chain slot of an entry: 8 × the Flux in IDX + SLOT. -/
def slotOf (w : W128) : Nat := 8 * wIdx w + wImmBits w 2 0

/-- The operands of a VSEQ that are inputs, and those written (R143). -/
def vseqIns (w : W128) : List Nat := (List.range 4).filterMap fun k =>
  let d := wModBits w (2 * k + 1) (2 * k); bif d == 1 || d == 3 then some (k + 1) else none
def vseqOuts (w : W128) : List Nat := (List.range 4).filterMap fun k =>
  bif Nat.ble 2 (wModBits w (2 * k + 1) (2 * k)) then some (k + 1) else none

/-- The source packets of a VSEQ by operand, or the first failure (R41, R143). -/
def vseqPkts (s : State) (b ord : Nat) (e : Entry) : List Nat → Except Status (List (Nat × Pkt))
  | [] => .ok []
  | n :: ns =>
    match sourcePkt s b ord e n with
    | .error st => .error st
    | .ok p =>
      bif !(isWideFmt p.fmt) then .error 0x0109
      else match vseqPkts s b ord e ns with
        | .error st => .error st
        | .ok l => .ok ((n, p) :: l)

/-- The output shape of a VSEQ (R144). -/
def vseqShape (ps : List (Nat × Pkt)) : Nat × Nat := (maxNat (ps.map (·.2.rows)), maxNat (ps.map (·.2.cols)))
/-- Whether an input neither has the output shape nor is broadcast to it (R144). -/
def shapeBad (ps : List (Nat × Pkt)) : Bool :=
  let sh := vseqShape ps
  ps.any fun p => !((p.2.rows == sh.1 || p.2.rows == 1) && (p.2.cols == sh.2 || p.2.cols == 1))

/-- What a VSEQ checks: operands, slot, packets, shapes, room; its packets and chain when all hold (R143, R144, R116). -/
def vseqCheck (s : State) (b ord : Nat) (e : Entry) : Except Status (List (Nat × Pkt) × Chain) :=
  let w := e.word
  bif (vseqIns w).isEmpty || (vseqOuts w).isEmpty then .error 0x0184
  else
    match tget? (bench s b).chains (slotOf w) with
    | none => .error 0x0188
    | some c =>
      match vseqPkts s b ord e (vseqIns w) with
      | .error st => .error st
      | .ok ps =>
        bif shapeBad ps then .error 0x0183
        else
          let st := firstStatus ((vseqOuts w).map fun n => roomCheck s b e n (pktLen (wFmt w) false))
          bif st == 0 then .ok (ps, c) else .error st

/-- The lane of element (r, c) before the chain runs (R143). -/
def vseqLane (ps : List (Nat × Pkt)) (r c : Nat) : Lane :=
  ⟨(List.range 16).map fun k => match tget? ps (k + 1) with
    | some p => p.wide (bif p.rows == 1 then 0 else r) (bif p.cols == 1 then 0 else c)
    | none => 0, false⟩

/-- The header of output operand `n` (R144). -/
def vseqHeader (w : W128) (ps : List (Nat × Pkt)) (n : Nat) : NewPkt :=
  let sh := vseqShape ps
  let own := match tget? ps n with | some p => some p | none => (match ps with | q :: _ => some q.2 | [] => none)
  match own with
  | some p => newPkt (wFmt w) sh.1 sh.2 p.tag p.seq p.stream (b01 p.rot * 4 + b01 p.orient * 8) p.rotblk
  | none => newPkt (wFmt w) sh.1 sh.2 0 0 0 0 0

/-- VSEQ. -/
def vseqExec (b ord : Nat) (e : Entry) (s : State) : ExecRes :=
  match vseqCheck s b ord e with
  | .error st => .fault st
  | .ok (ps, ch) =>
    let w := e.word
    let sh := vseqShape ps
    let g := gridOf sh.1 sh.2 ⟨[], false⟩ fun r c => laneRun ch (vseqLane ps r c)
    .effs ((vseqOuts w).flatMap fun n =>
      let v := lanePkt (vseqHeader w ps n) (fun r c => (g r c).sat) fun r c => (((g r c).v)[n - 1]?).getD 0
      writePkt s b e n v.2 ++ [pktAssay e.eid v.1])

def execVseq (b : BenchId) (i : Fin 2) (s : State) : Host.Outcome State Fault Refusal :=
  .next (stationExec b.val (ordinalOf 3 i.val) 3 0x01 (fun e => vseqExec b.val (ordinalOf 3 i.val) e s) s)

/-! ## VRED -/

/-- One level of the pairwise tree: pairs added, with the number of saturations. -/
def pairUp : List W32 → List W32 × Nat
  | a :: c :: l => let r := f32Add a c; let q := pairUp l; (r.val :: q.1, b01 r.sat + q.2)
  | l => (l, 0)
/-- The tree over 2^n values. -/
def pairTree : Nat → List W32 → Nat → W32 × Nat
  | 0, l, k => (l.headD 0, k)
  | n + 1, l, k => let q := pairUp l; pairTree n q.1 (k + q.2)

/-- The reduction of a line of which `n` elements are valid (R145): its value and the saturations. -/
def reduceLine (op : Nat) (l : List W32) : W32 × Nat :=
  match op with
  | 1 => (l.tail.foldl f32Max (l.headD 0), 0)
  | 2 => (l.tail.foldl f32Min (l.headD 0), 0)
  | _ =>
    let sq := l.map fun x => bif op == 3 then f32Mul x x else plainRes x
    pairTree 7 (sq.map (·.val) ++ List.replicate (128 - l.length) 0) (sumNat (sq.map fun r => b01 r.sat))

/-- The source of VRED (R145). -/
def vredSource (s : State) (b ord : Nat) (e : Entry) : Except Status Pkt :=
  match sourcePkt s b ord e 1 with
  | .error st => .error st
  | .ok p => bif isWideFmt p.fmt then .ok p else .error 0x0109

/-- VRED (R145). -/
def vredExec (b ord : Nat) (e : Entry) (s : State) : ExecRes :=
  match vredSource s b ord e with
  | .error st => .fault st
  | .ok p =>
    let w := e.word
    let cols := bit (wMod w) 2
    let n := bif cols then p.cols else p.rows
    let len := bif cols then p.rows else p.cols
    let line := fun i => (List.range len).map fun j =>
      let x := bif cols then p.wide j i else p.wide i j
      bif bit (wMod w) 3 then f32Abs x else x
    let rs := ((List.range n).map fun i => reduceLine (wModBits w 1 0) (line i)).toArray
    let sid := eVal e 3
    let h := { newPkt (wFmt w) (bif cols then 1 else n) (bif cols then n else 1) (sidTag sid) (sidSeq sid) 0 0 0 with
               sat := sumNat (rs.toList.map (·.2)) }
    let v := lanePkt h (fun _ _ => false) fun r c => ((rs[bif cols then c else r]?).getD (0, 0)).1
    .effs (writePkt s b e 2 v.2 ++ [pktAssay e.eid v.1])

def execVred (b : BenchId) (i : Fin 2) (s : State) : Host.Outcome State Fault Refusal :=
  .next (stationExec b.val (ordinalOf 3 i.val) 3 0x02 (fun e => vredExec b.val (ordinalOf 3 i.val) e s) s)

/-! ## FXLOAD, VFILL -/

/-- What FXLOAD checks: alignment, granules, the steps (R141); the chain when all hold. -/
def fxloadCheck (s : State) (b : Nat) (e : Entry) : Except Status Chain :=
  let a := (eVal e 1).toNat
  bif !(a % 128 == 0) then .error 0x018A
  else bif !(holdsBytes (bench s b) a 128) then .error 0x0206
  else bif storeBad (bench s b) a 128 then .error arrayError
  else
    let bs := storeRead s b a 128
    let word := fun k => BitVec.ofNat 32 (leAt bs (4 * k) 4)
    let steps := (List.range (wImmBits e.word 7 3)).map fun k => word (16 + k)
    bif steps.all stepOk then .ok ⟨(List.range 16).map word, steps⟩ else .error 0x0188

/-- FXLOAD. -/
def fxloadExec (b : Nat) (e : Entry) (s : State) : ExecRes :=
  match fxloadCheck s b e with
  | .error st => .fault st
  | .ok c => .effs [.chain (slotOf e.word) c]

def execFxload (b : BenchId) (i : Fin 2) (s : State) : Host.Outcome State Fault Refusal :=
  .next (stationExec b.val (ordinalOf 3 i.val) 3 0x03 (fun e => fxloadExec b.val e s) s)

/-- VFILL (R146). -/
def vfillExec (b : Nat) (e : Entry) (s : State) : ExecRes :=
  let w := e.word
  let sid := eVal e 3
  let x := BitVec.ofNat 32 (bits (eVal e 2).toNat 31 0)
  let v := lanePkt (newPkt (wFmt w) (wImmBits w 7 0) (wImmBits w 15 8) (sidTag sid) (sidSeq sid) 0 0 0) (fun _ _ => false) fun _ _ => x
  .effs (writePkt s b e 1 v.2 ++ [pktAssay e.eid v.1])

def execVfill (b : BenchId) (i : Fin 2) (s : State) : Host.Outcome State Fault Refusal :=
  .next (stationExec b.val (ordinalOf 3 i.val) 3 0x04 (fun e => vfillExec b.val e s) s)

/-- What a Flux checks when it starts an instruction. -/
def fluxStart (b ord : Nat) (e : Entry) (s : State) : Status :=
  let w := e.word
  match wOpc w with
  | 0x01 => (match vseqCheck s b ord e with | .error st => st | .ok _ => 0)
  | 0x02 => (match vredSource s b ord e with | .error st => st | .ok _ => roomCheck s b e 2 (pktLen (wFmt w) false))
  | 0x03 => (match fxloadCheck s b e with | .error st => st | .ok _ => 0)
  | _ => roomCheck s b e 1 (pktLen (wFmt w) false)

end Sys2Proof.Machine
end

