-- ==== Sys2Proof/Machine/Crucible.lean ====
section
/-! DEFINITION. The Crucible (R151, R152): CRED and CXSUM, and the exact fixed-point format of R408. -/

namespace Sys2Proof.Machine

/-! ## The exact fixed-point format (R408) -/

/-- n ÷ d rounded to the nearest integer, ties to even. -/
def roundInt (n : Int) (d : Nat) : Int :=
  let q := n / (d : Int)
  let r := 2 * (n % (d : Int))
  bif decide (r < (d : Int)) then q
  else bif decide ((d : Int) < r) then q + 1
  else bif q % 2 == 0 then q else q + 1
def fixMax : Int := (2 ^ 127 - 1 : Nat)
def fixMin : Int := -(2 ^ 127 : Nat)
/-- A number clamped to the format, and whether it was. -/
def fixClamp (n : Int) : Int × Bool :=
  bif decide (fixMax < n) then (fixMax, true) else bif decide (n < fixMin) then (fixMin, true) else (n, false)
/-- A value as fixed point: the number, whether it clamped, whether it was not finite. -/
def fixOf : Val → Int × Bool × Bool
  | .fin x => let c := fixClamp (roundInt (x.num * (2 ^ 64 : Nat)) x.den); (c.1, c.2, false)
  | .inf n => (bif n then fixMin else fixMax, false, true)
  | .nan => (0, false, true)

/-! ## CRED -/

/-- How many packets the entry folds, and where from. -/
def credN (w : W128) : Nat := wImmBits w 15 0

/-- The accumulator packet of a CRED: as its handle holds it, or as folded so far. -/
def credAcc (s : State) (b ord : Nat) (e : Entry) : Except Status Pkt :=
  match e.effs with
  | .store _ bs :: _ => .ok (parsePkt bs)
  | _ =>
    match sourcePkt s b ord e 2 with
    | .error st => .error st
    | .ok p => bif p.fmt == 0x24 then .ok { p with sat := 0 } else .error 0x0109

/-- One element folded (R151). -/
def credOp (op : Nat) (a x : W32) : FRes :=
  match op with
  | 0 => f32Add a x
  | 1 => plainRes (f32Max a x)
  | _ => plainRes (f32Min a x)

/-- The source and the accumulator of the next fold, checked (R41, R78, R151). -/
def credCheck (s : State) (b ord : Nat) (e : Entry) : Except Status (Pkt × Pkt) :=
  match sourceFmt s b ord e 1 (wFmt e.word) isWideFmt with
  | .error st => .error st
  | .ok x =>
    match credAcc s b ord e with
    | .error st => .error st
    | .ok a => bif a.rows == x.rows && a.cols == x.cols then .ok (x, a) else .error 0x0183

/-- The accumulator after one packet. -/
def credFold (op : Nat) (x a : Pkt) : NewPkt × List Byte :=
  let g := gridOf a.rows a.cols (plainRes 0) fun r c => credOp op (a.wide r c) (x.wide r c)
  let h := newPkt 0x24 a.rows a.cols a.tag a.seq a.stream a.flags a.rotblk
  lanePkt { h with sat := a.sat } (fun r c => (g r c).sat) fun r c => (g r c).val

/-- The oldest packet of a channel has been read: it leaves the queue and its credit stays held. -/
def readPacket (b id : Nat) (s : State) : State :=
  modChan b id (fun c => { c with packets := c.packets.drop 1, reading := c.reading + 1 }) s

/-- One CRED command: each packet that is present is folded; with N folded the instruction has executed (R151). -/
def credSteps (b ord : Nat) : Nat → Entry → State → State
  | 0, e, s => modEntry b ord e.eid (fun _ => e) s
  | n + 1, e, s =>
    match (match ePort e 1 with
      | some p => (match chan? s b p.id with | some c => c.packets.isEmpty | none => true)
      | none => false) with
    | true => modEntry b ord e.eid (fun _ => e) s
    | false =>
      match credCheck s b ord e with
      | .error st => stationFault b ord e st s
      | .ok (x, a) =>
        let r := credFold (wModBits e.word 1 0) x a
        let w := writePkt s b e 2 r.2
        let k := e.hist + 1
        let s := match ePort e 1 with | some p => readPacket b p.id s | none => s
        bif k == credN e.word then
          modEntry b ord e.eid (fun _ => { e with hist := k, phase := .executed, effs := w ++ [pktAssay e.eid r.1] }) s
        else credSteps b ord n { e with hist := k, effs := w } s

def cred (b : Nat) (s : State) : State :=
  match startedEntry s b 9 5 0x01 with
  | none => s
  | some e => credSteps b 9 (credN e.word - e.hist) e s

def execCred (b : BenchId) (s : State) : Host.Outcome State Fault Refusal := .next (cred b.val s)

/-! ## CXSUM -/

/-- The checks of CXSUM (R152). -/
def cxsumCheck (s : State) (b ord : Nat) (e : Entry) : Except Status Pkt :=
  match sourceFmt s b ord e 1 (wFmt e.word) isWideFmt with
  | .error st => .error st
  | .ok p =>
    let a := (eVal e 2).toNat
    let st := firstStatus [failIf (!(a % 16 == 0)) 0x018A, failIf (!(holdsBytes (bench s b) a 16)) 0x0206,
      failIf (storeBad (bench s b) a 16) arrayError]
    bif st == 0 then .ok p else .error st

/-- CXSUM (R152, R408): each clamp counts as one saturation. -/
def cxsumExec (b ord : Nat) (e : Entry) (s : State) : ExecRes :=
  match cxsumCheck s b ord e with
  | .error st => .fault st
  | .ok p =>
    let a := (eVal e 2).toNat
    let el := fun r c =>
      let v := valOf (f32Val (p.wide r c))
      fixOf (bif bit (wMod e.word) 0 then valMul v v else v)
    let sum := (region p.rows p.cols).foldl (fun (t : Int × Nat) q => let x := el q.1 q.2; (t.1 + x.1, t.2 + b01 x.2.1))
      (signed 128 (leNat (storeRead s b a 16)), 0)
    let out := fixClamp sum.1
    .effs [.store a (leBytes 16 (unsign 128 out.1)), .clamps (sum.2 + b01 out.2)]

def execCxsum (b : BenchId) (s : State) : Host.Outcome State Fault Refusal :=
  .next (stationExec b.val 9 5 0x02 (fun e => cxsumExec b.val 9 e s) s)

/-- What a Crucible checks when it starts an instruction. -/
def crucibleStart (b ord : Nat) (e : Entry) (s : State) : Status :=
  match wOpc e.word with
  | 0x01 => (match credCheck s b ord e with | .error st => st | .ok _ => roomCheck s b e 2 (pktLen 0x24 false))
  | _ => (match cxsumCheck s b ord e with | .error st => st | .ok _ => 0)

end Sys2Proof.Machine
end

