-- ==== Sys2Proof/Machine/Hallmark.lean ====
section
/-! DEFINITION. The Hallmark (R161 to R164): HENC, HDEC and HSUM. -/

namespace Sys2Proof.Machine

/-! ## GF(2^8) (R162) -/

def gf8 (a b : Nat) : Nat := gfMul 8 0x11D 8 a b
def gf8Inv (a : Nat) : Nat := gfPow gf8 8 a 254
/-- c(i, j) of the Cauchy matrix. -/
def cauchy (i j : Nat) : Nat := gf8Inv (Nat.xor i (8 + j))

/-- A shard multiplied by a constant and added to another. -/
def addScaled (c : Nat) (x acc : List Nat) : List Nat := List.zipWith (fun a b => Nat.xor a (gf8 c b)) acc x
/-- Σ over terms of constant × shard, `n` bytes. -/
def combine (n : Nat) (l : List (Nat × List Nat)) : List Nat :=
  l.foldl (fun acc t => bif t.1 == 0 then acc else addScaled t.1 t.2 acc) (List.replicate n 0)

/-! ## Shards (R161) -/

def shardK (w : W128) : Nat := wImmBits w 5 0
def shardM (w : W128) : Nat := wImmBits w 9 6
/-- The lost shards of HDEC (Table 4.16). -/
def eraseMask (w : W128) : Nat := wImmBits w 49 10

/-- Where shard `n` starts: data shards 0 to K − 1, then parity. -/
def shardAt (e : Entry) (n : Nat) : Nat :=
  let k := shardK e.word
  let stride := (eVal e 4).toNat
  bif Nat.blt n k then (eVal e 1).toNat + n * stride else (eVal e 2).toNat + (n - k) * stride

/-- Whether two ranges of `n` bytes overlap. -/
def rangesMeet (a b n : Nat) : Bool := Nat.blt a (b + n) && Nat.blt b (a + n)

/-- Whether a parity shard overlaps a data shard or another parity shard. -/
def parityOverlap (e : Entry) : Bool :=
  let k := shardK e.word
  let n := (eVal e 3).toNat
  (List.range (shardM e.word)).any fun i => (List.range (k + i)).any fun j => rangesMeet (shardAt e (k + i)) (shardAt e j) n

/-- The checks of HENC and HDEC (R161, R163). -/
def shardCheck (s : State) (b : Nat) (e : Entry) : Status :=
  let w := e.word
  let n := (eVal e 3).toNat
  let total := shardK w + shardM w
  let lost := eraseMask w
  firstStatus [failIf ([1, 2, 3, 4].any fun i => !((eVal e i).toNat % 64 == 0)) 0x018A,
    failIf (parityOverlap e) 0x018C,
    failIf (wOpc w == 2 && !(lost / 2 ^ total == 0)) 0x0184,
    failIf (wOpc w == 2 && Nat.blt (shardM w) (popcount 40 lost)) 0x018B,
    failIf ((List.range total).any fun i => !(holdsBytes (bench s b) (shardAt e i) n)) 0x0206]

/-- Whether shard `i` has a line that cannot be read (Table 16.2). -/
def shardBad (s : State) (b : Nat) (e : Entry) (i : Nat) : Bool := storeBad (bench s b) (shardAt e i) (eVal e 3).toNat
/-- The bytes of a shard. -/
def shardBytes (s : State) (b : Nat) (e : Entry) (i : Nat) : List Nat :=
  (storeRead s b (shardAt e i) (eVal e 3).toNat).map (·.toNat)
/-- A shard written. -/
def shardStore (e : Entry) (i : Nat) (l : List Nat) : Eff := .store (shardAt e i) (l.map (BitVec.ofNat 8))

/-- Parity shard `i` of the data shards. -/
def parityOf (n i : Nat) (data : List (List Nat)) : List Nat :=
  combine n ((List.range data.length).zipWith (fun j d => (cauchy i j, d)) data)

/-- HENC (R162). -/
def hencExec (b : Nat) (e : Entry) (s : State) : ExecRes :=
  let st := shardCheck s b e
  bif !(st == 0) then .fault st
  else
    let k := shardK e.word
    bif (List.range k).any (shardBad s b e) then .fault arrayError else
    let data := (List.range k).map (shardBytes s b e)
    .effs ((List.range (shardM e.word)).map fun i => shardStore e (k + i) (parityOf (eVal e 3).toNat i data))

def execHenc (b : BenchId) (s : State) : Host.Outcome State Fault Refusal :=
  .next (stationExec b.val 12 7 0x01 (fun e => hencExec b.val e s) s)

/-! ## HDEC -/

/-- Row `n` of the generator: the identity above the Cauchy matrix. -/
def genRow (k n : Nat) : List Nat :=
  (List.range k).map fun j => bif Nat.blt n k then b01 (n == j) else cauchy (n - k) j

/-- A row multiplied by a constant. -/
def scaleRow (c : Nat) (r : List Nat) : List Nat := r.map (gf8 c)

/-- One step of Gauss and Jordan's elimination on column `c` of rows augmented to the right. -/
def eliminate (rows : List (List Nat)) (c : Nat) : List (List Nat) :=
  match firstIdx (fun r => !((r[c]?).getD 0 == 0)) (rows.drop c) with
  | none => rows
  | some i =>
    let p := (rows[c + i]?).getD []
    let p := scaleRow (gf8Inv ((p[c]?).getD 0)) p
    let rest := listMod rows (c + i) fun _ => (rows[c]?).getD []
    (List.range rest.length).zipWith (fun j r => bif j == c then p else addScaled ((r[c]?).getD 0) p r) rest

/-- The inverse of a K × K matrix. -/
def invertMatrix (k : Nat) (rows : List (List Nat)) : List (List Nat) :=
  let aug := (List.range k).zipWith (fun i r => r ++ (List.range k).map fun j => b01 (i == j)) rows
  ((List.range k).foldl eliminate aug).map (·.drop k)

/-- HDEC (R163): the lost shards are rebuilt from the K lowest-numbered survivors. -/
def hdecExec (b : Nat) (e : Entry) (s : State) : ExecRes :=
  let st := shardCheck s b e
  bif !(st == 0) then .fault st
  else
    let w := e.word
    let k := shardK w
    let n := (eVal e 3).toNat
    let total := k + shardM w
    let lost := fun i => bit (eraseMask w) i
    let alive := ((List.range total).filter fun i => !(lost i)).take k
    bif alive.any (shardBad s b e) then .fault arrayError else
    let inv := invertMatrix k (alive.map (genRow k))
    let surv := alive.map (shardBytes s b e)
    let data := inv.map fun r => combine n (r.zip surv)
    .effs (((List.range total).filter lost).map fun i =>
      shardStore e i (bif Nat.blt i k then (data[i]?).getD [] else parityOf n (i - k) data))

def execHdec (b : BenchId) (s : State) : Host.Outcome State Fault Refusal :=
  .next (stationExec b.val 12 7 0x02 (fun e => hdecExec b.val e s) s)

/-! ## HSUM -/

/-- Eight bits of CRC-64/ECMA-182. -/
def crc64Bit (c : Nat) : Nat := bif bit c 63 then Nat.xor (c * 2 % 2 ^ 64) 0x42F0E1EBA9EA3693 else c * 2 % 2 ^ 64
def crc64Byte (c : Nat) : Nat :=
  crc64Bit (crc64Bit (crc64Bit (crc64Bit (crc64Bit (crc64Bit (crc64Bit (crc64Bit c)))))))
/-- CRC-64/ECMA-182 from a previous value (0 to begin with). -/
def crc64 (l : List Byte) (c : Nat) : Nat := l.foldl (fun c x => crc64Byte (Nat.xor c (x.toNat * 2 ^ 56))) c
/-- CRC-32C continued from a previous value. -/
def crc32cFrom (l : List Byte) (c : Nat) : Nat := Nat.xor (crcRun 0x82F63B78 l (Nat.xor c 0xFFFFFFFF)) 0xFFFFFFFF

/-- The checks of HSUM (R164): a length above bench store itself comes before the granules (R100). -/
def hsumCheck (s : State) (b : Nat) (e : Entry) : Status :=
  let x := bench s b
  firstStatus [failIf (!((eVal e 3).toNat % 8 == 0)) 0x018A, failIf (Nat.blt benchBytes (eVal e 2).toNat) 0x0201,
    failIf (!(holdsBytes x (eVal e 1).toNat (eVal e 2).toNat) || !(holdsBytes x (eVal e 3).toNat 8)) 0x0206,
    failIf (storeBad x (eVal e 1).toNat (eVal e 2).toNat || (bit (wMod e.word) 2 && storeBad x (eVal e 3).toNat 8)) arrayError]

/-- HSUM (R164). -/
def hsumExec (b : Nat) (e : Entry) (s : State) : ExecRes :=
  let st := hsumCheck s b e
  bif !(st == 0) then .fault st
  else
    let a := (eVal e 3).toNat
    let l := storeRead s b (eVal e 1).toNat (eVal e 2).toNat
    let prev := bif bit (wMod e.word) 2 then leNat (storeRead s b a 8) else 0
    let v := bif wModBits e.word 1 0 == 0 then crc32cFrom l (prev % 2 ^ 32) else crc64 l prev
    .effs [.store a (leBytes 8 v)]

def execHsum (b : BenchId) (s : State) : Host.Outcome State Fault Refusal :=
  .next (stationExec b.val 12 7 0x03 (fun e => hsumExec b.val e s) s)

/-- What a Hallmark checks when it starts an instruction. -/
def hallmarkStart (b : Nat) (e : Entry) (s : State) : Status :=
  bif wOpc e.word == 3 then hsumCheck s b e else shardCheck s b e

end Sys2Proof.Machine
end

