-- ==== Sys2Proof/Machine/Sprue.lean ====
section
/-! DEFINITION. The Sprue (R154 to R160) and the end of split requests (R101 to R106). -/

namespace Sys2Proof.Machine

/-! ## Ranges and checks -/

/-- The operand that holds the pointer, and whether the instruction writes the far end. -/
def sprPtr (w : W128) : Nat := bif wOpc w == 2 then 1 else 2
def sprWrites (w : W128) : Bool := wOpc w == 2 || wOpc w == 4
/-- The operand with the bench-store address of SPRD and SPWR. -/
def sprNear (w : W128) : Nat := bif wOpc w == 2 then 2 else 1

/-- The first failure of checks 1 to 6 of R154 for SPRD and SPWR. -/
def blockCheck (x : Bench) (e : Entry) : Status :=
  let w := e.word
  let a := (eVal e (sprNear w)).toNat
  let p := (eVal e (sprPtr w)).toNat
  let n := (eVal e 3).toNat
  let rec_ := wImmBits w 23 0
  firstStatus [failIf (!(a % 64 == 0) || !(p % 64 == 0) || !(n % 64 == 0)) 0x018A,
    failIf (!(rec_ % 32 == 0)) 0x018A,
    failIf (Nat.blt 25165824 n) 0x0201,
    failIf (ptrBad p) 0x0481,
    failIf (!(ptrSpace p == 0) && !(bit e.rank 0)) 0x0483,
    failIf (!(ptrSpace p == 0) && Nat.blt (2 ^ 48) (ptrOff p + n)) 0x0484,
    failIf (!(holdsBytes x a n) || !(holdsBytes x rec_ 32)) 0x0206,
    failIf (Nat.blt 64 (piecesOf (ptrOff p) n).length) 0x0209]

/-- Checks 1, 2 and 4 of R154 for SPTLD and SPTST. -/
def tileCheckPtr (e : Entry) : Status :=
  let p := (eVal e 2).toNat
  firstStatus [failIf (!(p % 64 == 0)) 0x018A, failIf (!(wImmBits e.word 23 0 % 32 == 0)) 0x018A, failIf (ptrBad p) 0x0481,
    failIf (!(ptrSpace p == 0) && !(bit e.rank 0)) 0x0483]
/-- The checks that wait for the length of a packet: the range's end and the record's granule. -/
def tileCheckLen (x : Bench) (e : Entry) (n : Nat) : Status :=
  let p := (eVal e 2).toNat
  firstStatus [failIf (Nat.blt 25165824 n) 0x0201, failIf (!(ptrSpace p == 0) && Nat.blt (2 ^ 48) (ptrOff p + n)) 0x0484,
    failIf (!(holdsBytes x (wImmBits e.word 23 0) 32)) 0x0206, failIf (Nat.blt 64 (piecesOf (ptrOff p) n).length) 0x0209]

/-- BYTES of the packet at operand 1's handle when its header lies in the role's granules: the checks on the length come before that of the
granules behind the rest (R154). -/
def handleLen (s : State) (b : Nat) (e : Entry) : Nat :=
  match getT (bench s b) (wIndex e.word 1) with
  | some h => bif holdsBytes (bench s b) (h.start * 256) 64 then leAt (storeRead s b (h.start * 256) 64) 20 4 else 64
  | none => 64

/-- What a Sprue checks when it starts an instruction (R154, R155, R159, R160, R116, R50). -/
def sprueStart (s : State) (b ord : Nat) (e : Entry) : Status :=
  let w := e.word
  let x := bench s b
  match wOpc w with
  | 1 => blockCheck x e
  | 2 => blockCheck x e
  | 3 => tileCheckPtr e
  | 4 =>
    let st := tileCheckPtr e
    bif !(st == 0) then st
    else match sourceFmt s b ord e 1 (wFmt w) (fun _ => true) with
      | .error st => bif st == 0x0206 then firstStatus [tileCheckLen x e (handleLen s b e), st] else st
      | .ok p => tileCheckLen x e p.data.size
  | 5 => (match sourceFmt s b ord e 1 (wFmt w) (fun _ => true) with
    | .error st => st
    | .ok p => roomCheck s b e 2 p.data.size)
  | _ => failIf (!((eVal e 2).toNat % 64 == 0) || !((eVal e 3).toNat % 64 == 0)) 0x018A

/-- A range that an instruction reads or writes: whether it writes, which space (0 bench store, 1 + node the memory of a node), start and
length. -/
structure Span where
  writes : Bool
  space  : Nat
  start  : Nat
  len    : Nat
  deriving DecidableEq, Repr

/-- Where a pointer's memory lies, as `Span.space`. -/
def ptrPlace (s : State) (v rank : Nat) : Nat := 1 + (bif ptrSpace v == 0 then ownNode s else bif entryGw rank then 8192 + rank else entryNode rank)

/-- The longest packet, in bytes: 257 lines. -/
def longestPkt : Nat := 65792

/-- The ranges of a Sprue instruction (R156). -/
def spansOf (s : State) (b : Nat) (e : Entry) : List Span :=
  let w := e.word
  let v := (eVal e (sprPtr w)).toNat
  let place := ptrPlace s v e.rank
  let tile := fun (wr : Bool) => bif wFile w 1 == 2 then
      (match getT (bench s b) (wIndex w 1) with | some h => [Span.mk wr 0 (h.start * 256) (h.lines * 256)] | none => []) else []
  match wOpc w with
  | 1 => [⟨true, 0, (eVal e 1).toNat, (eVal e 3).toNat⟩, ⟨false, place, ptrOff v, (eVal e 3).toNat⟩]
  | 2 => [⟨false, 0, (eVal e 2).toNat, (eVal e 3).toNat⟩, ⟨true, place, ptrOff v, (eVal e 3).toNat⟩]
  | 3 => tile true ++ [⟨false, place, ptrOff v, longestPkt⟩]
  | 4 => tile false ++ [⟨true, place, ptrOff v, longestPkt⟩]
  | 5 => tile false
  | _ => []

def spansMeet (a b : Span) : Bool := a.space == b.space && Nat.blt a.start (b.start + b.len) && Nat.blt b.start (a.start + a.len)

/-- The instructions of a Sprue in flight: started and not executed. -/
def inFlight (x : Bench) (ord : Nat) : List Entry := (tget x.queues ord []).filter fun e => e.phase == .started
/-- Whether a Sprue may start another instruction (R156, R157): at most 8 that have started and not retired, no overlap with what one in
flight writes, and none that waits on Drift. -/
def sprueFree (s : State) (b ord : Nat) (e : Entry) : Bool :=
  let x := bench s b
  let busy := (tget x.queues ord []).filter fun e => !(e.phase == .queued)
  Nat.blt busy.length 8
    && !((inFlight x ord).any fun o => (spansOf s b o).any fun a => a.writes && (spansOf s b e).any fun c => spansMeet a c)
    && !(s.reqs.any fun r => r.2.bench == b && r.2.ord == ord && r.2.segs.any fun g => g.state == .waiting)

/-! ## Segments -/

/-- A segment begins: a remote one sends its packets; a near one looks in the Sprue's TLB, and walks on a miss (R239). -/
def startSeg (q k : Nat) (s : State) : State :=
  match tget? s.reqs q with
  | none => s
  | some r =>
    match r.segs[k]?, r.rank with
    | some _, some _ => startRemoteSeg q k false s
    | some g, none =>
      let v := g.va / 2 ^ 21
      let tlb := tget (bench s r.bench).tlbs (r.ord % 2) []
      bif tlb.contains v then
        touchSegment q k r g (modBench r.bench (fun x => { x with tlbs := tset x.tlbs (r.ord % 2) (touchLru 256 v tlb) }) s)
      else modSeg q k (fun g => { g with state := .walking }) s
    | none, _ => s
/-- Every segment of a request begins. -/
def startSegs (q : Nat) (s : State) : State :=
  match tget? s.reqs q with
  | none => s
  | some r => sendWaiting ((List.range r.segs.length).foldl (fun s k => startSeg q k s) s)

/-- The segments of `n` bytes at a pointer's offset, with the near end at `loc` (R101). -/
def segsOf (off loc n : Nat) : List Seg := (piecesOf off n).map fun c => newSeg c.1 (loc + (c.1 - off)) c.2

/-- A split request of a Sprue begins. -/
def startSplit (b ord : Nat) (e : Entry) (segs : List Seg) (buf : Option (List Byte)) (head : Bool) (s : State) : State :=
  let w := e.word
  let q := s.nextReq
  let v := (eVal e (sprPtr w)).toNat
  let r : Req := {
    prog := (bench s b).prog, role := (bench s b).role, faulted := false, first := none, land := [],
    bench := b, eid := e.eid, part := benchPart s b, ord := ord, off := e.off, write := sprWrites w, segs := segs,
    record := some (wImmBits w 23 0), pred := wIndex w 4, soft := wSoft w, done := false,
    rank := (bif ptrSpace v == 0 then none else some e.rank), ordered := false, nearDev := false, buf := buf, head := head }
  startSegs q (modEntry b ord e.eid (fun e => { e with reqs := [q] }) { s with reqs := tset s.reqs q r, nextReq := q + 1 })

/-- The started entry of a Sprue that an instruction command executes: the oldest that has made no request yet. -/
def sprueEntry (s : State) (b ord opc : Nat) : Option Entry :=
  match (tget (bench s b).queues ord []).find? (fun e => e.phase == .started && e.reqs.isEmpty) with
  | none => none
  | some e => bif wUnit e.word == 6 && wOpc e.word == opc && !((bench s b).halted.contains ord) then some e else none

/-- A Sprue instruction command. -/
def onSprue (b ord opc : Nat) (f : Entry → State → State) (s : State) : State :=
  match sprueEntry s b ord opc with
  | none => s
  | some e => f e s

/-- SPRD and SPWR. -/
def blockRun (b ord : Nat) (e : Entry) (s : State) : State :=
  let off := ptrOff (eVal e (sprPtr e.word)).toNat
  startSplit b ord e (segsOf off (eVal e (sprNear e.word)).toNat (eVal e 3).toNat) none false s

def execSprd (b : BenchId) (i : Fin 2) (t : Time) (s : State) : Host.Outcome State Fault Refusal :=
  .next (onSprue b.val (ordinalOf 6 i.val) 1 (blockRun b.val (ordinalOf 6 i.val)) (atTime t s))
def execSpwr (b : BenchId) (i : Fin 2) (t : Time) (s : State) : Host.Outcome State Fault Refusal :=
  .next (onSprue b.val (ordinalOf 6 i.val) 2 (blockRun b.val (ordinalOf 6 i.val)) (atTime t s))

/-- SPTLD first reads the 64-byte header (R155). -/
def sptldRun (b ord : Nat) (e : Entry) (s : State) : State :=
  startSplit b ord e (segsOf (ptrOff (eVal e 2).toNat) 0 64) (some (List.replicate 64 0)) true s
def execSptld (b : BenchId) (i : Fin 2) (t : Time) (s : State) : Host.Outcome State Fault Refusal :=
  .next (onSprue b.val (ordinalOf 6 i.val) 3 (sptldRun b.val (ordinalOf 6 i.val)) (atTime t s))

/-- SPTST writes the BYTES bytes of its source packet (R155). -/
def sptstRun (b ord : Nat) (e : Entry) (s : State) : State :=
  match sourceFmt s b ord e 1 (wFmt e.word) (fun _ => true) with
  | .error st => stationFault b ord e st s
  | .ok p => startSplit b ord e (segsOf (ptrOff (eVal e 2).toNat) 0 p.data.size) (some p.data.toList) false s
def execSptst (b : BenchId) (i : Fin 2) (t : Time) (s : State) : Host.Outcome State Fault Refusal :=
  .next (onSprue b.val (ordinalOf 6 i.val) 4 (sptstRun b.val (ordinalOf 6 i.val)) (atTime t s))

/-- SPXF: the packet is on its way to the slot (R159). -/
def spxfRun (b ord : Nat) (e : Entry) (s : State) : State :=
  match sourceFmt s b ord e 1 (wFmt e.word) (fun _ => true), ePort e 2 with
  | .error st, _ => stationFault b ord e st s
  | .ok _, none => s
  | .ok p, some port =>
    match portChan s b port with
    | none => s
    | some (c, id, _) =>
      modEntry b ord e.eid (fun e => { e with phase := .executed })
        (modChan c id (fun ch => { ch with writing := ch.writing ++ [p.data.toList] }) s)
def execSpxf (b : BenchId) (i : Fin 2) (s : State) : Host.Outcome State Fault Refusal :=
  .next (onSprue b.val (ordinalOf 6 i.val) 5 (spxfRun b.val (ordinalOf 6 i.val)) s)

/-- SPPF warms one page: its entry enters the TLB, HEAT is 255, and Drift is asked for a page in tier 2 (R160, R242, R247). -/
def warmPage (b ord v : Nat) (s : State) : State :=
  let p := benchPart s b
  match leaf? s p v with
  | none => s
  | some l =>
    let s := modBench b (fun x => { x with tlbs := tset x.tlbs (ord % 2) (touchLru 256 v (tget x.tlbs (ord % 2) [])) }) (setLeaf p v { l with heat := 255 } s)
    bif l.res == 1 && !l.t2d && !l.pin then
      modPartition p (fun x => { x with prefetch := bif x.prefetch.contains v then x.prefetch else x.prefetch ++ [v] }) s
    else s
/-- SPPF (R160): pages of another node are ignored. -/
def sppfRun (b ord : Nat) (e : Entry) (s : State) : State :=
  let v := (eVal e 2).toNat
  let pages := bif ptrSpace v == 0 then (piecesOf (ptrOff v) (eVal e 3).toNat).map fun c => c.1 / 2 ^ 21 else []
  modEntry b ord e.eid (fun e => { e with phase := .executed }) (pages.foldl (fun s v => warmPage b ord v s) s)
def execSppf (b : BenchId) (i : Fin 2) (s : State) : Host.Outcome State Fault Refusal :=
  .next (onSprue b.val (ordinalOf 6 i.val) 6 (sppfRun b.val (ordinalOf 6 i.val)) s)

/-! ## The end of a segment (R102, R155, R269, R384) -/

/-- A line of device memory read to the near end at `loc`; a bad line leaves it as it was. `a` is the first failure and the state. -/
def lineTo (q : Nat) (r : Req) (pa loc : Nat) (a : Status × State) : Status × State :=
  let s := lineSeen pa a.2
  match lineRead a.2 pa with
  | .fail st => (bif a.1 == 0 then st else a.1, s)
  | .ok =>
    let r := match tget? s.reqs q with | some r => r | none => r
    let w := nearWrite q r loc (memRead s pa 64) s
    (bif a.1 == 0 then w.1 else a.1, w.2)

/-- One 64-byte unit of a read. -/
def readLine (q : Nat) (r : Req) (l : Leaf) (g : Seg) (a : Status × State) (k : Nat) : Status × State :=
  lineTo q r (paOf l (g.va + 64 * k)) (g.loc + 64 * k) a

/-- The leaf that a translated segment uses: one unmapped since, or the page's own (R233). -/
def segLeaf (s : State) (p va : Nat) (write : Bool) : Except Status Leaf :=
  match tget? (partition s p).going (va / 2 ^ 21) with
  | some l => bif write && (l.fen || frameFenced s l.frame) then .error 0x0301 else .ok l
  | none => pageAccess s p va write

/-- A segment's end state and status. -/
def endSeg (q k : Nat) (st : SegState) (status : Status) (s : State) : State := modSeg q k (fun g => { g with state := st, status := status }) s

/-- A line of bench store that cannot be read stops a write and fences the Sprue (Table 16.2, R552). -/
def nearFault (r : Req) (st : Status) (s : State) : State := bif st == arrayError then causeStation (r.bench * 16 + r.ord) 0x030B s else s

/-- The data of an admitted near segment move. -/
def moveData (q k : Nat) (r : Req) (g : Seg) (l : Leaf) (s : State) : State :=
  bif r.write then
    match nearRead r g.loc g.len s with
    | .error st => endSeg q k .refused st (nearFault r st s)
    | .ok bs => endSeg q k .landed 0 (writeArrived r.part g.va bs (memWrite (paOf l g.va) bs (abortMoveOut r.part (g.va / 2 ^ 21) s)))
  else
    let a := ((List.range (g.len / 64)).drop (segRead r k / 64)).foldl (readLine q r l g) (0, s)
    bif a.1 == 0 then endSeg q k .landed 0 a.2 else endSeg q k .failed a.1 a.2

/-- A near segment moves as its partition's regulators admit it (R251), unless the home's state or its page refuses it. -/
def moveSeg (q k : Nat) (r : Req) (g : Seg) (s : State) : State :=
  bif ownDenied s r.part g.va r.write (ownNode s) then endSeg q k .refused 0x0486 s
  else
    match segLeaf s r.part g.va r.write with
    | .error st => endSeg q k .refused st s
    | .ok l => whenAdmitted r.part (paOf l g.va) g.len (moveData q k r g l) s

/-- Whether a segment has ended. -/
def segEnded (g : Seg) : Bool := g.state == .landed || g.state == .failed || g.state == .refused

/-- The record of Table 3.9. -/
def recordBytes (segs : List Seg) : List Byte :=
  let first := firstIdx (fun (g : Seg) => !(g.state == .landed)) segs
  let st := match first with | some n => (match segs[n]? with | some g => g.status.toNat | none => 0) | none => 0
  let mask := fun (p : Seg → Bool) => (List.range segs.length).foldl (fun a k => a + (match segs[k]? with | some g => b01 (p g) | none => 0) * 2 ^ k) 0
  leBytes 2 st ++ leBytes 1 segs.length ++ leBytes 1 (match first with | some n => n | none => 0xFF) ++ leBytes 4 0
    ++ leBytes 8 (sumNat ((segs.filter fun g => g.state == .landed).map (·.len)))
    ++ leBytes 8 (mask fun g => g.state == .landed) ++ leBytes 8 (mask fun g => g.state == .failed)

/-- What a SPTLD leaves when it retires: the handle or the port takes the packet only when every segment has landed (R155). -/
def sptldEffs (s : State) (r : Req) (e : Entry) : List Eff :=
  bif !(r.segs.all fun g => g.state == .landed) then []
  else bif wFile e.word 1 == 2 then
    match getT (bench s r.bench) (wIndex e.word 1) with
    | none => []
    | some h =>
      let hd := r.first.getD []
      [.handle (wIndex e.word 1) ⟨h.start, linesFor (leAt hd 20 4), BitVec.ofNat 512 (leNat hd)⟩]
  else
    match ePort e 1, r.buf with
    | some p, some bs => [.send p (sliceBytes bs 0 (leAt bs 20 4))]
    | _, _ => []

/-- What a completed request writes in its role: the data that landed in bench store, the record, then the predicate (R54, R103). -/
def landReq (r : Req) (x : Bench) : Bench :=
  let x := r.land.foldl (fun x w => storeWrite w.1 w.2 x) x
  setPred r.pred (match r.record with | some a => storeWrite a (recordBytes r.segs) x | none => x)

/-- The entry of a Sprue's request, unless its bench has abandoned it. -/
def reqEntry (s : State) (r : Req) : Option Entry := (tget (bench s r.bench).queues r.ord []).find? fun e => e.eid == r.eid

/-- When every segment has ended the record is written in the role, wherever it stands, then the predicate is set; an instruction that has
not faulted has executed (R66, R103, R112, R155, R156). -/
def finishReq (q : Nat) (s : State) : State :=
  match tget? s.reqs q with
  | none => s
  | some r =>
    bif !(r.segs.all segEnded) then s
    else
      let s := { s with reqs := terase s.reqs q }
      match r.prog with
      | none => s
      | some n =>
        let s := modRole n r.role (landReq r) s
        bif r.ord == 13 || r.faulted then s
        else
          match reqEntry s r with
          | none => s
          | some e => modEntry r.bench r.ord r.eid (fun x => { x with phase := .executed, effs := bif wOpc e.word == 3 then sptldEffs s r e else [] }) s

/-- Whether a segment failed or was refused with a status of its own: one that a stop left untouched has none. -/
def segBad (g : Seg) : Bool := segEnded g && !(g.state == .landed) && !(g.status == 0)

/-- A request faults its program, on its Sprue or as the system queue; an instruction that the stop has abandoned does not (R114). -/
def reqReport (r : Req) (st : Status) (s : State) : State :=
  match r.prog with
  | none => s
  | some n => bif r.ord == 13 then roleFault n r.role 13 r.off st s else bif (reqEntry s r).isSome then reportFault r.bench r.ord r.off st s else s

/-- The first segment that fails or is refused faults the program, once, when SOFT is 0 (R104): one that had ended so before segment `k`,
or `k`. -/
def segFault (q k : Nat) (was : List Seg) (s : State) : State :=
  match tget? s.reqs q with
  | none => s
  | some r =>
    bif r.soft || r.faulted then s
    else
      match was.find? segBad, (r.segs[k]?).filter segBad with
      | some g, _ => reqReport r g.status (modReq q (fun r => { r with faulted := true }) s)
      | none, some g => reqReport r g.status (modReq q (fun r => { r with faulted := true }) s)
      | none, none => s

/-- The header of a SPTLD has been read: it is checked as R41 and R78 state, whatever SOFT says, then the room at the destination; the
segments of the packet then begin, and the rest is read (R155). -/
def headRead (q : Nat) (r : Req) (s : State) : State :=
  let hd := r.buf.getD []
  match reqEntry s r with
  | none => { s with reqs := terase s.reqs q }
  | some e =>
    let len := leAt hd 20 4
    let n := (len + 63) / 64 * 64
    let st := firstStatus [headerCheck hd, failIf (!(pktAccepts (wFmt e.word) (fun _ => true) (parsePkt hd))) 0x0109,
      tileCheckLen (bench s r.bench) e n, roomCheck s r.bench e 1 len]
    bif !(st == 0) then reportFault r.bench r.ord r.off st { s with reqs := terase s.reqs q }
    else
      let h := bif wFile e.word 1 == 2 then getT (bench s r.bench) (wIndex e.word 1) else none
      let loc := match h with | some h => h.start * 256 | none => 0
      startSegs q (modReq q (fun r => { r with
        head := false, segs := segsOf (ptrOff (eVal e 2).toNat) loc n, first := some hd,
        land := bif h.isSome then [(loc, hd)] else [],
        buf := bif h.isSome then none else some (hd ++ List.replicate (n - 64) 0) }) s)

/-- How a remote segment whose packets have all ended ends (R385, R386). -/
def remoteSegEnd (g : Seg) (n : Nat) : SegState :=
  bif g.okN == n then .landed else bif Nat.blt 0 g.okN || g.unk then .failed else .refused

/-- A header that could not be read fails segment 0 of the load; nothing else starts (R155). -/
def headFailed (g : Seg) : Seg := { g with state := .failed }

/-- SEGMENT_END: a segment ends as landed, failed or untouched; with the last one the request completes (R102, R103). -/
def segmentEnd (q k : Nat) (s : State) : State :=
  match tget? s.reqs q with
  | none => s
  | some r =>
    match r.segs[k]? with
    | none => s
    | some g =>
      let s' := bif g.state == .moving then
          (bif r.rank.isSome then
            (bif g.todo == 0 then modSeg q k (fun g => { g with state := remoteSegEnd g (packetsOf r k g).length }) s else s)
          else moveSeg q k r g s)
        else s
      let s' := bif r.head then modReq q (fun r => { r with segs := r.segs.map fun g => bif g.state == .refused && !(g.status == 0) then headFailed g else g }) s' else s'
      match tget? s'.reqs q with
      | none => s'
      | some r' =>
        match r'.segs[k]? with
        | none => s'
        | some g' =>
          bif !(segEnded g') then s'
          else bif r'.head && g'.state == .landed then headRead q r' s'
          else finishReq q (segFault q k r.segs (reapPages r.part s'))

def execSegmentEnd (req seg : Nat) (t : Time) (s : State) : Host.Outcome State Fault Refusal :=
  .next (segmentEnd req seg (atTime t s))

end Sys2Proof.Machine
end

