-- ==== Sys2Proof/Machine/Swage.lean ====
section
/-! DEFINITION. The Swage (R147 to R150): SWT, SWX, SWGA, SWSC and SWC. -/

namespace Sys2Proof.Machine

/-- A header kept. -/
def keepHdr (p : Pkt) : NewPkt :=
  { fmt := p.fmt, rows := p.rows, cols := p.cols, tag := p.tag, flags := p.flags, rotblk := p.rotblk, seq := p.seq, stream := p.stream,
    tscale := p.tscale, sat := p.sat, spovf := p.spovf, zero := p.zero, under := p.under, maxabs := p.maxabs }

/-- A source in a format without scales: a block-scaled packet faults with 0x0186, whatever FMT says (R147, R149). -/
def plainSource (s : State) (b ord : Nat) (e : Entry) : Except Status Pkt :=
  match sourcePkt s b ord e 1 with
  | .error st => .error st
  | .ok p => bif !(isPlainFmt p.fmt) then .error 0x0186 else bif pktAccepts (wFmt e.word) isPacketFmt p then .ok p else .error 0x0109

/-- SWT (R147). -/
def swtExec (b ord : Nat) (e : Entry) (s : State) : ExecRes :=
  match plainSource s b ord e with
  | .error st => .fault st
  | .ok p =>
    let h := { keepHdr p with rows := p.cols, cols := p.rows, flags := Nat.xor p.flags 8 }
    .effs (writePkt s b e 2 (plainPkt h fun r c => p.code (c * 128 + r)))

def execSwt (b : BenchId) (s : State) : Host.Outcome State Fault Refusal :=
  .next (stationExec b.val 8 4 0x01 (fun e => swtExec b.val 8 e s) s)

/-! ## SWX -/

/-- The region of an SWX (Table 4.13). -/
structure SwxRegion where
  sr : Nat
  sc : Nat
  nr : Nat
  nc : Nat
  dr : Nat
  dc : Nat

def swxRegion (w : W128) : SwxRegion :=
  let i := fun h l => wImmBits w h l
  ⟨i 6 0, i 13 7, i 21 14, i 29 22, i 36 30, i 43 37⟩

/-- Why a block-scaled copy is not accepted (R148). -/
def swxScaledBad (g : SwxRegion) (p q : Pkt) : Bool :=
  let bl := blockLen p.fmt
  let ks := bif p.orient then [g.sr, g.dr, g.nr] else [g.sc, g.dc, g.nc]
  ks.any (fun k => !(k % bl == 0)) || !(p.tscale == q.tscale) || !(p.orient == q.orient)
    || p.spill || p.esc || q.spill || q.esc

/-- Source and destination of an SWX with the checks of R41, R78 and R148. -/
def swxCheck (s : State) (b ord : Nat) (e : Entry) : Except Status (Pkt × Pkt) :=
  let w := e.word
  match sourceFmt s b ord e 1 (wFmt w) isPacketFmt with
  | .error st => .error st
  | .ok p =>
    match sourceFmt s b ord e 2 (wFmt w) isPacketFmt with
    | .error st => .error st
    | .ok q =>
      let g := swxRegion w
      let st := firstStatus [
        failIf (Nat.blt p.rows (g.sr + g.nr) || Nat.blt p.cols (g.sc + g.nc) || Nat.blt 128 (g.dr + g.nr) || Nat.blt 128 (g.dc + g.nc)) 0x0201,
        failIf (!(p.fmt == q.fmt)) 0x0109,
        failIf (blockScaled p.fmt && swxScaledBad g p q) 0x0186,
        roomCheck s b e 2 (pktLen q.fmt q.spill)]
      bif st == 0 then .ok (p, q) else .error st

/-- Whether (r, c) lies in the destination region. -/
def inRegion (g : SwxRegion) (r c : Nat) : Bool :=
  Nat.ble g.dr r && Nat.blt r (g.dr + g.nr) && Nat.ble g.dc c && Nat.blt c (g.dc + g.nc)

/-- The code of element (r, c) after the copy; an element that was not valid before and is not copied is zero. -/
def swxCode (g : SwxRegion) (p q : Pkt) (r c : Nat) : Nat :=
  bif inRegion g r c then p.code (p.index (g.sr + (r - g.dr)) (g.sc + (c - g.dc)))
  else bif Nat.blt r q.rows && Nat.blt c q.cols then q.code (q.index r c) else 0

/-- The scale byte of block `m` after the copy. -/
def swxScale (g : SwxRegion) (p q : Pkt) (m : Nat) : Nat :=
  let per := 128 / blockLen q.fmt
  let a := m / per
  let k := m % per * blockLen q.fmt
  let d := akOf q.orient a k
  bif inRegion g d.1 d.2 then
    let t := akOf p.orient (g.sr + (d.1 - g.dr)) (g.sc + (d.2 - g.dc))
    p.byte (scaleOff p.fmt + blockOf p.fmt t.1 t.2)
  else bif Nat.blt a q.aExt && Nat.blt k q.kExt then q.byte (scaleOff q.fmt + m) else 0

/-- A packet of any format without spill area, from codes by row and column and scale bytes by block. -/
def rawPkt (h : NewPkt) (code : Nat → Nat → Nat) (scale : Nat → Nat) : List Byte :=
  let orient := bit h.flags 3
  headerBytes h ++ elemBytes h.fmt (fun n =>
      let q := bif blockScaled h.fmt then akOf orient (n / 128) (n % 128) else (n / 128, n % 128)
      code q.1 q.2)
    ++ (List.range (scaleBytes h.fmt)).map fun m => BitVec.ofNat 8 (scale m)

/-- The packet of the destination after the copy, its header not yet settled. -/
def swxPacket (g : SwxRegion) (p q : Pkt) (h : NewPkt) : List Byte := rawPkt h (swxCode g p q) (swxScale g p q)

/-- The number of valid elements whose value is exactly zero. -/
def zeroCount (p : Pkt) : Nat :=
  ((region p.rows p.cols).filter fun x => match p.unscaled x.1 x.2 with | .fin v => exIsZero v | _ => false).length

/-- SWX (R148). -/
def swxExec (b ord : Nat) (e : Entry) (s : State) : ExecRes :=
  match swxCheck s b ord e with
  | .error st => .fault st
  | .ok (p, q) =>
    let g := swxRegion e.word
    let h := { keepHdr q with rows := Nat.max q.rows (g.dr + g.nr), cols := Nat.max q.cols (g.dc + g.nc), sat := q.sat + p.sat,
                              spovf := q.spovf + p.spovf, under := q.under + p.under, maxabs := Nat.max q.maxabs p.maxabs }
    let z := zeroCount (parsePkt (swxPacket g p q h))
    .effs (writePkt s b e 2 (swxPacket g p q { h with zero := z }))

def execSwx (b : BenchId) (s : State) : Host.Outcome State Fault Refusal :=
  .next (stationExec b.val 8 4 0x02 (fun e => swxExec b.val 8 e s) s)

/-! ## SWGA, SWSC, SWC -/

/-- Bytes of a row of 128 elements. -/
def rowBytes (f : Nat) : Nat := 16 * elemWidth f

/-- The addresses of an index table, with the checks of R149. -/
def indexTable (s : State) (b table count f : Nat) : Except Status (List Nat) :=
  let x := bench s b
  bif !(holdsBytes x table (4 * count)) then .error 0x0206
  else bif storeBad x table (4 * count) then .error arrayError
  else
    let l := (List.range count).map fun k => leNat (storeRead s b (table + 4 * k) 4)
    bif l.any fun a => !(a % 64 == 0) then .error 0x018A
    else bif l.any fun a => !(holdsBytes x a (rowBytes f)) then .error 0x0206
    else .ok l

/-- SWGA (R149). -/
def swgaExec (b : Nat) (e : Entry) (s : State) : ExecRes :=
  let w := e.word
  let f := wFmt w
  let count := (eVal e 3).toNat
  match indexTable s b (eVal e 1).toNat count f with
  | .error st => .fault st
  | .ok l =>
    bif l.any fun a => storeBad (bench s b) a (rowBytes f) then .fault arrayError else
    let sid := eVal e 4
    let rows := l.flatMap fun a => storeRead s b a (rowBytes f)
    let h := newPkt f count 128 (sidTag sid) (sidSeq sid) 0 0 0
    let p := parsePkt (headerBytes h ++ rows)
    let st := (region count 128).foldl (fun (t : Stats) q => t.count (p.unscaled q.1 q.2) false false) ⟨0, 0, 0, Ex.zero⟩
    let h := { h with zero := st.zero, maxabs := f32OfMag (magOf st.big false) }
    .effs (writePkt s b e 2 (headerBytes h ++ rows ++ List.replicate ((128 - count) * rowBytes f) 0))

def execSwga (b : BenchId) (s : State) : Host.Outcome State Fault Refusal :=
  .next (stationExec b.val 8 4 0x03 (fun e => swgaExec b.val e s) s)

/-- Row `r` of a packet of a plain format as bytes; an element that is not valid is zero (R43). -/
def rowOfPkt (p : Pkt) (r : Nat) : List Byte :=
  (List.range 128).flatMap fun c =>
    leBytes (elemWidth p.fmt / 8) (bif Nat.blt r p.rows && Nat.blt c p.cols then p.code (r * 128 + c) else 0)

/-- SWSC (R149): later rows stand over earlier ones. -/
def swscExec (b ord : Nat) (e : Entry) (s : State) : ExecRes :=
  match plainSource s b ord e with
  | .error st => .fault st
  | .ok p =>
    match indexTable s b (eVal e 2).toNat (eVal e 3).toNat p.fmt with
    | .error st => .fault st
    | .ok l => .effs ((List.range l.length).zipWith (fun r a => Eff.store a (rowOfPkt p r)) l)

def execSwsc (b : BenchId) (s : State) : Host.Outcome State Fault Refusal :=
  .next (stationExec b.val 8 4 0x04 (fun e => swscExec b.val 8 e s) s)

/-- The checks of SWC (R150): a length above bench store itself comes before the granules (R100). -/
def swcCheck (s : State) (b : Nat) (e : Entry) : Status :=
  let d := (eVal e 1).toNat
  let a := (eVal e 2).toNat
  let n := (eVal e 3).toNat
  firstStatus [failIf (!(d % 64 == 0) || !(a % 64 == 0) || !(n % 64 == 0)) 0x018A, failIf (Nat.blt benchBytes n) 0x0201,
    failIf (!(holdsBytes (bench s b) d n) || !(holdsBytes (bench s b) a n)) 0x0206, failIf (storeBad (bench s b) a n) arrayError]

/-- SWC. -/
def swcExec (b : Nat) (e : Entry) (s : State) : ExecRes :=
  let st := swcCheck s b e
  bif !(st == 0) then .fault st
  else .effs [.store (eVal e 1).toNat (storeRead s b (eVal e 2).toNat (eVal e 3).toNat)]

def execSwc (b : BenchId) (s : State) : Host.Outcome State Fault Refusal :=
  .next (stationExec b.val 8 4 0x05 (fun e => swcExec b.val e s) s)

/-- What a Swage checks when it starts an instruction. -/
def swageStart (b ord : Nat) (e : Entry) (s : State) : Status :=
  let w := e.word
  match wOpc w with
  | 0x01 => (match plainSource s b ord e with | .error st => st | .ok p => roomCheck s b e 2 (pktLen p.fmt false))
  | 0x02 => (match swxCheck s b ord e with | .error st => st | .ok _ => 0)
  | 0x03 =>
    (match indexTable s b (eVal e 1).toNat (eVal e 3).toNat (wFmt w) with
     | .error st => st
     | .ok _ => roomCheck s b e 2 (pktLen (wFmt w) false))
  | 0x04 =>
    (match plainSource s b ord e with
     | .error st => st
     | .ok p => match indexTable s b (eVal e 2).toNat (eVal e 3).toNat p.fmt with | .error st => st | .ok _ => 0)
  | _ => swcCheck s b e

end Sys2Proof.Machine
end

