-- ==== Sys2Proof/Machine/Temper.lean ====
section
/-! DEFINITION. The Temper (R134 to R140, R185 to R203, R548): QNT, DQT, HAD and ASY. -/

namespace Sys2Proof.Machine

/-! ## Rotation (R198, R200, R548) -/

def valNeg : Val → Val
  | .fin x => .fin (exNeg x)
  | .inf n => .inf (!n)
  | .nan => .nan

/-- The Hadamard transform of 2^n values in Sylvester order, without scaling. -/
def hadamard : Nat → List Val → List Val
  | 0, l => l
  | n + 1, l =>
    let u := l.take (2 ^ n)
    let v := l.drop (2 ^ n)
    hadamard n (List.zipWith valAdd u v) ++ hadamard n (List.zipWith (fun a b => valAdd a (valNeg b)) u v)

/-- Block size B of BLK or ROTBLK: 1 is 16, 4 is 128. -/
def rotSize (blk : Nat) : Nat := 8 * 2 ^ blk
/-- 1 ÷ √B is 1 ÷ rotDiv, over √2 when rotSurd. -/
def rotDiv (blk : Nat) : Nat := bif Nat.ble blk 2 then 4 else 8
def rotSurd (blk : Nat) : Bool := blk == 2 || blk == 4

/-- The sign s(k) applied. -/
def withSign (seed k : Nat) (v : Val) : Val := bif signDraw seed k then valNeg v else v

/-- One block of a row, positions k0 on, rotated or rotated back. -/
def rotBlock (blk seed : Nat) (inv : Bool) (k0 : Nat) (l : List Val) : List Val :=
  let d : Ex := ⟨1, rotDiv blk⟩
  let signed := fun (l : List Val) => (List.range l.length).zipWith (fun i v => withSign seed (k0 + i) v) l
  let h := hadamard (blk + 3) (bif inv then l else signed l)
  (bif inv then signed h else h).map (valScale d)

/-- A tile of values by (a, k), its extents along the two axes, and whether its values are over √2. -/
structure Tile where
  aExt : Nat
  kExt : Nat
  surd : Bool
  vals : Array Val

def Tile.at_ (t : Tile) (a k : Nat) : Val := bif Nat.blt k t.kExt then (t.vals[a * t.kExt + k]?).getD .nan else .fin Ex.zero

/-- A packet's valid elements as a tile whose K axis is rows when `kax`. -/
def tileOf (p : Pkt) (kax : Bool) (val : Nat → Nat → Val) : Tile :=
  let ae := bif kax then p.cols else p.rows
  let ke := bif kax then p.rows else p.cols
  { aExt := ae, kExt := ke, surd := false
    vals := ((region ae ke).map fun q => bif kax then val q.2 q.1 else val q.1 q.2).toArray }

/-- A tile rotated along K: invalid positions enter as zero, and the extent along K rises to a multiple of B (R200). -/
def rotate (t : Tile) (blk seed : Nat) (inv : Bool) : Tile :=
  let b := rotSize blk
  let ke := Nat.min 128 ((t.kExt + b - 1) / b * b)
  let row := fun a => (List.range (ke / b)).flatMap fun j =>
    rotBlock blk seed inv (j * b) ((List.range b).map fun l => t.at_ a (j * b + l))
  { aExt := t.aExt, kExt := ke, surd := rotSurd blk, vals := ((List.range t.aExt).flatMap row).toArray }

/-! ## Elements of narrow formats -/

/-- Magnitude codes of a format: value, largest code and code bits. -/
def magTable (f : Nat) : (Nat → Nat × Nat) × Nat × Nat :=
  match fpOf f with
  | some g => (fpMag g, g.maxCode, magBits g)
  | none => bif f == 3 then (fun c => (c, 1), 1, 1) else (fun c => (c, 64), 127, 7)

/-- The largest finite value Cmax of a format (R188). -/
def cmaxOf (f : Nat) : Nat × Nat := bif f == 4 then (1, 1) else (magTable f).1 (magTable f).2.1

/-- The element code of a magnitude code and a sign (Tables 5.2 to 5.4, R166, R167). -/
def signedCode (f : Nat) (neg : Bool) (m : Nat) : Nat :=
  match fpOf f with
  | some g => bif m == 0 then 0 else m + b01 neg * 2 ^ magBits g
  | none =>
    match f with
    | 0x03 => bif m == 0 then 0 else bif neg then 3 else 1
    | 0x04 => b01 neg
    | _ => bif neg then (256 - m) % 256 else m

/-- Rounding of y to TQ1: −1 below zero and +1 otherwise, or stochastically between −1 and +1 (R176, R177). -/
def roundTq1 (sr neg : Bool) (u : Nat) (m : Mag) : Rounded :=
  bif !(magLe m 1 1) then ⟨b01 neg, true, true⟩
  else bif !(magLt m 1 1) then ⟨b01 neg, false, false⟩
  else bif !sr then ⟨b01 (neg && !(magIsZero m)), false, true⟩
  else
    -- u < F when y ≥ (u + 1) ÷ 2^23 − 1
    let up := bif Nat.ble (u + 1) 8388608 then (!neg || magLe m (8388607 - u) 8388608) else (!neg && !(magLt m (u + 1 - 8388608) 8388608))
    ⟨b01 (!up), false, true⟩

/-- Rounding of y to the element format in a mode (R176 to R178): the code with its sign, whether y was out of range, and whether it
underflowed (R181). -/
def roundElem (f : Nat) (sr neg : Bool) (u : Nat) (m : Mag) : Nat × Bool × Bool :=
  bif f == 4 then let r := roundTq1 sr neg u m; (r.code, r.oor, false)
  else
    let t := magTable f
    let r := bif sr then roundStoch t.1 t.2.1 t.2.2 neg u m else roundNear t.1 t.2.1 t.2.2 m
    (signedCode f neg r.code, r.oor, r.code == 0 && !(magIsZero m))

/-- The residual of a spilled element, |y| less Cmax with y's sign, rounded to FP8 E4M3 (R196): code and whether it saturated. -/
def residualCode (f : Nat) (sr neg : Bool) (u : Nat) (m : Mag) : Nat × Bool :=
  let c := cmaxOf f
  let val := fun n => let v := fpMag fE4M3 n; (v.1 * c.2 + c.1 * v.2, v.2 * c.2)
  let r := bif sr then roundStoch val 0x7E 7 neg u m else roundNear val 0x7E 7 m
  (signedCode 0x20 neg r.code, r.oor)

/-! ## Scales (R188 to R193) -/

/-- The exact value of a finite value, zero for the others. -/
def exOfVal : Val → Ex
  | .fin x => x
  | _ => Ex.zero
def valFin : Val → Bool
  | .fin _ => true
  | _ => false

/-- The positions of a block's valid elements. -/
def blockKs (bl kExt j : Nat) : List Nat := (List.range bl).filterMap fun i => bif Nat.blt (j * bl + i) kExt then some (j * bl + i) else none

/-- The spill candidate of a block, by position (R188). -/
def candidate (mag : Nat → Ex) (ks : List Nat) : Option Nat :=
  bif Nat.ble ks.length 1 then none
  else
    let best := ks.foldl (fun b k => bif exLt (mag b) (mag k) then k else b) (ks.headD 0)
    let second := (ks.filter (· != best)).foldl (fun m k => exMax m (mag k)) Ex.zero
    bif exLt (exMul ⟨2, 1⟩ second) (mag best) then some best else none

/-- The fitting magnitude of a block (R189). -/
def fitting (mag : Nat → Ex) (fin : Nat → Bool) (cand : Option Nat) (ks : List Nat) : Ex :=
  (ks.filter fun k => fin k && !(cand == some k)).foldl (fun m k => exMax m (mag k)) Ex.zero

/-- The fitting magnitudes of every block, in block order: those of a row, row by row. -/
def fits (t : Tile) (nf : Nat → Nat → Bool) (f : Nat) (spill : Bool) : List Ex :=
  let bl := blockLen f
  (List.range t.aExt).flatMap fun a => (List.range (128 / bl)).map fun j =>
    let ks := blockKs bl t.kExt j
    let mag := fun k => bif nf a k then Ex.zero else exAbs (exOfVal (t.at_ a k))
    fitting mag (fun k => !(nf a k)) (bif spill then candidate mag ks else none) ks

/-- A magnitude ÷ (n ÷ d) rounded toward +∞ to FP32, limited to the largest finite value (R190). -/
def tscaleUp (m : Mag) (n d : Nat) : Nat := roundUp (fpMag fFP32) fFP32.maxCode 31 (magDiv m n d)

/-- TSCALE of a TQ packet: fitted to the largest fitting magnitude, or to the history (R190, R193). -/
def tqScale (f : Nat) (surd : Bool) (fs : List Ex) (hist : Nat) : Nat :=
  let c := cmaxOf f
  let a := fs.foldl exMax Ex.zero
  bif !(hist == 0) then tscaleUp (magOf (f32Ex (BitVec.ofNat 32 hist)) false) c.1 c.2
  else bif exIsZero a then 0x3F800000 else tscaleUp (magOf a surd) c.1 c.2

/-- A micro-block scale byte: the quotient rounded up to the next UE5M3 value (R190, R193). -/
def tqByte (f tscale : Nat) (surd : Bool) (m : Ex) : Nat :=
  let c := cmaxOf f
  let t := f32Ex (BitVec.ofNat 32 tscale)
  bif exIsZero m then 0 else roundUp (fpMag fUE5M3) 0xFF 8 (magDiv (magOf m surd) (c.1 * t.num.natAbs) (c.2 * t.den))

/-- A block scale byte: the smallest power of two that fits, clamped (R191). -/
def mxByte (f : Nat) (surd : Bool) (m : Ex) : Nat :=
  let c := cmaxOf f
  let p := fun (n : Nat) => let v := exPow 1 ((n : Int) - 127); (v.num.natAbs, v.den)
  bif exIsZero m then 0 else roundUp p 254 8 (magDiv (magOf m surd) c.1 c.2)

/-! ## Encoding a tile (R136) -/

/-- What the elements of a row come to: codes in increasing k, spill entries, and counts. -/
structure RowOut where
  codes : List Nat
  spill : List (Nat × Nat)
  sat   : Nat
  spovf : Nat
  under : Nat
  rsat  : Nat

/-- A tile encoded. -/
structure TileOut where
  rows   : List RowOut
  scales : List Nat
  tscale : Nat

/-- How a tile is to be encoded: output format, stochastic rounding, spill, the draws. -/
structure EncMode where
  fmt   : Nat
  sr    : Bool
  spill : Bool
  draw  : Nat → Nat

/-- One element of a row (the loop body of R136). `nf` is its non-finite input, `s` the divisor TSCALE × scale. -/
def encElem (m : EncMode) (surd : Bool) (n k : Nat) (nf : Option Val) (x s : Ex) (r : RowOut) : RowOut :=
  match nf with
  | some (.inf neg) => { r with codes := r.codes ++ [bif m.fmt == 4 then b01 neg else signedCode m.fmt neg (magTable m.fmt).2.1] }
  | some _ => { r with codes := r.codes ++ [0] }
  | none =>
    let neg := exIsNeg x
    let u := bif m.sr then m.draw n else 0
    let lost := exIsZero s && !(exIsZero x)
    let y := bif exIsZero s then magOf x surd else magDiv (magOf x surd) s.num.natAbs s.den
    let e := bif lost then (bif m.fmt == 4 then b01 neg else signedCode m.fmt neg (magTable m.fmt).2.1, true, false)
             else roundElem m.fmt m.sr neg u y
    let r := { r with codes := r.codes ++ [e.1], under := r.under + b01 e.2.2 }
    bif !e.2.1 then r
    else bif m.spill then
      bif Nat.blt r.spill.length 2 then
        let q := bif lost then (signedCode 0x20 neg 0x7E, true) else residualCode m.fmt m.sr neg u y
        { r with spill := r.spill ++ [(q.1, k)], rsat := r.rsat + b01 q.2 }
      else { r with spovf := r.spovf + 1 }
    else { r with sat := r.sat + 1 }

/-- A tile encoded with scale bytes and TSCALE. `orient` is ORIENT of the packet: it numbers the elements (R172). -/
def encTile (m : EncMode) (t : Tile) (orient : Bool) (nf : Nat → Nat → Option Val) (scales : List Nat) (tscale : Nat) : TileOut :=
  let bl := blockLen m.fmt
  let scaled := blockScaled m.fmt
  let ts := bif isTqFmt m.fmt then f32Ex (BitVec.ofNat 32 tscale) else Ex.one
  let sc := (scales.map fun b => exMul ts (bif isTqFmt m.fmt then ue5m3 b else (e8m0 b).getD Ex.one)).toArray
  let row := fun a => (List.range t.kExt).foldl (fun r k =>
      let n := bif scaled then a * 128 + k else bif orient then k * 128 + a else a * 128 + k
      let s := bif scaled then (sc[a * (128 / bl) + k / bl]?).getD Ex.one else Ex.one
      encElem m t.surd n k (nf a k) (exOfVal (t.at_ a k)) s r) ⟨[], [], 0, 0, 0, 0⟩
  { rows := (List.range t.aExt).map row, scales := scales, tscale := tscale }

/-- The packet of an encoded tile. -/
def tilePkt (p : NewPkt) (o : TileOut) : List Byte :=
  let codes := (o.rows.map fun r => r.codes.toArray).toArray
  let orient := bit p.flags 3
  let code := fun n =>
    let q := bif blockScaled p.fmt then (n / 128, n % 128) else akOf orient (n / 128) (n % 128)
    match codes[q.1]? with
    | some r => (r[q.2]?).getD 0
    | none => 0
  let scales := bif blockScaled p.fmt then o.scales ++ List.replicate (scaleBytes p.fmt - o.scales.length) 0 else []
  let entry := fun (l : List (Nat × Nat)) i => match l[i]? with | some e => leBytes 1 e.1 ++ leBytes 1 e.2 | none => leBytes 1 0 ++ leBytes 1 0xFF
  let spill := bif bit p.flags 1 then (List.range 128).flatMap fun a =>
      let l := match o.rows[a]? with | some r => r.spill | none => []
      entry l 0 ++ entry l 1 else []
  headerBytes p ++ elemBytes p.fmt code ++ scales.map (BitVec.ofNat 8) ++ spill

/-! ## QNT -/

/-- The mode of a QNT (Table 4.7). -/
structure QntMode where
  sr : Bool
  rot : Bool
  spill : Bool
  esc : Bool
  kax : Bool
  pol : Bool
  escf : Bool
  blk : Nat
  thr : Nat

def qntMode (w : W128) : QntMode :=
  let m := wMod w
  ⟨bit m 0, bit m 1, bit m 2, bit m 3, bit m 4, bit m 5, bit m 6, wImmBits w 2 0, wImmBits w 12 3⟩

/-- A source tile's non-finite count and exact zeros among its valid elements (R201). -/
def inputStats (t : Tile) : Nat × Nat :=
  t.vals.toList.foldl (fun c v => (c.1 + b01 (!(valFin v)), c.2 + b01 (match v with | .fin x => exIsZero x | _ => false))) (0, 0)

/-- Non-finite elements as zero. -/
def zeroed (t : Tile) : Tile := { t with vals := t.vals.map fun v => .fin (exOfVal v) }
/-- The greatest magnitude of a tile. -/
def tileMax (t : Tile) : Ex := t.vals.toList.foldl (fun m v => exMax m (exAbs (exOfVal v))) Ex.zero

/-- Sums over the rows of an encoded tile. -/
def outSum (o : TileOut) (f : RowOut → Nat) : Nat := sumNat (o.rows.map f)

/-- The packet of a QNT and its Assay update (R136, R137, R197, R203, Table 6.4). -/
def qntPacket (w : W128) (p : Pkt) (sid stream seed : W64) (hist eid : Nat) : List Byte × AssayUpd :=
  let q := qntMode w
  let f := wFmt w
  let src := tileOf p q.kax fun r c => valOf (f32Val (p.wide r c))
  let st := inputStats src
  let x := bif q.rot then rotate (zeroed src) q.blk seed.toNat false else zeroed src
  let nf := fun a k => bif q.rot then none else (let v := src.at_ a k; bif valFin v then none else some v)
  let rows := bif q.kax then x.kExt else x.aExt
  let cols := bif q.kax then x.aExt else x.kExt
  let rotF := q.rot || p.rot
  let rotblk := bif q.rot then q.blk else p.rotblk
  let strm := bits stream.toNat 31 0
  let seq := sidSeq sid
  let draw := fun n => srDraw seed.toNat strm seq n
  let isNf := fun a k => (nf a k).isSome
  let fs := bif blockScaled f then fits x isNf f q.spill else []
  let ts := bif isTqFmt f then tqScale f x.surd fs (bif q.pol then hist else 0) else 0x3F800000
  let bytes := bif isTqFmt f then fs.map (tqByte f ts x.surd) else fs.map (mxByte f x.surd)
  let o := encTile ⟨f, q.sr, q.spill, draw⟩ x q.kax nf bytes ts
  let lost := outSum o (·.sat) + outSum o (·.spovf)
  let big := f32OfMag (magOf (tileMax x) x.surd)
  let base := newPkt f rows cols (sidTag sid) seq strm (b01 q.kax * 8 + b01 rotF * 4 + b01 q.spill * 2) rotblk
  bif q.esc && Nat.blt (q.thr * (rows * cols)) (lost * 1024) then
    let ef := bif q.escf then 0x14 else 0x13
    let es := (fits x isNf ef false).map (mxByte ef x.surd)
    let eo := encTile ⟨ef, q.sr, false, draw⟩ x q.kax nf es 0x3F800000
    let h := { base with fmt := ef, flags := b01 q.kax * 8 + b01 rotF * 4 + 1, sat := satTo 0xFFFF (outSum eo (·.sat)), zero := st.2,
                         under := satTo 0xFFFF (outSum eo (·.under)), maxabs := big }
    (tilePkt h eo, ⟨h.tag, eid, [(0, h.zero), (1, h.under), (2, h.sat), (5, 1), (6, lost), (7, st.1), (8, 1), (9, big)], big⟩)
  else
    let h := { base with tscale := ts, sat := satTo 0xFFFF (outSum o (·.sat) + outSum o (·.rsat)), spovf := satTo 0xFFFF (outSum o (·.spovf)),
                         zero := st.2, under := satTo 0xFFFF (outSum o (·.under)), maxabs := big }
    (tilePkt h o, ⟨h.tag, eid, [(0, h.zero), (1, h.under), (2, h.sat + h.spovf), (3, outSum o (·.spill.length)), (4, h.spovf), (7, st.1),
                                (8, 1), (9, big)], big⟩)

/-- Whether the partition's TRAPNF is set (R202). -/
def trapNf (s : State) (b : Nat) : Bool := flag s .numCtl (benchPart s b) 0 1

/-- The source of QNT: FP32, BF16 or FP16, whatever the instruction's FMT (R134). -/
def wideSource (s : State) (b ord : Nat) (e : Entry) (n : Nat) : Except Status Pkt :=
  match sourcePkt s b ord e n with
  | .error st => .error st
  | .ok p => bif isWideFmt p.fmt then .ok p else .error 0x0109

/-- The number of non-finite elements of a wide packet. -/
def nonFinites (p : Pkt) : Nat := ((region p.rows p.cols).filter fun q => !(f32IsFin (p.wide q.1 q.2))).length

/-- The update of a tile that TRAPNF stops (R202). -/
def trapUpd (tag eid n : Nat) : AssayUpd := ⟨tag, eid, [(7, n)], 0⟩

/-- QNT. -/
def qntExec (b ord : Nat) (e : Entry) (s : State) : ExecRes :=
  match wideSource s b ord e 1 with
  | .error st => .fault st
  | .ok p =>
    let n := nonFinites p
    bif trapNf s b && !(n == 0) then .trap 0x0601 (trapUpd (sidTag (eVal e 3)) e.eid n)
    else
      let r := qntPacket e.word p (eVal e 3) (eVal e 4) e.seed e.hist e.eid
      .effs (writePkt s b e 2 r.1 ++ [.assay r.2])

def execQnt (b : BenchId) (i : Fin 2) (s : State) : Host.Outcome State Fault Refusal :=
  .next (stationExec b.val (ordinalOf 2 i.val) 2 0x01 (fun e => qntExec b.val (ordinalOf 2 i.val) e s) s)

/-! ## DQT, HAD, ASY -/

/-- A packet of DQT or HAD from the values of a tile. -/
def tileValuePkt (p : NewPkt) (t : Tile) (kax : Bool) : NewPkt × List Byte :=
  valuePkt p t.surd fun r c => let q := akOf kax r c; t.at_ q.1 q.2

/-- DQT (R138). The inverse rotation reads positions outside the source's valid region as zero; that region is the output's (R200). -/
def dqtExec (b ord : Nat) (e : Entry) (s : State) : ExecRes :=
  match sourcePkt s b ord e 1 with
  | .error st => .fault st
  | .ok p =>
    let un := bit (wMod e.word) 0
    bif un && !p.rot then .fault 0x0184
    else
      let src := tileOf p p.orient p.val
      let t := bif un then rotate src p.rotblk e.seed.toNat true else src
      let flags := b01 p.orient * 8 + b01 (p.rot && !un) * 4
      let v := tileValuePkt (newPkt (wFmt e.word) p.rows p.cols p.tag p.seq p.stream flags (bif un then 0 else p.rotblk)) t p.orient
      .effs (writePkt s b e 2 v.2 ++ [pktAssay e.eid v.1])

def execDqt (b : BenchId) (i : Fin 2) (s : State) : Host.Outcome State Fault Refusal :=
  .next (stationExec b.val (ordinalOf 2 i.val) 2 0x02 (fun e => dqtExec b.val (ordinalOf 2 i.val) e s) s)

/-- The checks of HAD on its source (R139). -/
def hadBad (w : W128) (p : Pkt) : Bool :=
  let kax := bit (wMod w) 1
  bif bit (wMod w) 0 then !p.rot || !(p.rotblk == wImmBits w 2 0) || !(p.orient == kax) else p.rot

/-- HAD (R139, R548). -/
def hadExec (b ord : Nat) (e : Entry) (s : State) : ExecRes :=
  let w := e.word
  match sourceFmt s b ord e 1 (wFmt w) (fun _ => false) with
  | .error st => .fault st
  | .ok p =>
    bif hadBad w p then .fault 0x0184
    else
      let inv := bit (wMod w) 0
      let kax := bit (wMod w) 1
      let blk := wImmBits w 2 0
      let t := rotate (tileOf p kax fun r c => valOf (f32Val (p.wide r c))) blk e.seed.toNat inv
      let rows := bif kax then t.kExt else t.aExt
      let cols := bif kax then t.aExt else t.kExt
      let v := tileValuePkt (newPkt 0x24 rows cols p.tag p.seq p.stream (b01 kax * 8 + b01 (!inv) * 4) (bif inv then 0 else blk)) t kax
      .effs (writePkt s b e 2 v.2 ++ [pktAssay e.eid v.1])

def execHad (b : BenchId) (i : Fin 2) (s : State) : Host.Outcome State Fault Refusal :=
  .next (stationExec b.val (ordinalOf 2 i.val) 2 0x03 (fun e => hadExec b.val (ordinalOf 2 i.val) e s) s)

/-- ASY (R140, R202, Table 6.4). -/
def asyExec (b ord : Nat) (e : Entry) (s : State) : ExecRes :=
  let w := e.word
  let tag := wImmBits w 15 0
  match sourceFmt s b ord e 1 (wFmt w) isWideFmt with
  | .error st => .fault st
  | .ok p =>
    let t := tileOf p false fun r c => valOf (f32Val (p.wide r c))
    let st := inputStats t
    bif trapNf s b && !(st.1 == 0) then .trap 0x0601 (trapUpd tag e.eid st.1)
    else
      let big := f32OfMag (magOf (tileMax t) false)
      .effs [.assay ⟨tag, e.eid, [(0, st.2), (7, st.1), (8, 1), (9, big)], big⟩]

def execAsy (b : BenchId) (i : Fin 2) (s : State) : Host.Outcome State Fault Refusal :=
  .next (stationExec b.val (ordinalOf 2 i.val) 2 0x04 (fun e => asyExec b.val (ordinalOf 2 i.val) e s) s)

/-- What a Temper checks when it starts an instruction (R134, R138, R139, R116, R50). -/
def temperStart (b ord : Nat) (e : Entry) (s : State) : Status :=
  let w := e.word
  let slot := match seedSlot w with | some n => failIf (tget? (bench s b).seeds n).isNone 0x0189 | none => 0
  match wOpc w with
  | 0x01 =>
    match wideSource s b ord e 1 with
    | .error st => st
    | .ok p =>
      let q := qntMode w
      firstStatus [failIf (q.rot && p.rot) 0x0184, slot,
        roomCheck s b e 2 (bif q.esc then pktLen 0x13 false else pktLen (wFmt w) q.spill)]
  | 0x02 =>
    match sourcePkt s b ord e 1 with
    | .error st => st
    | .ok p => firstStatus [failIf (bit (wMod w) 0 && !p.rot) 0x0184, slot, roomCheck s b e 2 (pktLen (wFmt w) false)]
  | 0x03 =>
    match sourceFmt s b ord e 1 (wFmt w) (fun _ => false) with
    | .error st => st
    | .ok p => firstStatus [failIf (hadBad w p) 0x0184, slot, roomCheck s b e 2 (pktLen 0x24 false)]
  | _ =>
    match sourceFmt s b ord e 1 (wFmt w) isWideFmt with
    | .error st => st
    | .ok _ => 0

end Sys2Proof.Machine
end

