-- ==== Sys2Proof/Machine/Station.lean ====
section
/-! DEFINITION. The stations' own events: starting an instruction, its retirement (R49, R54, R109, R112, R116, R123, R156), and the
system queue (R108). -/

namespace Sys2Proof.Machine

/-! ## Starting -/

/-- The unit of a station ordinal (Table 3.4): Anvil, Temper, Flux, Swage, Crucible, Sprue, Hallmark. -/
def unitOfOrdinal (ord : Nat) : Nat :=
  bif Nat.blt ord 4 then 1 else bif Nat.blt ord 6 then 2 else bif Nat.blt ord 8 then 3 else bif ord == 8 then 4
  else bif ord == 9 then 5 else bif Nat.blt ord 12 then 6 else 7

/-- The start checks of a station. -/
def startChecks (s : State) (b ord : Nat) (e : Entry) : Status :=
  match wUnit e.word with
  | 1 => anvilStart b ord e s
  | 2 => temperStart b ord e s
  | 3 => fluxStart b ord e s
  | 4 => swageStart b ord e s
  | 5 => crucibleStart b ord e s
  | 6 => sprueStart s b ord e
  | _ => hallmarkStart b e s

/-- Whether a packet is present for source operand `n`; a handle always has one. -/
def inputPresent (s : State) (b ord : Nat) (e : Entry) (n : Nat) : Bool :=
  bif wFile e.word n == 2 then true
  else
    match ePort e n with
    | none => true
    | some p =>
      match chan? s b p.id with
      | none => false
      | some c => Nat.blt (claimedBefore s b ord e n p.id) c.packets.length

/-- Whether an out port leads to a channel that was opened for another producer (R82, R93): seen when the write would begin. -/
def operandProducerBad (s : State) (b ord : Nat) (e : Entry) (n : Nat) : Bool :=
  match ePort e n with
  | some p => (match p.dir with | .out => notProducer s b ord p | _ => false)
  | none => false
def producerBad (s : State) (b ord : Nat) (e : Entry) : Bool := (tileUse e.word).2.1.any (operandProducerBad s b ord e)

/-- Whether a credit is free for destination operand `n`: a handle needs none, a port needs its channel open (R49, R52, R53), with a
credit for each packet that the instruction writes to it. A write that faults takes none. -/
def creditFree (s : State) (b ord : Nat) (e : Entry) (n : Nat) : Bool :=
  bif wFile e.word n == 2 || operandProducerBad s b ord e n then true
  else
    match ePort e n with
    | none => true
    | some p =>
      match portChan s b p with
      | none => false
      | some (c, id, ch) => !ch.closing && Nat.ble ((tileUse e.word).2.1.filter fun k => ePort e k == some p).length (freeCredits s c id ch)

/-- Whether an entry may start: dependencies retired, inputs present, credits free, and the station free. -/
def mayStart (s : State) (b ord : Nat) (e : Entry) : Bool :=
  let x := bench s b
  let use := tileUse e.word
  e.deps.all (fun d => !(entryLive x d))
    && use.1.all (fun n => inputPresent s b ord e n)
    && use.2.1.all (fun n => creditFree s b ord e n)
    && (bif unitOfOrdinal ord == 6 then sprueFree s b ord e
        else !((tget x.queues ord []).any fun o => !(o.phase == .queued)))

/-- The entry as started, with the seed and the history it uses (R186, R194). -/
def startedAs (s : State) (b : Nat) (e : Entry) : Entry :=
  let w := e.word
  let seed := match seedSlot w with
    | some n => (match tget? (bench s b).seeds n with | some v => v | none => 0)
    | none => 0
  let hist := bif wUnit w == 2 && wOpc w == 1 then historyMax s (benchPart s b) (sidTag (eVal e 3)) else 0
  { e with phase := .started, seed := seed, hist := hist }

/-- STATION_START: the next queued instruction of a station, once per cycle. -/
def stationStart (b ord : Nat) (s : State) : State :=
  let x := bench s b
  match (tget x.queues ord []).find? (fun e => e.phase == .queued) with
  | none => s
  | some e =>
    bif x.halted.contains ord || !(isUp s 2 b) || !(isUp s 1 (b * 16 + ord)) || !(mayStart s b ord e) then s
    else
      let st := firstStatus [failIf (producerBad s b ord e) 0x0205, startChecks s b ord e]
      bif st == 0 then modEntry b ord e.eid (startedAs s b) s else stationFault b ord e st s

def execStationStart (b : BenchId) (ord : Fin 13) (s : State) : Host.Outcome State Fault Refusal := .next (stationStart b.val ord.val s)

/-! ## Retiring -/

/-- One effect of a retiring instruction (R54). -/
def applyEff (b : Nat) (s : State) (f : Eff) : State :=
  match f with
  | .handle t h => modBench b (putT t h) s
  | .store a bs => modBench b (storeWrite a bs) s
  | .accum k a => modBench b (fun x => { x with accs := tset x.accs k a }) s
  | .chain k c => modBench b (fun x => { x with chains := tset x.chains k c }) s
  | .scalar n v => modBench b (putS n v) s
  | .pred n v => modBench b (putP n v) s
  | .assay u => postAssay b u s
  | .clamps n => modBench b (fun x => { x with clamps := x.clamps + n }) s
  | .send p bs =>
    match portChan s b p with
    | none => s
    | some (c, id, _) => modChan c id (fun ch => { ch with writing := ch.writing ++ [bs] }) s

/-- The slot of a source packet is free again: the credit of a local channel returns at once, that of a bridge is on its way (R49, R51).
`n` packets have been read; those of a CRED have already left the queue. -/
def returnSlots (cred : Bool) (n : Nat) (c : Channel) : Channel :=
  let c := bif cred then { c with reading := c.reading - n } else { c with packets := c.packets.drop n }
  bif c.bridge then { c with returning := c.returning + n } else c

/-- The source ports of a retiring instruction give back their slots. -/
def consumeInputs (b : Nat) (e : Entry) (s : State) : State :=
  let cred := wUnit e.word == 5 && wOpc e.word == 1
  (tileUse e.word).1.foldl (fun s n =>
    match ePort e n with
    | some p => modChan b p.id (returnSlots cred (bif cred then credN e.word else 1)) s
    | none => s) s

/-- Whether the packet of an SPXF is complete in its slot, or its channel is gone: later SPXFs to the port follow it in `writing`. -/
def spxfLanded (s : State) (b ord : Nat) (e : Entry) : Bool :=
  match ePort e 2 with
  | none => true
  | some p =>
    match portChan s b p with
    | none => true
    | some (_, _, ch) =>
      let later := (tget (bench s b).queues ord []).filter fun o =>
        Nat.blt e.eid o.eid && o.phase == .executed && wOpc o.word == 5 && ePort o 2 == some p
      Nat.ble ch.writing.length later.length

/-- STATION_RETIRE: the oldest instruction of a station, once it has executed, leaves its results in queue order (R54). -/
def stationRetire (b ord : Nat) (s : State) : State :=
  match tget (bench s b).queues ord [] with
  | [] => s
  | e :: rest =>
    bif !(e.phase == .executed) then s
    else bif wUnit e.word == 6 && wOpc e.word == 5 && !(spxfLanded s b ord e) then s
    else
      let s := consumeInputs b e (e.effs.foldl (applyEff b) s)
      modBench b (fun x => dropUses e.eid { x with queues := tset x.queues ord rest }) s

def execStationRetire (b : BenchId) (ord : Fin 13) (s : State) : Host.Outcome State Fault Refusal := .next (stationRetire b.val ord.val s)

/-! ## The system queue -/

/-- SYSTEM_QUEUE_TAKE: a hub engine takes the oldest entry of the system queue (R108). -/
def sysTake (b : Nat) (s : State) : State :=
  let x := bench s b
  match x.taken, x.sysq with
  | none, e :: rest => bif x.halted.contains 13 then s else setBench b { x with taken := some e, sysq := rest } s
  | _, _ => s

def execSystemQueueTake (b : BenchId) (t : Time) (s : State) : Host.Outcome State Fault Refusal := .next (sysTake b.val (atTime t s))

end Sys2Proof.Machine
end

