-- ==== Sys2Proof/Machine/Collectives.lean ====
section
/-! DEFINITION. Collectives (chapter 12): groups and sequences, signature rounds, GO, abort, scalar reductions, tensor chunks (R392 to
R415). -/

namespace Sys2Proof.Machine

/-! ## Groups -/

/-- The program and description of an active group of a partition (R395). -/
def collLive (s : State) (p g : Nat) : Option (Nat × Prog × GroupDesc) :=
  match s.progs.find? (fun x => x.2.part == p && groupsActive x.2 && x.2.groups.any fun d => d.group == g) with
  | none => none
  | some x => (x.2.groups.find? fun d => d.group == g).map fun d => (x.1, x.2, d)

def CollGroup.fresh (n : Nat) : CollGroup :=
  { prog := n, seqs := [], dead := none, aborts := [], rounds := [], accs := [], staged := [], seen := [], received := 0, folded := 0,
    dups := 0, aborted := 0 }
/-- What the part keeps of group `g` for program `n`; sequences start at 0 at placement (R396). -/
def collGroup (s : State) (p g n : Nat) : CollGroup :=
  match tget? s.groups (p * 65536 + g) with
  | some x => bif x.prog == n then x else CollGroup.fresh n
  | none => CollGroup.fresh n
def modGroup (p g n : Nat) (f : CollGroup → CollGroup) (s : State) : State :=
  { s with groups := tset s.groups (p * 65536 + g) (f (collGroup s p g n)) }

def nodeOfMember (d : GroupDesc) (m : Nat) : Option Nat := (d.nodes[m]?).getD none
def rankOfMember (d : GroupDesc) (m : Nat) : Nat := match d.members[m]? with | some x => x.1 | none => 0
/-- The members on this part. -/
def localMembers (s : State) (d : GroupDesc) : List Nat := (List.range d.nodes.length).filter fun m => nodeOfMember d m == some (ownNode s)
/-- The member that role `r` of this part is (R393). -/
def memberOf (s : State) (d : GroupDesc) (r : Nat) : Nat :=
  match (localMembers s d).find? (fun m => (match d.members[m]? with | some x => x.2 == r | none => false)) with
  | some m => m
  | none => 0
/-- The nodes of a group, each once, by lowest member. -/
def groupNodes (d : GroupDesc) : List Nat :=
  d.nodes.foldl (fun l n => match n with | some n => bif l.contains n then l else l ++ [n] | none => l) []

/-- The next sequence of a member. -/
def nextSeq (x : CollGroup) (m : Nat) : Nat := tget x.seqs m 0
/-- Whether a member has not reached a sequence, modulo 2^32. -/
def notReached (x : CollGroup) (m seq : Nat) : Bool := Nat.blt ((seq + 2 ^ 32 - nextSeq x m) % 2 ^ 32) (2 ^ 31)
/-- COLTO in ns; 0 is treated as 1 ms (Table 12.9). -/
def colto (s : State) (p : Nat) : Nat := 1000000 * Nat.max 1 (fld s .colCtl p 0 15 0)

/-- The lowest member in the fabric group of member `m`, whose part gathers that group's signatures (R403). -/
def leadOf (d : GroupDesc) (m : Nat) : Nat :=
  let at_ := fun (k : Nat) => (nodeOfMember d k).map (· / 16)
  ((List.range d.nodes.length).find? fun k => (at_ k).isSome && at_ k == at_ m).getD 0
/-- The members of a fabric group, by its lowest. -/
def ledBy (d : GroupDesc) (l : Nat) : List Nat := (List.range d.members.length).filter fun m => (nodeOfMember d m).isSome && leadOf d m == l

/-- The open collective of a member. -/
def openColl (s : State) (p g m seq : Nat) : Option (Nat × Coll) :=
  s.colls.find? fun c => c.2.part == p && c.2.group == g && c.2.member == m && c.2.sig.seq.toNat == seq
def modColl (id : Nat) (f : Coll → Coll) (s : State) : State :=
  match tget? s.colls id with
  | some c => { s with colls := tset s.colls id (f c) }
  | none => s

/-! ## Packets -/

/-- A collective packet to one node; a packet to this part takes no fabric hop. The status is that of a refusal at injection. -/
def sendColl (p dst : Nat) (m : CollMsg) (s : State) : Status × State :=
  let pkt : Packet := ⟨routeTo dst 2 false false, .collective m⟩
  bif dst == ownNode s then (0, arriveSelf p pkt s)
  else
    match inject p pkt false s with
    | .sent s => (0, s)
    | .held => (0, s)
    | .refused st => (st, emit (.injectRefused p st) s)

/-- A packet to every member part: on TREE when TV is 1, else by unicast (R404, R410). The tree delivers to this part when its entry
says so. -/
def sendAll (p : Nat) (d : GroupDesc) (m : CollMsg) (s : State) : Status × State :=
  bif d.tv then
    let s := bif !((localMembers s d).isEmpty) && !(bit (s.fabActive.tree d.tree) 16) then (sendColl p (ownNode s) m s).2 else s
    match inject p ⟨routeTo d.tree 2 false true, .collective m⟩ false s with
    | .sent s => (0, s)
    | .held => (0, s)
    | .refused st => (st, emit (.injectRefused p st) s)
  else (groupNodes d).foldl (fun a n => let r := sendColl p n m a.2; (bif a.1 == 0 then r.1 else a.1, r.2)) (0, s)

/-- A collective packet is taken from those delivered to a partition. -/
def takeColl (p : Nat) (src : Option Nat) (m : CollMsg) (s : State) : Option State :=
  let fits := fun (a : Arrived) => a.part == p && a.pkt.body == .collective m
    && (match src with | some n => a.pkt.route.src.toNat == n | none => true)
  (takeArrived fits s).map (·.2)
/-- Whether a packet of partition `p` that came from `src` is there. -/
def hasColl (s : State) (p : Nat) (src : Option Nat) (m : CollMsg) : Bool := (takeColl p src m s).isSome

/-! ## Completion and abort -/

/-- The status scalar (Table 12.4). -/
def collStatus (st : Status) (sat nonfin : Bool) (who rank : Nat) : W64 :=
  BitVec.ofNat 64 (st.toNat + b01 sat * 2 ^ 16 + b01 nonfin * 2 ^ 17 + bif st == 0 then 0 else who % 65536 * 2 ^ 32 + rank % 16384 * 2 ^ 48)

/-- A word's collective completes on its member: status scalar, predicate, and with SOFT = 0 a status that is not zero faults the
program (R397, R400). -/
def reportColl (b : Nat) (prog : Option Nat) (off : Nat) (w : W128) (st : Status) (v : W64) (s : State) : State :=
  bif !((bench s b).prog == prog) then s
  else
    let s := modBench b (fun x => setPred (wIndex w 4 % 16) (putS (wImmBits w 21 16) v x)) s
    bif !(st == 0) && !(wSoft w) then reportFault b 13 off st s else s

/-- An open collective completes; what it has staged is discarded. -/
def completeColl (id : Nat) (st : Status) (who rank : Nat) (s : State) : State :=
  match tget? s.colls id with
  | none => s
  | some c =>
    let q := c.sig.seq.toNat
    let mine := fun (x : Staged) => x.seq == q && x.member == c.member
    let s := modGroup c.part c.group c.prog (fun x => { x with
      staged := x.staged.filter (fun y => !(mine y)), aborted := x.aborted + (x.staged.filter mine).length,
      accs := x.accs.filter fun y => !(y.seq == q && y.member == c.member) }) { s with colls := terase s.colls id }
    reportColl c.bench (some c.prog) c.off c.word st
      (collStatus st (c.sat || bit c.flags 0) (bit c.flags 1) who rank) s

/-- A part that finds a reason to abort tells every member part (R404, R413). -/
def sendAbort (p : Nat) (d : GroupDesc) (seq : Nat) (st : Status) (who : Nat) (s : State) : State :=
  (sendAll p d (.abort (BitVec.ofNat 16 d.group) (BitVec.ofNat 32 seq) st who (BitVec.ofNat 14 (rankOfMember d who))) s).2

/-- A signature round given up: its contributions are discarded (R404). -/
def dropRound (p g n seq : Nat) (s : State) : State :=
  modGroup p g n (fun x => match tget? x.rounds seq with
    | some r => { x with rounds := terase x.rounds seq, aborted := x.aborted + r.items.length }
    | none => x) s

/-- A refusal at injection completes the member's collective with that status (R336, R346). -/
def refusedColl (id : Nat) (st : Status) (s : State) : State :=
  match tget? s.colls id with
  | none => s
  | some c => match collLive s c.part c.group with
    | some (_, _, d) => completeColl id st c.member (rankOfMember d c.member) s
    | none => s
/-- A member that cannot read its source or write its destination aborts the collective (R413). -/
def dataFail (id : Nat) (s : State) : State :=
  match tget? s.colls id with
  | none => s
  | some c => match collLive s c.part c.group with
    | some (_, _, d) => sendAbort c.part d c.sig.seq.toNat 0x0707 c.member s
    | none => s

/-! ## Acceptance (R396, R397) -/

/-- The values that a CSRED gives, and its flags (R407, R408): F32 bits, 64-bit values as their type, or fixed point. -/
def csredValues (e : Entry) : List Int × Nat :=
  let w := e.word
  let st := wModBits w 4 2
  let v := fun k => ((e.vals[4 + k]?).getD 0).toNat
  let one := fun (a : List Int × Nat) (k : Nat) =>
    match st with
    | 0 => (a.1 ++ [signed 64 (v k)], a.2)
    | 1 => (a.1 ++ [(v k : Int)], a.2)
    | 2 => (a.1 ++ [((v k % 2 ^ 32 : Nat) : Int)], a.2)
    | 3 => let r := fixOf (valOf (f32Val (BitVec.ofNat 32 (v (2 * k)))))
           (a.1 ++ [r.1], a.2 ||| (b01 (r.2.1) + 2 * b01 (r.2.2)))
    | _ => (a.1 ++ [signed 128 (v (2 * k) + v (2 * k + 1) * 2 ^ 64)], a.2)
  (List.range (wImmBits w 25 22)).foldl one ([], 0)

/-- The signature of a word (Table 12.5). -/
def signatureOf (e : Entry) (d : GroupDesc) (seq : Nat) : Signature :=
  let w := e.word
  let opc := wOpc w
  { op := BitVec.ofNat 8 opc, mode := BitVec.ofNat 8 (wModBits w 6 0), group := BitVec.ofNat 16 d.group, seq := BitVec.ofNat 32 seq,
    count := BitVec.ofNat 32 (bif opc == 0x80 then 0 else bif opc == 0x81 then wImmBits w 25 22 else (eVal e 3).toNat),
    root := BitVec.ofNat 16 (bif opc == 0x85 then wImmBits w 37 22 else 0), mlen := BitVec.ofNat 16 (d.members.length - 1) }

/-- The contribution of a member. -/
def contributionOf (c : Coll) (d : GroupDesc) : CollMsg := .contribution c.sig c.member c.values (BitVec.ofNat 2 c.flags) d.chunk

/-- An ABORT that reached the part before the group was active there, applied to its members (R405, R413): recorded for a sequence that
they have not issued; the stop of a member makes the group dead. -/
def takeEarly (p n : Nat) (d : GroupDesc) (s : State) (a : EarlyAbort) : State :=
  modGroup p d.group n (fun x => { x with
    aborts := x.aborts ++ (localMembers s d).map fun m => ⟨m, a.seq, a.status, a.who, a.rank⟩
    dead := bif a.status == 0x0703 && x.dead.isNone then some (a.who, a.rank) else x.dead }) s
/-- Those of a group are taken up when one of its members is first accepted. -/
def takeEarlies (p n : Nat) (d : GroupDesc) (s : State) : State :=
  let mine := (partition s p).early.filter fun a => a.group == d.group
  mine.foldl (takeEarly p n d) (modPartition p (fun q => { q with early := q.early.filter fun a => !(a.group == d.group) }) s)

/-- The engine accepts a collective: the sequence rises; a dead group or a recorded abort completes it now; else its contribution goes
to the part of its fabric group's lowest member (R396, R403, R405, R413). -/
def acceptColl (b : Nat) (e : Entry) (n : Nat) (d : GroupDesc) (s : State) : State :=
  let p := benchPart s b
  let s := takeEarlies p n d s
  let g := d.group
  let m := memberOf s d (bench s b).role
  let x := collGroup s p g n
  let seq := nextSeq x m
  let s := sysRetire b (modGroup p g n (fun x => { x with seqs := tset x.seqs m ((seq + 1) % 2 ^ 32),
                                                          aborts := x.aborts.filter fun a => !(a.member == m && a.seq == seq) }) s)
  match x.aborts.find? (fun a => a.member == m && a.seq == seq) with
  | some a => reportColl b (some n) e.off e.word a.status (collStatus a.status false false a.who a.rank) s
  | none =>
    match x.dead with
    | some (who, rank) => reportColl b (some n) e.off e.word 0x0704 (collStatus 0x0704 false false who rank) s
    | none =>
      let vf := bif wOpc e.word == 0x81 then csredValues e else ([], 0)
      let c : Coll := {
        prog := n, bench := b, part := p, group := g, member := m, off := e.off, word := e.word, sig := signatureOf e d seq,
        dst := (eVal e 1).toNat, src := (eVal e 2).toNat, values := vf.1, flags := vf.2, go := none, goAt := 0, pos := 0, got := [],
        folded := [], sat := false }
      let id := s.nextColl
      let s := { s with colls := tset s.colls id c, nextColl := id + 1 }
      let s := bif m == leadOf d m then modGroup p g n (fun x => { x with rounds := tset x.rounds seq ⟨s.time, []⟩ }) s else s
      match nodeOfMember d (leadOf d m) with
      | none => s
      | some z =>
        let r := sendColl p z (contributionOf c d) s
        bif r.1 == 0 then r.2 else refusedColl id r.1 r.2

/-- A collective instruction in the system queue: it waits while requests of its bench wait to be sent (R379), and a member has at most 8
outstanding on a group (R396). -/
def collEntry (b : Nat) (e : Entry) (s : State) : State :=
  match (bench s b).prog, groupOfWord s b e.word with
  | some n, some d =>
    let m := memberOf s d (bench s b).role
    let busy := s.colls.filter fun c => c.2.prog == n && c.2.group == d.group && c.2.member == m
    bif waitsToSend s b || Nat.ble 8 busy.length then s else acceptColl b e n d s
  | _, _ => s

def execCbar (b : BenchId) (t : Time) (s : State) : Host.Outcome State Fault Refusal :=
  .next (onSys b.val 8 0x80 (collEntry b.val) (atTime t s))
def execCsred (b : BenchId) (t : Time) (s : State) : Host.Outcome State Fault Refusal :=
  .next (onSys b.val 8 0x81 (collEntry b.val) (atTime t s))
def execCtar (b : BenchId) (t : Time) (s : State) : Host.Outcome State Fault Refusal :=
  .next (onSys b.val 8 0x82 (collEntry b.val) (atTime t s))
def execCtrs (b : BenchId) (t : Time) (s : State) : Host.Outcome State Fault Refusal :=
  .next (onSys b.val 8 0x83 (collEntry b.val) (atTime t s))
def execCtag (b : BenchId) (t : Time) (s : State) : Host.Outcome State Fault Refusal :=
  .next (onSys b.val 8 0x84 (collEntry b.val) (atTime t s))
def execCtbc (b : BenchId) (t : Time) (s : State) : Host.Outcome State Fault Refusal :=
  .next (onSys b.val 8 0x85 (collEntry b.val) (atTime t s))

/-! ## The signature round (R402, R403, R407, R408) -/

/-- Two values of a CSRED reduced: the result, and whether it saturated. -/
def csredOp (stype rop : Nat) (a x : Int) : Int × Bool :=
  let f := fun (v : Int) => BitVec.ofNat 32 v.toNat
  match stype, rop with
  | 2, 0 => let r := f32Add (f a) (f x); ((r.val.toNat : Int), r.sat)
  | 2, 1 => (((f32Min (f a) (f x)).toNat : Int), false)
  | 2, _ => (((f32Max (f a) (f x)).toNat : Int), false)
  | _, 0 => (a + x, false)
  | _, 1 => (bif decide (x < a) then x else a, false)
  | _, _ => (bif decide (a < x) then x else a, false)

/-- The total of an element brought into its format: 64-bit sums wrap, fixed point clamps once. -/
def csredEnd (stype : Nat) (v : Int) : Int × Bool :=
  match stype with
  | 0 => (signed 64 (unsign 64 v), false)
  | 1 => ((unsign 64 v : Int), false)
  | 2 => (v, false)
  | _ => fixClamp v

/-- The reduced values of a round, in order of arrival, and their flags. -/
def csredReduce (mode : Nat) (items : List GatherItem) : List Int × Nat :=
  let stype := bits mode 4 2
  let rop := bits mode 1 0
  let flags := items.foldl (fun a i => a ||| i.flags) 0
  match items with
  | [] => ([], 0)
  | i :: rest =>
    let one := fun (k : Nat) =>
      let r := rest.foldl (fun (a : Int × Bool) j => let q := csredOp stype rop a.1 ((j.values[k]?).getD 0); (q.1, a.2 || q.2))
        ((i.values[k]?).getD 0, false)
      let q := csredEnd stype r.1
      (q.1, r.2 || q.2)
    let vs := (List.range i.values.length).map one
    (vs.map (·.1), flags ||| b01 (vs.any (·.2)))

/-- Every contribution of a round is in: GO, or the abort of a mismatch with the offending member of lowest index. -/
def decideRound (p n : Nat) (d : GroupDesc) (seq : Nat) (r : Gather) (s : State) : State :=
  match r.items.find? (fun i => i.member == 0) with
  | none => s
  | some z =>
    match (List.range d.members.length).find? (fun m => r.items.any fun i => i.member == m && !(i.sig == z.sig)) with
    | some m => sendAbort p d seq 0x0701 m (dropRound p d.group n seq s)
    | none =>
      let v := bif z.sig.op == 0x81 then csredReduce z.sig.mode.toNat r.items else ([], 0)
      let s := modGroup p d.group n (fun x => { x with rounds := terase x.rounds seq, folded := x.folded + r.items.length }) s
      let res := sendAll p d (.go (BitVec.ofNat 16 d.group) (BitVec.ofNat 32 seq) d.chunk v.1 (BitVec.ofNat 2 v.2)) s
      bif res.1 == 0 then res.2
      else match openColl res.2 p d.group 0 seq with
        | some c => refusedColl c.1 res.1 res.2
        | none => res.2

/-- A packet counted as a duplicate and discarded (R412), with the `items` contributions in it. -/
def dupColl (p g n items : Nat) (s : State) : State :=
  bump .colDup 0 0 1 (modGroup p g n (fun x => { x with received := x.received + items, dups := x.dups + items }) s)
/-- The answer not-ready (R402). -/
def answerNotReady (p src g seq m : Nat) (chunk : Option (Nat × Nat)) (s : State) : State :=
  (sendColl p src (.notReady (BitVec.ofNat 16 g) (BitVec.ofNat 32 seq) m chunk) (bump .colNotready 0 0 1 s)).2

/-- What the part of fabric group `lead` has gathered goes to the part of member 0 (R403). -/
def summaryOf (d : GroupDesc) (seq lead : Nat) (r : Gather) : CollMsg := .summary (BitVec.ofNat 16 d.group) (BitVec.ofNat 32 seq) lead r.items
def sendSummary (p : Nat) (d : GroupDesc) (seq lead : Nat) (r : Gather) (s : State) : State :=
  match nodeOfMember d 0 with
  | none => s
  | some n =>
    let q := sendColl p n (summaryOf d seq lead r) s
    bif q.1 == 0 then q.2
    else match openColl q.2 p d.group lead seq with
      | some c => refusedColl c.1 q.1 q.2
      | none => q.2

/-- Contributions enter the round of member `lead`: a whole fabric group's are sent on; with every member's at member 0 the round is decided
(R403). Those of a round given up are discarded. -/
def gather (p n : Nat) (d : GroupDesc) (seq lead : Nat) (items : List GatherItem) (s : State) : State :=
  match tget? (collGroup s p d.group n).rounds seq with
  | none => modGroup p d.group n (fun x => { x with aborted := x.aborted + items.length }) s
  | some r =>
    let r := { r with items := r.items ++ items }
    let s := modGroup p d.group n (fun x => { x with rounds := tset x.rounds seq r }) s
    bif lead == 0 then (bif r.items.length == d.members.length then decideRound p n d seq r s else s)
    else bif r.items.length == (ledBy d lead).length then sendSummary p d seq lead r s else s

/-- Contributions that came to the part of member `lead`, from the part of member `from_`: answered not-ready, discarded as a duplicate, or
gathered (R402, R412). -/
def roundArrive (p src g seq lead from_ kind : Nat) (items : List GatherItem) (s : State) : State :=
  match collLive s p g with
  | none => answerNotReady p src g seq from_ none s
  | some (n, x, d) =>
    let q := collGroup s p g n
    let lead := bif kind == 0 then leadOf d lead else lead
    let key : CollSeen := ⟨kind, seq, from_, 0, 0⟩
    bif !(nodeOfMember d lead == some (ownNode s)) || !(nodeOfMember d from_ == some src) then s
    else bif x.state == .saved || notReached q lead seq then answerNotReady p src g seq from_ none s
    else bif q.seen.contains key then dupColl p g n items.length s
    else gather p n d seq lead items (modGroup p g n (fun x => { x with seen := x.seen ++ [key], received := x.received + items.length }) s)

/-- SIGNATURE_ARRIVE: the contribution of a member at its fabric group's part, or a fabric group's at member 0's (R403). -/
def signatureArrive (p src : Nat) (msg : CollMsg) (s : State) : State :=
  match takeColl p (some src) msg s, msg with
  | some s, .contribution sig m values flags _ => roundArrive p src sig.group.toNat sig.seq.toNat m m 0 [⟨m, sig, values, flags.toNat⟩] s
  | some s, .summary g seq lead items => roundArrive p src g.toNat seq.toNat 0 lead 4 items s
  | _, _ => s

def execSignatureArrive (p : PartId) (src : BitVec 13) (msg : CollMsg) (t : Time) (s : State) : Host.Outcome State Fault Refusal :=
  .next (signatureArrive p.val src.toNat msg (atTime t s))

/-! ## Chunks (R409, R410) -/

def collOpc (c : Coll) : Nat := wOpc c.word
def collLen (c : Coll) : Nat := c.sig.count.toNat
def collM (c : Coll) : Nat := c.sig.mlen.toNat + 1
/-- The length of the blocks that are cut into chunks: L ÷ M for a reduction, L for CTAG and CTBC. -/
def collBlock (c : Coll) : Nat := bif collOpc c == 0x82 || collOpc c == 0x83 then collLen c / collM c else collLen c
def chunkSize (c : Coll) : Nat := 2 ^ (match c.go with | some k => k | none => 0)
def chunkCount (c : Coll) : Nat := (collBlock c + chunkSize c - 1) / chunkSize c
/-- Length of chunk `k`. -/
def chunkLen (c : Coll) (k : Nat) : Nat := Nat.min (chunkSize c) (collBlock c - k * chunkSize c)
def reduces (c : Coll) : Bool := collOpc c == 0x82 || collOpc c == 0x83
/-- How many chunks a member has to send, its own block's among them. -/
def sendCount (c : Coll) : Nat :=
  match collOpc c with
  | 0x82 => chunkCount c * collM c
  | 0x83 => chunkCount c * collM c
  | 0x84 => chunkCount c
  | 0x85 => bif c.member == c.sig.root.toNat then chunkCount c else 0
  | _ => 0
/-- How many chunks have to be written at its destination. -/
def writeCount (c : Coll) : Nat :=
  match collOpc c with
  | 0x82 => chunkCount c * collM c
  | 0x83 => chunkCount c
  | 0x84 => chunkCount c * collM c
  | 0x85 => chunkCount c
  | _ => 0
/-- Where chunk `k` of block `m` is read in the source, and where it is written. -/
def sourceAt (c : Coll) (m k : Nat) : Nat := c.src + (bif reduces c then m * collBlock c else 0) + k * chunkSize c
def destAt (c : Coll) (m k : Nat) : Nat :=
  c.dst + (bif collOpc c == 0x82 || collOpc c == 0x84 then m * collBlock c else 0) + k * chunkSize c

/-- The elements of a chunk as FP32: BF16 widens exactly. -/
def chunkElems (c : Coll) (bs : List Byte) : List W32 :=
  bif bit (wMod c.word) 2 then (List.range (bs.length / 2)).map fun k => BitVec.ofNat 32 (leAt bs (2 * k) 2 * 2 ^ 16)
  else (List.range (bs.length / 4)).map fun k => BitVec.ofNat 32 (leAt bs (4 * k) 4)
/-- A result chunk as it leaves staging: its bytes, and whether the rounding to BF16 saturated. -/
def chunkBytes (c : Coll) (vs : List W32) : List Byte × Bool :=
  bif bit (wMod c.word) 2 then
    vs.foldl (fun a v => let r := plainCode 0x22 false (valOf (f32Val v)); (a.1 ++ leBytes 2 r.1, a.2 || r.2)) ([], false)
  else (vs.flatMap fun v => leBytes 4 v.toNat, false)

/-- A member's collective is complete when it has sent everything and every chunk is written. -/
def endTensor (id : Nat) (s : State) : State :=
  match tget? s.colls id with
  | none => s
  | some c => bif c.go.isSome && c.pos == sendCount c && c.got.length == writeCount c then completeColl id 0 0 0 s else s

/-- A chunk is written at a member's destination; CTBC's root with one address for both writes nothing. -/
def writeChunk (id m k : Nat) (bs : List Byte) (sat : Bool) (s : State) : State :=
  match tget? s.colls id with
  | none => s
  | some c =>
    let skip := collOpc c == 0x85 && c.member == c.sig.root.toNat && c.src == c.dst
    let w := bif skip then (0, s) else spaceWrite c.part (destAt c m k) bs s
    bif w.1 == 0 then endTensor id (modColl id (fun c => { c with got := c.got ++ [(m, k)], sat := c.sat || sat }) w.2)
    else dataFail id w.2

/-- The accumulator of a chunk of the member's own block, initialised by its own contribution; false when that cannot be read. -/
def ensureAcc (id k : Nat) (s : State) : Bool × State :=
  match tget? s.colls id with
  | none => (true, s)
  | some c =>
    let x := collGroup s c.part c.group c.prog
    let q := c.sig.seq.toNat
    bif c.folded.contains k || x.accs.any (fun a => a.seq == q && a.member == c.member && a.chunk == k) then (true, s)
    else
      let s' := spaceSeen c.part (sourceAt c c.member k) (chunkLen c k) s
      match spaceRead s c.part (sourceAt c c.member k) (chunkLen c k) with
      | .error _ => (false, s')
      | .ok bs => (true, modGroup c.part c.group c.prog (fun x => { x with accs := x.accs ++ [⟨q, c.member, k, chunkElems c bs, false, []⟩] }) s')

/-- A chunk of the member's block is reduced once every other member's contribution is folded: CTRS writes it, CTAR sends it to every
member. -/
def finishChunk (id k : Nat) (s : State) : State :=
  match tget? s.colls id with
  | none => s
  | some c =>
    let q := c.sig.seq.toNat
    let it := fun (a : ChunkAcc) => a.seq == q && a.member == c.member && a.chunk == k
    match (collGroup s c.part c.group c.prog).accs.find? it, collLive s c.part c.group with
    | some a, some (_, _, d) =>
      bif !(a.folded.length == collM c - 1) then s
      else
        let out := chunkBytes c a.vals
        let sat := a.sat || out.2
        let s := modColl id (fun c => { c with folded := c.folded ++ [k] })
          (modGroup c.part c.group c.prog (fun x => { x with accs := x.accs.filter fun a => !(it a) }) s)
        bif collOpc c == 0x83 then writeChunk id c.member k out.1 sat s
        else
          let r := sendAll c.part d (.result (BitVec.ofNat 16 c.group) (BitVec.ofNat 32 q) c.member c.member k out.1 sat) s
          bif r.1 == 0 then r.2 else refusedColl id r.1 r.2
    | _, _ => s

/-- Whether a packet is a chunk that a member of partition `p` sent. -/
def isChunkOf (s : State) (c : Coll) (pkt : Packet) : Bool :=
  pkt.route.src.toNat == ownNode s &&
  (match pkt.body with
  | .collective (.chunk sig m _ _ _) => sig == c.sig && m == c.member
  | .collective (.result g q m _ _ _ _) => !(reduces c) && g.toNat == c.group && q == c.sig.seq && m == c.member
  | _ => false)
/-- Chunks of a member in flight: their packets still wait for a link, or at this part's own members. -/
def inFlightChunks (s : State) (c : Coll) : Nat :=
  let l := s.links.flatMap (fun l => (l.2.queue.filter fun i => isChunkOf s c i.pkt).map (·.pkt.body))
    ++ (s.arrived.filter fun a => a.part == c.part && isChunkOf s c a.pkt).map (·.pkt.body)
  (l.foldl (fun l b => bif l.contains b then l else b :: l) ([] : List Body)).length

/-- The next chunk of a member's sends: chunk by chunk, to the owners in turn; its own block's chunk begins its accumulator. -/
def sendChunk (id : Nat) (c : Coll) (d : GroupDesc) (s : State) : State :=
  let q := BitVec.ofNat 32 c.sig.seq.toNat
  let g := BitVec.ofNat 16 c.group
  let next := modColl id (fun c => { c with pos := c.pos + 1 })
  let k := bif reduces c then c.pos / collM c else c.pos
  let dst := bif reduces c then c.pos % collM c else c.member
  bif reduces c && dst == c.member then
    let a := ensureAcc id k s
    bif a.1 then endTensor id (finishChunk id k (next a.2)) else dataFail id (next a.2)
  else
    let s' := spaceSeen c.part (sourceAt c dst k) (chunkLen c k) s
    match spaceRead s c.part (sourceAt c dst k) (chunkLen c k) with
    | .error _ => dataFail id (next s')
    | .ok bs =>
      let s := s'
      let r := bif reduces c then
          (match nodeOfMember d dst with
          | some n => sendColl c.part n (.chunk c.sig c.member dst k bs) s
          | none => (0, s))
        else sendAll c.part d (.result g q c.member c.member k bs false) s
      bif r.1 == 0 then endTensor id (next r.2) else refusedColl id r.1 r.2

/-- A member sends chunks while fewer than DEPTH are in flight (R410); a collective that is over sends nothing. -/
def sendChunks (id : Nat) : Nat → State → State
  | 0, s => s
  | n + 1, s =>
    match tget? s.colls id with
    | none => s
    | some c =>
      match collLive s c.part c.group with
      | none => s
      | some (_, _, d) =>
        bif c.go.isSome && Nat.blt c.pos (sendCount c) && Nat.blt (inFlightChunks s c) d.depth then sendChunks id n (sendChunk id c d s)
        else s
/-- Every member sends what it can. -/
def collPump (s : State) : State :=
  s.colls.foldl (fun s c => sendChunks c.1 (sendCount c.2 - c.2.pos) s) s

/-! ## GO -/

/-- The results of a CSRED in the scalars of a member (R407, R408). -/
def csredWrite (c : Coll) (vs : List Int) (x : Bench) : Bench :=
  let d := wIndex c.word 1
  let stype := bits c.sig.mode.toNat 4 2
  (List.range vs.length).foldl (fun x k =>
    let v := (vs[k]?).getD 0
    bif Nat.ble 3 stype then
      let n := unsign 128 v
      putS (d + 2 * k + 1) (BitVec.ofNat 64 (n / 2 ^ 64)) (putS (d + 2 * k) (BitVec.ofNat 64 n) x)
    else putS (d + k) (BitVec.ofInt 64 v) x) x

/-- GO reaches a member: a barrier and a scalar reduction complete; a tensor collective begins to send (R403, R406, R407, R410). -/
def goMember (p g seq chunk : Nat) (vs : List Int) (flags : Nat) (s : State) (m : Nat) : State :=
  match openColl s p g m seq with
  | none => s
  | some (id, c) =>
    bif c.go.isSome then s
    else
      let s := modColl id (fun c => { c with go := some chunk, goAt := s.time }) s
      match collOpc c with
      | 0x80 => completeColl id 0 0 0 s
      | 0x81 =>
        let s := bif (bench s c.bench).prog == some c.prog then modBench c.bench (csredWrite c vs) s else s
        completeColl id 0 0 0 (modColl id (fun c => { c with flags := flags }) s)
      | _ => s

/-- With GO the contributions that this part gathered for its fabric group are folded. -/
def endGather (p g n seq : Nat) (s : State) : State :=
  modGroup p g n (fun x => match tget? x.rounds seq with
    | some r => { x with rounds := terase x.rounds seq, folded := x.folded + r.items.length }
    | none => x) s

/-- GO_ARRIVE: a second copy is counted and discarded (R412). -/
def goArrive (p : Nat) (msg : CollMsg) (s : State) : State :=
  match takeColl p none msg s, msg with
  | some s, .go g seq chunk vs flags =>
    match collLive s p g.toNat with
    | none => s
    | some (n, _, d) =>
      let key : CollSeen := ⟨3, seq.toNat, 0, 0, 0⟩
      bif (collGroup s p g.toNat n).seen.contains key then dupColl p g.toNat n 0 s
      else
        let s := modGroup p g.toNat n (fun x => { x with seen := x.seen ++ [key] }) (endGather p g.toNat n seq.toNat s)
        collPump ((localMembers s d).foldl (goMember p g.toNat seq.toNat chunk vs flags.toNat) s)
  | _, _ => s

def execGoArrive (p : PartId) (msg : CollMsg) (t : Time) (s : State) : Host.Outcome State Fault Refusal :=
  .next (goArrive p.val msg (atTime t s))

/-! ## Chunks arriving -/

/-- A chunk contribution reaches the owner of its block: it waits for GO and for a free staging slot (R410, R412). -/
def contributionArrive (p src : Nat) (msg : CollMsg) (g seq m dst k : Nat) (bs : List Byte) (s : State) : State :=
  match takeColl p (some src) msg s with
  | none => s
  | some s' =>
    match collLive s p g with
    | none => answerNotReady p src g seq m (some (dst, k)) s'
    | some (n, y, d) =>
      let x := collGroup s p g n
      let key : CollSeen := ⟨1, seq, m, dst, k⟩
      bif !(nodeOfMember d dst == some (ownNode s)) || !(nodeOfMember d m == some src) then s'
      else bif y.state == .saved || notReached x dst seq then answerNotReady p src g seq m (some (dst, k)) s'
      else bif x.seen.contains key then dupColl p g n 1 s'
      else
        let note := modGroup p g n fun x => { x with seen := x.seen ++ [key], received := x.received + 1 }
        match openColl s p g dst seq with
        | none => modGroup p g n (fun x => { x with aborted := x.aborted + 1 }) (note s')
        | some (_, c) =>
          bif c.go.isNone || Nat.ble d.depth (x.staged.filter fun y => y.member == dst).length then s
          else modGroup p g n (fun x => { x with staged := x.staged ++ [⟨seq, m, dst, k, bs⟩] }) (note s')

/-- A result chunk, or a chunk of CTAG or CTBC, reaches the members of this part; one that still waits for GO keeps it waiting. -/
def resultArrive (p src : Nat) (msg : CollMsg) (g seq m k : Nat) (bs : List Byte) (sat : Bool) (s : State) : State :=
  match takeColl p (some src) msg s with
  | none => s
  | some s' =>
    match collLive s p g with
    | none => s'
    | some (n, _, d) =>
      let key : CollSeen := ⟨2, seq, m, 0, k⟩
      let mine := (localMembers s d).filterMap fun q => openColl s p g q seq
      bif (collGroup s p g n).seen.contains key then dupColl p g n 0 s'
      else bif mine.any (fun c => c.2.go.isNone) then s
      else
        mine.foldl (fun s c => writeChunk c.1 m k bs sat s) (modGroup p g n (fun x => { x with seen := x.seen ++ [key] }) s')

/-- CHUNK_ARRIVE. -/
def chunkArrive (p src : Nat) (msg : CollMsg) (s : State) : State :=
  match msg with
  | .chunk sig m dst k bs => collPump (contributionArrive p src msg sig.group.toNat sig.seq.toNat m dst k bs s)
  | .result g seq m _ k bs sat => collPump (resultArrive p src msg g.toNat seq.toNat m k bs sat s)
  | _ => s

def execChunkArrive (p : PartId) (src : BitVec 13) (msg : CollMsg) (t : Time) (s : State) : Host.Outcome State Fault Refusal :=
  .next (chunkArrive p.val src.toNat msg (atTime t s))

/-- The fold of R151 that a ROP names: 0 SUM, 1 MIN, 2 MAX (R397). -/
def foldOp (rop : Nat) : Nat := match rop with | 1 => 2 | 2 => 1 | _ => 0

/-- One contribution folded into an accumulator, in FP32 (R151, R410). -/
def foldElems (rop : Nat) : List W32 → List W32 → List W32 × Bool
  | a :: as, x :: xs => let r := credOp (foldOp rop) a x; let t := foldElems rop as xs; (r.val :: t.1, r.sat || t.2)
  | as, _ => (as, false)

/-- CRU0 of a bench folds the oldest staged contribution of one of its members. -/
def chunkFold (b : Nat) (s : State) : State :=
  let todo := s.groups.findSome? fun q =>
    q.2.staged.findSome? fun y => match openColl s (q.1 / 65536) (q.1 % 65536) y.member y.seq with
      | some c => bif c.2.bench == b then some (y, c) else none
      | none => none
  match todo with
  | none => s
  | some (y, (id, c)) =>
    bif (bench s b).halted.contains 9 || !(isUp s 1 (b * 16 + 9)) then s
    else
      let a := ensureAcc id y.chunk s
      let s := a.2
      bif !a.1 then dataFail id s
      else
        let it := fun (a : ChunkAcc) => a.seq == y.seq && a.member == y.member && a.chunk == y.chunk
        let fold := fun (a : ChunkAcc) =>
          let r := foldElems (wModBits c.word 1 0) a.vals (chunkElems c y.data)
          { a with vals := r.1, sat := a.sat || r.2, folded := a.folded ++ [y.sender] }
        let s := modGroup c.part c.group c.prog (fun x => { x with
          staged := x.staged.filter (fun z => !(z == y)), folded := x.folded + 1, accs := modFirst it fold x.accs }) s
        collPump (endTensor id (finishChunk id y.chunk s))

def execCollectiveChunkFold (b : BenchId) (s : State) : Host.Outcome State Fault Refusal := .next (chunkFold b.val s)

/-! ## Abort, timeouts, resends -/

/-- The registers of the last abort (Table 12.9). -/
def noteAbort (p g : Nat) (st : Status) (who rank : Nat) (s : State) : State :=
  setRaw .colLastoff p 0 (who % 65536 + rank % 16384 * 2 ^ 16)
    (setRaw .colLastab p 0 (st.toNat + g * 2 ^ 16) (bump .colAborts p 0 1 s))

/-- ABORT reaches a member (R404, R405, R413): an open collective completes with its status, one not issued is recorded, one completed
stays. A member's stop ends every open collective of the group. -/
def abortMember (p g seq n : Nat) (st : Status) (who rank : Nat) (s : State) (m : Nat) : State :=
  let x := collGroup s p g n
  let mine := s.colls.filter fun c =>
    c.2.part == p && c.2.group == g && c.2.member == m && (st == 0x0703 || c.2.sig.seq.toNat == seq)
  let s := mine.foldl (fun s c => completeColl c.1 st who rank s) s
  bif notReached x m seq then
    modGroup p g n (fun x => { x with aborts := x.aborts.filter (fun a => !(a.member == m && a.seq == seq)) ++ [⟨m, seq, st, who, rank⟩] }) s
  else s

/-- Whether the program that last had the group on this part had reached a sequence (R405). -/
def lateAbort (s : State) (p g seq : Nat) : Bool :=
  match tget? s.groups (p * 65536 + g) with
  | some x => x.seqs.any fun m => !(notReached x m.1 seq)
  | none => false

/-- COLLECTIVE_ABORT: one for a group that is not active here yet is recorded as well (R405). -/
def abortArrive (p : Nat) (msg : CollMsg) (s : State) : State :=
  match takeColl p none msg s, msg with
  | some s, .abort g q st who rank =>
    let g := g.toNat
    let seq := q.toNat
    match collLive s p g with
    | none => bif lateAbort s p g seq then s else modPartition p (fun q => { q with early := q.early ++ [⟨g, seq, st, who, rank.toNat⟩] }) s
    | some (n, _, d) =>
      let ms := localMembers s d
      let x := collGroup s p g n
      let touched := ms.any fun m => notReached x m seq || (openColl s p g m seq).isSome
      let s := bif touched then noteAbort p g st who rank.toNat s else s
      let s := ms.foldl (abortMember p g seq n st who rank.toNat) s
      let rounds := bif st == 0x0703 then (collGroup s p g n).rounds.map (·.1) else [seq]
      let s := rounds.foldl (fun s r => dropRound p g n r s) s
      collPump (bif st == 0x0703 then modGroup p g n (fun x => { x with dead := some (who, rank.toNat) }) s else s)
  | _, _ => s

def execCollectiveAbort (p : PartId) (msg : CollMsg) (t : Time) (s : State) : Host.Outcome State Fault Refusal :=
  .next (abortArrive p.val msg (atTime t s))

/-- The lowest member whose contribution to one of the member's chunks, or whose own chunk, is missing. -/
def missingMember (x : CollGroup) (c : Coll) : Option Nat :=
  let lacks := fun (m : Nat) => (List.range (chunkCount c)).any fun k =>
    bif reduces c then
      !(m == c.member) && !(c.folded.contains k)
        && !(x.seen.contains ⟨1, c.sig.seq.toNat, m, c.member, k⟩)
    else (collOpc c == 0x84 || m == c.sig.root.toNat) && !(c.got.contains (m, k))
  (List.range (collM c)).find? lacks

/-- COLLECTIVE_TIMEOUT: COLTO has passed at member 0's part without every signature, or at a member after GO without every chunk
contribution (R413). -/
def collTimeout (p g seq m : Nat) (s : State) : State :=
  match collLive s p g with
  | none => s
  | some (n, _, d) =>
    let x := collGroup s p g n
    match bif m == 0 then tget? x.rounds seq else none with
    | some r =>
      bif Nat.ble (r.since + colto s p) s.time then
        match (List.range d.members.length).find? (fun k => !(r.items.any fun i => i.member == k)) with
        | some k => sendAbort p d seq 0x0702 k (dropRound p g n seq s)
        | none => s
      else s
    | none =>
      match openColl s p g m seq with
      | none => s
      | some (_, c) =>
        bif c.go.isSome && Nat.ble (c.goAt + colto s p) s.time then
          match missingMember x c with
          | some k => sendAbort p d seq 0x0702 k s
          | none => s
        else s

def execCollectiveTimeout (p : PartId) (group : BitVec 16) (seq : BitVec 32) (member : Nat) (t : Time) (s : State) :
    Host.Outcome State Fault Refusal := .next (collTimeout p.val group.toNat seq.toNat member (atTime t s))

/-- NOT_READY_RESEND: 2 µs after the answer the contribution is sent again, when its collective still stands (R402). -/
def notReadyResend (p g seq m : Nat) (s : State) : State :=
  let fits := fun (a : Arrived) => a.part == p && Nat.ble (a.time + 2000) s.time
    && (match a.pkt.body with | .collective (.notReady h q k _) => h.toNat == g && q.toNat == seq && k == m | _ => false)
  match takeArrived fits s with
  | none => s
  | some (a, s) =>
    match openColl s p g m seq, collLive s p g with
    | some (id, c), some (_, _, d) =>
      -- the answer of member 0's part to another fabric group's lowest member was to its summary
      let isSummary := !(m == 0) && leadOf d m == m && !(nodeOfMember d m == nodeOfMember d 0) && some a.pkt.route.src.toNat == nodeOfMember d 0
      let refuse := fun (r : Status × State) => bif r.1 == 0 then r.2 else refusedColl id r.1 r.2
      match a.pkt.body with
      | .collective (.notReady _ _ _ none) =>
        bif c.go.isSome then s
        else bif isSummary then
          (match tget? (collGroup s p g c.prog).rounds seq with | some r => sendSummary p d seq m r s | none => s)
        else match nodeOfMember d (leadOf d m) with
          | some n => refuse (sendColl p n (contributionOf c d) s)
          | none => s
      | .collective (.notReady _ _ _ (some (dst, k))) =>
        let s' := spaceSeen p (sourceAt c dst k) (chunkLen c k) s
        match spaceRead s p (sourceAt c dst k) (chunkLen c k), nodeOfMember d dst with
        | .ok bs, some n => refuse (sendColl p n (.chunk c.sig m dst k bs) s')
        | .error _, _ => dataFail id s'
        | _, _ => s'
      | _ => s
    | _, _ => s

def execNotReadyResend (p : PartId) (group : BitVec 16) (seq : BitVec 32) (member : Nat) (t : Time) (s : State) :
    Host.Outcome State Fault Refusal := .next (notReadyResend p.val group.toNat seq.toNat member (atTime t s))

/-- The group of a packet that R412 sends again: a contribution, a result or a GO. -/
def resendGroup : CollMsg → Option Nat
  | .contribution sig _ _ _ _ => some sig.group.toNat
  | .summary g _ _ _ => some g.toNat
  | .chunk sig _ _ _ _ => some sig.group.toNat
  | .result g _ _ _ _ _ _ => some g.toNat
  | .go g _ _ _ _ => some g.toNat
  | _ => none

/-- COLLECTIVE_RESEND: 2 µs after a drop notice the packet is sent again to the part that missed it (R412). -/
def collResend (p dst : Nat) (msg : CollMsg) (s : State) : State :=
  let fits := fun (a : Arrived) => a.part == p && Nat.ble (a.time + 2000) s.time
    && (match a.pkt.body with | .notice _ _ (some m) => m == msg | _ => false)
  match takeArrived fits s, resendGroup msg with
  | some (_, s'), some g =>
    match collLive s p g with
    | none => s'
    | some (_, _, d) =>
      bif (groupNodes d).contains dst then (sendColl p dst msg (bump .colResend 0 0 1 s')).2 else s
  | _, _ => s

def execCollectiveResend (p : PartId) (dst : BitVec 13) (msg : CollMsg) (t : Time) (s : State) : Host.Outcome State Fault Refusal :=
  .next (collResend p.val dst.toNat msg (atTime t s))

/-! ## Members that stop (R413) -/

/-- The open sequences of a member; when none is open, its next one, by which every part learns that the group is dead. -/
def openSeqs (s : State) (x : CollGroup) (n g m : Nat) : List Nat :=
  let l := (s.colls.filter fun c => c.2.prog == n && c.2.group == g && c.2.member == m).map fun c => c.2.sig.seq.toNat
  bif l.isEmpty then [nextSeq x m] else l

/-- A program that has stopped sends ABORT with 0x0703 for the open sequences of its groups. -/
def memberStops (n : Nat) (x : Prog) (s : State) : State :=
  x.groups.foldl (fun s d =>
    (localMembers s d).foldl (fun s m =>
      (openSeqs s (collGroup s x.part d.group n) n d.group m).foldl (fun s q => sendAbort x.part d q 0x0703 m s) s) s) s

/-- Programs that a command has stopped (R60, R413). -/
def collStops (old s : State) : State :=
  let was := fun (n : Nat) => match tget? old.progs n with | some x => x.state == .ending | none => false
  s.progs.foldl (fun s x => bif x.2.state == .ending && !(was x.1) then memberStops x.1 x.2 s else s) s

/-- PREEMPT_SAVE_COMPLETE. -/
def execPreemptSaveComplete (prog : Nat) (t : Time) (s : State) : Host.Outcome State Fault Refusal :=
  .next (collStops (atTime t s) (saveComplete prog (atTime t s)))

def execFaultArbitration (hub : Fin 2) (n : Nat) (t : Time) (s : State) : Host.Outcome State Fault Refusal :=
  .next (collStops (atTime t s) (faultArbitration hub.val n (atTime t s)))

/-- A flit frees the way for chunks that wait. -/
def execFlitReceive (link : LinkId) (flit : Flit) (wire : FlitBytes) (fec : Option Nat) (t : Time) (s : State) :
    Host.Outcome State Fault Refusal := .next (collPump (flitReceive (linkKey link) flit wire.bytes wire.crc fec (atTime t s)))

/-- COL_GROUPS.ACTIVE. -/
def colGroups (s : State) (p : Nat) : Nat := ((activeGroups s).filter fun a => a.1 == p).length

end Sys2Proof.Machine
end

