-- ==== Sys2Proof/Machine/Spdm.lean ====
section
/-! DEFINITION. The SPDM responder (R457 to R461). -/

namespace Sys2Proof.Machine

/-- Whether a request from `src` reaches a responder: over MCTP the part answers once Steward core 3's duties run, or in recovery; over TCP
on an accepted connection once Steward core 2's run. -/
def spdmReached (s : State) (src : SpdmFrom) : Bool :=
  s.bootAt.isSome && match src with
  | .mctp => s.recovery || (s.verified && dutyRuns s 4)
  | .tcp c => s.verified && dutyRuns s 3 && s.conns.contains c

/-- A fenced boot core answers GET_VERSION, GET_CAPABILITIES and NEGOTIATE_ALGORITHMS only (Table 14.2). -/
def bootCoreFenced (s : State) : Bool := !(isUp s 10 0)

def spdmSend (src : SpdmFrom) (b : SpdmBody) (s : State) : State := emit (.spdm src b none) s
/-- An answer that a fenced boot core still gives. -/
def spdmBasic (src : SpdmFrom) (b : SpdmBody) (s : State) : State := bif spdmReached s src then spdmSend src b s else s
/-- An unsigned answer. -/
def spdmPlain (src : SpdmFrom) (b : SpdmBody) (s : State) : State :=
  bif spdmReached s src && !(bootCoreFenced s) then spdmSend src b s else s
/-- A signed answer: it waits, behind at most 16 others and the one being signed; Busy before the keys are ready, while the boot core
restarts, and when the queue is full (R461, Table 14.2). Recovery serves none (R449). -/
def spdmSigned (src : SpdmFrom) (b : SpdmBody) (s : State) : State :=
  bif !(spdmReached s src) || bootCoreFenced s || s.recovery then s
  else bif !s.keysReady || !(coreRuns s 0) || Nat.ble 17 s.signQ.length then spdmSend src .busy s
  else { s with signQ := s.signQ ++ [⟨src, b⟩] }

def execGetVersion (src : SpdmFrom) (t : Time) (s : State) : Host.Outcome State Fault Refusal := .next (spdmBasic src .version (atTime t s))
def execGetCapabilities (src : SpdmFrom) (t : Time) (s : State) : Host.Outcome State Fault Refusal :=
  .next (spdmBasic src .capabilities (atTime t s))

/-- NEGOTIATE_ALGORITHMS: ERROR unless the requester offers RSA-3072 and SHA-384 (R458). -/
def execNegotiateAlgorithms (src : SpdmFrom) (rsa3072 sha384 : Bool) (t : Time) (s : State) : Host.Outcome State Fault Refusal :=
  .next (spdmBasic src (bif rsa3072 && sha384 then .algorithms else .invalid) (atTime t s))

/-- The chain of a certificate slot: 0 RSA, 1 SLH-DSA (R459). -/
def chainOf (s : State) (slot : Nat) : Option (List Byte) :=
  bif slot == 0 then some s.flash.chain0 else bif slot == 1 then some s.flash.chain1 else none

def execGetDigests (src : SpdmFrom) (t : Time) (s : State) : Host.Outcome State Fault Refusal :=
  .next (spdmPlain src (.digests [(0, digestOf s.flash.chain0), (1, digestOf s.flash.chain1)]) (atTime t s))

/-- A portion of a certificate chain. -/
def certificate (s : State) (slot offset len : Nat) : SpdmBody :=
  match chainOf s slot with
  | some c => bif Nat.ble offset c.length then
      let p := (c.drop offset).take len
      .certificate slot p (c.length - offset - p.length)
    else .invalid
  | none => .invalid

def execGetCertificate (src : SpdmFrom) (slot offset len : Nat) (t : Time) (s : State) : Host.Outcome State Fault Refusal :=
  .next (spdmPlain src (certificate s slot offset len) (atTime t s))

/-- CHALLENGE: a dual-signed CHALLENGE_AUTH (R458). -/
def challenge (src : SpdmFrom) (slot : Nat) (nonce : List Byte) (s : State) : State :=
  match chainOf s slot with
  | some c => spdmSigned src (.challengeAuth slot (digestOf c) nonce) s
  | none => spdmPlain src .invalid s

def execChallenge (src : SpdmFrom) (slot : Nat) (nonce : List Byte) (t : Time) (s : State) : Host.Outcome State Fault Refusal :=
  .next (challenge src slot nonce (atTime t s))

/-- The value of a measurement index (Table 14.10); what is not in use has the digest of zero bytes. -/
def measurement (s : State) (i : Nat) : BitVec 384 :=
  bif Nat.ble i 16 then mr s (i - 1)
  else bif Nat.ble i 22 then (match tget? s.images (i - 16) with | some x => headerDigest x | none => emptyDigest)
  else bif i == 23 then s.cfgDigest.getD emptyDigest
  else bif i == 24 then s.mapDigest.getD emptyDigest
  else (match s.overlay with | some o => digestOf o | none => emptyDigest)

/-- GET_MEASUREMENTS: one index or all, with every value of one instant (R460). -/
def getMeasurements (src : SpdmFrom) (index : Nat) (signed : Bool) (nonce : List Byte) (s : State) : State :=
  let all := (List.range 25).map fun k => (k + 1, measurement s (k + 1))
  let body : SpdmBody := bif index == 0xFF then .measurements all nonce
    else bif Nat.ble 1 index && Nat.ble index 25 then .measurements [(index, measurement s index)] nonce else .invalid
  bif signed && !(body == .invalid) then spdmSigned src body s else spdmPlain src body s

def execGetMeasurements (src : SpdmFrom) (index : Nat) (signed : Bool) (nonce : List Byte) (t : Time) (s : State) :
    Host.Outcome State Fault Refusal := .next (getMeasurements src index signed nonce (atTime t s))

/-- SPDM_UNSUPPORTED: ERROR UnsupportedRequest (R457). -/
def execSpdmUnsupported (src : SpdmFrom) (code : Byte) (t : Time) (s : State) : Host.Outcome State Fault Refusal :=
  .next (spdmPlain src (.unsupported code) (atTime t s))

/-- SPDM_SIGN_COMPLETE: the request being signed is answered with both signatures. -/
def signComplete (s : State) : State :=
  match s.signQ with
  | q :: l =>
    let f := takeFree s
    emit (.spdm q.src q.body (some (Config.rsaSign f.1, Config.slhSign f.1))) { f.2 with signQ := l }
  | [] => s
def execSpdmSignComplete (t : Time) (s : State) : Host.Outcome State Fault Refusal := .next (signComplete (atTime t s))

/-- Whether a host port is up. -/
def portUp (s : State) (port : Nat) : Bool := flag s .hstPstat port 0 31
/-- SPDM_TCP_CONNECT: at most 8 connections; a further attempt is reset (R457). A connection is numbered 4 × n + port. -/
def tcpConnect (port : Nat) (s : State) : State :=
  bif !(portUp s port) then s
  else bif Nat.blt s.conns.length 8 then
    let c := 4 * s.nextConn + port
    emit (.tcp port (some c)) { s with conns := s.conns ++ [c], nextConn := s.nextConn + 1 }
  else emit (.tcp port none) s
def execSpdmTcpConnect (port : Fin 4) (t : Time) (s : State) : Host.Outcome State Fault Refusal := .next (tcpConnect port.val (atTime t s))

end Sys2Proof.Machine
end

