-- ==== Sys2Proof/Machine/StartUp.lean ====
section
/-! DEFINITION. Start-up (R536 to R541, R545, R546, Table 18.7): PLLs, regulators, identity memories, LASER_EN, stacks and host ports. -/

namespace Sys2Proof.Machine

/-- Not in reset and no trip latched. -/
def awake (s : State) : Bool := s.inReset.isNone && !s.tripped

/-- PLL_LOCK: the sector regulators start at 0.75 V. -/
def pllLocked (s : State) : State :=
  bif awake s && !s.pllLock then
    (List.range 32).foldl (fun s k => setFld .pwrSect k 0 19 12 80 (modSector k (fun x => { x with regOff := false }) s)) { s with pllLock := true }
  else s
def execPllLock (t : Time) (s : State) : Host.Outcome State Fault Refusal := .next (pllLocked (atTime t s))

/-- REGULATORS_UP: every regulator is in regulation; the die links train next. -/
def regulatorsUp (s : State) : State := bif awake s && s.pllLock then { s with regsUp := true } else s
def execRegulatorsUp (t : Time) (s : State) : Host.Outcome State Fault Refusal := .next (regulatorsUp (atTime t s))

/-! ## Identity memories (R537 to R539) -/

/-- Whether a record as read is valid and of a type: MAGIC, TYPE, LENGTH and CRC (R537). -/
def recordOk (typ len : Nat) (bs : List Byte) : Bool :=
  bs.length == len && leAt bs 0 4 == 0x44494D31 && leAt bs 4 1 == typ && leAt bs 6 2 == len && leAt bs (len - 4) 4 == crc32c (bs.take (len - 4))

/-- The tray: CAP into PWR_TDP.BRDCAP, clamped; 1,600 W and an Error event when the record is absent or wrong (R539). -/
def readTray (r : IdRecord) (s : State) : State :=
  match r with
  | some bs => bif recordOk 4 64 bs then setFld .pwrTdp 0 0 27 16 (clampTdp (leAt bs 28 2)) s
    else raise (Config.eventCode 0) 1 none 0 0 (setFld .pwrTdp 0 0 27 16 1600 s)
  | none => raise (Config.eventCode 0) 1 none 0 0 (setFld .pwrTdp 0 0 27 16 1600 s)

/-- Stratus module `m`: present when its record is valid, TYPE 3 and names SLOT m; a wrong record raises an Error event. -/
def readStratus (m : Nat) (r : IdRecord) (s : State) : State :=
  match r with
  | some bs => bif recordOk 3 64 bs && leAt bs 32 4 % 4 == m then setFld .genConfig 0 0 m m 1 s
    else raise (Config.eventCode 1) 1 none (unitId 8 m) 0 s
  | none => s

/-- Every lane of an engine is unused. -/
def lanesUnused (e : Nat) (s : State) : State :=
  (List.range 2).foldl (fun s d => (List.range (engineLanes e)).foldl (fun s l => setLane e d l 8 s) s) s

/-- The lasers of an LSM: a pair whose spare is spent lights the spare (R315, R320, Table 18.5). -/
def readSpares (e : Nat) (bs : List Byte) (s : State) : State :=
  (List.range (laserCount e)).foldl (fun s k =>
    let spent := bit (leAt bs 32 2) k
    let failed := bit (leAt bs 34 2) k
    setFld .optLsr e k 31 30 (b01 spent) (setFld .optLsr e k 28 28 (b01 (spent || failed)) s)) s

/-- The LSM of engine `e`, which its core reads (R310). -/
def readLsm (e : Nat) (r : IdRecord) (s : State) : State :=
  match r with
  | none => lanesUnused e s
  | some bs =>
    let s := modEngine e (fun x => { x with present := true }) s
    let ok := bif isHostEngine e then recordOk 2 108 bs else recordOk 1 172 bs
    bif !(engineCore s e) then lanesUnused e s
    else bif ok then
      readSpares e bs (setFld .optStat e 0 27 27 1 (setFld .genConfig 0 0 (6 + e) (6 + e) 1 (modEngine e (fun x => { x with lsm := true }) s)))
    else lanesUnused e (raise 0xB005 1 none (unitId 6 e) 0 s)

/-- An item of MR10 (R538). -/
def idDigest (r : IdRecord) : BitVec 384 := match r with | some bs => digestOf bs | none => emptyDigest

/-- A converter that does not answer raises an Error event, but for VAUX's (Table 18.4). -/
def probeConverters (l : List Bool) (s : State) : State :=
  (List.range 4).foldl (fun s n => bif (l[n]?).getD false then s else raise (Config.eventCode 2) 1 none 0 (BitVec.ofNat 64 (0x40 + n)) s)
    { s with convs := (List.range 5).map fun n => (l[n]?).getD false }

def nthRecord (l : List IdRecord) (n : Nat) : IdRecord := (l[n]?).getD none

/-- IDENTITY_READ: once, after the processors are released (Table 18.7). -/
def identityRead (tray : IdRecord) (stratus lsms : List IdRecord) (converters : List Bool) (s : State) : State :=
  bif !s.verified || s.idsRead then s
  else
    let s := readTray tray { s with idsRead := true }
    let s := (List.range 4).foldl (fun s m => readStratus m (nthRecord stratus m) s) s
    let s := (List.range 12).foldl (fun s e => readLsm e (nthRecord lsms e) s) s
    let s := extendMr 10 (digestOf (leBytes 4 (raw s .genStrap 0 0))) s
    let s := extendMr 10 (idDigest tray) s
    let s := (List.range 4).foldl (fun s m => extendMr 10 (idDigest (nthRecord stratus m)) s) s
    let s := (List.range 12).foldl (fun s e => extendMr 10 (idDigest (nthRecord lsms e)) s) s
    probeConverters converters s

def execIdentityRead (tray : IdRecord) (stratus lsms : List IdRecord) (converters : List Bool) (t : Time) (s : State) :
    Host.Outcome State Fault Refusal := .next (identityRead tray stratus lsms converters (atTime t s))

/-! ## Lasers (R540) -/

/-- What LASER_EN needs. -/
def laserAllowed (s : State) (e : Nat) : Bool :=
  let x := engine s e
  s.verified && x.lsm && x.present && awake s

/-- LASER_ENABLE: LASER_EN rises once every condition holds, and falls when one ceases. -/
def laserEnable (e : Nat) (s : State) : State :=
  let x := engine s e
  bif laserAllowed s e then
    bif x.lit then s
    else
      let s := modEngine e (fun x => { x with lit := true, litAt := s.time }) s
      (List.range (laserCount e)).foldl (fun s k =>
        let b := Nat.min 360 (Config.startBias e k)
        setFld .optLsr e k 23 16 (b / 2) (modEngine e (fun x => { x with bias := tset x.bias k b }) s)) s
  else bif x.lit then lasersDark e s else s

def execLaserEnable (e : EngineId) (t : Time) (s : State) : Host.Outcome State Fault Refusal := .next (laserEnable e.val (atTime t s))

/-- LSM_PRESENCE_CHANGE: an LSM removed while lit drops LASER_EN and fences its engine; one fitted later is ignored until the next reset
(R310, R311). -/
def lsmPresence (e : Nat) (present : Bool) (s : State) : State :=
  let lit := (engine s e).lit
  bif present then s
  else
    let s := setFld .optStat e 0 27 27 0 (modEngine e (fun x => { x with present := false, lsm := false }) s)
    bif lit then causeEngine e 0x030E (lasersDark e s) else s

def execLsmPresenceChange (e : EngineId) (present : Bool) (t : Time) (s : State) : Host.Outcome State Fault Refusal :=
  .next (lsmPresence e.val present (atTime t s))

/-- LSM_HOURS_UPDATE: once per lit hour the engine core rewrites HOURS; a failed rewrite raises a Warning event (R538). -/
def lsmHours (e : Nat) (ok : Bool) (s : State) : State :=
  let x := engine s e
  let h := (s.time - x.litAt) / 3600000000000
  bif x.lit && engineCore s e && Nat.blt 0 h then
    bif ok then emit (.lsmHours e h) s else raise (Config.eventCode 3) 2 none (unitId 6 e) 0 s
  else s

def execLsmHoursUpdate (e : EngineId) (ok : Bool) (t : Time) (s : State) : Host.Outcome State Fault Refusal :=
  .next (lsmHours e.val ok (atTime t s))

/-- LANE_ABSENT_TIMEOUT: a fabric or memory lane that has shown no light 1 s after LASER_EN rose is taken as absent (R546). -/
def laneAbsent (e l : Nat) (s : State) : State :=
  let x := engine s e
  bif Nat.blt e 10 && x.lit && Nat.ble (x.litAt + 1000000000) s.time && laneState s e 1 l == 0 && !(s.absent.contains (e * 64 + l)) then
    { s with absent := (e * 64 + l) :: s.absent }
  else s

def execLaneAbsentTimeout (e : EngineId) (f : Fin 4) (k : Fin 16) (t : Time) (s : State) : Host.Outcome State Fault Refusal :=
  .next (laneAbsent e.val (16 * f.val + k.val) (atTime t s))

/-! ## Stacks and host ports -/

/-- HBM_TRAINING_DONE: the stacks serve; pseudo-channels that failed training are fenced with cause 0x030D, which lowers ALC_AVAIL (R225,
R274). -/
def hbmTrained (fails : List Nat) (s : State) : State :=
  bif s.verified then
    (fails.filter fun c => Nat.blt c 768).foldl (fun s c => causePc c 0x030D s)
      ((List.range 12).foldl (fun s m => setFld .memStat m 0 0 0 1 s) s)
  else s

def execHbmTrainingDone (fails : List Nat) (t : Time) (s : State) : Host.Outcome State Fault Refusal := .next (hbmTrained fails (atTime t s))

/-- The address record of a host port (Table 14.13). -/
def portRecord (s : State) (port : Nat) : List Byte := match s.bootCfg with | some b => sliceBytes b (128 + 64 * port) 64 | none => []
/-- A port whose MAC is zero or a group address stays down. -/
def portHasMac (s : State) (port : Nat) : Bool :=
  let m := portRecord s port
  !(leAt m 0 6 == 0) && !(bit (leAt m 0 1) 0)

/-- Whether the four lanes of a host port are up both ways (Table 13.1). -/
def portLanesUp (s : State) (port : Nat) : Bool :=
  (List.range 4).all fun j => (List.range 2).all fun d => laneState s (10 + port / 2) d (port % 2 * 4 + j) == 2

/-- A port is up when its four lanes each way are (R303, R318). -/
def raisePort (port : Nat) (s : State) : State :=
  bif portHasMac s port && (engine s (10 + port / 2)).lit && isUp s 6 (10 + port / 2) && portLanesUp s port then setFld .hstPstat port 0 31 31 1 s else s

/-- HOST_PORTS_TRAINED: the ports that have trained are up, and the admin mailbox accepts connections. -/
def hostPortsTrained (up : List Bool) (s : State) : State :=
  bif !s.verified || !awake s then s
  else (List.range 4).foldl (fun s p => bif (up[p]?).getD false then raisePort p s else s) { s with hostsUp := true }

def execHostPortsTrained (up : List Bool) (t : Time) (s : State) : Host.Outcome State Fault Refusal := .next (hostPortsTrained up (atTime t s))

/-- HOST_PORT_LINK_UP: a port that was down has trained again (R318, R420). -/
def hostPortUp (port : Nat) (s : State) : State := bif s.hostsUp then raisePort port s else s
def execHostPortLinkUp (port : Fin 4) (t : Time) (s : State) : Host.Outcome State Fault Refusal := .next (hostPortUp port.val (atTime t s))

/-- HOST_PORT_LINK_DOWN: the port's queue pairs fail; sessions remain (R420). -/
def hostPortDown (port : Nat) (s : State) : State :=
  hostPortFail port { s with conns := s.conns.filter fun c => !(c % 4 == port) }
def execHostPortLinkDown (port : Fin 4) (t : Time) (s : State) : Host.Outcome State Fault Refusal := .next (hostPortDown port.val (atTime t s))

/-! ## Calibration commands (R486, R487) -/

/-- CAL_COMMAND_COMPLETE: STORE writes the older copy; APPLY puts the newest valid copy in force; CLEAR erases both. APPLY and CLEAR extend
MR9. -/
def calComplete (flashOk : Bool) (s : State) : State :=
  match s.calBusy with
  | none => s
  | some c =>
    let s := setFld .calStat 0 0 27 27 0 { s with calBusy := none }
    match c with
    | .store bs =>
      bif flashOk then
        let old := newestOverlay s.flash
        let one := bif old.isSome then old == s.flash.cal0 else false
        setFld .calStat 0 0 31 28 1 { s with flash := (bif one then { s.flash with cal1 := some bs } else { s.flash with cal0 := some bs }) }
      else setFld .calStat 0 0 31 28 6 s
    | .apply =>
      match newestOverlay s.flash with
      | some bs => setFld .calStat 0 0 31 28 2 (extendMr 9 (digestOf bs) (overlayInForce (some bs) s))
      | none => setFld .calStat 0 0 31 28 4 s
    | .clear =>
      bif flashOk then
        setFld .calStat 0 0 31 28 3 (extendMr 9 emptyDigest (overlayInForce none { s with flash := { s.flash with cal0 := none, cal1 := none } }))
      else setFld .calStat 0 0 31 28 6 s

def execCalCommandComplete (flashOk : Bool) (t : Time) (s : State) : Host.Outcome State Fault Refusal :=
  .next (calComplete flashOk (atTime t s))

def calStart (c : CalBusy) (s : State) : State := setFld .calStat 0 0 27 27 1 { s with calBusy := some c }
/-- STORE: the overlay in a partition's pages is checked; a rejected one ends at once. -/
def calStore (s : State) : State :=
  let src := fld s .calSrcLo 0 0 31 12 * 4096 + fld s .calSrcHi 0 0 15 0 * 2 ^ 32
  let p := fld s .calSrcHi 0 0 18 16
  let n := fld s .calLen 0 0 15 0
  match spaceRead s p src n with
  | .ok bs =>
    let c := overlayCheck bs
    let s := spaceSeen p src n s
    bif c.1 == 0 then calStart (.store bs) s else showCheck c s
  | .error _ => showCheck (4, 0) (spaceSeen p src n s)
/-- One command of CAL_CTL: refused while another runs, or with LOCK (R486). -/
def calCommand (locked : Bool) (f : State → State) (s : State) : State :=
  bif locked || s.calBusy.isSome then setFld .calStat 0 0 31 28 7 s else f s
/-- A write of CAL_CTL takes effect. -/
def calCtlWritten (locked : Bool) (v : Nat) (s : State) : State :=
  let s := bif bit v 0 then calCommand locked calStore s else s
  let s := bif bit v 1 then calCommand locked (calStart .apply) s else s
  bif bit v 2 then calCommand locked (calStart .clear) s else s

end Sys2Proof.Machine
end

