-- ==== Sys2Proof/Machine/Update.lean ====
section
/-! DEFINITION. Updates (R451 to R456, Table 14.8): staging, activation, COMMIT and ABORT; owner keys and ATT_EXTCTL (R445, R450, R452). -/

namespace Sys2Proof.Machine

def setResult (n : Nat) (s : State) : State := setFld .updStat 0 0 31 28 n s
def setBusy (b : Bool) (s : State) : State := setFld .updStat 0 0 27 27 (b01 b) s
def setDefer (b : Bool) (s : State) : State := setFld .updStat 0 0 26 26 (b01 b) s
def setProgress (n : Nat) (s : State) : State := setFld .updStat 0 0 21 15 n s
/-- A write was ignored: IGN is set (Table 14.8). -/
def ignored (s : State) : State := setFld .updStat 0 0 22 22 1 s
/-- A request fails at once. -/
def failUpdate (result failId : Nat) (s : State) : State := setResult result (setFld .updStat 0 0 14 6 failId s)

/-! ## Staging (R453) -/

/-- The image laid out from the start of a byte string, and the bytes up to the next 4 KiB boundary after it. -/
def parseImage (bs : List Byte) : Image × Nat :=
  let len := leAt bs 16 4
  let x : Image := ⟨sliceBytes bs 0 512, sliceBytes bs 512 384, sliceBytes bs 896 48, sliceBytes bs 944 384, sliceBytes bs 1328 16224,
    sliceBytes bs 17552 2928, (bs.drop 20480).take len⟩
  (x, (20480 + len + 4095) / 4096 * 4096)
/-- The images of a set, end to end; at most seven are looked at. -/
def parseSet : Nat → List Byte → List (Nat × Image)
  | 0, _ => []
  | n + 1, bs =>
    bif bs.isEmpty then []
    else
      let r := parseImage bs
      (imgId r.1, r.1) :: parseSet n (bs.drop r.2)

/-- Whether a set holds the six vendor images, or one owner image. -/
def setComplete (l : List (Nat × Image)) : Bool :=
  (l.length == 6 && [1, 2, 3, 4, 5, 6].all fun id => l.any fun i => i.1 == id)
    || (l.length == 1 && l.any fun i => i.1 == 0x101 || i.1 == 0x102)

/-- The first image that fails, with its result. -/
def firstFailing (s : State) : List (Nat × Image) → Option (Nat × Nat)
  | [] => none
  | (id, x) :: l =>
    let r := bif Nat.blt id 0x100 then verifyVendor s id x else verifyOwner s id x
    bif r == 0 then firstFailing s l else some (r, id)

/-- The copy of an owner image that staging overwrites: the one not in use. -/
def olderCopy (s : State) (id : Nat) : Bool := match ownerInUse s id with | some (c, _) => !c | none => false

def setCopy (id : Nat) (one : Bool) (b : Bank) (s : State) : State :=
  { s with flash :=
      bif id == 0x101 then (bif one then { s.flash with cfg1 := b } else { s.flash with cfg0 := b })
      else (bif one then { s.flash with map1 := b } else { s.flash with map0 := b }) }

/-- The target of a set takes a state. -/
def setTarget (images : List (Nat × Image)) (st : BankState) (s : State) : State :=
  match images with
  | [(id, x)] => setCopy id (olderCopy s id) ⟨st, [(id, x)]⟩ s
  | _ => setBank (!(bootRec s).bankB) ⟨st, images⟩ s

/-- Staging of a set of bytes: verified, then erased and written as staging; UPD_STAGE_COMPLETE ends it. -/
def stageBytes (bs : List Byte) (s : State) : State :=
  let images := parseSet 7 bs
  bif !(setComplete images) then
    let bad := images.find? fun i => !(Nat.ble 1 i.1 && Nat.ble i.1 6) && !(i.1 == 0x101) && !(i.1 == 0x102)
    failUpdate 5 (match bad with | some i => i.1 | none => 0) s
  else match firstFailing s images with
    | some (r, id) => failUpdate r id s
    | none => showAtt (setProgress 0 (setBusy true (setTarget images .staging { s with update := some (.stage images) })))

/-- STAGE: the set lies in a partition's device memory, or, in recovery, comes over MCTP (R449). -/
def stage (mctp : Option (List Byte)) (s : State) : State :=
  match mctp with
  | some bs => bif s.recovery then (bif Nat.blt 125829120 bs.length then failUpdate 12 0 s else stageBytes bs s) else ignored s
  | none =>
    let len := fld s .updLen 0 0 26 0
    let src := fld s .updSrcLo 0 0 31 12 * 4096 + fld s .updSrcHi 0 0 15 0 * 2 ^ 32
    bif Nat.blt 125829120 len then failUpdate 12 0 s
    else
      let p := fld s .updSrcHi 0 0 18 16
      match spaceRead s p src len with
      | .ok bs => stageBytes bs (spaceSeen p src len s)
      | .error _ => failUpdate 5 0 (spaceSeen p src len s)

/-- UPD_STAGE_COMPLETE: the set is read back and marked staged, or the flash failed and it stays "staging". -/
def stageComplete (flashOk : Bool) (s : State) : State :=
  match s.update with
  | some (.stage images) =>
    bif flashOk then showAtt (setProgress 100 (endUpdate 1 (setTarget images .staged s))) else endUpdate 6 s
  | _ => s

def execUpdStageComplete (flashOk : Bool) (t : Time) (s : State) : Host.Outcome State Fault Refusal :=
  .next (stageComplete flashOk (atTime t s))

/-! ## Activation (R454 to R456) -/

/-- The staged bank, when it is staged. -/
def stagedBank (s : State) : Option Bank := let b := bankOf s (!(bootRec s).bankB); bif b.state == .staged then some b else none
def runningVersion (s : State) : Nat := raw s .attVer 0 0

/-- Whether live activation is allowed (R454). -/
def liveAllowed (s : State) : Bool :=
  match stagedBank s with
  | none => false
  | some b => [1, 2, 3, 4, 5, 6].all fun id =>
      match bankImage b id, tget? s.images id with
      | some x, some r => (!(id == 1) || x == r) && Nat.ble (imgCompat x) (runningVersion s) && Nat.ble (imgSvn r) (imgSvn x)
      | _, _ => false

/-- Live activation order (R454): memory cores, engine cores, Wardens, Steward cores. -/
def liveOrder : List Nat :=
  (List.range 12).map (23 + ·) ++ (List.range 12).map (11 + ·) ++ (List.range 6).map (5 + ·) ++ (List.range 4).map (1 + ·)

/-- The next processor is taken in hand: those that are fenced or cannot be restarted are passed over; after the last, the boot record
names the staged bank active. -/
def nextLive (s : State) : List Nat → State
  | [] =>
    let r := bootRec s
    let b := !r.bankB
    let s := writeRecord { r with bankB := b, trial := false, tried := false } { s with bootB := b }
    let s := match bankImage (bankOf s b) 1 with | some x => setRaw .attVer 0 0 (imgVersion x) (setFld .attKeys 0 0 1 0 (imgSlot x) s) | none => s
    raise 0xD004 3 none 0 0 (showAtt (setProgress 100 (endUpdate 8 s)))
  | i :: l =>
    bif coreRuns s i && mayRestart s i then
      beginRestart i (setProgress ((34 - (l.length + 1)) * 100 / 34) (setFld .updStat 0 0 5 0 i { s with update := some (.live (i :: l) false false) }))
    else nextLive s l

/-- Whether a program is present (R455). -/
def programsPresent (s : State) : Bool := s.progs.any fun p => !(p.2.state == .complete)

/-- The reset activation acts: boot record, then reset (R455). -/
def activateReset (s : State) : State :=
  let r := bootRec s
  internalReset 1 (writeRecord { r with bankB := !r.bankB, trial := true, tried := false } s)

/-- A request starts: its conditions are checked now. -/
def startRequest (d : Deferred) (s : State) : State :=
  let s := setDefer false { s with deferred := none }
  match d with
  | .live => bif liveAllowed s then nextLive (setBusy true s) liveOrder else failUpdate 11 0 s
  | .reset =>
    bif (stagedBank s).isNone || (programsPresent s && !(flag s .updCtl 0 0 1)) then failUpdate 11 0 s else activateReset s
  | .commit => bif (bootRec s).trial then failUpdate 11 0 s else setBusy true { s with update := some .commit }

/-- ACTIVATE or COMMIT: started at once, or held pending for an emergency with DEFER and one Info event (R456). -/
def request (d : Deferred) (s : State) : State :=
  bif s.update.isSome || s.deferred.isSome || !(coreRuns s 0) then ignored s
  else bif calm s then startRequest d s
  else raise 0xD003 3 none 0 0 (setDefer true { s with deferred := some d })

/-- EMERGENCY_HOLDOFF_END: 100 ms after the last emergency a pending request starts, or a paused sequence goes on. -/
def holdoffEnd (s : State) : State :=
  bif !(calm s) || !(coreRuns s 0) then s
  else match s.deferred, s.update with
    | some d, _ => startRequest d s
    | none, some (.live l true _) => nextLive (setDefer false s) l
    | _, _ => s
def execEmergencyHoldoffEnd (t : Time) (s : State) : Host.Outcome State Fault Refusal := .next (holdoffEnd (atTime t s))

/-- A processor runs its new image, measured into MR11 when it is the first to use it (R454). -/
def installImage (i : Nat) (x : Image) (s : State) : State :=
  let id := procImage i
  let s := bif tget? s.images id == some x && (List.range 35).any (fun j => procImage j == id && flag s .fwpStat j 0 24) then s
    else extendMr 11 (headerDigest x) { s with images := tset s.images id x }
  processorBack i (setFld .fwpStat i 0 24 24 1 (setFld .fwpStat i 0 15 0 (imgVersion x % 65536) s))

/-- The sequence after the processor in hand has started; it waits for the boot core (Table 14.8) and for the end of an emergency. -/
def liveGoesOn (l : List Nat) (stop : Bool) (s : State) : State :=
  bif stop then endUpdate 7 s
  else bif !(coreRuns s 0) then { s with update := some (.live l true false) }
  else bif l.isEmpty || calm s then nextLive s l
  else setDefer true { s with update := some (.live l true false) }

/-- LIVE_ACTIVATION_STEP: the image of the processor in hand is verified again from the bank and the processor started; one that does not
start restarts, and three restarts fence it, which stops the sequence (Table 14.8). -/
def liveStep (ok : Bool) (s : State) : State :=
  match s.update with
  | some (.live (i :: l) false stop) =>
    bif !(procState s i == 1) then s
    else bif Nat.ble 3 (recentRestarts s i) then causeProcessor i 0x030C s
    else match (stagedBank s).bind fun b => bankImage b (procImage i) with
      | some x =>
        bif ok && verifyVendor s (procImage i) x == 0 then liveGoesOn l stop (installImage i x s)
        else beginRestart i s
      | none => causeProcessor i 0x030C s
  | _ => s
def execLiveActivationStep (ok : Bool) (t : Time) (s : State) : Host.Outcome State Fault Refusal := .next (liveStep ok (atTime t s))

/-- PROCESSOR_RESTART_DONE: a live activation that waits for the boot core goes on once it is back (Table 14.8). -/
def restartEnds (i : Nat) (s : State) : State :=
  let s := restartDone i s
  bif !(i == 0) || !(coreRuns s 0) then s
  else bif calm s then holdoffEnd s
  else match s.update with
    | some (.live _ true _) => setDefer true s
    | _ => s
def execProcessorRestartDone (i : Fin 35) (t : Time) (s : State) : Host.Outcome State Fault Refusal := .next (restartEnds i.val (atTime t s))

/-- COMMIT_COMPLETE: the counter equals the active bank's set SVN and the slots of REVOKE are revoked (R451, R452). -/
def commitComplete (s : State) : State :=
  match s.update with
  | some .commit =>
    let b := bankOf s (bootRec s).bankB
    let otp := { s.otp with counter := Nat.max s.otp.counter (setSvn b), vendor := revokeSlots (revokeMask b) s.otp.vendor 0 }
    showAtt (setBusy false { s with otp := otp, update := none })
  | _ => s
def execCommitComplete (t : Time) (s : State) : Host.Outcome State Fault Refusal := .next (commitComplete (atTime t s))

/-- ABORT withdraws a pending request; it stops a paused live activation at once, a running one after the processor in hand (R456). -/
def abortUpdate (s : State) : State :=
  match s.deferred, s.update with
  | some _, _ => setResult 7 (setDefer false { s with deferred := none })
  | none, some (.live l true _) => bif l.isEmpty then s else endUpdate 7 s
  | none, some (.live l false _) => { s with update := some (.live l false true) }
  | _, _ => s

/-- A write of UPD_CTL takes effect: STAGE, ACTIVATE, COMMIT and ABORT in this order. -/
def updCtlWritten (v : Nat) (mctp : Option (List Byte)) (s : State) : State :=
  let s := bif bit v 31 then
      (bif s.update.isSome || s.deferred.isSome || !(coreRuns s 0) then ignored s else stage mctp s) else s
  let s := bif bit v 30 then request (bif bit v 0 then .live else .reset) s else s
  let s := bif bit v 29 then request .commit s else s
  bif bit v 28 then abortUpdate s else s

/-! ## Keys and extensions -/

/-- The digest in ATT_EXTD. -/
def extd (s : State) : BitVec 384 := BitVec.ofNat 384 ((List.range 12).foldl (fun a w => a + raw s .attExtd w 0 * 2 ^ (32 * w)) 0)

/-- GO of ATT_EXTCTL, with the register as it stands after the write; LOCK set before the write refuses it. -/
def attExtend (locked : Bool) (s : State) : State :=
  let n := fld s .attExtctl 0 0 3 0
  bif locked || Nat.blt n 12 then s else extendMr n (extd s) s

def ownerSlot (s : State) : KeySlot := (s.otp.owner[fld s .attOwnctl 0 0 1 0]?).getD ⟨none, false⟩
def setOwner (k : KeySlot) (result : Nat) (s : State) : State :=
  showAtt (setFld .attOwnctl 0 0 7 4 result { s with otp := { s.otp with owner := listMod s.otp.owner (fld s .attOwnctl 0 0 1 0) fun _ => k } })

/-- ENROL (R445). -/
def ownerEnrol (s : State) : State :=
  let k := ownerSlot s
  bif k.revoked then setOwner k 2 s else bif k.key.isSome then setOwner k 1 s else setOwner { k with key := some (extd s) } 0 s

/-- REVOKE, refused when it would leave no enrolled, unrevoked owner slot (R452). -/
def ownerRevoke (s : State) : State :=
  let k := ownerSlot s
  let n := fld s .attOwnctl 0 0 1 0
  let left := (List.range 4).any fun j => !(j == n) && (match s.otp.owner[j]? with | some x => x.key.isSome && !x.revoked | none => false)
  bif left then setOwner { k with revoked := true } 0 s else setOwner k 3 s

/-- A write of ATT_OWNCTL takes effect. -/
def ownCtlWritten (v : Nat) (s : State) : State :=
  let s := bif bit v 31 then ownerEnrol s else s
  bif bit v 30 then ownerRevoke s else s

end Sys2Proof.Machine
end

