-- ==== Sys2Proof/Machine/Containment.lean ====
section
/-! DEFINITION. Containment and telemetry (chapter 16): fence commands, draining and recovery (R489 to R496), the conservation census
(R497 to R501) and the paths of telemetry records (R502 to R507). -/

namespace Sys2Proof.Machine

/-! ## Fence causes -/

/-- An imbalance: the unit that Table 16.3 names is fenced, one Error event is raised, and ERR_IMBAL rises (R498). -/
def imbalance (kind index : Nat) (s : State) : State :=
  raise 0x9004 1 (unitPart kind index) (unitId kind index) 0 (bump .errImbal 0 0 1 (fenceCause kind index 0x0306 s))

/-- FENCE_CAUSE: a cause reaches a unit of Table 16.1; one that is a failed check of R498 is an imbalance. -/
def causeArrives (kind index : Nat) (cause : Status) (s : State) : State :=
  bif !(unitExists kind index) then s
  else bif cause == 0x0306 then imbalance kind index s
  else fenceCause kind index cause s

def execFenceCause (kind : Fin 11) (index : Nat) (cause : Status) (t : Time) (s : State) : Host.Outcome State Fault Refusal :=
  .next (causeArrives kind.val index cause (atTime t s))

/-- UNCONTAINED_ERROR: a Fatal event, which ERR_FATAL holds, and every partition fenced (R496). -/
def uncontained (kind index : Nat) (s : State) : State :=
  let s := raise 0x9005 0 none (unitId kind index) 0 s
  (List.range 8).foldl (fun s p => fenceCause 9 p 0x0307 s) s

def execUncontainedError (kind : Fin 11) (index : Nat) (t : Time) (s : State) : Host.Outcome State Fault Refusal :=
  .next (uncontained kind.val index (atTime t s))

/-! ## ERR_CMD (R492, Table 16.10) -/

/-- The unit that ERR_UNIT names. -/
def errUnit (s : State) : Nat × Nat := (fld s .errUnit 0 0 31 24, fld s .errUnit 0 0 23 0)
def errResult (r : Nat) (s : State) : State := setFld .errCmd 0 0 7 0 r s

/-- ERR_CMD.FENCE. -/
def errFence (s : State) : State :=
  let u := errUnit s
  bif unitExists u.1 u.2 then errResult 0 (fenceCause u.1 u.2 0x0309 s) else errResult 1 s

/-- Whether Table 16.1 lets ERR_CMD.UNFENCE return a unit before reset. -/
def errReturns (s : State) (kind index : Nat) : Bool :=
  match kind with
  | 2 => true | 3 => true | 4 => true | 6 => true
  | 9 => !((tget s.units (unitId 9 index) ⟨.up, 0, 0⟩).cause == 0x0307)
  | _ => false

/-- RESULT of a return request: a unit that does not exist, that is not Fenced, that has no return before reset by this command, whose
enclosing unit is not Up. A station is never returned on its own. -/
def unfenceResult (s : State) (kind index : Nat) : Nat :=
  bif !(unitExists kind index) then 1
  else bif !(unitState s kind index == .fenced) then 4
  else bif kind == 1 || !(enclosingUp s kind index) then 2
  else bif !(errReturns s kind index) then 3
  else 0

/-- A unit begins to recover (Table 16.1): a bench with its fenced stations, an engine by the restart of its core, a module by a retrain. -/
def beginRecovery (kind index : Nat) (s : State) : State :=
  let cause := (tget s.units (unitId kind index) ⟨.up, 0, 0⟩).cause
  let s := setUnit kind index .recovering cause s
  match kind with
  | 2 => (List.range 13).foldl (fun s k =>
      bif unitState s 1 (index * 16 + k) == .fenced then setUnit 1 (index * 16 + k) .recovering 0x030F s else s) s
  | 4 => bif Nat.blt index 328 then moveStopped (moduleLink index) (bump .ndlRetrain index 0 1 (setFld .ndlStat index 0 31 29 3 s)) else s
  | 6 => procRestart (11 + index) s
  | _ => s

/-- ERR_CMD.UNFENCE. -/
def errUnfence (s : State) : State :=
  let u := errUnit s
  let r := unfenceResult s u.1 u.2
  errResult r (bif r == 0 then beginRecovery u.1 u.2 s else s)

/-- A write of ERR_CMD: when both bits are set, the fence cause is taken and the return request is refused (R493). -/
def errCmdWritten (v : Nat) (s : State) : State :=
  bif bit v 31 then errFence s else bif bit v 30 then errUnfence s else s

/-! ## Draining (R491) -/

/-- Whether a bench has work in flight. -/
def benchWork (s : State) (b : Nat) : Bool :=
  let x := bench s b
  !(benchIdle x) || collBusy s b || (match x.prog with | some n => roleReqs s n x.role || remoteOpen s n x.role | none => false)
/-- The benches that run programs of a partition. -/
def partBenches (s : State) (p : Nat) : List Nat := (s.progs.filter fun x => x.2.part == p).flatMap fun x => x.2.place

/-- Whether a unit has work in flight. -/
def unitWork (s : State) (kind index : Nat) : Bool :=
  match kind with
  | 1 => benchWork s (index / 16)
  | 2 => benchWork s index
  | 3 => Nat.blt index 24 && (sectorBenches index).any (benchWork s)
  | 9 => (partBenches s index).any (benchWork s) || s.txns.any (fun t => t.2.part == index)
  | _ => false

/-- A segment that had not ended fails with 0x0301. -/
def failSeg (g : Seg) : Seg :=
  bif g.state == .landed || g.state == .failed || g.state == .refused then g else { g with state := .failed, status := 0x0301 }

/-- The role that a transaction works for: its program and number. -/
def ownerRole (s : State) : TxnOwner → Option (Nat × Nat)
  | .op n => (remoteOp? s n).bind fun r => r.prog.map fun p => (p, r.role)
  | .seg r _ => (tget? s.reqs r).bind fun r => r.prog.map fun p => (p, r.role)
  | _ => none

/-- The work of the role on a bench fails with 0x0301: remote operations, segments of split requests, collectives, and what its queues hold. -/
def failBench (b : Nat) (s : State) : State :=
  let me := (bench s b).prog.map fun n => (n, (bench s b).role)
  let mine := fun (t : Txn) => me.isSome && ownerRole s t.owner == me
  let tags := (s.txns.filter fun t => mine t.2).map fun t => t.1
  let waits := s.sendQ.filter mine
  let s := tags.foldl (fun s n => finishTxn n 0x0301 [] s) s
  let s := waits.foldl (fun s t => endOwner t 0x0301 [] s) { s with sendQ := s.sendQ.filter fun t => !(mine t) }
  let of := fun (prog : Option Nat) (role : Nat) => me.isSome && prog.map (fun n => (n, role)) == me
  let reqs := (s.reqs.filter fun r => of r.2.prog r.2.role && !r.2.done).map fun r => r.1
  let s := reqs.foldl (fun s q => finishReq q (modReq q (fun r => { r with segs := r.segs.map failSeg }) s)) s
  let ops := (s.rops.filter fun o => of o.2.prog o.2.role).map fun o => o.1
  let s := ops.foldl (fun s n => completeOp n 0x0301 [] s) s
  let colls := (s.colls.filter fun c => c.2.bench == b).map fun c => c.1
  modBench b stopBench (colls.foldl (fun s n => completeColl n 0x0301 0 0 s) s)

/-- The work in a unit fails at the drain limit. -/
def failWork (kind index : Nat) (s : State) : State :=
  match kind with
  | 1 => failBench (index / 16) s
  | 2 => failBench index s
  | 3 => bif Nat.blt index 24 then (sectorBenches index).foldl (fun s b => failBench b s) s else s
  | 9 =>
    let s := (partBenches s index).foldl (fun s b => failBench b s) s
    ((s.txns.filter fun t => t.2.part == index).map fun t => t.1).foldl (fun s n => finishTxn n 0x0301 [] s) s
  | _ => s

/-- DRAINMAX in ns; 0 is treated as 1 ms. -/
def drainMax (s : State) : Nat := 1000000 * Nat.max 1 (fld s .errCtl 0 0 15 0)

/-- A Draining unit is Fenced. -/
def becomesFenced (kind index : Nat) (cause : Status) (s : State) : State := setUnit kind index .fenced cause s

/-- DRAIN_END: a Draining unit without work in flight, or at the drain limit, becomes Fenced. -/
def drainEnd (kind index : Nat) (s : State) : State :=
  match tget? s.units (unitId kind index) with
  | none => s
  | some u =>
    bif !(u.state == .draining) then s
    else bif !(unitWork s kind index) then becomesFenced kind index u.cause s
    else bif Nat.ble (u.since + drainMax s) s.time then becomesFenced kind index u.cause (failWork kind index s)
    else s

def execDrainEnd (kind : Fin 11) (index : Nat) (t : Time) (s : State) : Host.Outcome State Fault Refusal :=
  .next (collPump (drainEnd kind.val index (atTime t s)))

/-! ## Census (R497 to R501) -/

/-- An entry of Table 16.6: P0 to P3, the flags' SUSPECT and FENCED, FCLOSE with AUX, and the unit that an imbalance fences (a group of a
partition for kind 6). -/
structure Count where
  kind    : Nat
  index   : Nat
  total   : Nat
  parts   : List Nat
  suspect : Bool
  fenced  : Bool
  fclose  : Option Nat
  deriving DecidableEq, Repr

/-- TOTAL = P0 + P1 + P2 + P3 modulo 2^32 (R497). -/
def Count.balanced (c : Count) : Bool := c.total % 2 ^ 32 == sumNat c.parts % 2 ^ 32

/-- The bytes of an entry (Table 16.6). -/
def Count.bytes (c : Count) : List Byte :=
  leBytes 1 c.kind ++ leBytes 1 (b01 (!c.balanced) + 2 * b01 c.suspect + 4 * b01 c.fenced + 8 * b01 c.fclose.isSome) ++ leBytes 2 0
    ++ leBytes 4 c.index ++ leBytes 4 (c.total % 2 ^ 32) ++ (List.range 4).flatMap (fun k => leBytes 4 ((c.parts[k]?).getD 0 % 2 ^ 32))
    ++ leBytes 4 (match c.fclose with | some n => n % 2 ^ 32 | none => 0)

/-- A bench or a station of it with an uncorrectable error since its last return to Up (R497). -/
def benchSuspect (s : State) (b : Nat) : Bool :=
  let hit := fun (u : Option UnitFence) => match u with | some u => u.cause == 0x030B | none => false
  hit (tget? s.units (unitId 2 b)) || (List.range 13).any fun k => hit (tget? s.units (unitId 1 (b * 16 + k)))

/-- Packets of a channel that started instructions of its consumer are reading. -/
def readsHeld (x : Bench) (id cons : Nat) : Nat :=
  let one := fun (e : Entry) =>
    bif e.phase == .queued || (wUnit e.word == 5 && wOpc e.word == 1) then 0
    else ((tileUse e.word).1.filter fun k => match ePort e k with | some p => p.id == id | none => false).length
  sumNat ((tget x.queues cons []).map one)

/-- Kind 1: the credits of a channel (R49). -/
def creditCount (s : State) (b id : Nat) (c : Channel) : Count :=
  let rd := Nat.min c.packets.length (readsHeld (bench s b) id c.cons)
  let p1 := c.packets.length - rd
  let p3 := rd + c.reading + c.writing.length + heldCredits s b id c
  { kind := 1, index := b * 64 + id, total := c.credits, parts := [c.credits - (p1 + c.returning + p3), p1, c.returning, p3],
    suspect := benchSuspect s b, fenced := !(isUp s 2 b), fclose := none }

/-- A channel closed with its contents since the last census: every credit has returned. -/
def closedCount (s : State) (c : Nat × Nat × Nat) : Count :=
  { kind := 1, index := c.1, total := c.2.1, parts := [c.2.1, 0, 0, 0], suspect := benchSuspect s (c.1 / 64), fenced := !(isUp s 2 (c.1 / 64)),
    fclose := some c.2.2 }

/-- Kind 2: the granules of a bench. -/
def granuleCount (s : State) (b : Nat) : Count :=
  let gs := (bench s b).grans.map fun g => g.2
  let role := (gs.filter fun g => g == .role || g == .alloc).length
  let chans := (gs.filter fun g => match g with | .channel _ => true | _ => false).length
  let stg := (gs.filter fun g => match g with | .staging _ => true | _ => false).length
  { kind := 2, index := b, total := 384, parts := [(freeGrans (bench s b) false).length + (freeGrans (bench s b) true).length, role, chans, stg],
    suspect := benchSuspect s b, fenced := !(isUp s 2 b), fclose := none }

/-- The receive lanes' units of a link. -/
def linkLaneUnits (s : State) (k : Nat) : List Nat := (linkLanes s k).map fun x => laneUnit x.1 1 (pairedLane s x.1 x.2)

/-- Kind 3: the flit credits of a link, as its receiving end knows them (R353): flits held ahead of a gap are still in flight. -/
def flitCount (s : State) (k : Nat) : Count :=
  let l := link s k
  let p1 := l.inShared + sumNat (l.inDed.map fun x => x.2)
  let p2 := sumNat (l.owed.map fun x => x.2)
  let p3 := l.held.length
  { kind := 3, index := k, total := 1408, parts := [1408 - (p1 + p2 + p3), p1, p2, p3], suspect := false,
    fenced := !((linkLaneUnits s k).any fun u => isUp s 5 u), fclose := none }

/-- Kind 4: the credits of a die-link module; between two commands of this model no unit is on its way. -/
def dieCount (s : State) (m : Nat) : Count :=
  { kind := 4, index := m, total := Config.moduleCredits m, parts := [Config.moduleCredits m, 0, 0, 0], suspect := false,
    fenced := !(isUp s 4 m), fclose := none }

/-- Kind 5: the tokens of a bucket in units of 64 bytes; parts of a unit count as present. -/
def tokenCount (s : State) (p g : Nat) : Count :=
  let x := partition s p
  let spent := tget x.spent g 0
  let gone := tget x.discarded g 0
  let all := bucketDepth s p + tget x.refilled g 0
  let rest := (bucket s p g + spent + gone) / 512
  { kind := 5, index := p * 96 + g, total := all / 512, parts := [rest - spent / 512 - gone / 512, spent / 512, gone / 512, 0],
    suspect := false, fenced := !(isUp s 9 p), fclose := none }

/-- Kind 6: the contributions of a group. -/
def contributionCount (s : State) (p : Nat) (n : Nat) (g : Nat) : Count :=
  let x := collGroup s p g n
  { kind := 6, index := p * 65536 + g, total := x.received,
    parts := [x.folded, x.dups, x.aborted, x.staged.length + sumNat (x.rounds.map fun r => r.2.items.length)],
    suspect := false, fenced := x.dead.isSome, fclose := none }

/-- Kind 7: the ledger entries of a home partition (R374). -/
def ledgerCount (s : State) (p : Nat) : Count :=
  let mine := (ledgerReqs s).filter fun r => r.part == p
  let filled := (mine.filter fun r => r.done).length
  let waits := mine.length - filled
  let made := (partition s p).ledgerMade
  { kind := 7, index := p, total := made, parts := [made - filled - waits, waits, filled, 0], suspect := false, fenced := !(isUp s 9 p),
    fclose := none }

/-- Kind 8: the drops counted on a fabric engine (R355). -/
def dropCountOf (s : State) (e : Nat) : Count :=
  let x := tget s.drops e (0, 0)
  let q := (s.notices.filter fun n => n.2 == e && queuedWhole s n.1).length
  { kind := 8, index := e, total := x.1, parts := [x.1 - x.2 - q, x.2, q, 0], suspect := false, fenced := !(isUp s 6 e), fclose := none }

/-- Kind 1 of one bench: closed channels, then those that stand, by identifier. -/
def benchCredits (s : State) (closed : List (Nat × Nat × Nat)) (b : Nat) : List Count :=
  (List.range 64).flatMap fun id =>
    ((closed.filter fun c => c.1 == b * 64 + id).map (closedCount s))
      ++ (match chan? s b id with | some c => [creditCount s b id c] | none => [])

/-- The active groups of a partition, with their programs, by number. -/
def partGroups (s : State) (p : Nat) : List (Nat × Nat) :=
  let l := s.progs.flatMap fun x => bif groupsActive x.2 && x.2.part == p then x.2.groups.map (fun g => (x.1, g.group)) else []
  l.foldl (fun acc x => insertBy (fun a b => Nat.ble a.2 b.2) x acc) []

/-- The links of the part: local by node, then global by node. -/
def censusLinks (s : State) : List Nat :=
  ((stageLinks s 0).filter fun k => !((linkLanes s k).isEmpty)) ++ (stageLinks s 1).foldl (fun l k => insertNat k l) []

/-- The counts of partition scope (R500). -/
def partCounts (s : State) (p : Nat) : List Count :=
  let bs := (List.range 32).filter (hasBench s p)
  bs.flatMap (benchCredits s (partition s p).fclosed) ++ bs.map (granuleCount s) ++ (List.range 96).map (tokenCount s p)
    ++ (partGroups s p).map (fun x => contributionCount s p x.1 x.2) ++ [ledgerCount s p]

/-- The counts of part scope (R500). -/
def allCounts (s : State) : List Count :=
  let bs := List.range 32
  let ps := List.range 8
  let closed := ps.flatMap fun p => (partition s p).fclosedAll
  bs.flatMap (benchCredits s closed) ++ bs.map (granuleCount s) ++ (censusLinks s).map (flitCount s) ++ (List.range 328).map (dieCount s)
    ++ (ps.flatMap fun p => (List.range 96).map (tokenCount s p))
    ++ (ps.flatMap fun p => (partGroups s p).map fun x => contributionCount s p x.1 x.2)
    ++ ps.map (ledgerCount s) ++ (List.range 8).map (dropCountOf s)

def countsOf (s : State) (part : Option Nat) : List Count := match part with | some p => partCounts s p | none => allCounts s

/-- What an entry out of balance does (R498, Table 16.3). -/
def fenceCount (s : State) (c : Count) : State :=
  match c.kind with
  | 1 => imbalance 2 (c.index / 64) s
  | 2 => imbalance 2 c.index s
  | 3 => raise 0x9004 1 none 0 (BitVec.ofNat 64 c.index)
      (bump .errImbal 0 0 1 ((linkLaneUnits s c.index).foldl (fun s u => fenceCause 5 u 0x0306 s) s))
  | 4 => imbalance 4 c.index s
  | 5 => imbalance 9 (c.index / 96) s
  | 6 =>
    let p := c.index / 65536
    let s := raise 0x9004 1 (some p) 0 (BitVec.ofNat 64 c.index) (bump .errImbal 0 0 1 s)
    (match collLive s p (c.index % 65536) with
      | some (n, _, _) => modGroup p (c.index % 65536) n (fun x => { x with dead := some (Config.deadMember c.index) }) s
      | none => s)
  | 7 => imbalance 9 c.index s
  | _ => imbalance 6 c.index s

/-- The header of Table 16.5. -/
def censusHeader (s : State) (part : Option Nat) (need wrote imbal : Nat) : List Byte :=
  leBytes 4 0x534E4543 ++ leBytes 1 (b01 part.isSome) ++ leBytes 1 (part.getD 0) ++ leBytes 2 0 ++ leBytes 8 s.time
    ++ leBytes 4 s.censuses ++ leBytes 4 need ++ leBytes 4 wrote ++ leBytes 4 imbal ++ List.replicate 32 0

/-- The tokens of a write into a partition's space (R251). -/
def chargeWrite (p va n : Nat) (s : State) : State :=
  (piecesOf va n).foldl (fun s c => match leaf? s p (c.1 / 2 ^ 21) with
    | some l => spendAt p (paOf l c.1) c.2 s
    | none => s) s

/-- The census counts, writes what fits, and fences what does not balance. -/
def takeCensus (c : Census) (s : State) : Status × State :=
  let s := { s with censuses := s.censuses + 1 }
  let l := countsOf s c.part
  let bad := l.filter fun x => !x.balanced
  let wrote := Nat.min l.length ((c.len / 64 * 64 - 64) / 32)
  let bytes := censusHeader s c.part l.length wrote bad.length ++ (l.take wrote).flatMap Count.bytes
  let w := bif Nat.blt c.len 64 then (0, s) else spaceWrite c.space c.dest bytes (chargeWrite c.space c.dest bytes.length s)
  let s := bad.foldl fenceCount (setFld .errCensus 0 0 15 0 (satTo 65535 bad.length) w.2)
  let s := match c.part with
    | some p => modPartition p (fun x => { x with fclosed := [] }) s
    | none => (List.range 8).foldl (fun s p => modPartition p (fun x => { x with fclosedAll := [] }) s) s
  (w.1, s)

/-- CENSUS: the census begins when no other runs; the instruction is accepted and retires (R500, R501, R362). -/
def censusEntry (b : Nat) (e : Entry) (s : State) : State :=
  bif s.census.isSome then s
  else
    let p := benchPart s b
    let r : RemoteOp := ⟨(bench s b).prog, (bench s b).role, b, p, e.off, 9, false, 0, wImmBits e.word 5 0, wIndex e.word 4 % 16, wSoft e.word⟩
    let c : Census := ⟨some p, some s.nextRop, p, (eVal e 2).toNat, (eVal e 3).toNat⟩
    sysRetire b { s with rops := tset s.rops s.nextRop r, nextRop := s.nextRop + 1, census := some c }

def execCensus (b : BenchId) (t : Time) (s : State) : Host.Outcome State Fault Refusal :=
  .next (onSys b.val 9 0x60 (censusEntry b.val) (atTime t s))

/-- ERR_CENSUS.GO: ignored while a census runs. -/
def censusGo (s : State) : State :=
  bif s.census.isSome then s
  else { s with census := some ⟨none, none, fld s .errCensdstHi 0 0 18 16,
                                raw s .errCensdstLo 0 0 + 2 ^ 32 * fld s .errCensdstHi 0 0 15 0, raw s .errCenslen 0 0⟩ }

/-- CENSUS_COMPLETE: the Steward core in charge takes the counts at one cut (Table 14.1). -/
def censusComplete (s : State) : State :=
  match s.census with
  | none => s
  | some c =>
    bif !(dutyRuns s 2) then s
    else
      let r := takeCensus c { s with census := none }
      match c.op with
      | some n => completeOp n r.1 [] r.2
      | none => r.2

def execCensusComplete (t : Time) (s : State) : Host.Outcome State Fault Refusal := .next (censusComplete (atTime t s))

/-! ## Recovery (R492, R494) -/

/-- Recovery fails: the unit is Fenced again, with an Error event. -/
def recoveryFails (kind index : Nat) (s : State) : State :=
  let cause := (tget s.units (unitId kind index) ⟨.up, 0, 0⟩).cause
  raise 0x9003 1 (unitPart kind index) (unitId kind index) 0 (setUnit kind index .fenced cause s)

/-- The stations of a bench return, but for those that failed the self-test. -/
def stationsReturn (b : Nat) (failed : List Nat) (s : State) : State :=
  (List.range 13).foldl (fun s k =>
    let u := b * 16 + k
    bif failed.contains k then setUnit 1 u .fenced 0x030B s
    else bif isUp s 1 u then s else unitUp 1 u s) s

/-- The self-test of a bench ends. -/
def benchRecovered (b : Nat) (pass : Bool) (failed : List Nat) (s : State) : State :=
  bif pass && failed.isEmpty then stationsReturn b [] (unitUp 2 b s)
  else recoveryFails 2 b (stationsReturn b failed s)

/-- The partition-scope census of a partition that returns (Table 16.1). -/
def partitionBalanced (s : State) (p : Nat) : Bool := (partCounts s p).all Count.balanced

/-- What a unit that has passed recovery takes up again. -/
def recovered (kind index : Nat) (s : State) : State :=
  match kind with
  | 3 => modSector index (fun x => { x with regOff := false }) (unitUp 3 index s)
  | 4 => bif Nat.blt index 328 then moveStopped (moduleLink index) (setFld .ndlStat index 0 31 29 2 (unitUp 4 index s)) else unitUp 4 index s
  | 6 =>
    let s := unitUp 6 index s
    (List.range 2).foldl (fun s d => (List.range (engineLanes index)).foldl (fun s l => laneReturn index d l s) s) s
  | k => unitUp k index s

/-- RECOVERY_END: recovery passes and the unit is Up, or fails and it is Fenced. A processor returns by the end of its restart, and a lane by
LANE_UP; only their failure ends here. -/
def recoveryEnd (kind index : Nat) (pass : Bool) (failed : List Nat) (s : State) : State :=
  bif !(unitState s kind index == .recovering) || kind == 1 then s
  else
    match kind with
    | 2 => benchRecovered index pass failed s
    | 5 => bif pass then s else setLane (index / 128) (index / 64 % 2) (index % 64) 6 (recoveryFails 5 index s)
    | 9 => bif pass && partitionBalanced s index then recovered 9 index s else recoveryFails 9 index s
    | 10 => bif pass then s else setFld .fwpStat index 0 31 30 2 (recoveryFails 10 index s)
    | k => bif pass then recovered k index s else recoveryFails k index s

def execRecoveryEnd (kind : Fin 11) (index : Nat) (pass : Bool) (failed : List Nat) (t : Time) (s : State) : Host.Outcome State Fault Refusal :=
  .next (recoveryEnd kind.val index pass failed (atTime t s))

/-! ## Telemetry -/

/-- EVPOST (R507). -/
def evpostEntry (b : Nat) (e : Entry) (s : State) : State :=
  sysRetire b (raise (BitVec.ofNat 16 (0xF000 + wImmBits e.word 11 0)) (wModBits e.word 2 0) (some (benchPart s b)) (unitId 2 b) (eVal e 2) s)

def execEvpost (b : BenchId) (t : Time) (s : State) : Host.Outcome State Fault Refusal :=
  .next (onSys b.val 9 0x61 (evpostEntry b.val) (atTime t s))

/-- EVENT_RAISE (R505). -/
def execEventRaise (code : BitVec 16) (sev : Fin 5) (part : Option PartId) (unit : W32) (data : W64) (t : Time) (s : State) :
    Host.Outcome State Fault Refusal :=
  .next (raise code sev.val (part.map fun p => p.val) unit.toNat data (atTime t s))

/-- The 32 bytes of a record (Table 16.7). -/
def recordBytes32 (r : TelRecord) : List Byte :=
  leBytes 8 r.time ++ leBytes 2 r.code.toNat ++ leBytes 1 (r.sev + 8 * b01 r.cond)
    ++ leBytes 1 (match r.part with | some p => p % 8 + 8 | none => 0) ++ leBytes 4 r.unit ++ leBytes 4 r.count
    ++ leBytes 4 r.last ++ leBytes 8 r.data.toNat

/-- The copies of a record that leaves the queue (R504). -/
def copyRecord (r : TelRecord) (s : State) : State :=
  let s := s.sessions.foldl (fun s q =>
    match q.2.evsub with
    | some v => bif r.part == some q.2.part && Nat.ble r.sev v && !(q.2.state == .closed) then emit (.event (some q.1) r) s else s
    | none => s) s
  let s := match s.adminEvsub with
    | some v => bif Nat.ble r.sev v then emit (.event none r) s else s
    | none => s
  bif Nat.ble r.sev 1 && Nat.blt s.i3cQ.length 64 then { s with i3cQ := s.i3cQ ++ [r] } else s

/-- The first record leaves the queue. -/
def recordLeaves (r : TelRecord) (s : State) : State := copyRecord r { s with telQ := s.telQ.drop 1 }

/-- Ring: its partition, base and number of places. -/
def ringPart (s : State) : Nat := fld s .telRingHi 0 0 26 24
def ringBase (s : State) : Nat := raw s .telRingLo 0 0 + 2 ^ 32 * fld s .telRingHi 0 0 15 0
def ringPlaces (s : State) : Nat := fld s .telRingHi 0 0 23 16 * 65536 - 1

/-- A record goes to its place in the ring, or is lost when that cannot be written. -/
def toRing (r : TelRecord) (s : State) : State :=
  let n := raw64 s .telProdLo .telProdHi 0 0
  let w := spaceWrite (ringPart s) (ringBase s + 32 * (1 + n % ringPlaces s)) (recordBytes32 r) s
  bif w.1 == 0 then
    (spaceWrite (ringPart s) (ringBase s) (leBytes 8 (n + 1)) (setRaw64 .telProdLo .telProdHi 0 0 (n + 1) w.2)).2
  else bump .telLostr 0 0 1 w.2

/-- TELEMETRY_QUEUE_LEAVE: the oldest record is taken by the ring, is lost, or leaves after 1 ms with no ring (R504). -/
def queueLeave (s : State) : State :=
  match s.telQ with
  | [] => s
  | q :: _ =>
    bif !(dutyRuns s 2) then s
    else bif fld s .telRingHi 0 0 23 16 == 0 then
      bif Nat.ble (q.rec_.time + 1000000) s.time then recordLeaves q.rec_ s else s
    else
      let used := (raw64 s .telProdLo .telProdHi 0 0 + 2 ^ 64 - raw64 s .telConsLo .telConsHi 0 0) % 2 ^ 64
      bif used == ringPlaces s then s else recordLeaves q.rec_ (toRing q.rec_ s)

def execTelemetryQueueLeave (t : Time) (s : State) : Host.Outcome State Fault Refusal := .next (queueLeave (atTime t s))

end Sys2Proof.Machine
end

