-- ==== Sys2Proof/Machine/DieLinks.lean ====
section
/-! DEFINITION. Die links, the open site and test (chapter 17): native link modules (R509 to R518), the UCIe adapter (R519 to R522),
loopback and IEEE 1500 tests (R523 to R525). -/

namespace Sys2Proof.Machine

/-- STATE as it reads: a module that is not Up shows 4, but for one that retrains or is in test. -/
def ndlShown (s : State) (m : Nat) : Nat :=
  match unitState s 4 m with
  | .up => ndlState s m
  | .recovering => 3
  | _ => bif ndlState s m == 5 then 5 else 4

/-! ## Training and repair (R514, R515) -/

/-- What the test of a direction comes to: half width and spares used, or failure. -/
def dirRepair (r : DirTest) : Option (Bool × Nat) :=
  let low := Nat.min r.failLow r.failHigh
  bif !r.clockOk then none
  else bif Nat.ble (r.failLow + r.failHigh) 16 then some (false, r.failLow + r.failHigh)
  else bif Nat.ble low 16 then some (true, low)
  else none

/-- A module with both directions in service at the widths and with the spares of a test; groups of the link that found no module go to it. -/
def moduleRuns (m : Nat) (a b : Bool × Nat) (s : State) : State :=
  moveStopped (moduleLink m) <| setFld .ndlStat m 0 26 25 (2 * b01 b.1 + b01 a.1) (setFld .ndlStat m 0 9 0 (32 * b.2 + a.2) (setNdlState m 2 s))

/-- DIE_LINK_TRAIN: a module trains once the sector regulators are in regulation (Table 18.7); one below half width is fenced. -/
def dieLinkTrain (m : Nat) (r0 r1 : DirTest) (s : State) : State :=
  bif !(awake s) || !s.regsUp || !(ndlState s m == 0) || !(isUp s 4 m) then s
  else
    match dirRepair r0, dirRepair r1 with
    | some a, some b => moduleRuns m a b s
    | _, _ => fenceCause 4 m 0x030D s

def execDieLinkTrain (m : Fin 328) (r0 r1 : DirTest) (t : Time) (s : State) : Host.Outcome State Fault Refusal :=
  .next (dieLinkTrain m.val r0 r1 (atTime t s))

/-! ## Groups and replays (R510, R516) -/

/-- RPTHR; 0 is treated as 1. -/
def replayLimit (s : State) : Nat := Nat.max 1 (fld s .ndlCtl 0 0 15 0)

/-- One more replay within the last millisecond. -/
def countReplay (now : Time) (d : NdlDir) : NdlDir := { d with replays := (d.replays.filter fun t => Nat.blt now (t + 1000000)) ++ [now] }

/-- Retrains within the last second. -/
def recentRetrains (s : State) (m : Nat) : List Time := (ndlModule s m).retrains.filter fun t => Nat.blt s.time (t + 1000000000)

/-- A module retrains (R516); the ninth time within 1 s it is fenced instead (R517). -/
def beginRetrain (m : Nat) (s : State) : State :=
  let ts := recentRetrains s m ++ [s.time]
  let s := modNdl m (fun x => { x with retrains := ts }) s
  bif Nat.blt 8 ts.length then fenceCause 4 m 0x030C s
  else moveStopped (moduleLink m) (bump .ndlRetrain m 0 1 (setNdlState m 3 s))

/-- NDL_GROUP_RECEIVE: the group that is next, with its check passed, is accepted, and its acknowledgement taken for the other direction;
one already accepted is discarded; for any other the receiver asks for the group it lacks. It is no event on a module that does not serve the
flows of the group (R513). -/
def groupReceive (m d seq : Nat) (ok : Bool) (ack : Nat) (flows : List NdlFlow) (s : State) : State :=
  let x := ndlDir (ndlModule s m) d
  bif !(ndlUp s m) then s
  else bif ok && Nat.blt seq x.next then s
  else bif !(groupFits s m d flows) then s
  else bif ok && seq == x.next then
    modDir m (1 - d) (fun y => { y with acked := ack }) (modDir m d (fun y => { y with
      next := y.next + 1, unacked := dropGroup flows y.unacked,
      moved := bif y.unacked.contains flows then y.moved else dropGroup flows y.moved }) s)
  else
    let s := modDir m d (fun y => countReplay s.time (bif y.unacked.contains flows then y
      else { y with unacked := y.unacked ++ [flows], moved := dropGroup flows y.moved })) (bump .ndlReplay m 0 1 (emit (.ndlReplay m d x.next) s))
    bif Nat.blt (replayLimit s) (ndlDir (ndlModule s m) d).replays.length then beginRetrain m s else s

def execNdlGroupReceive (m : Fin 328) (dir : Fin 2) (group : NdlGroup) (checkOk : Bool) (ack : Nat) (t : Time) (s : State) :
    Host.Outcome State Fault Refusal :=
  .next (groupReceive m.val dir.val group.seq checkOk ack group.flows (atTime t s))

/-- The replay counts of a module begin again. -/
def clearReplays (m : Nat) (s : State) : State :=
  modDir m 0 (fun d => { d with replays := [] }) (modDir m 1 (fun d => { d with replays := [] }) s)

/-- Whether the replays of a direction asked for the retrain that runs. -/
def overReplays (s : State) (m d : Nat) : Bool := Nat.blt (replayLimit s) (ndlDir (ndlModule s m) d).replays.length

/-- NDL_RETRAIN: a retrain ends: repaired, at half width, or fenced; a recovery ends with it (R516, R517). -/
def ndlRetrain (m d : Nat) (r0 r1 : DirTest) (inTime : Bool) (s : State) : State :=
  let recovering := unitState s 4 m == .recovering
  bif !(ndlState s m == 3) || !(recovering || (isUp s 4 m && overReplays s m d)) then s
  else
    match dirRepair r0, dirRepair r1, inTime with
    | some a, some b, true =>
      let s := clearReplays m (moduleRuns m a b s)
      bif recovering then unitUp 4 m s else s
    | _, _, _ =>
      let s := setNdlState m 0 (clearReplays m s)
      bif recovering then recoveryFails 4 m s else fenceCause 4 m 0x030D s

def execNdlRetrain (m : Fin 328) (dir : Fin 2) (r0 r1 : DirTest) (inTime : Bool) (t : Time) (s : State) : Host.Outcome State Fault Refusal :=
  .next (ndlRetrain m.val dir.val r0 r1 inTime (atTime t s))

/-- NDL_AUTO_RECOVER: the part starts recovery itself up to AUTORET times within 60 s (R517). -/
def autoRecover (m : Nat) (s : State) : State :=
  let ts := (ndlModule s m).autos.filter fun t => Nat.blt s.time (t + 60000000000)
  bif unitState s 4 m == .fenced && !(ndlState s m == 5) && Nat.blt ts.length (fld s .ndlCtl 0 0 19 16) then
    beginRecovery 4 m (modNdl m (fun x => { x with autos := ts ++ [s.time] }) s)
  else s

def execNdlAutoRecover (m : Fin 328) (t : Time) (s : State) : Host.Outcome State Fault Refusal := .next (autoRecover m.val (atTime t s))

/-! ## The open site (R519 to R522) -/

/-- RATE of UCI_STAT for a rate in GT/s. -/
def rateCode (r : Nat) : Nat := bif r == 32 then 3 else bif r == 24 then 2 else bif r == 16 then 1 else 0
/-- The least code other than 0: the rate of the slowest module that is up. -/
def slowest (l : List Nat) : Nat := (l.filter (· != 0)).foldl Nat.min (maxNat l)

/-- UCIE_DISCOVERY: the die's identity is read and rate and width negotiated; without an answer the adapter is off until the next reset. -/
def ucieDiscovery (id : Option W64) (rate : List Nat) (narrow : List Bool) (s : State) : State :=
  bif !(awake s) || !s.regsUp || s.uciOff || flag s .uciStat 0 0 31 then s
  else
    match id with
    | none => { s with uciOff := true }
    | some v =>
      let codes := (List.range 4).map fun i => rateCode ((rate[i]?).getD 0)
      let up := fun i => !((codes[i]?).getD 0 == 0)
      let ups := sumNat ((List.range 4).map fun i => bif up i then 2 ^ i else 0)
      let nar := sumNat ((List.range 4).map fun i => bif up i && (narrow[i]?).getD false then 2 ^ i else 0)
      let s := setRaw .uciStat 0 0 (2 ^ 31 + ups * 2 ^ 27 + slowest codes * 2 ^ 25 + nar * 2 ^ 21) s
      let s := setRaw64 .uciIdLo .uciIdHi 0 0 v.toNat (setFld .genConfig 0 0 4 4 1 s)
      let down := (List.range 4).filter fun i => !(up i)
      extendMr 10 (digestOf (leBytes 8 v.toNat)) { s with uciDown := down.map fun i => (i, s.time) }

def execUcieDiscovery (id : Option W64) (rate : List Nat) (narrow : List Bool) (t : Time) (s : State) : Host.Outcome State Fault Refusal :=
  .next (ucieDiscovery id rate narrow (atTime t s))

/-- The partition the die works in. -/
def diePart (s : State) : Nat := fld s .uciCtl 0 0 2 0
/-- An access refused: answered with its status and counted (R521). -/
def dieRefused (st : Status) (s : State) : State := emit (.die st []) (bump .uciErr 0 0 1 s)

/-- Address of an access, its alignment and whether its data are one unit. -/
def dieVa : DieAccess → Nat
  | .read va => va | .write va _ => va | .atomic va _ _ _ => va
def dieAligned : DieAccess → Bool
  | .read va => va % 64 == 0
  | .write va bs => va % 64 == 0 && bs.length == 64
  | .atomic va op _ _ => va % atomicWidth op == 0

/-- The page of an access, as at a home: its leaf, a status, or a wait for Drift (R236, R284). -/
def diePage (s : State) (a : DieAccess) : Option (Except Status Leaf) :=
  let op := match a with | .read _ => 0 | .write _ _ => 1 | .atomic _ _ _ _ => 2
  bif Nat.ble (2 ^ 48) (dieVa a) then some (.error 0x0501) else homePage s (diePart s) (requestHdr op false false 0 (dieVa a))

/-- A read of a line by the die. -/
def dieRead (p pa : Nat) (s : State) : State :=
  let s := spendAt p pa 64 s
  match linesRead s pa 64 with
  | .ok => emit (.die 0 (memRead s pa 64)) (linesSeen pa 64 s)
  | .fail st => emit (.die st []) (linesSeen pa 64 s)

/-- An access is served under its leaf, charged to the partition's regulators (R251). -/
def dieServe (a : DieAccess) (l : Leaf) (s : State) : State :=
  let p := diePart s
  let pa := paOf l (dieVa a)
  match a with
  | .read _ => dieRead p pa s
  | .write va bs => emit (.die 0 []) (pageWrite p va bs (spendAt p pa 64 s))
  | .atomic va op x c =>
    let r := atomicAt pa op x.toNat c.toNat (abortMoveOut p (va / 2 ^ 21) (spendAt p pa 8 s))
    emit (.die r.1 (bif r.1 == 0 then leBytes 8 r.2.1.toNat else [])) r.2.2

/-- A page resident only in tier 2 is asked of Drift, once (R244). -/
def askDrift (p v : Nat) (s : State) : State :=
  let wanted := match leaf? s p v with | some l => l.res == 1 && !((partition s p).demand.contains v) | none => false
  bif wanted then modPartition p (fun x => { x with demand := x.demand ++ [v] }) s else s

/-- UCIE_ACCESS. An access to a page that Drift must bring first, or short of tokens (R251), waits: nothing is answered yet. -/
def ucieAccess (a : DieAccess) (s : State) : State :=
  bif !(flag s .uciStat 0 0 31) || fld s .uciStat 0 0 30 27 == 0 then s
  else bif !(flag s .uciCtl 0 0 30) then dieRefused (Config.dieRefusal 0) s
  else bif !(isUp s 9 (diePart s)) then dieRefused 0x0305 s
  else bif !(dieAligned a) then dieRefused (Config.dieRefusal 1) s
  else
    let p := diePart s
    let v := dieVa a / 2 ^ 21
    match diePage s a with
    | some (.error st) => dieRefused st s
    | some (.ok l) =>
      bif admittedAt s p (paOf l (dieVa a)) then dieServe a l (heatPage p v { s with uciTlb := touchLru 256 v s.uciTlb })
      else waitAt p (paOf l (dieVa a)) s
    | none => askDrift p v (heatPage p v s)

def execUcieAccess (a : DieAccess) (t : Time) (s : State) : Host.Outcome State Fault Refusal := .next (ucieAccess a (atTime t s))

/-- UCIE_MODULE_DOWN: a module has stayed down for more than 10 ms; one that never trained since discovery (R522). -/
def ucieModuleDown (m : Nat) (s : State) : State :=
  let late := match tget? s.uciDown m with | some t => Nat.blt (t + 10000000) s.time | none => true
  bif !(flag s .uciStat 0 0 31) || !late then s
  else fenceCause 4 (328 + m) 0x030D (setFld .uciStat 0 0 (27 + m) (27 + m) 0 s)

def execUcieModuleDown (m : Fin 4) (t : Time) (s : State) : Host.Outcome State Fault Refusal := .next (ucieModuleDown m.val (atTime t s))

/-! ## JTAG (R524) -/

/-- The dies of the JTAG chain, by their names. -/
inductive JtagDie where
  | h0 | c0 | c2 | c3 | c1 | h1
  deriving DecidableEq, Repr
/-- The chain, from its input on. -/
def jtagChain : List JtagDie := [.h0, .c0, .c2, .c3, .c1, .h1]

/-- IDCODE of a die: its stepping, the low four bits of GEN_STEP's; 0x9801 for a compute die and 0x9802 for a hub die; 0x2D3; 1. -/
def jtagIdcode (d : JtagDie) : BitVec 32 :=
  let step := Config.genStep.toNat
  match d with
  | .h0 => BitVec.ofNat 32 (step % 16 * 2 ^ 28 + 0x9802 * 2 ^ 12 + 0x2D3 * 2 + 1)
  | .h1 => BitVec.ofNat 32 (step % 16 * 2 ^ 28 + 0x9802 * 2 ^ 12 + 0x2D3 * 2 + 1)
  | _ => BitVec.ofNat 32 (step / 2 ^ 8 % 16 * 2 ^ 28 + 0x9801 * 2 ^ 12 + 0x2D3 * 2 + 1)

/-- The instructions that the rule names; the others of IEEE 1149.1 and 1149.6 act as they are. -/
inductive JtagInstr where
  | bypass | idcode | extest | extestPulse | extestTrain | highz
  | other (code : Nat)
  deriving DecidableEq, Repr

/-- Whether an instruction drives the board. -/
def JtagInstr.drives : JtagInstr → Bool
  | .extest => true | .extestPulse => true | .extestTrain => true | .highz => true
  | _ => false

/-- What an instruction in a die's instruction register acts as: board test runs in recovery alone, and BYPASS stands in at any other time
(R524). -/
def jtagActs (s : State) (i : JtagInstr) : JtagInstr := bif i.drives && !(bootSel s == 3) then .bypass else i

/-! ## Test (R523, R525) -/

/-- A write of DBG_LOOP with GO: refused unless the module is Fenced; ignored while a test runs. -/
def dbgLoopWritten (v : Nat) (s : State) : State :=
  let m := bits v 26 18
  bif !(bit v 31) || flag s .dbgLoop 0 0 30 then s
  else bif !(Nat.blt m 332 && unitState s 4 m == .fenced) then setFld .dbgLoop 0 0 17 16 1 s
  else
    let s := setFld .dbgLoop 0 0 17 16 0 (setFld .dbgLoop 0 0 30 30 1 { s with loopAt := s.time })
    bif Nat.blt m 328 then setNdlState m 5 s else s

/-- DBG_LOOP_COMPLETE: after 100 µs. -/
def loopComplete (first errs : Nat) (s : State) : State :=
  bif !(flag s .dbgLoop 0 0 30) || Nat.blt s.time (s.loopAt + 100000) then s
  else
    let m := fld s .dbgLoop 0 0 26 18
    let s := setRaw .dbgLoopres 0 0 (Nat.min first 0x1FF * 2 ^ 23 + satTo 65535 errs) (setFld .dbgLoop 0 0 30 30 0 s)
    bif Nat.blt m 328 && ndlState s m == 5 then setNdlState m 0 s else s

def execDbgLoopComplete (first errs : Nat) (t : Time) (s : State) : Host.Outcome State Fault Refusal :=
  .next (loopComplete first errs (atTime t s))

/-- A write of DBG_P1500 with GO: refused unless all 64 pseudo-channels of the stack are fenced. -/
def p1500Written (v : Nat) (s : State) : State :=
  let k := bits v 3 0
  bif !(bit v 31) || flag s .dbgP1500 0 0 30 then s
  else bif Nat.blt k 12 && (List.range 64).all (fun p => unitState s 7 (k * 64 + p) == .fenced) then
    setFld .dbgP1500 0 0 30 28 4 s
  else setFld .dbgP1500 0 0 29 28 1 s

/-- DBG_P1500_COMPLETE. -/
def p1500Complete (pass : Bool) (s : State) : State :=
  bif flag s .dbgP1500 0 0 30 then setFld .dbgP1500 0 0 30 28 (bif pass then 0 else 2) s else s

def execDbgP1500Complete (pass : Bool) (t : Time) (s : State) : Host.Outcome State Fault Refusal := .next (p1500Complete pass (atTime t s))

end Sys2Proof.Machine
end

