-- ==== Sys2Proof/Machine/RegAccess.lean ====
section
/-! DEFINITION. The control space through its access paths (R10 to R13, R33 to R38): where a register lies, who may read and write it,
what it reads as, the refusals of its block, and what a write of it sets off. -/

namespace Sys2Proof.Machine

/-! ## Where a register lies -/

/-- A register and its instance. -/
structure Place where
  reg : Reg
  i   : Nat
  j   : Nat
  deriving DecidableEq, Repr

/-- The instance of a register at an address. -/
def placeIn (a : Nat) (r : Reg) : Option Place :=
  let w := regRow r
  let o := a - w.base
  let i := bif w.s1 == 0 then 0 else o / w.s1
  let o1 := o - i * w.s1
  let j := bif w.s2 == 0 then 0 else o1 / w.s2
  bif Nat.ble w.base a && Nat.blt i w.n1 && Nat.blt j w.n2 && o1 == j * w.s2 then some ⟨r, i, j⟩ else none

/-- The lanes of a host engine are 0 to 7 (R328). -/
def noLane (p : Place) : Bool := (p.reg == .optTxl || p.reg == .optRxl) && isHostEngine p.i && Nat.ble 8 p.j

def findPlace (a : Nat) : List Reg → Option Place
  | [] => none
  | r :: l => match placeIn a r with
    | some p => bif noLane p then none else some p
    | none => findPlace a l

/-- The register at an address; offsets not listed are reserved. -/
def placeAt (a : Nat) : Option Place := findPlace a allRegs

/-- Whether a block of Table 1.9 decodes an address, each block reaching to the next one and DBG 1 MiB, and it is a multiple of 4
(R33). -/
def decoded (a : Nat) : Bool := Nat.blt a 0x09100000 && a % 4 == 0

/-- Whether an address lies in [lo, hi). -/
def inRange (lo hi a : Nat) : Bool := Nat.ble lo a && Nat.blt a hi

def inGen (a : Nat) : Bool := inRange 0 0x100000 a
def inAtt (a : Nat) : Bool := inRange 0x200000 0x300000 a
/-- PWR, THM and AGE. -/
def inPower (a : Nat) : Bool := inRange 0x300000 0x600000 a
def inFab (a : Nat) : Bool := inRange 0x05000000 0x05400000 a
def inErr (a : Nat) : Bool := inRange 0x07000000 0x07100000 a
def inTel (a : Nat) : Bool := inRange 0x07100000 0x08000000 a

/-! ## Views (Table 1.11) -/

/-- A register of which each partition has its own instance. -/
def Place.perPart (p : Place) : Bool := (regRow p.reg).n1 == 8
/-- A register of a bench's sequencer. -/
def Place.perBench (p : Place) : Bool := inRange 0x02000000 0x03000000 (regRow p.reg).base
def Place.bench (p : Place) : Nat := 8 * p.i + p.j

/-- Whether partition `q` owns bench `b`. -/
def ownsBench (s : State) (q b : Nat) : Bool := bit (raw s .schBench q 0) b

/-- Whether session `n` belongs to partition `q`. -/
def sessionOf (s : State) (q n : Nat) : Bool := !((session s n).state == .closed) && (session s n).part == q

/-- Whether a register lies in the own view of partition `q`. -/
def inView (s : State) (q : Nat) (p : Place) : Bool :=
  bif p.perPart then p.i == q
  else bif p.perBench then ownsBench s q p.bench
  else bif p.reg == .stwSstate then sessionOf s q p.i
  else true

/-- The bench whose sub-window of a compute die holds an address (Table 1.10). -/
def benchAt (a : Nat) : Option Nat :=
  let o := a % 0x400000
  bif inRange 0x02000000 0x03000000 a && inRange 0x100000 0x200000 o then some ((a - 0x02000000) / 0x400000 * 8 + (o - 0x100000) / 0x20000)
  else none
/-- The compute sector whose sub-window holds an address. -/
def sectorAt (a : Nat) : Option Nat :=
  let o := a % 0x400000
  bif inRange 0x02000000 0x03000000 a && inRange 0x200000 0x260000 o then some ((a - 0x02000000) / 0x400000 * 6 + (o - 0x200000) / 0x10000)
  else none
/-- The station of a bench sub-window whose 4 KiB hold an address. -/
def stationAt (a : Nat) : Option Nat :=
  let o := a % 0x20000
  bif inRange 0x1000 0xE000 o then some (o / 0x1000 - 1) else none

def fencedNow (s : State) (kind index : Nat) : Bool :=
  unitState s kind index == .fenced || unitState s kind index == .recovering

/-- Whether a sector is fenced or its regulator is off. -/
def sectorShut (s : State) (k : Nat) : Bool := fencedNow s 3 k || (sector s k).regOff

/-- A register of a unit that Table 1.3 places in a hub sector that is fenced or off: the UCIe adapter in H1.S0, the host Ethernet of a
port in H0.S3 or H1.S3, and the schedulers, Drift instances and collective engines in H0.S2 and H1.S2. -/
def hubFenced (s : State) (a : Nat) : Bool :=
  bif inRange 0x08100000 0x09000000 a then sectorShut s 28
  else bif inRange 0x06000000 0x06000400 a then sectorShut s (bif Nat.blt a 0x06000200 then 27 else 31)
  else (inRange 0x01000000 0x01100000 a || inRange 0x01200000 0x01300000 a || inRange 0x05800000 0x06000000 a)
    && sectorShut s 26 && sectorShut s 30

/-- A register in a fenced unit or in a sector whose regulator is off (R37): the windows of benches, stations and compute sectors, and the
blocks of the units in hub sectors. -/
def regFenced (s : State) (a : Nat) : Bool :=
  match benchAt a with
  | some b =>
    fencedNow s 2 b || (match stationAt a with
      | some k => fencedNow s 1 (b * 16 + k) || (sector s (stationSector b k)).regOff
      | none => (sector s (homeSector b)).regOff)
  | none => match sectorAt a with
    | some k => sectorShut s k
    | none => hubFenced s a

/-- The partition of a session path. -/
def pathPart (s : State) (n : Nat) : Nat := (session s n).part

/-- Whether a path may read the register at an address (Table 1.11): a session sees the partition's own view of all blocks, the
status window GEN, SCH status, ERR and the TEL counters, I3C seven blocks; management packets read nothing. -/
def mayRead (s : State) (path : Path) (a : Nat) (p : Option Place) : Bool :=
  match path with
  | .admin => true
  | .session n => match p with
    | some x => inView s (pathPart s n.val) x
    | none => match benchAt a with | some b => ownsBench s (pathPart s n.val) b | none => true
  | .window n => match p with
    | some x => inGen a || inErr a || inRange 0x0710000C 0x0710003C a
        || ((x.reg == .schStat || x.reg == .schPreempt) && x.i == pathPart s n.val)
    | none => true
  | .i3c => inGen a || inAtt a || inPower a || inErr a || inTel a
  | .mgmt _ => false

/-- The registers that a partition's session mailboxes write (R213, R391, R415, Table 3.13). SCH_CTL, PGE_CTL and RMA_CTL also hold
fields that sessions may not write (R263, R391), so R36 refuses a write of them as a whole. -/
def sessionWrites : Reg → Bool
  | .numCtl => true
  | .numAsybaseLo => true
  | .numAsybaseHi => true
  | .rmaRankLo => true
  | .rmaRankHi => true
  | .colCtl => true
  | .seqFault => true
  | _ => false

/-- Whether any field of a register can be written by some path. -/
def writable (r : Reg) : Bool := (regRow r).fields.any fun f => !(f.acc == .ro || f.acc == .rsv)

/-- Whether a path may write the register at an address (R36, Table 1.11 and the rules of the blocks). -/
def mayWrite (s : State) (path : Path) (a : Nat) (p : Option Place) : Bool :=
  match path with
  | .admin => true
  | .session n => match p with
    | some x =>
      !(writable x.reg)
        || (sessionWrites x.reg && inView s (pathPart s n.val) x)
        || ((x.reg == .telConsLo || x.reg == .telConsHi) && fld s .telRingHi 0 0 26 24 == pathPart s n.val)
    | none => true
  | .window _ => false
  | .i3c => match p with
    | some x => x.reg == .pwrTdp || x.reg == .thmCtl
    | none => false
  | .mgmt _ => inFab a

/-! ## What a register reads as -/

/-- Bits of the pseudo-channels `base` to `base` + 31 of a stack that are fenced. -/
def fencedPcs (s : State) (stack base : Nat) : Nat :=
  (List.range 32).foldl (fun v k => v + b01 (pcFenced s (stack * 64 + base + k)) * 2 ^ k) 0

/-- Lines of a stack that are poisoned. -/
def stackPoison (s : State) (stack : Nat) : Nat :=
  (s.poison.filter fun l => isHbm (l * 64 / 2 ^ 21) && pcOf (l * 64) / 64 == stack).length

/-- Lanes up of a Stratus module through both memory engines. -/
def moduleLanesUp (s : State) (m : Nat) : Nat :=
  let up := fun e => ((moduleLanes m).filter fun l => laneState s e 0 l == 2 && laneState s e 1 l == 2).length
  up 8 + up 9

def t2mStatRead (s : State) (m : Nat) : Nat :=
  raw s .t2mStat m 0 + b01 (modulePresent s m) * 2 ^ 31 + b01 (fencedNow s 8 m) * 2 ^ 30
    + moduleLanesUp s m * 2 ^ 22 + (bif modulePresent s m then 393216 else 0)

/-- Lanes of an engine and direction that are up. -/
def engineUp (s : State) (e d : Nat) : Nat :=
  ((List.range (engineLanes e)).filter fun l => laneState s e d l == 2).length

def optStatRead (s : State) (e : Nat) : Nat :=
  raw s .optStat e 0 / 2 ^ 27 * 2 ^ 27 + fld s .optStat e 0 23 16 * 2 ^ 16 + b01 (fencedNow s 6 e) * 2 ^ 26
    + b01 (flag s .optCtl e 0 2 && !(isHostEngine e)) * 2 ^ 25 + engineUp s e 0 * 2 ^ 8 + engineUp s e 1

/-- Seconds left in the timed state of a session. -/
def sessionLeft (s : State) (x : Session) : Nat :=
  let times := raw s .stwTimes x.part 0
  let until_ := match x.state with
    | .open_ => x.renewed + Nat.max 1 (bits times 15 8) * (Nat.max 1 (bits times 7 0) * 10000000)
    | .orphaned => x.since + bits times 23 16 * 1000000000
    | .holding => x.since + bits times 31 24 * 60000000000
    | _ => 0
  satTo 0xFFFF ((until_ - s.time) / 1000000000)

/-- STATE of STW_SSTATE. -/
def sessCode : SessState → Nat
  | .closed => 0
  | .open_ => 1
  | .orphaned => 2
  | .holding => 3
  | .freeing => 4

def sstateRead (s : State) (n : Nat) : Nat :=
  let x := session s n
  bif x.state == .closed then 0 else sessCode x.state * 2 ^ 29 + x.part * 2 ^ 26 + sessionLeft s x

/-- Programs of a partition in some of the states of Table 7.6. -/
def progsIn (s : State) (p : Nat) (l : List ProgState) : Nat := (s.progs.filter fun x => x.2.part == p && l.contains x.2.state).length

def schStatRead (s : State) (p : Nat) : Nat :=
  satTo 0xFFFF (progsIn s p [.queued]) * 2 ^ 16
    + satTo 0xFF (progsIn s p [.placing, .running, .preempting, .restoring]) * 2 ^ 8 + satTo 0xFF (progsIn s p [.saved])

def seqStateRead (x : Bench) : Nat := x.role * 2 ^ 16 + x.cause * 2 ^ 8 + x.seq
def seqFaultRead (x : Bench) : Nat := b01 x.fvalid * 2 ^ 31 + x.ford * 2 ^ 16 + x.fstatus.toNat

/-- The four fence-state codes of ERR_CMD.STATE. -/
def fenceCode : FenceState → Nat
  | .up => 0
  | .draining => 1
  | .fenced => 2
  | .recovering => 3

def unitsNotUp (s : State) : Nat := satTo 0xFFFF s.units.length

/-- UPD_STAT: the emergencies show as they are now. -/
def updStatRead (s : State) : Nat :=
  setBits (raw s .updStat 0 0) 25 23 (4 * b01 (powerEmergency s) + 2 * b01 (thermalEmergency s) + b01 (fabricEmergency s))

/-- Word `w` of measurement register `n`, little-endian bytes of the digest (R462). -/
def mrWord (s : State) (n w : Nat) : Nat := bits (tget s.mrs n 0).toNat (32 * w + 31) (32 * w)

/-- Low or high half of a 64-bit quantity. -/
def half (hi : Bool) (v : Nat) : Nat := bif hi then v / 2 ^ 32 % 2 ^ 32 else v % 2 ^ 32

/-- Registers whose value another part of the state holds; the others read as stored. First GEN to CAL. -/
def readGen (s : State) (p : Place) : Nat :=
  match p.reg with
  | .genStep => Config.genStep.toNat
  | .genSerialLo => half false Config.genSerial.toNat
  | .genSerialHi => half true Config.genSerial.toNat
  | .genTimeLo => half false s.time
  | .genTimeHi => half true s.time
  | .stwPkey => 0
  | .stwSess => (List.range 32).foldl (fun v n => v + b01 (sessionOf s p.i n) * 2 ^ n) 0
  | .stwSstate => sstateRead s p.i
  | .attMr => mrWord s p.i p.j
  | .updStat => updStatRead s
  | .pwrEmerg => raw s .pwrEmerg 0 0 / 4 * 4 + emergBits s
  | .ageHours => ageHours s
  | .ageSect => setBits (setBits (raw s .ageSect p.i 0) 31 24 (ageGuard s p.i)) 23 16 (ageFmax s p.i)
  | r => raw s r p.i p.j

/-- SCH to T2M. -/
def readCompute (s : State) (p : Place) : Nat :=
  let x := bench s p.bench
  match p.reg with
  | .schStat => schStatRead s p.i
  | .schSaveq => satTo 0xFFFF (saveUsed s p.i) * 2 ^ 16 + fld s .schSaveq p.i 0 15 0
  | .alcHbmuse => hbmUse s p.i
  | .alcT2use => t2Use s p.i
  | .alcPinned => pinnedPages s p.i
  | .alcT2avail => t2Avail s
  | .numAsypend => assayPending s p.i
  | .seqState => seqStateRead x
  | .seqPcLo => half false x.pc
  | .seqPcHi => half true x.pc
  | .seqFault => seqFaultRead x
  | .seqFoffLo => half false x.foff
  | .seqFoffHi => half true x.foff
  | .seqFcount => x.fcount
  | .seqIssueLo => half false x.issued.toNat
  | .seqIssueHi => half true x.issued.toNat
  | .seqStallLo => half false x.stalled.toNat
  | .seqStallHi => half true x.stalled.toNat
  | .memStat =>
    setBits (raw s .memStat p.i 0) 0 0 (b01 (flag s .memStat p.i 0 0 && (List.range 64).any fun k => !(pcFenced s (p.i * 64 + k))))
  | .memPoison => satTo 0xFFFFFFFF (stackPoison s p.i)
  | .memFenceLo => fencedPcs s p.i 0
  | .memFenceHi => fencedPcs s p.i 32
  | .memRepair => ((Config.spareRows p.i).toNat - fld s .memRepair p.i 0 15 0) * 2 ^ 16 + fld s .memRepair p.i 0 15 0
  | .t2mStat => t2mStatRead s p.i
  | .t2mLatns => (Config.tier2Latency p.i s.time).toNat
  | r => raw s r p.i p.j

/-- OPT to HST. -/
def readFabric (s : State) (p : Place) : Nat :=
  match p.reg with
  | .optStat => optStatRead s p.i
  | .optCal => setBits (raw s .optCal p.i 0) 31 24 (calAge s p.i)
  | .fabId => fld s .fabId 0 0 31 16 * 2 ^ 16 + ownNode s
  | .fabTbl => fabTblRead s
  | .fabSrtLo => half false (s.fabShadow.route p.i)
  | .fabSrtHi => half true (s.fabShadow.route p.i)
  | .fabStreeLo => half false (s.fabShadow.tree p.i)
  | .fabStreeHi => half true (s.fabShadow.tree p.i)
  | .fabArtLo => half false (s.fabActive.route p.i)
  | .fabArtHi => half true (s.fabActive.route p.i)
  | .fabAtreeLo => half false (s.fabActive.tree p.i)
  | .fabAtreeHi => half true (s.fabActive.tree p.i)
  | .rmaOut => outCount s p.i
  | .rmaOwnuse => ownUse s p.i
  | .rmaLedger => ledgerUsed s
  | .colGroups => colGroups s p.i
  | .colInuse => (activeGroups s).length
  | .hstPstat => raw s .hstPstat p.i 0 / 2 ^ 31 * 2 ^ 31 + satTo 1023 (s.qps.filter fun q => q.2.port == p.i).length * 2 ^ 10
  | r => raw s r p.i p.j

/-- ERR to DBG. -/
def readRest (s : State) (p : Place) : Nat :=
  match p.reg with
  | .errCmd => setBits (raw s .errCmd 0 0) 11 10 (fenceCode (unitState s (fld s .errUnit 0 0 31 24) (fld s .errUnit 0 0 23 0)))
  | .errCount => setBits (raw s .errCount 0 0) 31 16 (unitsNotUp s)
  | .errCensus => setBits (raw s .errCensus 0 0) 30 30 (b01 s.census.isSome)
  | .telQuse => slotsUsed s 0 * 2 ^ 20 + slotsUsed s 1 * 2 ^ 9 + slotsUsed s 2
  | .ndlStat => setBits (raw s .ndlStat p.i 0) 31 29 (ndlShown s p.i)
  | r => raw s r p.i p.j

/-- The bits of a register that read as their value: WO and RSV fields read as zero (Table 0.5). -/
def readMask (r : Reg) : Nat :=
  (regRow r).fields.foldl (fun m f => bif f.acc == .wo || f.acc == .rsv then m else m + (2 ^ (f.hi + 1) - 2 ^ f.lo)) 0

/-- What a register reads as. -/
def readPlace (s : State) (p : Place) : Nat :=
  let a := regAddr p.reg p.i p.j
  let v := bif Nat.blt a 0x01000000 then readGen s p
    else bif Nat.blt a 0x04000000 then readCompute s p
    else bif Nat.blt a 0x07000000 then readFabric s p
    else readRest s p
  Nat.land v (readMask p.reg)

/-! ## Path registers (R13) -/

/-- The number of a path's capture and holding registers. -/
def pathNo : Path → Nat
  | .session n => n.val
  | .admin => 32
  | .window n => 33 + n.val
  | .i3c => 65
  | .mgmt node => 66 + node.toNat

def pathRegs (s : State) (k : Nat) : PathRegs := tget s.paths k ⟨[], []⟩
def modPath (k : Nat) (f : PathRegs → PathRegs) (s : State) : State := { s with paths := tset s.paths k (f (pathRegs s k)) }

/-- The address of the LO register of a HI register's instance. -/
def loAddr (p : Place) : Option Nat := p.reg.loOf.map fun r => regAddr r p.i p.j

/-- A register read through a path: LO captures HI, and HI returns a pending capture. -/
def readThrough (k : Nat) (p : Place) (s : State) : Nat × State :=
  match p.reg.hiOf with
  | some h =>
    let hi := readPlace s ⟨h, p.i, p.j⟩
    (readPlace s p, modPath k (fun x => { x with capture := tset x.capture (regAddr p.reg p.i p.j) (BitVec.ofNat 32 hi) }) s)
  | none => match loAddr p with
    | some lo => match tget? (pathRegs s k).capture lo with
      | some v => (v.toNat, modPath k (fun x => { x with capture := terase x.capture lo }) s)
      | none => (readPlace s p, s)
    | none => (readPlace s p, s)

/-- A read of the register at an address through a path: its status, its value, and the state after it (R33, R36, R37, R435). -/
def regRead (path : Path) (a : Nat) (s : State) : Status × W32 × State :=
  bif !(decoded a) then (0x020B, 0, s)
  else
    let p := placeAt a
    bif !(mayRead s path a p) then ((match path with | .window _ => 0 | _ => 0x081D), 0, s)
    else bif regFenced s a then (0x0304, 0, s)
    else match p with
      | none => (0, 0, s)
      | some x => let r := readThrough (pathNo path) x s; (0, BitVec.ofNat 32 r.1, r.2)

/-! ## Writing -/

/-- The bit of its lock register that locks the RWL fields of a register. -/
def lockBit (r : Reg) : Nat := bif r == .attExtctl then 30 else 31
/-- Whether the lock that covers a register's RWL fields is set (R10). The lock of a part-wide register is the one instance. -/
def locked (s : State) (r : Reg) (i : Nat) : Bool :=
  match r.lockedBy with
  | some l => flag s l (bif (regRow l).n1 == 1 then 0 else i) 0 (lockBit l)
  | none => false

/-- A field as a write leaves it (Table 0.5). STW_PKEY keeps its key, which reads as zero. -/
def fieldWritten (lock : Bool) (old v : Nat) (f : RegField) : Nat :=
  match f.acc with
  | .rw => bits v f.hi f.lo
  | .rwl => bif lock then bits old f.hi f.lo else bits v f.hi f.lo
  | .rw1c => bits old f.hi f.lo - Nat.land (bits old f.hi f.lo) (bits v f.hi f.lo)
  | _ => bits old f.hi f.lo

/-- A register as a write leaves it. -/
def merged (lock : Bool) (r : Reg) (old v : Nat) : Nat :=
  bif r == .stwPkey then v
  else (regRow r).fields.foldl (fun a f => a + fieldWritten lock old v f * 2 ^ f.lo) 0

/-- The values that a block clamps when it is written (Tables 15.9 and 15.10). -/
def clamped (r : Reg) (v : Nat) : Nat :=
  match r with
  | .pwrTdp => clampPwrTdp v
  | .pwrCtl => clampPwrCtl v
  | .thmCtl => clampThm v
  | _ => v

/-- The refusal of a write by the rules of the register's block (R204, R210, R226, R227, R248, R252, R253, R346, R347, R361); 0 when it is
accepted. -/
def blockStatus (s : State) (p : Place) (v : Nat) : Status :=
  match p.reg with
  | .numCtl => numCtlStatus s p.i v
  | .numAsybaseLo => asybaseStatus s p.i
  | .numAsybaseHi => asybaseStatus s p.i
  | .alcHbmq => quotaStatus s p.i false (bits v 18 0)
  | .alcT2q => quotaStatus s p.i true (bits v 20 0)
  | .alcBw => bwStatus s p.i v
  | .schBench => benchMaskStatus s p.i v
  | .schCtl => schCtlStatus s p.i v
  | .schSaveq => bif locked s .schSaveq p.i then 0 else saveqStatus s p.i (bits v 15 0)
  | .fabTbl => bif bit v 31 then fabSwapStatus s else 0
  | .fabPslice => bif locked s .fabPslice 0 then 0 else psliceStatus s p.i v
  | .rmaRankLo => rankStatus false v
  | .rmaRankHi => rankStatus true v
  | _ => 0

/-- Half of a table entry of the shadow set; writes while the part drains are ignored (R349). -/
def shadowHalf (hi : Bool) (old v : Nat) : BitVec 64 :=
  BitVec.ofNat 64 (bif hi then old % 2 ^ 32 + v * 2 ^ 32 else old / 2 ^ 32 * 2 ^ 32 + v)
def shadowRouteSet (hi : Bool) (d v : Nat) (s : State) : State :=
  bif draining s then s
  else { s with fabShadow := { s.fabShadow with routes := tset s.fabShadow.routes d (shadowHalf hi (s.fabShadow.route d) v) } }
def shadowTreeSet (hi : Bool) (d v : Nat) (s : State) : State :=
  bif draining s then s
  else { s with fabShadow := { s.fabShadow with trees := tset s.fabShadow.trees d (shadowHalf hi (s.fabShadow.tree d) v) } }

/-- A bucket of a partition whose depth changes from `d0` to `d1`: it keeps its tokens, and what exceeds the new depth is discarded (Table
16.3). -/
def rebucket (p d1 g : Nat) (s : State) : State :=
  let v := bucket s p g
  modPartition p (fun x => { x with
    tokens := tset x.tokens g (Nat.min d1 v)
    discarded := tset x.discarded g (tget x.discarded g 0 + (v - d1)) }) s

/-- ALC_BW takes a new value; the buckets keep their tokens over a change of DEPTH. -/
def bwWritten (p v : Nat) (s : State) : State :=
  let d1 := Nat.max 1 (bits v 27 16) * 1024 * 8
  bif d1 == bucketDepth s p then setRaw .alcBw p 0 v s
  else setRaw .alcBw p 0 v ((List.range 96).foldl (fun s g => rebucket p d1 g s) s)

/-- SEQ_FAULT written: clearing VALID lets SEQ_FAULT and SEQ_FOFF take the next fault (Table 3.13). -/
def seqFaultWritten (b v : Nat) (s : State) : State :=
  bif bit v 31 then modBench b (fun x => { x with fvalid := false, ford := 0, fstatus := 0, foff := 0 }) s else s

/-- The register takes the value written, in the field of the state that holds it. -/
def storePlace (p : Place) (old v : Nat) (s : State) : State :=
  let new := merged (locked s p.reg p.i) p.reg old (clamped p.reg v)
  match p.reg with
  | .fabSrtLo => shadowRouteSet false p.i v s
  | .fabSrtHi => shadowRouteSet true p.i v s
  | .fabStreeLo => shadowTreeSet false p.i v s
  | .fabStreeHi => shadowTreeSet true p.i v s
  | .alcBw => bwWritten p.i new s
  | .seqFault => seqFaultWritten p.bench v s
  | r => setRaw r p.i p.j new s

/-- What a write sets off beside the register: the WO fields and the rules of the blocks. `lock` is the lock before the write. -/
def afterWrite (p : Place) (lock : Bool) (old v : Nat) (mctp : Option (List Byte)) (s : State) : State :=
  match p.reg with
  | .numCtl => numCtlWritten p.i old v s
  | .optCtl => optCtlWritten p.i old v s
  | .optSwap => optSwapWritten p.i v s
  | .fabTbl => let s := bif bit v 31 then fabSwap s else s
               bif bit v 30 then fabForce s else s
  | .rmaPurge => bif bit v 31 then rmaPurge (bits v 12 0) s else s
  | .updCtl => updCtlWritten v mctp s
  | .fwpCtl => fwpCtlWritten v s
  | .attExtctl => bif bit v 31 then attExtend lock s else s
  | .attOwnctl => ownCtlWritten v s
  | .alcHbmq => checkQuotas s
  | .ageCtl => bif bit v 0 then { s with planNow := true } else s
  | .calCtl => calCtlWritten lock v s
  | .errCmd => errCmdWritten v s
  | .errCensus => bif bit v 31 then censusGo s else s
  | .dbgLoop => dbgLoopWritten v s
  | .dbgP1500 => p1500Written v s
  | _ => s

/-- A write that its block accepts. -/
def commitPlace (p : Place) (v : Nat) (mctp : Option (List Byte)) (s : State) : State :=
  let old := raw s p.reg p.i p.j
  afterWrite p (locked s p.reg p.i) old v mctp (storePlace p old v s)

/-- A HI register written through path `k`: a held LO write takes effect with it; a refusal of either half refuses both (R13). -/
def writeHi (k : Nat) (p : Place) (lo : Reg) (v : Nat) (s : State) : Status × State :=
  let q : Place := ⟨lo, p.i, p.j⟩
  let a := regAddr lo p.i p.j
  let st := blockStatus s p v
  bif !(st == 0) then (st, s)
  else match tget? (pathRegs s k).held a with
    | none => (0, commitPlace p v none s)
    | some w =>
      let st := blockStatus s q w.toNat
      bif !(st == 0) then (st, s)
      else (0, commitPlace p v none (commitPlace q w.toNat none (modPath k (fun x => { x with held := terase x.held a }) s)))

/-- A LO register written through path `k` is held for its HI (R13), unless its block refuses it. -/
def writeLo (k : Nat) (p : Place) (v : Nat) (s : State) : Status × State :=
  let st := blockStatus s p v
  bif !(st == 0) then (st, s)
  else (0, modPath k (fun x => { x with held := tset x.held (regAddr p.reg p.i p.j) (BitVec.ofNat 32 v) }) s)

/-- A register written through path `k`. -/
def writeThrough (k : Nat) (p : Place) (v : Nat) (mctp : Option (List Byte)) (s : State) : Status × State :=
  match p.reg.hiOf, p.reg.loOf with
  | some _, _ => writeLo k p v s
  | none, some lo => writeHi k p lo v s
  | none, none =>
    let st := blockStatus s p v
    bif st == 0 then (0, commitPlace p v mctp s) else (st, s)

/-- A write of the register at an address through a path: its status and the state after it (R33, R36, R37, R10). -/
def regWriteM (path : Path) (a v : Nat) (mctp : Option (List Byte)) (s : State) : Status × State :=
  bif !(decoded a) then (0x020B, s)
  else
    let p := placeAt a
    bif !(mayWrite s path a p) then (0x081D, s)
    else bif regFenced s a then (0x0304, s)
    else match p with
      | none => (0, s)
      | some x => bif writable x.reg then writeThrough (pathNo path) x v mctp s else (0, s)
def regWrite (path : Path) (a v : Nat) (s : State) : Status × State := regWriteM path a v none s

/-! ## The commands that write a register -/

/-- A management packet of a node with this write (R357). -/
def mgmtPacket (node a v : Nat) (p : Packet) : Bool :=
  p.route.src.toNat == node && p.body == .mgmtWrite (BitVec.ofNat 32 a) (BitVec.ofNat 32 v)

/-- Whether I3C answers a register access: in a thermal trip only reads of GEN and THM_TRIP (R478), in recovery only GEN (R449), else
the Steward's core 3 (Table 14.1). -/
def i3cAnswers (s : State) (a : Nat) (write : Bool) : Bool :=
  s.inReset.isNone &&
    (bif s.tripped then !write && (inGen a || a == 0x400004)
     else bif s.recovery then inGen a
     else s.verified && dutyRuns s 4)

/-- Whether a queue pair of a use is live on a port that is up: a host reaches the part in no other way (R2). -/
def reached (s : State) (f : QpKind → Bool) : Bool := s.qps.any fun q => !q.2.failed && f q.2.kind && portUp s q.2.port

/-- Whether an access that arrives over a path is served now. A mailbox holds its requests while the Steward restarts (R38); the window
is served by hub hardware; a manager's packet must have been delivered to the Steward (R346). -/
def pathServed (s : State) (path : Path) (a v : Nat) (write : Bool) : Bool :=
  match path with
  | .session n => awake s && !s.recovery && dutyRuns s 1 && (session s n.val).state == .open_ && reached s (· == .mailbox n.val)
  | .admin => awake s && !s.recovery && dutyRuns s 1 && reached s (· == .admin)
  | .window n => awake s && !((session s n.val).state == .closed) && reached s (fun k => k == .mailbox n.val || k == .data n.val)
  | .i3c => i3cAnswers s a write
  | .mgmt node => awake s && dutyRuns s 3 && isManager s node.toNat && (takeMgmt (mgmtPacket node.toNat a v) s).isSome

/-- The Steward takes a manager's packet out of its queue. -/
def pathTaken (path : Path) (a v : Nat) (s : State) : State :=
  match path with
  | .mgmt node => match takeMgmt (mgmtPacket node.toNat a v) s with | some r => r.2 | none => s
  | _ => s

/-- A register write arrives over a path and is answered. -/
def pathWrite (path : Path) (a : Nat) (value : W32) (mctp : Option (List Byte)) (s : State) : State :=
  bif !(pathServed s path a value.toNat true) then s
  else
    let s := pathTaken path a value.toNat s
    let r := regWriteM path a value.toNat mctp s
    collStops s (emit (.access path (BitVec.ofNat 32 a) r.1 0) r.2)

def execRegisterWrite (path : Path) (addr value : W32) (t : Time) (s : State) : Host.Outcome State Fault Refusal :=
  .next (pathWrite path addr.toNat value none (atTime t s))

/-- A write of a register's instance over a path. -/
def regCommand (path : Path) (r : Reg) (i j : Nat) (value : W32) (s : State) : State := pathWrite path (regAddr r i j) value none s

/-- NUM_CTL_WRITE (R204). -/
def execNumCtlWrite (path : Path) (p : PartId) (value : W32) (t : Time) (s : State) : Host.Outcome State Fault Refusal :=
  .next (regCommand path .numCtl p.val 0 value (atTime t s))
/-- NUM_ASYBASE_WRITE (R210). -/
def execNumAsybaseWrite (path : Path) (p : PartId) (hi : Bool) (value : W32) (t : Time) (s : State) : Host.Outcome State Fault Refusal :=
  .next (regCommand path (bif hi then .numAsybaseHi else .numAsybaseLo) p.val 0 value (atTime t s))
/-- ALC_QUOTA_WRITE (R226). -/
def execAlcQuotaWrite (path : Path) (p : PartId) (tier2 : Bool) (value : W32) (t : Time) (s : State) : Host.Outcome State Fault Refusal :=
  .next (regCommand path (bif tier2 then .alcT2q else .alcHbmq) p.val 0 value (atTime t s))
/-- SCH_BENCH_WRITE (R248). -/
def execSchBenchWrite (path : Path) (p : PartId) (value : W32) (t : Time) (s : State) : Host.Outcome State Fault Refusal :=
  .next (regCommand path .schBench p.val 0 value (atTime t s))
/-- SCH_CTL_WRITE (R249, R252). -/
def execSchCtlWrite (path : Path) (p : PartId) (value : W32) (t : Time) (s : State) : Host.Outcome State Fault Refusal :=
  .next (regCommand path .schCtl p.val 0 value (atTime t s))
/-- SCH_SAVEQ_WRITE (R227). -/
def execSchSaveqWrite (path : Path) (p : PartId) (value : W32) (t : Time) (s : State) : Host.Outcome State Fault Refusal :=
  .next (regCommand path .schSaveq p.val 0 value (atTime t s))
/-- ALC_BW_WRITE (R253). -/
def execAlcBwWrite (path : Path) (p : PartId) (value : W32) (t : Time) (s : State) : Host.Outcome State Fault Refusal :=
  .next (regCommand path .alcBw p.val 0 value (atTime t s))
/-- OPT_CALNOW (R322). -/
def execOptCalnow (path : Path) (e : EngineId) (value : W32) (t : Time) (s : State) : Host.Outcome State Fault Refusal :=
  .next (regCommand path .optCtl e.val 0 value (atTime t s))
/-- OPT_PARK (R324). -/
def execOptPark (path : Path) (e : EngineId) (value : W32) (t : Time) (s : State) : Host.Outcome State Fault Refusal :=
  .next (regCommand path .optCtl e.val 0 value (atTime t s))
/-- OPT_SWAP_REQ (R314). -/
def execOptSwapReq (path : Path) (e : EngineId) (value : W32) (t : Time) (s : State) : Host.Outcome State Fault Refusal :=
  .next (regCommand path .optSwap e.val 0 value (atTime t s))
/-- OPT_SWAP_UNFENCE (R309). -/
def execOptSwapUnfence (path : Path) (e : EngineId) (value : W32) (t : Time) (s : State) : Host.Outcome State Fault Refusal :=
  .next (regCommand path .optSwap e.val 0 value (atTime t s))
/-- FAB_SWAP (R347). -/
def execFabSwap (path : Path) (value : W32) (t : Time) (s : State) : Host.Outcome State Fault Refusal :=
  .next (regCommand path .fabTbl 0 0 value (atTime t s))
/-- FAB_FORCE (R350). -/
def execFabForce (path : Path) (value : W32) (t : Time) (s : State) : Host.Outcome State Fault Refusal :=
  .next (regCommand path .fabTbl 0 0 value (atTime t s))
/-- FAB_PSLICE_WRITE (R346). -/
def execFabPsliceWrite (path : Path) (p : PartId) (value : W32) (t : Time) (s : State) : Host.Outcome State Fault Refusal :=
  .next (regCommand path .fabPslice p.val 0 value (atTime t s))
/-- RANK_TABLE_WRITE (R361). -/
def execRankTableWrite (path : Path) (p : PartId) (r : Fin 16384) (hi : Bool) (value : W32) (t : Time)
    (s : State) : Host.Outcome State Fault Refusal :=
  .next (regCommand path (bif hi then .rmaRankHi else .rmaRankLo) p.val r.val value (atTime t s))
/-- RMA_PURGE (R376). -/
def execRmaPurge (path : Path) (value : W32) (t : Time) (s : State) : Host.Outcome State Fault Refusal :=
  .next (regCommand path .rmaPurge 0 0 value (atTime t s))
/-- FWP_RESTART (R438). -/
def execFwpRestart (path : Path) (value : W32) (t : Time) (s : State) : Host.Outcome State Fault Refusal :=
  .next (regCommand path .fwpCtl 0 0 value (atTime t s))
/-- FWP_UNFENCE (R440). -/
def execFwpUnfence (path : Path) (value : W32) (t : Time) (s : State) : Host.Outcome State Fault Refusal :=
  .next (regCommand path .fwpCtl 0 0 value (atTime t s))
/-- UPD_STAGE (R453); in recovery the images come in MCTP messages (R449). -/
def execUpdStage (path : Path) (value : W32) (mctp : Option (List Byte)) (t : Time) (s : State) : Host.Outcome State Fault Refusal :=
  .next (bif mctp.isSome && s.recovery && s.inReset.isNone then updCtlWritten value.toNat mctp (atTime t s)
         else pathWrite path (regAddr .updCtl 0 0) value none (atTime t s))
/-- UPD_ACTIVATE_LIVE (R455). -/
def execUpdActivateLive (path : Path) (value : W32) (t : Time) (s : State) : Host.Outcome State Fault Refusal :=
  .next (regCommand path .updCtl 0 0 value (atTime t s))
/-- UPD_ACTIVATE_RESET (R454). -/
def execUpdActivateReset (path : Path) (value : W32) (t : Time) (s : State) : Host.Outcome State Fault Refusal :=
  .next (regCommand path .updCtl 0 0 value (atTime t s))
/-- UPD_COMMIT (R451). -/
def execUpdCommit (path : Path) (value : W32) (t : Time) (s : State) : Host.Outcome State Fault Refusal :=
  .next (regCommand path .updCtl 0 0 value (atTime t s))
/-- UPD_ABORT (R456). -/
def execUpdAbort (path : Path) (value : W32) (t : Time) (s : State) : Host.Outcome State Fault Refusal :=
  .next (regCommand path .updCtl 0 0 value (atTime t s))
/-- ATT_EXTEND. -/
def execAttExtend (path : Path) (value : W32) (t : Time) (s : State) : Host.Outcome State Fault Refusal :=
  .next (regCommand path .attExtctl 0 0 value (atTime t s))
/-- ATT_OWNER_ENROL (R445). -/
def execAttOwnerEnrol (path : Path) (value : W32) (t : Time) (s : State) : Host.Outcome State Fault Refusal :=
  .next (regCommand path .attOwnctl 0 0 value (atTime t s))
/-- ATT_OWNER_REVOKE (R452). -/
def execAttOwnerRevoke (path : Path) (value : W32) (t : Time) (s : State) : Host.Outcome State Fault Refusal :=
  .next (regCommand path .attOwnctl 0 0 value (atTime t s))
/-- AGE_NOW (R479). -/
def execAgeNow (path : Path) (value : W32) (t : Time) (s : State) : Host.Outcome State Fault Refusal :=
  .next (regCommand path .ageCtl 0 0 value (atTime t s))
/-- CAL_STORE (R485). -/
def execCalStore (path : Path) (value : W32) (t : Time) (s : State) : Host.Outcome State Fault Refusal :=
  .next (regCommand path .calCtl 0 0 value (atTime t s))
/-- CAL_APPLY (R486). -/
def execCalApply (path : Path) (value : W32) (t : Time) (s : State) : Host.Outcome State Fault Refusal :=
  .next (regCommand path .calCtl 0 0 value (atTime t s))
/-- CAL_CLEAR (R486). -/
def execCalClear (path : Path) (value : W32) (t : Time) (s : State) : Host.Outcome State Fault Refusal :=
  .next (regCommand path .calCtl 0 0 value (atTime t s))
/-- ERR_FENCE (R552). -/
def execErrFence (path : Path) (value : W32) (t : Time) (s : State) : Host.Outcome State Fault Refusal :=
  .next (regCommand path .errCmd 0 0 value (atTime t s))
/-- ERR_UNFENCE (R492). -/
def execErrUnfence (path : Path) (value : W32) (t : Time) (s : State) : Host.Outcome State Fault Refusal :=
  .next (regCommand path .errCmd 0 0 value (atTime t s))
/-- ERR_CENSUS_GO (R499). -/
def execErrCensusGo (path : Path) (value : W32) (t : Time) (s : State) : Host.Outcome State Fault Refusal :=
  .next (regCommand path .errCensus 0 0 value (atTime t s))
/-- DBG_LOOP (R523). -/
def execDbgLoop (path : Path) (value : W32) (t : Time) (s : State) : Host.Outcome State Fault Refusal :=
  .next (regCommand path .dbgLoop 0 0 value (atTime t s))
/-- DBG_P1500 (R525). -/
def execDbgP1500 (path : Path) (value : W32) (t : Time) (s : State) : Host.Outcome State Fault Refusal :=
  .next (regCommand path .dbgP1500 0 0 value (atTime t s))

end Sys2Proof.Machine
end

