-- ==== Sys2Proof/Machine/Sessions.lean ====
section
/-! DEFINITION. Host ports, sessions and mailboxes (chapter 13): messages and their dedup (R427, R428), the requests of Table 13.6, leases and
orphaned sessions (R421 to R426), intake lists (R432 to R434), RDMA regions and the status window (R430, R435), ports and queue pairs
(R416 to R420). -/

namespace Sys2Proof.Machine

/-! ## Mailboxes -/

/-- The mailbox of a queue pair: 0 to 31 of the sessions, 32 of the admin host, 64 + n of the new queue pair n. -/
def mailboxKey (n : Nat) (k : QpKind) : Option Nat :=
  match k with
  | .fresh => some (64 + n)
  | .mailbox q => some q
  | .admin => some 32
  | _ => none
def qpMailbox (s : State) (qp : Nat) : Option Nat :=
  match tget? s.qps qp with
  | some q => bif q.failed then none else mailboxKey qp q.kind
  | none => none
def mailbox (s : State) (k : Nat) : Mailbox := tget s.mailboxes k ⟨[], []⟩
def setMailbox (k : Nat) (x : Mailbox) (s : State) : State := { s with mailboxes := tset s.mailboxes k x }

/-- What stands in place of SESSION for a mailbox key (Table 13.5): the session, 0x00FF, or 0xFFFF. -/
def keySession (k : Nat) : BitVec 16 := bif Nat.blt k 32 then BitVec.ofNat 16 k else bif k == 32 then 0xFF else 0xFFFF

/-- The two periods of a partition in ns: HBPER and the lease MISS × HBPER, each 0 treated as 1 (R423). -/
def leaseLength (s : State) (p : Nat) : Nat :=
  let times := raw s .stwTimes p 0
  Nat.max 1 (bits times 15 8) * (Nat.max 1 (bits times 7 0) * 10000000)

/-- A message renews the lease of an Open session (R423). -/
def renewLease (k : Nat) (s : State) : State :=
  bif Nat.blt k 32 && (session s k).state == .open_ then modSession k (fun x => { x with renewed := s.time }) s else s

/-! ## Receiving (R427, R428) -/

/-- The header and payload checks of Table 13.5. -/
def headerPasses (m : Message) : Bool :=
  m.zeroOk && m.pcrcOk && m.payload.length == m.length && Nat.ble m.length 65504 && m.status == 0
    && bits m.flags.toNat 31 3 == 0 && !(bit m.typ.toNat 15)

/-- SESSION as the mailbox requires it. -/
def sessionPasses (k : Nat) (m : Message) : Bool :=
  bif Nat.ble 64 k then
    bif m.typ == 1 then m.session == 0xFFFF else m.session == 0xFFFF || Nat.blt m.session.toNat 32
  else m.session == keySession k

/-- The types that version 2.4 carries. -/
def oldType (t : Nat) : Bool := t == 1 || t == 2 || t == 3 || t == 4 || t == 0x10 || t == 0x11 || t == 0x30

/-- The version check (R5, R427): 3.0 and 3.1, and 2.4 in compatibility mode. -/
def versionStatus (s : State) (m : Message) : Status :=
  bif m.vmajor == 3 && (m.vminor == 0 || m.vminor == 1) then 0
  else bif m.vmajor == 2 && m.vminor == 4 && flag s .genConfig 0 0 5 then (bif oldType m.typ.toNat then 0 else 0x0811)
  else 0x0801

/-- Whether a type is allowed on a mailbox (Table 13.6). -/
def typeAllowed (k t : Nat) : Bool :=
  bif Nat.ble 64 k then t == 1 || t == 2
  else bif t == 4 || t == 0x10 || t == 0x11 || t == 0x42 then true
  else bif k == 32 then t == 0x50
  else t == 3 || t == 0x20 || t == 0x21 || t == 0x30 || t == 0x31 || t == 0x32

/-- The refusals that depend on the session's state (Table 13.4, R425). -/
def stateStatus (s : State) (k t : Nat) : Status :=
  bif !(Nat.blt k 32) then 0
  else match (session s k).state with
    | .open_ => 0
    | .orphaned => bif t == 3 then 0 else 0x0814
    | .holding => bif t == 3 then 0 else 0x0814
    | _ => 0x0815

/-- The refusal of a message on receipt, 0 when it is queued. -/
def receiveStatus (s : State) (k : Nat) (m : Message) : Status :=
  let v := versionStatus s m
  bif !(sessionPasses k m) then 0x0810
  else bif !(v == 0) then v
  else bif !(typeAllowed k m.typ.toNat) then 0x0811
  else bif !(stateStatus s k m.typ.toNat == 0) then stateStatus s k m.typ.toNat
  else bif Nat.ble 64 (mailbox s k).queue.length then 0x0802
  else 0

/-- A reply of header only. -/
def refusal (m : Message) (st : Status) : Reply := { typ := m.typ ||| 0x8000, seq := m.seq, sess := m.session, status := st, body := .none }

/-- MESSAGE_RECEIVE: a message is checked; a repeated SEQUENCE gets the stored reply again; the rest are queued or refused. -/
def messageReceive (qp : Nat) (m : Message) (s : State) : State :=
  match qpMailbox s qp with
  | none => s
  | some k =>
    bif !(headerPasses m) then emit (.reply qp (refusal m 0x0810)) s
    else
      let s := renewLease k s
      let x := mailbox s k
      match x.replies.find? (fun r => r.seq == m.seq) with
      | some r => emit (.reply qp r) s
      | none =>
        bif x.queue.any fun o => o.seq == m.seq then s
        else
          let st := receiveStatus s k m
          bif st == 0 then setMailbox k { x with queue := x.queue ++ [m] } s
          else emit (.reply qp (refusal m st)) s

def execMessageReceive (qp : Nat) (m : Message) (t : Time) (s : State) : Host.Outcome State Fault Refusal :=
  .next (bif awake s && !s.recovery then messageReceive qp m (atTime t s) else atTime t s)

/-! ## Serving -/

/-- What a request comes to. -/
structure Served where
  status : Status
  body   : ReplyBody
  state  : State

/-- A request that ends with a status alone. -/
def ends (st : Status) (s : State) : Served := ⟨st, .none, s⟩

/-- The mailbox of a new queue pair becomes that of a session, with the replies stored on it. -/
def moveMailbox (old new : Nat) (s : State) : State :=
  bif old == new then s
  else
    let a := mailbox s old
    let b := mailbox s new
    setMailbox new ⟨b.queue ++ a.queue, keepLast 64 (b.replies ++ a.replies)⟩ { s with mailboxes := terase s.mailboxes old }

/-- The reply goes out and is stored with the last 64 (R428). -/
def answer (qp k : Nat) (m : Message) (r : Served) : State :=
  let new := (qpMailbox r.state qp).getD k
  let reply : Reply := { typ := m.typ ||| 0x8000, seq := m.seq, sess := bif m.typ == 1 then keySession new else m.session, status := r.status, body := r.body }
  let s := moveMailbox k new r.state
  let x := mailbox s new
  emit (.reply qp reply) (setMailbox new { x with replies := keepLast 64 (x.replies ++ [reply]) } s)

/-- The first request of a queue pair's mailbox is executed, when it is of type `t` and has the FORCE and NOTIFY flags given, and
the Steward serves mailboxes and flow control lets the reply go. A request of a session whose freeing has begun is refused with 0x0815. -/
def serve (qp t : Nat) (force notify : Option Bool) (f : Nat → State → Served) (s : State) : State :=
  match qpMailbox s qp with
  | none => s
  | some k => match (mailbox s k).queue with
    | [] => s
    | m :: rest =>
      let flagOk := fun (o : Option Bool) (n : Nat) => match o with | some b => bit m.flags.toNat n == b | none => true
      bif awake s && !s.recovery && dutyRuns s 1 && !(qpPaused s qp) && m.typ.toNat == t && flagOk force 1 && flagOk notify 2 then
        let s1 := setMailbox k { mailbox s k with queue := rest } s
        let gone := Nat.blt k 32 && ((session s k).state == .closed || (session s k).state == .freeing)
        collStops s (answer qp k m (bif gone then ends 0x0815 s1 else f k s1))
      else s

/-! ## Opening, attaching, closing (R421 to R426) -/

/-- A queue pair with a new use. -/
def useQp (qp : Nat) (kind : QpKind) (s : State) : State :=
  match tget? s.qps qp with
  | some q => { s with qps := tset s.qps qp { q with kind := kind } }
  | none => s

/-- OPEN (R421). -/
def openMail (qp part : Nat) (key : W32) (s : State) : Served :=
  bif !(Nat.blt part 8) || !(raw s .stwPkey part 0 == key.toNat) || !(flag s .schCtl part 0 7) then ends 0x0812 s
  else match lowest (fun n => (session s n).state == .closed) 32 0 with
    | none => ends 0x0813 s
    | some n =>
      let a := takeFree s
      let b := takeFree a.2
      let x : Session := { state := .open_, part := part, token := Config.attachToken a.1, window := Config.remoteKey b.1,
                           renewed := s.time, since := 0, regions := [], lists := [], evsub := none }
      ⟨0, .opened n x.token x.window, useQp qp (.mailbox n) (setSession n x b.2)⟩

def execOpen (qp part : Nat) (key : W32) (t : Time) (s : State) : Host.Outcome State Fault Refusal :=
  .next (serve qp 1 none none (fun _ => openMail qp part key) (atTime t s))

/-- Programs of a session. -/
def sessionProgs (s : State) (n : Nat) : List Nat := (s.progs.filter fun x => x.2.sess == some n).map (·.1)

/-- The standing request of a session's end is withdrawn; a request of CANCEL stands (R425, R434). -/
def letGo (n : Nat) (s : State) : State :=
  match tget? s.progs n with
  | some x => bif x.standing && x.endWith.isNone then withdraw n s else s
  | none => s

/-- The queue pair that served a session's mailbox before gives way to the one that attaches. -/
def retireMailbox (n : Nat) (s : State) : State :=
  { s with qps := s.qps.map fun (q : Nat × QueuePair) => bif q.2.kind == .mailbox n then (q.1, { q.2 with failed := true }) else q }

/-- ATTACH (R425). -/
def attachMail (qp n : Nat) (token key : W32) (s : State) : Served :=
  let x := session s n
  bif !(Nat.blt n 32) || x.state == .closed || x.state == .freeing then ends 0x0815 s
  else bif !(x.token == token) || !(raw s .stwPkey x.part 0 == key.toNat) then ends 0x0812 s
  else ends 0 (useQp qp (.mailbox n) (retireMailbox n
    ((sessionProgs s n).foldl (fun s p => letGo p s) (setSession n { x with state := .open_, renewed := s.time } s))))

def execAttach (qp sess : Nat) (token key : W32) (t : Time) (s : State) : Host.Outcome State Fault Refusal :=
  .next (serve qp 2 none none (fun _ => attachMail qp sess token key) (atTime t s))

/-- A page that a session owns is freed, unless it holds the partition's Assay table: that passes to the partition (R424). -/
def freeOwned (n p : Nat) (l : Nat × Leaf) (s : State) : State :=
  bif !(l.2.owner == some n) then s
  else bif assayPage s p l.1 then setLeaf p l.1 { l.2 with owner := none } s
  else unmapPage p l.1 s

/-- A session whose programs have all ended loses its regions, lists and pages (R424). -/
def releaseSession (n : Nat) (s : State) : State :=
  bif !(sessionProgs s n).isEmpty then s
  else
    let p := (session s n).part
    let s := modSession n (fun x => { x with regions := [], lists := [] }) s
    (partition s p).leaves.foldl (fun s l => freeOwned n p l s) s

/-- The freeing of a session begins: its programs end with a status, and what it owns goes once they have. -/
def beginFreeing (n : Nat) (st : Status) (s : State) : State :=
  releaseSession n ((sessionProgs s n).foldl (fun s p => killProg p st s) (modSession n (fun x => { x with state := .freeing }) s))

/-- CLOSE (R426, Table 13.4). -/
def closeMail (n : Nat) (force : Bool) (s : State) : Served :=
  bif !force && (session s n).state == .open_ && !(sessionProgs s n).isEmpty then ends 0x0818 s
  else ends 0 (beginFreeing n 0x0819 s)

def execClose (qp : Nat) (force : Bool) (t : Time) (s : State) : Host.Outcome State Fault Refusal :=
  .next (serve qp 3 (some force) none (fun k => closeMail k force) (atTime t s))

/-! ## Requests on any mailbox -/

/-- HEARTBEAT: the lease remaining, in ms. -/
def heartbeatMail (k : Nat) (s : State) : Served :=
  bif Nat.blt k 32 then
    let x := session s k
    ⟨0, .lease ((x.renewed + leaseLength s x.part - s.time) / 1000000), s⟩
  else ⟨0, .lease Config.adminLease, s⟩

def execHeartbeat (qp : Nat) (t : Time) (s : State) : Host.Outcome State Fault Refusal :=
  .next (serve qp 4 none none heartbeatMail (atTime t s))

/-- The access path of a mailbox. -/
def keyPath (k : Nat) : Path := bif Nat.blt k 32 then .session ⟨k % 32, Nat.mod_lt k (by decide)⟩ else .admin

/-- Registers read in payload order; the status is the first that is not 0. -/
def readAll (path : Path) : List W32 → State → Status × List W32 × State
  | [], s => (0, [], s)
  | a :: l, s =>
    let r := regRead path a.toNat s
    let q := readAll path l r.2.2
    (bif r.1 == 0 then q.1 else r.1, r.2.1 :: q.2.1, q.2.2)

/-- REGREAD (R429). -/
def regreadMail (addrs : List W32) (k : Nat) (s : State) : Served :=
  bif addrs.isEmpty then ⟨1, .values [], s⟩
  else bif Nat.blt 1024 addrs.length then ends (Config.requestRefusal 5) s
  else
    let r := readAll (keyPath k) addrs s
    ⟨r.1, .values r.2.1, r.2.2⟩

def execRegread (qp : Nat) (addrs : List W32) (t : Time) (s : State) : Host.Outcome State Fault Refusal :=
  .next (serve qp 0x10 none none (regreadMail addrs) (atTime t s))

/-- Registers written in payload order, to the first refused write: its status and index, and the state. -/
def writeAll (path : Path) : Nat → List (W32 × W32) → State → Status × Nat × State
  | n, [], s => (0, n, s)
  | n, w :: l, s =>
    let r := regWrite path w.1.toNat w.2.toNat s
    bif r.1 == 0 then writeAll path (n + 1) l r.2 else (r.1, n, r.2)

/-- REGWRITE (R429). -/
def regwriteMail (writes : List (W32 × W32)) (k : Nat) (s : State) : Served :=
  bif writes.isEmpty then ends 1 s
  else bif Nat.blt 1024 writes.length then ends (Config.requestRefusal 5) s
  else
    let r := writeAll (keyPath k) 0 writes s
    bif r.1 == 0 then ends 0 r.2.2 else ⟨r.1, .refusedAt r.2.1, r.2.2⟩

def execRegwrite (qp : Nat) (writes : List (W32 × W32)) (t : Time) (s : State) : Host.Outcome State Fault Refusal :=
  .next (serve qp 0x11 none none (regwriteMail writes) (atTime t s))

/-- EVSUB (R504). -/
def evsubMail (severity k : Nat) (s : State) : Served :=
  ends 0 (bif Nat.blt k 32 then modSession k (fun x => { x with evsub := some severity }) s else { s with adminEvsub := some severity })

def execEvsub (qp severity : Nat) (t : Time) (s : State) : Host.Outcome State Fault Refusal :=
  .next (serve qp 0x42 none none (evsubMail severity) (atTime t s))

/-! ## Regions and lists (R430, R432, R433) -/

/-- The pages of a byte range. -/
def rangePages (base len : Nat) : List Nat :=
  bif len == 0 then [] else (List.range ((base + len - 1) / 2 ^ 21 + 1 - base / 2 ^ 21)).map (· + base / 2 ^ 21)

/-- MRREG (R430). ACCESS bit 0 is read, bit 1 write. -/
def mrregMail (base len : Nat) (access : BitVec 2) (n : Nat) (s : State) : Served :=
  let x := session s n
  bif !(base % 4096 == 0) || !(len % 4096 == 0) || !((rangePages base len).all fun v => (leaf? s x.part v).isSome) then ends 0x081B s
  else bif Nat.ble 256 x.regions.length then ends 0x081A s
  else
    let f := takeFree s
    let r : Region := { rkey := Config.remoteKey f.1, base := base, len := len, read := bit access.toNat 0, write := bit access.toNat 1, revoked := [] }
    ⟨0, .rkey r.rkey, modSession n (fun x => { x with regions := x.regions ++ [r] }) f.2⟩

def execMrreg (qp base len : Nat) (access : BitVec 2) (t : Time) (s : State) : Host.Outcome State Fault Refusal :=
  .next (serve qp 0x20 none none (mrregMail base len access) (atTime t s))

/-- MRDEREG. -/
def mrderegMail (rkey : W32) (n : Nat) (s : State) : Served :=
  bif (session s n).regions.any fun r => r.rkey == rkey then
    ends 0 (modSession n (fun x => { x with regions := x.regions.filter fun r => !(r.rkey == rkey) }) s)
  else ends (Config.requestRefusal 0) s

def execMrdereg (qp : Nat) (rkey : W32) (t : Time) (s : State) : Host.Outcome State Fault Refusal :=
  .next (serve qp 0x21 none none (mrderegMail rkey) (atTime t s))

/-- Whether a page is pinned in HBM (R234). -/
def pinnedHbm (s : State) (p v : Nat) : Bool := match leaf? s p v with | some l => l.pin && l.res == 0 | none => false

/-- INTAKE_ADD (R432): HEAD and DONE start at 0. -/
def intakeAddMail (base entries cap : Nat) (notify : Bool) (n : Nat) (s : State) : Served :=
  let x := session s n
  bif !(Nat.ble 1 entries && Nat.ble entries 4096) then ends (Config.requestRefusal 1) s
  else bif !(base % 4096 == 0) || !((rangePages base (64 + 64 * entries)).all (pinnedHbm s x.part)) then ends 0x081B s
  else match lowest (fun l => !(thas x.lists l)) 8 0 with
    | none => ends 0x081A s
    | some l =>
      let li : IntakeList := { base := base, entries := entries, cap := cap % 8, notify := notify, head := 0, done := 0, stopped := false }
      ⟨0, .listNo l, modSession n (fun x => { x with lists := tset x.lists l li }) s⟩

def execIntakeAdd (qp base entries cap : Nat) (notify : Bool) (t : Time) (s : State) : Host.Outcome State Fault Refusal :=
  .next (serve qp 0x30 none (some notify) (intakeAddMail base entries cap notify) (atTime t s))

/-- Whether a program of session `n` came from list `l`. -/
def fromList (n l : Nat) (x : Nat × Prog) : Bool := x.2.sess == some n && x.2.list == l

/-- INTAKE_DEL: the list is removed; records taken from it run to completion, for which it is kept under a number above 7. -/
def intakeDelMail (l n : Nat) (s : State) : Served :=
  match (bif Nat.blt l 8 then intakeList s n l else none) with
  | none => ends (Config.requestRefusal 2) s
  | some x =>
    let drop := modSession n (fun q => { q with lists := terase q.lists l })
    bif !(s.progs.any (fromList n l)) then ends 0 (drop s)
    else
      let k := l + 8 * ((lowest (fun j => !(s.progs.any (fromList n (l + 8 * (j + 1))))) s.progs.length 0).getD s.progs.length + 1)
      let moved := s.progs.map fun (q : Nat × Prog) => bif fromList n l q then (q.1, { q.2 with list := k }) else q
      ends 0 (modSession n (fun q => { q with lists := tset q.lists k x }) (drop { s with progs := moved }))

def execIntakeDel (qp list : Nat) (t : Time) (s : State) : Host.Outcome State Fault Refusal :=
  .next (serve qp 0x31 none none (intakeDelMail list) (atTime t s))

/-- A running program is asked to stop at its next YIELD and to end there (R434). -/
def endAtYield (n : Nat) (st : Status) (s : State) : State :=
  requestPreempt n true (modProg n (fun x => { x with endWith := some st }) s)

/-- CANCEL of the program of a record: a Queued or Saved program ends at once, another at its next YIELD, or at once with FORCE. -/
def cancelProg (force : Bool) (n : Nat) (s : State) : State :=
  match tget? s.progs n with
  | none => s
  | some x =>
    bif x.state == .ending then s
    else bif force || x.state == .queued || x.state == .saved then killProg n 0x081A s
    else endAtYield n 0x081A s

/-- CANCEL (R434). A record is named by its number or by its place in the list. -/
def cancelMail (l record : Nat) (force : Bool) (n : Nat) (s : State) : Served :=
  match intakeList s n l with
  | none => ends (Config.requestRefusal 3) s
  | some x =>
    ends 0 ((s.progs.filter fun q => fromList n l q && q.2.recIdx % x.entries == record % x.entries).foldl (fun s q => cancelProg force q.1 s) s)

def execCancel (qp list record : Nat) (force : Bool) (t : Time) (s : State) : Host.Outcome State Fault Refusal :=
  .next (serve qp 0x32 (some force) none (cancelMail list record force) (atTime t s))

/-! ## Queue pairs (R417 to R420) -/

def liveQps (s : State) (f : QpKind → Bool) : Nat := (s.qps.filter fun q => !q.2.failed && f q.2.kind).length
def isGwKind : QpKind → Bool
  | .gateway _ _ => true
  | _ => false

/-- A new queue pair. Its send rate is the line rate. -/
def newQp (port : Nat) (kind : QpKind) (terms : ConnTerms) (s : State) : QueuePair :=
  { port := port, kind := kind, terms := terms, failed := false, rate := 2 ^ 32, rateAt := s.time, sentCnp := none }
def addQp (port : Nat) (kind : QpKind) (terms : ConnTerms) (s : State) : State :=
  { s with qps := tset s.qps s.nextQp (newQp port kind terms s), nextQp := s.nextQp + 1 }

/-- Whether the boot configuration lists an admin host address. -/
def adminListed (s : State) (addr : Nat) : Bool :=
  match s.bootCfg with
  | none => false
  | some b => (List.range (leAt b 8 1)).any fun a => leAt b (384 + 32 * a) 1 * 2 ^ 128 + leAt b (384 + 32 * a + 16) 16 == addr

/-- Whether a connection request lies within the limits of R419, and what the queue pair serves. The part accepts reliable-connected
transport only (R3). -/
def connectionKind (s : State) (kind : ConnKind) : Option QpKind :=
  match kind with
  | .newSession => some .fresh
  | .data n => bif !((session s n.val).state == .closed) && Nat.blt (liveQps s (· == .data n.val)) 16 then some (.data n.val) else none
  | .admin a => bif s.hostsUp && adminListed s a && liveQps s (· == .admin) == 0 then some .admin else none
  | .gateway d o => bif flag s .rmaGw 0 0 31 && Nat.blt (liveQps s isGwKind) 64 then some (.gateway d.toNat o) else none
  | .unreliable => none

/-- The path MTUs of R417. -/
def mtuOk (n : Nat) : Bool := n == 1024 || n == 4096

/-- CONNECTION_REQUEST (R417, R419). -/
def connectionRequest (port : Nat) (kind : ConnKind) (terms : ConnTerms) (s : State) : State :=
  bif !(awake s) || s.recovery || !(portUp s port) then s
  else match (bif mtuOk terms.mtu && Nat.blt (liveQps s fun _ => true) 1024 then connectionKind s kind else none) with
    | none => emit (.connection port none) s
    | some k => emit (.connection port (some s.nextQp)) (addQp port k terms s)

def execConnectionRequest (port : Fin 4) (ask : ConnAsk) (t : Time) (s : State) : Host.Outcome State Fault Refusal :=
  .next (connectionRequest port.val ask.kind ask.terms (atTime t s))

/-- The terms of a queue pair that the gateway asks for. -/
def gatewayTerms (qp : Nat) : ConnTerms :=
  let x := Config.gatewayTerms qp
  ⟨bif x.1 then 4096 else 1024, x.2.1, x.2.2⟩

/-- GWCONN: one queue pair for ORD traffic and seven for the rest (R390, R431). -/
def gwconnMail (rdom addr port : Nat) (s : State) : Served :=
  bif !(flag s .rmaGw 0 0 31) then ends 0x0811 s
  else bif Nat.blt 56 (liveQps s isGwKind) || Nat.blt 1016 (liveQps s fun _ => true) then ends (Config.requestRefusal 4) s
  else
    let ns := (List.range 8).map (· + s.nextQp)
    let s' := (List.range 8).foldl (fun s k => addQp port (.gateway rdom (k == 0)) (gatewayTerms s.nextQp) s) s
    ends 0 (emit (.gatewayConnect rdom addr port ns) s')

def execGwconn (qp : Nat) (rdom : BitVec 16) (addr port : Nat) (t : Time) (s : State) : Host.Outcome State Fault Refusal :=
  .next (serve qp 0x50 none none (fun _ => gwconnMail rdom.toNat addr port) (atTime t s))

def modQp (qp : Nat) (f : QueuePair → QueuePair) (s : State) : State :=
  match tget? s.qps qp with
  | some q => bif q.failed then s else { s with qps := tset s.qps qp (f q) }
  | none => s

/-- CNP_RECEIVE: it is counted and the send rate is halved (R418, Table 13.9). -/
def cnpReceive (qp : Nat) (s : State) : State :=
  match tget? s.qps qp with
  | some q => bif q.failed then s
      else modQp qp (fun q => { q with rate := q.rate / 2, rateAt := s.time }) (bump .hstCnp q.port 0 1 s)
  | none => s
def execCnpReceive (qp : Nat) (t : Time) (s : State) : Host.Outcome State Fault Refusal := .next (cnpReceive qp (atTime t s))

/-- CE_MARK_RECEIVE: a congestion notification goes back, at most once per 50 µs. -/
def ceMark (qp : Nat) (s : State) : State :=
  match tget? s.qps qp with
  | none => s
  | some q =>
    bif q.failed || (match q.sentCnp with | some t0 => Nat.blt s.time (t0 + 50000) | none => false) then s
    else emit (.cnp qp) (modQp qp (fun q => { q with sentCnp := some s.time }) s)
def execCeMarkReceive (qp : Nat) (t : Time) (s : State) : Host.Outcome State Fault Refusal := .next (ceMark qp (atTime t s))

/-- CNP_RATE_RECOVER: after 55 µs without a notification the rate rises by 5% of line rate. -/
def rateRecover (qp : Nat) (s : State) : State :=
  modQp qp (fun q => bif Nat.blt s.time (q.rateAt + 55000) || Nat.ble (2 ^ 32) q.rate then q
    else { q with rate := Nat.min (2 ^ 32) (q.rate + 2 ^ 32 / 20), rateAt := s.time }) s
def execCnpRateRecover (qp : Nat) (t : Time) (s : State) : Host.Outcome State Fault Refusal := .next (rateRecover qp (atTime t s))

/-- The opcodes of the RoCE v2 subset (R417): SEND and RDMA WRITE, with and without immediate, RDMA READ, their responses and
acknowledgements; 0x81 is a congestion notification. -/
def roceOpcode (n : Nat) : Bool := Nat.ble n 0x11
/-- A frame that is discarded. -/
def dropFrame (port : Nat) (s : State) : State := bump .hstDrop port 0 1 s
/-- A RoCE packet on a port. -/
def roceFrame (port qp opcode : Nat) (ce : Bool) (s : State) : State :=
  match tget? s.qps qp with
  | none => dropFrame port s
  | some q =>
    bif q.failed || !(q.port == port) then dropFrame port s
    else
      let s := bif ce then ceMark qp s else s
      bif opcode == 0x81 then cnpReceive qp s
      else bif roceOpcode opcode then s
      else emit (.invalidRequest qp) (modQp qp (fun q => { q with failed := true }) s)

/-- The TCP port of the SPDM responder (R457). -/
def spdmPort (s : State) : Nat :=
  match s.bootCfg with
  | some b => bif leAt b 6 2 == 0 then 4194 else leAt b 6 2
  | none => 4194

/-- The MAC address of a port. -/
def portMac (s : State) (port : Nat) : BitVec 48 := BitVec.ofNat 48 (beNat (sliceBytes (portRecord s port) 0 6))
/-- Whether an address is the port's own; an address of zero is none (Table 14.13). -/
def portHas (s : State) (port : Nat) : HostAddr → Bool
  | .v4 a => !(a == 0) && beNat (sliceBytes (portRecord s port) 8 4) == a.toNat
  | .v6 a => !(a == 0) && beNat (sliceBytes (portRecord s port) 20 16) == a.toNat

/-- The address that a frame asks for or is sent to. -/
def frameDst : HostFrame → Option HostAddr
  | .arp a => some (.v4 a)
  | .neighbour a => some (.v6 a)
  | .icmpEcho a => some a
  | .roce a _ _ _ => some a
  | .tcp a _ _ => some a
  | .pfc _ _ => none
  | .other => none
/-- Whether a frame is for the port. -/
def frameFor (s : State) (port : Nat) (fr : HostFrame) : Bool := match frameDst fr with | some a => portHas s port a | none => true

/-- A priority flow control frame, honoured on the one priority of HST_CTL when it is on (R418). A quantum is 0.64 ns at 100 GB/s. -/
def pauseFrame (port prio quanta : Nat) (s : State) : State :=
  bif flag s .hstCtl port 0 31 && fld s .hstCtl port 0 2 0 == prio then
    modEngine (10 + port / 2) (fun x => { x with paused := tset x.paused port (s.time + (quanta * 16 + 24) / 25) }) s
  else dropFrame port s

/-- The part answers a frame with its own addresses. -/
def answerFrame (port : Nat) (a : HostAddr) (s : State) : State := emit (.frameAnswer port (portMac s port) a) s

/-- HOST_FRAME_RECEIVE (R416). -/
def hostFrame (port : Nat) (fr : HostFrame) (s : State) : State :=
  bif !(awake s) || s.recovery || !(portUp s port) then s
  else bif !(frameFor s port fr) then dropFrame port s
  else match fr with
    | .arp a => answerFrame port (.v4 a) s
    | .neighbour a => answerFrame port (.v6 a) s
    | .icmpEcho a => answerFrame port a s
    | .roce _ qp opcode ce => roceFrame port qp opcode ce s
    | .tcp _ p syn => bif !(p == spdmPort s) then emit (.tcpReset port) s else bif syn then tcpConnect port s else s
    | .pfc prio quanta => pauseFrame port prio.val quanta.toNat s
    | .other => dropFrame port s

/-- The ECN field of the packet that an output is (R418): ECT(0) on every RoCE packet that the part sends. -/
def ecnOf : Output → BitVec 2
  | .reply _ _ => 2
  | .rdma _ _ => 2
  | .cnp _ => 2
  | .gatewayOp _ _ _ _ _ _ => 2
  | .gatewayAnswer _ _ _ => 2
  | .invalidRequest _ => 2
  | _ => 0

def execHostFrameReceive (port : Fin 4) (fr : HostFrame) (t : Time) (s : State) : Host.Outcome State Fault Refusal :=
  .next (hostFrame port.val fr (atTime t s))

/-! ## RDMA (R430, R432, R435) -/

/-- The session that a queue pair serves. -/
def qpSession (s : State) (qp : Nat) : Option Nat :=
  match tget? s.qps qp with
  | some q => bif q.failed then none else match q.kind with
    | .mailbox n => some n
    | .data n => some n
    | _ => none
  | none => none

/-- Whether [va, va + n) lies within [base, base + len). -/
def within (base len va n : Nat) : Bool := Nat.ble base va && Nat.ble (va + n) (base + len)

/-- Whether a region lets an access through. -/
def regionAllows (write : Bool) (va n : Nat) (r : Region) : Bool :=
  (bif write then r.write else r.read) && within r.base r.len va n && !((rangePages va n).any r.revoked.contains)

/-- Whether a session's rkey reaches a range: through its region, or through a registered intake list, which every rkey of the session
reaches (R432). -/
def rdmaAllowed (x : Session) (rkey : W32) (write : Bool) (va n : Nat) : Bool :=
  match x.regions.find? (fun r => r.rkey == rkey) with
  | some r => regionAllows write va n r || x.lists.any fun l => Nat.blt l.1 8 && within l.2.base (64 + 64 * l.2.entries) va n
  | none => false

/-- Whether enforced ownership denies this part's hosts an access of the partition's space (R384). -/
def rdmaDenied (s : State) (p va n : Nat) (write : Bool) : Bool := (rangePages va n).any fun v => ownDenied s p (v * 2 ^ 21) write (ownNode s)

/-- RDMA_DATA_ACCESS (R430): the access completes, or fails with a remote access error. -/
def rdmaAccess (qp : Nat) (rkey : W32) (va : Nat) (write : Option (List Byte)) (len : Nat) (s : State) : State :=
  match qpSession s qp with
  | none => s
  | some n =>
    let x := session s n
    let k := match write with | some bs => bs.length | none => len
    bif !(rdmaAllowed x rkey write.isSome va k) || rdmaDenied s x.part va k write.isSome then emit (.rdma qp .accessError) s
    else match write with
      | some bs =>
        let r := spaceWrite x.part va bs s
        emit (.rdma qp (bif r.1 == 0 then .done [] else .accessError)) r.2
      | none => match spaceRead s x.part va len with
        | .ok bs => emit (.rdma qp (.done bs)) (spaceSeen x.part va len s)
        | .error _ => emit (.rdma qp .accessError) (spaceSeen x.part va len s)

def execRdmaDataAccess (qp : Nat) (rkey : W32) (va : Nat) (write : Option (List Byte)) (len : Nat) (t : Time) (s : State) :
    Host.Outcome State Fault Refusal :=
  .next (bif awake s then rdmaAccess qp rkey va write len (atTime t s) else atTime t s)

/-- Registers read through a status window, from an address on. -/
def windowWords (path : Path) : Nat → Nat → State → List Byte × State
  | 0, _, s => ([], s)
  | n + 1, a, s =>
    let r := regRead path a s
    let q := windowWords path n (a + 4) r.2.2
    (leBytes 4 r.2.1.toNat ++ q.1, q.2)

/-- STATUS_WINDOW_READ (R435). -/
def windowRead (qp : Nat) (rkey : W32) (a len : Nat) (s : State) : State :=
  match qpSession s qp with
  | none => s
  | some n =>
    bif !((session s n).window == rkey) || (session s n).state == .closed || !(a % 4 == 0) || !(len % 4 == 0) then
      emit (.rdma qp .accessError) s
    else
      let r := windowWords (.window ⟨n % 32, Nat.mod_lt n (by decide)⟩) (len / 4) a s
      emit (.rdma qp (.done r.1)) r.2

def execStatusWindowRead (qp : Nat) (rkey : W32) (addr len : Nat) (t : Time) (s : State) : Host.Outcome State Fault Refusal :=
  .next (bif awake s then windowRead qp rkey addr len (atTime t s) else atTime t s)

/-! ## Leases and orphaned sessions (R423, R424) -/

/-- A standing request on a program that runs, or that is being placed or restored. -/
def standOn (n : Nat) (s : State) : State :=
  match tget? s.progs n with
  | some x => bif x.state == .running || x.state == .preempting || x.state == .placing || x.state == .restoring then requestPreempt n true s else s
  | none => s

/-- A session's lease has expired. -/
def orphan (n : Nat) (s : State) : State :=
  let x := session s n
  let s := raise 0xE003 2 (some x.part) 0 0 (setSession n { x with state := .orphaned, since := s.time } s)
  (sessionProgs s n).foldl (fun s p => standOn p s) s

def leaseOver (s : State) (n : Nat) : Bool :=
  let x := session s n
  x.state == .open_ && Nat.ble (x.renewed + leaseLength s x.part) s.time

/-- LEASE_CHECK. While the Steward restarts the leases pause. -/
def leaseCheck (s : State) : State :=
  bif awake s && dutyRuns s 1 then (List.range 32).foldl (fun s n => bif leaseOver s n then orphan n s else s) s else s
def execLeaseCheck (t : Time) (s : State) : Host.Outcome State Fault Refusal := .next (leaseCheck (atTime t s))

/-- A program that has not stopped when ORPHRUN elapses is stopped. -/
def stopUnstopped (n : Nat) (s : State) : State :=
  match tget? s.progs n with
  | some x => bif x.state == .saved || x.state == .ending then s else killProg n 0x0817 s
  | none => s

/-- ORPHRUN_EXPIRE. -/
def orphrunExpire (n : Nat) (s : State) : State :=
  let x := session s n
  bif awake s && dutyRuns s 1 && x.state == .orphaned && Nat.ble (x.since + fld s .stwTimes x.part 0 23 16 * 1000000000) s.time then
    (sessionProgs s n).foldl (fun s p => stopUnstopped p s) (setSession n { x with state := .holding, since := s.time } s)
  else s
def execOrphrunExpire (sess : Fin 32) (t : Time) (s : State) : Host.Outcome State Fault Refusal :=
  .next (collStops (atTime t s) (orphrunExpire sess.val (atTime t s)))

/-- HOLD_EXPIRE. -/
def holdExpire (n : Nat) (s : State) : State :=
  let x := session s n
  bif awake s && dutyRuns s 1 && x.state == .holding && Nat.ble (x.since + fld s .stwTimes x.part 0 31 24 * 60000000000) s.time then
    beginFreeing n 0x0817 s
  else s
def execHoldExpire (sess : Fin 32) (t : Time) (s : State) : Host.Outcome State Fault Refusal :=
  .next (collStops (atTime t s) (holdExpire sess.val (atTime t s)))

/-- A queue pair of a session. -/
def ofSession (n : Nat) (q : Nat × QueuePair) : Bool := q.2.kind == .mailbox n || q.2.kind == .data n

/-- SESSION_FREED: once its programs have ended and no frame of it is in use, the session is Closed and its slot free. -/
def sessionFreed (n : Nat) (s : State) : State :=
  bif !((session s n).state == .freeing) then s
  else
    let p := (session s n).part
    let s := reapPages p (releaseSession n s)
    bif !(sessionProgs s n).isEmpty || ((partition s p).leaves ++ (partition s p).going).any (fun l => l.2.owner == some n) then s
    else { s with sessions := terase s.sessions n, mailboxes := terase s.mailboxes n, qps := s.qps.filter fun q => !(ofSession n q) }
def execSessionFreed (sess : Fin 32) (t : Time) (s : State) : Host.Outcome State Fault Refusal := .next (sessionFreed sess.val (atTime t s))

/-- TAIL_NOTICE: the part finds how many records a watched list holds; a list that holds too many, or whose header cannot be read, is
stopped (R433). The records are then taken one by one. -/
def tailNotice (q l : Nat) (s : State) : State :=
  let x := session s q
  match (bif Nat.blt l 8 then tget? x.lists l else none) with
  | none => s
  | some li =>
    bif li.stopped || !(x.state == .open_) || !(flag s .schCtl x.part 0 7) then s
    else match spaceRead s x.part li.base 12 with
      | .error e => stopList q l e (l * 2 ^ 16) (spaceSeen x.part li.base 12 s)
      | .ok h =>
        let s := spaceSeen x.part li.base 12 s
        bif Nat.blt li.entries ((leAt h 0 4 + 2 ^ 32 - li.head % 2 ^ 32) % 2 ^ 32) then stopList q l 0xE004 0x081C s else s
def execTailNotice (sess : Fin 32) (list : Nat) (t : Time) (s : State) : Host.Outcome State Fault Refusal :=
  .next (tailNotice sess.val list (atTime t s))

end Sys2Proof.Machine
end

