-- ==== Sys2Proof/Machine/Dispatch.lean ====
section
/-! DEFINITION. The dispatch: one arm per command. -/

namespace Sys2Proof.Machine

def exec (i : Instr) (s : State) : Host.Outcome State Fault Refusal :=
  match i with
  | .registerWrite path addr value t => Sys2Proof.Machine.execRegisterWrite path addr value t s
  | .workClockUpdate sector t => Sys2Proof.Machine.execWorkClockUpdate sector t s
  | .issueStep b t => Sys2Proof.Machine.execIssueStep b t s
  | .streamBufferFill b => Sys2Proof.Machine.execStreamBufferFill b s
  | .stationStart b ord => Sys2Proof.Machine.execStationStart b ord s
  | .stationRetire b ord => Sys2Proof.Machine.execStationRetire b ord s
  | .sadd b f => Sys2Proof.Machine.execSadd b f s
  | .ssub b f => Sys2Proof.Machine.execSsub b f s
  | .smul b f => Sys2Proof.Machine.execSmul b f s
  | .sand b f => Sys2Proof.Machine.execSand b f s
  | .sor b f => Sys2Proof.Machine.execSor b f s
  | .sxor b f => Sys2Proof.Machine.execSxor b f s
  | .sshl b f => Sys2Proof.Machine.execSshl b f s
  | .sshr b f => Sys2Proof.Machine.execSshr b f s
  | .ssra b f => Sys2Proof.Machine.execSsra b f s
  | .smin b f => Sys2Proof.Machine.execSmin b f s
  | .smax b f => Sys2Proof.Machine.execSmax b f s
  | .sli b f => Sys2Proof.Machine.execSli b f s
  | .slih b f => Sys2Proof.Machine.execSlih b f s
  | .saddi b f => Sys2Proof.Machine.execSaddi b f s
  | .sld b f => Sys2Proof.Machine.execSld b f s
  | .sst b f => Sys2Proof.Machine.execSst b f s
  | .scmp b f => Sys2Proof.Machine.execScmp b f s
  | .plog b f => Sys2Proof.Machine.execPlog b f s
  | .thset b f => Sys2Proof.Machine.execThset b f s
  | .thmov b f => Sys2Proof.Machine.execThmov b f s
  | .thget b f => Sys2Proof.Machine.execThget b f s
  | .chopen b f => Sys2Proof.Machine.execChopen b f s
  | .chclose b f => Sys2Proof.Machine.execChclose b f s
  | .pbind b f => Sys2Proof.Machine.execPbind b f s
  | .chstat b f => Sys2Proof.Machine.execChstat b f s
  | .br b f => Sys2Proof.Machine.execBr b f s
  | .brs b f => Sys2Proof.Machine.execBrs b f s
  | .loop b f => Sys2Proof.Machine.execLoop b f s
  | .call b f => Sys2Proof.Machine.execCall b f s
  | .ret b f => Sys2Proof.Machine.execRet b f s
  | .waitq b f => Sys2Proof.Machine.execWaitq b f s
  | .waitp b f => Sys2Proof.Machine.execWaitp b f s
  | .fence b f => Sys2Proof.Machine.execFence b f s
  | .waitc b f => Sys2Proof.Machine.execWaitc b f s
  | .yield b f => Sys2Proof.Machine.execYield b f s
  | .endRole b f => Sys2Proof.Machine.execEnd b f s
  | .nop b f => Sys2Proof.Machine.execNop b f s
  | .benchid b f => Sys2Proof.Machine.execBenchid b f s
  | .systemQueueTake b t => Sys2Proof.Machine.execSystemQueueTake b t s
  | .segmentEnd req seg t => Sys2Proof.Machine.execSegmentEnd req seg t s
  | .faultArbitration hub n t => Sys2Proof.Machine.execFaultArbitration hub n t s
  | .programEnd prog t => Sys2Proof.Machine.execProgramEnd prog t s
  | .channelWriteComplete b ch => Sys2Proof.Machine.execChannelWriteComplete b ch s
  | .creditReturn b ch => Sys2Proof.Machine.execCreditReturn b ch s
  | .channelCloseComplete b ch t => Sys2Proof.Machine.execChannelCloseComplete b ch t s
  | .mma b ix => Sys2Proof.Machine.execMma b ix s
  | .mmadr b ix => Sys2Proof.Machine.execMmadr b ix s
  | .accld b ix => Sys2Proof.Machine.execAccld b ix s
  | .accz b ix => Sys2Proof.Machine.execAccz b ix s
  | .qnt b ix => Sys2Proof.Machine.execQnt b ix s
  | .dqt b ix => Sys2Proof.Machine.execDqt b ix s
  | .had b ix => Sys2Proof.Machine.execHad b ix s
  | .asy b ix => Sys2Proof.Machine.execAsy b ix s
  | .vseq b ix => Sys2Proof.Machine.execVseq b ix s
  | .vred b ix => Sys2Proof.Machine.execVred b ix s
  | .fxload b ix => Sys2Proof.Machine.execFxload b ix s
  | .vfill b ix => Sys2Proof.Machine.execVfill b ix s
  | .swt b => Sys2Proof.Machine.execSwt b s
  | .swx b => Sys2Proof.Machine.execSwx b s
  | .swga b => Sys2Proof.Machine.execSwga b s
  | .swsc b => Sys2Proof.Machine.execSwsc b s
  | .swc b => Sys2Proof.Machine.execSwc b s
  | .cred b => Sys2Proof.Machine.execCred b s
  | .cxsum b => Sys2Proof.Machine.execCxsum b s
  | .sprd b ix t => Sys2Proof.Machine.execSprd b ix t s
  | .spwr b ix t => Sys2Proof.Machine.execSpwr b ix t s
  | .sptld b ix t => Sys2Proof.Machine.execSptld b ix t s
  | .sptst b ix t => Sys2Proof.Machine.execSptst b ix t s
  | .spxf b ix => Sys2Proof.Machine.execSpxf b ix s
  | .sppf b ix => Sys2Proof.Machine.execSppf b ix s
  | .henc b => Sys2Proof.Machine.execHenc b s
  | .hdec b => Sys2Proof.Machine.execHdec b s
  | .hsum b => Sys2Proof.Machine.execHsum b s
  | .collectiveChunkFold b => Sys2Proof.Machine.execCollectiveChunkFold b s
  | .assayUpdateApply p hub t => Sys2Proof.Machine.execAssayUpdateApply p hub t s
  | .seedset b => Sys2Proof.Machine.execSeedset b s
  | .asyclr b => Sys2Proof.Machine.execAsyclr b s
  | .numhist b => Sys2Proof.Machine.execNumhist b s
  | .asysync b => Sys2Proof.Machine.execAsysync b s
  | .numCtlWrite path p value t => Sys2Proof.Machine.execNumCtlWrite path p value t s
  | .numAsybaseWrite path p hi value t => Sys2Proof.Machine.execNumAsybaseWrite path p hi value t s
  | .galloc b => Sys2Proof.Machine.execGalloc b s
  | .gfree b => Sys2Proof.Machine.execGfree b s
  | .palloc b t => Sys2Proof.Machine.execPalloc b t s
  | .pfree b => Sys2Proof.Machine.execPfree b s
  | .ppin b t => Sys2Proof.Machine.execPpin b t s
  | .pprot b => Sys2Proof.Machine.execPprot b s
  | .pquery b => Sys2Proof.Machine.execPquery b s
  | .pageWalk req seg t => Sys2Proof.Machine.execPageWalk req seg t s
  | .driftDemandFetch p vpn t => Sys2Proof.Machine.execDriftDemandFetch p vpn t s
  | .driftFragmentArrive p vpn frag t => Sys2Proof.Machine.execDriftFragmentArrive p vpn frag t s
  | .driftMoveComplete p vpn t => Sys2Proof.Machine.execDriftMoveComplete p vpn t s
  | .driftDemote p t => Sys2Proof.Machine.execDriftDemote p t s
  | .heatDecay p t => Sys2Proof.Machine.execHeatDecay p t s
  | .frameScrub hub => Sys2Proof.Machine.execFrameScrub hub s
  | .alcQuotaWrite path p tier2 value t => Sys2Proof.Machine.execAlcQuotaWrite path p tier2 value t s
  | .schBenchWrite path p value t => Sys2Proof.Machine.execSchBenchWrite path p value t s
  | .schCtlWrite path p value t => Sys2Proof.Machine.execSchCtlWrite path p value t s
  | .schSaveqWrite path p value t => Sys2Proof.Machine.execSchSaveqWrite path p value t s
  | .alcBwWrite path p value t => Sys2Proof.Machine.execAlcBwWrite path p value t s
  | .tokenRefill => Sys2Proof.Machine.execTokenRefill s
  | .launchRecordTake sess list t => Sys2Proof.Machine.execLaunchRecordTake sess list t s
  | .programPlace p t => Sys2Proof.Machine.execProgramPlace p t s
  | .programStart prog t => Sys2Proof.Machine.execProgramStart prog t s
  | .roleStopAtYield prog role => Sys2Proof.Machine.execRoleStopAtYield prog role s
  | .yieldTimeout prog t => Sys2Proof.Machine.execYieldTimeout prog t s
  | .preemptSaveComplete prog t => Sys2Proof.Machine.execPreemptSaveComplete prog t s
  | .restoreComplete prog t => Sys2Proof.Machine.execRestoreComplete prog t s
  | .hbmAccess pa acc err t => Sys2Proof.Machine.execHbmAccess pa acc err t s
  | .hbmScrub pa err wrote t => Sys2Proof.Machine.execHbmScrub pa err wrote t s
  | .stackTempSample stack temp t => Sys2Proof.Machine.execStackTempSample stack temp t s
  | .nearMemoryAtomic pa op operand compare => Sys2Proof.Machine.execNearMemoryAtomic pa op operand compare s
  | .moduleParityLoss m odd t => Sys2Proof.Machine.execModuleParityLoss m odd t s
  | .ringLoopUpdate e dir l lockErr heater temp t => Sys2Proof.Machine.execRingLoopUpdate e dir l lockErr heater temp t s
  | .lanePowerSample e l power berHigh ber temp t => Sys2Proof.Machine.execLanePowerSample e l power berHigh ber temp t s
  | .lossOfLight e l t => Sys2Proof.Machine.execLossOfLight e l t s
  | .laneRetrain e dir l near far t => Sys2Proof.Machine.execLaneRetrain e dir l near far t s
  | .laneUp e dir l berLow t => Sys2Proof.Machine.execLaneUp e dir l berLow t s
  | .laserBiasStep e k power => Sys2Proof.Machine.execLaserBiasStep e k power s
  | .laserFadeDeclare e k r t => Sys2Proof.Machine.execLaserFadeDeclare e k r t s
  | .swapWarm e t => Sys2Proof.Machine.execSwapWarm e t s
  | .swapLock e err t => Sys2Proof.Machine.execSwapLock e err t s
  | .swapQuiesce e t => Sys2Proof.Machine.execSwapQuiesce e t s
  | .swapSwitch e t => Sys2Proof.Machine.execSwapSwitch e t s
  | .swapResume e t => Sys2Proof.Machine.execSwapResume e t s
  | .swapAbandon e t => Sys2Proof.Machine.execSwapAbandon e t s
  | .calibrationDue e why t => Sys2Proof.Machine.execCalibrationDue e why t s
  | .calibrationWindow e k t => Sys2Proof.Machine.execCalibrationWindow e k t s
  | .optCalnow path e value t => Sys2Proof.Machine.execOptCalnow path e value t s
  | .optPark path e value t => Sys2Proof.Machine.execOptPark path e value t s
  | .optSwapReq path e value t => Sys2Proof.Machine.execOptSwapReq path e value t s
  | .optSwapUnfence path e value t => Sys2Proof.Machine.execOptSwapUnfence path e value t s
  | .fibreOpenDetect e f => Sys2Proof.Machine.execFibreOpenDetect e f s
  | .shutterProbe e f found => Sys2Proof.Machine.execShutterProbe e f found s
  | .engineCoreRestart e t => Sys2Proof.Machine.execEngineCoreRestart e t s
  | .helloSend e f k t => Sys2Proof.Machine.execHelloSend e f k t s
  | .helloReceive e f k h t => Sys2Proof.Machine.execHelloReceive e f k h t s
  | .discoveryComplete t => Sys2Proof.Machine.execDiscoveryComplete t s
  | .packetInject p pkt t => Sys2Proof.Machine.execPacketInject p pkt t s
  | .packetArrive link pkt t => Sys2Proof.Machine.execPacketArrive link pkt t s
  | .fabSwap path value t => Sys2Proof.Machine.execFabSwap path value t s
  | .fabForce path value t => Sys2Proof.Machine.execFabForce path value t s
  | .drainMarkerArrive link typ stage t => Sys2Proof.Machine.execDrainMarkerArrive link typ stage t s
  | .drainRelease t => Sys2Proof.Machine.execDrainRelease t s
  | .drainWarnTimeout t => Sys2Proof.Machine.execDrainWarnTimeout t s
  | .flitReceive link flit wire fec t => Sys2Proof.Machine.execFlitReceive link flit wire fec t s
  | .flitGapTimeout link t => Sys2Proof.Machine.execFlitGapTimeout link t s
  | .replayTimeout link t => Sys2Proof.Machine.execReplayTimeout link t s
  | .nakReceive link ack t => Sys2Proof.Machine.execNakReceive link ack t s
  | .linkFailure link t => Sys2Proof.Machine.execLinkFailure link t s
  | .weatherRecord lanes t => Sys2Proof.Machine.execWeatherRecord lanes t s
  | .weatherAppend bytes => Sys2Proof.Machine.execWeatherAppend bytes s
  | .fabPsliceWrite path p value t => Sys2Proof.Machine.execFabPsliceWrite path p value t s
  | .rld b t => Sys2Proof.Machine.execRld b t s
  | .rst b t => Sys2Proof.Machine.execRst b t s
  | .ramo b t => Sys2Proof.Machine.execRamo b t s
  | .rput b t => Sys2Proof.Machine.execRput b t s
  | .rget b t => Sys2Proof.Machine.execRget b t s
  | .rown b t => Sys2Proof.Machine.execRown b t s
  | .rankTableWrite path p r hi value t => Sys2Proof.Machine.execRankTableWrite path p r hi value t s
  | .requestArrive pkt t => Sys2Proof.Machine.execRequestArrive pkt t s
  | .requestApply src seq t => Sys2Proof.Machine.execRequestApply src seq t s
  | .responseArrive pkt t => Sys2Proof.Machine.execResponseArrive pkt t s
  | .nackResend tag t => Sys2Proof.Machine.execNackResend tag t s
  | .remoteRetransmit tag notice t => Sys2Proof.Machine.execRemoteRetransmit tag notice t s
  | .floorSend home t => Sys2Proof.Machine.execFloorSend home t s
  | .rmaPurge path value t => Sys2Proof.Machine.execRmaPurge path value t s
  | .gatewayForward g t => Sys2Proof.Machine.execGatewayForward g t s
  | .gatewayConnectionLost rdom t => Sys2Proof.Machine.execGatewayConnectionLost rdom t s
  | .cbar b t => Sys2Proof.Machine.execCbar b t s
  | .csred b t => Sys2Proof.Machine.execCsred b t s
  | .ctar b t => Sys2Proof.Machine.execCtar b t s
  | .ctrs b t => Sys2Proof.Machine.execCtrs b t s
  | .ctag b t => Sys2Proof.Machine.execCtag b t s
  | .ctbc b t => Sys2Proof.Machine.execCtbc b t s
  | .signatureArrive p src msg t => Sys2Proof.Machine.execSignatureArrive p src msg t s
  | .notReadyResend p group seq member t => Sys2Proof.Machine.execNotReadyResend p group seq member t s
  | .goArrive p msg t => Sys2Proof.Machine.execGoArrive p msg t s
  | .chunkArrive p src msg t => Sys2Proof.Machine.execChunkArrive p src msg t s
  | .collectiveAbort p msg t => Sys2Proof.Machine.execCollectiveAbort p msg t s
  | .collectiveTimeout p group seq member t => Sys2Proof.Machine.execCollectiveTimeout p group seq member t s
  | .collectiveResend p dst msg t => Sys2Proof.Machine.execCollectiveResend p dst msg t s
  | .openSession qp part key t => Sys2Proof.Machine.execOpen qp part key t s
  | .attach qp sess token key t => Sys2Proof.Machine.execAttach qp sess token key t s
  | .close qp force t => Sys2Proof.Machine.execClose qp force t s
  | .heartbeat qp t => Sys2Proof.Machine.execHeartbeat qp t s
  | .regread qp addrs t => Sys2Proof.Machine.execRegread qp addrs t s
  | .regwrite qp writes t => Sys2Proof.Machine.execRegwrite qp writes t s
  | .mrreg qp base len access t => Sys2Proof.Machine.execMrreg qp base len access t s
  | .mrdereg qp rkey t => Sys2Proof.Machine.execMrdereg qp rkey t s
  | .intakeAdd qp base entries cap notify t => Sys2Proof.Machine.execIntakeAdd qp base entries cap notify t s
  | .intakeDel qp list t => Sys2Proof.Machine.execIntakeDel qp list t s
  | .cancel qp list record force t => Sys2Proof.Machine.execCancel qp list record force t s
  | .evsub qp severity t => Sys2Proof.Machine.execEvsub qp severity t s
  | .gwconn qp rdom addr port t => Sys2Proof.Machine.execGwconn qp rdom addr port t s
  | .messageReceive qp m t => Sys2Proof.Machine.execMessageReceive qp m t s
  | .leaseCheck t => Sys2Proof.Machine.execLeaseCheck t s
  | .orphrunExpire sess t => Sys2Proof.Machine.execOrphrunExpire sess t s
  | .holdExpire sess t => Sys2Proof.Machine.execHoldExpire sess t s
  | .sessionFreed sess t => Sys2Proof.Machine.execSessionFreed sess t s
  | .tailNotice sess list t => Sys2Proof.Machine.execTailNotice sess list t s
  | .rdmaDataAccess qp rkey va write len t => Sys2Proof.Machine.execRdmaDataAccess qp rkey va write len t s
  | .statusWindowRead qp rkey addr len t => Sys2Proof.Machine.execStatusWindowRead qp rkey addr len t s
  | .hostFrameReceive port fr t => Sys2Proof.Machine.execHostFrameReceive port fr t s
  | .cnpReceive qp t => Sys2Proof.Machine.execCnpReceive qp t s
  | .ceMarkReceive qp t => Sys2Proof.Machine.execCeMarkReceive qp t s
  | .cnpRateRecover qp t => Sys2Proof.Machine.execCnpRateRecover qp t s
  | .connectionRequest port ask t => Sys2Proof.Machine.execConnectionRequest port ask t s
  | .hostPortLinkDown port t => Sys2Proof.Machine.execHostPortLinkDown port t s
  | .watchdogExpire ix t => Sys2Proof.Machine.execWatchdogExpire ix t s
  | .fwpRestart path value t => Sys2Proof.Machine.execFwpRestart path value t s
  | .fwpUnfence path value t => Sys2Proof.Machine.execFwpUnfence path value t s
  | .processorRestartDone ix t => Sys2Proof.Machine.execProcessorRestartDone ix t s
  | .stewardFailover ix t => Sys2Proof.Machine.execStewardFailover ix t s
  | .bootStart straps t => Sys2Proof.Machine.execBootStart straps t s
  | .bootImagesVerified t => Sys2Proof.Machine.execBootImagesVerified t s
  | .identityKeysReady t => Sys2Proof.Machine.execIdentityKeysReady t s
  | .trialTimeout t => Sys2Proof.Machine.execTrialTimeout t s
  | .updStage path value mctp t => Sys2Proof.Machine.execUpdStage path value mctp t s
  | .updActivateLive path value t => Sys2Proof.Machine.execUpdActivateLive path value t s
  | .updActivateReset path value t => Sys2Proof.Machine.execUpdActivateReset path value t s
  | .updCommit path value t => Sys2Proof.Machine.execUpdCommit path value t s
  | .updAbort path value t => Sys2Proof.Machine.execUpdAbort path value t s
  | .emergencyHoldoffEnd t => Sys2Proof.Machine.execEmergencyHoldoffEnd t s
  | .liveActivationStep ok t => Sys2Proof.Machine.execLiveActivationStep ok t s
  | .attExtend path value t => Sys2Proof.Machine.execAttExtend path value t s
  | .attOwnerEnrol path value t => Sys2Proof.Machine.execAttOwnerEnrol path value t s
  | .attOwnerRevoke path value t => Sys2Proof.Machine.execAttOwnerRevoke path value t s
  | .getVersion src t => Sys2Proof.Machine.execGetVersion src t s
  | .getCapabilities src t => Sys2Proof.Machine.execGetCapabilities src t s
  | .negotiateAlgorithms src rsa3072 sha384 t => Sys2Proof.Machine.execNegotiateAlgorithms src rsa3072 sha384 t s
  | .getDigests src t => Sys2Proof.Machine.execGetDigests src t s
  | .getCertificate src slot offset len t => Sys2Proof.Machine.execGetCertificate src slot offset len t s
  | .challenge src slot nonce t => Sys2Proof.Machine.execChallenge src slot nonce t s
  | .getMeasurements src index signed nonce t => Sys2Proof.Machine.execGetMeasurements src index signed nonce t s
  | .spdmUnsupported src code t => Sys2Proof.Machine.execSpdmUnsupported src code t s
  | .spdmSignComplete t => Sys2Proof.Machine.execSpdmSignComplete t s
  | .spdmTcpConnect port t => Sys2Proof.Machine.execSpdmTcpConnect port t s
  | .avsbusReadback mv amps t => Sys2Proof.Machine.execAvsbusReadback mv amps t s
  | .packagePowerSample sectorMw rails t => Sys2Proof.Machine.execPackagePowerSample sectorMw rails t s
  | .ladderStep sector amps t => Sys2Proof.Machine.execLadderStep sector amps t s
  | .rateEvaluate sector sensors t => Sys2Proof.Machine.execRateEvaluate sector sensors t s
  | .pwrBrake low t => Sys2Proof.Machine.execPwrBrake low t s
  | .converterFault active confirmed t => Sys2Proof.Machine.execConverterFault active confirmed t s
  | .regulatorFault sector t => Sys2Proof.Machine.execRegulatorFault sector t s
  | .thermalTrip sensor temp t => Sys2Proof.Machine.execThermalTrip sensor temp t s
  | .pathMonitorAlarm sector slack t => Sys2Proof.Machine.execPathMonitorAlarm sector slack t s
  | .marginPlanCompute entries refresh vfeed lasers heaters t => Sys2Proof.Machine.execMarginPlanCompute entries refresh vfeed lasers heaters t s
  | .ageNow path value t => Sys2Proof.Machine.execAgeNow path value t s
  | .planApply sector t => Sys2Proof.Machine.execPlanApply sector t s
  | .calStore path value t => Sys2Proof.Machine.execCalStore path value t s
  | .calApply path value t => Sys2Proof.Machine.execCalApply path value t s
  | .calClear path value t => Sys2Proof.Machine.execCalClear path value t s
  | .errFence path value t => Sys2Proof.Machine.execErrFence path value t s
  | .errUnfence path value t => Sys2Proof.Machine.execErrUnfence path value t s
  | .fenceCause kind index cause t => Sys2Proof.Machine.execFenceCause kind index cause t s
  | .drainEnd kind index t => Sys2Proof.Machine.execDrainEnd kind index t s
  | .recoveryEnd kind index pass failed t => Sys2Proof.Machine.execRecoveryEnd kind index pass failed t s
  | .uncontainedError kind index t => Sys2Proof.Machine.execUncontainedError kind index t s
  | .census b t => Sys2Proof.Machine.execCensus b t s
  | .errCensusGo path value t => Sys2Proof.Machine.execErrCensusGo path value t s
  | .censusComplete t => Sys2Proof.Machine.execCensusComplete t s
  | .evpost b t => Sys2Proof.Machine.execEvpost b t s
  | .eventRaise code sev part unit data t => Sys2Proof.Machine.execEventRaise code sev part unit data t s
  | .telemetryQueueLeave t => Sys2Proof.Machine.execTelemetryQueueLeave t s
  | .ndlGroupReceive m dir group checkOk ack t => Sys2Proof.Machine.execNdlGroupReceive m dir group checkOk ack t s
  | .ndlRetrain m dir r0 r1 inTime t => Sys2Proof.Machine.execNdlRetrain m dir r0 r1 inTime t s
  | .ndlAutoRecover m t => Sys2Proof.Machine.execNdlAutoRecover m t s
  | .dieLinkTrain m r0 r1 t => Sys2Proof.Machine.execDieLinkTrain m r0 r1 t s
  | .ucieDiscovery id rate narrow t => Sys2Proof.Machine.execUcieDiscovery id rate narrow t s
  | .ucieAccess a t => Sys2Proof.Machine.execUcieAccess a t s
  | .ucieModuleDown m t => Sys2Proof.Machine.execUcieModuleDown m t s
  | .dbgLoop path value t => Sys2Proof.Machine.execDbgLoop path value t s
  | .dbgP1500 path value t => Sys2Proof.Machine.execDbgP1500 path value t s
  | .powerOnReset => Sys2Proof.Machine.execPowerOnReset s
  | .boardReset t => Sys2Proof.Machine.execBoardReset t s
  | .pwrokFall t => Sys2Proof.Machine.execPwrokFall t s
  | .internalReset cause t => Sys2Proof.Machine.execInternalReset cause t s
  | .refclkLoss t => Sys2Proof.Machine.execRefclkLoss t s
  | .refclkHoldoverExpire t => Sys2Proof.Machine.execRefclkHoldoverExpire t s
  | .refclkReturn t => Sys2Proof.Machine.execRefclkReturn t s
  | .pllLock t => Sys2Proof.Machine.execPllLock t s
  | .regulatorsUp t => Sys2Proof.Machine.execRegulatorsUp t s
  | .identityRead tray stratus lsms converters t => Sys2Proof.Machine.execIdentityRead tray stratus lsms converters t s
  | .laserEnable e t => Sys2Proof.Machine.execLaserEnable e t s
  | .lsmPresenceChange e present t => Sys2Proof.Machine.execLsmPresenceChange e present t s
  | .hbmTrainingDone fails t => Sys2Proof.Machine.execHbmTrainingDone fails t s
  | .hostPortsTrained up t => Sys2Proof.Machine.execHostPortsTrained up t s
  | .laneAbsentTimeout e f k t => Sys2Proof.Machine.execLaneAbsentTimeout e f k t s
  | .vfeedRestore removedNs => Sys2Proof.Machine.execVfeedRestore removedNs s
  | .resetRelease t => Sys2Proof.Machine.execResetRelease t s
  | .hostPortLinkUp port t => Sys2Proof.Machine.execHostPortLinkUp port t s
  | .moduleFailureReport m t => Sys2Proof.Machine.execModuleFailureReport m t s
  | .updStageComplete flashOk t => Sys2Proof.Machine.execUpdStageComplete flashOk t s
  | .commitComplete t => Sys2Proof.Machine.execCommitComplete t s
  | .calCommandComplete flashOk t => Sys2Proof.Machine.execCalCommandComplete flashOk t s
  | .dbgLoopComplete first errs t => Sys2Proof.Machine.execDbgLoopComplete first errs t s
  | .dbgP1500Complete pass t => Sys2Proof.Machine.execDbgP1500Complete pass t s
  | .quantumExpire prog t => Sys2Proof.Machine.execQuantumExpire prog t s
  | .lsmHoursUpdate e ok t => Sys2Proof.Machine.execLsmHoursUpdate e ok t s

end Sys2Proof.Machine
end

