-- ==== Sys2Proof/Safety.lean ====
section
/-! DEFINITION. What no command may do to the state, in the terms that the statements use: the queue and what has been sent, the form of
device memory, the fuses of OTP, part time and the thermal-trip latch. -/

namespace Sys2Proof.Machine

/-- A key slot of OTP may gain a key once and may be revoked; neither is undone (R445, R452). -/
def KeySlot.le (a b : KeySlot) : Prop :=
  (a.revoked = true → b.revoked = true) ∧ (a.key.isSome = true → b.key = a.key)

/-- Every slot of a list only blows fuses. -/
def slotsLe (l m : List KeySlot) : Prop :=
  l.length = m.length ∧ ∀ (n : Nat) (x y : KeySlot), l[n]? = some x → m[n]? = some y → x.le y

/-- Fuses only blow: the counter never falls, no slot loses its key or its revocation. -/
def Otp.le (a b : Otp) : Prop :=
  a.counter ≤ b.counter ∧ slotsLe a.vendor b.vendor ∧ slotsLe a.owner b.owner

/-- What every command keeps: the queue, what has been sent, the free values taken, the canonical form of device memory, and the fuses. -/
structure Keeps (s t : State) : Prop where
  pending : t.pending = s.pending
  out : s.out <+: t.out
  free : s.free ≤ t.free
  mem : Memory.wf s.mem = true → Memory.wf t.mem = true
  otp : s.otp.le t.otp

/-- What every command keeps that neither starts the part nor restores VFEED: part time does not step backwards (R40), and a latched
thermal trip stays latched (R478). -/
structure Carries (s t : State) : Prop extends Keeps s t where
  time : s.time ≤ t.time
  trip : s.tripped = true → t.tripped = true

/-! ## The unit 0 commands -/

/-- The bench, opcode (Table 3.6) and fields of a unit 0 command. -/
def unit0 : Instr → Option (BenchId × Nat × Fields)
  | .sadd b f => some (b, 0x01, f)
  | .ssub b f => some (b, 0x02, f)
  | .smul b f => some (b, 0x03, f)
  | .sand b f => some (b, 0x04, f)
  | .sor b f => some (b, 0x05, f)
  | .sxor b f => some (b, 0x06, f)
  | .sshl b f => some (b, 0x07, f)
  | .sshr b f => some (b, 0x08, f)
  | .ssra b f => some (b, 0x09, f)
  | .smin b f => some (b, 0x0A, f)
  | .smax b f => some (b, 0x0B, f)
  | .sli b f => some (b, 0x0C, f)
  | .slih b f => some (b, 0x0D, f)
  | .saddi b f => some (b, 0x0E, f)
  | .sld b f => some (b, 0x10, f)
  | .sst b f => some (b, 0x11, f)
  | .scmp b f => some (b, 0x18, f)
  | .plog b f => some (b, 0x19, f)
  | .thset b f => some (b, 0x20, f)
  | .thmov b f => some (b, 0x21, f)
  | .thget b f => some (b, 0x22, f)
  | .chopen b f => some (b, 0x28, f)
  | .chclose b f => some (b, 0x29, f)
  | .pbind b f => some (b, 0x2A, f)
  | .chstat b f => some (b, 0x2B, f)
  | .br b f => some (b, 0x30, f)
  | .brs b f => some (b, 0x31, f)
  | .loop b f => some (b, 0x32, f)
  | .call b f => some (b, 0x33, f)
  | .ret b f => some (b, 0x34, f)
  | .waitq b f => some (b, 0x38, f)
  | .waitp b f => some (b, 0x39, f)
  | .fence b f => some (b, 0x3A, f)
  | .waitc b f => some (b, 0x3B, f)
  | .yield b f => some (b, 0x3C, f)
  | .endRole b f => some (b, 0x3D, f)
  | .nop b f => some (b, 0x3E, f)
  | .benchid b f => some (b, 0x3F, f)
  | _ => none

/-- The sequencer of bench `b` takes the unit 0 word with this opcode and these fields: its role runs, the word passes the decode checks,
and its predicate holds. -/
structure Takes (s : State) (b opc : Nat) (f : Fields) : Prop where
  runs : seqRuns (bench s b) = true
  passes : decodeChecks (wordOf 0 opc f) = 0
  pred : getP (bench s b) f.psel.toNat = !(f.pinv == 1)

/-- The scalar, the predicate and the handle that an operand specifier names. -/
def sReg (s : State) (b : Nat) (o : BitVec 8) : W64 := getS (bench s b) (o.toNat % 64)
def pReg (s : State) (b : Nat) (o : BitVec 8) : Bool := getP (bench s b) (o.toNat % 64)
def tReg (s : State) (b : Nat) (o : BitVec 8) : Option Handle := getT (bench s b) (o.toNat % 64)
def cReg (s : State) (b : Nat) (o : BitVec 8) : Option Port := getC (bench s b) (o.toNat % 64)

/-- The state after the word at the pc has issued and left the bench as `y`: the pc takes `npc` or a loop's back edge, one word more has
issued. -/
def issued (b npc : Nat) (y : Bench) (s : State) : State := setBench b (seqNext npc y) s

/-- The state after a unit 0 word has written `v` to the scalar `o`, or `v` to the predicate `o`. -/
def wrote (s : State) (b : Nat) (o : BitVec 8) (v : W64) : State :=
  issued b ((bench s b).pc + 16) (putS (o.toNat % 64) v (bench s b)) s
def wroteP (s : State) (b : Nat) (o : BitVec 8) (v : Bool) : State :=
  issued b ((bench s b).pc + 16) (putP (o.toNat % 64) v (bench s b)) s

/-- The state after a word that does nothing but take its turn. -/
def passed (s : State) (b : Nat) : State := issued b ((bench s b).pc + 16) (bench s b) s

/-! ## The queued instructions -/

/-- A word for a station or the system queue that the sequencer of bench `b` issues at its pc: its role runs, the buffer holds the word, it
passes the decode checks, its predicate holds, its completion predicate waits on nothing, its count is not zero, the issue checks pass, and
its queue and the tracking of readers have room (R107 to R110, R549). -/
structure Issues (s : State) (b : Nat) (w : W128) : Prop where
  runs : seqRuns (bench s b) = true
  here : (bench s b).pc ≠ (bench s b).slen
  held : bufferWord (bench s b) (bench s b).pc = some w
  unit : wUnit w ≠ 0
  passes : decodeChecks w = 0
  pred : getP (bench s b) (wPsel w) = !(wPinv w)
  free : ∀ n, completionPred w = some n → (bench s b).waitPreds.contains n = false
  count : countZero w (fun n => (((captureVals (bench s b) w)[n - 1]?).getD 0).toNat) = false
  checks : issueChecks s b (bif Nat.ble 8 (wUnit w) then 13 else ordinalOf (wUnit w) (wIdx w)) (bench s b) w
    (fun n => (((captureVals (bench s b) w)[n - 1]?).getD 0).toNat) = 0
  room : queueFull (bench s b) w = false
  readers : readersFull (bench s b) w = false

/-- The queue that a word enters: that of its station, or the system queue (ordinal 13). -/
def queueOf (x : Bench) (k : Nat) : List Entry := if k = 13 then x.sysq else tget x.queues k []
def wordQueue (w : W128) : Nat := if 8 ≤ wUnit w then 13 else ordinalOf (wUnit w) (wIdx w)

/-- The state after a started instruction has executed: it holds what it leaves until it retires (R54). -/
def executed (b ord : Nat) (e : Entry) (l : List Eff) (s : State) : State :=
  modEntry b ord e.eid (fun x => { x with phase := .executed, effs := l }) s

/-- The oldest queued instruction of a station, when the station may start it now (R49, R109, R112, R123). -/
def nextStart (s : State) (b ord : Nat) : Option Entry :=
  match (tget (bench s b).queues ord []).find? (fun e => e.phase == .queued) with
  | none => none
  | some e =>
    if (bench s b).halted.contains ord = false ∧ isUp s 2 b = true ∧ isUp s 1 (b * 16 + ord) = true ∧ mayStart s b ord e = true
    then some e else none

/-- The bench of a command that executes a station's instruction. -/
def stationOf : Instr → Option BenchId
  | .mma b _ => some b | .mmadr b _ => some b | .accld b _ => some b | .accz b _ => some b
  | .qnt b _ => some b | .dqt b _ => some b | .had b _ => some b | .asy b _ => some b
  | .vseq b _ => some b | .vred b _ => some b | .fxload b _ => some b | .vfill b _ => some b
  | .swt b => some b | .swx b => some b | .swga b => some b | .swsc b => some b | .swc b => some b
  | .cred b => some b | .cxsum b => some b | .henc b => some b | .hdec b => some b | .hsum b => some b
  | _ => none

/-! ## Register writes -/

/-- The state that a served write over a path acts on: a manager's packet has been taken out of the Steward's queue. -/
def fetched (path : Path) (r : Reg) (i j : Nat) (v : W32) (s : State) : State := pathTaken path (regAddr r i j) v.toNat s

/-- The write of a register's instance over a path finds the path served, the register writable over it, and no fenced unit in the way (R33,
R36, R37); the address is that of the instance. -/
structure WritesReg (s : State) (path : Path) (r : Reg) (i j : Nat) (v : W32) : Prop where
  served : pathServed s path (regAddr r i j) v.toNat true = true
  here : placeAt (regAddr r i j) = some ⟨r, i, j⟩
  decodes : decoded (regAddr r i j) = true
  may : mayWrite (fetched path r i j v s) path (regAddr r i j) (some ⟨r, i, j⟩) = true
  open_ : regFenced (fetched path r i j v s) (regAddr r i j) = false

/-- The state after an access over a path has been answered with a status; `s` is the state before the write, `u` the one after it. -/
def answered (path : Path) (r : Reg) (i j : Nat) (st : Status) (s u : State) : State :=
  collStops s (emit (.access path (BitVec.ofNat 32 (regAddr r i j)) st 0) u)

/-- The register after a write of `v` by the access kinds of its fields (Table 0.5). -/
def written (r : Reg) (i j : Nat) (v : W32) (s : State) : State :=
  setRaw r i j (merged (locked s r i) r (raw s r i j) v.toNat) s

/-- A LO register written through a path: the value is held for the HI register (R13). -/
def heldLo (path : Path) (r : Reg) (i j : Nat) (v : W32) (s : State) : State :=
  modPath (pathNo path) (fun x => { x with held := tset x.held (regAddr r i j) v }) s

/-- A HI register written through a path: a held LO value takes effect with it (R13). -/
def writtenHi (path : Path) (lo hi : Reg) (i j : Nat) (v : W32) (s : State) : State :=
  match tget? (pathRegs s (pathNo path)).held (regAddr lo i j) with
  | none => written hi i j v s
  | some w =>
    written hi i j v (written lo i j w (modPath (pathNo path) (fun x => { x with held := terase x.held (regAddr lo i j) }) s))

/-! ## Mailbox requests -/

/-- The request `m` is at the front of the mailbox `k` of a queue pair, it is of type `typ`, the Steward serves mailboxes, flow control
lets the reply go (R418), and the freeing of its session has not begun. -/
structure Serves (s : State) (qp typ k : Nat) (m : Message) (rest : List Message) : Prop where
  box : qpMailbox s qp = some k
  front : (mailbox s k).queue = m :: rest
  runs : awake s = true ∧ s.recovery = false ∧ dutyRuns s 1 = true
  flows : qpPaused s qp = false
  type_ : m.typ.toNat = typ
  stands : k < 32 → (session s k).state ≠ .closed ∧ (session s k).state ≠ .freeing

/-- The state after the request at the front of mailbox `k` has been taken out and answered with what it comes to. -/
def replied (s : State) (qp k : Nat) (m : Message) (rest : List Message) (f : State → Served) : State :=
  collStops s (answer qp k m (f (setMailbox k { mailbox s k with queue := rest } s)))

end Sys2Proof.Machine
end

