-- ==== Sys2Proof/Certificates/Slice0/Obligations.lean ====
section
/-! DEFINITION. The statements of this model for the provers. -/

open Sys2Proof Sys2Proof.Machine

/-- A step of a state with command c at the front of its queue is exec of c on that state with the queue's rest; with an empty
queue the block idles (the model's choice, log entry of the idle step). (R36) -/
def Obligations.StepTakesTheFront : Prop :=
  (∀ (c : Instr) (rest : List Instr) (s : State), step { s with pending := c :: rest } = exec c { s with pending := rest }) ∧
  (∀ s : State, s.pending = [] → step s = .next s)

/-- Right after reset the queue is empty, memory is in canonical form and every byte reads 0 (the model's choice for memory
that nothing has written), every control register reads its Reset value, every unit is Up, every session is closed, no
program, fabric link, queue pair or event record exists. (R543, R490, R228, R421) -/
def Obligations.ResetState : Prop :=
  State.reset.pending = [] ∧ Memory.wf State.reset.mem = true ∧ (∀ a, memGet State.reset a = 0) ∧
  (∀ r i j, raw State.reset r i j = regReset r % 2 ^ 32) ∧ (∀ k i, isUp State.reset k i = true) ∧
  (∀ n, (session State.reset n).state = .closed) ∧ State.reset.progs = [] ∧ State.reset.links = [] ∧ State.reset.qps = [] ∧
  State.reset.telQ = []

/-- Every command on every state answers a next state; it does not touch the queue of waiting commands, it only appends to
what the block has sent, and it never gives a free value back. (R36, R228) -/
def Obligations.EveryCommandAnswers : Prop :=
  ∀ (c : Instr) (s : State), ∃ t, exec c s = .next t ∧ t.pending = s.pending ∧ s.out <+: t.out ∧ s.free ≤ t.free

/-- From every state whose device memory is in canonical form (addresses strictly rising, no entry that holds the value an
unlisted byte reads as), a step gives a state whose device memory is in canonical form. (R228, R269) -/
def Obligations.StepKeepsMemoryForm : Prop :=
  ∀ s t : State, step s = .next t → Memory.wf s.mem = true → Memory.wf t.mem = true

/-- No step lowers the fused counter, takes a key out of a key slot or withdraws the revocation of a slot, resets included.
(R445, R451, R452, R543) -/
def Obligations.FusesOnlyBlow : Prop :=
  ∀ s t : State, step s = .next t → s.otp.le t.otp

/-- No command steps part time backwards, apart from the four that can be the start event of a reset (POWER_ON_RESET,
RESET_RELEASE, REFCLK_RETURN, VFEED_RESTORE), after which it is zero. (R40) -/
def Obligations.TimeNeverStepsBack : Prop :=
  ∀ (c : Instr) (s t : State), exec c s = .next t →
    s.time ≤ t.time ∨ ((c = .powerOnReset ∨ (∃ u, c = .resetRelease u) ∨ (∃ u, c = .refclkReturn u) ∨ ∃ n, c = .vfeedRestore n) ∧
      (t.time = 0 ∨ s.time ≤ t.time))

/-- A latched thermal trip stays latched across every command but VFEED_RESTORE, which clears it exactly when VFEED has been
removed for at least 100 ms. (R478) -/
def Obligations.TripStaysLatched : Prop :=
  (∀ (c : Instr) (s t : State), exec c s = .next t → s.tripped = true → (∀ n, c ≠ .vfeedRestore n) → t.tripped = true) ∧
  (∀ (n : Nat) (s : State), s.tripped = true →
    ∃ t, exec (.vfeedRestore n) s = .next t ∧ (t.tripped = false ↔ 100000000 ≤ n))

/-- The unit, the opcode and every other field of the word made from them read back as they were: no bit of an encoding is
dropped and no two fields overlap. (R69) -/
def Obligations.WordFieldsReadBack : Prop :=
  ∀ (u c : Nat) (f : Fields), u < 16 → c < 256 →
    wUnit (wordOf u c f) = u ∧ wOpc (wordOf u c f) = c ∧ fieldsOf (wordOf u c f) = f

/-- A read of s0 returns zero and a read of p0 returns 1; a write to s0 or p0 changes nothing, and a write to any other scalar
or predicate is what it reads next, the others as before. (R79) -/
def Obligations.ZeroRegisters : Prop :=
  ∀ x : Bench, getS x 0 = 0 ∧ getP x 0 = true ∧ (∀ v, putS 0 v x = x) ∧ (∀ v, putP 0 v x = x) ∧
    (∀ n v m, n ≠ 0 → getS (putS n v x) m = if m = n then v else getS x m) ∧
    (∀ n v m, n ≠ 0 → getP (putP n v x) m = if m = n then v else getP x m)

/-- SADD, SSUB and SMUL wrap modulo 2^64, SAND, SOR and SXOR are bitwise, SSHL, SSHR and SSRA shift by sb[5:0], SMIN and SMAX
compare signed with MOD[0] = 0 and unsigned with 1, SADDI adds the sign-extended immediate: each answers the state in which O1
holds the result and the word has issued. SLI loads the sign-extended immediate, SLIH the high half, SCMP and PLOG write their
condition to the predicate O1, SLD reads and SST writes 8 bytes of bench store little-endian at an aligned address in granules
that the role holds (else the sequencer faults with 0x0206), BENCHID writes the physical placement. That an SLD of a bench
store line that holds an uncorrectable error faults with 0x0301 is the model's reading (log entry 269). (R83, R79, R84, R85)
-/
def Obligations.SequencerScalars : Prop :=
  (∀ (b : BenchId) (f : Fields) (s : State),
    let x := sReg s b f.o2
    let y := sReg s b f.o3
    (Takes s b 0x01 f → exec (.sadd b f) s = .next (wrote s b f.o1 (x + y))) ∧
    (Takes s b 0x02 f → exec (.ssub b f) s = .next (wrote s b f.o1 (x - y))) ∧
    (Takes s b 0x03 f → exec (.smul b f) s = .next (wrote s b f.o1 (x * y))) ∧
    (Takes s b 0x04 f → exec (.sand b f) s = .next (wrote s b f.o1 (x &&& y))) ∧
    (Takes s b 0x05 f → exec (.sor b f) s = .next (wrote s b f.o1 (x ||| y))) ∧
    (Takes s b 0x06 f → exec (.sxor b f) s = .next (wrote s b f.o1 (x ^^^ y))) ∧
    (Takes s b 0x07 f → exec (.sshl b f) s = .next (wrote s b f.o1 (x <<< (y.toNat % 64)))) ∧
    (Takes s b 0x08 f → exec (.sshr b f) s = .next (wrote s b f.o1 (x >>> (y.toNat % 64)))) ∧
    (Takes s b 0x09 f → exec (.ssra b f) s = .next (wrote s b f.o1 (x.sshiftRight (y.toNat % 64)))) ∧
    (Takes s b 0x0A f → exec (.smin b f) s = .next (wrote s b f.o1
      (if f.mod.toNat % 2 = 1 then (if y.toNat < x.toNat then y else x) else (if y.toInt < x.toInt then y else x)))) ∧
    (Takes s b 0x0B f → exec (.smax b f) s = .next (wrote s b f.o1
      (if f.mod.toNat % 2 = 1 then (if x.toNat < y.toNat then y else x) else (if x.toInt < y.toInt then y else x)))) ∧
    (Takes s b 0x0E f → exec (.saddi b f) s = .next (wrote s b f.o1 (x + f.imm.signExtend 64)))) ∧
  (∀ (b : BenchId) (f : Fields) (s : State),
    let a := (sReg s b f.o2 + BitVec.ofNat 64 (f.imm.toNat % 2 ^ 24)).toNat
    let held := a % 8 = 0 ∧ holdsBytes (bench s b) a 8 = true
    (Takes s b 0x0C f → exec (.sli b f) s = .next (wrote s b f.o1 (f.imm.signExtend 64))) ∧
    (Takes s b 0x0D f → exec (.slih b f) s = .next (wrote s b f.o1
      (BitVec.ofNat 64 (f.imm.toNat % 2 ^ 32 * 2 ^ 32 + (sReg s b f.o1).toNat % 2 ^ 32)))) ∧
    (Takes s b 0x18 f → exec (.scmp b f) s = .next (wroteP s b f.o1
      (scmpCond (f.mod.toNat % 8) (sReg s b f.o2) (sReg s b f.o3)))) ∧
    (Takes s b 0x19 f → exec (.plog b f) s = .next (wroteP s b f.o1
      (plogOp (f.mod.toNat % 4) (pReg s b f.o2) (pReg s b f.o3)))) ∧
    (Takes s b 0x10 f → held → storeBad (bench s b) a 8 = true → exec (.sld b f) s = .next (seqFault b 0x0301 s)) ∧
    (Takes s b 0x10 f → held → storeBad (bench s b) a 8 = false →
      exec (.sld b f) s = .next (wrote s b f.o1 (BitVec.ofNat 64 (leNat (storeRead s b a 8))))) ∧
    (Takes s b 0x11 f → held → exec (.sst b f) s =
      .next (issued b ((bench s b).pc + 16) (storeWrite a (leBytes 8 (sReg s b f.o1).toNat) (bench s b)) s)) ∧
    (Takes s b 0x10 f → ¬held → exec (.sld b f) s = .next (seqFault b 0x0206 s)) ∧
    (Takes s b 0x11 f → ¬held → exec (.sst b f) s = .next (seqFault b 0x0206 s)) ∧
    (Takes s b 0x3F f → exec (.benchid b f) s = .next (wrote s b f.o1
      (BitVec.ofNat 64 (b.val / 8 + b.val % 8 * 4 + homeIdx (b.val % 8) * 32 + farIdx (b.val % 8) * 256)))))

/-- THSET with 1 to 257 lines inside the role's granules sets the handle to the range and reads its header from the start
line, THMOV copies a set handle, THGET reads a field of a set handle, all when no instruction in flight still uses the
handles; with such an instruction in flight they stall with cause 4. THSET of no line does nothing, one of more than 257 lines
faults with 0x0201, one outside the role's granules with 0x0206; THMOV and THGET of a handle that is not set fault with
0x0202. That a THSET whose header line holds an uncorrectable error faults with 0x0301 is the model's reading (log entry 269).
CHOPEN of a free identifier with legal parameters and room in the half of its consumer opens the channel with those parameters
and binds the port to it; without credits it does nothing, with parameters out of range it faults with 0x0204, for an open
channel with 0x0203, and for one that is closing it stalls with cause 10. CHCLOSE unbinds its port and, on a local or in port,
marks the channel closing; PBIND unbinds with DIR 0, binds to an open channel with DIR 1 and 2 (else it faults with 0x0205)
and to a consumer role with DIR 3; CHSTAT writes free credits, packets present, open and closing. CHCLOSE and CHSTAT of a port
that is not bound fault with 0x0205. (R86, R109, R83, R99, R46, R47, R91, R92, R93) -/
def Obligations.HandlesAndChannels : Prop :=
  (∀ (b : BenchId) (f : Fields) (s : State),
    let x := bench s b
    let n := f.imm.toNat % 512
    let line := (sReg s b f.o2).toNat
    let o1 := f.o1.toNat % 64
    let o2 := f.o2.toNat % 64
    let held := 1 ≤ n ∧ n ≤ 257 ∧ holdsBytes x (line * 256) (n * 256) = true
    let still := writerLive x o1 = false ∧ readersLive x o1 = false
    let field := f.mod.toNat % 16
    let at_ := thgetField field
    (Takes s b 0x20 f → held → still → storeBad x (line * 256) 64 = false →
      exec (.thset b f) s = .next (issued b (x.pc + 16)
        (putT o1 ⟨line, n, BitVec.ofNat 512 (leNat (storeRead s b (line * 256) 64))⟩ x) s)) ∧
    (Takes s b 0x20 f → held → still → storeBad x (line * 256) 64 = true → exec (.thset b f) s = .next (seqFault b 0x0301 s)) ∧
    (Takes s b 0x20 f → held → ¬still → exec (.thset b f) s = .next (seqStall b 4 s)) ∧
    (Takes s b 0x20 f → n = 0 → exec (.thset b f) s = .next (passed s b)) ∧
    (Takes s b 0x20 f → 257 < n → exec (.thset b f) s = .next (seqFault b 0x0201 s)) ∧
    (Takes s b 0x20 f → 1 ≤ n → n ≤ 257 → holdsBytes x (line * 256) (n * 256) = false →
      exec (.thset b f) s = .next (seqFault b 0x0206 s)) ∧
    (∀ h, Takes s b 0x21 f → tReg s b f.o2 = some h → writerLive x o2 = false → still →
      exec (.thmov b f) s = .next (issued b (x.pc + 16) (putT o1 h x) s)) ∧
    (∀ h, Takes s b 0x21 f → tReg s b f.o2 = some h → ¬(writerLive x o2 = false ∧ still) →
      exec (.thmov b f) s = .next (seqStall b 4 s)) ∧
    (∀ h, Takes s b 0x22 f → tReg s b f.o2 = some h → writerLive x o2 = false →
      exec (.thget b f) s = .next (wrote s b f.o1 (BitVec.ofNat 64 (if field = 15 then h.start + h.lines * 2 ^ 32
        else h.hdr.toNat / 2 ^ (8 * at_.1) % 2 ^ (8 * at_.2))))) ∧
    (∀ h, Takes s b 0x22 f → tReg s b f.o2 = some h → writerLive x o2 = true → exec (.thget b f) s = .next (seqStall b 4 s)) ∧
    (Takes s b 0x21 f → tReg s b f.o2 = none → exec (.thmov b f) s = .next (seqFault b 0x0202 s)) ∧
    (Takes s b 0x22 f → tReg s b f.o2 = none → exec (.thget b f) s = .next (seqFault b 0x0202 s))) ∧
  (∀ (b : BenchId) (f : Fields) (s : State),
    let x := bench s b
    let imm := f.imm.toNat
    let c := f.o1.toNat % 64
    let id := imm / 2 ^ 54 % 64
    let credits := imm / 2 ^ 49 % 32
    let slot := imm / 2 ^ 40 % 512
    let bridge := imm / 2 ^ 31 % 2 == 1
    let isOpen := ∃ ch, tget? x.chans id = some ch ∧ ch.closing = false
    (Takes s b 0x28 f → chopenBad x (wordOf 0 0x28 f) = false → credits ≠ 0 → tget? x.chans id = none →
      (credits * slot + 255) / 256 ≤ (freeGrans x (farOrdinal (imm / 2 ^ 32 % 16))).length →
      ∃ t ch, exec (.chopen b f) s = .next t ∧ tget? (bench t b).chans id = some ch ∧ ch.closing = false ∧ ch.credits = credits ∧
        ch.slot = slot ∧ ch.bridge = bridge ∧ ch.prod = imm / 2 ^ 36 % 16 ∧ ch.cons = imm / 2 ^ 32 % 16 ∧ ch.packets = [] ∧
        getC (bench t b) c = some ⟨id, if bridge then .inn else .loc, 0⟩ ∧
        t = { s with benches := t.benches } ∧ ∀ n, n ≠ b.val → bench t n = bench s n) ∧
    (Takes s b 0x28 f → credits = 0 → exec (.chopen b f) s = .next (passed s b)) ∧
    (Takes s b 0x28 f → credits ≠ 0 → chopenBad x (wordOf 0 0x28 f) = true → exec (.chopen b f) s = .next (seqFault b 0x0204 s)) ∧
    (∀ ch, Takes s b 0x28 f → credits ≠ 0 → chopenBad x (wordOf 0 0x28 f) = false → tget? x.chans id = some ch →
      exec (.chopen b f) s = .next (if ch.closing then seqStall b 10 s else seqFault b 0x0203 s)) ∧
    (Takes s b 0x29 f → getC x c = none → exec (.chclose b f) s = .next (seqFault b 0x0205 s)) ∧
    (Takes s b 0x2B f → cReg s b f.o2 = none → exec (.chstat b f) s = .next (seqFault b 0x0205 s)) ∧
    (∀ p ch, Takes s b 0x29 f → getC x c = some p → p.dir ≠ .out → tget? x.chans p.id = some ch →
      exec (.chclose b f) s = .next (issued b (x.pc + 16)
        { dropC c x with chans := tset x.chans p.id { ch with closing := true } } s)) ∧
    (∀ p, Takes s b 0x29 f → getC x c = some p → p.dir = .out →
      exec (.chclose b f) s = .next (issued b (x.pc + 16) (dropC c x) s)) ∧
    (Takes s b 0x2A f → imm / 2 ^ 52 % 4 = 0 → exec (.pbind b f) s = .next (issued b (x.pc + 16) (dropC c x) s)) ∧
    (Takes s b 0x2A f → imm / 2 ^ 52 % 4 = 1 → isOpen →
      exec (.pbind b f) s = .next (issued b (x.pc + 16) (putC c ⟨id, .loc, 0⟩ x) s)) ∧
    (Takes s b 0x2A f → imm / 2 ^ 52 % 4 = 2 → isOpen →
      exec (.pbind b f) s = .next (issued b (x.pc + 16) (putC c ⟨id, .inn, 0⟩ x) s)) ∧
    (Takes s b 0x2A f → imm / 2 ^ 52 % 4 = 3 →
      exec (.pbind b f) s = .next (issued b (x.pc + 16) (putC c ⟨id, .out, imm / 2 ^ 47 % 32⟩ x) s)) ∧
    (Takes s b 0x2A f → (imm / 2 ^ 52 % 4 = 1 ∨ imm / 2 ^ 52 % 4 = 2) → ¬isOpen → exec (.pbind b f) s = .next (seqFault b 0x0205 s)) ∧
    (∀ p k i ch, Takes s b 0x2B f → cReg s b f.o2 = some p → portChan s b p = some (k, i, ch) →
      exec (.chstat b f) s = .next (wrote s b f.o1 (BitVec.ofNat 64 (freeCredits s k i ch % 32 + ch.packets.length % 32 * 2 ^ 8 +
        (if ch.closing then 2 ^ 17 else 2 ^ 16))))))

/-- A branch, call or return to a multiple of 16 inside the control stream goes there, BR and CALL relative to the word
itself, BRS to the scalar; BR and BRS end the loops whose body they leave, CALL pushes pc + 16 with the loop depth, RET pops
it and drops the loops opened above it. A target that is not inside the stream or not a multiple of 16 faults with 0x0207, a
CALL onto a full stack (its target in order) and a RET from an empty one with 0x0208. LOOP with a count of 1 to 2^32 - 1, a
body of at least one word that ends inside the stream and inside the enclosing loop, and at most three loops open opens an
entry for the words that follow; a count above faults with 0x0201, then four loops open with 0x0208, then a body that does not
fit with 0x0207. A LOOP with a count of 0 goes to the word after its body when that is a branch target inside the stream, else
it faults with 0x0207; a LOOP without a body goes to the next word. (R87, R88, R89, R90) -/
def Obligations.SequencerBranches : Prop :=
  ∀ (b : BenchId) (f : Fields) (s : State),
    let x := bench s b
    let rel := (x.pc : Int) + 16 * (BitVec.ofNat 32 f.imm.toNat).toInt
    let sa := (sReg s b f.o2).toNat
    let inside := fun t : Int => 0 ≤ t ∧ t < x.slen ∧ t % 16 = 0
    let len := f.imm.toNat % 2 ^ 16
    let stop := x.pc + 16 + 16 * len
    let fits := stop ≤ x.slen ∧ ∀ l ∈ x.loops.head?, l.start ≤ x.pc → x.pc < l.stop → stop ≤ l.stop
    (Takes s b 0x30 f → inside rel →
      exec (.br b f) s = .next (issued b rel.toNat { x with loops := leaveLoops rel.toNat x.loops } s)) ∧
    (Takes s b 0x30 f → ¬inside rel → exec (.br b f) s = .next (seqFault b 0x0207 s)) ∧
    (Takes s b 0x31 f → inside sa → exec (.brs b f) s = .next (issued b sa { x with loops := leaveLoops sa x.loops } s)) ∧
    (Takes s b 0x31 f → ¬inside sa → exec (.brs b f) s = .next (seqFault b 0x0207 s)) ∧
    (Takes s b 0x33 f → inside rel → x.rets.length < 16 →
      exec (.call b f) s = .next (issued b rel.toNat { x with rets := ⟨x.pc + 16, x.loops.length⟩ :: x.rets } s)) ∧
    (Takes s b 0x33 f → ¬inside rel → exec (.call b f) s = .next (seqFault b 0x0207 s)) ∧
    (Takes s b 0x33 f → inside rel → 16 ≤ x.rets.length → exec (.call b f) s = .next (seqFault b 0x0208 s)) ∧
    (∀ r rs, Takes s b 0x34 f → x.rets = r :: rs → inside r.off →
      exec (.ret b f) s = .next (issued b r.off { x with rets := rs, loops := x.loops.drop (x.loops.length - r.depth) } s)) ∧
    (∀ r rs, Takes s b 0x34 f → x.rets = r :: rs → ¬inside r.off → exec (.ret b f) s = .next (seqFault b 0x0207 s)) ∧
    (Takes s b 0x34 f → x.rets = [] → exec (.ret b f) s = .next (seqFault b 0x0208 s)) ∧
    (Takes s b 0x32 f → 1 ≤ sa → sa < 2 ^ 32 → len ≠ 0 → x.loops.length < 4 → fits →
      exec (.loop b f) s = .next (issued b (x.pc + 16) { x with loops := ⟨x.pc + 16, stop, sa - 1, x.rets.length⟩ :: x.loops } s)) ∧
    (Takes s b 0x32 f → sa = 0 → len ≠ 0 → inside stop → exec (.loop b f) s = .next (issued b stop x s)) ∧
    (Takes s b 0x32 f → sa = 0 → len ≠ 0 → ¬inside stop → exec (.loop b f) s = .next (seqFault b 0x0207 s)) ∧
    (Takes s b 0x32 f → len = 0 → exec (.loop b f) s = .next (passed s b)) ∧
    (Takes s b 0x32 f → 2 ^ 32 ≤ sa → len ≠ 0 → exec (.loop b f) s = .next (seqFault b 0x0201 s)) ∧
    (Takes s b 0x32 f → 1 ≤ sa → sa < 2 ^ 32 → len ≠ 0 → 4 ≤ x.loops.length → exec (.loop b f) s = .next (seqFault b 0x0208 s)) ∧
    (Takes s b 0x32 f → 1 ≤ sa → sa < 2 ^ 32 → len ≠ 0 → x.loops.length < 4 → ¬fits →
      exec (.loop b f) s = .next (seqFault b 0x0207 s))

/-- WAITQ issues when the queues that it names hold no instruction, else it stalls with cause 5; WAITP issues when the
predicate has the value asked for, else cause 6; FENCE when its scope is met, else cause 8; WAITC issues at once for no
packets, on a local or in port when the channel holds that many packets and on an out port when that many credits are free and
the channel is not closing, else it stalls with cause 7; on a port that is not bound it faults with 0x0205, and for more than
16 with 0x0201. YIELD at one of the role's yield points issues when no preemption is asked for, else it stalls with cause 9
and notes the yield point; at any other point it faults with 0x020A. END ends the role, NOP does nothing. (R94, R95, R96, R63,
R64, R97, R99) -/
def Obligations.SequencerWaits : Prop :=
  ∀ (b : BenchId) (f : Fields) (s : State),
    let x := bench s b
    let n := f.imm.toNat % 32
    let pt := f.imm.toNat % 2 ^ 16
    (Takes s b 0x38 f → exec (.waitq b f) s =
      .next (if queuesBusy x (f.imm.toNat % 2 ^ 14) = true then seqStall b 5 s else passed s b)) ∧
    (Takes s b 0x39 f → exec (.waitp b f) s =
      .next (if pReg s b f.o2 = !(f.mod.toNat % 2 == 1) then passed s b else seqStall b 6 s)) ∧
    (Takes s b 0x3A f → exec (.fence b f) s =
      .next (if fenceMet s b x (f.mod.toNat % 4) = true then passed s b else seqStall b 8 s)) ∧
    (Takes s b 0x3B f → n = 0 → exec (.waitc b f) s = .next (passed s b)) ∧
    (Takes s b 0x3B f → n ≠ 0 → cReg s b f.o2 = none → exec (.waitc b f) s = .next (seqFault b 0x0205 s)) ∧
    (∀ p, Takes s b 0x3B f → 16 < n → cReg s b f.o2 = some p → exec (.waitc b f) s = .next (seqFault b 0x0201 s)) ∧
    (∀ p c i ch, Takes s b 0x3B f → 1 ≤ n → n ≤ 16 → cReg s b f.o2 = some p → portChan s b p = some (c, i, ch) →
      exec (.waitc b f) s = .next (if (if p.dir = .out then n ≤ freeCredits s c i ch ∧ ch.closing = false else n ≤ ch.packets.length)
        then passed s b else seqStall b 7 s)) ∧
    (∀ p q, Takes s b 0x3C f → benchProg s b = some p → yieldEntry p x.role pt = some q →
      exec (.yield b f) s = .next (if p.preempt = none then passed s b
        else seqStall b 9 (setBench b { x with yielded := some pt } s))) ∧
    (∀ p, Takes s b 0x3C f → benchProg s b = some p → yieldEntry p x.role pt = none →
      exec (.yield b f) s = .next (seqFault b 0x020A s)) ∧
    (Takes s b 0x3D f → exec (.endRole b f) s =
      .next (setBench b { seqNext (x.pc + 16) x with seq := 4 } s)) ∧
    (Takes s b 0x3E f → exec (.nop b f) s = .next (passed s b))

/-- A unit 0 command changes nothing but its own bench and, when it faults, the fault reports on their way: no memory, no
register, no other bench. In its bench every scalar and every predicate other than O1 keeps its value, and only CHOPEN and SST
change bench store. (R83, R107, R113) -/
def Obligations.SequencerFrame : Prop :=
  ∀ (c : Instr) (b : BenchId) (opc : Nat) (f : Fields) (s : State), unit0 c = some (b, opc, f) →
    ∃ t, exec c s = .next t ∧ t = { s with benches := t.benches, reports := t.reports } ∧
      (∀ n, n ≠ b.val → bench t n = bench s n) ∧
      (∀ n, n ≠ f.o1.toNat % 64 → getS (bench t b) n = getS (bench s b) n ∧ getP (bench t b) n = getP (bench s b) n) ∧
      (opc ≠ 0x11 → opc ≠ 0x28 → (bench t b).store = (bench s b).store) ∧
      (bench t b).prog = (bench s b).prog ∧ (bench t b).accs = (bench s b).accs ∧ (bench t b).queues = (bench s b).queues ∧
      (bench t b).sysq = (bench s b).sysq

/-- A unit 0 command whose sequencer does not run changes nothing; one whose word fails the decode checks faults its sequencer
with that status; one whose predicate is false retires at issue with no effect. (R107, R83) -/
def Obligations.SequencerTurns : Prop :=
  ∀ (c : Instr) (b : BenchId) (opc : Nat) (f : Fields) (s : State), unit0 c = some (b, opc, f) →
    (seqRuns (bench s b) = false → exec c s = .next s) ∧
    (seqRuns (bench s b) = true → decodeChecks (wordOf 0 opc f) ≠ 0 →
      exec c s = .next (seqFault b (decodeChecks (wordOf 0 opc f)) s)) ∧
    (seqRuns (bench s b) = true → decodeChecks (wordOf 0 opc f) = 0 → getP (bench s b) f.psel.toNat ≠ !(f.pinv == 1) →
      exec c s = .next (passed s b))

/-- In an issue step of a running sequencer whose buffer holds the word at the pc, a unit 0 word has the effect of its own
command, and a word for a station or the system queue that may issue enters the end of its queue with its offset, its scalars
and its ports as they are now and the entries it waits for, while every other queue stays as it was; a pc at the stream's end
faults with 0x0207, a word not in the buffer stalls with cause 1, and the fill that follows gives the buffer the words from
the pc on, or faults the sequencer with the status of the access. (After the word of a step has issued the buffer prefetches,
and a fetch shows the errors that the lines it reads hold.) (R107, R81, R82, R109, R108) -/
def Obligations.IssueStep : Prop :=
  ∀ (b : BenchId) (t : Time) (s : State),
    let s' := atTime t s
    let x := bench s b
    (seqRuns x = false → exec (.issueStep b t) s = .next s') ∧
    (seqRuns x = true → x.pc = x.slen → exec (.issueStep b t) s = .next (seqFault b 0x0207 s')) ∧
    (seqRuns x = true → x.pc ≠ x.slen → bufferWord x x.pc = none → exec (.issueStep b t) s = .next (seqStall b 1 s')) ∧
    (∀ c opc f, unit0 c = some (b, opc, f) → seqRuns x = true → x.pc ≠ x.slen → bufferWord x x.pc = some (wordOf 0 opc f) →
      ∃ u, exec c s' = .next u ∧ exec (.issueStep b t) s = .next (prefetch b u)) ∧
    (∀ w, Issues s' b w → ∃ u e, exec (.issueStep b t) s = .next (prefetch b u) ∧ u = { s' with benches := u.benches } ∧
      (∀ n, n ≠ b.val → bench u n = bench s n) ∧
      queueOf (bench u b) (wordQueue w) = queueOf x (wordQueue w) ++ [e] ∧
      (∀ k, k ≠ wordQueue w → queueOf (bench u b) k = queueOf x k) ∧
      e.word = w ∧ e.off = x.pc ∧ e.phase = .queued ∧ e.vals = captureVals x w ∧ e.ports = capturePorts x w ∧ e.deps = depsOf x w ∧
      (bench u b).store = x.store ∧ (bench u b).scalars = x.scalars ∧ (bench u b).issued = x.issued + 1) ∧
    (∀ ws, seqRuns x = true → x.cause = 1 → x.pc < x.slen → streamWords s (benchPart s b) x x.pc bufferWords = .ok ws →
      exec (.streamBufferFill b) s = .next (setBench b { x with bufAt := x.pc / 16, buf := ws, seq := 1, cause := 0 }
        (streamSeen (benchPart s b) x x.pc bufferWords s))) ∧
    (∀ st, seqRuns x = true → x.cause = 1 → x.pc < x.slen → streamWords s (benchPart s b) x x.pc bufferWords = .error st →
      exec (.streamBufferFill b) s = .next (seqFault b st (streamSeen (benchPart s b) x x.pc bufferWords s)))

/-- A station starts its oldest queued instruction, when it may, after its checks (a failed check faults; a write to a channel
that was opened for another producer faults with 0x0205); the oldest instruction of a station, once executed, applies what it
left, in order, returns its input slots and leaves its queue, and nothing retires while the oldest has not executed, or while
the packet of an executed SPXF is not complete in its slot; the hub takes the oldest entry of a system queue that has none
taken; the oldest write in progress completes in its slot; a returning credit arrives; a closing channel that is empty goes
and frees its granules. (R49, R51, R53, R54, R108, R109, R123) -/
def Obligations.StationTurns : Prop :=
  ∀ (b : BenchId) (ord : Fin 13) (id : Fin 64) (t : Time) (s : State),
    let x := bench s b
    (∀ e, nextStart s b ord = some e → producerBad s b ord e = false → startChecks s b ord e = 0 →
      exec (.stationStart b ord) s = .next (modEntry b ord e.eid (startedAs s b) s)) ∧
    (∀ e, nextStart s b ord = some e → producerBad s b ord e = false → startChecks s b ord e ≠ 0 →
      exec (.stationStart b ord) s = .next (stationFault b ord e (startChecks s b ord e) s)) ∧
    (∀ e, nextStart s b ord = some e → producerBad s b ord e = true →
      exec (.stationStart b ord) s = .next (reportFault b ord e.off 0x0205 s)) ∧
    (nextStart s b ord = none → exec (.stationStart b ord) s = .next s) ∧
    (∀ e rest, tget x.queues ord [] = e :: rest → e.phase = .executed →
      (wUnit e.word = 6 → wOpc e.word = 5 → spxfLanded s b ord e = true) → exec (.stationRetire b ord) s = .next (modBench b (fun y => dropUses e.eid { y with queues := tset y.queues ord rest })
        (consumeInputs b e (e.effs.foldl (applyEff b) s)))) ∧
    (∀ e rest, tget x.queues ord [] = e :: rest →
      e.phase ≠ .executed ∨ wUnit e.word = 6 ∧ wOpc e.word = 5 ∧ spxfLanded s b ord e = false → exec (.stationRetire b ord) s = .next s) ∧
    (∀ e rest, x.taken = none → x.sysq = e :: rest → x.halted.contains 13 = false →
      exec (.systemQueueTake b t) s = .next (setBench b { x with taken := some e, sysq := rest } (atTime t s))) ∧
    (∀ c p ps, tget? x.chans id = some c → c.writing = p :: ps → exec (.channelWriteComplete b id) s =
      .next (setBench b { x with chans := tset x.chans id { c with packets := c.packets ++ [p], writing := ps } } s)) ∧
    (∀ c, tget? x.chans id = some c → exec (.creditReturn b id) s =
      .next (setBench b { x with chans := tset x.chans id { c with returning := c.returning - 1 } } s)) ∧
    (∀ c, tget? x.chans id = some c → c.closing = true → closeReady s b id c = true → exec (.channelCloseComplete b id t) s =
      .next (setBench b (c.grans.foldl (fun y g => ungrant g y) { x with chans := terase x.chans id }) (atTime t s)))

/-- A started MMA whose operands pass the checks of R125 leaves the buffer with the sum of R126; MMADR with an extent leaves
the packet of the buffer with its saturation count and its Assay update, and clears the buffer unless MOD[1] (KEEP) is set;
ACCLD leaves the buffer with the packet's elements and extent, saturation count 0; ACCZ leaves it zero with no extent. MMADR
of a buffer with no extent faults with 0x018E. (R125, R126, R128, R131, R132) -/
def Obligations.AnvilInstructions : Prop :=
  ∀ (b : BenchId) (i : Fin 4) (e : Entry) (s : State),
    let acc := accum s b e.word
    let el := fun r c => tget acc.val (r * 128 + c) 0
    let hdr := fun rows cols => { newPkt (wFmt e.word) rows cols (sidTag (eVal e 2)) (sidSeq (eVal e 2)) 0 0 0 with sat := acc.sat }
    (∀ p q, startedEntry s b i 1 0x01 = some e → mmaSources s b i e = .ok (p, q) → mmaCheck acc e.word p q = 0 →
      exec (.mma b i) s = .next (executed b i e [.accum (bufferOf e.word) (mmaResult acc (bit (wMod e.word) 1) p q)] s)) ∧
    (∀ rows cols, startedEntry s b i 1 0x02 = some e → acc.ext = some (rows, cols) → ∃ h bs,
      exec (.mmadr b i) s = .next (executed b i e (writePkt s b e 1 bs ++
        (if bit (wMod e.word) 1 = true then [] else [.accum (bufferOf e.word) Accum.clear]) ++ [pktAssay e.eid h]) s) ∧
      h = (valuePkt (hdr rows cols) false fun r c => valOf (f32Val (el r c))).1 ∧
      bs = (if wFmt e.word = 0x24 then plainPkt h (fun r c => (widen 0x24 (el r c).toNat).toNat)
        else (valuePkt (hdr rows cols) false fun r c => valOf (f32Val (el r c))).2)) ∧
    (startedEntry s b i 1 0x02 = some e → acc.ext = none → exec (.mmadr b i) s = .next (reportFault b i e.off 0x018E s)) ∧
    (∀ p, startedEntry s b i 1 0x03 = some e → sourceFmt s b i e 1 (wFmt e.word) (· == 0x24) = .ok p →
      exec (.accld b i) s = .next (executed b i e [.accum (bufferOf e.word)
        ⟨(region p.rows p.cols).map fun q => (q.1 * 128 + q.2, p.wide q.1 q.2), some (p.rows, p.cols), 0⟩] s)) ∧
    (startedEntry s b i 1 0x04 = some e →
      exec (.accz b i) s = .next (executed b i e [.accum (bufferOf e.word) ⟨[], none, 0⟩] s))

/-- After an MMA every element (m, n) of the product's region is the old element (zero with CLR, or where none was) plus the
exact sum over k of products with both tile scales, rounded once to FP32 before and once after the addition; elements outside
are zero; the extent is that of the product. (R126, R127, R128, R129) -/
def Obligations.MmaElements : Prop :=
  ∀ (acc : Accum) (clr : Bool) (p q : Pkt), p.aExt ≤ 128 → q.aExt ≤ 128 →
    let t := exMul (if isTqFmt p.fmt = true then p.scale else Ex.one) (if isTqFmt q.fmt = true then q.scale else Ex.one)
    let old := if clr = true then [] else acc.val
    (mmaResult acc clr p q).ext = some (p.aExt, q.aExt) ∧
    (∀ m n, m < p.aExt → n < q.aExt → tget (mmaResult acc clr p q).val (m * 128 + n) 0 =
      (f32Add (tget old (m * 128 + n) 0) (f32OfVal (valScale t (dot (fun k => p.atAk m k) (fun k => q.atAk n k) p.kExt))).val).val) ∧
    (∀ m n, n < 128 → (p.aExt ≤ m ∨ q.aExt ≤ n) → tget (mmaResult acc clr p q).val (m * 128 + n) 0 = 0)

/-- A started QNT of a wide packet leaves the quantised packet of R136 and its Assay update; DQT leaves the packet of the
dequantised values over the source's rows and columns, rotated back with MOD[0] (a source that is not rotated then faults with
0x0184); HAD leaves the FP32 packet of the rotated values; ASY leaves the statistics of its tile and writes no packet. With
TRAPNF set, QNT and ASY of a tile with non-finite elements fault with 0x0601 after counting them. (R134, R136, R138, R139,
R140, R202) -/
def Obligations.TemperInstructions : Prop :=
  ∀ (b : BenchId) (i : Fin 2) (e : Entry) (p : Pkt) (s : State),
    let k := 4 + i.val
    let w := e.word
    let un := bit (wMod w) 0
    let kax := bit (wMod w) 1
    let wide := fun (kax : Bool) => tileOf p kax fun r c => valOf (f32Val (p.wide r c))
    let full := fun (t : Tile) (o : Bool) => if o = true then (t.kExt, t.aExt) else (t.aExt, t.kExt)
    let dq := if un = true then rotate (tileOf p p.orient p.val) p.rotblk e.seed.toNat true else tileOf p p.orient p.val
    let hd := rotate (wide kax) (wImmBits w 2 0) e.seed.toNat un
    (startedEntry s b k 2 0x01 = some e → wideSource s b k e 1 = .ok p → (trapNf s b = false ∨ nonFinites p = 0) →
      exec (.qnt b i) s = .next (executed b k e (writePkt s b e 2 (qntPacket w p (eVal e 3) (eVal e 4) e.seed e.hist e.eid).1 ++
        [.assay (qntPacket w p (eVal e 3) (eVal e 4) e.seed e.hist e.eid).2]) s)) ∧
    (startedEntry s b k 2 0x01 = some e → wideSource s b k e 1 = .ok p → trapNf s b = true → nonFinites p ≠ 0 →
      exec (.qnt b i) s = .next (reportFault b k e.off 0x0601
        (postAssay b ⟨sidTag (eVal e 3), e.eid, [(7, nonFinites p)], 0⟩ s))) ∧
    (startedEntry s b k 2 0x02 = some e → sourcePkt s b k e 1 = .ok p → (un = true → p.rot = true) → ∃ h bs,
      exec (.dqt b i) s = .next (executed b k e (writePkt s b e 2 bs ++ [pktAssay e.eid h]) s) ∧
      (h, bs) = tileValuePkt (newPkt (wFmt w) p.rows p.cols p.tag p.seq p.stream
        ((if p.orient = true then 8 else 0) + if p.rot = true ∧ un = false then 4 else 0) (if un = true then 0 else p.rotblk)) dq p.orient) ∧
    (startedEntry s b k 2 0x02 = some e → sourcePkt s b k e 1 = .ok p → un = true → p.rot = false →
      exec (.dqt b i) s = .next (reportFault b k e.off 0x0184 s)) ∧
    (startedEntry s b k 2 0x03 = some e → sourceFmt s b k e 1 (wFmt w) (fun _ => false) = .ok p → hadBad w p = false → ∃ h bs,
      exec (.had b i) s = .next (executed b k e (writePkt s b e 2 bs ++ [pktAssay e.eid h]) s) ∧
      (h, bs) = tileValuePkt (newPkt 0x24 (full hd kax).1 (full hd kax).2 p.tag p.seq p.stream
        ((if kax = true then 8 else 0) + if un = true then 0 else 4) (if un = true then 0 else wImmBits w 2 0)) hd kax) ∧
    (startedEntry s b k 2 0x04 = some e → sourceFmt s b k e 1 (wFmt w) isWideFmt = .ok p →
      (trapNf s b = false ∨ (inputStats (wide false)).1 = 0) →
      let big := f32OfMag (magOf (tileMax (wide false)) false)
      exec (.asy b i) s = .next (executed b k e [.assay ⟨wImmBits w 15 0, e.eid,
        [(0, (inputStats (wide false)).2), (7, (inputStats (wide false)).1), (8, 1), (9, big)], big⟩] s)) ∧
    (startedEntry s b k 2 0x04 = some e → sourceFmt s b k e 1 (wFmt w) isWideFmt = .ok p → trapNf s b = true →
      (inputStats (wide false)).1 ≠ 0 → exec (.asy b i) s = .next (reportFault b k e.off 0x0601
        (postAssay b ⟨wImmBits w 15 0, e.eid, [(7, (inputStats (wide false)).1)], 0⟩ s)))

/-- A started VSEQ that passes its checks runs the chain on every lane of the output shape and leaves one packet per output
with its Assay update; VRED leaves the packet of the reduced lines; FXLOAD leaves the chain slot with the 16 constants and the
steps at its address; VFILL leaves a packet whose every element is the value. A started SWT leaves the transposed packet with
rows and columns exchanged and ORIENT flipped; SWX leaves the destination packet with the region's codes and scales copied in;
SWGA leaves a packet of the rows at the listed addresses; SWSC leaves the rows of its packet at the listed addresses; SWC
leaves the source bytes, all read before any is written, at the destination. (R141, R143, R144, R145, R146, R147, R148, R149,
R150) -/
def Obligations.FluxAndSwage : Prop :=
  (∀ (b : BenchId) (i : Fin 2) (e : Entry) (s : State),
    let k := 6 + i.val
    let w := e.word
    (∀ ps ch, startedEntry s b k 3 0x01 = some e → vseqCheck s b k e = .ok (ps, ch) →
      let lane := gridOf (vseqShape ps).1 (vseqShape ps).2 ⟨[], false⟩ fun r c => laneRun ch (vseqLane ps r c)
      let out := fun n => lanePkt (vseqHeader w ps n) (fun r c => (lane r c).sat) fun r c => (((lane r c).v)[n - 1]?).getD 0
      exec (.vseq b i) s = .next (executed b k e
        ((vseqOuts w).flatMap fun n => writePkt s b e n (out n).2 ++ [pktAssay e.eid (out n).1]) s)) ∧
    (∀ p, startedEntry s b k 3 0x02 = some e → vredSource s b k e = .ok p →
      let cols := bit (wMod w) 2
      let n := if cols = true then p.cols else p.rows
      let len := if cols = true then p.rows else p.cols
      let elem := fun l j => if cols = true then p.wide j l else p.wide l j
      let line := fun l => reduceLine (wModBits w 1 0) ((List.range len).map fun j =>
        if bit (wMod w) 3 = true then f32Abs (elem l j) else elem l j)
      ∃ h bs, exec (.vred b i) s = .next (executed b k e (writePkt s b e 2 bs ++ [pktAssay e.eid h]) s) ∧
        (h, bs) = lanePkt { newPkt (wFmt w) (if cols = true then 1 else n) (if cols = true then n else 1) (sidTag (eVal e 3)) (sidSeq (eVal e 3)) 0 0 0
          with sat := sumNat (((List.range n).map line).map (·.2)) } (fun _ _ => false)
          (fun r c => ((((List.range n).map line)[if cols = true then c else r]?).getD (0, 0)).1)) ∧
    (startedEntry s b k 3 0x03 = some e → (eVal e 1).toNat % 128 = 0 → holdsBytes (bench s b) (eVal e 1).toNat 128 = true →
      storeBad (bench s b) (eVal e 1).toNat 128 = false →
      let word := fun n => BitVec.ofNat 32 (leAt (storeRead s b (eVal e 1).toNat 128) (4 * n) 4)
      let steps := (List.range (wImmBits w 7 3)).map fun n => word (16 + n)
      steps.all stepOk = true →
      exec (.fxload b i) s = .next (executed b k e [.chain (slotOf w) ⟨(List.range 16).map word, steps⟩] s)) ∧
    (startedEntry s b k 3 0x04 = some e → ∃ h bs, exec (.vfill b i) s = .next (executed b k e (writePkt s b e 1 bs ++ [pktAssay e.eid h]) s) ∧
      (h, bs) = lanePkt (newPkt (wFmt w) (wImmBits w 7 0) (wImmBits w 15 8) (sidTag (eVal e 3)) (sidSeq (eVal e 3)) 0 0 0)
        (fun _ _ => false) fun _ _ => BitVec.ofNat 32 ((eVal e 2).toNat % 2 ^ 32))) ∧
  (∀ (b : BenchId) (e : Entry) (s : State),
    let w := e.word
    (∀ p, startedEntry s b 8 4 0x01 = some e → plainSource s b 8 e = .ok p →
      exec (.swt b) s = .next (executed b 8 e (writePkt s b e 2 (plainPkt
        { keepHdr p with rows := p.cols, cols := p.rows, flags := p.flags ^^^ 8 } fun r c => p.code (c * 128 + r))) s)) ∧
    (∀ p q, startedEntry s b 8 4 0x02 = some e → swxCheck s b 8 e = .ok (p, q) →
      let g := swxRegion w
      let h := { keepHdr q with rows := Nat.max q.rows (g.dr + g.nr), cols := Nat.max q.cols (g.dc + g.nc), sat := q.sat + p.sat,
                                spovf := q.spovf + p.spovf, under := q.under + p.under, maxabs := Nat.max q.maxabs p.maxabs }
      exec (.swx b) s = .next (executed b 8 e (writePkt s b e 2
        (swxPacket g p q { h with zero := zeroCount (parsePkt (swxPacket g p q h)) })) s)) ∧
    (∀ l, startedEntry s b 8 4 0x03 = some e → indexTable s b (eVal e 1).toNat (eVal e 3).toNat (wFmt w) = .ok l →
      (∀ a ∈ l, storeBad (bench s b) a (16 * elemWidth (wFmt w)) = false) →
      let n := 16 * elemWidth (wFmt w)
      let rows := l.flatMap fun a => storeRead s b a n
      ∃ h, exec (.swga b) s = .next (executed b 8 e (writePkt s b e 2
        (headerBytes h ++ rows ++ List.replicate ((128 - (eVal e 3).toNat) * n) 0)) s) ∧
        h.fmt = wFmt w ∧ h.rows = (eVal e 3).toNat ∧ h.cols = 128 ∧ h.tag = sidTag (eVal e 4) ∧ h.seq = sidSeq (eVal e 4)) ∧
    (∀ p l, startedEntry s b 8 4 0x04 = some e → plainSource s b 8 e = .ok p →
      indexTable s b (eVal e 2).toNat (eVal e 3).toNat p.fmt = .ok l →
      exec (.swsc b) s = .next (executed b 8 e ((List.range l.length).zipWith (fun r a => Eff.store a (rowOfPkt p r)) l) s)) ∧
    (startedEntry s b 8 4 0x05 = some e → (eVal e 1).toNat % 64 = 0 → (eVal e 2).toNat % 64 = 0 → (eVal e 3).toNat % 64 = 0 →
      holdsBytes (bench s b) (eVal e 1).toNat (eVal e 3).toNat = true →
      holdsBytes (bench s b) (eVal e 2).toNat (eVal e 3).toNat = true →
      storeBad (bench s b) (eVal e 2).toNat (eVal e 3).toNat = false →
      exec (.swc b) s = .next (executed b 8 e [.store (eVal e 1).toNat (storeRead s b (eVal e 2).toNat (eVal e 3).toNat)] s)))

/-- A started CRED folds a packet element by element into its accumulator: from a handle its one packet, from a port the
oldest packet of the channel, of which nothing is returned before it retires; with the last of its N packets folded it has
executed, and without a packet it waits as it is. CXSUM leaves the 16-byte sum of R152 and counts each clamp; HENC leaves the
parity shards, HDEC every lost shard rebuilt from the survivors, HSUM the 8-byte checksum of R164; each reads bench store
lines without an uncorrectable error. (R151, R152, R161, R162, R163, R164, R408) -/
def Obligations.CrucibleAndHallmark : Prop :=
  ∀ (b : BenchId) (e : Entry) (s : State),
    let w := e.word
    let n := (eVal e 3).toNat
    (∀ x a, startedEntry s b 9 5 0x01 = some e → ePort e 1 = none → credN w = 1 → e.hist = 0 → credCheck s b 9 e = .ok (x, a) →
      let r := credFold (wModBits w 1 0) x a
      exec (.cred b) s = .next (modEntry b 9 e.eid
        (fun _ => { e with hist := 1, phase := .executed, effs := writePkt s b e 2 r.2 ++ [pktAssay e.eid r.1] }) s)) ∧
    (∀ x a port c, startedEntry s b 9 5 0x01 = some e → ePort e 1 = some port → chan? s b port.id = some c → c.packets ≠ [] →
      credCheck s b 9 e = .ok (x, a) → e.hist + 1 = credN w →
      let r := credFold (wModBits w 1 0) x a
      exec (.cred b) s = .next (modEntry b 9 e.eid
        (fun _ => { e with hist := credN w, phase := .executed, effs := writePkt s b e 2 r.2 ++ [pktAssay e.eid r.1] })
        (readPacket b port.id s))) ∧
    (∀ x a port c bs, startedEntry s b 9 5 0x01 = some e → ePort e 1 = some port → chan? s b port.id = some c → c.packets = [bs] →
      credCheck s b 9 e = .ok (x, a) → e.hist + 1 < credN w →
      exec (.cred b) s = .next (modEntry b 9 e.eid
        (fun _ => { e with hist := e.hist + 1, effs := writePkt s b e 2 (credFold (wModBits w 1 0) x a).2 }) (readPacket b port.id s))) ∧
    (∀ port c, startedEntry s b 9 5 0x01 = some e → ePort e 1 = some port → chan? s b port.id = some c → c.packets = [] →
      exec (.cred b) s = .next (modEntry b 9 e.eid (fun _ => e) s)) ∧
    (∀ p, startedEntry s b 9 5 0x02 = some e → cxsumCheck s b 9 e = .ok p →
      let v := fun r c => valOf (f32Val (p.wide r c))
      let el := fun r c => fixOf (if bit (wMod w) 0 = true then valMul (v r c) (v r c) else v r c)
      let sum := (region p.rows p.cols).foldl (fun t q => t + (el q.1 q.2).1) (signed 128 (leNat (storeRead s b (eVal e 2).toNat 16)))
      let clamped := ((region p.rows p.cols).filter fun q => (el q.1 q.2).2.1).length
      exec (.cxsum b) s = .next (executed b 9 e [.store (eVal e 2).toNat (leBytes 16 (unsign 128 (fixClamp sum).1)),
        .clamps (clamped + if (fixClamp sum).2 = true then 1 else 0)] s)) ∧
    (startedEntry s b 12 7 0x01 = some e → shardCheck s b e = 0 → (∀ i < shardK w, shardBad s b e i = false) →
      exec (.henc b) s = .next (executed b 12 e ((List.range (shardM w)).map fun i =>
        shardStore e (shardK w + i) (parityOf n i ((List.range (shardK w)).map (shardBytes s b e)))) s)) ∧
    (startedEntry s b 12 7 0x02 = some e → shardCheck s b e = 0 →
      (∀ i ∈ ((List.range (shardK w + shardM w)).filter fun i => !bit (eraseMask w) i).take (shardK w), shardBad s b e i = false) →
      let lost := (List.range (shardK w + shardM w)).filter fun i => bit (eraseMask w) i
      let alive := ((List.range (shardK w + shardM w)).filter fun i => !bit (eraseMask w) i).take (shardK w)
      let data := (invertMatrix (shardK w) (alive.map (genRow (shardK w)))).map fun r => combine n (r.zip (alive.map (shardBytes s b e)))
      exec (.hdec b) s = .next (executed b 12 e (lost.map fun i =>
        shardStore e i (if i < shardK w then (data[i]?).getD [] else parityOf n (i - shardK w) data)) s)) ∧
    (startedEntry s b 12 7 0x03 = some e → hsumCheck s b e = 0 →
      let l := storeRead s b (eVal e 1).toNat (eVal e 2).toNat
      let prev := if bit (wMod w) 2 = true then leNat (storeRead s b n 8) else 0
      exec (.hsum b) s = .next (executed b 12 e
        [.store n (leBytes 8 (if wModBits w 1 0 = 0 then crc32cFrom l (prev % 2 ^ 32) else crc64 l prev))] s))

/-- A started SPRD, SPWR, SPTLD or SPTST makes one split request cut at the 2 MiB boundaries of its pointer, with its record
and completion predicate, and starts its segments (SPTLD first those of the 64 header bytes, SPTST those of its packet); SPXF
puts its packet on the way to the slot and has executed; SPPF warms each page of its range and has executed. A near segment
that has been translated, is allowed by the state of its page and is admitted by the partition's regulators moves, and a write
segment lands with its bytes in device memory; one that its page refuses ends untouched with that status, and one that the
regulators do not admit waits with everything else as it was. No segment crosses a 2 MiB boundary. (R101, R102, R154, R155,
R159, R160) -/
def Obligations.SprueInstructions : Prop :=
  ∀ (b : BenchId) (i : Fin 2) (e : Entry) (t : Time) (s : State),
    let k := 10 + i.val
    let u := atTime t s
    let starts := fun (segs : List Seg) (wr : Bool) (buf : Option (List Byte)) (head : Bool) (ptr : Nat) =>
      startSegs s.nextReq (modEntry b k e.eid (fun x => { x with reqs := [s.nextReq] }) { u with nextReq := s.nextReq + 1, reqs := tset s.reqs s.nextReq {
        prog := (bench s b).prog, role := (bench s b).role, faulted := false, first := none, land := [], bench := b, eid := e.eid, part := benchPart s b, ord := k, off := e.off, write := wr, segs := segs, record := some (wImmBits e.word 23 0),
        pred := wIndex e.word 4, soft := wSoft e.word, done := false, rank := (if ptrSpace ptr = 0 then none else some e.rank),
        ordered := false, nearDev := false, buf := buf, head := head } })
    (sprueEntry s b k 1 = some e → exec (.sprd b i t) s =
      .next (starts (segsOf (ptrOff (eVal e 2).toNat) (eVal e 1).toNat (eVal e 3).toNat) false none false (eVal e 2).toNat)) ∧
    (sprueEntry s b k 2 = some e → exec (.spwr b i t) s =
      .next (starts (segsOf (ptrOff (eVal e 1).toNat) (eVal e 2).toNat (eVal e 3).toNat) true none false (eVal e 1).toNat)) ∧
    (sprueEntry s b k 3 = some e → exec (.sptld b i t) s =
      .next (starts (segsOf (ptrOff (eVal e 2).toNat) 0 64) false (some (List.replicate 64 0)) true (eVal e 2).toNat)) ∧
    (∀ p, sprueEntry s b k 4 = some e → sourceFmt s b k e 1 (wFmt e.word) (fun _ => true) = .ok p → exec (.sptst b i t) s =
      .next (starts (segsOf (ptrOff (eVal e 2).toNat) 0 p.data.size) true (some p.data.toList) false (eVal e 2).toNat)) ∧
    (∀ p port c id ch, sprueEntry s b k 5 = some e → sourceFmt s b k e 1 (wFmt e.word) (fun _ => true) = .ok p → ePort e 2 = some port →
      portChan s b port = some (c, id, ch) → exec (.spxf b i) s = .next (modEntry b k e.eid (fun x => { x with phase := .executed })
        (modChan c id (fun ch => { ch with writing := ch.writing ++ [p.data.toList] }) s))) ∧
    (sprueEntry s b k 6 = some e → exec (.sppf b i) s = .next (modEntry b k e.eid (fun x => { x with phase := .executed })
      ((if ptrSpace (eVal e 2).toNat = 0 then (piecesOf (ptrOff (eVal e 2).toNat) (eVal e 3).toNat).map fun c => c.1 / 2 ^ 21 else []).foldl
        (fun s v => warmPage b k v s) s))) ∧
    (∀ q n r g l bs, Memory.wf s.mem = true → tget? s.reqs q = some r → r.segs[n]? = some g → g.state = .moving → r.rank = none →
      r.write = true → r.head = false → ownDenied u r.part g.va true (ownNode s) = false → segLeaf u r.part g.va true = .ok l →
      nearRead r g.loc g.len u = .ok bs → g.va % 2 ^ 21 + bs.length ≤ 2 ^ 21 →
      ∃ v, exec (.segmentEnd q n t) s = .next v ∧
        (admittedAt u r.part (paOf l g.va) = true → memRead v (paOf l g.va) bs.length = bs) ∧
        (admittedAt u r.part (paOf l g.va) = false → v = waitAt r.part (paOf l g.va) u)) ∧
    (∀ q n r g st, tget? s.reqs q = some r → r.segs[n]? = some g → g.state = .moving → r.rank = none → r.head = false →
      ownDenied u r.part g.va r.write (ownNode s) = false → segLeaf u r.part g.va r.write = .error st → r.soft = true →
      1 < r.segs.length → (∃ m h, m ≠ n ∧ r.segs[m]? = some h ∧ segEnded h = false) →
      ∃ v, exec (.segmentEnd q n t) s = .next v ∧ v.mem = s.mem ∧
        v.reqs = tset s.reqs q { r with segs := listMod r.segs n fun g => { g with state := .refused, status := st } }) ∧
    (∀ off loc n, ∀ g ∈ segsOf off loc n, g.va % 2 ^ 21 + g.len ≤ 2 ^ 21)

/-- Until it retires, an instruction of these stations changes nothing but its bench, the fault reports on their way and the
posted or lost Assay updates (and, when its bench store holds an uncorrectable error, the fence of its station and what that
reports): no memory, no program, no other bench, and in its own bench no scalar, predicate, handle, bench store, accumulator,
chain slot, seed or granule. (R54, R112) -/
def Obligations.StationFrame : Prop :=
  ∀ (c : Instr) (b : BenchId) (s : State), stationOf c = some b → ∃ t, exec c s = .next t ∧
    ((bench s b).badLines = [] → t = { s with benches := t.benches, reports := t.reports, parts := t.parts, ctl := t.ctl }) ∧
    t.mem = s.mem ∧ t.progs = s.progs ∧ t.links = s.links ∧
    (∀ n, n ≠ b.val → bench t n = bench s n) ∧
    let x := bench s b
    let y := bench t b
    y.scalars = x.scalars ∧ y.preds = x.preds ∧ y.handles = x.handles ∧ y.ports = x.ports ∧ y.store = x.store ∧ y.accs = x.accs ∧
      y.chains = x.chains ∧ y.seeds = x.seeds ∧ y.grans = x.grans ∧ y.sysq = x.sysq ∧ y.pc = x.pc ∧ y.prog = x.prog

/-- When the oldest reports of a hub reach its arbiter they are gone; a program without a recorded fault takes that of the
winner among its reports, counts the others, goes to ending and its benches keep nothing queued; a program that has one counts
them all; a program without a report stays as it was. The winner is a report of the program, and no other report of the
program has a lower role, or the same role and a lower ordinal. A program that is ending, or whose roles have all ended with
nothing queued, and whose requests, operations, collectives and reports are done ends with the status of its fault (with that
of the command that stopped it, or 0, when it has none) and is gone, its benches without a program, granule, channel,
accumulator or store; until then PROGRAM_END does nothing. (R59, R60, R61, R113, R114) -/
def Obligations.FaultArbitration : Prop :=
  (∀ (hub : Fin 2) (n : Nat) (t : Time) (s : State),
    let mine := s.reports.filter (reportTo s hub)
    let now := mine.take n
    ∃ u, exec (.faultArbitration hub n t) s = .next (collStops (atTime t s) u) ∧
      u.reports = s.reports.filter (fun r => (tget? s.progs r.prog).isSome && !(reportTo s hub r)) ++ mine.drop n ∧
      (∀ p x w, tget? s.progs p = some x → winner p now = some w → x.fault = none →
        tget? u.progs p = some { x with fault := some ⟨w.role, w.ord, w.off, w.status⟩, state := .ending, preempt := none, standing := false,
                                        fcount := x.fcount + ((now.filter fun r => r.prog == p).length - 1) } ∧
        ∀ b ∈ x.place, (bench u b).queues = [] ∧ (bench u b).sysq = [] ∧ (bench u b).taken = none) ∧
      (∀ p x w, tget? s.progs p = some x → winner p now = some w → x.fault ≠ none →
        tget? u.progs p = some { x with fcount := x.fcount + (now.filter fun r => r.prog == p).length }) ∧
      (∀ p, winner p now = none → tget? u.progs p = tget? s.progs p)) ∧
  (∀ (n : Nat) (l : List FaultReport) (w : FaultReport), winner n l = some w → w ∈ l ∧ w.prog = n ∧
    ∀ r ∈ l, r.prog = n → w.role < r.role ∨ (w.role = r.role ∧ w.ord ≤ r.ord)) ∧
  (∀ (n : Nat) (t : Time) (s : State) (x : Prog), tget? s.progs n = some x →
    let ended := (x.state = .running ∨ x.state = .preempting) ∧ ∀ b ∈ x.place, (bench s b).seq = 4 ∧ benchIdle (bench s b) = true
    let done := (x.state = .ending ∨ ended) ∧ outstanding s n x = false ∧ s.reports.any (fun r => r.prog == n) = false
    let st : Status := match x.fault, x.endWith with
      | some f, _ => f.status
      | none, some e => if x.state = .ending then e else 0
      | none, none => 0
    (¬done → exec (.programEnd n t) s = .next (atTime t s)) ∧
    (done → ∃ u, exec (.programEnd n t) s = .next u ∧ u = endProg n x st (atTime t s) ∧ u.progs = terase s.progs n ∧
      ∀ b ∈ x.place, (bench u b).prog = none ∧ (bench u b).grans = [] ∧ (bench u b).chans = [] ∧ (bench u b).accs = [] ∧
        (bench u b).store = []))

/-- A posted launch record at the head of a watched list becomes a queued program and HEAD moves on. PROGRAM_PLACE completes a
queued program that can never be placed with 0x0282, whatever its turn; otherwise the first waiting program completes with the
status of an image that is refused, is placed on the benches chosen for its roles when its groups need not wait, or asks
programs of lower priority to stop when it does not fit; a saved one is placed to be restored. A placed program starts with
every sequencer at its first word; a role that stands at its yield under a request stops once all it depends on is done,
behind the YIELD and any back edge taken there; a program not stopped within YTO has its request withdrawn; with every role
stopped and save pages enough its state is saved and its benches are free, once the regulators admit the accesses; a restored
program runs again, each role where it stopped; QUANTUM marks a program. (R56, R57, R58, R63, R64, R65, R66, R255, R256, R257,
R261, R433) -/
def Obligations.ProgramLife : Prop :=
  ∀ (t : Time) (s : State),
    let u := atTime t s
    (∀ (q : Fin 32) (l : Nat) li h r, intakeList s q l = some li → li.stopped = false → l < 8 → (session s q).state = .open_ →
      let P := (session s q).part
      flag s .schCtl P 0 7 = true → isUp s 9 P = true →
      spaceRead u P li.base 12 = .ok h → leAt h 0 4 = (li.head + 1) % 2 ^ 32 → 1 ≤ li.entries →
      spaceRead (spaceSeen P li.base 12 u) P (recordAt li li.head) 64 = .ok r → leAt r 13 1 = 1 →
      ∃ v, exec (.launchRecordTake q l t) s = .next v ∧ v.nextProg = s.nextProg + 1 ∧
        intakeList v q l = some { li with head := li.head + 1 } ∧
        v.progs = tset s.progs (freeProg s) (newProg P q l li.head (leAt r 0 8) (leAt r 8 4)
          (Nat.min (leAt r 12 1 % 8) (Nat.min li.cap (fld s .schCtl P 0 2 0))) (leAt r 16 8) s.nextProg)) ∧
    (∀ (p : PartId) n x, flag s .schCtl p 0 7 = true → isUp s 9 p = true → hopeless u p = some (n, x) →
      exec (.programPlace p t) s = .next (completeProg n x 0x0282 (imageSeen p x.image x.length u))) ∧
    (∀ (p : PartId) n x st, flag s .schCtl p 0 7 = true → isUp s 9 p = true → hopeless u p = none → firstWaiting u p = some (n, x) →
      x.state = .queued → readImage u p x.image x.length = .error st →
      exec (.programPlace p t) s = .next (completeProg n x st (imageSeen p x.image x.length u))) ∧
    (∀ (p : PartId) n x d, flag s .schCtl p 0 7 = true → isUp s 9 p = true → hopeless u p = none → firstWaiting u p = some (n, x) →
      x.state = .queued → readImage u p x.image x.length = .ok d →
      let gs := d.groups.map (translate u p)
      let v := imageSeen p x.image x.length u
      let y := { x with roles := d.roles, yields := d.yields, groups := gs }
      (groupsWait u p gs = true → exec (.programPlace p t) s = .next u) ∧
      (∀ bs, groupsWait u p gs = false → assign v d.roles d.roles (freeBenches v p) [] [] = some bs →
        exec (.programPlace p t) s =
          .next (setProg n { y with state := .placing, place := bs } (placeRoles n x.image gs d.roles 0 bs v))) ∧
      (groupsWait u p gs = false → assign v d.roles d.roles (freeBenches v p) [] [] = none →
        exec (.programPlace p t) s = .next (tryPreempt p x.pri d.roles v))) ∧
    (∀ (p : PartId) n x bs, flag s .schCtl p 0 7 = true → isUp s 9 p = true → hopeless u p = none → firstWaiting u p = some (n, x) →
      x.state = .saved → assign u x.roles x.roles (freeBenches u p) [] [] = some bs → ∃ v, exec (.programPlace p t) s = .next v ∧
      tget? v.progs n = some { x with state := .restoring, place := bs } ∧
      (bs.length ≤ x.saved.length → ∀ b ∈ bs, (bench v b).prog = some n ∧ (bench v b).fvalid = false ∧ (bench v b).issued = 0)) ∧
    (∀ n x, tget? s.progs n = some x → x.state = .placing → ∃ v, exec (.programStart n t) s = .next v ∧
      tget? v.progs n = some { x with state := if x.preempt.isSome then .preempting else .running, started := u.time, placed := u.time } ∧
      ∀ b ∈ x.place, (bench v b).seq = 1 ∧ (bench v b).bufAt = 0 ∧ (bench v b).pc = (bench s b).pc) ∧
    (∀ n r x b y, tget? s.progs n = some x → x.place[r]? = some b → (bench s b).yielded = some y → x.preempt.isSome = true →
      (bench s b).seq = 2 → benchIdle (bench s b) = true → driftWait s b = false → collBusy s b = false →
      (∀ c ∈ (bench s b).chans, bit (match yieldEntry x r y with | some d => d.live | none => 0) c.1 = true ∨
        (c.2.packets = [] ∧ c.2.writing = [])) →
      exec (.roleStopAtYield n r) s =
        .next (setBench b { seqNext ((bench s b).pc + 16) (bench s b) with seq := 3 } s)) ∧
    (∀ n x t0, tget? s.progs n = some x → x.preempt = some t0 → x.standing = false → notStopped u x ≠ 0 →
      t0 + fld s .schCtl x.part 0 23 16 * 1000000 ≤ u.time → ∃ v, exec (.yieldTimeout n t) s = .next v ∧
      tget? v.progs n = some { x with preempt := none, standing := false, lastTimeout := some u.time, state := if x.state = .preempting then .running else x.state }) ∧
    (∀ n x fs v, tget? s.progs n = some x → x.preempt.isSome = true → x.state = .preempting → x.endWith = none →
      (∀ b ∈ x.place, roleStopped (bench s b) = true) →
      let need := x.place.map fun b => stoppedPages x (bench s b)
      let parts := (x.place.zip fs).flatMap fun c => savedParts c.2 (stoppedBytes x (bench s c.1))
      saveUsed s x.part + sumNat need ≤ fld s .schSaveq x.part 0 15 0 → takeAll x.part need u [] = some (fs, v) →
      ((∀ c ∈ parts, admittedAt u x.part c.1 = true) → ∃ w, exec (.preemptSaveComplete n t) s = .next (collStops u w) ∧
        tget? w.progs n = some { x with state := .saved, saved := x.place.map (fun b => savedBench x b (bench s b)), savePages := fs.flatten.length,
                                        saveFrames := fs, place := [], quantum := false, preempt := if x.standing then x.preempt else none } ∧
        ∀ b ∈ x.place, x.place.length ≤ fs.length → (bench w b).prog = none) ∧
      ((∃ c ∈ parts, admittedAt u x.part c.1 = false) → ∃ w, exec (.preemptSaveComplete n t) s = .next (collStops u w) ∧
        w.progs = s.progs ∧ w.benches = s.benches)) ∧
    (∀ n x, tget? s.progs n = some x → x.state = .restoring →
      (∀ c ∈ (x.saved.zip x.saveFrames).flatMap fun c => savedParts c.2 (stoppedBytes x c.1), admittedAt u x.part c.1 = true) →
      ∃ v, exec (.restoreComplete n t) s = .next v ∧
      tget? v.progs n = some { x with state := if x.standing then .preempting else .running, saved := [], savePages := 0, saveFrames := [], placed := u.time,
                                      preempt := if x.standing then some u.time else none } ∧
      ∀ (r : Nat) b o f, x.place.Nodup → x.place[r]? = some b → x.saved[r]? = some o → x.saveFrames[r]? = some f →
        (bench v b).pc = o.pc ∧ (bench v b).scalars = o.scalars ∧ (bench v b).loops = o.loops ∧ (bench v b).accs = o.accs) ∧
    (∀ n x, tget? s.progs n = some x → x.state = .running → fld s .schCtl x.part 0 15 8 ≠ 0 →
      x.placed + fld s .schCtl x.part 0 15 8 * 1000000 ≤ u.time → exec (.quantumExpire n t) s = .next (setProg n { x with quantum := true } u))

/-- SEEDSET loads its slot and retires, and waits while an instruction issued before it has still to take the slot's old
value; ASYCLR and NUMHIST, while ASYEN is 1 and the role's earlier updates are written, clear or commit every record of their
range and retire, with ASYEN 0 they fault with 0x0602; ASYSYNC retires once those updates are written and waits until then; a
hub applies the oldest posted update of a TAG of its parity. (R186, R187, R194, R207, R208, R209, R210) -/
def Obligations.AssayCommands : Prop :=
  ∀ (b : BenchId) (e : Entry) (s : State),
    let p := benchPart s b
    let w := e.word
    (sysEntry s b 9 0x40 = some e → seedWanted (bench s b) (wImmBits w 3 0) e = true → exec (.seedset b) s = .next s) ∧
    (sysEntry s b 9 0x40 = some e → seedWanted (bench s b) (wImmBits w 3 0) e = false → exec (.seedset b) s =
      .next (sysRetire b (setBench b { bench s b with seeds := tset (bench s b).seeds (wImmBits w 3 0) (eVal e 2) } s))) ∧
    (sysEntry s b 9 0x41 = some e → flag s .numCtl p 0 0 = true → roleSynced s b = true → exec (.asyclr b) s =
      .next (sysRetire b ((tagRange e).foldl (fun u tag =>
        (spaceWrite p (assayAddr u p tag) (List.replicate (if bit (wMod w) 0 = true then 128 else 64) 0) u).2) s))) ∧
    (sysEntry s b 9 0x42 = some e → flag s .numCtl p 0 0 = true → roleSynced s b = true → exec (.numhist b) s =
      .next (sysRetire b ((tagRange e).foldl (fun u tag => commitAt p (assayAddr u p tag) u) s))) ∧
    (sysEntry s b 9 0x41 = some e → flag s .numCtl p 0 0 = true → roleSynced s b = false → exec (.asyclr b) s = .next s) ∧
    (sysEntry s b 9 0x42 = some e → flag s .numCtl p 0 0 = true → roleSynced s b = false → exec (.numhist b) s = .next s) ∧
    (sysEntry s b 9 0x41 = some e → flag s .numCtl p 0 0 = false → exec (.asyclr b) s = .next (reportFault b 13 e.off 0x0602 s)) ∧
    (sysEntry s b 9 0x42 = some e → flag s .numCtl p 0 0 = false → exec (.numhist b) s = .next (reportFault b 13 e.off 0x0602 s)) ∧
    (sysEntry s b 9 0x43 = some e → exec (.asysync b) s = .next (if roleSynced s b = true then sysRetire b s else s)) ∧
    (∀ (q : PartId) (hub : Fin 2) (t : Time) n x, firstIdx (fun (y : Nat × AssayUpd) => y.2.tag % 2 == hub) (partition s q).assayQ = some n →
      (partition s q).assayQ[n]? = some x → exec (.assayUpdateApply q hub t) s =
      .next (updateAt q (assayAddr s q x.2.tag) x.2
        (setPartition q { partition s q with assayQ := listDrop (partition s q).assayQ n } (atTime t s))))

/-- An update of a 128-byte record raises each counter by what it adds, held at its largest value, and leaves every other byte
as it was; committing puts the pending maximum first in the history, drops the oldest entry and clears the pending maximum.
(R205, R206, R194) -/
def Obligations.AssayRecord : Prop :=
  (∀ (bs : List Byte) (k n : Nat), bs.length = 128 → k ≤ 8 →
    let f := assayField k
    (assayAdd bs k n).length = 128 ∧ leAt (assayAdd bs k n) f.1 f.2 = Nat.min (256 ^ f.2 - 1) (leAt bs f.1 f.2 + n) ∧
    ∀ i, (i < f.1 ∨ f.1 + f.2 ≤ i) → (assayAdd bs k n)[i]? = bs[i]?) ∧
  (∀ (p a : Nat) (s : State) (bs : List Byte), spaceRead s p a 128 = .ok bs →
    commitAt p a s = (spaceWrite p (a + 60) (List.replicate 4 0 ++ sliceBytes bs 60 4 ++ sliceBytes bs 64 60) (spaceSeen p a 128 s)).2)

/-- GALLOC grants the lowest run of its half that is long enough and answers its address; GFREE of granules that GALLOC gave,
with the instructions before it retired, returns them; PALLOC of an unmapped, aligned range within the quotas maps it and
answers the count; PFREE unmaps its range and retires when no translated segment is left in it (until then it stays, started);
PPIN pins a resident range within the limit, or unpins one that neither the Assay table nor an intake list uses; PPROT sets WR
of the range; PQUERY answers the leaf with FRAME zero, or zero. (R222, R223, R224, R230, R231, R233, R234, R235, R238) -/
def Obligations.AllocationInstructions : Prop :=
  ∀ (b : BenchId) (e : Entry) (t : Time) (s : State),
    let p := benchPart s b
    let u := atTime t s
    let w := e.word
    let n := wImmBits w 8 0
    let va := (eVal e 2).toNat
    let vs := pageRange va (eVal e 3).toNat
    (∀ g, sysEntry s b 9 0x08 = some e → n ≤ 192 → freeRun (bench s b) (bit (wMod w) 0) n = some g → exec (.galloc b) s =
      .next (sysResult b e (BitVec.ofNat 64 (g * 65536)) (setBench b ((List.range n).foldl (fun x k => grant (g + k) .alloc x) (bench s b)) s))) ∧
    (sysEntry s b 9 0x08 = some e → n ≤ 192 → freeRun (bench s b) (bit (wMod w) 0) n = none → exec (.galloc b) s =
      .next (if wSoft w = true then sysResult b e 0 s else reportFault b 13 e.off 0x0281 s)) ∧
    (sysEntry s b 9 0x09 = some e → n ≤ 192 → va % 65536 = 0 →
      (∀ k < n, tget? (bench s b).grans (va / 65536 + k) = some .alloc) → earlierRetired (bench s b) e.eid = true → exec (.gfree b) s =
      .next (sysRetire b (setBench b (((List.range n).map (· + va / 65536)).foldl (fun x g => ungrant g x) (bench s b)) s))) ∧
    (∀ h c v, sysEntry s b 9 0x01 = some e → (bit (wMod w) 5 = true → wModBits w 1 0 ≠ 1 ∧ bit (wMod w) 4 = false) →
      rangeBad va (eVal e 3).toNat = false → (∀ a ∈ vs, leaf? s p a = none ∧ tget? (partition s p).going a = none) →
      splitTiers u p (wModBits w 1 0) (eVal e 3).toNat (bit (wMod w) 5) (wSoft w) = .ok (h, c) →
      placePages ⟨bit (wMod w) 2, bit (wMod w) 3, bit (wMod w) 4, bit (wMod w) 5, ((bench s b).prog).getD 0,
        (tget? s.progs (((bench s b).prog).getD 0)).bind (·.sess)⟩ p (pageRange va (h + c)) h 0 u = .placed v →
      exec (.palloc b t) s = .next (sysResult b e (BitVec.ofNat 64 (h + c)) v)) ∧
    (sysEntry s b 9 0x02 = some e → e.phase ≠ .started → rangeBad va (eVal e 3).toNat = false → allMapped s p vs = true →
      vs.any (pageInUse s p) = false →
      let v := vs.foldl (fun s a => revokePage p a (unmapPage p a s)) s
      exec (.pfree b) s = .next (if vs.any (fun a => thas (partition v p).going a) = true
        then setBench b { bench v b with taken := some { e with phase := .started } } v else sysRetire b v)) ∧
    (sysEntry s b 9 0x02 = some e → e.phase = .started →
      let v := reapPages p s
      exec (.pfree b) s = .next (if vs.any (fun a => thas (partition v p).going a) = true then v else sysRetire b v)) ∧
    (sysEntry s b 9 0x03 = some e → bit (wMod w) 0 = true → rangeBad va (eVal e 3).toNat = false → allMapped s p vs = true →
      vs.any (pageInUse s p) = false → exec (.ppin b t) s = .next (sysRetire b (vs.foldl (fun s a => pinPage p a false s) u))) ∧
    (sysEntry s b 9 0x03 = some e → bit (wMod w) 0 = false → rangeBad va (eVal e 3).toNat = false → allMapped s p vs = true →
      (∀ a ∈ vs, ∀ l, leaf? s p a = some l → l.res = 0 ∧ l.t2d = false) →
      pinnedPages s p + (vs.filter fun a => match leaf? s p a with | some l => !l.pin | none => false).length ≤ pinLimit s p →
      exec (.ppin b t) s = .next (sysRetire b (vs.foldl (fun s a => pinPage p a true s) u))) ∧
    (sysEntry s b 9 0x04 = some e → rangeBad va (eVal e 3).toNat = false → allMapped s p vs = true → exec (.pprot b) s =
      .next (sysRetire b (vs.foldl (fun s a => match leaf? s p a with
        | some l => setLeaf p a { l with wr := bit (wMod w) 0 } (dropTlb p a s) | none => s) s))) ∧
    (sysEntry s b 9 0x05 = some e → exec (.pquery b) s =
      .next (sysResult b e (match leaf? s p (va / 2 ^ 21) with | some l => BitVec.ofNat 64 (leafWord l 0) | none => 0) s))

/-- A walk puts the leaf into the Sprue's TLB and the non-leaf entry into the hub's walk cache and touches the segment. Drift
takes a page that is asked for, or hinted while nothing is asked for and no demotion is due, to a frame of HBM; what waits for
a page that is not mapped, or fenced, fails. A fragment that the regulators admit copies its 64 KiB, unless an error found on
the way ends the move; a move of 32 fragments switches the leaf to the new frame and sends the old one to scrubbing (to the
withdrawn ones when it is fenced). Above HIWM, with no demand fetch waiting, the coldest page begins to move out; with no
tier-2 frame for it a Warning is raised, once. HEAT is halved each DECAY period; the frame freed first is scrubbed to zero and
free, or withdrawn when it is fenced; every bucket pays what it owes and gains the rest of its rate up to its depth. (R228,
R239, R241, R242, R243, R244, R245, R251) -/
def Obligations.PagingEvents : Prop :=
  ∀ (t : Time) (s : State),
    let u := atTime t s
    (∀ q n r g l, tget? s.reqs q = some r → r.segs[n]? = some g → g.state = .walking → leaf? s r.part (g.va / 2 ^ 21) = some l →
      exec (.pageWalk q n t) s = .next (touchSegment q n r g (modBench r.bench
        (fun x => { x with tlbs := tset x.tlbs (r.ord % 2) (touchLru 256 (g.va / 2 ^ 21) (tget x.tlbs (r.ord % 2) [])) })
        { u with walks := tset s.walks (r.part % 2) (touchLru 64 (r.part * 2 ^ 18 + g.va / 2 ^ 21 / 512) (tget s.walks (r.part % 2) [])) }))) ∧
    (∀ (p : PartId) v,
      let x := partition s p
      let asked := x.demand.contains v = true ∨ (x.prefetch.contains v = true ∧ x.demand = [] ∧ x.demoting = false)
      (∀ l g f, asked → leaf? s p v = some l → l.res = 1 → l.t2d = false → l.fen = false →
        frameFenced s l.frame = false → hbmRoom s p = some (g, f) → ∃ y, exec (.driftDemandFetch p v t) s = .next y ∧
        tget? (partition y p).moves v = some ⟨true, f, [], false⟩ ∧ leaf? y p v = some { l with res := 2 } ∧
        tget? y.frames f = some .used ∧ (partition y p).lastGroup = some g ∧ (partition y p).demand = x.demand.filter (· != v) ∧
        (partition y p).prefetch = x.prefetch.filter (· != v)) ∧
      (asked → leaf? s p v = none → exec (.driftDemandFetch p v t) s = .next (failWaiting p v 0x0501 u)) ∧
      (∀ l, asked → leaf? s p v = some l → l.res = 1 → l.t2d = false → (l.fen = true ∨ frameFenced s l.frame = true) →
        exec (.driftDemandFetch p v t) s = .next (failWaiting p v 0x0301 u))) ∧
    (∀ (p : PartId) v (k : Fin 32) m l, tget? (partition s p).moves v = some m → leaf? s p v = some l → m.frags.contains k.val = false →
      let a := (if m.toHbm = true then m.target else l.frame) * 2 ^ 21 + k * 65536
      let y := flawsSeen (l.frame * 2 ^ 21 + k * 65536) 65536 (spendAt p a 65536 u)
      (admittedAt u p a = false → exec (.driftFragmentArrive p v k t) s = .next (waitAt p a u)) ∧
      (admittedAt u p a = true → thas (partition y p).moves v = false → exec (.driftFragmentArrive p v k t) s = .next y) ∧
      (admittedAt u p a = true → thas (partition y p).moves v = true →
        ∃ x, exec (.driftFragmentArrive p v k t) s = .next x ∧ tget? (partition x p).moves v = some { m with frags := insertNat k m.frags } ∧
        x.mem = (copyFrame l.frame m.target (k * 65536) 65536 y).mem ∧ x.poison = (copyFrame l.frame m.target (k * 65536) 65536 y).poison)) ∧
    (∀ (p : PartId) v m l, tget? (partition s p).moves v = some m → leaf? s p v = some l → m.frags.length = 32 →
      ∃ x, exec (.driftMoveComplete p v t) s = .next x ∧
      leaf? x p v = some { l with res := if m.toHbm = true then 0 else 1, frame := m.target } ∧
      tget? x.frames l.frame = some (if frameFenced s l.frame = true then .withdrawn else .scrub) ∧
      (frameFenced s l.frame = false → tget x.scrubQ (frameNumber l.frame % 2) [] = tget s.scrubQ (frameNumber l.frame % 2) [] ++ [l.frame])) ∧
    (∀ (p : PartId),
      let use := hbmUse s p - ((partition s p).moves.filter fun m => !m.2.toHbm).length
      (∀ v l f, lowMark s p < highMark s p → highMark s p * hbmQuota s p < use * 100 → (partition s p).demand = [] →
        coldest s p = some (v, l) → nextTier2 s = some f → t2Use s p < t2Quota s p →
        ∃ x, exec (.driftDemote p t) s = .next x ∧ tget? (partition x p).moves v = some ⟨false, f, [], false⟩ ∧
          leaf? x p v = some { l with res := 3 } ∧ tget? x.frames f = some .used) ∧
      (lowMark s p < highMark s p → highMark s p * hbmQuota s p < use * 100 → (nextTier2 s = none ∨ t2Quota s p ≤ t2Use s p) →
        let y := setPartition p { partition s p with demoting := true } u
        exec (.driftDemote p t) s = .next (if (partition s p).highWarn = true then y
          else raise 0xC006 2 (some p) 0 0 (setPartition p { partition y p with highWarn := true } y)))) ∧
    (∀ p : PartId, fld s .pgeCtl p 0 7 0 ≠ 0 → (partition s p).decayed + fld s .pgeCtl p 0 7 0 * 100000 ≤ u.time →
      exec (.heatDecay p t) s = .next (setPartition p { partition s p with
        decayed := u.time, leaves := (partition s p).leaves.map fun l => (l.1, { l.2 with heat := l.2.heat / 2 }) } u)) ∧
    (∀ (hub : Fin 2) f q, tget s.scrubQ hub [] = f :: q → exec (.frameScrub hub) s =
      .next (zeroFrame f { s with scrubQ := tset s.scrubQ hub q,
                                  frames := if frameFenced s f = true then tset s.frames f .withdrawn else terase s.frames f })) ∧
    (∃ x, exec .tokenRefill s = .next x ∧ ∀ (p : PartId) g, g < 96 → fld s .alcBw p 0 8 0 ≠ 0 →
      let add := 5 * fld s .alcBw p 0 8 0
      bucket x p g = Nat.min (bucketDepth s p) (bucket s p g + (add - owedAt s p g)) ∧ owedAt x p g = owedAt s p g - add)

/-- After a frame is scrubbed every byte of it reads zero, no line of it is poisoned, and every byte and line of other frames
is as before; a copy of a fragment leaves the target bytes equal to the source bytes, and the bytes outside the target as they
were. (R228, R269, R270) -/
def Obligations.ScrubbedFramesReadZero : Prop :=
  (∀ (f : Nat) (s : State) (a : Nat), memGet (zeroFrame f s) a = (if a / 2 ^ 21 = f then 0 else memGet s a)) ∧
  (∀ (f : Nat) (s : State) (l : Nat), poisoned (zeroFrame f s) l = (if l / 32768 = f then false else poisoned s l)) ∧
  (∀ (src dst off n : Nat) (s : State) (k : Nat), Memory.wf s.mem = true → k < n → memGet (copyFrame src dst off n s) (dst * 2 ^ 21 + off + k) = memGet s (src * 2 ^ 21 + off + k)) ∧
  (∀ (src dst off n : Nat) (s : State) (a : Nat), Memory.wf s.mem = true → (a < dst * 2 ^ 21 + off ∨ dst * 2 ^ 21 + off + n ≤ a) →
    memGet (copyFrame src dst off n s) a = memGet s a)

/-- The register found at the address of an instance of a register is that instance, so no two instances share an address;
lanes 8 to 63 of the host engines, which do not exist, are left out. A write gives a RW field the value written, a RWL field
the value unless its lock is set, clears in a RW1C field the bits written as 1, and leaves every other field as it was; a WO
or RSV field reads zero. (R10, R33, R263) -/
def Obligations.Registers : Prop :=
  (∀ (r : Reg) (i j : Nat), i < (regRow r).n1 → j < (regRow r).n2 → noLane ⟨r, i, j⟩ = false → placeAt (regAddr r i j) = some ⟨r, i, j⟩) ∧
  ((∀ (lock : Bool) (r : Reg) (old v : Nat) (f : RegField), r ≠ .stwPkey → f ∈ (regRow r).fields → bits (merged lock r old v) f.hi f.lo =
    match f.acc with
    | .rw => bits v f.hi f.lo
    | .rwl => if lock = true then bits old f.hi f.lo else bits v f.hi f.lo
    | .rw1c => bits old f.hi f.lo - (bits old f.hi f.lo &&& bits v f.hi f.lo)
    | _ => bits old f.hi f.lo) ∧
  (∀ (s : State) (p : Place) (f : RegField), f ∈ (regRow p.reg).fields → (f.acc = .wo ∨ f.acc = .rsv) → bits (readPlace s p) f.hi f.lo = 0))

/-- A served write of NUM_CTL, ALC_HBMQ, ALC_T2Q, SCH_BENCH, SCH_CTL, SCH_SAVEQ, ALC_BW or FAB_PSLICE takes effect in the
register when its block's rule accepts it, and is answered with the rule's status and changes nothing when it does not; a
write of NUM_ASYBASE or of a rank entry is held for its HI register and takes effect with it. Clearing ASYEN writes every
update accepted before; an accepted HBM quota is held against what is available. A register with no row of its own takes its
write in the same way, and a path that may not write it is answered with 0x081D. (R13, R33, R36, R37, R204, R210, R226, R227,
R248, R253, R346, R361) -/
def Obligations.RegisterWrites : Prop :=
  ∀ (path : Path) (p : PartId) (value : W32) (t : Time) (s : State),
    let s := atTime t s
    let v := value.toNat
    (∀ addr x, pathServed s path addr.toNat v true = true → decoded addr.toNat = true → placeAt addr.toNat = some x →
      let u := pathTaken path addr.toNat v s
      (mayWrite u path addr.toNat (some x) = false → exec (.registerWrite path addr value t) s =
        .next (collStops u (emit (.access path addr 0x081D 0) u))) ∧
      (mayWrite u path addr.toNat (some x) = true → regFenced u addr.toNat = true → exec (.registerWrite path addr value t) s =
        .next (collStops u (emit (.access path addr 0x0304 0) u))) ∧
      (mayWrite u path addr.toNat (some x) = true → regFenced u addr.toNat = false → writable x.reg = true → x.reg.hiOf = none →
        x.reg.loOf = none → blockStatus u x v = 0 → exec (.registerWrite path addr value t) s =
        .next (collStops u (emit (.access path addr 0 0) (commitPlace x v none u))))) ∧
    (WritesReg s path .numCtl p 0 value →
      let u := fetched path .numCtl p 0 value s
      exec (.numCtlWrite path p value t) s = .next (if numCtlStatus u p v = 0
        then answered path .numCtl p 0 0 u (if flag u .numCtl p 0 0 = true ∧ bit v 0 = false then assayFlush p (written .numCtl p 0 value u)
          else written .numCtl p 0 value u)
        else answered path .numCtl p 0 (numCtlStatus u p v) u u)) ∧
    (WritesReg s path .schBench p 0 value →
      let u := fetched path .schBench p 0 value s
      exec (.schBenchWrite path p value t) s = .next (if benchMaskStatus u p v = 0
        then answered path .schBench p 0 0 u (written .schBench p 0 value u) else answered path .schBench p 0 (benchMaskStatus u p v) u u)) ∧
    (WritesReg s path .schCtl p 0 value →
      let u := fetched path .schCtl p 0 value s
      exec (.schCtlWrite path p value t) s = .next (if schCtlStatus u p v = 0
        then answered path .schCtl p 0 0 u (written .schCtl p 0 value u) else answered path .schCtl p 0 (schCtlStatus u p v) u u)) ∧
    (WritesReg s path .schSaveq p 0 value →
      let u := fetched path .schSaveq p 0 value s
      let st := if locked u .schSaveq p = true then 0 else saveqStatus u p (v % 2 ^ 16)
      exec (.schSaveqWrite path p value t) s = .next (if st = 0
        then answered path .schSaveq p 0 0 u (written .schSaveq p 0 value u) else answered path .schSaveq p 0 st u u)) ∧
    (∀ tier2 : Bool, let r : Reg := if tier2 = true then .alcT2q else .alcHbmq
      WritesReg s path r p 0 value →
      let u := fetched path r p 0 value s
      let st := quotaStatus u p tier2 (if tier2 = true then v % 2 ^ 21 else v % 2 ^ 19)
      exec (.alcQuotaWrite path p tier2 value t) s = .next (if st = 0
        then answered path r p 0 0 u (if tier2 = true then written r p 0 value u else checkQuotas (written r p 0 value u)) else answered path r p 0 st u u)) ∧
    (WritesReg s path .alcBw p 0 value →
      let u := fetched path .alcBw p 0 value s
      (bwStatus u p v ≠ 0 → exec (.alcBwWrite path p value t) s = .next (answered path .alcBw p 0 (bwStatus u p v) u u)) ∧
      (bwStatus u p v = 0 → ∃ y, exec (.alcBwWrite path p value t) s = .next (answered path .alcBw p 0 0 u y) ∧
        raw y .alcBw p 0 = raw (written .alcBw p 0 value u) .alcBw p 0 ∧
        ∀ g, g < 96 → bucket y p g = (if bucketDepth y p = bucketDepth u p then bucket u p g else Nat.min (bucketDepth y p) (bucket u p g)))) ∧
    (WritesReg s path .fabPslice p 0 value →
      let u := fetched path .fabPslice p 0 value s
      let st := if locked u .fabPslice 0 = true then 0 else psliceStatus u p v
      exec (.fabPsliceWrite path p value t) s = .next (if st = 0
        then answered path .fabPslice p 0 0 u (written .fabPslice p 0 value u) else answered path .fabPslice p 0 st u u)) ∧
    (WritesReg s path .numAsybaseLo p 0 value →
      let u := fetched path .numAsybaseLo p 0 value s
      exec (.numAsybaseWrite path p false value t) s = .next (if flag u .numCtl p 0 0 = true
        then answered path .numAsybaseLo p 0 0x0602 u u else answered path .numAsybaseLo p 0 0 u (heldLo path .numAsybaseLo p 0 value u))) ∧
    (WritesReg s path .numAsybaseHi p 0 value →
      let u := fetched path .numAsybaseHi p 0 value s
      exec (.numAsybaseWrite path p true value t) s = .next (if flag u .numCtl p 0 0 = true
        then answered path .numAsybaseHi p 0 0x0602 u u
        else answered path .numAsybaseHi p 0 0 u (writtenHi path .numAsybaseLo .numAsybaseHi p 0 value u))) ∧
    (∀ r : Fin 16384, WritesReg s path .rmaRankLo p r value →
      let u := fetched path .rmaRankLo p r value s
      exec (.rankTableWrite path p r false value t) s = .next (if rankStatus false v = 0
        then answered path .rmaRankLo p r 0 u (heldLo path .rmaRankLo p r value u)
        else answered path .rmaRankLo p r (rankStatus false v) u u)) ∧
    (∀ r : Fin 16384, WritesReg s path .rmaRankHi p r value → rankStatus true v = 0 →
      let u := fetched path .rmaRankHi p r value s
      (∀ w, tget? (pathRegs u (pathNo path)).held (regAddr .rmaRankLo p r) = some w → rankStatus false w.toNat = 0) →
      exec (.rankTableWrite path p r true value t) s =
        .next (answered path .rmaRankHi p r 0 u (writtenHi path .rmaRankLo .rmaRankHi p r value u)))

/-- A write of a line of memory that is not fenced is answered 0 and its bytes are in memory, its poison cleared; a read with
no error answers the bytes, one with a correctable error the corrected bytes and is counted; a read of a poisoned line answers
0x0582, one with an uncorrectable error answers 0x0581 and poisons an HBM line (a Stratus module's error is counted for the
module); accesses to fenced memory answer 0x0301. Scrubbing takes each line once a pass, writes corrected data back unless a
program's write came between, and poisons what it cannot correct; a temperature sample sets the stack's temperature and
refresh rate, and HOT at 105 degrees; an atomic writes the new word, answers the old one and is counted, and leaves the word
as it was when its line is fenced, poisoned or uncorrectable; a module that has lost its lanes through one engine, or reports
its failure, loses that parity or is fenced. (R246, R268, R269, R271, R275, R278, R280, R281, R282, R284, R287, R288) -/
def Obligations.MemoryTiers : Prop :=
  ∀ (t : Time) (s : State),
    let u := atTime t s
    (∀ pa data err, pa % 64 = 0 → (isHbm (pa / 2 ^ 21) = true ∨ isTier2 (pa / 2 ^ 21) = true) → frameFenced s (pa / 2 ^ 21) = false →
      ∃ y, exec (.hbmAccess pa (.write data) err t) s = .next (emit (.line pa 0 []) y) ∧
        y = flawWrite (pa / 64) (sliceBytes data 0 64) err u ∧ y.poison = s.poison.filter (· != pa / 64) ∧
        (realErrs err = [] → Memory.wf s.mem = true → memRead y pa 64 = sliceBytes data 0 64)) ∧
    (∀ pa data err, pa % 64 = 0 → (isHbm (pa / 2 ^ 21) = true ∨ isTier2 (pa / 2 ^ 21) = true) → frameFenced s (pa / 2 ^ 21) = true →
      exec (.hbmAccess pa (.write data) err t) s = .next (emit (.line pa 0x0301 []) u)) ∧
    (∀ pa err, pa % 64 = 0 → (isHbm (pa / 2 ^ 21) = true ∨ isTier2 (pa / 2 ^ 21) = true) →
      let hbm := isHbm (pa / 2 ^ 21)
      let shown := flawOf s (pa / 64) ++ realErrs err
      let module_ := moduleOf (pa / 2 ^ 21)
      (lineFenced s pa = true → exec (.hbmAccess pa .read err t) s = .next (emit (.line pa 0x0301 []) u)) ∧
      (lineFenced s pa = false → poisoned s (pa / 64) = true → exec (.hbmAccess pa .read err t) s = .next (emit (.line pa 0x0582 [])
        (if hbm = true then poisonRead (pcOf pa) u else raise 0x0582 1 none (unitId 8 module_) 0 u))) ∧
      (lineFenced s pa = false → poisoned s (pa / 64) = false → rsDecode shown = none →
        exec (.hbmAccess pa .read err t) s = .next (emit (.line pa 0x0581 []) (if hbm = true then uncorrectable (pa / 64) (pcOf pa) u
          else raise 0x0581 1 none (unitId 8 module_) 0 (bump .t2mUecnt module_ 0 1 u)))) ∧
      (∀ ds, lineFenced s pa = false → poisoned s (pa / 64) = false → rsDecode shown = some ds →
        exec (.hbmAccess pa .read err t) s = .next (emit (.line pa 0 (decodedData (memRead s pa 64) shown ds))
          (if ds = [] then u else if hbm = true then corrected (pcOf pa) u else bump .t2mCecnt module_ 0 1 u))) ∧
      (lineFenced s pa = false → poisoned s (pa / 64) = false → shown = [] →
        exec (.hbmAccess pa .read err t) s = .next (emit (.line pa 0 (memRead s pa 64)) u))) ∧
    (∀ pa err wrote, pa % 64 = 0 → isHbm (pa / 2 ^ 21) = true → fld s .memScrub (pcOf pa / 64) 0 7 0 ≠ 0 →
      memoryCoreRuns s (pcOf pa / 64) = true → (tget s.scrubbed (pcOf pa / 64) []).contains (pa / 64) = false →
      let pc := pcOf pa
      let shown := (if wrote = true then [] else flawOf s (pa / 64)) ++ realErrs err
      let ended := fun v => exec (.hbmScrub pa err wrote t) s = .next (scrubbedLine (pc / 64) (pa / 64) v)
      (pcFenced s pc = true ∨ (wrote = false ∧ poisoned s (pa / 64) = true) → ended u) ∧
      (pcFenced s pc = false → (wrote = true ∨ poisoned s (pa / 64) = false) → rsDecode shown = none →
        ended (if wrote = true then countBad pc u else uncorrectable (pa / 64) pc u)) ∧
      (pcFenced s pc = false → (wrote = true ∨ poisoned s (pa / 64) = false) → rsDecode shown = some [] → ended u) ∧
      (∀ d ds, pcFenced s pc = false → (wrote = true ∨ poisoned s (pa / 64) = false) → rsDecode shown = some (d :: ds) →
        let v := rowError (pc / 64) pc pa (fld s .memScrub (pc / 64) 0 31 16) (corrected pc u)
        ended (if wrote = true then v else memWrite pa (decodedData (memRead s pa 64) shown (d :: ds)) v))) ∧
    (∀ stack temp, ∃ v, exec (.stackTempSample stack temp t) s = .next v ∧
      fld v .memStat stack 0 31 24 = (temp % 256).toNat ∧
      fld v .memStat stack 0 17 16 = (if memoryCoreRuns s stack.val = true
        then Nat.max (refreshRate (tget s.refBand stack 0) temp) (tget s.minRefresh stack 0) % 4 else 2) ∧
      fld v .memStat stack 0 1 1 = (if 105 ≤ temp then 1 else if temp < 102 then 0 else fld s .memStat stack 0 1 1)) ∧
    (∀ pa op x y, pa % atomicWidth op = 0 → isHbm (pa / 2 ^ 21) = true → ∃ v, exec (.nearMemoryAtomic pa op x y) s = .next v ∧
      let old := leNat (memRead s pa (atomicWidth op))
      let new := atomicNew op old x.toNat y.toNat
      let stack := pcOf pa / 64
      let refused := fun st : Status => v.mem = s.mem ∧ .atomic pa st 0 ∈ v.out
      (groupGone s pa = true → refused 0x0301) ∧
      (groupGone s pa = false → poisoned s (pa / 64) = true → refused 0x0582) ∧
      (groupGone s pa = false → poisoned s (pa / 64) = false → flawBad s (pa / 64) = true → refused 0x0581) ∧
      (groupGone s pa = false → poisoned s (pa / 64) = false → flawBad s (pa / 64) = false →
        v.mem = (memWrite pa (leBytes (atomicWidth op) new.1) s).mem ∧
        .atomic pa 0 (BitVec.ofNat 64 (atomicOld op old x.toNat)) ∈ v.out ∧
        raw64 v .memAtomLo .memAtomHi stack 0 = (raw64 s .memAtomLo .memAtomHi stack 0 + 1) % 2 ^ 64)) ∧
    (∀ (m : Fin 4) odd, modulePresent s m = true → (moduleLanes m).all (laneGone u (if odd = true then 9 else 8)) = true →
      flag s .t2mStat m 0 (if odd = true then 28 else 29) = false →
      exec (.moduleParityLoss m odd t) s = .next (loseParity m (if odd = true then 1 else 0) u)) ∧
    (∀ m : Fin 4, modulePresent s m = true → exec (.moduleFailureReport m t) s = .next (fenceCause 8 m 0x030E u))

/-- At or above a threshold the band is above it; more than 3 degrees below it the band is not above it; in between, the band
is above it exactly when it was before. A ring's loop update gives the engine this band and shows the temperature, and the
lanes that no swap holds take the waveform set of the band. (R302, R305, R477) -/
def Obligations.TemperatureBands : Prop :=
  (∀ (k : Fin 4) (old : Nat) (temp : Int), old ≤ 4 → let thr : Int := [50, 75, 90, 100][k]
    (thr ≤ temp → (k : Nat) < bandAt old temp) ∧ (temp < thr - 3 → bandAt old temp ≤ k) ∧
    (thr - 3 ≤ temp → temp < thr → ((k : Nat) < bandAt old temp ↔ (k : Nat) < old))) ∧
  (∀ (e : EngineId) (temp : Int) (s : State), let v := engineTemp e temp s
    (engine v e).band = bandAt (engine s e).band temp ∧ fld v .optStat e 0 23 16 = (temp % 256).toNat ∧
    ∀ l, l < engineLanes e → (∀ w, (engine s e).swap = some w → l % 16 ≠ w.laser) →
      fld v .optTxl e l 7 4 = bandAt (engine s e).band temp % 16)

/-- A loop update shows the lock error and heater power of a transmit lane and takes a lane down whose heater is at zero with
an error beyond 6.0 GHz; a power sample shows the power and error rate, raises an event when the margin's condition grows
worse, and takes the lane down after three samples below -12.0 dBm or a high error rate; a lane that loses its light is down,
fenced at the eighth time in 60 s, with its paired transmit lane, and a host port fails with its lane; behind a peer's park
marker both lanes are parked instead; a down or parked lane with a margin of 0.5 dB at both ends trains where it may and no
shutter stands before it, and after 1 ms with a low error rate it is in service; a fibre without light is open and closed, and
a probe that finds light opens the shutter of an engine that is not fenced; a lane with no light 1 s after the lasers is
absent. (R304, R305, R307, R308, R309, R318, R325, R546, R552) -/
def Obligations.LaneCommands : Prop :=
  ∀ (e : EngineId) (t : Time) (s : State),
    let u := atTime t s
    (∀ (dir : LaneDir) (l : Fin 64) err heater temp, (l : Nat) < engineLanes e →
      let v := engineTemp e temp u
      let v := if dir = .tx then setFld .optTxl e l 31 16 (unsign 16 err) (setFld .optTxl e l 15 8 heater v) else v
      let v := setFld .optCal e 0 7 0 (Nat.min 255 (Nat.max (fld v .optCal e 0 7 0) err.natAbs)) v
      exec (.ringLoopUpdate e dir l err heater temp t) s = .next (if heater = 0 ∧ 60 < err.natAbs then laneDown e (dirIdx dir) l v else v)) ∧
    (∀ (l : Fin 64) power berHigh (ber : BitVec 8) temp, (l : Nat) < engineLanes e →
      let v := setFld .optRxl e l 31 16 (unsign 16 power) (setFld .optRxl e l 15 8 ber.toNat (engineTemp e temp u))
      let a := laneAux v e 1 l
      let c := marginCond v e (power + 120)
      let low := if power < -120 then a.low + 1 else 0
      let v := modLane e 1 l (fun a => { a with cond := c, low := low }) v
      let v := if a.cond < c then raise (if c = 2 then 0xB004 else 0xB003) (if c = 2 then 1 else 2) none (unitId 5 (laneUnit e 1 l)) 0 v else v
      exec (.lanePowerSample e l power berHigh ber temp t) s = .next (if 3 ≤ low ∨ berHigh = true then laneDown e 1 l v else v)) ∧
    (∀ margin : Int, let warn := fld s .optMargin e 0 15 8
      marginCond s e margin = if margin < (Nat.min warn (fld s .optMargin e 0 7 0) : Nat) then 2 else if margin < (warn : Int) then 1 else 0) ∧
    (∀ l : Fin 64, (l : Nat) < engineLanes e → laneLive (laneState s e 1 l) = true → isUp s 5 (laneUnit e 1 l) = true →
      let recent := (laneAux s e 1 l).downs.filter fun x => Nat.blt u.time (x + 60000000000)
      let st := laneState s e 0 (pairedLane s e l)
      (∀ parked, parked = false ∨ 10 ≤ (e : Nat) →
        ∃ v, exec (.lossOfLight e ⟨l, parked⟩ t) s = .next v ∧ laneState v e 1 l = (if 7 ≤ recent.length then 6 else 0) ∧
        (7 ≤ recent.length → unitState v 5 (laneUnit e 1 l) = .draining) ∧ (laneAux v e 1 l).downs = recent ++ [u.time] ∧
        laneState v e 0 (pairedLane s e l) = (if laneHolds st = true then 0 else st) ∧
        (10 ≤ (e : Nat) → laneHolds (laneState s e 1 l) = true ∨ laneHolds st = true → flag s .hstPstat (lanePort e l) 0 31 = true →
          flag v .hstPstat (lanePort e l) 0 31 = false ∧ ∀ n q, (n, q) ∈ v.qps → q.port = lanePort e l → q.failed = true)) ∧
      ((e : Nat) < 10 → ∃ v, exec (.lossOfLight e ⟨l, true⟩ t) s = .next v ∧ laneState v e 1 l = 5 ∧
        laneState v e 0 (pairedLane s e l) = (if laneLive st = true then 5 else st))) ∧
    (∀ (dir : LaneDir) (l : Fin 64) (near far : Int), (l : Nat) < engineLanes e → let d := dirIdx dir
      (laneState s e d l = 0 ∨ laneState s e d l = 5) → 5 ≤ near → 5 ≤ far → isUp s 6 e = true → flag s .optCtl e 0 2 = false →
      laneBarred s e = false → shuttered s e d l = false → exec (.laneRetrain e dir l near far t) s =
      .next (modLane e d l (fun a => { a with since := u.time }) (setLane e d l 1 u))) ∧
    (∀ (dir : LaneDir) (l : Fin 64), (l : Nat) < engineLanes e → let d := dirIdx dir
      laneState s e d l = 1 → (laneAux s e d l).since + 1000000 ≤ u.time → laneBarred s e = false → shuttered s e d l = false →
      let v := setLane e d l (serviceState s e l) u
      let v := if dir = .tx then setFld .optTxl e l 7 4 (engine s e).band v else v
      let v := if unitState s 5 (laneUnit e d l) = .recovering then unitUp 5 (laneUnit e d l) v else v
      exec (.laneUp e dir l true t) s = .next (if dir = .tx ∧ serviceState s e l = 2 then laneTrained e l v else v) ∧
      exec (.laneUp e dir l false t) s = .next u) ∧
    (∀ f : Fin 4, (e : Nat) < 10 → f.val ∉ (engine s e).opened → (engineRole s e = 2 → fibreLit s e f = false) → ∃ v, exec (.fibreOpenDetect e f) s = .next v ∧
      f.val ∈ (engine v e).opened ∧ ∀ k : Fin 16, let l := 16 * f.val + k
        isUp s 5 (laneUnit e 0 l) = true → laneLive (laneState s e 0 l) = true →
        laneState v e 0 l = (if 7 ≤ ((laneAux s e 0 l).downs.filter fun x => Nat.blt s.time (x + 60000000000)).length then 6 else 0)) ∧
    (∀ (f : Fin 4) (found : Bool), exec (.shutterProbe e f found) s =
      .next (if found = true ∧ isUp s 6 e = true then modEngine e (fun x => { x with opened := x.opened.filter (· != f.val) }) s else s)) ∧
    (∀ (f : Fin 4) (k : Fin 16), (e : Nat) < 10 → (engine s e).lit = true → (engine s e).litAt + 1000000000 ≤ u.time →
      laneState s e 1 (16 * f.val + k) = 0 → ∃ v, exec (.laneAbsentTimeout e f k t) s = .next v ∧
      e.val * 64 + (16 * f.val + k.val) ∈ v.absent ∧ ∀ n, n ∈ s.absent → n ∈ v.absent)

/-- A lit laser below +16.0 dBm has its bias raised by 0.5 mA up to 180 mA; a reading that shows a fade queues a swap, and one
that shows a faded laser dead marks it so; a swap warms the first laser waiting, its spare at its own bias, locks within 1.0
GHz, quiesces the colour, switches in two steps, resumes with the faded laser spent and the swap counted, and is abandoned
when the spare is not locked within 6.0 ms; the lasers are lit when every condition holds and dark when one ceases; an LSM
removed while lit fences its engine; the hours are rewritten once per lit hour. (R310, R311, R312, R313, R314, R315, R316,
R320, R321, R538, R540) -/
def Obligations.LaserSwap : Prop :=
  ∀ (e : EngineId) (t : Time) (s : State),
    let u := atTime t s
    let x := engine s e
    (∀ (k : Fin 16) (power : Int), x.lit = true → engineCore s e = true → (k : Nat) < laserCount e →
      let b := if power < 160 ∧ tget x.bias k 0 < 360 then tget x.bias k 0 + 1 else tget x.bias k 0
      exec (.laserBiasStep e k power) s = .next (setFld .optLsr e k 23 16 (b / 2) (setFld .optLsr e k 15 8 (unsign 8 power)
        (modEngine e (fun x => { x with bias := tset x.bias k b }) s)))) ∧
    (∀ (k : Fin 16) (r : LaserReading), x.lit = true → engineCore s e = true → (k : Nat) < laserCount e →
      let faded := (r.power < 150 ∧ 360 ≤ r.bias) ∨ 15 ≤ r.fall1s ∨ (25 < r.lockErr.natAbs ∧ 10000 ≤ r.offTimeUs) ∨ r.power < 60
      flag s .optLsr e k 28 = false → flag s .optLsr e k 29 = false → fld s .optLsr e k 31 30 ≠ 2 →
      ∃ v, exec (.laserFadeDeclare e k r t) s = .next v ∧ (engine v e).bias = tset x.bias k r.bias ∧
        (faded → (engine v e).queue = x.queue ++ [(k.val, decide (r.power < 60))] ∧ flag v .optLsr e k 29 = true) ∧
        (¬ faded → (engine v e).queue = x.queue ∧ flag v .optLsr e k 29 = false)) ∧
    (∀ (k : Fin 16) (r : LaserReading), x.lit = true → engineCore s e = true → (k : Nat) < laserCount e → r.power < 60 →
      flag s .optLsr e k 29 = true → fld s .optLsr e k 31 30 ≠ 2 → knownDead x k = false →
      ∃ v, exec (.laserFadeDeclare e k r t) s = .next v ∧ (engine v e).queue = x.queue.map (fun q => (q.1, q.2 || q.1 == k.val)) ∧
        (engine v e).swap = x.swap.map (fun w => { w with dead := w.dead || w.laser == k.val })) ∧
    (∀ k dead q, x.swap = none → x.queue = (k, dead) :: q → x.lit = true → engineCore s e = true → (∀ t0, x.cal ≠ some (k, t0)) →
      ∃ v, exec (.swapWarm e t) s = .next v ∧ (engine v e).swap = some ⟨k, dead, false, u.time⟩ ∧ (engine v e).queue = q ∧
        (engine v e).bias = tset x.bias (16 + k) (Config.startBias e (16 + k)) ∧ swapStep v e = 1 ∧ fld v .optSwap e 0 15 12 = k % 16 ∧ fld v .optSwap e 0 11 8 = Nat.min 15 q.length) ∧
    (∀ w, x.swap = some w → w.laser < laserCount e →
      (∀ err : Int, (swapStep s e = 1 ∨ swapStep s e = 2) → ∃ v, exec (.swapLock e err t) s = .next v ∧ swapStep v e = 2 ∧
        (engine v e).swap = some { w with locked := decide (err.natAbs ≤ 10) }) ∧
      (swapStep s e = 2 → w.locked = true → noQuiesce s e w = false → ∃ v, exec (.swapQuiesce e t) s = .next v ∧ swapStep v e = 3 ∧
        ∀ l, l ∈ laserLanes e w.laser → laneState v e 0 l = (if laneState s e 0 l = 2 then 3 else laneState s e 0 l)) ∧
      ((swapStep s e = 3 ∨ (swapStep s e = 2 ∧ w.locked = true ∧ noQuiesce s e w = true)) → ∃ v, exec (.swapSwitch e t) s = .next v ∧
        swapStep v e = 4 ∧ (10 ≤ (e : Nat) → flag v .hstPstat (lanePort e w.laser) 0 31 = false)) ∧
      (swapStep s e = 4 → ∃ v, exec (.swapSwitch e t) s = .next v ∧ swapStep v e = 5 ∧ fld v .optLsr e w.laser 31 30 = 1 ∧
        (engine v e).bias = tset x.bias w.laser (tget x.bias (16 + w.laser) 0)) ∧
      (swapStep s e = 5 → ∃ v, exec (.swapResume e t) s = .next (lanesBack v) ∧ (engine v e).swap = none ∧ swapStep v e = 0 ∧
        fld v .optSwap e 0 6 0 = Nat.min 127 (fld s .optSwap e 0 6 0 + 1) ∧ flag v .optLsr e w.laser 28 = true ∧
        flag v .optLsr e w.laser 29 = false ∧ ∀ l, l ∈ laserLanes e w.laser → fld v .optTxl e l 7 4 = x.band % 16 ∧
          ((laneState s e 0 l = 3 ∨ (w.dead = true ∧ laneState s e 0 l = 0 ∧ laneBarred s e = false)) → laneState v e 0 l = serviceState s e l)) ∧
      (swapStep s e ≤ 2 → w.locked = false → w.began + 6000000 ≤ u.time → ∃ v, exec (.swapAbandon e t) s = .next v ∧
        (engine v e).swap = none ∧ swapStep v e = 0 ∧ flag v .optLsr e w.laser 28 = true ∧ flag v .optLsr e w.laser 29 = false ∧
        (w.dead = true → fld v .optLsr e w.laser 31 30 = 2 ∧ ∀ l, l ∈ laserLanes e w.laser → laneState v e 0 l = 8))) ∧
    (s.verified = true → x.lsm = true → x.present = true → awake s = true → x.lit = false → ∃ v, exec (.laserEnable e t) s = .next v ∧
      (engine v e).lit = true ∧ (engine v e).litAt = u.time ∧
      ∀ k, k < laserCount e → tget (engine v e).bias k 0 = Nat.min 360 (Config.startBias e k)) ∧
    (¬ (s.verified = true ∧ x.lsm = true ∧ x.present = true ∧ awake s = true) → ∃ v, exec (.laserEnable e t) s = .next v ∧
      (engine v e).lit = false) ∧
    (∃ v, exec (.lsmPresenceChange e false t) s = .next v ∧ (engine v e).present = false ∧ (engine v e).lsm = false ∧ flag v .optStat e 0 27 = false ∧
      (engine v e).lit = false ∧ (x.lit = true → isUp s 6 e = true → unitState v 6 e = .draining)) ∧
    (∀ ok, x.lit = true → engineCore s e = true → let h := (u.time - x.litAt) / 3600000000000
      0 < h → exec (.lsmHoursUpdate e ok t) s =
        .next (if ok = true then emit (.lsmHours e h) u else raise (Config.eventCode 3) 2 none (unitId 6 e) 0 u))

/-- A full calibration that is due lists every laser (on a host engine those whose port is down); the window of a laser
quiesces its lanes, and 0.5 ms later they return to service; a write of CALNOW lists the lasers of an engine that is no host
engine, PARK parks every lane in service or retrains the parked ones where lanes may train, REQ queues a laser and UNFENCE
returns a fenced lane. (R309, R314, R322, R323, R324) -/
def Obligations.CalibrationAndParking : Prop :=
  ∀ (e : EngineId) (t : Time) (s : State),
    let u := atTime t s
    let x := engine s e
    (∀ why : CalReason, x.lit = true → engineCore s e = true →
      (why = .period → fld s .optCal e 0 15 8 ≠ 0 ∧ x.calAt + fld s .optCal e 0 15 8 * 3600000000000 ≤ u.time) →
      exec (.calibrationDue e why t) s = .next (modEngine e (fun x => { x with calTodo := (List.range (laserCount e)).filter (mayCalibrate s e) }) u)) ∧
    (∀ k : Fin 16, x.cal = none → k.val ∈ x.calTodo → (∀ w, x.swap = some w → w.laser ≠ k) → x.lit = true → engineCore s e = true → mayCalibrate s e k = true →
      ∃ v, exec (.calibrationWindow e k t) s = .next (lanesBack v) ∧ (engine v e).cal = some (k.val, u.time) ∧
        ∀ l, l ∈ laserLanes e k → laneState v e 0 l =
          (if laneState s e 0 l = 2 ∨ laneState s e 0 l = 7 then 4 else laneState s e 0 l)) ∧
    (∀ (k : Fin 16) t0, x.cal = some (k.val, t0) → t0 + 500000 ≤ u.time → ∃ v, exec (.calibrationWindow e k t) s = .next (lanesBack v) ∧
      (engine v e).cal = none ∧ (engine v e).calTodo = x.calTodo.filter (· != k.val) ∧
      (x.calTodo.filter (· != k.val) = [] → (engine v e).calAt = u.time ∧ fld v .optCal e 0 7 0 = 0) ∧
      ∀ l, l ∈ laserLanes e k → isUp s 5 (laneUnit e 0 l) = true → laneState s e 0 l = 4 → laneState v e 0 l = serviceState s e l) ∧
    (∀ (path : Path) (value : W32), WritesReg u path .optCtl e 0 value →
      let w := fetched path .optCtl e 0 value u
      let old := raw w .optCtl e 0
      let v := value.toNat
      let y := written .optCtl e 0 value w
      let y := if bit v 1 = true ∧ (e : Nat) < 10 then modEngine e (fun x => { x with calTodo := List.range 16 }) y else y
      let y := if 10 ≤ (e : Nat) then setFld .optCtl e 0 2 2 0 y else if bit v 2 = bit old 2 then y else parkEngine e (bit v 2) y
      exec (.optCalnow path e value t) s = .next (answered path .optCtl e 0 0 w y) ∧
      exec (.optPark path e value t) s = .next (answered path .optCtl e 0 0 w y)) ∧
    (∀ (path : Path) (value : W32), WritesReg u path .optSwap e 0 value →
      let w := fetched path .optSwap e 0 value u
      let v := value.toNat
      let y := written .optSwap e 0 value w
      let y := if bit v 31 = true ∧ bits v 23 20 < laserCount e ∧ (engine y e).lit = true then declareFade e (bits v 23 20) false y else y
      let y := if bit v 30 = true ∧ bits v 29 24 < engineLanes e then laneReturn e (bits v 7 7) (bits v 29 24) y else y
      exec (.optSwapReq path e value t) s = .next (answered path .optSwap e 0 0 w y) ∧
      exec (.optSwapUnfence path e value t) s = .next (answered path .optSwap e 0 0 w y)) ∧
    ((parkEngine e true s).out = s.out ++ [.park e.val] ∧
      ∀ d l, d < 2 → l < engineLanes e → laneState (parkEngine e true s) e d l =
        (if laneState s e d l ≤ 4 ∨ laneState s e d l = 7 then 5 else laneState s e d l)) ∧
    (∀ d l, d < 2 → l < engineLanes e → laneState (parkEngine e false s) e d l = (if laneState s e d l = 5 then (if laneBarred s e = true then 0 else 1) else laneState s e d l)) ∧
    (∀ d l, d < 2 → l < engineLanes e → unitState s 5 (laneUnit e d l) = .fenced → isUp s 6 e = true → laneState s e d l ≠ 8 →
      unitState (laneReturn e d l s) 5 (laneUnit e d l) = .recovering ∧ laneState (laneReturn e d l s) e d l = 0)

/-- Whatever the table entries hold, a packet that arrives at a stage and goes on does so at a later stage of its class or in
class 1 after class 0, also as a copy of a multicast packet; this is what leaves no cycle of waiting buffers. A packet that is
injected starts in the class of its header. (R337, R338, R339, R340, R345) -/
def Obligations.HopStagesRise : Prop :=
  (∀ (s : State) (x : TableSet) (p : Packet) (stg : Nat) k q gl, arriveHop s x p stg = .send k q gl →
    3 * p.route.cls.toNat + stg < 3 * q.route.cls.toNat + q.route.stg.toNat ∧ q.route.dst = p.route.dst ∧ q.route.typ = p.route.typ ∧
      q.route.epoch = p.route.epoch ∧ q.body = p.body) ∧
  (∀ (s : State) (e : Nat) (p : Packet) (stg : Nat) k q gl, Hop.send k q gl ∈ treeHops s e p (some stg) →
    stg < q.route.stg.toNat ∧ q.route.cls = p.route.cls ∧ q.body = p.body) ∧
  (∀ (s : State) (x : TableSet) (p : Packet) k q gl, injectHop s x p = .send k q gl → q.route.cls = p.route.cls ∧ q.route.dst = p.route.dst ∧
    q.body = p.body)

/-- The network interface refuses with 0x0402 a packet of a partition without a slice and one whose PMASK bit is clear, with
0x0401 one whose entry has V 0, a reserved MODE or no valid exit and a multicast packet of another owner's tree, and nothing
goes out but the end of the request's own transaction; otherwise it fills the header with its node, epoch and slice and routes
the packet, each copy of a multicast packet on its own, and holds a new ORD packet whose path would change under others that
await their completion. Before the first table swap an arriving packet is ignored; a reserved header value discards it; an
epoch that no held set has drops it with 0x0403; otherwise the set of its epoch routes it. A packet whose slice no partition
holds is dropped with 0x0405, and one for the Steward that is not for slice 0xFFF; a management packet of a node that is no
manager is discarded but for weather records and DRAINED (the model's reading, log entry 101), others enter the Steward's
queue. An up fabric lane sends its hello; a hello that passes the checks of Table 10.2 records its node, for a global lane in
FAB_GLMAP too, and one that fails fences the lane and sets MISWIRE; discovery is complete when no lane is awaited; a weather
record is built every 100 us and every DIV-th goes to DEST, and a record that came in is put in the ring. (R331, R333, R335,
R336, R337, R341, R344, R345, R346, R350, R355, R356) -/
def Obligations.FabricPackets : Prop :=
  (∀ (t : Time) (s : State),
    let u := atTime t s
    (∀ (p : PartId) (pkt : Packet),
      let e := s.fabActive.route pkt.route.dst.toNat
      let tr := s.fabActive.tree (pkt.route.dst.toNat % 1024)
      let mg := pkt.route.typ = 3
      let sliced := mg ∨ flag s .fabPslice p 0 31 = true
      let fits := rtV e = true ∧ rtMode e < 5 ∧ (2 ≤ rtMode e → rtExits e ≠ [])
      let ownTree := 2 ≤ pkt.route.typ.toNat ∧ bit tr 20 = true ∧ (mg ∨ bits tr 19 17 = p)
      let refused := fun (st : Status) => let v := emit (.injectRefused p.val st) u
        (∀ h d x, pkt.body = .transport h d → tget? s.txns h.tag.toNat = some x → x.hdr = h → x.part = p → pkt.route.typ = 0 →
          exec (.packetInject p pkt t) s = .next (sendWaiting (finishTxn h.tag.toNat st [] v))) ∧
        ((∀ h d x, pkt.body = .transport h d → tget? s.txns h.tag.toNat = some x → ¬ (x.hdr = h ∧ x.part = p ∧ pkt.route.typ = 0)) →
          exec (.packetInject p pkt t) s = .next v)
      let r := { pkt.route with src := BitVec.ofNat 13 (ownNode s), epoch := BitVec.ofNat 2 s.epoch, cls := 0, via := false, igrp := 0, slice := if mg then 0xFFF else BitVec.ofNat 12 (fld s .fabPslice p 0 11 0), nflit := flitsOf pkt.body, gl := 0, gm := 0, stg := 0, rsv := 0 }
      let k : Packet := ⟨r, pkt.body⟩
      let hop := injectHop u s.fabActive k
      let v := { u with free := s.free + 1 }
      (¬ sliced → refused 0x0402) ∧
      (sliced → pkt.route.mc = true → (¬ ownTree → refused 0x0401) ∧
        (ownTree → exec (.packetInject p pkt t) s = .next (pumpAll ((treeHops u tr k none).foldl (fun y h => doHop k none y h) u)))) ∧
      (sliced → pkt.route.mc = false → (¬ fits → refused 0x0401) ∧ (fits → ¬ mg → rtAllows e p = false → refused 0x0402) ∧
        (fits → (mg ∨ rtAllows e p = true) →
          (pkt.route.ord = false → exec (.packetInject p pkt t) s = .next (pumpAll (doHop k none v hop))) ∧
          (pkt.route.ord = true →
            ((∀ q, tget? s.ordPaths pkt.route.dst.toNat = some q → pathOf u hop = some q ∨ ordOutstanding s pkt.route.dst.toNat = false) →
              exec (.packetInject p pkt t) s = .next (pumpAll (ordOut k hop v))) ∧
            (∀ q, tget? s.ordPaths pkt.route.dst.toNat = some q → pathOf u hop ≠ some q → ordOutstanding s pkt.route.dst.toNat = true →
              exec (.packetInject p pkt t) s = .next u))))) ∧
    (∀ (l : LinkId) (pkt : Packet), let stg := pkt.route.stg.toNat
      (s.swapped = false → exec (.packetArrive l pkt t) s = .next u) ∧
      (s.swapped = true → routeBad pkt = true → exec (.packetArrive l pkt t) s = .next (pumpAll (bump .fabDropRoute 0 0 1 u))) ∧
      (s.swapped = true → routeBad pkt = false → setOf s pkt.route.epoch.toNat = none →
        exec (.packetArrive l pkt t) s = .next (pumpAll (dropPacket pkt 0x0403 none u))) ∧
      (∀ x, s.swapped = true → routeBad pkt = false → setOf s pkt.route.epoch.toNat = some x → exec (.packetArrive l pkt t) s =
        .next (pumpAll (if pkt.route.mc = true then
            (treeHops u (x.tree (pkt.route.dst.toNat % 1024)) pkt (some stg)).foldl (fun y h => doHop pkt none y h) { u with free := s.free + 1 }
          else doHop pkt none { u with free := s.free + 1 } (arriveHop u x pkt stg))))) ∧
    (∀ p : Packet, p.route.typ ≠ 3 → (slicePart s p.route.slice.toNat = none → doHop p none u (.deliver p) = dropPacket p 0x0405 none u) ∧
      ∀ n, slicePart s p.route.slice.toNat = some n → doHop p none u (.deliver p) = { u with arrived := s.arrived ++ [⟨u.time, n, p, none⟩] }) ∧
    (∀ p : Packet, p.route.typ = 3 → (p.route.slice ≠ 0xFFF → doHop p none u (.deliver p) = dropPacket p 0x0405 none u) ∧
      (p.route.slice = 0xFFF → doHop p none u (.deliver p) =
        if stewardTakes s p = true then { u with stewardQ := s.stewardQ ++ [(p, none)] } else u) ∧
      (stewardTakes s p = true ↔ isManager s p.route.src.toNat = true ∨ p.body = .drained ∨ ∃ b, p.body = .weather b)) ∧
    (∀ (p : Packet) st, isNotice p = false → dropPacket p st none u = sendNotice 0 p st (bump (dropCounter st) 0 0 1 (noteDrop 0 1 0 u)))) ∧
  (∀ (t : Time) (s : State),
    let u := atTime t s
    (∀ (e : EngineId) (f : Fin 4) (k : Fin 16), let l := 16 * f.val + k.val
      exec (.helloSend e f k t) s = .next (if engineRole s e ≤ 1 ∧ laneState s e 0 l = 2 then emit (.hello e l { node := BitVec.ofNat 13 (ownNode s), domain := BitVec.ofNat 16 (ownDomain s), engine := e, fibre := f, colour := k }) u else u)) ∧
    (∀ (e : EngineId) (f : Fin 4) (k : Fin 16) (h : Hello), let l := 16 * f.val + k.val
      let open_ := engineRole s e ≤ 1 ∧ k ≠ 0 ∧ laneState s e 1 l = 2
      (¬ open_ → exec (.helloReceive e f k h t) s = .next u) ∧
      (open_ → helloOk s e l h = true →
        let v := { u with helloFrom := if thas s.helloFrom (64 * e.val + l) = true then s.helloFrom else tset s.helloFrom (64 * e.val + l) h.node.toNat }
        exec (.helloReceive e f k h t) s = .next (if engineRole s e = 1 then
          (match laneGl s e (pairedLane s e l) with
            | some g =>
              let w := setRaw .fabGlmap g 0 (2 ^ 31 + h.node.toNat) v
              pumpAll (if (8192 + h.node.toNat) ∉ stageLinks v 1 ∧ linkUp w (8192 + h.node.toNat) = true then catchUpMarks (8192 + h.node.toNat) w else w)
            | none => v) else v)) ∧
      (open_ → helloOk s e l h = false → ∃ v, exec (.helloReceive e f k h t) s = .next v ∧
        (isUp s 5 (laneUnit e 1 l) = true → unitState v 5 (laneUnit e 1 l) = .draining ∧ laneState v e 1 l = 6) ∧
        ∀ g, engineRole s e = 1 → laneGl s e (pairedLane s e l) = some g → g < 384 → flag v .fabGlmap g 0 30 = true) ∧
      (helloOk s e l h = true ↔ h.domain.toNat = ownDomain s ∧ (∀ m, tget? s.helloFrom (64 * e.val + l) = some m → m = h.node.toNat) ∧
        (if wiringFixed s = true then ∃ m, s.fabMap = some m ∧ tget? m (64 * e.val + l) = some h.node.toNat
         else if engineRole s e = 0 then h.node.toNat = groupNo (ownNode s) * 16 + (portNo (ownNode s) + pairedLane s e l % 16) % 16
         else groupNo h.node.toNat ≠ groupNo (ownNode s)))) ∧
    (∀ e l, laneAwaited s e l = true ↔ engineRole s e ≤ 1 ∧ laneState s e 1 l ≤ 1 ∧ (e * 64 + l) ∉ s.absent) ∧
    ((s.discovered = true ∨ ∃ e l, e < 8 ∧ l < 64 ∧ laneAwaited s e l = true) → exec (.discoveryComplete t) s = .next u) ∧
    (s.discovered = false → (∀ e l, e < 8 → l < 64 → laneAwaited s e l = false) → exec (.discoveryComplete t) s =
      .next (if s.swapped = true then { u with discovered := true, fabReady := some u.time, wxAt := u.time, wxDrops := dropCount s, wxReplays := raw s .fabReplay 0 0 }
        else { u with discovered := true })) ∧
    (∀ lanes, (∀ r, s.fabReady = some r → s.wxAt + 100000 ≤ u.time →
        let v := { u with wxAt := s.wxAt + 100000, wxPeriod := s.wxPeriod + 1, wxDrops := dropCount s, wxReplays := raw s .fabReplay 0 0 }
        exec (.weatherRecord lanes t) s = .next (if flag s .fabWx 0 0 31 = true ∧ (s.wxPeriod + 1) % Nat.max 1 (fld s .fabWx 0 0 23 16) = 0
          then sendMgmt (fld s .fabWx 0 0 12 0) (.weather (weatherBytes lanes u)) v else v)) ∧
      (s.fabReady = none ∨ u.time < s.wxAt + 100000 → exec (.weatherRecord lanes t) s = .next u)) ∧
    (∀ lanes, (weatherBytes lanes s).length = 3872) ∧
    (∀ bytes, (takeMgmt (fun p => p.body == .weather bytes) s = none → exec (.weatherAppend bytes) s = .next s) ∧
      ∀ p v, takeMgmt (fun p => p.body == .weather bytes) s = some (p, v) →
      exec (.weatherAppend bytes) s = .next (if fld v .fabWxringHi 0 0 23 16 = 0 then v else ringPut (fld v .fabWxringHi 0 0 26 24)
        (fld v .fabWxringHi 0 0 15 0 * 2 ^ 32 + fld v .fabWxringLo 0 0 31 21 * 2 ^ 21) (512 * fld v .fabWxringHi 0 0 23 16) bytes v)) ∧
    (∀ p base slots bytes, (∀ c, spaceRead s p base 8 = .ok c → ringPut p base slots bytes s =
        (spaceWrite p base (leBytes 8 (leNat c + 1)) (spaceWrite p (base + 4096 * (1 + leNat c % (slots - 1))) bytes (spaceSeen p base 8 s)).2).2) ∧
      ∀ st, spaceRead s p base 8 = .error st → ringPut p base slots bytes s = spaceSeen p base 8 s))

/-- A codeword that could not be corrected is counted once; a flit with a bad CRC is counted and answered with NAK; a good one
acknowledges, returns credits and, if it is next in order, is delivered with those held behind it, or is held ahead of a gap
while fewer than 512 are; a gap open for 2 us sends NAK; a NAK, or no acknowledgement within REPLAYTO, sends every
unacknowledged flit again in order; a link fails once for each time it has no up lane for LINKTO, or when acknowledgements
stand still for LINKTO: its packets are dropped with 0x0407 or 0x0404, it is counted and begins again with full credits.
(R351, R352, R353, R354) -/
def Obligations.FabricLinks : Prop :=
  ∀ (l : LinkId) (t : Time) (s : State),
    let u := atTime t s
    let k := linkKey l
    (∀ f bytes crc (fec : Option Nat),
      let c := match fec with | some n => bump .fabFecunc 0 0 n u | none => u
      let v := modLink k (fun x => takeCredits f (takeAck f.ack u.time x)) u
      let v := if f.nak = true then replay k v else v
      let heard := s.swapped = true ∨ isMemory k = true
      exec (.flitReceive l f ⟨bytes, crc⟩ fec t) s = .next (collPump (if ¬ heard then c
        else if crc ≠ flitCrc f bytes ∨ fec ≠ none then sendIdle k true (bump .fabCrcerr 0 0 1 c)
        else pumpAll (if f.idle = true then v else sendIdle k false (sequencedFlit k f v))))) ∧
    (∀ f, let ahead := (f.seq + 4096 - (link s k).next) % 4096
      sequencedFlit k f s = if ahead = 0 then noteGap k (drainHeld 512 k (deliverFlit k f s))
        else if ahead < 2048 ∧ (link s k).held.length < 512 ∧ (∀ g ∈ (link s k).held, g.seq ≠ f.seq) then
          noteGap k (modLink k (fun x => { x with held := x.held ++ [f] }) s) else s) ∧
    (exec (.flitGapTimeout l t) s = .next (if ∃ g, (link s k).gap = some g ∧ g + 2000 ≤ u.time
      then sendIdle k true (modLink k (fun x => { x with gap := some u.time }) u) else u)) ∧
    (∀ nak, ∃ f, (sendIdle k nak s).out = s.out ++ [.flit (keyLink k) f] ∧ f.nak = nak ∧ f.idle = true ∧ f.packet = none ∧
      f.ack = ((link s k).next + 4095) % 4096) ∧
    (exec (.replayTimeout l t) s = .next (if (link s k).unacked ≠ [] ∧ (link s k).tryAt + 10 * fld s .fabLtime 0 0 15 0 ≤ u.time then replay k u else u)) ∧
    (∀ ack, exec (.nakReceive l ack t) s = .next (replay k (modLink k (takeAck ack u.time) u))) ∧
    (linkUp s k = true → (replay k s).out =
        s.out ++ (link s k).unacked.map (fun f => .flit (keyLink k) { f.flit with ack := ((link s k).next + 4095) % 4096 }) ∧
      raw (replay k s) .fabReplay 0 0 = Nat.min (2 ^ 32 - 1) (raw s .fabReplay 0 0 + (link s k).unacked.length) ∧
      (link (replay k s) k).unacked = (link s k).unacked ∧ (link (replay k s) k).ackAt = (link s k).ackAt) ∧
    (linkUp s k = false → replay k s = s) ∧
    (∀ (x : Link) a f b, x.unacked = a ++ f :: b → (∀ g ∈ a, g.flit.seq ≠ f.flit.seq) → (takeAck f.flit.seq u.time x).unacked = b) ∧
    (let limit := 1000 * fld s .fabLtime 0 0 31 16
      let failed := linkLanes s k ≠ [] ∧ isMemory k = false ∧ (if linkUp s k = true then (link s k).unacked ≠ [] ∧ (link s k).ackAt + limit ≤ u.time
        else linkDownSince s k + limit ≤ u.time ∧ (link s k).failedAt ≠ some (linkDownSince s k))
      let ps := failedPackets (link s k)
      let v := bump .fabLinkfail 0 0 1 (modLink k (fun x => { Link.reset with marks := x.marks, failedAt := if linkUp s k = true then none else some (linkDownSince s k) }) u)
      exec (.linkFailure l t) s = .next (if failed then pumpAll (ps.2.foldl (fun y p => dropPacket p.1 0x0404 p.2 y)
        (ps.1.foldl (fun y p => dropPacket p.1 0x0407 p.2 y) v)) else u))

/-- A swap is refused with 0x0406 unless the shadow is ready and nothing drains; an accepted one makes the shadow active with
the next epoch and keeps the old set; FORCE releases the old set at once; a marker of a stage goes out only when the markers
of every earlier stage of its TYPE have come and gone and no old packet waits on a link of the stage or in an input queue
before it; with every marker sent and received and no old packet held the set is released and the managers are told; a drain
longer than DRAINWARN raises one Warning. (R347, R348, R349, R350) -/
def Obligations.TableEpochs : Prop :=
  ∀ (t : Time) (s : State),
    let u := atTime t s
    (∀ (path : Path) (value : W32), WritesReg u path .fabTbl 0 0 value →
      let w := fetched path .fabTbl 0 0 value u
      let v := value.toNat
      let st := if bit v 31 = true then fabSwapStatus w else 0
      let y := written .fabTbl 0 0 value w
      let y := if bit v 31 = true then fabSwap y else y
      let y := if bit v 30 = true then fabForce y else y
      let z := if st = 0 then answered path .fabTbl 0 0 0 w y else answered path .fabTbl 0 0 st w w
      exec (.fabSwap path value t) s = .next z ∧ exec (.fabForce path value t) s = .next z) ∧
    (fabSwapStatus s = (if flag s .fabTbl 0 0 29 = true ∧ s.fabOld = none then 0 else 0x0406)) ∧
    (let v := fabSwap s
     v.epoch = (s.epoch + 1) % 4 ∧ v.fabActive = s.fabShadow ∧ v.fabOld = some s.fabActive ∧ flag v .fabTbl 0 0 29 = false ∧
      v.swapped = true ∧ v.drainAt = s.time ∧ (s.discovered = true → s.fabReady = none → v.fabReady = some s.time)) ∧
    (let v := fabForce s
     (s.fabOld = none → v = s) ∧ (s.fabOld ≠ none → v.fabOld = none ∧ v.sentMarks = [] ∧ (∀ k, (link v k).marks = [] ∧ (link v k).toMark = []) ∧ v.fabActive = s.fabActive ∧ v.epoch = s.epoch ∧
      ∀ d, v.fabShadow.route d = (Config.staleRoute s.free d).toNat ∧ v.fabShadow.tree d = (Config.staleTree s.free d).toNat)) ∧
    (∀ (l : LinkId) (typ : BitVec 2) (stage : Fin 6), let k := linkKey l
      let v := modLink k (fun x => { x with marks := if (6 * typ.toNat + stage.val) ∈ x.marks then x.marks else x.marks ++ [6 * typ.toNat + stage.val] }) u
      exec (.drainMarkerArrive l typ stage t) s = .next (drainProgress v)) ∧
    (∀ m, m ∈ (drainProgress s).sentMarks → m ∈ s.sentMarks ∨ (m < 24 ∧ s.fabOld ≠ none ∧ oldWaits s (m / 6) (m % 6) = false ∧
      oldHeld s (m / 6) (m % 6) = false ∧ ∀ e, e < m % 6 → stageMarked s (m / 6) e = true ∧ 6 * (m / 6) + e ∈ (drainProgress s).sentMarks)) ∧
    (let v := drainProgress u
     s.fabOld ≠ none → (∀ m, m < 24 → stageMarked v (m / 6) (m % 6) = true ∧ m ∈ v.sentMarks ∧ oldWaits v (m / 6) (m % 6) = false ∧ oldHeld v (m / 6) 6 = false) →
      exec (.drainRelease t) s = .next ((List.range 4).foldl (fun y n => if flag y .fabMgr n 0 31 = true then
        sendMgmt (fld y .fabMgr n 0 12 0) .drained y else y) (releaseOld v))) ∧
    (s.fabOld ≠ none → s.drainWarned = false → s.drainAt + 1000000 * fld s .fabCtl 0 0 15 8 < u.time →
      exec (.drainWarnTimeout t) s = .next (raise 0xB00C 2 none 0 0 { u with drainWarned := true }))

/-- A range of up to 128 MiB is cut into pieces that follow each other without a gap, each within one page at both ends, with
lengths that add up to the range; a remote segment is cut into packets of at most 4,096 bytes that do the same. (R101, R365,
R367) -/
def Obligations.SplitCoversTheRange : Prop :=
  (∀ a b o n, n ≤ 2 ^ 27 → sumNat ((cutPieces 200 a b o n).map (·.2)) = n) ∧
  (∀ (f a b o n x k : Nat), (x, k) ∈ cutPieces f a b o n → o ≤ x ∧ x + k ≤ o + n ∧ 0 < k ∧ (a + (x - o)) % 2 ^ 21 + k ≤ 2 ^ 21 ∧
    (b + (x - o)) % 2 ^ 21 + k ≤ 2 ^ 21) ∧
  (∀ (f a b o n i j x y k m : Nat), (cutPieces f a b o n)[i]? = some (x, k) → (cutPieces f a b o n)[j]? = some (y, m) → i < j → x + k ≤ y) ∧
  (∀ off n, n ≤ 2 ^ 21 → sumNat ((segPackets 513 off n).map (·.2)) = n ∧
    ∀ i x k, (segPackets 513 off n)[i]? = some (x, k) → x = off + 4096 * i ∧ 0 < k ∧ k ≤ 4096 ∧ x + k ≤ off + n)

/-- A taken RLD, RST, RAMO or ROWN is accepted unless requests of its bench wait: it retires from the system queue and its
request, with the header of its operation, enters the engine; RPUT and RGET are cut into segments whose packets enter the
engine. At its end an operation writes its result (zero-extended), its status and its predicate in its role, on the bench
where that stands or in its saved state, or, with SOFT 0 and a status other than 0, faults its program. (R103, R362, R363,
R364, R365, R366, R379, R382) -/
def Obligations.RemoteInstructions : Prop :=
  ∀ (b : BenchId) (e : Entry) (t : Time) (s : State),
    let u := atTime t s
    let p := benchPart s b
    let m := wMod e.word
    let off := (ptrOff (eVal e 2).toNat)
    let accept := fun (hdr : Transport) (payload : List Byte) (dest : Nat) =>
      let r : RemoteOp := { prog := (bench s b).prog, role := (bench s b).role, bench := b, part := p, off := e.off, opc := wOpc e.word, wide := hdr.wide, dest := dest, status := wImmBits e.word 5 0, pred := wIndex e.word 4, soft := wSoft e.word }
      let x : Txn := { owner := .op s.nextRop, part := p, near := ptrSpace (eVal e 2).toNat == 0, rank := e.rank, hdr := hdr, payload := payload, sent := u.time, tries := 0, nacked := false }
      enterRequest x (sysRetire b { u with rops := tset s.rops s.nextRop r, nextRop := s.nextRop + 1 })
    let split := fun (put : Bool) =>
      let fo := ptrOff (eVal e (if put = true then 1 else 2)).toNat
      let no := ptrOff (eVal e (if put = true then 2 else 1)).toNat
      let segs := (cutPieces 200 fo no 0 (eVal e 3).toNat).map fun c => newSeg (fo + c.1) (no + c.1) c.2
      let r : Req := { prog := (bench s b).prog, role := (bench s b).role, faulted := false, first := none, land := [], bench := b, eid := e.eid, part := p, ord := 13, off := e.off, write := put, segs := segs, record := some (wImmBits e.word 23 0), pred := wIndex e.word 4, soft := wSoft e.word, done := false, rank := some e.rank, ordered := bit m 5, nearDev := true, buf := none, head := false }
      sendWaiting ((List.range segs.length).foldl (fun y k =>
          startRemoteSeg s.nextReq k (ptrSpace (eVal e (if put = true then 1 else 2)).toNat == 0) y)
        (sysRetire b { u with reqs := tset s.reqs s.nextReq r, nextReq := s.nextReq + 1 }))
    (waitsToSend s b = false →
      (sysEntry s b 8 0x01 = some e → exec (.rld b t) s = .next (accept (requestHdr 0 (bit m 5) (bit m 0) 0 off) [] (wIndex e.word 1))) ∧
      (sysEntry s b 8 0x02 = some e → exec (.rst b t) s =
        .next (accept (requestHdr 1 (bit m 5) (bit m 0) 0 off) (leBytes (if bit m 0 = true then 8 else 4) (eVal e 1).toNat) 0)) ∧
      (sysEntry s b 8 0x03 = some e → let aop := wModBits e.word 3 0
        exec (.ramo b t) s = .next (accept (requestHdr 2 (bit m 5) (!(aopNarrow aop)) aop off)
          ((if aop = 13 ∨ aop = 14 then leBytes 8 (eVal e 1).toNat else []) ++ leBytes 8 (eVal e 3).toNat) (wIndex e.word 1))) ∧
      (sysEntry s b 8 0x08 = some e → exec (.rown b t) s = .next (accept (requestHdr 5 false false (wModBits e.word 1 0) off) [] 0)) ∧
      (sysEntry s b 8 0x04 = some e → exec (.rput b t) s = .next (split true)) ∧
      (sysEntry s b 8 0x05 = some e → exec (.rget b t) s = .next (split false))) ∧
    (waitsToSend s b = true →
      (sysEntry s b 8 0x01 = some e → exec (.rld b t) s = .next u) ∧ (sysEntry s b 8 0x02 = some e → exec (.rst b t) s = .next u) ∧
      (sysEntry s b 8 0x03 = some e → exec (.ramo b t) s = .next u) ∧ (sysEntry s b 8 0x08 = some e → exec (.rown b t) s = .next u) ∧
      (sysEntry s b 8 0x04 = some e → exec (.rput b t) s = .next u) ∧ (sysEntry s b 8 0x05 = some e → exec (.rget b t) s = .next u)) ∧
    (∀ n r st data, remoteOp? s n = some r →
      let v := countUnknown r.part st { s with rops := terase s.rops n }
      (r.prog = none → completeOp n st data s = v) ∧
      ∀ q, r.prog = some q → completeOp n st data s = if st ≠ 0 ∧ r.soft = false then roleFault q r.role 13 r.off st v
        else modRole q r.role (fun x => setPred r.pred (putS r.status (BitVec.ofNat 64 st.toNat)
          (if st = 0 ∧ (r.opc = 1 ∨ r.opc = 3) then putS r.dest (BitVec.ofNat 64 (leNat data)) x else x))) v) ∧
    (∀ q r f x, tget? s.progs q = some x → (x.saved ≠ [] → modRole q r f s = setProg q { x with saved := listMod x.saved r f } s) ∧
      (∀ k, x.saved = [] → x.place[r]? = some k → modRole q r f s = modBench k f s) ∧
      ∀ off st, (∀ k, x.saved[r]? = none → x.place[r]? = some k → roleFault q r 13 off st s = reportFault k 13 off st s) ∧
        (∀ y, x.saved[r]? = some y → roleFault q r 13 off st s = { s with reports := s.reports ++ [⟨q, 32, r, 13, off, st⟩] }))

/-- A delivered request with a bad header is discarded and counted; a new INST drops what is kept of the source; one below the
window is stale; one seen before is counted and, once done, answered again without being applied; an atomic for a full ledger
and an ORD request beyond the 64 held are answered with NACK; one whose queue is full waits; another is accepted. An accepted
request in turn is applied once at its page and answered, waits for a page that is not resident or for tokens of its group, or
is answered with its refusal; ROWN follows Table 11.9. RMA_PURGE and a new INST drop what is kept of a source, but what was
accepted of it stays to be applied and answered (the model's reading of R376 with R381, log entry 270). The first response
that fits a transaction completes it, another is counted; a notice that a response was dropped makes the home send it again; a
NACK is sent again after 2 us without counting as a retry; a transaction without an answer for RTO, or for which a drop notice
has come, is sent again until the retries are used up, then completes with 0x0487 for a read and 0x0488 for another operation;
a floor that has advanced is sent after 20 us; a request is sent only with less than OUTMAX transactions outstanding and less
than 1,024 above the floor. A gateway carries an accepted request over its connection for ORD or other traffic, with the
writes that go on from it up to 64 KiB, does not carry atomics and ownership, takes in what another gateway delivers, and
completes its operations with 0x0489 when the connection is lost. (R368, R370, R372, R373, R374, R375, R376, R377, R378, R381,
R382, R389) -/
def Obligations.RemoteExchange : Prop :=
  (∀ (t : Time) (s : State),
    let u := atTime t s
    (∀ pkt, takeArrived (fun a => a.pkt == pkt && a.pkt.route.typ == 0) u = none ∨ packetHdr pkt = none →
      exec (.requestArrive pkt t) s = .next u) ∧
    (∀ (pkt : Packet) (a : Arrived) (y : State) (h : Transport) (payload : List Byte),
      takeArrived (fun a => a.pkt == pkt && a.pkt.route.typ == 0) u = some (a, y) → packetHdr pkt = some (h, payload) →
      let src := pkt.route.src.toNat
      let seq := h.seq.toNat
      let bad := hdrBad h payload = true ∨ (isGwPacket pkt = true ∧ flag s .rmaGw 0 0 31 = false)
      let known := ∃ x, sourceOf y src = some x ∧ x.inst = h.inst.toNat
      let d := dropSource src y
      (bad → exec (.requestArrive pkt t) s = .next (bump .rmaDrophdr 0 0 1 y)) ∧
      (∀ z x, ¬ bad → ((known ∧ z = raiseFloor src (seqDiff seq h.lag.toNat) y) ∨
          (¬ known ∧ z = { d with sources := tset d.sources src ⟨h.inst.toNat, seqDiff seq h.lag.toNat, [], []⟩ })) → sourceOf z src = some x →
        let nacks := (h.op = 2 ∧ 65536 ≤ ledgerUsed z) ∨ (ordReady z src seq h = false ∧ 64 ≤ heldOrds z src)
        let fresh : HomeReq := ⟨pkt, a.part, false, none, 0, 0, false⟩
        (1024 ≤ seqDiff seq x.floor → exec (.requestArrive pkt t) s = .next (bump .rmaStale 0 0 1 z)) ∧
        (∀ r, seqDiff seq x.floor < 1024 → tget? x.reqs seq = some r → exec (.requestArrive pkt t) s =
          .next (if r.done = true ∧ r.again = false then answerAgain src r h (bump .rmaDup 0 0 1 z) else bump .rmaDup 0 0 1 z)) ∧
        (seqDiff seq x.floor < 1024 → tget? x.reqs seq = none →
          (nacks → exec (.requestArrive pkt t) s = .next (nack a.part src h z)) ∧
          (¬ nacks → queueBusy z fresh = true → exec (.requestArrive pkt t) s = .next u) ∧
          (¬ nacks → queueBusy z fresh = false →
            let w := if h.op = 2 then modPartition a.part (fun x => { x with ledgerMade := x.ledgerMade + 1 }) z else z
            let deny := h.op.toNat < 5 ∧ isGwPacket pkt = false ∧ ownDenied z a.part h.offset.toNat (isWriteOp h.op.toNat) src = true
            exec (.requestArrive pkt t) s = .next { w with sources := tset w.sources src { x with reqs := tset x.reqs seq { fresh with status := if deny then 0x0486 else 0 }, nacked := terase x.nacked seq }, accepted := w.accepted ++ [(src, seq)] })))) ∧
    (∀ (src : BitVec 13) (seq : BitVec 16) (r : HomeReq) (h : Transport) (payload : List Byte), let a := homeKey s src.toNat seq.toNat
      let q := seq.toNat
      let region := h.offset.toNat / 2 ^ 21
      let turn := r.again = true ∨ (r.done = false ∧ inTurn u a q r = true ∧ ordReady u a q h = true)
      homeReq s a q = some r → packetHdr r.pkt = some (h, payload) → isGwPacket r.pkt = false →
      (∀ w, r.wait = some w → exec (.requestApply src seq t) s = .next (requestApply a q (homeWake a q u)) ∧
        ((∃ l, leaf? u r.part w = some l ∧ l.res ≠ 0 ∧ l.res ≠ 3 ∧ l.t2d = false) → homeFrags u r.part h = false →
          exec (.requestApply src seq t) s = .next u) ∧
        ((∀ l, leaf? u r.part w = some l → l.res = 0 ∨ l.res = 3 ∨ l.t2d = true) → homeWake a q u = modHomeReq a q (fun r => { r with wait := none }) u)) ∧
      (r.wait = none → (¬ turn → exec (.requestApply src seq t) s = .next u) ∧
      (turn →
        (r.status ≠ 0 → exec (.requestApply src seq t) s = .next (finishHome a q r h r.status 0 [] u)) ∧
        (r.status = 0 → h.op = 6 → exec (.requestApply src seq t) s = .next (finishHome a q r h 0 0 [] u)) ∧
        (r.status = 0 → h.op = 5 → let o := ownResult s r.part region h.arg.toNat (a % 8192)
          exec (.requestApply src seq t) s = .next (finishHome a q r h o.1 0 [] (if o.1 = 0 then { u with owners := tset s.owners r.part (match o.2 with | some w => tset (tget s.owners r.part []) region w | none => terase (tget s.owners r.part []) region) } else u))) ∧
        (r.status = 0 → h.op.toNat < 5 →
          (∀ st, homePage u r.part h = some (.error st) → exec (.requestApply src seq t) s = .next (finishHome a q r h st 0 [] u)) ∧
          (∀ l, homePage u r.part h = some (.ok l) → let w := homeApply r.part l h payload (heatPage r.part region u)
            exec (.requestApply src seq t) s = .next (if admittedAt u r.part (paOf l h.offset.toNat) = true
              then finishHome a q r h w.1 w.2.1 w.2.2.1 w.2.2.2 else waitAt r.part (paOf l h.offset.toNat) u)) ∧
          (homePage u r.part h = none → exec (.requestApply src seq t) s =
            .next (waitPage r.part region (modHomeReq a q (fun r => { r with wait := some region }) u))))))) ∧
    (∀ p region node, (tget s.owners p []).length < 65536 →
      (regionOwner s p region = none → ownResult s p region 1 node = (0, some (.shared 1)) ∧
        ownResult s p region 2 node = (0, some (.exclusive node)) ∧ ownResult s p region 0 node = (0, none)) ∧
      (∀ n, regionOwner s p region = some (.exclusive n) → n ≠ node → ∀ q, q ≤ 2 → (ownResult s p region q node).1 = 0x0485) ∧
      (regionOwner s p region = some (.exclusive node) → ownResult s p region 0 node = (0, none) ∧
        ownResult s p region 1 node = (0, some (.shared 1)) ∧ (ownResult s p region 2 node).1 = 0x0485) ∧
      (∀ k, regionOwner s p region = some (.shared k) → (ownResult s p region 2 node).1 = 0x0485 ∧
        (k < 65535 → ownResult s p region 1 node = (0, some (.shared (k + 1)))) ∧
        ownResult s p region 0 node = (0, if k ≤ 1 then none else some (.shared (k - 1))))) ∧
    (∀ (path : Path) (value : W32), WritesReg u path .rmaPurge 0 0 value →
      let w := fetched path .rmaPurge 0 0 value u
      let y := written .rmaPurge 0 0 value w
      exec (.rmaPurge path value t) s = .next (answered path .rmaPurge 0 0 0 w
        (if bit value.toNat 31 = true then dropSource (bits value.toNat 12 0) y else y))) ∧
    (∀ n, n < 8192 → let d := dropSource n s
      sourceOf d n = none ∧ (∀ m, m < 8192 → m ≠ n → sourceOf d m = sourceOf s m) ∧ d.mem = s.mem ∧
      (∀ x, sourceOf s n = some x → let left := x.reqs.filter fun r => !r.2.done
        let k := lostKey s n
        k % 8192 = n ∧ 8192 ≤ k ∧ (left = [] → d.accepted = s.accepted) ∧
        (left ≠ [] → sourceOf d k = some { x with reqs := left, nacked := [] } ∧
          d.accepted = s.accepted.map fun a => if a.1 = n then (k, a.2) else a)))) ∧
  (∀ (t : Time) (s : State),
    let u := atTime t s
    (∀ (pkt : Packet) (h : Transport) (data : List Byte), pkt.body = .transport h data →
      (takeArrived (fun a => a.pkt == pkt && a.pkt.route.typ == 1) u = none → exec (.responseArrive pkt t) s = .next u) ∧
      ∀ (a : Arrived) (y : State), takeArrived (fun a => a.pkt == pkt && a.pkt.route.typ == 1) u = some (a, y) →
      (tget? s.txns h.tag.toNat = none → exec (.responseArrive pkt t) s = .next (bump .rmaDup 0 0 1 y)) ∧
      (∀ x, tget? s.txns h.tag.toNat = some x →
        let fits := x.hdr.seq = h.seq ∧ answers x.hdr.op.toNat h.op.toNat = true ∧ entryNode x.rank = pkt.route.src.toNat
        (¬ fits → exec (.responseArrive pkt t) s = .next (bump .rmaDup 0 0 1 y)) ∧
        (fits → exec (.responseArrive pkt t) s =
          .next (if h.op = 0x14 then { y with txns := tset s.txns h.tag.toNat { x with nacked := true, sent := u.time } }
            else sendWaiting (finishTxn h.tag.toNat (BitVec.ofNat 16 h.offset.toNat) data y))))) ∧
    (∀ (pkt : Packet) st (h : Transport) m a y, pkt.body = .notice st (some h) m → 0x10 ≤ h.op.toNat →
      takeArrived (fun a => a.pkt == pkt) u = some (a, y) → exec (.responseArrive pkt t) s = .next (respondAgain st h y)) ∧
    (∀ (tag : Nat) (x : Txn), tget? s.txns tag = some x →
      (exec (.nackResend tag t) s = .next (if x.nacked = true ∧ x.sent + 2000 ≤ u.time then resend tag u else u)) ∧
      (exec (.remoteRetransmit tag false t) s =
        .next (if x.nacked = false ∧ x.sent + 1000 * Nat.max 1 (fld s .rmaTimer 0 0 15 0) ≤ u.time then retry tag x u else u)) ∧
      (let told := takeArrived (fun a => match a.pkt.body with
          | .notice st (some h) _ => (st == 0x0404 || st == 0x0407) && Nat.blt h.op.toNat 0x10 && h.tag.toNat == tag && h.seq == x.hdr.seq
          | _ => false) u
       exec (.remoteRetransmit tag true t) s = .next (match told with | some (_, y) => retry tag x y | none => u)) ∧
      (fld s .rmaTimer 0 0 31 28 ≤ x.tries → retry tag x u =
        sendWaiting (finishTxn tag (if x.hdr.op = 0 ∨ x.hdr.op = 4 then 0x0487 else 0x0488) [] u)) ∧
      (x.tries < fld s .rmaTimer 0 0 31 28 → retry tag x u =
        resend tag (bump .rmaRetry x.part 0 1 { u with txns := tset s.txns tag { x with tries := x.tries + 1 } }))) ∧
    (∀ home : BitVec 13, let x := pairOf s home.toNat
      exec (.floorSend home t) s = .next (if x.floorDue = true ∧ x.sentAt + 20000 ≤ u.time then
        enterRequest { owner := .floor, part := x.part, near := x.near, rank := 1 + home.toNat * 2 ^ 16, hdr := requestHdr 6 false false 0 0, payload := [], sent := u.time, tries := 0, nacked := false } { u with pairs := tset s.pairs home.toNat { x with floorDue := false } }
        else u)) ∧
    (∀ (x : Txn) (v : State), trySend x s = .sent v → outCount s x.part < outMax s x.part ∧
      seqDiff (pairOf s (entryNode x.rank)).next (pairFloor (pairOf s (entryNode x.rank))) < 1024) ∧
    (∀ (src : BitVec 13) (seq : BitVec 16) (r : HomeReq) (rdom : BitVec 16) (rnode : BitVec 13) (h : Transport) payload (st : Status) data,
      let a := homeKey s src.toNat seq.toNat
      let go := exec (.gatewayForward (.outward src seq st data) t) s
      let turn := r.again = true ∨ (r.done = false ∧ ordReady u a seq.toNat h = true)
      homeReq s a seq.toNat = some r → r.pkt.body = .gateway rdom rnode h payload →
      (¬ turn → go = .next u) ∧
      (turn → h.op = 6 → go = .next (finishHome a seq.toNat r h 0 0 [] u)) ∧
      (turn → (h.op = 2 ∨ h.op = 5) → go = .next (finishHome a seq.toNat r h 0x048A 0 [] u)) ∧
      (turn → h.op ≠ 2 → h.op ≠ 5 → h.op ≠ 6 →
        ((gatewayQp s rdom.toNat h.ord = none ∨ ∃ q, gatewayQp s rdom.toNat h.ord = some q ∧ qpPaused u q = true) → go = .next u) ∧
        (∀ q, gatewayQp s rdom.toNat h.ord = some q → qpPaused u q = false →
          (isWriteOp h.op.toNat = false → go = .next (finishHome a seq.toNat r h st 0 (sliceBytes data 0 (reqLen h))
            (emit (.gatewayOp q rnode.toNat false h.offset.toNat [] (reqLen h)) u))) ∧
          (isWriteOp h.op.toNat = true → ∃ run : List (Nat × Nat) × List Byte, (a, seq.toNat) ∈ run.1 ∧ (∀ b ∈ run.1, b.1 = a) ∧
            payload <+: run.2 ∧ (payload.length ≤ 65536 → run.2.length ≤ 65536) ∧
            go = .next (run.1.foldl (gatewayEnd st []) (emit (.gatewayOp q rnode.toNat true h.offset.toNat run.2 run.2.length) u)))))) ∧
    (∀ qp (p : PartId) (rnode : BitVec 13) (off : BitVec 48) w n x rdom ord, tget? s.qps qp = some x → x.kind = .gateway rdom ord → x.failed = false →
      flag s .rmaGw 0 0 31 = true → ∃ ts : List Txn, exec (.gatewayForward (.inward qp p rnode off w n) t) s =
        .next (sendWaiting { u with sendQ := s.sendQ ++ ts }) ∧ (∀ x ∈ ts, x.owner = .gateway qp ∧ x.part = p ∧ entryNode x.rank = rnode.toNat ∧
          x.hdr.ord = ord ∧ (w.isSome = true → x.hdr.op = 1 ∨ x.hdr.op = 3) ∧ (w = none → x.hdr.op = 0 ∨ x.hdr.op = 4))) ∧
    (∀ rdom : BitVec 16, let v := s.accepted.foldl (loseGateway rdom.toNat) { u with qps := s.qps.map fun (q : Nat × QueuePair) => (q.1, failGateway rdom.toNat q.2) }
      exec (.gatewayConnectionLost rdom t) s =
        .next ((v.sources.flatMap fun x => (x.2.reqs.filter fun r => r.2.again).map fun r => (x.1, r.1)).foldl (loseAgain rdom.toNat) v)) ∧
    (∀ rdom (r : HomeReq) d n (h : Transport) payload a, homeReq s a.1 a.2 = some r → r.pkt.body = .gateway d n h payload → d.toNat = rdom →
      (r.done = false → loseGateway rdom s a = finishHome a.1 a.2 r h 0x0489 0 [] s) ∧
      (r.again = true → loseAgain rdom s a = finishHome a.1 a.2 r h 0x0489 0 [] s)))

/-- A round with every signature like that of member 0 ends in GO with the reduced values (or the end of member 0's
collective, when GO is refused at injection), one with a different signature in an abort with 0x0701 of the offending member
of lowest index. A 64-bit sum is the sum of the contributions wrapped to 64 bits, a minimum is the least of them and a maximum
the greatest, in whatever order they came; a fixed-point sum is exact and clamped once. (R402, R403, R404, R407, R408) -/
def Obligations.CsredReduces : Prop :=
  (∀ (p n : Nat) (d : GroupDesc) (seq : Nat) (r : Gather) (s : State) (z : GatherItem), r.items.find? (fun i => i.member == 0) = some z →
    ((∀ i ∈ r.items, i.member < d.members.length → i.sig = z.sig) →
      let v := if z.sig.op = 0x81 then csredReduce z.sig.mode.toNat r.items else ([], 0)
      let y := modGroup p d.group n (fun x => { x with rounds := terase x.rounds seq, folded := x.folded + r.items.length }) s
      let a := sendAll p d (.go (BitVec.ofNat 16 d.group) (BitVec.ofNat 32 seq) d.chunk v.1 (BitVec.ofNat 2 v.2)) y
      (a.1 = 0 → decideRound p n d seq r s = a.2) ∧
      ∀ c, a.1 ≠ 0 → openColl a.2 p d.group 0 seq = some c → decideRound p n d seq r s = refusedColl c.1 a.1 a.2) ∧
    (∀ m, m < d.members.length → (∃ i ∈ r.items, i.member = m ∧ i.sig ≠ z.sig) → (∀ i ∈ r.items, i.member < m → i.sig = z.sig) →
      decideRound p n d seq r s = sendAbort p d seq 0x0701 m (dropRound p d.group n seq s))) ∧
  (∀ (items : List GatherItem) (i : GatherItem) (k : Nat), let vs := items.map fun j => (j.values[k]?).getD 0
    items.head? = some i → k < i.values.length →
    (csredReduce 0x00 items).1[k]? = some (signed 64 (unsign 64 vs.sum)) ∧
    (csredReduce 0x04 items).1[k]? = some ((unsign 64 vs.sum : Nat) : Int) ∧
    (csredReduce 0x0C items).1[k]? = some (fixClamp vs.sum).1 ∧
    ((∀ v ∈ vs, 0 ≤ v ∧ v < 2 ^ 64) → ∃ a b, (csredReduce 0x05 items).1[k]? = some a ∧ (csredReduce 0x06 items).1[k]? = some b ∧
      a ∈ vs ∧ b ∈ vs ∧ ∀ v ∈ vs, a ≤ v ∧ v ≤ b))

/-- A taken collective waits while requests of its bench wait or 8 of its member are outstanding on the group; otherwise the
aborts that came before the group was active are taken up, it retires from the system queue and its sequence rises by one.
With an abort recorded for that sequence it completes with the recorded status, on a dead group with 0x0704; else its
contribution goes to the part of the lowest member of its fabric group, and one refused at injection completes with the
refusal. A completion writes the status scalar and the predicate, and with SOFT 0 a status other than 0 faults the program.
(R396, R397, R400, R403, R405, R413) -/
def Obligations.CollectiveInstructions : Prop :=
  ∀ (b : BenchId) (e : Entry) (t : Time) (s : State) (i : Instr) (opc n : Nat) (d : GroupDesc),
    ((i = .cbar b t ∧ opc = 0x80) ∨ (i = .csred b t ∧ opc = 0x81) ∨ (i = .ctar b t ∧ opc = 0x82) ∨ (i = .ctrs b t ∧ opc = 0x83) ∨
      (i = .ctag b t ∧ opc = 0x84) ∨ (i = .ctbc b t ∧ opc = 0x85)) →
    sysEntry s b 8 opc = some e → (bench s b).prog = some n → groupOfWord s b e.word = some d →
    let u := atTime t s
    let p := benchPart s b
    let m := memberOf s d (bench s b).role
    let w := takeEarlies p n d u
    let x := collGroup w p d.group n
    let seq := nextSeq x m
    let y := sysRetire b (modGroup p d.group n (fun x => { x with seqs := tset x.seqs m ((seq + 1) % 2 ^ 32), aborts := x.aborts.filter fun a => !(a.member == m && a.seq == seq) }) w)
    let busy := (s.colls.filter fun c => c.2.prog == n && c.2.group == d.group && c.2.member == m).length
    ((waitsToSend s b = true ∨ 8 ≤ busy) → exec i s = .next u) ∧
    (waitsToSend s b = false → busy < 8 →
      (∀ a, x.aborts.find? (fun a => a.member == m && a.seq == seq) = some a →
        exec i s = .next (reportColl b (some n) e.off e.word a.status (collStatus a.status false false a.who a.rank) y)) ∧
      (∀ k r, x.aborts.find? (fun a => a.member == m && a.seq == seq) = none → x.dead = some (k, r) →
        exec i s = .next (reportColl b (some n) e.off e.word 0x0704 (collStatus 0x0704 false false k r) y)) ∧
      (∀ z, x.aborts.find? (fun a => a.member == m && a.seq == seq) = none → x.dead = none → nodeOfMember d (leadOf d m) = some z →
        let vf := if wOpc e.word = 0x81 then csredValues e else ([], 0)
        let c : Coll := { prog := n, bench := b, part := p, group := d.group, member := m, off := e.off, word := e.word, sig := signatureOf e d seq, dst := (eVal e 1).toNat, src := (eVal e 2).toNat, values := vf.1, flags := vf.2, go := none, goAt := 0, pos := 0, got := [], folded := [], sat := false }
        let v := { y with colls := tset y.colls y.nextColl c, nextColl := y.nextColl + 1 }
        let v := if m = leadOf d m then modGroup p d.group n (fun x => { x with rounds := tset x.rounds seq ⟨u.time, []⟩ }) v else v
        let r := sendColl p z (contributionOf c d) v
        exec i s = .next (if r.1 = 0 then r.2 else refusedColl y.nextColl r.1 r.2))) ∧
    (∀ (v : State) (a : EarlyAbort), let g := collGroup v p d.group n
      collGroup (takeEarly p n d v a) p d.group n = { g with aborts := g.aborts ++ (localMembers v d).map (fun m => ⟨m, a.seq, a.status, a.who, a.rank⟩), dead := if a.status = 0x0703 ∧ g.dead = none then some (a.who, a.rank) else g.dead }) ∧
    (∀ st v, let z := modBench b (fun x => setPred (wIndex e.word 4 % 16) (putS (wImmBits e.word 21 16) v x)) s
      reportColl b (some n) e.off e.word st v s = if st ≠ 0 ∧ wSoft e.word = false then reportFault b 13 e.off st z else z) ∧
    (∀ k st v, k ≠ n → reportColl b (some k) e.off e.word st v s = s)

/-- A contribution for a group that is not active or a sequence not reached is answered not-ready, a second copy is counted
and discarded; a fabric group's contributions are gathered at its lowest member's part and go on to member 0's, where the last
one decides the round; GO, once, completes a barrier and a scalar reduction and starts a tensor collective; a contribution
answered not-ready and a packet that a notice says was dropped go out again after 2 us; COLTO without every signature, or
after GO without every chunk, aborts with 0x0702 and the lowest member missing; an abort completes the open collective with
its status or is recorded for a sequence not issued, on a group not yet active too, and the stop of a member makes the group
dead. A chunk contribution for the member's block waits for GO and a free staging slot, is staged once and counted; CRU0 of
the member's bench folds the oldest staged chunk of the bench in FP32 into the accumulator that the member's own contribution
began, and one that cannot be read aborts the collective; a result chunk is written once at the destination of every member of
this part. (R402, R403, R404, R405, R406, R407, R409, R410, R412, R413) -/
def Obligations.CollectiveTraffic : Prop :=
  (∀ (p : PartId) (t : Time) (s : State),
    let u := atTime t s
    (∀ (src : BitVec 13) msg, takeColl p (some src.toNat) msg u = none → exec (.signatureArrive p src msg t) s = .next u) ∧
    (∀ (src : BitVec 13) sig m values flags ch y, let msg : CollMsg := .contribution sig m values flags ch
      takeColl p (some src.toNat) msg u = some y → exec (.signatureArrive p src msg t) s =
        .next (roundArrive p src.toNat sig.group.toNat sig.seq.toNat m m 0 [⟨m, sig, values, flags.toNat⟩] y)) ∧
    (∀ (src : BitVec 13) (g : BitVec 16) (seq : BitVec 32) lead items y, let msg : CollMsg := .summary g seq lead items
      takeColl p (some src.toNat) msg u = some y → exec (.signatureArrive p src msg t) s =
        .next (roundArrive p src.toNat g.toNat seq.toNat 0 lead 4 items y)) ∧
    (∀ src g seq lead from_ kind items, (collLive s p g = none → roundArrive p src g seq lead from_ kind items s = answerNotReady p src g seq from_ none s) ∧
      ∀ n x d, collLive s p g = some (n, x, d) →
        let q := collGroup s p g n
        let l := if kind = 0 then leadOf d lead else lead
        let mine := nodeOfMember d l = some (ownNode s) ∧ nodeOfMember d from_ = some src
        let early := x.state = .saved ∨ notReached q l seq = true
        let got := roundArrive p src g seq lead from_ kind items s
        (¬ mine → got = s) ∧ (mine → early → got = answerNotReady p src g seq from_ none s) ∧
        (mine → ¬ early → (⟨kind, seq, from_, 0, 0⟩ : CollSeen) ∈ q.seen → got = dupColl p g n items.length s) ∧
        (mine → ¬ early → (⟨kind, seq, from_, 0, 0⟩ : CollSeen) ∉ q.seen → got = gather p n d seq l items
          (modGroup p g n (fun x => { x with seen := x.seen ++ [⟨kind, seq, from_, 0, 0⟩], received := x.received + items.length }) s))) ∧
    (∀ n d seq l items, (tget? (collGroup s p d.group n).rounds seq = none → gather p n d seq l items s =
        modGroup p d.group n (fun x => { x with aborted := x.aborted + items.length }) s) ∧
      ∀ r, tget? (collGroup s p d.group n).rounds seq = some r →
        let r : Gather := { r with items := r.items ++ items }
        let z := modGroup p d.group n (fun x => { x with rounds := tset x.rounds seq r }) s
        (l = 0 → gather p n d seq l items s = if r.items.length = d.members.length then decideRound p n d seq r z else z) ∧
        (l ≠ 0 → gather p n d seq l items s = if r.items.length = (ledBy d l).length then sendSummary p d seq l r z else z)) ∧
    (∀ (g : BitVec 16) (seq : BitVec 32) ch vs flags, let msg : CollMsg := .go g seq ch vs flags
      (takeColl p none msg u = none → exec (.goArrive p msg t) s = .next u) ∧
      ∀ y, takeColl p none msg u = some y → (collLive y p g.toNat = none → exec (.goArrive p msg t) s = .next y) ∧
        ∀ n x d, collLive y p g.toNat = some (n, x, d) → let key : CollSeen := ⟨3, seq.toNat, 0, 0, 0⟩
          (key ∈ (collGroup y p g.toNat n).seen → exec (.goArrive p msg t) s = .next (dupColl p g.toNat n 0 y)) ∧
          (key ∉ (collGroup y p g.toNat n).seen → exec (.goArrive p msg t) s = .next (collPump ((localMembers y d).foldl
            (goMember p g.toNat seq.toNat ch vs flags.toNat)
            (modGroup p g.toNat n (fun x => { x with seen := x.seen ++ [key] }) (endGather p g.toNat n seq.toNat y)))))) ∧
    (∀ g seq ch vs flags m, (openColl s p g m seq = none → goMember p g seq ch vs flags s m = s) ∧ ∀ id (c : Coll), openColl s p g m seq = some (id, c) →
      let y := modColl id (fun c => { c with go := some ch, goAt := s.time }) s
      (c.go ≠ none → goMember p g seq ch vs flags s m = s) ∧
      (c.go = none → (collOpc c = 0x80 → goMember p g seq ch vs flags s m = completeColl id 0 0 0 y) ∧
      (collOpc c = 0x81 → goMember p g seq ch vs flags s m = completeColl id 0 0 0 (modColl id (fun c => { c with flags := flags })
        (if (bench s c.bench).prog = some c.prog then modBench c.bench (csredWrite c vs) y else y))) ∧
      (collOpc c ≠ 0x80 → collOpc c ≠ 0x81 → goMember p g seq ch vs flags s m = y))) ∧
    (∀ (g : BitVec 16) (seq : BitVec 32) m, let told := takeArrived (fun a => a.part == p && Nat.ble (a.time + 2000) u.time && (match a.pkt.body with
        | .collective (.notReady h q k _) => h.toNat == g.toNat && q.toNat == seq.toNat && k == m | _ => false)) u
      (told = none → exec (.notReadyResend p g seq m t) s = .next u) ∧
      ∀ (a : Arrived) y, told = some (a, y) →
        ((openColl y p g.toNat m seq.toNat = none ∨ collLive y p g.toNat = none) → exec (.notReadyResend p g seq m t) s = .next y) ∧
        ∀ id c n x d, openColl y p g.toNat m seq.toNat = some (id, c) → collLive y p g.toNat = some (n, x, d) →
          let ofSummary := m ≠ 0 ∧ leadOf d m = m ∧ nodeOfMember d m ≠ nodeOfMember d 0 ∧ some a.pkt.route.src.toNat = nodeOfMember d 0
          let sentBy := fun (r : Status × State) => exec (.notReadyResend p g seq m t) s = .next (if r.1 = 0 then r.2 else refusedColl id r.1 r.2)
          (a.pkt.body = .collective (.notReady g seq m none) →
            (c.go ≠ none → exec (.notReadyResend p g seq m t) s = .next y) ∧
            (∀ r, c.go = none → ofSummary → tget? (collGroup y p g.toNat c.prog).rounds seq.toNat = some r →
              exec (.notReadyResend p g seq m t) s = .next (sendSummary p d seq.toNat m r y)) ∧
            (∀ z, c.go = none → ¬ ofSummary → nodeOfMember d (leadOf d m) = some z → sentBy (sendColl p z (contributionOf c d) y))) ∧
          (∀ dst k, a.pkt.body = .collective (.notReady g seq m (some (dst, k))) → let v := spaceSeen p (sourceAt c dst k) (chunkLen c k) y
            (∀ st, spaceRead y p (sourceAt c dst k) (chunkLen c k) = .error st → exec (.notReadyResend p g seq m t) s = .next (dataFail id v)) ∧
            (∀ bs z, spaceRead y p (sourceAt c dst k) (chunkLen c k) = .ok bs → nodeOfMember d dst = some z →
              sentBy (sendColl p z (.chunk c.sig m dst k bs) v)))) ∧
    (∀ (dst : BitVec 13) msg g (a : Arrived) y, resendGroup msg = some g → takeArrived (fun a => a.part == p && Nat.ble (a.time + 2000) u.time
        && (match a.pkt.body with | .notice _ _ (some m) => m == msg | _ => false)) u = some (a, y) →
      (collLive u p g = none → exec (.collectiveResend p dst msg t) s = .next y) ∧
      ∀ n x d, collLive u p g = some (n, x, d) → exec (.collectiveResend p dst msg t) s =
        .next (if dst.toNat ∈ groupNodes d then (sendColl p dst.toNat msg (bump .colResend 0 0 1 y)).2 else u)) ∧
    (∀ (g : BitVec 16) (seq : BitVec 32) m, (collLive s p g.toNat = none → exec (.collectiveTimeout p g seq m t) s = .next u) ∧
      ∀ n x d, collLive s p g.toNat = some (n, x, d) → let q := collGroup s p g.toNat n
      let ended := fun (k : Option Nat) (v : State) => exec (.collectiveTimeout p g seq m t) s =
        .next (match k with | some k => sendAbort p d seq.toNat 0x0702 k v | none => u)
      (∀ r, m = 0 → tget? q.rounds seq.toNat = some r →
        (u.time < r.since + colto s p → exec (.collectiveTimeout p g seq m t) s = .next u) ∧
        (r.since + colto s p ≤ u.time → ended ((List.range d.members.length).find? (fun k => !(r.items.any fun i => i.member == k))) (dropRound p g.toNat n seq.toNat u))) ∧
      (∀ id c, (m = 0 → tget? q.rounds seq.toNat = none) → openColl s p g.toNat m seq.toNat = some (id, c) →
        ((c.go = none ∨ u.time < c.goAt + colto s p) → exec (.collectiveTimeout p g seq m t) s = .next u) ∧
        (c.go ≠ none → c.goAt + colto s p ≤ u.time → ended (missingMember q c) u))) ∧
    (∀ (g : BitVec 16) (seq : BitVec 32) st who rank, let msg : CollMsg := .abort g seq st who rank
      (takeColl p none msg u = none → exec (.collectiveAbort p msg t) s = .next u) ∧
      ∀ y, takeColl p none msg u = some y →
        (collLive y p g.toNat = none → exec (.collectiveAbort p msg t) s = .next (if lateAbort y p g.toNat seq.toNat = true then y
          else modPartition p (fun q => { q with early := q.early ++ [⟨g.toNat, seq.toNat, st, who, rank.toNat⟩] }) y)) ∧
        ∀ n x d, collLive y p g.toNat = some (n, x, d) →
          let z := if (localMembers y d).any (fun m => notReached (collGroup y p g.toNat n) m seq.toNat || (openColl y p g.toNat m seq.toNat).isSome) = true
            then noteAbort p g.toNat st who rank.toNat y else y
          let z := (localMembers y d).foldl (abortMember p g.toNat seq.toNat n st who rank.toNat) z
          let rounds := if st = 0x0703 then (collGroup z p g.toNat n).rounds.map (·.1) else [seq.toNat]
          let z := rounds.foldl (fun z r => dropRound p g.toNat n r z) z
          exec (.collectiveAbort p msg t) s = .next (collPump (if st = 0x0703 then modGroup p g.toNat n (fun x => { x with dead := some (who, rank.toNat) }) z else z))) ∧
    (∀ g seq n st who rank m, notReached (collGroup s p g n) m seq = true →
      ∃ a ∈ (collGroup (abortMember p g seq n st who rank s m) p g n).aborts, a.member = m ∧ a.seq = seq ∧ a.status = st)) ∧
  ((∀ (p : PartId) (src : BitVec 13) (t : Time) (s : State) sig m dst k bs y,
    let u := atTime t s
    let msg : CollMsg := .chunk sig m dst k bs
    let g := sig.group.toNat
    let seq := sig.seq.toNat
    let key : CollSeen := ⟨1, seq, m, dst, k⟩
    let answer := answerNotReady p src.toNat g seq m (some (dst, k)) y
    takeColl p (some src.toNat) msg u = some y →
    (collLive s p g = none → exec (.chunkArrive p src msg t) s = .next (collPump answer)) ∧
    ∀ n x d, collLive s p g = some (n, x, d) → let q := collGroup s p g n
      let mine := nodeOfMember d dst = some (ownNode s) ∧ nodeOfMember d m = some src.toNat
      let early := x.state = .saved ∨ notReached q dst seq = true
      let noted := modGroup p g n (fun x => { x with seen := x.seen ++ [key], received := x.received + 1 }) y
      (¬ mine → exec (.chunkArrive p src msg t) s = .next (collPump y)) ∧
      (mine → early → exec (.chunkArrive p src msg t) s = .next (collPump answer)) ∧
      (mine → ¬ early → key ∈ q.seen → exec (.chunkArrive p src msg t) s = .next (collPump (dupColl p g n 1 y))) ∧
      (mine → ¬ early → key ∉ q.seen →
        (openColl s p g dst seq = none → exec (.chunkArrive p src msg t) s =
          .next (collPump (modGroup p g n (fun x => { x with aborted := x.aborted + 1 }) noted))) ∧
        ∀ id c, openColl s p g dst seq = some (id, c) →
          let full := d.depth ≤ (q.staged.filter fun z => z.member == dst).length
          ((c.go = none ∨ full) → exec (.chunkArrive p src msg t) s = .next (collPump u)) ∧
          (c.go ≠ none → ¬ full → exec (.chunkArrive p src msg t) s =
            .next (collPump (modGroup p g n (fun x => { x with staged := x.staged ++ [⟨seq, m, dst, k, bs⟩] }) noted))))) ∧
  (∀ (p : PartId) (src : BitVec 13) (t : Time) (s : State) (g : BitVec 16) (seq : BitVec 32) m dst k bs sat y,
    let msg : CollMsg := .result g seq m dst k bs sat
    let key : CollSeen := ⟨2, seq.toNat, m, 0, k⟩
    takeColl p (some src.toNat) msg (atTime t s) = some y →
    (collLive s p g.toNat = none → exec (.chunkArrive p src msg t) s = .next (collPump y)) ∧
    ∀ n x d, collLive s p g.toNat = some (n, x, d) → let mine := (localMembers s d).filterMap fun q => openColl s p g.toNat q seq.toNat
      (key ∈ (collGroup s p g.toNat n).seen → exec (.chunkArrive p src msg t) s = .next (collPump (dupColl p g.toNat n 0 y))) ∧
      (key ∉ (collGroup s p g.toNat n).seen → (∃ c ∈ mine, c.2.go = none) → exec (.chunkArrive p src msg t) s = .next (collPump (atTime t s))) ∧
      (key ∉ (collGroup s p g.toNat n).seen → (∀ c ∈ mine, c.2.go ≠ none) → exec (.chunkArrive p src msg t) s =
        .next (collPump (mine.foldl (fun z c => writeChunk c.1 m k bs sat z) (modGroup p g.toNat n (fun x => { x with seen := x.seen ++ [key] }) y))))) ∧
  (∀ (b : BenchId) (s : State),
    let oldest := s.groups.findSome? (fun q => q.2.staged.findSome? fun y => match openColl s (q.1 / 65536) (q.1 % 65536) y.member y.seq with
      | some c => bif c.2.bench == b.val then some (y, c) else none | none => none)
    let runs := (bench s b).halted.contains 9 = false ∧ isUp s 1 (b * 16 + 9) = true
    ((oldest = none ∨ ¬ runs) → exec (.collectiveChunkFold b) s = .next s) ∧
    ∀ (y : Staged) id c, oldest = some (y, (id, c)) → runs →
      let z := ensureAcc id y.chunk s
      let r := fun (a : ChunkAcc) => foldElems (wModBits c.word 1 0) a.vals (chunkElems c y.data)
      (z.1 = false → exec (.collectiveChunkFold b) s = .next (dataFail id z.2)) ∧
      (z.1 = true → exec (.collectiveChunkFold b) s = .next (collPump (endTensor id (finishChunk id y.chunk (modGroup c.part c.group c.prog (fun x => { x with staged := x.staged.filter (fun z => !(z == y)), folded := x.folded + 1, accs := modFirst (fun a => a.seq == y.seq && a.member == y.member && a.chunk == y.chunk) (fun a => { a with vals := (r a).1, sat := a.sat || (r a).2, folded := a.folded ++ [y.sender] }) x.accs }) z.2)))))))

/-- A word of any unit with opcode 0x00, a word of unit 10 to 15, and so the all-zero word, fails its first decode check with
0x0101; a running sequencer whose next word it is reports a fault with 0x0101 at its offset and has faulted. (R71) -/
def Obligations.UndefinedOpcodes : Prop :=
  ∀ (b : BenchId) (t : Time) (s : State) (w : W128) (n : Nat),
    let x := bench s b
    (wOpc w = 0 ∨ (10 ≤ wUnit w ∧ wUnit w ≤ 15) ∨ w = 0) → x.prog = some n → (x.seq = 1 ∨ x.seq = 2) → x.pc ≠ x.slen →
    bufferWord x x.pc = some w → ∃ v, exec (.issueStep b t) s = .next v ∧
      v.reports = s.reports ++ [⟨n, b, x.role, 15, x.pc, 0x0101⟩] ∧ (bench v b).seq = 5 ∧ (bench v b).scalars = x.scalars

/-- A message with a bad header is refused with 0x0810, a repeated SEQUENCE is answered with the stored reply, one that passes
its checks is queued and renews the lease, another is refused with its status. The request at the front of a mailbox is
executed and answered, its reply stored: OPEN with the join key opens the lowest closed session, ATTACH with token and key
opens it again, CLOSE frees it or is refused with 0x0818 while programs stand, HEARTBEAT answers the lease, REGREAD and
REGWRITE access registers in order, MRREG and MRDEREG make and drop regions, INTAKE_ADD, INTAKE_DEL and CANCEL act on lists,
EVSUB subscribes, GWCONN asks for eight queue pairs. What the spec leaves without a status is refused with a free one. A
request of a session whose freeing has begun is refused with 0x0815. (R421, R423, R425, R426, R427, R428, R429, R430, R431,
R432, R434, R504) -/
def Obligations.Mailboxes : Prop :=
  ∀ (qp k : Nat) (m : Message) (rest : List Message) (t : Time) (s : State),
    let u := atTime t s
    (awake s = true → s.recovery = false → qpMailbox s qp = some k →
      (headerPasses m = false → exec (.messageReceive qp m t) s = .next (emit (.reply qp (refusal m 0x0810)) u)) ∧
      (headerPasses m = true → let v := renewLease k u
        (∀ r, (mailbox s k).replies.find? (fun r => r.seq == m.seq) = some r → exec (.messageReceive qp m t) s = .next (emit (.reply qp r) v)) ∧
        ((mailbox s k).replies.find? (fun r => r.seq == m.seq) = none → (∀ o ∈ (mailbox s k).queue, o.seq ≠ m.seq) →
          exec (.messageReceive qp m t) s = .next (if receiveStatus v k m = 0
            then setMailbox k { mailbox s k with queue := (mailbox s k).queue ++ [m] } v
            else emit (.reply qp (refusal m (receiveStatus v k m))) v)) ∧
        ((mailbox s k).replies.find? (fun r => r.seq == m.seq) = none → (∃ o ∈ (mailbox s k).queue, o.seq = m.seq) →
          exec (.messageReceive qp m t) s = .next v) ∧
        (64 ≤ (mailbox s k).queue.length → receiveStatus v k m ≠ 0))) ∧
    ((awake s = false ∨ s.recovery = true ∨ qpMailbox s qp = none) → exec (.messageReceive qp m t) s = .next u) ∧
    (∀ r : Served, ∃ o new, (answer qp k m r).out = r.state.out ++ [.reply qp o] ∧ o.status = r.status ∧ o.seq = m.seq ∧
      o.typ = m.typ ||| 0x8000 ∧ o.body = r.body ∧ o ∈ (mailbox (answer qp k m r) new).replies) ∧
    (∀ part key, Serves u qp 1 k m rest → exec (.openSession qp part key t) s = .next (replied u qp k m rest fun y =>
      if part < 8 ∧ raw y .stwPkey part 0 = key.toNat ∧ flag y .schCtl part 0 7 = true then
        match lowest (fun n => (session y n).state == .closed) 32 0 with
        | none => ends 0x0813 y
        | some n =>
          let x : Session := { state := .open_, part := part, token := Config.attachToken y.free, window := Config.remoteKey (y.free + 1), renewed := y.time, since := 0, regions := [], lists := [], evsub := none }
          ⟨0, .opened n x.token x.window, useQp qp (.mailbox n) (setSession n x { y with free := y.free + 2 })⟩
      else ends 0x0812 y)) ∧
    (∀ n token key, Serves u qp 2 k m rest → n < 32 → let x := session s n
      exec (.attach qp n token key t) s = .next (replied u qp k m rest fun y =>
        if x.state = .closed ∨ x.state = .freeing then ends 0x0815 y
        else if x.token = token ∧ raw s .stwPkey x.part 0 = key.toNat then ends 0 (useQp qp (.mailbox n) (retireMailbox n
          ((sessionProgs s n).foldl (fun z p => letGo p z) (setSession n { x with state := .open_, renewed := u.time } y))))
        else ends 0x0812 y)) ∧
    (∀ force, Serves u qp 3 k m rest → bit m.flags.toNat 1 = force → exec (.close qp force t) s = .next (replied u qp k m rest fun y =>
      if force = false ∧ (session s k).state = .open_ ∧ sessionProgs s k ≠ [] then ends 0x0818 y else ends 0 (beginFreeing k 0x0819 y))) ∧
    (Serves u qp 4 k m rest → exec (.heartbeat qp t) s = .next (replied u qp k m rest fun y =>
      ⟨0, .lease (if k < 32 then ((session s k).renewed + leaseLength s (session s k).part - u.time) / 1000000 else Config.adminLease), y⟩)) ∧
    (∀ addrs, Serves u qp 0x10 k m rest → exec (.regread qp addrs t) s = .next (replied u qp k m rest fun y =>
      if addrs = [] then ⟨1, .values [], y⟩ else if 1024 < addrs.length then ends (Config.requestRefusal 5) y
      else ⟨(readAll (keyPath k) addrs y).1, .values (readAll (keyPath k) addrs y).2.1, (readAll (keyPath k) addrs y).2.2⟩)) ∧
    (∀ writes, Serves u qp 0x11 k m rest → exec (.regwrite qp writes t) s =
      .next (replied u qp k m rest fun y => let r := writeAll (keyPath k) 0 writes y
        if writes = [] then ends 1 y else if 1024 < writes.length then ends (Config.requestRefusal 5) y
        else if r.1 = 0 then ends 0 r.2.2 else ⟨r.1, .refusedAt r.2.1, r.2.2⟩)) ∧
    (∀ base len (access : BitVec 2), Serves u qp 0x20 k m rest → let x := session s k
      exec (.mrreg qp base len access t) s = .next (replied u qp k m rest fun y =>
        if base % 4096 = 0 ∧ len % 4096 = 0 ∧ (∀ v ∈ rangePages base len, (leaf? s x.part v).isSome = true) then
          if 256 ≤ x.regions.length then ends 0x081A y else
            let r : Region := { rkey := Config.remoteKey y.free, base := base, len := len, read := bit access.toNat 0, write := bit access.toNat 1, revoked := [] }
            ⟨0, .rkey r.rkey, modSession k (fun x => { x with regions := x.regions ++ [r] }) { y with free := y.free + 1 }⟩
        else ends 0x081B y)) ∧
    (∀ rkey, Serves u qp 0x21 k m rest → exec (.mrdereg qp rkey t) s = .next (replied u qp k m rest fun y =>
      if ∃ r ∈ (session s k).regions, r.rkey = rkey then ends 0 (modSession k (fun x => { x with regions := x.regions.filter fun r => !(r.rkey == rkey) }) y)
      else ends (Config.requestRefusal 0) y)) ∧
    (∀ base entries cap notify, Serves u qp 0x30 k m rest → bit m.flags.toNat 2 = notify → let x := session s k
      exec (.intakeAdd qp base entries cap notify t) s = .next (replied u qp k m rest fun y =>
        if entries = 0 ∨ 4096 < entries then ends (Config.requestRefusal 1) y
        else if base % 4096 = 0 ∧ (∀ v ∈ rangePages base (64 + 64 * entries), pinnedHbm s x.part v = true) then
          match lowest (fun l => !(thas x.lists l)) 8 0 with
          | none => ends 0x081A y
          | some l => ⟨0, .listNo l, modSession k (fun x => { x with lists := tset x.lists l { base := base, entries := entries, cap := cap % 8, notify := notify, head := 0, done := 0, stopped := false } }) y⟩
        else ends 0x081B y)) ∧
    (∀ l, Serves u qp 0x31 k m rest → exec (.intakeDel qp l t) s = .next (replied u qp k m rest (intakeDelMail l k))) ∧
    (∀ l y, ((8 ≤ l ∨ intakeList y k l = none) → intakeDelMail l k y = ends (Config.requestRefusal 2) y) ∧
      ∀ x, l < 8 → intakeList y k l = some x → let r := intakeDelMail l k y
        r.status = 0 ∧ intakeList r.state k l = none ∧ r.state.mem = y.mem ∧ r.state.progs.length = y.progs.length ∧
        (y.progs.any (fromList k l) = false → r = ends 0 (modSession k (fun q => { q with lists := terase q.lists l }) y))) ∧
    (∀ l record force, Serves u qp 0x32 k m rest → bit m.flags.toNat 1 = force →
      (intakeList s k l = none → exec (.cancel qp l record force t) s = .next (replied u qp k m rest (ends (Config.requestRefusal 3)))) ∧
      ∀ x, intakeList s k l = some x → exec (.cancel qp l record force t) s = .next (replied u qp k m rest fun y => ends 0 ((s.progs.filter fun q =>
        fromList k l q && q.2.recIdx % x.entries == record % x.entries).foldl (fun z q => cancelProg force q.1 z) y))) ∧
    (∀ sev, Serves u qp 0x42 k m rest → exec (.evsub qp sev t) s = .next (replied u qp k m rest fun y =>
      ends 0 (if k < 32 then modSession k (fun x => { x with evsub := some sev }) y else { y with adminEvsub := some sev }))) ∧
    (∀ (rdom : BitVec 16) addr port, Serves u qp 0x50 k m rest → (flag s .rmaGw 0 0 31 = false →
        exec (.gwconn qp rdom addr port t) s = .next (replied u qp k m rest (ends 0x0811))) ∧
      (flag s .rmaGw 0 0 31 = true → (56 < liveQps s isGwKind ∨ 1016 < liveQps s (fun _ => true)) →
        exec (.gwconn qp rdom addr port t) s = .next (replied u qp k m rest (ends (Config.requestRefusal 4)))) ∧
      (flag s .rmaGw 0 0 31 = true → liveQps s isGwKind ≤ 56 → liveQps s (fun _ => true) ≤ 1016 →
        exec (.gwconn qp rdom addr port t) s = .next (replied u qp k m rest fun y => ends 0 (emit (.gatewayConnect rdom.toNat addr port
          ((List.range 8).map (· + s.nextQp))) ((List.range 8).foldl (fun z n => addQp port (.gateway rdom.toNat (n == 0)) (gatewayTerms z.nextQp) z) y))))) ∧
    (∀ n i typ, ((i = .heartbeat qp t ∧ typ = 4) ∨ (∃ a, i = .regread qp a t ∧ typ = 0x10) ∨ (∃ w, i = .regwrite qp w t ∧ typ = 0x11) ∨
        (∃ r, i = .mrdereg qp r t ∧ typ = 0x21) ∨ (∃ l, i = .intakeDel qp l t ∧ typ = 0x31) ∨ (∃ v, i = .evsub qp v t ∧ typ = 0x42)) →
      qpMailbox s qp = some n → n < 32 → ((session s n).state = .closed ∨ (session s n).state = .freeing) → (mailbox s n).queue = m :: rest →
      m.typ.toNat = typ → awake s = true → s.recovery = false → dutyRuns s 1 = true → qpPaused u qp = false →
      exec i s = .next (replied u qp n m rest (ends 0x0815)))

/-- A lease that has run out makes an Open session Orphaned, ORPHRUN later it is Holding and its programs are stopped, HOLD
later it is freed, and once nothing of it is left its slot is Closed. An RDMA access within a region that allows it, and that
enforced ownership does not deny, reads or writes the partition's memory, another fails; the status window answers register
reads. A frame for the port's own address is answered, served or discarded as R416 says, and one for another address is
dropped and counted (the model's reading, log entry 271); a connection within the limits becomes a queue pair; a notification
is counted and halves a rate, which recovers by 5% of line rate; priority flow control pauses the port; a port goes up with
all its lanes, and one that goes down fails its queue pairs and sessions remain. (R416, R417, R418, R419, R420, R423, R424,
R426, R430, R433, R435) -/
def Obligations.SessionsAndHostPorts : Prop :=
  ∀ (t : Time) (s : State),
    let u := atTime t s
    (∀ n : Fin 32, let x := session s n
      let serves := awake s = true ∧ dutyRuns s 1 = true
      (serves → x.state = .open_ → x.renewed + leaseLength s x.part ≤ u.time → ∃ v, exec (.leaseCheck t) s = .next v ∧
        session v n = { x with state := .orphaned, since := u.time }) ∧
      (serves → x.state = .open_ → u.time < x.renewed + leaseLength s x.part → ∃ v, exec (.leaseCheck t) s = .next v ∧
        session v n = x) ∧
      (serves → x.state = .orphaned → x.since + fld s .stwTimes x.part 0 23 16 * 1000000000 ≤ u.time → exec (.orphrunExpire n t) s =
        .next (collStops u ((sessionProgs s n).foldl (fun y p => stopUnstopped p y) (setSession n { x with state := .holding, since := u.time } u)))) ∧
      (serves → x.state = .holding → x.since + fld s .stwTimes x.part 0 31 24 * 60000000000 ≤ u.time → exec (.holdExpire n t) s =
        .next (collStops u (beginFreeing n 0x0817 u))) ∧
      (x.state = .freeing → let v := reapPages x.part (releaseSession n u)
        sessionProgs v n = [] → (∀ l ∈ (partition v x.part).leaves ++ (partition v x.part).going, l.2.owner ≠ some n.val) →
        exec (.sessionFreed n t) s = .next { v with sessions := terase v.sessions n, mailboxes := terase v.mailboxes n, qps := v.qps.filter fun q => !(ofSession n q) }) ∧
      (∀ l li h, l < 8 → tget? x.lists l = some li → li.stopped = false → x.state = .open_ → flag s .schCtl x.part 0 7 = true →
        spaceRead u x.part li.base 12 = .ok h → exec (.tailNotice n l t) s =
        .next (if li.entries < (leAt h 0 4 + 2 ^ 32 - li.head % 2 ^ 32) % 2 ^ 32 then stopList n l 0xE004 0x081C (spaceSeen x.part li.base 12 u)
          else spaceSeen x.part li.base 12 u)) ∧
      (∀ l li st, l < 8 → tget? x.lists l = some li → li.stopped = false → x.state = .open_ → flag s .schCtl x.part 0 7 = true →
        spaceRead u x.part li.base 12 = .error st → exec (.tailNotice n l t) s = .next (stopList n l st (l * 2 ^ 16) (spaceSeen x.part li.base 12 u))) ∧
      (∀ l, (8 ≤ l ∨ tget? x.lists l = none ∨ x.state ≠ .open_ ∨ flag s .schCtl x.part 0 7 = false) → exec (.tailNotice n l t) s = .next u)) ∧
    (∀ n st, sessionProgs s n = [] → beginFreeing n st s = releaseSession n (modSession n (fun x => { x with state := .freeing }) s)) ∧
    (∀ qp n rkey va len, awake s = true → qpSession s qp = some n → let x := session s n
      let reads := rdmaAllowed x rkey false va len = true ∧ rdmaDenied u x.part va len false = false
      (¬ reads → exec (.rdmaDataAccess qp rkey va none len t) s = .next (emit (.rdma qp .accessError) u)) ∧
      (∀ bs, reads → spaceRead u x.part va len = .ok bs →
        exec (.rdmaDataAccess qp rkey va none len t) s = .next (emit (.rdma qp (.done bs)) (spaceSeen x.part va len u))) ∧
      (∀ st, reads → spaceRead u x.part va len = .error st →
        exec (.rdmaDataAccess qp rkey va none len t) s = .next (emit (.rdma qp .accessError) (spaceSeen x.part va len u))) ∧
      (∀ bs, let writes := rdmaAllowed x rkey true va bs.length = true ∧ rdmaDenied u x.part va bs.length true = false
        let r := spaceWrite x.part va bs u
        (writes → exec (.rdmaDataAccess qp rkey va (some bs) len t) s = .next (emit (.rdma qp (if r.1 = 0 then .done [] else .accessError)) r.2)) ∧
        (¬ writes → exec (.rdmaDataAccess qp rkey va (some bs) len t) s = .next (emit (.rdma qp .accessError) u))) ∧
      (∀ (a : Nat) (i : Fin 32), n = i → x.window = rkey → x.state ≠ .closed → a % 4 = 0 → len % 4 = 0 →
        let r := windowWords (.window i) (len / 4) a u
        exec (.statusWindowRead qp rkey a len t) s = .next (emit (.rdma qp (.done r.1)) r.2)) ∧
      (∀ a, (x.window ≠ rkey ∨ x.state = .closed ∨ a % 4 ≠ 0 ∨ len % 4 ≠ 0) →
        exec (.statusWindowRead qp rkey a len t) s = .next (emit (.rdma qp .accessError) u))) ∧
    (∀ port : Fin 4, awake s = true → s.recovery = false → portUp s port = true →
      (∀ fr a, frameDst fr = some a → portHas s port a = false → exec (.hostFrameReceive port fr t) s = .next (bump .hstDrop port 0 1 u)) ∧
      (∀ a, portHas s port (.v4 a) = true → exec (.hostFrameReceive port (.arp a) t) s = .next (emit (.frameAnswer port (portMac s port) (.v4 a)) u)) ∧
      (∀ a, portHas s port (.v6 a) = true → exec (.hostFrameReceive port (.neighbour a) t) s = .next (emit (.frameAnswer port (portMac s port) (.v6 a)) u)) ∧
      (∀ a, portHas s port a = true → exec (.hostFrameReceive port (.icmpEcho a) t) s = .next (emit (.frameAnswer port (portMac s port) a) u)) ∧
      exec (.hostFrameReceive port .other t) s = .next (bump .hstDrop port 0 1 u) ∧
      (∀ a p syn, portHas s port a = true → exec (.hostFrameReceive port (.tcp a p syn) t) s =
        .next (if p ≠ spdmPort s then emit (.tcpReset port) u else if syn = true then tcpConnect port u else u)) ∧
      (∀ (prio : Fin 8) (quanta : BitVec 16), exec (.hostFrameReceive port (.pfc prio quanta) t) s =
        .next (if flag s .hstCtl port 0 31 = true ∧ fld s .hstCtl port 0 2 0 = prio then
            modEngine (10 + port / 2) (fun x => { x with paused := tset x.paused port (u.time + (quanta.toNat * 16 + 24) / 25) }) u
          else bump .hstDrop port 0 1 u)) ∧
      (∀ a qp opcode ce, portHas s port a = true → exec (.hostFrameReceive port (.roce a qp opcode ce) t) s = .next (roceFrame port qp opcode ce u)) ∧
      (∀ kind terms, exec (.connectionRequest port ⟨kind, terms⟩ t) s =
        .next (match (if (terms.mtu = 1024 ∨ terms.mtu = 4096) ∧ liveQps s (fun _ => true) < 1024 then connectionKind s kind else none) with
        | some q => emit (.connection port (some s.nextQp)) { u with qps := tset s.qps s.nextQp { port := port, kind := q, terms := terms, failed := false, rate := 2 ^ 32, rateAt := u.time, sentCnp := none }, nextQp := s.nextQp + 1 }
        | none => emit (.connection port none) u))) ∧
    (∀ port : Fin 4, (awake s = false ∨ s.recovery = true ∨ portUp s port = false) → (∀ fr, exec (.hostFrameReceive port fr t) s = .next u) ∧
      ∀ kind terms, exec (.connectionRequest port ⟨kind, terms⟩ t) s = .next u) ∧
    (∀ port qp opcode ce, ((∀ q, tget? s.qps qp = some q → q.failed = true ∨ q.port ≠ port) → roceFrame port qp opcode ce s = bump .hstDrop port 0 1 s) ∧
      ∀ q, tget? s.qps qp = some q → q.failed = false → q.port = port → let v := if ce = true then ceMark qp s else s
        (opcode = 0x81 → roceFrame port qp opcode ce s = cnpReceive qp v) ∧
        (opcode ≠ 0x81 → opcode ≤ 0x11 → roceFrame port qp opcode ce s = v) ∧
        (opcode ≠ 0x81 → 0x11 < opcode → roceFrame port qp opcode ce s = emit (.invalidRequest qp) (modQp qp (fun q => { q with failed := true }) v))) ∧
    (connectionKind s .newSession = some .fresh ∧ connectionKind s .unreliable = none ∧
      (∀ n : Fin 32, (session s n).state ≠ .closed → liveQps s (· == .data n.val) < 16 → connectionKind s (.data n) = some (.data n))) ∧
    (∀ qp q, tget? s.qps qp = some q → q.failed = false →
      exec (.cnpReceive qp t) s = .next { bump .hstCnp q.port 0 1 u with qps := tset s.qps qp { q with rate := q.rate / 2, rateAt := u.time } } ∧
      ((∀ t0, q.sentCnp = some t0 → t0 + 50000 ≤ u.time) → exec (.ceMarkReceive qp t) s =
        .next (emit (.cnp qp) { u with qps := tset s.qps qp { q with sentCnp := some u.time } })) ∧
      (∀ t0, q.sentCnp = some t0 → u.time < t0 + 50000 → exec (.ceMarkReceive qp t) s = .next u) ∧
      (q.rateAt + 55000 ≤ u.time → q.rate < 2 ^ 32 → exec (.cnpRateRecover qp t) s =
        .next { u with qps := tset s.qps qp { q with rate := Nat.min (2 ^ 32) (q.rate + 2 ^ 32 / 20), rateAt := u.time } })) ∧
    (∀ port : Fin 4, ∃ v, exec (.hostPortLinkDown port t) s = .next v ∧ portUp v port = false ∧ v.sessions = s.sessions ∧
      ∀ n q, (n, q) ∈ v.qps → q.port = port → q.failed = true) ∧
    (∀ port : Fin 4, exec (.hostPortLinkUp port t) s = .next (if s.hostsUp = true ∧ portHasMac s port = true ∧ (engine s (10 + port.val / 2)).lit = true ∧
        isUp s 6 (10 + port.val / 2) = true ∧ portLanesUp s port = true then setFld .hstPstat port 0 31 31 1 u else u)) ∧
    (∀ port : Fin 4, portLanesUp s port = true ↔ ∀ j d, j < 4 → d < 2 → laneState s (10 + port.val / 2) d (port.val % 2 * 4 + j) = 2) ∧
    (∀ o, ecnOf o = 2 ↔ (∃ q r, o = .reply q r) ∨ (∃ q r, o = .rdma q r) ∨ (∃ q, o = .cnp q) ∨ (∃ q n w a b k, o = .gatewayOp q n w a b k) ∨
      (∃ q st d, o = .gatewayAnswer q st d) ∨ ∃ q, o = .invalidRequest q)

/-- A processor that runs and whose watchdog expires, or that FWP_CTL restarts, is restarting, its restart counted and noted;
UNFENCE restarts a fenced one; when the restart ends it runs again, or, with three restarts within 10 minutes, a fence cause
0x030C reaches it; the duties of a fenced Steward core pass to the next core that is Up. (R327, R437, R438, R439, R440, R423)
-/
def Obligations.FirmwareProcessors : Prop :=
  ∀ (i : Fin 35) (t : Time) (s : State),
    let u := atTime t s
    let known := ∀ w, (engine s (i.val - 11)).swap = some w → w.laser < 16
    (coreRuns s i = true → mayRestart s i = true → known → ∃ v, exec (.watchdogExpire i t) s = .next v ∧ procState v i = 1 ∧
      fld v .fwpStat i 0 29 25 = Nat.min 31 (fld s .fwpStat i 0 29 25 + 1) ∧ tget v.restarts i [] = tget s.restarts i [] ++ [u.time]) ∧
    (∀ (path : Path) (value : W32), WritesReg u path .fwpCtl 0 0 value →
      let w := fetched path .fwpCtl 0 0 value u
      let v := value.toNat
      let y := written .fwpCtl 0 0 value w
      let y := if bit v 31 = true then procRestart (bits v 5 0) y else y
      let y := if bit v 30 = true then procUnfence (bits v 5 0) y else y
      exec (.fwpRestart path value t) s = .next (answered path .fwpCtl 0 0 0 w y) ∧
      exec (.fwpUnfence path value t) s = .next (answered path .fwpCtl 0 0 0 w y)) ∧
    (unitState s 10 i = .fenced → mayRestart s i = true → known → unitState (procUnfence i s) 10 i = .recovering ∧ procState (procUnfence i s) i = 1) ∧
    (procState s i = 1 → inHand s i = false → mayRestart s i = true →
      let v := if 3 ≤ recentRestarts u i then causeProcessor i 0x030C u else processorBack i u
      exec (.processorRestartDone i t) s = .next (if i = 0 ∧ coreRuns v 0 = true then (if calm v = true then holdoffEnd v else
        match v.update with | some (.live _ true _) => setDefer true v | _ => v) else v) ∧
      (∀ e : EngineId, i.val = 11 + e.val → exec (.engineCoreRestart e t) s = .next v)) ∧
    ((∀ k, k ∈ (engine s (i.val - 11)).redo → k.1 < 16) → procState (processorBack i s) i = 0) ∧
    (isUp s 10 i = true → unitState (causeProcessor i 0x030C s) 10 i = .draining ∧ procState (causeProcessor i 0x030C s) i = 2) ∧
    (∀ j, 1 ≤ i.val → i.val ≤ 4 → isUp s 10 i = false → nextSteward s i = some j → ∃ v, exec (.stewardFailover i t) s = .next v ∧
      isUp s 10 j = true ∧ ∀ d, 1 ≤ d → d ≤ 4 → tget v.duties d d = (if tget s.duties d d = i then j else tget s.duties d d))

/-- The boot core leaves reset once: it samples the straps, holds the other processors and extends MR0 with the ROM, the OTP
and the choice of bank; with a bank that passes the processors run, with none the part is in recovery; an image passes only
with its header, an unrevoked key slot, both signatures, its digest and an SVN not below the counter. The identity keys are
ready 600 ms into the boot; a trial boot with every processor running 30 s in is kept, another resets the part. A changed boot
record goes to the other copy with the next sequence number. EXTEND, ENROL and REVOKE act as their rules say. (R442, R443,
R444, R445, R446, R447, R448, R449, R450, R452, R461) -/
def Obligations.BootAndKeys : Prop :=
  ∀ (t : Time) (s : State),
    let u := atTime t s
    let ext := fun (m d : BitVec 384) => digestOf (digestBytes m ++ digestBytes d)
    (∀ straps : BitVec 16, s.inReset = none → s.tripped = false → s.regsUp = true → s.bootAt = none → ∃ v, exec (.bootStart straps t) s = .next v ∧
      v.bootAt = some u.time ∧ raw v .genStrap 0 0 = straps.toNat ∧ fld v .attBoot 0 0 5 4 = straps.toNat / 2 ^ 14 ∧ v.owned = ownedNow s ∧
      (∀ k, 1 ≤ k → k < 35 → procState v k = 3) ∧ (straps.toNat / 2 ^ 14 = 3 → v.recovery = true) ∧
      ∃ bank : Byte, mr v 0 = ext (ext (ext (mr s 0) Config.romDigest) (digestOf (otpBytes s)))
          (digestOf [bank, BitVec.ofNat 8 (straps.toNat / 2 ^ 14)]) ∧
        bank = (if straps.toNat / 2 ^ 14 = 3 then 2 else BitVec.ofNat 8 (b01 v.bootB))) ∧
    (s.bootAt.isSome = true → s.verified = false → s.recovery = false →
      (fallBack u = none → ∃ v, exec (.bootImagesVerified t) s = .next v ∧ v.recovery = true ∧ v.verified = false) ∧
      (∀ y, fallBack u = some y → ∃ v, exec (.bootImagesVerified t) s = .next v ∧ v.verified = true ∧ v.bootB = y.bootB ∧
        ∀ i, i < 35 → procState v i = 0) ∧
      (bankPasses s (bankOf s s.bootB) = true → fallBack u = some u)) ∧
    (∀ id x, verifyVendor s id x = 0 ↔ imageHeaderOk x id = true ∧ keySlotOk s.otp.vendor x = true ∧
      Config.rsaVerifies x.rsaKey x.signed x.rsaSig = true ∧ Config.slhVerifies x.slhKey x.signed x.slhSig = true ∧
      bodyDigestOk x = true ∧ s.otp.counter ≤ imgSvn x) ∧
    (∀ t0, s.bootAt = some t0 → (t0 + 600000000 ≤ u.time → exec (.identityKeysReady t) s = .next { u with keysReady := true }) ∧
      (u.time < t0 + 600000000 → exec (.identityKeysReady t) s = .next u)) ∧
    (∀ t0, s.bootAt = some t0 → (bootRec s).trial = true → (bootRec s).tried = true → bootSel s = 0 → t0 + 30000000000 ≤ u.time →
      ((∀ i, i < 35 → coreRuns s i = true) → (bootRec s).seq + 1 < 2 ^ 32 → ∃ v, exec (.trialTimeout t) s = .next v ∧
        bootRec v = { bootRec s with trial := false, tried := false, seq := (bootRec s).seq + 1 } ∧ fld v .updStat 0 0 31 28 = 9) ∧
      ((∃ i, i < 35 ∧ coreRuns s i = false) → exec (.trialTimeout t) s = .next (internalReset 0 u))) ∧
    (∀ r, (bootRec s).seq + 1 < 2 ^ 32 → bootRec (writeRecord r s) = { r with seq := (bootRec s).seq + 1 }) ∧
    (∀ n d, mr (extendMr n d s) n = ext (mr s n) d ∧ ∀ m, m ≠ n → mr (extendMr n d s) m = mr s m) ∧
    (∀ (path : Path) (value : W32), WritesReg u path .attExtctl 0 0 value →
      let w := fetched path .attExtctl 0 0 value u
      let y := written .attExtctl 0 0 value w
      let n := fld y .attExtctl 0 0 3 0
      exec (.attExtend path value t) s = .next (answered path .attExtctl 0 0 0 w
        (if bit value.toNat 31 = true ∧ locked w .attExtctl 0 = false ∧ 12 ≤ n then extendMr n (extd y) y else y))) ∧
    (∀ (path : Path) (value : W32), WritesReg u path .attOwnctl 0 0 value →
      let w := fetched path .attOwnctl 0 0 value u
      let y := written .attOwnctl 0 0 value w
      let y := if bit value.toNat 31 = true then ownerEnrol y else y
      let y := if bit value.toNat 30 = true then ownerRevoke y else y
      exec (.attOwnerEnrol path value t) s = .next (answered path .attOwnctl 0 0 0 w y) ∧
      exec (.attOwnerRevoke path value t) s = .next (answered path .attOwnctl 0 0 0 w y)) ∧
    (∀ k, let n := fld s .attOwnctl 0 0 1 0
      s.otp.owner[n]? = some k →
      (k.revoked = false → k.key = none → (ownerEnrol s).otp.owner[n]? = some { k with key := some (extd s) } ∧
        fld (ownerEnrol s) .attOwnctl 0 0 7 4 = 0) ∧
      (k.key.isSome = true → (ownerEnrol s).otp.owner[n]? = some k ∧ fld (ownerEnrol s) .attOwnctl 0 0 7 4 ≠ 0) ∧
      (∀ j x, j < 4 → j ≠ n → s.otp.owner[j]? = some x → x.key.isSome = true → x.revoked = false →
        (ownerRevoke s).otp.owner[n]? = some { k with revoked := true }) ∧
      ((∀ j x, j < 4 → j ≠ n → s.otp.owner[j]? = some x → x.key = none ∨ x.revoked = true) → (ownerRevoke s).otp.owner[n]? = some k))

/-- A write of UPD_CTL does STAGE, ACTIVATE, COMMIT and ABORT in this order; a request while another runs or waits is ignored,
in an emergency it is deferred with DEFER, else it starts; staging ends with RESULT 1, or 6 when the flash failed; a reset
activation with a staged bank and no program resets the part on trial of that bank, one that may not gets RESULT 11; a live
activation takes one processor after the other in hand; COMMIT brings the fused counter up to the set SVN of the active bank
and revokes the slots of REVOKE; the hold-off after an emergency lets a deferred request start. (R449, R451, R452, R453, R454,
R455, R456) -/
def Obligations.Updates : Prop :=
  ∀ (t : Time) (s : State),
    let u := atTime t s
    let idle := fun (y : State) => y.update = none ∧ y.deferred = none ∧ coreRuns y 0 = true
    (∀ (path : Path) (value : W32), WritesReg u path .updCtl 0 0 value →
      let w := fetched path .updCtl 0 0 value u
      let v := value.toNat
      let y := written .updCtl 0 0 value w
      let y := if bit v 31 = true then (if y.update.isSome = true ∨ y.deferred.isSome = true ∨ coreRuns y 0 = false then ignored y else stage none y) else y
      let y := if bit v 30 = true then request (if bit v 0 = true then .live else .reset) y else y
      let y := if bit v 29 = true then request .commit y else y
      let z := answered path .updCtl 0 0 0 w (if bit v 28 = true then abortUpdate y else y)
      exec (.updStage path value none t) s = .next z ∧ exec (.updActivateLive path value t) s = .next z ∧
      exec (.updActivateReset path value t) s = .next z ∧ exec (.updCommit path value t) s = .next z ∧ exec (.updAbort path value t) s = .next z) ∧
    (∀ path value bs, s.recovery = true → s.inReset = none →
      exec (.updStage path value (some bs) t) s = .next (updCtlWritten value.toNat (some bs) u)) ∧
    (∀ bs l, setComplete (parseSet 7 bs) = true → l = parseSet 7 bs → firstFailing s l = none → ∃ v, stageBytes bs s = v ∧
      v.update = some (.stage l) ∧ flag v .updStat 0 0 27 = true) ∧
    (∀ bs r id, setComplete (parseSet 7 bs) = true → firstFailing s (parseSet 7 bs) = some (r, id) →
      fld (stageBytes bs s) .updStat 0 0 31 28 = r % 16 ∧ (stageBytes bs s).update = s.update ∧ (stageBytes bs s).flash = s.flash) ∧
    (∀ d, (¬ idle s → request d s = ignored s) ∧ (idle s → calm s = true → request d s = startRequest d s) ∧
      (idle s → calm s = false → ∃ v, request d s = v ∧ v.deferred = some d ∧ flag v .updStat 0 0 26 = true)) ∧
    ((stagedBank s).isSome = true → (programsPresent s = false ∨ flag s .updCtl 0 0 1 = true) →
      startRequest .reset s = activateReset (setDefer false { s with deferred := none })) ∧
    (((stagedBank s).isSome = false ∨ (programsPresent s = true ∧ flag s .updCtl 0 0 1 = false)) →
      fld (startRequest .reset s) .updStat 0 0 31 28 = 11) ∧
    (∀ images, s.update = some (.stage images) → (exec (.updStageComplete false t) s = .next (endUpdate 6 u)) ∧
      ∃ v, exec (.updStageComplete true t) s = .next v ∧ fld v .updStat 0 0 31 28 = 1 ∧ flag v .updStat 0 0 27 = false ∧ v.update = none) ∧
    (∀ d, s.deferred = some d → calm u = true → coreRuns s 0 = true → exec (.emergencyHoldoffEnd t) s = .next (startRequest d u)) ∧
    (∀ l stop, s.deferred = none → s.update = some (.live l true stop) → calm u = true → coreRuns s 0 = true →
      exec (.emergencyHoldoffEnd t) s = .next (nextLive (setDefer false u) l)) ∧
    (∀ i l stop b x, s.update = some (.live (i :: l) false stop) → procState s i = 1 → recentRestarts u i < 3 → stagedBank s = some b →
      bankImage b (procImage i) = some x →
      (verifyVendor s (procImage i) x = 0 → exec (.liveActivationStep true t) s = .next (liveGoesOn l stop (installImage i x u))) ∧
      exec (.liveActivationStep false t) s = .next (beginRestart i u)) ∧
    (∀ i l stop, s.update = some (.live (i :: l) false stop) → procState s i = 1 → 3 ≤ recentRestarts u i → ∀ ok,
      exec (.liveActivationStep ok t) s = .next (causeProcessor i 0x030C u)) ∧
    (s.update = some .commit → let b := bankOf s (bootRec s).bankB
      ∃ v, exec (.commitComplete t) s = .next v ∧ v.otp.counter = Nat.max s.otp.counter (setSvn b) ∧
        v.otp.vendor = revokeSlots (revokeMask b) s.otp.vendor 0 ∧ v.update = none ∧ flag v .updStat 0 0 27 = false)

/-- A reached responder answers GET_VERSION, GET_CAPABILITIES and NEGOTIATE_ALGORITHMS; with the boot core Up it answers the
digests and portions of its chains and unsigned measurements of one index or all; a signed answer waits behind at most 17 once
the keys are ready and else is Busy; the one in front goes out with both signatures; an unknown request is unsupported; at
most 8 TCP connections are accepted. (R457, R458, R459, R460, R461) -/
def Obligations.SpdmResponder : Prop :=
  ∀ (src : SpdmFrom) (t : Time) (s : State),
    let u := atTime t s
    (spdmReached s src = true →
      exec (.getVersion src t) s = .next (emit (.spdm src .version none) u) ∧
      exec (.getCapabilities src t) s = .next (emit (.spdm src .capabilities none) u) ∧
      (∀ rsa sha, exec (.negotiateAlgorithms src rsa sha t) s =
        .next (emit (.spdm src (if rsa = true ∧ sha = true then .algorithms else .invalid) none) u)) ∧
      (isUp s 10 0 = true →
        exec (.getDigests src t) s = .next (emit (.spdm src (.digests [(0, digestOf s.flash.chain0), (1, digestOf s.flash.chain1)]) none) u) ∧
        (∀ slot offset len, exec (.getCertificate src slot offset len t) s = .next (emit (.spdm src (certificate s slot offset len) none) u)) ∧
        (∀ code, exec (.spdmUnsupported src code t) s = .next (emit (.spdm src (.unsupported code) none) u)) ∧
        (∀ index nonce, 1 ≤ index → index ≤ 25 → exec (.getMeasurements src index false nonce t) s =
          .next (emit (.spdm src (.measurements [(index, measurement s index)] nonce) none) u)) ∧
        (∀ nonce, exec (.getMeasurements src 0xFF false nonce t) s =
          .next (emit (.spdm src (.measurements ((List.range 25).map fun k => (k + 1, measurement s (k + 1))) nonce) none) u)) ∧
        (s.recovery = false → let ready := s.keysReady = true ∧ coreRuns s 0 = true ∧ s.signQ.length < 17
          (∀ slot nonce c, chainOf s slot = some c →
            (ready → exec (.challenge src slot nonce t) s = .next { u with signQ := s.signQ ++ [⟨src, .challengeAuth slot (digestOf c) nonce⟩] }) ∧
            (¬ ready → exec (.challenge src slot nonce t) s = .next (emit (.spdm src .busy none) u))) ∧
          (∀ index nonce, 1 ≤ index → index ≤ 25 → ready → exec (.getMeasurements src index true nonce t) s =
            .next { u with signQ := s.signQ ++ [⟨src, .measurements [(index, measurement s index)] nonce⟩] })))) ∧
    (∀ slot offset len c, chainOf s slot = some c → offset ≤ c.length → let p := (c.drop offset).take len
      certificate s slot offset len = .certificate slot p (c.length - offset - p.length)) ∧
    (∀ q l, s.signQ = q :: l → exec (.spdmSignComplete t) s =
      .next (emit (.spdm q.src q.body (some (Config.rsaSign s.free, Config.slhSign s.free))) { u with free := s.free + 1, signQ := l })) ∧
    (∀ port : Fin 4, portUp s port = true → exec (.spdmTcpConnect port t) s = .next (if s.conns.length < 8
      then emit (.tcp port (some (4 * s.nextConn + port))) { u with conns := s.conns ++ [4 * s.nextConn + port.val], nextConn := s.nextConn + 1 }
      else emit (.tcp port none) u))

/-- A compute sector's clock is the least of its target, its own limit and its band's, cut by its ladder step, at least 0.80
GHz with the rest gated; a sector over its limit goes one step up and one that is not goes one down after 2 ms; the highest of
a sector's sensor readings, each with its offset of the overlay, is its temperature, which sets the band and cuts to step 15
at HOTCUT or two steps on a fast rise, 200 µs apart; the brake and a confirmed converter fault cut every compute sector to
step 15; a failed regulator is off and its sector fenced; the mean of the last ten power samples stands against the TDP; an
alarm drops the clock by 100 MHz, not below 0.80 GHz, and raises the guard by 10 mV; ladder, sensors and alarms of a fenced
sector go on (the model's reading of R27, log entry 198); at 118 degrees the trip is latched and lasers and regulators go off.
(R466, R468, R469, R470, R471, R472, R473, R475, R476, R477, R478, R480) -/
def Obligations.PowerAndHeat : Prop :=
  ∀ (t : Time) (s : State),
    let u := atTime t s
    (∀ k : Fin 24, s.clocksOn = true → (sector s k).regOff = false →
      let target := if coreRuns s (wardenOf k) = true then clampFtgt (fld s .pwrCtl 0 0 6 0) else (sector s k).ftgt
      let cap := Nat.min target (Nat.min (fmaxSector s k) (bandFmax (band s k))) * (300 - 13 * ladder s k)
      ∃ v, exec (.workClockUpdate k t) s = .next v ∧ fld v .pwrSect k 0 27 20 = Nat.max 32 (cap / 300) ∧
        (sector v k).gate = (if cap < 9600 then (16 * cap + 9599) / 9600 else 16) ∧
        fld v .pwrSect k 0 19 12 = voltCode (voltAt s k (Nat.max 32 (cap / 300)) (band s k)) ∧ (sector v k).ftgt = target ∧
        ladder v k = ladder s k) ∧
    (∀ k : Fin 24, (s.clocksOn = false ∨ (sector s k).regOff = true) → exec (.workClockUpdate k t) s = .next u) ∧
    (∀ (k : SectorId) (amps : Nat), let x := sector s k
      ∃ v, exec (.ladderStep k amps t) s = .next v ∧ fld v .pwrSect k 0 11 0 = Nat.min 4095 amps ∧
        (sectorOver s k amps = true → ladder v k = Nat.min 15 (ladder s k + 1) ∧ (sector v k).clear = 0 ∧
          fld v .pwrScnt k 0 15 0 = (if ladder s k < 15 then Nat.min 65535 (fld s .pwrScnt k 0 15 0 + 1) else fld s .pwrScnt k 0 15 0)) ∧
        (sectorOver s k amps = false → x.warn = true → ladder v k = ladder s k ∧ (sector v k).clear = 0) ∧
        (sectorOver s k amps = false → x.warn = false →
          if 2000000 ≤ x.clear + 20000 ∧ 0 < ladder s k ∧ ¬ ((k : Nat) < 24 ∧ flag s .pwrEmerg 0 0 3 = true)
          then ladder v k = ladder s k - 1 ∧ (sector v k).clear = 0 else ladder v k = ladder s k ∧ (sector v k).clear = x.clear + 20000)) ∧
    (∀ (k : SectorId) (sensors : List Int), let x := sector s k
      let temp := hottest s k sensors
      let l := (temp :: x.samples).take 48
      let hot := 10 * (hotCut s : Int) ≤ temp
      let cut := 8 * (rateCut s : Int) ≤ riseOf l
      let due := ∀ t0, x.cutAt = some t0 → t0 + 200000 ≤ u.time
      let step := if hot ∧ x.hot = false then 15 else ladder s k
      ∃ v, exec (.rateEvaluate k sensors t) s = .next v ∧ band v k = bandAt (band s k) (temp / 10) ∧
        fld v .thmSect k 0 31 24 = (temp / 10 % 256).toNat ∧ (sector v k).samples = l ∧ ((sector v k).hot = true ↔ hot) ∧
        ((sector v k).warn = true ↔ 8 * (rateWarn s : Int) ≤ riseOf l) ∧
        (cut → due → ladder v k = Nat.min 15 (step + 2) ∧ (sector v k).cutAt = some u.time ∧ v.cutAt = some u.time) ∧
        (cut → ¬ due → ladder v k = step ∧ (sector v k).cutAt = x.cutAt) ∧
        (¬ cut → ladder v k = step ∧ (sector v k).cutAt = none)) ∧
    (∀ (k : Nat) (sensors : List Int), sensors ≠ [] → (∀ n v, n < sensorCount k → sensors[n]? = some v → v + ovItem s.overlay 3 (4 * k + n) ≤ hottest s k sensors) ∧
      ∃ n v, n < sensorCount k ∧ sensors[n]? = some v ∧ hottest s k sensors = v + ovItem s.overlay 3 (4 * k + n)) ∧
    (∀ low : Bool, ∃ v, exec (.pwrBrake low t) s = .next v ∧ flag v .pwrEmerg 0 0 3 = low ∧
      ∀ k, k < 24 → ladder v k = (if low = true then 15 else ladder s k)) ∧
    (∀ confirmed : Bool, let acts := confirmed = true ∨ dutyRuns s 4 = false
      (acts → ∃ v, exec (.converterFault true confirmed t) s = .next v ∧ flag v .pwrEmerg 0 0 2 = true ∧
        (flag s .pwrEmerg 0 0 2 = false → ∀ k, k < 24 → ladder v k = 15)) ∧
      (¬ acts → exec (.converterFault true confirmed t) s = .next u) ∧
      ∃ v, exec (.converterFault false confirmed t) s = .next v ∧ flag v .pwrEmerg 0 0 2 = false ∧ ∀ k, k < 24 → ladder v k = ladder s k) ∧
    (∀ k : SectorId, ∃ v, exec (.regulatorFault k t) s = .next v ∧ (sector v k).regOff = true ∧ fld v .pwrSect k 0 27 0 = 0 ∧
      (isUp s 3 k = true → unitState v 3 k = .draining)) ∧
    (∀ (mw : Nat) (new : List (Option Nat)),
      let rails := (List.range 4).map (railPower s new)
      let pkg := ((mw + sumNat rails) :: s.pkg).take 10
      let mean := sumNat pkg / pkg.length
      let w := Nat.min 65535 (mean / 1000)
      ∃ v, exec (.packagePowerSample mw new t) s = .next v ∧ v.rails = rails ∧ v.pkg = pkg ∧
        (v.pkgOver = true ↔ if s.pkgOver = true then 980 * effTdp s ≤ mean else 1000 * effTdp s < mean) ∧
        fld v .pwrPkg 0 0 15 0 = w ∧ fld v .pwrPkg 0 0 31 16 = Nat.max w (fld s .pwrPkg 0 0 31 16)) ∧
    (∀ mv amps, exec (.avsbusReadback mv amps t) s =
      .next (if dutyRuns s 4 = true then { u with feedOver := decide (fld s .pwrFeed 0 0 31 16 < amps) } else u)) ∧
    (∀ (k : Fin 24) (slack : Nat), (30 ≤ slack → exec (.pathMonitorAlarm k slack t) s = .next u) ∧
      (slack < 30 → ∃ v, exec (.pathMonitorAlarm k slack t) s = .next v ∧
        fld v .pwrSect k 0 27 20 = (if (sector s k).regOff = true then fld s .pwrSect k 0 27 20 else Nat.max 32 (fld s .pwrSect k 0 27 20 - 4)) ∧ (sector v k).alarmAt = some u.time ∧
        (sector v k).guard = (if coreRuns s (wardenOf k) = true then Nat.min 50 ((sector s k).guard + 10) else (sector s k).guard) ∧
        fld v .ageSect k 0 7 0 = Nat.min 255 (fld s .ageSect k 0 7 0 + 1))) ∧
    (∀ (sensor : BitVec 8) (temp : Int), ((temp < 118 ∨ s.tripped = true) → exec (.thermalTrip sensor temp t) s = .next u) ∧
      (118 ≤ temp → s.tripped = false → ∃ v, exec (.thermalTrip sensor temp t) s = .next v ∧ v.tripped = true ∧
        raw v .thmTrip 0 0 = 2 ^ 31 + sensor.toNat * 256 + (temp % 256).toNat ∧ (∀ e, (engine v e).lit = false) ∧
        (∀ k, k ≠ 24 → (sector v k).regOff = true) ∧ (sector v 24).regOff = false ∧ v.otp = s.otp))

/-- A plan that is due, by its period or by AGE_CTL.NOW, becomes the shadow plan and starts the work clocks; a sector takes
its entry, with a guard of at most 50 mV, when that raises voltage or lowers fmax, or at its quiet point, and its overlay
values alike; CAL_CTL starts STORE, APPLY and CLEAR unless locked or busy, which give RESULT 7; STORE writes a checked overlay
over the older copy; APPLY puts the newest valid copy in force and CLEAR erases both, each extending MR9. (R481, R482, R483,
R484, R485, R486, R487) -/
def Obligations.MarginsAndOverlays : Prop :=
  ∀ (t : Time) (s : State),
    let u := atTime t s
    let ext := fun (m d : BitVec 384) => digestOf (digestBytes m ++ digestBytes d)
    (∀ (entries : List PlanEntry) (refresh : List Nat) (vfeed : Int) (lasers : List (Nat × Nat)) (heaters : List Nat),
      let due := s.planNow = true ∨ ∀ t0, s.planAt = some t0 → t0 + planPeriod s ≤ u.time
      (due → ∃ v, exec (.marginPlanCompute entries refresh vfeed lasers heaters t) s = .next v ∧ v.planNow = false ∧
        v.planAt = some u.time ∧ v.clocksOn = true ∧
        v.shadow = some ⟨(List.range 24).filterMap fun k => (entries[k]?).map fun e => (k, e), some vfeed⟩ ∧
        fld v .ageStat 0 0 31 16 = Nat.min 65535 (fld s .ageStat 0 0 31 16 + 1) ∧
        (∀ m, m < 12 → tget v.planRefresh m 0 = Nat.min 2 ((refresh[m]?).getD 0)) ∧
        ∀ (k : Nat) (e : PlanEntry), k < 24 → entries[k]? = some e → fld v .ageSect k 0 15 8 = Nat.min 255 e.slack) ∧
      (¬ due → exec (.marginPlanCompute entries refresh vfeed lasers heaters t) s = .next u)) ∧
    (∀ (path : Path) (value : W32), WritesReg u path .ageCtl 0 0 value →
      let w := fetched path .ageCtl 0 0 value u
      let y := written .ageCtl 0 0 value w
      exec (.ageNow path value t) s = .next (answered path .ageCtl 0 0 0 w (if bit value.toNat 0 = true then { y with planNow := true } else y))) ∧
    (∀ k : SectorId, let x := sector s k
      let o := ovSector s k
      ∃ v, exec (.planApply k t) s = .next v ∧
        ((sector v k).ovV, (sector v k).ovF) = (if x.ovV < o.1 ∨ x.ovF < o.2 ∨ quiet u k = true then o else (x.ovV, x.ovF)) ∧
        ∀ p e, s.shadow = some p → tget? p.todo k = some e → let g := Nat.min 50 e.guardMv
          ((sector v k).guard, (sector v k).down) =
            (if x.guard < g ∨ x.down < e.fmaxDown ∨ quiet u k = true then (g, e.fmaxDown) else (x.guard, x.down))) ∧
    (∀ (path : Path) (value : W32), WritesReg u path .calCtl 0 0 value →
      let w := fetched path .calCtl 0 0 value u
      let y := calCtlWritten (locked w .calCtl 0) value.toNat (written .calCtl 0 0 value w)
      exec (.calStore path value t) s = .next (answered path .calCtl 0 0 0 w y) ∧
      exec (.calApply path value t) s = .next (answered path .calCtl 0 0 0 w y) ∧
      exec (.calClear path value t) s = .next (answered path .calCtl 0 0 0 w y)) ∧
    (∀ lock : Bool, (lock = true ∨ s.calBusy.isSome = true → ∀ c, c = 1 ∨ c = 2 ∨ c = 4 →
        (calCtlWritten lock c s).calBusy = s.calBusy ∧ fld (calCtlWritten lock c s) .calStat 0 0 31 28 = 7) ∧
      (lock = false → s.calBusy = none →
        (calCtlWritten lock 2 s).calBusy = some .apply ∧ (calCtlWritten lock 4 s).calBusy = some .clear ∧
        ∀ bs, spaceRead s (fld s .calSrcHi 0 0 18 16) (fld s .calSrcLo 0 0 31 12 * 4096 + fld s .calSrcHi 0 0 15 0 * 2 ^ 32)
            (fld s .calLen 0 0 15 0) = .ok bs →
          (calCtlWritten lock 1 s).calBusy = (if (overlayCheck bs).1 = 0 then some (.store bs) else none))) ∧
    (∀ bs, s.calBusy = some (.store bs) → ∃ v w, exec (.calCommandComplete true t) s = .next v ∧ v.calBusy = none ∧
      fld v .calStat 0 0 31 28 = 1 ∧ v.flash = (if newestOverlay s.flash ≠ none ∧ newestOverlay s.flash = s.flash.cal0
        then { s.flash with cal1 := some bs } else { s.flash with cal0 := some bs }) ∧
      exec (.calCommandComplete false t) s = .next w ∧ fld w .calStat 0 0 31 28 = 6 ∧ w.flash = s.flash) ∧
    (∀ ok, s.calBusy = some .apply → ∃ v, exec (.calCommandComplete ok t) s = .next v ∧ v.calBusy = none ∧
      (∀ bs, newestOverlay s.flash = some bs → fld v .calStat 0 0 31 28 = 2 ∧ v.overlay = some bs ∧ mr v 9 = ext (mr s 9) (digestOf bs) ∧
        flag v .calStat 0 0 26 = true ∧ fld v .calStat 0 0 12 0 = ovVersion bs % 2 ^ 13) ∧
      (newestOverlay s.flash = none → fld v .calStat 0 0 31 28 = 4 ∧ v.overlay = s.overlay ∧ mr v 9 = mr s 9)) ∧
    (s.calBusy = some .clear → ∃ v, exec (.calCommandComplete true t) s = .next v ∧ v.calBusy = none ∧ fld v .calStat 0 0 31 28 = 3 ∧
      v.overlay = none ∧ v.flash.cal0 = none ∧ v.flash.cal1 = none ∧ mr v 9 = ext (mr s 9) emptyDigest)

/-- A cause makes an Up unit Draining and a Recovering one Fenced, and leaves the state of another; ERR_CMD fences or returns
the unit that ERR_UNIT names; an uncontained error fences every partition; a Draining unit is Fenced once idle or at DRAINMAX,
its work failed; recovery ends in Up, or in Fenced with an event. A census waits for one that runs, counts every pool it
covers, shows how many do not balance and lets them be fenced; CENSUS and EVPOST retire. The first Fatal event is held; the
oldest record leaves through the ring while it has room, or 1 ms old with no ring. (R489, R490, R491, R492, R493, R496, R497,
R498, R500, R504, R505, R507) -/
def Obligations.ContainmentAndTelemetry : Prop :=
  ∀ (t : Time) (s : State),
    let u := atTime t s
    (∀ (kind : Fin 11) (index : Nat) (cause : Status), unitExists kind index = true →
      unitState (fenceCause kind index cause s) kind index =
        (match unitState s kind index with | .up => .draining | .recovering => .fenced | x => x) ∧
      (cause ≠ 0x0306 → exec (.fenceCause kind index cause t) s = .next (fenceCause kind index cause u)) ∧
      ∃ v, exec (.fenceCause kind index 0x0306 t) s = .next v ∧ unitState v kind index = unitState (fenceCause kind index 0x0306 s) kind index ∧
        raw v .errImbal 0 0 = Nat.min (2 ^ 32 - 1) (raw s .errImbal 0 0 + 1)) ∧
    (∀ (kind : Fin 11) (index : Nat), ∃ v, exec (.uncontainedError kind index t) s = .next v ∧
      (∀ p, p < 8 → isUp s 9 p = true → unitState v 9 p = .draining) ∧ flag v .errFatal 0 0 31 = true) ∧
    (∀ (path : Path) (value : W32), WritesReg u path .errCmd 0 0 value →
      let w := fetched path .errCmd 0 0 value u
      let y := written .errCmd 0 0 value w
      let y := if bit value.toNat 31 = true then errFence y else if bit value.toNat 30 = true then errUnfence y else y
      exec (.errFence path value t) s = .next (answered path .errCmd 0 0 0 w y) ∧
      exec (.errUnfence path value t) s = .next (answered path .errCmd 0 0 0 w y)) ∧
    (let k := fld s .errUnit 0 0 31 24
      let i := fld s .errUnit 0 0 23 0
      (unitExists k i = true → fld (errFence s) .errCmd 0 0 7 0 = 0 ∧ isUp (errFence s) k i = false) ∧
      (unitExists k i = false → fld (errFence s) .errCmd 0 0 7 0 = 1 ∧ fld (errUnfence s) .errCmd 0 0 7 0 = 1) ∧
      (unitExists k i = true → unitState s k i ≠ .fenced → fld (errUnfence s) .errCmd 0 0 7 0 = 4) ∧
      (k = 2 → i < 32 → unitState s 2 i = .fenced → isUp s 3 (homeSector i) = true → isUp s 3 (farSector i) = true →
        fld (errUnfence s) .errCmd 0 0 7 0 = 0 ∧ unitState (errUnfence s) 2 i = .recovering)) ∧
    (∀ (kind : Fin 11) (index : Nat) (d : UnitFence), tget? s.units (unitId kind index) = some d →
      (d.state ≠ .draining → exec (.drainEnd kind index t) s = .next (collPump u)) ∧
      (d.state = .draining → exec (.drainEnd kind index t) s = .next (collPump (
        if unitWork u kind index = false then becomesFenced kind index d.cause u
        else if d.since + drainMax s ≤ u.time then becomesFenced kind index d.cause (failWork kind index u) else u)))) ∧
    (∀ (kind : Fin 11) (index : Nat) (failed : List Nat), unitExists kind index = true → unitState s kind index = .recovering →
      ((kind : Nat) ≠ 1 → ∃ v, exec (.recoveryEnd kind index false failed t) s = .next v ∧ unitState v kind index = .fenced) ∧
      (kind = 3 ∨ kind = 4 ∨ kind = 6 ∨ kind = 7 ∨ kind = 8 ∨ (kind = 9 ∧ partitionBalanced u index = true) →
        ∃ v, exec (.recoveryEnd kind index true failed t) s = .next v ∧ unitState v kind index = .up) ∧
      (kind = 2 → ∃ v, exec (.recoveryEnd kind index true [] t) s = .next v ∧ unitState v 2 index = .up ∧
        ∀ k, k < 13 → unitState v 1 (index * 16 + k) = .up)) ∧
    (∀ (b : BenchId) (e : Entry), sysEntry s b 9 0x60 = some e → let p := benchPart s b
      let r : RemoteOp := { prog := (bench s b).prog, role := (bench s b).role, bench := b, part := p, off := e.off, opc := 9, wide := false, dest := 0, status := wImmBits e.word 5 0, pred := wIndex e.word 4 % 16, soft := wSoft e.word }
      let c : Census := { part := some p, op := some s.nextRop, space := p, dest := (eVal e 2).toNat, len := (eVal e 3).toNat }
      exec (.census b t) s = .next (if s.census.isSome = true then u else
        sysRetire b { u with rops := tset s.rops s.nextRop r, nextRop := s.nextRop + 1, census := some c })) ∧
    (∀ (path : Path) (value : W32), WritesReg u path .errCensus 0 0 value →
      let w := fetched path .errCensus 0 0 value u
      let y := written .errCensus 0 0 value w
      let c : Census := { part := none, op := none, space := fld y .errCensdstHi 0 0 18 16, dest := raw y .errCensdstLo 0 0 + 2 ^ 32 * fld y .errCensdstHi 0 0 15 0, len := raw y .errCenslen 0 0 }
      exec (.errCensusGo path value t) s = .next (answered path .errCensus 0 0 0 w
        (if bit value.toNat 31 = true ∧ y.census = none then { y with census := some c } else y))) ∧
    (∀ c, s.census = some c → (dutyRuns s 2 = false → exec (.censusComplete t) s = .next u) ∧
      (dutyRuns s 2 = true → let r := takeCensus c { u with census := none }
        let bad := (countsOf { u with census := none, censuses := s.censuses + 1 } c.part).filter fun x => !x.balanced
        exec (.censusComplete t) s = .next (match c.op with | some n => completeOp n r.1 [] r.2 | none => r.2) ∧
        fld r.2 .errCensus 0 0 15 0 = Nat.min 65535 bad.length)) ∧
    (∀ c : Count, c.bytes.length = 32) ∧
    (∀ (b : BenchId) (e : Entry), sysEntry s b 9 0x61 = some e → exec (.evpost b t) s =
      .next (sysRetire b (raise (BitVec.ofNat 16 (0xF000 + wImmBits e.word 11 0)) (wModBits e.word 2 0) (some (benchPart s b)) (unitId 2 b) (eVal e 2) u))) ∧
    (∀ (code : BitVec 16) (sev : Fin 5) (part : Option PartId) (unit : W32) (data : W64), let p := part.map fun p => p.val
      exec (.eventRaise code sev part unit data t) s = .next (raise code sev p unit.toNat data u) ∧
      ((sev : Nat) = 1 → slotsUsed s 0 < 2816 → raise code sev p unit.toNat data s = enqueue (newRecord s code 1 p unit.toNat data) 0 s) ∧
      ((sev : Nat) = 0 → flag s .errFatal 0 0 31 = false → let v := raise code sev p unit.toNat data s
        raw v .errFatal 0 0 = 2 ^ 31 + code.toNat ∧ raw v .errFatunit 0 0 = unit.toNat)) ∧
    (∀ (q : QueuedRecord) (l : List QueuedRecord), s.telQ = q :: l → dutyRuns s 2 = true →
      (fld s .telRingHi 0 0 23 16 = 0 → exec (.telemetryQueueLeave t) s =
        .next (if q.rec_.time + 1000000 ≤ u.time then recordLeaves q.rec_ u else u)) ∧
      (fld s .telRingHi 0 0 23 16 ≠ 0 → let used := (raw64 s .telProdLo .telProdHi 0 0 + 2 ^ 64 - raw64 s .telConsLo .telConsHi 0 0) % 2 ^ 64
        exec (.telemetryQueueLeave t) s = .next (if used = ringPlaces s then u else recordLeaves q.rec_ (toRing q.rec_ u)))) ∧
    (∀ r : TelRecord, (recordLeaves r s).telQ = s.telQ.drop 1 ∧
      (recordLeaves r s).i3cQ = (if r.sev ≤ 1 ∧ s.i3cQ.length < 64 then s.i3cQ ++ [r] else s.i3cQ) ∧
      ∀ v, s.adminEvsub = some v → r.sev ≤ v → .event none r ∈ (recordLeaves r s).out)

/-- A module trains to full width with at most 16 spares, to half width with one half good, or is fenced; a flow is served by
a module of its role that is up, else by a general one, else by any, and the groups of a stopped module move; the next good
group that its module serves is accepted, an old one discarded, another makes the receiver ask again, and too many replays
start a retrain, the ninth in a second a fence; a retrain ends in service or in a fence; the part recovers a fenced module by
itself up to AUTORET times in 60 s. The open-site die is discovered once; its accesses are served, wait for a page or for
tokens, or are refused with a status; a module down for 10 ms is fenced and EN is clear with all four. The tests start only on
fenced units and end with their results. A JTAG board-test instruction acts as BYPASS unless BOOT_SEL is 3. (R510, R513, R514,
R515, R516, R517, R519, R521, R522, R523, R524, R525) -/
def Obligations.DieLinksAndTests : Prop :=
  ∀ (t : Time) (s : State),
    let u := atTime t s
    let ext := fun (m d : BitVec 384) => digestOf (digestBytes m ++ digestBytes d)
    (∀ r : DirTest, let n := r.failLow + r.failHigh
      let low := Nat.min r.failLow r.failHigh
      dirRepair r = if r.clockOk = false then none else if n ≤ 16 then some (false, n) else if low ≤ 16 then some (true, low) else none) ∧
    (∀ (m : Fin 328) (r0 r1 : DirTest),
      (awake s = true → s.regsUp = true → ndlState s m = 0 → isUp s 4 m = true →
        (∀ a b, dirRepair r0 = some a → dirRepair r1 = some b → ∃ v, exec (.dieLinkTrain m r0 r1 t) s = .next v ∧ ndlState v m = 2 ∧
          fld v .ndlStat m 0 26 25 = 2 * b01 b.1 + b01 a.1 ∧ fld v .ndlStat m 0 9 0 = 32 * b.2 + a.2) ∧
        (dirRepair r0 = none ∨ dirRepair r1 = none → ∃ v, exec (.dieLinkTrain m r0 r1 t) s = .next v ∧ unitState v 4 m = .draining)) ∧
      (∀ dir : Fin 2, ndlState s m = 3 → let back := unitState s 4 m = .recovering
        back ∨ (isUp s 4 m = true ∧ overReplays s m dir = true) →
        (∀ a b, dirRepair r0 = some a → dirRepair r1 = some b → ∃ v, exec (.ndlRetrain m dir r0 r1 true t) s = .next v ∧
          ndlState v m = 2 ∧ unitState v 4 m = .up ∧ ∀ d : Fin 2, (ndlDir (ndlModule v m) d).replays = []) ∧
        (∀ inTime, dirRepair r0 = none ∨ dirRepair r1 = none ∨ inTime = false → ∃ v, exec (.ndlRetrain m dir r0 r1 inTime t) s = .next v ∧
          ndlState v m = 0 ∧ (back → unitState v 4 m = .fenced) ∧ (¬ back → unitState v 4 m = .draining)))) ∧
    (∀ (m : Fin 328) (dir : Fin 2) (seq ack : Nat) (ok : Bool) (flows : List NdlFlow), let x := ndlDir (ndlModule s m) dir
      let go := exec (.ndlGroupReceive m dir ⟨seq, flows⟩ ok ack t) s
      let old := ok = true ∧ seq < x.next
      let l := x.replays.filter (fun t0 => Nat.blt u.time (t0 + 1000000)) ++ [u.time]
      ((ndlUp s m = false ∨ old ∨ groupFits s m dir flows = false) → go = .next u) ∧
      (ndlUp s m = true → ¬ old → groupFits s m dir flows = true →
        (ok = true → seq = x.next → ∃ v, go = .next v ∧ (ndlDir (ndlModule v m) dir).next = x.next + 1 ∧
          (ndlDir (ndlModule v m) (1 - dir.val)).acked = ack ∧ v.out = s.out ∧
          ndlWaiting v m dir = (if flows ∈ x.unacked then x.moved else x.moved.erase flows) ++ x.unacked.erase flows) ∧
        (ok = false ∨ x.next < seq → ∃ v, go = .next v ∧ .ndlReplay m dir x.next ∈ v.out ∧
          raw v .ndlReplay m 0 = Nat.min (2 ^ 32 - 1) (raw s .ndlReplay m 0 + 1) ∧ (ndlDir (ndlModule v m) dir).replays = l ∧
          (l.length ≤ replayLimit s → ndlState v m = 2 ∧ flows ∈ (ndlDir (ndlModule v m) dir).unacked) ∧
          (replayLimit s < l.length → if 8 ≤ (recentRetrains u m).length then unitState v 4 m = .draining else ndlState v m = 3)))) ∧
    (∀ (l : Nat) (f : NdlFlow), ((∃ m ∈ linkModules l, ndlUp s m = true) ↔ (flowModule s l f).isSome = true) ∧
      ∀ m, flowModule s l f = some m → let of := fun (r : Nat) => ∃ k ∈ linkModules l, ndlUp s k = true ∧ fld s .ndlStat k 0 28 27 = r
        m ∈ linkModules l ∧ ndlUp s m = true ∧ (of f.role.val → fld s .ndlStat m 0 28 27 = f.role.val) ∧
        (¬ of f.role.val → of 0 → fld s .ndlStat m 0 28 27 = 0)) ∧
    (∀ (l m : Nat) (d : Fin 2), m ∈ linkModules l → ndlUp s m = false → (∃ k ∈ linkModules l, ndlUp s k = true) → let v := moveStopped l s
      ndlWaiting v m d = [] ∧ ∀ g ∈ ndlWaiting s m d, ∀ f ∈ g, ∃ k ∈ linkModules l, ndlUp s k = true ∧
        ∃ h ∈ (ndlDir (ndlModule v k) d).moved, f ∈ h) ∧
    (∀ i : JtagInstr, jtagActs s i = if i.drives = true ∧ bootSel s ≠ 3 then .bypass else i) ∧
    (∀ d : JtagDie, d ∈ jtagChain ∧ (jtagIdcode d).toNat % 2 ^ 12 = 0x2D3 * 2 + 1 ∧
      (jtagIdcode d).toNat / 2 ^ 12 % 2 ^ 16 = (if d = .h0 ∨ d = .h1 then 0x9802 else 0x9801)) ∧
    (∀ m : Fin 328, unitState s 4 m = .fenced → ndlState s m ≠ 5 →
      let ts := (ndlModule s m).autos.filter fun t0 => Nat.blt u.time (t0 + 60000000000)
      (ts.length < fld s .ndlCtl 0 0 19 16 → ∃ v, exec (.ndlAutoRecover m t) s = .next v ∧ unitState v 4 m = .recovering ∧
        (ndlModule v m).autos = ts ++ [u.time] ∧ ndlState v m = 3) ∧
      (fld s .ndlCtl 0 0 19 16 ≤ ts.length → exec (.ndlAutoRecover m t) s = .next u)) ∧
    (∀ (rate : List Nat) (narrow : List Bool), awake s = true → s.regsUp = true → s.uciOff = false → flag s .uciStat 0 0 31 = false →
      exec (.ucieDiscovery none rate narrow t) s = .next { u with uciOff := true } ∧
      ∀ id : W64, ∃ v, exec (.ucieDiscovery (some id) rate narrow t) s = .next v ∧ flag v .uciStat 0 0 31 = true ∧
        raw64 v .uciIdLo .uciIdHi 0 0 = id.toNat ∧ flag v .genConfig 0 0 4 = true ∧ mr v 10 = ext (mr s 10) (digestOf (leBytes 8 id.toNat)) ∧
        ∀ i : Fin 4, (flag v .uciStat 0 0 (27 + i) = true ↔ rateCode ((rate[(i : Nat)]?).getD 0) ≠ 0)) ∧
    (∀ a : DieAccess, (flag s .uciStat 0 0 31 = false ∨ fld s .uciStat 0 0 30 27 = 0) → exec (.ucieAccess a t) s = .next u) ∧
    (∀ a : DieAccess, flag s .uciStat 0 0 31 = true → fld s .uciStat 0 0 30 27 ≠ 0 → let p := diePart s
      let v := dieVa a / 2 ^ 21
      exec (.ucieAccess a t) s = .next (
        if flag s .uciCtl 0 0 30 = false then dieRefused (Config.dieRefusal 0) u
        else if isUp s 9 p = false then dieRefused 0x0305 u
        else if dieAligned a = false then dieRefused (Config.dieRefusal 1) u
        else match diePage u a with
          | some (.error st) => dieRefused st u
          | some (.ok l) => if admittedAt u p (paOf l (dieVa a)) = true then dieServe a l (heatPage p v { u with uciTlb := touchLru 256 v s.uciTlb })
            else waitAt p (paOf l (dieVa a)) u
          | none => askDrift p v (heatPage p v u))) ∧
    (∀ st, (dieRefused st s).out = s.out ++ [.die st []] ∧ raw (dieRefused st s) .uciErr 0 0 = Nat.min (2 ^ 32 - 1) (raw s .uciErr 0 0 + 1)) ∧
    (∀ m : Fin 4, flag s .uciStat 0 0 31 = true → (∀ t0, tget? s.uciDown m = some t0 → t0 + 10000000 < u.time) →
      ∃ v, exec (.ucieModuleDown m t) s = .next v ∧ flag v .uciStat 0 0 (27 + m) = false ∧ isUp v 4 (328 + m) = false ∧
        ((∀ k : Fin 4, k ≠ m → isUp s 4 (328 + k) = false) → flag v .uciCtl 0 0 30 = false)) ∧
    (∀ (path : Path) (value : W32),
      (WritesReg u path .dbgLoop 0 0 value → let w := fetched path .dbgLoop 0 0 value u
        exec (.dbgLoop path value t) s = .next (answered path .dbgLoop 0 0 0 w (dbgLoopWritten value.toNat (written .dbgLoop 0 0 value w)))) ∧
      (WritesReg u path .dbgP1500 0 0 value → let w := fetched path .dbgP1500 0 0 value u
        exec (.dbgP1500 path value t) s = .next (answered path .dbgP1500 0 0 0 w (p1500Written value.toNat (written .dbgP1500 0 0 value w))))) ∧
    (∀ v : Nat, bit v 31 = true →
      (let m := bits v 26 18
       flag s .dbgLoop 0 0 30 = false → let y := dbgLoopWritten v s
        if m < 332 ∧ unitState s 4 m = .fenced then flag y .dbgLoop 0 0 30 = true ∧ y.loopAt = s.time ∧ (m < 328 → ndlState y m = 5)
        else flag y .dbgLoop 0 0 30 = false ∧ fld y .dbgLoop 0 0 17 16 = 1) ∧
      (let k := bits v 3 0
       flag s .dbgP1500 0 0 30 = false → let y := p1500Written v s
        let ok := k < 12 ∧ ∀ p, p < 64 → unitState s 7 (k * 64 + p) = .fenced
        (ok → flag y .dbgP1500 0 0 30 = true) ∧ (¬ ok → flag y .dbgP1500 0 0 30 = false ∧ fld y .dbgP1500 0 0 29 28 = 1))) ∧
    (flag s .dbgLoop 0 0 30 = true → ∀ first errs,
      (u.time < s.loopAt + 100000 → exec (.dbgLoopComplete first errs t) s = .next u) ∧
      (s.loopAt + 100000 ≤ u.time → ∃ v, exec (.dbgLoopComplete first errs t) s = .next v ∧ flag v .dbgLoop 0 0 30 = false ∧
        fld v .dbgLoopres 0 0 31 23 = Nat.min first 0x1FF ∧ fld v .dbgLoopres 0 0 15 0 = Nat.min 65535 errs)) ∧
    (flag s .dbgP1500 0 0 30 = true → ∀ pass, ∃ v, exec (.dbgP1500Complete pass t) s = .next v ∧ flag v .dbgP1500 0 0 30 = false ∧
      fld v .dbgP1500 0 0 29 28 = (if pass = true then 0 else 2))

/-- Power-good, a low SYS_RST_N, a fall of SYS_PWROK, an internal cause and 100 µs without REFCLK reset the part; a reset
leaves every register at its reset value but those that show flash, OTP and the thermal trip, drops what memory and units
held, and keeps OTP, flash, the trip and the hours; the start event sets part time to zero. PLL lock turns the regulators on
at 0.75 V; the identity memories are read once after release, each entering MR10; trained stacks serve; host ports with an
address and all their lanes come up. (R40, R530, R536, R537, R538, R539, R542, R543, R544, R225, R303, R313) -/
def Obligations.ResetsAndStartUp : Prop :=
  ∀ (t : Time) (s : State),
    let u := atTime t s
    let ext := fun (m d : BitVec 384) => digestOf (digestBytes m ++ digestBytes d)
    (exec .powerOnReset s = .next (if s.rstLow = true then resetBlock (some .board) s else startEvent (resetBlock none s))) ∧
    (exec (.boardReset t) s = .next (resetBlock (some (if s.inReset = some .pwrok then .pwrok else .board)) { u with rstLow := true })) ∧
    (exec (.pwrokFall t) s = .next (resetBlock (some .pwrok) u)) ∧
    (∀ cause : Fin 3, exec (.internalReset cause t) s = .next (resetBlock (some (if cause = 2 then .refclk else .internal)) u)) ∧
    (∀ c, let v := resetBlock c s
      v.inReset = c ∧ v.resetAt = s.time ∧ v.time = s.time ∧ v.pending = s.pending ∧ v.out = s.out ∧ v.tripped = s.tripped ∧
      v.rstLow = s.rstLow ∧ (s.update ≠ some .commit → v.otp = s.otp) ∧ v.flash = { s.flash with hours := ageHours s } ∧
      v.units = [] ∧ v.mem = [] ∧ v.benches = [] ∧ v.parts = [] ∧ v.progs = [] ∧ v.telQ = [] ∧ v.sessions = [] ∧ v.engines = [] ∧
      (s.tripped = true → raw v .thmTrip 0 0 = raw s .thmTrip 0 0) ∧
      ∀ r i j, placeAt (regAddr r i j) = some ⟨r, i, j⟩ → r ≠ .thmTrip → r ≠ .attBoot → r ≠ .attSvn → r ≠ .attKeys →
        raw v r i j = regReset r % 2 ^ 32) ∧
    ((startEvent s).time = 0 ∧ (startEvent s).inReset = none) ∧
    ((s.inReset = some .board → exec (.resetRelease t) s = .next (startEvent { u with rstLow := false })) ∧
      (s.inReset = some .internal → exec (.resetRelease t) s =
        .next (if s.resetAt + 1000000 ≤ u.time ∧ s.rstLow = false then startEvent u else u)) ∧
      (s.inReset = none ∨ s.inReset = some .pwrok ∨ s.inReset = some .refclk → exec (.resetRelease t) s = .next { u with rstLow := false })) ∧
    (exec (.refclkLoss t) s = .next (if s.refLost = none then { u with refLost := some u.time } else u)) ∧
    (∀ t0, s.refLost = some t0 → s.inReset = none → exec (.refclkHoldoverExpire t) s =
      .next (if t0 + 100000 ≤ u.time then { resetBlock (some .refclk) u with refLost := some t0 } else u)) ∧
    (exec (.refclkReturn t) s = .next (if s.inReset = some .refclk then startEvent { u with refLost := none } else { u with refLost := none })) ∧
    (awake s = true → s.pllLock = false → ∃ v, exec (.pllLock t) s = .next v ∧ v.pllLock = true ∧
      ∀ k, k < 32 → (sector v k).regOff = false ∧ fld v .pwrSect k 0 19 12 = 80) ∧
    (exec (.regulatorsUp t) s = .next (if awake s = true ∧ s.pllLock = true then { u with regsUp := true } else u)) ∧
    (∀ (tray : IdRecord) (stratus lsms : List IdRecord) (converters : List Bool), s.verified = true → s.idsRead = false →
      ∃ v, exec (.identityRead tray stratus lsms converters t) s = .next v ∧ v.idsRead = true ∧
        fld v .pwrTdp 0 0 27 16 = (match tray with
          | some bs => if recordOk 4 64 bs = true then clampTdp (leAt bs 28 2) else 1600
          | none => 1600) ∧
        (∀ m bs, m < 4 → stratus[m]? = some (some bs) → recordOk 3 64 bs = true → leAt bs 32 4 % 4 = m → flag v .genConfig 0 0 m = true) ∧
        (∀ (e : EngineId) bs, lsms[(e : Nat)]? = some (some bs) → engineCore s e = true →
          recordOk (if (e : Nat) < 10 then 1 else 2) (if (e : Nat) < 10 then 172 else 108) bs = true →
          (engine v e).lsm = true ∧ flag v .genConfig 0 0 (6 + e) = true) ∧
        (∀ e : EngineId, lsms[(e : Nat)]? = some none → ∀ (d : Fin 2) (l : Nat), l < engineLanes e → laneState v e d l = 8) ∧
        v.convs = (List.range 5).map (fun n => (converters[n]?).getD false) ∧
        mr v 10 = ([digestOf (leBytes 4 (raw s .genStrap 0 0)), idDigest tray] ++ (List.range 4).map (fun m => idDigest (nthRecord stratus m)) ++
          (List.range 12).map (fun e => idDigest (nthRecord lsms e))).foldl ext (mr s 10)) ∧
    (∀ fails, s.verified = true → ∃ v, exec (.hbmTrainingDone fails t) s = .next v ∧ (∀ m, m < 12 → flag v .memStat m 0 0 = true) ∧
      ∀ c, c ∈ fails → c < 768 → isUp v 7 c = false) ∧
    (∀ up : List Bool, ((s.verified = false ∨ awake s = false) → exec (.hostPortsTrained up t) s = .next u) ∧
      (s.verified = true → awake s = true → ∃ v, exec (.hostPortsTrained up t) s = .next v ∧ v.hostsUp = true ∧
        ∀ p : Fin 4, flag v .hstPstat p 0 31 = (flag s .hstPstat p 0 31 || (up[(p : Nat)]? == some true && portHasMac s p &&
          (engine s (10 + p / 2)).lit && isUp s 6 (10 + p / 2) && portLanesUp s p))))
end

