-- ==== Sys2Proof/Laws/Tables.lean ====
section
/-! SUPPORT. Laws of sparse tables and of device memory: read after write, and the canonical form. -/

namespace Sys2Proof.Machine

/-! ## Tables -/

/-- The entry just set is the one read. -/
@[simp] theorem tget?_tset_self {α : Type} (t : Tab α) (n : Nat) (v : α) : tget? (tset t n v) n = some v := by
  induction t with
  | nil => simp [tset, tget?]
  | cons c t ih =>
    obtain ⟨k, w⟩ := c
    cases h : n == k
    · have hk : (k == n) = false := by simp at h ⊢; omega
      cases g : Nat.blt n k <;> simp [tset, tget?, h, g, hk, ih]
    · simp [tset, tget?, h]

/-- Setting one entry leaves every other as it was. -/
theorem tget?_tset_ne {α : Type} (t : Tab α) (n m : Nat) (v : α) (hm : m ≠ n) :
    tget? (tset t n v) m = tget? t m := by
  have hn : (n == m) = false := by simp; omega
  induction t with
  | nil => simp [tset, tget?, hn]
  | cons c t ih =>
    obtain ⟨k, w⟩ := c
    cases h : n == k <;> cases g : Nat.blt n k <;> simp [tset, tget?, h, g, hn, ih]
    all_goals
      simp at h; subst h
      simp [hn]

/-- Removing one entry leaves every other as it was. -/
theorem tget?_terase_ne {α : Type} (t : Tab α) (n m : Nat) (hm : m ≠ n) : tget? (terase t n) m = tget? t m := by
  have hn : (n == m) = false := by simp; omega
  induction t with
  | nil => rfl
  | cons c t ih =>
    obtain ⟨k, w⟩ := c
    cases h : k == n <;> simp [terase, tget?, h, ih]
    simp at h; subst h
    simp [hn]

@[simp] theorem tget?_terase_self {α : Type} (t : Tab α) (n : Nat) : tget? (terase t n) n = none := by
  induction t with
  | nil => rfl
  | cons c t ih =>
    obtain ⟨k, w⟩ := c
    cases h : k == n <;> simp [terase, tget?, h, ih]

theorem terase_eq_filter {α : Type} (t : Tab α) (n : Nat) : terase t n = t.filter (fun c => !(c.1 == n)) := by
  induction t with
  | nil => rfl
  | cons c t ih =>
    obtain ⟨k, w⟩ := c
    cases h : k == n <;> simp [terase, h, ih]

@[simp] theorem tget_tset_self {α : Type} (t : Tab α) (n : Nat) (v d : α) : tget (tset t n v) n d = v := by
  simp [tget]

theorem tget_tset_ne {α : Type} (t : Tab α) (n m : Nat) (v d : α) (hm : m ≠ n) :
    tget (tset t n v) m d = tget t m d := by
  simp [tget, tget?_tset_ne t n m v hm]

theorem tget_terase_ne {α : Type} (t : Tab α) (n m : Nat) (d : α) (hm : m ≠ n) : tget (terase t n) m d = tget t m d := by
  simp [tget, tget?_terase_ne t n m hm]

/-! ## The canonical form of memory -/

/-- Whether a table begins above `k`. -/
def startsAbove (k : Nat) : Tab Byte → Bool
  | [] => true
  | c :: _ => Nat.blt k c.1

theorem wf_cons (k : Nat) (v : Byte) (t : Tab Byte) :
    Memory.wf ((k, v) :: t) = (!(v == 0) && startsAbove k t && Memory.wf t) := by
  cases t with
  | nil => simp [Memory.wf, startsAbove]
  | cons c t =>
    simp only [Memory.wf, startsAbove, List.all_cons, List.tail_cons, List.zip_cons_cons]
    cases (!(v == 0)) <;> cases (Nat.blt k c.1) <;> simp

theorem startsAbove_tset (k n : Nat) (v : Byte) (t : Tab Byte) (hk : k < n) (h : startsAbove k t = true) :
    startsAbove k (tset t n v) = true := by
  cases t with
  | nil => simpa [startsAbove, tset, Nat.blt_eq] using hk
  | cons c t =>
    obtain ⟨k', w⟩ := c
    simp only [startsAbove, Nat.blt_eq] at h
    cases e : n == k' <;> cases g : Nat.blt n k' <;> simp [tset, e, g, startsAbove, Nat.blt_eq] <;> omega

theorem wf_tset (t : Tab Byte) (n : Nat) (v : Byte) (hv : ¬ v = 0#8) (h : Memory.wf t = true) :
    Memory.wf (tset t n v) = true := by
  induction t with
  | nil => simp [tset, Memory.wf, hv]
  | cons c t ih =>
    obtain ⟨k, w⟩ := c
    have h0 := h
    rw [wf_cons] at h
    simp only [Bool.and_eq_true] at h
    cases e : n == k
    · cases g : Nat.blt n k
      · have hk : k < n := by
          have h1 : ¬ n < k := by simpa [Nat.blt_eq, Bool.eq_false_iff] using g
          have h2 : n ≠ k := by simpa using e
          omega
        simp only [tset, e, g, cond_false, wf_cons, h.1.1, startsAbove_tset k n v t hk h.1.2, ih h.2, Bool.and_self]
      · rw [tset, e, g, cond_false, cond_true, wf_cons, h0]
        simp [hv, startsAbove, Nat.blt_eq] at g ⊢
        exact g
    · have e' : n = k := by simpa using e
      subst e'
      simp [tset, wf_cons, hv, h.1.2, h.2]

theorem startsAbove_filter (p : Nat × Byte → Bool) (k : Nat) (t : Tab Byte) (hw : Memory.wf t = true)
    (h : startsAbove k t = true) : startsAbove k (t.filter p) = true := by
  induction t with
  | nil => rfl
  | cons c t ih =>
    obtain ⟨k', w⟩ := c
    rw [wf_cons] at hw
    simp only [Bool.and_eq_true] at hw
    cases e : p (k', w)
    · have hk : startsAbove k t = true := by
        cases t with
        | nil => rfl
        | cons d t =>
          have h1 : k' < d.1 := by simpa [startsAbove, Nat.blt_eq] using hw.1.2
          have h2 : k < k' := by simpa [startsAbove, Nat.blt_eq] using h
          simpa [startsAbove, Nat.blt_eq] using Nat.lt_trans h2 h1
      simpa [List.filter, e] using ih hw.2 hk
    · simpa [List.filter, e, startsAbove] using h

/-- Dropping cells keeps the canonical form. -/
theorem wf_filter (p : Nat × Byte → Bool) (t : Tab Byte) (h : Memory.wf t = true) : Memory.wf (t.filter p) = true := by
  induction t with
  | nil => rfl
  | cons c t ih =>
    obtain ⟨k, w⟩ := c
    rw [wf_cons] at h
    simp only [Bool.and_eq_true] at h
    cases e : p (k, w)
    · simpa [List.filter, e] using ih h.2
    · have hw : ¬ w = 0#8 := by simpa using h.1.1
      simp [List.filter, e, wf_cons, hw, startsAbove_filter p k t h.2 h.1.2, ih h.2]

theorem wf_terase (t : Tab Byte) (n : Nat) (h : Memory.wf t = true) : Memory.wf (terase t n) = true := by
  rw [terase_eq_filter]; exact wf_filter _ t h

/-- Writing one byte keeps the canonical form. -/
theorem wf_cellSet (m : Tab Byte) (pa : Nat) (v : Byte) (h : Memory.wf m = true) : Memory.wf (cellSet m pa v) = true := by
  by_cases e : v = 0#8
  · simpa [cellSet, e] using wf_terase m pa h
  · have e' : (v == 0#8) = false := by simpa using e
    simpa [cellSet, e'] using wf_tset m pa v e h

/-- Writing bytes keeps the canonical form. -/
theorem wf_cellsWrite (m : Tab Byte) (pa : Nat) (bs : List Byte) (h : Memory.wf m = true) :
    Memory.wf (cellsWrite m pa bs) = true := by
  induction bs generalizing m pa with
  | nil => exact h
  | cons v vs ih => exact ih (cellSet m pa v) (pa + 1) (wf_cellSet m pa v h)

/-! ## Reading what was written -/

theorem tget_cellSet_self (m : Tab Byte) (pa : Nat) (v : Byte) : tget (cellSet m pa v) pa 0 = v := by
  by_cases e : v = 0#8
  · simp [cellSet, e, tget]
  · have e' : (v == 0#8) = false := by simpa using e
    simp [cellSet, e']

theorem tget_cellSet_ne (m : Tab Byte) (pa a : Nat) (v : Byte) (ha : a ≠ pa) : tget (cellSet m pa v) a 0 = tget m a 0 := by
  by_cases e : v = 0#8
  · simpa [cellSet, e] using tget_terase_ne m pa a 0 ha
  · have e' : (v == 0#8) = false := by simpa using e
    simpa [cellSet, e'] using tget_tset_ne m pa a v 0 ha

theorem tget_cellsWrite_outside (m : Tab Byte) (pa a : Nat) (bs : List Byte) (ha : a < pa ∨ pa + bs.length ≤ a) :
    tget (cellsWrite m pa bs) a 0 = tget m a 0 := by
  induction bs generalizing m pa with
  | nil => rfl
  | cons v vs ih =>
    simp only [List.length_cons] at ha
    rw [cellsWrite, ih (cellSet m pa v) (pa + 1) (by omega), tget_cellSet_ne m pa a v (by omega)]

theorem tget_cellsWrite_inside (m : Tab Byte) (pa : Nat) (bs : List Byte) (i : Nat)
    (hi : i < bs.length) : tget (cellsWrite m pa bs) (pa + i) 0 = bs[i] := by
  induction bs generalizing m pa i with
  | nil => simp at hi
  | cons v vs ih =>
    cases i with
    | zero =>
      rw [cellsWrite, Nat.add_zero, tget_cellsWrite_outside _ _ _ _ (by omega)]
      exact tget_cellSet_self m pa v
    | succ i =>
      have := ih (cellSet m pa v) (pa + 1) i (by simpa using hi)
      rw [cellsWrite, show pa + (i + 1) = pa + 1 + i by omega, this]
      rfl

/-- A byte outside a write reads as before. -/
theorem memGet_memWrite_outside (s : State) (pa a : Nat) (bs : List Byte) (ha : a < pa ∨ pa + bs.length ≤ a) :
    memGet (memWrite pa bs s) a = memGet s a :=
  tget_cellsWrite_outside s.mem pa a bs ha

/-- A byte inside a write reads as written. -/
theorem memGet_memWrite_inside (s : State) (pa : Nat) (bs : List Byte) (i : Nat)
    (hi : i < bs.length) : memGet (memWrite pa bs s) (pa + i) = bs[i] :=
  tget_cellsWrite_inside s.mem pa bs i hi

/-- Reset memory is in canonical form. -/
theorem reset_wf : Memory.wf State.reset.mem = true := rfl

end Sys2Proof.Machine
end

