-- ==== Sys2Proof/Laws/Keeps.lean ====
section
/-! SUPPORT. What every command keeps: `Carries` and `Keeps` as relations, and their laws for changes of one field. -/

namespace Sys2Proof.Machine

/-! ## Fuses -/

theorem KeySlot.le_refl (a : KeySlot) : a.le a := ⟨id, fun _ => rfl⟩

theorem KeySlot.le_trans {a b c : KeySlot} (h : a.le b) (g : b.le c) : a.le c := by
  refine ⟨fun r => g.1 (h.1 r), fun k => ?_⟩
  have e := h.2 k
  rw [← e]
  exact g.2 (by rw [e]; exact k)

theorem slotsLe_refl (l : List KeySlot) : slotsLe l l := by
  refine ⟨rfl, fun n x y hx hy => ?_⟩
  rw [hx] at hy
  cases hy
  exact x.le_refl

theorem slotsLe_trans {l m k : List KeySlot} (h : slotsLe l m) (g : slotsLe m k) : slotsLe l k := by
  refine ⟨h.1.trans g.1, fun n x z hx hz => ?_⟩
  have hn : n < m.length := by
    rw [← h.1]
    exact (List.getElem?_eq_some_iff.mp hx).1
  exact KeySlot.le_trans (h.2 n x m[n] hx (List.getElem?_eq_getElem hn)) (g.2 n m[n] z (List.getElem?_eq_getElem hn) hz)

theorem Otp.le_refl (a : Otp) : a.le a := ⟨Nat.le_refl _, slotsLe_refl _, slotsLe_refl _⟩

theorem Otp.le_trans {a b c : Otp} (h : a.le b) (g : b.le c) : a.le c :=
  ⟨Nat.le_trans h.1 g.1, slotsLe_trans h.2.1 g.2.1, slotsLe_trans h.2.2 g.2.2⟩

/-- Revoking slots blows fuses only. -/
theorem slotsLe_revokeSlots (mask : Nat) (l : List KeySlot) (n : Nat) : slotsLe l (revokeSlots mask l n) := by
  induction l generalizing n with
  | nil => exact slotsLe_refl _
  | cons k l ih =>
    refine ⟨by simp [revokeSlots, (ih (n + 1)).1], fun i x y hx hy => ?_⟩
    cases i with
    | zero =>
      simp only [List.getElem?_cons_zero, Option.some.injEq, revokeSlots] at hx hy
      subst hx hy
      cases bit mask n
      · exact k.le_refl
      · exact ⟨fun _ => rfl, fun _ => rfl⟩
    | succ i =>
      simp only [List.getElem?_cons_succ, revokeSlots] at hx hy
      exact (ih (n + 1)).2 i x y hx hy

/-- Changing one slot so that it only blows fuses blows fuses only. -/
theorem slotsLe_listMod (l : List KeySlot) (n : Nat) (f : KeySlot → KeySlot)
    (h : ∀ x, l[n]? = some x → x.le (f x)) : slotsLe l (listMod l n f) := by
  induction l generalizing n with
  | nil => exact slotsLe_refl _
  | cons k l ih =>
    cases n with
    | zero =>
      refine ⟨by simp [listMod], fun i x y hx hy => ?_⟩
      cases i with
      | zero =>
        simp only [List.getElem?_cons_zero, Option.some.injEq, listMod] at hx hy
        subst hx hy
        exact h k rfl
      | succ i =>
        simp only [List.getElem?_cons_succ, listMod] at hx hy
        rw [hx] at hy
        cases hy
        exact x.le_refl
    | succ n =>
      have ih' := ih n (fun x hx => h x (by simpa using hx))
      refine ⟨by simp [listMod, ih'.1], fun i x y hx hy => ?_⟩
      cases i with
      | zero =>
        simp only [List.getElem?_cons_zero, Option.some.injEq, listMod] at hx hy
        subst hx hy
        exact k.le_refl
      | succ i =>
        simp only [List.getElem?_cons_succ, listMod] at hx hy
        exact ih'.2 i x y hx hy

/-! ## The relations -/

theorem Keeps.refl (s : State) : Keeps s s := ⟨rfl, List.prefix_refl _, Nat.le_refl _, id, Otp.le_refl _⟩

theorem Keeps.trans {s t u : State} (h : Keeps s t) (g : Keeps t u) : Keeps s u :=
  ⟨g.pending.trans h.pending, h.out.trans g.out, Nat.le_trans h.free g.free, fun w => g.mem (h.mem w), Otp.le_trans h.otp g.otp⟩

theorem Carries.refl (s : State) : Carries s s := ⟨Keeps.refl s, Nat.le_refl _, id⟩

theorem Carries.trans {s t u : State} (h : Carries s t) (g : Carries t u) : Carries s u :=
  ⟨h.toKeeps.trans g.toKeeps, Nat.le_trans h.time g.time, fun w => g.trip (h.trip w)⟩

theorem carries_cond {s a b : State} {c : Bool} (ha : Carries s a) (hb : Carries s b) : Carries s (bif c then a else b) := by
  cases c
  · exact hb
  · exact ha

theorem carries_ite {s a b : State} {c : Prop} [Decidable c] (ha : Carries s a) (hb : Carries s b) :
    Carries s (if c then a else b) := by
  split
  · exact ha
  · exact hb

theorem carries_cond_fst {β : Type} {s : State} {c : Bool} {a b : State × β} (ha : Carries s a.1) (hb : Carries s b.1) :
    Carries s (bif c then a else b).1 := by
  cases c
  · exact hb
  · exact ha

theorem carries_cond_snd {β : Type} {s : State} {c : Bool} {a b : β × State} (ha : Carries s a.2) (hb : Carries s b.2) :
    Carries s (bif c then a else b).2 := by
  cases c
  · exact hb
  · exact ha

theorem carries_cond_last {β γ : Type} {s : State} {c : Bool} {a b : β × γ × State} (ha : Carries s a.2.2)
    (hb : Carries s b.2.2) : Carries s (bif c then a else b).2.2 := by
  cases c
  · exact hb
  · exact ha

theorem carries_foldl {α : Type} {s u : State} {f : State → α → State} {l : List α}
    (hf : ∀ t a, Carries s t → Carries s (f t a)) (h : Carries s u) : Carries s (l.foldl f u) := by
  induction l generalizing u with
  | nil => exact h
  | cons a l ih => exact ih (hf u a h)

/-- A fold that carries a state beside other data. -/
theorem carries_foldl_fst {α β : Type} {s : State} {f : State × β → α → State × β} {l : List α} {a : State × β}
    (hf : ∀ t x, Carries s t.1 → Carries s (f t x).1) (h : Carries s a.1) : Carries s (l.foldl f a).1 := by
  induction l generalizing a with
  | nil => exact h
  | cons x l ih => exact ih (hf a x h)

theorem carries_foldl_snd {α β : Type} {s : State} {f : β × State → α → β × State} {l : List α} {a : β × State}
    (hf : ∀ t x, Carries s t.2 → Carries s (f t x).2) (h : Carries s a.2) : Carries s (l.foldl f a).2 := by
  induction l generalizing a with
  | nil => exact h
  | cons x l ih => exact ih (hf a x h)

/-- A change of fields that `Carries` does not name. -/
theorem carries_mk {s u : State} {fr : Nat}
    {x_ctl : Tab W32} {x_paths : Tab PathRegs} {x_benches : Tab Bench} {x_parts : Tab Partition} {x_frames : Tab
    FrameState} {x_scrubQ : Tab (List Nat)} {x_walks : Tab (List Nat)} {x_progs : Tab Prog} {x_nextProg : Nat}
    {x_reports : List FaultReport} {x_poison : List Nat} {x_flaws : Tab (List (Nat × BitVec 16))} {x_tables : Tab
    TablePage} {x_reserveOut : List Nat} {x_pcErrs : Tab (Nat × Nat × List Time)} {x_rowErrs : Tab (List Nat)}
    {x_sparesUsed : Tab Nat} {x_scrubbed : Tab (List Nat)} {x_quotaErr : Bool} {x_units : Tab UnitFence} {x_telQ :
    List QueuedRecord} {x_i3cQ : List TelRecord} {x_census : Option Census} {x_censuses : Nat} {x_rops : Tab
    RemoteOp} {x_nextRop : Nat} {x_txns : Tab Txn} {x_sendQ : List Txn} {x_pairs : Tab PairSeq} {x_sources : Tab
    Source} {x_accepted : List (Nat × Nat)} {x_owners : Tab (Tab Owner)} {x_reqs : Tab Req} {x_nextReq : Nat}
    {x_engines : Tab Engine} {x_qps : Tab QueuePair} {x_nextQp : Nat} {x_fabActive : TableSet} {x_fabOld : Option
    TableSet} {x_fabShadow : TableSet} {x_epoch : Nat} {x_swapped : Bool} {x_drainAt : Time} {x_drainWarned : Bool}
    {x_sentMarks : List Nat} {x_links : Tab Link} {x_ordPaths : Tab (Nat × Nat × Nat)} {x_arrived : List Arrived}
    {x_stewardQ : List (Packet × Option Origin)} {x_helloFrom : Tab Nat} {x_fabMap : Option (Tab Nat)} {x_discovered
    : Bool} {x_fabReady : Option Time} {x_wxAt : Time} {x_wxPeriod : Nat} {x_wxDrops : Nat} {x_wxReplays : Nat}
    {x_drops : Tab (Nat × Nat)} {x_notices : List (Packet × Nat)} {x_colls : Tab Coll} {x_nextColl : Nat} {x_groups
    : Tab CollGroup} {x_mailboxes : Tab Mailbox} {x_sessions : Tab Session} {x_adminEvsub : Option Nat} {x_flash :
    Flash} {x_mrs : Tab (BitVec 384)} {x_bootAt : Option Time} {x_bootB : Bool} {x_verified : Bool} {x_recovery :
    Bool} {x_keysReady : Bool} {x_images : Tab Image} {x_bootCfg : Option (List Byte)} {x_cfgDigest : Option (BitVec
    384)} {x_mapDigest : Option (BitVec 384)} {x_restarts : Tab (List Time)} {x_duties : Tab Nat} {x_stewardGone :
    Option Time} {x_update : Option Update} {x_deferred : Option Deferred} {x_signQ : List SignReq} {x_conns : List
    Nat} {x_nextConn : Nat} {x_owned : Bool} {x_noRestart : List Nat} {x_sectors : Tab Sector} {x_pkg : List Nat}
    {x_pkgOver : Bool} {x_feedOver : Bool} {x_rails : List Nat} {x_convs : List Bool} {x_cutAt : Option Time}
    {x_emergAt : Option Time} {x_shadow : Option Plan} {x_planAt : Option Time} {x_planNow : Bool} {x_clocksOn :
    Bool} {x_planFeed : Int} {x_minRefresh : Tab Nat} {x_planRefresh : Tab Nat} {x_refBand : Tab Nat} {x_overlay :
    Option (List Byte)} {x_calBusy : Option CalBusy} {x_ndl : Tab NdlModule} {x_uciTlb : List Nat} {x_uciOff : Bool}
    {x_uciDown : Tab Time} {x_loopAt : Time} {x_inReset : Option ResetCause} {x_resetAt : Time} {x_refLost : Option
    Time} {x_pllLock : Bool} {x_regsUp : Bool} {x_idsRead : Bool} {x_hostsUp : Bool} {x_absent : List Nat} {x_rstLow
    : Bool}
    (hf : u.free ≤ fr) (h : Carries s u) :
    Carries s (State.mk u.time fr u.out x_ctl x_paths x_benches x_parts x_frames x_scrubQ x_walks x_progs x_nextProg
      x_reports u.mem x_poison x_flaws x_tables x_reserveOut x_pcErrs x_rowErrs x_sparesUsed x_scrubbed x_quotaErr
      x_units x_telQ x_i3cQ x_census x_censuses x_rops x_nextRop x_txns x_sendQ x_pairs x_sources x_accepted
      x_owners x_reqs x_nextReq x_engines x_qps x_nextQp x_fabActive x_fabOld x_fabShadow x_epoch x_swapped
      x_drainAt x_drainWarned x_sentMarks x_links x_ordPaths x_arrived x_stewardQ x_helloFrom x_fabMap x_discovered
      x_fabReady x_wxAt x_wxPeriod x_wxDrops x_wxReplays x_drops x_notices x_colls x_nextColl x_groups x_mailboxes
      x_sessions x_adminEvsub x_flash u.otp x_mrs x_bootAt x_bootB x_verified x_recovery x_keysReady x_images
      x_bootCfg x_cfgDigest x_mapDigest x_restarts x_duties x_stewardGone x_update x_deferred x_signQ x_conns
      x_nextConn x_owned x_noRestart x_sectors x_pkg x_pkgOver x_feedOver x_rails x_convs x_cutAt x_emergAt x_shadow
      x_planAt x_planNow x_clocksOn x_planFeed x_minRefresh x_planRefresh x_refBand x_overlay x_calBusy x_ndl
      x_uciTlb x_uciOff x_uciDown x_loopAt x_inReset x_resetAt x_refLost u.tripped x_pllLock x_regsUp x_idsRead
      x_hostsUp x_absent x_rstLow u.pending) :=
  ⟨⟨h.pending, h.out, Nat.le_trans h.free hf, h.mem, h.otp⟩, h.time, h.trip⟩

/-! ## The operations that change what `Carries` names -/

theorem carries_atTime {s : State} (t : Time) (u : State) (h : Carries s u) : Carries s (atTime t u) :=
  ⟨⟨h.pending, h.out, h.free, h.mem, h.otp⟩, Nat.le_trans h.time (Nat.le_max_left ..), h.trip⟩

theorem carries_emit {s : State} (o : Output) (u : State) (h : Carries s u) : Carries s (emit o u) :=
  ⟨⟨h.pending, h.out.trans (List.prefix_append ..), h.free, h.mem, h.otp⟩, h.time, h.trip⟩

theorem carries_takeFree {s : State} (u : State) (h : Carries s u) : Carries s (takeFree u).2 :=
  ⟨⟨h.pending, h.out, Nat.le_trans h.free (Nat.le_succ _), h.mem, h.otp⟩, h.time, h.trip⟩

theorem carries_memWrite {s : State} (pa : Nat) (bs : List Byte) (u : State) (h : Carries s u) : Carries s (memWrite pa bs u) :=
  ⟨⟨h.pending, h.out, h.free, fun w => wf_cellsWrite _ _ _ (h.mem w), h.otp⟩, h.time, h.trip⟩

theorem carries_zeroFrame {s : State} (frame : Nat) (u : State) (h : Carries s u) : Carries s (zeroFrame frame u) :=
  ⟨⟨h.pending, h.out, h.free, fun w => wf_filter _ _ (h.mem w), h.otp⟩, h.time, h.trip⟩

end Sys2Proof.Machine
end

