-- ==== Sys2Proof/Laws/KeepsOps.lean ====
section
/-! SUPPORT. What the operations of Machine/Ops.lean keep. -/

namespace Sys2Proof.Machine



theorem carries_setRaw {s : State} (r : Reg) (i j v : Nat) (u : State) (h : Carries s u) :
    Carries s (setRaw r i j v u) := by
  unfold setRaw
  try dsimp only
  with_reducible repeat' first
    | intro _ | assumption | exact Carries.refl _ | apply carries_mk (Nat.le_refl _)

theorem carries_setFld {s : State} (r : Reg) (i j i0 l v : Nat) (u : State) (h : Carries s u) :
    Carries s (setFld r i j i0 l v u) := by
  unfold setFld
  try dsimp only
  with_reducible repeat' first
    | intro _ | assumption | exact Carries.refl _ | apply carries_setRaw

theorem carries_bumpFld {s : State} (r : Reg) (i j i0 l n : Nat) (u : State) (h : Carries s u) :
    Carries s (bumpFld r i j i0 l n u) := by
  unfold bumpFld
  try dsimp only
  with_reducible repeat' first
    | intro _ | assumption | exact Carries.refl _ | apply carries_setFld

theorem carries_bump {s : State} (r : Reg) (i j n : Nat) (u : State) (h : Carries s u) :
    Carries s (bump r i j n u) := by
  unfold bump
  try dsimp only
  with_reducible repeat' first
    | intro _ | assumption | exact Carries.refl _ | apply carries_bumpFld

theorem carries_setRaw64 {s : State} (lo hi : Reg) (i j v : Nat) (u : State) (h : Carries s u) :
    Carries s (setRaw64 lo hi i j v u) := by
  unfold setRaw64
  try dsimp only
  with_reducible repeat' first
    | intro _ | assumption | exact Carries.refl _ | apply carries_setRaw

theorem carries_setBench {s : State} (b : Nat) (x : Bench) (u : State) (h : Carries s u) :
    Carries s (setBench b x u) := by
  unfold setBench
  try dsimp only
  with_reducible repeat' first
    | intro _ | assumption | exact Carries.refl _ | apply carries_mk (Nat.le_refl _)

theorem carries_modBench {s : State} (b : Nat) (f : Bench → Bench) (u : State) (h : Carries s u) :
    Carries s (modBench b f u) := by
  unfold modBench
  try dsimp only
  with_reducible repeat' first
    | intro _ | assumption | exact Carries.refl _ | apply carries_setBench

theorem carries_setPartition {s : State} (p : Nat) (x : Partition) (u : State) (h : Carries s u) :
    Carries s (setPartition p x u) := by
  unfold setPartition
  try dsimp only
  with_reducible repeat' first
    | intro _ | assumption | exact Carries.refl _ | apply carries_mk (Nat.le_refl _)

theorem carries_modPartition {s : State} (p : Nat) (f : Partition → Partition) (u : State) (h : Carries s u) :
    Carries s (modPartition p f u) := by
  unfold modPartition
  try dsimp only
  with_reducible repeat' first
    | intro _ | assumption | exact Carries.refl _ | apply carries_setPartition

theorem carries_setProg {s : State} (n : Nat) (x : Prog) (u : State) (h : Carries s u) :
    Carries s (setProg n x u) := by
  unfold setProg
  try dsimp only
  with_reducible repeat' first
    | intro _ | assumption | exact Carries.refl _ | apply carries_mk (Nat.le_refl _)

theorem carries_modProg {s : State} (n : Nat) (f : Prog → Prog) (u : State) (h : Carries s u) :
    Carries s (modProg n f u) := by
  unfold modProg
  try dsimp only
  with_reducible repeat' first
    | intro _ | assumption | exact Carries.refl _ | apply carries_setProg | split | dsimp only

theorem carries_enqueue {s : State} (r : TelRecord) (c : Nat) (u : State) (h : Carries s u) :
    Carries s (enqueue r c u) := by
  unfold enqueue
  try dsimp only
  with_reducible repeat' first
    | intro _ | assumption | exact Carries.refl _ | apply carries_mk (Nat.le_refl _)

theorem carries_takeShared {s : State} (r : TelRecord) (lost : Reg) (u : State) (h : Carries s u) :
    Carries s (takeShared r lost u) := by
  unfold takeShared
  try dsimp only
  with_reducible repeat' first
    | intro _ | assumption | exact Carries.refl _ | apply carries_cond | apply carries_enqueue | apply carries_bump

theorem carries_foldOr {s : State} (r : TelRecord) (lost : Reg) (u : State) (h : Carries s u) :
    Carries s (foldOr r lost u) := by
  unfold foldOr
  try dsimp only
  with_reducible repeat' first
    | intro _ | assumption | exact Carries.refl _ | apply carries_cond | apply carries_bump | apply carries_takeShared
    | apply carries_mk (Nat.le_refl _)

theorem carries_holdFatal {s : State} (r : TelRecord) (u : State) (h : Carries s u) :
    Carries s (holdFatal r u) := by
  unfold holdFatal
  try dsimp only
  with_reducible repeat' first
    | intro _ | assumption | exact Carries.refl _ | apply carries_cond | apply carries_setRaw64 | apply carries_setRaw

theorem carries_raise {s : State} (code : BitVec 16) (sev : Nat) (part : Option Nat) (unit : Nat) (data : W64) (u : State) (h : Carries s u) :
    Carries s (raise code sev part unit data u) := by
  unfold raise
  try dsimp only
  with_reducible repeat' first
    | intro _ | assumption | exact Carries.refl _ | apply carries_cond | apply carries_holdFatal
    | apply carries_enqueue | apply carries_bump | apply carries_foldOr | split | dsimp only

theorem carries_reportFault {s : State} (b ord off : Nat) (st : Status) (u : State) (h : Carries s u) :
    Carries s (reportFault b ord off st u) := by
  unfold reportFault
  try dsimp only
  with_reducible repeat' first
    | intro _ | assumption | exact Carries.refl _ | apply carries_cond | apply carries_setBench | split
    | apply carries_mk (Nat.le_refl _) | dsimp only

theorem carries_emergEnds {s : State} (u : State) (h : Carries s u) :
    Carries s (emergEnds u) := by
  unfold emergEnds
  try dsimp only
  with_reducible repeat' first
    | intro _ | assumption | exact Carries.refl _ | apply carries_mk (Nat.le_refl _)

theorem carries_setUnit {s : State} (kind index : Nat) (st : FenceState) (cause : Status) (u : State) (h : Carries s u) :
    Carries s (setUnit kind index st cause u) := by
  unfold setUnit
  try dsimp only
  with_reducible repeat' first
    | intro _ | assumption | exact Carries.refl _ | split | apply carries_mk (Nat.le_refl _) | dsimp only

end Sys2Proof.Machine
end

