-- ==== Sys2Proof/Laws/KeepsLaneState.lean ====
section
/-! SUPPORT. What the operations of Machine/LaneState.lean keep. -/

namespace Sys2Proof.Machine

theorem carries_modEngine {s : State} (e : Nat) (f : Engine → Engine) (u : State) (h : Carries s u) :
    Carries s (modEngine e f u) := by
  unfold modEngine
  try dsimp only
  with_reducible repeat' first
    | intro _ | assumption | exact Carries.refl _ | apply carries_mk (Nat.le_refl _)

theorem carries_modLane {s : State} (e d l : Nat) (f : LaneAux → LaneAux) (u : State) (h : Carries s u) :
    Carries s (modLane e d l f u) := by
  unfold modLane
  try dsimp only
  with_reducible repeat' first
    | intro _ | assumption | exact Carries.refl _ | apply carries_modEngine | apply carries_mk (Nat.le_refl _)
    | dsimp only

theorem carries_hostPortFail {s : State} (port : Nat) (u : State) (h : Carries s u) :
    Carries s (hostPortFail port u) := by
  unfold hostPortFail
  try dsimp only
  with_reducible repeat' first
    | intro _ | assumption | exact Carries.refl _ | apply carries_cond | apply carries_cond_snd
    | apply carries_cond_fst | apply carries_setFld | apply carries_mk (Nat.le_refl _) | dsimp only

theorem carries_setLane {s : State} (e d l st : Nat) (u : State) (h : Carries s u) :
    Carries s (setLane e d l st u) := by
  unfold setLane
  try dsimp only
  with_reducible repeat' first
    | intro _ | assumption | exact Carries.refl _ | apply carries_cond | apply carries_modLane | apply carries_setFld
    | apply carries_hostPortFail | apply carries_mk (Nat.le_refl _) | dsimp only

end Sys2Proof.Machine
end

