-- ==== Sys2Proof/Laws/KeepsDieFlows.lean ====
section
/-! SUPPORT. What the operations of Machine/DieFlows.lean keep. -/

namespace Sys2Proof.Machine

theorem carries_modNdl {s : State} (m : Nat) (f : NdlModule → NdlModule) (u : State) (h : Carries s u) :
    Carries s (modNdl m f u) := by
  unfold modNdl
  try dsimp only
  with_reducible repeat' first
    | intro _ | assumption | exact Carries.refl _ | apply carries_mk (Nat.le_refl _)

theorem carries_modDir {s : State} (m d : Nat) (f : NdlDir → NdlDir) (u : State) (h : Carries s u) :
    Carries s (modDir m d f u) := by
  unfold modDir
  try dsimp only
  with_reducible repeat' first
    | intro _ | assumption | exact Carries.refl _ | apply carries_cond | apply carries_modNdl
    | apply carries_mk (Nat.le_refl _) | dsimp only

theorem carries_setNdlState {s : State} (m st : Nat) (u : State) (h : Carries s u) :
    Carries s (setNdlState m st u) := by
  unfold setNdlState
  try dsimp only
  with_reducible repeat' first
    | intro _ | assumption | exact Carries.refl _ | apply carries_setFld

theorem carries_moveGroup {s : State} (l d : Nat) (u : State) (g : List NdlFlow) (h : Carries s u) :
    Carries s (moveGroup l d u g) := by
  unfold moveGroup
  try dsimp only
  with_reducible repeat' first
    | intro _ | assumption | exact Carries.refl _ | apply carries_modDir | apply carries_foldl
    | apply carries_mk (Nat.le_refl _) | dsimp only

theorem carries_moveDir {s : State} (l m d : Nat) (u : State) (h : Carries s u) :
    Carries s (moveDir l m d u) := by
  unfold moveDir
  try dsimp only
  with_reducible repeat' first
    | intro _ | assumption | exact Carries.refl _ | apply carries_moveGroup | apply carries_modDir
    | apply carries_foldl | apply carries_mk (Nat.le_refl _) | dsimp only

theorem carries_moveStopped {s : State} (l : Nat) (u : State) (h : Carries s u) :
    Carries s (moveStopped l u) := by
  unfold moveStopped
  try dsimp only
  with_reducible repeat' first
    | intro _ | assumption | exact Carries.refl _ | apply carries_cond | apply carries_moveDir | apply carries_foldl
    | dsimp only

end Sys2Proof.Machine
end

