-- ==== Sys2Proof/Laws/KeepsMemory.lean ====
section
/-! SUPPORT. What the operations of Machine/Memory.lean keep. -/

namespace Sys2Proof.Machine

theorem carries_flawWrite {s : State} (line : Nat) (data : List Byte) (err : List (Nat × BitVec 16)) (u : State) (h : Carries s u) :
    Carries s (flawWrite line data err u) := by
  unfold flawWrite
  try dsimp only
  with_reducible repeat' first
    | intro _ | assumption | exact Carries.refl _ | apply carries_cond | apply carries_cond_snd
    | apply carries_cond_fst | apply carries_memWrite | split | apply carries_mk (Nat.le_refl _) | dsimp only

theorem carries_poisonLine {s : State} (line : Nat) (u : State) (h : Carries s u) :
    Carries s (poisonLine line u) := by
  unfold poisonLine
  try dsimp only
  with_reducible repeat' first
    | intro _ | assumption | exact Carries.refl _ | apply carries_mk (Nat.le_refl _)

theorem carries_useFrame {s : State} (frame : Nat) (u : State) (h : Carries s u) :
    Carries s (useFrame frame u) := by
  unfold useFrame
  try dsimp only
  with_reducible repeat' first
    | intro _ | assumption | exact Carries.refl _ | apply carries_mk (Nat.le_refl _)

theorem carries_releaseFrame {s : State} (frame : Nat) (u : State) (h : Carries s u) :
    Carries s (releaseFrame frame u) := by
  unfold releaseFrame
  try dsimp only
  with_reducible repeat' first
    | intro _ | assumption | exact Carries.refl _ | apply carries_cond | apply carries_mk (Nat.le_refl _)

theorem carries_takeHbm {s : State} (p frame g : Nat) (u : State) (h : Carries s u) :
    Carries s (takeHbm p frame g u) := by
  unfold takeHbm
  try dsimp only
  with_reducible repeat' first
    | intro _ | assumption | exact Carries.refl _ | apply carries_modPartition | apply carries_useFrame
    | apply carries_mk (Nat.le_refl _) | dsimp only

theorem carries_spendTokens {s : State} (p g n : Nat) (u : State) (h : Carries s u) :
    Carries s (spendTokens p g n u) := by
  unfold spendTokens
  try dsimp only
  with_reducible repeat' first
    | intro _ | assumption | exact Carries.refl _ | apply carries_cond | apply carries_modPartition
    | apply carries_mk (Nat.le_refl _) | dsimp only

theorem carries_spendAt {s : State} (p pa n : Nat) (u : State) (h : Carries s u) :
    Carries s (spendAt p pa n u) := by
  unfold spendAt
  try dsimp only
  with_reducible repeat' first
    | intro _ | assumption | exact Carries.refl _ | apply carries_cond | apply carries_spendTokens

theorem carries_waitAt {s : State} (p pa : Nat) (u : State) (h : Carries s u) :
    Carries s (waitAt p pa u) := by
  unfold waitAt
  try dsimp only
  with_reducible repeat' first
    | intro _ | assumption | exact Carries.refl _ | apply carries_cond | apply carries_modPartition
    | apply carries_mk (Nat.le_refl _) | dsimp only

theorem carries_whenAdmitted {s : State} (p pa n : Nat) (f : State → State) (u : State) (hf : ∀ t, Carries s t → Carries s (f t)) (h : Carries s u) :
    Carries s (whenAdmitted p pa n f u) := by
  unfold whenAdmitted
  try dsimp only
  with_reducible repeat' first
    | intro _ | assumption | exact Carries.refl _ | apply carries_cond | apply hf | apply carries_spendAt
    | apply carries_waitAt

theorem carries_buildTable {s : State} (p level index : Nat) (u : State) (h : Carries s u) :
    Carries s (buildTable p level index u) := by
  unfold buildTable
  try dsimp only
  with_reducible repeat' first
    | intro _ | assumption | exact Carries.refl _ | split | apply carries_mk (Nat.le_refl _) | dsimp only

theorem carries_buildTables {s : State} (p vpn : Nat) (u : State) (h : Carries s u) :
    Carries s (buildTables p vpn u) := by
  unfold buildTables
  try dsimp only
  with_reducible repeat' first
    | intro _ | assumption | exact Carries.refl _ | apply carries_buildTable

theorem carries_withdrawReserve {s : State} (g : Nat) (u : State) (h : Carries s u) :
    Carries s (withdrawReserve g u) := by
  unfold withdrawReserve
  try dsimp only
  with_reducible repeat' first
    | intro _ | assumption | exact Carries.refl _ | apply carries_buildTable | apply carries_foldl
    | apply carries_mk (Nat.le_refl _) | dsimp only

theorem carries_setLeaf {s : State} (p vpn : Nat) (l : Leaf) (u : State) (h : Carries s u) :
    Carries s (setLeaf p vpn l u) := by
  unfold setLeaf
  try dsimp only
  with_reducible repeat' first
    | intro _ | assumption | exact Carries.refl _ | apply carries_modPartition | apply carries_mk (Nat.le_refl _)
    | dsimp only

theorem carries_dropTlb {s : State} (p vpn : Nat) (u : State) (h : Carries s u) :
    Carries s (dropTlb p vpn u) := by
  unfold dropTlb
  try dsimp only
  with_reducible repeat' first
    | intro _ | assumption | exact Carries.refl _ | apply carries_cond | apply carries_cond_snd
    | apply carries_cond_fst | apply carries_mk (Nat.le_refl _) | dsimp only

theorem carries_heatPage {s : State} (p vpn : Nat) (u : State) (h : Carries s u) :
    Carries s (heatPage p vpn u) := by
  unfold heatPage
  try dsimp only
  with_reducible repeat' first
    | intro _ | assumption | exact Carries.refl _ | apply carries_setLeaf | split | apply carries_mk (Nat.le_refl _)
    | dsimp only

theorem carries_abortMoveOut {s : State} (p vpn : Nat) (u : State) (h : Carries s u) :
    Carries s (abortMoveOut p vpn u) := by
  unfold abortMoveOut
  try dsimp only
  with_reducible repeat' first
    | intro _ | assumption | exact Carries.refl _ | apply carries_cond | apply carries_releaseFrame
    | apply carries_modPartition | apply carries_dropTlb | split | apply carries_mk (Nat.le_refl _) | dsimp only

theorem carries_writeArrived {s : State} (p va : Nat) (bs : List Byte) (u : State) (h : Carries s u) :
    Carries s (writeArrived p va bs u) := by
  unfold writeArrived
  try dsimp only
  with_reducible repeat' first
    | intro _ | assumption | exact Carries.refl _ | apply carries_cond | apply carries_memWrite | apply carries_foldl
    | split | dsimp only

theorem carries_pageWrite {s : State} (p va : Nat) (bs : List Byte) (u : State) (h : Carries s u) :
    Carries s (pageWrite p va bs u) := by
  unfold pageWrite
  try dsimp only
  with_reducible repeat' first
    | intro _ | assumption | exact Carries.refl _ | apply carries_abortMoveOut | apply carries_writeArrived
    | apply carries_memWrite | split | dsimp only

theorem carries_spaceWrite {s : State} (p va : Nat) (bs : List Byte) (u : State) (h : Carries s u) :
    Carries s (spaceWrite p va bs u).2 := by
  unfold spaceWrite
  exact carries_cond_snd (carries_foldl (fun t a ht => carries_pageWrite _ _ _ t ht) h) h

theorem carries_copyFrame {s : State} (src dst off n : Nat) (u : State) (h : Carries s u) :
    Carries s (copyFrame src dst off n u) := by
  unfold copyFrame
  try dsimp only
  with_reducible repeat' first
    | intro _ | assumption | exact Carries.refl _ | apply carries_memWrite | apply carries_foldl
    | apply carries_mk (Nat.le_refl _) | dsimp only

end Sys2Proof.Machine
end

