-- ==== Sys2Proof/Laws/KeepsFence.lean ====
section
/-! SUPPORT. What the operations of Machine/Fence.lean keep. -/

namespace Sys2Proof.Machine

theorem carries_noteCause {s : State} (kind index : Nat) (cause : Status) (u : State) (h : Carries s u) :
    Carries s (noteCause kind index cause u) := by
  unfold noteCause
  try dsimp only
  with_reducible repeat' first
    | intro _ | assumption | exact Carries.refl _ | apply carries_bumpFld | apply carries_raise
    | apply carries_setUnit | split | dsimp only

theorem carries_benchDrains {s : State} (b : Nat) (u : State) (h : Carries s u) :
    Carries s (benchDrains b u) := by
  unfold benchDrains
  try dsimp only
  with_reducible repeat' first
    | intro _ | assumption | exact Carries.refl _ | apply carries_modBench | apply carries_reportFault | split
    | apply carries_mk (Nat.le_refl _) | dsimp only

theorem carries_stationsFenced {s : State} (b : Nat) (u : State) (h : Carries s u) :
    Carries s (stationsFenced b u) := by
  unfold stationsFenced
  try dsimp only
  with_reducible repeat' first
    | intro _ | assumption | exact Carries.refl _ | apply carries_cond | apply carries_setUnit | apply carries_foldl
    | dsimp only

theorem carries_causeBench {s : State} (b : Nat) (cause : Status) (u : State) (h : Carries s u) :
    Carries s (causeBench b cause u) := by
  unfold causeBench
  try dsimp only
  with_reducible repeat' first
    | intro _ | assumption | exact Carries.refl _ | apply carries_cond | apply carries_benchDrains
    | apply carries_noteCause | apply carries_stationsFenced

theorem carries_causeStation {s : State} (index : Nat) (cause : Status) (u : State) (h : Carries s u) :
    Carries s (causeStation index cause u) := by
  unfold causeStation
  try dsimp only
  with_reducible repeat' first
    | intro _ | assumption | exact Carries.refl _ | apply carries_cond | apply carries_causeBench
    | apply carries_noteCause

theorem carries_causeSector {s : State} (sec : Nat) (cause : Status) (u : State) (h : Carries s u) :
    Carries s (causeSector sec cause u) := by
  unfold causeSector
  try dsimp only
  with_reducible repeat' first
    | intro _ | assumption | exact Carries.refl _ | apply carries_cond | apply carries_noteCause
    | apply carries_causeBench | apply carries_foldl | dsimp only

theorem carries_modSeg {s : State} (req seg : Nat) (f : Seg → Seg) (u : State) (h : Carries s u) :
    Carries s (modSeg req seg f u) := by
  unfold modSeg
  try dsimp only
  with_reducible repeat' first
    | intro _ | assumption | exact Carries.refl _ | split | apply carries_mk (Nat.le_refl _) | dsimp only

theorem carries_endWait {s : State} (req seg : Nat) (st : SegState) (status : Status) (u : State) (h : Carries s u) :
    Carries s (endWait req seg st status u) := by
  unfold endWait
  try dsimp only
  with_reducible repeat' first
    | intro _ | assumption | exact Carries.refl _ | apply carries_bump | apply carries_modSeg | split
    | apply carries_mk (Nat.le_refl _) | dsimp only

theorem carries_failHome {s : State} (p vpn : Nat) (st : Status) (u : State) (h : Carries s u) :
    Carries s (failHome p vpn st u) := by
  unfold failHome
  try dsimp only
  with_reducible repeat' first
    | intro _ | assumption | exact Carries.refl _ | apply carries_cond | apply carries_cond_snd
    | apply carries_cond_fst | apply carries_mk (Nat.le_refl _) | dsimp only

theorem carries_failWaiting {s : State} (p vpn : Nat) (st : Status) (u : State) (h : Carries s u) :
    Carries s (failWaiting p vpn st u) := by
  unfold failWaiting
  try dsimp only
  with_reducible repeat' first
    | intro _ | assumption | exact Carries.refl _ | apply carries_modPartition | apply carries_prefetch
    | apply carries_failHome | apply carries_endWait | apply carries_foldl | apply carries_mk (Nat.le_refl _)
    | dsimp only

theorem carries_askAgain {s : State} (p vpn : Nat) (u : State) (h : Carries s u) :
    Carries s (askAgain p vpn u) := by
  unfold askAgain
  try dsimp only
  with_reducible repeat' first
    | intro _ | assumption | exact Carries.refl _ | apply carries_cond | apply carries_modPartition
    | apply carries_mk (Nat.le_refl _) | dsimp only

theorem carries_failFenced {s : State} (q : Nat → Bool) (u : State) (h : Carries s u) :
    Carries s (failFenced q u) := by
  unfold failFenced
  try dsimp only
  with_reducible repeat' first
    | intro _ | assumption | exact Carries.refl _ | apply carries_cond | apply carries_cond_snd
    | apply carries_cond_fst | apply carries_failWaiting | apply carries_foldl | dsimp only

theorem carries_setFen {s : State} (p : Nat → Bool) (u : State) (h : Carries s u) :
    Carries s (setFen p u) := by
  unfold setFen
  try dsimp only
  with_reducible repeat' first
    | intro _ | assumption | exact Carries.refl _ | apply carries_failFenced | apply carries_mk (Nat.le_refl _)
    | dsimp only

theorem carries_abortMove {s : State} (p vpn : Nat) (u : State) (h : Carries s u) :
    Carries s (abortMove p vpn u) := by
  unfold abortMove
  try dsimp only
  with_reducible repeat' first
    | intro _ | assumption | exact Carries.refl _ | apply carries_cond | apply carries_askAgain
    | apply carries_releaseFrame | apply carries_modPartition | apply carries_dropTlb | split
    | apply carries_mk (Nat.le_refl _) | dsimp only

theorem carries_abortMoves {s : State} (q : Nat → Bool) (u : State) (h : Carries s u) :
    Carries s (abortMoves q u) := by
  unfold abortMoves
  try dsimp only
  with_reducible repeat' first
    | intro _ | assumption | exact Carries.refl _ | apply carries_cond | apply carries_cond_snd
    | apply carries_cond_fst | apply carries_abortMove | apply carries_foldl | split | dsimp only

theorem carries_checkQuotas {s : State} (u : State) (h : Carries s u) :
    Carries s (checkQuotas u) := by
  unfold checkQuotas
  try dsimp only
  with_reducible repeat' first
    | intro _ | assumption | exact Carries.refl _ | apply carries_cond | apply carries_raise
    | apply carries_mk (Nat.le_refl _)

theorem carries_causePc {s : State} (pc : Nat) (cause : Status) (u : State) (h : Carries s u) :
    Carries s (causePc pc cause u) := by
  unfold causePc
  try dsimp only
  with_reducible repeat' first
    | intro _ | assumption | exact Carries.refl _ | apply carries_mk (Nat.le_succ _) | apply carries_cond
    | apply carries_noteCause | apply carries_withdrawReserve | apply carries_setFen | apply carries_abortMoves
    | apply carries_checkQuotas | apply carries_setFld | dsimp only

theorem carries_causeModule {s : State} (m : Nat) (cause : Status) (u : State) (h : Carries s u) :
    Carries s (causeModule m cause u) := by
  unfold causeModule
  try dsimp only
  with_reducible repeat' first
    | intro _ | assumption | exact Carries.refl _ | apply carries_cond | apply carries_setFen
    | apply carries_abortMoves | apply carries_noteCause | dsimp only

theorem carries_loseParity {s : State} (m parity : Nat) (u : State) (h : Carries s u) :
    Carries s (loseParity m parity u) := by
  unfold loseParity
  try dsimp only
  with_reducible repeat' first
    | intro _ | assumption | exact Carries.refl _ | apply carries_cond | apply carries_setFen
    | apply carries_abortMoves | apply carries_setFld | apply carries_causeModule | dsimp only

theorem carries_causeLane {s : State} (index : Nat) (cause : Status) (u : State) (h : Carries s u) :
    Carries s (causeLane index cause u) := by
  unfold causeLane
  try dsimp only
  with_reducible repeat' first
    | intro _ | assumption | exact Carries.refl _ | apply carries_cond | apply carries_noteCause
    | apply carries_setLane

theorem carries_causeEngine {s : State} (e : Nat) (cause : Status) (u : State) (h : Carries s u) :
    Carries s (causeEngine e cause u) := by
  unfold causeEngine
  try dsimp only
  with_reducible repeat' first
    | intro _ | assumption | exact Carries.refl _ | apply carries_cond | apply carries_noteCause
    | apply carries_causeLane | apply carries_modEngine | apply carries_loseParity | apply carries_foldl
    | apply carries_mk (Nat.le_refl _) | dsimp only

theorem carries_holdSessions {s : State} (p : Nat) (u : State) (h : Carries s u) :
    Carries s (holdSessions p u) := by
  unfold holdSessions
  try dsimp only
  with_reducible repeat' first
    | intro _ | assumption | exact Carries.refl _ | apply carries_cond | apply carries_cond_snd
    | apply carries_cond_fst | apply carries_mk (Nat.le_refl _) | dsimp only

theorem carries_causePartition {s : State} (p : Nat) (cause : Status) (u : State) (h : Carries s u) :
    Carries s (causePartition p cause u) := by
  unfold causePartition
  try dsimp only
  with_reducible repeat' first
    | intro _ | assumption | exact Carries.refl _ | apply carries_cond | apply carries_cond_snd
    | apply carries_holdSessions | apply carries_noteCause | apply carries_reportFault | apply carries_foldl | split
    | dsimp only

theorem carries_endUpdate {s : State} (result : Nat) (u : State) (h : Carries s u) :
    Carries s (endUpdate result u) := by
  unfold endUpdate
  try dsimp only
  with_reducible repeat' first
    | intro _ | assumption | exact Carries.refl _ | apply carries_setFld | apply carries_mk (Nat.le_refl _)

theorem carries_abortStaging {s : State} (u : State) (h : Carries s u) :
    Carries s (abortStaging u) := by
  unfold abortStaging
  try dsimp only
  with_reducible repeat' first
    | intro _ | assumption | exact Carries.refl _ | apply carries_stage | apply carries_endUpdate | split | dsimp only

theorem carries_stopLive {s : State} (i : Nat) (u : State) (h : Carries s u) :
    Carries s (stopLive i u) := by
  unfold stopLive
  try dsimp only
  with_reducible repeat' first
    | intro _ | assumption | exact Carries.refl _ | apply carries_cond | apply carries_endUpdate | split | dsimp only

theorem carries_pauseLeases {s : State} (i : Nat) (u : State) (h : Carries s u) :
    Carries s (pauseLeases i u) := by
  unfold pauseLeases
  try dsimp only
  with_reducible repeat' first
    | intro _ | assumption | exact Carries.refl _ | apply carries_cond | apply carries_mk (Nat.le_refl _)

theorem carries_processorStops {s : State} (i : Nat) (u : State) (h : Carries s u) :
    Carries s (processorStops i u) := by
  unfold processorStops
  try dsimp only
  with_reducible repeat' first
    | intro _ | assumption | exact Carries.refl _ | apply carries_cond | apply carries_stopLive | apply carries_setFld
    | apply carries_pauseLeases | apply carries_abortStaging | apply carries_mk (Nat.le_refl _)

theorem carries_causeProcessor {s : State} (i : Nat) (cause : Status) (u : State) (h : Carries s u) :
    Carries s (causeProcessor i cause u) := by
  unfold causeProcessor
  try dsimp only
  with_reducible repeat' first
    | intro _ | assumption | exact Carries.refl _ | apply carries_cond | apply carries_processorStops
    | apply carries_noteCause | apply carries_causeEngine | apply carries_raise | apply carries_setFld | dsimp only

theorem carries_causeNative {s : State} (m : Nat) (cause : Status) (u : State) (h : Carries s u) :
    Carries s (causeNative m cause u) := by
  unfold causeNative
  try dsimp only
  with_reducible repeat' first
    | intro _ | assumption | exact Carries.refl _ | apply carries_cond | apply carries_moveStopped
    | apply carries_noteCause | apply carries_causeEngine | apply carries_causeSector | apply carries_foldl
    | dsimp only

theorem carries_causeUcie {s : State} (m : Nat) (cause : Status) (u : State) (h : Carries s u) :
    Carries s (causeUcie m cause u) := by
  unfold causeUcie
  try dsimp only
  with_reducible repeat' first
    | intro _ | assumption | exact Carries.refl _ | apply carries_cond | apply carries_noteCause
    | apply carries_setFld | dsimp only

theorem carries_fenceCause {s : State} (kind index : Nat) (cause : Status) (u : State) (h : Carries s u) :
    Carries s (fenceCause kind index cause u) := by
  unfold fenceCause
  try dsimp only
  with_reducible repeat' first
    | intro _ | assumption | exact Carries.refl _ | apply carries_cond | apply carries_causeStation
    | apply carries_causeBench | apply carries_causeSector | apply carries_causeNative | apply carries_causeUcie
    | apply carries_causeLane | apply carries_causeEngine | apply carries_causePc | apply carries_causeModule
    | apply carries_causePartition | apply carries_causeProcessor | apply carries_noteCause | split | dsimp only

theorem carries_unitUp {s : State} (kind index : Nat) (u : State) (h : Carries s u) :
    Carries s (unitUp kind index u) := by
  unfold unitUp
  try dsimp only
  with_reducible repeat' first
    | intro _ | assumption | exact Carries.refl _ | apply carries_raise | apply carries_setUnit

end Sys2Proof.Machine
end

