-- ==== Sys2Proof/Laws/KeepsLineErrors.lean ====
section
/-! SUPPORT. What the operations of Machine/LineErrors.lean keep. -/

namespace Sys2Proof.Machine

theorem carries_lastErr {s : State} (pc kind : Nat) (u : State) (h : Carries s u) :
    Carries s (lastErr pc kind u) := by
  unfold lastErr
  try dsimp only
  with_reducible repeat' first
    | intro _ | assumption | exact Carries.refl _ | apply carries_setRaw

theorem carries_corrected {s : State} (pc : Nat) (u : State) (h : Carries s u) :
    Carries s (corrected pc u) := by
  unfold corrected
  try dsimp only
  with_reducible repeat' first
    | intro _ | assumption | exact Carries.refl _ | apply carries_cond | apply carries_cond_snd
    | apply carries_cond_fst | apply carries_cond_last | apply carries_raise | apply carries_lastErr
    | apply carries_bump | apply carries_mk (Nat.le_refl _)

theorem carries_countBad {s : State} (pc : Nat) (u : State) (h : Carries s u) :
    Carries s (countBad pc u) := by
  unfold countBad
  try dsimp only
  with_reducible repeat' first
    | intro _ | assumption | exact Carries.refl _ | apply carries_cond | apply carries_cond_snd
    | apply carries_cond_fst | apply carries_cond_last | apply carries_raise | apply carries_lastErr
    | apply carries_bump | apply carries_fenceCause | apply carries_mk (Nat.le_refl _) | dsimp only

theorem carries_uncorrectable {s : State} (line pc : Nat) (u : State) (h : Carries s u) :
    Carries s (uncorrectable line pc u) := by
  unfold uncorrectable
  try dsimp only
  with_reducible repeat' first
    | intro _ | assumption | exact Carries.refl _ | apply carries_countBad | apply carries_poisonLine

theorem carries_poisonRead {s : State} (pc : Nat) (u : State) (h : Carries s u) :
    Carries s (poisonRead pc u) := by
  unfold poisonRead
  try dsimp only
  with_reducible repeat' first
    | intro _ | assumption | exact Carries.refl _ | apply carries_raise | apply carries_lastErr

theorem carries_moduleReport {s : State} (pa : Nat) (err : List (Nat × BitVec 16)) (u : State) (h : Carries s u) :
    Carries s (moduleReport pa err u) := by
  unfold moduleReport
  try dsimp only
  with_reducible repeat' first
    | intro _ | assumption | exact Carries.refl _ | apply carries_raise | apply carries_bump | split | dsimp only

theorem carries_lineShows {s : State} (pa : Nat) (err : List (Nat × BitVec 16)) (u : State) (h : Carries s u) :
    Carries s (lineShows pa err u) := by
  unfold lineShows
  try dsimp only
  with_reducible repeat' first
    | intro _ | assumption | exact Carries.refl _ | apply carries_cond | apply carries_poisonRead
    | apply carries_raise | apply carries_moduleReport | apply carries_uncorrectable | apply carries_corrected | split
    | dsimp only

theorem carries_lineSeen {s : State} (pa : Nat) (u : State) (h : Carries s u) :
    Carries s (lineSeen pa u) := by
  unfold lineSeen
  try dsimp only
  with_reducible repeat' first
    | intro _ | assumption | exact Carries.refl _ | apply carries_lineShows

theorem carries_linesSeen {s : State} (pa n : Nat) (u : State) (h : Carries s u) : Carries s (linesSeen pa n u) := by
  unfold linesSeen
  exact carries_foldl_snd (a := (false, u)) (fun t l ht => carries_cond_snd ht (carries_lineSeen _ _ ht)) h

theorem carries_flawsSeen {s : State} (pa n : Nat) (u : State) (h : Carries s u) :
    Carries s (flawsSeen pa n u) := by
  unfold flawsSeen
  try dsimp only
  with_reducible repeat' first
    | intro _ | assumption | exact Carries.refl _ | apply carries_cond | apply carries_cond_snd
    | apply carries_cond_fst | apply carries_lineSeen | apply carries_foldl | dsimp only

theorem carries_spaceSeen {s : State} (p va n : Nat) (u : State) (h : Carries s u) : Carries s (spaceSeen p va n u) := by
  unfold spaceSeen
  refine carries_foldl_snd (a := (false, u)) (fun t c ht => carries_cond_snd ht ?_) h
  split
  · exact ht
  · exact carries_linesSeen _ _ _ ht

end Sys2Proof.Machine
end

