-- ==== Sys2Proof/Laws/KeepsOperands.lean ====
section
/-! SUPPORT. What the operations of Machine/Operands.lean keep. -/

namespace Sys2Proof.Machine

theorem carries_sysRetire {s : State} (b : Nat) (u : State) (h : Carries s u) :
    Carries s (sysRetire b u) := by
  unfold sysRetire
  try dsimp only
  with_reducible repeat' first
    | intro _ | assumption | exact Carries.refl _ | apply carries_modBench | split | apply carries_mk (Nat.le_refl _)
    | dsimp only

theorem carries_sysResult {s : State} (b : Nat) (e : Entry) (v : W64) (u : State) (h : Carries s u) :
    Carries s (sysResult b e v u) := by
  unfold sysResult
  try dsimp only
  with_reducible repeat' first
    | intro _ | assumption | exact Carries.refl _ | apply carries_sysRetire | apply carries_modBench

theorem carries_sysFault {s : State} (b : Nat) (e : Entry) (st : Status) (u : State) (h : Carries s u) :
    Carries s (sysFault b e st u) := by
  unfold sysFault
  try dsimp only
  with_reducible repeat' first
    | intro _ | assumption | exact Carries.refl _ | apply carries_reportFault

end Sys2Proof.Machine
end

