-- ==== Sys2Proof/Laws/KeepsPaging.lean ====
section
/-! SUPPORT. What the operations of Machine/Paging.lean keep. -/

namespace Sys2Proof.Machine

theorem carries_placePages {s : State} (a : PageAttr) (p : Nat) (vs : List Nat) (k n : Nat) (u : State) (h : Carries s u) :
    (∀ t, placePages a p vs k n u = .placed t → Carries s t) ∧
    (∀ m t, placePages a p vs k n u = .short m t → Carries s t) := by
  induction vs generalizing k n u with
  | nil =>
    refine ⟨fun t e => ?_, fun m t e => ?_⟩
    · cases e
      exact h
    · cases e
  | cons v vs ih =>
    cases k with
    | succ k =>
      simp only [placePages]
      split
      · exact ih _ _ _ (carries_setLeaf _ _ _ _ (carries_buildTables _ _ _ (carries_takeHbm _ _ _ _ h)))
      · cases scrubWaiting u true <;> refine ⟨fun t e => ?_, fun m t e => ?_⟩ <;> cases e
        exact h
    | zero =>
      simp only [placePages]
      split
      · exact ih _ _ _ (carries_setLeaf _ _ _ _ (carries_buildTables _ _ _ (carries_useFrame _ _ h)))
      · cases scrubWaiting u false <;> refine ⟨fun t e => ?_, fun m t e => ?_⟩ <;> cases e
        exact h

theorem carries_placed {s : State} (a : PageAttr) (p : Nat) (vs : List Nat) (k n : Nat) (u t : State)
    (e : placePages a p vs k n u = .placed t) (h : Carries s u) : Carries s t := (carries_placePages a p vs k n u h).1 t e

theorem carries_short {s : State} (a : PageAttr) (p : Nat) (vs : List Nat) (k n m : Nat) (u t : State)
    (e : placePages a p vs k n u = .short m t) (h : Carries s u) : Carries s t := (carries_placePages a p vs k n u h).2 m t e

theorem carries_pallocEntry {s : State} (b : Nat) (e : Entry) (u : State) (h : Carries s u) :
    Carries s (pallocEntry b e u) := by
  unfold pallocEntry
  try dsimp only
  with_reducible repeat' first
    | intro _ | assumption | exact Carries.refl _ | apply carries_cond | apply carries_sysFault
    | first | apply carries_placed (e := by assumption) | apply carries_short (e := by assumption)
    | apply carries_sysResult | split | apply carries_mk (Nat.le_refl _) | dsimp only

theorem carries_onSys {s : State} (b unit opc : Nat) (f : Entry → State → State) (u : State) (hf : ∀ x0 t, Carries s t → Carries s (f x0 t)) (h : Carries s u) :
    Carries s (onSys b unit opc f u) := by
  unfold onSys
  try dsimp only
  with_reducible repeat' first
    | intro _ | assumption | exact Carries.refl _ | apply hf | split | dsimp only

theorem carries_unmapPage {s : State} (p vpn : Nat) (u : State) (h : Carries s u) :
    Carries s (unmapPage p vpn u) := by
  unfold unmapPage
  try dsimp only
  with_reducible repeat' first
    | intro _ | assumption | exact Carries.refl _ | apply carries_cond | apply carries_failWaiting
    | apply carries_abortMove | apply carries_dropTlb | apply carries_modPartition | apply carries_releaseFrame
    | split | apply carries_mk (Nat.le_refl _) | dsimp only

theorem carries_reapPages {s : State} (p : Nat) (u : State) (h : Carries s u) :
    Carries s (reapPages p u) := by
  unfold reapPages
  try dsimp only
  with_reducible repeat' first
    | intro _ | assumption | exact Carries.refl _ | apply carries_cond | apply carries_cond_snd
    | apply carries_cond_fst | apply carries_releaseFrame | apply carries_modPartition | apply carries_foldl
    | apply carries_mk (Nat.le_refl _) | dsimp only

theorem carries_revokePage {s : State} (p v : Nat) (u : State) (h : Carries s u) :
    Carries s (revokePage p v u) := by
  unfold revokePage
  try dsimp only
  with_reducible repeat' first
    | intro _ | assumption | exact Carries.refl _ | apply carries_cond | apply carries_cond_snd
    | apply carries_cond_fst | apply carries_mk (Nat.le_refl _) | dsimp only

theorem carries_pfreeEntry {s : State} (b : Nat) (e : Entry) (u : State) (h : Carries s u) :
    Carries s (pfreeEntry b e u) := by
  unfold pfreeEntry
  try dsimp only
  with_reducible repeat' first
    | intro _ | assumption | exact Carries.refl _ | apply carries_cond | apply carries_reapPages
    | apply carries_sysRetire | apply carries_sysFault | apply carries_revokePage | apply carries_unmapPage
    | apply carries_modBench | apply carries_foldl | apply carries_mk (Nat.le_refl _) | dsimp only

theorem carries_beginIn {s : State} (p vpn : Nat) (l : Leaf) (f g : Nat) (pinAfter : Bool) (u : State) (h : Carries s u) :
    Carries s (beginIn p vpn l f g pinAfter u) := by
  unfold beginIn
  try dsimp only
  with_reducible repeat' first
    | intro _ | assumption | exact Carries.refl _ | apply carries_modPartition | apply carries_takeHbm
    | apply carries_dropTlb | apply carries_mk (Nat.le_refl _) | dsimp only

theorem carries_beginDemote {s : State} (p : Nat) (u t : State) (e : beginDemote p u = some t) (h : Carries s u) :
    Carries s t := by
  unfold beginDemote at e
  split at e
  · revert e
    cases Nat.blt (t2Use u p) (t2Quota u p)
    · exact nofun
    · rintro ⟨⟩
      exact carries_modPartition _ _ _ (carries_useFrame _ _ (carries_dropTlb _ _ _ h))
  · cases e

theorem carries_pinPage {s : State} (p v : Nat) (on : Bool) (u : State) (h : Carries s u) :
    Carries s (pinPage p v on u) := by
  unfold pinPage
  try dsimp only
  with_reducible repeat' first
    | intro _ | assumption | exact Carries.refl _ | apply carries_setLeaf | apply carries_dropTlb | split
    | apply carries_mk (Nat.le_refl _) | dsimp only

theorem carries_ppinEntry {s : State} (b : Nat) (e : Entry) (u : State) (h : Carries s u) :
    Carries s (ppinEntry b e u) := by
  unfold ppinEntry
  try dsimp only
  with_reducible repeat' first
    | intro _ | assumption | exact Carries.refl _ | apply carries_cond | apply carries_sysFault
    | apply carries_sysRetire | apply carries_pinPage | apply carries_modPartition | apply carries_foldl | split
    | apply carries_mk (Nat.le_refl _) | dsimp only

theorem carries_pprotEntry {s : State} (b : Nat) (e : Entry) (u : State) (h : Carries s u) :
    Carries s (pprotEntry b e u) := by
  unfold pprotEntry
  try dsimp only
  with_reducible repeat' first
    | intro _ | assumption | exact Carries.refl _ | apply carries_cond | apply carries_sysFault
    | apply carries_sysRetire | apply carries_setLeaf | apply carries_dropTlb | apply carries_foldl | split
    | apply carries_mk (Nat.le_refl _) | dsimp only

theorem carries_pqueryEntry {s : State} (b : Nat) (e : Entry) (u : State) (h : Carries s u) :
    Carries s (pqueryEntry b e u) := by
  unfold pqueryEntry
  try dsimp only
  with_reducible repeat' first
    | intro _ | assumption | exact Carries.refl _ | apply carries_sysResult | split | dsimp only

theorem carries_gallocEntry {s : State} (b : Nat) (e : Entry) (u : State) (h : Carries s u) :
    Carries s (gallocEntry b e u) := by
  unfold gallocEntry
  try dsimp only
  with_reducible repeat' first
    | intro _ | assumption | exact Carries.refl _ | apply carries_cond | apply carries_sysFault
    | apply carries_sysResult | apply carries_modBench | apply carries_foldl | split | dsimp only

theorem carries_gfreeEntry {s : State} (b : Nat) (e : Entry) (u : State) (h : Carries s u) :
    Carries s (gfreeEntry b e u) := by
  unfold gfreeEntry
  try dsimp only
  with_reducible repeat' first
    | intro _ | assumption | exact Carries.refl _ | apply carries_cond | apply carries_sysFault
    | apply carries_sysRetire | apply carries_modBench | apply carries_foldl | dsimp only

theorem carries_touchSegment {s : State} (req seg : Nat) (r : Req) (g : Seg) (u : State) (h : Carries s u) :
    Carries s (touchSegment req seg r g u) := by
  unfold touchSegment
  try dsimp only
  with_reducible repeat' first
    | intro _ | assumption | exact Carries.refl _ | apply carries_cond | apply carries_cond_snd | apply carries_modSeg
    | apply carries_heatPage | apply carries_bump | apply carries_modPartition | split
    | apply carries_mk (Nat.le_refl _) | dsimp only

theorem carries_pageWalk {s : State} (req seg : Nat) (u : State) (h : Carries s u) :
    Carries s (pageWalk req seg u) := by
  unfold pageWalk
  try dsimp only
  with_reducible repeat' first
    | intro _ | assumption | exact Carries.refl _ | apply carries_cond | apply carries_modBench
    | apply carries_touchSegment | split | apply carries_mk (Nat.le_refl _) | dsimp only

theorem carries_demandFetch {s : State} (p vpn : Nat) (u : State) (h : Carries s u) :
    Carries s (demandFetch p vpn u) := by
  unfold demandFetch
  try dsimp only
  with_reducible repeat' first
    | intro _ | assumption | exact Carries.refl _ | apply carries_cond | apply carries_cond_snd | apply carries_forget
    | apply carries_modPartition | apply carries_prefetch | apply carries_failWaiting | apply carries_beginIn
    | apply carries_beginDemote (e := by assumption) | apply carries_bump | split | apply carries_mk (Nat.le_refl _)
    | dsimp only

theorem carries_resumeReads {s : State} (p vpn : Nat) (frags : List Nat) (u : State) (h : Carries s u) :
    Carries s (resumeReads p vpn frags u) := by
  unfold resumeReads
  try dsimp only
  with_reducible repeat' first
    | intro _ | assumption | exact Carries.refl _ | apply carries_cond | apply carries_cond_snd
    | apply carries_cond_fst | apply carries_endWait | apply carries_foldl | split | dsimp only

theorem carries_fragmentMove {s : State} (p vpn frag : Nat) (m : PageMove) (l : Leaf) (u : State) (h : Carries s u) :
    Carries s (fragmentMove p vpn frag m l u) := by
  unfold fragmentMove
  try dsimp only
  with_reducible repeat' first
    | intro _ | assumption | exact Carries.refl _ | apply carries_cond | apply carries_flawsSeen
    | apply carries_copyFrame | apply carries_modPartition | apply carries_resumeReads
    | apply carries_mk (Nat.le_refl _) | dsimp only

theorem carries_fragmentArrive {s : State} (p vpn frag : Nat) (u : State) (h : Carries s u) :
    Carries s (fragmentArrive p vpn frag u) := by
  unfold fragmentArrive
  try dsimp only
  with_reducible repeat' first
    | intro _ | assumption | exact Carries.refl _ | apply carries_cond | apply carries_whenAdmitted
    | apply carries_fragmentMove | split | dsimp only

theorem carries_moveComplete {s : State} (p vpn : Nat) (u : State) (h : Carries s u) :
    Carries s (moveComplete p vpn u) := by
  unfold moveComplete
  try dsimp only
  with_reducible repeat' first
    | intro _ | assumption | exact Carries.refl _ | apply carries_cond | apply carries_cond_snd
    | apply carries_cond_fst | apply carries_dropTlb | apply carries_modPartition | apply carries_releaseFrame
    | apply carries_bump | apply carries_endWait | apply carries_foldl | split | apply carries_mk (Nat.le_refl _)
    | dsimp only

theorem carries_driftDemote {s : State} (p : Nat) (u : State) (h : Carries s u) :
    Carries s (driftDemote p u) := by
  unfold driftDemote
  try dsimp only
  with_reducible repeat' first
    | intro _ | assumption | exact Carries.refl _ | apply carries_cond | apply carries_cond_snd
    | apply carries_modPartition | apply carries_raise | apply carries_beginDemote (e := by assumption) | split
    | apply carries_mk (Nat.le_refl _) | dsimp only

theorem carries_heatDecay {s : State} (p : Nat) (u : State) (h : Carries s u) :
    Carries s (heatDecay p u) := by
  unfold heatDecay
  try dsimp only
  with_reducible repeat' first
    | intro _ | assumption | exact Carries.refl _ | apply carries_cond | apply carries_cond_snd
    | apply carries_cond_fst | apply carries_modPartition | apply carries_mk (Nat.le_refl _) | dsimp only

theorem carries_frameScrub {s : State} (hub : Nat) (u : State) (h : Carries s u) :
    Carries s (frameScrub hub u) := by
  unfold frameScrub
  try dsimp only
  with_reducible repeat' first
    | intro _ | assumption | exact Carries.refl _ | apply carries_cond | apply carries_zeroFrame | split
    | apply carries_mk (Nat.le_refl _) | dsimp only

theorem carries_refillBucket {s : State} (p depth add : Nat) (g : Nat) (u : State) (h : Carries s u) :
    Carries s (refillBucket p depth add g u) := by
  unfold refillBucket
  try dsimp only
  with_reducible repeat' first
    | intro _ | assumption | exact Carries.refl _ | apply carries_cond | apply carries_modPartition
    | apply carries_mk (Nat.le_refl _) | dsimp only

theorem carries_tokenRefill {s : State} (u : State) (h : Carries s u) :
    Carries s (tokenRefill u) := by
  unfold tokenRefill
  try dsimp only
  with_reducible repeat' first
    | intro _ | assumption | exact Carries.refl _ | apply carries_cond | apply carries_refillBucket
    | apply carries_foldl | dsimp only

end Sys2Proof.Machine
end

