-- ==== Sys2Proof/Laws/KeepsImages.lean ====
section
/-! SUPPORT. What the operations of Machine/Images.lean keep. -/

namespace Sys2Proof.Machine

theorem carries_imageSeen {s : State} (p image length : Nat) (u : State) (h : Carries s u) :
    Carries s (imageSeen p image length u) := by
  unfold imageSeen
  try dsimp only
  with_reducible repeat' first
    | intro _ | assumption | exact Carries.refl _ | apply carries_cond | apply carries_spaceSeen | split | dsimp only

end Sys2Proof.Machine
end

