-- ==== Sys2Proof/Laws/KeepsScheduling.lean ====
section
/-! SUPPORT. What the operations of Machine/Scheduling.lean keep. -/

namespace Sys2Proof.Machine

theorem carries_setSession {s : State} (n : Nat) (x : Session) (u : State) (h : Carries s u) :
    Carries s (setSession n x u) := by
  unfold setSession
  try dsimp only
  with_reducible repeat' first
    | intro _ | assumption | exact Carries.refl _ | apply carries_mk (Nat.le_refl _)

theorem carries_modSession {s : State} (n : Nat) (f : Session → Session) (u : State) (h : Carries s u) :
    Carries s (modSession n f u) := by
  unfold modSession
  try dsimp only
  with_reducible repeat' first
    | intro _ | assumption | exact Carries.refl _ | apply carries_setSession

theorem carries_modList {s : State} (n l : Nat) (f : IntakeList → IntakeList) (u : State) (h : Carries s u) :
    Carries s (modList n l f u) := by
  unfold modList
  try dsimp only
  with_reducible repeat' first
    | intro _ | assumption | exact Carries.refl _ | apply carries_modSession | split
    | apply carries_mk (Nat.le_refl _) | dsimp only

theorem carries_listWrite {s : State} (p va : Nat) (bs : List Byte) (u : State) (h : Carries s u) :
    Carries s (listWrite p va bs u) := by
  unfold listWrite
  try dsimp only
  with_reducible repeat' first
    | intro _ | assumption | exact Carries.refl _ | apply carries_spaceWrite

theorem carries_completeRecord {s : State} (q l n : Nat) (bytes : List Byte) (st : Status) (u : State) (h : Carries s u) :
    Carries s (completeRecord q l n bytes st u) := by
  unfold completeRecord
  try dsimp only
  with_reducible repeat' first
    | intro _ | assumption | exact Carries.refl _ | apply carries_cond | apply carries_listWrite
    | apply carries_modList | apply carries_emit | split | apply carries_mk (Nat.le_refl _) | dsimp only

theorem carries_stopList {s : State} (q l : Nat) (code : BitVec 16) (data : Nat) (u : State) (h : Carries s u) :
    Carries s (stopList q l code data u) := by
  unfold stopList
  try dsimp only
  with_reducible repeat' first
    | intro _ | assumption | exact Carries.refl _ | apply carries_raise | apply carries_modList
    | apply carries_mk (Nat.le_refl _) | dsimp only

theorem carries_launchTake {s : State} (q l : Nat) (u : State) (h : Carries s u) :
    Carries s (launchTake q l u) := by
  unfold launchTake
  try dsimp only
  with_reducible repeat' first
    | intro _ | assumption | exact Carries.refl _ | apply carries_cond | apply carries_stopList
    | apply carries_spaceSeen | apply carries_modList | apply carries_listWrite | apply carries_setProg
    | apply carries_completeRecord | split | apply carries_mk (Nat.le_refl _) | dsimp only

theorem carries_releaseSaved {s : State} (x : Prog) (u : State) (h : Carries s u) :
    Carries s (releaseSaved x u) := by
  unfold releaseSaved
  try dsimp only
  with_reducible repeat' first
    | intro _ | assumption | exact Carries.refl _ | apply carries_releaseFrame | apply carries_foldl | dsimp only

theorem carries_completeProg {s : State} (n : Nat) (x : Prog) (st : Status) (u : State) (h : Carries s u) :
    Carries s (completeProg n x st u) := by
  unfold completeProg
  try dsimp only
  with_reducible repeat' first
    | intro _ | assumption | exact Carries.refl _ | apply carries_completeRecord | apply carries_releaseSaved | split
    | apply carries_mk (Nat.le_refl _) | dsimp only

theorem carries_placeRoles {s : State} (n image : Nat) (gs : List GroupDesc) (ds : List RoleDesc) (r : Nat) (bs : List Nat)
    (u : State) (h : Carries s u) : Carries s (placeRoles n image gs ds r bs u) := by
  induction ds generalizing r bs u with
  | nil => exact h
  | cons d ds ih =>
    cases bs with
    | nil => exact h
    | cons b bs => exact ih _ _ _ (carries_setBench _ _ _ h)

theorem carries_withoutProg {s : State} (x : Prog) (u : State) (h : Carries s u) :
    Carries s (withoutProg x u) := by
  unfold withoutProg
  try dsimp only
  with_reducible repeat' first
    | intro _ | assumption | exact Carries.refl _ | apply carries_modBench | apply carries_foldl
    | apply carries_mk (Nat.le_refl _) | dsimp only

theorem carries_requestPreempt {s : State} (n : Nat) (standing : Bool) (u : State) (h : Carries s u) :
    Carries s (requestPreempt n standing u) := by
  unfold requestPreempt
  try dsimp only
  with_reducible repeat' first
    | intro _ | assumption | exact Carries.refl _ | apply carries_cond | apply carries_modProg
    | apply carries_mk (Nat.le_refl _) | dsimp only

theorem carries_tryPreempt {s : State} (p pri : Nat) (roles : List RoleDesc) (u : State) (h : Carries s u) :
    Carries s (tryPreempt p pri roles u) := by
  unfold tryPreempt
  try dsimp only
  with_reducible repeat' first
    | intro _ | assumption | exact Carries.refl _ | apply carries_cond | apply carries_cond_snd
    | apply carries_requestPreempt | apply carries_foldl | split | dsimp only

theorem carries_placeProg {s : State} (p n : Nat) (x : Prog) (u : State) (h : Carries s u) :
    Carries s (placeProg p n x u) := by
  unfold placeProg
  try dsimp only
  with_reducible repeat' first
    | intro _ | assumption | exact Carries.refl _ | apply carries_cond | apply carries_cond_snd
    | apply carries_cond_fst | apply carries_tryPreempt | apply carries_modBench | apply carries_setProg
    | apply carries_placeRoles | apply carries_foldl | split | apply carries_mk (Nat.le_refl _) | dsimp only

theorem carries_placeFirst {s : State} (p n : Nat) (x : Prog) (u : State) (h : Carries s u) :
    Carries s (placeFirst p n x u) := by
  unfold placeFirst
  try dsimp only
  with_reducible repeat' first
    | intro _ | assumption | exact Carries.refl _ | apply carries_cond | apply carries_placeProg
    | apply carries_completeProg | apply carries_imageSeen | split | apply carries_mk (Nat.le_refl _) | dsimp only

theorem carries_programPlace {s : State} (p : Nat) (u : State) (h : Carries s u) :
    Carries s (programPlace p u) := by
  unfold programPlace
  try dsimp only
  with_reducible repeat' first
    | intro _ | assumption | exact Carries.refl _ | apply carries_cond | apply carries_completeProg
    | apply carries_imageSeen | apply carries_placeFirst | split | dsimp only

theorem carries_streamSeen {s : State} (p : Nat) (x : Bench) (off n : Nat) (u : State) (h : Carries s u) :
    Carries s (streamSeen p x off n u) := by
  unfold streamSeen
  try dsimp only
  with_reducible repeat' first
    | intro _ | assumption | exact Carries.refl _ | apply carries_spaceSeen

theorem carries_startRole {s : State} (p b : Nat) (u : State) (h : Carries s u) :
    Carries s (startRole p b u) := by
  unfold startRole
  try dsimp only
  with_reducible repeat' first
    | intro _ | assumption | exact Carries.refl _ | apply carries_streamSeen | apply carries_modBench | split
    | apply carries_mk (Nat.le_refl _) | dsimp only

theorem carries_programStart {s : State} (n : Nat) (u : State) (h : Carries s u) :
    Carries s (programStart n u) := by
  unfold programStart
  try dsimp only
  with_reducible repeat' first
    | intro _ | assumption | exact Carries.refl _ | apply carries_cond | apply carries_setProg
    | apply carries_startRole | apply carries_foldl | split | apply carries_mk (Nat.le_refl _) | dsimp only

theorem carries_stopProg {s : State} (n : Nat) (u : State) (h : Carries s u) :
    Carries s (stopProg n u) := by
  unfold stopProg
  try dsimp only
  with_reducible repeat' first
    | intro _ | assumption | exact Carries.refl _ | apply carries_cond | apply carries_cond_snd
    | apply carries_cond_fst | apply carries_modBench | apply carries_setProg | apply carries_foldl | split
    | apply carries_mk (Nat.le_refl _) | dsimp only

theorem carries_arbitrate {s : State} (rs : List FaultReport) (n : Nat) (u : State) (h : Carries s u) :
    Carries s (arbitrate rs n u) := by
  unfold arbitrate
  try dsimp only
  with_reducible repeat' first
    | intro _ | assumption | exact Carries.refl _ | apply carries_setProg | apply carries_stopProg | split
    | apply carries_mk (Nat.le_refl _) | dsimp only

theorem carries_faultArbitration {s : State} (hub n : Nat) (u : State) (h : Carries s u) :
    Carries s (faultArbitration hub n u) := by
  unfold faultArbitration
  try dsimp only
  with_reducible repeat' first
    | intro _ | assumption | exact Carries.refl _ | apply carries_cond | apply carries_arbitrate | apply carries_foldl
    | apply carries_mk (Nat.le_refl _) | dsimp only

theorem carries_noteClosed {s : State} (p : Nat) (l : List (Nat × Nat × Nat)) (u : State) (h : Carries s u) :
    Carries s (noteClosed p l u) := by
  unfold noteClosed
  try dsimp only
  with_reducible repeat' first
    | intro _ | assumption | exact Carries.refl _ | apply carries_modPartition | apply carries_mk (Nat.le_refl _)
    | dsimp only

theorem carries_freeScoped {s : State} (p n : Nat) (u : State) (h : Carries s u) :
    Carries s (freeScoped p n u) := by
  unfold freeScoped
  try dsimp only
  with_reducible repeat' first
    | intro _ | assumption | exact Carries.refl _ | apply carries_unmapPage | apply carries_foldl | dsimp only

theorem carries_endProg {s : State} (n : Nat) (x : Prog) (st : Status) (u : State) (h : Carries s u) :
    Carries s (endProg n x st u) := by
  unfold endProg
  try dsimp only
  with_reducible repeat' first
    | intro _ | assumption | exact Carries.refl _ | apply carries_setBench | apply carries_noteClosed
    | apply carries_completeProg | apply carries_reapPages | apply carries_freeScoped | apply carries_foldl
    | apply carries_mk (Nat.le_refl _) | dsimp only

theorem carries_programEnd {s : State} (n : Nat) (u : State) (h : Carries s u) :
    Carries s (programEnd n u) := by
  unfold programEnd
  try dsimp only
  with_reducible repeat' first
    | intro _ | assumption | exact Carries.refl _ | apply carries_cond | apply carries_endProg | split | dsimp only

theorem carries_killProg {s : State} (n : Nat) (st : Status) (u : State) (h : Carries s u) :
    Carries s (killProg n st u) := by
  unfold killProg
  try dsimp only
  with_reducible repeat' first
    | intro _ | assumption | exact Carries.refl _ | apply carries_cond | apply carries_completeProg
    | apply carries_freeScoped | apply carries_stopProg | apply carries_setProg | split
    | apply carries_mk (Nat.le_refl _) | dsimp only

theorem carries_modRole {s : State} (n r : Nat) (f : Bench → Bench) (u : State) (h : Carries s u) :
    Carries s (modRole n r f u) := by
  unfold modRole
  try dsimp only
  with_reducible repeat' first
    | intro _ | assumption | exact Carries.refl _ | apply carries_cond | apply carries_modBench
    | apply carries_setProg | split | apply carries_mk (Nat.le_refl _) | dsimp only

theorem carries_roleFault {s : State} (n r ord off : Nat) (st : Status) (u : State) (h : Carries s u) :
    Carries s (roleFault n r ord off st u) := by
  unfold roleFault
  try dsimp only
  with_reducible repeat' first
    | intro _ | assumption | exact Carries.refl _ | apply carries_reportFault | split
    | apply carries_mk (Nat.le_refl _) | dsimp only

theorem carries_roleStop {s : State} (n r : Nat) (u : State) (h : Carries s u) :
    Carries s (roleStop n r u) := by
  unfold roleStop
  try dsimp only
  with_reducible repeat' first
    | intro _ | assumption | exact Carries.refl _ | apply carries_cond | apply carries_cond_snd
    | apply carries_cond_fst | apply carries_setBench | split | apply carries_mk (Nat.le_refl _) | dsimp only

theorem carries_withdraw {s : State} (n : Nat) (u : State) (h : Carries s u) :
    Carries s (withdraw n u) := by
  unfold withdraw
  try dsimp only
  with_reducible repeat' first
    | intro _ | assumption | exact Carries.refl _ | apply carries_cond | apply carries_modBench
    | apply carries_setProg | apply carries_foldl | split | apply carries_mk (Nat.le_refl _) | dsimp only

theorem carries_yieldTimeout {s : State} (n : Nat) (u : State) (h : Carries s u) :
    Carries s (yieldTimeout n u) := by
  unfold yieldTimeout
  try dsimp only
  with_reducible repeat' first
    | intro _ | assumption | exact Carries.refl _ | apply carries_cond | apply carries_withdraw
    | apply carries_modProg | apply carries_raise | apply carries_bumpFld | split | apply carries_mk (Nat.le_refl _)
    | dsimp only

theorem carries_takeSaves {s : State} {p k : Nat} {u t : State} {acc fs : List Nat} (e : takeSaves p k u acc = some (fs, t))
    (h : Carries s u) : Carries s t := by
  induction k generalizing u acc with
  | zero => cases e; exact h
  | succ k ih =>
    simp only [takeSaves] at e
    split at e
    · exact ih e (carries_useFrame _ _ h)
    · cases e

theorem carries_takeAll {s : State} {p : Nat} {ks : List Nat} {u t : State} {acc fs : List (List Nat)}
    (e : takeAll p ks u acc = some (fs, t)) (h : Carries s u) : Carries s t := by
  induction ks generalizing u acc with
  | nil => cases e; exact h
  | cons k ks ih =>
    simp only [takeAll] at e
    split at e
    · exact ih e (carries_takeSaves (by assumption) h)
    · cases e

theorem carries_admitParts {s : State} (p : Nat) (l : List (Nat × Nat)) (f : State → State) (u : State) (hf : ∀ t, Carries s t → Carries s (f t)) (h : Carries s u) :
    Carries s (admitParts p l f u) := by
  unfold admitParts
  try dsimp only
  with_reducible repeat' first
    | intro _ | assumption | exact Carries.refl _ | apply carries_cond | apply carries_cond_snd
    | apply carries_cond_fst | apply hf | apply carries_spendAt | apply carries_waitAt | apply carries_foldl
    | dsimp only

theorem carries_saveBad {s : State} (x : Prog) (o : Bench) (fs : List Nat) (u : State) (h : Carries s u) :
    Carries s (saveBad x o fs u) := by
  unfold saveBad
  try dsimp only
  with_reducible repeat' first
    | intro _ | assumption | exact Carries.refl _ | apply carries_poisonLine | apply carries_foldl | dsimp only

theorem carries_saveDone {s : State} (n : Nat) (x : Prog) (fs : List (List Nat)) (u : State) (h : Carries s u) :
    Carries s (saveDone n x fs u) := by
  unfold saveDone
  try dsimp only
  with_reducible repeat' first
    | intro _ | assumption | exact Carries.refl _ | apply carries_cond | apply carries_cond_snd
    | apply carries_cond_fst | apply carries_modBench | apply carries_saveBad | apply carries_setProg
    | apply carries_bumpFld | apply carries_foldl | apply carries_mk (Nat.le_refl _) | dsimp only

theorem carries_saveComplete {s : State} (n : Nat) (u : State) (h : Carries s u) :
    Carries s (saveComplete n u) := by
  unfold saveComplete
  try dsimp only
  with_reducible repeat' first
    | intro _ | assumption | exact Carries.refl _ | apply carries_cond | apply carries_cond_snd
    | apply carries_cond_fst | apply carries_stopProg | apply carries_takeAll (e := by assumption)
    | apply carries_admitParts | apply carries_saveDone | apply carries_withdraw | split | dsimp only

theorem carries_restoreDone {s : State} (n : Nat) (x : Prog) (u : State) (h : Carries s u) :
    Carries s (restoreDone n x u) := by
  unfold restoreDone
  try dsimp only
  with_reducible repeat' first
    | intro _ | assumption | exact Carries.refl _ | apply carries_cond | apply carries_cond_snd
    | apply carries_cond_fst | apply carries_cond_last | apply carries_flawsSeen | apply carries_setBench
    | apply carries_setProg | apply carries_releaseSaved | apply carries_foldl | apply carries_mk (Nat.le_refl _)
    | dsimp only

theorem carries_restoreComplete {s : State} (n : Nat) (u : State) (h : Carries s u) :
    Carries s (restoreComplete n u) := by
  unfold restoreComplete
  try dsimp only
  with_reducible repeat' first
    | intro _ | assumption | exact Carries.refl _ | apply carries_cond | apply carries_cond_snd
    | apply carries_cond_fst | apply carries_admitParts | apply carries_restoreDone | split | dsimp only

theorem carries_quantumExpire {s : State} (n : Nat) (u : State) (h : Carries s u) :
    Carries s (quantumExpire n u) := by
  unfold quantumExpire
  try dsimp only
  with_reducible repeat' first
    | intro _ | assumption | exact Carries.refl _ | apply carries_cond | apply carries_setProg | split
    | apply carries_mk (Nat.le_refl _) | dsimp only

end Sys2Proof.Machine
end

