-- ==== Sys2Proof/Laws/KeepsFabric.lean ====
section
/-! SUPPORT. What the operations of Machine/Fabric.lean keep. -/

namespace Sys2Proof.Machine

theorem carries_modLink {s : State} (k : Nat) (f : Link → Link) (u : State) (h : Carries s u) :
    Carries s (modLink k f u) := by
  unfold modLink
  try dsimp only
  with_reducible repeat' first
    | intro _ | assumption | exact Carries.refl _ | apply carries_mk (Nat.le_refl _)

theorem carries_sendIdle {s : State} (k : Nat) (nak : Bool) (u : State) (h : Carries s u) :
    Carries s (sendIdle k nak u) := by
  unfold sendIdle
  try dsimp only
  with_reducible repeat' first
    | intro _ | assumption | exact Carries.refl _ | apply carries_emit | apply carries_modLink
    | apply carries_mk (Nat.le_refl _) | dsimp only

theorem carries_returnCredits {s : State} (n : Nat) (o : Option Origin) (u : State) (h : Carries s u) :
    Carries s (returnCredits n o u).1 := by
  unfold returnCredits
  split
  · exact h
  · dsimp only
    exact carries_modLink _ _ _ h

theorem carries_returnAll {s : State} (o : Option Origin) (u : State) (h : Carries s u) :
    Carries s (returnAll o u) := by
  unfold returnAll
  try dsimp only
  with_reducible repeat' first
    | intro _ | assumption | exact Carries.refl _ | apply carries_returnCredits

theorem carries_pumpItem {s : State} (k : Nat) (a : State × List TxItem × List Nat) (it : TxItem) (h : Carries s a.1) :
    Carries s (pumpItem k a it).1 := by
  unfold pumpItem
  refine carries_cond_fst h ?_
  extract_lets r v w c
  have h1 : Carries s w := carries_foldl (fun t f ht => carries_emit _ t ht) (carries_modLink _ _ _ h)
  exact carries_cond_fst (carries_returnCredits _ _ _ h1) (carries_returnCredits _ _ _ h1)

theorem carries_flushMarks {s : State} (k : Nat) (u : State) (h : Carries s u) :
    Carries s (flushMarks k u) := by
  unfold flushMarks
  try dsimp only
  with_reducible repeat' first
    | intro _ | assumption | exact Carries.refl _ | apply carries_emit | apply carries_modLink | apply carries_foldl
    | apply carries_mk (Nat.le_refl _) | dsimp only

theorem carries_pump {s : State} (k : Nat) (u : State) (h : Carries s u) : Carries s (pump k u) := by
  unfold pump
  refine carries_cond ?_ h
  extract_lets v r
  exact carries_modLink _ _ _ (carries_foldl_fst (a := (v, [], [])) (fun t x ht => carries_pumpItem k t x ht)
    (carries_modLink _ _ _ (carries_flushMarks _ _ h)))

theorem carries_pumpAll {s : State} (u : State) (h : Carries s u) :
    Carries s (pumpAll u) := by
  unfold pumpAll
  try dsimp only
  with_reducible repeat' first
    | intro _ | assumption | exact Carries.refl _ | apply carries_cond | apply carries_cond_snd
    | apply carries_cond_fst | apply carries_pump | apply carries_sendIdle | apply carries_foldl | dsimp only

theorem carries_enqueueOn {s : State} (k : Nat) (pkt : Packet) (gl : Option Nat) (o : Option Origin) (u : State) (h : Carries s u) :
    Carries s (enqueueOn k pkt gl o u) := by
  unfold enqueueOn
  try dsimp only
  with_reducible repeat' first
    | intro _ | assumption | exact Carries.refl _ | apply carries_modLink | apply carries_mk (Nat.le_refl _)
    | dsimp only

theorem carries_deliverTo {s : State} (p : Packet) (o : Option Origin) (u t : State) (e : deliverTo p o u = .ok t)
    (h : Carries s u) : Carries s t := by
  unfold deliverTo at e
  simp only [Bool.cond_eq_ite] at e
  split at e
  · split at e
    · cases e
    · split at e
      · cases e
        exact carries_returnAll _ _ h
      · split at e <;> cases e
        · exact carries_returnAll _ _ (carries_mk (Nat.le_refl _) h)
        · exact carries_mk (Nat.le_refl _) h
  · split at e
    · cases e
    · split at e <;> cases e
      · exact carries_mk (Nat.le_refl _) h
      · exact carries_returnAll _ _ (carries_mk (Nat.le_refl _) h)

theorem carries_noteDrop {s : State} (e dropped lost : Nat) (u : State) (h : Carries s u) :
    Carries s (noteDrop e dropped lost u) := by
  unfold noteDrop
  try dsimp only
  with_reducible repeat' first
    | intro _ | assumption | exact Carries.refl _ | apply carries_mk (Nat.le_refl _) | dsimp only

theorem carries_noticeLost {s : State} (e : Nat) (st : Status) (u : State) (h : Carries s u) :
    Carries s (noticeLost e st u) := by
  unfold noticeLost
  try dsimp only
  with_reducible repeat' first
    | intro _ | assumption | exact Carries.refl _ | apply carries_bump | apply carries_noteDrop

theorem carries_noteNotice {s : State} (q : Packet) (e : Nat) (u : State) (h : Carries s u) :
    Carries s (noteNotice q e u) := by
  unfold noteNotice
  try dsimp only
  with_reducible repeat' first
    | intro _ | assumption | exact Carries.refl _ | apply carries_mk (Nat.le_refl _) | dsimp only

theorem carries_sendNotice {s : State} (eng : Nat) (p : Packet) (st : Status) (u : State) (h : Carries s u) :
    Carries s (sendNotice eng p st u) := by
  have hf : ∀ q k gl, Carries s { noteNotice q eng (enqueueOn k q gl none u) with free := u.free + 1 } := fun q k gl =>
    have g := carries_noteNotice q eng _ (carries_enqueueOn k q gl none u h)
    ⟨⟨g.pending, g.out, Nat.le_trans h.free (Nat.le_succ _), g.mem, g.otp⟩, g.time, g.trip⟩
  unfold sendNotice
  refine carries_cond ?_ (carries_cond (carries_noticeLost _ _ _ h) ?_)
  · split
    · exact carries_deliverTo (e := by assumption) (h := h)
    · exact carries_noticeLost _ _ _ h
  · split
    · split
      · exact carries_deliverTo (e := by assumption) (h := h)
      · exact carries_noticeLost _ _ _ h
    · exact hf _ _ _
    · exact carries_noticeLost _ _ _ h

theorem carries_dropPacket {s : State} (p : Packet) (st : Status) (o : Option Origin) (u : State) (h : Carries s u) :
    Carries s (dropPacket p st o u) := by
  unfold dropPacket
  try dsimp only
  with_reducible repeat' first
    | intro _ | assumption | exact Carries.refl _ | apply carries_cond | apply carries_returnAll | apply carries_bump
    | apply carries_noteDrop | apply carries_sendNotice

theorem carries_doHop {s : State} (p : Packet) (o : Option Origin) (u : State) (i0 : Hop) (h : Carries s u) :
    Carries s (doHop p o u i0) := by
  unfold doHop
  try dsimp only
  with_reducible repeat' first
    | intro _ | assumption | exact Carries.refl _ | apply carries_deliverTo (e := by assumption)
    | apply carries_dropPacket | apply carries_pump | apply carries_enqueueOn | split | dsimp only

theorem carries_arrivePacket {s : State} (p : Packet) (stg : Nat) (o : Option Origin) (u : State) (h : Carries s u) :
    Carries s (arrivePacket p stg o u) := by
  unfold arrivePacket
  try dsimp only
  with_reducible repeat' first
    | intro _ | assumption | exact Carries.refl _ | apply carries_mk (Nat.le_succ _) | apply carries_cond
    | apply carries_returnAll | apply carries_bump | apply carries_dropPacket | apply carries_doHop
    | apply carries_foldl | split | apply carries_mk (Nat.le_refl _) | dsimp only

theorem carries_packetArrive {s : State} (y_ : LinkId) (p : Packet) (u : State) (h : Carries s u) :
    Carries s (packetArrive y_ p u) := by
  unfold packetArrive
  try dsimp only
  with_reducible repeat' first
    | intro _ | assumption | exact Carries.refl _ | apply carries_cond | apply carries_pumpAll
    | apply carries_arrivePacket

theorem carries_ordOut {s : State} (p : Packet) (i0 : Hop) (u : State) (h : Carries s u) :
    Carries s (ordOut p i0 u) := by
  unfold ordOut
  try dsimp only
  with_reducible repeat' first
    | intro _ | assumption | exact Carries.refl _ | apply carries_doHop | split | apply carries_mk (Nat.le_refl _)
    | dsimp only

theorem carries_routeOut {s : State} {p : Packet} {again : Bool} {u t : State} (e : routeOut p again u = .sent t)
    (h : Carries s u) : Carries s t := by
  unfold routeOut at e
  dsimp only at e
  simp only [Bool.cond_eq_ite] at e
  have h1 : Carries s { u with free := u.free + 1 } := carries_mk (Nat.le_succ _) h
  have ho : ∀ x, Carries s (ordOut p x { u with free := u.free + 1 }) := fun x => carries_ordOut _ _ _ h1
  split at e
  · split at e
    · split at e
      · cases e
        exact ho _
      · split at e
        · cases e
        · cases e
          exact carries_doHop _ _ _ _ h1
    · cases e
      exact ho _
  · cases e
    exact carries_doHop _ _ _ _ h1

theorem carries_inject {s : State} {part : Nat} {pkt : Packet} {again : Bool} {u t : State}
    (e : inject part pkt again u = .sent t) (h : Carries s u) : Carries s t := by
  unfold inject at e
  dsimp only at e
  split at e
  · cases e
  · simp only [Bool.cond_eq_ite] at e
    split at e
    · split at e
      · cases e
      · cases e
        exact carries_foldl (fun t x ht => carries_doHop _ _ t x ht) h
    · split at e
      · cases e
      · split at e
        · cases e
        · exact carries_routeOut e h

theorem carries_sendMgmt {s : State} (dst : Nat) (b : Body) (u : State) (h : Carries s u) :
    Carries s (sendMgmt dst b u) := by
  unfold sendMgmt
  try dsimp only
  with_reducible repeat' first
    | intro _ | assumption | exact Carries.refl _
    | first | exact carries_inject (by assumption) (by assumption) | apply carries_inject (e := by assumption) | split
    | dsimp only

theorem carries_takeArrived {s : State} (q : Arrived → Bool) (u : State) (x : Arrived) (t : State)
    (e : takeArrived q u = some (x, t)) (h : Carries s u) : Carries s t := by
  unfold takeArrived at e
  split at e
  · cases e
  · obtain ⟨y, _, hy⟩ := Option.map_eq_some_iff.mp e
    cases hy
    exact carries_returnAll _ _ (carries_mk (Nat.le_refl _) h)

theorem carries_takeMgmt {s : State} (q : Packet → Bool) (u : State) (x : Packet) (t : State)
    (e : takeMgmt q u = some (x, t)) (h : Carries s u) : Carries s t := by
  unfold takeMgmt at e
  split at e
  · cases e
  · split at e
    · cases e
    · dsimp only at e
      split at e <;> cases e
      · exact carries_returnAll _ _ (carries_mk (Nat.le_refl _) (carries_returnAll _ _ (carries_mk (Nat.le_refl _) h)))
      · exact carries_returnAll _ _ (carries_mk (Nat.le_refl _) h)

theorem carries_replay {s : State} (k : Nat) (u : State) (h : Carries s u) :
    Carries s (replay k u) := by
  unfold replay
  try dsimp only
  with_reducible repeat' first
    | intro _ | assumption | exact Carries.refl _ | apply carries_cond | apply carries_emit | apply carries_modLink
    | apply carries_bump | apply carries_foldl | apply carries_mk (Nat.le_refl _) | dsimp only

theorem carries_deliverFlit {s : State} (k : Nat) (f : Flit) (u : State) (h : Carries s u) :
    Carries s (deliverFlit k f u) := by
  unfold deliverFlit
  try dsimp only
  with_reducible repeat' first
    | intro _ | assumption | exact Carries.refl _ | apply carries_cond | apply carries_modLink
    | apply carries_arrivePacket | apply carries_returnAll | split | apply carries_mk (Nat.le_refl _) | dsimp only

theorem carries_drainHeld {s : State} (n k : Nat) (u : State) (h : Carries s u) : Carries s (drainHeld n k u) := by
  induction n generalizing u with
  | zero => exact h
  | succ n ih =>
    simp only [drainHeld]
    split
    · exact h
    · exact ih _ (carries_deliverFlit _ _ _ (carries_modLink _ _ _ h))

theorem carries_noteGap {s : State} (k : Nat) (u : State) (h : Carries s u) :
    Carries s (noteGap k u) := by
  unfold noteGap
  try dsimp only
  with_reducible repeat' first
    | intro _ | assumption | exact Carries.refl _ | apply carries_cond | apply carries_modLink | split
    | apply carries_mk (Nat.le_refl _) | dsimp only

theorem carries_sequencedFlit {s : State} (k : Nat) (f : Flit) (u : State) (h : Carries s u) :
    Carries s (sequencedFlit k f u) := by
  unfold sequencedFlit
  try dsimp only
  with_reducible repeat' first
    | intro _ | assumption | exact Carries.refl _ | apply carries_cond | apply carries_noteGap
    | apply carries_drainHeld | apply carries_deliverFlit | apply carries_modLink | apply carries_mk (Nat.le_refl _)
    | dsimp only

theorem carries_flitReceive {s : State} (k : Nat) (f : Flit) (bytes : List Byte) (crc : W32) (fec : Option Nat) (u : State) (h : Carries s u) :
    Carries s (flitReceive k f bytes crc fec u) := by
  unfold flitReceive
  try dsimp only
  with_reducible repeat' first
    | intro _ | assumption | exact Carries.refl _ | apply carries_cond | apply carries_bump | apply carries_sendIdle
    | apply carries_modLink | apply carries_replay | apply carries_sequencedFlit | apply carries_pumpAll | split
    | dsimp only

theorem carries_gapTimeout {s : State} (k : Nat) (u : State) (h : Carries s u) :
    Carries s (gapTimeout k u) := by
  unfold gapTimeout
  try dsimp only
  with_reducible repeat' first
    | intro _ | assumption | exact Carries.refl _ | apply carries_cond | apply carries_sendIdle
    | apply carries_modLink | split | apply carries_mk (Nat.le_refl _) | dsimp only

theorem carries_replayTimeout {s : State} (k : Nat) (u : State) (h : Carries s u) :
    Carries s (replayTimeout k u) := by
  unfold replayTimeout
  try dsimp only
  with_reducible repeat' first
    | intro _ | assumption | exact Carries.refl _ | apply carries_cond | apply carries_replay

theorem carries_nakReceive {s : State} (k ack : Nat) (u : State) (h : Carries s u) :
    Carries s (nakReceive k ack u) := by
  unfold nakReceive
  try dsimp only
  with_reducible repeat' first
    | intro _ | assumption | exact Carries.refl _ | apply carries_replay | apply carries_modLink

theorem carries_linkFailure {s : State} (k : Nat) (u : State) (h : Carries s u) :
    Carries s (linkFailure k u) := by
  unfold linkFailure
  try dsimp only
  with_reducible repeat' first
    | intro _ | assumption | exact Carries.refl _ | apply carries_cond | apply carries_cond_snd
    | apply carries_cond_fst | apply carries_bump | apply carries_modLink | apply carries_dropPacket
    | apply carries_pumpAll | apply carries_foldl | apply carries_mk (Nat.le_refl _) | dsimp only

theorem carries_sendMark {s : State} (u : State) (m : Nat) (h : Carries s u) :
    Carries s (sendMark u m) := by
  unfold sendMark
  try dsimp only
  with_reducible repeat' first
    | intro _ | assumption | exact Carries.refl _ | apply carries_cond | apply carries_stage | apply carries_emit
    | apply carries_modLink | apply carries_foldl | apply carries_mk (Nat.le_refl _) | dsimp only

theorem carries_drainProgress {s : State} (u : State) (h : Carries s u) :
    Carries s (drainProgress u) := by
  unfold drainProgress
  try dsimp only
  with_reducible repeat' first
    | intro _ | assumption | exact Carries.refl _ | apply carries_cond | apply carries_sendMark | apply carries_foldl

theorem carries_releaseOld {s : State} (u : State) (h : Carries s u) :
    Carries s (releaseOld u) := by
  unfold releaseOld
  try dsimp only
  with_reducible repeat' first
    | intro _ | assumption | exact Carries.refl _ | apply carries_mk (Nat.le_succ _) | apply carries_emergEnds
    | apply carries_mk (Nat.le_refl _) | dsimp only

theorem carries_fabSwap {s : State} (u : State) (h : Carries s u) :
    Carries s (fabSwap u) := by
  unfold fabSwap
  try dsimp only
  with_reducible repeat' first
    | intro _ | assumption | exact Carries.refl _ | apply carries_cond | apply carries_setFld
    | apply carries_drainProgress | split | apply carries_mk (Nat.le_refl _) | dsimp only

theorem carries_fabForce {s : State} (u : State) (h : Carries s u) :
    Carries s (fabForce u) := by
  unfold fabForce
  try dsimp only
  with_reducible repeat' first
    | intro _ | assumption | exact Carries.refl _ | apply carries_cond | apply carries_releaseOld

theorem carries_markerArrive {s : State} (k typ stage : Nat) (u : State) (h : Carries s u) :
    Carries s (markerArrive k typ stage u) := by
  unfold markerArrive
  try dsimp only
  with_reducible repeat' first
    | intro _ | assumption | exact Carries.refl _ | apply carries_cond | apply carries_stage
    | apply carries_drainProgress | apply carries_modLink | apply carries_mk (Nat.le_refl _) | dsimp only

theorem carries_drainRelease {s : State} (u : State) (h : Carries s u) :
    Carries s (drainRelease u) := by
  unfold drainRelease
  try dsimp only
  with_reducible repeat' first
    | intro _ | assumption | exact Carries.refl _ | apply carries_cond | apply carries_drainProgress
    | apply carries_sendMgmt | apply carries_releaseOld | apply carries_foldl | dsimp only

theorem carries_drainWarn {s : State} (u : State) (h : Carries s u) :
    Carries s (drainWarn u) := by
  unfold drainWarn
  try dsimp only
  with_reducible repeat' first
    | intro _ | assumption | exact Carries.refl _ | apply carries_cond | apply carries_raise
    | apply carries_mk (Nat.le_refl _)

theorem carries_lanesBack {s : State} (u : State) (h : Carries s u) :
    Carries s (lanesBack u) := by
  unfold lanesBack
  try dsimp only
  with_reducible repeat' first
    | intro _ | assumption | exact Carries.refl _ | apply carries_pumpAll | apply carries_drainProgress

theorem carries_catchUpMarks {s : State} (k : Nat) (u : State) (h : Carries s u) :
    Carries s (catchUpMarks k u) := by
  unfold catchUpMarks
  try dsimp only
  with_reducible repeat' first
    | intro _ | assumption | exact Carries.refl _ | apply carries_cond | apply carries_emit | apply carries_modLink
    | apply carries_foldl | apply carries_mk (Nat.le_refl _) | dsimp only

theorem carries_laneTrained {s : State} (e l : Nat) (u : State) (h : Carries s u) :
    Carries s (laneTrained e l u) := by
  unfold laneTrained
  try dsimp only
  with_reducible repeat' first
    | intro _ | assumption | exact Carries.refl _ | apply carries_cond | apply carries_lanesBack
    | apply carries_emergEnds | apply carries_catchUpMarks | split | dsimp only

theorem carries_helloSend {s : State} (e f k : Nat) (u : State) (h : Carries s u) :
    Carries s (helloSend e f k u) := by
  unfold helloSend
  try dsimp only
  with_reducible repeat' first
    | intro _ | assumption | exact Carries.refl _ | apply carries_cond | apply carries_emit

theorem carries_helloReceive {s : State} (e f k : Nat) (i0 : Hello) (u : State) (h : Carries s u) :
    Carries s (helloReceive e f k i0 u) := by
  unfold helloReceive
  try dsimp only
  with_reducible repeat' first
    | intro _ | assumption | exact Carries.refl _ | apply carries_cond | apply carries_setRaw | apply carries_pumpAll
    | apply carries_catchUpMarks | apply carries_setFld | apply carries_raise | apply carries_causeLane | split
    | apply carries_mk (Nat.le_refl _) | dsimp only

theorem carries_discoveryComplete {s : State} (u : State) (h : Carries s u) :
    Carries s (discoveryComplete u) := by
  unfold discoveryComplete
  try dsimp only
  with_reducible repeat' first
    | intro _ | assumption | exact Carries.refl _ | apply carries_cond | apply carries_mk (Nat.le_refl _) | dsimp only

theorem carries_weatherRecord {s : State} (lanes : List WeatherLane) (u : State) (h : Carries s u) :
    Carries s (weatherRecord lanes u) := by
  unfold weatherRecord
  try dsimp only
  with_reducible repeat' first
    | intro _ | assumption | exact Carries.refl _ | apply carries_cond | apply carries_sendMgmt
    | apply carries_mk (Nat.le_refl _)

theorem carries_ringPut {s : State} (p base slots : Nat) (bytes : List Byte) (u : State) (h : Carries s u) :
    Carries s (ringPut p base slots bytes u) := by
  unfold ringPut
  split
  · exact carries_spaceSeen _ _ _ _ h
  · exact carries_spaceWrite _ _ _ _ (carries_spaceWrite _ _ _ _ (carries_spaceSeen _ _ _ _ h))

theorem carries_weatherAppend {s : State} (bytes : List Byte) (u : State) (h : Carries s u) :
    Carries s (weatherAppend bytes u) := by
  unfold weatherAppend
  try dsimp only
  with_reducible repeat' first
    | intro _ | assumption | exact Carries.refl _ | apply carries_cond | apply carries_takeMgmt (e := by assumption)
    | apply carries_ringPut | split | dsimp only

end Sys2Proof.Machine
end

