-- ==== Sys2Proof/Laws/KeepsHbm.lean ====
section
/-! SUPPORT. What the operations of Machine/Hbm.lean keep. -/

namespace Sys2Proof.Machine

theorem carries_lineAccessRead {s : State} (pa : Nat) (err : List (Nat × BitVec 16)) (u : State) (h : Carries s u) :
    Carries s (lineAccessRead pa err u) := by
  unfold lineAccessRead
  try dsimp only
  with_reducible repeat' first
    | intro _ | assumption | exact Carries.refl _ | apply carries_cond | apply carries_lineShows | apply carries_emit
    | split | dsimp only

theorem carries_hbmAccess {s : State} (pa : Nat) (acc : Access64) (err : List (Nat × BitVec 16)) (u : State) (h : Carries s u) :
    Carries s (hbmAccess pa acc err u) := by
  unfold hbmAccess
  try dsimp only
  with_reducible repeat' first
    | intro _ | assumption | exact Carries.refl _ | apply carries_cond | apply carries_lineAccessRead
    | apply carries_emit | apply carries_flawWrite | split | dsimp only

theorem carries_rowError {s : State} (stack pc pa pass : Nat) (u : State) (h : Carries s u) :
    Carries s (rowError stack pc pa pass u) := by
  unfold rowError
  try dsimp only
  with_reducible repeat' first
    | intro _ | assumption | exact Carries.refl _ | apply carries_cond | apply carries_bumpFld | apply carries_raise
    | apply carries_mk (Nat.le_refl _)

theorem carries_scrubbedLine {s : State} (stack line : Nat) (u : State) (h : Carries s u) :
    Carries s (scrubbedLine stack line u) := by
  unfold scrubbedLine
  try dsimp only
  with_reducible repeat' first
    | intro _ | assumption | exact Carries.refl _ | apply carries_cond | apply carries_bumpFld
    | apply carries_mk (Nat.le_refl _)

theorem carries_scrubRead {s : State} (pa : Nat) (err : List (Nat × BitVec 16)) (wrote : Bool) (u : State) (h : Carries s u) :
    Carries s (scrubRead pa err wrote u) := by
  unfold scrubRead
  try dsimp only
  with_reducible repeat' first
    | intro _ | assumption | exact Carries.refl _ | apply carries_cond | apply carries_countBad
    | apply carries_uncorrectable | apply carries_rowError | apply carries_corrected | apply carries_memWrite | split
    | dsimp only

theorem carries_hbmScrub {s : State} (pa : Nat) (err : List (Nat × BitVec 16)) (wrote : Bool) (u : State) (h : Carries s u) :
    Carries s (hbmScrub pa err wrote u) := by
  unfold hbmScrub
  try dsimp only
  with_reducible repeat' first
    | intro _ | assumption | exact Carries.refl _ | apply carries_cond | apply carries_scrubbedLine
    | apply carries_scrubRead

theorem carries_stackTemp {s : State} (stack : Nat) (temp : Int) (u : State) (h : Carries s u) :
    Carries s (stackTemp stack temp u) := by
  unfold stackTemp
  try dsimp only
  with_reducible repeat' first
    | intro _ | assumption | exact Carries.refl _ | apply carries_cond | apply carries_setFld | apply carries_raise
    | apply carries_emergEnds | apply carries_mk (Nat.le_refl _)

theorem carries_atomicAt {s : State} (pa : Nat) (op : AtomicOp) (operand compare : Nat) (u : State) (h : Carries s u) :
    Carries s (atomicAt pa op operand compare u).2.2 := by
  unfold atomicAt
  try dsimp only
  with_reducible repeat' first
    | intro _ | assumption | exact Carries.refl _ | apply carries_cond | apply carries_cond_snd
    | apply carries_cond_last | apply carries_lineSeen | apply carries_memWrite | apply carries_setRaw64
    | apply carries_bump

theorem carries_nearAtomic {s : State} (pa : Nat) (op : AtomicOp) (operand compare : W64) (u : State) (h : Carries s u) :
    Carries s (nearAtomic pa op operand compare u) := by
  unfold nearAtomic
  try dsimp only
  with_reducible repeat' first
    | intro _ | assumption | exact Carries.refl _ | apply carries_cond | apply carries_cond_snd
    | apply carries_cond_fst | apply carries_cond_last | apply carries_atomicAt | apply carries_emit

theorem carries_parityLoss {s : State} (m : Nat) (odd : Bool) (u : State) (h : Carries s u) :
    Carries s (parityLoss m odd u) := by
  unfold parityLoss
  try dsimp only
  with_reducible repeat' first
    | intro _ | assumption | exact Carries.refl _ | apply carries_cond | apply carries_loseParity

theorem carries_moduleFailure {s : State} (m : Nat) (u : State) (h : Carries s u) :
    Carries s (moduleFailure m u) := by
  unfold moduleFailure
  try dsimp only
  with_reducible repeat' first
    | intro _ | assumption | exact Carries.refl _ | apply carries_cond | apply carries_fenceCause

end Sys2Proof.Machine
end

