-- ==== Sys2Proof/Laws/KeepsOptics.lean ====
section
/-! SUPPORT. What the operations of Machine/Optics.lean keep. -/

namespace Sys2Proof.Machine

theorem carries_laneDown {s : State} (e d l : Nat) (u : State) (h : Carries s u) :
    Carries s (laneDown e d l u) := by
  unfold laneDown
  try dsimp only
  with_reducible repeat' first
    | intro _ | assumption | exact Carries.refl _ | apply carries_cond | apply carries_modLane
    | apply carries_causeLane | apply carries_setLane | apply carries_mk (Nat.le_refl _) | dsimp only

theorem carries_lightLost {s : State} (e l : Nat) (parked : Bool) (u : State) (h : Carries s u) :
    Carries s (lightLost e l parked u) := by
  unfold lightLost
  try dsimp only
  with_reducible repeat' first
    | intro _ | assumption | exact Carries.refl _ | apply carries_cond | apply carries_setLane
    | apply carries_laneDown | dsimp only

theorem carries_moduleDark {s : State} (m : Nat) (u : State) (h : Carries s u) :
    Carries s (moduleDark m u) := by
  unfold moduleDark
  try dsimp only
  with_reducible repeat' first
    | intro _ | assumption | exact Carries.refl _ | apply carries_cond | apply carries_causeModule | dsimp only

theorem carries_engineTemp {s : State} (e : Nat) (temp : Int) (u : State) (h : Carries s u) :
    Carries s (engineTemp e temp u) := by
  unfold engineTemp
  try dsimp only
  with_reducible repeat' first
    | intro _ | assumption | exact Carries.refl _ | apply carries_cond | apply carries_setFld
    | apply carries_modEngine | apply carries_raise | apply carries_emergEnds | apply carries_foldl | split
    | apply carries_mk (Nat.le_refl _) | dsimp only

theorem carries_ringLoop {s : State} (e d l : Nat) (err : Int) (heater : Nat) (temp : Int) (u : State) (h : Carries s u) :
    Carries s (ringLoop e d l err heater temp u) := by
  unfold ringLoop
  try dsimp only
  with_reducible repeat' first
    | intro _ | assumption | exact Carries.refl _ | apply carries_cond | apply carries_engineTemp
    | apply carries_setFld | apply carries_laneDown

theorem carries_lanePower {s : State} (e l : Nat) (power : Int) (berHigh : Bool) (ber : Nat) (temp : Int) (u : State) (h : Carries s u) :
    Carries s (lanePower e l power berHigh ber temp u) := by
  unfold lanePower
  try dsimp only
  with_reducible repeat' first
    | intro _ | assumption | exact Carries.refl _ | apply carries_cond | apply carries_engineTemp
    | apply carries_setFld | apply carries_modLane | apply carries_raise | apply carries_laneDown
    | apply carries_mk (Nat.le_refl _) | dsimp only

theorem carries_laneRetrain {s : State} (e d l : Nat) (near far : Int) (u : State) (h : Carries s u) :
    Carries s (laneRetrain e d l near far u) := by
  unfold laneRetrain
  try dsimp only
  with_reducible repeat' first
    | intro _ | assumption | exact Carries.refl _ | apply carries_cond | apply carries_modLane | apply carries_setLane
    | apply carries_mk (Nat.le_refl _) | dsimp only

theorem carries_laneRise {s : State} (e d l : Nat) (berLow : Bool) (u : State) (h : Carries s u) :
    Carries s (laneRise e d l berLow u) := by
  unfold laneRise
  try dsimp only
  with_reducible repeat' first
    | intro _ | assumption | exact Carries.refl _ | apply carries_cond | apply carries_setLane | apply carries_setFld
    | apply carries_unitUp

theorem carries_biasStep {s : State} (e k : Nat) (power : Int) (u : State) (h : Carries s u) :
    Carries s (biasStep e k power u) := by
  unfold biasStep
  try dsimp only
  with_reducible repeat' first
    | intro _ | assumption | exact Carries.refl _ | apply carries_cond | apply carries_setFld
    | apply carries_modEngine | apply carries_mk (Nat.le_refl _) | dsimp only

theorem carries_noLaser {s : State} (e k : Nat) (u : State) (h : Carries s u) :
    Carries s (noLaser e k u) := by
  unfold noLaser
  try dsimp only
  with_reducible repeat' first
    | intro _ | assumption | exact Carries.refl _ | apply carries_raise | apply carries_setFld | apply carries_setLane
    | apply carries_foldl | dsimp only

theorem carries_showQueue {s : State} (e : Nat) (u : State) (h : Carries s u) :
    Carries s (showQueue e u) := by
  unfold showQueue
  try dsimp only
  with_reducible repeat' first
    | intro _ | assumption | exact Carries.refl _ | apply carries_setFld

theorem carries_declareFade {s : State} (e k : Nat) (dead : Bool) (u : State) (h : Carries s u) :
    Carries s (declareFade e k dead u) := by
  unfold declareFade
  try dsimp only
  with_reducible repeat' first
    | intro _ | assumption | exact Carries.refl _ | apply carries_cond | apply carries_raise | apply carries_modEngine
    | apply carries_noLaser | apply carries_showQueue | apply carries_setFld | apply carries_mk (Nat.le_refl _)
    | dsimp only

theorem carries_fadeDeclare {s : State} (e k : Nat) (r : LaserReading) (u : State) (h : Carries s u) :
    Carries s (fadeDeclare e k r u) := by
  unfold fadeDeclare
  try dsimp only
  with_reducible repeat' first
    | intro _ | assumption | exact Carries.refl _ | apply carries_cond | apply carries_setFld
    | apply carries_modEngine | apply carries_declareFade | apply carries_mk (Nat.le_refl _) | dsimp only

theorem carries_setStep {s : State} (e n : Nat) (u : State) (h : Carries s u) :
    Carries s (setStep e n u) := by
  unfold setStep
  try dsimp only
  with_reducible repeat' first
    | intro _ | assumption | exact Carries.refl _ | apply carries_cond | apply carries_setFld
    | apply carries_emergEnds

theorem carries_setSwap {s : State} (e : Nat) (w : Option Swap) (u : State) (h : Carries s u) :
    Carries s (setSwap e w u) := by
  unfold setSwap
  try dsimp only
  with_reducible repeat' first
    | intro _ | assumption | exact Carries.refl _ | apply carries_modEngine | apply carries_mk (Nat.le_refl _)
    | dsimp only

theorem carries_swapWarm {s : State} (e : Nat) (u : State) (h : Carries s u) :
    Carries s (swapWarm e u) := by
  unfold swapWarm
  try dsimp only
  with_reducible repeat' first
    | intro _ | assumption | exact Carries.refl _ | apply carries_cond | apply carries_cond_snd
    | apply carries_cond_fst | apply carries_showQueue | apply carries_setStep | apply carries_setFld
    | apply carries_modEngine | split | apply carries_mk (Nat.le_refl _) | dsimp only

theorem carries_swapLock {s : State} (e : Nat) (err : Int) (u : State) (h : Carries s u) :
    Carries s (swapLock e err u) := by
  unfold swapLock
  try dsimp only
  with_reducible repeat' first
    | intro _ | assumption | exact Carries.refl _ | apply carries_cond | apply carries_setStep | apply carries_setSwap
    | split | apply carries_mk (Nat.le_refl _) | dsimp only

theorem carries_moveLanes {s : State} (e k a b : Nat) (u : State) (h : Carries s u) :
    Carries s (moveLanes e k a b u) := by
  unfold moveLanes
  try dsimp only
  with_reducible repeat' first
    | intro _ | assumption | exact Carries.refl _ | apply carries_cond | apply carries_setLane | apply carries_foldl
    | dsimp only

theorem carries_swapQuiesce {s : State} (e : Nat) (u : State) (h : Carries s u) :
    Carries s (swapQuiesce e u) := by
  unfold swapQuiesce
  try dsimp only
  with_reducible repeat' first
    | intro _ | assumption | exact Carries.refl _ | apply carries_cond | apply carries_setStep
    | apply carries_moveLanes | split | dsimp only

theorem carries_swapSwitch {s : State} (e : Nat) (u : State) (h : Carries s u) :
    Carries s (swapSwitch e u) := by
  unfold swapSwitch
  try dsimp only
  with_reducible repeat' first
    | intro _ | assumption | exact Carries.refl _ | apply carries_cond | apply carries_setStep
    | apply carries_hostPortFail | apply carries_setFld | apply carries_modEngine | split
    | apply carries_mk (Nat.le_refl _) | dsimp only

theorem carries_swapResume {s : State} (e : Nat) (u : State) (h : Carries s u) :
    Carries s (swapResume e u) := by
  unfold swapResume
  try dsimp only
  with_reducible repeat' first
    | intro _ | assumption | exact Carries.refl _ | apply carries_cond | apply carries_setFld | apply carries_setLane
    | apply carries_bumpFld | apply carries_setStep | apply carries_setSwap | apply carries_raise
    | apply carries_foldl | split | dsimp only

theorem carries_swapAbandon {s : State} (e : Nat) (u : State) (h : Carries s u) :
    Carries s (swapAbandon e u) := by
  unfold swapAbandon
  try dsimp only
  with_reducible repeat' first
    | intro _ | assumption | exact Carries.refl _ | apply carries_cond | apply carries_raise | apply carries_setFld
    | apply carries_setStep | apply carries_setSwap | apply carries_noLaser | split | dsimp only

theorem carries_engineCoreStops {s : State} (e : Nat) (u : State) (h : Carries s u) :
    Carries s (engineCoreStops e u) := by
  unfold engineCoreStops
  try dsimp only
  with_reducible repeat' first
    | intro _ | assumption | exact Carries.refl _ | apply carries_cond | apply carries_setFld | apply carries_setStep
    | apply carries_moveLanes | apply carries_modEngine | split | apply carries_mk (Nat.le_refl _) | dsimp only

theorem carries_lasersDark {s : State} (e : Nat) (u : State) (h : Carries s u) :
    Carries s (lasersDark e u) := by
  unfold lasersDark
  try dsimp only
  with_reducible repeat' first
    | intro _ | assumption | exact Carries.refl _ | apply carries_cond | apply carries_setFld | apply carries_setStep
    | apply carries_setLane | apply carries_modEngine | apply carries_foldl | split | apply carries_mk (Nat.le_refl _)
    | dsimp only

theorem carries_calibrationDue {s : State} (e : Nat) (why : CalReason) (u : State) (h : Carries s u) :
    Carries s (calibrationDue e why u) := by
  unfold calibrationDue
  try dsimp only
  with_reducible repeat' first
    | intro _ | assumption | exact Carries.refl _ | apply carries_cond | apply carries_modEngine | split
    | apply carries_mk (Nat.le_refl _) | dsimp only

theorem carries_laneReturn {s : State} (e d l : Nat) (u : State) (h : Carries s u) :
    Carries s (laneReturn e d l u) := by
  unfold laneReturn
  try dsimp only
  with_reducible repeat' first
    | intro _ | assumption | exact Carries.refl _ | apply carries_cond | apply carries_setLane | apply carries_setUnit

theorem carries_calWindow {s : State} (e k : Nat) (u : State) (h : Carries s u) :
    Carries s (calWindow e k u) := by
  unfold calWindow
  try dsimp only
  with_reducible repeat' first
    | intro _ | assumption | exact Carries.refl _ | apply carries_cond | apply carries_modEngine
    | apply carries_moveLanes | apply carries_setLane | apply carries_laneReturn | apply carries_setFld
    | apply carries_foldl | split | apply carries_mk (Nat.le_refl _) | dsimp only

theorem carries_calNow {s : State} (e : Nat) (u : State) (h : Carries s u) :
    Carries s (calNow e u) := by
  unfold calNow
  try dsimp only
  with_reducible repeat' first
    | intro _ | assumption | exact Carries.refl _ | apply carries_cond | apply carries_modEngine
    | apply carries_mk (Nat.le_refl _) | dsimp only

theorem carries_parkEngine {s : State} (e : Nat) (on : Bool) (u : State) (h : Carries s u) :
    Carries s (parkEngine e on u) := by
  unfold parkEngine
  try dsimp only
  with_reducible repeat' first
    | intro _ | assumption | exact Carries.refl _ | apply carries_cond | apply carries_setLane | apply carries_emit
    | apply carries_modLane | apply carries_foldl | apply carries_mk (Nat.le_refl _) | dsimp only

theorem carries_optCtlWritten {s : State} (e old value : Nat) (u : State) (h : Carries s u) :
    Carries s (optCtlWritten e old value u) := by
  unfold optCtlWritten
  try dsimp only
  with_reducible repeat' first
    | intro _ | assumption | exact Carries.refl _ | apply carries_cond | apply carries_calNow | apply carries_setFld
    | apply carries_parkEngine

theorem carries_optSwapWritten {s : State} (e value : Nat) (u : State) (h : Carries s u) :
    Carries s (optSwapWritten e value u) := by
  unfold optSwapWritten
  try dsimp only
  with_reducible repeat' first
    | intro _ | assumption | exact Carries.refl _ | apply carries_cond | apply carries_declareFade
    | apply carries_laneReturn

theorem carries_fibreOpen {s : State} (e f : Nat) (u : State) (h : Carries s u) :
    Carries s (fibreOpen e f u) := by
  unfold fibreOpen
  try dsimp only
  with_reducible repeat' first
    | intro _ | assumption | exact Carries.refl _ | apply carries_cond | apply carries_laneDown
    | apply carries_modEngine | apply carries_foldl | apply carries_mk (Nat.le_refl _) | dsimp only

theorem carries_shutterProbe {s : State} (e f : Nat) (found : Bool) (u : State) (h : Carries s u) :
    Carries s (shutterProbe e f found u) := by
  unfold shutterProbe
  try dsimp only
  with_reducible repeat' first
    | intro _ | assumption | exact Carries.refl _ | apply carries_cond | apply carries_modEngine
    | apply carries_mk (Nat.le_refl _) | dsimp only

end Sys2Proof.Machine
end

