-- ==== Sys2Proof/Laws/KeepsPower.lean ====
section
/-! SUPPORT. What the operations of Machine/Power.lean keep. -/

namespace Sys2Proof.Machine

theorem carries_modSector {s : State} (k : Nat) (f : Sector → Sector) (u : State) (h : Carries s u) :
    Carries s (modSector k f u) := by
  unfold modSector
  try dsimp only
  with_reducible repeat' first
    | intro _ | assumption | exact Carries.refl _ | apply carries_mk (Nat.le_refl _)

theorem carries_workClock {s : State} (k : Nat) (u : State) (h : Carries s u) :
    Carries s (workClock k u) := by
  unfold workClock
  try dsimp only
  with_reducible repeat' first
    | intro _ | assumption | exact Carries.refl _ | apply carries_cond | apply carries_modSector
    | apply carries_setFld | apply carries_mk (Nat.le_refl _) | dsimp only

theorem carries_setLadder {s : State} (k step : Nat) (u : State) (h : Carries s u) :
    Carries s (setLadder k step u) := by
  unfold setLadder
  try dsimp only
  with_reducible repeat' first
    | intro _ | assumption | exact Carries.refl _ | apply carries_cond | apply carries_setFld
    | apply carries_emergEnds

theorem carries_cutTo {s : State} (k step : Nat) (u : State) (h : Carries s u) :
    Carries s (cutTo k step u) := by
  unfold cutTo
  try dsimp only
  with_reducible repeat' first
    | intro _ | assumption | exact Carries.refl _ | apply carries_setLadder | apply carries_bumpFld
    | apply carries_modSector | apply carries_mk (Nat.le_refl _) | dsimp only

theorem carries_cutCompute {s : State} (u : State) (h : Carries s u) :
    Carries s (cutCompute u) := by
  unfold cutCompute
  try dsimp only
  with_reducible repeat' first
    | intro _ | assumption | exact Carries.refl _ | apply carries_cutTo | apply carries_foldl | dsimp only

theorem carries_ladderStep {s : State} (k amps : Nat) (u : State) (h : Carries s u) :
    Carries s (ladderStep k amps u) := by
  unfold ladderStep
  try dsimp only
  with_reducible repeat' first
    | intro _ | assumption | exact Carries.refl _ | apply carries_cond | apply carries_setFld | apply carries_bumpFld
    | apply carries_setLadder | apply carries_modSector | apply carries_mk (Nat.le_refl _) | dsimp only

theorem carries_sectorTemp {s : State} (k : Nat) (temp : Int) (u : State) (h : Carries s u) :
    Carries s (sectorTemp k temp u) := by
  unfold sectorTemp
  try dsimp only
  with_reducible repeat' first
    | intro _ | assumption | exact Carries.refl _ | apply carries_cond | apply carries_cond_snd
    | apply carries_cond_fst | apply carries_setFld | apply carries_modSector | apply carries_emergEnds
    | apply carries_mk (Nat.le_refl _) | dsimp only

theorem carries_rateCutNow {s : State} (k : Nat) (u : State) (h : Carries s u) :
    Carries s (rateCutNow k u) := by
  unfold rateCutNow
  try dsimp only
  with_reducible repeat' first
    | intro _ | assumption | exact Carries.refl _ | apply carries_cutTo | apply carries_modSector
    | apply carries_mk (Nat.le_refl _) | dsimp only

theorem carries_tempSample {s : State} (k : Nat) (temp : Int) (u : State) (h : Carries s u) :
    Carries s (tempSample k temp u) := by
  unfold tempSample
  try dsimp only
  with_reducible repeat' first
    | intro _ | assumption | exact Carries.refl _ | apply carries_cond | apply carries_sectorTemp
    | apply carries_modSector | apply carries_setFld | apply carries_raise | apply carries_cutTo
    | apply carries_rateCutNow | split | apply carries_mk (Nat.le_refl _) | dsimp only

theorem carries_rateEvaluate {s : State} (k : Nat) (sensors : List Int) (u : State) (h : Carries s u) :
    Carries s (rateEvaluate k sensors u) := by
  unfold rateEvaluate
  try dsimp only
  with_reducible repeat' first
    | intro _ | assumption | exact Carries.refl _ | apply carries_tempSample

theorem carries_pwrBrake {s : State} (low : Bool) (u : State) (h : Carries s u) :
    Carries s (pwrBrake low u) := by
  unfold pwrBrake
  try dsimp only
  with_reducible repeat' first
    | intro _ | assumption | exact Carries.refl _ | apply carries_cond | apply carries_setFld
    | apply carries_cutCompute

theorem carries_converterFault {s : State} (active confirmed : Bool) (u : State) (h : Carries s u) :
    Carries s (converterFault active confirmed u) := by
  unfold converterFault
  try dsimp only
  with_reducible repeat' first
    | intro _ | assumption | exact Carries.refl _ | apply carries_cond | apply carries_setFld | apply carries_raise
    | apply carries_cutCompute | apply carries_emergEnds

theorem carries_regulatorFault {s : State} (k : Nat) (u : State) (h : Carries s u) :
    Carries s (regulatorFault k u) := by
  unfold regulatorFault
  try dsimp only
  with_reducible repeat' first
    | intro _ | assumption | exact Carries.refl _ | apply carries_fenceCause | apply carries_setFld
    | apply carries_modSector | apply carries_mk (Nat.le_refl _) | dsimp only

theorem carries_packagePower {s : State} (mw : Nat) (new : List (Option Nat)) (u : State) (h : Carries s u) :
    Carries s (packagePower mw new u) := by
  unfold packagePower
  try dsimp only
  with_reducible repeat' first
    | intro _ | assumption | exact Carries.refl _ | apply carries_cond | apply carries_setFld
    | apply carries_mk (Nat.le_refl _)

theorem carries_avsReadback {s : State} (amps : Nat) (u : State) (h : Carries s u) :
    Carries s (avsReadback amps u) := by
  unfold avsReadback
  try dsimp only
  with_reducible repeat' first
    | intro _ | assumption | exact Carries.refl _ | apply carries_cond | apply carries_mk (Nat.le_refl _)

theorem carries_setMinRefresh {s : State} (m r : Nat) (u : State) (h : Carries s u) :
    Carries s (setMinRefresh m r u) := by
  unfold setMinRefresh
  try dsimp only
  with_reducible repeat' first
    | intro _ | assumption | exact Carries.refl _ | apply carries_cond | apply carries_setFld
    | apply carries_mk (Nat.le_refl _)

theorem carries_applyOverlay {s : State} (k : Nat) (u : State) (h : Carries s u) :
    Carries s (applyOverlay k u) := by
  unfold applyOverlay
  try dsimp only
  with_reducible repeat' first
    | intro _ | assumption | exact Carries.refl _ | apply carries_cond | apply carries_cond_snd
    | apply carries_cond_fst | apply carries_modSector | apply carries_mk (Nat.le_refl _) | dsimp only

theorem carries_applyFeed {s : State} (u : State) (h : Carries s u) :
    Carries s (applyFeed u) := by
  unfold applyFeed
  try dsimp only
  with_reducible repeat' first
    | intro _ | assumption | exact Carries.refl _ | apply carries_cond | apply carries_setFld | split
    | apply carries_mk (Nat.le_refl _) | dsimp only

theorem carries_showPlan {s : State} (u : State) (h : Carries s u) :
    Carries s (showPlan u) := by
  unfold showPlan
  try dsimp only
  with_reducible repeat' first
    | intro _ | assumption | exact Carries.refl _ | apply carries_setFld | split | dsimp only

theorem carries_overlayInForce {s : State} (o : Option (List Byte)) (u : State) (h : Carries s u) :
    Carries s (overlayInForce o u) := by
  unfold overlayInForce
  try dsimp only
  with_reducible repeat' first
    | intro _ | assumption | exact Carries.refl _ | apply carries_applyOverlay | apply carries_setMinRefresh
    | apply carries_setFld | apply carries_showPlan | apply carries_applyFeed | apply carries_foldl | split
    | apply carries_mk (Nat.le_refl _) | dsimp only

theorem carries_planCompute {s : State} (entries : List PlanEntry) (refresh : List Nat) (vfeed : Int) (lasers : List (Nat × Nat)) (heaters : List Nat) (u : State) (h : Carries s u) :
    Carries s (planCompute entries refresh vfeed lasers heaters u) := by
  unfold planCompute
  try dsimp only
  with_reducible repeat' first
    | intro _ | assumption | exact Carries.refl _ | apply carries_cond | apply carries_cond_snd
    | apply carries_cond_fst | apply carries_setFld | apply carries_setMinRefresh | apply carries_raise
    | apply carries_showPlan | apply carries_bumpFld | apply carries_foldl | split | apply carries_mk (Nat.le_refl _)
    | dsimp only

theorem carries_planApply {s : State} (k : Nat) (u : State) (h : Carries s u) :
    Carries s (planApply k u) := by
  unfold planApply
  try dsimp only
  with_reducible repeat' first
    | intro _ | assumption | exact Carries.refl _ | apply carries_cond | apply carries_applyOverlay
    | apply carries_modSector | apply carries_raise | apply carries_showPlan | apply carries_applyFeed | split
    | apply carries_mk (Nat.le_refl _) | dsimp only

theorem carries_pathAlarm {s : State} (k slack : Nat) (u : State) (h : Carries s u) :
    Carries s (pathAlarm k slack u) := by
  unfold pathAlarm
  try dsimp only
  with_reducible repeat' first
    | intro _ | assumption | exact Carries.refl _ | apply carries_cond | apply carries_setFld
    | apply carries_modSector | apply carries_raise | apply carries_bumpFld | apply carries_mk (Nat.le_refl _)
    | dsimp only

end Sys2Proof.Machine
end

