-- ==== Sys2Proof/Laws/KeepsFirmware.lean ====
section
/-! SUPPORT. What the operations of Machine/Firmware.lean keep. -/

namespace Sys2Proof.Machine

theorem carries_extendMr {s : State} (n : Nat) (d : BitVec 384) (u : State) (h : Carries s u) :
    Carries s (extendMr n d u) := by
  unfold extendMr
  try dsimp only
  with_reducible repeat' first
    | intro _ | assumption | exact Carries.refl _ | apply carries_bump | apply carries_mk (Nat.le_refl _)

theorem carries_forceRefresh {s : State} (m : Nat) (u : State) (h : Carries s u) :
    Carries s (forceRefresh m u) := by
  unfold forceRefresh
  try dsimp only
  with_reducible repeat' first
    | intro _ | assumption | exact Carries.refl _ | apply carries_setFld

theorem carries_bandRefresh {s : State} (m : Nat) (u : State) (h : Carries s u) :
    Carries s (bandRefresh m u) := by
  unfold bandRefresh
  try dsimp only
  with_reducible repeat' first
    | intro _ | assumption | exact Carries.refl _ | apply carries_setFld

theorem carries_busyAll {s : State} (u : State) (h : Carries s u) :
    Carries s (busyAll u) := by
  unfold busyAll
  try dsimp only
  with_reducible repeat' first
    | intro _ | assumption | exact Carries.refl _ | apply carries_emit | apply carries_foldl
    | apply carries_mk (Nat.le_refl _) | dsimp only

theorem carries_processorHolds {s : State} (i : Nat) (u : State) (h : Carries s u) :
    Carries s (processorHolds i u) := by
  unfold processorHolds
  try dsimp only
  with_reducible repeat' first
    | intro _ | assumption | exact Carries.refl _ | apply carries_cond | apply carries_pauseLeases
    | apply carries_busyAll | apply carries_abortStaging | apply carries_engineCoreStops | apply carries_forceRefresh

theorem carries_beginRestart {s : State} (i : Nat) (u : State) (h : Carries s u) :
    Carries s (beginRestart i u) := by
  unfold beginRestart
  try dsimp only
  with_reducible repeat' first
    | intro _ | assumption | exact Carries.refl _ | apply carries_bumpFld | apply carries_setFld
    | apply carries_processorHolds | apply carries_mk (Nat.le_refl _)

theorem carries_procRestart {s : State} (i : Nat) (u : State) (h : Carries s u) :
    Carries s (procRestart i u) := by
  unfold procRestart
  try dsimp only
  with_reducible repeat' first
    | intro _ | assumption | exact Carries.refl _ | apply carries_cond | apply carries_beginRestart

theorem carries_procUnfence {s : State} (i : Nat) (u : State) (h : Carries s u) :
    Carries s (procUnfence i u) := by
  unfold procUnfence
  try dsimp only
  with_reducible repeat' first
    | intro _ | assumption | exact Carries.refl _ | apply carries_cond | apply carries_beginRestart
    | apply carries_setUnit | apply carries_mk (Nat.le_refl _)

theorem carries_fwpCtlWritten {s : State} (v : Nat) (u : State) (h : Carries s u) :
    Carries s (fwpCtlWritten v u) := by
  unfold fwpCtlWritten
  try dsimp only
  with_reducible repeat' first
    | intro _ | assumption | exact Carries.refl _ | apply carries_cond | apply carries_procRestart
    | apply carries_procUnfence

theorem carries_engineCoreBack {s : State} (e : Nat) (u : State) (h : Carries s u) :
    Carries s (engineCoreBack e u) := by
  unfold engineCoreBack
  try dsimp only
  with_reducible repeat' first
    | intro _ | assumption | exact Carries.refl _ | apply carries_declareFade | apply carries_modEngine
    | apply carries_foldl | apply carries_mk (Nat.le_refl _) | dsimp only

theorem carries_resumeLeases {s : State} (u : State) (h : Carries s u) :
    Carries s (resumeLeases u) := by
  unfold resumeLeases
  try dsimp only
  with_reducible repeat' first
    | intro _ | assumption | exact Carries.refl _ | apply carries_cond | apply carries_cond_snd
    | apply carries_cond_fst | apply carries_mk (Nat.le_refl _) | dsimp only

theorem carries_processorBack {s : State} (i : Nat) (u : State) (h : Carries s u) :
    Carries s (processorBack i u) := by
  unfold processorBack
  try dsimp only
  with_reducible repeat' first
    | intro _ | assumption | exact Carries.refl _ | apply carries_cond | apply carries_setFld | apply carries_unitUp
    | apply carries_resumeLeases | apply carries_engineCoreBack | apply carries_bandRefresh
    | apply carries_mk (Nat.le_refl _)

theorem carries_restartDone {s : State} (i : Nat) (u : State) (h : Carries s u) :
    Carries s (restartDone i u) := by
  unfold restartDone
  try dsimp only
  with_reducible repeat' first
    | intro _ | assumption | exact Carries.refl _ | apply carries_cond | apply carries_causeProcessor
    | apply carries_processorBack

theorem carries_stewardFailover {s : State} (i : Nat) (u : State) (h : Carries s u) :
    Carries s (stewardFailover i u) := by
  unfold stewardFailover
  try dsimp only
  with_reducible repeat' first
    | intro _ | assumption | exact Carries.refl _ | apply carries_cond | apply carries_foldl | split
    | apply carries_mk (Nat.le_refl _) | dsimp only

end Sys2Proof.Machine
end

