-- ==== Sys2Proof/Laws/KeepsReset.lean ====
section
/-! SUPPORT. What the operations of Machine/Reset.lean keep. -/

namespace Sys2Proof.Machine

theorem carries_writeRecord {s : State} (r : BootRec) (u : State) (h : Carries s u) :
    Carries s (writeRecord r u) := by
  unfold writeRecord
  try dsimp only
  with_reducible repeat' first
    | intro _ | assumption | exact Carries.refl _ | apply carries_cond | apply carries_cond_snd
    | apply carries_cond_fst | apply carries_mk (Nat.le_refl _)

theorem carries_setBank {s : State} (b : Bool) (x : Bank) (u : State) (h : Carries s u) :
    Carries s (setBank b x u) := by
  unfold setBank
  try dsimp only
  with_reducible repeat' first
    | intro _ | assumption | exact Carries.refl _ | apply carries_cond | apply carries_mk (Nat.le_refl _)

theorem carries_showAtt {s : State} (u : State) (h : Carries s u) :
    Carries s (showAtt u) := by
  unfold showAtt
  try dsimp only
  with_reducible repeat' first
    | intro _ | assumption | exact Carries.refl _ | apply carries_cond | apply carries_setFld | dsimp only

theorem carries_cutShort {s : State} (u : State) (h : Carries s u) : Carries s (cutShort u) := by
  unfold cutShort
  split
  · exact ⟨⟨h.pending, h.out, Nat.le_trans h.free (Nat.le_trans (Nat.le_succ _) (Nat.le_succ _)), h.mem,
      Otp.le_trans h.otp ⟨Nat.le_add_right .., slotsLe_revokeSlots .., slotsLe_refl _⟩⟩, h.time, h.trip⟩
  · exact h

/-- A reset keeps the queue, what has been sent, flash, OTP and the trip latch, and empties memory (R543). -/
theorem carries_resetBlock {s : State} (cause : Option ResetCause) (u : State) (h : Carries s u) :
    Carries s (resetBlock cause u) := by
  have g := carries_cutShort u h
  refine carries_showAtt _ ?_
  exact ⟨⟨g.pending, g.out, g.free, fun _ => rfl, g.otp⟩, g.time, g.trip⟩

/-- The start event keeps all but part time, which starts at zero (R40). -/
theorem keeps_startEvent {s u : State} (h : Keeps s u) : Keeps s (startEvent u) :=
  ⟨h.pending, h.out, h.free, h.mem, h.otp⟩

theorem keeps_powerOn {s u : State} (h : Keeps s u) : Keeps s (powerOn u) := by
  unfold powerOn
  have g := fun c => h.trans (carries_resetBlock c u (Carries.refl u)).toKeeps
  cases u.rstLow
  · exact keeps_startEvent (g _)
  · exact g _

theorem carries_boardReset {s : State} (u : State) (h : Carries s u) :
    Carries s (boardReset u) := by
  unfold boardReset
  try dsimp only
  with_reducible repeat' first
    | intro _ | assumption | exact Carries.refl _ | apply carries_resetBlock | split
    | apply carries_mk (Nat.le_refl _) | dsimp only

theorem carries_internalReset {s : State} (cause : Nat) (u : State) (h : Carries s u) :
    Carries s (internalReset cause u) := by
  unfold internalReset
  try dsimp only
  with_reducible repeat' first
    | intro _ | assumption | exact Carries.refl _ | apply carries_cond | apply carries_resetBlock

theorem keeps_resetRelease {s u : State} (h : Keeps s u) : Keeps s (resetRelease u) := by
  unfold resetRelease
  split
  · exact ⟨h.pending, h.out, h.free, h.mem, h.otp⟩
  · cases Nat.ble (u.resetAt + 1000000) u.time
    · exact h
    · cases u.rstLow
      · exact keeps_startEvent h
      · exact h
  · exact ⟨h.pending, h.out, h.free, h.mem, h.otp⟩

theorem carries_refclkLoss {s : State} (u : State) (h : Carries s u) :
    Carries s (refclkLoss u) := by
  unfold refclkLoss
  try dsimp only
  with_reducible repeat' first
    | intro _ | assumption | exact Carries.refl _ | apply carries_cond | apply carries_mk (Nat.le_refl _)

theorem carries_holdoverExpire {s : State} (u : State) (h : Carries s u) :
    Carries s (holdoverExpire u) := by
  unfold holdoverExpire
  try dsimp only
  with_reducible repeat' first
    | intro _ | assumption | exact Carries.refl _ | apply carries_cond | apply carries_internalReset | split
    | apply carries_mk (Nat.le_refl _) | dsimp only

theorem keeps_refclkReturn {s u : State} (h : Keeps s u) : Keeps s (refclkReturn u) := by
  unfold refclkReturn
  dsimp only
  split <;> exact ⟨h.pending, h.out, h.free, h.mem, h.otp⟩

theorem carries_thermalTrip {s : State} (sensor : Nat) (temp : Int) (u : State) (h : Carries s u) :
    Carries s (thermalTrip sensor temp u) := by
  unfold thermalTrip
  refine carries_cond h (carries_modSector _ _ _ ?_)
  exact ⟨⟨h.pending, h.out, h.free, fun _ => rfl, h.otp⟩, h.time, fun _ => rfl⟩

theorem keeps_vfeedRestore {s u : State} (n : Nat) (h : Keeps s u) : Keeps s (vfeedRestore n u) := by
  unfold vfeedRestore
  cases Nat.ble 100000000 n
  · exact h
  · refine keeps_startEvent (Keeps.trans ?_ (carries_resetBlock none _ (Carries.refl _)).toKeeps)
    exact ⟨h.pending, h.out, h.free, h.mem, h.otp⟩

end Sys2Proof.Machine
end

