-- ==== Sys2Proof/Laws/KeepsBoot.lean ====
section
/-! SUPPORT. What the operations of Machine/Boot.lean keep. -/

namespace Sys2Proof.Machine

theorem carries_raiseCount {s : State} (u : State) (h : Carries s u) :
    Carries s (raiseCount u) := by
  unfold raiseCount
  try dsimp only
  with_reducible repeat' first
    | intro _ | assumption | exact Carries.refl _ | apply carries_writeRecord | apply carries_mk (Nat.le_refl _)

theorem carries_trialChoice {s : State} (u : State) (h : Carries s u) :
    Carries s (trialChoice u) := by
  unfold trialChoice
  try dsimp only
  with_reducible repeat' first
    | intro _ | assumption | exact Carries.refl _ | apply carries_cond | apply carries_setFld
    | apply carries_writeRecord | apply carries_mk (Nat.le_refl _)

theorem carries_enterRecovery {s : State} (u : State) (h : Carries s u) :
    Carries s (enterRecovery u) := by
  unfold enterRecovery
  try dsimp only
  with_reducible repeat' first
    | intro _ | assumption | exact Carries.refl _ | apply carries_showAtt | apply carries_raiseCount
    | apply carries_mk (Nat.le_refl _)

theorem carries_bootStart {s : State} (straps : Nat) (u : State) (h : Carries s u) :
    Carries s (bootStart straps u) := by
  unfold bootStart
  try dsimp only
  with_reducible repeat' first
    | intro _ | assumption | exact Carries.refl _ | apply carries_cond | apply carries_setRaw | apply carries_setFld
    | apply carries_trialChoice | apply carries_extendMr | apply carries_enterRecovery | apply carries_showAtt
    | apply carries_foldl | apply carries_mk (Nat.le_refl _) | dsimp only

theorem carries_fallBack {s : State} {u t : State} (e : fallBack u = some t) (h : Carries s u) : Carries s t := by
  unfold fallBack at e
  simp only [Bool.cond_eq_ite] at e
  split at e
  · cases e
    exact h
  · split at e
    · cases e
      exact carries_raise _ _ _ _ _ _ (carries_setFld _ _ _ _ _ _ _ (carries_writeRecord _ _ (carries_mk (Nat.le_refl _) h)))
    · cases e

theorem carries_setRoles {s : State} (roles : Nat) (u : State) (h : Carries s u) :
    Carries s (setRoles roles u) := by
  unfold setRoles
  try dsimp only
  with_reducible repeat' first
    | intro _ | assumption | exact Carries.refl _ | apply carries_cond | apply carries_setFld | apply carries_foldl
    | dsimp only

theorem carries_linkRoles {s : State} (body : Option (List Byte)) (u : State) (l : Nat) (h : Carries s u) :
    Carries s (linkRoles body u l) := by
  unfold linkRoles
  try dsimp only
  with_reducible repeat' first
    | intro _ | assumption | exact Carries.refl _ | apply carries_cond | apply carries_cond_snd
    | apply carries_cond_fst | apply carries_setFld | apply carries_foldl | split | dsimp only

theorem carries_moduleRoles {s : State} (body : Option (List Byte)) (u : State) (h : Carries s u) :
    Carries s (moduleRoles body u) := by
  unfold moduleRoles
  try dsimp only
  with_reducible repeat' first
    | intro _ | assumption | exact Carries.refl _ | apply carries_linkRoles | apply carries_foldl

theorem carries_useBootCfg {s : State} (u : State) (h : Carries s u) :
    Carries s (useBootCfg u) := by
  unfold useBootCfg
  try dsimp only
  with_reducible repeat' first
    | intro _ | assumption | exact Carries.refl _ | apply carries_cond | apply carries_setFld | apply carries_raise
    | apply carries_setRoles | apply carries_extendMr | apply carries_moduleRoles | split
    | apply carries_mk (Nat.le_refl _) | dsimp only

theorem carries_useFabMap {s : State} (u : State) (h : Carries s u) :
    Carries s (useFabMap u) := by
  unfold useFabMap
  try dsimp only
  with_reducible repeat' first
    | intro _ | assumption | exact Carries.refl _ | apply carries_cond | apply carries_extendMr | apply carries_raise
    | split | apply carries_mk (Nat.le_refl _) | dsimp only

theorem carries_showCheck {s : State} (c : Nat × Nat) (u : State) (h : Carries s u) :
    Carries s (showCheck c u) := by
  unfold showCheck
  try dsimp only
  with_reducible repeat' first
    | intro _ | assumption | exact Carries.refl _ | apply carries_setFld

theorem carries_bootOverlay {s : State} (u : State) (h : Carries s u) :
    Carries s (bootOverlay u) := by
  unfold bootOverlay
  try dsimp only
  with_reducible repeat' first
    | intro _ | assumption | exact Carries.refl _ | apply carries_extendMr | apply carries_overlayInForce
    | apply carries_raise | apply carries_showCheck | split | dsimp only

theorem carries_useImages {s : State} (b : Bank) (u : State) (h : Carries s u) :
    Carries s (useImages b u) := by
  unfold useImages
  try dsimp only
  with_reducible repeat' first
    | intro _ | assumption | exact Carries.refl _ | apply carries_extendMr | apply carries_useBootCfg
    | apply carries_bootOverlay | apply carries_useFabMap | apply carries_setRaw | apply carries_setFld | split
    | apply carries_mk (Nat.le_refl _) | dsimp only

theorem carries_startProc {s : State} (i : Nat) (u : State) (h : Carries s u) :
    Carries s (startProc i u) := by
  unfold startProc
  try dsimp only
  with_reducible repeat' first
    | intro _ | assumption | exact Carries.refl _ | apply carries_setFld | split | dsimp only

theorem carries_bootImages {s : State} (u : State) (h : Carries s u) :
    Carries s (bootImages u) := by
  unfold bootImages
  try dsimp only
  with_reducible repeat' first
    | intro _ | assumption | exact Carries.refl _ | apply carries_cond | apply carries_fallBack (e := by assumption)
    | apply carries_enterRecovery | apply carries_useImages | apply carries_raiseCount | apply carries_showAtt
    | apply carries_startProc | apply carries_foldl | split | apply carries_mk (Nat.le_refl _) | dsimp only

theorem carries_keysReadyNow {s : State} (u : State) (h : Carries s u) :
    Carries s (keysReadyNow u) := by
  unfold keysReadyNow
  try dsimp only
  with_reducible repeat' first
    | intro _ | assumption | exact Carries.refl _ | apply carries_cond | split | apply carries_mk (Nat.le_refl _)
    | dsimp only

theorem carries_trialTimeout {s : State} (u : State) (h : Carries s u) :
    Carries s (trialTimeout u) := by
  unfold trialTimeout
  try dsimp only
  with_reducible repeat' first
    | intro _ | assumption | exact Carries.refl _ | apply carries_cond | apply carries_setFld | apply carries_showAtt
    | apply carries_writeRecord | apply carries_internalReset | split | apply carries_mk (Nat.le_refl _) | dsimp only

end Sys2Proof.Machine
end

