-- ==== Sys2Proof/Laws/KeepsUpdate.lean ====
section
/-! SUPPORT. What the operations of Machine/Update.lean keep. -/

namespace Sys2Proof.Machine

theorem carries_setResult {s : State} (n : Nat) (u : State) (h : Carries s u) :
    Carries s (setResult n u) := by
  unfold setResult
  try dsimp only
  with_reducible repeat' first
    | intro _ | assumption | exact Carries.refl _ | apply carries_setFld

theorem carries_setBusy {s : State} (b : Bool) (u : State) (h : Carries s u) :
    Carries s (setBusy b u) := by
  unfold setBusy
  try dsimp only
  with_reducible repeat' first
    | intro _ | assumption | exact Carries.refl _ | apply carries_setFld

theorem carries_setDefer {s : State} (b : Bool) (u : State) (h : Carries s u) :
    Carries s (setDefer b u) := by
  unfold setDefer
  try dsimp only
  with_reducible repeat' first
    | intro _ | assumption | exact Carries.refl _ | apply carries_setFld

theorem carries_setProgress {s : State} (n : Nat) (u : State) (h : Carries s u) :
    Carries s (setProgress n u) := by
  unfold setProgress
  try dsimp only
  with_reducible repeat' first
    | intro _ | assumption | exact Carries.refl _ | apply carries_setFld

theorem carries_ignored {s : State} (u : State) (h : Carries s u) :
    Carries s (ignored u) := by
  unfold ignored
  try dsimp only
  with_reducible repeat' first
    | intro _ | assumption | exact Carries.refl _ | apply carries_setFld

theorem carries_failUpdate {s : State} (result failId : Nat) (u : State) (h : Carries s u) :
    Carries s (failUpdate result failId u) := by
  unfold failUpdate
  try dsimp only
  with_reducible repeat' first
    | intro _ | assumption | exact Carries.refl _ | apply carries_setResult | apply carries_setFld

theorem carries_setCopy {s : State} (id : Nat) (one : Bool) (b : Bank) (u : State) (h : Carries s u) :
    Carries s (setCopy id one b u) := by
  unfold setCopy
  try dsimp only
  with_reducible repeat' first
    | intro _ | assumption | exact Carries.refl _ | apply carries_cond | apply carries_mk (Nat.le_refl _)

theorem carries_setTarget {s : State} (images : List (Nat × Image)) (st : BankState) (u : State) (h : Carries s u) :
    Carries s (setTarget images st u) := by
  unfold setTarget
  try dsimp only
  with_reducible repeat' first
    | intro _ | assumption | exact Carries.refl _ | apply carries_setCopy | apply carries_setBank | split | dsimp only

theorem carries_stageBytes {s : State} (bs : List Byte) (u : State) (h : Carries s u) :
    Carries s (stageBytes bs u) := by
  unfold stageBytes
  try dsimp only
  with_reducible repeat' first
    | intro _ | assumption | exact Carries.refl _ | apply carries_cond | apply carries_cond_snd
    | apply carries_cond_fst | apply carries_failUpdate | apply carries_showAtt | apply carries_setProgress
    | apply carries_setBusy | apply carries_setTarget | apply carries_stage | split | apply carries_mk (Nat.le_refl _)
    | dsimp only

theorem carries_stage {s : State} (mctp : Option (List Byte)) (u : State) (h : Carries s u) :
    Carries s (stage mctp u) := by
  unfold stage
  try dsimp only
  with_reducible repeat' first
    | intro _ | assumption | exact Carries.refl _ | apply carries_cond | apply carries_failUpdate
    | apply carries_stageBytes | apply carries_ignored | apply carries_spaceSeen | split | dsimp only

theorem carries_stageComplete {s : State} (flashOk : Bool) (u : State) (h : Carries s u) :
    Carries s (stageComplete flashOk u) := by
  unfold stageComplete
  try dsimp only
  with_reducible repeat' first
    | intro _ | assumption | exact Carries.refl _ | apply carries_cond | apply carries_stage | apply carries_showAtt
    | apply carries_setProgress | apply carries_endUpdate | apply carries_setTarget | split | dsimp only

theorem carries_nextLive {s : State} (u : State) (l : List Nat) (h : Carries s u) : Carries s (nextLive u l) := by
  induction l with
  | nil =>
    have h1 : ∀ v, Carries s v → Carries s (raise 0xD004 3 none 0 0 (showAtt (setProgress 100 (endUpdate 8 v)))) := fun v hv =>
      carries_raise _ _ _ _ _ _ (carries_showAtt _ (carries_setProgress _ _ (carries_endUpdate _ _ hv)))
    have h2 : ∀ r b, Carries s (writeRecord r { u with bootB := b }) := fun r b =>
      carries_writeRecord _ _ (carries_mk (Nat.le_refl _) h)
    refine h1 _ ?_
    split
    · exact carries_setRaw _ _ _ _ _ (carries_setFld _ _ _ _ _ _ _ (h2 _ _))
    · exact h2 _ _
  | cons i l ih =>
    exact carries_cond (carries_beginRestart _ _ (carries_setProgress _ _ (carries_setFld _ _ _ _ _ _ _
      (carries_mk (Nat.le_refl _) h)))) ih

theorem carries_activateReset {s : State} (u : State) (h : Carries s u) :
    Carries s (activateReset u) := by
  unfold activateReset
  try dsimp only
  with_reducible repeat' first
    | intro _ | assumption | exact Carries.refl _ | apply carries_internalReset | apply carries_writeRecord
    | apply carries_mk (Nat.le_refl _)

theorem carries_startRequest {s : State} (d : Deferred) (u : State) (h : Carries s u) :
    Carries s (startRequest d u) := by
  unfold startRequest
  try dsimp only
  with_reducible repeat' first
    | intro _ | assumption | exact Carries.refl _ | apply carries_cond | apply carries_setDefer
    | apply carries_nextLive | apply carries_setBusy | apply carries_failUpdate | apply carries_activateReset | split
    | apply carries_mk (Nat.le_refl _) | dsimp only

theorem carries_request {s : State} (d : Deferred) (u : State) (h : Carries s u) :
    Carries s (request d u) := by
  unfold request
  try dsimp only
  with_reducible repeat' first
    | intro _ | assumption | exact Carries.refl _ | apply carries_cond | apply carries_ignored
    | apply carries_startRequest | apply carries_raise | apply carries_setDefer | apply carries_mk (Nat.le_refl _)

theorem carries_holdoffEnd {s : State} (u : State) (h : Carries s u) :
    Carries s (holdoffEnd u) := by
  unfold holdoffEnd
  try dsimp only
  with_reducible repeat' first
    | intro _ | assumption | exact Carries.refl _ | apply carries_cond | apply carries_startRequest
    | apply carries_nextLive | apply carries_setDefer | split | dsimp only

theorem carries_installImage {s : State} (i : Nat) (x : Image) (u : State) (h : Carries s u) :
    Carries s (installImage i x u) := by
  unfold installImage
  try dsimp only
  with_reducible repeat' first
    | intro _ | assumption | exact Carries.refl _ | apply carries_cond | apply carries_extendMr
    | apply carries_processorBack | apply carries_setFld | apply carries_mk (Nat.le_refl _) | dsimp only

theorem carries_liveGoesOn {s : State} (l : List Nat) (stop : Bool) (u : State) (h : Carries s u) :
    Carries s (liveGoesOn l stop u) := by
  unfold liveGoesOn
  try dsimp only
  with_reducible repeat' first
    | intro _ | assumption | exact Carries.refl _ | apply carries_cond | apply carries_endUpdate
    | apply carries_nextLive | apply carries_setDefer | apply carries_mk (Nat.le_refl _)

theorem carries_liveStep {s : State} (ok : Bool) (u : State) (h : Carries s u) :
    Carries s (liveStep ok u) := by
  unfold liveStep
  try dsimp only
  with_reducible repeat' first
    | intro _ | assumption | exact Carries.refl _ | apply carries_cond | apply carries_causeProcessor
    | apply carries_liveGoesOn | apply carries_installImage | apply carries_beginRestart | split | dsimp only

theorem carries_restartEnds {s : State} (i : Nat) (u : State) (h : Carries s u) :
    Carries s (restartEnds i u) := by
  unfold restartEnds
  try dsimp only
  with_reducible repeat' first
    | intro _ | assumption | exact Carries.refl _ | apply carries_cond | apply carries_restartDone
    | apply carries_holdoffEnd | apply carries_setDefer | split | dsimp only

theorem carries_commitComplete {s : State} (u : State) (h : Carries s u) : Carries s (commitComplete u) := by
  unfold commitComplete
  split
  · refine carries_showAtt _ (carries_setBusy _ _ ?_)
    exact ⟨⟨h.pending, h.out, h.free, h.mem,
      Otp.le_trans h.otp ⟨Nat.le_max_left .., slotsLe_revokeSlots .., slotsLe_refl _⟩⟩, h.time, h.trip⟩
  · exact h

theorem carries_abortUpdate {s : State} (u : State) (h : Carries s u) :
    Carries s (abortUpdate u) := by
  unfold abortUpdate
  try dsimp only
  with_reducible repeat' first
    | intro _ | assumption | exact Carries.refl _ | apply carries_cond | apply carries_setResult
    | apply carries_setDefer | apply carries_endUpdate | split | apply carries_mk (Nat.le_refl _) | dsimp only

theorem carries_updCtlWritten {s : State} (v : Nat) (mctp : Option (List Byte)) (u : State) (h : Carries s u) :
    Carries s (updCtlWritten v mctp u) := by
  unfold updCtlWritten
  try dsimp only
  with_reducible repeat' first
    | intro _ | assumption | exact Carries.refl _ | apply carries_cond | apply carries_ignored | apply carries_stage
    | apply carries_request | apply carries_abortUpdate

theorem carries_attExtend {s : State} (locked : Bool) (u : State) (h : Carries s u) :
    Carries s (attExtend locked u) := by
  unfold attExtend
  try dsimp only
  with_reducible repeat' first
    | intro _ | assumption | exact Carries.refl _ | apply carries_cond | apply carries_extendMr

theorem carries_setOwner {s : State} (k : KeySlot) (result : Nat) (u : State) (hk : (ownerSlot u).le k) (h : Carries s u) :
    Carries s (setOwner k result u) := by
  refine carries_showAtt _ (carries_setFld _ _ _ _ _ _ _ ?_)
  refine ⟨⟨h.pending, h.out, h.free, h.mem, Otp.le_trans h.otp ⟨Nat.le_refl _, slotsLe_refl _, ?_⟩⟩, h.time, h.trip⟩
  refine slotsLe_listMod _ _ _ fun x hx => ?_
  simpa [ownerSlot, hx] using hk

theorem carries_ownerEnrol {s : State} (u : State) (h : Carries s u) : Carries s (ownerEnrol u) := by
  unfold ownerEnrol
  refine carries_cond (carries_setOwner _ _ _ (KeySlot.le_refl _) h) ?_
  cases hk : (ownerSlot u).key with
  | some k => exact carries_setOwner _ _ _ (KeySlot.le_refl _) h
  | none => exact carries_setOwner _ _ _ ⟨id, fun e => by simp [hk] at e⟩ h

theorem carries_ownerRevoke {s : State} (u : State) (h : Carries s u) : Carries s (ownerRevoke u) := by
  have h1 := carries_setOwner { ownerSlot u with revoked := true } 0 u ⟨fun _ => rfl, fun _ => rfl⟩ h
  have h2 := fun n => carries_setOwner (ownerSlot u) n u (KeySlot.le_refl _) h
  unfold ownerRevoke
  with_reducible repeat' first
    | apply h1 | apply h2 | apply carries_cond

theorem carries_ownCtlWritten {s : State} (v : Nat) (u : State) (h : Carries s u) :
    Carries s (ownCtlWritten v u) := by
  unfold ownCtlWritten
  try dsimp only
  with_reducible repeat' first
    | intro _ | assumption | exact Carries.refl _ | apply carries_cond | apply carries_ownerEnrol
    | apply carries_ownerRevoke

end Sys2Proof.Machine
end

