-- ==== Sys2Proof/Laws/KeepsSpdm.lean ====
section
/-! SUPPORT. What the operations of Machine/Spdm.lean keep. -/

namespace Sys2Proof.Machine

theorem carries_spdmSend {s : State} (src : SpdmFrom) (b : SpdmBody) (u : State) (h : Carries s u) :
    Carries s (spdmSend src b u) := by
  unfold spdmSend
  try dsimp only
  with_reducible repeat' first
    | intro _ | assumption | exact Carries.refl _ | apply carries_emit

theorem carries_spdmBasic {s : State} (src : SpdmFrom) (b : SpdmBody) (u : State) (h : Carries s u) :
    Carries s (spdmBasic src b u) := by
  unfold spdmBasic
  try dsimp only
  with_reducible repeat' first
    | intro _ | assumption | exact Carries.refl _ | apply carries_cond | apply carries_spdmSend

theorem carries_spdmPlain {s : State} (src : SpdmFrom) (b : SpdmBody) (u : State) (h : Carries s u) :
    Carries s (spdmPlain src b u) := by
  unfold spdmPlain
  try dsimp only
  with_reducible repeat' first
    | intro _ | assumption | exact Carries.refl _ | apply carries_cond | apply carries_spdmSend

theorem carries_spdmSigned {s : State} (src : SpdmFrom) (b : SpdmBody) (u : State) (h : Carries s u) :
    Carries s (spdmSigned src b u) := by
  unfold spdmSigned
  try dsimp only
  with_reducible repeat' first
    | intro _ | assumption | exact Carries.refl _ | apply carries_cond | apply carries_spdmSend
    | apply carries_mk (Nat.le_refl _)

theorem carries_challenge {s : State} (src : SpdmFrom) (slot : Nat) (nonce : List Byte) (u : State) (h : Carries s u) :
    Carries s (challenge src slot nonce u) := by
  unfold challenge
  try dsimp only
  with_reducible repeat' first
    | intro _ | assumption | exact Carries.refl _ | apply carries_spdmSigned | apply carries_spdmPlain | split
    | dsimp only

theorem carries_getMeasurements {s : State} (src : SpdmFrom) (index : Nat) (signed : Bool) (nonce : List Byte) (u : State) (h : Carries s u) :
    Carries s (getMeasurements src index signed nonce u) := by
  unfold getMeasurements
  try dsimp only
  with_reducible repeat' first
    | intro _ | assumption | exact Carries.refl _ | apply carries_cond | apply carries_spdmSigned
    | apply carries_spdmPlain | dsimp only

theorem carries_signComplete {s : State} (u : State) (h : Carries s u) : Carries s (signComplete u) := by
  unfold signComplete
  split
  · exact carries_emit _ _ (carries_mk (Nat.le_refl _) (carries_takeFree _ h))
  · exact h

theorem carries_tcpConnect {s : State} (port : Nat) (u : State) (h : Carries s u) :
    Carries s (tcpConnect port u) := by
  unfold tcpConnect
  try dsimp only
  with_reducible repeat' first
    | intro _ | assumption | exact Carries.refl _ | apply carries_cond | apply carries_emit
    | apply carries_mk (Nat.le_refl _)

end Sys2Proof.Machine
end

