-- ==== Sys2Proof/Laws/KeepsStartUp.lean ====
section
/-! SUPPORT. What the operations of Machine/StartUp.lean keep. -/

namespace Sys2Proof.Machine

theorem carries_pllLocked {s : State} (u : State) (h : Carries s u) :
    Carries s (pllLocked u) := by
  unfold pllLocked
  try dsimp only
  with_reducible repeat' first
    | intro _ | assumption | exact Carries.refl _ | apply carries_cond | apply carries_setFld
    | apply carries_modSector | apply carries_foldl | apply carries_mk (Nat.le_refl _) | dsimp only

theorem carries_regulatorsUp {s : State} (u : State) (h : Carries s u) :
    Carries s (regulatorsUp u) := by
  unfold regulatorsUp
  try dsimp only
  with_reducible repeat' first
    | intro _ | assumption | exact Carries.refl _ | apply carries_cond | apply carries_mk (Nat.le_refl _)

theorem carries_readTray {s : State} (r : IdRecord) (u : State) (h : Carries s u) :
    Carries s (readTray r u) := by
  unfold readTray
  try dsimp only
  with_reducible repeat' first
    | intro _ | assumption | exact Carries.refl _ | apply carries_cond | apply carries_setFld | apply carries_raise
    | split | dsimp only

theorem carries_readStratus {s : State} (m : Nat) (r : IdRecord) (u : State) (h : Carries s u) :
    Carries s (readStratus m r u) := by
  unfold readStratus
  try dsimp only
  with_reducible repeat' first
    | intro _ | assumption | exact Carries.refl _ | apply carries_cond | apply carries_setFld | apply carries_raise
    | split | dsimp only

theorem carries_lanesUnused {s : State} (e : Nat) (u : State) (h : Carries s u) :
    Carries s (lanesUnused e u) := by
  unfold lanesUnused
  try dsimp only
  with_reducible repeat' first
    | intro _ | assumption | exact Carries.refl _ | apply carries_setLane | apply carries_foldl | dsimp only

theorem carries_readSpares {s : State} (e : Nat) (bs : List Byte) (u : State) (h : Carries s u) :
    Carries s (readSpares e bs u) := by
  unfold readSpares
  try dsimp only
  with_reducible repeat' first
    | intro _ | assumption | exact Carries.refl _ | apply carries_setFld | apply carries_foldl | dsimp only

theorem carries_readLsm {s : State} (e : Nat) (r : IdRecord) (u : State) (h : Carries s u) :
    Carries s (readLsm e r u) := by
  unfold readLsm
  try dsimp only
  with_reducible repeat' first
    | intro _ | assumption | exact Carries.refl _ | apply carries_cond | apply carries_lanesUnused
    | apply carries_modEngine | apply carries_readSpares | apply carries_setFld | apply carries_raise | split
    | apply carries_mk (Nat.le_refl _) | dsimp only

theorem carries_probeConverters {s : State} (l : List Bool) (u : State) (h : Carries s u) :
    Carries s (probeConverters l u) := by
  unfold probeConverters
  try dsimp only
  with_reducible repeat' first
    | intro _ | assumption | exact Carries.refl _ | apply carries_cond | apply carries_raise | apply carries_foldl
    | apply carries_mk (Nat.le_refl _) | dsimp only

theorem carries_identityRead {s : State} (tray : IdRecord) (stratus lsms : List IdRecord) (converters : List Bool) (u : State) (h : Carries s u) :
    Carries s (identityRead tray stratus lsms converters u) := by
  unfold identityRead
  try dsimp only
  with_reducible repeat' first
    | intro _ | assumption | exact Carries.refl _ | apply carries_cond | apply carries_readTray
    | apply carries_readStratus | apply carries_readLsm | apply carries_extendMr | apply carries_probeConverters
    | apply carries_foldl | apply carries_mk (Nat.le_refl _) | dsimp only

theorem carries_laserEnable {s : State} (e : Nat) (u : State) (h : Carries s u) :
    Carries s (laserEnable e u) := by
  unfold laserEnable
  try dsimp only
  with_reducible repeat' first
    | intro _ | assumption | exact Carries.refl _ | apply carries_cond | apply carries_modEngine
    | apply carries_setFld | apply carries_lasersDark | apply carries_foldl | apply carries_mk (Nat.le_refl _)
    | dsimp only

theorem carries_lsmPresence {s : State} (e : Nat) (present : Bool) (u : State) (h : Carries s u) :
    Carries s (lsmPresence e present u) := by
  unfold lsmPresence
  try dsimp only
  with_reducible repeat' first
    | intro _ | assumption | exact Carries.refl _ | apply carries_cond | apply carries_setFld
    | apply carries_modEngine | apply carries_causeEngine | apply carries_lasersDark
    | apply carries_mk (Nat.le_refl _) | dsimp only

theorem carries_lsmHours {s : State} (e : Nat) (ok : Bool) (u : State) (h : Carries s u) :
    Carries s (lsmHours e ok u) := by
  unfold lsmHours
  try dsimp only
  with_reducible repeat' first
    | intro _ | assumption | exact Carries.refl _ | apply carries_cond | apply carries_emit | apply carries_raise

theorem carries_laneAbsent {s : State} (e l : Nat) (u : State) (h : Carries s u) :
    Carries s (laneAbsent e l u) := by
  unfold laneAbsent
  try dsimp only
  with_reducible repeat' first
    | intro _ | assumption | exact Carries.refl _ | apply carries_cond | apply carries_mk (Nat.le_refl _)

theorem carries_hbmTrained {s : State} (fails : List Nat) (u : State) (h : Carries s u) :
    Carries s (hbmTrained fails u) := by
  unfold hbmTrained
  try dsimp only
  with_reducible repeat' first
    | intro _ | assumption | exact Carries.refl _ | apply carries_cond | apply carries_causePc | apply carries_setFld
    | apply carries_foldl | dsimp only

theorem carries_raisePort {s : State} (port : Nat) (u : State) (h : Carries s u) :
    Carries s (raisePort port u) := by
  unfold raisePort
  try dsimp only
  with_reducible repeat' first
    | intro _ | assumption | exact Carries.refl _ | apply carries_cond | apply carries_setFld

theorem carries_hostPortsTrained {s : State} (up : List Bool) (u : State) (h : Carries s u) :
    Carries s (hostPortsTrained up u) := by
  unfold hostPortsTrained
  try dsimp only
  with_reducible repeat' first
    | intro _ | assumption | exact Carries.refl _ | apply carries_cond | apply carries_raisePort | apply carries_foldl
    | apply carries_mk (Nat.le_refl _) | dsimp only

theorem carries_hostPortUp {s : State} (port : Nat) (u : State) (h : Carries s u) :
    Carries s (hostPortUp port u) := by
  unfold hostPortUp
  try dsimp only
  with_reducible repeat' first
    | intro _ | assumption | exact Carries.refl _ | apply carries_cond | apply carries_raisePort

theorem carries_hostPortDown {s : State} (port : Nat) (u : State) (h : Carries s u) :
    Carries s (hostPortDown port u) := by
  unfold hostPortDown
  try dsimp only
  with_reducible repeat' first
    | intro _ | assumption | exact Carries.refl _ | apply carries_hostPortFail | apply carries_mk (Nat.le_refl _)
    | dsimp only

theorem carries_calComplete {s : State} (flashOk : Bool) (u : State) (h : Carries s u) :
    Carries s (calComplete flashOk u) := by
  unfold calComplete
  try dsimp only
  with_reducible repeat' first
    | intro _ | assumption | exact Carries.refl _ | apply carries_cond | apply carries_setFld | apply carries_extendMr
    | apply carries_overlayInForce | split | apply carries_mk (Nat.le_refl _) | dsimp only

theorem carries_calStart {s : State} (c : CalBusy) (u : State) (h : Carries s u) :
    Carries s (calStart c u) := by
  unfold calStart
  try dsimp only
  with_reducible repeat' first
    | intro _ | assumption | exact Carries.refl _ | apply carries_setFld | apply carries_mk (Nat.le_refl _)

theorem carries_calStore {s : State} (u : State) (h : Carries s u) :
    Carries s (calStore u) := by
  unfold calStore
  try dsimp only
  with_reducible repeat' first
    | intro _ | assumption | exact Carries.refl _ | apply carries_cond | apply carries_cond_snd
    | apply carries_cond_fst | apply carries_spaceSeen | apply carries_calStart | apply carries_showCheck | split
    | dsimp only

theorem carries_calCommand {s : State} (locked : Bool) (f : State → State) (u : State) (hf : ∀ t, Carries s t → Carries s (f t)) (h : Carries s u) :
    Carries s (calCommand locked f u) := by
  unfold calCommand
  try dsimp only
  with_reducible repeat' first
    | intro _ | assumption | exact Carries.refl _ | apply carries_cond | apply hf | apply carries_setFld

theorem carries_calCtlWritten {s : State} (locked : Bool) (v : Nat) (u : State) (h : Carries s u) :
    Carries s (calCtlWritten locked v u) := by
  unfold calCtlWritten
  try dsimp only
  with_reducible repeat' first
    | intro _ | assumption | exact Carries.refl _ | apply carries_cond | apply carries_calCommand
    | apply carries_calStore | apply carries_calStart

end Sys2Proof.Machine
end

