-- ==== Sys2Proof/Laws/KeepsSequencer.lean ====
section
/-! SUPPORT. What the operations of Machine/Sequencer.lean keep. -/

namespace Sys2Proof.Machine

theorem carries_modChan {s : State} (b id : Nat) (f : Channel → Channel) (u : State) (h : Carries s u) :
    Carries s (modChan b id f u) := by
  unfold modChan
  try dsimp only
  with_reducible repeat' first
    | intro _ | assumption | exact Carries.refl _ | apply carries_modBench | split | apply carries_mk (Nat.le_refl _)
    | dsimp only

theorem carries_seqFault {s : State} (b : Nat) (st : Status) (u : State) (h : Carries s u) :
    Carries s (seqFault b st u) := by
  unfold seqFault
  try dsimp only
  with_reducible repeat' first
    | intro _ | assumption | exact Carries.refl _ | apply carries_modBench | apply carries_reportFault
    | apply carries_mk (Nat.le_refl _) | dsimp only

theorem carries_seqStall {s : State} (b cause : Nat) (u : State) (h : Carries s u) :
    Carries s (seqStall b cause u) := by
  unfold seqStall
  try dsimp only
  with_reducible repeat' first
    | intro _ | assumption | exact Carries.refl _ | apply carries_modBench | apply carries_mk (Nat.le_refl _)
    | dsimp only

theorem carries_completeEmpty {s : State} (b : Nat) (x : Bench) (w : W128) (u : State) (h : Carries s u) :
    Carries s (completeEmpty b x w u) := by
  unfold completeEmpty
  try dsimp only
  with_reducible repeat' first
    | intro _ | assumption | exact Carries.refl _ | apply carries_cond | apply carries_seqFault
    | apply carries_setBench

theorem carries_issueOperands {s : State} (b : Nat) (x : Bench) (w : W128) (u : State) (h : Carries s u) :
    Carries s (issueOperands b x w u) := by
  unfold issueOperands
  try dsimp only
  with_reducible repeat' first
    | intro _ | assumption | exact Carries.refl _ | apply carries_cond | apply carries_seqFault
    | apply carries_modBench | apply carries_seqStall | apply carries_setBench | split
    | apply carries_mk (Nat.le_refl _) | dsimp only

theorem carries_issueWord {s : State} (b : Nat) (w : W128) (u : State) (h : Carries s u) :
    Carries s (issueWord b w u) := by
  unfold issueWord
  try dsimp only
  with_reducible repeat' first
    | intro _ | assumption | exact Carries.refl _ | apply carries_cond | apply carries_seqFault
    | apply carries_setBench | apply carries_seqStall | apply carries_completeEmpty | apply carries_issueOperands
    | split | dsimp only

theorem carries_seqCommand {s : State} (b : Nat) (opc : Nat) (f : Fields) (u : State) (h : Carries s u) :
    Carries s (seqCommand b opc f u) := by
  unfold seqCommand
  try dsimp only
  with_reducible repeat' first
    | intro _ | assumption | exact Carries.refl _ | apply carries_cond | apply carries_issueWord

theorem carries_prefetch {s : State} (b : Nat) (u : State) (h : Carries s u) :
    Carries s (prefetch b u) := by
  unfold prefetch
  try dsimp only
  with_reducible repeat' first
    | intro _ | assumption | exact Carries.refl _ | apply carries_cond | apply carries_streamSeen
    | apply carries_setBench | split | apply carries_mk (Nat.le_refl _) | dsimp only

theorem carries_issueStep {s : State} (b : Nat) (u : State) (h : Carries s u) :
    Carries s (issueStep b u) := by
  unfold issueStep
  try dsimp only
  with_reducible repeat' first
    | intro _ | assumption | exact Carries.refl _ | apply carries_cond | apply carries_seqFault
    | apply carries_seqStall | apply carries_prefetch | apply carries_issueWord | split | dsimp only

theorem carries_streamFill {s : State} (b : Nat) (u : State) (h : Carries s u) :
    Carries s (streamFill b u) := by
  unfold streamFill
  try dsimp only
  with_reducible repeat' first
    | intro _ | assumption | exact Carries.refl _ | apply carries_cond | apply carries_streamSeen
    | apply carries_seqFault | apply carries_setBench | split | apply carries_mk (Nat.le_refl _) | dsimp only

theorem carries_channelWriteComplete {s : State} (b id : Nat) (u : State) (h : Carries s u) :
    Carries s (channelWriteComplete b id u) := by
  unfold channelWriteComplete
  try dsimp only
  with_reducible repeat' first
    | intro _ | assumption | exact Carries.refl _ | apply carries_modChan | split | apply carries_mk (Nat.le_refl _)
    | dsimp only

theorem carries_creditReturn {s : State} (b id : Nat) (u : State) (h : Carries s u) :
    Carries s (creditReturn b id u) := by
  unfold creditReturn
  try dsimp only
  with_reducible repeat' first
    | intro _ | assumption | exact Carries.refl _ | apply carries_modChan | apply carries_mk (Nat.le_refl _)
    | dsimp only

theorem carries_channelClose {s : State} (b id : Nat) (u : State) (h : Carries s u) :
    Carries s (channelClose b id u) := by
  unfold channelClose
  try dsimp only
  with_reducible repeat' first
    | intro _ | assumption | exact Carries.refl _ | apply carries_cond | apply carries_modBench
    | apply carries_noteClosed | split | dsimp only

end Sys2Proof.Machine
end

