-- ==== Sys2Proof/Laws/KeepsRemote.lean ====
section
/-! SUPPORT. What the operations of Machine/Remote.lean keep. -/

namespace Sys2Proof.Machine

theorem carries_modReq {s : State} (n : Nat) (f : Req → Req) (u : State) (h : Carries s u) :
    Carries s (modReq n f u) := by
  unfold modReq
  try dsimp only
  with_reducible repeat' first
    | intro _ | assumption | exact Carries.refl _ | split | apply carries_mk (Nat.le_refl _) | dsimp only

theorem carries_countUnknown {s : State} (p : Nat) (st : Status) (u : State) (h : Carries s u) :
    Carries s (countUnknown p st u) := by
  unfold countUnknown
  try dsimp only
  with_reducible repeat' first
    | intro _ | assumption | exact Carries.refl _ | apply carries_cond | apply carries_bump

theorem carries_completeOp {s : State} (n : Nat) (st : Status) (data : List Byte) (u : State) (h : Carries s u) :
    Carries s (completeOp n st data u) := by
  unfold completeOp
  try dsimp only
  with_reducible repeat' first
    | intro _ | assumption | exact Carries.refl _ | apply carries_cond | apply carries_countUnknown
    | apply carries_roleFault | apply carries_modRole | split | apply carries_mk (Nat.le_refl _) | dsimp only

theorem carries_nearSeen {s : State} (r : Req) (a n : Nat) (u : State) (h : Carries s u) :
    Carries s (nearSeen r a n u) := by
  unfold nearSeen
  try dsimp only
  with_reducible repeat' first
    | intro _ | assumption | exact Carries.refl _ | apply carries_cond | apply carries_spaceSeen

theorem carries_nearWrite {s : State} (q : Nat) (r : Req) (a : Nat) (bs : List Byte) (u : State) (h : Carries s u) :
    Carries s (nearWrite q r a bs u).2 := by
  unfold nearWrite
  try dsimp only
  with_reducible repeat' first
    | intro _ | assumption | exact Carries.refl _ | apply carries_cond | apply carries_cond_snd
    | apply carries_spaceWrite | apply carries_modReq | split | apply carries_mk (Nat.le_refl _) | dsimp only

theorem carries_packetEnd {s : State} (req k : Nat) (off : Nat) (st : Status) (data : List Byte) (u : State) (h : Carries s u) :
    Carries s (packetEnd req k off st data u) := by
  unfold packetEnd
  try dsimp only
  with_reducible repeat' first
    | intro _ | assumption | exact Carries.refl _ | apply carries_cond | apply carries_cond_snd
    | apply carries_cond_fst | apply carries_countUnknown | apply carries_nearWrite | apply carries_modSeg | split
    | apply carries_mk (Nat.le_refl _) | dsimp only

theorem carries_endOwner {s : State} (t : Txn) (st : Status) (data : List Byte) (u : State) (h : Carries s u) :
    Carries s (endOwner t st data u) := by
  unfold endOwner
  try dsimp only
  with_reducible repeat' first
    | intro _ | assumption | exact Carries.refl _ | apply carries_completeOp | apply carries_packetEnd
    | apply carries_emit | split | dsimp only

theorem carries_finishTxn {s : State} (tag : Nat) (st : Status) (data : List Byte) (u : State) (h : Carries s u) :
    Carries s (finishTxn tag st data u) := by
  unfold finishTxn
  try dsimp only
  with_reducible repeat' first
    | intro _ | assumption | exact Carries.refl _ | apply carries_cond | apply carries_endOwner | split
    | apply carries_mk (Nat.le_refl _) | dsimp only

theorem carries_arriveSelf {s : State} (p : Nat) (pkt : Packet) (u : State) (h : Carries s u) :
    Carries s (arriveSelf p pkt u) := by
  unfold arriveSelf
  try dsimp only
  with_reducible repeat' first
    | intro _ | assumption | exact Carries.refl _ | apply carries_mk (Nat.le_refl _)

theorem carries_putRequest {s : State} {x : Txn} {again : Bool} {u t : State} (e : putRequest x again u = .sent t)
    (h : Carries s u) : Carries s t := by
  unfold putRequest at e
  cases hn : x.near <;> rw [hn] at e
  · exact carries_inject e h
  · cases e
    exact carries_arriveSelf _ _ _ h

theorem carries_putSeen {s : State} (t : Txn) (u : State) (h : Carries s u) :
    Carries s (putSeen t u) := by
  unfold putSeen
  try dsimp only
  with_reducible repeat' first
    | intro _ | assumption | exact Carries.refl _ | apply carries_nearSeen | split | dsimp only

theorem carries_trySend {s : State} {x : Txn} {u t : State} (e : trySend x u = .sent t) (h : Carries s u) :
    Carries s t := by
  unfold trySend at e
  dsimp only at e
  simp only [Bool.cond_eq_ite] at e
  split at e
  · cases e
  · split at e
    · cases e
    · split at e
      · cases e
      · split at e <;> cases e
        exact carries_mk (Nat.le_refl _) (carries_putRequest (by assumption) (carries_putSeen _ _ h))

theorem carries_trySend_failed {s : State} {x : Txn} {st : Status} {u t : State} (e : trySend x u = .failed st t) (h : Carries s u) :
    Carries s t := by
  unfold trySend at e
  dsimp only at e
  simp only [Bool.cond_eq_ite] at e
  split at e
  · cases e
  · split at e
    · cases e
    · split at e
      · cases e
        exact carries_putSeen _ _ h
      · split at e <;> cases e
        exact carries_putSeen _ _ h

theorem carries_sendTurn {s : State} (a : State × List Txn × List (Nat × Nat)) (x : Txn) (h : Carries s a.1) :
    Carries s (sendTurn a x).1 := by
  unfold sendTurn
  refine carries_cond_fst h ?_
  split
  · exact h
  · exact carries_endOwner _ _ _ _ (carries_emit _ _ (carries_trySend_failed (by assumption) h))
  · exact carries_trySend (by assumption) h

theorem carries_sendWaiting {s : State} (u : State) (h : Carries s u) : Carries s (sendWaiting u) := by
  unfold sendWaiting
  exact carries_mk (Nat.le_refl _) (carries_foldl_fst (a := ({ u with sendQ := [] }, [], []))
    (fun t x ht => carries_sendTurn t x ht) (carries_mk (Nat.le_refl _) h))

theorem carries_enterRequest {s : State} (t : Txn) (u : State) (h : Carries s u) :
    Carries s (enterRequest t u) := by
  unfold enterRequest
  try dsimp only
  with_reducible repeat' first
    | intro _ | assumption | exact Carries.refl _ | apply carries_sendWaiting | apply carries_mk (Nat.le_refl _)

theorem carries_resend {s : State} (tag : Nat) (u : State) (h : Carries s u) : Carries s (resend tag u) := by
  unfold resend
  split
  · exact h
  · have h1 : ∀ q, Carries s { u with txns := q } := fun q => carries_mk (Nat.le_refl _) h
    dsimp only
    split
    · exact carries_putRequest (by assumption) (h1 _)
    · exact carries_sendWaiting _ (carries_finishTxn _ _ _ _ (h1 _))
    · exact h1 _

theorem carries_acceptOp {s : State} (b : Nat) (e : Entry) (hdr : Transport) (payload : List Byte) (dest : Nat) (u : State) (h : Carries s u) :
    Carries s (acceptOp b e hdr payload dest u) := by
  unfold acceptOp
  try dsimp only
  with_reducible repeat' first
    | intro _ | assumption | exact Carries.refl _ | apply carries_cond | apply carries_enterRequest
    | apply carries_sysRetire | apply carries_mk (Nat.le_refl _)

theorem carries_rldEntry {s : State} (b : Nat) (e : Entry) (u : State) (h : Carries s u) :
    Carries s (rldEntry b e u) := by
  unfold rldEntry
  try dsimp only
  with_reducible repeat' first
    | intro _ | assumption | exact Carries.refl _ | apply carries_acceptOp

theorem carries_rstEntry {s : State} (b : Nat) (e : Entry) (u : State) (h : Carries s u) :
    Carries s (rstEntry b e u) := by
  unfold rstEntry
  try dsimp only
  with_reducible repeat' first
    | intro _ | assumption | exact Carries.refl _ | apply carries_cond | apply carries_acceptOp

theorem carries_ramoEntry {s : State} (b : Nat) (e : Entry) (u : State) (h : Carries s u) :
    Carries s (ramoEntry b e u) := by
  unfold ramoEntry
  try dsimp only
  with_reducible repeat' first
    | intro _ | assumption | exact Carries.refl _ | apply carries_cond | apply carries_acceptOp

theorem carries_rownEntry {s : State} (b : Nat) (e : Entry) (u : State) (h : Carries s u) :
    Carries s (rownEntry b e u) := by
  unfold rownEntry
  try dsimp only
  with_reducible repeat' first
    | intro _ | assumption | exact Carries.refl _ | apply carries_acceptOp

theorem carries_startRemoteSeg {s : State} (q k : Nat) (near : Bool) (u : State) (h : Carries s u) :
    Carries s (startRemoteSeg q k near u) := by
  unfold startRemoteSeg
  try dsimp only
  with_reducible repeat' first
    | intro _ | assumption | exact Carries.refl _ | apply carries_modSeg | split | apply carries_mk (Nat.le_refl _)
    | dsimp only

theorem carries_acceptSplit {s : State} (b : Nat) (e : Entry) (put : Bool) (u : State) (h : Carries s u) :
    Carries s (acceptSplit b e put u) := by
  unfold acceptSplit
  try dsimp only
  with_reducible repeat' first
    | intro _ | assumption | exact Carries.refl _ | apply carries_cond | apply carries_cond_snd
    | apply carries_cond_fst | apply carries_sysRetire | apply carries_sendWaiting | apply carries_startRemoteSeg
    | apply carries_foldl | apply carries_mk (Nat.le_refl _) | dsimp only

theorem carries_modHomeReq {s : State} (src seq : Nat) (f : HomeReq → HomeReq) (u : State) (h : Carries s u) :
    Carries s (modHomeReq src seq f u) := by
  unfold modHomeReq
  try dsimp only
  with_reducible repeat' first
    | intro _ | assumption | exact Carries.refl _ | split | apply carries_mk (Nat.le_refl _) | dsimp only

theorem carries_dropSource {s : State} (src : Nat) (u : State) (h : Carries s u) :
    Carries s (dropSource src u) := by
  unfold dropSource
  try dsimp only
  with_reducible repeat' first
    | intro _ | assumption | exact Carries.refl _ | apply carries_cond | apply carries_cond_snd
    | apply carries_cond_fst | split | apply carries_mk (Nat.le_refl _) | dsimp only

theorem carries_raiseFloor {s : State} (src floor : Nat) (u : State) (h : Carries s u) :
    Carries s (raiseFloor src floor u) := by
  unfold raiseFloor
  try dsimp only
  with_reducible repeat' first
    | intro _ | assumption | exact Carries.refl _ | apply carries_cond | apply carries_cond_snd
    | apply carries_cond_fst | split | apply carries_mk (Nat.le_refl _) | dsimp only

theorem carries_respond {s : State} (p key : Nat) (i0 : Transport) (op : Nat) (st : Status) (data : List Byte) (u : State) (h : Carries s u) :
    Carries s (respond p key i0 op st data u) := by
  unfold respond
  try dsimp only
  with_reducible repeat' first
    | intro _ | assumption | exact Carries.refl _ | apply carries_cond | apply carries_retry
    | apply carries_arriveSelf
    | first | exact carries_inject (by assumption) (by assumption) | apply carries_inject (e := by assumption) | split
    | apply carries_mk (Nat.le_refl _) | dsimp only

theorem carries_waitPage {s : State} (p vpn : Nat) (u : State) (h : Carries s u) :
    Carries s (waitPage p vpn u) := by
  unfold waitPage
  try dsimp only
  with_reducible repeat' first
    | intro _ | assumption | exact Carries.refl _ | apply carries_cond | apply carries_modPartition
    | apply carries_mk (Nat.le_refl _) | dsimp only

theorem carries_homeRead {s : State} (u : State) (p : Nat) (l : Leaf) (i0 : Transport) (h : Carries s u) :
    Carries s (homeRead u p l i0).2.2 := by
  unfold homeRead
  try dsimp only
  with_reducible repeat' first
    | intro _ | assumption | exact Carries.refl _ | apply carries_cond_snd | apply carries_cond_last
    | apply carries_spendAt | apply carries_linesSeen | split | dsimp only

theorem carries_homeAtomic {s : State} (p va pa : Nat) (k : Transport) (payload : List Byte) (u : State) (h : Carries s u) :
    Carries s (homeAtomic p va pa k payload u).2.2.2 := by
  unfold homeAtomic
  split
  · exact h
  · exact carries_atomicAt _ _ _ _ _ (carries_abortMoveOut _ _ _ (carries_spendAt _ _ _ _ h))

theorem carries_homeApply {s : State} (p : Nat) (l : Leaf) (k : Transport) (payload : List Byte) (u : State)
    (h : Carries s u) : Carries s (homeApply p l k payload u).2.2.2 := by
  unfold homeApply
  extract_lets va pa
  split
  · exact carries_homeAtomic _ _ _ _ _ _ h
  · exact carries_pageWrite _ _ _ _ (carries_spendAt _ _ _ _ h)
  · exact carries_pageWrite _ _ _ _ (carries_spendAt _ _ _ _ h)
  · exact carries_homeRead _ _ _ _ h

theorem carries_forget {s : State} (src seq : Nat) (u : State) (h : Carries s u) :
    Carries s (forget src seq u) := by
  unfold forget
  try dsimp only
  with_reducible repeat' first
    | intro _ | assumption | exact Carries.refl _ | apply carries_cond | split | apply carries_mk (Nat.le_refl _)
    | dsimp only

theorem carries_finishHome {s : State} (src seq : Nat) (r : HomeReq) (i0 : Transport) (st : Status) (old : Nat) (data : List Byte) (u : State) (h : Carries s u) :
    Carries s (finishHome src seq r i0 st old data u) := by
  unfold finishHome
  try dsimp only
  with_reducible repeat' first
    | intro _ | assumption | exact Carries.refl _ | apply carries_modHomeReq | apply carries_respond
    | apply carries_forget | apply carries_mk (Nat.le_refl _) | dsimp only

theorem carries_answerAgain {s : State} (src : Nat) (r : HomeReq) (i0 : Transport) (u : State) (h : Carries s u) :
    Carries s (answerAgain src r i0 u) := by
  unfold answerAgain
  try dsimp only
  with_reducible repeat' first
    | intro _ | assumption | exact Carries.refl _ | apply carries_cond | apply carries_cond_snd
    | apply carries_cond_fst | apply carries_cond_last | apply carries_modHomeReq | apply carries_respond
    | apply carries_homeRead | apply carries_waitPage | split | apply carries_mk (Nat.le_refl _) | dsimp only

theorem carries_nack {s : State} (p src : Nat) (i0 : Transport) (u : State) (h : Carries s u) :
    Carries s (nack p src i0 u) := by
  unfold nack
  try dsimp only
  with_reducible repeat' first
    | intro _ | assumption | exact Carries.refl _ | apply carries_respond | apply carries_bump | split
    | apply carries_mk (Nat.le_refl _) | dsimp only

theorem carries_requestArrive {s : State} (pkt : Packet) (u : State) (h : Carries s u) :
    Carries s (requestArrive pkt u) := by
  unfold requestArrive
  try dsimp only
  with_reducible repeat' first
    | intro _ | assumption | exact Carries.refl _ | apply carries_cond
    | apply carries_takeArrived (e := by assumption) | apply carries_bump | apply carries_raiseFloor
    | apply carries_dropSource | apply carries_answerAgain | apply carries_nack | apply carries_modPartition | split
    | apply carries_mk (Nat.le_refl _) | dsimp only

theorem carries_applyAt {s : State} (src seq : Nat) (r : HomeReq) (i0 : Transport) (payload : List Byte) (l : Leaf) (u : State) (h : Carries s u) :
    Carries s (applyAt src seq r i0 payload l u) := by
  unfold applyAt
  try dsimp only
  with_reducible repeat' first
    | intro _ | assumption | exact Carries.refl _ | apply carries_cond | apply carries_cond_snd
    | apply carries_cond_fst | apply carries_cond_last | apply carries_homeApply | apply carries_heatPage
    | apply carries_finishHome | apply carries_waitAt

theorem carries_requestApply {s : State} (src seq : Nat) (u : State) (h : Carries s u) :
    Carries s (requestApply src seq u) := by
  unfold requestApply
  try dsimp only
  with_reducible repeat' first
    | intro _ | assumption | exact Carries.refl _ | apply carries_cond | apply carries_cond_snd
    | apply carries_cond_fst | apply carries_finishHome | apply carries_applyAt | apply carries_waitPage
    | apply carries_modHomeReq | split | apply carries_mk (Nat.le_refl _) | dsimp only

theorem carries_homeWake {s : State} (src seq : Nat) (u : State) (h : Carries s u) :
    Carries s (homeWake src seq u) := by
  unfold homeWake
  try dsimp only
  with_reducible repeat' first
    | intro _ | assumption | exact Carries.refl _ | apply carries_cond | apply carries_modHomeReq | split
    | apply carries_mk (Nat.le_refl _) | dsimp only

theorem carries_respondAgain {s : State} (st : Status) (i0 : Transport) (u : State) (h : Carries s u) :
    Carries s (respondAgain st i0 u) := by
  unfold respondAgain
  try dsimp only
  with_reducible repeat' first
    | intro _ | assumption | exact Carries.refl _ | apply carries_cond | apply carries_cond_snd
    | apply carries_cond_fst | apply carries_respond | apply carries_answerAgain | apply carries_foldl | split
    | dsimp only

theorem carries_responseArrive {s : State} (pkt : Packet) (u : State) (h : Carries s u) :
    Carries s (responseArrive pkt u) := by
  unfold responseArrive
  try dsimp only
  with_reducible repeat' first
    | intro _ | assumption | exact Carries.refl _ | apply carries_cond
    | apply carries_takeArrived (e := by assumption) | apply carries_respondAgain | apply carries_bump
    | apply carries_sendWaiting | apply carries_finishTxn | split | apply carries_mk (Nat.le_refl _) | dsimp only

theorem carries_nackResend {s : State} (tag : Nat) (u : State) (h : Carries s u) :
    Carries s (nackResend tag u) := by
  unfold nackResend
  try dsimp only
  with_reducible repeat' first
    | intro _ | assumption | exact Carries.refl _ | apply carries_cond | apply carries_resend | split | dsimp only

theorem carries_retry {s : State} (tag : Nat) (t : Txn) (u : State) (h : Carries s u) :
    Carries s (retry tag t u) := by
  unfold retry
  try dsimp only
  with_reducible repeat' first
    | intro _ | assumption | exact Carries.refl _ | apply carries_cond | apply carries_sendWaiting
    | apply carries_finishTxn | apply carries_resend | apply carries_bump | apply carries_mk (Nat.le_refl _)

theorem carries_remoteRetransmit {s : State} (tag : Nat) (notice : Bool) (u : State) (h : Carries s u) :
    Carries s (remoteRetransmit tag notice u) := by
  unfold remoteRetransmit
  try dsimp only
  with_reducible repeat' first
    | intro _ | assumption | exact Carries.refl _ | apply carries_cond
    | apply carries_takeArrived (e := by assumption) | apply carries_retry | split | dsimp only

theorem carries_floorSend {s : State} (home : Nat) (u : State) (h : Carries s u) :
    Carries s (floorSend home u) := by
  unfold floorSend
  try dsimp only
  with_reducible repeat' first
    | intro _ | assumption | exact Carries.refl _ | apply carries_cond | apply carries_enterRequest
    | apply carries_mk (Nat.le_refl _)

theorem carries_gatewayEnd {s : State} (st : Status) (data : List Byte) (u : State) (a : Nat × Nat) (h : Carries s u) :
    Carries s (gatewayEnd st data u a) := by
  unfold gatewayEnd
  try dsimp only
  with_reducible repeat' first
    | intro _ | assumption | exact Carries.refl _ | apply carries_finishHome | split | dsimp only

theorem carries_gatewayOut {s : State} (src seq : Nat) (st : Status) (data : List Byte) (u : State) (h : Carries s u) :
    Carries s (gatewayOut src seq st data u) := by
  unfold gatewayOut
  try dsimp only
  with_reducible repeat' first
    | intro _ | assumption | exact Carries.refl _ | apply carries_cond | apply carries_cond_snd
    | apply carries_cond_fst | apply carries_finishHome | apply carries_gatewayEnd | apply carries_emit
    | apply carries_foldl | split | dsimp only

theorem carries_gatewayIn {s : State} (qp p rnode offset : Nat) (write : Option (List Byte)) (len : Nat) (u : State) (h : Carries s u) :
    Carries s (gatewayIn qp p rnode offset write len u) := by
  unfold gatewayIn
  try dsimp only
  with_reducible repeat' first
    | intro _ | assumption | exact Carries.refl _ | apply carries_cond | apply carries_cond_snd
    | apply carries_cond_fst | apply carries_sendWaiting | split | apply carries_mk (Nat.le_refl _) | dsimp only

theorem carries_gatewayMove {s : State} (g : GatewayMove) (u : State) (h : Carries s u) :
    Carries s (gatewayMove g u) := by
  unfold gatewayMove
  try dsimp only
  with_reducible repeat' first
    | intro _ | assumption | exact Carries.refl _ | apply carries_gatewayOut | apply carries_gatewayIn | split
    | dsimp only

theorem carries_loseGateway {s : State} (rdom : Nat) (u : State) (a : Nat × Nat) (h : Carries s u) :
    Carries s (loseGateway rdom u a) := by
  unfold loseGateway
  try dsimp only
  with_reducible repeat' first
    | intro _ | assumption | exact Carries.refl _ | apply carries_cond | apply carries_cond_snd
    | apply carries_cond_fst | apply carries_finishHome | split | dsimp only

theorem carries_loseAgain {s : State} (rdom : Nat) (u : State) (a : Nat × Nat) (h : Carries s u) :
    Carries s (loseAgain rdom u a) := by
  unfold loseAgain
  try dsimp only
  with_reducible repeat' first
    | intro _ | assumption | exact Carries.refl _ | apply carries_cond | apply carries_cond_snd
    | apply carries_cond_fst | apply carries_finishHome | split | dsimp only

theorem carries_gatewayLost {s : State} (rdom : Nat) (u : State) (h : Carries s u) :
    Carries s (gatewayLost rdom u) := by
  unfold gatewayLost
  try dsimp only
  with_reducible repeat' first
    | intro _ | assumption | exact Carries.refl _ | apply carries_loseGateway | apply carries_loseAgain
    | apply carries_foldl | apply carries_mk (Nat.le_refl _) | dsimp only

theorem carries_packetInject {s : State} (p : Nat) (pkt : Packet) (u : State) (h : Carries s u) :
    Carries s (packetInject p pkt u) := by
  unfold packetInject
  try dsimp only
  with_reducible repeat' first
    | intro _ | assumption | exact Carries.refl _ | apply carries_cond
    | first | exact carries_inject (by assumption) (by assumption) | apply carries_inject (e := by assumption)
    | apply carries_pumpAll | apply carries_emit | apply carries_sendWaiting | apply carries_finishTxn | split
    | dsimp only

theorem carries_rmaPurge {s : State} (node : Nat) (u : State) (h : Carries s u) :
    Carries s (rmaPurge node u) := by
  unfold rmaPurge
  try dsimp only
  with_reducible repeat' first
    | intro _ | assumption | exact Carries.refl _ | apply carries_dropSource

end Sys2Proof.Machine
end

