-- ==== Sys2Proof/Laws/KeepsTiles.lean ====
section
/-! SUPPORT. What the operations of Machine/Tiles.lean keep. -/

namespace Sys2Proof.Machine

theorem carries_modEntry {s : State} (b ord eid : Nat) (f : Entry → Entry) (u : State) (h : Carries s u) :
    Carries s (modEntry b ord eid f u) := by
  unfold modEntry
  try dsimp only
  with_reducible repeat' first
    | intro _ | assumption | exact Carries.refl _ | apply carries_modBench | apply carries_mk (Nat.le_refl _)
    | dsimp only

theorem carries_postAssay {s : State} (b : Nat) (u0 : AssayUpd) (u : State) (h : Carries s u) :
    Carries s (postAssay b u0 u) := by
  unfold postAssay
  try dsimp only
  with_reducible repeat' first
    | intro _ | assumption | exact Carries.refl _ | apply carries_cond | apply carries_modPartition
    | apply carries_setRaw64 | apply carries_mk (Nat.le_refl _) | dsimp only

theorem carries_stationFault {s : State} (b ord : Nat) (e : Entry) (st : Status) (u : State) (h : Carries s u) :
    Carries s (stationFault b ord e st u) := by
  unfold stationFault
  try dsimp only
  with_reducible repeat' first
    | intro _ | assumption | exact Carries.refl _ | apply carries_cond | apply carries_reportFault
    | apply carries_causeStation

theorem carries_stationExec {s : State} (b ord unit opc : Nat) (f : Entry → ExecRes) (u : State) (h : Carries s u) :
    Carries s (stationExec b ord unit opc f u) := by
  unfold stationExec
  try dsimp only
  with_reducible repeat' first
    | intro _ | assumption | exact Carries.refl _ | apply carries_stationFault | apply carries_postAssay
    | apply carries_modEntry | split | apply carries_mk (Nat.le_refl _) | dsimp only

end Sys2Proof.Machine
end

