-- ==== Sys2Proof/Laws/KeepsAssay.lean ====
section
/-! SUPPORT. What the operations of Machine/Assay.lean keep. -/

namespace Sys2Proof.Machine

theorem carries_updateAt {s : State} (p a : Nat) (u0 : AssayUpd) (u : State) (h : Carries s u) :
    Carries s (updateAt p a u0 u) := by
  unfold updateAt
  try dsimp only
  with_reducible repeat' first
    | intro _ | assumption | exact Carries.refl _ | apply carries_cond | apply carries_cond_snd
    | apply carries_spaceSeen | apply carries_setRaw64 | apply carries_spaceWrite | apply carries_raise | split
    | dsimp only

theorem carries_applyUpdate {s : State} (p : Nat) (u0 : AssayUpd) (u : State) (h : Carries s u) :
    Carries s (applyUpdate p u0 u) := by
  unfold applyUpdate
  try dsimp only
  with_reducible repeat' first
    | intro _ | assumption | exact Carries.refl _ | apply carries_updateAt

theorem carries_assayApply {s : State} (p hub : Nat) (u : State) (h : Carries s u) :
    Carries s (assayApply p hub u) := by
  unfold assayApply
  try dsimp only
  with_reducible repeat' first
    | intro _ | assumption | exact Carries.refl _ | apply carries_applyUpdate | apply carries_modPartition | split
    | apply carries_mk (Nat.le_refl _) | dsimp only

theorem carries_assayFlush {s : State} (p : Nat) (u : State) (h : Carries s u) :
    Carries s (assayFlush p u) := by
  unfold assayFlush
  try dsimp only
  with_reducible repeat' first
    | intro _ | assumption | exact Carries.refl _ | apply carries_applyUpdate | apply carries_modPartition
    | apply carries_foldl | apply carries_mk (Nat.le_refl _) | dsimp only

theorem carries_numCtlWritten {s : State} (p old value : Nat) (u : State) (h : Carries s u) :
    Carries s (numCtlWritten p old value u) := by
  unfold numCtlWritten
  try dsimp only
  with_reducible repeat' first
    | intro _ | assumption | exact Carries.refl _ | apply carries_cond | apply carries_assayFlush

theorem carries_seedsetEntry {s : State} (b : Nat) (e : Entry) (u : State) (h : Carries s u) :
    Carries s (seedsetEntry b e u) := by
  unfold seedsetEntry
  try dsimp only
  with_reducible repeat' first
    | intro _ | assumption | exact Carries.refl _ | apply carries_cond | apply carries_sysRetire
    | apply carries_modBench | apply carries_mk (Nat.le_refl _) | dsimp only

theorem carries_tagInstr {s : State} (b : Nat) (e : Entry) (f : Nat → Nat → State → State) (u : State) (hf : ∀ x0 x1 t, Carries s t → Carries s (f x0 x1 t)) (h : Carries s u) :
    Carries s (tagInstr b e f u) := by
  unfold tagInstr
  try dsimp only
  with_reducible repeat' first
    | intro _ | assumption | exact Carries.refl _ | apply carries_cond | apply hf | apply carries_sysFault
    | apply carries_sysRetire | apply carries_foldl | dsimp only

theorem carries_clearRecord {s : State} (n p tag : Nat) (u : State) (h : Carries s u) :
    Carries s (clearRecord n p tag u) := by
  unfold clearRecord
  try dsimp only
  with_reducible repeat' first
    | intro _ | assumption | exact Carries.refl _ | apply carries_spaceWrite

theorem carries_commitAt {s : State} (p a : Nat) (u : State) (h : Carries s u) :
    Carries s (commitAt p a u) := by
  unfold commitAt
  try dsimp only
  with_reducible repeat' first
    | intro _ | assumption | exact Carries.refl _ | apply carries_spaceSeen | apply carries_spaceWrite | split
    | dsimp only

theorem carries_commitHistory {s : State} (p tag : Nat) (u : State) (h : Carries s u) :
    Carries s (commitHistory p tag u) := by
  unfold commitHistory
  try dsimp only
  with_reducible repeat' first
    | intro _ | assumption | exact Carries.refl _ | apply carries_commitAt

theorem carries_asysyncEntry {s : State} (b : Nat) (y_ : Entry) (u : State) (h : Carries s u) :
    Carries s (asysyncEntry b y_ u) := by
  unfold asysyncEntry
  try dsimp only
  with_reducible repeat' first
    | intro _ | assumption | exact Carries.refl _ | apply carries_cond | apply carries_sysRetire

end Sys2Proof.Machine
end

