-- ==== Sys2Proof/Laws/KeepsCrucible.lean ====
section
/-! SUPPORT. What the operations of Machine/Crucible.lean keep. -/

namespace Sys2Proof.Machine

theorem carries_readPacket {s : State} (b id : Nat) (u : State) (h : Carries s u) :
    Carries s (readPacket b id u) := by
  unfold readPacket
  try dsimp only
  with_reducible repeat' first
    | intro _ | assumption | exact Carries.refl _ | apply carries_modChan | apply carries_mk (Nat.le_refl _)
    | dsimp only

theorem carries_credSteps {s : State} (b ord n : Nat) (e : Entry) (u : State) (h : Carries s u) :
    Carries s (credSteps b ord n e u) := by
  induction n generalizing e u with
  | zero => exact carries_modEntry _ _ _ _ _ h
  | succ n ih =>
    have hr : ∀ v, Carries s v → Carries s (match ePort e 1 with | some p => readPacket b p.id v | none => v) := fun v hv => by
      split
      · exact carries_readPacket _ _ _ hv
      · exact hv
    simp only [credSteps]
    split
    · exact carries_modEntry _ _ _ _ _ h
    · split
      · exact carries_stationFault _ _ _ _ _ h
      · exact carries_cond (carries_modEntry _ _ _ _ _ (hr _ h)) (ih _ _ (hr _ h))

theorem carries_cred {s : State} (b : Nat) (u : State) (h : Carries s u) :
    Carries s (cred b u) := by
  unfold cred
  try dsimp only
  with_reducible repeat' first
    | intro _ | assumption | exact Carries.refl _ | apply carries_credSteps | split | dsimp only

end Sys2Proof.Machine
end

