-- ==== Sys2Proof/Laws/KeepsSprue.lean ====
section
/-! SUPPORT. What the operations of Machine/Sprue.lean keep. -/

namespace Sys2Proof.Machine

theorem carries_startSeg {s : State} (q k : Nat) (u : State) (h : Carries s u) :
    Carries s (startSeg q k u) := by
  unfold startSeg
  try dsimp only
  with_reducible repeat' first
    | intro _ | assumption | exact Carries.refl _ | apply carries_cond | apply carries_startRemoteSeg
    | apply carries_touchSegment | apply carries_modBench | apply carries_modSeg | split
    | apply carries_mk (Nat.le_refl _) | dsimp only

theorem carries_startSegs {s : State} (q : Nat) (u : State) (h : Carries s u) :
    Carries s (startSegs q u) := by
  unfold startSegs
  try dsimp only
  with_reducible repeat' first
    | intro _ | assumption | exact Carries.refl _ | apply carries_sendWaiting | apply carries_startSeg
    | apply carries_foldl | split | dsimp only

theorem carries_startSplit {s : State} (b ord : Nat) (e : Entry) (segs : List Seg) (buf : Option (List Byte)) (head : Bool) (u : State) (h : Carries s u) :
    Carries s (startSplit b ord e segs buf head u) := by
  unfold startSplit
  try dsimp only
  with_reducible repeat' first
    | intro _ | assumption | exact Carries.refl _ | apply carries_cond | apply carries_startSegs
    | apply carries_modEntry | apply carries_mk (Nat.le_refl _) | dsimp only

theorem carries_onSprue {s : State} (b ord opc : Nat) (f : Entry → State → State) (u : State) (hf : ∀ x0 t, Carries s t → Carries s (f x0 t)) (h : Carries s u) :
    Carries s (onSprue b ord opc f u) := by
  unfold onSprue
  try dsimp only
  with_reducible repeat' first
    | intro _ | assumption | exact Carries.refl _ | apply hf | split | dsimp only

theorem carries_blockRun {s : State} (b ord : Nat) (e : Entry) (u : State) (h : Carries s u) :
    Carries s (blockRun b ord e u) := by
  unfold blockRun
  try dsimp only
  with_reducible repeat' first
    | intro _ | assumption | exact Carries.refl _ | apply carries_startSplit

theorem carries_sptldRun {s : State} (b ord : Nat) (e : Entry) (u : State) (h : Carries s u) :
    Carries s (sptldRun b ord e u) := by
  unfold sptldRun
  try dsimp only
  with_reducible repeat' first
    | intro _ | assumption | exact Carries.refl _ | apply carries_startSplit

theorem carries_sptstRun {s : State} (b ord : Nat) (e : Entry) (u : State) (h : Carries s u) :
    Carries s (sptstRun b ord e u) := by
  unfold sptstRun
  try dsimp only
  with_reducible repeat' first
    | intro _ | assumption | exact Carries.refl _ | apply carries_stationFault | apply carries_startSplit | split
    | dsimp only

theorem carries_spxfRun {s : State} (b ord : Nat) (e : Entry) (u : State) (h : Carries s u) :
    Carries s (spxfRun b ord e u) := by
  unfold spxfRun
  try dsimp only
  with_reducible repeat' first
    | intro _ | assumption | exact Carries.refl _ | apply carries_stationFault | apply carries_modEntry
    | apply carries_modChan | split | apply carries_mk (Nat.le_refl _) | dsimp only

theorem carries_warmPage {s : State} (b ord v : Nat) (u : State) (h : Carries s u) :
    Carries s (warmPage b ord v u) := by
  unfold warmPage
  try dsimp only
  with_reducible repeat' first
    | intro _ | assumption | exact Carries.refl _ | apply carries_cond | apply carries_modBench
    | apply carries_setLeaf | apply carries_modPartition | apply carries_prefetch | split
    | apply carries_mk (Nat.le_refl _) | dsimp only

theorem carries_sppfRun {s : State} (b ord : Nat) (e : Entry) (u : State) (h : Carries s u) :
    Carries s (sppfRun b ord e u) := by
  unfold sppfRun
  try dsimp only
  with_reducible repeat' first
    | intro _ | assumption | exact Carries.refl _ | apply carries_cond | apply carries_cond_snd
    | apply carries_cond_fst | apply carries_modEntry | apply carries_warmPage | apply carries_foldl
    | apply carries_mk (Nat.le_refl _) | dsimp only

theorem carries_lineTo {s : State} (q : Nat) (r : Req) (pa loc : Nat) (a : Status × State) (h : Carries s a.2) :
    Carries s (lineTo q r pa loc a).2 := by
  unfold lineTo
  dsimp only
  split
  · exact carries_lineSeen _ _ h
  · exact carries_nearWrite _ _ _ _ _ (carries_lineSeen _ _ h)

theorem carries_readLine {s : State} (q : Nat) (r : Req) (l : Leaf) (g : Seg) (a : Status × State) (k : Nat)
    (h : Carries s a.2) : Carries s (readLine q r l g a k).2 := carries_lineTo _ _ _ _ _ h

theorem carries_endSeg {s : State} (q k : Nat) (st : SegState) (status : Status) (u : State) (h : Carries s u) :
    Carries s (endSeg q k st status u) := by
  unfold endSeg
  try dsimp only
  with_reducible repeat' first
    | intro _ | assumption | exact Carries.refl _ | apply carries_modSeg | apply carries_mk (Nat.le_refl _)
    | dsimp only

theorem carries_nearFault {s : State} (r : Req) (st : Status) (u : State) (h : Carries s u) :
    Carries s (nearFault r st u) := by
  unfold nearFault
  try dsimp only
  with_reducible repeat' first
    | intro _ | assumption | exact Carries.refl _ | apply carries_cond | apply carries_causeStation

theorem carries_moveData {s : State} (q k : Nat) (r : Req) (g : Seg) (l : Leaf) (u : State) (h : Carries s u) :
    Carries s (moveData q k r g l u) := by
  unfold moveData
  refine carries_cond ?_ ?_
  · split
    · exact carries_endSeg _ _ _ _ _ (carries_nearFault _ _ _ h)
    · exact carries_endSeg _ _ _ _ _ (carries_writeArrived _ _ _ _ (carries_memWrite _ _ _ (carries_abortMoveOut _ _ _ h)))
  · extract_lets a
    have h2 : Carries s a.2 := carries_foldl_snd (fun t x ht => carries_readLine q r l g t x ht) h
    exact carries_cond (carries_endSeg _ _ _ _ _ h2) (carries_endSeg _ _ _ _ _ h2)

theorem carries_moveSeg {s : State} (q k : Nat) (r : Req) (g : Seg) (u : State) (h : Carries s u) :
    Carries s (moveSeg q k r g u) := by
  unfold moveSeg
  try dsimp only
  with_reducible repeat' first
    | intro _ | assumption | exact Carries.refl _ | apply carries_cond | apply carries_endSeg
    | apply carries_whenAdmitted | apply carries_moveData | split | dsimp only

theorem carries_finishReq {s : State} (q : Nat) (u : State) (h : Carries s u) :
    Carries s (finishReq q u) := by
  unfold finishReq
  try dsimp only
  with_reducible repeat' first
    | intro _ | assumption | exact Carries.refl _ | apply carries_cond | apply carries_modRole
    | apply carries_modEntry | split | apply carries_mk (Nat.le_refl _) | dsimp only

theorem carries_reqReport {s : State} (r : Req) (st : Status) (u : State) (h : Carries s u) :
    Carries s (reqReport r st u) := by
  unfold reqReport
  try dsimp only
  with_reducible repeat' first
    | intro _ | assumption | exact Carries.refl _ | apply carries_cond | apply carries_roleFault
    | apply carries_reportFault | split | dsimp only

theorem carries_segFault {s : State} (q k : Nat) (was : List Seg) (u : State) (h : Carries s u) :
    Carries s (segFault q k was u) := by
  unfold segFault
  try dsimp only
  with_reducible repeat' first
    | intro _ | assumption | exact Carries.refl _ | apply carries_cond | apply carries_reqReport
    | apply carries_modReq | split | apply carries_mk (Nat.le_refl _) | dsimp only

theorem carries_headRead {s : State} (q : Nat) (r : Req) (u : State) (h : Carries s u) :
    Carries s (headRead q r u) := by
  unfold headRead
  try dsimp only
  with_reducible repeat' first
    | intro _ | assumption | exact Carries.refl _ | apply carries_cond | apply carries_reportFault
    | apply carries_startSegs | apply carries_modReq | split | apply carries_mk (Nat.le_refl _) | dsimp only

theorem carries_segmentEnd {s : State} (q k : Nat) (u : State) (h : Carries s u) :
    Carries s (segmentEnd q k u) := by
  unfold segmentEnd
  try dsimp only
  with_reducible repeat' first
    | intro _ | assumption | exact Carries.refl _ | apply carries_cond | apply carries_modSeg | apply carries_moveSeg
    | apply carries_modReq | apply carries_headRead | apply carries_finishReq | apply carries_segFault
    | apply carries_reapPages | split | apply carries_mk (Nat.le_refl _) | dsimp only

end Sys2Proof.Machine
end

