-- ==== Sys2Proof/Laws/KeepsStation.lean ====
section
/-! SUPPORT. What the operations of Machine/Station.lean keep. -/

namespace Sys2Proof.Machine

theorem carries_stationStart {s : State} (b ord : Nat) (u : State) (h : Carries s u) :
    Carries s (stationStart b ord u) := by
  unfold stationStart
  try dsimp only
  with_reducible repeat' first
    | intro _ | assumption | exact Carries.refl _ | apply carries_cond | apply carries_modEntry
    | apply carries_stationFault | split | dsimp only

theorem carries_applyEff {s : State} (b : Nat) (u : State) (f : Eff) (h : Carries s u) :
    Carries s (applyEff b u f) := by
  unfold applyEff
  try dsimp only
  with_reducible repeat' first
    | intro _ | assumption | exact Carries.refl _ | apply carries_modBench | apply carries_postAssay
    | apply carries_modChan | split | apply carries_mk (Nat.le_refl _) | dsimp only

theorem carries_consumeInputs {s : State} (b : Nat) (e : Entry) (u : State) (h : Carries s u) :
    Carries s (consumeInputs b e u) := by
  unfold consumeInputs
  try dsimp only
  with_reducible repeat' first
    | intro _ | assumption | exact Carries.refl _ | apply carries_cond | apply carries_cond_snd
    | apply carries_cond_fst | apply carries_cred | apply carries_modChan | apply carries_foldl | split | dsimp only

theorem carries_stationRetire {s : State} (b ord : Nat) (u : State) (h : Carries s u) :
    Carries s (stationRetire b ord u) := by
  unfold stationRetire
  try dsimp only
  with_reducible repeat' first
    | intro _ | assumption | exact Carries.refl _ | apply carries_cond | apply carries_consumeInputs
    | apply carries_applyEff | apply carries_modBench | apply carries_foldl | split | apply carries_mk (Nat.le_refl _)
    | dsimp only

theorem carries_sysTake {s : State} (b : Nat) (u : State) (h : Carries s u) :
    Carries s (sysTake b u) := by
  unfold sysTake
  try dsimp only
  with_reducible repeat' first
    | intro _ | assumption | exact Carries.refl _ | apply carries_cond | apply carries_setBench | split
    | apply carries_mk (Nat.le_refl _) | dsimp only

end Sys2Proof.Machine
end

