-- ==== Sys2Proof/Laws/KeepsCollectives.lean ====
section
/-! SUPPORT. What the operations of Machine/Collectives.lean keep. -/

namespace Sys2Proof.Machine

theorem carries_modGroup {s : State} (p g n : Nat) (f : CollGroup → CollGroup) (u : State) (h : Carries s u) :
    Carries s (modGroup p g n f u) := by
  unfold modGroup
  try dsimp only
  with_reducible repeat' first
    | intro _ | assumption | exact Carries.refl _ | apply carries_mk (Nat.le_refl _)

theorem carries_modColl {s : State} (id : Nat) (f : Coll → Coll) (u : State) (h : Carries s u) :
    Carries s (modColl id f u) := by
  unfold modColl
  try dsimp only
  with_reducible repeat' first
    | intro _ | assumption | exact Carries.refl _ | split | apply carries_mk (Nat.le_refl _) | dsimp only

theorem carries_sendColl {s : State} (p dst : Nat) (m : CollMsg) (u : State) (h : Carries s u) :
    Carries s (sendColl p dst m u).2 := by
  unfold sendColl
  try dsimp only
  with_reducible repeat' first
    | intro _ | assumption | exact Carries.refl _ | apply carries_cond | apply carries_cond_snd
    | apply carries_arriveSelf
    | first | exact carries_inject (by assumption) (by assumption) | apply carries_inject (e := by assumption)
    | apply carries_emit | split | dsimp only

theorem carries_sendAll {s : State} (p : Nat) (d : GroupDesc) (m : CollMsg) (u : State) (h : Carries s u) :
    Carries s (sendAll p d m u).2 := by
  unfold sendAll
  refine carries_cond_snd ?_
    (carries_foldl_snd (a := ((0 : Status), u)) (fun t n ht => carries_sendColl _ _ _ _ ht) h)
  have h1 : ∀ c : Bool, Carries s (bif c then (sendColl p (ownNode u) m u).2 else u) := fun c =>
    carries_cond (carries_sendColl _ _ _ _ h) h
  dsimp only
  split
  · exact carries_inject (by assumption) (h1 _)
  · exact h1 _
  · exact carries_emit _ _ (h1 _)

theorem carries_takeColl {s : State} {p : Nat} {src : Option Nat} {m : CollMsg} {u t : State} (e : takeColl p src m u = some t)
    (h : Carries s u) : Carries s t := by
  unfold takeColl at e
  obtain ⟨x, hx, hy⟩ := Option.map_eq_some_iff.mp e
  cases hy
  exact carries_takeArrived _ _ x.1 _ hx h

theorem carries_reportColl {s : State} (b : Nat) (prog : Option Nat) (off : Nat) (w : W128) (st : Status) (v : W64) (u : State) (h : Carries s u) :
    Carries s (reportColl b prog off w st v u) := by
  unfold reportColl
  try dsimp only
  with_reducible repeat' first
    | intro _ | assumption | exact Carries.refl _ | apply carries_cond | apply carries_modBench
    | apply carries_reportFault | dsimp only

theorem carries_completeColl {s : State} (id : Nat) (st : Status) (who rank : Nat) (u : State) (h : Carries s u) :
    Carries s (completeColl id st who rank u) := by
  unfold completeColl
  try dsimp only
  with_reducible repeat' first
    | intro _ | assumption | exact Carries.refl _ | apply carries_modGroup | apply carries_reportColl | split
    | apply carries_mk (Nat.le_refl _) | dsimp only

theorem carries_sendAbort {s : State} (p : Nat) (d : GroupDesc) (seq : Nat) (st : Status) (who : Nat) (u : State) (h : Carries s u) :
    Carries s (sendAbort p d seq st who u) := by
  unfold sendAbort
  try dsimp only
  with_reducible repeat' first
    | intro _ | assumption | exact Carries.refl _ | apply carries_sendAll

theorem carries_dropRound {s : State} (p g n seq : Nat) (u : State) (h : Carries s u) :
    Carries s (dropRound p g n seq u) := by
  unfold dropRound
  try dsimp only
  with_reducible repeat' first
    | intro _ | assumption | exact Carries.refl _ | apply carries_modGroup | split | apply carries_mk (Nat.le_refl _)
    | dsimp only

theorem carries_refusedColl {s : State} (id : Nat) (st : Status) (u : State) (h : Carries s u) :
    Carries s (refusedColl id st u) := by
  unfold refusedColl
  try dsimp only
  with_reducible repeat' first
    | intro _ | assumption | exact Carries.refl _ | apply carries_completeColl | split | dsimp only

theorem carries_dataFail {s : State} (id : Nat) (u : State) (h : Carries s u) :
    Carries s (dataFail id u) := by
  unfold dataFail
  try dsimp only
  with_reducible repeat' first
    | intro _ | assumption | exact Carries.refl _ | apply carries_sendAbort | split | dsimp only

theorem carries_takeEarly {s : State} (p n : Nat) (d : GroupDesc) (u : State) (a : EarlyAbort) (h : Carries s u) :
    Carries s (takeEarly p n d u a) := by
  unfold takeEarly
  try dsimp only
  with_reducible repeat' first
    | intro _ | assumption | exact Carries.refl _ | apply carries_cond | apply carries_modGroup
    | apply carries_mk (Nat.le_refl _) | dsimp only

theorem carries_takeEarlies {s : State} (p n : Nat) (d : GroupDesc) (u : State) (h : Carries s u) :
    Carries s (takeEarlies p n d u) := by
  unfold takeEarlies
  try dsimp only
  with_reducible repeat' first
    | intro _ | assumption | exact Carries.refl _ | apply carries_takeEarly | apply carries_modPartition
    | apply carries_foldl | apply carries_mk (Nat.le_refl _) | dsimp only

theorem carries_acceptColl {s : State} (b : Nat) (e : Entry) (n : Nat) (d : GroupDesc) (u : State) (h : Carries s u) :
    Carries s (acceptColl b e n d u) := by
  unfold acceptColl
  try dsimp only
  with_reducible repeat' first
    | intro _ | assumption | exact Carries.refl _ | apply carries_cond | apply carries_cond_snd
    | apply carries_cond_fst | apply carries_takeEarlies | apply carries_sysRetire | apply carries_modGroup
    | apply carries_reportColl | apply carries_sendColl | apply carries_refusedColl | split
    | apply carries_mk (Nat.le_refl _) | dsimp only

theorem carries_collEntry {s : State} (b : Nat) (e : Entry) (u : State) (h : Carries s u) :
    Carries s (collEntry b e u) := by
  unfold collEntry
  try dsimp only
  with_reducible repeat' first
    | intro _ | assumption | exact Carries.refl _ | apply carries_cond | apply carries_cond_snd
    | apply carries_acceptColl | split | dsimp only

theorem carries_decideRound {s : State} (p n : Nat) (d : GroupDesc) (seq : Nat) (r : Gather) (u : State) (h : Carries s u) :
    Carries s (decideRound p n d seq r u) := by
  unfold decideRound
  try dsimp only
  with_reducible repeat' first
    | intro _ | assumption | exact Carries.refl _ | apply carries_cond | apply carries_cond_snd
    | apply carries_cond_fst | apply carries_sendAbort | apply carries_dropRound | apply carries_modGroup
    | apply carries_sendAll | apply carries_refusedColl | split | apply carries_mk (Nat.le_refl _) | dsimp only

theorem carries_dupColl {s : State} (p g n items : Nat) (u : State) (h : Carries s u) :
    Carries s (dupColl p g n items u) := by
  unfold dupColl
  try dsimp only
  with_reducible repeat' first
    | intro _ | assumption | exact Carries.refl _ | apply carries_bump | apply carries_modGroup
    | apply carries_mk (Nat.le_refl _) | dsimp only

theorem carries_answerNotReady {s : State} (p src g seq m : Nat) (chunk : Option (Nat × Nat)) (u : State) (h : Carries s u) :
    Carries s (answerNotReady p src g seq m chunk u) := by
  unfold answerNotReady
  try dsimp only
  with_reducible repeat' first
    | intro _ | assumption | exact Carries.refl _ | apply carries_sendColl | apply carries_bump

theorem carries_sendSummary {s : State} (p : Nat) (d : GroupDesc) (seq lead : Nat) (r : Gather) (u : State) (h : Carries s u) :
    Carries s (sendSummary p d seq lead r u) := by
  unfold sendSummary
  try dsimp only
  with_reducible repeat' first
    | intro _ | assumption | exact Carries.refl _ | apply carries_cond | apply carries_cond_snd
    | apply carries_cond_fst | apply carries_sendColl | apply carries_refusedColl | split | dsimp only

theorem carries_gather {s : State} (p n : Nat) (d : GroupDesc) (seq lead : Nat) (items : List GatherItem) (u : State) (h : Carries s u) :
    Carries s (gather p n d seq lead items u) := by
  unfold gather
  try dsimp only
  with_reducible repeat' first
    | intro _ | assumption | exact Carries.refl _ | apply carries_cond | apply carries_modGroup
    | apply carries_decideRound | apply carries_sendSummary | split | apply carries_mk (Nat.le_refl _) | dsimp only

theorem carries_roundArrive {s : State} (p src g seq lead from_ kind : Nat) (items : List GatherItem) (u : State) (h : Carries s u) :
    Carries s (roundArrive p src g seq lead from_ kind items u) := by
  unfold roundArrive
  try dsimp only
  with_reducible repeat' first
    | intro _ | assumption | exact Carries.refl _ | apply carries_cond | apply carries_answerNotReady
    | apply carries_dupColl | apply carries_gather | apply carries_modGroup | split | apply carries_mk (Nat.le_refl _)
    | dsimp only

theorem carries_signatureArrive {s : State} (p src : Nat) (msg : CollMsg) (u : State) (h : Carries s u) :
    Carries s (signatureArrive p src msg u) := by
  unfold signatureArrive
  try dsimp only
  with_reducible repeat' first
    | intro _ | assumption | exact Carries.refl _ | apply carries_takeColl (e := by assumption)
    | apply carries_roundArrive | split | dsimp only

theorem carries_endTensor {s : State} (id : Nat) (u : State) (h : Carries s u) :
    Carries s (endTensor id u) := by
  unfold endTensor
  try dsimp only
  with_reducible repeat' first
    | intro _ | assumption | exact Carries.refl _ | apply carries_cond | apply carries_completeColl | split
    | dsimp only

theorem carries_writeChunk {s : State} (id m k : Nat) (bs : List Byte) (sat : Bool) (u : State) (h : Carries s u) :
    Carries s (writeChunk id m k bs sat u) := by
  unfold writeChunk
  try dsimp only
  with_reducible repeat' first
    | intro _ | assumption | exact Carries.refl _ | apply carries_cond | apply carries_cond_snd
    | apply carries_cond_fst | apply carries_spaceWrite | apply carries_endTensor | apply carries_modColl
    | apply carries_dataFail | split | apply carries_mk (Nat.le_refl _) | dsimp only

theorem carries_ensureAcc {s : State} (id k : Nat) (u : State) (h : Carries s u) :
    Carries s (ensureAcc id k u).2 := by
  unfold ensureAcc
  try dsimp only
  with_reducible repeat' first
    | intro _ | assumption | exact Carries.refl _ | apply carries_cond | apply carries_cond_snd
    | apply carries_spaceSeen | apply carries_modGroup | split | apply carries_mk (Nat.le_refl _) | dsimp only

theorem carries_finishChunk {s : State} (id k : Nat) (u : State) (h : Carries s u) :
    Carries s (finishChunk id k u) := by
  unfold finishChunk
  try dsimp only
  with_reducible repeat' first
    | intro _ | assumption | exact Carries.refl _ | apply carries_cond | apply carries_cond_snd
    | apply carries_cond_fst | apply carries_modColl | apply carries_modGroup | apply carries_writeChunk
    | apply carries_sendAll | apply carries_refusedColl | split | apply carries_mk (Nat.le_refl _) | dsimp only

theorem carries_sendChunk {s : State} (id : Nat) (c : Coll) (d : GroupDesc) (u : State) (h : Carries s u) :
    Carries s (sendChunk id c d u) := by
  unfold sendChunk
  dsimp only
  refine carries_cond ?_ ?_
  · exact carries_cond (carries_endTensor _ _ (carries_finishChunk _ _ _ (carries_modColl _ _ _ (carries_ensureAcc _ _ _ h))))
      (carries_dataFail _ _ (carries_modColl _ _ _ (carries_ensureAcc _ _ _ h)))
  · have hv := carries_spaceSeen c.part (sourceAt c (bif reduces c then c.pos % collM c else c.member)
      (bif reduces c then c.pos / collM c else c.pos)) (chunkLen c (bif reduces c then c.pos / collM c else c.pos)) u h
    split
    · exact carries_dataFail _ _ (carries_modColl _ _ _ hv)
    · refine carries_cond (carries_endTensor _ _ (carries_modColl _ _ _ ?_)) (carries_refusedColl _ _ _ ?_) <;>
        · refine carries_cond_snd ?_ (carries_sendAll _ _ _ _ hv)
          split
          · exact carries_sendColl _ _ _ _ hv
          · exact hv

theorem carries_sendChunks {s : State} (id n : Nat) (u : State) (h : Carries s u) : Carries s (sendChunks id n u) := by
  induction n generalizing u with
  | zero => exact h
  | succ n ih =>
    simp only [sendChunks]
    split
    · exact h
    · split
      · exact h
      · exact carries_cond (ih _ (carries_sendChunk _ _ _ _ h)) h

theorem carries_collPump {s : State} (u : State) (h : Carries s u) :
    Carries s (collPump u) := by
  unfold collPump
  try dsimp only
  with_reducible repeat' first
    | intro _ | assumption | exact Carries.refl _ | apply carries_sendChunks | apply carries_foldl | dsimp only

theorem carries_goMember {s : State} (p g seq chunk : Nat) (vs : List Int) (flags : Nat) (u : State) (m : Nat) (h : Carries s u) :
    Carries s (goMember p g seq chunk vs flags u m) := by
  unfold goMember
  try dsimp only
  with_reducible repeat' first
    | intro _ | assumption | exact Carries.refl _ | apply carries_cond | apply carries_modColl
    | apply carries_completeColl | apply carries_modBench | split | apply carries_mk (Nat.le_refl _) | dsimp only

theorem carries_endGather {s : State} (p g n seq : Nat) (u : State) (h : Carries s u) :
    Carries s (endGather p g n seq u) := by
  unfold endGather
  try dsimp only
  with_reducible repeat' first
    | intro _ | assumption | exact Carries.refl _ | apply carries_modGroup | split | apply carries_mk (Nat.le_refl _)
    | dsimp only

theorem carries_goArrive {s : State} (p : Nat) (msg : CollMsg) (u : State) (h : Carries s u) :
    Carries s (goArrive p msg u) := by
  unfold goArrive
  split
  · next e =>
    have h1 := carries_takeColl e h
    split
    · exact h1
    · extract_lets key v
      have hv : Carries s v := carries_modGroup _ _ _ _ _ (carries_endGather _ _ _ _ _ h1)
      exact carries_cond (carries_dupColl _ _ _ _ _ h1)
        (carries_collPump _ (carries_foldl (fun t m ht => carries_goMember _ _ _ _ _ _ t m ht) hv))
  · exact h

theorem carries_contributionArrive {s : State} (p src : Nat) (msg : CollMsg) (g seq m dst k : Nat) (bs : List Byte)
    (u : State) (h : Carries s u) : Carries s (contributionArrive p src msg g seq m dst k bs u) := by
  unfold contributionArrive
  split
  · exact h
  · next e =>
    have h1 := carries_takeColl e h
    split
    · exact carries_answerNotReady _ _ _ _ _ _ _ h1
    · refine carries_cond h1 (carries_cond (carries_answerNotReady _ _ _ _ _ _ _ h1)
        (carries_cond (carries_dupColl _ _ _ _ _ h1) ?_))
      have h2 := carries_modGroup (s := s)
      dsimp only
      split
      · exact h2 _ _ _ _ _ (h2 _ _ _ _ _ h1)
      · exact carries_cond h (h2 _ _ _ _ _ (h2 _ _ _ _ _ h1))

theorem carries_resultArrive {s : State} (p src : Nat) (msg : CollMsg) (g seq m k : Nat) (bs : List Byte) (sat : Bool)
    (u : State) (h : Carries s u) : Carries s (resultArrive p src msg g seq m k bs sat u) := by
  unfold resultArrive
  split
  · exact h
  · next e =>
    have h1 := carries_takeColl e h
    split
    · exact h1
    · exact carries_cond (carries_dupColl _ _ _ _ _ h1) (carries_cond h
        (carries_foldl (fun t c ht => carries_writeChunk _ _ _ _ _ t ht) (carries_modGroup _ _ _ _ _ h1)))

theorem carries_chunkArrive {s : State} (p src : Nat) (msg : CollMsg) (u : State) (h : Carries s u) :
    Carries s (chunkArrive p src msg u) := by
  unfold chunkArrive
  try dsimp only
  with_reducible repeat' first
    | intro _ | assumption | exact Carries.refl _ | apply carries_collPump | apply carries_contributionArrive
    | apply carries_resultArrive | split | dsimp only

theorem carries_chunkFold {s : State} (b : Nat) (u : State) (h : Carries s u) : Carries s (chunkFold b u) := by
  unfold chunkFold
  extract_lets todo
  clear_value todo
  split
  · exact h
  · refine carries_cond h ?_
    extract_lets a v it fold w
    have ha : Carries s a.2 := carries_ensureAcc _ _ _ h
    exact carries_cond (carries_dataFail _ _ ha)
      (carries_collPump _ (carries_endTensor _ _ (carries_finishChunk _ _ _ (carries_modGroup _ _ _ _ _ ha))))

theorem carries_noteAbort {s : State} (p g : Nat) (st : Status) (who rank : Nat) (u : State) (h : Carries s u) :
    Carries s (noteAbort p g st who rank u) := by
  unfold noteAbort
  try dsimp only
  with_reducible repeat' first
    | intro _ | assumption | exact Carries.refl _ | apply carries_setRaw | apply carries_bump

theorem carries_abortMember {s : State} (p g seq n : Nat) (st : Status) (who rank : Nat) (u : State) (m : Nat) (h : Carries s u) :
    Carries s (abortMember p g seq n st who rank u m) := by
  unfold abortMember
  try dsimp only
  with_reducible repeat' first
    | intro _ | assumption | exact Carries.refl _ | apply carries_cond | apply carries_cond_snd
    | apply carries_cond_fst | apply carries_completeColl | apply carries_modGroup | apply carries_foldl
    | apply carries_mk (Nat.le_refl _) | dsimp only

theorem carries_abortArrive {s : State} (p : Nat) (msg : CollMsg) (u : State) (h : Carries s u) :
    Carries s (abortArrive p msg u) := by
  unfold abortArrive
  split
  · next e =>
    have h1 := carries_takeColl e h
    extract_lets g seq
    split
    · exact carries_cond h1 (carries_modPartition _ _ _ h1)
    · extract_lets ms x touched v1 v2 rounds v3
      have h2 : Carries s v1 := carries_cond (carries_noteAbort _ _ _ _ _ _ h1) h1
      have h3 : Carries s v2 := carries_foldl (fun t m ht => carries_abortMember _ _ _ _ _ _ _ t m ht) h2
      have h4 : Carries s v3 := carries_foldl (fun t r ht => carries_dropRound _ _ _ _ t ht) h3
      exact carries_collPump _ (carries_cond (carries_modGroup _ _ _ _ _ h4) h4)
  · exact h

theorem carries_collTimeout {s : State} (p g seq m : Nat) (u : State) (h : Carries s u) :
    Carries s (collTimeout p g seq m u) := by
  unfold collTimeout
  try dsimp only
  with_reducible repeat' first
    | intro _ | assumption | exact Carries.refl _ | apply carries_cond | apply carries_sendAbort
    | apply carries_dropRound | split | dsimp only

theorem carries_notReadyResend {s : State} (p g seq m : Nat) (u : State) (h : Carries s u) :
    Carries s (notReadyResend p g seq m u) := by
  unfold notReadyResend
  try dsimp only
  with_reducible repeat' first
    | intro _ | assumption | exact Carries.refl _ | apply carries_cond | apply carries_cond_snd
    | apply carries_cond_fst | apply carries_takeArrived (e := by assumption) | apply carries_answer
    | apply carries_refusedColl | apply carries_sendSummary | apply carries_sendColl | apply carries_spaceSeen
    | apply carries_dataFail | split | dsimp only

theorem carries_collResend {s : State} (p dst : Nat) (msg : CollMsg) (u : State) (h : Carries s u) :
    Carries s (collResend p dst msg u) := by
  unfold collResend
  try dsimp only
  with_reducible repeat' first
    | intro _ | assumption | exact Carries.refl _ | apply carries_cond | apply carries_cond_snd
    | apply carries_takeArrived (e := by assumption) | apply carries_sendColl | apply carries_bump | split
    | dsimp only

theorem carries_memberStops {s : State} (n : Nat) (x : Prog) (u : State) (h : Carries s u) :
    Carries s (memberStops n x u) := by
  unfold memberStops
  try dsimp only
  with_reducible repeat' first
    | intro _ | assumption | exact Carries.refl _ | apply carries_sendAbort | apply carries_foldl | dsimp only

theorem carries_collStops {s : State} (o u : State) (h : Carries s u) : Carries s (collStops o u) := by
  unfold collStops
  exact carries_foldl (fun t x ht => carries_cond (carries_memberStops _ _ _ ht) ht) h

end Sys2Proof.Machine
end

