-- ==== Sys2Proof/Laws/KeepsContainment.lean ====
section
/-! SUPPORT. What the operations of Machine/Containment.lean keep. -/

namespace Sys2Proof.Machine

theorem carries_imbalance {s : State} (kind index : Nat) (u : State) (h : Carries s u) :
    Carries s (imbalance kind index u) := by
  unfold imbalance
  try dsimp only
  with_reducible repeat' first
    | intro _ | assumption | exact Carries.refl _ | apply carries_raise | apply carries_bump
    | apply carries_fenceCause

theorem carries_causeArrives {s : State} (kind index : Nat) (cause : Status) (u : State) (h : Carries s u) :
    Carries s (causeArrives kind index cause u) := by
  unfold causeArrives
  try dsimp only
  with_reducible repeat' first
    | intro _ | assumption | exact Carries.refl _ | apply carries_cond | apply carries_imbalance
    | apply carries_fenceCause

theorem carries_uncontained {s : State} (kind index : Nat) (u : State) (h : Carries s u) :
    Carries s (uncontained kind index u) := by
  unfold uncontained
  try dsimp only
  with_reducible repeat' first
    | intro _ | assumption | exact Carries.refl _ | apply carries_raise | apply carries_fenceCause
    | apply carries_foldl | dsimp only

theorem carries_errResult {s : State} (r : Nat) (u : State) (h : Carries s u) :
    Carries s (errResult r u) := by
  unfold errResult
  try dsimp only
  with_reducible repeat' first
    | intro _ | assumption | exact Carries.refl _ | apply carries_setFld

theorem carries_errFence {s : State} (u : State) (h : Carries s u) :
    Carries s (errFence u) := by
  unfold errFence
  try dsimp only
  with_reducible repeat' first
    | intro _ | assumption | exact Carries.refl _ | apply carries_cond | apply carries_cond_snd
    | apply carries_cond_fst | apply carries_errResult | apply carries_fenceCause

theorem carries_beginRecovery {s : State} (kind index : Nat) (u : State) (h : Carries s u) :
    Carries s (beginRecovery kind index u) := by
  unfold beginRecovery
  try dsimp only
  with_reducible repeat' first
    | intro _ | assumption | exact Carries.refl _ | apply carries_cond | apply carries_setUnit
    | apply carries_moveStopped | apply carries_bump | apply carries_ndlRetrain | apply carries_setFld
    | apply carries_procRestart | apply carries_foldl | split | dsimp only

theorem carries_errUnfence {s : State} (u : State) (h : Carries s u) :
    Carries s (errUnfence u) := by
  unfold errUnfence
  try dsimp only
  with_reducible repeat' first
    | intro _ | assumption | exact Carries.refl _ | apply carries_cond | apply carries_cond_snd
    | apply carries_cond_fst | apply carries_errResult | apply carries_beginRecovery

theorem carries_errCmdWritten {s : State} (v : Nat) (u : State) (h : Carries s u) :
    Carries s (errCmdWritten v u) := by
  unfold errCmdWritten
  try dsimp only
  with_reducible repeat' first
    | intro _ | assumption | exact Carries.refl _ | apply carries_cond | apply carries_errFence
    | apply carries_errUnfence

theorem carries_failBench {s : State} (b : Nat) (u : State) (h : Carries s u) :
    Carries s (failBench b u) := by
  unfold failBench
  try dsimp only
  with_reducible repeat' first
    | intro _ | assumption | exact Carries.refl _ | apply carries_finishTxn | apply carries_endOwner
    | apply carries_finishReq | apply carries_modReq | apply carries_completeOp | apply carries_modBench
    | apply carries_completeColl | apply carries_foldl | apply carries_mk (Nat.le_refl _) | dsimp only

theorem carries_failWork {s : State} (kind index : Nat) (u : State) (h : Carries s u) :
    Carries s (failWork kind index u) := by
  unfold failWork
  try dsimp only
  with_reducible repeat' first
    | intro _ | assumption | exact Carries.refl _ | apply carries_cond | apply carries_cond_snd
    | apply carries_cond_fst | apply carries_failBench | apply carries_finishTxn | apply carries_foldl | split
    | dsimp only

theorem carries_becomesFenced {s : State} (kind index : Nat) (cause : Status) (u : State) (h : Carries s u) :
    Carries s (becomesFenced kind index cause u) := by
  unfold becomesFenced
  try dsimp only
  with_reducible repeat' first
    | intro _ | assumption | exact Carries.refl _ | apply carries_setUnit

theorem carries_drainEnd {s : State} (kind index : Nat) (u : State) (h : Carries s u) :
    Carries s (drainEnd kind index u) := by
  unfold drainEnd
  try dsimp only
  with_reducible repeat' first
    | intro _ | assumption | exact Carries.refl _ | apply carries_cond | apply carries_becomesFenced
    | apply carries_failWork | split | dsimp only

theorem carries_fenceCount {s : State} (u : State) (c : Count) (h : Carries s u) :
    Carries s (fenceCount u c) := by
  unfold fenceCount
  try dsimp only
  with_reducible repeat' first
    | intro _ | assumption | exact Carries.refl _ | apply carries_imbalance | apply carries_raise | apply carries_bump
    | apply carries_fenceCause | apply carries_modGroup | apply carries_foldl | split
    | apply carries_mk (Nat.le_refl _) | dsimp only

theorem carries_chargeWrite {s : State} (p va n : Nat) (u : State) (h : Carries s u) :
    Carries s (chargeWrite p va n u) := by
  unfold chargeWrite
  try dsimp only
  with_reducible repeat' first
    | intro _ | assumption | exact Carries.refl _ | apply carries_spendAt | apply carries_foldl | split | dsimp only

theorem carries_takeCensus {s : State} (c : Census) (u : State) (h : Carries s u) :
    Carries s (takeCensus c u).2 := by
  unfold takeCensus
  try dsimp only
  with_reducible repeat' first
    | intro _ | assumption | exact Carries.refl _ | apply carries_cond | apply carries_cond_snd
    | apply carries_spaceWrite | apply carries_chargeWrite | apply carries_fenceCount | apply carries_setFld
    | apply carries_modPartition | apply carries_foldl | split | apply carries_mk (Nat.le_refl _) | dsimp only

theorem carries_censusEntry {s : State} (b : Nat) (e : Entry) (u : State) (h : Carries s u) :
    Carries s (censusEntry b e u) := by
  unfold censusEntry
  try dsimp only
  with_reducible repeat' first
    | intro _ | assumption | exact Carries.refl _ | apply carries_cond | apply carries_sysRetire
    | apply carries_mk (Nat.le_refl _)

theorem carries_censusGo {s : State} (u : State) (h : Carries s u) :
    Carries s (censusGo u) := by
  unfold censusGo
  try dsimp only
  with_reducible repeat' first
    | intro _ | assumption | exact Carries.refl _ | apply carries_cond | apply carries_mk (Nat.le_refl _)

theorem carries_censusComplete {s : State} (u : State) (h : Carries s u) :
    Carries s (censusComplete u) := by
  unfold censusComplete
  try dsimp only
  with_reducible repeat' first
    | intro _ | assumption | exact Carries.refl _ | apply carries_cond | apply carries_cond_snd
    | apply carries_cond_fst | apply carries_takeCensus | apply carries_completeOp | split
    | apply carries_mk (Nat.le_refl _) | dsimp only

theorem carries_recoveryFails {s : State} (kind index : Nat) (u : State) (h : Carries s u) :
    Carries s (recoveryFails kind index u) := by
  unfold recoveryFails
  try dsimp only
  with_reducible repeat' first
    | intro _ | assumption | exact Carries.refl _ | apply carries_raise | apply carries_setUnit

theorem carries_stationsReturn {s : State} (b : Nat) (failed : List Nat) (u : State) (h : Carries s u) :
    Carries s (stationsReturn b failed u) := by
  unfold stationsReturn
  try dsimp only
  with_reducible repeat' first
    | intro _ | assumption | exact Carries.refl _ | apply carries_cond | apply carries_setUnit | apply carries_unitUp
    | apply carries_foldl | dsimp only

theorem carries_benchRecovered {s : State} (b : Nat) (pass : Bool) (failed : List Nat) (u : State) (h : Carries s u) :
    Carries s (benchRecovered b pass failed u) := by
  unfold benchRecovered
  try dsimp only
  with_reducible repeat' first
    | intro _ | assumption | exact Carries.refl _ | apply carries_cond | apply carries_stationsReturn
    | apply carries_unitUp | apply carries_recoveryFails

theorem carries_recovered {s : State} (kind index : Nat) (u : State) (h : Carries s u) :
    Carries s (recovered kind index u) := by
  unfold recovered
  try dsimp only
  with_reducible repeat' first
    | intro _ | assumption | exact Carries.refl _ | apply carries_cond | apply carries_modSector
    | apply carries_unitUp | apply carries_moveStopped | apply carries_setFld | apply carries_laneReturn
    | apply carries_foldl | split | apply carries_mk (Nat.le_refl _) | dsimp only

theorem carries_recoveryEnd {s : State} (kind index : Nat) (pass : Bool) (failed : List Nat) (u : State) (h : Carries s u) :
    Carries s (recoveryEnd kind index pass failed u) := by
  unfold recoveryEnd
  try dsimp only
  with_reducible repeat' first
    | intro _ | assumption | exact Carries.refl _ | apply carries_cond | apply carries_benchRecovered
    | apply carries_setLane | apply carries_recoveryFails | apply carries_recovered | apply carries_setFld | split
    | dsimp only

theorem carries_evpostEntry {s : State} (b : Nat) (e : Entry) (u : State) (h : Carries s u) :
    Carries s (evpostEntry b e u) := by
  unfold evpostEntry
  try dsimp only
  with_reducible repeat' first
    | intro _ | assumption | exact Carries.refl _ | apply carries_sysRetire | apply carries_raise

theorem carries_copyRecord {s : State} (r : TelRecord) (u : State) (h : Carries s u) :
    Carries s (copyRecord r u) := by
  unfold copyRecord
  try dsimp only
  with_reducible repeat' first
    | intro _ | assumption | exact Carries.refl _ | apply carries_cond | apply carries_cond_snd
    | apply carries_cond_fst | apply carries_emit | apply carries_foldl | split | apply carries_mk (Nat.le_refl _)
    | dsimp only

theorem carries_recordLeaves {s : State} (r : TelRecord) (u : State) (h : Carries s u) :
    Carries s (recordLeaves r u) := by
  unfold recordLeaves
  try dsimp only
  with_reducible repeat' first
    | intro _ | assumption | exact Carries.refl _ | apply carries_copyRecord | apply carries_mk (Nat.le_refl _)

theorem carries_toRing {s : State} (r : TelRecord) (u : State) (h : Carries s u) :
    Carries s (toRing r u) := by
  unfold toRing
  try dsimp only
  with_reducible repeat' first
    | intro _ | assumption | exact Carries.refl _ | apply carries_cond | apply carries_cond_snd
    | apply carries_cond_fst | apply carries_spaceWrite | apply carries_setRaw64 | apply carries_bump

theorem carries_queueLeave {s : State} (u : State) (h : Carries s u) :
    Carries s (queueLeave u) := by
  unfold queueLeave
  try dsimp only
  with_reducible repeat' first
    | intro _ | assumption | exact Carries.refl _ | apply carries_cond | apply carries_recordLeaves
    | apply carries_toRing | split | dsimp only

end Sys2Proof.Machine
end

