-- ==== Sys2Proof/Laws/KeepsDieLinks.lean ====
section
/-! SUPPORT. What the operations of Machine/DieLinks.lean keep. -/

namespace Sys2Proof.Machine

theorem carries_moduleRuns {s : State} (m : Nat) (a b : Bool × Nat) (u : State) (h : Carries s u) :
    Carries s (moduleRuns m a b u) := by
  unfold moduleRuns
  try dsimp only
  with_reducible repeat' first
    | intro _ | assumption | exact Carries.refl _ | apply carries_moveStopped | apply carries_setFld
    | apply carries_setNdlState

theorem carries_dieLinkTrain {s : State} (m : Nat) (r0 r1 : DirTest) (u : State) (h : Carries s u) :
    Carries s (dieLinkTrain m r0 r1 u) := by
  unfold dieLinkTrain
  try dsimp only
  with_reducible repeat' first
    | intro _ | assumption | exact Carries.refl _ | apply carries_cond | apply carries_moduleRuns
    | apply carries_fenceCause | split | dsimp only

theorem carries_beginRetrain {s : State} (m : Nat) (u : State) (h : Carries s u) :
    Carries s (beginRetrain m u) := by
  unfold beginRetrain
  try dsimp only
  with_reducible repeat' first
    | intro _ | assumption | exact Carries.refl _ | apply carries_cond | apply carries_modNdl
    | apply carries_fenceCause | apply carries_moveStopped | apply carries_bump | apply carries_ndlRetrain
    | apply carries_setNdlState | apply carries_mk (Nat.le_refl _) | dsimp only

theorem carries_groupReceive {s : State} (m d seq : Nat) (ok : Bool) (ack : Nat) (flows : List NdlFlow) (u : State) (h : Carries s u) :
    Carries s (groupReceive m d seq ok ack flows u) := by
  unfold groupReceive
  try dsimp only
  with_reducible repeat' first
    | intro _ | assumption | exact Carries.refl _ | apply carries_cond | apply carries_modDir | apply carries_bump
    | apply carries_emit | apply carries_beginRetrain | apply carries_mk (Nat.le_refl _) | dsimp only

theorem carries_clearReplays {s : State} (m : Nat) (u : State) (h : Carries s u) :
    Carries s (clearReplays m u) := by
  unfold clearReplays
  try dsimp only
  with_reducible repeat' first
    | intro _ | assumption | exact Carries.refl _ | apply carries_modDir | apply carries_mk (Nat.le_refl _)
    | dsimp only

theorem carries_ndlRetrain {s : State} (m d : Nat) (r0 r1 : DirTest) (inTime : Bool) (u : State) (h : Carries s u) :
    Carries s (ndlRetrain m d r0 r1 inTime u) := by
  unfold ndlRetrain
  try dsimp only
  with_reducible repeat' first
    | intro _ | assumption | exact Carries.refl _ | apply carries_cond | apply carries_clearReplays
    | apply carries_moduleRuns | apply carries_unitUp | apply carries_setNdlState | apply carries_recoveryFails
    | apply carries_fenceCause | split | dsimp only

theorem carries_autoRecover {s : State} (m : Nat) (u : State) (h : Carries s u) :
    Carries s (autoRecover m u) := by
  unfold autoRecover
  try dsimp only
  with_reducible repeat' first
    | intro _ | assumption | exact Carries.refl _ | apply carries_cond | apply carries_beginRecovery
    | apply carries_modNdl | apply carries_mk (Nat.le_refl _) | dsimp only

theorem carries_ucieDiscovery {s : State} (id : Option W64) (rate : List Nat) (narrow : List Bool) (u : State) (h : Carries s u) :
    Carries s (ucieDiscovery id rate narrow u) := by
  unfold ucieDiscovery
  try dsimp only
  with_reducible repeat' first
    | intro _ | assumption | exact Carries.refl _ | apply carries_cond | apply carries_setRaw | apply carries_setRaw64
    | apply carries_setFld | apply carries_extendMr | split | apply carries_mk (Nat.le_refl _) | dsimp only

theorem carries_dieRefused {s : State} (st : Status) (u : State) (h : Carries s u) :
    Carries s (dieRefused st u) := by
  unfold dieRefused
  try dsimp only
  with_reducible repeat' first
    | intro _ | assumption | exact Carries.refl _ | apply carries_emit | apply carries_bump

theorem carries_dieRead {s : State} (p pa : Nat) (u : State) (h : Carries s u) :
    Carries s (dieRead p pa u) := by
  unfold dieRead
  try dsimp only
  with_reducible repeat' first
    | intro _ | assumption | exact Carries.refl _ | apply carries_spendAt | apply carries_emit
    | apply carries_linesSeen | split | dsimp only

theorem carries_dieServe {s : State} (a : DieAccess) (l : Leaf) (u : State) (h : Carries s u) :
    Carries s (dieServe a l u) := by
  unfold dieServe
  try dsimp only
  with_reducible repeat' first
    | intro _ | assumption | exact Carries.refl _ | apply carries_cond | apply carries_cond_snd
    | apply carries_cond_fst | apply carries_cond_last | apply carries_dieRead | apply carries_emit
    | apply carries_pageWrite | apply carries_spendAt | apply carries_atomicAt | apply carries_abortMoveOut | split
    | dsimp only

theorem carries_askDrift {s : State} (p v : Nat) (u : State) (h : Carries s u) :
    Carries s (askDrift p v u) := by
  unfold askDrift
  try dsimp only
  with_reducible repeat' first
    | intro _ | assumption | exact Carries.refl _ | apply carries_cond | apply carries_modPartition | split
    | apply carries_mk (Nat.le_refl _) | dsimp only

theorem carries_ucieAccess {s : State} (a : DieAccess) (u : State) (h : Carries s u) :
    Carries s (ucieAccess a u) := by
  unfold ucieAccess
  try dsimp only
  with_reducible repeat' first
    | intro _ | assumption | exact Carries.refl _ | apply carries_cond | apply carries_dieRefused
    | apply carries_dieServe | apply carries_heatPage | apply carries_waitAt | apply carries_askDrift | split
    | apply carries_mk (Nat.le_refl _) | dsimp only

theorem carries_ucieModuleDown {s : State} (m : Nat) (u : State) (h : Carries s u) :
    Carries s (ucieModuleDown m u) := by
  unfold ucieModuleDown
  try dsimp only
  with_reducible repeat' first
    | intro _ | assumption | exact Carries.refl _ | apply carries_cond | apply carries_fenceCause
    | apply carries_setFld | split | dsimp only

theorem carries_dbgLoopWritten {s : State} (v : Nat) (u : State) (h : Carries s u) :
    Carries s (dbgLoopWritten v u) := by
  unfold dbgLoopWritten
  try dsimp only
  with_reducible repeat' first
    | intro _ | assumption | exact Carries.refl _ | apply carries_cond | apply carries_setFld
    | apply carries_setNdlState | apply carries_mk (Nat.le_refl _)

theorem carries_loopComplete {s : State} (first errs : Nat) (u : State) (h : Carries s u) :
    Carries s (loopComplete first errs u) := by
  unfold loopComplete
  try dsimp only
  with_reducible repeat' first
    | intro _ | assumption | exact Carries.refl _ | apply carries_cond | apply carries_setRaw | apply carries_setFld
    | apply carries_setNdlState

theorem carries_p1500Written {s : State} (v : Nat) (u : State) (h : Carries s u) :
    Carries s (p1500Written v u) := by
  unfold p1500Written
  try dsimp only
  with_reducible repeat' first
    | intro _ | assumption | exact Carries.refl _ | apply carries_cond | apply carries_setFld | dsimp only

theorem carries_p1500Complete {s : State} (pass : Bool) (u : State) (h : Carries s u) :
    Carries s (p1500Complete pass u) := by
  unfold p1500Complete
  try dsimp only
  with_reducible repeat' first
    | intro _ | assumption | exact Carries.refl _ | apply carries_cond | apply carries_setFld

end Sys2Proof.Machine
end

