-- ==== Sys2Proof/Laws/KeepsRegAccess.lean ====
section
/-! SUPPORT. What the operations of Machine/RegAccess.lean keep. -/

namespace Sys2Proof.Machine

theorem carries_modPath {s : State} (k : Nat) (f : PathRegs → PathRegs) (u : State) (h : Carries s u) :
    Carries s (modPath k f u) := by
  unfold modPath
  try dsimp only
  with_reducible repeat' first
    | intro _ | assumption | exact Carries.refl _ | apply carries_mk (Nat.le_refl _)

theorem carries_readThrough {s : State} (k : Nat) (p : Place) (u : State) (h : Carries s u) :
    Carries s (readThrough k p u).2 := by
  unfold readThrough
  try dsimp only
  with_reducible repeat' first
    | intro _ | assumption | exact Carries.refl _ | apply carries_cond_snd | apply carries_modPath | split
    | apply carries_mk (Nat.le_refl _) | dsimp only

theorem carries_regRead {s : State} (path : Path) (a : Nat) (u : State) (h : Carries s u) :
    Carries s (regRead path a u).2.2 := by
  unfold regRead
  try dsimp only
  with_reducible repeat' first
    | intro _ | assumption | exact Carries.refl _ | apply carries_cond | apply carries_cond_snd
    | apply carries_cond_last | apply carries_readThrough | split | dsimp only

theorem carries_shadowRouteSet {s : State} (hi : Bool) (d v : Nat) (u : State) (h : Carries s u) :
    Carries s (shadowRouteSet hi d v u) := by
  unfold shadowRouteSet
  try dsimp only
  with_reducible repeat' first
    | intro _ | assumption | exact Carries.refl _ | apply carries_cond | apply carries_mk (Nat.le_refl _)

theorem carries_shadowTreeSet {s : State} (hi : Bool) (d v : Nat) (u : State) (h : Carries s u) :
    Carries s (shadowTreeSet hi d v u) := by
  unfold shadowTreeSet
  try dsimp only
  with_reducible repeat' first
    | intro _ | assumption | exact Carries.refl _ | apply carries_cond | apply carries_mk (Nat.le_refl _)

theorem carries_rebucket {s : State} (p d1 g : Nat) (u : State) (h : Carries s u) :
    Carries s (rebucket p d1 g u) := by
  unfold rebucket
  try dsimp only
  with_reducible repeat' first
    | intro _ | assumption | exact Carries.refl _ | apply carries_modPartition | apply carries_mk (Nat.le_refl _)
    | dsimp only

theorem carries_bwWritten {s : State} (p v : Nat) (u : State) (h : Carries s u) :
    Carries s (bwWritten p v u) := by
  unfold bwWritten
  try dsimp only
  with_reducible repeat' first
    | intro _ | assumption | exact Carries.refl _ | apply carries_cond | apply carries_setRaw | apply carries_rebucket
    | apply carries_foldl | dsimp only

theorem carries_seqFaultWritten {s : State} (b v : Nat) (u : State) (h : Carries s u) :
    Carries s (seqFaultWritten b v u) := by
  unfold seqFaultWritten
  try dsimp only
  with_reducible repeat' first
    | intro _ | assumption | exact Carries.refl _ | apply carries_cond | apply carries_modBench
    | apply carries_mk (Nat.le_refl _) | dsimp only

theorem carries_storePlace {s : State} (p : Place) (old v : Nat) (u : State) (h : Carries s u) :
    Carries s (storePlace p old v u) := by
  unfold storePlace
  try dsimp only
  with_reducible repeat' first
    | intro _ | assumption | exact Carries.refl _ | apply carries_shadowRouteSet | apply carries_shadowTreeSet
    | apply carries_bwWritten | apply carries_seqFault | apply carries_seqFaultWritten | apply carries_setRaw | split
    | dsimp only

theorem carries_afterWrite {s : State} (p : Place) (lock : Bool) (old v : Nat) (mctp : Option (List Byte)) (u : State) (h : Carries s u) :
    Carries s (afterWrite p lock old v mctp u) := by
  unfold afterWrite
  try dsimp only
  with_reducible repeat' first
    | intro _ | assumption | exact Carries.refl _ | apply carries_cond | apply carries_numCtlWritten
    | apply carries_optCtlWritten | apply carries_optSwapWritten | apply carries_fabSwap | apply carries_fabForce
    | apply carries_rmaPurge | apply carries_updCtlWritten | apply carries_fwpCtlWritten | apply carries_attExtend
    | apply carries_ownCtlWritten | apply carries_checkQuotas | apply carries_calCtlWritten
    | apply carries_errCmdWritten | apply carries_censusGo | apply carries_dbgLoopWritten | apply carries_p1500Written
    | split | apply carries_mk (Nat.le_refl _) | dsimp only

theorem carries_commitPlace {s : State} (p : Place) (v : Nat) (mctp : Option (List Byte)) (u : State) (h : Carries s u) :
    Carries s (commitPlace p v mctp u) := by
  unfold commitPlace
  try dsimp only
  with_reducible repeat' first
    | intro _ | assumption | exact Carries.refl _ | apply carries_afterWrite | apply carries_storePlace

theorem carries_writeHi {s : State} (k : Nat) (p : Place) (lo : Reg) (v : Nat) (u : State) (h : Carries s u) :
    Carries s (writeHi k p lo v u).2 := by
  unfold writeHi
  try dsimp only
  with_reducible repeat' first
    | intro _ | assumption | exact Carries.refl _ | apply carries_cond | apply carries_cond_snd
    | apply carries_commitPlace | apply carries_modPath | split | apply carries_mk (Nat.le_refl _) | dsimp only

theorem carries_writeLo {s : State} (k : Nat) (p : Place) (v : Nat) (u : State) (h : Carries s u) :
    Carries s (writeLo k p v u).2 := by
  unfold writeLo
  try dsimp only
  with_reducible repeat' first
    | intro _ | assumption | exact Carries.refl _ | apply carries_cond | apply carries_cond_snd
    | apply carries_modPath | apply carries_mk (Nat.le_refl _) | dsimp only

theorem carries_writeThrough {s : State} (k : Nat) (p : Place) (v : Nat) (mctp : Option (List Byte)) (u : State) (h : Carries s u) :
    Carries s (writeThrough k p v mctp u).2 := by
  unfold writeThrough
  try dsimp only
  with_reducible repeat' first
    | intro _ | assumption | exact Carries.refl _ | apply carries_cond | apply carries_cond_snd
    | apply carries_writeLo | apply carries_writeHi | apply carries_commitPlace | split | dsimp only

theorem carries_regWriteM {s : State} (path : Path) (a v : Nat) (mctp : Option (List Byte)) (u : State) (h : Carries s u) :
    Carries s (regWriteM path a v mctp u).2 := by
  unfold regWriteM
  try dsimp only
  with_reducible repeat' first
    | intro _ | assumption | exact Carries.refl _ | apply carries_cond | apply carries_cond_snd
    | apply carries_writeThrough | split | dsimp only

theorem carries_regWrite {s : State} (path : Path) (a v : Nat) (u : State) (h : Carries s u) :
    Carries s (regWrite path a v u).2 := by
  unfold regWrite
  try dsimp only
  with_reducible repeat' first
    | intro _ | assumption | exact Carries.refl _ | apply carries_cond_snd | apply carries_regWriteM

theorem carries_pathTaken {s : State} (path : Path) (a v : Nat) (u : State) (h : Carries s u) :
    Carries s (pathTaken path a v u) := by
  unfold pathTaken
  try dsimp only
  with_reducible repeat' first
    | intro _ | assumption | exact Carries.refl _ | apply carries_takeMgmt (e := by assumption) | split | dsimp only

theorem carries_pathWrite {s : State} (path : Path) (a : Nat) (value : W32) (mctp : Option (List Byte)) (u : State) (h : Carries s u) :
    Carries s (pathWrite path a value mctp u) := by
  unfold pathWrite
  try dsimp only
  with_reducible repeat' first
    | intro _ | assumption | exact Carries.refl _ | apply carries_cond | apply carries_cond_snd
    | apply carries_cond_fst | apply carries_pathTaken | apply carries_regWriteM | apply carries_collStops
    | apply carries_emit

theorem carries_regCommand {s : State} (path : Path) (r : Reg) (i j : Nat) (value : W32) (u : State) (h : Carries s u) :
    Carries s (regCommand path r i j value u) := by
  unfold regCommand
  try dsimp only
  with_reducible repeat' first
    | intro _ | assumption | exact Carries.refl _ | apply carries_pathWrite

end Sys2Proof.Machine
end

