-- ==== Sys2Proof/Laws/KeepsSessions.lean ====
section
/-! SUPPORT. What the operations of Machine/Sessions.lean keep. -/

namespace Sys2Proof.Machine

theorem carries_setMailbox {s : State} (k : Nat) (x : Mailbox) (u : State) (h : Carries s u) :
    Carries s (setMailbox k x u) := by
  unfold setMailbox
  try dsimp only
  with_reducible repeat' first
    | intro _ | assumption | exact Carries.refl _ | apply carries_mk (Nat.le_refl _)

theorem carries_renewLease {s : State} (k : Nat) (u : State) (h : Carries s u) :
    Carries s (renewLease k u) := by
  unfold renewLease
  try dsimp only
  with_reducible repeat' first
    | intro _ | assumption | exact Carries.refl _ | apply carries_cond | apply carries_modSession
    | apply carries_mk (Nat.le_refl _) | dsimp only

theorem carries_messageReceive {s : State} (qp : Nat) (m : Message) (u : State) (h : Carries s u) :
    Carries s (messageReceive qp m u) := by
  unfold messageReceive
  try dsimp only
  with_reducible repeat' first
    | intro _ | assumption | exact Carries.refl _ | apply carries_cond | apply carries_emit | apply carries_renewLease
    | apply carries_setMailbox | split | apply carries_mk (Nat.le_refl _) | dsimp only

theorem carries_ends {s : State} (st : Status) (u : State) (h : Carries s u) : Carries s (ends st u).state := h

theorem carries_cond_state {s : State} {c : Bool} {a b : Served} (ha : Carries s a.state) (hb : Carries s b.state) :
    Carries s (bif c then a else b).state := by
  cases c
  · exact hb
  · exact ha

theorem carries_moveMailbox {s : State} (old new : Nat) (u : State) (h : Carries s u) :
    Carries s (moveMailbox old new u) := by
  unfold moveMailbox
  try dsimp only
  with_reducible repeat' first
    | intro _ | assumption | exact Carries.refl _ | apply carries_cond | apply carries_setMailbox
    | apply carries_mk (Nat.le_refl _)

theorem carries_answer {s : State} (qp k : Nat) (m : Message) (r : Served) (h : Carries s r.state) :
    Carries s (answer qp k m r) := by
  unfold answer
  exact carries_emit _ _ (carries_setMailbox _ _ _ (carries_moveMailbox _ _ _ h))

theorem carries_serve {s : State} (qp n : Nat) (force notify : Option Bool) (f : Nat → State → Served)
    (hf : ∀ k t, Carries s t → Carries s (f k t).state) (u : State) (h : Carries s u) :
    Carries s (serve qp n force notify f u) := by
  unfold serve
  split
  · exact h
  · split
    · exact h
    · extract_lets flagOk x v gone
      have h1 : Carries s v := carries_setMailbox _ _ _ h
      exact carries_cond (carries_collStops _ _ (carries_answer _ _ _ _ (carries_cond_state h1 (hf _ _ h1)))) h

theorem carries_useQp {s : State} (qp : Nat) (kind : QpKind) (u : State) (h : Carries s u) :
    Carries s (useQp qp kind u) := by
  unfold useQp
  try dsimp only
  with_reducible repeat' first
    | intro _ | assumption | exact Carries.refl _ | split | apply carries_mk (Nat.le_refl _) | dsimp only

theorem carries_openMail {s : State} (qp part : Nat) (key : W32) (u : State) (h : Carries s u) :
    Carries s (openMail qp part key u).state := by
  unfold openMail
  try dsimp only
  with_reducible repeat' first
    | intro _ | assumption | exact Carries.refl _ | apply carries_cond | apply carries_cond_state | apply carries_ends
    | apply carries_takeFree | apply carries_useQp | apply carries_setSession | split
    | apply carries_mk (Nat.le_refl _) | dsimp only

theorem carries_letGo {s : State} (n : Nat) (u : State) (h : Carries s u) :
    Carries s (letGo n u) := by
  unfold letGo
  try dsimp only
  with_reducible repeat' first
    | intro _ | assumption | exact Carries.refl _ | apply carries_cond | apply carries_withdraw | split | dsimp only

theorem carries_retireMailbox {s : State} (n : Nat) (u : State) (h : Carries s u) :
    Carries s (retireMailbox n u) := by
  unfold retireMailbox
  try dsimp only
  with_reducible repeat' first
    | intro _ | assumption | exact Carries.refl _ | apply carries_cond | apply carries_cond_snd
    | apply carries_cond_fst | apply carries_mk (Nat.le_refl _) | dsimp only

theorem carries_attachMail {s : State} (qp n : Nat) (token key : W32) (u : State) (h : Carries s u) :
    Carries s (attachMail qp n token key u).state := by
  unfold attachMail
  try dsimp only
  with_reducible repeat' first
    | intro _ | assumption | exact Carries.refl _ | apply carries_cond | apply carries_cond_state | apply carries_ends
    | apply carries_useQp | apply carries_retireMailbox | apply carries_letGo | apply carries_setSession
    | apply carries_foldl | apply carries_mk (Nat.le_refl _) | dsimp only

theorem carries_freeOwned {s : State} (n p : Nat) (l : Nat × Leaf) (u : State) (h : Carries s u) :
    Carries s (freeOwned n p l u) := by
  unfold freeOwned
  try dsimp only
  with_reducible repeat' first
    | intro _ | assumption | exact Carries.refl _ | apply carries_cond | apply carries_cond_snd
    | apply carries_cond_fst | apply carries_setLeaf | apply carries_unmapPage | apply carries_mk (Nat.le_refl _)

theorem carries_releaseSession {s : State} (n : Nat) (u : State) (h : Carries s u) :
    Carries s (releaseSession n u) := by
  unfold releaseSession
  try dsimp only
  with_reducible repeat' first
    | intro _ | assumption | exact Carries.refl _ | apply carries_cond | apply carries_modSession
    | apply carries_freeOwned | apply carries_foldl | apply carries_mk (Nat.le_refl _) | dsimp only

theorem carries_beginFreeing {s : State} (n : Nat) (st : Status) (u : State) (h : Carries s u) :
    Carries s (beginFreeing n st u) := by
  unfold beginFreeing
  try dsimp only
  with_reducible repeat' first
    | intro _ | assumption | exact Carries.refl _ | apply carries_releaseSession | apply carries_killProg
    | apply carries_modSession | apply carries_foldl | apply carries_mk (Nat.le_refl _) | dsimp only

theorem carries_closeMail {s : State} (n : Nat) (force : Bool) (u : State) (h : Carries s u) :
    Carries s (closeMail n force u).state := by
  unfold closeMail
  try dsimp only
  with_reducible repeat' first
    | intro _ | assumption | exact Carries.refl _ | apply carries_cond | apply carries_cond_state | apply carries_ends
    | apply carries_beginFreeing

theorem carries_heartbeatMail {s : State} (k : Nat) (u : State) (h : Carries s u) :
    Carries s (heartbeatMail k u).state := by
  unfold heartbeatMail
  try dsimp only
  with_reducible repeat' first
    | intro _ | assumption | exact Carries.refl _ | apply carries_cond | apply carries_cond_state

theorem carries_readAll {s : State} (path : Path) (l : List W32) (u : State) (h : Carries s u) :
    Carries s (readAll path l u).2.2 := by
  induction l generalizing u with
  | nil => exact h
  | cons a l ih => exact ih _ (carries_regRead _ _ _ h)

theorem carries_regreadMail {s : State} (addrs : List W32) (k : Nat) (u : State) (h : Carries s u) :
    Carries s (regreadMail addrs k u).state := by
  unfold regreadMail
  try dsimp only
  with_reducible repeat' first
    | intro _ | assumption | exact Carries.refl _ | apply carries_cond | apply carries_cond_state | apply carries_ends
    | apply carries_readAll

theorem carries_writeAll {s : State} (path : Path) (n : Nat) (l : List (W32 × W32)) (u : State) (h : Carries s u) :
    Carries s (writeAll path n l u).2.2 := by
  induction l generalizing n u with
  | nil => exact h
  | cons a l ih =>
    exact carries_cond_last (ih _ _ (carries_regWrite _ _ _ _ h)) (carries_regWrite _ _ _ _ h)

theorem carries_regwriteMail {s : State} (writes : List (W32 × W32)) (k : Nat) (u : State) (h : Carries s u) :
    Carries s (regwriteMail writes k u).state := by
  unfold regwriteMail
  try dsimp only
  with_reducible repeat' first
    | intro _ | assumption | exact Carries.refl _ | apply carries_cond | apply carries_cond_state | apply carries_ends
    | apply carries_writeAll

theorem carries_evsubMail {s : State} (severity k : Nat) (u : State) (h : Carries s u) :
    Carries s (evsubMail severity k u).state := by
  unfold evsubMail
  try dsimp only
  with_reducible repeat' first
    | intro _ | assumption | exact Carries.refl _ | apply carries_cond | apply carries_cond_state | apply carries_ends
    | apply carries_modSession | apply carries_mk (Nat.le_refl _) | dsimp only

theorem carries_mrregMail {s : State} (base len : Nat) (access : BitVec 2) (n : Nat) (u : State) (h : Carries s u) :
    Carries s (mrregMail base len access n u).state := by
  unfold mrregMail
  try dsimp only
  with_reducible repeat' first
    | intro _ | assumption | exact Carries.refl _ | apply carries_cond | apply carries_cond_state | apply carries_ends
    | apply carries_takeFree | apply carries_modSession | apply carries_mk (Nat.le_refl _) | dsimp only

theorem carries_mrderegMail {s : State} (rkey : W32) (n : Nat) (u : State) (h : Carries s u) :
    Carries s (mrderegMail rkey n u).state := by
  unfold mrderegMail
  try dsimp only
  with_reducible repeat' first
    | intro _ | assumption | exact Carries.refl _ | apply carries_cond | apply carries_cond_state | apply carries_ends
    | apply carries_modSession | apply carries_mk (Nat.le_refl _) | dsimp only

theorem carries_intakeAddMail {s : State} (base entries cap : Nat) (notify : Bool) (n : Nat) (u : State) (h : Carries s u) :
    Carries s (intakeAddMail base entries cap notify n u).state := by
  unfold intakeAddMail
  try dsimp only
  with_reducible repeat' first
    | intro _ | assumption | exact Carries.refl _ | apply carries_cond | apply carries_cond_state | apply carries_ends
    | apply carries_modSession | split | apply carries_mk (Nat.le_refl _) | dsimp only

theorem carries_intakeDelMail {s : State} (l n : Nat) (u : State) (h : Carries s u) :
    Carries s (intakeDelMail l n u).state := by
  unfold intakeDelMail
  try dsimp only
  with_reducible repeat' first
    | intro _ | assumption | exact Carries.refl _ | apply carries_cond | apply carries_cond_state | apply carries_ends
    | apply carries_modSession | split | apply carries_mk (Nat.le_refl _) | dsimp only

theorem carries_endAtYield {s : State} (n : Nat) (st : Status) (u : State) (h : Carries s u) :
    Carries s (endAtYield n st u) := by
  unfold endAtYield
  try dsimp only
  with_reducible repeat' first
    | intro _ | assumption | exact Carries.refl _ | apply carries_requestPreempt | apply carries_modProg
    | apply carries_mk (Nat.le_refl _) | dsimp only

theorem carries_cancelProg {s : State} (force : Bool) (n : Nat) (u : State) (h : Carries s u) :
    Carries s (cancelProg force n u) := by
  unfold cancelProg
  try dsimp only
  with_reducible repeat' first
    | intro _ | assumption | exact Carries.refl _ | apply carries_cond | apply carries_killProg
    | apply carries_endAtYield | split | dsimp only

theorem carries_cancelMail {s : State} (l record : Nat) (force : Bool) (n : Nat) (u : State) (h : Carries s u) :
    Carries s (cancelMail l record force n u).state := by
  unfold cancelMail
  try dsimp only
  with_reducible repeat' first
    | intro _ | assumption | exact Carries.refl _ | apply carries_cond_state | apply carries_ends
    | apply carries_cancelProg | apply carries_foldl | split | dsimp only

theorem carries_addQp {s : State} (port : Nat) (kind : QpKind) (terms : ConnTerms) (u : State) (h : Carries s u) :
    Carries s (addQp port kind terms u) := by
  unfold addQp
  try dsimp only
  with_reducible repeat' first
    | intro _ | assumption | exact Carries.refl _ | apply carries_mk (Nat.le_refl _)

theorem carries_connectionRequest {s : State} (port : Nat) (kind : ConnKind) (terms : ConnTerms) (u : State) (h : Carries s u) :
    Carries s (connectionRequest port kind terms u) := by
  unfold connectionRequest
  try dsimp only
  with_reducible repeat' first
    | intro _ | assumption | exact Carries.refl _ | apply carries_cond | apply carries_emit | apply carries_addQp
    | split | dsimp only

theorem carries_gwconnMail {s : State} (rdom addr port : Nat) (u : State) (h : Carries s u) :
    Carries s (gwconnMail rdom addr port u).state := by
  unfold gwconnMail
  try dsimp only
  with_reducible repeat' first
    | intro _ | assumption | exact Carries.refl _ | apply carries_cond | apply carries_cond_state | apply carries_ends
    | apply carries_addQp | apply carries_emit | apply carries_foldl | dsimp only

theorem carries_modQp {s : State} (qp : Nat) (f : QueuePair → QueuePair) (u : State) (h : Carries s u) :
    Carries s (modQp qp f u) := by
  unfold modQp
  try dsimp only
  with_reducible repeat' first
    | intro _ | assumption | exact Carries.refl _ | apply carries_cond | split | apply carries_mk (Nat.le_refl _)
    | dsimp only

theorem carries_cnpReceive {s : State} (qp : Nat) (u : State) (h : Carries s u) :
    Carries s (cnpReceive qp u) := by
  unfold cnpReceive
  try dsimp only
  with_reducible repeat' first
    | intro _ | assumption | exact Carries.refl _ | apply carries_cond | apply carries_modQp | apply carries_bump
    | split | apply carries_mk (Nat.le_refl _) | dsimp only

theorem carries_ceMark {s : State} (qp : Nat) (u : State) (h : Carries s u) :
    Carries s (ceMark qp u) := by
  unfold ceMark
  try dsimp only
  with_reducible repeat' first
    | intro _ | assumption | exact Carries.refl _ | apply carries_cond | apply carries_emit | apply carries_modQp
    | split | apply carries_mk (Nat.le_refl _) | dsimp only

theorem carries_rateRecover {s : State} (qp : Nat) (u : State) (h : Carries s u) :
    Carries s (rateRecover qp u) := by
  unfold rateRecover
  try dsimp only
  with_reducible repeat' first
    | intro _ | assumption | exact Carries.refl _ | apply carries_cond | apply carries_modQp
    | apply carries_mk (Nat.le_refl _) | dsimp only

theorem carries_dropFrame {s : State} (port : Nat) (u : State) (h : Carries s u) :
    Carries s (dropFrame port u) := by
  unfold dropFrame
  try dsimp only
  with_reducible repeat' first
    | intro _ | assumption | exact Carries.refl _ | apply carries_bump

theorem carries_roceFrame {s : State} (port qp opcode : Nat) (ce : Bool) (u : State) (h : Carries s u) :
    Carries s (roceFrame port qp opcode ce u) := by
  unfold roceFrame
  try dsimp only
  with_reducible repeat' first
    | intro _ | assumption | exact Carries.refl _ | apply carries_cond | apply carries_dropFrame
    | apply carries_ceMark | apply carries_cnpReceive | apply carries_emit | apply carries_modQp | split
    | apply carries_mk (Nat.le_refl _) | dsimp only

theorem carries_pauseFrame {s : State} (port prio quanta : Nat) (u : State) (h : Carries s u) :
    Carries s (pauseFrame port prio quanta u) := by
  unfold pauseFrame
  try dsimp only
  with_reducible repeat' first
    | intro _ | assumption | exact Carries.refl _ | apply carries_cond | apply carries_modEngine
    | apply carries_dropFrame | apply carries_mk (Nat.le_refl _) | dsimp only

theorem carries_answerFrame {s : State} (port : Nat) (a : HostAddr) (u : State) (h : Carries s u) :
    Carries s (answerFrame port a u) := by
  unfold answerFrame
  try dsimp only
  with_reducible repeat' first
    | intro _ | assumption | exact Carries.refl _ | apply carries_emit

theorem carries_hostFrame {s : State} (port : Nat) (fr : HostFrame) (u : State) (h : Carries s u) :
    Carries s (hostFrame port fr u) := by
  unfold hostFrame
  try dsimp only
  with_reducible repeat' first
    | intro _ | assumption | exact Carries.refl _ | apply carries_cond | apply carries_dropFrame
    | apply carries_answerFrame | apply carries_roceFrame | apply carries_emit | apply carries_tcpConnect
    | apply carries_pauseFrame | split | dsimp only

theorem carries_rdmaAccess {s : State} (qp : Nat) (rkey : W32) (va : Nat) (write : Option (List Byte)) (len : Nat) (u : State) (h : Carries s u) :
    Carries s (rdmaAccess qp rkey va write len u) := by
  unfold rdmaAccess
  try dsimp only
  with_reducible repeat' first
    | intro _ | assumption | exact Carries.refl _ | apply carries_cond | apply carries_cond_snd
    | apply carries_cond_fst | apply carries_emit | apply carries_spaceWrite | apply carries_spaceSeen | split
    | dsimp only

theorem carries_windowWords {s : State} (path : Path) (n a : Nat) (u : State) (h : Carries s u) :
    Carries s (windowWords path n a u).2 := by
  induction n generalizing a u with
  | zero => exact h
  | succ n ih => exact ih _ _ (carries_regRead _ _ _ h)

theorem carries_windowRead {s : State} (qp : Nat) (rkey : W32) (a len : Nat) (u : State) (h : Carries s u) :
    Carries s (windowRead qp rkey a len u) := by
  unfold windowRead
  try dsimp only
  with_reducible repeat' first
    | intro _ | assumption | exact Carries.refl _ | apply carries_cond | apply carries_cond_snd
    | apply carries_cond_fst | apply carries_emit | apply carries_windowWords | split | dsimp only

theorem carries_standOn {s : State} (n : Nat) (u : State) (h : Carries s u) :
    Carries s (standOn n u) := by
  unfold standOn
  try dsimp only
  with_reducible repeat' first
    | intro _ | assumption | exact Carries.refl _ | apply carries_cond | apply carries_requestPreempt | split
    | dsimp only

theorem carries_orphan {s : State} (n : Nat) (u : State) (h : Carries s u) :
    Carries s (orphan n u) := by
  unfold orphan
  try dsimp only
  with_reducible repeat' first
    | intro _ | assumption | exact Carries.refl _ | apply carries_raise | apply carries_setSession
    | apply carries_standOn | apply carries_foldl | apply carries_mk (Nat.le_refl _) | dsimp only

theorem carries_leaseCheck {s : State} (u : State) (h : Carries s u) :
    Carries s (leaseCheck u) := by
  unfold leaseCheck
  try dsimp only
  with_reducible repeat' first
    | intro _ | assumption | exact Carries.refl _ | apply carries_cond | apply carries_orphan | apply carries_foldl
    | dsimp only

theorem carries_stopUnstopped {s : State} (n : Nat) (u : State) (h : Carries s u) :
    Carries s (stopUnstopped n u) := by
  unfold stopUnstopped
  try dsimp only
  with_reducible repeat' first
    | intro _ | assumption | exact Carries.refl _ | apply carries_cond | apply carries_killProg | split | dsimp only

theorem carries_orphrunExpire {s : State} (n : Nat) (u : State) (h : Carries s u) :
    Carries s (orphrunExpire n u) := by
  unfold orphrunExpire
  try dsimp only
  with_reducible repeat' first
    | intro _ | assumption | exact Carries.refl _ | apply carries_cond | apply carries_stopUnstopped
    | apply carries_setSession | apply carries_foldl | apply carries_mk (Nat.le_refl _) | dsimp only

theorem carries_holdExpire {s : State} (n : Nat) (u : State) (h : Carries s u) :
    Carries s (holdExpire n u) := by
  unfold holdExpire
  try dsimp only
  with_reducible repeat' first
    | intro _ | assumption | exact Carries.refl _ | apply carries_cond | apply carries_beginFreeing

theorem carries_sessionFreed {s : State} (n : Nat) (u : State) (h : Carries s u) :
    Carries s (sessionFreed n u) := by
  unfold sessionFreed
  try dsimp only
  with_reducible repeat' first
    | intro _ | assumption | exact Carries.refl _ | apply carries_cond | apply carries_cond_snd
    | apply carries_reapPages | apply carries_releaseSession | apply carries_mk (Nat.le_refl _) | dsimp only

theorem carries_tailNotice {s : State} (q l : Nat) (u : State) (h : Carries s u) :
    Carries s (tailNotice q l u) := by
  unfold tailNotice
  try dsimp only
  with_reducible repeat' first
    | intro _ | assumption | exact Carries.refl _ | apply carries_cond | apply carries_stopList
    | apply carries_spaceSeen | split | dsimp only

end Sys2Proof.Machine
end

