-- ==== Sys2Proof/Laws/KeepsExec.lean ====
section
/-! SUPPORT. What each command keeps: every command answers a next state that `Carries` relates to the old one, or `Keeps` for the
four that start the part. -/

namespace Sys2Proof.Machine

theorem keeps_execPalloc (b : BenchId) (t : Time) (s : State) :
    ∃ t', execPalloc b t s = .next t' ∧ Carries s t' := by
  refine ⟨_, rfl, ?_⟩
  with_reducible repeat' first
    | exact Carries.refl _ | intro _ | assumption | apply carries_onSys | apply carries_pallocEntry
    | apply carries_atTime

theorem keeps_execPfree (b : BenchId) (s : State) :
    ∃ t', execPfree b s = .next t' ∧ Carries s t' := by
  refine ⟨_, rfl, ?_⟩
  with_reducible repeat' first
    | exact Carries.refl _ | intro _ | assumption | apply carries_onSys | apply carries_pfreeEntry

theorem keeps_execPpin (b : BenchId) (t : Time) (s : State) :
    ∃ t', execPpin b t s = .next t' ∧ Carries s t' := by
  refine ⟨_, rfl, ?_⟩
  with_reducible repeat' first
    | exact Carries.refl _ | intro _ | assumption | apply carries_onSys | apply carries_ppinEntry
    | apply carries_atTime

theorem keeps_execPprot (b : BenchId) (s : State) :
    ∃ t', execPprot b s = .next t' ∧ Carries s t' := by
  refine ⟨_, rfl, ?_⟩
  with_reducible repeat' first
    | exact Carries.refl _ | intro _ | assumption | apply carries_onSys | apply carries_pprotEntry

theorem keeps_execPquery (b : BenchId) (s : State) :
    ∃ t', execPquery b s = .next t' ∧ Carries s t' := by
  refine ⟨_, rfl, ?_⟩
  with_reducible repeat' first
    | exact Carries.refl _ | intro _ | assumption | apply carries_onSys | apply carries_pqueryEntry

theorem keeps_execGalloc (b : BenchId) (s : State) :
    ∃ t', execGalloc b s = .next t' ∧ Carries s t' := by
  refine ⟨_, rfl, ?_⟩
  with_reducible repeat' first
    | exact Carries.refl _ | intro _ | assumption | apply carries_onSys | apply carries_gallocEntry

theorem keeps_execGfree (b : BenchId) (s : State) :
    ∃ t', execGfree b s = .next t' ∧ Carries s t' := by
  refine ⟨_, rfl, ?_⟩
  with_reducible repeat' first
    | exact Carries.refl _ | intro _ | assumption | apply carries_onSys | apply carries_gfreeEntry

theorem keeps_execPageWalk (req seg : Nat) (t : Time) (s : State) :
    ∃ t', execPageWalk req seg t s = .next t' ∧ Carries s t' := by
  refine ⟨_, rfl, ?_⟩
  with_reducible repeat' first
    | exact Carries.refl _ | intro _ | assumption | apply carries_pageWalk | apply carries_atTime

theorem keeps_execDriftDemandFetch (p : PartId) (vpn : Nat) (t : Time) (s : State) :
    ∃ t', execDriftDemandFetch p vpn t s = .next t' ∧ Carries s t' := by
  refine ⟨_, rfl, ?_⟩
  with_reducible repeat' first
    | exact Carries.refl _ | intro _ | assumption | apply carries_demandFetch | apply carries_atTime

theorem keeps_execDriftFragmentArrive (p : PartId) (vpn : Nat) (frag : Fin 32) (t : Time) (s : State) :
    ∃ t', execDriftFragmentArrive p vpn frag t s = .next t' ∧ Carries s t' := by
  refine ⟨_, rfl, ?_⟩
  with_reducible repeat' first
    | exact Carries.refl _ | intro _ | assumption | apply carries_fragmentArrive | apply carries_atTime

theorem keeps_execDriftMoveComplete (p : PartId) (vpn : Nat) (t : Time) (s : State) :
    ∃ t', execDriftMoveComplete p vpn t s = .next t' ∧ Carries s t' := by
  refine ⟨_, rfl, ?_⟩
  with_reducible repeat' first
    | exact Carries.refl _ | intro _ | assumption | apply carries_moveComplete | apply carries_atTime

theorem keeps_execDriftDemote (p : PartId) (t : Time) (s : State) :
    ∃ t', execDriftDemote p t s = .next t' ∧ Carries s t' := by
  refine ⟨_, rfl, ?_⟩
  with_reducible repeat' first
    | exact Carries.refl _ | intro _ | assumption | apply carries_driftDemote | apply carries_atTime

theorem keeps_execHeatDecay (p : PartId) (t : Time) (s : State) :
    ∃ t', execHeatDecay p t s = .next t' ∧ Carries s t' := by
  refine ⟨_, rfl, ?_⟩
  with_reducible repeat' first
    | exact Carries.refl _ | intro _ | assumption | apply carries_heatDecay | apply carries_atTime

theorem keeps_execFrameScrub (hub : Fin 2) (s : State) :
    ∃ t', execFrameScrub hub s = .next t' ∧ Carries s t' := by
  refine ⟨_, rfl, ?_⟩
  with_reducible repeat' first
    | exact Carries.refl _ | intro _ | assumption | apply carries_frameScrub

theorem keeps_execTokenRefill (s : State) :
    ∃ t', execTokenRefill s = .next t' ∧ Carries s t' := by
  refine ⟨_, rfl, ?_⟩
  with_reducible repeat' first
    | exact Carries.refl _ | intro _ | assumption | apply carries_tokenRefill

theorem keeps_execLaunchRecordTake (sess : Fin 32) (list : Nat) (t : Time) (s : State) :
    ∃ t', execLaunchRecordTake sess list t s = .next t' ∧ Carries s t' := by
  refine ⟨_, rfl, ?_⟩
  with_reducible repeat' first
    | exact Carries.refl _ | intro _ | assumption | apply carries_launchTake | apply carries_atTime

theorem keeps_execProgramPlace (p : PartId) (t : Time) (s : State) :
    ∃ t', execProgramPlace p t s = .next t' ∧ Carries s t' := by
  refine ⟨_, rfl, ?_⟩
  with_reducible repeat' first
    | exact Carries.refl _ | intro _ | assumption | apply carries_programPlace | apply carries_atTime

theorem keeps_execProgramStart (prog : Nat) (t : Time) (s : State) :
    ∃ t', execProgramStart prog t s = .next t' ∧ Carries s t' := by
  refine ⟨_, rfl, ?_⟩
  with_reducible repeat' first
    | exact Carries.refl _ | intro _ | assumption | apply carries_programStart | apply carries_atTime

theorem keeps_execProgramEnd (prog : Nat) (t : Time) (s : State) :
    ∃ t', execProgramEnd prog t s = .next t' ∧ Carries s t' := by
  refine ⟨_, rfl, ?_⟩
  with_reducible repeat' first
    | exact Carries.refl _ | intro _ | assumption | apply carries_programEnd | apply carries_atTime

theorem keeps_execRoleStopAtYield (prog role : Nat) (s : State) :
    ∃ t', execRoleStopAtYield prog role s = .next t' ∧ Carries s t' := by
  refine ⟨_, rfl, ?_⟩
  with_reducible repeat' first
    | exact Carries.refl _ | intro _ | assumption | apply carries_roleStop

theorem keeps_execYieldTimeout (prog : Nat) (t : Time) (s : State) :
    ∃ t', execYieldTimeout prog t s = .next t' ∧ Carries s t' := by
  refine ⟨_, rfl, ?_⟩
  with_reducible repeat' first
    | exact Carries.refl _ | intro _ | assumption | apply carries_yieldTimeout | apply carries_atTime

theorem keeps_execRestoreComplete (prog : Nat) (t : Time) (s : State) :
    ∃ t', execRestoreComplete prog t s = .next t' ∧ Carries s t' := by
  refine ⟨_, rfl, ?_⟩
  with_reducible repeat' first
    | exact Carries.refl _ | intro _ | assumption | apply carries_restoreComplete | apply carries_atTime

theorem keeps_execQuantumExpire (prog : Nat) (t : Time) (s : State) :
    ∃ t', execQuantumExpire prog t s = .next t' ∧ Carries s t' := by
  refine ⟨_, rfl, ?_⟩
  with_reducible repeat' first
    | exact Carries.refl _ | intro _ | assumption | apply carries_quantumExpire | apply carries_atTime

theorem keeps_execPacketArrive (link : LinkId) (pkt : Packet) (t : Time) (s : State) :
    ∃ t', execPacketArrive link pkt t s = .next t' ∧ Carries s t' := by
  refine ⟨_, rfl, ?_⟩
  with_reducible repeat' first
    | exact Carries.refl _ | intro _ | assumption | apply carries_packetArrive | apply carries_atTime

theorem keeps_execFlitGapTimeout (link : LinkId) (t : Time) (s : State) :
    ∃ t', execFlitGapTimeout link t s = .next t' ∧ Carries s t' := by
  refine ⟨_, rfl, ?_⟩
  with_reducible repeat' first
    | exact Carries.refl _ | intro _ | assumption | apply carries_gapTimeout | apply carries_atTime

theorem keeps_execReplayTimeout (link : LinkId) (t : Time) (s : State) :
    ∃ t', execReplayTimeout link t s = .next t' ∧ Carries s t' := by
  refine ⟨_, rfl, ?_⟩
  with_reducible repeat' first
    | exact Carries.refl _ | intro _ | assumption | apply carries_replayTimeout | apply carries_atTime

theorem keeps_execNakReceive (link : LinkId) (ack : Nat) (t : Time) (s : State) :
    ∃ t', execNakReceive link ack t s = .next t' ∧ Carries s t' := by
  refine ⟨_, rfl, ?_⟩
  with_reducible repeat' first
    | exact Carries.refl _ | intro _ | assumption | apply carries_nakReceive | apply carries_atTime

theorem keeps_execLinkFailure (link : LinkId) (t : Time) (s : State) :
    ∃ t', execLinkFailure link t s = .next t' ∧ Carries s t' := by
  refine ⟨_, rfl, ?_⟩
  with_reducible repeat' first
    | exact Carries.refl _ | intro _ | assumption | apply carries_linkFailure | apply carries_atTime

theorem keeps_execDrainMarkerArrive (link : LinkId) (typ : BitVec 2) (stage : Fin 6) (t : Time) (s : State) :
    ∃ t', execDrainMarkerArrive link typ stage t s = .next t' ∧ Carries s t' := by
  refine ⟨_, rfl, ?_⟩
  with_reducible repeat' first
    | exact Carries.refl _ | intro _ | assumption | apply carries_markerArrive | apply carries_atTime

theorem keeps_execDrainRelease (t : Time) (s : State) :
    ∃ t', execDrainRelease t s = .next t' ∧ Carries s t' := by
  refine ⟨_, rfl, ?_⟩
  with_reducible repeat' first
    | exact Carries.refl _ | intro _ | assumption | apply carries_drainRelease | apply carries_atTime

theorem keeps_execDrainWarnTimeout (t : Time) (s : State) :
    ∃ t', execDrainWarnTimeout t s = .next t' ∧ Carries s t' := by
  refine ⟨_, rfl, ?_⟩
  with_reducible repeat' first
    | exact Carries.refl _ | intro _ | assumption | apply carries_drainWarn | apply carries_atTime

theorem keeps_execHelloSend (e : EngineId) (f : Fin 4) (k : Fin 16) (t : Time) (s : State) :
    ∃ t', execHelloSend e f k t s = .next t' ∧ Carries s t' := by
  refine ⟨_, rfl, ?_⟩
  with_reducible repeat' first
    | exact Carries.refl _ | intro _ | assumption | apply carries_helloSend | apply carries_atTime

theorem keeps_execHelloReceive (e : EngineId) (f : Fin 4) (k : Fin 16) (h : Hello) (t : Time) (s : State) :
    ∃ t', execHelloReceive e f k h t s = .next t' ∧ Carries s t' := by
  refine ⟨_, rfl, ?_⟩
  with_reducible repeat' first
    | exact Carries.refl _ | intro _ | assumption | apply carries_helloReceive | apply carries_atTime

theorem keeps_execDiscoveryComplete (t : Time) (s : State) :
    ∃ t', execDiscoveryComplete t s = .next t' ∧ Carries s t' := by
  refine ⟨_, rfl, ?_⟩
  with_reducible repeat' first
    | exact Carries.refl _ | intro _ | assumption | apply carries_discoveryComplete | apply carries_atTime

theorem keeps_execWeatherRecord (lanes : List WeatherLane) (t : Time) (s : State) :
    ∃ t', execWeatherRecord lanes t s = .next t' ∧ Carries s t' := by
  refine ⟨_, rfl, ?_⟩
  with_reducible repeat' first
    | exact Carries.refl _ | intro _ | assumption | apply carries_weatherRecord | apply carries_atTime

theorem keeps_execWeatherAppend (bytes : List Byte) (s : State) :
    ∃ t', execWeatherAppend bytes s = .next t' ∧ Carries s t' := by
  refine ⟨_, rfl, ?_⟩
  with_reducible repeat' first
    | exact Carries.refl _ | intro _ | assumption | apply carries_weatherAppend

theorem keeps_execHbmAccess (pa : Nat) (acc : Access64) (err : List (Nat × BitVec 16)) (t : Time) (s : State) :
    ∃ t', execHbmAccess pa acc err t s = .next t' ∧ Carries s t' := by
  refine ⟨_, rfl, ?_⟩
  with_reducible repeat' first
    | exact Carries.refl _ | intro _ | assumption | apply carries_hbmAccess | apply carries_atTime

theorem keeps_execHbmScrub (pa : Nat) (err : List (Nat × BitVec 16)) (wrote : Bool) (t : Time) (s : State) :
    ∃ t', execHbmScrub pa err wrote t s = .next t' ∧ Carries s t' := by
  refine ⟨_, rfl, ?_⟩
  with_reducible repeat' first
    | exact Carries.refl _ | intro _ | assumption | apply carries_hbmScrub | apply carries_atTime

theorem keeps_execStackTempSample (stack : StackId) (temp : Int) (t : Time) (s : State) :
    ∃ t', execStackTempSample stack temp t s = .next t' ∧ Carries s t' := by
  refine ⟨_, rfl, ?_⟩
  with_reducible repeat' first
    | exact Carries.refl _ | intro _ | assumption | apply carries_stackTemp | apply carries_atTime

theorem keeps_execNearMemoryAtomic (pa : Nat) (op : AtomicOp) (operand compare : W64) (s : State) :
    ∃ t', execNearMemoryAtomic pa op operand compare s = .next t' ∧ Carries s t' := by
  refine ⟨_, rfl, ?_⟩
  with_reducible repeat' first
    | exact Carries.refl _ | intro _ | assumption | apply carries_nearAtomic

theorem keeps_execModuleParityLoss (m : Fin 4) (odd : Bool) (t : Time) (s : State) :
    ∃ t', execModuleParityLoss m odd t s = .next t' ∧ Carries s t' := by
  refine ⟨_, rfl, ?_⟩
  with_reducible repeat' first
    | exact Carries.refl _ | intro _ | assumption | apply carries_parityLoss | apply carries_atTime

theorem keeps_execModuleFailureReport (m : Fin 4) (t : Time) (s : State) :
    ∃ t', execModuleFailureReport m t s = .next t' ∧ Carries s t' := by
  refine ⟨_, rfl, ?_⟩
  with_reducible repeat' first
    | exact Carries.refl _ | intro _ | assumption | apply carries_moduleFailure | apply carries_atTime

theorem keeps_execLossOfLight (e : EngineId) (l : LostLane) (t : Time) (s : State) :
    ∃ t', execLossOfLight e l t s = .next t' ∧ Carries s t' := by
  refine ⟨_, rfl, ?_⟩
  with_reducible repeat' first
    | exact Carries.refl _ | intro _ | assumption | apply carries_cond | apply carries_atTime
    | apply carries_lightLost | apply carries_moduleDark

theorem keeps_execRingLoopUpdate (e : EngineId) (dir : LaneDir) (l : Fin 64) (lockErr : Int) (heater : Nat) (temp : Int) (t : Time) (s : State) :
    ∃ t', execRingLoopUpdate e dir l lockErr heater temp t s = .next t' ∧ Carries s t' := by
  refine ⟨_, rfl, ?_⟩
  with_reducible repeat' first
    | exact Carries.refl _ | intro _ | assumption | apply carries_cond | apply carries_atTime | apply carries_ringLoop

theorem keeps_execLanePowerSample (e : EngineId) (l : Fin 64) (power : Int) (berHigh : Bool) (ber : BitVec 8) (temp : Int) (t : Time) (s : State) :
    ∃ t', execLanePowerSample e l power berHigh ber temp t s = .next t' ∧ Carries s t' := by
  refine ⟨_, rfl, ?_⟩
  with_reducible repeat' first
    | exact Carries.refl _ | intro _ | assumption | apply carries_cond | apply carries_atTime
    | apply carries_lanePower

theorem keeps_execLaneRetrain (e : EngineId) (dir : LaneDir) (l : Fin 64) (near far : Int) (t : Time) (s : State) :
    ∃ t', execLaneRetrain e dir l near far t s = .next t' ∧ Carries s t' := by
  refine ⟨_, rfl, ?_⟩
  with_reducible repeat' first
    | exact Carries.refl _ | intro _ | assumption | apply carries_cond | apply carries_atTime
    | apply carries_laneRetrain

theorem keeps_execLaneUp (e : EngineId) (dir : LaneDir) (l : Fin 64) (berLow : Bool) (t : Time) (s : State) :
    ∃ t', execLaneUp e dir l berLow t s = .next t' ∧ Carries s t' := by
  refine ⟨_, rfl, ?_⟩
  with_reducible repeat' first
    | exact Carries.refl _ | intro _ | assumption | apply carries_cond | apply carries_atTime | apply carries_laneRise
    | apply carries_laneTrained

theorem keeps_execLaserBiasStep (e : EngineId) (k : Fin 16) (power : Int) (s : State) :
    ∃ t', execLaserBiasStep e k power s = .next t' ∧ Carries s t' := by
  refine ⟨_, rfl, ?_⟩
  with_reducible repeat' first
    | exact Carries.refl _ | intro _ | assumption | apply carries_biasStep

theorem keeps_execLaserFadeDeclare (e : EngineId) (k : Fin 16) (r : LaserReading) (t : Time) (s : State) :
    ∃ t', execLaserFadeDeclare e k r t s = .next t' ∧ Carries s t' := by
  refine ⟨_, rfl, ?_⟩
  with_reducible repeat' first
    | exact Carries.refl _ | intro _ | assumption | apply carries_fadeDeclare | apply carries_atTime

theorem keeps_execSwapWarm (e : EngineId) (t : Time) (s : State) :
    ∃ t', execSwapWarm e t s = .next t' ∧ Carries s t' := by
  refine ⟨_, rfl, ?_⟩
  with_reducible repeat' first
    | exact Carries.refl _ | intro _ | assumption | apply carries_swapWarm | apply carries_atTime

theorem keeps_execSwapLock (e : EngineId) (err : Int) (t : Time) (s : State) :
    ∃ t', execSwapLock e err t s = .next t' ∧ Carries s t' := by
  refine ⟨_, rfl, ?_⟩
  with_reducible repeat' first
    | exact Carries.refl _ | intro _ | assumption | apply carries_swapLock | apply carries_atTime

theorem keeps_execSwapQuiesce (e : EngineId) (t : Time) (s : State) :
    ∃ t', execSwapQuiesce e t s = .next t' ∧ Carries s t' := by
  refine ⟨_, rfl, ?_⟩
  with_reducible repeat' first
    | exact Carries.refl _ | intro _ | assumption | apply carries_swapQuiesce | apply carries_atTime

theorem keeps_execSwapSwitch (e : EngineId) (t : Time) (s : State) :
    ∃ t', execSwapSwitch e t s = .next t' ∧ Carries s t' := by
  refine ⟨_, rfl, ?_⟩
  with_reducible repeat' first
    | exact Carries.refl _ | intro _ | assumption | apply carries_swapSwitch | apply carries_atTime

theorem keeps_execSwapResume (e : EngineId) (t : Time) (s : State) :
    ∃ t', execSwapResume e t s = .next t' ∧ Carries s t' := by
  refine ⟨_, rfl, ?_⟩
  with_reducible repeat' first
    | exact Carries.refl _ | intro _ | assumption | apply carries_lanesBack | apply carries_swapResume
    | apply carries_atTime

theorem keeps_execSwapAbandon (e : EngineId) (t : Time) (s : State) :
    ∃ t', execSwapAbandon e t s = .next t' ∧ Carries s t' := by
  refine ⟨_, rfl, ?_⟩
  with_reducible repeat' first
    | exact Carries.refl _ | intro _ | assumption | apply carries_swapAbandon | apply carries_atTime

theorem keeps_execCalibrationDue (e : EngineId) (why : CalReason) (t : Time) (s : State) :
    ∃ t', execCalibrationDue e why t s = .next t' ∧ Carries s t' := by
  refine ⟨_, rfl, ?_⟩
  with_reducible repeat' first
    | exact Carries.refl _ | intro _ | assumption | apply carries_calibrationDue | apply carries_atTime

theorem keeps_execCalibrationWindow (e : EngineId) (k : Fin 16) (t : Time) (s : State) :
    ∃ t', execCalibrationWindow e k t s = .next t' ∧ Carries s t' := by
  refine ⟨_, rfl, ?_⟩
  with_reducible repeat' first
    | exact Carries.refl _ | intro _ | assumption | apply carries_lanesBack | apply carries_calWindow
    | apply carries_atTime

theorem keeps_execFibreOpenDetect (e : EngineId) (f : Fin 4) (s : State) :
    ∃ t', execFibreOpenDetect e f s = .next t' ∧ Carries s t' := by
  refine ⟨_, rfl, ?_⟩
  with_reducible repeat' first
    | exact Carries.refl _ | intro _ | assumption | apply carries_fibreOpen

theorem keeps_execShutterProbe (e : EngineId) (f : Fin 4) (found : Bool) (s : State) :
    ∃ t', execShutterProbe e f found s = .next t' ∧ Carries s t' := by
  refine ⟨_, rfl, ?_⟩
  with_reducible repeat' first
    | exact Carries.refl _ | intro _ | assumption | apply carries_shutterProbe

theorem keeps_execWorkClockUpdate (sector : Fin 24) (t : Time) (s : State) :
    ∃ t', execWorkClockUpdate sector t s = .next t' ∧ Carries s t' := by
  refine ⟨_, rfl, ?_⟩
  with_reducible repeat' first
    | exact Carries.refl _ | intro _ | assumption | apply carries_workClock | apply carries_atTime

theorem keeps_execLadderStep (sector : SectorId) (amps : Nat) (t : Time) (s : State) :
    ∃ t', execLadderStep sector amps t s = .next t' ∧ Carries s t' := by
  refine ⟨_, rfl, ?_⟩
  with_reducible repeat' first
    | exact Carries.refl _ | intro _ | assumption | apply carries_ladderStep | apply carries_atTime

theorem keeps_execRateEvaluate (sector : SectorId) (sensors : List Int) (t : Time) (s : State) :
    ∃ t', execRateEvaluate sector sensors t s = .next t' ∧ Carries s t' := by
  refine ⟨_, rfl, ?_⟩
  with_reducible repeat' first
    | exact Carries.refl _ | intro _ | assumption | apply carries_rateEvaluate | apply carries_atTime

theorem keeps_execPwrBrake (low : Bool) (t : Time) (s : State) :
    ∃ t', execPwrBrake low t s = .next t' ∧ Carries s t' := by
  refine ⟨_, rfl, ?_⟩
  with_reducible repeat' first
    | exact Carries.refl _ | intro _ | assumption | apply carries_pwrBrake | apply carries_atTime

theorem keeps_execConverterFault (active confirmed : Bool) (t : Time) (s : State) :
    ∃ t', execConverterFault active confirmed t s = .next t' ∧ Carries s t' := by
  refine ⟨_, rfl, ?_⟩
  with_reducible repeat' first
    | exact Carries.refl _ | intro _ | assumption | apply carries_converterFault | apply carries_atTime

theorem keeps_execRegulatorFault (sector : SectorId) (t : Time) (s : State) :
    ∃ t', execRegulatorFault sector t s = .next t' ∧ Carries s t' := by
  refine ⟨_, rfl, ?_⟩
  with_reducible repeat' first
    | exact Carries.refl _ | intro _ | assumption | apply carries_regulatorFault | apply carries_atTime

theorem keeps_execPackagePowerSample (sectorMw : Nat) (rails : List (Option Nat)) (t : Time) (s : State) :
    ∃ t', execPackagePowerSample sectorMw rails t s = .next t' ∧ Carries s t' := by
  refine ⟨_, rfl, ?_⟩
  with_reducible repeat' first
    | exact Carries.refl _ | intro _ | assumption | apply carries_packagePower | apply carries_atTime

theorem keeps_execAvsbusReadback (_mv amps : Nat) (t : Time) (s : State) :
    ∃ t', execAvsbusReadback _mv amps t s = .next t' ∧ Carries s t' := by
  refine ⟨_, rfl, ?_⟩
  with_reducible repeat' first
    | exact Carries.refl _ | intro _ | assumption | apply carries_avsReadback | apply carries_atTime

theorem keeps_execMarginPlanCompute (entries : List PlanEntry) (refresh : List Nat) (vfeed : Int) (lasers : List (Nat × Nat)) (heaters : List Nat) (t : Time) (s : State) :
    ∃ t', execMarginPlanCompute entries refresh vfeed lasers heaters t s = .next t' ∧ Carries s t' := by
  refine ⟨_, rfl, ?_⟩
  with_reducible repeat' first
    | exact Carries.refl _ | intro _ | assumption | apply carries_planCompute | apply carries_atTime

theorem keeps_execPlanApply (sector : SectorId) (t : Time) (s : State) :
    ∃ t', execPlanApply sector t s = .next t' ∧ Carries s t' := by
  refine ⟨_, rfl, ?_⟩
  with_reducible repeat' first
    | exact Carries.refl _ | intro _ | assumption | apply carries_planApply | apply carries_atTime

theorem keeps_execPathMonitorAlarm (sector : Fin 24) (slack : Nat) (t : Time) (s : State) :
    ∃ t', execPathMonitorAlarm sector slack t s = .next t' ∧ Carries s t' := by
  refine ⟨_, rfl, ?_⟩
  with_reducible repeat' first
    | exact Carries.refl _ | intro _ | assumption | apply carries_pathAlarm | apply carries_atTime

theorem keeps_execWatchdogExpire (i : Fin 35) (t : Time) (s : State) :
    ∃ t', execWatchdogExpire i t s = .next t' ∧ Carries s t' := by
  refine ⟨_, rfl, ?_⟩
  with_reducible repeat' first
    | exact Carries.refl _ | intro _ | assumption | apply carries_procRestart | apply carries_atTime

theorem keeps_execEngineCoreRestart (e : EngineId) (t : Time) (s : State) :
    ∃ t', execEngineCoreRestart e t s = .next t' ∧ Carries s t' := by
  refine ⟨_, rfl, ?_⟩
  with_reducible repeat' first
    | exact Carries.refl _ | intro _ | assumption | apply carries_restartDone | apply carries_atTime

theorem keeps_execStewardFailover (i : Fin 35) (t : Time) (s : State) :
    ∃ t', execStewardFailover i t s = .next t' ∧ Carries s t' := by
  refine ⟨_, rfl, ?_⟩
  with_reducible repeat' first
    | exact Carries.refl _ | intro _ | assumption | apply carries_stewardFailover | apply carries_atTime

theorem keeps_execPowerOnReset (s : State) :
    ∃ t', execPowerOnReset s = .next t' ∧ Keeps s t' := by
  exact ⟨_, rfl, keeps_powerOn (Keeps.refl s)⟩

theorem keeps_execBoardReset (t : Time) (s : State) :
    ∃ t', execBoardReset t s = .next t' ∧ Carries s t' := by
  refine ⟨_, rfl, ?_⟩
  with_reducible repeat' first
    | exact Carries.refl _ | intro _ | assumption | apply carries_boardReset | apply carries_atTime

theorem keeps_execPwrokFall (t : Time) (s : State) :
    ∃ t', execPwrokFall t s = .next t' ∧ Carries s t' := by
  refine ⟨_, rfl, ?_⟩
  with_reducible repeat' first
    | exact Carries.refl _ | intro _ | assumption | apply carries_resetBlock | apply carries_atTime

theorem keeps_execInternalReset (cause : Fin 3) (t : Time) (s : State) :
    ∃ t', execInternalReset cause t s = .next t' ∧ Carries s t' := by
  refine ⟨_, rfl, ?_⟩
  with_reducible repeat' first
    | exact Carries.refl _ | intro _ | assumption | apply carries_internalReset | apply carries_atTime

theorem keeps_execResetRelease (t : Time) (s : State) :
    ∃ t', execResetRelease t s = .next t' ∧ Keeps s t' := by
  exact ⟨_, rfl, keeps_resetRelease ((carries_atTime _ _ (Carries.refl s)).toKeeps)⟩

theorem keeps_execRefclkLoss (t : Time) (s : State) :
    ∃ t', execRefclkLoss t s = .next t' ∧ Carries s t' := by
  refine ⟨_, rfl, ?_⟩
  with_reducible repeat' first
    | exact Carries.refl _ | intro _ | assumption | apply carries_refclkLoss | apply carries_atTime

theorem keeps_execRefclkHoldoverExpire (t : Time) (s : State) :
    ∃ t', execRefclkHoldoverExpire t s = .next t' ∧ Carries s t' := by
  refine ⟨_, rfl, ?_⟩
  with_reducible repeat' first
    | exact Carries.refl _ | intro _ | assumption | apply carries_holdoverExpire | apply carries_atTime

theorem keeps_execRefclkReturn (t : Time) (s : State) :
    ∃ t', execRefclkReturn t s = .next t' ∧ Keeps s t' := by
  exact ⟨_, rfl, keeps_refclkReturn ((carries_atTime _ _ (Carries.refl s)).toKeeps)⟩

theorem keeps_execThermalTrip (sensor : BitVec 8) (temp : Int) (t : Time) (s : State) :
    ∃ t', execThermalTrip sensor temp t s = .next t' ∧ Carries s t' := by
  refine ⟨_, rfl, ?_⟩
  with_reducible repeat' first
    | exact Carries.refl _ | intro _ | assumption | apply carries_thermalTrip | apply carries_atTime

theorem keeps_execVfeedRestore (removedNs : Nat) (s : State) :
    ∃ t', execVfeedRestore removedNs s = .next t' ∧ Keeps s t' := by
  exact ⟨_, rfl, keeps_vfeedRestore _ (Keeps.refl s)⟩

theorem keeps_execBootStart (straps : BitVec 16) (t : Time) (s : State) :
    ∃ t', execBootStart straps t s = .next t' ∧ Carries s t' := by
  refine ⟨_, rfl, ?_⟩
  with_reducible repeat' first
    | exact Carries.refl _ | intro _ | assumption | apply carries_bootStart | apply carries_atTime

theorem keeps_execBootImagesVerified (t : Time) (s : State) :
    ∃ t', execBootImagesVerified t s = .next t' ∧ Carries s t' := by
  refine ⟨_, rfl, ?_⟩
  with_reducible repeat' first
    | exact Carries.refl _ | intro _ | assumption | apply carries_bootImages | apply carries_atTime

theorem keeps_execIdentityKeysReady (t : Time) (s : State) :
    ∃ t', execIdentityKeysReady t s = .next t' ∧ Carries s t' := by
  refine ⟨_, rfl, ?_⟩
  with_reducible repeat' first
    | exact Carries.refl _ | intro _ | assumption | apply carries_keysReadyNow | apply carries_atTime

theorem keeps_execTrialTimeout (t : Time) (s : State) :
    ∃ t', execTrialTimeout t s = .next t' ∧ Carries s t' := by
  refine ⟨_, rfl, ?_⟩
  with_reducible repeat' first
    | exact Carries.refl _ | intro _ | assumption | apply carries_trialTimeout | apply carries_atTime

theorem keeps_execUpdStageComplete (flashOk : Bool) (t : Time) (s : State) :
    ∃ t', execUpdStageComplete flashOk t s = .next t' ∧ Carries s t' := by
  refine ⟨_, rfl, ?_⟩
  with_reducible repeat' first
    | exact Carries.refl _ | intro _ | assumption | apply carries_stageComplete | apply carries_atTime

theorem keeps_execEmergencyHoldoffEnd (t : Time) (s : State) :
    ∃ t', execEmergencyHoldoffEnd t s = .next t' ∧ Carries s t' := by
  refine ⟨_, rfl, ?_⟩
  with_reducible repeat' first
    | exact Carries.refl _ | intro _ | assumption | apply carries_holdoffEnd | apply carries_atTime

theorem keeps_execLiveActivationStep (ok : Bool) (t : Time) (s : State) :
    ∃ t', execLiveActivationStep ok t s = .next t' ∧ Carries s t' := by
  refine ⟨_, rfl, ?_⟩
  with_reducible repeat' first
    | exact Carries.refl _ | intro _ | assumption | apply carries_liveStep | apply carries_atTime

theorem keeps_execProcessorRestartDone (i : Fin 35) (t : Time) (s : State) :
    ∃ t', execProcessorRestartDone i t s = .next t' ∧ Carries s t' := by
  refine ⟨_, rfl, ?_⟩
  with_reducible repeat' first
    | exact Carries.refl _ | intro _ | assumption | apply carries_restartEnds | apply carries_atTime

theorem keeps_execCommitComplete (t : Time) (s : State) :
    ∃ t', execCommitComplete t s = .next t' ∧ Carries s t' := by
  refine ⟨_, rfl, ?_⟩
  with_reducible repeat' first
    | exact Carries.refl _ | intro _ | assumption | apply carries_commitComplete | apply carries_atTime

theorem keeps_execGetVersion (src : SpdmFrom) (t : Time) (s : State) :
    ∃ t', execGetVersion src t s = .next t' ∧ Carries s t' := by
  refine ⟨_, rfl, ?_⟩
  with_reducible repeat' first
    | exact Carries.refl _ | intro _ | assumption | apply carries_spdmBasic | apply carries_atTime

theorem keeps_execGetCapabilities (src : SpdmFrom) (t : Time) (s : State) :
    ∃ t', execGetCapabilities src t s = .next t' ∧ Carries s t' := by
  refine ⟨_, rfl, ?_⟩
  with_reducible repeat' first
    | exact Carries.refl _ | intro _ | assumption | apply carries_spdmBasic | apply carries_atTime

theorem keeps_execNegotiateAlgorithms (src : SpdmFrom) (rsa3072 sha384 : Bool) (t : Time) (s : State) :
    ∃ t', execNegotiateAlgorithms src rsa3072 sha384 t s = .next t' ∧ Carries s t' := by
  refine ⟨_, rfl, ?_⟩
  with_reducible repeat' first
    | exact Carries.refl _ | intro _ | assumption | apply carries_cond | apply carries_spdmBasic
    | apply carries_atTime

theorem keeps_execGetDigests (src : SpdmFrom) (t : Time) (s : State) :
    ∃ t', execGetDigests src t s = .next t' ∧ Carries s t' := by
  refine ⟨_, rfl, ?_⟩
  with_reducible repeat' first
    | exact Carries.refl _ | intro _ | assumption | apply carries_spdmPlain | apply carries_atTime

theorem keeps_execGetCertificate (src : SpdmFrom) (slot offset len : Nat) (t : Time) (s : State) :
    ∃ t', execGetCertificate src slot offset len t s = .next t' ∧ Carries s t' := by
  refine ⟨_, rfl, ?_⟩
  with_reducible repeat' first
    | exact Carries.refl _ | intro _ | assumption | apply carries_spdmPlain | apply carries_atTime

theorem keeps_execChallenge (src : SpdmFrom) (slot : Nat) (nonce : List Byte) (t : Time) (s : State) :
    ∃ t', execChallenge src slot nonce t s = .next t' ∧ Carries s t' := by
  refine ⟨_, rfl, ?_⟩
  with_reducible repeat' first
    | exact Carries.refl _ | intro _ | assumption | apply carries_challenge | apply carries_atTime

theorem keeps_execGetMeasurements (src : SpdmFrom) (index : Nat) (signed : Bool) (nonce : List Byte) (t : Time) (s : State) :
    ∃ t', execGetMeasurements src index signed nonce t s = .next t' ∧ Carries s t' := by
  refine ⟨_, rfl, ?_⟩
  with_reducible repeat' first
    | exact Carries.refl _ | intro _ | assumption | apply carries_getMeasurements | apply carries_atTime

theorem keeps_execSpdmUnsupported (src : SpdmFrom) (code : Byte) (t : Time) (s : State) :
    ∃ t', execSpdmUnsupported src code t s = .next t' ∧ Carries s t' := by
  refine ⟨_, rfl, ?_⟩
  with_reducible repeat' first
    | exact Carries.refl _ | intro _ | assumption | apply carries_spdmPlain | apply carries_atTime

theorem keeps_execSpdmSignComplete (t : Time) (s : State) :
    ∃ t', execSpdmSignComplete t s = .next t' ∧ Carries s t' := by
  refine ⟨_, rfl, ?_⟩
  with_reducible repeat' first
    | exact Carries.refl _ | intro _ | assumption | apply carries_signComplete | apply carries_atTime

theorem keeps_execSpdmTcpConnect (port : Fin 4) (t : Time) (s : State) :
    ∃ t', execSpdmTcpConnect port t s = .next t' ∧ Carries s t' := by
  refine ⟨_, rfl, ?_⟩
  with_reducible repeat' first
    | exact Carries.refl _ | intro _ | assumption | apply carries_tcpConnect | apply carries_atTime

theorem keeps_execPllLock (t : Time) (s : State) :
    ∃ t', execPllLock t s = .next t' ∧ Carries s t' := by
  refine ⟨_, rfl, ?_⟩
  with_reducible repeat' first
    | exact Carries.refl _ | intro _ | assumption | apply carries_pllLocked | apply carries_atTime

theorem keeps_execRegulatorsUp (t : Time) (s : State) :
    ∃ t', execRegulatorsUp t s = .next t' ∧ Carries s t' := by
  refine ⟨_, rfl, ?_⟩
  with_reducible repeat' first
    | exact Carries.refl _ | intro _ | assumption | apply carries_regulatorsUp | apply carries_atTime

theorem keeps_execIdentityRead (tray : IdRecord) (stratus lsms : List IdRecord) (converters : List Bool) (t : Time) (s : State) :
    ∃ t', execIdentityRead tray stratus lsms converters t s = .next t' ∧ Carries s t' := by
  refine ⟨_, rfl, ?_⟩
  with_reducible repeat' first
    | exact Carries.refl _ | intro _ | assumption | apply carries_identityRead | apply carries_atTime

theorem keeps_execLaserEnable (e : EngineId) (t : Time) (s : State) :
    ∃ t', execLaserEnable e t s = .next t' ∧ Carries s t' := by
  refine ⟨_, rfl, ?_⟩
  with_reducible repeat' first
    | exact Carries.refl _ | intro _ | assumption | apply carries_laserEnable | apply carries_atTime

theorem keeps_execLsmPresenceChange (e : EngineId) (present : Bool) (t : Time) (s : State) :
    ∃ t', execLsmPresenceChange e present t s = .next t' ∧ Carries s t' := by
  refine ⟨_, rfl, ?_⟩
  with_reducible repeat' first
    | exact Carries.refl _ | intro _ | assumption | apply carries_lsmPresence | apply carries_atTime

theorem keeps_execLsmHoursUpdate (e : EngineId) (ok : Bool) (t : Time) (s : State) :
    ∃ t', execLsmHoursUpdate e ok t s = .next t' ∧ Carries s t' := by
  refine ⟨_, rfl, ?_⟩
  with_reducible repeat' first
    | exact Carries.refl _ | intro _ | assumption | apply carries_lsmHours | apply carries_atTime

theorem keeps_execLaneAbsentTimeout (e : EngineId) (f : Fin 4) (k : Fin 16) (t : Time) (s : State) :
    ∃ t', execLaneAbsentTimeout e f k t s = .next t' ∧ Carries s t' := by
  refine ⟨_, rfl, ?_⟩
  with_reducible repeat' first
    | exact Carries.refl _ | intro _ | assumption | apply carries_laneAbsent | apply carries_atTime

theorem keeps_execHbmTrainingDone (fails : List Nat) (t : Time) (s : State) :
    ∃ t', execHbmTrainingDone fails t s = .next t' ∧ Carries s t' := by
  refine ⟨_, rfl, ?_⟩
  with_reducible repeat' first
    | exact Carries.refl _ | intro _ | assumption | apply carries_hbmTrained | apply carries_atTime

theorem keeps_execHostPortsTrained (up : List Bool) (t : Time) (s : State) :
    ∃ t', execHostPortsTrained up t s = .next t' ∧ Carries s t' := by
  refine ⟨_, rfl, ?_⟩
  with_reducible repeat' first
    | exact Carries.refl _ | intro _ | assumption | apply carries_hostPortsTrained | apply carries_atTime

theorem keeps_execHostPortLinkUp (port : Fin 4) (t : Time) (s : State) :
    ∃ t', execHostPortLinkUp port t s = .next t' ∧ Carries s t' := by
  refine ⟨_, rfl, ?_⟩
  with_reducible repeat' first
    | exact Carries.refl _ | intro _ | assumption | apply carries_hostPortUp | apply carries_atTime

theorem keeps_execHostPortLinkDown (port : Fin 4) (t : Time) (s : State) :
    ∃ t', execHostPortLinkDown port t s = .next t' ∧ Carries s t' := by
  refine ⟨_, rfl, ?_⟩
  with_reducible repeat' first
    | exact Carries.refl _ | intro _ | assumption | apply carries_hostPortDown | apply carries_atTime

theorem keeps_execCalCommandComplete (flashOk : Bool) (t : Time) (s : State) :
    ∃ t', execCalCommandComplete flashOk t s = .next t' ∧ Carries s t' := by
  refine ⟨_, rfl, ?_⟩
  with_reducible repeat' first
    | exact Carries.refl _ | intro _ | assumption | apply carries_calComplete | apply carries_atTime

theorem keeps_execIssueStep (b : BenchId) (t : Time) (s : State) :
    ∃ t', execIssueStep b t s = .next t' ∧ Carries s t' := by
  refine ⟨_, rfl, ?_⟩
  with_reducible repeat' first
    | exact Carries.refl _ | intro _ | assumption | apply carries_issueStep | apply carries_atTime

theorem keeps_execStreamBufferFill (b : BenchId) (s : State) :
    ∃ t', execStreamBufferFill b s = .next t' ∧ Carries s t' := by
  refine ⟨_, rfl, ?_⟩
  with_reducible repeat' first
    | exact Carries.refl _ | intro _ | assumption | apply carries_streamFill

theorem keeps_execSadd (b : BenchId) (f : Fields) (s : State) :
    ∃ t', execSadd b f s = .next t' ∧ Carries s t' := by
  refine ⟨_, rfl, ?_⟩
  with_reducible repeat' first
    | exact Carries.refl _ | intro _ | assumption | apply carries_seqCommand

theorem keeps_execSsub (b : BenchId) (f : Fields) (s : State) :
    ∃ t', execSsub b f s = .next t' ∧ Carries s t' := by
  refine ⟨_, rfl, ?_⟩
  with_reducible repeat' first
    | exact Carries.refl _ | intro _ | assumption | apply carries_seqCommand

theorem keeps_execSmul (b : BenchId) (f : Fields) (s : State) :
    ∃ t', execSmul b f s = .next t' ∧ Carries s t' := by
  refine ⟨_, rfl, ?_⟩
  with_reducible repeat' first
    | exact Carries.refl _ | intro _ | assumption | apply carries_seqCommand

theorem keeps_execSand (b : BenchId) (f : Fields) (s : State) :
    ∃ t', execSand b f s = .next t' ∧ Carries s t' := by
  refine ⟨_, rfl, ?_⟩
  with_reducible repeat' first
    | exact Carries.refl _ | intro _ | assumption | apply carries_seqCommand

theorem keeps_execSor (b : BenchId) (f : Fields) (s : State) :
    ∃ t', execSor b f s = .next t' ∧ Carries s t' := by
  refine ⟨_, rfl, ?_⟩
  with_reducible repeat' first
    | exact Carries.refl _ | intro _ | assumption | apply carries_seqCommand

theorem keeps_execSxor (b : BenchId) (f : Fields) (s : State) :
    ∃ t', execSxor b f s = .next t' ∧ Carries s t' := by
  refine ⟨_, rfl, ?_⟩
  with_reducible repeat' first
    | exact Carries.refl _ | intro _ | assumption | apply carries_seqCommand

theorem keeps_execSshl (b : BenchId) (f : Fields) (s : State) :
    ∃ t', execSshl b f s = .next t' ∧ Carries s t' := by
  refine ⟨_, rfl, ?_⟩
  with_reducible repeat' first
    | exact Carries.refl _ | intro _ | assumption | apply carries_seqCommand

theorem keeps_execSshr (b : BenchId) (f : Fields) (s : State) :
    ∃ t', execSshr b f s = .next t' ∧ Carries s t' := by
  refine ⟨_, rfl, ?_⟩
  with_reducible repeat' first
    | exact Carries.refl _ | intro _ | assumption | apply carries_seqCommand

theorem keeps_execSsra (b : BenchId) (f : Fields) (s : State) :
    ∃ t', execSsra b f s = .next t' ∧ Carries s t' := by
  refine ⟨_, rfl, ?_⟩
  with_reducible repeat' first
    | exact Carries.refl _ | intro _ | assumption | apply carries_seqCommand

theorem keeps_execSmin (b : BenchId) (f : Fields) (s : State) :
    ∃ t', execSmin b f s = .next t' ∧ Carries s t' := by
  refine ⟨_, rfl, ?_⟩
  with_reducible repeat' first
    | exact Carries.refl _ | intro _ | assumption | apply carries_seqCommand

theorem keeps_execSmax (b : BenchId) (f : Fields) (s : State) :
    ∃ t', execSmax b f s = .next t' ∧ Carries s t' := by
  refine ⟨_, rfl, ?_⟩
  with_reducible repeat' first
    | exact Carries.refl _ | intro _ | assumption | apply carries_seqCommand

theorem keeps_execSli (b : BenchId) (f : Fields) (s : State) :
    ∃ t', execSli b f s = .next t' ∧ Carries s t' := by
  refine ⟨_, rfl, ?_⟩
  with_reducible repeat' first
    | exact Carries.refl _ | intro _ | assumption | apply carries_seqCommand

theorem keeps_execSlih (b : BenchId) (f : Fields) (s : State) :
    ∃ t', execSlih b f s = .next t' ∧ Carries s t' := by
  refine ⟨_, rfl, ?_⟩
  with_reducible repeat' first
    | exact Carries.refl _ | intro _ | assumption | apply carries_seqCommand

theorem keeps_execSaddi (b : BenchId) (f : Fields) (s : State) :
    ∃ t', execSaddi b f s = .next t' ∧ Carries s t' := by
  refine ⟨_, rfl, ?_⟩
  with_reducible repeat' first
    | exact Carries.refl _ | intro _ | assumption | apply carries_seqCommand

theorem keeps_execSld (b : BenchId) (f : Fields) (s : State) :
    ∃ t', execSld b f s = .next t' ∧ Carries s t' := by
  refine ⟨_, rfl, ?_⟩
  with_reducible repeat' first
    | exact Carries.refl _ | intro _ | assumption | apply carries_seqCommand

theorem keeps_execSst (b : BenchId) (f : Fields) (s : State) :
    ∃ t', execSst b f s = .next t' ∧ Carries s t' := by
  refine ⟨_, rfl, ?_⟩
  with_reducible repeat' first
    | exact Carries.refl _ | intro _ | assumption | apply carries_seqCommand

theorem keeps_execScmp (b : BenchId) (f : Fields) (s : State) :
    ∃ t', execScmp b f s = .next t' ∧ Carries s t' := by
  refine ⟨_, rfl, ?_⟩
  with_reducible repeat' first
    | exact Carries.refl _ | intro _ | assumption | apply carries_seqCommand

theorem keeps_execPlog (b : BenchId) (f : Fields) (s : State) :
    ∃ t', execPlog b f s = .next t' ∧ Carries s t' := by
  refine ⟨_, rfl, ?_⟩
  with_reducible repeat' first
    | exact Carries.refl _ | intro _ | assumption | apply carries_seqCommand

theorem keeps_execThset (b : BenchId) (f : Fields) (s : State) :
    ∃ t', execThset b f s = .next t' ∧ Carries s t' := by
  refine ⟨_, rfl, ?_⟩
  with_reducible repeat' first
    | exact Carries.refl _ | intro _ | assumption | apply carries_seqCommand

theorem keeps_execThmov (b : BenchId) (f : Fields) (s : State) :
    ∃ t', execThmov b f s = .next t' ∧ Carries s t' := by
  refine ⟨_, rfl, ?_⟩
  with_reducible repeat' first
    | exact Carries.refl _ | intro _ | assumption | apply carries_seqCommand

theorem keeps_execThget (b : BenchId) (f : Fields) (s : State) :
    ∃ t', execThget b f s = .next t' ∧ Carries s t' := by
  refine ⟨_, rfl, ?_⟩
  with_reducible repeat' first
    | exact Carries.refl _ | intro _ | assumption | apply carries_seqCommand

theorem keeps_execChopen (b : BenchId) (f : Fields) (s : State) :
    ∃ t', execChopen b f s = .next t' ∧ Carries s t' := by
  refine ⟨_, rfl, ?_⟩
  with_reducible repeat' first
    | exact Carries.refl _ | intro _ | assumption | apply carries_seqCommand

theorem keeps_execChclose (b : BenchId) (f : Fields) (s : State) :
    ∃ t', execChclose b f s = .next t' ∧ Carries s t' := by
  refine ⟨_, rfl, ?_⟩
  with_reducible repeat' first
    | exact Carries.refl _ | intro _ | assumption | apply carries_seqCommand

theorem keeps_execPbind (b : BenchId) (f : Fields) (s : State) :
    ∃ t', execPbind b f s = .next t' ∧ Carries s t' := by
  refine ⟨_, rfl, ?_⟩
  with_reducible repeat' first
    | exact Carries.refl _ | intro _ | assumption | apply carries_seqCommand

theorem keeps_execChstat (b : BenchId) (f : Fields) (s : State) :
    ∃ t', execChstat b f s = .next t' ∧ Carries s t' := by
  refine ⟨_, rfl, ?_⟩
  with_reducible repeat' first
    | exact Carries.refl _ | intro _ | assumption | apply carries_seqCommand

theorem keeps_execBr (b : BenchId) (f : Fields) (s : State) :
    ∃ t', execBr b f s = .next t' ∧ Carries s t' := by
  refine ⟨_, rfl, ?_⟩
  with_reducible repeat' first
    | exact Carries.refl _ | intro _ | assumption | apply carries_seqCommand

theorem keeps_execBrs (b : BenchId) (f : Fields) (s : State) :
    ∃ t', execBrs b f s = .next t' ∧ Carries s t' := by
  refine ⟨_, rfl, ?_⟩
  with_reducible repeat' first
    | exact Carries.refl _ | intro _ | assumption | apply carries_seqCommand

theorem keeps_execLoop (b : BenchId) (f : Fields) (s : State) :
    ∃ t', execLoop b f s = .next t' ∧ Carries s t' := by
  refine ⟨_, rfl, ?_⟩
  with_reducible repeat' first
    | exact Carries.refl _ | intro _ | assumption | apply carries_seqCommand

theorem keeps_execCall (b : BenchId) (f : Fields) (s : State) :
    ∃ t', execCall b f s = .next t' ∧ Carries s t' := by
  refine ⟨_, rfl, ?_⟩
  with_reducible repeat' first
    | exact Carries.refl _ | intro _ | assumption | apply carries_seqCommand

theorem keeps_execRet (b : BenchId) (f : Fields) (s : State) :
    ∃ t', execRet b f s = .next t' ∧ Carries s t' := by
  refine ⟨_, rfl, ?_⟩
  with_reducible repeat' first
    | exact Carries.refl _ | intro _ | assumption | apply carries_seqCommand

theorem keeps_execWaitq (b : BenchId) (f : Fields) (s : State) :
    ∃ t', execWaitq b f s = .next t' ∧ Carries s t' := by
  refine ⟨_, rfl, ?_⟩
  with_reducible repeat' first
    | exact Carries.refl _ | intro _ | assumption | apply carries_seqCommand

theorem keeps_execWaitp (b : BenchId) (f : Fields) (s : State) :
    ∃ t', execWaitp b f s = .next t' ∧ Carries s t' := by
  refine ⟨_, rfl, ?_⟩
  with_reducible repeat' first
    | exact Carries.refl _ | intro _ | assumption | apply carries_seqCommand

theorem keeps_execFence (b : BenchId) (f : Fields) (s : State) :
    ∃ t', execFence b f s = .next t' ∧ Carries s t' := by
  refine ⟨_, rfl, ?_⟩
  with_reducible repeat' first
    | exact Carries.refl _ | intro _ | assumption | apply carries_seqCommand

theorem keeps_execWaitc (b : BenchId) (f : Fields) (s : State) :
    ∃ t', execWaitc b f s = .next t' ∧ Carries s t' := by
  refine ⟨_, rfl, ?_⟩
  with_reducible repeat' first
    | exact Carries.refl _ | intro _ | assumption | apply carries_seqCommand

theorem keeps_execYield (b : BenchId) (f : Fields) (s : State) :
    ∃ t', execYield b f s = .next t' ∧ Carries s t' := by
  refine ⟨_, rfl, ?_⟩
  with_reducible repeat' first
    | exact Carries.refl _ | intro _ | assumption | apply carries_seqCommand

theorem keeps_execEnd (b : BenchId) (f : Fields) (s : State) :
    ∃ t', execEnd b f s = .next t' ∧ Carries s t' := by
  refine ⟨_, rfl, ?_⟩
  with_reducible repeat' first
    | exact Carries.refl _ | intro _ | assumption | apply carries_seqCommand

theorem keeps_execNop (b : BenchId) (f : Fields) (s : State) :
    ∃ t', execNop b f s = .next t' ∧ Carries s t' := by
  refine ⟨_, rfl, ?_⟩
  with_reducible repeat' first
    | exact Carries.refl _ | intro _ | assumption | apply carries_seqCommand

theorem keeps_execBenchid (b : BenchId) (f : Fields) (s : State) :
    ∃ t', execBenchid b f s = .next t' ∧ Carries s t' := by
  refine ⟨_, rfl, ?_⟩
  with_reducible repeat' first
    | exact Carries.refl _ | intro _ | assumption | apply carries_seqCommand

theorem keeps_execChannelWriteComplete (b : BenchId) (ch : Fin 64) (s : State) :
    ∃ t', execChannelWriteComplete b ch s = .next t' ∧ Carries s t' := by
  refine ⟨_, rfl, ?_⟩
  with_reducible repeat' first
    | exact Carries.refl _ | intro _ | assumption | apply carries_channelWriteComplete

theorem keeps_execCreditReturn (b : BenchId) (ch : Fin 64) (s : State) :
    ∃ t', execCreditReturn b ch s = .next t' ∧ Carries s t' := by
  refine ⟨_, rfl, ?_⟩
  with_reducible repeat' first
    | exact Carries.refl _ | intro _ | assumption | apply carries_creditReturn

theorem keeps_execChannelCloseComplete (b : BenchId) (ch : Fin 64) (t : Time) (s : State) :
    ∃ t', execChannelCloseComplete b ch t s = .next t' ∧ Carries s t' := by
  refine ⟨_, rfl, ?_⟩
  with_reducible repeat' first
    | exact Carries.refl _ | intro _ | assumption | apply carries_channelClose | apply carries_atTime

theorem keeps_execRld (b : BenchId) (t : Time) (s : State) :
    ∃ t', execRld b t s = .next t' ∧ Carries s t' := by
  refine ⟨_, rfl, ?_⟩
  with_reducible repeat' first
    | exact Carries.refl _ | intro _ | assumption | apply carries_onSys | apply carries_rldEntry
    | apply carries_atTime

theorem keeps_execRst (b : BenchId) (t : Time) (s : State) :
    ∃ t', execRst b t s = .next t' ∧ Carries s t' := by
  refine ⟨_, rfl, ?_⟩
  with_reducible repeat' first
    | exact Carries.refl _ | intro _ | assumption | apply carries_onSys | apply carries_rstEntry
    | apply carries_atTime

theorem keeps_execRamo (b : BenchId) (t : Time) (s : State) :
    ∃ t', execRamo b t s = .next t' ∧ Carries s t' := by
  refine ⟨_, rfl, ?_⟩
  with_reducible repeat' first
    | exact Carries.refl _ | intro _ | assumption | apply carries_onSys | apply carries_ramoEntry
    | apply carries_atTime

theorem keeps_execRown (b : BenchId) (t : Time) (s : State) :
    ∃ t', execRown b t s = .next t' ∧ Carries s t' := by
  refine ⟨_, rfl, ?_⟩
  with_reducible repeat' first
    | exact Carries.refl _ | intro _ | assumption | apply carries_onSys | apply carries_rownEntry
    | apply carries_atTime

theorem keeps_execRput (b : BenchId) (t : Time) (s : State) :
    ∃ t', execRput b t s = .next t' ∧ Carries s t' := by
  refine ⟨_, rfl, ?_⟩
  with_reducible repeat' first
    | exact Carries.refl _ | intro _ | assumption | apply carries_onSys | apply carries_acceptSplit
    | apply carries_atTime | dsimp only

theorem keeps_execRget (b : BenchId) (t : Time) (s : State) :
    ∃ t', execRget b t s = .next t' ∧ Carries s t' := by
  refine ⟨_, rfl, ?_⟩
  with_reducible repeat' first
    | exact Carries.refl _ | intro _ | assumption | apply carries_onSys | apply carries_acceptSplit
    | apply carries_atTime | dsimp only

theorem keeps_execRequestArrive (pkt : Packet) (t : Time) (s : State) :
    ∃ t', execRequestArrive pkt t s = .next t' ∧ Carries s t' := by
  refine ⟨_, rfl, ?_⟩
  with_reducible repeat' first
    | exact Carries.refl _ | intro _ | assumption | apply carries_requestArrive | apply carries_atTime

theorem keeps_execRequestApply (src : BitVec 13) (seq : BitVec 16) (t : Time) (s : State) :
    ∃ t', execRequestApply src seq t s = .next t' ∧ Carries s t' := by
  refine ⟨_, rfl, ?_⟩
  with_reducible repeat' first
    | exact Carries.refl _ | intro _ | assumption | apply carries_atTime | apply carries_requestApply
    | apply carries_homeWake

theorem keeps_execResponseArrive (pkt : Packet) (t : Time) (s : State) :
    ∃ t', execResponseArrive pkt t s = .next t' ∧ Carries s t' := by
  refine ⟨_, rfl, ?_⟩
  with_reducible repeat' first
    | exact Carries.refl _ | intro _ | assumption | apply carries_responseArrive | apply carries_atTime

theorem keeps_execNackResend (tag : Nat) (t : Time) (s : State) :
    ∃ t', execNackResend tag t s = .next t' ∧ Carries s t' := by
  refine ⟨_, rfl, ?_⟩
  with_reducible repeat' first
    | exact Carries.refl _ | intro _ | assumption | apply carries_nackResend | apply carries_atTime

theorem keeps_execRemoteRetransmit (tag : Nat) (notice : Bool) (t : Time) (s : State) :
    ∃ t', execRemoteRetransmit tag notice t s = .next t' ∧ Carries s t' := by
  refine ⟨_, rfl, ?_⟩
  with_reducible repeat' first
    | exact Carries.refl _ | intro _ | assumption | apply carries_remoteRetransmit | apply carries_atTime

theorem keeps_execFloorSend (home : BitVec 13) (t : Time) (s : State) :
    ∃ t', execFloorSend home t s = .next t' ∧ Carries s t' := by
  refine ⟨_, rfl, ?_⟩
  with_reducible repeat' first
    | exact Carries.refl _ | intro _ | assumption | apply carries_floorSend | apply carries_atTime

theorem keeps_execGatewayForward (g : GatewayMove) (t : Time) (s : State) :
    ∃ t', execGatewayForward g t s = .next t' ∧ Carries s t' := by
  refine ⟨_, rfl, ?_⟩
  with_reducible repeat' first
    | exact Carries.refl _ | intro _ | assumption | apply carries_gatewayMove | apply carries_atTime

theorem keeps_execGatewayConnectionLost (rdom : BitVec 16) (t : Time) (s : State) :
    ∃ t', execGatewayConnectionLost rdom t s = .next t' ∧ Carries s t' := by
  refine ⟨_, rfl, ?_⟩
  with_reducible repeat' first
    | exact Carries.refl _ | intro _ | assumption | apply carries_gatewayLost | apply carries_atTime

theorem keeps_execPacketInject (p : PartId) (pkt : Packet) (t : Time) (s : State) :
    ∃ t', execPacketInject p pkt t s = .next t' ∧ Carries s t' := by
  refine ⟨_, rfl, ?_⟩
  with_reducible repeat' first
    | exact Carries.refl _ | intro _ | assumption | apply carries_packetInject | apply carries_atTime

theorem keeps_execAssayUpdateApply (p : PartId) (hub : Fin 2) (t : Time) (s : State) :
    ∃ t', execAssayUpdateApply p hub t s = .next t' ∧ Carries s t' := by
  refine ⟨_, rfl, ?_⟩
  with_reducible repeat' first
    | exact Carries.refl _ | intro _ | assumption | apply carries_assayApply | apply carries_atTime

theorem keeps_execSeedset (b : BenchId) (s : State) :
    ∃ t', execSeedset b s = .next t' ∧ Carries s t' := by
  refine ⟨_, rfl, ?_⟩
  with_reducible repeat' first
    | exact Carries.refl _ | intro _ | assumption | apply carries_onSys | apply carries_seedsetEntry

theorem keeps_execAsyclr (b : BenchId) (s : State) :
    ∃ t', execAsyclr b s = .next t' ∧ Carries s t' := by
  refine ⟨_, rfl, ?_⟩
  with_reducible repeat' first
    | exact Carries.refl _ | intro _ | assumption | apply carries_cond | apply carries_onSys | apply carries_tagInstr
    | apply carries_clearRecord | dsimp only

theorem keeps_execNumhist (b : BenchId) (s : State) :
    ∃ t', execNumhist b s = .next t' ∧ Carries s t' := by
  refine ⟨_, rfl, ?_⟩
  with_reducible repeat' first
    | exact Carries.refl _ | intro _ | assumption | apply carries_onSys | apply carries_tagInstr
    | apply carries_commitHistory | dsimp only

theorem keeps_execAsysync (b : BenchId) (s : State) :
    ∃ t', execAsysync b s = .next t' ∧ Carries s t' := by
  refine ⟨_, rfl, ?_⟩
  with_reducible repeat' first
    | exact Carries.refl _ | intro _ | assumption | apply carries_onSys | apply carries_asysyncEntry

theorem keeps_execMma (b : BenchId) (i : Fin 4) (s : State) :
    ∃ t', execMma b i s = .next t' ∧ Carries s t' := by
  refine ⟨_, rfl, ?_⟩
  with_reducible repeat' first
    | exact Carries.refl _ | intro _ | assumption | apply carries_stationExec | dsimp only

theorem keeps_execMmadr (b : BenchId) (i : Fin 4) (s : State) :
    ∃ t', execMmadr b i s = .next t' ∧ Carries s t' := by
  refine ⟨_, rfl, ?_⟩
  with_reducible repeat' first
    | exact Carries.refl _ | intro _ | assumption | apply carries_stationExec | dsimp only

theorem keeps_execAccld (b : BenchId) (i : Fin 4) (s : State) :
    ∃ t', execAccld b i s = .next t' ∧ Carries s t' := by
  refine ⟨_, rfl, ?_⟩
  with_reducible repeat' first
    | exact Carries.refl _ | intro _ | assumption | apply carries_stationExec | dsimp only

theorem keeps_execAccz (b : BenchId) (i : Fin 4) (s : State) :
    ∃ t', execAccz b i s = .next t' ∧ Carries s t' := by
  refine ⟨_, rfl, ?_⟩
  with_reducible repeat' first
    | exact Carries.refl _ | intro _ | assumption | apply carries_stationExec | dsimp only

theorem keeps_execQnt (b : BenchId) (i : Fin 2) (s : State) :
    ∃ t', execQnt b i s = .next t' ∧ Carries s t' := by
  refine ⟨_, rfl, ?_⟩
  with_reducible repeat' first
    | exact Carries.refl _ | intro _ | assumption | apply carries_stationExec | dsimp only

theorem keeps_execDqt (b : BenchId) (i : Fin 2) (s : State) :
    ∃ t', execDqt b i s = .next t' ∧ Carries s t' := by
  refine ⟨_, rfl, ?_⟩
  with_reducible repeat' first
    | exact Carries.refl _ | intro _ | assumption | apply carries_stationExec | dsimp only

theorem keeps_execHad (b : BenchId) (i : Fin 2) (s : State) :
    ∃ t', execHad b i s = .next t' ∧ Carries s t' := by
  refine ⟨_, rfl, ?_⟩
  with_reducible repeat' first
    | exact Carries.refl _ | intro _ | assumption | apply carries_stationExec | dsimp only

theorem keeps_execAsy (b : BenchId) (i : Fin 2) (s : State) :
    ∃ t', execAsy b i s = .next t' ∧ Carries s t' := by
  refine ⟨_, rfl, ?_⟩
  with_reducible repeat' first
    | exact Carries.refl _ | intro _ | assumption | apply carries_stationExec | dsimp only

theorem keeps_execVseq (b : BenchId) (i : Fin 2) (s : State) :
    ∃ t', execVseq b i s = .next t' ∧ Carries s t' := by
  refine ⟨_, rfl, ?_⟩
  with_reducible repeat' first
    | exact Carries.refl _ | intro _ | assumption | apply carries_stationExec | dsimp only

theorem keeps_execVred (b : BenchId) (i : Fin 2) (s : State) :
    ∃ t', execVred b i s = .next t' ∧ Carries s t' := by
  refine ⟨_, rfl, ?_⟩
  with_reducible repeat' first
    | exact Carries.refl _ | intro _ | assumption | apply carries_stationExec | dsimp only

theorem keeps_execFxload (b : BenchId) (i : Fin 2) (s : State) :
    ∃ t', execFxload b i s = .next t' ∧ Carries s t' := by
  refine ⟨_, rfl, ?_⟩
  with_reducible repeat' first
    | exact Carries.refl _ | intro _ | assumption | apply carries_stationExec | dsimp only

theorem keeps_execVfill (b : BenchId) (i : Fin 2) (s : State) :
    ∃ t', execVfill b i s = .next t' ∧ Carries s t' := by
  refine ⟨_, rfl, ?_⟩
  with_reducible repeat' first
    | exact Carries.refl _ | intro _ | assumption | apply carries_stationExec | dsimp only

theorem keeps_execSwt (b : BenchId) (s : State) :
    ∃ t', execSwt b s = .next t' ∧ Carries s t' := by
  refine ⟨_, rfl, ?_⟩
  with_reducible repeat' first
    | exact Carries.refl _ | intro _ | assumption | apply carries_stationExec | dsimp only

theorem keeps_execSwx (b : BenchId) (s : State) :
    ∃ t', execSwx b s = .next t' ∧ Carries s t' := by
  refine ⟨_, rfl, ?_⟩
  with_reducible repeat' first
    | exact Carries.refl _ | intro _ | assumption | apply carries_stationExec | dsimp only

theorem keeps_execSwga (b : BenchId) (s : State) :
    ∃ t', execSwga b s = .next t' ∧ Carries s t' := by
  refine ⟨_, rfl, ?_⟩
  with_reducible repeat' first
    | exact Carries.refl _ | intro _ | assumption | apply carries_stationExec | dsimp only

theorem keeps_execSwsc (b : BenchId) (s : State) :
    ∃ t', execSwsc b s = .next t' ∧ Carries s t' := by
  refine ⟨_, rfl, ?_⟩
  with_reducible repeat' first
    | exact Carries.refl _ | intro _ | assumption | apply carries_stationExec | dsimp only

theorem keeps_execSwc (b : BenchId) (s : State) :
    ∃ t', execSwc b s = .next t' ∧ Carries s t' := by
  refine ⟨_, rfl, ?_⟩
  with_reducible repeat' first
    | exact Carries.refl _ | intro _ | assumption | apply carries_stationExec | dsimp only

theorem keeps_execCred (b : BenchId) (s : State) :
    ∃ t', execCred b s = .next t' ∧ Carries s t' := by
  refine ⟨_, rfl, ?_⟩
  with_reducible repeat' first
    | exact Carries.refl _ | intro _ | assumption | apply carries_cred

theorem keeps_execCxsum (b : BenchId) (s : State) :
    ∃ t', execCxsum b s = .next t' ∧ Carries s t' := by
  refine ⟨_, rfl, ?_⟩
  with_reducible repeat' first
    | exact Carries.refl _ | intro _ | assumption | apply carries_stationExec | dsimp only

theorem keeps_execHenc (b : BenchId) (s : State) :
    ∃ t', execHenc b s = .next t' ∧ Carries s t' := by
  refine ⟨_, rfl, ?_⟩
  with_reducible repeat' first
    | exact Carries.refl _ | intro _ | assumption | apply carries_stationExec | dsimp only

theorem keeps_execHdec (b : BenchId) (s : State) :
    ∃ t', execHdec b s = .next t' ∧ Carries s t' := by
  refine ⟨_, rfl, ?_⟩
  with_reducible repeat' first
    | exact Carries.refl _ | intro _ | assumption | apply carries_stationExec | dsimp only

theorem keeps_execHsum (b : BenchId) (s : State) :
    ∃ t', execHsum b s = .next t' ∧ Carries s t' := by
  refine ⟨_, rfl, ?_⟩
  with_reducible repeat' first
    | exact Carries.refl _ | intro _ | assumption | apply carries_stationExec | dsimp only

theorem keeps_execSprd (b : BenchId) (i : Fin 2) (t : Time) (s : State) :
    ∃ t', execSprd b i t s = .next t' ∧ Carries s t' := by
  refine ⟨_, rfl, ?_⟩
  with_reducible repeat' first
    | exact Carries.refl _ | intro _ | assumption | apply carries_onSprue | apply carries_blockRun
    | apply carries_atTime

theorem keeps_execSpwr (b : BenchId) (i : Fin 2) (t : Time) (s : State) :
    ∃ t', execSpwr b i t s = .next t' ∧ Carries s t' := by
  refine ⟨_, rfl, ?_⟩
  with_reducible repeat' first
    | exact Carries.refl _ | intro _ | assumption | apply carries_onSprue | apply carries_blockRun
    | apply carries_atTime

theorem keeps_execSptld (b : BenchId) (i : Fin 2) (t : Time) (s : State) :
    ∃ t', execSptld b i t s = .next t' ∧ Carries s t' := by
  refine ⟨_, rfl, ?_⟩
  with_reducible repeat' first
    | exact Carries.refl _ | intro _ | assumption | apply carries_onSprue | apply carries_sptldRun
    | apply carries_atTime

theorem keeps_execSptst (b : BenchId) (i : Fin 2) (t : Time) (s : State) :
    ∃ t', execSptst b i t s = .next t' ∧ Carries s t' := by
  refine ⟨_, rfl, ?_⟩
  with_reducible repeat' first
    | exact Carries.refl _ | intro _ | assumption | apply carries_onSprue | apply carries_sptstRun
    | apply carries_atTime

theorem keeps_execSpxf (b : BenchId) (i : Fin 2) (s : State) :
    ∃ t', execSpxf b i s = .next t' ∧ Carries s t' := by
  refine ⟨_, rfl, ?_⟩
  with_reducible repeat' first
    | exact Carries.refl _ | intro _ | assumption | apply carries_onSprue | apply carries_spxfRun

theorem keeps_execSppf (b : BenchId) (i : Fin 2) (s : State) :
    ∃ t', execSppf b i s = .next t' ∧ Carries s t' := by
  refine ⟨_, rfl, ?_⟩
  with_reducible repeat' first
    | exact Carries.refl _ | intro _ | assumption | apply carries_onSprue | apply carries_sppfRun

theorem keeps_execSegmentEnd (req seg : Nat) (t : Time) (s : State) :
    ∃ t', execSegmentEnd req seg t s = .next t' ∧ Carries s t' := by
  refine ⟨_, rfl, ?_⟩
  with_reducible repeat' first
    | exact Carries.refl _ | intro _ | assumption | apply carries_segmentEnd | apply carries_atTime

theorem keeps_execStationStart (b : BenchId) (ord : Fin 13) (s : State) :
    ∃ t', execStationStart b ord s = .next t' ∧ Carries s t' := by
  refine ⟨_, rfl, ?_⟩
  with_reducible repeat' first
    | exact Carries.refl _ | intro _ | assumption | apply carries_stationStart

theorem keeps_execStationRetire (b : BenchId) (ord : Fin 13) (s : State) :
    ∃ t', execStationRetire b ord s = .next t' ∧ Carries s t' := by
  refine ⟨_, rfl, ?_⟩
  with_reducible repeat' first
    | exact Carries.refl _ | intro _ | assumption | apply carries_stationRetire

theorem keeps_execSystemQueueTake (b : BenchId) (t : Time) (s : State) :
    ∃ t', execSystemQueueTake b t s = .next t' ∧ Carries s t' := by
  refine ⟨_, rfl, ?_⟩
  with_reducible repeat' first
    | exact Carries.refl _ | intro _ | assumption | apply carries_sysTake | apply carries_atTime

theorem keeps_execCbar (b : BenchId) (t : Time) (s : State) :
    ∃ t', execCbar b t s = .next t' ∧ Carries s t' := by
  refine ⟨_, rfl, ?_⟩
  with_reducible repeat' first
    | exact Carries.refl _ | intro _ | assumption | apply carries_onSys | apply carries_collEntry
    | apply carries_atTime

theorem keeps_execCsred (b : BenchId) (t : Time) (s : State) :
    ∃ t', execCsred b t s = .next t' ∧ Carries s t' := by
  refine ⟨_, rfl, ?_⟩
  with_reducible repeat' first
    | exact Carries.refl _ | intro _ | assumption | apply carries_onSys | apply carries_collEntry
    | apply carries_atTime

theorem keeps_execCtar (b : BenchId) (t : Time) (s : State) :
    ∃ t', execCtar b t s = .next t' ∧ Carries s t' := by
  refine ⟨_, rfl, ?_⟩
  with_reducible repeat' first
    | exact Carries.refl _ | intro _ | assumption | apply carries_onSys | apply carries_collEntry
    | apply carries_atTime

theorem keeps_execCtrs (b : BenchId) (t : Time) (s : State) :
    ∃ t', execCtrs b t s = .next t' ∧ Carries s t' := by
  refine ⟨_, rfl, ?_⟩
  with_reducible repeat' first
    | exact Carries.refl _ | intro _ | assumption | apply carries_onSys | apply carries_collEntry
    | apply carries_atTime

theorem keeps_execCtag (b : BenchId) (t : Time) (s : State) :
    ∃ t', execCtag b t s = .next t' ∧ Carries s t' := by
  refine ⟨_, rfl, ?_⟩
  with_reducible repeat' first
    | exact Carries.refl _ | intro _ | assumption | apply carries_onSys | apply carries_collEntry
    | apply carries_atTime

theorem keeps_execCtbc (b : BenchId) (t : Time) (s : State) :
    ∃ t', execCtbc b t s = .next t' ∧ Carries s t' := by
  refine ⟨_, rfl, ?_⟩
  with_reducible repeat' first
    | exact Carries.refl _ | intro _ | assumption | apply carries_onSys | apply carries_collEntry
    | apply carries_atTime

theorem keeps_execSignatureArrive (p : PartId) (src : BitVec 13) (msg : CollMsg) (t : Time) (s : State) :
    ∃ t', execSignatureArrive p src msg t s = .next t' ∧ Carries s t' := by
  refine ⟨_, rfl, ?_⟩
  with_reducible repeat' first
    | exact Carries.refl _ | intro _ | assumption | apply carries_signatureArrive | apply carries_atTime

theorem keeps_execGoArrive (p : PartId) (msg : CollMsg) (t : Time) (s : State) :
    ∃ t', execGoArrive p msg t s = .next t' ∧ Carries s t' := by
  refine ⟨_, rfl, ?_⟩
  with_reducible repeat' first
    | exact Carries.refl _ | intro _ | assumption | apply carries_goArrive | apply carries_atTime

theorem keeps_execChunkArrive (p : PartId) (src : BitVec 13) (msg : CollMsg) (t : Time) (s : State) :
    ∃ t', execChunkArrive p src msg t s = .next t' ∧ Carries s t' := by
  refine ⟨_, rfl, ?_⟩
  with_reducible repeat' first
    | exact Carries.refl _ | intro _ | assumption | apply carries_chunkArrive | apply carries_atTime

theorem keeps_execCollectiveChunkFold (b : BenchId) (s : State) :
    ∃ t', execCollectiveChunkFold b s = .next t' ∧ Carries s t' := by
  refine ⟨_, rfl, ?_⟩
  with_reducible repeat' first
    | exact Carries.refl _ | intro _ | assumption | apply carries_chunkFold

theorem keeps_execCollectiveAbort (p : PartId) (msg : CollMsg) (t : Time) (s : State) :
    ∃ t', execCollectiveAbort p msg t s = .next t' ∧ Carries s t' := by
  refine ⟨_, rfl, ?_⟩
  with_reducible repeat' first
    | exact Carries.refl _ | intro _ | assumption | apply carries_abortArrive | apply carries_atTime

theorem keeps_execCollectiveTimeout (p : PartId) (group : BitVec 16) (seq : BitVec 32) (member : Nat) (t : Time) (s : State) :
    ∃ t', execCollectiveTimeout p group seq member t s = .next t' ∧ Carries s t' := by
  refine ⟨_, rfl, ?_⟩
  with_reducible repeat' first
    | exact Carries.refl _ | intro _ | assumption | apply carries_collTimeout | apply carries_atTime

theorem keeps_execNotReadyResend (p : PartId) (group : BitVec 16) (seq : BitVec 32) (member : Nat) (t : Time) (s : State) :
    ∃ t', execNotReadyResend p group seq member t s = .next t' ∧ Carries s t' := by
  refine ⟨_, rfl, ?_⟩
  with_reducible repeat' first
    | exact Carries.refl _ | intro _ | assumption | apply carries_notReadyResend | apply carries_atTime

theorem keeps_execCollectiveResend (p : PartId) (dst : BitVec 13) (msg : CollMsg) (t : Time) (s : State) :
    ∃ t', execCollectiveResend p dst msg t s = .next t' ∧ Carries s t' := by
  refine ⟨_, rfl, ?_⟩
  with_reducible repeat' first
    | exact Carries.refl _ | intro _ | assumption | apply carries_collResend | apply carries_atTime

theorem keeps_execPreemptSaveComplete (prog : Nat) (t : Time) (s : State) :
    ∃ t', execPreemptSaveComplete prog t s = .next t' ∧ Carries s t' := by
  refine ⟨_, rfl, ?_⟩
  with_reducible repeat' first
    | exact Carries.refl _ | intro _ | assumption | apply carries_collStops | apply carries_atTime
    | apply carries_saveComplete

theorem keeps_execFaultArbitration (hub : Fin 2) (n : Nat) (t : Time) (s : State) :
    ∃ t', execFaultArbitration hub n t s = .next t' ∧ Carries s t' := by
  refine ⟨_, rfl, ?_⟩
  with_reducible repeat' first
    | exact Carries.refl _ | intro _ | assumption | apply carries_collStops | apply carries_atTime
    | apply carries_faultArbitration

theorem keeps_execFlitReceive (link : LinkId) (flit : Flit) (wire : FlitBytes) (fec : Option Nat) (t : Time) (s : State) :
    ∃ t', execFlitReceive link flit wire fec t s = .next t' ∧ Carries s t' := by
  refine ⟨_, rfl, ?_⟩
  with_reducible repeat' first
    | exact Carries.refl _ | intro _ | assumption | apply carries_collPump | apply carries_flitReceive
    | apply carries_atTime

theorem keeps_execFenceCause (kind : Fin 11) (index : Nat) (cause : Status) (t : Time) (s : State) :
    ∃ t', execFenceCause kind index cause t s = .next t' ∧ Carries s t' := by
  refine ⟨_, rfl, ?_⟩
  with_reducible repeat' first
    | exact Carries.refl _ | intro _ | assumption | apply carries_causeArrives | apply carries_atTime

theorem keeps_execUncontainedError (kind : Fin 11) (index : Nat) (t : Time) (s : State) :
    ∃ t', execUncontainedError kind index t s = .next t' ∧ Carries s t' := by
  refine ⟨_, rfl, ?_⟩
  with_reducible repeat' first
    | exact Carries.refl _ | intro _ | assumption | apply carries_uncontained | apply carries_atTime

theorem keeps_execDrainEnd (kind : Fin 11) (index : Nat) (t : Time) (s : State) :
    ∃ t', execDrainEnd kind index t s = .next t' ∧ Carries s t' := by
  refine ⟨_, rfl, ?_⟩
  with_reducible repeat' first
    | exact Carries.refl _ | intro _ | assumption | apply carries_collPump | apply carries_drainEnd
    | apply carries_atTime

theorem keeps_execCensus (b : BenchId) (t : Time) (s : State) :
    ∃ t', execCensus b t s = .next t' ∧ Carries s t' := by
  refine ⟨_, rfl, ?_⟩
  with_reducible repeat' first
    | exact Carries.refl _ | intro _ | assumption | apply carries_onSys | apply carries_censusEntry
    | apply carries_atTime

theorem keeps_execCensusComplete (t : Time) (s : State) :
    ∃ t', execCensusComplete t s = .next t' ∧ Carries s t' := by
  refine ⟨_, rfl, ?_⟩
  with_reducible repeat' first
    | exact Carries.refl _ | intro _ | assumption | apply carries_censusComplete | apply carries_atTime

theorem keeps_execRecoveryEnd (kind : Fin 11) (index : Nat) (pass : Bool) (failed : List Nat) (t : Time) (s : State) :
    ∃ t', execRecoveryEnd kind index pass failed t s = .next t' ∧ Carries s t' := by
  refine ⟨_, rfl, ?_⟩
  with_reducible repeat' first
    | exact Carries.refl _ | intro _ | assumption | apply carries_recoveryEnd | apply carries_atTime

theorem keeps_execEvpost (b : BenchId) (t : Time) (s : State) :
    ∃ t', execEvpost b t s = .next t' ∧ Carries s t' := by
  refine ⟨_, rfl, ?_⟩
  with_reducible repeat' first
    | exact Carries.refl _ | intro _ | assumption | apply carries_onSys | apply carries_evpostEntry
    | apply carries_atTime

theorem keeps_execEventRaise (code : BitVec 16) (sev : Fin 5) (part : Option PartId) (unit : W32) (data : W64) (t : Time) (s : State) :
    ∃ t', execEventRaise code sev part unit data t s = .next t' ∧ Carries s t' := by
  refine ⟨_, rfl, ?_⟩
  with_reducible repeat' first
    | exact Carries.refl _ | intro _ | assumption | apply carries_raise | apply carries_atTime | dsimp only

theorem keeps_execTelemetryQueueLeave (t : Time) (s : State) :
    ∃ t', execTelemetryQueueLeave t s = .next t' ∧ Carries s t' := by
  refine ⟨_, rfl, ?_⟩
  with_reducible repeat' first
    | exact Carries.refl _ | intro _ | assumption | apply carries_queueLeave | apply carries_atTime

theorem keeps_execDieLinkTrain (m : Fin 328) (r0 r1 : DirTest) (t : Time) (s : State) :
    ∃ t', execDieLinkTrain m r0 r1 t s = .next t' ∧ Carries s t' := by
  refine ⟨_, rfl, ?_⟩
  with_reducible repeat' first
    | exact Carries.refl _ | intro _ | assumption | apply carries_dieLinkTrain | apply carries_atTime

theorem keeps_execNdlGroupReceive (m : Fin 328) (dir : Fin 2) (group : NdlGroup) (checkOk : Bool) (ack : Nat) (t : Time) (s : State) :
    ∃ t', execNdlGroupReceive m dir group checkOk ack t s = .next t' ∧ Carries s t' := by
  refine ⟨_, rfl, ?_⟩
  with_reducible repeat' first
    | exact Carries.refl _ | intro _ | assumption | apply carries_groupReceive | apply carries_atTime

theorem keeps_execNdlRetrain (m : Fin 328) (dir : Fin 2) (r0 r1 : DirTest) (inTime : Bool) (t : Time) (s : State) :
    ∃ t', execNdlRetrain m dir r0 r1 inTime t s = .next t' ∧ Carries s t' := by
  refine ⟨_, rfl, ?_⟩
  with_reducible repeat' first
    | exact Carries.refl _ | intro _ | assumption | apply carries_ndlRetrain | apply carries_atTime

theorem keeps_execNdlAutoRecover (m : Fin 328) (t : Time) (s : State) :
    ∃ t', execNdlAutoRecover m t s = .next t' ∧ Carries s t' := by
  refine ⟨_, rfl, ?_⟩
  with_reducible repeat' first
    | exact Carries.refl _ | intro _ | assumption | apply carries_autoRecover | apply carries_atTime

theorem keeps_execUcieDiscovery (id : Option W64) (rate : List Nat) (narrow : List Bool) (t : Time) (s : State) :
    ∃ t', execUcieDiscovery id rate narrow t s = .next t' ∧ Carries s t' := by
  refine ⟨_, rfl, ?_⟩
  with_reducible repeat' first
    | exact Carries.refl _ | intro _ | assumption | apply carries_ucieDiscovery | apply carries_atTime

theorem keeps_execUcieAccess (a : DieAccess) (t : Time) (s : State) :
    ∃ t', execUcieAccess a t s = .next t' ∧ Carries s t' := by
  refine ⟨_, rfl, ?_⟩
  with_reducible repeat' first
    | exact Carries.refl _ | intro _ | assumption | apply carries_ucieAccess | apply carries_atTime

theorem keeps_execUcieModuleDown (m : Fin 4) (t : Time) (s : State) :
    ∃ t', execUcieModuleDown m t s = .next t' ∧ Carries s t' := by
  refine ⟨_, rfl, ?_⟩
  with_reducible repeat' first
    | exact Carries.refl _ | intro _ | assumption | apply carries_ucieModuleDown | apply carries_atTime

theorem keeps_execDbgLoopComplete (first errs : Nat) (t : Time) (s : State) :
    ∃ t', execDbgLoopComplete first errs t s = .next t' ∧ Carries s t' := by
  refine ⟨_, rfl, ?_⟩
  with_reducible repeat' first
    | exact Carries.refl _ | intro _ | assumption | apply carries_loopComplete | apply carries_atTime

theorem keeps_execDbgP1500Complete (pass : Bool) (t : Time) (s : State) :
    ∃ t', execDbgP1500Complete pass t s = .next t' ∧ Carries s t' := by
  refine ⟨_, rfl, ?_⟩
  with_reducible repeat' first
    | exact Carries.refl _ | intro _ | assumption | apply carries_p1500Complete | apply carries_atTime

theorem keeps_execRegisterWrite (path : Path) (addr value : W32) (t : Time) (s : State) :
    ∃ t', execRegisterWrite path addr value t s = .next t' ∧ Carries s t' := by
  refine ⟨_, rfl, ?_⟩
  with_reducible repeat' first
    | exact Carries.refl _ | intro _ | assumption | apply carries_pathWrite | apply carries_atTime

theorem keeps_execNumCtlWrite (path : Path) (p : PartId) (value : W32) (t : Time) (s : State) :
    ∃ t', execNumCtlWrite path p value t s = .next t' ∧ Carries s t' := by
  refine ⟨_, rfl, ?_⟩
  with_reducible repeat' first
    | exact Carries.refl _ | intro _ | assumption | apply carries_regCommand | apply carries_atTime

theorem keeps_execNumAsybaseWrite (path : Path) (p : PartId) (hi : Bool) (value : W32) (t : Time) (s : State) :
    ∃ t', execNumAsybaseWrite path p hi value t s = .next t' ∧ Carries s t' := by
  refine ⟨_, rfl, ?_⟩
  with_reducible repeat' first
    | exact Carries.refl _ | intro _ | assumption | apply carries_cond | apply carries_regCommand
    | apply carries_atTime

theorem keeps_execAlcQuotaWrite (path : Path) (p : PartId) (tier2 : Bool) (value : W32) (t : Time) (s : State) :
    ∃ t', execAlcQuotaWrite path p tier2 value t s = .next t' ∧ Carries s t' := by
  refine ⟨_, rfl, ?_⟩
  with_reducible repeat' first
    | exact Carries.refl _ | intro _ | assumption | apply carries_cond | apply carries_regCommand
    | apply carries_atTime

theorem keeps_execSchBenchWrite (path : Path) (p : PartId) (value : W32) (t : Time) (s : State) :
    ∃ t', execSchBenchWrite path p value t s = .next t' ∧ Carries s t' := by
  refine ⟨_, rfl, ?_⟩
  with_reducible repeat' first
    | exact Carries.refl _ | intro _ | assumption | apply carries_regCommand | apply carries_atTime

theorem keeps_execSchCtlWrite (path : Path) (p : PartId) (value : W32) (t : Time) (s : State) :
    ∃ t', execSchCtlWrite path p value t s = .next t' ∧ Carries s t' := by
  refine ⟨_, rfl, ?_⟩
  with_reducible repeat' first
    | exact Carries.refl _ | intro _ | assumption | apply carries_regCommand | apply carries_atTime

theorem keeps_execSchSaveqWrite (path : Path) (p : PartId) (value : W32) (t : Time) (s : State) :
    ∃ t', execSchSaveqWrite path p value t s = .next t' ∧ Carries s t' := by
  refine ⟨_, rfl, ?_⟩
  with_reducible repeat' first
    | exact Carries.refl _ | intro _ | assumption | apply carries_regCommand | apply carries_atTime

theorem keeps_execAlcBwWrite (path : Path) (p : PartId) (value : W32) (t : Time) (s : State) :
    ∃ t', execAlcBwWrite path p value t s = .next t' ∧ Carries s t' := by
  refine ⟨_, rfl, ?_⟩
  with_reducible repeat' first
    | exact Carries.refl _ | intro _ | assumption | apply carries_regCommand | apply carries_atTime

theorem keeps_execOptCalnow (path : Path) (e : EngineId) (value : W32) (t : Time) (s : State) :
    ∃ t', execOptCalnow path e value t s = .next t' ∧ Carries s t' := by
  refine ⟨_, rfl, ?_⟩
  with_reducible repeat' first
    | exact Carries.refl _ | intro _ | assumption | apply carries_regCommand | apply carries_atTime

theorem keeps_execOptPark (path : Path) (e : EngineId) (value : W32) (t : Time) (s : State) :
    ∃ t', execOptPark path e value t s = .next t' ∧ Carries s t' := by
  refine ⟨_, rfl, ?_⟩
  with_reducible repeat' first
    | exact Carries.refl _ | intro _ | assumption | apply carries_regCommand | apply carries_atTime

theorem keeps_execOptSwapReq (path : Path) (e : EngineId) (value : W32) (t : Time) (s : State) :
    ∃ t', execOptSwapReq path e value t s = .next t' ∧ Carries s t' := by
  refine ⟨_, rfl, ?_⟩
  with_reducible repeat' first
    | exact Carries.refl _ | intro _ | assumption | apply carries_regCommand | apply carries_atTime

theorem keeps_execOptSwapUnfence (path : Path) (e : EngineId) (value : W32) (t : Time) (s : State) :
    ∃ t', execOptSwapUnfence path e value t s = .next t' ∧ Carries s t' := by
  refine ⟨_, rfl, ?_⟩
  with_reducible repeat' first
    | exact Carries.refl _ | intro _ | assumption | apply carries_regCommand | apply carries_atTime

theorem keeps_execFabSwap (path : Path) (value : W32) (t : Time) (s : State) :
    ∃ t', execFabSwap path value t s = .next t' ∧ Carries s t' := by
  refine ⟨_, rfl, ?_⟩
  with_reducible repeat' first
    | exact Carries.refl _ | intro _ | assumption | apply carries_regCommand | apply carries_atTime

theorem keeps_execFabForce (path : Path) (value : W32) (t : Time) (s : State) :
    ∃ t', execFabForce path value t s = .next t' ∧ Carries s t' := by
  refine ⟨_, rfl, ?_⟩
  with_reducible repeat' first
    | exact Carries.refl _ | intro _ | assumption | apply carries_regCommand | apply carries_atTime

theorem keeps_execFabPsliceWrite (path : Path) (p : PartId) (value : W32) (t : Time) (s : State) :
    ∃ t', execFabPsliceWrite path p value t s = .next t' ∧ Carries s t' := by
  refine ⟨_, rfl, ?_⟩
  with_reducible repeat' first
    | exact Carries.refl _ | intro _ | assumption | apply carries_regCommand | apply carries_atTime

theorem keeps_execRankTableWrite (path : Path) (p : PartId) (r : Fin 16384) (hi : Bool) (value : W32) (t : Time) (s : State) :
    ∃ t', execRankTableWrite path p r hi value t s = .next t' ∧ Carries s t' := by
  refine ⟨_, rfl, ?_⟩
  with_reducible repeat' first
    | exact Carries.refl _ | intro _ | assumption | apply carries_cond | apply carries_regCommand
    | apply carries_atTime

theorem keeps_execRmaPurge (path : Path) (value : W32) (t : Time) (s : State) :
    ∃ t', execRmaPurge path value t s = .next t' ∧ Carries s t' := by
  refine ⟨_, rfl, ?_⟩
  with_reducible repeat' first
    | exact Carries.refl _ | intro _ | assumption | apply carries_regCommand | apply carries_rmaPurge
    | apply carries_atTime

theorem keeps_execFwpRestart (path : Path) (value : W32) (t : Time) (s : State) :
    ∃ t', execFwpRestart path value t s = .next t' ∧ Carries s t' := by
  refine ⟨_, rfl, ?_⟩
  with_reducible repeat' first
    | exact Carries.refl _ | intro _ | assumption | apply carries_regCommand | apply carries_atTime

theorem keeps_execFwpUnfence (path : Path) (value : W32) (t : Time) (s : State) :
    ∃ t', execFwpUnfence path value t s = .next t' ∧ Carries s t' := by
  refine ⟨_, rfl, ?_⟩
  with_reducible repeat' first
    | exact Carries.refl _ | intro _ | assumption | apply carries_regCommand | apply carries_atTime

theorem keeps_execUpdStage (path : Path) (value : W32) (mctp : Option (List Byte)) (t : Time) (s : State) :
    ∃ t', execUpdStage path value mctp t s = .next t' ∧ Carries s t' := by
  refine ⟨_, rfl, ?_⟩
  with_reducible repeat' first
    | exact Carries.refl _ | intro _ | assumption | apply carries_cond | apply carries_updCtlWritten
    | apply carries_atTime | apply carries_pathWrite

theorem keeps_execUpdActivateLive (path : Path) (value : W32) (t : Time) (s : State) :
    ∃ t', execUpdActivateLive path value t s = .next t' ∧ Carries s t' := by
  refine ⟨_, rfl, ?_⟩
  with_reducible repeat' first
    | exact Carries.refl _ | intro _ | assumption | apply carries_regCommand | apply carries_atTime

theorem keeps_execUpdActivateReset (path : Path) (value : W32) (t : Time) (s : State) :
    ∃ t', execUpdActivateReset path value t s = .next t' ∧ Carries s t' := by
  refine ⟨_, rfl, ?_⟩
  with_reducible repeat' first
    | exact Carries.refl _ | intro _ | assumption | apply carries_regCommand | apply carries_atTime

theorem keeps_execUpdCommit (path : Path) (value : W32) (t : Time) (s : State) :
    ∃ t', execUpdCommit path value t s = .next t' ∧ Carries s t' := by
  refine ⟨_, rfl, ?_⟩
  with_reducible repeat' first
    | exact Carries.refl _ | intro _ | assumption | apply carries_regCommand | apply carries_atTime

theorem keeps_execUpdAbort (path : Path) (value : W32) (t : Time) (s : State) :
    ∃ t', execUpdAbort path value t s = .next t' ∧ Carries s t' := by
  refine ⟨_, rfl, ?_⟩
  with_reducible repeat' first
    | exact Carries.refl _ | intro _ | assumption | apply carries_regCommand | apply carries_atTime

theorem keeps_execAttExtend (path : Path) (value : W32) (t : Time) (s : State) :
    ∃ t', execAttExtend path value t s = .next t' ∧ Carries s t' := by
  refine ⟨_, rfl, ?_⟩
  with_reducible repeat' first
    | exact Carries.refl _ | intro _ | assumption | apply carries_regCommand | apply carries_atTime

theorem keeps_execAttOwnerEnrol (path : Path) (value : W32) (t : Time) (s : State) :
    ∃ t', execAttOwnerEnrol path value t s = .next t' ∧ Carries s t' := by
  refine ⟨_, rfl, ?_⟩
  with_reducible repeat' first
    | exact Carries.refl _ | intro _ | assumption | apply carries_regCommand | apply carries_atTime

theorem keeps_execAttOwnerRevoke (path : Path) (value : W32) (t : Time) (s : State) :
    ∃ t', execAttOwnerRevoke path value t s = .next t' ∧ Carries s t' := by
  refine ⟨_, rfl, ?_⟩
  with_reducible repeat' first
    | exact Carries.refl _ | intro _ | assumption | apply carries_regCommand | apply carries_atTime

theorem keeps_execAgeNow (path : Path) (value : W32) (t : Time) (s : State) :
    ∃ t', execAgeNow path value t s = .next t' ∧ Carries s t' := by
  refine ⟨_, rfl, ?_⟩
  with_reducible repeat' first
    | exact Carries.refl _ | intro _ | assumption | apply carries_regCommand | apply carries_atTime

theorem keeps_execCalStore (path : Path) (value : W32) (t : Time) (s : State) :
    ∃ t', execCalStore path value t s = .next t' ∧ Carries s t' := by
  refine ⟨_, rfl, ?_⟩
  with_reducible repeat' first
    | exact Carries.refl _ | intro _ | assumption | apply carries_regCommand | apply carries_atTime

theorem keeps_execCalApply (path : Path) (value : W32) (t : Time) (s : State) :
    ∃ t', execCalApply path value t s = .next t' ∧ Carries s t' := by
  refine ⟨_, rfl, ?_⟩
  with_reducible repeat' first
    | exact Carries.refl _ | intro _ | assumption | apply carries_regCommand | apply carries_atTime

theorem keeps_execCalClear (path : Path) (value : W32) (t : Time) (s : State) :
    ∃ t', execCalClear path value t s = .next t' ∧ Carries s t' := by
  refine ⟨_, rfl, ?_⟩
  with_reducible repeat' first
    | exact Carries.refl _ | intro _ | assumption | apply carries_regCommand | apply carries_atTime

theorem keeps_execErrFence (path : Path) (value : W32) (t : Time) (s : State) :
    ∃ t', execErrFence path value t s = .next t' ∧ Carries s t' := by
  refine ⟨_, rfl, ?_⟩
  with_reducible repeat' first
    | exact Carries.refl _ | intro _ | assumption | apply carries_regCommand | apply carries_atTime

theorem keeps_execErrUnfence (path : Path) (value : W32) (t : Time) (s : State) :
    ∃ t', execErrUnfence path value t s = .next t' ∧ Carries s t' := by
  refine ⟨_, rfl, ?_⟩
  with_reducible repeat' first
    | exact Carries.refl _ | intro _ | assumption | apply carries_regCommand | apply carries_atTime

theorem keeps_execErrCensusGo (path : Path) (value : W32) (t : Time) (s : State) :
    ∃ t', execErrCensusGo path value t s = .next t' ∧ Carries s t' := by
  refine ⟨_, rfl, ?_⟩
  with_reducible repeat' first
    | exact Carries.refl _ | intro _ | assumption | apply carries_regCommand | apply carries_atTime

theorem keeps_execDbgLoop (path : Path) (value : W32) (t : Time) (s : State) :
    ∃ t', execDbgLoop path value t s = .next t' ∧ Carries s t' := by
  refine ⟨_, rfl, ?_⟩
  with_reducible repeat' first
    | exact Carries.refl _ | intro _ | assumption | apply carries_regCommand | apply carries_atTime

theorem keeps_execDbgP1500 (path : Path) (value : W32) (t : Time) (s : State) :
    ∃ t', execDbgP1500 path value t s = .next t' ∧ Carries s t' := by
  refine ⟨_, rfl, ?_⟩
  with_reducible repeat' first
    | exact Carries.refl _ | intro _ | assumption | apply carries_regCommand | apply carries_atTime

theorem keeps_execMessageReceive (qp : Nat) (m : Message) (t : Time) (s : State) :
    ∃ t', execMessageReceive qp m t s = .next t' ∧ Carries s t' := by
  refine ⟨_, rfl, ?_⟩
  with_reducible repeat' first
    | exact Carries.refl _ | intro _ | assumption | apply carries_cond | apply carries_messageReceive
    | apply carries_atTime

theorem keeps_execOpen (qp part : Nat) (key : W32) (t : Time) (s : State) :
    ∃ t', execOpen qp part key t s = .next t' ∧ Carries s t' := by
  refine ⟨_, rfl, ?_⟩
  with_reducible repeat' first
    | exact Carries.refl _ | intro _ | assumption | apply carries_serve | apply carries_openMail
    | apply carries_atTime | dsimp only

theorem keeps_execAttach (qp sess : Nat) (token key : W32) (t : Time) (s : State) :
    ∃ t', execAttach qp sess token key t s = .next t' ∧ Carries s t' := by
  refine ⟨_, rfl, ?_⟩
  with_reducible repeat' first
    | exact Carries.refl _ | intro _ | assumption | apply carries_serve | apply carries_attachMail
    | apply carries_atTime | dsimp only

theorem keeps_execClose (qp : Nat) (force : Bool) (t : Time) (s : State) :
    ∃ t', execClose qp force t s = .next t' ∧ Carries s t' := by
  refine ⟨_, rfl, ?_⟩
  with_reducible repeat' first
    | exact Carries.refl _ | intro _ | assumption | apply carries_serve | apply carries_closeMail
    | apply carries_atTime | dsimp only

theorem keeps_execHeartbeat (qp : Nat) (t : Time) (s : State) :
    ∃ t', execHeartbeat qp t s = .next t' ∧ Carries s t' := by
  refine ⟨_, rfl, ?_⟩
  with_reducible repeat' first
    | exact Carries.refl _ | intro _ | assumption | apply carries_serve | apply carries_heartbeatMail
    | apply carries_atTime

theorem keeps_execRegread (qp : Nat) (addrs : List W32) (t : Time) (s : State) :
    ∃ t', execRegread qp addrs t s = .next t' ∧ Carries s t' := by
  refine ⟨_, rfl, ?_⟩
  with_reducible repeat' first
    | exact Carries.refl _ | intro _ | assumption | apply carries_serve | apply carries_regreadMail
    | apply carries_atTime

theorem keeps_execRegwrite (qp : Nat) (writes : List (W32 × W32)) (t : Time) (s : State) :
    ∃ t', execRegwrite qp writes t s = .next t' ∧ Carries s t' := by
  refine ⟨_, rfl, ?_⟩
  with_reducible repeat' first
    | exact Carries.refl _ | intro _ | assumption | apply carries_serve | apply carries_regwriteMail
    | apply carries_atTime

theorem keeps_execEvsub (qp severity : Nat) (t : Time) (s : State) :
    ∃ t', execEvsub qp severity t s = .next t' ∧ Carries s t' := by
  refine ⟨_, rfl, ?_⟩
  with_reducible repeat' first
    | exact Carries.refl _ | intro _ | assumption | apply carries_serve | apply carries_evsubMail
    | apply carries_atTime

theorem keeps_execMrreg (qp base len : Nat) (access : BitVec 2) (t : Time) (s : State) :
    ∃ t', execMrreg qp base len access t s = .next t' ∧ Carries s t' := by
  refine ⟨_, rfl, ?_⟩
  with_reducible repeat' first
    | exact Carries.refl _ | intro _ | assumption | apply carries_serve | apply carries_mrregMail
    | apply carries_atTime

theorem keeps_execMrdereg (qp : Nat) (rkey : W32) (t : Time) (s : State) :
    ∃ t', execMrdereg qp rkey t s = .next t' ∧ Carries s t' := by
  refine ⟨_, rfl, ?_⟩
  with_reducible repeat' first
    | exact Carries.refl _ | intro _ | assumption | apply carries_serve | apply carries_mrderegMail
    | apply carries_atTime

theorem keeps_execIntakeAdd (qp base entries cap : Nat) (notify : Bool) (t : Time) (s : State) :
    ∃ t', execIntakeAdd qp base entries cap notify t s = .next t' ∧ Carries s t' := by
  refine ⟨_, rfl, ?_⟩
  with_reducible repeat' first
    | exact Carries.refl _ | intro _ | assumption | apply carries_serve | apply carries_intakeAddMail
    | apply carries_atTime

theorem keeps_execIntakeDel (qp list : Nat) (t : Time) (s : State) :
    ∃ t', execIntakeDel qp list t s = .next t' ∧ Carries s t' := by
  refine ⟨_, rfl, ?_⟩
  with_reducible repeat' first
    | exact Carries.refl _ | intro _ | assumption | apply carries_serve | apply carries_intakeDelMail
    | apply carries_atTime

theorem keeps_execCancel (qp list record : Nat) (force : Bool) (t : Time) (s : State) :
    ∃ t', execCancel qp list record force t s = .next t' ∧ Carries s t' := by
  refine ⟨_, rfl, ?_⟩
  with_reducible repeat' first
    | exact Carries.refl _ | intro _ | assumption | apply carries_serve | apply carries_cancelMail
    | apply carries_atTime

theorem keeps_execConnectionRequest (port : Fin 4) (ask : ConnAsk) (t : Time) (s : State) :
    ∃ t', execConnectionRequest port ask t s = .next t' ∧ Carries s t' := by
  refine ⟨_, rfl, ?_⟩
  with_reducible repeat' first
    | exact Carries.refl _ | intro _ | assumption | apply carries_connectionRequest | apply carries_atTime

theorem keeps_execGwconn (qp : Nat) (rdom : BitVec 16) (addr port : Nat) (t : Time) (s : State) :
    ∃ t', execGwconn qp rdom addr port t s = .next t' ∧ Carries s t' := by
  refine ⟨_, rfl, ?_⟩
  with_reducible repeat' first
    | exact Carries.refl _ | intro _ | assumption | apply carries_serve | apply carries_gwconnMail
    | apply carries_atTime | dsimp only

theorem keeps_execCnpReceive (qp : Nat) (t : Time) (s : State) :
    ∃ t', execCnpReceive qp t s = .next t' ∧ Carries s t' := by
  refine ⟨_, rfl, ?_⟩
  with_reducible repeat' first
    | exact Carries.refl _ | intro _ | assumption | apply carries_cnpReceive | apply carries_atTime

theorem keeps_execCeMarkReceive (qp : Nat) (t : Time) (s : State) :
    ∃ t', execCeMarkReceive qp t s = .next t' ∧ Carries s t' := by
  refine ⟨_, rfl, ?_⟩
  with_reducible repeat' first
    | exact Carries.refl _ | intro _ | assumption | apply carries_ceMark | apply carries_atTime

theorem keeps_execCnpRateRecover (qp : Nat) (t : Time) (s : State) :
    ∃ t', execCnpRateRecover qp t s = .next t' ∧ Carries s t' := by
  refine ⟨_, rfl, ?_⟩
  with_reducible repeat' first
    | exact Carries.refl _ | intro _ | assumption | apply carries_rateRecover | apply carries_atTime

theorem keeps_execHostFrameReceive (port : Fin 4) (fr : HostFrame) (t : Time) (s : State) :
    ∃ t', execHostFrameReceive port fr t s = .next t' ∧ Carries s t' := by
  refine ⟨_, rfl, ?_⟩
  with_reducible repeat' first
    | exact Carries.refl _ | intro _ | assumption | apply carries_hostFrame | apply carries_atTime

theorem keeps_execRdmaDataAccess (qp : Nat) (rkey : W32) (va : Nat) (write : Option (List Byte)) (len : Nat) (t : Time) (s : State) :
    ∃ t', execRdmaDataAccess qp rkey va write len t s = .next t' ∧ Carries s t' := by
  refine ⟨_, rfl, ?_⟩
  with_reducible repeat' first
    | exact Carries.refl _ | intro _ | assumption | apply carries_cond | apply carries_rdmaAccess
    | apply carries_atTime

theorem keeps_execStatusWindowRead (qp : Nat) (rkey : W32) (addr len : Nat) (t : Time) (s : State) :
    ∃ t', execStatusWindowRead qp rkey addr len t s = .next t' ∧ Carries s t' := by
  refine ⟨_, rfl, ?_⟩
  with_reducible repeat' first
    | exact Carries.refl _ | intro _ | assumption | apply carries_cond | apply carries_windowRead
    | apply carries_atTime

theorem keeps_execLeaseCheck (t : Time) (s : State) :
    ∃ t', execLeaseCheck t s = .next t' ∧ Carries s t' := by
  refine ⟨_, rfl, ?_⟩
  with_reducible repeat' first
    | exact Carries.refl _ | intro _ | assumption | apply carries_leaseCheck | apply carries_atTime

theorem keeps_execOrphrunExpire (sess : Fin 32) (t : Time) (s : State) :
    ∃ t', execOrphrunExpire sess t s = .next t' ∧ Carries s t' := by
  refine ⟨_, rfl, ?_⟩
  with_reducible repeat' first
    | exact Carries.refl _ | intro _ | assumption | apply carries_collStops | apply carries_atTime
    | apply carries_orphrunExpire

theorem keeps_execHoldExpire (sess : Fin 32) (t : Time) (s : State) :
    ∃ t', execHoldExpire sess t s = .next t' ∧ Carries s t' := by
  refine ⟨_, rfl, ?_⟩
  with_reducible repeat' first
    | exact Carries.refl _ | intro _ | assumption | apply carries_collStops | apply carries_atTime
    | apply carries_holdExpire

theorem keeps_execSessionFreed (sess : Fin 32) (t : Time) (s : State) :
    ∃ t', execSessionFreed sess t s = .next t' ∧ Carries s t' := by
  refine ⟨_, rfl, ?_⟩
  with_reducible repeat' first
    | exact Carries.refl _ | intro _ | assumption | apply carries_sessionFreed | apply carries_atTime

theorem keeps_execTailNotice (sess : Fin 32) (list : Nat) (t : Time) (s : State) :
    ∃ t', execTailNotice sess list t s = .next t' ∧ Carries s t' := by
  refine ⟨_, rfl, ?_⟩
  with_reducible repeat' first
    | exact Carries.refl _ | intro _ | assumption | apply carries_tailNotice | apply carries_atTime

end Sys2Proof.Machine
end

