-- ==== Sys2Proof/Laws/State.lean ====
section
/-! SUPPORT. The fields of the state after each update of it, one lemma per field and update, and what is read back through the named
operations. -/

namespace Sys2Proof.Machine

/-! ## atTime -/

@[simp] theorem atTime_time (t : Time) (s : State) : (atTime t s).time = Nat.max s.time t := rfl
@[simp] theorem atTime_free (t : Time) (s : State) : (atTime t s).free = s.free := rfl
@[simp] theorem atTime_out (t : Time) (s : State) : (atTime t s).out = s.out := rfl
@[simp] theorem atTime_ctl (t : Time) (s : State) : (atTime t s).ctl = s.ctl := rfl
@[simp] theorem atTime_paths (t : Time) (s : State) : (atTime t s).paths = s.paths := rfl
@[simp] theorem atTime_benches (t : Time) (s : State) : (atTime t s).benches = s.benches := rfl
@[simp] theorem atTime_parts (t : Time) (s : State) : (atTime t s).parts = s.parts := rfl
@[simp] theorem atTime_frames (t : Time) (s : State) : (atTime t s).frames = s.frames := rfl
@[simp] theorem atTime_scrubQ (t : Time) (s : State) : (atTime t s).scrubQ = s.scrubQ := rfl
@[simp] theorem atTime_walks (t : Time) (s : State) : (atTime t s).walks = s.walks := rfl
@[simp] theorem atTime_progs (t : Time) (s : State) : (atTime t s).progs = s.progs := rfl
@[simp] theorem atTime_nextProg (t : Time) (s : State) : (atTime t s).nextProg = s.nextProg := rfl
@[simp] theorem atTime_reports (t : Time) (s : State) : (atTime t s).reports = s.reports := rfl
@[simp] theorem atTime_mem (t : Time) (s : State) : (atTime t s).mem = s.mem := rfl
@[simp] theorem atTime_poison (t : Time) (s : State) : (atTime t s).poison = s.poison := rfl
@[simp] theorem atTime_flaws (t : Time) (s : State) : (atTime t s).flaws = s.flaws := rfl
@[simp] theorem atTime_tables (t : Time) (s : State) : (atTime t s).tables = s.tables := rfl
@[simp] theorem atTime_reserveOut (t : Time) (s : State) : (atTime t s).reserveOut = s.reserveOut := rfl
@[simp] theorem atTime_pcErrs (t : Time) (s : State) : (atTime t s).pcErrs = s.pcErrs := rfl
@[simp] theorem atTime_rowErrs (t : Time) (s : State) : (atTime t s).rowErrs = s.rowErrs := rfl
@[simp] theorem atTime_sparesUsed (t : Time) (s : State) : (atTime t s).sparesUsed = s.sparesUsed := rfl
@[simp] theorem atTime_scrubbed (t : Time) (s : State) : (atTime t s).scrubbed = s.scrubbed := rfl
@[simp] theorem atTime_quotaErr (t : Time) (s : State) : (atTime t s).quotaErr = s.quotaErr := rfl
@[simp] theorem atTime_units (t : Time) (s : State) : (atTime t s).units = s.units := rfl
@[simp] theorem atTime_telQ (t : Time) (s : State) : (atTime t s).telQ = s.telQ := rfl
@[simp] theorem atTime_i3cQ (t : Time) (s : State) : (atTime t s).i3cQ = s.i3cQ := rfl
@[simp] theorem atTime_census (t : Time) (s : State) : (atTime t s).census = s.census := rfl
@[simp] theorem atTime_censuses (t : Time) (s : State) : (atTime t s).censuses = s.censuses := rfl
@[simp] theorem atTime_rops (t : Time) (s : State) : (atTime t s).rops = s.rops := rfl
@[simp] theorem atTime_nextRop (t : Time) (s : State) : (atTime t s).nextRop = s.nextRop := rfl
@[simp] theorem atTime_txns (t : Time) (s : State) : (atTime t s).txns = s.txns := rfl
@[simp] theorem atTime_sendQ (t : Time) (s : State) : (atTime t s).sendQ = s.sendQ := rfl
@[simp] theorem atTime_pairs (t : Time) (s : State) : (atTime t s).pairs = s.pairs := rfl
@[simp] theorem atTime_sources (t : Time) (s : State) : (atTime t s).sources = s.sources := rfl
@[simp] theorem atTime_accepted (t : Time) (s : State) : (atTime t s).accepted = s.accepted := rfl
@[simp] theorem atTime_owners (t : Time) (s : State) : (atTime t s).owners = s.owners := rfl
@[simp] theorem atTime_reqs (t : Time) (s : State) : (atTime t s).reqs = s.reqs := rfl
@[simp] theorem atTime_nextReq (t : Time) (s : State) : (atTime t s).nextReq = s.nextReq := rfl
@[simp] theorem atTime_engines (t : Time) (s : State) : (atTime t s).engines = s.engines := rfl
@[simp] theorem atTime_qps (t : Time) (s : State) : (atTime t s).qps = s.qps := rfl
@[simp] theorem atTime_nextQp (t : Time) (s : State) : (atTime t s).nextQp = s.nextQp := rfl
@[simp] theorem atTime_fabActive (t : Time) (s : State) : (atTime t s).fabActive = s.fabActive := rfl
@[simp] theorem atTime_fabOld (t : Time) (s : State) : (atTime t s).fabOld = s.fabOld := rfl
@[simp] theorem atTime_fabShadow (t : Time) (s : State) : (atTime t s).fabShadow = s.fabShadow := rfl
@[simp] theorem atTime_epoch (t : Time) (s : State) : (atTime t s).epoch = s.epoch := rfl
@[simp] theorem atTime_swapped (t : Time) (s : State) : (atTime t s).swapped = s.swapped := rfl
@[simp] theorem atTime_drainAt (t : Time) (s : State) : (atTime t s).drainAt = s.drainAt := rfl
@[simp] theorem atTime_drainWarned (t : Time) (s : State) : (atTime t s).drainWarned = s.drainWarned := rfl
@[simp] theorem atTime_sentMarks (t : Time) (s : State) : (atTime t s).sentMarks = s.sentMarks := rfl
@[simp] theorem atTime_links (t : Time) (s : State) : (atTime t s).links = s.links := rfl
@[simp] theorem atTime_ordPaths (t : Time) (s : State) : (atTime t s).ordPaths = s.ordPaths := rfl
@[simp] theorem atTime_arrived (t : Time) (s : State) : (atTime t s).arrived = s.arrived := rfl
@[simp] theorem atTime_stewardQ (t : Time) (s : State) : (atTime t s).stewardQ = s.stewardQ := rfl
@[simp] theorem atTime_helloFrom (t : Time) (s : State) : (atTime t s).helloFrom = s.helloFrom := rfl
@[simp] theorem atTime_fabMap (t : Time) (s : State) : (atTime t s).fabMap = s.fabMap := rfl
@[simp] theorem atTime_discovered (t : Time) (s : State) : (atTime t s).discovered = s.discovered := rfl
@[simp] theorem atTime_fabReady (t : Time) (s : State) : (atTime t s).fabReady = s.fabReady := rfl
@[simp] theorem atTime_wxAt (t : Time) (s : State) : (atTime t s).wxAt = s.wxAt := rfl
@[simp] theorem atTime_wxPeriod (t : Time) (s : State) : (atTime t s).wxPeriod = s.wxPeriod := rfl
@[simp] theorem atTime_wxDrops (t : Time) (s : State) : (atTime t s).wxDrops = s.wxDrops := rfl
@[simp] theorem atTime_wxReplays (t : Time) (s : State) : (atTime t s).wxReplays = s.wxReplays := rfl
@[simp] theorem atTime_drops (t : Time) (s : State) : (atTime t s).drops = s.drops := rfl
@[simp] theorem atTime_notices (t : Time) (s : State) : (atTime t s).notices = s.notices := rfl
@[simp] theorem atTime_colls (t : Time) (s : State) : (atTime t s).colls = s.colls := rfl
@[simp] theorem atTime_nextColl (t : Time) (s : State) : (atTime t s).nextColl = s.nextColl := rfl
@[simp] theorem atTime_groups (t : Time) (s : State) : (atTime t s).groups = s.groups := rfl
@[simp] theorem atTime_mailboxes (t : Time) (s : State) : (atTime t s).mailboxes = s.mailboxes := rfl
@[simp] theorem atTime_sessions (t : Time) (s : State) : (atTime t s).sessions = s.sessions := rfl
@[simp] theorem atTime_adminEvsub (t : Time) (s : State) : (atTime t s).adminEvsub = s.adminEvsub := rfl
@[simp] theorem atTime_flash (t : Time) (s : State) : (atTime t s).flash = s.flash := rfl
@[simp] theorem atTime_otp (t : Time) (s : State) : (atTime t s).otp = s.otp := rfl
@[simp] theorem atTime_mrs (t : Time) (s : State) : (atTime t s).mrs = s.mrs := rfl
@[simp] theorem atTime_bootAt (t : Time) (s : State) : (atTime t s).bootAt = s.bootAt := rfl
@[simp] theorem atTime_bootB (t : Time) (s : State) : (atTime t s).bootB = s.bootB := rfl
@[simp] theorem atTime_verified (t : Time) (s : State) : (atTime t s).verified = s.verified := rfl
@[simp] theorem atTime_recovery (t : Time) (s : State) : (atTime t s).recovery = s.recovery := rfl
@[simp] theorem atTime_keysReady (t : Time) (s : State) : (atTime t s).keysReady = s.keysReady := rfl
@[simp] theorem atTime_images (t : Time) (s : State) : (atTime t s).images = s.images := rfl
@[simp] theorem atTime_bootCfg (t : Time) (s : State) : (atTime t s).bootCfg = s.bootCfg := rfl
@[simp] theorem atTime_cfgDigest (t : Time) (s : State) : (atTime t s).cfgDigest = s.cfgDigest := rfl
@[simp] theorem atTime_mapDigest (t : Time) (s : State) : (atTime t s).mapDigest = s.mapDigest := rfl
@[simp] theorem atTime_restarts (t : Time) (s : State) : (atTime t s).restarts = s.restarts := rfl
@[simp] theorem atTime_duties (t : Time) (s : State) : (atTime t s).duties = s.duties := rfl
@[simp] theorem atTime_stewardGone (t : Time) (s : State) : (atTime t s).stewardGone = s.stewardGone := rfl
@[simp] theorem atTime_update (t : Time) (s : State) : (atTime t s).update = s.update := rfl
@[simp] theorem atTime_deferred (t : Time) (s : State) : (atTime t s).deferred = s.deferred := rfl
@[simp] theorem atTime_signQ (t : Time) (s : State) : (atTime t s).signQ = s.signQ := rfl
@[simp] theorem atTime_conns (t : Time) (s : State) : (atTime t s).conns = s.conns := rfl
@[simp] theorem atTime_nextConn (t : Time) (s : State) : (atTime t s).nextConn = s.nextConn := rfl
@[simp] theorem atTime_owned (t : Time) (s : State) : (atTime t s).owned = s.owned := rfl
@[simp] theorem atTime_noRestart (t : Time) (s : State) : (atTime t s).noRestart = s.noRestart := rfl
@[simp] theorem atTime_sectors (t : Time) (s : State) : (atTime t s).sectors = s.sectors := rfl
@[simp] theorem atTime_pkg (t : Time) (s : State) : (atTime t s).pkg = s.pkg := rfl
@[simp] theorem atTime_pkgOver (t : Time) (s : State) : (atTime t s).pkgOver = s.pkgOver := rfl
@[simp] theorem atTime_feedOver (t : Time) (s : State) : (atTime t s).feedOver = s.feedOver := rfl
@[simp] theorem atTime_rails (t : Time) (s : State) : (atTime t s).rails = s.rails := rfl
@[simp] theorem atTime_convs (t : Time) (s : State) : (atTime t s).convs = s.convs := rfl
@[simp] theorem atTime_cutAt (t : Time) (s : State) : (atTime t s).cutAt = s.cutAt := rfl
@[simp] theorem atTime_emergAt (t : Time) (s : State) : (atTime t s).emergAt = s.emergAt := rfl
@[simp] theorem atTime_shadow (t : Time) (s : State) : (atTime t s).shadow = s.shadow := rfl
@[simp] theorem atTime_planAt (t : Time) (s : State) : (atTime t s).planAt = s.planAt := rfl
@[simp] theorem atTime_planNow (t : Time) (s : State) : (atTime t s).planNow = s.planNow := rfl
@[simp] theorem atTime_clocksOn (t : Time) (s : State) : (atTime t s).clocksOn = s.clocksOn := rfl
@[simp] theorem atTime_planFeed (t : Time) (s : State) : (atTime t s).planFeed = s.planFeed := rfl
@[simp] theorem atTime_minRefresh (t : Time) (s : State) : (atTime t s).minRefresh = s.minRefresh := rfl
@[simp] theorem atTime_planRefresh (t : Time) (s : State) : (atTime t s).planRefresh = s.planRefresh := rfl
@[simp] theorem atTime_refBand (t : Time) (s : State) : (atTime t s).refBand = s.refBand := rfl
@[simp] theorem atTime_overlay (t : Time) (s : State) : (atTime t s).overlay = s.overlay := rfl
@[simp] theorem atTime_calBusy (t : Time) (s : State) : (atTime t s).calBusy = s.calBusy := rfl
@[simp] theorem atTime_ndl (t : Time) (s : State) : (atTime t s).ndl = s.ndl := rfl
@[simp] theorem atTime_uciTlb (t : Time) (s : State) : (atTime t s).uciTlb = s.uciTlb := rfl
@[simp] theorem atTime_uciOff (t : Time) (s : State) : (atTime t s).uciOff = s.uciOff := rfl
@[simp] theorem atTime_uciDown (t : Time) (s : State) : (atTime t s).uciDown = s.uciDown := rfl
@[simp] theorem atTime_loopAt (t : Time) (s : State) : (atTime t s).loopAt = s.loopAt := rfl
@[simp] theorem atTime_inReset (t : Time) (s : State) : (atTime t s).inReset = s.inReset := rfl
@[simp] theorem atTime_resetAt (t : Time) (s : State) : (atTime t s).resetAt = s.resetAt := rfl
@[simp] theorem atTime_refLost (t : Time) (s : State) : (atTime t s).refLost = s.refLost := rfl
@[simp] theorem atTime_tripped (t : Time) (s : State) : (atTime t s).tripped = s.tripped := rfl
@[simp] theorem atTime_pllLock (t : Time) (s : State) : (atTime t s).pllLock = s.pllLock := rfl
@[simp] theorem atTime_regsUp (t : Time) (s : State) : (atTime t s).regsUp = s.regsUp := rfl
@[simp] theorem atTime_idsRead (t : Time) (s : State) : (atTime t s).idsRead = s.idsRead := rfl
@[simp] theorem atTime_hostsUp (t : Time) (s : State) : (atTime t s).hostsUp = s.hostsUp := rfl
@[simp] theorem atTime_absent (t : Time) (s : State) : (atTime t s).absent = s.absent := rfl
@[simp] theorem atTime_rstLow (t : Time) (s : State) : (atTime t s).rstLow = s.rstLow := rfl
@[simp] theorem atTime_pending (t : Time) (s : State) : (atTime t s).pending = s.pending := rfl

/-! ## emit -/

@[simp] theorem emit_time (o : Output) (s : State) : (emit o s).time = s.time := rfl
@[simp] theorem emit_free (o : Output) (s : State) : (emit o s).free = s.free := rfl
@[simp] theorem emit_out (o : Output) (s : State) : (emit o s).out = s.out ++ [o] := rfl
@[simp] theorem emit_ctl (o : Output) (s : State) : (emit o s).ctl = s.ctl := rfl
@[simp] theorem emit_paths (o : Output) (s : State) : (emit o s).paths = s.paths := rfl
@[simp] theorem emit_benches (o : Output) (s : State) : (emit o s).benches = s.benches := rfl
@[simp] theorem emit_parts (o : Output) (s : State) : (emit o s).parts = s.parts := rfl
@[simp] theorem emit_frames (o : Output) (s : State) : (emit o s).frames = s.frames := rfl
@[simp] theorem emit_scrubQ (o : Output) (s : State) : (emit o s).scrubQ = s.scrubQ := rfl
@[simp] theorem emit_walks (o : Output) (s : State) : (emit o s).walks = s.walks := rfl
@[simp] theorem emit_progs (o : Output) (s : State) : (emit o s).progs = s.progs := rfl
@[simp] theorem emit_nextProg (o : Output) (s : State) : (emit o s).nextProg = s.nextProg := rfl
@[simp] theorem emit_reports (o : Output) (s : State) : (emit o s).reports = s.reports := rfl
@[simp] theorem emit_mem (o : Output) (s : State) : (emit o s).mem = s.mem := rfl
@[simp] theorem emit_poison (o : Output) (s : State) : (emit o s).poison = s.poison := rfl
@[simp] theorem emit_flaws (o : Output) (s : State) : (emit o s).flaws = s.flaws := rfl
@[simp] theorem emit_tables (o : Output) (s : State) : (emit o s).tables = s.tables := rfl
@[simp] theorem emit_reserveOut (o : Output) (s : State) : (emit o s).reserveOut = s.reserveOut := rfl
@[simp] theorem emit_pcErrs (o : Output) (s : State) : (emit o s).pcErrs = s.pcErrs := rfl
@[simp] theorem emit_rowErrs (o : Output) (s : State) : (emit o s).rowErrs = s.rowErrs := rfl
@[simp] theorem emit_sparesUsed (o : Output) (s : State) : (emit o s).sparesUsed = s.sparesUsed := rfl
@[simp] theorem emit_scrubbed (o : Output) (s : State) : (emit o s).scrubbed = s.scrubbed := rfl
@[simp] theorem emit_quotaErr (o : Output) (s : State) : (emit o s).quotaErr = s.quotaErr := rfl
@[simp] theorem emit_units (o : Output) (s : State) : (emit o s).units = s.units := rfl
@[simp] theorem emit_telQ (o : Output) (s : State) : (emit o s).telQ = s.telQ := rfl
@[simp] theorem emit_i3cQ (o : Output) (s : State) : (emit o s).i3cQ = s.i3cQ := rfl
@[simp] theorem emit_census (o : Output) (s : State) : (emit o s).census = s.census := rfl
@[simp] theorem emit_censuses (o : Output) (s : State) : (emit o s).censuses = s.censuses := rfl
@[simp] theorem emit_rops (o : Output) (s : State) : (emit o s).rops = s.rops := rfl
@[simp] theorem emit_nextRop (o : Output) (s : State) : (emit o s).nextRop = s.nextRop := rfl
@[simp] theorem emit_txns (o : Output) (s : State) : (emit o s).txns = s.txns := rfl
@[simp] theorem emit_sendQ (o : Output) (s : State) : (emit o s).sendQ = s.sendQ := rfl
@[simp] theorem emit_pairs (o : Output) (s : State) : (emit o s).pairs = s.pairs := rfl
@[simp] theorem emit_sources (o : Output) (s : State) : (emit o s).sources = s.sources := rfl
@[simp] theorem emit_accepted (o : Output) (s : State) : (emit o s).accepted = s.accepted := rfl
@[simp] theorem emit_owners (o : Output) (s : State) : (emit o s).owners = s.owners := rfl
@[simp] theorem emit_reqs (o : Output) (s : State) : (emit o s).reqs = s.reqs := rfl
@[simp] theorem emit_nextReq (o : Output) (s : State) : (emit o s).nextReq = s.nextReq := rfl
@[simp] theorem emit_engines (o : Output) (s : State) : (emit o s).engines = s.engines := rfl
@[simp] theorem emit_qps (o : Output) (s : State) : (emit o s).qps = s.qps := rfl
@[simp] theorem emit_nextQp (o : Output) (s : State) : (emit o s).nextQp = s.nextQp := rfl
@[simp] theorem emit_fabActive (o : Output) (s : State) : (emit o s).fabActive = s.fabActive := rfl
@[simp] theorem emit_fabOld (o : Output) (s : State) : (emit o s).fabOld = s.fabOld := rfl
@[simp] theorem emit_fabShadow (o : Output) (s : State) : (emit o s).fabShadow = s.fabShadow := rfl
@[simp] theorem emit_epoch (o : Output) (s : State) : (emit o s).epoch = s.epoch := rfl
@[simp] theorem emit_swapped (o : Output) (s : State) : (emit o s).swapped = s.swapped := rfl
@[simp] theorem emit_drainAt (o : Output) (s : State) : (emit o s).drainAt = s.drainAt := rfl
@[simp] theorem emit_drainWarned (o : Output) (s : State) : (emit o s).drainWarned = s.drainWarned := rfl
@[simp] theorem emit_sentMarks (o : Output) (s : State) : (emit o s).sentMarks = s.sentMarks := rfl
@[simp] theorem emit_links (o : Output) (s : State) : (emit o s).links = s.links := rfl
@[simp] theorem emit_ordPaths (o : Output) (s : State) : (emit o s).ordPaths = s.ordPaths := rfl
@[simp] theorem emit_arrived (o : Output) (s : State) : (emit o s).arrived = s.arrived := rfl
@[simp] theorem emit_stewardQ (o : Output) (s : State) : (emit o s).stewardQ = s.stewardQ := rfl
@[simp] theorem emit_helloFrom (o : Output) (s : State) : (emit o s).helloFrom = s.helloFrom := rfl
@[simp] theorem emit_fabMap (o : Output) (s : State) : (emit o s).fabMap = s.fabMap := rfl
@[simp] theorem emit_discovered (o : Output) (s : State) : (emit o s).discovered = s.discovered := rfl
@[simp] theorem emit_fabReady (o : Output) (s : State) : (emit o s).fabReady = s.fabReady := rfl
@[simp] theorem emit_wxAt (o : Output) (s : State) : (emit o s).wxAt = s.wxAt := rfl
@[simp] theorem emit_wxPeriod (o : Output) (s : State) : (emit o s).wxPeriod = s.wxPeriod := rfl
@[simp] theorem emit_wxDrops (o : Output) (s : State) : (emit o s).wxDrops = s.wxDrops := rfl
@[simp] theorem emit_wxReplays (o : Output) (s : State) : (emit o s).wxReplays = s.wxReplays := rfl
@[simp] theorem emit_drops (o : Output) (s : State) : (emit o s).drops = s.drops := rfl
@[simp] theorem emit_notices (o : Output) (s : State) : (emit o s).notices = s.notices := rfl
@[simp] theorem emit_colls (o : Output) (s : State) : (emit o s).colls = s.colls := rfl
@[simp] theorem emit_nextColl (o : Output) (s : State) : (emit o s).nextColl = s.nextColl := rfl
@[simp] theorem emit_groups (o : Output) (s : State) : (emit o s).groups = s.groups := rfl
@[simp] theorem emit_mailboxes (o : Output) (s : State) : (emit o s).mailboxes = s.mailboxes := rfl
@[simp] theorem emit_sessions (o : Output) (s : State) : (emit o s).sessions = s.sessions := rfl
@[simp] theorem emit_adminEvsub (o : Output) (s : State) : (emit o s).adminEvsub = s.adminEvsub := rfl
@[simp] theorem emit_flash (o : Output) (s : State) : (emit o s).flash = s.flash := rfl
@[simp] theorem emit_otp (o : Output) (s : State) : (emit o s).otp = s.otp := rfl
@[simp] theorem emit_mrs (o : Output) (s : State) : (emit o s).mrs = s.mrs := rfl
@[simp] theorem emit_bootAt (o : Output) (s : State) : (emit o s).bootAt = s.bootAt := rfl
@[simp] theorem emit_bootB (o : Output) (s : State) : (emit o s).bootB = s.bootB := rfl
@[simp] theorem emit_verified (o : Output) (s : State) : (emit o s).verified = s.verified := rfl
@[simp] theorem emit_recovery (o : Output) (s : State) : (emit o s).recovery = s.recovery := rfl
@[simp] theorem emit_keysReady (o : Output) (s : State) : (emit o s).keysReady = s.keysReady := rfl
@[simp] theorem emit_images (o : Output) (s : State) : (emit o s).images = s.images := rfl
@[simp] theorem emit_bootCfg (o : Output) (s : State) : (emit o s).bootCfg = s.bootCfg := rfl
@[simp] theorem emit_cfgDigest (o : Output) (s : State) : (emit o s).cfgDigest = s.cfgDigest := rfl
@[simp] theorem emit_mapDigest (o : Output) (s : State) : (emit o s).mapDigest = s.mapDigest := rfl
@[simp] theorem emit_restarts (o : Output) (s : State) : (emit o s).restarts = s.restarts := rfl
@[simp] theorem emit_duties (o : Output) (s : State) : (emit o s).duties = s.duties := rfl
@[simp] theorem emit_stewardGone (o : Output) (s : State) : (emit o s).stewardGone = s.stewardGone := rfl
@[simp] theorem emit_update (o : Output) (s : State) : (emit o s).update = s.update := rfl
@[simp] theorem emit_deferred (o : Output) (s : State) : (emit o s).deferred = s.deferred := rfl
@[simp] theorem emit_signQ (o : Output) (s : State) : (emit o s).signQ = s.signQ := rfl
@[simp] theorem emit_conns (o : Output) (s : State) : (emit o s).conns = s.conns := rfl
@[simp] theorem emit_nextConn (o : Output) (s : State) : (emit o s).nextConn = s.nextConn := rfl
@[simp] theorem emit_owned (o : Output) (s : State) : (emit o s).owned = s.owned := rfl
@[simp] theorem emit_noRestart (o : Output) (s : State) : (emit o s).noRestart = s.noRestart := rfl
@[simp] theorem emit_sectors (o : Output) (s : State) : (emit o s).sectors = s.sectors := rfl
@[simp] theorem emit_pkg (o : Output) (s : State) : (emit o s).pkg = s.pkg := rfl
@[simp] theorem emit_pkgOver (o : Output) (s : State) : (emit o s).pkgOver = s.pkgOver := rfl
@[simp] theorem emit_feedOver (o : Output) (s : State) : (emit o s).feedOver = s.feedOver := rfl
@[simp] theorem emit_rails (o : Output) (s : State) : (emit o s).rails = s.rails := rfl
@[simp] theorem emit_convs (o : Output) (s : State) : (emit o s).convs = s.convs := rfl
@[simp] theorem emit_cutAt (o : Output) (s : State) : (emit o s).cutAt = s.cutAt := rfl
@[simp] theorem emit_emergAt (o : Output) (s : State) : (emit o s).emergAt = s.emergAt := rfl
@[simp] theorem emit_shadow (o : Output) (s : State) : (emit o s).shadow = s.shadow := rfl
@[simp] theorem emit_planAt (o : Output) (s : State) : (emit o s).planAt = s.planAt := rfl
@[simp] theorem emit_planNow (o : Output) (s : State) : (emit o s).planNow = s.planNow := rfl
@[simp] theorem emit_clocksOn (o : Output) (s : State) : (emit o s).clocksOn = s.clocksOn := rfl
@[simp] theorem emit_planFeed (o : Output) (s : State) : (emit o s).planFeed = s.planFeed := rfl
@[simp] theorem emit_minRefresh (o : Output) (s : State) : (emit o s).minRefresh = s.minRefresh := rfl
@[simp] theorem emit_planRefresh (o : Output) (s : State) : (emit o s).planRefresh = s.planRefresh := rfl
@[simp] theorem emit_refBand (o : Output) (s : State) : (emit o s).refBand = s.refBand := rfl
@[simp] theorem emit_overlay (o : Output) (s : State) : (emit o s).overlay = s.overlay := rfl
@[simp] theorem emit_calBusy (o : Output) (s : State) : (emit o s).calBusy = s.calBusy := rfl
@[simp] theorem emit_ndl (o : Output) (s : State) : (emit o s).ndl = s.ndl := rfl
@[simp] theorem emit_uciTlb (o : Output) (s : State) : (emit o s).uciTlb = s.uciTlb := rfl
@[simp] theorem emit_uciOff (o : Output) (s : State) : (emit o s).uciOff = s.uciOff := rfl
@[simp] theorem emit_uciDown (o : Output) (s : State) : (emit o s).uciDown = s.uciDown := rfl
@[simp] theorem emit_loopAt (o : Output) (s : State) : (emit o s).loopAt = s.loopAt := rfl
@[simp] theorem emit_inReset (o : Output) (s : State) : (emit o s).inReset = s.inReset := rfl
@[simp] theorem emit_resetAt (o : Output) (s : State) : (emit o s).resetAt = s.resetAt := rfl
@[simp] theorem emit_refLost (o : Output) (s : State) : (emit o s).refLost = s.refLost := rfl
@[simp] theorem emit_tripped (o : Output) (s : State) : (emit o s).tripped = s.tripped := rfl
@[simp] theorem emit_pllLock (o : Output) (s : State) : (emit o s).pllLock = s.pllLock := rfl
@[simp] theorem emit_regsUp (o : Output) (s : State) : (emit o s).regsUp = s.regsUp := rfl
@[simp] theorem emit_idsRead (o : Output) (s : State) : (emit o s).idsRead = s.idsRead := rfl
@[simp] theorem emit_hostsUp (o : Output) (s : State) : (emit o s).hostsUp = s.hostsUp := rfl
@[simp] theorem emit_absent (o : Output) (s : State) : (emit o s).absent = s.absent := rfl
@[simp] theorem emit_rstLow (o : Output) (s : State) : (emit o s).rstLow = s.rstLow := rfl
@[simp] theorem emit_pending (o : Output) (s : State) : (emit o s).pending = s.pending := rfl

/-! ## takeFree -/

@[simp] theorem takeFree_time (s : State) : ((takeFree s).2).time = s.time := rfl
@[simp] theorem takeFree_free (s : State) : ((takeFree s).2).free = s.free + 1 := rfl
@[simp] theorem takeFree_out (s : State) : ((takeFree s).2).out = s.out := rfl
@[simp] theorem takeFree_ctl (s : State) : ((takeFree s).2).ctl = s.ctl := rfl
@[simp] theorem takeFree_paths (s : State) : ((takeFree s).2).paths = s.paths := rfl
@[simp] theorem takeFree_benches (s : State) : ((takeFree s).2).benches = s.benches := rfl
@[simp] theorem takeFree_parts (s : State) : ((takeFree s).2).parts = s.parts := rfl
@[simp] theorem takeFree_frames (s : State) : ((takeFree s).2).frames = s.frames := rfl
@[simp] theorem takeFree_scrubQ (s : State) : ((takeFree s).2).scrubQ = s.scrubQ := rfl
@[simp] theorem takeFree_walks (s : State) : ((takeFree s).2).walks = s.walks := rfl
@[simp] theorem takeFree_progs (s : State) : ((takeFree s).2).progs = s.progs := rfl
@[simp] theorem takeFree_nextProg (s : State) : ((takeFree s).2).nextProg = s.nextProg := rfl
@[simp] theorem takeFree_reports (s : State) : ((takeFree s).2).reports = s.reports := rfl
@[simp] theorem takeFree_mem (s : State) : ((takeFree s).2).mem = s.mem := rfl
@[simp] theorem takeFree_poison (s : State) : ((takeFree s).2).poison = s.poison := rfl
@[simp] theorem takeFree_flaws (s : State) : ((takeFree s).2).flaws = s.flaws := rfl
@[simp] theorem takeFree_tables (s : State) : ((takeFree s).2).tables = s.tables := rfl
@[simp] theorem takeFree_reserveOut (s : State) : ((takeFree s).2).reserveOut = s.reserveOut := rfl
@[simp] theorem takeFree_pcErrs (s : State) : ((takeFree s).2).pcErrs = s.pcErrs := rfl
@[simp] theorem takeFree_rowErrs (s : State) : ((takeFree s).2).rowErrs = s.rowErrs := rfl
@[simp] theorem takeFree_sparesUsed (s : State) : ((takeFree s).2).sparesUsed = s.sparesUsed := rfl
@[simp] theorem takeFree_scrubbed (s : State) : ((takeFree s).2).scrubbed = s.scrubbed := rfl
@[simp] theorem takeFree_quotaErr (s : State) : ((takeFree s).2).quotaErr = s.quotaErr := rfl
@[simp] theorem takeFree_units (s : State) : ((takeFree s).2).units = s.units := rfl
@[simp] theorem takeFree_telQ (s : State) : ((takeFree s).2).telQ = s.telQ := rfl
@[simp] theorem takeFree_i3cQ (s : State) : ((takeFree s).2).i3cQ = s.i3cQ := rfl
@[simp] theorem takeFree_census (s : State) : ((takeFree s).2).census = s.census := rfl
@[simp] theorem takeFree_censuses (s : State) : ((takeFree s).2).censuses = s.censuses := rfl
@[simp] theorem takeFree_rops (s : State) : ((takeFree s).2).rops = s.rops := rfl
@[simp] theorem takeFree_nextRop (s : State) : ((takeFree s).2).nextRop = s.nextRop := rfl
@[simp] theorem takeFree_txns (s : State) : ((takeFree s).2).txns = s.txns := rfl
@[simp] theorem takeFree_sendQ (s : State) : ((takeFree s).2).sendQ = s.sendQ := rfl
@[simp] theorem takeFree_pairs (s : State) : ((takeFree s).2).pairs = s.pairs := rfl
@[simp] theorem takeFree_sources (s : State) : ((takeFree s).2).sources = s.sources := rfl
@[simp] theorem takeFree_accepted (s : State) : ((takeFree s).2).accepted = s.accepted := rfl
@[simp] theorem takeFree_owners (s : State) : ((takeFree s).2).owners = s.owners := rfl
@[simp] theorem takeFree_reqs (s : State) : ((takeFree s).2).reqs = s.reqs := rfl
@[simp] theorem takeFree_nextReq (s : State) : ((takeFree s).2).nextReq = s.nextReq := rfl
@[simp] theorem takeFree_engines (s : State) : ((takeFree s).2).engines = s.engines := rfl
@[simp] theorem takeFree_qps (s : State) : ((takeFree s).2).qps = s.qps := rfl
@[simp] theorem takeFree_nextQp (s : State) : ((takeFree s).2).nextQp = s.nextQp := rfl
@[simp] theorem takeFree_fabActive (s : State) : ((takeFree s).2).fabActive = s.fabActive := rfl
@[simp] theorem takeFree_fabOld (s : State) : ((takeFree s).2).fabOld = s.fabOld := rfl
@[simp] theorem takeFree_fabShadow (s : State) : ((takeFree s).2).fabShadow = s.fabShadow := rfl
@[simp] theorem takeFree_epoch (s : State) : ((takeFree s).2).epoch = s.epoch := rfl
@[simp] theorem takeFree_swapped (s : State) : ((takeFree s).2).swapped = s.swapped := rfl
@[simp] theorem takeFree_drainAt (s : State) : ((takeFree s).2).drainAt = s.drainAt := rfl
@[simp] theorem takeFree_drainWarned (s : State) : ((takeFree s).2).drainWarned = s.drainWarned := rfl
@[simp] theorem takeFree_sentMarks (s : State) : ((takeFree s).2).sentMarks = s.sentMarks := rfl
@[simp] theorem takeFree_links (s : State) : ((takeFree s).2).links = s.links := rfl
@[simp] theorem takeFree_ordPaths (s : State) : ((takeFree s).2).ordPaths = s.ordPaths := rfl
@[simp] theorem takeFree_arrived (s : State) : ((takeFree s).2).arrived = s.arrived := rfl
@[simp] theorem takeFree_stewardQ (s : State) : ((takeFree s).2).stewardQ = s.stewardQ := rfl
@[simp] theorem takeFree_helloFrom (s : State) : ((takeFree s).2).helloFrom = s.helloFrom := rfl
@[simp] theorem takeFree_fabMap (s : State) : ((takeFree s).2).fabMap = s.fabMap := rfl
@[simp] theorem takeFree_discovered (s : State) : ((takeFree s).2).discovered = s.discovered := rfl
@[simp] theorem takeFree_fabReady (s : State) : ((takeFree s).2).fabReady = s.fabReady := rfl
@[simp] theorem takeFree_wxAt (s : State) : ((takeFree s).2).wxAt = s.wxAt := rfl
@[simp] theorem takeFree_wxPeriod (s : State) : ((takeFree s).2).wxPeriod = s.wxPeriod := rfl
@[simp] theorem takeFree_wxDrops (s : State) : ((takeFree s).2).wxDrops = s.wxDrops := rfl
@[simp] theorem takeFree_wxReplays (s : State) : ((takeFree s).2).wxReplays = s.wxReplays := rfl
@[simp] theorem takeFree_drops (s : State) : ((takeFree s).2).drops = s.drops := rfl
@[simp] theorem takeFree_notices (s : State) : ((takeFree s).2).notices = s.notices := rfl
@[simp] theorem takeFree_colls (s : State) : ((takeFree s).2).colls = s.colls := rfl
@[simp] theorem takeFree_nextColl (s : State) : ((takeFree s).2).nextColl = s.nextColl := rfl
@[simp] theorem takeFree_groups (s : State) : ((takeFree s).2).groups = s.groups := rfl
@[simp] theorem takeFree_mailboxes (s : State) : ((takeFree s).2).mailboxes = s.mailboxes := rfl
@[simp] theorem takeFree_sessions (s : State) : ((takeFree s).2).sessions = s.sessions := rfl
@[simp] theorem takeFree_adminEvsub (s : State) : ((takeFree s).2).adminEvsub = s.adminEvsub := rfl
@[simp] theorem takeFree_flash (s : State) : ((takeFree s).2).flash = s.flash := rfl
@[simp] theorem takeFree_otp (s : State) : ((takeFree s).2).otp = s.otp := rfl
@[simp] theorem takeFree_mrs (s : State) : ((takeFree s).2).mrs = s.mrs := rfl
@[simp] theorem takeFree_bootAt (s : State) : ((takeFree s).2).bootAt = s.bootAt := rfl
@[simp] theorem takeFree_bootB (s : State) : ((takeFree s).2).bootB = s.bootB := rfl
@[simp] theorem takeFree_verified (s : State) : ((takeFree s).2).verified = s.verified := rfl
@[simp] theorem takeFree_recovery (s : State) : ((takeFree s).2).recovery = s.recovery := rfl
@[simp] theorem takeFree_keysReady (s : State) : ((takeFree s).2).keysReady = s.keysReady := rfl
@[simp] theorem takeFree_images (s : State) : ((takeFree s).2).images = s.images := rfl
@[simp] theorem takeFree_bootCfg (s : State) : ((takeFree s).2).bootCfg = s.bootCfg := rfl
@[simp] theorem takeFree_cfgDigest (s : State) : ((takeFree s).2).cfgDigest = s.cfgDigest := rfl
@[simp] theorem takeFree_mapDigest (s : State) : ((takeFree s).2).mapDigest = s.mapDigest := rfl
@[simp] theorem takeFree_restarts (s : State) : ((takeFree s).2).restarts = s.restarts := rfl
@[simp] theorem takeFree_duties (s : State) : ((takeFree s).2).duties = s.duties := rfl
@[simp] theorem takeFree_stewardGone (s : State) : ((takeFree s).2).stewardGone = s.stewardGone := rfl
@[simp] theorem takeFree_update (s : State) : ((takeFree s).2).update = s.update := rfl
@[simp] theorem takeFree_deferred (s : State) : ((takeFree s).2).deferred = s.deferred := rfl
@[simp] theorem takeFree_signQ (s : State) : ((takeFree s).2).signQ = s.signQ := rfl
@[simp] theorem takeFree_conns (s : State) : ((takeFree s).2).conns = s.conns := rfl
@[simp] theorem takeFree_nextConn (s : State) : ((takeFree s).2).nextConn = s.nextConn := rfl
@[simp] theorem takeFree_owned (s : State) : ((takeFree s).2).owned = s.owned := rfl
@[simp] theorem takeFree_noRestart (s : State) : ((takeFree s).2).noRestart = s.noRestart := rfl
@[simp] theorem takeFree_sectors (s : State) : ((takeFree s).2).sectors = s.sectors := rfl
@[simp] theorem takeFree_pkg (s : State) : ((takeFree s).2).pkg = s.pkg := rfl
@[simp] theorem takeFree_pkgOver (s : State) : ((takeFree s).2).pkgOver = s.pkgOver := rfl
@[simp] theorem takeFree_feedOver (s : State) : ((takeFree s).2).feedOver = s.feedOver := rfl
@[simp] theorem takeFree_rails (s : State) : ((takeFree s).2).rails = s.rails := rfl
@[simp] theorem takeFree_convs (s : State) : ((takeFree s).2).convs = s.convs := rfl
@[simp] theorem takeFree_cutAt (s : State) : ((takeFree s).2).cutAt = s.cutAt := rfl
@[simp] theorem takeFree_emergAt (s : State) : ((takeFree s).2).emergAt = s.emergAt := rfl
@[simp] theorem takeFree_shadow (s : State) : ((takeFree s).2).shadow = s.shadow := rfl
@[simp] theorem takeFree_planAt (s : State) : ((takeFree s).2).planAt = s.planAt := rfl
@[simp] theorem takeFree_planNow (s : State) : ((takeFree s).2).planNow = s.planNow := rfl
@[simp] theorem takeFree_clocksOn (s : State) : ((takeFree s).2).clocksOn = s.clocksOn := rfl
@[simp] theorem takeFree_planFeed (s : State) : ((takeFree s).2).planFeed = s.planFeed := rfl
@[simp] theorem takeFree_minRefresh (s : State) : ((takeFree s).2).minRefresh = s.minRefresh := rfl
@[simp] theorem takeFree_planRefresh (s : State) : ((takeFree s).2).planRefresh = s.planRefresh := rfl
@[simp] theorem takeFree_refBand (s : State) : ((takeFree s).2).refBand = s.refBand := rfl
@[simp] theorem takeFree_overlay (s : State) : ((takeFree s).2).overlay = s.overlay := rfl
@[simp] theorem takeFree_calBusy (s : State) : ((takeFree s).2).calBusy = s.calBusy := rfl
@[simp] theorem takeFree_ndl (s : State) : ((takeFree s).2).ndl = s.ndl := rfl
@[simp] theorem takeFree_uciTlb (s : State) : ((takeFree s).2).uciTlb = s.uciTlb := rfl
@[simp] theorem takeFree_uciOff (s : State) : ((takeFree s).2).uciOff = s.uciOff := rfl
@[simp] theorem takeFree_uciDown (s : State) : ((takeFree s).2).uciDown = s.uciDown := rfl
@[simp] theorem takeFree_loopAt (s : State) : ((takeFree s).2).loopAt = s.loopAt := rfl
@[simp] theorem takeFree_inReset (s : State) : ((takeFree s).2).inReset = s.inReset := rfl
@[simp] theorem takeFree_resetAt (s : State) : ((takeFree s).2).resetAt = s.resetAt := rfl
@[simp] theorem takeFree_refLost (s : State) : ((takeFree s).2).refLost = s.refLost := rfl
@[simp] theorem takeFree_tripped (s : State) : ((takeFree s).2).tripped = s.tripped := rfl
@[simp] theorem takeFree_pllLock (s : State) : ((takeFree s).2).pllLock = s.pllLock := rfl
@[simp] theorem takeFree_regsUp (s : State) : ((takeFree s).2).regsUp = s.regsUp := rfl
@[simp] theorem takeFree_idsRead (s : State) : ((takeFree s).2).idsRead = s.idsRead := rfl
@[simp] theorem takeFree_hostsUp (s : State) : ((takeFree s).2).hostsUp = s.hostsUp := rfl
@[simp] theorem takeFree_absent (s : State) : ((takeFree s).2).absent = s.absent := rfl
@[simp] theorem takeFree_rstLow (s : State) : ((takeFree s).2).rstLow = s.rstLow := rfl
@[simp] theorem takeFree_pending (s : State) : ((takeFree s).2).pending = s.pending := rfl

/-! ## setRaw -/

@[simp] theorem setRaw_time (r : Reg) (i j v : Nat) (s : State) : (setRaw r i j v s).time = s.time := rfl
@[simp] theorem setRaw_free (r : Reg) (i j v : Nat) (s : State) : (setRaw r i j v s).free = s.free := rfl
@[simp] theorem setRaw_out (r : Reg) (i j v : Nat) (s : State) : (setRaw r i j v s).out = s.out := rfl
@[simp] theorem setRaw_ctl (r : Reg) (i j v : Nat) (s : State) : (setRaw r i j v s).ctl = tset s.ctl (regAddr r i j) (BitVec.ofNat 32 v) := rfl
@[simp] theorem setRaw_paths (r : Reg) (i j v : Nat) (s : State) : (setRaw r i j v s).paths = s.paths := rfl
@[simp] theorem setRaw_benches (r : Reg) (i j v : Nat) (s : State) : (setRaw r i j v s).benches = s.benches := rfl
@[simp] theorem setRaw_parts (r : Reg) (i j v : Nat) (s : State) : (setRaw r i j v s).parts = s.parts := rfl
@[simp] theorem setRaw_frames (r : Reg) (i j v : Nat) (s : State) : (setRaw r i j v s).frames = s.frames := rfl
@[simp] theorem setRaw_scrubQ (r : Reg) (i j v : Nat) (s : State) : (setRaw r i j v s).scrubQ = s.scrubQ := rfl
@[simp] theorem setRaw_walks (r : Reg) (i j v : Nat) (s : State) : (setRaw r i j v s).walks = s.walks := rfl
@[simp] theorem setRaw_progs (r : Reg) (i j v : Nat) (s : State) : (setRaw r i j v s).progs = s.progs := rfl
@[simp] theorem setRaw_nextProg (r : Reg) (i j v : Nat) (s : State) : (setRaw r i j v s).nextProg = s.nextProg := rfl
@[simp] theorem setRaw_reports (r : Reg) (i j v : Nat) (s : State) : (setRaw r i j v s).reports = s.reports := rfl
@[simp] theorem setRaw_mem (r : Reg) (i j v : Nat) (s : State) : (setRaw r i j v s).mem = s.mem := rfl
@[simp] theorem setRaw_poison (r : Reg) (i j v : Nat) (s : State) : (setRaw r i j v s).poison = s.poison := rfl
@[simp] theorem setRaw_flaws (r : Reg) (i j v : Nat) (s : State) : (setRaw r i j v s).flaws = s.flaws := rfl
@[simp] theorem setRaw_tables (r : Reg) (i j v : Nat) (s : State) : (setRaw r i j v s).tables = s.tables := rfl
@[simp] theorem setRaw_reserveOut (r : Reg) (i j v : Nat) (s : State) : (setRaw r i j v s).reserveOut = s.reserveOut := rfl
@[simp] theorem setRaw_pcErrs (r : Reg) (i j v : Nat) (s : State) : (setRaw r i j v s).pcErrs = s.pcErrs := rfl
@[simp] theorem setRaw_rowErrs (r : Reg) (i j v : Nat) (s : State) : (setRaw r i j v s).rowErrs = s.rowErrs := rfl
@[simp] theorem setRaw_sparesUsed (r : Reg) (i j v : Nat) (s : State) : (setRaw r i j v s).sparesUsed = s.sparesUsed := rfl
@[simp] theorem setRaw_scrubbed (r : Reg) (i j v : Nat) (s : State) : (setRaw r i j v s).scrubbed = s.scrubbed := rfl
@[simp] theorem setRaw_quotaErr (r : Reg) (i j v : Nat) (s : State) : (setRaw r i j v s).quotaErr = s.quotaErr := rfl
@[simp] theorem setRaw_units (r : Reg) (i j v : Nat) (s : State) : (setRaw r i j v s).units = s.units := rfl
@[simp] theorem setRaw_telQ (r : Reg) (i j v : Nat) (s : State) : (setRaw r i j v s).telQ = s.telQ := rfl
@[simp] theorem setRaw_i3cQ (r : Reg) (i j v : Nat) (s : State) : (setRaw r i j v s).i3cQ = s.i3cQ := rfl
@[simp] theorem setRaw_census (r : Reg) (i j v : Nat) (s : State) : (setRaw r i j v s).census = s.census := rfl
@[simp] theorem setRaw_censuses (r : Reg) (i j v : Nat) (s : State) : (setRaw r i j v s).censuses = s.censuses := rfl
@[simp] theorem setRaw_rops (r : Reg) (i j v : Nat) (s : State) : (setRaw r i j v s).rops = s.rops := rfl
@[simp] theorem setRaw_nextRop (r : Reg) (i j v : Nat) (s : State) : (setRaw r i j v s).nextRop = s.nextRop := rfl
@[simp] theorem setRaw_txns (r : Reg) (i j v : Nat) (s : State) : (setRaw r i j v s).txns = s.txns := rfl
@[simp] theorem setRaw_sendQ (r : Reg) (i j v : Nat) (s : State) : (setRaw r i j v s).sendQ = s.sendQ := rfl
@[simp] theorem setRaw_pairs (r : Reg) (i j v : Nat) (s : State) : (setRaw r i j v s).pairs = s.pairs := rfl
@[simp] theorem setRaw_sources (r : Reg) (i j v : Nat) (s : State) : (setRaw r i j v s).sources = s.sources := rfl
@[simp] theorem setRaw_accepted (r : Reg) (i j v : Nat) (s : State) : (setRaw r i j v s).accepted = s.accepted := rfl
@[simp] theorem setRaw_owners (r : Reg) (i j v : Nat) (s : State) : (setRaw r i j v s).owners = s.owners := rfl
@[simp] theorem setRaw_reqs (r : Reg) (i j v : Nat) (s : State) : (setRaw r i j v s).reqs = s.reqs := rfl
@[simp] theorem setRaw_nextReq (r : Reg) (i j v : Nat) (s : State) : (setRaw r i j v s).nextReq = s.nextReq := rfl
@[simp] theorem setRaw_engines (r : Reg) (i j v : Nat) (s : State) : (setRaw r i j v s).engines = s.engines := rfl
@[simp] theorem setRaw_qps (r : Reg) (i j v : Nat) (s : State) : (setRaw r i j v s).qps = s.qps := rfl
@[simp] theorem setRaw_nextQp (r : Reg) (i j v : Nat) (s : State) : (setRaw r i j v s).nextQp = s.nextQp := rfl
@[simp] theorem setRaw_fabActive (r : Reg) (i j v : Nat) (s : State) : (setRaw r i j v s).fabActive = s.fabActive := rfl
@[simp] theorem setRaw_fabOld (r : Reg) (i j v : Nat) (s : State) : (setRaw r i j v s).fabOld = s.fabOld := rfl
@[simp] theorem setRaw_fabShadow (r : Reg) (i j v : Nat) (s : State) : (setRaw r i j v s).fabShadow = s.fabShadow := rfl
@[simp] theorem setRaw_epoch (r : Reg) (i j v : Nat) (s : State) : (setRaw r i j v s).epoch = s.epoch := rfl
@[simp] theorem setRaw_swapped (r : Reg) (i j v : Nat) (s : State) : (setRaw r i j v s).swapped = s.swapped := rfl
@[simp] theorem setRaw_drainAt (r : Reg) (i j v : Nat) (s : State) : (setRaw r i j v s).drainAt = s.drainAt := rfl
@[simp] theorem setRaw_drainWarned (r : Reg) (i j v : Nat) (s : State) : (setRaw r i j v s).drainWarned = s.drainWarned := rfl
@[simp] theorem setRaw_sentMarks (r : Reg) (i j v : Nat) (s : State) : (setRaw r i j v s).sentMarks = s.sentMarks := rfl
@[simp] theorem setRaw_links (r : Reg) (i j v : Nat) (s : State) : (setRaw r i j v s).links = s.links := rfl
@[simp] theorem setRaw_ordPaths (r : Reg) (i j v : Nat) (s : State) : (setRaw r i j v s).ordPaths = s.ordPaths := rfl
@[simp] theorem setRaw_arrived (r : Reg) (i j v : Nat) (s : State) : (setRaw r i j v s).arrived = s.arrived := rfl
@[simp] theorem setRaw_stewardQ (r : Reg) (i j v : Nat) (s : State) : (setRaw r i j v s).stewardQ = s.stewardQ := rfl
@[simp] theorem setRaw_helloFrom (r : Reg) (i j v : Nat) (s : State) : (setRaw r i j v s).helloFrom = s.helloFrom := rfl
@[simp] theorem setRaw_fabMap (r : Reg) (i j v : Nat) (s : State) : (setRaw r i j v s).fabMap = s.fabMap := rfl
@[simp] theorem setRaw_discovered (r : Reg) (i j v : Nat) (s : State) : (setRaw r i j v s).discovered = s.discovered := rfl
@[simp] theorem setRaw_fabReady (r : Reg) (i j v : Nat) (s : State) : (setRaw r i j v s).fabReady = s.fabReady := rfl
@[simp] theorem setRaw_wxAt (r : Reg) (i j v : Nat) (s : State) : (setRaw r i j v s).wxAt = s.wxAt := rfl
@[simp] theorem setRaw_wxPeriod (r : Reg) (i j v : Nat) (s : State) : (setRaw r i j v s).wxPeriod = s.wxPeriod := rfl
@[simp] theorem setRaw_wxDrops (r : Reg) (i j v : Nat) (s : State) : (setRaw r i j v s).wxDrops = s.wxDrops := rfl
@[simp] theorem setRaw_wxReplays (r : Reg) (i j v : Nat) (s : State) : (setRaw r i j v s).wxReplays = s.wxReplays := rfl
@[simp] theorem setRaw_drops (r : Reg) (i j v : Nat) (s : State) : (setRaw r i j v s).drops = s.drops := rfl
@[simp] theorem setRaw_notices (r : Reg) (i j v : Nat) (s : State) : (setRaw r i j v s).notices = s.notices := rfl
@[simp] theorem setRaw_colls (r : Reg) (i j v : Nat) (s : State) : (setRaw r i j v s).colls = s.colls := rfl
@[simp] theorem setRaw_nextColl (r : Reg) (i j v : Nat) (s : State) : (setRaw r i j v s).nextColl = s.nextColl := rfl
@[simp] theorem setRaw_groups (r : Reg) (i j v : Nat) (s : State) : (setRaw r i j v s).groups = s.groups := rfl
@[simp] theorem setRaw_mailboxes (r : Reg) (i j v : Nat) (s : State) : (setRaw r i j v s).mailboxes = s.mailboxes := rfl
@[simp] theorem setRaw_sessions (r : Reg) (i j v : Nat) (s : State) : (setRaw r i j v s).sessions = s.sessions := rfl
@[simp] theorem setRaw_adminEvsub (r : Reg) (i j v : Nat) (s : State) : (setRaw r i j v s).adminEvsub = s.adminEvsub := rfl
@[simp] theorem setRaw_flash (r : Reg) (i j v : Nat) (s : State) : (setRaw r i j v s).flash = s.flash := rfl
@[simp] theorem setRaw_otp (r : Reg) (i j v : Nat) (s : State) : (setRaw r i j v s).otp = s.otp := rfl
@[simp] theorem setRaw_mrs (r : Reg) (i j v : Nat) (s : State) : (setRaw r i j v s).mrs = s.mrs := rfl
@[simp] theorem setRaw_bootAt (r : Reg) (i j v : Nat) (s : State) : (setRaw r i j v s).bootAt = s.bootAt := rfl
@[simp] theorem setRaw_bootB (r : Reg) (i j v : Nat) (s : State) : (setRaw r i j v s).bootB = s.bootB := rfl
@[simp] theorem setRaw_verified (r : Reg) (i j v : Nat) (s : State) : (setRaw r i j v s).verified = s.verified := rfl
@[simp] theorem setRaw_recovery (r : Reg) (i j v : Nat) (s : State) : (setRaw r i j v s).recovery = s.recovery := rfl
@[simp] theorem setRaw_keysReady (r : Reg) (i j v : Nat) (s : State) : (setRaw r i j v s).keysReady = s.keysReady := rfl
@[simp] theorem setRaw_images (r : Reg) (i j v : Nat) (s : State) : (setRaw r i j v s).images = s.images := rfl
@[simp] theorem setRaw_bootCfg (r : Reg) (i j v : Nat) (s : State) : (setRaw r i j v s).bootCfg = s.bootCfg := rfl
@[simp] theorem setRaw_cfgDigest (r : Reg) (i j v : Nat) (s : State) : (setRaw r i j v s).cfgDigest = s.cfgDigest := rfl
@[simp] theorem setRaw_mapDigest (r : Reg) (i j v : Nat) (s : State) : (setRaw r i j v s).mapDigest = s.mapDigest := rfl
@[simp] theorem setRaw_restarts (r : Reg) (i j v : Nat) (s : State) : (setRaw r i j v s).restarts = s.restarts := rfl
@[simp] theorem setRaw_duties (r : Reg) (i j v : Nat) (s : State) : (setRaw r i j v s).duties = s.duties := rfl
@[simp] theorem setRaw_stewardGone (r : Reg) (i j v : Nat) (s : State) : (setRaw r i j v s).stewardGone = s.stewardGone := rfl
@[simp] theorem setRaw_update (r : Reg) (i j v : Nat) (s : State) : (setRaw r i j v s).update = s.update := rfl
@[simp] theorem setRaw_deferred (r : Reg) (i j v : Nat) (s : State) : (setRaw r i j v s).deferred = s.deferred := rfl
@[simp] theorem setRaw_signQ (r : Reg) (i j v : Nat) (s : State) : (setRaw r i j v s).signQ = s.signQ := rfl
@[simp] theorem setRaw_conns (r : Reg) (i j v : Nat) (s : State) : (setRaw r i j v s).conns = s.conns := rfl
@[simp] theorem setRaw_nextConn (r : Reg) (i j v : Nat) (s : State) : (setRaw r i j v s).nextConn = s.nextConn := rfl
@[simp] theorem setRaw_owned (r : Reg) (i j v : Nat) (s : State) : (setRaw r i j v s).owned = s.owned := rfl
@[simp] theorem setRaw_noRestart (r : Reg) (i j v : Nat) (s : State) : (setRaw r i j v s).noRestart = s.noRestart := rfl
@[simp] theorem setRaw_sectors (r : Reg) (i j v : Nat) (s : State) : (setRaw r i j v s).sectors = s.sectors := rfl
@[simp] theorem setRaw_pkg (r : Reg) (i j v : Nat) (s : State) : (setRaw r i j v s).pkg = s.pkg := rfl
@[simp] theorem setRaw_pkgOver (r : Reg) (i j v : Nat) (s : State) : (setRaw r i j v s).pkgOver = s.pkgOver := rfl
@[simp] theorem setRaw_feedOver (r : Reg) (i j v : Nat) (s : State) : (setRaw r i j v s).feedOver = s.feedOver := rfl
@[simp] theorem setRaw_rails (r : Reg) (i j v : Nat) (s : State) : (setRaw r i j v s).rails = s.rails := rfl
@[simp] theorem setRaw_convs (r : Reg) (i j v : Nat) (s : State) : (setRaw r i j v s).convs = s.convs := rfl
@[simp] theorem setRaw_cutAt (r : Reg) (i j v : Nat) (s : State) : (setRaw r i j v s).cutAt = s.cutAt := rfl
@[simp] theorem setRaw_emergAt (r : Reg) (i j v : Nat) (s : State) : (setRaw r i j v s).emergAt = s.emergAt := rfl
@[simp] theorem setRaw_shadow (r : Reg) (i j v : Nat) (s : State) : (setRaw r i j v s).shadow = s.shadow := rfl
@[simp] theorem setRaw_planAt (r : Reg) (i j v : Nat) (s : State) : (setRaw r i j v s).planAt = s.planAt := rfl
@[simp] theorem setRaw_planNow (r : Reg) (i j v : Nat) (s : State) : (setRaw r i j v s).planNow = s.planNow := rfl
@[simp] theorem setRaw_clocksOn (r : Reg) (i j v : Nat) (s : State) : (setRaw r i j v s).clocksOn = s.clocksOn := rfl
@[simp] theorem setRaw_planFeed (r : Reg) (i j v : Nat) (s : State) : (setRaw r i j v s).planFeed = s.planFeed := rfl
@[simp] theorem setRaw_minRefresh (r : Reg) (i j v : Nat) (s : State) : (setRaw r i j v s).minRefresh = s.minRefresh := rfl
@[simp] theorem setRaw_planRefresh (r : Reg) (i j v : Nat) (s : State) : (setRaw r i j v s).planRefresh = s.planRefresh := rfl
@[simp] theorem setRaw_refBand (r : Reg) (i j v : Nat) (s : State) : (setRaw r i j v s).refBand = s.refBand := rfl
@[simp] theorem setRaw_overlay (r : Reg) (i j v : Nat) (s : State) : (setRaw r i j v s).overlay = s.overlay := rfl
@[simp] theorem setRaw_calBusy (r : Reg) (i j v : Nat) (s : State) : (setRaw r i j v s).calBusy = s.calBusy := rfl
@[simp] theorem setRaw_ndl (r : Reg) (i j v : Nat) (s : State) : (setRaw r i j v s).ndl = s.ndl := rfl
@[simp] theorem setRaw_uciTlb (r : Reg) (i j v : Nat) (s : State) : (setRaw r i j v s).uciTlb = s.uciTlb := rfl
@[simp] theorem setRaw_uciOff (r : Reg) (i j v : Nat) (s : State) : (setRaw r i j v s).uciOff = s.uciOff := rfl
@[simp] theorem setRaw_uciDown (r : Reg) (i j v : Nat) (s : State) : (setRaw r i j v s).uciDown = s.uciDown := rfl
@[simp] theorem setRaw_loopAt (r : Reg) (i j v : Nat) (s : State) : (setRaw r i j v s).loopAt = s.loopAt := rfl
@[simp] theorem setRaw_inReset (r : Reg) (i j v : Nat) (s : State) : (setRaw r i j v s).inReset = s.inReset := rfl
@[simp] theorem setRaw_resetAt (r : Reg) (i j v : Nat) (s : State) : (setRaw r i j v s).resetAt = s.resetAt := rfl
@[simp] theorem setRaw_refLost (r : Reg) (i j v : Nat) (s : State) : (setRaw r i j v s).refLost = s.refLost := rfl
@[simp] theorem setRaw_tripped (r : Reg) (i j v : Nat) (s : State) : (setRaw r i j v s).tripped = s.tripped := rfl
@[simp] theorem setRaw_pllLock (r : Reg) (i j v : Nat) (s : State) : (setRaw r i j v s).pllLock = s.pllLock := rfl
@[simp] theorem setRaw_regsUp (r : Reg) (i j v : Nat) (s : State) : (setRaw r i j v s).regsUp = s.regsUp := rfl
@[simp] theorem setRaw_idsRead (r : Reg) (i j v : Nat) (s : State) : (setRaw r i j v s).idsRead = s.idsRead := rfl
@[simp] theorem setRaw_hostsUp (r : Reg) (i j v : Nat) (s : State) : (setRaw r i j v s).hostsUp = s.hostsUp := rfl
@[simp] theorem setRaw_absent (r : Reg) (i j v : Nat) (s : State) : (setRaw r i j v s).absent = s.absent := rfl
@[simp] theorem setRaw_rstLow (r : Reg) (i j v : Nat) (s : State) : (setRaw r i j v s).rstLow = s.rstLow := rfl
@[simp] theorem setRaw_pending (r : Reg) (i j v : Nat) (s : State) : (setRaw r i j v s).pending = s.pending := rfl

/-! ## setFld -/

@[simp] theorem setFld_time (r : Reg) (i j h l v : Nat) (s : State) : (setFld r i j h l v s).time = s.time := rfl
@[simp] theorem setFld_free (r : Reg) (i j h l v : Nat) (s : State) : (setFld r i j h l v s).free = s.free := rfl
@[simp] theorem setFld_out (r : Reg) (i j h l v : Nat) (s : State) : (setFld r i j h l v s).out = s.out := rfl
@[simp] theorem setFld_ctl (r : Reg) (i j h l v : Nat) (s : State) : (setFld r i j h l v s).ctl = tset s.ctl (regAddr r i j) (BitVec.ofNat 32 (setBits (raw s r i j) h l v)) := rfl
@[simp] theorem setFld_paths (r : Reg) (i j h l v : Nat) (s : State) : (setFld r i j h l v s).paths = s.paths := rfl
@[simp] theorem setFld_benches (r : Reg) (i j h l v : Nat) (s : State) : (setFld r i j h l v s).benches = s.benches := rfl
@[simp] theorem setFld_parts (r : Reg) (i j h l v : Nat) (s : State) : (setFld r i j h l v s).parts = s.parts := rfl
@[simp] theorem setFld_frames (r : Reg) (i j h l v : Nat) (s : State) : (setFld r i j h l v s).frames = s.frames := rfl
@[simp] theorem setFld_scrubQ (r : Reg) (i j h l v : Nat) (s : State) : (setFld r i j h l v s).scrubQ = s.scrubQ := rfl
@[simp] theorem setFld_walks (r : Reg) (i j h l v : Nat) (s : State) : (setFld r i j h l v s).walks = s.walks := rfl
@[simp] theorem setFld_progs (r : Reg) (i j h l v : Nat) (s : State) : (setFld r i j h l v s).progs = s.progs := rfl
@[simp] theorem setFld_nextProg (r : Reg) (i j h l v : Nat) (s : State) : (setFld r i j h l v s).nextProg = s.nextProg := rfl
@[simp] theorem setFld_reports (r : Reg) (i j h l v : Nat) (s : State) : (setFld r i j h l v s).reports = s.reports := rfl
@[simp] theorem setFld_mem (r : Reg) (i j h l v : Nat) (s : State) : (setFld r i j h l v s).mem = s.mem := rfl
@[simp] theorem setFld_poison (r : Reg) (i j h l v : Nat) (s : State) : (setFld r i j h l v s).poison = s.poison := rfl
@[simp] theorem setFld_flaws (r : Reg) (i j h l v : Nat) (s : State) : (setFld r i j h l v s).flaws = s.flaws := rfl
@[simp] theorem setFld_tables (r : Reg) (i j h l v : Nat) (s : State) : (setFld r i j h l v s).tables = s.tables := rfl
@[simp] theorem setFld_reserveOut (r : Reg) (i j h l v : Nat) (s : State) : (setFld r i j h l v s).reserveOut = s.reserveOut := rfl
@[simp] theorem setFld_pcErrs (r : Reg) (i j h l v : Nat) (s : State) : (setFld r i j h l v s).pcErrs = s.pcErrs := rfl
@[simp] theorem setFld_rowErrs (r : Reg) (i j h l v : Nat) (s : State) : (setFld r i j h l v s).rowErrs = s.rowErrs := rfl
@[simp] theorem setFld_sparesUsed (r : Reg) (i j h l v : Nat) (s : State) : (setFld r i j h l v s).sparesUsed = s.sparesUsed := rfl
@[simp] theorem setFld_scrubbed (r : Reg) (i j h l v : Nat) (s : State) : (setFld r i j h l v s).scrubbed = s.scrubbed := rfl
@[simp] theorem setFld_quotaErr (r : Reg) (i j h l v : Nat) (s : State) : (setFld r i j h l v s).quotaErr = s.quotaErr := rfl
@[simp] theorem setFld_units (r : Reg) (i j h l v : Nat) (s : State) : (setFld r i j h l v s).units = s.units := rfl
@[simp] theorem setFld_telQ (r : Reg) (i j h l v : Nat) (s : State) : (setFld r i j h l v s).telQ = s.telQ := rfl
@[simp] theorem setFld_i3cQ (r : Reg) (i j h l v : Nat) (s : State) : (setFld r i j h l v s).i3cQ = s.i3cQ := rfl
@[simp] theorem setFld_census (r : Reg) (i j h l v : Nat) (s : State) : (setFld r i j h l v s).census = s.census := rfl
@[simp] theorem setFld_censuses (r : Reg) (i j h l v : Nat) (s : State) : (setFld r i j h l v s).censuses = s.censuses := rfl
@[simp] theorem setFld_rops (r : Reg) (i j h l v : Nat) (s : State) : (setFld r i j h l v s).rops = s.rops := rfl
@[simp] theorem setFld_nextRop (r : Reg) (i j h l v : Nat) (s : State) : (setFld r i j h l v s).nextRop = s.nextRop := rfl
@[simp] theorem setFld_txns (r : Reg) (i j h l v : Nat) (s : State) : (setFld r i j h l v s).txns = s.txns := rfl
@[simp] theorem setFld_sendQ (r : Reg) (i j h l v : Nat) (s : State) : (setFld r i j h l v s).sendQ = s.sendQ := rfl
@[simp] theorem setFld_pairs (r : Reg) (i j h l v : Nat) (s : State) : (setFld r i j h l v s).pairs = s.pairs := rfl
@[simp] theorem setFld_sources (r : Reg) (i j h l v : Nat) (s : State) : (setFld r i j h l v s).sources = s.sources := rfl
@[simp] theorem setFld_accepted (r : Reg) (i j h l v : Nat) (s : State) : (setFld r i j h l v s).accepted = s.accepted := rfl
@[simp] theorem setFld_owners (r : Reg) (i j h l v : Nat) (s : State) : (setFld r i j h l v s).owners = s.owners := rfl
@[simp] theorem setFld_reqs (r : Reg) (i j h l v : Nat) (s : State) : (setFld r i j h l v s).reqs = s.reqs := rfl
@[simp] theorem setFld_nextReq (r : Reg) (i j h l v : Nat) (s : State) : (setFld r i j h l v s).nextReq = s.nextReq := rfl
@[simp] theorem setFld_engines (r : Reg) (i j h l v : Nat) (s : State) : (setFld r i j h l v s).engines = s.engines := rfl
@[simp] theorem setFld_qps (r : Reg) (i j h l v : Nat) (s : State) : (setFld r i j h l v s).qps = s.qps := rfl
@[simp] theorem setFld_nextQp (r : Reg) (i j h l v : Nat) (s : State) : (setFld r i j h l v s).nextQp = s.nextQp := rfl
@[simp] theorem setFld_fabActive (r : Reg) (i j h l v : Nat) (s : State) : (setFld r i j h l v s).fabActive = s.fabActive := rfl
@[simp] theorem setFld_fabOld (r : Reg) (i j h l v : Nat) (s : State) : (setFld r i j h l v s).fabOld = s.fabOld := rfl
@[simp] theorem setFld_fabShadow (r : Reg) (i j h l v : Nat) (s : State) : (setFld r i j h l v s).fabShadow = s.fabShadow := rfl
@[simp] theorem setFld_epoch (r : Reg) (i j h l v : Nat) (s : State) : (setFld r i j h l v s).epoch = s.epoch := rfl
@[simp] theorem setFld_swapped (r : Reg) (i j h l v : Nat) (s : State) : (setFld r i j h l v s).swapped = s.swapped := rfl
@[simp] theorem setFld_drainAt (r : Reg) (i j h l v : Nat) (s : State) : (setFld r i j h l v s).drainAt = s.drainAt := rfl
@[simp] theorem setFld_drainWarned (r : Reg) (i j h l v : Nat) (s : State) : (setFld r i j h l v s).drainWarned = s.drainWarned := rfl
@[simp] theorem setFld_sentMarks (r : Reg) (i j h l v : Nat) (s : State) : (setFld r i j h l v s).sentMarks = s.sentMarks := rfl
@[simp] theorem setFld_links (r : Reg) (i j h l v : Nat) (s : State) : (setFld r i j h l v s).links = s.links := rfl
@[simp] theorem setFld_ordPaths (r : Reg) (i j h l v : Nat) (s : State) : (setFld r i j h l v s).ordPaths = s.ordPaths := rfl
@[simp] theorem setFld_arrived (r : Reg) (i j h l v : Nat) (s : State) : (setFld r i j h l v s).arrived = s.arrived := rfl
@[simp] theorem setFld_stewardQ (r : Reg) (i j h l v : Nat) (s : State) : (setFld r i j h l v s).stewardQ = s.stewardQ := rfl
@[simp] theorem setFld_helloFrom (r : Reg) (i j h l v : Nat) (s : State) : (setFld r i j h l v s).helloFrom = s.helloFrom := rfl
@[simp] theorem setFld_fabMap (r : Reg) (i j h l v : Nat) (s : State) : (setFld r i j h l v s).fabMap = s.fabMap := rfl
@[simp] theorem setFld_discovered (r : Reg) (i j h l v : Nat) (s : State) : (setFld r i j h l v s).discovered = s.discovered := rfl
@[simp] theorem setFld_fabReady (r : Reg) (i j h l v : Nat) (s : State) : (setFld r i j h l v s).fabReady = s.fabReady := rfl
@[simp] theorem setFld_wxAt (r : Reg) (i j h l v : Nat) (s : State) : (setFld r i j h l v s).wxAt = s.wxAt := rfl
@[simp] theorem setFld_wxPeriod (r : Reg) (i j h l v : Nat) (s : State) : (setFld r i j h l v s).wxPeriod = s.wxPeriod := rfl
@[simp] theorem setFld_wxDrops (r : Reg) (i j h l v : Nat) (s : State) : (setFld r i j h l v s).wxDrops = s.wxDrops := rfl
@[simp] theorem setFld_wxReplays (r : Reg) (i j h l v : Nat) (s : State) : (setFld r i j h l v s).wxReplays = s.wxReplays := rfl
@[simp] theorem setFld_drops (r : Reg) (i j h l v : Nat) (s : State) : (setFld r i j h l v s).drops = s.drops := rfl
@[simp] theorem setFld_notices (r : Reg) (i j h l v : Nat) (s : State) : (setFld r i j h l v s).notices = s.notices := rfl
@[simp] theorem setFld_colls (r : Reg) (i j h l v : Nat) (s : State) : (setFld r i j h l v s).colls = s.colls := rfl
@[simp] theorem setFld_nextColl (r : Reg) (i j h l v : Nat) (s : State) : (setFld r i j h l v s).nextColl = s.nextColl := rfl
@[simp] theorem setFld_groups (r : Reg) (i j h l v : Nat) (s : State) : (setFld r i j h l v s).groups = s.groups := rfl
@[simp] theorem setFld_mailboxes (r : Reg) (i j h l v : Nat) (s : State) : (setFld r i j h l v s).mailboxes = s.mailboxes := rfl
@[simp] theorem setFld_sessions (r : Reg) (i j h l v : Nat) (s : State) : (setFld r i j h l v s).sessions = s.sessions := rfl
@[simp] theorem setFld_adminEvsub (r : Reg) (i j h l v : Nat) (s : State) : (setFld r i j h l v s).adminEvsub = s.adminEvsub := rfl
@[simp] theorem setFld_flash (r : Reg) (i j h l v : Nat) (s : State) : (setFld r i j h l v s).flash = s.flash := rfl
@[simp] theorem setFld_otp (r : Reg) (i j h l v : Nat) (s : State) : (setFld r i j h l v s).otp = s.otp := rfl
@[simp] theorem setFld_mrs (r : Reg) (i j h l v : Nat) (s : State) : (setFld r i j h l v s).mrs = s.mrs := rfl
@[simp] theorem setFld_bootAt (r : Reg) (i j h l v : Nat) (s : State) : (setFld r i j h l v s).bootAt = s.bootAt := rfl
@[simp] theorem setFld_bootB (r : Reg) (i j h l v : Nat) (s : State) : (setFld r i j h l v s).bootB = s.bootB := rfl
@[simp] theorem setFld_verified (r : Reg) (i j h l v : Nat) (s : State) : (setFld r i j h l v s).verified = s.verified := rfl
@[simp] theorem setFld_recovery (r : Reg) (i j h l v : Nat) (s : State) : (setFld r i j h l v s).recovery = s.recovery := rfl
@[simp] theorem setFld_keysReady (r : Reg) (i j h l v : Nat) (s : State) : (setFld r i j h l v s).keysReady = s.keysReady := rfl
@[simp] theorem setFld_images (r : Reg) (i j h l v : Nat) (s : State) : (setFld r i j h l v s).images = s.images := rfl
@[simp] theorem setFld_bootCfg (r : Reg) (i j h l v : Nat) (s : State) : (setFld r i j h l v s).bootCfg = s.bootCfg := rfl
@[simp] theorem setFld_cfgDigest (r : Reg) (i j h l v : Nat) (s : State) : (setFld r i j h l v s).cfgDigest = s.cfgDigest := rfl
@[simp] theorem setFld_mapDigest (r : Reg) (i j h l v : Nat) (s : State) : (setFld r i j h l v s).mapDigest = s.mapDigest := rfl
@[simp] theorem setFld_restarts (r : Reg) (i j h l v : Nat) (s : State) : (setFld r i j h l v s).restarts = s.restarts := rfl
@[simp] theorem setFld_duties (r : Reg) (i j h l v : Nat) (s : State) : (setFld r i j h l v s).duties = s.duties := rfl
@[simp] theorem setFld_stewardGone (r : Reg) (i j h l v : Nat) (s : State) : (setFld r i j h l v s).stewardGone = s.stewardGone := rfl
@[simp] theorem setFld_update (r : Reg) (i j h l v : Nat) (s : State) : (setFld r i j h l v s).update = s.update := rfl
@[simp] theorem setFld_deferred (r : Reg) (i j h l v : Nat) (s : State) : (setFld r i j h l v s).deferred = s.deferred := rfl
@[simp] theorem setFld_signQ (r : Reg) (i j h l v : Nat) (s : State) : (setFld r i j h l v s).signQ = s.signQ := rfl
@[simp] theorem setFld_conns (r : Reg) (i j h l v : Nat) (s : State) : (setFld r i j h l v s).conns = s.conns := rfl
@[simp] theorem setFld_nextConn (r : Reg) (i j h l v : Nat) (s : State) : (setFld r i j h l v s).nextConn = s.nextConn := rfl
@[simp] theorem setFld_owned (r : Reg) (i j h l v : Nat) (s : State) : (setFld r i j h l v s).owned = s.owned := rfl
@[simp] theorem setFld_noRestart (r : Reg) (i j h l v : Nat) (s : State) : (setFld r i j h l v s).noRestart = s.noRestart := rfl
@[simp] theorem setFld_sectors (r : Reg) (i j h l v : Nat) (s : State) : (setFld r i j h l v s).sectors = s.sectors := rfl
@[simp] theorem setFld_pkg (r : Reg) (i j h l v : Nat) (s : State) : (setFld r i j h l v s).pkg = s.pkg := rfl
@[simp] theorem setFld_pkgOver (r : Reg) (i j h l v : Nat) (s : State) : (setFld r i j h l v s).pkgOver = s.pkgOver := rfl
@[simp] theorem setFld_feedOver (r : Reg) (i j h l v : Nat) (s : State) : (setFld r i j h l v s).feedOver = s.feedOver := rfl
@[simp] theorem setFld_rails (r : Reg) (i j h l v : Nat) (s : State) : (setFld r i j h l v s).rails = s.rails := rfl
@[simp] theorem setFld_convs (r : Reg) (i j h l v : Nat) (s : State) : (setFld r i j h l v s).convs = s.convs := rfl
@[simp] theorem setFld_cutAt (r : Reg) (i j h l v : Nat) (s : State) : (setFld r i j h l v s).cutAt = s.cutAt := rfl
@[simp] theorem setFld_emergAt (r : Reg) (i j h l v : Nat) (s : State) : (setFld r i j h l v s).emergAt = s.emergAt := rfl
@[simp] theorem setFld_shadow (r : Reg) (i j h l v : Nat) (s : State) : (setFld r i j h l v s).shadow = s.shadow := rfl
@[simp] theorem setFld_planAt (r : Reg) (i j h l v : Nat) (s : State) : (setFld r i j h l v s).planAt = s.planAt := rfl
@[simp] theorem setFld_planNow (r : Reg) (i j h l v : Nat) (s : State) : (setFld r i j h l v s).planNow = s.planNow := rfl
@[simp] theorem setFld_clocksOn (r : Reg) (i j h l v : Nat) (s : State) : (setFld r i j h l v s).clocksOn = s.clocksOn := rfl
@[simp] theorem setFld_planFeed (r : Reg) (i j h l v : Nat) (s : State) : (setFld r i j h l v s).planFeed = s.planFeed := rfl
@[simp] theorem setFld_minRefresh (r : Reg) (i j h l v : Nat) (s : State) : (setFld r i j h l v s).minRefresh = s.minRefresh := rfl
@[simp] theorem setFld_planRefresh (r : Reg) (i j h l v : Nat) (s : State) : (setFld r i j h l v s).planRefresh = s.planRefresh := rfl
@[simp] theorem setFld_refBand (r : Reg) (i j h l v : Nat) (s : State) : (setFld r i j h l v s).refBand = s.refBand := rfl
@[simp] theorem setFld_overlay (r : Reg) (i j h l v : Nat) (s : State) : (setFld r i j h l v s).overlay = s.overlay := rfl
@[simp] theorem setFld_calBusy (r : Reg) (i j h l v : Nat) (s : State) : (setFld r i j h l v s).calBusy = s.calBusy := rfl
@[simp] theorem setFld_ndl (r : Reg) (i j h l v : Nat) (s : State) : (setFld r i j h l v s).ndl = s.ndl := rfl
@[simp] theorem setFld_uciTlb (r : Reg) (i j h l v : Nat) (s : State) : (setFld r i j h l v s).uciTlb = s.uciTlb := rfl
@[simp] theorem setFld_uciOff (r : Reg) (i j h l v : Nat) (s : State) : (setFld r i j h l v s).uciOff = s.uciOff := rfl
@[simp] theorem setFld_uciDown (r : Reg) (i j h l v : Nat) (s : State) : (setFld r i j h l v s).uciDown = s.uciDown := rfl
@[simp] theorem setFld_loopAt (r : Reg) (i j h l v : Nat) (s : State) : (setFld r i j h l v s).loopAt = s.loopAt := rfl
@[simp] theorem setFld_inReset (r : Reg) (i j h l v : Nat) (s : State) : (setFld r i j h l v s).inReset = s.inReset := rfl
@[simp] theorem setFld_resetAt (r : Reg) (i j h l v : Nat) (s : State) : (setFld r i j h l v s).resetAt = s.resetAt := rfl
@[simp] theorem setFld_refLost (r : Reg) (i j h l v : Nat) (s : State) : (setFld r i j h l v s).refLost = s.refLost := rfl
@[simp] theorem setFld_tripped (r : Reg) (i j h l v : Nat) (s : State) : (setFld r i j h l v s).tripped = s.tripped := rfl
@[simp] theorem setFld_pllLock (r : Reg) (i j h l v : Nat) (s : State) : (setFld r i j h l v s).pllLock = s.pllLock := rfl
@[simp] theorem setFld_regsUp (r : Reg) (i j h l v : Nat) (s : State) : (setFld r i j h l v s).regsUp = s.regsUp := rfl
@[simp] theorem setFld_idsRead (r : Reg) (i j h l v : Nat) (s : State) : (setFld r i j h l v s).idsRead = s.idsRead := rfl
@[simp] theorem setFld_hostsUp (r : Reg) (i j h l v : Nat) (s : State) : (setFld r i j h l v s).hostsUp = s.hostsUp := rfl
@[simp] theorem setFld_absent (r : Reg) (i j h l v : Nat) (s : State) : (setFld r i j h l v s).absent = s.absent := rfl
@[simp] theorem setFld_rstLow (r : Reg) (i j h l v : Nat) (s : State) : (setFld r i j h l v s).rstLow = s.rstLow := rfl
@[simp] theorem setFld_pending (r : Reg) (i j h l v : Nat) (s : State) : (setFld r i j h l v s).pending = s.pending := rfl

/-! ## setBench -/

@[simp] theorem setBench_time (b : Nat) (x : Bench) (s : State) : (setBench b x s).time = s.time := rfl
@[simp] theorem setBench_free (b : Nat) (x : Bench) (s : State) : (setBench b x s).free = s.free := rfl
@[simp] theorem setBench_out (b : Nat) (x : Bench) (s : State) : (setBench b x s).out = s.out := rfl
@[simp] theorem setBench_ctl (b : Nat) (x : Bench) (s : State) : (setBench b x s).ctl = s.ctl := rfl
@[simp] theorem setBench_paths (b : Nat) (x : Bench) (s : State) : (setBench b x s).paths = s.paths := rfl
@[simp] theorem setBench_benches (b : Nat) (x : Bench) (s : State) : (setBench b x s).benches = tset s.benches b x := rfl
@[simp] theorem setBench_parts (b : Nat) (x : Bench) (s : State) : (setBench b x s).parts = s.parts := rfl
@[simp] theorem setBench_frames (b : Nat) (x : Bench) (s : State) : (setBench b x s).frames = s.frames := rfl
@[simp] theorem setBench_scrubQ (b : Nat) (x : Bench) (s : State) : (setBench b x s).scrubQ = s.scrubQ := rfl
@[simp] theorem setBench_walks (b : Nat) (x : Bench) (s : State) : (setBench b x s).walks = s.walks := rfl
@[simp] theorem setBench_progs (b : Nat) (x : Bench) (s : State) : (setBench b x s).progs = s.progs := rfl
@[simp] theorem setBench_nextProg (b : Nat) (x : Bench) (s : State) : (setBench b x s).nextProg = s.nextProg := rfl
@[simp] theorem setBench_reports (b : Nat) (x : Bench) (s : State) : (setBench b x s).reports = s.reports := rfl
@[simp] theorem setBench_mem (b : Nat) (x : Bench) (s : State) : (setBench b x s).mem = s.mem := rfl
@[simp] theorem setBench_poison (b : Nat) (x : Bench) (s : State) : (setBench b x s).poison = s.poison := rfl
@[simp] theorem setBench_flaws (b : Nat) (x : Bench) (s : State) : (setBench b x s).flaws = s.flaws := rfl
@[simp] theorem setBench_tables (b : Nat) (x : Bench) (s : State) : (setBench b x s).tables = s.tables := rfl
@[simp] theorem setBench_reserveOut (b : Nat) (x : Bench) (s : State) : (setBench b x s).reserveOut = s.reserveOut := rfl
@[simp] theorem setBench_pcErrs (b : Nat) (x : Bench) (s : State) : (setBench b x s).pcErrs = s.pcErrs := rfl
@[simp] theorem setBench_rowErrs (b : Nat) (x : Bench) (s : State) : (setBench b x s).rowErrs = s.rowErrs := rfl
@[simp] theorem setBench_sparesUsed (b : Nat) (x : Bench) (s : State) : (setBench b x s).sparesUsed = s.sparesUsed := rfl
@[simp] theorem setBench_scrubbed (b : Nat) (x : Bench) (s : State) : (setBench b x s).scrubbed = s.scrubbed := rfl
@[simp] theorem setBench_quotaErr (b : Nat) (x : Bench) (s : State) : (setBench b x s).quotaErr = s.quotaErr := rfl
@[simp] theorem setBench_units (b : Nat) (x : Bench) (s : State) : (setBench b x s).units = s.units := rfl
@[simp] theorem setBench_telQ (b : Nat) (x : Bench) (s : State) : (setBench b x s).telQ = s.telQ := rfl
@[simp] theorem setBench_i3cQ (b : Nat) (x : Bench) (s : State) : (setBench b x s).i3cQ = s.i3cQ := rfl
@[simp] theorem setBench_census (b : Nat) (x : Bench) (s : State) : (setBench b x s).census = s.census := rfl
@[simp] theorem setBench_censuses (b : Nat) (x : Bench) (s : State) : (setBench b x s).censuses = s.censuses := rfl
@[simp] theorem setBench_rops (b : Nat) (x : Bench) (s : State) : (setBench b x s).rops = s.rops := rfl
@[simp] theorem setBench_nextRop (b : Nat) (x : Bench) (s : State) : (setBench b x s).nextRop = s.nextRop := rfl
@[simp] theorem setBench_txns (b : Nat) (x : Bench) (s : State) : (setBench b x s).txns = s.txns := rfl
@[simp] theorem setBench_sendQ (b : Nat) (x : Bench) (s : State) : (setBench b x s).sendQ = s.sendQ := rfl
@[simp] theorem setBench_pairs (b : Nat) (x : Bench) (s : State) : (setBench b x s).pairs = s.pairs := rfl
@[simp] theorem setBench_sources (b : Nat) (x : Bench) (s : State) : (setBench b x s).sources = s.sources := rfl
@[simp] theorem setBench_accepted (b : Nat) (x : Bench) (s : State) : (setBench b x s).accepted = s.accepted := rfl
@[simp] theorem setBench_owners (b : Nat) (x : Bench) (s : State) : (setBench b x s).owners = s.owners := rfl
@[simp] theorem setBench_reqs (b : Nat) (x : Bench) (s : State) : (setBench b x s).reqs = s.reqs := rfl
@[simp] theorem setBench_nextReq (b : Nat) (x : Bench) (s : State) : (setBench b x s).nextReq = s.nextReq := rfl
@[simp] theorem setBench_engines (b : Nat) (x : Bench) (s : State) : (setBench b x s).engines = s.engines := rfl
@[simp] theorem setBench_qps (b : Nat) (x : Bench) (s : State) : (setBench b x s).qps = s.qps := rfl
@[simp] theorem setBench_nextQp (b : Nat) (x : Bench) (s : State) : (setBench b x s).nextQp = s.nextQp := rfl
@[simp] theorem setBench_fabActive (b : Nat) (x : Bench) (s : State) : (setBench b x s).fabActive = s.fabActive := rfl
@[simp] theorem setBench_fabOld (b : Nat) (x : Bench) (s : State) : (setBench b x s).fabOld = s.fabOld := rfl
@[simp] theorem setBench_fabShadow (b : Nat) (x : Bench) (s : State) : (setBench b x s).fabShadow = s.fabShadow := rfl
@[simp] theorem setBench_epoch (b : Nat) (x : Bench) (s : State) : (setBench b x s).epoch = s.epoch := rfl
@[simp] theorem setBench_swapped (b : Nat) (x : Bench) (s : State) : (setBench b x s).swapped = s.swapped := rfl
@[simp] theorem setBench_drainAt (b : Nat) (x : Bench) (s : State) : (setBench b x s).drainAt = s.drainAt := rfl
@[simp] theorem setBench_drainWarned (b : Nat) (x : Bench) (s : State) : (setBench b x s).drainWarned = s.drainWarned := rfl
@[simp] theorem setBench_sentMarks (b : Nat) (x : Bench) (s : State) : (setBench b x s).sentMarks = s.sentMarks := rfl
@[simp] theorem setBench_links (b : Nat) (x : Bench) (s : State) : (setBench b x s).links = s.links := rfl
@[simp] theorem setBench_ordPaths (b : Nat) (x : Bench) (s : State) : (setBench b x s).ordPaths = s.ordPaths := rfl
@[simp] theorem setBench_arrived (b : Nat) (x : Bench) (s : State) : (setBench b x s).arrived = s.arrived := rfl
@[simp] theorem setBench_stewardQ (b : Nat) (x : Bench) (s : State) : (setBench b x s).stewardQ = s.stewardQ := rfl
@[simp] theorem setBench_helloFrom (b : Nat) (x : Bench) (s : State) : (setBench b x s).helloFrom = s.helloFrom := rfl
@[simp] theorem setBench_fabMap (b : Nat) (x : Bench) (s : State) : (setBench b x s).fabMap = s.fabMap := rfl
@[simp] theorem setBench_discovered (b : Nat) (x : Bench) (s : State) : (setBench b x s).discovered = s.discovered := rfl
@[simp] theorem setBench_fabReady (b : Nat) (x : Bench) (s : State) : (setBench b x s).fabReady = s.fabReady := rfl
@[simp] theorem setBench_wxAt (b : Nat) (x : Bench) (s : State) : (setBench b x s).wxAt = s.wxAt := rfl
@[simp] theorem setBench_wxPeriod (b : Nat) (x : Bench) (s : State) : (setBench b x s).wxPeriod = s.wxPeriod := rfl
@[simp] theorem setBench_wxDrops (b : Nat) (x : Bench) (s : State) : (setBench b x s).wxDrops = s.wxDrops := rfl
@[simp] theorem setBench_wxReplays (b : Nat) (x : Bench) (s : State) : (setBench b x s).wxReplays = s.wxReplays := rfl
@[simp] theorem setBench_drops (b : Nat) (x : Bench) (s : State) : (setBench b x s).drops = s.drops := rfl
@[simp] theorem setBench_notices (b : Nat) (x : Bench) (s : State) : (setBench b x s).notices = s.notices := rfl
@[simp] theorem setBench_colls (b : Nat) (x : Bench) (s : State) : (setBench b x s).colls = s.colls := rfl
@[simp] theorem setBench_nextColl (b : Nat) (x : Bench) (s : State) : (setBench b x s).nextColl = s.nextColl := rfl
@[simp] theorem setBench_groups (b : Nat) (x : Bench) (s : State) : (setBench b x s).groups = s.groups := rfl
@[simp] theorem setBench_mailboxes (b : Nat) (x : Bench) (s : State) : (setBench b x s).mailboxes = s.mailboxes := rfl
@[simp] theorem setBench_sessions (b : Nat) (x : Bench) (s : State) : (setBench b x s).sessions = s.sessions := rfl
@[simp] theorem setBench_adminEvsub (b : Nat) (x : Bench) (s : State) : (setBench b x s).adminEvsub = s.adminEvsub := rfl
@[simp] theorem setBench_flash (b : Nat) (x : Bench) (s : State) : (setBench b x s).flash = s.flash := rfl
@[simp] theorem setBench_otp (b : Nat) (x : Bench) (s : State) : (setBench b x s).otp = s.otp := rfl
@[simp] theorem setBench_mrs (b : Nat) (x : Bench) (s : State) : (setBench b x s).mrs = s.mrs := rfl
@[simp] theorem setBench_bootAt (b : Nat) (x : Bench) (s : State) : (setBench b x s).bootAt = s.bootAt := rfl
@[simp] theorem setBench_bootB (b : Nat) (x : Bench) (s : State) : (setBench b x s).bootB = s.bootB := rfl
@[simp] theorem setBench_verified (b : Nat) (x : Bench) (s : State) : (setBench b x s).verified = s.verified := rfl
@[simp] theorem setBench_recovery (b : Nat) (x : Bench) (s : State) : (setBench b x s).recovery = s.recovery := rfl
@[simp] theorem setBench_keysReady (b : Nat) (x : Bench) (s : State) : (setBench b x s).keysReady = s.keysReady := rfl
@[simp] theorem setBench_images (b : Nat) (x : Bench) (s : State) : (setBench b x s).images = s.images := rfl
@[simp] theorem setBench_bootCfg (b : Nat) (x : Bench) (s : State) : (setBench b x s).bootCfg = s.bootCfg := rfl
@[simp] theorem setBench_cfgDigest (b : Nat) (x : Bench) (s : State) : (setBench b x s).cfgDigest = s.cfgDigest := rfl
@[simp] theorem setBench_mapDigest (b : Nat) (x : Bench) (s : State) : (setBench b x s).mapDigest = s.mapDigest := rfl
@[simp] theorem setBench_restarts (b : Nat) (x : Bench) (s : State) : (setBench b x s).restarts = s.restarts := rfl
@[simp] theorem setBench_duties (b : Nat) (x : Bench) (s : State) : (setBench b x s).duties = s.duties := rfl
@[simp] theorem setBench_stewardGone (b : Nat) (x : Bench) (s : State) : (setBench b x s).stewardGone = s.stewardGone := rfl
@[simp] theorem setBench_update (b : Nat) (x : Bench) (s : State) : (setBench b x s).update = s.update := rfl
@[simp] theorem setBench_deferred (b : Nat) (x : Bench) (s : State) : (setBench b x s).deferred = s.deferred := rfl
@[simp] theorem setBench_signQ (b : Nat) (x : Bench) (s : State) : (setBench b x s).signQ = s.signQ := rfl
@[simp] theorem setBench_conns (b : Nat) (x : Bench) (s : State) : (setBench b x s).conns = s.conns := rfl
@[simp] theorem setBench_nextConn (b : Nat) (x : Bench) (s : State) : (setBench b x s).nextConn = s.nextConn := rfl
@[simp] theorem setBench_owned (b : Nat) (x : Bench) (s : State) : (setBench b x s).owned = s.owned := rfl
@[simp] theorem setBench_noRestart (b : Nat) (x : Bench) (s : State) : (setBench b x s).noRestart = s.noRestart := rfl
@[simp] theorem setBench_sectors (b : Nat) (x : Bench) (s : State) : (setBench b x s).sectors = s.sectors := rfl
@[simp] theorem setBench_pkg (b : Nat) (x : Bench) (s : State) : (setBench b x s).pkg = s.pkg := rfl
@[simp] theorem setBench_pkgOver (b : Nat) (x : Bench) (s : State) : (setBench b x s).pkgOver = s.pkgOver := rfl
@[simp] theorem setBench_feedOver (b : Nat) (x : Bench) (s : State) : (setBench b x s).feedOver = s.feedOver := rfl
@[simp] theorem setBench_rails (b : Nat) (x : Bench) (s : State) : (setBench b x s).rails = s.rails := rfl
@[simp] theorem setBench_convs (b : Nat) (x : Bench) (s : State) : (setBench b x s).convs = s.convs := rfl
@[simp] theorem setBench_cutAt (b : Nat) (x : Bench) (s : State) : (setBench b x s).cutAt = s.cutAt := rfl
@[simp] theorem setBench_emergAt (b : Nat) (x : Bench) (s : State) : (setBench b x s).emergAt = s.emergAt := rfl
@[simp] theorem setBench_shadow (b : Nat) (x : Bench) (s : State) : (setBench b x s).shadow = s.shadow := rfl
@[simp] theorem setBench_planAt (b : Nat) (x : Bench) (s : State) : (setBench b x s).planAt = s.planAt := rfl
@[simp] theorem setBench_planNow (b : Nat) (x : Bench) (s : State) : (setBench b x s).planNow = s.planNow := rfl
@[simp] theorem setBench_clocksOn (b : Nat) (x : Bench) (s : State) : (setBench b x s).clocksOn = s.clocksOn := rfl
@[simp] theorem setBench_planFeed (b : Nat) (x : Bench) (s : State) : (setBench b x s).planFeed = s.planFeed := rfl
@[simp] theorem setBench_minRefresh (b : Nat) (x : Bench) (s : State) : (setBench b x s).minRefresh = s.minRefresh := rfl
@[simp] theorem setBench_planRefresh (b : Nat) (x : Bench) (s : State) : (setBench b x s).planRefresh = s.planRefresh := rfl
@[simp] theorem setBench_refBand (b : Nat) (x : Bench) (s : State) : (setBench b x s).refBand = s.refBand := rfl
@[simp] theorem setBench_overlay (b : Nat) (x : Bench) (s : State) : (setBench b x s).overlay = s.overlay := rfl
@[simp] theorem setBench_calBusy (b : Nat) (x : Bench) (s : State) : (setBench b x s).calBusy = s.calBusy := rfl
@[simp] theorem setBench_ndl (b : Nat) (x : Bench) (s : State) : (setBench b x s).ndl = s.ndl := rfl
@[simp] theorem setBench_uciTlb (b : Nat) (x : Bench) (s : State) : (setBench b x s).uciTlb = s.uciTlb := rfl
@[simp] theorem setBench_uciOff (b : Nat) (x : Bench) (s : State) : (setBench b x s).uciOff = s.uciOff := rfl
@[simp] theorem setBench_uciDown (b : Nat) (x : Bench) (s : State) : (setBench b x s).uciDown = s.uciDown := rfl
@[simp] theorem setBench_loopAt (b : Nat) (x : Bench) (s : State) : (setBench b x s).loopAt = s.loopAt := rfl
@[simp] theorem setBench_inReset (b : Nat) (x : Bench) (s : State) : (setBench b x s).inReset = s.inReset := rfl
@[simp] theorem setBench_resetAt (b : Nat) (x : Bench) (s : State) : (setBench b x s).resetAt = s.resetAt := rfl
@[simp] theorem setBench_refLost (b : Nat) (x : Bench) (s : State) : (setBench b x s).refLost = s.refLost := rfl
@[simp] theorem setBench_tripped (b : Nat) (x : Bench) (s : State) : (setBench b x s).tripped = s.tripped := rfl
@[simp] theorem setBench_pllLock (b : Nat) (x : Bench) (s : State) : (setBench b x s).pllLock = s.pllLock := rfl
@[simp] theorem setBench_regsUp (b : Nat) (x : Bench) (s : State) : (setBench b x s).regsUp = s.regsUp := rfl
@[simp] theorem setBench_idsRead (b : Nat) (x : Bench) (s : State) : (setBench b x s).idsRead = s.idsRead := rfl
@[simp] theorem setBench_hostsUp (b : Nat) (x : Bench) (s : State) : (setBench b x s).hostsUp = s.hostsUp := rfl
@[simp] theorem setBench_absent (b : Nat) (x : Bench) (s : State) : (setBench b x s).absent = s.absent := rfl
@[simp] theorem setBench_rstLow (b : Nat) (x : Bench) (s : State) : (setBench b x s).rstLow = s.rstLow := rfl
@[simp] theorem setBench_pending (b : Nat) (x : Bench) (s : State) : (setBench b x s).pending = s.pending := rfl

/-! ## setPartition -/

@[simp] theorem setPartition_time (p : Nat) (x : Partition) (s : State) : (setPartition p x s).time = s.time := rfl
@[simp] theorem setPartition_free (p : Nat) (x : Partition) (s : State) : (setPartition p x s).free = s.free := rfl
@[simp] theorem setPartition_out (p : Nat) (x : Partition) (s : State) : (setPartition p x s).out = s.out := rfl
@[simp] theorem setPartition_ctl (p : Nat) (x : Partition) (s : State) : (setPartition p x s).ctl = s.ctl := rfl
@[simp] theorem setPartition_paths (p : Nat) (x : Partition) (s : State) : (setPartition p x s).paths = s.paths := rfl
@[simp] theorem setPartition_benches (p : Nat) (x : Partition) (s : State) : (setPartition p x s).benches = s.benches := rfl
@[simp] theorem setPartition_parts (p : Nat) (x : Partition) (s : State) : (setPartition p x s).parts = tset s.parts p x := rfl
@[simp] theorem setPartition_frames (p : Nat) (x : Partition) (s : State) : (setPartition p x s).frames = s.frames := rfl
@[simp] theorem setPartition_scrubQ (p : Nat) (x : Partition) (s : State) : (setPartition p x s).scrubQ = s.scrubQ := rfl
@[simp] theorem setPartition_walks (p : Nat) (x : Partition) (s : State) : (setPartition p x s).walks = s.walks := rfl
@[simp] theorem setPartition_progs (p : Nat) (x : Partition) (s : State) : (setPartition p x s).progs = s.progs := rfl
@[simp] theorem setPartition_nextProg (p : Nat) (x : Partition) (s : State) : (setPartition p x s).nextProg = s.nextProg := rfl
@[simp] theorem setPartition_reports (p : Nat) (x : Partition) (s : State) : (setPartition p x s).reports = s.reports := rfl
@[simp] theorem setPartition_mem (p : Nat) (x : Partition) (s : State) : (setPartition p x s).mem = s.mem := rfl
@[simp] theorem setPartition_poison (p : Nat) (x : Partition) (s : State) : (setPartition p x s).poison = s.poison := rfl
@[simp] theorem setPartition_flaws (p : Nat) (x : Partition) (s : State) : (setPartition p x s).flaws = s.flaws := rfl
@[simp] theorem setPartition_tables (p : Nat) (x : Partition) (s : State) : (setPartition p x s).tables = s.tables := rfl
@[simp] theorem setPartition_reserveOut (p : Nat) (x : Partition) (s : State) : (setPartition p x s).reserveOut = s.reserveOut := rfl
@[simp] theorem setPartition_pcErrs (p : Nat) (x : Partition) (s : State) : (setPartition p x s).pcErrs = s.pcErrs := rfl
@[simp] theorem setPartition_rowErrs (p : Nat) (x : Partition) (s : State) : (setPartition p x s).rowErrs = s.rowErrs := rfl
@[simp] theorem setPartition_sparesUsed (p : Nat) (x : Partition) (s : State) : (setPartition p x s).sparesUsed = s.sparesUsed := rfl
@[simp] theorem setPartition_scrubbed (p : Nat) (x : Partition) (s : State) : (setPartition p x s).scrubbed = s.scrubbed := rfl
@[simp] theorem setPartition_quotaErr (p : Nat) (x : Partition) (s : State) : (setPartition p x s).quotaErr = s.quotaErr := rfl
@[simp] theorem setPartition_units (p : Nat) (x : Partition) (s : State) : (setPartition p x s).units = s.units := rfl
@[simp] theorem setPartition_telQ (p : Nat) (x : Partition) (s : State) : (setPartition p x s).telQ = s.telQ := rfl
@[simp] theorem setPartition_i3cQ (p : Nat) (x : Partition) (s : State) : (setPartition p x s).i3cQ = s.i3cQ := rfl
@[simp] theorem setPartition_census (p : Nat) (x : Partition) (s : State) : (setPartition p x s).census = s.census := rfl
@[simp] theorem setPartition_censuses (p : Nat) (x : Partition) (s : State) : (setPartition p x s).censuses = s.censuses := rfl
@[simp] theorem setPartition_rops (p : Nat) (x : Partition) (s : State) : (setPartition p x s).rops = s.rops := rfl
@[simp] theorem setPartition_nextRop (p : Nat) (x : Partition) (s : State) : (setPartition p x s).nextRop = s.nextRop := rfl
@[simp] theorem setPartition_txns (p : Nat) (x : Partition) (s : State) : (setPartition p x s).txns = s.txns := rfl
@[simp] theorem setPartition_sendQ (p : Nat) (x : Partition) (s : State) : (setPartition p x s).sendQ = s.sendQ := rfl
@[simp] theorem setPartition_pairs (p : Nat) (x : Partition) (s : State) : (setPartition p x s).pairs = s.pairs := rfl
@[simp] theorem setPartition_sources (p : Nat) (x : Partition) (s : State) : (setPartition p x s).sources = s.sources := rfl
@[simp] theorem setPartition_accepted (p : Nat) (x : Partition) (s : State) : (setPartition p x s).accepted = s.accepted := rfl
@[simp] theorem setPartition_owners (p : Nat) (x : Partition) (s : State) : (setPartition p x s).owners = s.owners := rfl
@[simp] theorem setPartition_reqs (p : Nat) (x : Partition) (s : State) : (setPartition p x s).reqs = s.reqs := rfl
@[simp] theorem setPartition_nextReq (p : Nat) (x : Partition) (s : State) : (setPartition p x s).nextReq = s.nextReq := rfl
@[simp] theorem setPartition_engines (p : Nat) (x : Partition) (s : State) : (setPartition p x s).engines = s.engines := rfl
@[simp] theorem setPartition_qps (p : Nat) (x : Partition) (s : State) : (setPartition p x s).qps = s.qps := rfl
@[simp] theorem setPartition_nextQp (p : Nat) (x : Partition) (s : State) : (setPartition p x s).nextQp = s.nextQp := rfl
@[simp] theorem setPartition_fabActive (p : Nat) (x : Partition) (s : State) : (setPartition p x s).fabActive = s.fabActive := rfl
@[simp] theorem setPartition_fabOld (p : Nat) (x : Partition) (s : State) : (setPartition p x s).fabOld = s.fabOld := rfl
@[simp] theorem setPartition_fabShadow (p : Nat) (x : Partition) (s : State) : (setPartition p x s).fabShadow = s.fabShadow := rfl
@[simp] theorem setPartition_epoch (p : Nat) (x : Partition) (s : State) : (setPartition p x s).epoch = s.epoch := rfl
@[simp] theorem setPartition_swapped (p : Nat) (x : Partition) (s : State) : (setPartition p x s).swapped = s.swapped := rfl
@[simp] theorem setPartition_drainAt (p : Nat) (x : Partition) (s : State) : (setPartition p x s).drainAt = s.drainAt := rfl
@[simp] theorem setPartition_drainWarned (p : Nat) (x : Partition) (s : State) : (setPartition p x s).drainWarned = s.drainWarned := rfl
@[simp] theorem setPartition_sentMarks (p : Nat) (x : Partition) (s : State) : (setPartition p x s).sentMarks = s.sentMarks := rfl
@[simp] theorem setPartition_links (p : Nat) (x : Partition) (s : State) : (setPartition p x s).links = s.links := rfl
@[simp] theorem setPartition_ordPaths (p : Nat) (x : Partition) (s : State) : (setPartition p x s).ordPaths = s.ordPaths := rfl
@[simp] theorem setPartition_arrived (p : Nat) (x : Partition) (s : State) : (setPartition p x s).arrived = s.arrived := rfl
@[simp] theorem setPartition_stewardQ (p : Nat) (x : Partition) (s : State) : (setPartition p x s).stewardQ = s.stewardQ := rfl
@[simp] theorem setPartition_helloFrom (p : Nat) (x : Partition) (s : State) : (setPartition p x s).helloFrom = s.helloFrom := rfl
@[simp] theorem setPartition_fabMap (p : Nat) (x : Partition) (s : State) : (setPartition p x s).fabMap = s.fabMap := rfl
@[simp] theorem setPartition_discovered (p : Nat) (x : Partition) (s : State) : (setPartition p x s).discovered = s.discovered := rfl
@[simp] theorem setPartition_fabReady (p : Nat) (x : Partition) (s : State) : (setPartition p x s).fabReady = s.fabReady := rfl
@[simp] theorem setPartition_wxAt (p : Nat) (x : Partition) (s : State) : (setPartition p x s).wxAt = s.wxAt := rfl
@[simp] theorem setPartition_wxPeriod (p : Nat) (x : Partition) (s : State) : (setPartition p x s).wxPeriod = s.wxPeriod := rfl
@[simp] theorem setPartition_wxDrops (p : Nat) (x : Partition) (s : State) : (setPartition p x s).wxDrops = s.wxDrops := rfl
@[simp] theorem setPartition_wxReplays (p : Nat) (x : Partition) (s : State) : (setPartition p x s).wxReplays = s.wxReplays := rfl
@[simp] theorem setPartition_drops (p : Nat) (x : Partition) (s : State) : (setPartition p x s).drops = s.drops := rfl
@[simp] theorem setPartition_notices (p : Nat) (x : Partition) (s : State) : (setPartition p x s).notices = s.notices := rfl
@[simp] theorem setPartition_colls (p : Nat) (x : Partition) (s : State) : (setPartition p x s).colls = s.colls := rfl
@[simp] theorem setPartition_nextColl (p : Nat) (x : Partition) (s : State) : (setPartition p x s).nextColl = s.nextColl := rfl
@[simp] theorem setPartition_groups (p : Nat) (x : Partition) (s : State) : (setPartition p x s).groups = s.groups := rfl
@[simp] theorem setPartition_mailboxes (p : Nat) (x : Partition) (s : State) : (setPartition p x s).mailboxes = s.mailboxes := rfl
@[simp] theorem setPartition_sessions (p : Nat) (x : Partition) (s : State) : (setPartition p x s).sessions = s.sessions := rfl
@[simp] theorem setPartition_adminEvsub (p : Nat) (x : Partition) (s : State) : (setPartition p x s).adminEvsub = s.adminEvsub := rfl
@[simp] theorem setPartition_flash (p : Nat) (x : Partition) (s : State) : (setPartition p x s).flash = s.flash := rfl
@[simp] theorem setPartition_otp (p : Nat) (x : Partition) (s : State) : (setPartition p x s).otp = s.otp := rfl
@[simp] theorem setPartition_mrs (p : Nat) (x : Partition) (s : State) : (setPartition p x s).mrs = s.mrs := rfl
@[simp] theorem setPartition_bootAt (p : Nat) (x : Partition) (s : State) : (setPartition p x s).bootAt = s.bootAt := rfl
@[simp] theorem setPartition_bootB (p : Nat) (x : Partition) (s : State) : (setPartition p x s).bootB = s.bootB := rfl
@[simp] theorem setPartition_verified (p : Nat) (x : Partition) (s : State) : (setPartition p x s).verified = s.verified := rfl
@[simp] theorem setPartition_recovery (p : Nat) (x : Partition) (s : State) : (setPartition p x s).recovery = s.recovery := rfl
@[simp] theorem setPartition_keysReady (p : Nat) (x : Partition) (s : State) : (setPartition p x s).keysReady = s.keysReady := rfl
@[simp] theorem setPartition_images (p : Nat) (x : Partition) (s : State) : (setPartition p x s).images = s.images := rfl
@[simp] theorem setPartition_bootCfg (p : Nat) (x : Partition) (s : State) : (setPartition p x s).bootCfg = s.bootCfg := rfl
@[simp] theorem setPartition_cfgDigest (p : Nat) (x : Partition) (s : State) : (setPartition p x s).cfgDigest = s.cfgDigest := rfl
@[simp] theorem setPartition_mapDigest (p : Nat) (x : Partition) (s : State) : (setPartition p x s).mapDigest = s.mapDigest := rfl
@[simp] theorem setPartition_restarts (p : Nat) (x : Partition) (s : State) : (setPartition p x s).restarts = s.restarts := rfl
@[simp] theorem setPartition_duties (p : Nat) (x : Partition) (s : State) : (setPartition p x s).duties = s.duties := rfl
@[simp] theorem setPartition_stewardGone (p : Nat) (x : Partition) (s : State) : (setPartition p x s).stewardGone = s.stewardGone := rfl
@[simp] theorem setPartition_update (p : Nat) (x : Partition) (s : State) : (setPartition p x s).update = s.update := rfl
@[simp] theorem setPartition_deferred (p : Nat) (x : Partition) (s : State) : (setPartition p x s).deferred = s.deferred := rfl
@[simp] theorem setPartition_signQ (p : Nat) (x : Partition) (s : State) : (setPartition p x s).signQ = s.signQ := rfl
@[simp] theorem setPartition_conns (p : Nat) (x : Partition) (s : State) : (setPartition p x s).conns = s.conns := rfl
@[simp] theorem setPartition_nextConn (p : Nat) (x : Partition) (s : State) : (setPartition p x s).nextConn = s.nextConn := rfl
@[simp] theorem setPartition_owned (p : Nat) (x : Partition) (s : State) : (setPartition p x s).owned = s.owned := rfl
@[simp] theorem setPartition_noRestart (p : Nat) (x : Partition) (s : State) : (setPartition p x s).noRestart = s.noRestart := rfl
@[simp] theorem setPartition_sectors (p : Nat) (x : Partition) (s : State) : (setPartition p x s).sectors = s.sectors := rfl
@[simp] theorem setPartition_pkg (p : Nat) (x : Partition) (s : State) : (setPartition p x s).pkg = s.pkg := rfl
@[simp] theorem setPartition_pkgOver (p : Nat) (x : Partition) (s : State) : (setPartition p x s).pkgOver = s.pkgOver := rfl
@[simp] theorem setPartition_feedOver (p : Nat) (x : Partition) (s : State) : (setPartition p x s).feedOver = s.feedOver := rfl
@[simp] theorem setPartition_rails (p : Nat) (x : Partition) (s : State) : (setPartition p x s).rails = s.rails := rfl
@[simp] theorem setPartition_convs (p : Nat) (x : Partition) (s : State) : (setPartition p x s).convs = s.convs := rfl
@[simp] theorem setPartition_cutAt (p : Nat) (x : Partition) (s : State) : (setPartition p x s).cutAt = s.cutAt := rfl
@[simp] theorem setPartition_emergAt (p : Nat) (x : Partition) (s : State) : (setPartition p x s).emergAt = s.emergAt := rfl
@[simp] theorem setPartition_shadow (p : Nat) (x : Partition) (s : State) : (setPartition p x s).shadow = s.shadow := rfl
@[simp] theorem setPartition_planAt (p : Nat) (x : Partition) (s : State) : (setPartition p x s).planAt = s.planAt := rfl
@[simp] theorem setPartition_planNow (p : Nat) (x : Partition) (s : State) : (setPartition p x s).planNow = s.planNow := rfl
@[simp] theorem setPartition_clocksOn (p : Nat) (x : Partition) (s : State) : (setPartition p x s).clocksOn = s.clocksOn := rfl
@[simp] theorem setPartition_planFeed (p : Nat) (x : Partition) (s : State) : (setPartition p x s).planFeed = s.planFeed := rfl
@[simp] theorem setPartition_minRefresh (p : Nat) (x : Partition) (s : State) : (setPartition p x s).minRefresh = s.minRefresh := rfl
@[simp] theorem setPartition_planRefresh (p : Nat) (x : Partition) (s : State) : (setPartition p x s).planRefresh = s.planRefresh := rfl
@[simp] theorem setPartition_refBand (p : Nat) (x : Partition) (s : State) : (setPartition p x s).refBand = s.refBand := rfl
@[simp] theorem setPartition_overlay (p : Nat) (x : Partition) (s : State) : (setPartition p x s).overlay = s.overlay := rfl
@[simp] theorem setPartition_calBusy (p : Nat) (x : Partition) (s : State) : (setPartition p x s).calBusy = s.calBusy := rfl
@[simp] theorem setPartition_ndl (p : Nat) (x : Partition) (s : State) : (setPartition p x s).ndl = s.ndl := rfl
@[simp] theorem setPartition_uciTlb (p : Nat) (x : Partition) (s : State) : (setPartition p x s).uciTlb = s.uciTlb := rfl
@[simp] theorem setPartition_uciOff (p : Nat) (x : Partition) (s : State) : (setPartition p x s).uciOff = s.uciOff := rfl
@[simp] theorem setPartition_uciDown (p : Nat) (x : Partition) (s : State) : (setPartition p x s).uciDown = s.uciDown := rfl
@[simp] theorem setPartition_loopAt (p : Nat) (x : Partition) (s : State) : (setPartition p x s).loopAt = s.loopAt := rfl
@[simp] theorem setPartition_inReset (p : Nat) (x : Partition) (s : State) : (setPartition p x s).inReset = s.inReset := rfl
@[simp] theorem setPartition_resetAt (p : Nat) (x : Partition) (s : State) : (setPartition p x s).resetAt = s.resetAt := rfl
@[simp] theorem setPartition_refLost (p : Nat) (x : Partition) (s : State) : (setPartition p x s).refLost = s.refLost := rfl
@[simp] theorem setPartition_tripped (p : Nat) (x : Partition) (s : State) : (setPartition p x s).tripped = s.tripped := rfl
@[simp] theorem setPartition_pllLock (p : Nat) (x : Partition) (s : State) : (setPartition p x s).pllLock = s.pllLock := rfl
@[simp] theorem setPartition_regsUp (p : Nat) (x : Partition) (s : State) : (setPartition p x s).regsUp = s.regsUp := rfl
@[simp] theorem setPartition_idsRead (p : Nat) (x : Partition) (s : State) : (setPartition p x s).idsRead = s.idsRead := rfl
@[simp] theorem setPartition_hostsUp (p : Nat) (x : Partition) (s : State) : (setPartition p x s).hostsUp = s.hostsUp := rfl
@[simp] theorem setPartition_absent (p : Nat) (x : Partition) (s : State) : (setPartition p x s).absent = s.absent := rfl
@[simp] theorem setPartition_rstLow (p : Nat) (x : Partition) (s : State) : (setPartition p x s).rstLow = s.rstLow := rfl
@[simp] theorem setPartition_pending (p : Nat) (x : Partition) (s : State) : (setPartition p x s).pending = s.pending := rfl

/-! ## setProg -/

@[simp] theorem setProg_time (n : Nat) (x : Prog) (s : State) : (setProg n x s).time = s.time := rfl
@[simp] theorem setProg_free (n : Nat) (x : Prog) (s : State) : (setProg n x s).free = s.free := rfl
@[simp] theorem setProg_out (n : Nat) (x : Prog) (s : State) : (setProg n x s).out = s.out := rfl
@[simp] theorem setProg_ctl (n : Nat) (x : Prog) (s : State) : (setProg n x s).ctl = s.ctl := rfl
@[simp] theorem setProg_paths (n : Nat) (x : Prog) (s : State) : (setProg n x s).paths = s.paths := rfl
@[simp] theorem setProg_benches (n : Nat) (x : Prog) (s : State) : (setProg n x s).benches = s.benches := rfl
@[simp] theorem setProg_parts (n : Nat) (x : Prog) (s : State) : (setProg n x s).parts = s.parts := rfl
@[simp] theorem setProg_frames (n : Nat) (x : Prog) (s : State) : (setProg n x s).frames = s.frames := rfl
@[simp] theorem setProg_scrubQ (n : Nat) (x : Prog) (s : State) : (setProg n x s).scrubQ = s.scrubQ := rfl
@[simp] theorem setProg_walks (n : Nat) (x : Prog) (s : State) : (setProg n x s).walks = s.walks := rfl
@[simp] theorem setProg_progs (n : Nat) (x : Prog) (s : State) : (setProg n x s).progs = tset s.progs n x := rfl
@[simp] theorem setProg_nextProg (n : Nat) (x : Prog) (s : State) : (setProg n x s).nextProg = s.nextProg := rfl
@[simp] theorem setProg_reports (n : Nat) (x : Prog) (s : State) : (setProg n x s).reports = s.reports := rfl
@[simp] theorem setProg_mem (n : Nat) (x : Prog) (s : State) : (setProg n x s).mem = s.mem := rfl
@[simp] theorem setProg_poison (n : Nat) (x : Prog) (s : State) : (setProg n x s).poison = s.poison := rfl
@[simp] theorem setProg_flaws (n : Nat) (x : Prog) (s : State) : (setProg n x s).flaws = s.flaws := rfl
@[simp] theorem setProg_tables (n : Nat) (x : Prog) (s : State) : (setProg n x s).tables = s.tables := rfl
@[simp] theorem setProg_reserveOut (n : Nat) (x : Prog) (s : State) : (setProg n x s).reserveOut = s.reserveOut := rfl
@[simp] theorem setProg_pcErrs (n : Nat) (x : Prog) (s : State) : (setProg n x s).pcErrs = s.pcErrs := rfl
@[simp] theorem setProg_rowErrs (n : Nat) (x : Prog) (s : State) : (setProg n x s).rowErrs = s.rowErrs := rfl
@[simp] theorem setProg_sparesUsed (n : Nat) (x : Prog) (s : State) : (setProg n x s).sparesUsed = s.sparesUsed := rfl
@[simp] theorem setProg_scrubbed (n : Nat) (x : Prog) (s : State) : (setProg n x s).scrubbed = s.scrubbed := rfl
@[simp] theorem setProg_quotaErr (n : Nat) (x : Prog) (s : State) : (setProg n x s).quotaErr = s.quotaErr := rfl
@[simp] theorem setProg_units (n : Nat) (x : Prog) (s : State) : (setProg n x s).units = s.units := rfl
@[simp] theorem setProg_telQ (n : Nat) (x : Prog) (s : State) : (setProg n x s).telQ = s.telQ := rfl
@[simp] theorem setProg_i3cQ (n : Nat) (x : Prog) (s : State) : (setProg n x s).i3cQ = s.i3cQ := rfl
@[simp] theorem setProg_census (n : Nat) (x : Prog) (s : State) : (setProg n x s).census = s.census := rfl
@[simp] theorem setProg_censuses (n : Nat) (x : Prog) (s : State) : (setProg n x s).censuses = s.censuses := rfl
@[simp] theorem setProg_rops (n : Nat) (x : Prog) (s : State) : (setProg n x s).rops = s.rops := rfl
@[simp] theorem setProg_nextRop (n : Nat) (x : Prog) (s : State) : (setProg n x s).nextRop = s.nextRop := rfl
@[simp] theorem setProg_txns (n : Nat) (x : Prog) (s : State) : (setProg n x s).txns = s.txns := rfl
@[simp] theorem setProg_sendQ (n : Nat) (x : Prog) (s : State) : (setProg n x s).sendQ = s.sendQ := rfl
@[simp] theorem setProg_pairs (n : Nat) (x : Prog) (s : State) : (setProg n x s).pairs = s.pairs := rfl
@[simp] theorem setProg_sources (n : Nat) (x : Prog) (s : State) : (setProg n x s).sources = s.sources := rfl
@[simp] theorem setProg_accepted (n : Nat) (x : Prog) (s : State) : (setProg n x s).accepted = s.accepted := rfl
@[simp] theorem setProg_owners (n : Nat) (x : Prog) (s : State) : (setProg n x s).owners = s.owners := rfl
@[simp] theorem setProg_reqs (n : Nat) (x : Prog) (s : State) : (setProg n x s).reqs = s.reqs := rfl
@[simp] theorem setProg_nextReq (n : Nat) (x : Prog) (s : State) : (setProg n x s).nextReq = s.nextReq := rfl
@[simp] theorem setProg_engines (n : Nat) (x : Prog) (s : State) : (setProg n x s).engines = s.engines := rfl
@[simp] theorem setProg_qps (n : Nat) (x : Prog) (s : State) : (setProg n x s).qps = s.qps := rfl
@[simp] theorem setProg_nextQp (n : Nat) (x : Prog) (s : State) : (setProg n x s).nextQp = s.nextQp := rfl
@[simp] theorem setProg_fabActive (n : Nat) (x : Prog) (s : State) : (setProg n x s).fabActive = s.fabActive := rfl
@[simp] theorem setProg_fabOld (n : Nat) (x : Prog) (s : State) : (setProg n x s).fabOld = s.fabOld := rfl
@[simp] theorem setProg_fabShadow (n : Nat) (x : Prog) (s : State) : (setProg n x s).fabShadow = s.fabShadow := rfl
@[simp] theorem setProg_epoch (n : Nat) (x : Prog) (s : State) : (setProg n x s).epoch = s.epoch := rfl
@[simp] theorem setProg_swapped (n : Nat) (x : Prog) (s : State) : (setProg n x s).swapped = s.swapped := rfl
@[simp] theorem setProg_drainAt (n : Nat) (x : Prog) (s : State) : (setProg n x s).drainAt = s.drainAt := rfl
@[simp] theorem setProg_drainWarned (n : Nat) (x : Prog) (s : State) : (setProg n x s).drainWarned = s.drainWarned := rfl
@[simp] theorem setProg_sentMarks (n : Nat) (x : Prog) (s : State) : (setProg n x s).sentMarks = s.sentMarks := rfl
@[simp] theorem setProg_links (n : Nat) (x : Prog) (s : State) : (setProg n x s).links = s.links := rfl
@[simp] theorem setProg_ordPaths (n : Nat) (x : Prog) (s : State) : (setProg n x s).ordPaths = s.ordPaths := rfl
@[simp] theorem setProg_arrived (n : Nat) (x : Prog) (s : State) : (setProg n x s).arrived = s.arrived := rfl
@[simp] theorem setProg_stewardQ (n : Nat) (x : Prog) (s : State) : (setProg n x s).stewardQ = s.stewardQ := rfl
@[simp] theorem setProg_helloFrom (n : Nat) (x : Prog) (s : State) : (setProg n x s).helloFrom = s.helloFrom := rfl
@[simp] theorem setProg_fabMap (n : Nat) (x : Prog) (s : State) : (setProg n x s).fabMap = s.fabMap := rfl
@[simp] theorem setProg_discovered (n : Nat) (x : Prog) (s : State) : (setProg n x s).discovered = s.discovered := rfl
@[simp] theorem setProg_fabReady (n : Nat) (x : Prog) (s : State) : (setProg n x s).fabReady = s.fabReady := rfl
@[simp] theorem setProg_wxAt (n : Nat) (x : Prog) (s : State) : (setProg n x s).wxAt = s.wxAt := rfl
@[simp] theorem setProg_wxPeriod (n : Nat) (x : Prog) (s : State) : (setProg n x s).wxPeriod = s.wxPeriod := rfl
@[simp] theorem setProg_wxDrops (n : Nat) (x : Prog) (s : State) : (setProg n x s).wxDrops = s.wxDrops := rfl
@[simp] theorem setProg_wxReplays (n : Nat) (x : Prog) (s : State) : (setProg n x s).wxReplays = s.wxReplays := rfl
@[simp] theorem setProg_drops (n : Nat) (x : Prog) (s : State) : (setProg n x s).drops = s.drops := rfl
@[simp] theorem setProg_notices (n : Nat) (x : Prog) (s : State) : (setProg n x s).notices = s.notices := rfl
@[simp] theorem setProg_colls (n : Nat) (x : Prog) (s : State) : (setProg n x s).colls = s.colls := rfl
@[simp] theorem setProg_nextColl (n : Nat) (x : Prog) (s : State) : (setProg n x s).nextColl = s.nextColl := rfl
@[simp] theorem setProg_groups (n : Nat) (x : Prog) (s : State) : (setProg n x s).groups = s.groups := rfl
@[simp] theorem setProg_mailboxes (n : Nat) (x : Prog) (s : State) : (setProg n x s).mailboxes = s.mailboxes := rfl
@[simp] theorem setProg_sessions (n : Nat) (x : Prog) (s : State) : (setProg n x s).sessions = s.sessions := rfl
@[simp] theorem setProg_adminEvsub (n : Nat) (x : Prog) (s : State) : (setProg n x s).adminEvsub = s.adminEvsub := rfl
@[simp] theorem setProg_flash (n : Nat) (x : Prog) (s : State) : (setProg n x s).flash = s.flash := rfl
@[simp] theorem setProg_otp (n : Nat) (x : Prog) (s : State) : (setProg n x s).otp = s.otp := rfl
@[simp] theorem setProg_mrs (n : Nat) (x : Prog) (s : State) : (setProg n x s).mrs = s.mrs := rfl
@[simp] theorem setProg_bootAt (n : Nat) (x : Prog) (s : State) : (setProg n x s).bootAt = s.bootAt := rfl
@[simp] theorem setProg_bootB (n : Nat) (x : Prog) (s : State) : (setProg n x s).bootB = s.bootB := rfl
@[simp] theorem setProg_verified (n : Nat) (x : Prog) (s : State) : (setProg n x s).verified = s.verified := rfl
@[simp] theorem setProg_recovery (n : Nat) (x : Prog) (s : State) : (setProg n x s).recovery = s.recovery := rfl
@[simp] theorem setProg_keysReady (n : Nat) (x : Prog) (s : State) : (setProg n x s).keysReady = s.keysReady := rfl
@[simp] theorem setProg_images (n : Nat) (x : Prog) (s : State) : (setProg n x s).images = s.images := rfl
@[simp] theorem setProg_bootCfg (n : Nat) (x : Prog) (s : State) : (setProg n x s).bootCfg = s.bootCfg := rfl
@[simp] theorem setProg_cfgDigest (n : Nat) (x : Prog) (s : State) : (setProg n x s).cfgDigest = s.cfgDigest := rfl
@[simp] theorem setProg_mapDigest (n : Nat) (x : Prog) (s : State) : (setProg n x s).mapDigest = s.mapDigest := rfl
@[simp] theorem setProg_restarts (n : Nat) (x : Prog) (s : State) : (setProg n x s).restarts = s.restarts := rfl
@[simp] theorem setProg_duties (n : Nat) (x : Prog) (s : State) : (setProg n x s).duties = s.duties := rfl
@[simp] theorem setProg_stewardGone (n : Nat) (x : Prog) (s : State) : (setProg n x s).stewardGone = s.stewardGone := rfl
@[simp] theorem setProg_update (n : Nat) (x : Prog) (s : State) : (setProg n x s).update = s.update := rfl
@[simp] theorem setProg_deferred (n : Nat) (x : Prog) (s : State) : (setProg n x s).deferred = s.deferred := rfl
@[simp] theorem setProg_signQ (n : Nat) (x : Prog) (s : State) : (setProg n x s).signQ = s.signQ := rfl
@[simp] theorem setProg_conns (n : Nat) (x : Prog) (s : State) : (setProg n x s).conns = s.conns := rfl
@[simp] theorem setProg_nextConn (n : Nat) (x : Prog) (s : State) : (setProg n x s).nextConn = s.nextConn := rfl
@[simp] theorem setProg_owned (n : Nat) (x : Prog) (s : State) : (setProg n x s).owned = s.owned := rfl
@[simp] theorem setProg_noRestart (n : Nat) (x : Prog) (s : State) : (setProg n x s).noRestart = s.noRestart := rfl
@[simp] theorem setProg_sectors (n : Nat) (x : Prog) (s : State) : (setProg n x s).sectors = s.sectors := rfl
@[simp] theorem setProg_pkg (n : Nat) (x : Prog) (s : State) : (setProg n x s).pkg = s.pkg := rfl
@[simp] theorem setProg_pkgOver (n : Nat) (x : Prog) (s : State) : (setProg n x s).pkgOver = s.pkgOver := rfl
@[simp] theorem setProg_feedOver (n : Nat) (x : Prog) (s : State) : (setProg n x s).feedOver = s.feedOver := rfl
@[simp] theorem setProg_rails (n : Nat) (x : Prog) (s : State) : (setProg n x s).rails = s.rails := rfl
@[simp] theorem setProg_convs (n : Nat) (x : Prog) (s : State) : (setProg n x s).convs = s.convs := rfl
@[simp] theorem setProg_cutAt (n : Nat) (x : Prog) (s : State) : (setProg n x s).cutAt = s.cutAt := rfl
@[simp] theorem setProg_emergAt (n : Nat) (x : Prog) (s : State) : (setProg n x s).emergAt = s.emergAt := rfl
@[simp] theorem setProg_shadow (n : Nat) (x : Prog) (s : State) : (setProg n x s).shadow = s.shadow := rfl
@[simp] theorem setProg_planAt (n : Nat) (x : Prog) (s : State) : (setProg n x s).planAt = s.planAt := rfl
@[simp] theorem setProg_planNow (n : Nat) (x : Prog) (s : State) : (setProg n x s).planNow = s.planNow := rfl
@[simp] theorem setProg_clocksOn (n : Nat) (x : Prog) (s : State) : (setProg n x s).clocksOn = s.clocksOn := rfl
@[simp] theorem setProg_planFeed (n : Nat) (x : Prog) (s : State) : (setProg n x s).planFeed = s.planFeed := rfl
@[simp] theorem setProg_minRefresh (n : Nat) (x : Prog) (s : State) : (setProg n x s).minRefresh = s.minRefresh := rfl
@[simp] theorem setProg_planRefresh (n : Nat) (x : Prog) (s : State) : (setProg n x s).planRefresh = s.planRefresh := rfl
@[simp] theorem setProg_refBand (n : Nat) (x : Prog) (s : State) : (setProg n x s).refBand = s.refBand := rfl
@[simp] theorem setProg_overlay (n : Nat) (x : Prog) (s : State) : (setProg n x s).overlay = s.overlay := rfl
@[simp] theorem setProg_calBusy (n : Nat) (x : Prog) (s : State) : (setProg n x s).calBusy = s.calBusy := rfl
@[simp] theorem setProg_ndl (n : Nat) (x : Prog) (s : State) : (setProg n x s).ndl = s.ndl := rfl
@[simp] theorem setProg_uciTlb (n : Nat) (x : Prog) (s : State) : (setProg n x s).uciTlb = s.uciTlb := rfl
@[simp] theorem setProg_uciOff (n : Nat) (x : Prog) (s : State) : (setProg n x s).uciOff = s.uciOff := rfl
@[simp] theorem setProg_uciDown (n : Nat) (x : Prog) (s : State) : (setProg n x s).uciDown = s.uciDown := rfl
@[simp] theorem setProg_loopAt (n : Nat) (x : Prog) (s : State) : (setProg n x s).loopAt = s.loopAt := rfl
@[simp] theorem setProg_inReset (n : Nat) (x : Prog) (s : State) : (setProg n x s).inReset = s.inReset := rfl
@[simp] theorem setProg_resetAt (n : Nat) (x : Prog) (s : State) : (setProg n x s).resetAt = s.resetAt := rfl
@[simp] theorem setProg_refLost (n : Nat) (x : Prog) (s : State) : (setProg n x s).refLost = s.refLost := rfl
@[simp] theorem setProg_tripped (n : Nat) (x : Prog) (s : State) : (setProg n x s).tripped = s.tripped := rfl
@[simp] theorem setProg_pllLock (n : Nat) (x : Prog) (s : State) : (setProg n x s).pllLock = s.pllLock := rfl
@[simp] theorem setProg_regsUp (n : Nat) (x : Prog) (s : State) : (setProg n x s).regsUp = s.regsUp := rfl
@[simp] theorem setProg_idsRead (n : Nat) (x : Prog) (s : State) : (setProg n x s).idsRead = s.idsRead := rfl
@[simp] theorem setProg_hostsUp (n : Nat) (x : Prog) (s : State) : (setProg n x s).hostsUp = s.hostsUp := rfl
@[simp] theorem setProg_absent (n : Nat) (x : Prog) (s : State) : (setProg n x s).absent = s.absent := rfl
@[simp] theorem setProg_rstLow (n : Nat) (x : Prog) (s : State) : (setProg n x s).rstLow = s.rstLow := rfl
@[simp] theorem setProg_pending (n : Nat) (x : Prog) (s : State) : (setProg n x s).pending = s.pending := rfl

/-! ## enqueue -/

@[simp] theorem enqueue_time (r : TelRecord) (c : Nat) (s : State) : (enqueue r c s).time = s.time := rfl
@[simp] theorem enqueue_free (r : TelRecord) (c : Nat) (s : State) : (enqueue r c s).free = s.free := rfl
@[simp] theorem enqueue_out (r : TelRecord) (c : Nat) (s : State) : (enqueue r c s).out = s.out := rfl
@[simp] theorem enqueue_ctl (r : TelRecord) (c : Nat) (s : State) : (enqueue r c s).ctl = s.ctl := rfl
@[simp] theorem enqueue_paths (r : TelRecord) (c : Nat) (s : State) : (enqueue r c s).paths = s.paths := rfl
@[simp] theorem enqueue_benches (r : TelRecord) (c : Nat) (s : State) : (enqueue r c s).benches = s.benches := rfl
@[simp] theorem enqueue_parts (r : TelRecord) (c : Nat) (s : State) : (enqueue r c s).parts = s.parts := rfl
@[simp] theorem enqueue_frames (r : TelRecord) (c : Nat) (s : State) : (enqueue r c s).frames = s.frames := rfl
@[simp] theorem enqueue_scrubQ (r : TelRecord) (c : Nat) (s : State) : (enqueue r c s).scrubQ = s.scrubQ := rfl
@[simp] theorem enqueue_walks (r : TelRecord) (c : Nat) (s : State) : (enqueue r c s).walks = s.walks := rfl
@[simp] theorem enqueue_progs (r : TelRecord) (c : Nat) (s : State) : (enqueue r c s).progs = s.progs := rfl
@[simp] theorem enqueue_nextProg (r : TelRecord) (c : Nat) (s : State) : (enqueue r c s).nextProg = s.nextProg := rfl
@[simp] theorem enqueue_reports (r : TelRecord) (c : Nat) (s : State) : (enqueue r c s).reports = s.reports := rfl
@[simp] theorem enqueue_mem (r : TelRecord) (c : Nat) (s : State) : (enqueue r c s).mem = s.mem := rfl
@[simp] theorem enqueue_poison (r : TelRecord) (c : Nat) (s : State) : (enqueue r c s).poison = s.poison := rfl
@[simp] theorem enqueue_flaws (r : TelRecord) (c : Nat) (s : State) : (enqueue r c s).flaws = s.flaws := rfl
@[simp] theorem enqueue_tables (r : TelRecord) (c : Nat) (s : State) : (enqueue r c s).tables = s.tables := rfl
@[simp] theorem enqueue_reserveOut (r : TelRecord) (c : Nat) (s : State) : (enqueue r c s).reserveOut = s.reserveOut := rfl
@[simp] theorem enqueue_pcErrs (r : TelRecord) (c : Nat) (s : State) : (enqueue r c s).pcErrs = s.pcErrs := rfl
@[simp] theorem enqueue_rowErrs (r : TelRecord) (c : Nat) (s : State) : (enqueue r c s).rowErrs = s.rowErrs := rfl
@[simp] theorem enqueue_sparesUsed (r : TelRecord) (c : Nat) (s : State) : (enqueue r c s).sparesUsed = s.sparesUsed := rfl
@[simp] theorem enqueue_scrubbed (r : TelRecord) (c : Nat) (s : State) : (enqueue r c s).scrubbed = s.scrubbed := rfl
@[simp] theorem enqueue_quotaErr (r : TelRecord) (c : Nat) (s : State) : (enqueue r c s).quotaErr = s.quotaErr := rfl
@[simp] theorem enqueue_units (r : TelRecord) (c : Nat) (s : State) : (enqueue r c s).units = s.units := rfl
@[simp] theorem enqueue_telQ (r : TelRecord) (c : Nat) (s : State) : (enqueue r c s).telQ = s.telQ ++ [⟨r, c⟩] := rfl
@[simp] theorem enqueue_i3cQ (r : TelRecord) (c : Nat) (s : State) : (enqueue r c s).i3cQ = s.i3cQ := rfl
@[simp] theorem enqueue_census (r : TelRecord) (c : Nat) (s : State) : (enqueue r c s).census = s.census := rfl
@[simp] theorem enqueue_censuses (r : TelRecord) (c : Nat) (s : State) : (enqueue r c s).censuses = s.censuses := rfl
@[simp] theorem enqueue_rops (r : TelRecord) (c : Nat) (s : State) : (enqueue r c s).rops = s.rops := rfl
@[simp] theorem enqueue_nextRop (r : TelRecord) (c : Nat) (s : State) : (enqueue r c s).nextRop = s.nextRop := rfl
@[simp] theorem enqueue_txns (r : TelRecord) (c : Nat) (s : State) : (enqueue r c s).txns = s.txns := rfl
@[simp] theorem enqueue_sendQ (r : TelRecord) (c : Nat) (s : State) : (enqueue r c s).sendQ = s.sendQ := rfl
@[simp] theorem enqueue_pairs (r : TelRecord) (c : Nat) (s : State) : (enqueue r c s).pairs = s.pairs := rfl
@[simp] theorem enqueue_sources (r : TelRecord) (c : Nat) (s : State) : (enqueue r c s).sources = s.sources := rfl
@[simp] theorem enqueue_accepted (r : TelRecord) (c : Nat) (s : State) : (enqueue r c s).accepted = s.accepted := rfl
@[simp] theorem enqueue_owners (r : TelRecord) (c : Nat) (s : State) : (enqueue r c s).owners = s.owners := rfl
@[simp] theorem enqueue_reqs (r : TelRecord) (c : Nat) (s : State) : (enqueue r c s).reqs = s.reqs := rfl
@[simp] theorem enqueue_nextReq (r : TelRecord) (c : Nat) (s : State) : (enqueue r c s).nextReq = s.nextReq := rfl
@[simp] theorem enqueue_engines (r : TelRecord) (c : Nat) (s : State) : (enqueue r c s).engines = s.engines := rfl
@[simp] theorem enqueue_qps (r : TelRecord) (c : Nat) (s : State) : (enqueue r c s).qps = s.qps := rfl
@[simp] theorem enqueue_nextQp (r : TelRecord) (c : Nat) (s : State) : (enqueue r c s).nextQp = s.nextQp := rfl
@[simp] theorem enqueue_fabActive (r : TelRecord) (c : Nat) (s : State) : (enqueue r c s).fabActive = s.fabActive := rfl
@[simp] theorem enqueue_fabOld (r : TelRecord) (c : Nat) (s : State) : (enqueue r c s).fabOld = s.fabOld := rfl
@[simp] theorem enqueue_fabShadow (r : TelRecord) (c : Nat) (s : State) : (enqueue r c s).fabShadow = s.fabShadow := rfl
@[simp] theorem enqueue_epoch (r : TelRecord) (c : Nat) (s : State) : (enqueue r c s).epoch = s.epoch := rfl
@[simp] theorem enqueue_swapped (r : TelRecord) (c : Nat) (s : State) : (enqueue r c s).swapped = s.swapped := rfl
@[simp] theorem enqueue_drainAt (r : TelRecord) (c : Nat) (s : State) : (enqueue r c s).drainAt = s.drainAt := rfl
@[simp] theorem enqueue_drainWarned (r : TelRecord) (c : Nat) (s : State) : (enqueue r c s).drainWarned = s.drainWarned := rfl
@[simp] theorem enqueue_sentMarks (r : TelRecord) (c : Nat) (s : State) : (enqueue r c s).sentMarks = s.sentMarks := rfl
@[simp] theorem enqueue_links (r : TelRecord) (c : Nat) (s : State) : (enqueue r c s).links = s.links := rfl
@[simp] theorem enqueue_ordPaths (r : TelRecord) (c : Nat) (s : State) : (enqueue r c s).ordPaths = s.ordPaths := rfl
@[simp] theorem enqueue_arrived (r : TelRecord) (c : Nat) (s : State) : (enqueue r c s).arrived = s.arrived := rfl
@[simp] theorem enqueue_stewardQ (r : TelRecord) (c : Nat) (s : State) : (enqueue r c s).stewardQ = s.stewardQ := rfl
@[simp] theorem enqueue_helloFrom (r : TelRecord) (c : Nat) (s : State) : (enqueue r c s).helloFrom = s.helloFrom := rfl
@[simp] theorem enqueue_fabMap (r : TelRecord) (c : Nat) (s : State) : (enqueue r c s).fabMap = s.fabMap := rfl
@[simp] theorem enqueue_discovered (r : TelRecord) (c : Nat) (s : State) : (enqueue r c s).discovered = s.discovered := rfl
@[simp] theorem enqueue_fabReady (r : TelRecord) (c : Nat) (s : State) : (enqueue r c s).fabReady = s.fabReady := rfl
@[simp] theorem enqueue_wxAt (r : TelRecord) (c : Nat) (s : State) : (enqueue r c s).wxAt = s.wxAt := rfl
@[simp] theorem enqueue_wxPeriod (r : TelRecord) (c : Nat) (s : State) : (enqueue r c s).wxPeriod = s.wxPeriod := rfl
@[simp] theorem enqueue_wxDrops (r : TelRecord) (c : Nat) (s : State) : (enqueue r c s).wxDrops = s.wxDrops := rfl
@[simp] theorem enqueue_wxReplays (r : TelRecord) (c : Nat) (s : State) : (enqueue r c s).wxReplays = s.wxReplays := rfl
@[simp] theorem enqueue_drops (r : TelRecord) (c : Nat) (s : State) : (enqueue r c s).drops = s.drops := rfl
@[simp] theorem enqueue_notices (r : TelRecord) (c : Nat) (s : State) : (enqueue r c s).notices = s.notices := rfl
@[simp] theorem enqueue_colls (r : TelRecord) (c : Nat) (s : State) : (enqueue r c s).colls = s.colls := rfl
@[simp] theorem enqueue_nextColl (r : TelRecord) (c : Nat) (s : State) : (enqueue r c s).nextColl = s.nextColl := rfl
@[simp] theorem enqueue_groups (r : TelRecord) (c : Nat) (s : State) : (enqueue r c s).groups = s.groups := rfl
@[simp] theorem enqueue_mailboxes (r : TelRecord) (c : Nat) (s : State) : (enqueue r c s).mailboxes = s.mailboxes := rfl
@[simp] theorem enqueue_sessions (r : TelRecord) (c : Nat) (s : State) : (enqueue r c s).sessions = s.sessions := rfl
@[simp] theorem enqueue_adminEvsub (r : TelRecord) (c : Nat) (s : State) : (enqueue r c s).adminEvsub = s.adminEvsub := rfl
@[simp] theorem enqueue_flash (r : TelRecord) (c : Nat) (s : State) : (enqueue r c s).flash = s.flash := rfl
@[simp] theorem enqueue_otp (r : TelRecord) (c : Nat) (s : State) : (enqueue r c s).otp = s.otp := rfl
@[simp] theorem enqueue_mrs (r : TelRecord) (c : Nat) (s : State) : (enqueue r c s).mrs = s.mrs := rfl
@[simp] theorem enqueue_bootAt (r : TelRecord) (c : Nat) (s : State) : (enqueue r c s).bootAt = s.bootAt := rfl
@[simp] theorem enqueue_bootB (r : TelRecord) (c : Nat) (s : State) : (enqueue r c s).bootB = s.bootB := rfl
@[simp] theorem enqueue_verified (r : TelRecord) (c : Nat) (s : State) : (enqueue r c s).verified = s.verified := rfl
@[simp] theorem enqueue_recovery (r : TelRecord) (c : Nat) (s : State) : (enqueue r c s).recovery = s.recovery := rfl
@[simp] theorem enqueue_keysReady (r : TelRecord) (c : Nat) (s : State) : (enqueue r c s).keysReady = s.keysReady := rfl
@[simp] theorem enqueue_images (r : TelRecord) (c : Nat) (s : State) : (enqueue r c s).images = s.images := rfl
@[simp] theorem enqueue_bootCfg (r : TelRecord) (c : Nat) (s : State) : (enqueue r c s).bootCfg = s.bootCfg := rfl
@[simp] theorem enqueue_cfgDigest (r : TelRecord) (c : Nat) (s : State) : (enqueue r c s).cfgDigest = s.cfgDigest := rfl
@[simp] theorem enqueue_mapDigest (r : TelRecord) (c : Nat) (s : State) : (enqueue r c s).mapDigest = s.mapDigest := rfl
@[simp] theorem enqueue_restarts (r : TelRecord) (c : Nat) (s : State) : (enqueue r c s).restarts = s.restarts := rfl
@[simp] theorem enqueue_duties (r : TelRecord) (c : Nat) (s : State) : (enqueue r c s).duties = s.duties := rfl
@[simp] theorem enqueue_stewardGone (r : TelRecord) (c : Nat) (s : State) : (enqueue r c s).stewardGone = s.stewardGone := rfl
@[simp] theorem enqueue_update (r : TelRecord) (c : Nat) (s : State) : (enqueue r c s).update = s.update := rfl
@[simp] theorem enqueue_deferred (r : TelRecord) (c : Nat) (s : State) : (enqueue r c s).deferred = s.deferred := rfl
@[simp] theorem enqueue_signQ (r : TelRecord) (c : Nat) (s : State) : (enqueue r c s).signQ = s.signQ := rfl
@[simp] theorem enqueue_conns (r : TelRecord) (c : Nat) (s : State) : (enqueue r c s).conns = s.conns := rfl
@[simp] theorem enqueue_nextConn (r : TelRecord) (c : Nat) (s : State) : (enqueue r c s).nextConn = s.nextConn := rfl
@[simp] theorem enqueue_owned (r : TelRecord) (c : Nat) (s : State) : (enqueue r c s).owned = s.owned := rfl
@[simp] theorem enqueue_noRestart (r : TelRecord) (c : Nat) (s : State) : (enqueue r c s).noRestart = s.noRestart := rfl
@[simp] theorem enqueue_sectors (r : TelRecord) (c : Nat) (s : State) : (enqueue r c s).sectors = s.sectors := rfl
@[simp] theorem enqueue_pkg (r : TelRecord) (c : Nat) (s : State) : (enqueue r c s).pkg = s.pkg := rfl
@[simp] theorem enqueue_pkgOver (r : TelRecord) (c : Nat) (s : State) : (enqueue r c s).pkgOver = s.pkgOver := rfl
@[simp] theorem enqueue_feedOver (r : TelRecord) (c : Nat) (s : State) : (enqueue r c s).feedOver = s.feedOver := rfl
@[simp] theorem enqueue_rails (r : TelRecord) (c : Nat) (s : State) : (enqueue r c s).rails = s.rails := rfl
@[simp] theorem enqueue_convs (r : TelRecord) (c : Nat) (s : State) : (enqueue r c s).convs = s.convs := rfl
@[simp] theorem enqueue_cutAt (r : TelRecord) (c : Nat) (s : State) : (enqueue r c s).cutAt = s.cutAt := rfl
@[simp] theorem enqueue_emergAt (r : TelRecord) (c : Nat) (s : State) : (enqueue r c s).emergAt = s.emergAt := rfl
@[simp] theorem enqueue_shadow (r : TelRecord) (c : Nat) (s : State) : (enqueue r c s).shadow = s.shadow := rfl
@[simp] theorem enqueue_planAt (r : TelRecord) (c : Nat) (s : State) : (enqueue r c s).planAt = s.planAt := rfl
@[simp] theorem enqueue_planNow (r : TelRecord) (c : Nat) (s : State) : (enqueue r c s).planNow = s.planNow := rfl
@[simp] theorem enqueue_clocksOn (r : TelRecord) (c : Nat) (s : State) : (enqueue r c s).clocksOn = s.clocksOn := rfl
@[simp] theorem enqueue_planFeed (r : TelRecord) (c : Nat) (s : State) : (enqueue r c s).planFeed = s.planFeed := rfl
@[simp] theorem enqueue_minRefresh (r : TelRecord) (c : Nat) (s : State) : (enqueue r c s).minRefresh = s.minRefresh := rfl
@[simp] theorem enqueue_planRefresh (r : TelRecord) (c : Nat) (s : State) : (enqueue r c s).planRefresh = s.planRefresh := rfl
@[simp] theorem enqueue_refBand (r : TelRecord) (c : Nat) (s : State) : (enqueue r c s).refBand = s.refBand := rfl
@[simp] theorem enqueue_overlay (r : TelRecord) (c : Nat) (s : State) : (enqueue r c s).overlay = s.overlay := rfl
@[simp] theorem enqueue_calBusy (r : TelRecord) (c : Nat) (s : State) : (enqueue r c s).calBusy = s.calBusy := rfl
@[simp] theorem enqueue_ndl (r : TelRecord) (c : Nat) (s : State) : (enqueue r c s).ndl = s.ndl := rfl
@[simp] theorem enqueue_uciTlb (r : TelRecord) (c : Nat) (s : State) : (enqueue r c s).uciTlb = s.uciTlb := rfl
@[simp] theorem enqueue_uciOff (r : TelRecord) (c : Nat) (s : State) : (enqueue r c s).uciOff = s.uciOff := rfl
@[simp] theorem enqueue_uciDown (r : TelRecord) (c : Nat) (s : State) : (enqueue r c s).uciDown = s.uciDown := rfl
@[simp] theorem enqueue_loopAt (r : TelRecord) (c : Nat) (s : State) : (enqueue r c s).loopAt = s.loopAt := rfl
@[simp] theorem enqueue_inReset (r : TelRecord) (c : Nat) (s : State) : (enqueue r c s).inReset = s.inReset := rfl
@[simp] theorem enqueue_resetAt (r : TelRecord) (c : Nat) (s : State) : (enqueue r c s).resetAt = s.resetAt := rfl
@[simp] theorem enqueue_refLost (r : TelRecord) (c : Nat) (s : State) : (enqueue r c s).refLost = s.refLost := rfl
@[simp] theorem enqueue_tripped (r : TelRecord) (c : Nat) (s : State) : (enqueue r c s).tripped = s.tripped := rfl
@[simp] theorem enqueue_pllLock (r : TelRecord) (c : Nat) (s : State) : (enqueue r c s).pllLock = s.pllLock := rfl
@[simp] theorem enqueue_regsUp (r : TelRecord) (c : Nat) (s : State) : (enqueue r c s).regsUp = s.regsUp := rfl
@[simp] theorem enqueue_idsRead (r : TelRecord) (c : Nat) (s : State) : (enqueue r c s).idsRead = s.idsRead := rfl
@[simp] theorem enqueue_hostsUp (r : TelRecord) (c : Nat) (s : State) : (enqueue r c s).hostsUp = s.hostsUp := rfl
@[simp] theorem enqueue_absent (r : TelRecord) (c : Nat) (s : State) : (enqueue r c s).absent = s.absent := rfl
@[simp] theorem enqueue_rstLow (r : TelRecord) (c : Nat) (s : State) : (enqueue r c s).rstLow = s.rstLow := rfl
@[simp] theorem enqueue_pending (r : TelRecord) (c : Nat) (s : State) : (enqueue r c s).pending = s.pending := rfl

/-! ## memWrite -/

@[simp] theorem memWrite_time (a : Nat) (bs : List Byte) (s : State) : (memWrite a bs s).time = s.time := rfl
@[simp] theorem memWrite_free (a : Nat) (bs : List Byte) (s : State) : (memWrite a bs s).free = s.free := rfl
@[simp] theorem memWrite_out (a : Nat) (bs : List Byte) (s : State) : (memWrite a bs s).out = s.out := rfl
@[simp] theorem memWrite_ctl (a : Nat) (bs : List Byte) (s : State) : (memWrite a bs s).ctl = s.ctl := rfl
@[simp] theorem memWrite_paths (a : Nat) (bs : List Byte) (s : State) : (memWrite a bs s).paths = s.paths := rfl
@[simp] theorem memWrite_benches (a : Nat) (bs : List Byte) (s : State) : (memWrite a bs s).benches = s.benches := rfl
@[simp] theorem memWrite_parts (a : Nat) (bs : List Byte) (s : State) : (memWrite a bs s).parts = s.parts := rfl
@[simp] theorem memWrite_frames (a : Nat) (bs : List Byte) (s : State) : (memWrite a bs s).frames = s.frames := rfl
@[simp] theorem memWrite_scrubQ (a : Nat) (bs : List Byte) (s : State) : (memWrite a bs s).scrubQ = s.scrubQ := rfl
@[simp] theorem memWrite_walks (a : Nat) (bs : List Byte) (s : State) : (memWrite a bs s).walks = s.walks := rfl
@[simp] theorem memWrite_progs (a : Nat) (bs : List Byte) (s : State) : (memWrite a bs s).progs = s.progs := rfl
@[simp] theorem memWrite_nextProg (a : Nat) (bs : List Byte) (s : State) : (memWrite a bs s).nextProg = s.nextProg := rfl
@[simp] theorem memWrite_reports (a : Nat) (bs : List Byte) (s : State) : (memWrite a bs s).reports = s.reports := rfl
@[simp] theorem memWrite_mem (a : Nat) (bs : List Byte) (s : State) : (memWrite a bs s).mem = cellsWrite s.mem a bs := rfl
@[simp] theorem memWrite_tables (a : Nat) (bs : List Byte) (s : State) : (memWrite a bs s).tables = s.tables := rfl
@[simp] theorem memWrite_reserveOut (a : Nat) (bs : List Byte) (s : State) : (memWrite a bs s).reserveOut = s.reserveOut := rfl
@[simp] theorem memWrite_pcErrs (a : Nat) (bs : List Byte) (s : State) : (memWrite a bs s).pcErrs = s.pcErrs := rfl
@[simp] theorem memWrite_rowErrs (a : Nat) (bs : List Byte) (s : State) : (memWrite a bs s).rowErrs = s.rowErrs := rfl
@[simp] theorem memWrite_sparesUsed (a : Nat) (bs : List Byte) (s : State) : (memWrite a bs s).sparesUsed = s.sparesUsed := rfl
@[simp] theorem memWrite_scrubbed (a : Nat) (bs : List Byte) (s : State) : (memWrite a bs s).scrubbed = s.scrubbed := rfl
@[simp] theorem memWrite_quotaErr (a : Nat) (bs : List Byte) (s : State) : (memWrite a bs s).quotaErr = s.quotaErr := rfl
@[simp] theorem memWrite_units (a : Nat) (bs : List Byte) (s : State) : (memWrite a bs s).units = s.units := rfl
@[simp] theorem memWrite_telQ (a : Nat) (bs : List Byte) (s : State) : (memWrite a bs s).telQ = s.telQ := rfl
@[simp] theorem memWrite_i3cQ (a : Nat) (bs : List Byte) (s : State) : (memWrite a bs s).i3cQ = s.i3cQ := rfl
@[simp] theorem memWrite_census (a : Nat) (bs : List Byte) (s : State) : (memWrite a bs s).census = s.census := rfl
@[simp] theorem memWrite_censuses (a : Nat) (bs : List Byte) (s : State) : (memWrite a bs s).censuses = s.censuses := rfl
@[simp] theorem memWrite_rops (a : Nat) (bs : List Byte) (s : State) : (memWrite a bs s).rops = s.rops := rfl
@[simp] theorem memWrite_nextRop (a : Nat) (bs : List Byte) (s : State) : (memWrite a bs s).nextRop = s.nextRop := rfl
@[simp] theorem memWrite_txns (a : Nat) (bs : List Byte) (s : State) : (memWrite a bs s).txns = s.txns := rfl
@[simp] theorem memWrite_sendQ (a : Nat) (bs : List Byte) (s : State) : (memWrite a bs s).sendQ = s.sendQ := rfl
@[simp] theorem memWrite_pairs (a : Nat) (bs : List Byte) (s : State) : (memWrite a bs s).pairs = s.pairs := rfl
@[simp] theorem memWrite_sources (a : Nat) (bs : List Byte) (s : State) : (memWrite a bs s).sources = s.sources := rfl
@[simp] theorem memWrite_accepted (a : Nat) (bs : List Byte) (s : State) : (memWrite a bs s).accepted = s.accepted := rfl
@[simp] theorem memWrite_owners (a : Nat) (bs : List Byte) (s : State) : (memWrite a bs s).owners = s.owners := rfl
@[simp] theorem memWrite_reqs (a : Nat) (bs : List Byte) (s : State) : (memWrite a bs s).reqs = s.reqs := rfl
@[simp] theorem memWrite_nextReq (a : Nat) (bs : List Byte) (s : State) : (memWrite a bs s).nextReq = s.nextReq := rfl
@[simp] theorem memWrite_engines (a : Nat) (bs : List Byte) (s : State) : (memWrite a bs s).engines = s.engines := rfl
@[simp] theorem memWrite_qps (a : Nat) (bs : List Byte) (s : State) : (memWrite a bs s).qps = s.qps := rfl
@[simp] theorem memWrite_nextQp (a : Nat) (bs : List Byte) (s : State) : (memWrite a bs s).nextQp = s.nextQp := rfl
@[simp] theorem memWrite_fabActive (a : Nat) (bs : List Byte) (s : State) : (memWrite a bs s).fabActive = s.fabActive := rfl
@[simp] theorem memWrite_fabOld (a : Nat) (bs : List Byte) (s : State) : (memWrite a bs s).fabOld = s.fabOld := rfl
@[simp] theorem memWrite_fabShadow (a : Nat) (bs : List Byte) (s : State) : (memWrite a bs s).fabShadow = s.fabShadow := rfl
@[simp] theorem memWrite_epoch (a : Nat) (bs : List Byte) (s : State) : (memWrite a bs s).epoch = s.epoch := rfl
@[simp] theorem memWrite_swapped (a : Nat) (bs : List Byte) (s : State) : (memWrite a bs s).swapped = s.swapped := rfl
@[simp] theorem memWrite_drainAt (a : Nat) (bs : List Byte) (s : State) : (memWrite a bs s).drainAt = s.drainAt := rfl
@[simp] theorem memWrite_drainWarned (a : Nat) (bs : List Byte) (s : State) : (memWrite a bs s).drainWarned = s.drainWarned := rfl
@[simp] theorem memWrite_sentMarks (a : Nat) (bs : List Byte) (s : State) : (memWrite a bs s).sentMarks = s.sentMarks := rfl
@[simp] theorem memWrite_links (a : Nat) (bs : List Byte) (s : State) : (memWrite a bs s).links = s.links := rfl
@[simp] theorem memWrite_ordPaths (a : Nat) (bs : List Byte) (s : State) : (memWrite a bs s).ordPaths = s.ordPaths := rfl
@[simp] theorem memWrite_arrived (a : Nat) (bs : List Byte) (s : State) : (memWrite a bs s).arrived = s.arrived := rfl
@[simp] theorem memWrite_stewardQ (a : Nat) (bs : List Byte) (s : State) : (memWrite a bs s).stewardQ = s.stewardQ := rfl
@[simp] theorem memWrite_helloFrom (a : Nat) (bs : List Byte) (s : State) : (memWrite a bs s).helloFrom = s.helloFrom := rfl
@[simp] theorem memWrite_fabMap (a : Nat) (bs : List Byte) (s : State) : (memWrite a bs s).fabMap = s.fabMap := rfl
@[simp] theorem memWrite_discovered (a : Nat) (bs : List Byte) (s : State) : (memWrite a bs s).discovered = s.discovered := rfl
@[simp] theorem memWrite_fabReady (a : Nat) (bs : List Byte) (s : State) : (memWrite a bs s).fabReady = s.fabReady := rfl
@[simp] theorem memWrite_wxAt (a : Nat) (bs : List Byte) (s : State) : (memWrite a bs s).wxAt = s.wxAt := rfl
@[simp] theorem memWrite_wxPeriod (a : Nat) (bs : List Byte) (s : State) : (memWrite a bs s).wxPeriod = s.wxPeriod := rfl
@[simp] theorem memWrite_wxDrops (a : Nat) (bs : List Byte) (s : State) : (memWrite a bs s).wxDrops = s.wxDrops := rfl
@[simp] theorem memWrite_wxReplays (a : Nat) (bs : List Byte) (s : State) : (memWrite a bs s).wxReplays = s.wxReplays := rfl
@[simp] theorem memWrite_drops (a : Nat) (bs : List Byte) (s : State) : (memWrite a bs s).drops = s.drops := rfl
@[simp] theorem memWrite_notices (a : Nat) (bs : List Byte) (s : State) : (memWrite a bs s).notices = s.notices := rfl
@[simp] theorem memWrite_colls (a : Nat) (bs : List Byte) (s : State) : (memWrite a bs s).colls = s.colls := rfl
@[simp] theorem memWrite_nextColl (a : Nat) (bs : List Byte) (s : State) : (memWrite a bs s).nextColl = s.nextColl := rfl
@[simp] theorem memWrite_groups (a : Nat) (bs : List Byte) (s : State) : (memWrite a bs s).groups = s.groups := rfl
@[simp] theorem memWrite_mailboxes (a : Nat) (bs : List Byte) (s : State) : (memWrite a bs s).mailboxes = s.mailboxes := rfl
@[simp] theorem memWrite_sessions (a : Nat) (bs : List Byte) (s : State) : (memWrite a bs s).sessions = s.sessions := rfl
@[simp] theorem memWrite_adminEvsub (a : Nat) (bs : List Byte) (s : State) : (memWrite a bs s).adminEvsub = s.adminEvsub := rfl
@[simp] theorem memWrite_flash (a : Nat) (bs : List Byte) (s : State) : (memWrite a bs s).flash = s.flash := rfl
@[simp] theorem memWrite_otp (a : Nat) (bs : List Byte) (s : State) : (memWrite a bs s).otp = s.otp := rfl
@[simp] theorem memWrite_mrs (a : Nat) (bs : List Byte) (s : State) : (memWrite a bs s).mrs = s.mrs := rfl
@[simp] theorem memWrite_bootAt (a : Nat) (bs : List Byte) (s : State) : (memWrite a bs s).bootAt = s.bootAt := rfl
@[simp] theorem memWrite_bootB (a : Nat) (bs : List Byte) (s : State) : (memWrite a bs s).bootB = s.bootB := rfl
@[simp] theorem memWrite_verified (a : Nat) (bs : List Byte) (s : State) : (memWrite a bs s).verified = s.verified := rfl
@[simp] theorem memWrite_recovery (a : Nat) (bs : List Byte) (s : State) : (memWrite a bs s).recovery = s.recovery := rfl
@[simp] theorem memWrite_keysReady (a : Nat) (bs : List Byte) (s : State) : (memWrite a bs s).keysReady = s.keysReady := rfl
@[simp] theorem memWrite_images (a : Nat) (bs : List Byte) (s : State) : (memWrite a bs s).images = s.images := rfl
@[simp] theorem memWrite_bootCfg (a : Nat) (bs : List Byte) (s : State) : (memWrite a bs s).bootCfg = s.bootCfg := rfl
@[simp] theorem memWrite_cfgDigest (a : Nat) (bs : List Byte) (s : State) : (memWrite a bs s).cfgDigest = s.cfgDigest := rfl
@[simp] theorem memWrite_mapDigest (a : Nat) (bs : List Byte) (s : State) : (memWrite a bs s).mapDigest = s.mapDigest := rfl
@[simp] theorem memWrite_restarts (a : Nat) (bs : List Byte) (s : State) : (memWrite a bs s).restarts = s.restarts := rfl
@[simp] theorem memWrite_duties (a : Nat) (bs : List Byte) (s : State) : (memWrite a bs s).duties = s.duties := rfl
@[simp] theorem memWrite_stewardGone (a : Nat) (bs : List Byte) (s : State) : (memWrite a bs s).stewardGone = s.stewardGone := rfl
@[simp] theorem memWrite_update (a : Nat) (bs : List Byte) (s : State) : (memWrite a bs s).update = s.update := rfl
@[simp] theorem memWrite_deferred (a : Nat) (bs : List Byte) (s : State) : (memWrite a bs s).deferred = s.deferred := rfl
@[simp] theorem memWrite_signQ (a : Nat) (bs : List Byte) (s : State) : (memWrite a bs s).signQ = s.signQ := rfl
@[simp] theorem memWrite_conns (a : Nat) (bs : List Byte) (s : State) : (memWrite a bs s).conns = s.conns := rfl
@[simp] theorem memWrite_nextConn (a : Nat) (bs : List Byte) (s : State) : (memWrite a bs s).nextConn = s.nextConn := rfl
@[simp] theorem memWrite_owned (a : Nat) (bs : List Byte) (s : State) : (memWrite a bs s).owned = s.owned := rfl
@[simp] theorem memWrite_noRestart (a : Nat) (bs : List Byte) (s : State) : (memWrite a bs s).noRestart = s.noRestart := rfl
@[simp] theorem memWrite_sectors (a : Nat) (bs : List Byte) (s : State) : (memWrite a bs s).sectors = s.sectors := rfl
@[simp] theorem memWrite_pkg (a : Nat) (bs : List Byte) (s : State) : (memWrite a bs s).pkg = s.pkg := rfl
@[simp] theorem memWrite_pkgOver (a : Nat) (bs : List Byte) (s : State) : (memWrite a bs s).pkgOver = s.pkgOver := rfl
@[simp] theorem memWrite_feedOver (a : Nat) (bs : List Byte) (s : State) : (memWrite a bs s).feedOver = s.feedOver := rfl
@[simp] theorem memWrite_rails (a : Nat) (bs : List Byte) (s : State) : (memWrite a bs s).rails = s.rails := rfl
@[simp] theorem memWrite_convs (a : Nat) (bs : List Byte) (s : State) : (memWrite a bs s).convs = s.convs := rfl
@[simp] theorem memWrite_cutAt (a : Nat) (bs : List Byte) (s : State) : (memWrite a bs s).cutAt = s.cutAt := rfl
@[simp] theorem memWrite_emergAt (a : Nat) (bs : List Byte) (s : State) : (memWrite a bs s).emergAt = s.emergAt := rfl
@[simp] theorem memWrite_shadow (a : Nat) (bs : List Byte) (s : State) : (memWrite a bs s).shadow = s.shadow := rfl
@[simp] theorem memWrite_planAt (a : Nat) (bs : List Byte) (s : State) : (memWrite a bs s).planAt = s.planAt := rfl
@[simp] theorem memWrite_planNow (a : Nat) (bs : List Byte) (s : State) : (memWrite a bs s).planNow = s.planNow := rfl
@[simp] theorem memWrite_clocksOn (a : Nat) (bs : List Byte) (s : State) : (memWrite a bs s).clocksOn = s.clocksOn := rfl
@[simp] theorem memWrite_planFeed (a : Nat) (bs : List Byte) (s : State) : (memWrite a bs s).planFeed = s.planFeed := rfl
@[simp] theorem memWrite_minRefresh (a : Nat) (bs : List Byte) (s : State) : (memWrite a bs s).minRefresh = s.minRefresh := rfl
@[simp] theorem memWrite_planRefresh (a : Nat) (bs : List Byte) (s : State) : (memWrite a bs s).planRefresh = s.planRefresh := rfl
@[simp] theorem memWrite_refBand (a : Nat) (bs : List Byte) (s : State) : (memWrite a bs s).refBand = s.refBand := rfl
@[simp] theorem memWrite_overlay (a : Nat) (bs : List Byte) (s : State) : (memWrite a bs s).overlay = s.overlay := rfl
@[simp] theorem memWrite_calBusy (a : Nat) (bs : List Byte) (s : State) : (memWrite a bs s).calBusy = s.calBusy := rfl
@[simp] theorem memWrite_ndl (a : Nat) (bs : List Byte) (s : State) : (memWrite a bs s).ndl = s.ndl := rfl
@[simp] theorem memWrite_uciTlb (a : Nat) (bs : List Byte) (s : State) : (memWrite a bs s).uciTlb = s.uciTlb := rfl
@[simp] theorem memWrite_uciOff (a : Nat) (bs : List Byte) (s : State) : (memWrite a bs s).uciOff = s.uciOff := rfl
@[simp] theorem memWrite_uciDown (a : Nat) (bs : List Byte) (s : State) : (memWrite a bs s).uciDown = s.uciDown := rfl
@[simp] theorem memWrite_loopAt (a : Nat) (bs : List Byte) (s : State) : (memWrite a bs s).loopAt = s.loopAt := rfl
@[simp] theorem memWrite_inReset (a : Nat) (bs : List Byte) (s : State) : (memWrite a bs s).inReset = s.inReset := rfl
@[simp] theorem memWrite_resetAt (a : Nat) (bs : List Byte) (s : State) : (memWrite a bs s).resetAt = s.resetAt := rfl
@[simp] theorem memWrite_refLost (a : Nat) (bs : List Byte) (s : State) : (memWrite a bs s).refLost = s.refLost := rfl
@[simp] theorem memWrite_tripped (a : Nat) (bs : List Byte) (s : State) : (memWrite a bs s).tripped = s.tripped := rfl
@[simp] theorem memWrite_pllLock (a : Nat) (bs : List Byte) (s : State) : (memWrite a bs s).pllLock = s.pllLock := rfl
@[simp] theorem memWrite_regsUp (a : Nat) (bs : List Byte) (s : State) : (memWrite a bs s).regsUp = s.regsUp := rfl
@[simp] theorem memWrite_idsRead (a : Nat) (bs : List Byte) (s : State) : (memWrite a bs s).idsRead = s.idsRead := rfl
@[simp] theorem memWrite_hostsUp (a : Nat) (bs : List Byte) (s : State) : (memWrite a bs s).hostsUp = s.hostsUp := rfl
@[simp] theorem memWrite_absent (a : Nat) (bs : List Byte) (s : State) : (memWrite a bs s).absent = s.absent := rfl
@[simp] theorem memWrite_rstLow (a : Nat) (bs : List Byte) (s : State) : (memWrite a bs s).rstLow = s.rstLow := rfl
@[simp] theorem memWrite_pending (a : Nat) (bs : List Byte) (s : State) : (memWrite a bs s).pending = s.pending := rfl

/-! ## modEngine -/

@[simp] theorem modEngine_time (e : Nat) (f : Engine → Engine) (s : State) : (modEngine e f s).time = s.time := rfl
@[simp] theorem modEngine_free (e : Nat) (f : Engine → Engine) (s : State) : (modEngine e f s).free = s.free := rfl
@[simp] theorem modEngine_out (e : Nat) (f : Engine → Engine) (s : State) : (modEngine e f s).out = s.out := rfl
@[simp] theorem modEngine_ctl (e : Nat) (f : Engine → Engine) (s : State) : (modEngine e f s).ctl = s.ctl := rfl
@[simp] theorem modEngine_paths (e : Nat) (f : Engine → Engine) (s : State) : (modEngine e f s).paths = s.paths := rfl
@[simp] theorem modEngine_benches (e : Nat) (f : Engine → Engine) (s : State) : (modEngine e f s).benches = s.benches := rfl
@[simp] theorem modEngine_parts (e : Nat) (f : Engine → Engine) (s : State) : (modEngine e f s).parts = s.parts := rfl
@[simp] theorem modEngine_frames (e : Nat) (f : Engine → Engine) (s : State) : (modEngine e f s).frames = s.frames := rfl
@[simp] theorem modEngine_scrubQ (e : Nat) (f : Engine → Engine) (s : State) : (modEngine e f s).scrubQ = s.scrubQ := rfl
@[simp] theorem modEngine_walks (e : Nat) (f : Engine → Engine) (s : State) : (modEngine e f s).walks = s.walks := rfl
@[simp] theorem modEngine_progs (e : Nat) (f : Engine → Engine) (s : State) : (modEngine e f s).progs = s.progs := rfl
@[simp] theorem modEngine_nextProg (e : Nat) (f : Engine → Engine) (s : State) : (modEngine e f s).nextProg = s.nextProg := rfl
@[simp] theorem modEngine_reports (e : Nat) (f : Engine → Engine) (s : State) : (modEngine e f s).reports = s.reports := rfl
@[simp] theorem modEngine_mem (e : Nat) (f : Engine → Engine) (s : State) : (modEngine e f s).mem = s.mem := rfl
@[simp] theorem modEngine_poison (e : Nat) (f : Engine → Engine) (s : State) : (modEngine e f s).poison = s.poison := rfl
@[simp] theorem modEngine_flaws (e : Nat) (f : Engine → Engine) (s : State) : (modEngine e f s).flaws = s.flaws := rfl
@[simp] theorem modEngine_tables (e : Nat) (f : Engine → Engine) (s : State) : (modEngine e f s).tables = s.tables := rfl
@[simp] theorem modEngine_reserveOut (e : Nat) (f : Engine → Engine) (s : State) : (modEngine e f s).reserveOut = s.reserveOut := rfl
@[simp] theorem modEngine_pcErrs (e : Nat) (f : Engine → Engine) (s : State) : (modEngine e f s).pcErrs = s.pcErrs := rfl
@[simp] theorem modEngine_rowErrs (e : Nat) (f : Engine → Engine) (s : State) : (modEngine e f s).rowErrs = s.rowErrs := rfl
@[simp] theorem modEngine_sparesUsed (e : Nat) (f : Engine → Engine) (s : State) : (modEngine e f s).sparesUsed = s.sparesUsed := rfl
@[simp] theorem modEngine_scrubbed (e : Nat) (f : Engine → Engine) (s : State) : (modEngine e f s).scrubbed = s.scrubbed := rfl
@[simp] theorem modEngine_quotaErr (e : Nat) (f : Engine → Engine) (s : State) : (modEngine e f s).quotaErr = s.quotaErr := rfl
@[simp] theorem modEngine_units (e : Nat) (f : Engine → Engine) (s : State) : (modEngine e f s).units = s.units := rfl
@[simp] theorem modEngine_telQ (e : Nat) (f : Engine → Engine) (s : State) : (modEngine e f s).telQ = s.telQ := rfl
@[simp] theorem modEngine_i3cQ (e : Nat) (f : Engine → Engine) (s : State) : (modEngine e f s).i3cQ = s.i3cQ := rfl
@[simp] theorem modEngine_census (e : Nat) (f : Engine → Engine) (s : State) : (modEngine e f s).census = s.census := rfl
@[simp] theorem modEngine_censuses (e : Nat) (f : Engine → Engine) (s : State) : (modEngine e f s).censuses = s.censuses := rfl
@[simp] theorem modEngine_rops (e : Nat) (f : Engine → Engine) (s : State) : (modEngine e f s).rops = s.rops := rfl
@[simp] theorem modEngine_nextRop (e : Nat) (f : Engine → Engine) (s : State) : (modEngine e f s).nextRop = s.nextRop := rfl
@[simp] theorem modEngine_txns (e : Nat) (f : Engine → Engine) (s : State) : (modEngine e f s).txns = s.txns := rfl
@[simp] theorem modEngine_sendQ (e : Nat) (f : Engine → Engine) (s : State) : (modEngine e f s).sendQ = s.sendQ := rfl
@[simp] theorem modEngine_pairs (e : Nat) (f : Engine → Engine) (s : State) : (modEngine e f s).pairs = s.pairs := rfl
@[simp] theorem modEngine_sources (e : Nat) (f : Engine → Engine) (s : State) : (modEngine e f s).sources = s.sources := rfl
@[simp] theorem modEngine_accepted (e : Nat) (f : Engine → Engine) (s : State) : (modEngine e f s).accepted = s.accepted := rfl
@[simp] theorem modEngine_owners (e : Nat) (f : Engine → Engine) (s : State) : (modEngine e f s).owners = s.owners := rfl
@[simp] theorem modEngine_reqs (e : Nat) (f : Engine → Engine) (s : State) : (modEngine e f s).reqs = s.reqs := rfl
@[simp] theorem modEngine_nextReq (e : Nat) (f : Engine → Engine) (s : State) : (modEngine e f s).nextReq = s.nextReq := rfl
@[simp] theorem modEngine_engines (e : Nat) (f : Engine → Engine) (s : State) : (modEngine e f s).engines = tset s.engines e (f (engine s e)) := rfl
@[simp] theorem modEngine_qps (e : Nat) (f : Engine → Engine) (s : State) : (modEngine e f s).qps = s.qps := rfl
@[simp] theorem modEngine_nextQp (e : Nat) (f : Engine → Engine) (s : State) : (modEngine e f s).nextQp = s.nextQp := rfl
@[simp] theorem modEngine_fabActive (e : Nat) (f : Engine → Engine) (s : State) : (modEngine e f s).fabActive = s.fabActive := rfl
@[simp] theorem modEngine_fabOld (e : Nat) (f : Engine → Engine) (s : State) : (modEngine e f s).fabOld = s.fabOld := rfl
@[simp] theorem modEngine_fabShadow (e : Nat) (f : Engine → Engine) (s : State) : (modEngine e f s).fabShadow = s.fabShadow := rfl
@[simp] theorem modEngine_epoch (e : Nat) (f : Engine → Engine) (s : State) : (modEngine e f s).epoch = s.epoch := rfl
@[simp] theorem modEngine_swapped (e : Nat) (f : Engine → Engine) (s : State) : (modEngine e f s).swapped = s.swapped := rfl
@[simp] theorem modEngine_drainAt (e : Nat) (f : Engine → Engine) (s : State) : (modEngine e f s).drainAt = s.drainAt := rfl
@[simp] theorem modEngine_drainWarned (e : Nat) (f : Engine → Engine) (s : State) : (modEngine e f s).drainWarned = s.drainWarned := rfl
@[simp] theorem modEngine_sentMarks (e : Nat) (f : Engine → Engine) (s : State) : (modEngine e f s).sentMarks = s.sentMarks := rfl
@[simp] theorem modEngine_links (e : Nat) (f : Engine → Engine) (s : State) : (modEngine e f s).links = s.links := rfl
@[simp] theorem modEngine_ordPaths (e : Nat) (f : Engine → Engine) (s : State) : (modEngine e f s).ordPaths = s.ordPaths := rfl
@[simp] theorem modEngine_arrived (e : Nat) (f : Engine → Engine) (s : State) : (modEngine e f s).arrived = s.arrived := rfl
@[simp] theorem modEngine_stewardQ (e : Nat) (f : Engine → Engine) (s : State) : (modEngine e f s).stewardQ = s.stewardQ := rfl
@[simp] theorem modEngine_helloFrom (e : Nat) (f : Engine → Engine) (s : State) : (modEngine e f s).helloFrom = s.helloFrom := rfl
@[simp] theorem modEngine_fabMap (e : Nat) (f : Engine → Engine) (s : State) : (modEngine e f s).fabMap = s.fabMap := rfl
@[simp] theorem modEngine_discovered (e : Nat) (f : Engine → Engine) (s : State) : (modEngine e f s).discovered = s.discovered := rfl
@[simp] theorem modEngine_fabReady (e : Nat) (f : Engine → Engine) (s : State) : (modEngine e f s).fabReady = s.fabReady := rfl
@[simp] theorem modEngine_wxAt (e : Nat) (f : Engine → Engine) (s : State) : (modEngine e f s).wxAt = s.wxAt := rfl
@[simp] theorem modEngine_wxPeriod (e : Nat) (f : Engine → Engine) (s : State) : (modEngine e f s).wxPeriod = s.wxPeriod := rfl
@[simp] theorem modEngine_wxDrops (e : Nat) (f : Engine → Engine) (s : State) : (modEngine e f s).wxDrops = s.wxDrops := rfl
@[simp] theorem modEngine_wxReplays (e : Nat) (f : Engine → Engine) (s : State) : (modEngine e f s).wxReplays = s.wxReplays := rfl
@[simp] theorem modEngine_drops (e : Nat) (f : Engine → Engine) (s : State) : (modEngine e f s).drops = s.drops := rfl
@[simp] theorem modEngine_notices (e : Nat) (f : Engine → Engine) (s : State) : (modEngine e f s).notices = s.notices := rfl
@[simp] theorem modEngine_colls (e : Nat) (f : Engine → Engine) (s : State) : (modEngine e f s).colls = s.colls := rfl
@[simp] theorem modEngine_nextColl (e : Nat) (f : Engine → Engine) (s : State) : (modEngine e f s).nextColl = s.nextColl := rfl
@[simp] theorem modEngine_groups (e : Nat) (f : Engine → Engine) (s : State) : (modEngine e f s).groups = s.groups := rfl
@[simp] theorem modEngine_mailboxes (e : Nat) (f : Engine → Engine) (s : State) : (modEngine e f s).mailboxes = s.mailboxes := rfl
@[simp] theorem modEngine_sessions (e : Nat) (f : Engine → Engine) (s : State) : (modEngine e f s).sessions = s.sessions := rfl
@[simp] theorem modEngine_adminEvsub (e : Nat) (f : Engine → Engine) (s : State) : (modEngine e f s).adminEvsub = s.adminEvsub := rfl
@[simp] theorem modEngine_flash (e : Nat) (f : Engine → Engine) (s : State) : (modEngine e f s).flash = s.flash := rfl
@[simp] theorem modEngine_otp (e : Nat) (f : Engine → Engine) (s : State) : (modEngine e f s).otp = s.otp := rfl
@[simp] theorem modEngine_mrs (e : Nat) (f : Engine → Engine) (s : State) : (modEngine e f s).mrs = s.mrs := rfl
@[simp] theorem modEngine_bootAt (e : Nat) (f : Engine → Engine) (s : State) : (modEngine e f s).bootAt = s.bootAt := rfl
@[simp] theorem modEngine_bootB (e : Nat) (f : Engine → Engine) (s : State) : (modEngine e f s).bootB = s.bootB := rfl
@[simp] theorem modEngine_verified (e : Nat) (f : Engine → Engine) (s : State) : (modEngine e f s).verified = s.verified := rfl
@[simp] theorem modEngine_recovery (e : Nat) (f : Engine → Engine) (s : State) : (modEngine e f s).recovery = s.recovery := rfl
@[simp] theorem modEngine_keysReady (e : Nat) (f : Engine → Engine) (s : State) : (modEngine e f s).keysReady = s.keysReady := rfl
@[simp] theorem modEngine_images (e : Nat) (f : Engine → Engine) (s : State) : (modEngine e f s).images = s.images := rfl
@[simp] theorem modEngine_bootCfg (e : Nat) (f : Engine → Engine) (s : State) : (modEngine e f s).bootCfg = s.bootCfg := rfl
@[simp] theorem modEngine_cfgDigest (e : Nat) (f : Engine → Engine) (s : State) : (modEngine e f s).cfgDigest = s.cfgDigest := rfl
@[simp] theorem modEngine_mapDigest (e : Nat) (f : Engine → Engine) (s : State) : (modEngine e f s).mapDigest = s.mapDigest := rfl
@[simp] theorem modEngine_restarts (e : Nat) (f : Engine → Engine) (s : State) : (modEngine e f s).restarts = s.restarts := rfl
@[simp] theorem modEngine_duties (e : Nat) (f : Engine → Engine) (s : State) : (modEngine e f s).duties = s.duties := rfl
@[simp] theorem modEngine_stewardGone (e : Nat) (f : Engine → Engine) (s : State) : (modEngine e f s).stewardGone = s.stewardGone := rfl
@[simp] theorem modEngine_update (e : Nat) (f : Engine → Engine) (s : State) : (modEngine e f s).update = s.update := rfl
@[simp] theorem modEngine_deferred (e : Nat) (f : Engine → Engine) (s : State) : (modEngine e f s).deferred = s.deferred := rfl
@[simp] theorem modEngine_signQ (e : Nat) (f : Engine → Engine) (s : State) : (modEngine e f s).signQ = s.signQ := rfl
@[simp] theorem modEngine_conns (e : Nat) (f : Engine → Engine) (s : State) : (modEngine e f s).conns = s.conns := rfl
@[simp] theorem modEngine_nextConn (e : Nat) (f : Engine → Engine) (s : State) : (modEngine e f s).nextConn = s.nextConn := rfl
@[simp] theorem modEngine_owned (e : Nat) (f : Engine → Engine) (s : State) : (modEngine e f s).owned = s.owned := rfl
@[simp] theorem modEngine_noRestart (e : Nat) (f : Engine → Engine) (s : State) : (modEngine e f s).noRestart = s.noRestart := rfl
@[simp] theorem modEngine_sectors (e : Nat) (f : Engine → Engine) (s : State) : (modEngine e f s).sectors = s.sectors := rfl
@[simp] theorem modEngine_pkg (e : Nat) (f : Engine → Engine) (s : State) : (modEngine e f s).pkg = s.pkg := rfl
@[simp] theorem modEngine_pkgOver (e : Nat) (f : Engine → Engine) (s : State) : (modEngine e f s).pkgOver = s.pkgOver := rfl
@[simp] theorem modEngine_feedOver (e : Nat) (f : Engine → Engine) (s : State) : (modEngine e f s).feedOver = s.feedOver := rfl
@[simp] theorem modEngine_rails (e : Nat) (f : Engine → Engine) (s : State) : (modEngine e f s).rails = s.rails := rfl
@[simp] theorem modEngine_convs (e : Nat) (f : Engine → Engine) (s : State) : (modEngine e f s).convs = s.convs := rfl
@[simp] theorem modEngine_cutAt (e : Nat) (f : Engine → Engine) (s : State) : (modEngine e f s).cutAt = s.cutAt := rfl
@[simp] theorem modEngine_emergAt (e : Nat) (f : Engine → Engine) (s : State) : (modEngine e f s).emergAt = s.emergAt := rfl
@[simp] theorem modEngine_shadow (e : Nat) (f : Engine → Engine) (s : State) : (modEngine e f s).shadow = s.shadow := rfl
@[simp] theorem modEngine_planAt (e : Nat) (f : Engine → Engine) (s : State) : (modEngine e f s).planAt = s.planAt := rfl
@[simp] theorem modEngine_planNow (e : Nat) (f : Engine → Engine) (s : State) : (modEngine e f s).planNow = s.planNow := rfl
@[simp] theorem modEngine_clocksOn (e : Nat) (f : Engine → Engine) (s : State) : (modEngine e f s).clocksOn = s.clocksOn := rfl
@[simp] theorem modEngine_planFeed (e : Nat) (f : Engine → Engine) (s : State) : (modEngine e f s).planFeed = s.planFeed := rfl
@[simp] theorem modEngine_minRefresh (e : Nat) (f : Engine → Engine) (s : State) : (modEngine e f s).minRefresh = s.minRefresh := rfl
@[simp] theorem modEngine_planRefresh (e : Nat) (f : Engine → Engine) (s : State) : (modEngine e f s).planRefresh = s.planRefresh := rfl
@[simp] theorem modEngine_refBand (e : Nat) (f : Engine → Engine) (s : State) : (modEngine e f s).refBand = s.refBand := rfl
@[simp] theorem modEngine_overlay (e : Nat) (f : Engine → Engine) (s : State) : (modEngine e f s).overlay = s.overlay := rfl
@[simp] theorem modEngine_calBusy (e : Nat) (f : Engine → Engine) (s : State) : (modEngine e f s).calBusy = s.calBusy := rfl
@[simp] theorem modEngine_ndl (e : Nat) (f : Engine → Engine) (s : State) : (modEngine e f s).ndl = s.ndl := rfl
@[simp] theorem modEngine_uciTlb (e : Nat) (f : Engine → Engine) (s : State) : (modEngine e f s).uciTlb = s.uciTlb := rfl
@[simp] theorem modEngine_uciOff (e : Nat) (f : Engine → Engine) (s : State) : (modEngine e f s).uciOff = s.uciOff := rfl
@[simp] theorem modEngine_uciDown (e : Nat) (f : Engine → Engine) (s : State) : (modEngine e f s).uciDown = s.uciDown := rfl
@[simp] theorem modEngine_loopAt (e : Nat) (f : Engine → Engine) (s : State) : (modEngine e f s).loopAt = s.loopAt := rfl
@[simp] theorem modEngine_inReset (e : Nat) (f : Engine → Engine) (s : State) : (modEngine e f s).inReset = s.inReset := rfl
@[simp] theorem modEngine_resetAt (e : Nat) (f : Engine → Engine) (s : State) : (modEngine e f s).resetAt = s.resetAt := rfl
@[simp] theorem modEngine_refLost (e : Nat) (f : Engine → Engine) (s : State) : (modEngine e f s).refLost = s.refLost := rfl
@[simp] theorem modEngine_tripped (e : Nat) (f : Engine → Engine) (s : State) : (modEngine e f s).tripped = s.tripped := rfl
@[simp] theorem modEngine_pllLock (e : Nat) (f : Engine → Engine) (s : State) : (modEngine e f s).pllLock = s.pllLock := rfl
@[simp] theorem modEngine_regsUp (e : Nat) (f : Engine → Engine) (s : State) : (modEngine e f s).regsUp = s.regsUp := rfl
@[simp] theorem modEngine_idsRead (e : Nat) (f : Engine → Engine) (s : State) : (modEngine e f s).idsRead = s.idsRead := rfl
@[simp] theorem modEngine_hostsUp (e : Nat) (f : Engine → Engine) (s : State) : (modEngine e f s).hostsUp = s.hostsUp := rfl
@[simp] theorem modEngine_absent (e : Nat) (f : Engine → Engine) (s : State) : (modEngine e f s).absent = s.absent := rfl
@[simp] theorem modEngine_rstLow (e : Nat) (f : Engine → Engine) (s : State) : (modEngine e f s).rstLow = s.rstLow := rfl
@[simp] theorem modEngine_pending (e : Nat) (f : Engine → Engine) (s : State) : (modEngine e f s).pending = s.pending := rfl

/-! ## setSession -/

@[simp] theorem setSession_time (n : Nat) (x : Session) (s : State) : (setSession n x s).time = s.time := rfl
@[simp] theorem setSession_free (n : Nat) (x : Session) (s : State) : (setSession n x s).free = s.free := rfl
@[simp] theorem setSession_out (n : Nat) (x : Session) (s : State) : (setSession n x s).out = s.out := rfl
@[simp] theorem setSession_ctl (n : Nat) (x : Session) (s : State) : (setSession n x s).ctl = s.ctl := rfl
@[simp] theorem setSession_paths (n : Nat) (x : Session) (s : State) : (setSession n x s).paths = s.paths := rfl
@[simp] theorem setSession_benches (n : Nat) (x : Session) (s : State) : (setSession n x s).benches = s.benches := rfl
@[simp] theorem setSession_parts (n : Nat) (x : Session) (s : State) : (setSession n x s).parts = s.parts := rfl
@[simp] theorem setSession_frames (n : Nat) (x : Session) (s : State) : (setSession n x s).frames = s.frames := rfl
@[simp] theorem setSession_scrubQ (n : Nat) (x : Session) (s : State) : (setSession n x s).scrubQ = s.scrubQ := rfl
@[simp] theorem setSession_walks (n : Nat) (x : Session) (s : State) : (setSession n x s).walks = s.walks := rfl
@[simp] theorem setSession_progs (n : Nat) (x : Session) (s : State) : (setSession n x s).progs = s.progs := rfl
@[simp] theorem setSession_nextProg (n : Nat) (x : Session) (s : State) : (setSession n x s).nextProg = s.nextProg := rfl
@[simp] theorem setSession_reports (n : Nat) (x : Session) (s : State) : (setSession n x s).reports = s.reports := rfl
@[simp] theorem setSession_mem (n : Nat) (x : Session) (s : State) : (setSession n x s).mem = s.mem := rfl
@[simp] theorem setSession_poison (n : Nat) (x : Session) (s : State) : (setSession n x s).poison = s.poison := rfl
@[simp] theorem setSession_flaws (n : Nat) (x : Session) (s : State) : (setSession n x s).flaws = s.flaws := rfl
@[simp] theorem setSession_tables (n : Nat) (x : Session) (s : State) : (setSession n x s).tables = s.tables := rfl
@[simp] theorem setSession_reserveOut (n : Nat) (x : Session) (s : State) : (setSession n x s).reserveOut = s.reserveOut := rfl
@[simp] theorem setSession_pcErrs (n : Nat) (x : Session) (s : State) : (setSession n x s).pcErrs = s.pcErrs := rfl
@[simp] theorem setSession_rowErrs (n : Nat) (x : Session) (s : State) : (setSession n x s).rowErrs = s.rowErrs := rfl
@[simp] theorem setSession_sparesUsed (n : Nat) (x : Session) (s : State) : (setSession n x s).sparesUsed = s.sparesUsed := rfl
@[simp] theorem setSession_scrubbed (n : Nat) (x : Session) (s : State) : (setSession n x s).scrubbed = s.scrubbed := rfl
@[simp] theorem setSession_quotaErr (n : Nat) (x : Session) (s : State) : (setSession n x s).quotaErr = s.quotaErr := rfl
@[simp] theorem setSession_units (n : Nat) (x : Session) (s : State) : (setSession n x s).units = s.units := rfl
@[simp] theorem setSession_telQ (n : Nat) (x : Session) (s : State) : (setSession n x s).telQ = s.telQ := rfl
@[simp] theorem setSession_i3cQ (n : Nat) (x : Session) (s : State) : (setSession n x s).i3cQ = s.i3cQ := rfl
@[simp] theorem setSession_census (n : Nat) (x : Session) (s : State) : (setSession n x s).census = s.census := rfl
@[simp] theorem setSession_censuses (n : Nat) (x : Session) (s : State) : (setSession n x s).censuses = s.censuses := rfl
@[simp] theorem setSession_rops (n : Nat) (x : Session) (s : State) : (setSession n x s).rops = s.rops := rfl
@[simp] theorem setSession_nextRop (n : Nat) (x : Session) (s : State) : (setSession n x s).nextRop = s.nextRop := rfl
@[simp] theorem setSession_txns (n : Nat) (x : Session) (s : State) : (setSession n x s).txns = s.txns := rfl
@[simp] theorem setSession_sendQ (n : Nat) (x : Session) (s : State) : (setSession n x s).sendQ = s.sendQ := rfl
@[simp] theorem setSession_pairs (n : Nat) (x : Session) (s : State) : (setSession n x s).pairs = s.pairs := rfl
@[simp] theorem setSession_sources (n : Nat) (x : Session) (s : State) : (setSession n x s).sources = s.sources := rfl
@[simp] theorem setSession_accepted (n : Nat) (x : Session) (s : State) : (setSession n x s).accepted = s.accepted := rfl
@[simp] theorem setSession_owners (n : Nat) (x : Session) (s : State) : (setSession n x s).owners = s.owners := rfl
@[simp] theorem setSession_reqs (n : Nat) (x : Session) (s : State) : (setSession n x s).reqs = s.reqs := rfl
@[simp] theorem setSession_nextReq (n : Nat) (x : Session) (s : State) : (setSession n x s).nextReq = s.nextReq := rfl
@[simp] theorem setSession_engines (n : Nat) (x : Session) (s : State) : (setSession n x s).engines = s.engines := rfl
@[simp] theorem setSession_qps (n : Nat) (x : Session) (s : State) : (setSession n x s).qps = s.qps := rfl
@[simp] theorem setSession_nextQp (n : Nat) (x : Session) (s : State) : (setSession n x s).nextQp = s.nextQp := rfl
@[simp] theorem setSession_fabActive (n : Nat) (x : Session) (s : State) : (setSession n x s).fabActive = s.fabActive := rfl
@[simp] theorem setSession_fabOld (n : Nat) (x : Session) (s : State) : (setSession n x s).fabOld = s.fabOld := rfl
@[simp] theorem setSession_fabShadow (n : Nat) (x : Session) (s : State) : (setSession n x s).fabShadow = s.fabShadow := rfl
@[simp] theorem setSession_epoch (n : Nat) (x : Session) (s : State) : (setSession n x s).epoch = s.epoch := rfl
@[simp] theorem setSession_swapped (n : Nat) (x : Session) (s : State) : (setSession n x s).swapped = s.swapped := rfl
@[simp] theorem setSession_drainAt (n : Nat) (x : Session) (s : State) : (setSession n x s).drainAt = s.drainAt := rfl
@[simp] theorem setSession_drainWarned (n : Nat) (x : Session) (s : State) : (setSession n x s).drainWarned = s.drainWarned := rfl
@[simp] theorem setSession_sentMarks (n : Nat) (x : Session) (s : State) : (setSession n x s).sentMarks = s.sentMarks := rfl
@[simp] theorem setSession_links (n : Nat) (x : Session) (s : State) : (setSession n x s).links = s.links := rfl
@[simp] theorem setSession_ordPaths (n : Nat) (x : Session) (s : State) : (setSession n x s).ordPaths = s.ordPaths := rfl
@[simp] theorem setSession_arrived (n : Nat) (x : Session) (s : State) : (setSession n x s).arrived = s.arrived := rfl
@[simp] theorem setSession_stewardQ (n : Nat) (x : Session) (s : State) : (setSession n x s).stewardQ = s.stewardQ := rfl
@[simp] theorem setSession_helloFrom (n : Nat) (x : Session) (s : State) : (setSession n x s).helloFrom = s.helloFrom := rfl
@[simp] theorem setSession_fabMap (n : Nat) (x : Session) (s : State) : (setSession n x s).fabMap = s.fabMap := rfl
@[simp] theorem setSession_discovered (n : Nat) (x : Session) (s : State) : (setSession n x s).discovered = s.discovered := rfl
@[simp] theorem setSession_fabReady (n : Nat) (x : Session) (s : State) : (setSession n x s).fabReady = s.fabReady := rfl
@[simp] theorem setSession_wxAt (n : Nat) (x : Session) (s : State) : (setSession n x s).wxAt = s.wxAt := rfl
@[simp] theorem setSession_wxPeriod (n : Nat) (x : Session) (s : State) : (setSession n x s).wxPeriod = s.wxPeriod := rfl
@[simp] theorem setSession_wxDrops (n : Nat) (x : Session) (s : State) : (setSession n x s).wxDrops = s.wxDrops := rfl
@[simp] theorem setSession_wxReplays (n : Nat) (x : Session) (s : State) : (setSession n x s).wxReplays = s.wxReplays := rfl
@[simp] theorem setSession_drops (n : Nat) (x : Session) (s : State) : (setSession n x s).drops = s.drops := rfl
@[simp] theorem setSession_notices (n : Nat) (x : Session) (s : State) : (setSession n x s).notices = s.notices := rfl
@[simp] theorem setSession_colls (n : Nat) (x : Session) (s : State) : (setSession n x s).colls = s.colls := rfl
@[simp] theorem setSession_nextColl (n : Nat) (x : Session) (s : State) : (setSession n x s).nextColl = s.nextColl := rfl
@[simp] theorem setSession_groups (n : Nat) (x : Session) (s : State) : (setSession n x s).groups = s.groups := rfl
@[simp] theorem setSession_mailboxes (n : Nat) (x : Session) (s : State) : (setSession n x s).mailboxes = s.mailboxes := rfl
@[simp] theorem setSession_sessions (n : Nat) (x : Session) (s : State) : (setSession n x s).sessions = tset s.sessions n x := rfl
@[simp] theorem setSession_adminEvsub (n : Nat) (x : Session) (s : State) : (setSession n x s).adminEvsub = s.adminEvsub := rfl
@[simp] theorem setSession_flash (n : Nat) (x : Session) (s : State) : (setSession n x s).flash = s.flash := rfl
@[simp] theorem setSession_otp (n : Nat) (x : Session) (s : State) : (setSession n x s).otp = s.otp := rfl
@[simp] theorem setSession_mrs (n : Nat) (x : Session) (s : State) : (setSession n x s).mrs = s.mrs := rfl
@[simp] theorem setSession_bootAt (n : Nat) (x : Session) (s : State) : (setSession n x s).bootAt = s.bootAt := rfl
@[simp] theorem setSession_bootB (n : Nat) (x : Session) (s : State) : (setSession n x s).bootB = s.bootB := rfl
@[simp] theorem setSession_verified (n : Nat) (x : Session) (s : State) : (setSession n x s).verified = s.verified := rfl
@[simp] theorem setSession_recovery (n : Nat) (x : Session) (s : State) : (setSession n x s).recovery = s.recovery := rfl
@[simp] theorem setSession_keysReady (n : Nat) (x : Session) (s : State) : (setSession n x s).keysReady = s.keysReady := rfl
@[simp] theorem setSession_images (n : Nat) (x : Session) (s : State) : (setSession n x s).images = s.images := rfl
@[simp] theorem setSession_bootCfg (n : Nat) (x : Session) (s : State) : (setSession n x s).bootCfg = s.bootCfg := rfl
@[simp] theorem setSession_cfgDigest (n : Nat) (x : Session) (s : State) : (setSession n x s).cfgDigest = s.cfgDigest := rfl
@[simp] theorem setSession_mapDigest (n : Nat) (x : Session) (s : State) : (setSession n x s).mapDigest = s.mapDigest := rfl
@[simp] theorem setSession_restarts (n : Nat) (x : Session) (s : State) : (setSession n x s).restarts = s.restarts := rfl
@[simp] theorem setSession_duties (n : Nat) (x : Session) (s : State) : (setSession n x s).duties = s.duties := rfl
@[simp] theorem setSession_stewardGone (n : Nat) (x : Session) (s : State) : (setSession n x s).stewardGone = s.stewardGone := rfl
@[simp] theorem setSession_update (n : Nat) (x : Session) (s : State) : (setSession n x s).update = s.update := rfl
@[simp] theorem setSession_deferred (n : Nat) (x : Session) (s : State) : (setSession n x s).deferred = s.deferred := rfl
@[simp] theorem setSession_signQ (n : Nat) (x : Session) (s : State) : (setSession n x s).signQ = s.signQ := rfl
@[simp] theorem setSession_conns (n : Nat) (x : Session) (s : State) : (setSession n x s).conns = s.conns := rfl
@[simp] theorem setSession_nextConn (n : Nat) (x : Session) (s : State) : (setSession n x s).nextConn = s.nextConn := rfl
@[simp] theorem setSession_owned (n : Nat) (x : Session) (s : State) : (setSession n x s).owned = s.owned := rfl
@[simp] theorem setSession_noRestart (n : Nat) (x : Session) (s : State) : (setSession n x s).noRestart = s.noRestart := rfl
@[simp] theorem setSession_sectors (n : Nat) (x : Session) (s : State) : (setSession n x s).sectors = s.sectors := rfl
@[simp] theorem setSession_pkg (n : Nat) (x : Session) (s : State) : (setSession n x s).pkg = s.pkg := rfl
@[simp] theorem setSession_pkgOver (n : Nat) (x : Session) (s : State) : (setSession n x s).pkgOver = s.pkgOver := rfl
@[simp] theorem setSession_feedOver (n : Nat) (x : Session) (s : State) : (setSession n x s).feedOver = s.feedOver := rfl
@[simp] theorem setSession_rails (n : Nat) (x : Session) (s : State) : (setSession n x s).rails = s.rails := rfl
@[simp] theorem setSession_convs (n : Nat) (x : Session) (s : State) : (setSession n x s).convs = s.convs := rfl
@[simp] theorem setSession_cutAt (n : Nat) (x : Session) (s : State) : (setSession n x s).cutAt = s.cutAt := rfl
@[simp] theorem setSession_emergAt (n : Nat) (x : Session) (s : State) : (setSession n x s).emergAt = s.emergAt := rfl
@[simp] theorem setSession_shadow (n : Nat) (x : Session) (s : State) : (setSession n x s).shadow = s.shadow := rfl
@[simp] theorem setSession_planAt (n : Nat) (x : Session) (s : State) : (setSession n x s).planAt = s.planAt := rfl
@[simp] theorem setSession_planNow (n : Nat) (x : Session) (s : State) : (setSession n x s).planNow = s.planNow := rfl
@[simp] theorem setSession_clocksOn (n : Nat) (x : Session) (s : State) : (setSession n x s).clocksOn = s.clocksOn := rfl
@[simp] theorem setSession_planFeed (n : Nat) (x : Session) (s : State) : (setSession n x s).planFeed = s.planFeed := rfl
@[simp] theorem setSession_minRefresh (n : Nat) (x : Session) (s : State) : (setSession n x s).minRefresh = s.minRefresh := rfl
@[simp] theorem setSession_planRefresh (n : Nat) (x : Session) (s : State) : (setSession n x s).planRefresh = s.planRefresh := rfl
@[simp] theorem setSession_refBand (n : Nat) (x : Session) (s : State) : (setSession n x s).refBand = s.refBand := rfl
@[simp] theorem setSession_overlay (n : Nat) (x : Session) (s : State) : (setSession n x s).overlay = s.overlay := rfl
@[simp] theorem setSession_calBusy (n : Nat) (x : Session) (s : State) : (setSession n x s).calBusy = s.calBusy := rfl
@[simp] theorem setSession_ndl (n : Nat) (x : Session) (s : State) : (setSession n x s).ndl = s.ndl := rfl
@[simp] theorem setSession_uciTlb (n : Nat) (x : Session) (s : State) : (setSession n x s).uciTlb = s.uciTlb := rfl
@[simp] theorem setSession_uciOff (n : Nat) (x : Session) (s : State) : (setSession n x s).uciOff = s.uciOff := rfl
@[simp] theorem setSession_uciDown (n : Nat) (x : Session) (s : State) : (setSession n x s).uciDown = s.uciDown := rfl
@[simp] theorem setSession_loopAt (n : Nat) (x : Session) (s : State) : (setSession n x s).loopAt = s.loopAt := rfl
@[simp] theorem setSession_inReset (n : Nat) (x : Session) (s : State) : (setSession n x s).inReset = s.inReset := rfl
@[simp] theorem setSession_resetAt (n : Nat) (x : Session) (s : State) : (setSession n x s).resetAt = s.resetAt := rfl
@[simp] theorem setSession_refLost (n : Nat) (x : Session) (s : State) : (setSession n x s).refLost = s.refLost := rfl
@[simp] theorem setSession_tripped (n : Nat) (x : Session) (s : State) : (setSession n x s).tripped = s.tripped := rfl
@[simp] theorem setSession_pllLock (n : Nat) (x : Session) (s : State) : (setSession n x s).pllLock = s.pllLock := rfl
@[simp] theorem setSession_regsUp (n : Nat) (x : Session) (s : State) : (setSession n x s).regsUp = s.regsUp := rfl
@[simp] theorem setSession_idsRead (n : Nat) (x : Session) (s : State) : (setSession n x s).idsRead = s.idsRead := rfl
@[simp] theorem setSession_hostsUp (n : Nat) (x : Session) (s : State) : (setSession n x s).hostsUp = s.hostsUp := rfl
@[simp] theorem setSession_absent (n : Nat) (x : Session) (s : State) : (setSession n x s).absent = s.absent := rfl
@[simp] theorem setSession_rstLow (n : Nat) (x : Session) (s : State) : (setSession n x s).rstLow = s.rstLow := rfl
@[simp] theorem setSession_pending (n : Nat) (x : Session) (s : State) : (setSession n x s).pending = s.pending := rfl

/-! ## What is read back -/

@[simp] theorem bench_setBench_self (b : Nat) (x : Bench) (s : State) : bench (setBench b x s) b = x := by simp [bench]
theorem bench_setBench_ne {b c : Nat} (x : Bench) (s : State) (h : c ≠ b) : bench (setBench b x s) c = bench s c := by
  simp [bench, tget_tset_ne _ b c x _ h]
@[simp] theorem bench_modBench_self (b : Nat) (f : Bench → Bench) (s : State) : bench (modBench b f s) b = f (bench s b) := by
  simp [modBench]
theorem bench_modBench_ne {b c : Nat} (f : Bench → Bench) (s : State) (h : c ≠ b) : bench (modBench b f s) c = bench s c :=
  bench_setBench_ne _ s h
@[simp] theorem partition_setPartition_self (p : Nat) (x : Partition) (s : State) : partition (setPartition p x s) p = x := by
  simp [partition]
theorem partition_setPartition_ne {p q : Nat} (x : Partition) (s : State) (h : q ≠ p) :
    partition (setPartition p x s) q = partition s q := by
  simp [partition, tget_tset_ne _ p q x _ h]
@[simp] theorem partition_modPartition_self (p : Nat) (f : Partition → Partition) (s : State) :
    partition (modPartition p f s) p = f (partition s p) := by simp [modPartition]
theorem partition_modPartition_ne {p q : Nat} (f : Partition → Partition) (s : State) (h : q ≠ p) :
    partition (modPartition p f s) q = partition s q :=
  partition_setPartition_ne _ s h
@[simp] theorem engine_modEngine_self (e : Nat) (f : Engine → Engine) (s : State) : engine (modEngine e f s) e = f (engine s e) := by
  simp [engine]
theorem engine_modEngine_ne {e d : Nat} (f : Engine → Engine) (s : State) (h : d ≠ e) : engine (modEngine e f s) d = engine s d := by
  simp [engine, tget_tset_ne _ e d _ _ h]

/-! ## Units -/

/-- What setting a unit does to the state of the same unit. -/
@[simp] theorem unitState_setUnit_self (kind index : Nat) (st : FenceState) (cause : Status) (s : State) :
    unitState (setUnit kind index st cause s) kind index = st := by
  cases st <;> simp [unitState, setUnit]
/-- Setting a unit leaves the state of every other. -/
theorem unitState_setUnit_ne {kind index k i : Nat} (st : FenceState) (cause : Status) (s : State) (h : unitId k i ≠ unitId kind index) :
    unitState (setUnit kind index st cause s) k i = unitState s k i := by
  cases st <;> simp [unitState, setUnit, tget?_tset_ne _ _ _ _ h, tget?_terase_ne _ _ _ h]

/-! ## Fields of registers -/

/-- A number with a field replaced, by its parts above, in and below the field. -/
theorem setBits_eq (v h l x : Nat) :
    setBits v h l x = (v / 2 ^ l / 2 ^ (h + 1 - l) * 2 ^ (h + 1 - l) + x % 2 ^ (h + 1 - l)) * 2 ^ l + v % 2 ^ l := by
  unfold setBits bits
  generalize 2 ^ l = p
  generalize 2 ^ (h + 1 - l) = q
  have h1 := Nat.div_add_mod v p
  have h2 := Nat.div_add_mod (v / p) q
  generalize v / p = d at *
  generalize v % p = r at *
  generalize d / q = e at *
  generalize d % q = m at *
  generalize x % q = y at *
  subst h2
  rw [Nat.mul_add, Nat.mul_comm p m] at h1
  rw [Nat.add_mul, Nat.mul_comm e q, Nat.mul_comm (q * e) p]
  omega

/-- A field set reads as the value set. -/
theorem bits_setBits_self (v h l x : Nat) : bits (setBits v h l x) h l = x % 2 ^ (h + 1 - l) := by
  have hp : 0 < 2 ^ l := Nat.two_pow_pos l
  rw [setBits_eq, bits, Nat.add_comm, Nat.add_mul_div_right _ _ hp, Nat.div_eq_of_lt (Nat.mod_lt v hp), Nat.zero_add, Nat.add_comm,
    Nat.add_mul_mod_self_right, Nat.mod_mod]

/-- A field set leaves every field below it. -/
theorem bits_setBits_below (v x : Nat) {h l h' l' : Nat} (hd : h' < l) (hl : l' ≤ h') : bits (setBits v h l x) h' l' = bits v h' l' := by
  rw [setBits_eq, bits, bits]
  generalize v / 2 ^ l / 2 ^ (h + 1 - l) * 2 ^ (h + 1 - l) + x % 2 ^ (h + 1 - l) = a
  have hs : 2 ^ l = 2 ^ (l - (h' + 1)) * 2 ^ (h' + 1 - l') * 2 ^ l' := by
    rw [← Nat.pow_add, ← Nat.pow_add]; congr 1; omega
  have hp : 0 < 2 ^ l' := Nat.two_pow_pos l'
  have key : ∀ b r : Nat, (b * 2 ^ l + r) / 2 ^ l' % 2 ^ (h' + 1 - l') = r / 2 ^ l' % 2 ^ (h' + 1 - l') := by
    intro b r
    rw [hs, Nat.add_comm, ← Nat.mul_assoc, ← Nat.mul_assoc, Nat.add_mul_div_right _ _ hp, Nat.add_mul_mod_self_right]
  rw [key]
  conv => rhs; rw [← Nat.div_add_mod v (2 ^ l), Nat.mul_comm (2 ^ l), key]

/-- A field set leaves every field above it. -/
theorem bits_setBits_above (v x : Nat) {h l h' l' : Nat} (hl : l ≤ h) (hd : h < l') : bits (setBits v h l x) h' l' = bits v h' l' := by
  have e : setBits v h l x / 2 ^ (h + 1) = v / 2 ^ (h + 1) := by
    have hp : 0 < 2 ^ l := Nat.two_pow_pos l
    have hq : 0 < 2 ^ (h + 1 - l) := Nat.two_pow_pos _
    have hs : 2 ^ (h + 1) = 2 ^ l * 2 ^ (h + 1 - l) := by rw [← Nat.pow_add]; congr 1; omega
    rw [setBits_eq, hs, ← Nat.div_div_eq_div_mul, ← Nat.div_div_eq_div_mul, Nat.add_comm, Nat.add_mul_div_right _ _ hp,
      Nat.div_eq_of_lt (Nat.mod_lt v hp), Nat.zero_add, Nat.add_comm, Nat.add_mul_div_right _ _ hq,
      Nat.div_eq_of_lt (Nat.mod_lt x hq), Nat.zero_add]
  have hs : 2 ^ l' = 2 ^ (h + 1) * 2 ^ (l' - (h + 1)) := by rw [← Nat.pow_add]; congr 1; omega
  rw [bits, bits, hs, ← Nat.div_div_eq_div_mul, ← Nat.div_div_eq_div_mul, e]

/-- A 32-bit number stays one when a field of it is set. -/
theorem setBits_lt (v h l x : Nat) (hv : v < 2 ^ 32) (hl : l ≤ h) (hh : h < 32) : setBits v h l x < 2 ^ 32 := by
  have e : setBits v h l x / 2 ^ 32 = v / 2 ^ 32 := by
    have hp : 0 < 2 ^ l := Nat.two_pow_pos l
    have hq : 0 < 2 ^ (h + 1 - l) := Nat.two_pow_pos _
    have hs : 2 ^ 32 = 2 ^ l * 2 ^ (h + 1 - l) * 2 ^ (32 - (h + 1)) := by rw [← Nat.pow_add, ← Nat.pow_add]; congr 1; omega
    rw [setBits_eq, hs, ← Nat.div_div_eq_div_mul, ← Nat.div_div_eq_div_mul, ← Nat.div_div_eq_div_mul, ← Nat.div_div_eq_div_mul,
      Nat.add_comm, Nat.add_mul_div_right _ _ hp, Nat.div_eq_of_lt (Nat.mod_lt v hp), Nat.zero_add, Nat.add_comm,
      Nat.add_mul_div_right _ _ hq, Nat.div_eq_of_lt (Nat.mod_lt x hq), Nat.zero_add]
  have h0 : v / 2 ^ 32 = 0 := Nat.div_eq_of_lt hv
  rw [h0] at e
  exact (Nat.div_eq_zero_iff.mp e).resolve_left (by decide)

theorem raw_lt (s : State) (r : Reg) (i j : Nat) : raw s r i j < 2 ^ 32 := BitVec.isLt _

@[simp] theorem raw_setRaw_self (s : State) (r : Reg) (i j v : Nat) : raw (setRaw r i j v s) r i j = v % 2 ^ 32 := by
  simp [raw]
theorem raw_setRaw_ne (s : State) {r r' : Reg} {i j i' j' : Nat} (v : Nat) (h : regAddr r' i' j' ≠ regAddr r i j) :
    raw (setRaw r i j v s) r' i' j' = raw s r' i' j' := by
  simp [raw, tget_tset_ne _ _ _ _ _ h]

/-- A register after one of its fields is set. -/
theorem raw_setFld_self (s : State) (r : Reg) (i j v : Nat) {h l : Nat} (hl : l ≤ h) (hh : h < 32) :
    raw (setFld r i j h l v s) r i j = setBits (raw s r i j) h l v := by
  rw [setFld, raw_setRaw_self, Nat.mod_eq_of_lt (setBits_lt _ h l v (raw_lt s r i j) hl hh)]
theorem raw_setFld_ne (s : State) {r r' : Reg} {i j i' j' h l : Nat} (v : Nat) (hr : regAddr r' i' j' ≠ regAddr r i j) :
    raw (setFld r i j h l v s) r' i' j' = raw s r' i' j' :=
  raw_setRaw_ne s _ hr

/-- A field set reads as the value set. -/
theorem fld_setFld_self (s : State) (r : Reg) (i j v : Nat) {h l : Nat} (hl : l ≤ h) (hh : h < 32) :
    fld (setFld r i j h l v s) r i j h l = v % 2 ^ (h + 1 - l) := by
  rw [fld, raw_setFld_self s r i j v hl hh, bits_setBits_self]
theorem fld_setFld_below (s : State) (r : Reg) (i j v : Nat) {h l h' l' : Nat} (hl : l ≤ h) (hh : h < 32) (hd : h' < l) (hl' : l' ≤ h') :
    fld (setFld r i j h l v s) r i j h' l' = fld s r i j h' l' := by
  rw [fld, raw_setFld_self s r i j v hl hh, bits_setBits_below _ _ hd hl', fld]
theorem fld_setFld_above (s : State) (r : Reg) (i j v : Nat) {h l h' l' : Nat} (hl : l ≤ h) (hh : h < 32) (hd : h < l') :
    fld (setFld r i j h l v s) r i j h' l' = fld s r i j h' l' := by
  rw [fld, raw_setFld_self s r i j v hl hh, bits_setBits_above _ _ hl hd, fld]
theorem fld_setFld_ne (s : State) {r r' : Reg} {i j i' j' h l h' l' : Nat} (v : Nat) (hr : regAddr r' i' j' ≠ regAddr r i j) :
    fld (setFld r i j h l v s) r' i' j' h' l' = fld s r' i' j' h' l' := by
  rw [fld, raw_setFld_ne s v hr, fld]

end Sys2Proof.Machine
end

