-- ==== Sys2Proof/Laws/Registers.lean ====
section
/-! SUPPORT. What the write of a register over a path can do. -/

namespace Sys2Proof.Machine

/-- A served write of a register that is no half of a 64-bit quantity: it is answered with its block's status, and takes effect when that is
0. -/
theorem regCommand_writes {s : State} {path : Path} {r : Reg} {i j : Nat} {v : W32} (h : WritesReg s path r i j v)
    (hi : r.hiOf = none) (lo : r.loOf = none) (hw : writable r = true) :
    regCommand path r i j v s =
      if blockStatus (fetched path r i j v s) ⟨r, i, j⟩ v.toNat = 0 then
        answered path r i j 0 (fetched path r i j v s) (commitPlace ⟨r, i, j⟩ v.toNat none (fetched path r i j v s))
      else answered path r i j (blockStatus (fetched path r i j v s) ⟨r, i, j⟩ v.toNat) (fetched path r i j v s)
        (fetched path r i j v s) := by
  obtain ⟨served, here, dec, may, opn⟩ := h
  unfold fetched at *
  simp only [regCommand, pathWrite, regWriteM, writeThrough, answered, served, here, dec, may, opn, hi, lo, hw, Bool.not_true, cond_false,
    cond_true]
  generalize blockStatus (pathTaken path (regAddr r i j) v.toNat s) ⟨r, i, j⟩ v.toNat = st
  by_cases hb : st = 0
  · simp [hb]
  · have hc : (st == 0) = false := by simpa using hb
    rw [if_neg hb]
    simp only [hc, cond_false]

/-- The write of FWP_CTL as the statements say it. -/
theorem regCommand_fwpCtl {s : State} {path : Path} {v : W32} (h : WritesReg s path .fwpCtl 0 0 v) :
    regCommand path .fwpCtl 0 0 v s = answered path .fwpCtl 0 0 0 (fetched path .fwpCtl 0 0 v s)
      (fwpCtlWritten v.toNat (written .fwpCtl 0 0 v (fetched path .fwpCtl 0 0 v s))) := by
  rw [regCommand_writes h rfl rfl rfl]
  rfl

end Sys2Proof.Machine
end

