-- ==== Sys2Proof/Laws/Words.lean ====
section
/-! SUPPORT. The fields of an EQ word read back from the word that they make (Table 3.1). -/

namespace Sys2Proof.Machine

/-- A word is the sum of its fields, each at its place. -/
theorem toNat_wordOf (u c : Nat) (f : Fields) (hu : u < 16) (hc : c < 256) :
    (wordOf u c f).toNat = c * 2 ^ 120 + u * 2 ^ 116 + f.idx.toNat * 2 ^ 112 + f.psel.toNat * 2 ^ 108
      + f.pinv.toNat * 2 ^ 107 + f.fmt.toNat * 2 ^ 100 + f.mod.toNat * 2 ^ 92 + f.o1.toNat * 2 ^ 84 + f.o2.toNat * 2 ^ 76
      + f.o3.toNat * 2 ^ 68 + f.o4.toNat * 2 ^ 60 + f.imm.toNat := by
  have := f.idx.isLt; have := f.psel.isLt; have := f.pinv.isLt; have := f.fmt.isLt; have := f.mod.isLt
  have := f.o1.isLt; have := f.o2.isLt; have := f.o3.isLt; have := f.o4.isLt; have := f.imm.isLt
  simp only [wordOf, BitVec.toNat_ofNat]
  exact Nat.mod_eq_of_lt (by omega)

section
variable (u c : Nat) (f : Fields) (hu : u < 16) (hc : c < 256)
include hu hc

theorem wOpc_wordOf : wOpc (wordOf u c f) = c := by
  have := f.idx.isLt; have := f.psel.isLt; have := f.pinv.isLt; have := f.fmt.isLt; have := f.mod.isLt
  have := f.o1.isLt; have := f.o2.isLt; have := f.o3.isLt; have := f.o4.isLt; have := f.imm.isLt
  simp only [wOpc, toNat_wordOf u c f hu hc, bits, Nat.reduceAdd, Nat.reduceSub, Nat.reducePow]
  omega

theorem wUnit_wordOf : wUnit (wordOf u c f) = u := by
  have := f.idx.isLt; have := f.psel.isLt; have := f.pinv.isLt; have := f.fmt.isLt; have := f.mod.isLt
  have := f.o1.isLt; have := f.o2.isLt; have := f.o3.isLt; have := f.o4.isLt; have := f.imm.isLt
  simp only [wUnit, toNat_wordOf u c f hu hc, bits, Nat.reduceAdd, Nat.reduceSub, Nat.reducePow]
  omega

theorem wIdx_wordOf : wIdx (wordOf u c f) = f.idx.toNat := by
  have := f.idx.isLt; have := f.psel.isLt; have := f.pinv.isLt; have := f.fmt.isLt; have := f.mod.isLt
  have := f.o1.isLt; have := f.o2.isLt; have := f.o3.isLt; have := f.o4.isLt; have := f.imm.isLt
  simp only [wIdx, toNat_wordOf u c f hu hc, bits, Nat.reduceAdd, Nat.reduceSub, Nat.reducePow]
  omega

theorem wPsel_wordOf : wPsel (wordOf u c f) = f.psel.toNat := by
  have := f.idx.isLt; have := f.psel.isLt; have := f.pinv.isLt; have := f.fmt.isLt; have := f.mod.isLt
  have := f.o1.isLt; have := f.o2.isLt; have := f.o3.isLt; have := f.o4.isLt; have := f.imm.isLt
  simp only [wPsel, toNat_wordOf u c f hu hc, bits, Nat.reduceAdd, Nat.reduceSub, Nat.reducePow]
  omega

theorem wFmt_wordOf : wFmt (wordOf u c f) = f.fmt.toNat := by
  have := f.idx.isLt; have := f.psel.isLt; have := f.pinv.isLt; have := f.fmt.isLt; have := f.mod.isLt
  have := f.o1.isLt; have := f.o2.isLt; have := f.o3.isLt; have := f.o4.isLt; have := f.imm.isLt
  simp only [wFmt, toNat_wordOf u c f hu hc, bits, Nat.reduceAdd, Nat.reduceSub, Nat.reducePow]
  omega

theorem wMod_wordOf : wMod (wordOf u c f) = f.mod.toNat := by
  have := f.idx.isLt; have := f.psel.isLt; have := f.pinv.isLt; have := f.fmt.isLt; have := f.mod.isLt
  have := f.o1.isLt; have := f.o2.isLt; have := f.o3.isLt; have := f.o4.isLt; have := f.imm.isLt
  simp only [wMod, toNat_wordOf u c f hu hc, bits, Nat.reduceAdd, Nat.reduceSub, Nat.reducePow]
  omega

theorem wOperand_wordOf_one : wOperand (wordOf u c f) 1 = f.o1.toNat := by
  have := f.idx.isLt; have := f.psel.isLt; have := f.pinv.isLt; have := f.fmt.isLt; have := f.mod.isLt
  have := f.o1.isLt; have := f.o2.isLt; have := f.o3.isLt; have := f.o4.isLt; have := f.imm.isLt
  simp only [wOperand, toNat_wordOf u c f hu hc, bits, Nat.reduceAdd, Nat.reduceSub, Nat.reduceMul, Nat.reducePow]
  omega

theorem wOperand_wordOf_two : wOperand (wordOf u c f) 2 = f.o2.toNat := by
  have := f.idx.isLt; have := f.psel.isLt; have := f.pinv.isLt; have := f.fmt.isLt; have := f.mod.isLt
  have := f.o1.isLt; have := f.o2.isLt; have := f.o3.isLt; have := f.o4.isLt; have := f.imm.isLt
  simp only [wOperand, toNat_wordOf u c f hu hc, bits, Nat.reduceAdd, Nat.reduceSub, Nat.reduceMul, Nat.reducePow]
  omega

theorem wOperand_wordOf_three : wOperand (wordOf u c f) 3 = f.o3.toNat := by
  have := f.idx.isLt; have := f.psel.isLt; have := f.pinv.isLt; have := f.fmt.isLt; have := f.mod.isLt
  have := f.o1.isLt; have := f.o2.isLt; have := f.o3.isLt; have := f.o4.isLt; have := f.imm.isLt
  simp only [wOperand, toNat_wordOf u c f hu hc, bits, Nat.reduceAdd, Nat.reduceSub, Nat.reduceMul, Nat.reducePow]
  omega

theorem wOperand_wordOf_four : wOperand (wordOf u c f) 4 = f.o4.toNat := by
  have := f.idx.isLt; have := f.psel.isLt; have := f.pinv.isLt; have := f.fmt.isLt; have := f.mod.isLt
  have := f.o1.isLt; have := f.o2.isLt; have := f.o3.isLt; have := f.o4.isLt; have := f.imm.isLt
  simp only [wOperand, toNat_wordOf u c f hu hc, bits, Nat.reduceAdd, Nat.reduceSub, Nat.reduceMul, Nat.reducePow]
  omega

theorem wImm_wordOf : wImm (wordOf u c f) = f.imm.toNat := by
  have := f.idx.isLt; have := f.psel.isLt; have := f.pinv.isLt; have := f.fmt.isLt; have := f.mod.isLt
  have := f.o1.isLt; have := f.o2.isLt; have := f.o3.isLt; have := f.o4.isLt; have := f.imm.isLt
  simp only [wImm, toNat_wordOf u c f hu hc, bits, Nat.reduceAdd, Nat.reduceSub, Nat.reducePow]
  omega

theorem wPinv_wordOf : wPinv (wordOf u c f) = (f.pinv == 1) := by
  have := f.idx.isLt; have := f.psel.isLt; have := f.pinv.isLt; have := f.fmt.isLt; have := f.mod.isLt
  have := f.o1.isLt; have := f.o2.isLt; have := f.o3.isLt; have := f.o4.isLt; have := f.imm.isLt
  have h : (wordOf u c f).toNat / 2 ^ 107 % 2 = f.pinv.toNat := by
    simp only [toNat_wordOf u c f hu hc, Nat.reducePow]
    omega
  rw [wPinv, bit, h]
  cases hp : f.pinv == 1
  · have : f.pinv.toNat ≠ 1 := fun e => by simp [← BitVec.toNat_inj, e] at hp
    simpa using this
  · have : f.pinv = 1 := by simpa using hp
    rw [this]
    rfl

end

end Sys2Proof.Machine
end

