-- ==== Sys2Proof/Laws/Sequencer.lean ====
section
/-! SUPPORT. What a unit 0 command comes to: the one law of `seqCommand`. -/

namespace Sys2Proof.Machine

/-- A taken word, given as `w`: its fields are those of the command. -/
structure TakenWord (s : State) (b opc : Nat) (f : Fields) (w : W128) : Prop where
  word : wordOf 0 opc f = w
  unit : wUnit w = 0
  opc : wOpc w = opc
  mod : wMod w = f.mod.toNat
  imm : wImm w = f.imm.toNat
  one : wOperand w 1 = f.o1.toNat
  two : wOperand w 2 = f.o2.toNat
  three : wOperand w 3 = f.o3.toNat

theorem takenWord (s : State) (b opc : Nat) (f : Fields) (ho : opc < 256) : ∃ w, TakenWord s b opc f w :=
  have hu : 0 < 16 := by decide
  ⟨wordOf 0 opc f, rfl, wUnit_wordOf 0 opc f hu ho, wOpc_wordOf 0 opc f hu ho, wMod_wordOf 0 opc f hu ho, wImm_wordOf 0 opc f hu ho,
    wOperand_wordOf_one 0 opc f hu ho, wOperand_wordOf_two 0 opc f hu ho, wOperand_wordOf_three 0 opc f hu ho⟩

/-- What the result of a unit 0 instruction makes of the state (R83). -/
def afterSeq (b opc : Nat) (w : W128) (s : State) : SeqRes → State
  | .fault st => seqFault b st s
  | .stall c => seqStall b c (bif c == 9 then modBench b (fun x => { x with yielded := some (wImmBits w 15 0) }) s else s)
  | .done y npc => setBench b (bif opc == 0x3D then { seqNext npc y with seq := 4 } else seqNext npc y) s

/-- A sequencer that takes a word whose count is not zero executes it. -/
theorem seqCommand_takes {s : State} {b opc : Nat} {f : Fields} {w : W128} (h : Takes s b opc f) (ho : opc < 256)
    (hw : wordOf 0 opc f = w)
    (hz : countZero w (fun n => (((captureVals (bench s b) w)[n - 1]?).getD 0).toNat) = false) :
    seqCommand b opc f s = afterSeq b opc w s (seqExec s b (bench s b) w) := by
  have hu := wUnit_wordOf 0 opc f (by decide) ho
  have hp := wPsel_wordOf 0 opc f (by decide) ho
  have hi := wPinv_wordOf 0 opc f (by decide) ho
  have hop := wOpc_wordOf 0 opc f (by decide) ho
  have hd := h.passes
  rw [hw] at hu hp hi hop hd
  have hcp : completionPred w = none := by
    unfold completionPred
    split
    · rfl
    · rw [hu]
      rfl
  have hx : (getP (bench s b) (wPsel w) ^^ wPinv w) = true := by
    rw [hp, hi, h.pred]
    cases f.pinv == 1 <;> rfl
  unfold seqCommand issueWord
  rw [h.runs, hw, hcp]
  extract_lets x st vals v
  have hst : st = 0 := hd
  have hv : countZero w v = false := hz
  rw [hst, hx, hv]
  show issueOperands b x w s = _
  unfold issueOperands
  rw [hu, hop]
  cases seqExec s b x w <;> rfl

/-- A sequencer that does not run takes no word. -/
theorem seqCommand_idle {s : State} {b opc : Nat} {f : Fields} (h : seqRuns (bench s b) = false) : seqCommand b opc f s = s := by
  unfold seqCommand
  rw [h]
  rfl

/-- A word that fails the decode checks faults its sequencer. -/
theorem seqCommand_bad {s : State} {b opc : Nat} {f : Fields} (h : seqRuns (bench s b) = true)
    (hd : decodeChecks (wordOf 0 opc f) ≠ 0) : seqCommand b opc f s = seqFault b (decodeChecks (wordOf 0 opc f)) s := by
  unfold seqCommand issueWord
  rw [h]
  generalize decodeChecks (wordOf 0 opc f) = st at hd
  have e : (st == 0) = false := by simpa using hd
  simp only [e]
  rfl

/-- A word whose predicate is false retires at issue (R107). -/
theorem seqCommand_false {s : State} {b opc : Nat} {f : Fields} (ho : opc < 256) (h : seqRuns (bench s b) = true)
    (hd : decodeChecks (wordOf 0 opc f) = 0) (hn : getP (bench s b) f.psel.toNat ≠ !(f.pinv == 1)) :
    seqCommand b opc f s = setBench b (seqNext ((bench s b).pc + 16) (bench s b)) s := by
  have hp := wPsel_wordOf 0 opc f (by decide) ho
  have hi := wPinv_wordOf 0 opc f (by decide) ho
  have hx : (getP (bench s b) (wPsel (wordOf 0 opc f)) ^^ wPinv (wordOf 0 opc f)) = false := by
    rw [hp, hi]
    cases hq : getP (bench s b) f.psel.toNat <;> cases hf : f.pinv == 1 <;> simp_all
  unfold seqCommand issueWord
  rw [h]
  generalize wordOf 0 opc f = w at hd hx
  extract_lets x st
  have hst : st = 0 := hd
  rw [hst, hx]
  rfl

end Sys2Proof.Machine
end

