-- ==== Sys2Proof/WellFormed.lean ====
section
/-! DEFINITION. Which commands are well formed: the ranges and lengths of their operands that the operand types do not hold already. The
machine gives every command its effect, well formed or not; these checks say which commands the spec can mean. -/

namespace Sys2Proof

/-- A 64-byte-aligned physical address of 42 bits. -/
def lineAddress (pa : Nat) : Bool := Nat.blt pa (2 ^ 42) && pa % 64 == 0
/-- A write brings 64 bytes (R281). -/
def accessOk : Access64 → Bool
  | .read => true
  | .write data => data.length == 64
/-- Symbol errors are at the 36 symbols of a line (R267). -/
def errsOk (err : List (Nat × BitVec 16)) : Bool := err.all fun e => Nat.blt e.1 36
/-- Operations on 8 bytes (Table 11.4). -/
def atomicWide : AtomicOp → Bool
  | .addI64 | .minS64 | .minU64 | .maxS64 | .maxU64 | .cas64 => true
  | _ => false
/-- A packet is 1 to 17 flits (Table 10.9). -/
def packetOk (p : Packet) : Bool := Nat.ble 1 p.route.nflit && Nat.ble p.route.nflit 17
/-- The fields of Table 10.9 hold their numbers, and only a TAIL completes a packet. -/
def flitOk (f : Flit) : Bool :=
  Nat.blt f.seq 4096 && Nat.blt f.ack 4096 && (match f.packet with | some p => f.tail && packetOk p | none => true)
/-- A gateway's write is at most 64 KiB and its read at most 4,096 bytes, of whole words (R363, R367, R389). -/
def gatewayOk : GatewayMove → Bool
  | .outward _ _ _ _ => true
  | .inward _ _ _ off (some data) _ => Nat.ble 1 data.length && Nat.ble data.length 65536 && data.length % 4 == 0 && off.toNat % 4 == 0
  | .inward _ _ _ off none len => Nat.ble 1 len && Nat.ble len 4096 && len % 4 == 0 && off.toNat % 4 == 0
/-- A CSRED reduces up to 8 values (R407); a chunk is whole elements. -/
def collOk : CollMsg → Bool
  | .contribution _ _ values _ _ => Nat.ble values.length 8
  | .go _ _ _ values _ => Nat.ble values.length 8
  | .summary _ _ _ items => items.all fun i => Nat.ble i.values.length 8
  | .chunk _ _ _ _ data => data.length % 2 == 0
  | .result _ _ _ _ _ data _ => data.length % 2 == 0
  | .abort _ _ _ _ _ => true
  | .notReady _ _ _ _ => true
/-- The units of Table 16.1. -/
def unitOk (kind index : Nat) : Bool :=
  match kind with
  | 1 => Nat.blt index 512 && Nat.blt (index % 16) 13
  | 2 => Nat.blt index 32
  | 3 => Nat.blt index 32
  | 4 => Nat.blt index 332
  | 5 => Nat.blt index 1536 && Nat.blt (index % 64) (bif Nat.ble 10 (index / 128) then 8 else 64)
  | 6 => Nat.blt index 12
  | 7 => Nat.blt index 768
  | 8 => Nat.blt index 4
  | 9 => Nat.blt index 8
  | 10 => Nat.blt index 35
  | _ => false
/-- Each half of a direction has 128 data wires and a valid wire (R509, R515). -/
def dirOk (r : DirTest) : Bool := Nat.ble r.failLow 129 && Nat.ble r.failHigh 129
/-- An access of the open-site die is one 64-byte unit or one word (R521). -/
def dieOk : DieAccess → Bool
  | .read va => va % 64 == 0
  | .write va data => va % 64 == 0 && data.length == 64
  | .atomic va op _ _ => va % 4 == 0 && (!(atomicWide op) || va % 8 == 0)

/-- Whether a command is well formed. -/
def Instr.wf (i : Instr) : Bool :=
  match i with
  | .registerWrite _ _ _ _ => true
  | .workClockUpdate _ _ => true
  | .issueStep _ _ => true
  | .streamBufferFill _ => true
  | .stationStart _ _ => true
  | .stationRetire _ _ => true
  | .sadd _ _ => true
  | .ssub _ _ => true
  | .smul _ _ => true
  | .sand _ _ => true
  | .sor _ _ => true
  | .sxor _ _ => true
  | .sshl _ _ => true
  | .sshr _ _ => true
  | .ssra _ _ => true
  | .smin _ _ => true
  | .smax _ _ => true
  | .sli _ _ => true
  | .slih _ _ => true
  | .saddi _ _ => true
  | .sld _ _ => true
  | .sst _ _ => true
  | .scmp _ _ => true
  | .plog _ _ => true
  | .thset _ _ => true
  | .thmov _ _ => true
  | .thget _ _ => true
  | .chopen _ _ => true
  | .chclose _ _ => true
  | .pbind _ _ => true
  | .chstat _ _ => true
  | .br _ _ => true
  | .brs _ _ => true
  | .loop _ _ => true
  | .call _ _ => true
  | .ret _ _ => true
  | .waitq _ _ => true
  | .waitp _ _ => true
  | .fence _ _ => true
  | .waitc _ _ => true
  | .yield _ _ => true
  | .endRole _ _ => true
  | .nop _ _ => true
  | .benchid _ _ => true
  | .systemQueueTake _ _ => true
  | .segmentEnd _ _ _ => true
  | .faultArbitration _ _ _ => true
  | .programEnd _ _ => true
  | .channelWriteComplete _ _ => true
  | .creditReturn _ _ => true
  | .channelCloseComplete _ _ _ => true
  | .mma _ _ => true
  | .mmadr _ _ => true
  | .accld _ _ => true
  | .accz _ _ => true
  | .qnt _ _ => true
  | .dqt _ _ => true
  | .had _ _ => true
  | .asy _ _ => true
  | .vseq _ _ => true
  | .vred _ _ => true
  | .fxload _ _ => true
  | .vfill _ _ => true
  | .swt _ => true
  | .swx _ => true
  | .swga _ => true
  | .swsc _ => true
  | .swc _ => true
  | .cred _ => true
  | .cxsum _ => true
  | .sprd _ _ _ => true
  | .spwr _ _ _ => true
  | .sptld _ _ _ => true
  | .sptst _ _ _ => true
  | .spxf _ _ => true
  | .sppf _ _ => true
  | .henc _ => true
  | .hdec _ => true
  | .hsum _ => true
  | .collectiveChunkFold _ => true
  | .assayUpdateApply _ _ _ => true
  | .seedset _ => true
  | .asyclr _ => true
  | .numhist _ => true
  | .asysync _ => true
  | .numCtlWrite _ _ _ _ => true
  | .numAsybaseWrite _ _ _ _ _ => true
  | .galloc _ => true
  | .gfree _ => true
  | .palloc _ _ => true
  | .pfree _ => true
  | .ppin _ _ => true
  | .pprot _ => true
  | .pquery _ => true
  | .pageWalk _ _ _ => true
  | .driftDemandFetch _ vpn _ => Nat.blt vpn (2 ^ 27)
  | .driftFragmentArrive _ vpn _ _ => Nat.blt vpn (2 ^ 27)
  | .driftMoveComplete _ vpn _ => Nat.blt vpn (2 ^ 27)
  | .driftDemote _ _ => true
  | .heatDecay _ _ => true
  | .frameScrub _ => true
  | .alcQuotaWrite _ _ _ _ _ => true
  | .schBenchWrite _ _ _ _ => true
  | .schCtlWrite _ _ _ _ => true
  | .schSaveqWrite _ _ _ _ => true
  | .alcBwWrite _ _ _ _ => true
  | .tokenRefill => true
  | .launchRecordTake _ _ _ => true
  | .programPlace _ _ => true
  | .programStart _ _ => true
  | .roleStopAtYield _ _ => true
  | .yieldTimeout _ _ => true
  | .preemptSaveComplete _ _ => true
  | .restoreComplete _ _ => true
  | .hbmAccess pa acc err _ => lineAddress pa && accessOk acc && errsOk err
  | .hbmScrub pa err _ _ => lineAddress pa && errsOk err
  | .stackTempSample _ _ _ => true
  | .nearMemoryAtomic pa op _ _ => Nat.blt pa (2 ^ 42) && pa % 4 == 0 && (!(atomicWide op) || pa % 8 == 0)
  | .moduleParityLoss _ _ _ => true
  | .ringLoopUpdate _ _ _ _ _ _ _ => true
  | .lanePowerSample _ _ _ _ _ _ _ => true
  | .lossOfLight _ _ _ => true
  | .laneRetrain _ _ _ _ _ _ => true
  | .laneUp _ _ _ _ _ => true
  | .laserBiasStep _ _ _ => true
  | .laserFadeDeclare _ _ _ _ => true
  | .swapWarm _ _ => true
  | .swapLock _ _ _ => true
  | .swapQuiesce _ _ => true
  | .swapSwitch _ _ => true
  | .swapResume _ _ => true
  | .swapAbandon _ _ => true
  | .calibrationDue _ _ _ => true
  | .calibrationWindow _ _ _ => true
  | .optCalnow _ _ _ _ => true
  | .optPark _ _ _ _ => true
  | .optSwapReq _ _ _ _ => true
  | .optSwapUnfence _ _ _ _ => true
  | .fibreOpenDetect _ _ => true
  | .shutterProbe _ _ _ => true
  | .engineCoreRestart _ _ => true
  | .helloSend _ _ _ _ => true
  | .helloReceive _ _ _ _ _ => true
  | .discoveryComplete _ => true
  | .packetInject _ pkt _ => packetOk pkt
  | .packetArrive _ pkt _ => packetOk pkt
  | .fabSwap _ _ _ => true
  | .fabForce _ _ _ => true
  | .drainMarkerArrive _ _ _ _ => true
  | .drainRelease _ => true
  | .drainWarnTimeout _ => true
  | .flitReceive _ flit wire _ _ => flitOk flit && wire.bytes.length == 244
  | .flitGapTimeout _ _ => true
  | .replayTimeout _ _ => true
  | .nakReceive _ ack _ => Nat.blt ack 4096
  | .linkFailure _ _ => true
  | .weatherRecord lanes _ => lanes.length == 480 && lanes.all fun x => x.occ.length == 4 && x.bp.length == 4
  | .weatherAppend bytes => bytes.length == 4096
  | .fabPsliceWrite _ _ _ _ => true
  | .rld _ _ => true
  | .rst _ _ => true
  | .ramo _ _ => true
  | .rput _ _ => true
  | .rget _ _ => true
  | .rown _ _ => true
  | .rankTableWrite _ _ _ _ _ _ => true
  | .requestArrive pkt _ => packetOk pkt
  | .requestApply _ _ _ => true
  | .responseArrive pkt _ => packetOk pkt
  | .nackResend tag _ => Nat.blt tag (2 ^ 14)
  | .remoteRetransmit tag _ _ => Nat.blt tag (2 ^ 14)
  | .floorSend _ _ => true
  | .rmaPurge _ _ _ => true
  | .gatewayForward g _ => gatewayOk g
  | .gatewayConnectionLost _ _ => true
  | .cbar _ _ => true
  | .csred _ _ => true
  | .ctar _ _ => true
  | .ctrs _ _ => true
  | .ctag _ _ => true
  | .ctbc _ _ => true
  | .signatureArrive _ _ msg _ => collOk msg
  | .notReadyResend _ _ _ _ _ => true
  | .goArrive _ msg _ => collOk msg
  | .chunkArrive _ _ msg _ => collOk msg
  | .collectiveAbort _ msg _ => collOk msg
  | .collectiveTimeout _ _ _ _ _ => true
  | .collectiveResend _ _ msg _ => collOk msg
  | .openSession _ _ _ _ => true
  | .attach _ _ _ _ _ => true
  | .close _ _ _ => true
  | .heartbeat _ _ => true
  | .regread _ _ _ => true
  | .regwrite _ _ _ => true
  | .mrreg _ _ _ _ _ => true
  | .mrdereg _ _ _ => true
  | .intakeAdd _ _ _ _ _ _ => true
  | .intakeDel _ _ _ => true
  | .cancel _ _ _ _ _ => true
  | .evsub _ _ _ => true
  | .gwconn _ _ _ _ _ => true
  | .messageReceive _ m _ => m.payload.length == m.length || Nat.blt 65472 m.length
  | .leaseCheck _ => true
  | .orphrunExpire _ _ => true
  | .holdExpire _ _ => true
  | .sessionFreed _ _ => true
  | .tailNotice _ _ _ => true
  | .rdmaDataAccess _ _ _ write len _ => match write with | some data => data.length == len | none => true
  | .statusWindowRead _ _ _ _ _ => true
  | .hostFrameReceive _ _ _ => true
  | .cnpReceive _ _ => true
  | .ceMarkReceive _ _ => true
  | .cnpRateRecover _ _ => true
  | .connectionRequest _ _ _ => true
  | .hostPortLinkDown _ _ => true
  | .watchdogExpire _ _ => true
  | .fwpRestart _ _ _ => true
  | .fwpUnfence _ _ _ => true
  | .processorRestartDone _ _ => true
  | .stewardFailover _ _ => true
  | .bootStart _ _ => true
  | .bootImagesVerified _ => true
  | .identityKeysReady _ => true
  | .trialTimeout _ => true
  | .updStage _ _ _ _ => true
  | .updActivateLive _ _ _ => true
  | .updActivateReset _ _ _ => true
  | .updCommit _ _ _ => true
  | .updAbort _ _ _ => true
  | .emergencyHoldoffEnd _ => true
  | .liveActivationStep _ _ => true
  | .attExtend _ _ _ => true
  | .attOwnerEnrol _ _ _ => true
  | .attOwnerRevoke _ _ _ => true
  | .getVersion _ _ => true
  | .getCapabilities _ _ => true
  | .negotiateAlgorithms _ _ _ _ => true
  | .getDigests _ _ => true
  | .getCertificate _ _ _ _ _ => true
  | .challenge _ _ nonce _ => nonce.length == 32
  | .getMeasurements _ _ _ nonce _ => nonce.length == 32
  | .spdmUnsupported _ _ _ => true
  | .spdmSignComplete _ => true
  | .spdmTcpConnect _ _ => true
  | .avsbusReadback _ _ _ => true
  | .packagePowerSample _ rails _ => rails.length == 4
  | .ladderStep _ _ _ => true
  | .rateEvaluate sector sensors _ => sensors.length == (bif Nat.blt sector.val 24 then 4 else 2)
  | .pwrBrake _ _ => true
  | .converterFault _ _ _ => true
  | .regulatorFault _ _ => true
  | .thermalTrip _ _ _ => true
  | .pathMonitorAlarm _ _ _ => true
  | .marginPlanCompute entries refresh _ lasers heaters _ => entries.length == 24 && refresh.length == 12 && (lasers.all fun x => Nat.blt x.1 12 && Nat.blt x.2 16) && heaters.all fun e => Nat.blt e 12
  | .ageNow _ _ _ => true
  | .planApply _ _ => true
  | .calStore _ _ _ => true
  | .calApply _ _ _ => true
  | .calClear _ _ _ => true
  | .errFence _ _ _ => true
  | .errUnfence _ _ _ => true
  | .fenceCause kind index _ _ => unitOk kind.val index
  | .drainEnd kind index _ => unitOk kind.val index
  | .recoveryEnd kind index _ failed _ => unitOk kind.val index && failed.all fun k => Nat.blt k 16
  | .uncontainedError kind index _ => unitOk kind.val index
  | .census _ _ => true
  | .errCensusGo _ _ _ => true
  | .censusComplete _ => true
  | .evpost _ _ => true
  | .eventRaise _ _ _ _ _ _ => true
  | .telemetryQueueLeave _ => true
  | .ndlGroupReceive _ _ _ _ _ _ => true
  | .ndlRetrain _ _ r0 r1 _ _ => dirOk r0 && dirOk r1
  | .ndlAutoRecover _ _ => true
  | .dieLinkTrain _ r0 r1 _ => dirOk r0 && dirOk r1
  | .ucieDiscovery _ rate narrow _ => rate.length == 4 && narrow.length == 4
  | .ucieAccess a _ => dieOk a
  | .ucieModuleDown _ _ => true
  | .dbgLoop _ _ _ => true
  | .dbgP1500 _ _ _ => true
  | .powerOnReset => true
  | .boardReset _ => true
  | .pwrokFall _ => true
  | .internalReset _ _ => true
  | .refclkLoss _ => true
  | .refclkHoldoverExpire _ => true
  | .refclkReturn _ => true
  | .pllLock _ => true
  | .regulatorsUp _ => true
  | .identityRead _ stratus lsms converters _ => stratus.length == 4 && lsms.length == 12 && converters.length == 5
  | .laserEnable _ _ => true
  | .lsmPresenceChange _ _ _ => true
  | .hbmTrainingDone fails _ => fails.all fun c => Nat.blt c 768
  | .hostPortsTrained up _ => up.length == 4
  | .laneAbsentTimeout _ _ _ _ => true
  | .vfeedRestore _ => true
  | .resetRelease _ => true
  | .hostPortLinkUp _ _ => true
  | .moduleFailureReport _ _ => true
  | .updStageComplete _ _ => true
  | .commitComplete _ => true
  | .calCommandComplete _ _ => true
  | .dbgLoopComplete _ errs _ => Nat.blt errs (2 ^ 32)
  | .dbgP1500Complete _ _ => true
  | .quantumExpire _ _ => true
  | .lsmHoursUpdate _ _ _ => true

end Sys2Proof
end

