-- ==== Sys2Proof/Tests/Slice0.lean ====
section
/-! SUPPORT. Tests: words and results worked out by hand from the spec, the checks of well-formedness, and for every statement states and
operands that meet its hypotheses. -/

namespace Sys2Proof.Tests

open Sys2Proof Sys2Proof.Machine

set_option Elab.async false

/-! ## Helpers -/

/-- Whether a command answers a next state with a property. -/
def after (o : Host.Outcome State Fault Refusal) (p : State → Bool) : Bool := match o with | .next s => p s | _ => false
/-- Whether a command answers this next state. -/
def gives (o : Host.Outcome State Fault Refusal) (t : State) : Bool := after o fun s => decide (s = t)

/-- The next state, for states built by commands. -/
def nextOf (o : Host.Outcome State Fault Refusal) : State := match o with | .next s => s | _ => State.reset

/-- A queue pair of a host port. -/
def terms0 : ConnTerms := ⟨4096, 7, 14⟩
def qpOf (port : Nat) (k : QpKind) : QueuePair :=
  { port := port, kind := k, terms := terms0, failed := false, rate := 2 ^ 32, rateAt := 0, sentCnp := none }
/-- Reset with no fuse blown, so that states can be compared, the admin host connected over port 0, and the hub
sectors of Table 1.3 powered. -/
def plain : State := { State.reset with
  otp := { vendor := [], owner := [⟨none, false⟩, ⟨none, false⟩, ⟨none, false⟩, ⟨none, false⟩], counter := 0 },
  ctl := [(regAddr .hstPstat 0 0, 0x80000000)], qps := [(900, qpOf 0 .admin)],
  sectors := [26, 27, 28, 30, 31].map fun k => (k, { Sector.reset with regOff := false }) }

def zeros : Fields := ⟨0, 0, 0, 0, 0, 0, 0, 0, 0, 0⟩
def role0 : RoleDesc := ⟨0, 4096, 1, 1, 3⟩
/-- A running program of partition 0 with one role on bench 0. -/
def prog0 : Prog :=
  { part := 0, sess := some 0, list := 0, recIdx := 0, image := 0, length := 65536, pri := 1, cookie := 7, arrival := 0, state := .running,
    roles := [role0], yields := [⟨0, 0, 5, 0⟩], groups := [], place := [0], started := 0, placed := 0, lastTimeout := none, preempt := none,
    standing := false, endWith := none, fault := none, fcount := 0, quantum := false, savePages := 0, saved := [], saveFrames := [] }
/-- Its bench: running at offset 32 of a stream of 64 words, with granule 1 of bench store. -/
def run0 : Bench :=
  { Bench.reset with prog := some 0, seq := 1, pc := 32, slen := 1024, scalars := [(1, 0xFFFFFFFFFFFFFFFF), (2, 3), (3, 65536), (4, 257)],
                     preds := [(1, true)], grans := [(1, .role)], gens := [(1, 1)] }
def on (x : Bench) : State := { plain with benches := [(0, x)], progs := [(0, prog0)] }
def s0 : State := on run0

/-- Whether a unit 0 word is taken. -/
def takes (s : State) (b opc : Nat) (f : Fields) : Bool :=
  seqRuns (bench s b) && decodeChecks (wordOf 0 opc f) == 0 && (getP (bench s b) f.psel.toNat == !(f.pinv == 1))

def f3 : Fields := { zeros with o1 := 5, o2 := 1, o3 := 2 }

/-! ## The queue, reset and the words -/

theorem test_step_idle : step State.reset = .next State.reset := rfl
theorem test_step_front : gives (step { s0 with pending := [.nop 0 zeros] }) (passed s0 0) = true := by decide +kernel
theorem test_reset_register : fld State.reset .ageCtl 0 0 15 8 = 24 := by decide +kernel
theorem test_reset_status : isUp State.reset 10 34 = true ∧ (session State.reset 31).state = .closed := by decide +kernel
/-- TIME, OTP and the trip over a whole step. -/
theorem test_trip_kept :
    after (exec (.boardReset 9) { State.reset with tripped := true, time := 5 }) (fun t => t.tripped && t.time == 9) = true ∧
    after (exec (.vfeedRestore 99999999) { State.reset with tripped := true }) (fun t => t.tripped) = true ∧
    after (exec (.vfeedRestore 100000000) { State.reset with tripped := true }) (fun t => !t.tripped && t.time == 0) = true := by
  decide +kernel
theorem test_otp_kept : State.reset.otp.owner.length = 4 ∧
    after (exec (.attOwnerEnrol .admin 0x80000000 0) State.reset) (fun t => t.otp.counter == 0) = true := by decide +kernel
theorem test_mem_form : Memory.wf (memWrite 100 [1, 0, 2] State.reset).mem = true := by decide +kernel

/-! ## Encodings -/

/-- The word of Example 3.1: CHOPEN of a channel, by its fields. -/
theorem test_word_chopen : wordOf 0 0x28 { zeros with o1 := 0xC4, imm := 0x0108434000000000 } = 0x280000000C4000000108434000000000#128 := by decide +kernel
/-- SADD s5, s1, s2: opcode in bits 127 to 120, the unit below it, O1 to O3. -/
theorem test_word_sadd : wOpc (wordOf 0 1 f3) = 1 ∧ wUnit (wordOf 0 1 f3) = 0 ∧ wOperand (wordOf 0 1 f3) 1 = 5 := by decide +kernel
theorem test_word_bad : decodeChecks 0 = 0x0101 ∧ decodeChecks (wordOf 10 1 zeros) = 0x0101 ∧ decodeChecks (wordOf 15 255 zeros) = 0x0101 := by
  decide +kernel
theorem test_decode_none : decodeTableWord 128 0 = none := by decide
theorem test_fetch_unchanged : s0.withFetchWord 8 3 = s0 := by decide +kernel

/-! ## The sequencer -/

theorem test_scalar_words_taken :
    ([1, 2, 3, 4, 5, 6, 7, 8, 9, 10, 11].all fun c => takes s0 0 c f3) = true ∧
    (takes s0 0 0x0E { f3 with o3 := 0, imm := 0xFFFFFFFF } && takes s0 0 0x0C { f3 with o2 := 0, o3 := 0 } &&
      takes s0 0 0x0D { f3 with o2 := 0, o3 := 0 } && takes s0 0 0x18 { f3 with o1 := 0x45, mod := 5 } &&
      takes s0 0 0x19 { f3 with o1 := 0x45, o2 := 0x41, o3 := 0x42 } && takes s0 0 0x3F { zeros with o1 := 5 }) = true := by decide +kernel
/-- s1 is −1, s2 is 3; the results by hand. -/
theorem test_sadd : after (exec (.sadd 0 f3) s0) (fun t => getS (bench t 0) 5 == 2 && (bench t 0).pc == 48) = true := by decide +kernel
theorem test_ssub : after (exec (.ssub 0 f3) s0) (fun t => getS (bench t 0) 5 == 0xFFFFFFFFFFFFFFFC) = true := by decide +kernel
theorem test_smul : after (exec (.smul 0 f3) s0) (fun t => getS (bench t 0) 5 == 0xFFFFFFFFFFFFFFFD) = true := by decide +kernel
theorem test_sand : after (exec (.sand 0 f3) s0) (fun t => getS (bench t 0) 5 == 3) = true := by decide +kernel
theorem test_sor : after (exec (.sor 0 f3) s0) (fun t => getS (bench t 0) 5 == 0xFFFFFFFFFFFFFFFF) = true := by decide +kernel
theorem test_sxor : after (exec (.sxor 0 f3) s0) (fun t => getS (bench t 0) 5 == 0xFFFFFFFFFFFFFFFC) = true := by decide +kernel
theorem test_sshl : after (exec (.sshl 0 { f3 with o3 := 1 }) s0) (fun t => getS (bench t 0) 5 == 0x8000000000000000) = true := by decide +kernel
theorem test_sshr : after (exec (.sshr 0 f3) s0) (fun t => getS (bench t 0) 5 == 0x1FFFFFFFFFFFFFFF) = true := by decide +kernel
theorem test_ssra : after (exec (.ssra 0 f3) s0) (fun t => getS (bench t 0) 5 == 0xFFFFFFFFFFFFFFFF) = true := by decide +kernel
theorem test_smin : after (exec (.smin 0 f3) s0) (fun t => getS (bench t 0) 5 == 0xFFFFFFFFFFFFFFFF) = true := by decide +kernel
theorem test_smax : after (exec (.smax 0 { f3 with mod := 1 }) s0) (fun t => getS (bench t 0) 5 == 0xFFFFFFFFFFFFFFFF) = true := by decide +kernel
theorem test_saddi : after (exec (.saddi 0 { f3 with o3 := 0, imm := 0xFFFFFFFFFFFFFFF }) s0) (fun t => getS (bench t 0) 5 == 0xFFFFFFFFFFFFFFFE) = true := by
  decide +kernel
theorem test_sli : after (exec (.sli 0 { f3 with o2 := 0, o3 := 0, imm := 0x800000000000000 }) s0)
    (fun t => getS (bench t 0) 5 == 0xF800000000000000) = true := by decide +kernel
theorem test_slih : after (exec (.slih 0 { zeros with o1 := 2, imm := 7 }) s0) (fun t => getS (bench t 0) 2 == 0x700000003) = true := by decide +kernel
theorem test_scmp : after (exec (.scmp 0 { f3 with o1 := 0x45, mod := 2 }) s0) (fun t => getP (bench t 0) 5) = true := by decide +kernel
theorem test_plog : after (exec (.plog 0 { f3 with o1 := 0x42, o2 := 0x41, o3 := 0x43, mod := 0 }) s0) (fun t => !(getP (bench t 0) 2)) = true := by
  decide +kernel
/-- Bench 0 lies on home sector index 0 and far sector index 3 (Table 1.4). -/
theorem test_benchid : after (exec (.benchid 0 { zeros with o1 := 5 }) s0) (fun t => getS (bench t 0) 5 == 0x300) = true := by decide +kernel
/-- The BENCHID of C2.B5. -/
theorem test_benchid_c2b5 :
    after (exec (.benchid 21 { zeros with o1 := 5 }) { s0 with benches := [(21, run0)] }) (fun t => getS (bench t 21) 5 == 0x396) = true := by
  decide +kernel

/-- A load and a store in granule 1, at s3 = 65536 plus 8, and one outside. -/
def fmem : Fields := { zeros with o1 := 2, o2 := 3, imm := 8 }
theorem test_sst : takes s0 0 0x11 fmem = true ∧ holdsBytes run0 65544 8 = true ∧
    after (exec (.sst 0 fmem) s0) (fun t => storeRead t 0 65544 8 == [3, 0, 0, 0, 0, 0, 0, 0]) = true := by decide +kernel
theorem test_sld : takes s0 0 0x10 fmem = true ∧
    after (exec (.sld 0 { fmem with o1 := 6 }) (nextOf (exec (.sst 0 fmem) s0))) (fun t => getS (bench t 0) 6 == 3) = true := by decide +kernel
theorem test_sld_outside : takes s0 0 0x10 { fmem with o2 := 0 } = true ∧ holdsBytes run0 8 8 = false ∧
    after (exec (.sld 0 { fmem with o2 := 0 }) s0) (fun t => t.reports == [⟨0, 0, 0, 15, 32, 0x0206⟩]) = true := by decide +kernel
theorem test_sst_unaligned : takes s0 0 0x11 { fmem with imm := 4 } = true ∧
    gives (exec (.sst 0 { fmem with imm := 4 }) s0) (seqFault 0 0x0206 s0) = true := by decide +kernel
theorem test_predicate_false : getP run0 1 = true ∧ gives (exec (.sadd 0 { f3 with psel := 1, pinv := 1 }) s0) (passed s0 0) = true := by
  decide +kernel
theorem test_sequencer_idle : gives (exec (.sadd 0 f3) plain) plain = true := by decide +kernel
theorem test_decode_fault : decodeChecks (wordOf 0 1 { f3 with imm := 1 }) = 0x0102 ∧
    gives (exec (.sadd 0 { f3 with imm := 1 }) s0) (seqFault 0 0x0102 s0) = true := by decide +kernel
theorem test_undefined_opcode : bufferWord { run0 with bufAt := 2, buf := [0] } 32 = some 0 ∧
    after (exec (.issueStep 0 3) (on { run0 with bufAt := 2, buf := [0] })) (fun t => t.reports == [⟨0, 0, 0, 15, 32, 0x0101⟩]) = true := by
  decide +kernel

/-! Handles and channels. -/

def withT : Bench := { run0 with handles := [(6, ⟨256, 3, 0x12345678AABBCCDD⟩)] }
theorem test_thset : takes s0 0 0x20 { zeros with o1 := 0x85, o2 := 4, imm := 255 } = true ∧ holdsBytes run0 (257 * 256) (255 * 256) = true ∧
    after (exec (.thset 0 { zeros with o1 := 0x85, o2 := 4, imm := 255 }) s0) (fun t => match getT (bench t 0) 5 with | some h => h.start == 257 && h.lines == 255 | none => false) = true := by
  decide +kernel
theorem test_thmov : takes (on withT) 0 0x21 { zeros with o1 := 0x85, o2 := 0x86 } = true ∧
    after (exec (.thmov 0 { zeros with o1 := 0x85, o2 := 0x86 }) (on withT)) (fun t => (getT (bench t 0) 5).isSome) = true := by decide +kernel
theorem test_thget : takes (on withT) 0 0x22 { zeros with o1 := 5, o2 := 0x86, mod := 15 } = true ∧
    after (exec (.thget 0 { zeros with o1 := 5, o2 := 0x86, mod := 15 }) (on withT)) (fun t => getS (bench t 0) 5 == 0x300000100) = true ∧
    after (exec (.thget 0 { zeros with o1 := 5, o2 := 0x86, mod := 3 }) (on withT)) (fun t => getS (bench t 0) 5 == 0x5678) = true := by
  decide +kernel
/-- Example 3.1 runs: channel 4 with 4 credits of 67 lines takes two granules. -/
def fopen : Fields := { zeros with o1 := 0xC4, imm := 0x0108434000000000 }
def s1 : State := nextOf (exec (.chopen 0 fopen) s0)
theorem test_chopen : takes s0 0 0x28 fopen = true ∧ chopenBad run0 (wordOf 0 0x28 fopen) = false ∧
    (4 * 67 + 255) / 256 ≤ (freeGrans run0 (farOrdinal 0)).length ∧
    after (exec (.chopen 0 fopen) s0) (fun t => getC (bench t 0) 4 == some ⟨4, .loc, 0⟩ &&
      (match chan? t 0 4 with | some c => c.credits == 4 && c.slot == 67 && c.grans.length == 2 && c.prod == 4 | none => false)) = true := by
  decide +kernel
theorem test_chclose : takes s1 0 0x29 { zeros with o1 := 0xC4 } = true ∧
    after (exec (.chclose 0 { zeros with o1 := 0xC4 }) s1) (fun t => (getC (bench t 0) 4).isNone &&
      (match chan? t 0 4 with | some c => c.closing | none => false)) = true := by decide +kernel
theorem test_chclose_out : takes (on { run0 with ports := [(3, ⟨4, .out, 1⟩)] }) 0 0x29 { zeros with o1 := 0xC3 } = true ∧
    after (exec (.chclose 0 { zeros with o1 := 0xC3 }) (on { run0 with ports := [(3, ⟨4, .out, 1⟩)] })) (fun t => (getC (bench t 0) 3).isNone) = true := by
  decide +kernel
def fbind (dir : Nat) : Fields := { zeros with o1 := 0xC2, imm := BitVec.ofNat 60 (dir * 2 ^ 52 + 4 * 2 ^ 54 + (if dir = 3 then 5 * 2 ^ 47 else 0)) }
theorem test_pbind : ([1, 2, 3, 0].all fun d => takes s1 0 0x2A (fbind d)) = true ∧
    after (exec (.pbind 0 (fbind 1)) s1) (fun t => getC (bench t 0) 2 == some ⟨4, .loc, 0⟩) = true ∧
    after (exec (.pbind 0 (fbind 2)) s1) (fun t => getC (bench t 0) 2 == some ⟨4, .inn, 0⟩) = true ∧
    after (exec (.pbind 0 (fbind 3)) s1) (fun t => getC (bench t 0) 2 == some ⟨4, .out, 5⟩) = true := by decide +kernel
theorem test_pbind_closed : gives (exec (.pbind 0 (fbind 1)) s0) (seqFault 0 0x0205 s0) = true ∧
    after (exec (.pbind 0 { zeros with o1 := 0xC4 }) s1) (fun t => (getC (bench t 0) 4).isNone) = true := by decide +kernel
theorem test_chstat : takes s1 0 0x2B { zeros with o1 := 5, o2 := 0xC4 } = true ∧
    after (exec (.chstat 0 { zeros with o1 := 5, o2 := 0xC4 }) s1) (fun t => getS (bench t 0) 5 == 0x10004) = true := by decide +kernel

/-! Branches and waits. -/

theorem test_br : takes s0 0 0x30 { zeros with imm := 0xFFFFFFFE } = true ∧
    after (exec (.br 0 { zeros with imm := 0xFFFFFFFE }) s0) (fun t => (bench t 0).pc == 0) = true ∧
    gives (exec (.br 0 { zeros with imm := 0xFFFFFFFD }) s0) (seqFault 0 0x0207 s0) = true ∧
    gives (exec (.br 0 { zeros with imm := 62 }) s0) (seqFault 0 0x0207 s0) = true := by decide +kernel
theorem test_brs : takes (on { run0 with scalars := [(2, 1008)] }) 0 0x31 { zeros with o2 := 2 } = true ∧
    after (exec (.brs 0 { zeros with o2 := 2 }) (on { run0 with scalars := [(2, 1008)] })) (fun t => (bench t 0).pc == 1008) = true ∧
    gives (exec (.brs 0 { zeros with o2 := 2 }) s0) (seqFault 0 0x0207 s0) = true := by decide +kernel
theorem test_call_ret : takes s0 0 0x33 { zeros with imm := 4 } = true ∧
    after (exec (.call 0 { zeros with imm := 4 }) s0) (fun t => (bench t 0).pc == 96 && takes t 0 0x34 zeros &&
      after (exec (.ret 0 zeros) t) (fun v => (bench v 0).pc == 48)) = true ∧
    gives (exec (.ret 0 zeros) s0) (seqFault 0 0x0208 s0) = true := by decide +kernel
theorem test_call_full : let x := { run0 with rets := List.replicate 16 ⟨48, 0⟩ }
    gives (exec (.call 0 { zeros with imm := 4 }) (on x)) (seqFault 0 0x0208 (on x)) = true := by decide +kernel
theorem test_loop : takes s0 0 0x32 { zeros with o2 := 2, imm := 2 } = true ∧
    after (exec (.loop 0 { zeros with o2 := 2, imm := 2 }) s0) (fun t => (bench t 0).loops == [⟨48, 80, 2, 0⟩]) = true := by decide +kernel
theorem test_waitq : takes s0 0 0x38 { zeros with imm := 0x3FFF } = true ∧
    gives (exec (.waitq 0 { zeros with imm := 0x3FFF }) s0) (passed s0 0) = true := by decide +kernel
theorem test_waitp : takes s0 0 0x39 { zeros with o2 := 0x41 } = true ∧ gives (exec (.waitp 0 { zeros with o2 := 0x41 }) s0) (passed s0 0) = true ∧
    after (exec (.waitp 0 { zeros with o2 := 0x41, mod := 1 }) s0) (fun t => (bench t 0).cause == 6 && (bench t 0).pc == 32) = true := by decide +kernel
theorem test_fence : takes s0 0 0x3A { zeros with mod := 2 } = true ∧ gives (exec (.fence 0 { zeros with mod := 2 }) s0) (passed s0 0) = true := by
  decide +kernel
theorem test_waitc : takes s1 0 0x3B { zeros with o2 := 0xC4, imm := 16 } = true ∧
    after (exec (.waitc 0 { zeros with o2 := 0xC4, imm := 16 }) s1) (fun t => (bench t 0).cause == 7) = true := by decide +kernel
theorem test_yield : takes s0 0 0x3C { zeros with imm := 5 } = true ∧ (yieldEntry prog0 0 5).isSome = true ∧
    gives (exec (.yield 0 { zeros with imm := 5 }) s0) (passed s0 0) = true := by decide +kernel
theorem test_end : takes s0 0 0x3D zeros = true ∧ after (exec (.endRole 0 zeros) s0) (fun t => (bench t 0).seq == 4) = true := by decide +kernel
theorem test_nop : takes s0 0 0x3E zeros = true ∧ gives (exec (.nop 0 zeros) s0) (passed s0 0) = true := by decide +kernel

/-! ## Queued instructions -/

/-- A packet of zeros. -/
def pk (f rows cols : Nat) : List Byte := headerBytes (newPkt f rows cols 5 9 0 0 0) ++ List.replicate (pktLen f false - 64) 0
def chan0 (packets : List (List Byte)) : Channel :=
  { closing := false, prod := 4, cons := 0, credits := 4, slot := 257, bridge := false, prodRole := 0, far := false, grans := [9],
    packets := packets, reading := 0, writing := [], returning := 0 }
/-- A started instruction with its scalars; O1 and O2 are bound to channels 1 and 2 where they are ports. -/
def ent (w : W128) (vals : List W64) : Entry :=
  { eid := 1, off := 64, word := w, vals := vals, ports := [some ⟨1, .loc, 0⟩, some ⟨2, .loc, 0⟩, none, none], rank := 0, deps := [],
    phase := .started, seed := 0, hist := 0, reqs := [], effs := [] }
/-- Bench 0 with one entry at a station, two channels and handles t1 and t2. -/
def station (ord : Nat) (e : Entry) (p q : List (List Byte)) : State :=
  on { run0 with grans := [(1, .role), (2, .role), (3, .role), (4, .role)], queues := [(ord, [e])], chans := [(1, chan0 p), (2, chan0 q)],
                 handles := [(1, ⟨256, 257, 0⟩), (2, ⟨640, 257, 0⟩)], chains := [(0, ⟨[], []⟩)] }
def good {α : Type} (r : Except Status α) : Bool := match r with | .ok _ => true | .error _ => false
/-- The instruction of a station has executed. -/
def done (ord : Nat) (t : State) : Bool := (tget (bench t 0).queues ord []).all fun e => e.phase == .executed

/-! The issue step. -/

/-- VFILL of t1 with s2, tag and number from s2. -/
def fill : W128 := wordOf 3 4 { zeros with fmt := 0x24, o1 := 0x81, o2 := 2, o3 := 2, imm := 0x0101 }
def sIss : State := on { run0 with grans := [(1, .role), (2, .role)], handles := [(1, ⟨256, 257, 0⟩)], bufAt := 2, buf := [fill] }
theorem test_issue_word : seqRuns (bench sIss 0) = true ∧ bufferWord (bench sIss 0) 32 = some fill ∧ decodeChecks fill = 0 ∧
    issueChecks sIss 0 6 (bench sIss 0) fill (fun n => (((captureVals (bench sIss 0) fill)[n - 1]?).getD 0).toNat) = 0 ∧
    queueFull (bench sIss 0) fill = false ∧ readersFull (bench sIss 0) fill = false ∧ completionPred fill = none ∧
    after (exec (.issueStep 0 7) sIss) (fun t => (tget (bench t 0).queues 6 []).any (fun e => e.word == fill && e.off == 32) && (bench t 0).pc == 48) =
      true := by decide +kernel
theorem test_issue_end : gives (exec (.issueStep 0 7) (on { run0 with pc := 1024 })) (seqFault 0 0x0207 (atTime 7 (on { run0 with pc := 1024 }))) = true := by
  decide +kernel
theorem test_issue_miss : gives (exec (.issueStep 0 7) s0) (seqStall 0 1 (atTime 7 s0)) = true := by decide +kernel
theorem test_issue_unit0 : bufferWord { run0 with bufAt := 2, buf := [wordOf 0 1 f3] } 32 = some (wordOf 0 1 f3) ∧
    after (exec (.issueStep 0 7) (on { run0 with bufAt := 2, buf := [wordOf 0 1 f3] })) (fun t => getS (bench t 0) 5 == 2) = true := by decide +kernel
/-- The stream is in frame 0, mapped at page 0. -/
def sStream : State :=
  { on { run0 with cause := 1, sbase := 0 } with
    parts := [(0, { Partition.reset with leaves := [(0, { res := 0, wr := true, pin := false, psc := false, t2d := false, fen := false, prog := 0, frame := 0, heat := 0, owner := none })] })],
    mem := [(47, 0x3E)] }
theorem test_stream_fill : good (streamWords sStream 0 { run0 with cause := 1 } 32 bufferWords) = true ∧
    after (exec (.streamBufferFill 0) sStream) (fun t => bufferWord (bench t 0) 32 == some (wordOf 0 0x3E zeros) && (bench t 0).cause == 0) = true := by
  decide +kernel

/-! Stations: start, retirement, channels. -/

def queuedFill : State := station 6 { ent fill [0, 3, 5, 0] with phase := .queued } [] []
theorem test_station_start : (nextStart queuedFill 0 6).isSome = true ∧ startChecks queuedFill 0 6 { ent fill [0, 3, 5, 0] with phase := .queued } = 0 ∧
    producerBad queuedFill 0 6 { ent fill [0, 3, 5, 0] with phase := .queued } = false ∧
    after (exec (.stationStart 0 6) queuedFill) (fun t => (tget (bench t 0).queues 6 []).any fun e => e.phase == .started) = true := by decide +kernel
/-- No handle t3 has been set. -/
theorem test_station_start_fault :
    let e := { ent (wordOf 3 4 { zeros with fmt := 0x24, o1 := 0x83, o2 := 2, o3 := 2, imm := 0x0101 }) [0, 3, 5, 0] with phase := .queued }
    (nextStart (station 6 e [] []) 0 6).isSome = true ∧ producerBad (station 6 e [] []) 0 6 e = false ∧ startChecks (station 6 e [] []) 0 6 e ≠ 0 ∧
      after (exec (.stationStart 0 6) (station 6 e [] [])) (fun t => t.reports.length == 1) = true := by decide +kernel
theorem test_station_start_none : gives (exec (.stationStart 0 5) queuedFill) queuedFill = true := by decide +kernel
def ended : State := station 6 { ent fill [0, 3, 5, 0] with phase := .executed, effs := [.scalar 7 9] } [] []
theorem test_station_retire : after (exec (.stationRetire 0 6) ended) (fun t => tget (bench t 0).queues 6 [] == [] && getS (bench t 0) 7 == 9) = true ∧
    gives (exec (.stationRetire 0 6) queuedFill) queuedFill = true := by decide +kernel
theorem test_system_take : after (exec (.systemQueueTake 0 4) (on { run0 with sysq := [ent (wordOf 9 0x43 zeros) []] }))
    (fun t => (bench t 0).taken.isSome && (bench t 0).sysq == []) = true := by decide +kernel
theorem test_channel_write : after (exec (.channelWriteComplete 0 1) (on { run0 with chans := [(1, { chan0 [] with writing := [[1]] })] }))
    (fun t => match chan? t 0 1 with | some c => c.packets == [[1]] && c.writing == [] | none => false) = true := by decide +kernel
theorem test_credit_return : after (exec (.creditReturn 0 1) (on { run0 with chans := [(1, { chan0 [] with returning := 2 })] }))
    (fun t => match chan? t 0 1 with | some c => c.returning == 1 | none => false) = true := by decide +kernel
def closing : State := on { run0 with grans := [(1, .role), (9, .channel 1)], chans := [(1, { chan0 [] with closing := true })] }
theorem test_channel_close : closeReady closing 0 1 { chan0 [] with closing := true } = true ∧
    after (exec (.channelCloseComplete 0 1 5) closing) (fun t => (chan? t 0 1).isNone && (tget? (bench t 0).grans 9).isNone) = true := by decide +kernel

/-! Anvils. -/

def mmaE : Entry := ent (wordOf 1 1 { zeros with fmt := 0x13, o1 := 0xC1, o2 := 0xC2, mod := 2, imm := 0x13 }) [0, 0, 0, 0]
def sMma : State := station 0 mmaE [pk 0x13 1 2] [pk 0x13 3 2]
theorem test_mma : startedEntry sMma 0 0 1 1 = some mmaE ∧ good (mmaSources sMma 0 0 mmaE) = true ∧
    (match mmaSources sMma 0 0 mmaE with | .ok (p, q) => mmaCheck (accum sMma 0 mmaE.word) mmaE.word p q == 0 && p.aExt == 1 && q.aExt == 3 | .error _ => false) =
      true ∧ after (exec (.mma 0 0) sMma) (done 0) = true := by decide +kernel
def drE : Entry := ent (wordOf 1 2 { zeros with fmt := 0x24, o1 := 0x81, o2 := 2 }) [0, 3, 0, 0]
def sDr : State := { station 0 drE [] [] with benches := [(0, { bench (station 0 drE [] []) 0 with accs := [(0, ⟨[], some (1, 1), 0⟩)] })] }
theorem test_mmadr : startedEntry sDr 0 0 1 2 = some drE ∧ (accum sDr 0 drE.word).ext = some (1, 1) ∧ after (exec (.mmadr 0 0) sDr) (done 0) = true := by
  decide +kernel
theorem test_mmadr_empty : after (exec (.mmadr 0 0) (station 0 drE [] [])) (fun t => t.reports == [⟨0, 0, 0, 0, 64, 0x018E⟩]) = true := by decide +kernel
def accE : Entry := ent (wordOf 1 3 { zeros with fmt := 0x24, o1 := 0xC1 }) [0, 0, 0, 0]
theorem test_accld : good (sourceFmt (station 0 accE [pk 0x24 1 1] []) 0 0 accE 1 0x24 (· == 0x24)) = true ∧
    after (exec (.accld 0 0) (station 0 accE [pk 0x24 1 1] [])) (done 0) = true := by decide +kernel
def zE : Entry := ent (wordOf 1 4 zeros) [0, 0, 0, 0]
theorem test_accz : startedEntry (station 0 zE [] []) 0 0 1 4 = some zE ∧ after (exec (.accz 0 0) (station 0 zE [] [])) (done 0) = true := by
  decide +kernel
/-- One product in FP32: 2 × 3 on top of nothing, of MXFP8 codes 0x40 (2.0) and 0x44 (3.0), scales 1.0. -/
def ofCode (c : Byte) : Pkt := { parsePkt (pk 0x13 1 1) with data := ((headerBytes (newPkt 0x13 1 1 0 0 0 0 0)) ++ [c] ++ List.replicate 16383 0 ++ List.replicate 512 127).toArray }
theorem test_mma_extent : (mmaResult Accum.clear true (ofCode 0x40) (ofCode 0x44)).ext = some (1, 1) := by decide +kernel

/-! Tempers. -/

def qntE : Entry := ent (wordOf 2 1 { zeros with fmt := 0x13, o1 := 0xC1, o2 := 0x82 }) [0, 0, 0, 0]
def nan16 : List Byte := headerBytes (newPkt 0x23 1 1 5 9 0 0 0) ++ [0, 0x7E] ++ List.replicate 32766 0
theorem test_qnt : startedEntry (station 4 qntE [pk 0x22 1 1] []) 0 4 2 1 = some qntE ∧ good (wideSource (station 4 qntE [pk 0x22 1 1] []) 0 4 qntE 1) = true ∧
    trapNf (station 4 qntE [pk 0x22 1 1] []) 0 = false ∧ after (exec (.qnt 0 0) (station 4 qntE [pk 0x22 1 1] [])) (done 4) = true := by decide +kernel
def trapping : State := setFld .numCtl 0 0 31 0 0xFFFFFFFF (station 4 qntE [nan16] [])
theorem test_qnt_trap : trapNf trapping 0 = true ∧ (match wideSource trapping 0 4 qntE 1 with | .ok p => nonFinites p == 1 | .error _ => false) = true ∧
    after (exec (.qnt 0 0) trapping) (fun t => t.reports == [⟨0, 0, 0, 4, 64, 0x0601⟩]) = true := by decide +kernel
def dqtE : Entry := ent (wordOf 2 2 { zeros with fmt := 0x24, o1 := 0xC1, o2 := 0x82 }) [0, 0, 0, 0]
theorem test_dqt : startedEntry (station 5 dqtE [pk 0x13 1 1] []) 0 5 2 2 = some dqtE ∧ good (sourcePkt (station 5 dqtE [pk 0x13 1 1] []) 0 5 dqtE 1) = true ∧
    after (exec (.dqt 0 1) (station 5 dqtE [pk 0x13 1 1] [])) (done 5) = true := by decide +kernel
def hadE : Entry := ent (wordOf 2 3 { zeros with fmt := 0x24, o1 := 0xC1, o2 := 0x82, imm := 1 }) [0, 0, 0, 0]
theorem test_had : startedEntry (station 4 hadE [pk 0x24 1 1] []) 0 4 2 3 = some hadE ∧
    (match sourceFmt (station 4 hadE [pk 0x24 1 1] []) 0 4 hadE 1 0x24 (fun _ => false) with | .ok p => !(hadBad hadE.word p) | .error _ => false) = true ∧
    after (exec (.had 0 0) (station 4 hadE [pk 0x24 1 1] [])) (done 4) = true := by decide +kernel
def asyE : Entry := ent (wordOf 2 4 { zeros with fmt := 0x22, o1 := 0xC1, imm := 3 }) [0, 0, 0, 0]
theorem test_asy : startedEntry (station 4 asyE [pk 0x22 1 1] []) 0 4 2 4 = some asyE ∧ good (sourceFmt (station 4 asyE [pk 0x22 1 1] []) 0 4 asyE 1 0x22 isWideFmt) = true ∧
    after (exec (.asy 0 0) (station 4 asyE [pk 0x22 1 1] [])) (done 4) = true := by decide +kernel

/-! Fluxes and Swage. -/

def vseqE : Entry := ent (wordOf 3 1 { zeros with fmt := 0x24, o1 := 0xC1, o2 := 0x82, mod := 9 }) [0, 0, 0, 0]
theorem test_vseq : startedEntry (station 6 vseqE [pk 0x24 1 1] []) 0 6 3 1 = some vseqE ∧ good (vseqCheck (station 6 vseqE [pk 0x24 1 1] []) 0 6 vseqE) = true ∧
    after (exec (.vseq 0 0) (station 6 vseqE [pk 0x24 1 1] [])) (done 6) = true := by decide +kernel
def vredE : Entry := ent (wordOf 3 2 { zeros with fmt := 0x24, o1 := 0xC1, o2 := 0x82, o3 := 2 }) [0, 0, 3, 0]
theorem test_vred : startedEntry (station 7 vredE [pk 0x22 1 1] []) 0 7 3 2 = some vredE ∧ good (vredSource (station 7 vredE [pk 0x22 1 1] []) 0 7 vredE) = true ∧
    after (exec (.vred 0 1) (station 7 vredE [pk 0x22 1 1] [])) (done 7) = true := by decide +kernel
/-- A chain slot with no step. -/
def fxE : Entry := ent (wordOf 3 3 { zeros with o1 := 3 }) [65536, 0, 0, 0]
theorem test_fxload : startedEntry (station 6 fxE [] []) 0 6 3 3 = some fxE ∧ holdsBytes (bench (station 6 fxE [] []) 0) 65536 128 = true ∧
    after (exec (.fxload 0 0) (station 6 fxE [] [])) (done 6) = true := by decide +kernel
def fillE : Entry := ent fill [0, 3, 5, 0]
theorem test_vfill : startedEntry (station 6 fillE [] []) 0 6 3 4 = some fillE ∧ after (exec (.vfill 0 0) (station 6 fillE [] [])) (done 6) = true := by
  decide +kernel
def swtE : Entry := ent (wordOf 4 1 { zeros with fmt := 0x20, o1 := 0xC1, o2 := 0x82 }) [0, 0, 0, 0]
theorem test_swt : startedEntry (station 8 swtE [pk 0x20 2 3] []) 0 8 4 1 = some swtE ∧ good (plainSource (station 8 swtE [pk 0x20 2 3] []) 0 8 swtE) = true ∧
    after (exec (.swt 0) (station 8 swtE [pk 0x20 2 3] [])) (done 8) = true := by decide +kernel
/-- One row and one column from (1, 1) to (127, 127). -/
def swxE : Entry := ent (wordOf 4 2 { zeros with fmt := 0x20, o1 := 0xC1, o2 := 0xC2, imm := 1 + 2 ^ 7 + 2 ^ 14 + 2 ^ 22 + 127 * 2 ^ 30 + 127 * 2 ^ 37 }) [0, 0, 0, 0]
theorem test_swx : startedEntry (station 8 swxE [pk 0x20 2 2] [pk 0x20 1 1]) 0 8 4 2 = some swxE ∧
    good (swxCheck (station 8 swxE [pk 0x20 2 2] [pk 0x20 1 1]) 0 8 swxE) = true ∧
    after (exec (.swx 0) (station 8 swxE [pk 0x20 2 2] [pk 0x20 1 1])) (done 8) = true := by decide +kernel
/-- An index table of no entry. -/
def swgaE : Entry := ent (wordOf 4 3 { zeros with fmt := 0x20, o1 := 3, o2 := 0x82, o4 := 2 }) [65536, 0, 0, 3]
theorem test_swga : startedEntry (station 8 swgaE [] []) 0 8 4 3 = some swgaE ∧ good (indexTable (station 8 swgaE [] []) 0 65536 0 0x20) = true ∧
    after (exec (.swga 0) (station 8 swgaE [] [])) (done 8) = true := by decide +kernel
def swscE : Entry := ent (wordOf 4 4 { zeros with fmt := 0x20, o1 := 0xC1, o2 := 3 }) [0, 65536, 0, 0]
theorem test_swsc : startedEntry (station 8 swscE [pk 0x20 2 3] []) 0 8 4 4 = some swscE ∧ good (plainSource (station 8 swscE [pk 0x20 2 3] []) 0 8 swscE) = true ∧
    good (indexTable (station 8 swscE [pk 0x20 2 3] []) 0 65536 0 0x20) = true ∧ after (exec (.swsc 0) (station 8 swscE [pk 0x20 2 3] [])) (done 8) = true := by
  decide +kernel
def swcE : Entry := ent (wordOf 4 5 { zeros with o1 := 3, o2 := 3, o3 := 2 }) [65536, 65600, 64, 0]
theorem test_swc : startedEntry (station 8 swcE [] []) 0 8 4 5 = some swcE ∧ holdsBytes (bench (station 8 swcE [] []) 0) 65536 64 = true ∧
    holdsBytes (bench (station 8 swcE [] []) 0) 65600 64 = true ∧ after (exec (.swc 0) (station 8 swcE [] [])) (done 8) = true := by decide +kernel

/-! Crucible and Hallmark. -/

/-- Handles whose headers stand in bench store: a BF16 packet at line 256 and an FP32 accumulator at line 640. -/
def headers : Tab Byte :=
  ((headerBytes (newPkt 0x22 1 1 5 9 0 0 0)).zipIdx.map fun x => (65536 + x.2, x.1)) ++
    ((headerBytes (newPkt 0x24 1 1 5 9 0 0 0)).zipIdx.map fun x => (640 * 256 + x.2, x.1))
def credE : Entry := { ent (wordOf 5 1 { zeros with fmt := 0x22, o1 := 0x81, o2 := 0x82, imm := 1 }) [0, 0, 0, 0] with ports := [none, none, none, none] }
def sCred : State := { station 9 credE [] [] with benches := [(0, { bench (station 9 credE [] []) 0 with store := headers })] }
theorem test_cred : startedEntry sCred 0 9 5 1 = some credE ∧ wFile credE.word 1 = 2 ∧ credN credE.word = 1 ∧ good (credCheck sCred 0 9 credE) = true ∧
    after (exec (.cred 0) sCred) (done 9) = true := by decide +kernel
def cxE : Entry := ent (wordOf 5 2 { zeros with fmt := 0x22, o1 := 0xC1, o2 := 3 }) [0, 65552, 0, 0]
theorem test_cxsum : startedEntry (station 9 cxE [pk 0x22 1 1] []) 0 9 5 2 = some cxE ∧ good (cxsumCheck (station 9 cxE [pk 0x22 1 1] []) 0 9 cxE) = true ∧
    after (exec (.cxsum 0) (station 9 cxE [pk 0x22 1 1] [])) (done 9) = true := by decide +kernel


/-! Hallmark. -/

/-- Two data shards at 65536, one parity shard at 131072, 64 bytes each. -/
def hEnt (opc erase : Nat) : Entry :=
  ent (wordOf 7 opc { zeros with o1 := 3, o2 := 3, o3 := 2, o4 := 2, imm := BitVec.ofNat 60 (2 + 2 ^ 6 + erase * 2 ^ 10) }) [65536, 131072, 64, 64]
theorem test_henc : startedEntry (station 12 (hEnt 1 0) [] []) 0 12 7 1 = some (hEnt 1 0) ∧ shardCheck (station 12 (hEnt 1 0) [] []) 0 (hEnt 1 0) = 0 ∧
    after (exec (.henc 0) (station 12 (hEnt 1 0) [] [])) (done 12) = true := by decide +kernel
theorem test_hdec : startedEntry (station 12 (hEnt 2 2) [] []) 0 12 7 2 = some (hEnt 2 2) ∧ shardCheck (station 12 (hEnt 2 2) [] []) 0 (hEnt 2 2) = 0 ∧
    after (exec (.hdec 0) (station 12 (hEnt 2 2) [] [])) (done 12) = true := by decide +kernel
/-- A range of no byte. -/
def hsumE : Entry := ent (wordOf 7 3 { zeros with o1 := 3, o2 := 2, o3 := 3, imm := 0 }) [65536, 0, 131072, 0]
theorem test_hsum : startedEntry (station 12 hsumE [] []) 0 12 7 3 = some hsumE ∧ hsumCheck (station 12 hsumE [] []) 0 hsumE = 0 ∧
    after (exec (.hsum 0) (station 12 hsumE [] [])) (done 12) = true := by decide +kernel
/-- The products of the field of R162: 2 × 0x80 is 0x1D, and an inverse. -/
theorem test_gf8 : gf8 2 0x80 = 0x1D ∧ gf8 7 (gf8Inv 7) = 1 := by decide +kernel

/-! Sprue. -/

def leaf0 (f : Nat) : Leaf := { res := 0, wr := true, pin := false, psc := false, t2d := false, fen := false, prog := 0, frame := f, heat := 0, owner := none }
/-- Pages 0 and 1 of partition 0 in frames 0 and 1. -/
def mapped : Partition := { Partition.reset with leaves := [(0, leaf0 0), (1, leaf0 1)] }
/-- Space 0 from 192 bytes below 2 MiB: two segments. -/
def spr (opc : Nat) (o1 o2 o3 : BitVec 8) (vals : List W64) : Entry := ent (wordOf 6 opc { zeros with fmt := 0x24, o1 := o1, o2 := o2, o3 := o3, o4 := 0x45 }) vals
def sSpr (e : Entry) : State := { station 10 e [pk 0x24 1 1] [] with parts := [(0, mapped)] }
def spRd : Entry := spr 1 3 3 2 [65536, 2096960, 256, 0]
def spWr : Entry := spr 2 3 3 2 [2096960, 65536, 256, 0]
def spLd : Entry := spr 3 0x81 3 0 [0, 4096, 0, 0]
def spSt : Entry := ent (wordOf 6 4 { zeros with fmt := 0x13, o1 := 0xC1, o2 := 3, o4 := 0x45 }) [0, 4096, 0, 0]
def sSt : State := { station 10 spSt [pk 0x13 1 1] [] with parts := [(0, mapped)] }
def spXf : Entry := spr 5 0xC1 0xC2 0 [0, 0, 0, 0]
def spPf : Entry := spr 6 0 3 2 [0, 2096960, 256, 0]
theorem test_sprd : sprueEntry (sSpr spRd) 0 10 1 = some spRd ∧
    after (exec (.sprd 0 0 5) (sSpr spRd)) (fun t => match tget? t.reqs 0 with
      | some r => r.segs.map (fun g => (g.va, g.loc, g.len)) == [(2096960, 65536, 192), (2097152, 65728, 64)] && !r.write | none => false) = true := by
  decide +kernel
theorem test_spwr : sprueEntry (sSpr spWr) 0 10 2 = some spWr ∧
    after (exec (.spwr 0 0 5) (sSpr spWr)) (fun t => match tget? t.reqs 0 with | some r => r.segs.length == 2 && r.write | none => false) = true := by
  decide +kernel
theorem test_sptld : sprueEntry (sSpr spLd) 0 10 3 = some spLd ∧
    after (exec (.sptld 0 0 5) (sSpr spLd)) (fun t => match tget? t.reqs 0 with | some r => r.head && r.segs.length == 1 | none => false) = true := by
  decide +kernel
theorem test_sptst : sprueEntry sSt 0 10 4 = some spSt ∧ good (sourceFmt sSt 0 10 spSt 1 0x13 (fun _ => true)) = true ∧
    after (exec (.sptst 0 0 5) sSt) (fun t => match tget? t.reqs 0 with | some r => r.write && r.segs.length == 1 | none => false) = true := by
  decide +kernel
theorem test_spxf : sprueEntry (sSpr spXf) 0 10 5 = some spXf ∧ good (sourceFmt (sSpr spXf) 0 10 spXf 1 0x24 (fun _ => true)) = true ∧
    (portChan (sSpr spXf) 0 ⟨2, .loc, 0⟩).isSome = true ∧ ePort spXf 2 = some ⟨2, .loc, 0⟩ ∧
    after (exec (.spxf 0 0) (sSpr spXf)) (fun t => match chan? t 0 2 with | some c => c.writing.length == 1 | none => false) = true := by decide +kernel
theorem test_sppf : sprueEntry (sSpr spPf) 0 10 6 = some spPf ∧
    after (exec (.sppf 0 0) (sSpr spPf)) (fun t => tget (bench t 0).tlbs 0 [] == [1, 0] && done 10 t) = true := by decide +kernel
def seg1 (st : SegState) : Seg := { va := 128, loc := 65536, len := 2, state := st, status := 0, since := 0, todo := 0, okN := 0, unk := false }
def req1 (st : SegState) : Req :=
  { prog := some 0, role := 0, bench := 0, eid := 1, part := 0, ord := 10, off := 64, write := true, segs := [seg1 st], record := some 0, pred := 5, soft := false, done := false,
    rank := none, ordered := false, nearDev := false, buf := none, head := false, faulted := false, first := none, land := [] }
/-- A write segment of two bytes 7 and 9. -/
def sSeg : State :=
  { sSpr { spWr with reqs := [3] } with reqs := [(3, req1 .moving)], benches := [(0, storeWrite 65536 [7, 9] { run0 with queues := [(10, [{ spWr with reqs := [3] }])] })] }
theorem test_segment_end : Memory.wf sSeg.mem = true ∧ ownDenied (atTime 4 sSeg) 0 128 true (ownNode sSeg) = false ∧
    admittedAt (atTime 4 sSeg) 0 (paOf (leaf0 0) 128) = true ∧ good (segLeaf (atTime 4 sSeg) 0 128 true) = true ∧ good (nearRead (req1 .moving) 65536 2 (atTime 4 sSeg)) = true ∧
    after (exec (.segmentEnd 3 0 4) sSeg) (fun t => memRead t 127 4 == [0, 7, 9, 0] && (match tget? t.reqs 3 with | some r => r.done | none => true)) = true := by
  decide +kernel

/-- A partition with a rate and no tokens left. -/
def sSlow : State := setFld .alcBw 0 0 8 0 1 { sSeg with parts := [(0, { mapped with tokens := (List.range 96).map fun g => (g, 0) })] }
theorem test_segment_waits : admittedAt (atTime 4 sSlow) 0 (paOf (leaf0 0) 128) = false ∧
    after (exec (.segmentEnd 3 0 4) sSlow) (fun t => memRead t 127 4 == [0, 0, 0, 0] && (partition t 0).waits == [groupOf 0]) = true := by
  decide +kernel
/-- The second of two segments is refused while the first still moves: its request goes on. -/
def sTwo : State := { sSeg with reqs := [(3, { req1 .moving with soft := true, segs := [seg1 .moving, { seg1 .moving with va := 2 ^ 31 }] })] }
theorem test_segment_refused : good (segLeaf (atTime 4 sTwo) 0 (2 ^ 31) true) = false ∧ ownDenied (atTime 4 sTwo) 0 (2 ^ 31) true (ownNode sTwo) = false ∧
    after (exec (.segmentEnd 3 1 4) sTwo) (fun t => t.mem == sTwo.mem && (match tget? t.reqs 3 with | some r => r.segs.map (·.state) == [.moving, .refused] | none => false)) = true := by
  decide +kernel

/-! Faults and ends of programs. -/

def rep (r o : Nat) : FaultReport := ⟨0, 0, r, o, 64, 0x0206⟩
def sRep (f : Option FirstFault) : State := { s0 with reports := [rep 0 6], progs := [(0, { prog0 with fault := f })] }
theorem test_fault_first : after (exec (.faultArbitration 0 1 5) (sRep none)) (fun t => (tget? t.progs 0).any (fun x => x.state == .ending && x.fault == some ⟨0, 6, 64, 0x0206⟩) && t.reports == []) = true := by
  decide +kernel
theorem test_fault_second : after (exec (.faultArbitration 0 1 5) (sRep (some ⟨0, 0, 0, 1⟩))) (fun t => (tget? t.progs 0).any fun x => x.fcount == 1 && x.fault == some ⟨0, 0, 0, 1⟩) = true := by
  decide +kernel
theorem test_winner : winner 0 [rep 1 0, rep 0 6, rep 0 2, rep 0 2] = some (rep 0 2) := by decide +kernel
def sEnd : State := { s0 with progs := [(0, { prog0 with state := .ending })] }
theorem test_program_end : outstanding sEnd 0 { prog0 with state := .ending } = false ∧
    after (exec (.programEnd 0 9) sEnd) (fun t => t.progs == [] && (bench t 0).prog.isNone) = true := by decide +kernel


/-! ## The life of a program (Tables 2.7, 2.8, 7.6) -/

/-- Partition 0 holds bench 0, its scheduler is on with a quantum of 1 and 2 save pages. -/
def schedOn (s : State) : State := setFld .schSaveq 0 0 15 0 2 (setFld .schCtl 0 0 23 16 1 (setFld .schCtl 0 0 15 8 1 (setFld .schCtl 0 0 7 0 0x87 (setFld .schBench 0 0 31 0 1 s))))
/-- An image of one role of one word at page 0; in page 1 an intake list whose record 0 is posted. -/
def image : Tab Byte :=
  [(0, 0x49), (1, 0x4D), (2, 0x45), (3, 0x47), (5, 3), (6, 1), (9, 0x30), (17, 0x10), (25, 0x20), (33, 0x30), (41, 0x30), (49, 0x30), (4097, 0x20), (4104, 0x10),
    (2097152, 1), (2097152 + 64 + 9, 0x30), (2097152 + 64 + 12, 3), (2097152 + 64 + 13, 1)]
def waiting : Prog := { prog0 with roles := [], yields := [], place := [], state := .queued, length := 12288 }
def sSched (x : Prog) : State := schedOn { plain with parts := [(0, mapped)], mem := image, progs := [(0, x)] }
def list1 : IntakeList := { base := 2097152, entries := 4, cap := 7, notify := false, head := 0, done := 0, stopped := false }
def sIntake : State := { sSched waiting with progs := [], sessions := [(0, { Session.reset with state := .open_, part := 0, lists := [(0, list1)] })] }
theorem test_record_take : intakeList sIntake 0 0 = some list1 ∧ flag sIntake .schCtl 0 0 7 = true ∧ isUp sIntake 9 0 = true ∧
    (match spaceRead (atTime 5 sIntake) 0 list1.base 12 with | .ok h => leAt h 0 4 == 1 | .error _ => false) = true ∧
    (match spaceRead (atTime 5 sIntake) 0 (recordAt list1 0) 64 with | .ok r => leAt r 13 1 == 1 | .error _ => false) = true ∧
    after (exec (.launchRecordTake 0 0 5) sIntake) (fun t => t.progs.length == 1 && (tget? t.progs (freeProg sIntake)).any fun x =>
      x.state == .queued && x.pri == 3 && x.image == 0 && x.length == 12288) = true := by decide +kernel
/-- Page 0 alone holds the image. -/
def imageOnly (x : Prog) : State := { sSched x with mem := image.take 14 }
theorem test_place : firstWaiting (imageOnly waiting) 0 = some (0, waiting) ∧
    (match readImage (atTime 5 (imageOnly waiting)) 0 0 12288 with
      | .ok d => d.roles == [⟨8192, 16, 0, 0, 0⟩] && d.groups == [] && !(neverPlaced (atTime 5 (imageOnly waiting)) 0 d.roles []) &&
          !(groupsWait (atTime 5 (imageOnly waiting)) 0 []) && assign (atTime 5 (imageOnly waiting)) d.roles d.roles (freeBenches (atTime 5 (imageOnly waiting)) 0) [] [] == some [0]
      | .error _ => false) = true := by decide +kernel
/-- A partition with no bench. -/
def sNever : State := setFld .schBench 0 0 31 0 0 (imageOnly waiting)
theorem test_never : (match readImage (atTime 5 sNever) 0 0 12288 with | .ok d => neverPlaced (atTime 5 sNever) 0 d.roles [] | .error _ => false) = true := by decide +kernel
def sLife (x : Prog) (y : Bench) : State := schedOn { on y with progs := [(0, x)] }
theorem test_start : after (exec (.programStart 0 5) (sLife { prog0 with state := .placing } { run0 with seq := 0, pc := 0 }))
    (fun t => (tget? t.progs 0).any (fun x => x.state == .running && x.started == 5) && (bench t 0).seq == 1) = true := by decide +kernel
/-- A role at its yield, and with seq 3 stopped at it. -/
def yielding (n : Nat) : Bench := { run0 with seq := n, yielded := some 5 }
def asked (st : ProgState) : Prog := { prog0 with state := st, preempt := some 3 }
theorem test_role_stop : benchIdle (yielding 2) = true ∧ driftWait (sLife (asked .preempting) (yielding 2)) 0 = false ∧ collBusy (sLife (asked .preempting) (yielding 2)) 0 = false ∧
    after (exec (.roleStopAtYield 0 0) (sLife (asked .preempting) (yielding 2))) (fun t => (bench t 0).seq == 3 && (bench t 0).pc == 48) = true := by decide +kernel
theorem test_yield_timeout : notStopped (atTime 1000003 (sLife (asked .preempting) run0)) (asked .preempting) = 1 ∧
    after (exec (.yieldTimeout 0 1000003) (sLife (asked .preempting) run0)) (fun t => (tget? t.progs 0).any fun x => x.preempt.isNone && x.state == .running && x.lastTimeout == some 1000003) = true ∧
    after (exec (.yieldTimeout 0 1000002) (sLife (asked .preempting) run0)) (fun t => (tget? t.progs 0).any fun x => x.preempt.isSome) = true := by decide +kernel
theorem test_save : roleStopped (yielding 3) = true ∧ saveUsed (sLife (asked .preempting) (yielding 3)) 0 + stoppedPages (asked .preempting) (yielding 3) = 1 ∧
    fld (sLife (asked .preempting) (yielding 3)) .schSaveq 0 0 15 0 = 2 ∧
    after (exec (.preemptSaveComplete 0 9) (sLife (asked .preempting) (yielding 3))) (fun t => (tget? t.progs 0).any (fun x => x.state == .saved && x.place == []) && (bench t 0).prog.isNone) =
      true := by decide +kernel
theorem test_restore : after (exec (.restoreComplete 0 9) (sLife { prog0 with state := .restoring } run0)) (fun t => (tget? t.progs 0).any fun x => x.state == .running && x.placed == 9) = true := by
  decide +kernel
theorem test_quantum : after (exec (.quantumExpire 0 1000000) (sLife prog0 run0)) (fun t => (tget? t.progs 0).any fun x => x.quantum) = true ∧
    after (exec (.quantumExpire 0 999999) (sLife prog0 run0)) (fun t => (tget? t.progs 0).any fun x => !x.quantum) = true := by decide +kernel

/-! ## Assay -/

def assayOn (s : State) : State := setFld .numAsybaseLo 0 0 31 21 1 (setFld .numCtl 0 0 0 0 1 s)
def sysE (w : W128) (vals : List W64) : Entry := { ent w vals with phase := .queued }
def sSys (e : Entry) (s : State) : State := { s with benches := [(0, { run0 with grans := [(1, .role), (9, .alloc)], taken := some e })], progs := [(0, prog0)] }
def sMap : State := { plain with parts := [(0, mapped)] }
def seedE : Entry := sysE (wordOf 9 0x40 { zeros with o2 := 2, imm := 3 }) [0, 77, 0, 0]
theorem test_seedset : sysEntry (sSys seedE sMap) 0 9 0x40 = some seedE ∧
    after (exec (.seedset 0) (sSys seedE sMap)) (fun t => tget (bench t 0).seeds 3 0 == 77 && (bench t 0).taken.isNone) = true := by decide +kernel
def clrE : Entry := sysE (wordOf 9 0x41 { zeros with o2 := 2, o3 := 2, mod := 1 }) [0, 0, 1, 0]
def sClr : State := assayOn { sSys clrE sMap with mem := [(2097152, 5), (2097152 + 127, 6), (2097152 + 128, 7)] }
theorem test_asyclr : sysEntry sClr 0 9 0x41 = some clrE ∧ flag sClr .numCtl 0 0 0 = true ∧ roleSynced sClr 0 = true ∧
    after (exec (.asyclr 0) sClr) (fun t => t.mem == [(2097152 + 128, 7)] && (bench t 0).taken.isNone) = true := by decide +kernel
theorem test_asyclr_off : flag (sSys clrE sMap) .numCtl 0 0 0 = false ∧ after (exec (.asyclr 0) (sSys clrE sMap)) (fun t => t.reports == [⟨0, 0, 0, 13, 64, 0x0602⟩]) = true := by
  decide +kernel
def histE : Entry := sysE (wordOf 9 0x42 { zeros with o2 := 2, o3 := 2 }) [0, 0, 1, 0]
/-- The pending maximum 9 and the history 1, …: 9 goes first. -/
theorem test_numhist : sysEntry (assayOn (sSys histE sMap)) 0 9 0x42 = some histE ∧ roleSynced (assayOn (sSys histE sMap)) 0 = true ∧
    after (exec (.numhist 0) (assayOn { sSys histE sMap with mem := [(2097152 + 60, 9), (2097152 + 64, 1)] })) (fun t => t.mem == [(2097152 + 64, 9), (2097152 + 68, 1)]) = true := by
  decide +kernel
theorem test_numhist_off : sysEntry (sSys histE sMap) 0 9 0x42 = some histE ∧ after (exec (.numhist 0) (sSys histE sMap)) (fun t => t.reports.length == 1) = true := by decide +kernel
def syncE : Entry := sysE (wordOf 9 0x43 zeros) []
theorem test_asysync : sysEntry (sSys syncE sMap) 0 9 0x43 = some syncE ∧ after (exec (.asysync 0) (sSys syncE sMap)) (fun t => (bench t 0).taken.isNone) = true := by decide +kernel
def sApply : State := assayOn { sMap with parts := [(0, { mapped with assayQ := [(0, ⟨3, 1, [(0, 7)], 0⟩)] })] }
theorem test_assay_apply : firstIdx (fun (y : Nat × AssayUpd) => y.2.tag % 2 == 1) (partition sApply 0).assayQ = some 0 ∧
    after (exec (.assayUpdateApply 0 1 5) sApply) (fun t => (partition t 0).assayQ == [] && memGet t (2097152 + 3 * 128) == 7) = true := by decide +kernel
theorem test_assay_record : leAt (assayAdd (List.replicate 128 0) 8 9) (assayField 8).1 (assayField 8).2 = 9 ∧
    (match spaceRead sClr 0 2097152 128 with | .ok _ => true | .error _ => false) = true := by decide +kernel


/-! ## Granules and pages -/

def sAlloc (opc : Nat) (f : Fields) (vals : List W64) : Entry := sysE (wordOf 9 opc f) vals
def quota (s : State) : State := setFld .alcT2q 0 0 20 0 4 (setFld .alcHbmq 0 0 18 0 4 (setFld .genConfig 0 0 3 0 1 s))
def gaE : Entry := sAlloc 8 { zeros with o1 := 5, imm := 2 } [0, 0, 0, 0]
/-- Granule 1 is the role's, 0 and 2 to 8 are free, so two granules start at 2. -/
theorem test_galloc : sysEntry (sSys gaE sMap) 0 9 8 = some gaE ∧ freeRun (bench (sSys gaE sMap) 0) false 2 = some 2 ∧
    after (exec (.galloc 0) (sSys gaE sMap)) (fun t => getS (bench t 0) 5 == 131072 && tget? (bench t 0).grans 3 == some .alloc && tget? (bench t 0).grans 4 == none) =
      true := by decide +kernel
def gaBig : Entry := sAlloc 8 { zeros with o1 := 5, imm := 192 } [0, 0, 0, 0]
theorem test_galloc_none : freeRun (bench (sSys gaBig sMap) 0) false 192 = none ∧ after (exec (.galloc 0) (sSys gaBig sMap)) (fun t => t.reports == [⟨0, 0, 0, 13, 64, 0x0281⟩]) = true := by
  decide +kernel
def gfE : Entry := sAlloc 9 { zeros with o2 := 2, imm := 1 } [0, 9 * 65536, 0, 0]
theorem test_gfree : sysEntry (sSys gfE sMap) 0 9 9 = some gfE ∧ tget? (bench (sSys gfE sMap) 0).grans 9 = some .alloc ∧ earlierRetired (bench (sSys gfE sMap) 0) 1 = true ∧
    after (exec (.gfree 0) (sSys gfE sMap)) (fun t => tget? (bench t 0).grans 9 == none && (bench t 0).taken.isNone) = true := by decide +kernel
/-- Page 2 in HBM, written to. -/
def paE : Entry := sAlloc 1 { zeros with o1 := 5, o2 := 2, o3 := 2, mod := 4 } [0, 4194304, 1, 0]
def sPa : State := quota (sSys paE sMap)
theorem test_palloc : sysEntry sPa 0 9 1 = some paE ∧ rangeBad 4194304 1 = false ∧ pageRange 4194304 1 = [2] ∧ leaf? sPa 0 2 = none ∧ (partition sPa 0).going = [] ∧
    (match splitTiers (atTime 5 sPa) 0 0 1 false false with | .ok r => r == (1, 0) | .error _ => false) = true ∧
    (match placePages ⟨true, false, false, false, 0, some 0⟩ 0 [2] 1 0 (atTime 5 sPa) with | .placed _ => true | _ => false) = true ∧
    after (exec (.palloc 0 5) sPa) (fun t => getS (bench t 0) 5 == 1 && (leaf? t 0 2).any fun l => l.res == 0 && l.wr && l.frame == 8256) = true := by decide +kernel
def pfE : Entry := sAlloc 2 { zeros with o2 := 2, o3 := 2 } [0, 0, 2, 0]
theorem test_pfree : sysEntry (sSys pfE sMap) 0 9 2 = some pfE ∧ allMapped (sSys pfE sMap) 0 (pageRange 0 2) = true ∧ (pageRange 0 2).any (pageInUse (sSys pfE sMap) 0) = false ∧
    after (exec (.pfree 0) (sSys pfE sMap)) (fun t => (partition t 0).leaves == [] && (partition t 0).going == [] && tget t.scrubQ 0 [] == [0]) = true := by decide +kernel
def ppE : Entry := sAlloc 3 { zeros with o2 := 2, o3 := 2 } [0, 0, 2, 0]
theorem test_ppin : sysEntry (quota (sSys ppE sMap)) 0 9 3 = some ppE ∧ pinLimit (quota (sSys ppE sMap)) 0 = 4 ∧
    after (exec (.ppin 0 5) (quota (sSys ppE sMap))) (fun t => pinnedPages t 0 == 2) = true := by decide +kernel
def prE : Entry := sAlloc 4 { zeros with o2 := 2, o3 := 2 } [0, 0, 1, 0]
theorem test_pprot : sysEntry (sSys prE sMap) 0 9 4 = some prE ∧ after (exec (.pprot 0) (sSys prE sMap)) (fun t => (leaf? t 0 0).any (fun l => !l.wr) && (leaf? t 0 1).any fun l => l.wr) = true := by
  decide +kernel
def pqE : Entry := sAlloc 5 { zeros with o1 := 5, o2 := 2 } [0, 2097152, 0, 0]
theorem test_pquery : sysEntry (sSys pqE sMap) 0 9 5 = some pqE ∧ after (exec (.pquery 0) (sSys pqE sMap)) (fun t => bit (getS (bench t 0) 5).toNat 0) = true ∧
    after (exec (.pquery 0) (sSys (sAlloc 5 { zeros with o1 := 5, o2 := 2 } [0, 4194304, 0, 0]) sMap)) (fun t => getS (bench t 0) 5 == 0) = true := by decide +kernel

/-! ## Paging -/

theorem test_walk : (leaf? (sSpr spRd) 0 0).isSome = true ∧
    after (exec (.pageWalk 3 0 5) { sSeg with reqs := [(3, req1 .walking)] }) (fun t => tget (bench t 0).tlbs 0 [] == [0] && tget t.walks 0 [] == [0] &&
      (match tget? t.reqs 3 with | some r => r.segs.all (fun g => g.state == .moving) | none => false)) = true := by decide +kernel
/-- Page 0 lies in tier-2 frame 524288 and is asked for. -/
def cold : Partition := { mapped with leaves := [(0, { leaf0 524288 with res := 1 })], demand := [0] }
def sCold : State := quota { plain with parts := [(0, cold)] }
theorem test_demand : hbmRoom sCold 0 = some (0, 8256) ∧ frameFenced sCold 524288 = false ∧
    after (exec (.driftDemandFetch 0 0 5) sCold) (fun t => (leaf? t 0 0).any (fun l => l.res == 2) && tget? (partition t 0).moves 0 == some ⟨true, 8256, [], false⟩) = true := by
  decide +kernel
def moving (n : Nat) : Partition := { cold with leaves := [(0, { leaf0 524288 with res := 2 })], moves := [(0, ⟨true, 8256, List.range n, false⟩)] }
theorem test_move_complete : (moving 32).moves = [(0, ⟨true, 8256, List.range 32, false⟩)] ∧
    after (exec (.driftMoveComplete 0 0 5) { sCold with parts := [(0, moving 32)] }) (fun t => (leaf? t 0 0).any (fun l => l.res == 0 && l.frame == 8256) && (partition t 0).moves == [] &&
      tget t.scrubQ 0 [] == [524288]) = true := by decide +kernel
theorem test_move_early : after (exec (.driftMoveComplete 0 0 5) { sCold with parts := [(0, moving 31)] }) (fun t => (leaf? t 0 0).any fun l => l.res == 2) = true ∧
    (tget? (moving 31).moves 0).any (fun m => !(m.frags.contains 31)) = true := by decide +kernel
/-- The last byte of a copied range arrives, the byte behind it does not (a fragment is a copy of 65536 bytes). -/
theorem test_copy : (copyFrame 524288 8256 0 4 { plain with mem := [(524288 * 2 ^ 21 + 3, 7), (524288 * 2 ^ 21 + 4, 8)] }).mem =
    [(8256 * 2 ^ 21 + 3, 7), (524288 * 2 ^ 21 + 3, 7), (524288 * 2 ^ 21 + 4, 8)] := by decide +kernel
/-- Use of 2 pages of a quota of 4 is above 40 % and not above 50 %. -/
def marks (h : Nat) (s : State) : State := setFld .pgeCtl 0 0 15 8 10 (setFld .pgeCtl 0 0 23 16 h (quota s))
theorem test_demote : coldest (marks 40 sMap) 0 = some (0, leaf0 0) ∧ nextTier2 (marks 40 sMap) = some 524288 ∧ lowMark (marks 40 sMap) 0 = 10 ∧ highMark (marks 40 sMap) 0 = 40 ∧
    after (exec (.driftDemote 0 5) (marks 40 sMap)) (fun t => (leaf? t 0 0).any (fun l => l.res == 3) && tget? (partition t 0).moves 0 == some ⟨false, 524288, [], false⟩) = true ∧
    after (exec (.driftDemote 0 5) (marks 50 sMap)) (fun t => (leaf? t 0 0).any fun l => l.res == 0) = true := by decide +kernel
def hot : State := setFld .pgeCtl 0 0 7 0 1 { plain with parts := [(0, { mapped with leaves := [(0, { leaf0 0 with heat := 255 })] })] }
theorem test_decay : after (exec (.heatDecay 0 100000) hot) (fun t => (leaf? t 0 0).any fun l => l.heat == 127) = true ∧
    after (exec (.heatDecay 0 99999) hot) (fun t => (leaf? t 0 0).any fun l => l.heat == 255) = true := by decide +kernel
/-- The frame freed first is scrubbed. -/
def sScrub : State := { plain with scrubQ := [(0, [8256, 8258])], frames := [(8256, .scrub), (8258, .scrub)], mem := [(8256 * 2 ^ 21, 1), (8257 * 2 ^ 21, 2)], poison := [8256 * 32768 + 5, 8257 * 32768] }
theorem test_scrub_frame : frameFenced sScrub 8256 = false ∧
    after (exec (.frameScrub 0) sScrub) (fun t => t.mem == [(8257 * 2 ^ 21, 2)] && t.poison == [8257 * 32768] && tget t.scrubQ 0 [] == [8258] && t.frames == [(8258, .scrub)]) = true := by
  decide +kernel
def sTok : State := setFld .alcBw 0 0 8 0 3 { plain with parts := [(0, { mapped with tokens := [(95, 1)] })] }
theorem test_refill : after (exec .tokenRefill sTok) (fun t => bucket t 0 95 == 16 && bucket t 0 0 == bucketDepth t 0) = true := by decide +kernel

/-! ## Registers -/

/-- Whether a write finds its path and its register open. -/
def canWrite (s : State) (path : Path) (r : Reg) (i j : Nat) (v : W32) : Bool :=
  pathServed s path (regAddr r i j) v.toNat true && (placeAt (regAddr r i j) == some ⟨r, i, j⟩ && (decoded (regAddr r i j) &&
    (mayWrite (fetched path r i j v s) path (regAddr r i j) (some ⟨r, i, j⟩) && !(regFenced (fetched path r i j v s) (regAddr r i j)))))
theorem writes_of {s : State} {path : Path} {r : Reg} {i j : Nat} {v : W32} (h : canWrite s path r i j v = true) : WritesReg s path r i j v := by
  simp only [canWrite, Bool.and_eq_true, beq_iff_eq, Bool.not_eq_true'] at h
  exact ⟨h.1, h.2.1, h.2.2.1, h.2.2.2.1, h.2.2.2.2⟩
theorem test_write_num : WritesReg plain .admin .numCtl 0 0 1 := writes_of (by decide +kernel)
theorem test_write_sch : WritesReg plain .admin .schBench 7 0 1 ∧ WritesReg plain .admin .schCtl 7 0 0x80 ∧ WritesReg plain .admin .schSaveq 7 0 1 :=
  ⟨writes_of (by decide +kernel), writes_of (by decide +kernel), writes_of (by decide +kernel)⟩
theorem test_write_alc : WritesReg plain .admin .alcHbmq 0 0 1 ∧ WritesReg plain .admin .alcT2q 0 0 1 ∧ WritesReg plain .admin .alcBw 0 0 1 ∧ WritesReg plain .admin .fabPslice 0 0 1 :=
  ⟨writes_of (by decide +kernel), writes_of (by decide +kernel), writes_of (by decide +kernel), writes_of (by decide +kernel)⟩
theorem test_write_held : WritesReg plain .admin .numAsybaseLo 0 0 0x200000 ∧ WritesReg plain .admin .numAsybaseHi 0 0 1 ∧ WritesReg plain .admin .rmaRankLo 7 16383 1 ∧
    WritesReg plain .admin .rmaRankHi 7 16383 1 ∧ rankStatus true 0x1FFFFFFF = 0 ∧ rankStatus true 0x20000000 = 0x0102 :=
  ⟨writes_of (by decide +kernel), writes_of (by decide +kernel), writes_of (by decide +kernel), writes_of (by decide +kernel), by decide, by decide⟩
theorem test_place_rank : placeAt (regAddr .rmaRankHi 7 16383) = some ⟨.rmaRankHi, 7, 16383⟩ := by decide +kernel
/-- LO is held until HI is written, and a write of ASYEN takes effect. -/
theorem test_asybase : after (exec (.numAsybaseWrite .admin 0 false 0x00600000 5) plain) (fun t => fld t .numAsybaseLo 0 0 31 21 == 0) = true ∧
    after (exec (.numAsybaseWrite .admin 0 true 1 6) (nextOf (exec (.numAsybaseWrite .admin 0 false 0x00600000 5) plain))) (fun t => fld t .numAsybaseLo 0 0 31 21 == 3 &&
      fld t .numAsybaseHi 0 0 15 0 == 1) = true := by decide +kernel
/-- EN needs a rate. -/
theorem test_schctl : after (exec (.schCtlWrite .admin 0 0x80 5) plain) (fun t => !(flag t .schCtl 0 0 7) && t.out == [.access .admin (BitVec.ofNat 32 (regAddr .schCtl 0 0)) 0x0286 0]) = true ∧
    after (exec (.schCtlWrite .admin 0 0x80 5) (setFld .alcBw 0 0 8 0 1 plain)) (fun t => flag t .schCtl 0 0 7) = true := by decide +kernel
theorem test_generic_write : pathServed plain .admin (regAddr .pwrTdp 0 0) 700 true = true ∧ mayWrite plain .admin (regAddr .pwrTdp 0 0) (some ⟨.pwrTdp, 0, 0⟩) = true ∧
    regFenced plain (regAddr .pwrTdp 0 0) = false ∧ writable .pwrTdp = true ∧ Reg.hiOf .pwrTdp = none ∧ Reg.loOf .pwrTdp = none ∧ blockStatus plain ⟨.pwrTdp, 0, 0⟩ 700 = 0 := by decide +kernel
/-- An open session 0 with its mailbox connected. -/
def windowed : State := { plain with sessions := [(0, { Session.reset with state := .open_ })], qps := [(901, qpOf 0 (.mailbox 0))] }
theorem test_write_refused : mayWrite plain (.window 0) (regAddr .pwrTdp 0 0) (some ⟨.pwrTdp, 0, 0⟩) = false ∧
    pathServed windowed (.window 0) (regAddr .pwrTdp 0 0) 1 true = true ∧
    after (exec (.registerWrite (.window 0) (BitVec.ofNat 32 (regAddr .pwrTdp 0 0)) 1 5) windowed)
      (fun t => t.out == [.access (.window 0) (BitVec.ofNat 32 (regAddr .pwrTdp 0 0)) 0x081D 0]) = true := by decide +kernel

/-! ## Memory tiers -/

theorem test_hbm_write : groupGone plain 64 = false ∧
    after (exec (.hbmAccess 64 (.write ([9] ++ List.replicate 63 0)) [] 5) { plain with poison := [1] }) (fun t => t.mem == [(64, 9)] && t.poison == [] && t.out == [.line 64 0 []]) = true := by
  decide +kernel
theorem test_hbm_read : pcFenced plain (pcOf 64) = false ∧ after (exec (.hbmAccess 64 .read [] 5) { plain with mem := [(127, 3)] }) (fun t => t.out == [.line 64 0 (List.replicate 63 0 ++ [3])]) = true ∧
    after (exec (.hbmAccess 64 .read [] 5) { plain with poison := [1] }) (fun t => t.out == [.line 64 0x0582 []]) = true := by decide +kernel
/-- Three wrong symbols. -/
theorem test_hbm_uncorrectable : rsDecode (realErrs [(0, 1), (1, 1), (2, 1)]) = none ∧
    after (exec (.hbmAccess 64 .read [(0, 1), (1, 1), (2, 1)] 5) plain) (fun t => t.out == [.line 64 0x0581 []] && t.poison == [1]) = true := by decide +kernel
theorem test_hbm_scrub : rsDecode (realErrs [(3, 5)]) = some [(3, 5)] ∧ memoryCoreRuns plain 0 = true ∧ pcOf 64 / 64 = 0 ∧
    after (exec (.hbmScrub 64 [(3, 5)] false 5) (setFld .memScrub 0 0 7 0 1 { plain with mem := [(70, 1)] })) (fun t => t.mem == [(70, 1)] && t.rowErrs.length == 1) = true := by decide +kernel
theorem test_stack_temp : after (exec (.stackTempSample 0 105 5) plain) (fun t => fld t .memStat 0 0 31 24 == 105 && flag t .memStat 0 0 1) = true ∧
    after (exec (.stackTempSample 0 104 5) plain) (fun t => !(flag t .memStat 0 0 1)) = true := by decide +kernel
theorem test_atomic : atomicWidth .addI64 = 8 ∧ after (exec (.nearMemoryAtomic 64 .addI64 5 0) { plain with mem := [(64, 255)] }) (fun t =>
    t.mem == [(64, 4), (65, 1)] && t.out == [.atomic 64 0 255] && raw64 t .memAtomLo .memAtomHi 0 0 == 1) = true := by decide +kernel
theorem test_parity_loss : modulePresent (quota plain) 0 = true ∧ (moduleLanes 0).all (laneGone (atTime 20000000 (quota plain)) 9) = true ∧
    after (exec (.moduleParityLoss 0 true 20000000) (quota plain)) (fun t => flag t .t2mStat 0 0 28 && parityUp t 0 0 && !(parityUp t 0 1)) = true := by decide +kernel
theorem test_module_failure : after (exec (.moduleFailureReport 0 5) (quota plain)) (fun t => !(isUp t 8 0)) = true := by decide +kernel


/-! ## Optical engines -/

theorem test_bands : bandAt 0 50 = 1 ∧ bandAt 0 49 = 0 ∧ bandAt 1 47 = 1 ∧ bandAt 1 46 = 0 ∧ bandAt 4 96 = 3 ∧ bandAt 4 97 = 4 ∧ bandAt 0 100 = 4 := by decide +kernel
theorem test_engine_temp : (engine (engineTemp 9 75 plain) 9).band = 2 ∧ fld (engineTemp 9 75 plain) .optTxl 9 63 7 4 = 2 ∧ 63 < engineLanes 9 ∧ engineLanes 11 = 8 := by decide +kernel
def lane (e d l st : Nat) (s : State) : State := setLane e d l st s
theorem test_ring : after (exec (.ringLoopUpdate 0 .tx 5 (-61) 0 20 5) (lane 0 0 5 2 plain)) (fun t => laneState t 0 0 5 == 0 && fld t .optTxl 0 5 31 16 == 65475 && fld t .optCal 0 0 7 0 == 61) = true ∧
    after (exec (.ringLoopUpdate 0 .tx 5 (-60) 0 20 5) (lane 0 0 5 2 plain)) (fun t => laneState t 0 0 5 == 2) = true := by decide +kernel
theorem test_power_sample : (3 : Nat) ≤ 3 ∧ after (exec (.lanePowerSample 0 5 (-121) false 0 20 5) (modLane 0 1 5 (fun a => { a with low := 2 }) (lane 0 1 5 2 plain))) (fun t => laneState t 0 1 5 == 0) = true ∧
    after (exec (.lanePowerSample 0 5 (-120) false 0 20 5) (modLane 0 1 5 (fun a => { a with low := 2 }) (lane 0 1 5 2 plain))) (fun t => laneState t 0 1 5 == 2 && (laneAux t 0 1 5).low == 0) = true := by
  decide +kernel
/-- The eighth loss in 60 s. -/
def losing (n : Nat) : State := modLane 0 1 5 (fun a => { a with downs := List.replicate n 7 }) (lane 0 1 5 2 (lane 0 0 11 2 plain))
theorem test_light : laneLive (laneState (losing 7) 0 1 5) = true ∧ isUp (losing 7) 5 (laneUnit 0 1 5) = true ∧ pairedLane (losing 7) 0 5 = 11 ∧
    after (exec (.lossOfLight 0 ⟨5, false⟩ 60000000006) (losing 7)) (fun t => laneState t 0 1 5 == 6 && laneState t 0 0 11 == 0) = true ∧
    after (exec (.lossOfLight 0 ⟨5, false⟩ 60000000007) (losing 7)) (fun t => laneState t 0 1 5 == 0 && (laneAux t 0 1 5).downs == [60000000007]) = true := by decide +kernel
theorem test_light_host : laneLive (laneState (lane 11 1 7 2 plain) 11 1 7) = true ∧ isUp (lane 11 1 7 2 plain) 5 (laneUnit 11 1 7) = true ∧ (7 : Nat) < engineLanes 11 ∧
    after (exec (.lossOfLight 11 ⟨7, false⟩ 5) (setFld .hstPstat 3 0 31 31 1 (lane 11 1 7 2 plain))) (fun t => !(flag t .hstPstat 3 0 31)) = true := by decide +kernel
def booted : State := { plain with bootCfg := some [], verified := true }
theorem test_retrain : fabricBarred booted = false ∧ flag booted .optCtl 0 0 2 = false ∧ isUp booted 6 0 = true ∧
    after (exec (.laneRetrain 0 .rx 63 5 5 9) booted) (fun t => laneState t 0 1 63 == 1 && (laneAux t 0 1 63).since == 9) = true := by decide +kernel
theorem test_lane_up : after (exec (.laneUp 0 .rx 63 true 1000009) (modLane 0 1 63 (fun a => { a with since := 9 }) (lane 0 1 63 1 booted))) (fun t => laneState t 0 1 63 == 2) = true ∧
    after (exec (.laneUp 0 .tx 16 true 1000000) (lane 0 0 16 1 booted)) (fun t => laneState t 0 0 16 == 7) = true := by decide +kernel
theorem test_fibre : after (exec (.fibreOpenDetect 9 3) (lane 9 0 63 2 plain)) (fun t => (engine t 9).opened == [3] && laneState t 9 0 63 == 0) = true ∧
    after (exec (.shutterProbe 9 3 true) (modEngine 9 (fun x => { x with opened := [3, 2] }) plain)) (fun t => (engine t 9).opened == [2]) = true := by decide +kernel
def lit (e : Nat) : State := modEngine e (fun x => { x with lit := true, litAt := 0, lsm := true, present := true }) booted
theorem test_absent : (engine (lit 9) 9).lit = true ∧ after (exec (.laneAbsentTimeout 9 3 15 1000000000) (lit 9)) (fun t => t.absent == [639]) = true ∧
    after (exec (.laneAbsentTimeout 9 3 15 999999999) (lit 9)) (fun t => t.absent == []) = true := by decide +kernel
theorem test_bias : engineCore (lit 11) 11 = true ∧ laserCount 11 = 8 ∧
    after (exec (.laserBiasStep 11 7 159) (modEngine 11 (fun x => { x with bias := [(7, 359)] }) (lit 11))) (fun t => tget (engine t 11).bias 7 0 == 360 && fld t .optLsr 11 7 23 16 == 180) = true ∧
    after (exec (.laserBiasStep 11 7 160) (lit 11)) (fun t => tget (engine t 11).bias 7 0 == 0) = true := by decide +kernel
def reading (p : Int) (b : Nat) : LaserReading := ⟨p, b, 0, 0, 0⟩
theorem test_fade : flag (lit 9) .optLsr 9 15 28 = false ∧ flag (lit 9) .optLsr 9 15 29 = false ∧ fld (lit 9) .optLsr 9 15 31 30 ≠ 2 ∧
    after (exec (.laserFadeDeclare 9 15 (reading 149 360) 5) (lit 9)) (fun t => (engine t 9).queue == [(15, false)] && flag t .optLsr 9 15 29) = true ∧
    after (exec (.laserFadeDeclare 9 15 (reading 150 360) 5) (lit 9)) (fun t => (engine t 9).queue == []) = true := by decide +kernel
def faded : State := modEngine 9 (fun x => { x with queue := [(15, false), (3, true)] }) (lit 9)
theorem test_swap_warm : (engine faded 9).swap = none ∧ (engine faded 9).cal = none ∧
    after (exec (.swapWarm 9 5) faded) (fun t => (engine t 9).swap == some ⟨15, false, false, 5⟩ && swapStep t 9 == 1 && fld t .optSwap 9 0 11 8 == 1) = true := by decide +kernel
def swapping (n : Nat) (locked : Bool) : State := setStep 9 n (lane 9 0 15 2 (modEngine 9 (fun x => { x with swap := some ⟨15, false, locked, 5⟩ }) (lit 9)))
theorem test_swap_lock : swapStep (swapping 1 false) 9 = 1 ∧ after (exec (.swapLock 9 (-10) 9) (swapping 1 false)) (fun t => (engine t 9).swap.any (fun w => w.locked) && swapStep t 9 == 2) = true ∧
    after (exec (.swapLock 9 11 9) (swapping 2 true)) (fun t => (engine t 9).swap.any fun w => !w.locked) = true := by decide +kernel
theorem test_swap_quiesce : noQuiesce (swapping 2 true) 9 ⟨15, false, true, 5⟩ = false ∧
    after (exec (.swapQuiesce 9 9) (swapping 2 true)) (fun t => swapStep t 9 == 3 && laneState t 9 0 15 == 3) = true := by decide +kernel
theorem test_swap_switch : after (exec (.swapSwitch 9 9) (swapping 3 true)) (fun t => swapStep t 9 == 4) = true ∧
    after (exec (.swapSwitch 9 9) (swapping 4 true)) (fun t => swapStep t 9 == 5 && fld t .optLsr 9 15 31 30 == 1) = true := by decide +kernel
theorem test_swap_resume : after (exec (.swapResume 9 9) (swapping 5 true)) (fun t => (engine t 9).swap.isNone && swapStep t 9 == 0 && fld t .optSwap 9 0 6 0 == 1 && flag t .optLsr 9 15 28) = true := by
  decide +kernel
theorem test_swap_abandon : after (exec (.swapAbandon 9 6000005) (swapping 2 false)) (fun t => (engine t 9).swap.isNone && flag t .optLsr 9 15 28) = true ∧
    after (exec (.swapAbandon 9 6000004) (swapping 2 false)) (fun t => (engine t 9).swap.isSome) = true := by decide +kernel
/-- A Prop that says when lasers may be lit, met and not met. -/
theorem test_laser_enable : awake booted = true ∧ after (exec (.laserEnable 9 5) (modEngine 9 (fun x => { x with lit := false }) (lit 9))) (fun t => (engine t 9).lit && (engine t 9).litAt == 5) = true ∧
    after (exec (.laserEnable 9 5) (modEngine 9 (fun x => { x with lsm := false }) (lit 9))) (fun t => !((engine t 9).lit)) = true := by decide +kernel
theorem test_lsm_gone : isUp (lit 11) 6 11 = true ∧ after (exec (.lsmPresenceChange 11 false 5) (lit 11)) (fun t => !((engine t 11).present) && !((engine t 11).lit) && unitState t 6 11 == .draining) = true := by
  decide +kernel
theorem test_hours : after (exec (.lsmHoursUpdate 9 true 3600000000000) (lit 9)) (fun t => t.out == [.lsmHours 9 1]) = true := by decide +kernel
theorem test_cal_due : after (exec (.calibrationDue 9 .period 3600000000000) (setFld .optCal 9 0 15 8 1 (lit 9))) (fun t => (engine t 9).calTodo.length == 16) = true ∧
    after (exec (.calibrationDue 9 .period 3599999999999) (setFld .optCal 9 0 15 8 1 (lit 9))) (fun t => (engine t 9).calTodo == []) = true ∧
    after (exec (.calibrationDue 11 .startUp 5) (lit 11)) (fun t => (engine t 11).calTodo.length == 8) = true := by decide +kernel
def calibrating (c : Option (Nat × Time)) (st : Nat) : State := lane 9 0 63 st (modEngine 9 (fun x => { x with calTodo := [15], cal := c }) (lit 9))
theorem test_cal_window : after (exec (.calibrationWindow 9 15 5) (calibrating none 2)) (fun t => (engine t 9).cal == some (15, 5) && laneState t 9 0 63 == 4) = true ∧
    after (exec (.calibrationWindow 9 15 500005) (calibrating (some (15, 5)) 4)) (fun t => (engine t 9).cal == none && (engine t 9).calTodo == [] && laneState t 9 0 63 == 2 && (engine t 9).calAt == 500005) =
      true := by decide +kernel
theorem test_opt_writes : WritesReg plain .admin .optCtl 9 0 6 ∧ WritesReg plain .admin .optSwap 11 0 0x80000000 := ⟨writes_of (by decide +kernel), writes_of (by decide +kernel)⟩
theorem test_park : after (exec (.optPark .admin 9 4 5) (lane 9 1 63 2 plain)) (fun t => laneState t 9 1 63 == 5 && t.out.head? == some (.park 9)) = true ∧
    laneState (parkEngine 9 false (lane 9 1 63 5 plain)) 9 1 63 = 1 ∧ laneState (lane 9 1 63 2 plain) 9 1 63 = 2 := by decide +kernel
theorem test_lane_return : let s := setUnit 5 (laneUnit 9 1 63) .fenced 0x030D plain
    unitState s 5 (laneUnit 9 1 63) = .fenced ∧ isUp s 6 9 = true ∧ unitState (laneReturn 9 1 63 s) 5 (laneUnit 9 1 63) = .recovering := by decide +kernel

/-! ## Fabric -/

def route0 : Route := { dst := 17, src := 0, epoch := 0, typ := 0, cls := 0, ord := false, igrp := 0, via := false, mc := false, slice := 0, nflit := 1, gl := 0, gm := 0, stg := 0, rsv := 0 }
def tr0 : Transport := requestHdr 0 false false 0 64
def pkt0 : Packet := ⟨route0, .mgmtWrite 0 0⟩
def pktB (t : BitVec 2) : Packet := ⟨{ route0 with typ := t }, .weather [1]⟩
/-- Node 17; node 17 is reached by MODE 0 and node 18 by MODE 1 over local links, for every partition; tree 3 belongs to partition 1. -/
def tables : TableSet := ⟨[(17, 0xFF1), (18, 0xFF3), (19, 0x3)], [(3, 2 ^ 20 + 2 ^ 17)], none⟩
def sFab : State := setFld .fabPslice 0 0 11 0 7 (setFld .fabPslice 0 0 31 31 1 (setFld .genStrap 0 0 12 0 17 { plain with fabActive := tables, swapped := true, epoch := 1 }))
theorem test_fab_node : ownNode sFab = 17 ∧ flag sFab .fabPslice 0 0 31 = true ∧ flag sFab .fabPslice 1 0 31 = false := by decide +kernel
theorem test_inject_refused : after (exec (.packetInject 1 (pktB 0) 5) sFab) (fun t => t.out == [.injectRefused 1 0x0402]) = true ∧
    rtV (tables.route 20) = false ∧ after (exec (.packetInject 0 ⟨{ route0 with dst := 20 }, .weather [1]⟩ 5) sFab) (fun t => t.out == [.injectRefused 0 0x0401]) = true ∧
    rtV (tables.route 19) = true ∧ rtMode (tables.route 19) = 1 ∧ rtAllows (tables.route 19) 0 = false ∧
    after (exec (.packetInject 0 ⟨{ route0 with dst := 19 }, .weather [1]⟩ 5) sFab) (fun t => t.out == [.injectRefused 0 0x0402]) = true := by decide +kernel
theorem test_inject_tree : after (exec (.packetInject 0 ⟨{ route0 with dst := 3, typ := 2, mc := true }, .weather [1]⟩ 5) sFab) (fun t => t.out == [.injectRefused 0 0x0401]) = true ∧
    bit (tables.tree 3) 20 = true ∧ bits (tables.tree 3) 19 17 ≠ 0 := by decide +kernel
theorem test_inject : rtAllows (tables.route 17) 0 = true ∧ rtMode (tables.route 17) = 0 ∧ rtMode (tables.route 18) = 1 ∧
    after (exec (.packetInject 0 ⟨{ route0 with slice := 9 }, .weather [1]⟩ 5) sFab) (fun t => t.arrived.map (fun a => (a.part, a.pkt.route.src.toNat, a.pkt.route.slice.toNat)) == [(0, 17, 7)]) = true := by
  decide +kernel
/-- A local lane toward port 2 (colour 1) is up: the packet goes out. -/
theorem test_inject_local : after (exec (.packetInject 0 ⟨{ route0 with dst := 18 }, .weather [1]⟩ 5) (lane 0 0 1 2 sFab)) (fun t =>
    t.out.any (fun x => match x with | .flit l f => l.far == 18 && !l.isGlobal && f.head | _ => false)) = true := by decide +kernel
def peer : LinkId := ⟨false, false, 18⟩
def here (ep : BitVec 2) (nf : Nat) (slice : BitVec 12) : Packet := ⟨{ route0 with epoch := ep, nflit := nf, slice := slice, stg := 2 }, .weather [1]⟩
theorem test_arrive : routeBad (here 1 1 7) = false ∧ setOf sFab 1 = some tables ∧ after (exec (.packetArrive peer (here 1 1 7) 5) sFab) (fun t => t.arrived.length == 1) = true ∧
    after (exec (.packetArrive peer (here 1 1 7) 5) { sFab with swapped := false }) (fun t => t.arrived == []) = true ∧
    routeBad (here 1 0 7) = true ∧ after (exec (.packetArrive peer (here 1 0 7) 5) sFab) (fun t => raw t .fabDropRoute 0 0 == 1) = true := by decide +kernel
theorem test_arrive_drop : setOf sFab 2 = none ∧ after (exec (.packetArrive peer (here 2 1 7) 5) sFab) (fun t => raw t .fabDropEpoch 0 0 == 1) = true ∧
    slicePart sFab 8 = none ∧ slicePart sFab 7 = some 0 ∧ after (exec (.packetArrive peer (here 1 1 8) 5) sFab) (fun t => raw t .fabDropSlice 0 0 == 1) = true := by decide +kernel
theorem test_hello_send : engineRole (lane 0 0 1 2 sFab) 0 ≤ 1 ∧ after (exec (.helloSend 0 0 1 5) (lane 0 0 1 2 sFab)) (fun t => t.out.length == 1) = true := by decide +kernel
/-- Receive colour 15 hears the peer on colour 1: port 2. -/
def hello (n : BitVec 13) : Hello := { node := n, domain := 0, engine := 0, fibre := 0, colour := 15 }
theorem test_hello : helloOk (lane 0 1 15 2 sFab) 0 15 (hello 18) = true ∧ helloOk (lane 0 1 15 2 sFab) 0 15 (hello 19) = false ∧
    after (exec (.helloReceive 0 0 15 (hello 18) 5) (lane 0 1 15 2 sFab)) (fun t => t.helloFrom == [(15, 18)]) = true ∧
    after (exec (.helloReceive 0 0 15 (hello 19) 5) (lane 0 1 15 2 sFab)) (fun t => laneState t 0 1 15 == 6 && unitState t 5 (laneUnit 0 1 15) == .draining) = true := by decide +kernel
/-- A global engine records the node of a global lane, or that it is miswired. -/
def sGl : State := setFld .optStat 1 0 31 28 1 (lane 1 1 15 2 sFab)
theorem test_hello_global : engineRole sGl 1 = 1 ∧ laneGl sGl 1 (pairedLane sGl 1 15) = some 1 ∧ helloOk sGl 1 15 (hello 40) = true ∧ helloOk sGl 1 15 (hello 18) = false ∧
    after (exec (.helloReceive 1 0 15 (hello 40) 5) sGl) (fun t => raw t .fabGlmap 1 0 == 2 ^ 31 + 40) = true ∧
    after (exec (.helloReceive 1 0 15 (hello 18) 5) sGl) (fun t => flag t .fabGlmap 1 0 30) = true := by decide +kernel
/-- No engine serves the fabric. -/
def noWait : State := (List.range 8).foldl (fun s e => setFld .optStat e 0 31 28 2 s) sFab
theorem test_discovery : (List.range 8).all (fun e => (List.range 64).all fun l => !(laneAwaited noWait e l)) = true ∧ noWait.discovered = false ∧
    after (exec (.discoveryComplete 5) noWait) (fun t => t.discovered && t.fabReady == some 5) = true := by decide +kernel
def wxOn : State := setFld .fabWx 0 0 31 31 1 { sFab with fabReady := some 0 }
theorem test_weather : wxOn.fabReady = some 0 ∧ flag wxOn .fabWx 0 0 31 = true ∧ (wxOn.wxPeriod + 1) % Nat.max 1 (fld wxOn .fabWx 0 0 23 16) = 0 := by decide +kernel
theorem test_weather_early : after (exec (.weatherRecord [] 99999) wxOn) (fun t => t.wxPeriod == 0) = true ∧
    after (exec (.weatherRecord [] 100000) { wxOn with ctl := tset wxOn.ctl (regAddr .fabWx 0 0) 0 }) (fun t => t.wxPeriod == 1 && t.wxAt == 100000) = true := by decide +kernel
def wxRing : State := setFld .fabWxringHi 0 0 23 16 2 { sFab with parts := [(0, mapped)], stewardQ := [(⟨{ route0 with typ := 3 }, .weather [9, 8]⟩, none)] }
theorem test_weather_ring : (takeMgmt (fun p => p.body == .weather [9, 8]) wxRing).isSome = true ∧ (match spaceRead wxRing 0 0 8 with | .ok _ => true | .error _ => false) = true ∧
    after (exec (.weatherAppend [9, 8]) wxRing) (fun t => t.mem == [(0, 1), (4096, 9), (4097, 8)] && t.stewardQ == []) = true := by decide +kernel

/-! Links. -/

def flit (n : Nat) : Flit := { seq := n, ack := 4095, nak := false, vc := 0, stg := 2, head := true, tail := true, crvc := 0, crstg := 0, crpool := false, crcnt := 0, idle := false, packet := some (here 1 1 7) }
def upLink : State := lane 0 0 1 2 sFab
/-- The bytes of a flit are not checked here: its CRC is that of R351, taken as it stands. -/
theorem test_flit : (let t := sequencedFlit 18 (flit 0) upLink; t.arrived.length == 1 && (link t 18).next == 1) = true ∧
    after (exec (.flitReceive peer (flit 0) ⟨[], 0⟩ (some 1) 5) upLink) (fun t => raw t .fabCrcerr 0 0 == 1 && raw t .fabFecunc 0 0 == 1 && t.arrived == [] &&
      t.out.any (fun x => match x with | .flit _ f => f.nak | _ => false)) = true ∧
    (let t := sequencedFlit 18 (flit 1) { upLink with time := 5 }; (link t 18).held.length == 1 && (link t 18).gap == some 5) = true := by decide +kernel
def gapped : State := { upLink with links := [(18, { Link.reset with gap := some 5, held := [flit 1] })] }
theorem test_gap : linkKey peer = 18 ∧ (link gapped 18).gap = some 5 ∧ after (exec (.flitGapTimeout peer 2005) gapped) (fun t => t.out.length == 1) = true ∧
    after (exec (.flitGapTimeout peer 2004) gapped) (fun t => t.out == []) = true := by decide +kernel
def unacked : State := { upLink with links := [(18, { Link.reset with seq := 3, unacked := [⟨flit 1, here 1 1 7⟩, ⟨flit 2, here 1 1 7⟩] })] }
theorem test_replay : (link unacked 18).unacked ≠ [] ∧ linkUp unacked 18 = true ∧
    after (exec (.replayTimeout peer 655350) unacked) (fun t => t.out.length == 2 && raw t .fabReplay 0 0 == 2) = true ∧
    after (exec (.nakReceive peer 1 5) unacked) (fun t => t.out.length == 1 && ((link t 18).unacked.map fun f => f.flit.seq) == [2]) = true := by decide +kernel
theorem test_link_failure : linkLanes unacked 18 ≠ [] ∧ linkFailed (atTime 65535000 unacked) 18 = true ∧
    after (exec (.linkFailure peer 65535000) unacked) (fun t => (link t 18).seq == 0 && raw t .fabLinkfail 0 0 == 1 && raw t .fabDropLink 0 0 == 2) = true := by decide +kernel

/-! Table epochs. -/

def ready : State := setFld .fabTbl 0 0 29 29 1 sFab
theorem test_swap_tables : WritesReg ready .admin .fabTbl 0 0 0x80000000 := writes_of (by decide +kernel)
theorem test_swap_done : fabSwapStatus ready = 0 ∧ fabSwapStatus sFab = 0x0406 := by decide +kernel
/-- A drain with every marker sent. -/
def old : State := { sFab with fabOld := some tables, epoch := 2, sentMarks := List.range 24 }
theorem test_force : after (exec (.fabForce .admin 0x40000000 5) old) (fun t => t.fabOld.isNone && t.epoch == 2) = true := by decide +kernel
theorem test_marker : after (exec (.drainMarkerArrive peer 3 5 5) old) (fun t => (link t 18).marks == [23]) = true := by decide +kernel
/-- No lane is up, so every marker counts as come. -/
theorem test_drain : (List.range 24).all (fun m => stageMarked (drainProgress (atTime 5 old)) (m / 6) (m % 6) && (drainProgress (atTime 5 old)).sentMarks.contains m &&
      !(oldWaits (drainProgress (atTime 5 old)) (m / 6) (m % 6))) = true ∧ after (exec (.drainRelease 5) old) (fun t => t.fabOld.isNone) = true := by decide +kernel
theorem test_drain_warning : fld old .fabCtl 0 0 15 8 * 1000000 < 300000000 ∧ after (exec (.drainWarnTimeout 300000000) old) (fun t => t.drainWarned) = true := by decide +kernel
theorem test_pieces : cutPieces 200 (2 ^ 21 - 64) 0 0 (2 ^ 21) = [(0, 64), (64, 2 ^ 21 - 64)] ∧ sumNat ((cutPieces 200 1 2 0 (2 ^ 27)).map (·.2)) = 2 ^ 27 ∧
    segPackets 513 100 4097 = [(100, 4096), (4196, 1)] := by decide +kernel
/-- A packet at stage 0 for another group goes out on a global lane at stage 1. -/
theorem test_hop : (match injectHop sFab tables ⟨{ route0 with dst := 18 }, .weather [1]⟩ with | .send k q _ => k == 18 && q.route.stg == 2 | _ => false) = true := by decide +kernel


/-! ## Remote operations -/

/-- A taken remote instruction of space 1 toward node 18, whose rank entry was translated at issue. -/
def rmE (opc : Nat) (f : Fields) (vals : List W64) : Entry := { sysE (wordOf 8 opc f) vals with rank := 1 + 18 * 2 ^ 16 }
def rptr : W64 := 0x0001000000000040
def fRm : Fields := { zeros with o1 := 5, o2 := 3, o3 := 4, o4 := 0x45, mod := 1, imm := 9 }
def sRm (e : Entry) : State := sSys e (setFld .rmaCtl 0 0 14 0 8 (lane 0 0 1 2 { sFab with parts := [(0, mapped)] }))
def rmOf (opc : Nat) : Entry := rmE opc fRm [65, rptr, 256, 0]
theorem test_remote_taken : ([1, 2, 3, 4, 5, 8].all fun c => sysEntry (sRm (rmOf c)) 0 8 c == some (rmOf c) && !(waitsToSend (sRm (rmOf c)) 0)) = true := by decide +kernel
def sentOp (o : Host.Outcome State Fault Refusal) (op : Nat) : Bool := after o fun t => t.txns.any (fun x => x.2.hdr.op.toNat == op) && (bench t 0).taken.isNone && t.rops.length == 1
theorem test_rld : sentOp (exec (.rld 0 5) (sRm (rmOf 1))) 0 = true := by decide +kernel
theorem test_rst : sentOp (exec (.rst 0 5) (sRm (rmOf 2))) 1 = true := by decide +kernel
theorem test_ramo : sentOp (exec (.ramo 0 5) (sRm (rmOf 3))) 2 = true := by decide +kernel
theorem test_rown : sentOp (exec (.rown 0 5) (sRm (rmOf 8))) 5 = true := by decide +kernel
/-- 256 bytes from page offset 0x40 of the far space to offset 65 of the near one: one segment of one packet. -/
theorem test_rput : after (exec (.rput 0 5) (sRm (rmE 4 fRm [rptr, 64, 256, 0]))) (fun t => t.txns.any (fun x => x.2.hdr.op.toNat == 3) && t.reqs.length == 1) = true := by decide +kernel
theorem test_rget : after (exec (.rget 0 5) (sRm (rmE 5 fRm [64, rptr, 256, 0]))) (fun t => t.txns.any (fun x => x.2.hdr.op.toNat == 4) && t.reqs.length == 1) = true := by decide +kernel
def waitTxn : Txn := { owner := .op 0, part := 0, near := false, rank := 1 + 18 * 2 ^ 16, hdr := requestHdr 0 false true 0 64, payload := [], sent := 0, tries := 0, nacked := false }
def rop0 : RemoteOp := { prog := some 0, role := 0, bench := 0, part := 0, off := 64, opc := 1, wide := true, dest := 5, status := 9, pred := 5, soft := false }
theorem test_remote_waits : let s := { sRm (rmOf 1) with sendQ := [waitTxn], rops := [(0, rop0)] }
    waitsToSend s 0 = true ∧ after (exec (.rld 0 5) s) (fun t => (bench t 0).taken.isSome && t.time == 5) = true := by decide +kernel
def sOp : State := { sRm (rmOf 1) with rops := [(3, rop0)] }
theorem test_complete_op : remoteOp? sOp 3 = some rop0 ∧ (bench sOp 0).prog = some 0 ∧ getS (bench (completeOp 3 0 [7] sOp) 0) 5 = 7 ∧ getP (bench (completeOp 3 0 [7] sOp) 0) 5 = true ∧
    (completeOp 3 0x0488 [] sOp).reports = [⟨0, 0, 0, 13, 64, 0x0488⟩] ∧ raw (completeOp 3 0x0488 [] sOp) .rmaUnknown 0 0 = 1 := by decide +kernel

/-! A home. -/

def hdr (op seq : Nat) : Transport := { requestHdr op false true 0 64 with seq := BitVec.ofNat 16 seq, inst := 3, tag := 6 }
def reqP (h : Transport) (bs : List Byte) : Packet := ⟨{ route0 with src := 18, slice := 7, nflit := 1 }, .transport h bs⟩
def bytes8 : List Byte := [1, 2, 3, 4, 5, 6, 7, 8]
def src18 (l : Tab HomeReq) : Source := { inst := 3, floor := 10, reqs := l, nacked := [] }
def kept (h : Transport) (bs : List Byte) : HomeReq := ⟨reqP h bs, 0, false, none, 0, 0, false⟩
def sHome (p : Packet) (l : Tab HomeReq) : State := { lane 0 0 1 2 sFab with parts := [(0, mapped)], arrived := [⟨0, 0, p, none⟩], sources := [(18, src18 l)], accepted := l.map fun x => (18, x.1) }
theorem test_request : (takeArrived (fun a => a.pkt == reqP (hdr 1 12) bytes8 && a.pkt.route.typ == 0) (atTime 5 (sHome (reqP (hdr 1 12) bytes8) []))).isSome = true ∧
    hdrBad (hdr 1 12) bytes8 = false ∧ sourceOf (sHome (reqP (hdr 1 12) bytes8) []) 18 = some (src18 []) ∧ seqDiff 12 10 = 2 ∧
    queueBusy (sHome (reqP (hdr 1 12) bytes8) []) (kept (hdr 1 12) bytes8) = false ∧
    after (exec (.requestArrive (reqP (hdr 1 12) bytes8) 5) (sHome (reqP (hdr 1 12) bytes8) [])) (fun t => t.accepted == [(18, 12)] && homeReq t 18 12 == some (kept (hdr 1 12) bytes8)) = true := by
  decide +kernel
theorem test_request_bad : hdrBad (hdr 1 12) [1] = true ∧ after (exec (.requestArrive (reqP (hdr 1 12) [1]) 5) (sHome (reqP (hdr 1 12) [1]) [])) (fun t => raw t .rmaDrophdr 0 0 == 1 && t.arrived == []) = true := by
  decide +kernel
theorem test_request_old : 1024 ≤ seqDiff 1034 10 ∧ after (exec (.requestArrive (reqP (hdr 0 1034) []) 5) { sHome (reqP (hdr 0 1034) []) [] with sources := [(18, { src18 [] with floor := 10 })] })
      (fun t => t.accepted == [(18, 1034)] || raw t .rmaStale 0 0 == 1) = true ∧
    after (exec (.requestArrive (reqP (hdr 0 12) []) 5) (sHome (reqP (hdr 0 12) []) [(12, kept (hdr 0 12) [])])) (fun t => raw t .rmaDup 0 0 == 1) = true := by decide +kernel
theorem test_request_inst : after (exec (.requestArrive (reqP { hdr 1 12 with inst := 4 } bytes8) 5) (sHome (reqP { hdr 1 12 with inst := 4 } bytes8) [])) (fun t =>
    (sourceOf t 18).any (fun x => x.inst == 4 && x.floor == 12) && t.accepted == [(18, 12)]) = true := by decide +kernel
def sApply2 (h : Transport) (bs : List Byte) : State := { sHome (reqP h bs) [(12, kept h bs)] with arrived := [] }
theorem test_apply : homeReq (sApply2 (hdr 1 12) bytes8) 18 12 = some (kept (hdr 1 12) bytes8) ∧ inTurn (sApply2 (hdr 1 12) bytes8) 18 12 (kept (hdr 1 12) bytes8) = true ∧
    ordReady (sApply2 (hdr 1 12) bytes8) 18 12 (hdr 1 12) = true ∧ (match homePage (sApply2 (hdr 1 12) bytes8) 0 (hdr 1 12) with | some (.ok _) => true | _ => false) = true ∧
    after (exec (.requestApply 18 12 5) (sApply2 (hdr 1 12) bytes8)) (fun t => memRead t 64 8 == bytes8 && (homeReq t 18 12).any (fun r => r.done) &&
      t.out.any (fun x => match x with | .flit l _ => l.far == 18 | _ => false)) = true := by decide +kernel
def far (h : Transport) : Transport := { h with offset := 0x400000 }
theorem test_apply_refused : (match homePage (sApply2 (far (hdr 0 12)) []) 0 (far (hdr 0 12)) with | some (.error st) => st == 0x0501 | _ => false) = true ∧
    after (exec (.requestApply 18 12 5) (sApply2 (far (hdr 0 12)) [])) (fun t => (homeReq t 18 12).any fun r => r.done && r.status == 0x0501) = true := by decide +kernel
theorem test_apply_waits : let s := { sApply2 (hdr 0 12) [] with parts := [(0, cold)] }
    homePage s 0 (hdr 0 12) = none ∧ after (exec (.requestApply 18 12 5) s) (fun t => (partition t 0).demand.contains 0 && (homeReq t 18 12).any fun r => r.wait == some 0) = true := by decide +kernel
theorem test_apply_own : after (exec (.requestApply 18 12 5) (sApply2 { hdr 5 12 with arg := 2 } [])) (fun t => regionOwner t 0 0 == some (.exclusive 18)) = true ∧
    after (exec (.requestApply 18 12 5) (sApply2 (hdr 6 12) [])) (fun t => (homeReq t 18 12).any fun r => r.done && r.status == 0) = true := by decide +kernel
theorem test_own : regionOwner plain 0 5 = none ∧ (ownResult { plain with owners := [(0, [(5, .exclusive 3)])] } 0 5 2 4).1 = 0x0485 ∧
    regionOwner { plain with owners := [(0, [(5, .exclusive 3)])] } 0 5 = some (.exclusive 3) := by decide +kernel
theorem test_purge_write : WritesReg (sHome (reqP (hdr 0 12) []) []) .admin .rmaPurge 0 0 0x80000012 := writes_of (by decide +kernel)
/-- A purged source keeps the request still to be applied under a number of its own. -/
theorem test_purge : lostKey (sApply2 (hdr 0 12) []) 18 = 8210 ∧ after (exec (.rmaPurge .admin 0x80000012 5) (sApply2 (hdr 0 12) [])) (fun t =>
    (sourceOf t 18).isNone && (sourceOf t 8210).any (fun x => x.reqs == [(12, kept (hdr 0 12) [])]) && t.accepted == [(8210, 12)]) = true ∧
    after (exec (.rmaPurge .admin 0x80000012 5) (sHome (reqP (hdr 0 12) []) [])) (fun t => t.sources == []) = true := by decide +kernel
theorem test_ledger_nack : after (exec (.requestArrive (reqP (hdr 2 12) bytes8) 5) (sHome (reqP (hdr 2 12) bytes8) [])) (fun t => t.accepted == [(18, 12)] && raw t .rmaNack 0 0 == 0) = true := by
  decide +kernel

/-! A source. -/

def txn6 (op : Nat) : Txn := { waitTxn with hdr := { hdr op 0 with tag := 6 }, owner := .op 3 }
def resp (op : BitVec 5) (data : List Byte) : Packet := ⟨{ route0 with src := 18, typ := 1, slice := 7 }, .transport { hdr 0 0 with op := op, offset := 0, tag := 6 } data⟩
def sTxn (op : BitVec 5) : State :=
  { setFld .rmaTimer 0 0 31 28 4 (setFld .rmaTimer 0 0 15 0 100 (lane 0 0 1 2 sFab)) with
    benches := [(0, run0)], progs := [(0, prog0)], arrived := [⟨0, 0, resp op bytes8, none⟩], txns := [(6, txn6 0)], rops := [(3, rop0)], pairs := [(18, { next := 1, out := [0], ords := [], part := 0, near := false, sentAt := 0, floorDue := true })] }
theorem test_response : answers 0 0x10 = true ∧ entryNode (1 + 18 * 2 ^ 16) = 18 ∧
    after (exec (.responseArrive (resp 0x10 bytes8) 5) (sTxn 0x10)) (fun t => t.txns == [] && getS (bench t 0) 5 == 0x0807060504030201) = true := by decide +kernel
theorem test_response_late : after (exec (.responseArrive (resp 0x10 bytes8) 5) { sTxn 0x10 with txns := [] }) (fun t => raw t .rmaDup 0 0 == 1) = true ∧
    after (exec (.responseArrive (resp 0x14 bytes8) 5) (sTxn 0x14)) (fun t => (tget? t.txns 6).any fun x => x.nacked && x.sent == 5) = true := by decide +kernel
theorem test_nack_resend : let s := { sTxn 0x10 with txns := [(6, { txn6 0 with nacked := true })] }
    after (exec (.nackResend 6 2000) s) (fun t => (tget? t.txns 6).any (fun x => !x.nacked && x.tries == 0) && t.out.length == 1) = true ∧
    after (exec (.nackResend 6 1999) s) (fun t => t.out == []) = true := by decide +kernel
theorem test_retry : after (exec (.remoteRetransmit 6 false 100000) (sTxn 0x10)) (fun t => (tget? t.txns 6).any (fun x => x.tries == 1) && raw t .rmaRetry 0 0 == 1) = true ∧
    after (exec (.remoteRetransmit 6 false 100000) { sTxn 0x10 with txns := [(6, { txn6 0 with tries := 4 })] }) (fun t => t.txns == [] && t.reports == [⟨0, 0, 0, 13, 64, 0x0487⟩]) = true := by decide +kernel
theorem test_floor : after (exec (.floorSend 18 20000) { sTxn 0x10 with txns := [] }) (fun t => t.txns.any (fun x => x.2.hdr.op == 6) && !((pairOf t 18).floorDue)) = true ∧
    after (exec (.floorSend 18 19999) { sTxn 0x10 with txns := [] }) (fun t => t.txns == []) = true := by decide +kernel
theorem test_try_send : (match trySend waitTxn (setFld .rmaCtl 0 0 14 0 1 (sTxn 0x10)) with | .sent _ => true | _ => false) = false ∧
    (match trySend waitTxn (setFld .rmaCtl 0 0 14 0 2 (sTxn 0x10)) with | .sent _ => true | _ => false) = true := by decide +kernel
def gwP : Packet := ⟨{ route0 with src := 18, slice := 7 }, .gateway 5 9 (hdr 0 12) []⟩
def sGw : State := { sHome gwP [(12, ⟨gwP, 0, false, none, 0, 0, false⟩)] with arrived := [], qps := [(4, qpOf 0 (.gateway 5 false))] }
theorem test_gateway : gatewayQp sGw 5 false = some 4 ∧ gatewayQp sGw 5 true = none ∧ ordReady sGw 18 12 (hdr 0 12) = true ∧ after (exec (.gatewayForward (.outward 18 12 0 bytes8) 5) sGw) (fun t => (homeReq t 18 12).any (fun r => r.done) &&
      t.out.head? == some (.gatewayOp 4 9 false 64 [] 8)) = true ∧
    after (exec (.gatewayConnectionLost 5 5) sGw) (fun t => (homeReq t 18 12).any (fun r => r.done && r.status == 0x0489) && t.qps.all fun q => q.2.failed) = true := by decide +kernel

/-! ## Collectives -/

/-- Two members: role 0 of this part (node 17) and one of node 18. -/
def group0 : GroupDesc := { group := 4, tv := false, members := [(0, 0), (1, 0)], chunk := 16, depth := 1, tree := 0, nodes := [some 17, some 18] }
def solo : GroupDesc := { group0 with members := [(0, 0)], nodes := [some 17] }
def collE (opc : Nat) (imm : BitVec 60) : Entry := sysE (wordOf 8 opc { zeros with o1 := 3, o2 := 3, o3 := 2, o4 := 0x45, imm := imm }) [2097152, 0, 128, 0]
def sColl (d : GroupDesc) (e : Entry) : State :=
  { sSys e (setFld .fabPslice 0 0 11 0 7 (lane 0 0 1 2 { sFab with parts := [(0, mapped)] })) with progs := [(0, { prog0 with groups := [d] })] }
theorem test_coll_taken : ([0x80, 0x81, 0x82, 0x83, 0x84, 0x85].all fun c => sysEntry (sColl group0 (collE c 4)) 0 8 c == some (collE c 4) &&
      groupOfWord (sColl group0 (collE c 4)) 0 (collE c 4).word == some group0 && memberOf (sColl group0 (collE c 4)) group0 0 == 0 && nodeOfMember group0 0 == some 17) = true := by decide +kernel
def opened (o : Host.Outcome State Fault Refusal) : Bool := after o fun t => (tget? t.colls 0).any (fun c => c.member == 0) && (collGroup t 0 4 0).seqs == [(0, 1)] && t.arrived.length == 1
theorem test_cbar : opened (exec (.cbar 0 5) (sColl group0 (collE 0x80 4))) = true := by decide +kernel
theorem test_csred : opened (exec (.csred 0 5) (sColl group0 (collE 0x81 (4 + 2 ^ 22)))) = true := by decide +kernel
theorem test_ctar : opened (exec (.ctar 0 5) (sColl group0 (collE 0x82 4))) = true := by decide +kernel
theorem test_ctrs : opened (exec (.ctrs 0 5) (sColl group0 (collE 0x83 4))) = true := by decide +kernel
theorem test_ctag : opened (exec (.ctag 0 5) (sColl group0 (collE 0x84 4))) = true := by decide +kernel
theorem test_ctbc : opened (exec (.ctbc 0 5) (sColl group0 (collE 0x85 4))) = true := by decide +kernel
def fresh0 : CollGroup := CollGroup.fresh 0
theorem test_coll_abort_recorded : let s := { sColl group0 (collE 0x80 4) with groups := [(4, { fresh0 with aborts := [⟨0, 0, 0x0702, 1, 1⟩] })] }
    (collGroup s 0 4 0).aborts.find? (fun a => a.member == 0 && a.seq == 0) = some ⟨0, 0, 0x0702, 1, 1⟩ ∧
      after (exec (.cbar 0 5) s) (fun t => t.colls == [] && t.reports == [⟨0, 0, 0, 13, 64, 0x0702⟩]) = true := by decide +kernel
theorem test_coll_dead : let s := { sColl group0 (collE 0x80 4) with groups := [(4, { fresh0 with dead := some (1, 1) })] }
    (collGroup s 0 4 0).dead = some (1, 1) ∧ after (exec (.cbar 0 5) s) (fun t => t.reports == [⟨0, 0, 0, 13, 64, 0x0704⟩]) = true := by decide +kernel
def sigC (opc count : Nat) : Signature := { op := BitVec.ofNat 8 opc, mode := 0, group := 4, seq := 0, count := BitVec.ofNat 32 count, root := 0, mlen := 1 }
def coll0 (opc : Nat) (m : Nat) (go : Option Nat) : Coll :=
  { prog := 0, bench := 0, part := 0, group := 4, member := m, off := 64, word := (collE opc 4).word, sig := sigC opc 128, dst := 2097152, src := 0, values := [], flags := 0, go := go, goAt := 0,
    pos := 0, got := [], folded := [], sat := false }
def round0 (l : List GatherItem) : CollGroup := { fresh0 with seqs := [(0, 1)], rounds := [(0, ⟨0, l⟩)] }
def arr (src : BitVec 13) (b : Body) : Arrived := ⟨0, 0, ⟨{ route0 with src := src, typ := 2, slice := 7 }, b⟩, none⟩
def contrib (m opc : Nat) : CollMsg := .contribution (sigC opc 0) m [] 0 16
def sRound (g : CollGroup) (c : Tab Coll) (src : BitVec 13) (m : CollMsg) : State := { sColl group0 (collE 0x80 4) with groups := [(4, g)], colls := c, arrived := [arr src (.collective m)] }
theorem test_signature : let s := sRound (round0 []) [(0, coll0 0x80 0 none)] 18 (contrib 1 0x80)
    (takeColl 0 (some 18) (contrib 1 0x80) (atTime 5 s)).isSome = true ∧ (collLive s 0 4).isSome = true ∧ notReached (collGroup s 0 4 0) 0 0 = false ∧
      nodeOfMember group0 1 = some 18 ∧ ownNode s = 17 ∧
      after (exec (.signatureArrive 0 18 (contrib 1 0x80) 5) s) (fun t => (tget? (collGroup t 0 4 0).rounds 0).any fun r => r.items.length == 1) = true := by decide +kernel
theorem test_signature_again : let s := sRound { round0 [] with seen := [⟨0, 0, 1, 0, 0⟩] } [] 18 (contrib 1 0x80)
    after (exec (.signatureArrive 0 18 (contrib 1 0x80) 5) s) (fun t => (collGroup t 0 4 0).dups == 1) = true := by decide +kernel
theorem test_signature_early : let s := sRound fresh0 [] 18 (contrib 1 0x80)
    notReached (collGroup s 0 4 0) 0 0 = true ∧ after (exec (.signatureArrive 0 18 (contrib 1 0x80) 5) s) (fun t => t.arrived == [] && t.out.length == 1) = true ∧
      collLive { s with progs := [] } 0 4 = none := by decide +kernel
/-- The last contribution decides: GO to every member. -/
theorem test_signature_last : let s := sRound (round0 [⟨0, sigC 0x80 0, [], 0⟩]) [(0, coll0 0x80 0 none)] 18 (contrib 1 0x80)
    after (exec (.signatureArrive 0 18 (contrib 1 0x80) 5) s) (fun t => (collGroup t 0 4 0).rounds == [] && t.arrived.any fun a => match a.pkt.body with | .collective (.go _ _ _ _ _) => true | _ => false) =
      true := by decide +kernel
theorem test_mismatch : let r : Gather := ⟨0, [⟨0, sigC 0x80 0, [], 0⟩, ⟨1, sigC 0x81 0, [], 0⟩]⟩
    (decideRound 0 0 group0 0 r (sRound (round0 []) [] 18 (contrib 1 0x80))).arrived.any (fun a => match a.pkt.body with | .collective (.abort _ _ st m _) => st == 0x0701 && m == 1 | _ => false) = true ∧
      r.items.find? (fun i => i.member == 0) = some ⟨0, sigC 0x80 0, [], 0⟩ := by decide +kernel
def goM : CollMsg := .go 4 0 16 [] 0
theorem test_go : let s := sRound fresh0 [(0, coll0 0x80 0 none)] 17 goM
    (takeColl 0 none goM (atTime 5 s)).isSome = true ∧ openColl s 0 4 0 0 = some (0, coll0 0x80 0 none) ∧
      after (exec (.goArrive 0 goM 5) s) (fun t => t.colls == [] && getP (bench t 0) 5) = true := by decide +kernel
theorem test_go_tensor : let s := sRound fresh0 [(0, coll0 0x83 0 none)] 17 goM
    after (exec (.goArrive 0 goM 5) s) (fun t => (tget? t.colls 0).any fun c => c.go == some 16) = true := by decide +kernel
def nrM : CollMsg := .notReady 4 0 0 none
theorem test_not_ready : let s := sRound fresh0 [(0, coll0 0x80 0 none)] 17 nrM
    after (exec (.notReadyResend 0 4 0 0 2000) s) (fun t => t.arrived.map (fun a => a.pkt.body) == [.collective (.contribution (sigC 0x80 128) 0 [] 0 16)]) = true ∧
      after (exec (.notReadyResend 0 4 0 0 1999) s) (fun t => t.arrived == s.arrived) = true := by decide +kernel
theorem test_coll_resend : let s := { sRound fresh0 [] 18 goM with arrived := [arr 18 (.notice 0x0407 none (some goM))] }
    resendGroup goM = some 4 ∧ (18 ∈ groupNodes group0) ∧ after (exec (.collectiveResend 0 18 goM 2000) s) (fun t => t.arrived == [] && t.out.length == 1 && raw t .colResend 0 0 == 1) = true := by decide +kernel
theorem test_coll_timeout : let s := sRound (round0 [⟨0, sigC 0x80 0, [], 0⟩]) [(0, coll0 0x80 0 none)] 18 goM
    colto (setFld .colCtl 0 0 15 0 1 s) 0 = 1000000 ∧
      after (exec (.collectiveTimeout 0 4 0 0 1000000) (setFld .colCtl 0 0 15 0 1 s)) (fun t => t.arrived.any fun a => match a.pkt.body with | .collective (.abort _ _ st m _) => st == 0x0702 && m == 1 | _ => false) = true := by
  decide +kernel
theorem test_chunk_timeout : let s := setFld .colCtl 0 0 15 0 1 (sRound fresh0 [(0, coll0 0x83 0 (some 16))] 18 goM)
    missingMember (collGroup s 0 4 0) (coll0 0x83 0 (some 16)) = some 1 ∧
      after (exec (.collectiveTimeout 0 4 0 0 1000000) s) (fun t => t.arrived.any fun a => match a.pkt.body with | .collective (.abort _ _ st m _) => st == 0x0702 && m == 1 | _ => false) = true := by decide +kernel
def abM : CollMsg := .abort 4 0 0x0702 1 1
theorem test_abort : let s := sRound fresh0 [(0, coll0 0x80 0 none)] 18 abM
    after (exec (.collectiveAbort 0 abM 5) s) (fun t => t.colls == [] && t.reports == [⟨0, 0, 0, 13, 64, 0x0702⟩]) = true := by decide +kernel
theorem test_abort_early : let s := sRound fresh0 [] 18 abM
    openColl s 0 4 0 0 = none ∧ notReached (collGroup s 0 4 0) 0 0 = true ∧ after (exec (.collectiveAbort 0 abM 5) s) (fun t => (collGroup t 0 4 0).aborts == [⟨0, 0, 0x0702, 1, 1⟩]) = true := by decide +kernel
def chM : CollMsg := .chunk (sigC 0x83 128) 1 0 0 (List.replicate 64 0)
def gone : CollGroup := { fresh0 with seqs := [(0, 1)] }
theorem test_chunk : let s := sRound gone [(0, coll0 0x83 0 (some 16))] 18 chM
    notReached (collGroup s 0 4 0) 0 0 = false ∧ (takeColl 0 (some 18) chM (atTime 5 s)).isSome = true ∧
      after (exec (.chunkArrive 0 18 chM 5) s) (fun t => (collGroup t 0 4 0).staged.length == 1 && (collGroup t 0 4 0).received == 1) = true := by decide +kernel
theorem test_chunk_waits : let s := sRound gone [(0, coll0 0x83 0 none)] 18 chM
    after (exec (.chunkArrive 0 18 chM 5) s) (fun t => t.arrived.length == 1 && (collGroup t 0 4 0).staged == []) = true ∧
      after (exec (.chunkArrive 0 18 chM 5) (sRound { gone with staged := [⟨0, 1, 0, 7, []⟩] } [(0, coll0 0x83 0 (some 16))] 18 chM)) (fun t => t.arrived.length == 1) = true := by decide +kernel
theorem test_chunk_again : after (exec (.chunkArrive 0 18 chM 5) (sRound { gone with seen := [⟨1, 0, 1, 0, 0⟩] } [(0, coll0 0x83 0 (some 16))] 18 chM)) (fun t => (collGroup t 0 4 0).dups == 1) = true ∧
    after (exec (.chunkArrive 0 18 chM 5) (sRound fresh0 [] 18 chM)) (fun t => t.arrived == [] && t.out.length == 1) = true := by decide +kernel
def rsM : CollMsg := .result 4 0 1 0 0 [5, 6] false
/-- CTAG: the block of member 1 stands behind that of member 0, 128 bytes each. -/
theorem test_result : let s := sRound gone [(0, coll0 0x84 0 (some 16))] 18 rsM
    after (exec (.chunkArrive 0 18 rsM 5) s) (fun t => memRead t (2097152 + 128) 2 == [5, 6]) = true ∧
      after (exec (.chunkArrive 0 18 rsM 5) (sRound { gone with seen := [⟨2, 0, 1, 0, 0⟩] } [(0, coll0 0x84 0 (some 16))] 18 rsM)) (fun t => raw t .colDup 0 0 == 1 && t.mem == []) = true := by decide +kernel
theorem test_fold : let s := sRound { gone with staged := [⟨0, 1, 0, 0, List.replicate 64 0⟩] } [(0, coll0 0x83 0 (some 16))] 18 rsM
    (ensureAcc 0 0 s).1 = true ∧ isUp s 1 9 = true ∧
      after (exec (.collectiveChunkFold 0) s) (fun t => (collGroup t 0 4 0).folded == 1 && (collGroup t 0 4 0).staged == []) = true := by decide +kernel
/-- Sums, a minimum and a maximum of 2^64 − 1 and 2 by hand. -/
theorem test_csred_values : let l : List GatherItem := [⟨0, sigC 0x81 1, [18446744073709551615], 0⟩, ⟨1, sigC 0x81 1, [2], 0⟩]
    (csredReduce 0x04 l).1 = [1] ∧ (csredReduce 0x05 l).1 = [2] ∧ (csredReduce 0x06 l).1 = [18446744073709551615] ∧ (csredReduce 0x00 l).1 = [1] ∧ (csredReduce 0x0C l).1 = [18446744073709551617] := by
  decide +kernel


/-! ## Mailboxes, sessions and host ports -/

def msg (typ : BitVec 16) (sess : BitVec 16) (flags : W32) : Message :=
  { vminor := 1, vmajor := 3, typ := typ, length := 1, session := sess, status := 0, seq := 7, flags := flags, pcrcOk := true, zeroOk := true, payload := [0] }
def qp0 (k : QpKind) : QueuePair := { port := 3, kind := k, terms := terms0, failed := false, rate := 2 ^ 31, rateAt := 0, sentCnp := none }
def sess0 : Session := { Session.reset with state := .open_, part := 0, token := 77, window := 88, regions := [⟨99, 0, 4096, true, true, []⟩], lists := [(0, list1)] }
/-- Queue pair 5 serves session 31, queue pair 6 the admin session, 7 none. -/
def sMail (k : Nat) (m : Message) : State :=
  { setFld .schCtl 0 0 7 7 1 (setFld .stwPkey 0 0 31 0 1234 plain) with
    parts := [(0, mapped)], sessions := [(31, sess0)], mailboxes := [(k, ⟨[m], []⟩)], qps := [(5, qp0 (.mailbox 31)), (6, qp0 .admin), (7, qp0 .fresh)], nextQp := 9 }
/-- Whether the request at the front of the mailbox of a queue pair is served. -/
def canServe (s : State) (qp typ k : Nat) (m : Message) : Bool :=
  qpMailbox s qp == some k && ((mailbox s k).queue == [m] && (awake s && (!s.recovery && (dutyRuns s 1 && (!(qpPaused s qp) && (m.typ.toNat == typ && (Nat.ble 32 k ||
    (!((session s k).state == .closed) && !((session s k).state == .freeing)))))))))
theorem serves_of {s : State} {qp typ k : Nat} {m : Message} (h : canServe s qp typ k m = true) : Serves s qp typ k m [] := by
  simp only [canServe, Bool.and_eq_true, Bool.or_eq_true, beq_iff_eq, Bool.not_eq_true', beq_eq_false_iff_ne, Nat.ble_eq] at h
  obtain ⟨h1, h2, h3, h4, h5, hp, h6, h7⟩ := h
  exact ⟨h1, h2, ⟨h3, h4, h5⟩, hp, h6, fun hk => h7.resolve_left (Nat.not_le.mpr hk)⟩
theorem test_serves_session : [3, 4, 0x10, 0x11, 0x20, 0x21, 0x30, 0x31, 0x32, 0x42].all (fun n => canServe (sMail 31 (msg (BitVec.ofNat 16 n) 31 0)) 5 n 31 (msg (BitVec.ofNat 16 n) 31 0)) = true := by
  decide +kernel
theorem test_serves_other : canServe (sMail 71 (msg 1 0xFFFF 0)) 7 1 71 (msg 1 0xFFFF 0) = true ∧ canServe (sMail 71 (msg 2 0xFFFF 0)) 7 2 71 (msg 2 0xFFFF 0) = true ∧
    canServe (sMail 32 (msg 0x50 0xFF 0)) 6 0x50 32 (msg 0x50 0xFF 0) = true := by decide +kernel
theorem test_serves : Serves (sMail 31 (msg 4 31 0)) 5 4 31 (msg 4 31 0) [] := serves_of (by decide +kernel)
/-- The one reply: its status, and a property of the next state. -/
def replies (o : Host.Outcome State Fault Refusal) (st : Status) (p : State → Bool) : Bool :=
  after o fun t => (t.out.any fun x => match x with | .reply _ r => r.status == st && r.seq == 7 | _ => false) && p t
theorem test_open : replies (exec (.openSession 7 0 1234 5) (sMail 71 (msg 1 0xFFFF 0))) 0 (fun t => (session t 0).state == .open_ && qpMailbox t 7 == some 0) = true ∧
    replies (exec (.openSession 7 0 1235 5) (sMail 71 (msg 1 0xFFFF 0))) 0x0812 (fun t => (session t 0).state == .closed) = true := by decide +kernel
theorem test_attach : replies (exec (.attach 7 31 77 1234 5) (sMail 71 (msg 2 0xFFFF 0))) 0 (fun t => qpMailbox t 7 == some 31 && qpMailbox t 5 == none) = true ∧
    replies (exec (.attach 7 30 77 1234 5) (sMail 71 (msg 2 0xFFFF 0))) 0x0815 (fun _ => true) = true := by decide +kernel
theorem test_close : bit (msg 3 31 2).flags.toNat 1 = true ∧ bit (msg 3 31 0).flags.toNat 1 = false ∧
    replies (exec (.close 5 false 5) (sMail 31 (msg 3 31 0))) 0 (fun t => !((session t 31).state == .open_)) = true ∧
    replies (exec (.close 5 false 5) { sMail 31 (msg 3 31 0) with progs := [(0, { prog0 with sess := some 31 })] }) 0x0818 (fun t => (session t 31).state == .open_) = true := by decide +kernel
theorem test_heartbeat : replies (exec (.heartbeat 5 5) (sMail 31 (msg 4 31 0))) 0 (fun _ => true) = true := by decide +kernel
theorem test_regread : replies (exec (.regread 5 [BitVec.ofNat 32 (regAddr .schCtl 0 0)] 5) (sMail 31 (msg 0x10 31 0))) 0 (fun t =>
    t.out.any fun x => match x with | .reply _ r => r.body == .values [BitVec.ofNat 32 (raw t .schCtl 0 0)] | _ => false) = true := by decide +kernel
theorem test_regwrite : replies (exec (.regwrite 5 [(BitVec.ofNat 32 (regAddr .numCtl 1 0), 1)] 5) (sMail 31 (msg 0x11 31 0))) 0x081D (fun t => !(flag t .numCtl 1 0 0)) = true := by decide +kernel
theorem test_mrreg : replies (exec (.mrreg 5 0 2101248 3 5) (sMail 31 (msg 0x20 31 0))) 0 (fun t => (session t 31).regions.length == 2) = true ∧
    replies (exec (.mrreg 5 0 4198400 3 5) (sMail 31 (msg 0x20 31 0))) 0x081B (fun t => (session t 31).regions.length == 1) = true := by decide +kernel
theorem test_mrdereg : (session (sMail 31 (msg 0x21 31 0)) 31).regions.any (fun r => r.rkey == 99) = true ∧
    replies (exec (.mrdereg 5 99 5) (sMail 31 (msg 0x21 31 0))) 0 (fun t => (session t 31).regions == []) = true := by decide +kernel
theorem test_intake_add : let s := { sMail 31 (msg 0x30 31 4) with parts := [(0, { mapped with leaves := [(0, { leaf0 0 with pin := true })] })] }
    bit (msg 0x30 31 4).flags.toNat 2 = true ∧ replies (exec (.intakeAdd 5 4096 4096 7 true 5) s) 0 (fun t => (intakeList t 31 1).any fun l => l.base == 4096 && l.cap == 7 && l.notify) = true := by decide +kernel
theorem test_intake_del : intakeList (sMail 31 (msg 0x31 31 0)) 31 0 = some list1 ∧ replies (exec (.intakeDel 5 0 5) (sMail 31 (msg 0x31 31 0))) 0 (fun t => (session t 31).lists == []) = true := by
  decide +kernel
theorem test_cancel : let s := { sMail 31 (msg 0x32 31 0) with progs := [(0, { waiting with sess := some 31 })] }
    replies (exec (.cancel 5 0 0 false 5) s) 0 (fun t => t.progs == []) = true := by decide +kernel
theorem test_evsub : replies (exec (.evsub 5 2 5) (sMail 31 (msg 0x42 31 0))) 0 (fun t => (session t 31).evsub == some 2) = true := by decide +kernel
theorem test_gwconn : replies (exec (.gwconn 6 5 9 1 5) (sMail 32 (msg 0x50 0xFF 0))) 0x0811 (fun t => t.qps.length == 3) = true ∧
    liveQps (sMail 32 (msg 0x50 0xFF 0)) isGwKind = 0 ∧ liveQps (sMail 32 (msg 0x50 0xFF 0)) (fun _ => true) = 3 ∧
    replies (exec (.gwconn 6 5 9 1 5) (setFld .rmaGw 0 0 31 31 1 (sMail 32 (msg 0x50 0xFF 0)))) 0 (fun t => t.qps.length == 11) = true := by decide +kernel
theorem test_receive : headerPasses (msg 4 31 0) = true ∧ headerPasses { msg 4 31 0 with pcrcOk := false } = false ∧
    receiveStatus (renewLease 31 (atTime 5 (sMail 71 (msg 4 31 0)))) 31 (msg 4 31 0) = 0 ∧
    after (exec (.messageReceive 5 (msg 4 31 0) 5) (sMail 71 (msg 4 31 0))) (fun t => (mailbox t 31).queue.length == 1 && (session t 31).renewed == 5) = true ∧
    replies (exec (.messageReceive 5 { msg 4 31 0 with pcrcOk := false } 5) (sMail 71 (msg 4 31 0))) 0x0810 (fun t => (mailbox t 31).queue == []) = true := by decide +kernel
theorem test_receive_again : let s := { sMail 71 (msg 4 31 0) with mailboxes := [(31, ⟨[], [⟨0x8004, 7, 31, 0x0802, .none⟩]⟩)] }
    replies (exec (.messageReceive 5 (msg 4 31 0) 5) s) 0x0802 (fun t => (mailbox t 31).queue == []) = true := by decide +kernel
theorem test_receive_full : receiveStatus { plain with sessions := [(31, sess0)], mailboxes := [(31, ⟨List.replicate 64 (msg 4 31 0), []⟩)] } 31 { msg 4 31 0 with seq := 8 } = 0x0802 := by decide +kernel

/-- HBPER 10 ms and MISS 1. -/
def leased (st : SessState) : State :=
  setFld .stwTimes 0 0 31 24 1 (setFld .stwTimes 0 0 23 16 1 (setFld .stwTimes 0 0 15 8 1 (setFld .stwTimes 0 0 7 0 1 { plain with sessions := [(31, { sess0 with state := st })], qps := [(5, qp0 (.mailbox 31))] })))
theorem test_lease : awake (leased .open_) = true ∧ dutyRuns (leased .open_) 1 = true ∧ leaseLength (leased .open_) 0 = 10000000 ∧
    after (exec (.leaseCheck 10000000) (leased .open_)) (fun t => (session t 31).state == .orphaned && (session t 31).since == 10000000) = true ∧
    after (exec (.leaseCheck 9999999) (leased .open_)) (fun t => (session t 31).state == .open_) = true := by decide +kernel
theorem test_orphrun : after (exec (.orphrunExpire 31 1000000000) (leased .orphaned)) (fun t => (session t 31).state == .holding) = true ∧
    after (exec (.orphrunExpire 31 999999999) (leased .orphaned)) (fun t => (session t 31).state == .orphaned) = true := by decide +kernel
theorem test_hold : after (exec (.holdExpire 31 60000000000) (leased .holding)) (fun t => (session t 31).state == .freeing || (session t 31).state == .closed) = true := by decide +kernel
theorem test_freed : sessionProgs (reapPages 0 (releaseSession 31 (atTime 5 (leased .freeing)))) 31 = [] ∧
    after (exec (.sessionFreed 31 5) (leased .freeing)) (fun t => t.sessions == [] && t.qps == []) = true := by decide +kernel
theorem test_tail : let s := { sIntake with sessions := [(31, { sess0 with lists := [(0, list1)] })], mem := [(2097152, 5)] }
    (match spaceRead (atTime 5 s) 0 list1.base 12 with | .ok h => leAt h 0 4 == 5 | .error _ => false) = true ∧
      after (exec (.tailNotice 31 0 5) s) (fun t => (intakeList t 31 0).any fun l => l.stopped) = true ∧
      after (exec (.tailNotice 31 0 5) { s with mem := [(2097152, 4)] }) (fun t => (intakeList t 31 0).any fun l => !l.stopped) = true := by decide +kernel
def sRdma : State := { leased .open_ with parts := [(0, mapped)], mem := [(4095, 6)] }
theorem test_rdma : qpSession sRdma 5 = some 31 ∧ rdmaAllowed (session sRdma 31) 99 false 4092 4 = true ∧ rdmaAllowed (session sRdma 31) 99 true 4092 5 = false ∧
    after (exec (.rdmaDataAccess 5 99 4092 none 4 5) sRdma) (fun t => t.out == [.rdma 5 (.done [0, 0, 0, 6])]) = true ∧
    after (exec (.rdmaDataAccess 5 99 4092 none 5 5) sRdma) (fun t => t.out == [.rdma 5 .accessError]) = true := by decide +kernel
theorem test_rdma_write : after (exec (.rdmaDataAccess 5 99 4095 (some [9]) 0 5) sRdma) (fun t => t.out == [.rdma 5 (.done [])] && t.mem == [(4095, 9)]) = true ∧
    after (exec (.rdmaDataAccess 5 98 4095 (some [9]) 0 5) sRdma) (fun t => t.out == [.rdma 5 .accessError] && t.mem == [(4095, 6)]) = true := by decide +kernel
theorem test_window : after (exec (.statusWindowRead 5 88 0 4 5) sRdma) (fun t => t.out == [.rdma 5 (.done (leBytes 4 (readPlace t ⟨.genPart, 0, 0⟩)))]) = true ∧
    after (exec (.statusWindowRead 5 88 0 3 5) sRdma) (fun t => t.out == [.rdma 5 .accessError]) = true := by decide +kernel
/-- Port 3 is up with the MAC 02:00:00:00:00:01 and the addresses 10.0.0.5 and 00fe::05 of Table 14.13. -/
def cfgPort : List Byte := List.replicate 320 0 ++ ([2, 0, 0, 0, 0, 1, 0, 0, 10, 0, 0, 5] ++ (List.replicate 8 0 ++ (254 :: List.replicate 14 0 ++ 5 :: List.replicate 28 0)))
def portOn : State := setFld .hstPstat 3 0 31 31 1 { sRdma with bootCfg := some cfgPort }
def framed (fr : HostFrame) (p : State → Bool) : Bool := after (exec (.hostFrameReceive 3 fr 5) portOn) p
def ip4 : HostAddr := .v4 0x0A000005
def ip6 : BitVec 128 := 0xFE000000000000000000000000000005
theorem test_frames : portUp portOn 3 = true ∧ spdmPort portOn = 4194 ∧ framed (.arp 0x0A000005) (fun t => t.out == [.frameAnswer 3 0x020000000001 ip4]) = true ∧
    framed (.neighbour ip6) (fun t => t.out == [.frameAnswer 3 0x020000000001 (.v6 ip6)]) = true ∧
    framed (.icmpEcho ip4) (fun t => t.out == [.frameAnswer 3 0x020000000001 ip4]) = true ∧ framed .other (fun t => raw t .hstDrop 3 0 == 1) = true ∧
    framed (.arp 0x0A000006) (fun t => t.out == [] && raw t .hstDrop 3 0 == 1) = true ∧ framed (.tcp ip4 80 true) (fun t => t.out == [.tcpReset 3]) = true := by decide +kernel
theorem test_roce : framed (.roce ip4 5 0x12 false) (fun t => t.out == [.invalidRequest 5] && (tget? t.qps 5).any fun q => q.failed) = true ∧
    framed (.roce ip4 5 0x11 false) (fun t => t.out == []) = true ∧ framed (.roce ip4 4 0 false) (fun t => raw t .hstDrop 3 0 == 1) = true := by decide +kernel
/-- A pause of 100 quanta is 64 ns, on the one priority of a port that honours pauses. -/
theorem test_pause : after (exec (.hostFrameReceive 3 (.pfc 3 100) 5) (setFld .hstCtl 3 0 31 31 1 portOn)) (fun t => qpPaused t 5 && !(qpPaused { t with time := 69 } 5)) = true ∧
    framed (.pfc 3 100) (fun t => !(qpPaused t 5) && raw t .hstDrop 3 0 == 1) = true := by decide +kernel
theorem test_connection : liveQps portOn (fun _ => true) = 1 ∧ after (exec (.connectionRequest 3 ⟨.newSession, terms0⟩ 5) portOn) (fun t => t.out == [.connection 3 (some portOn.nextQp)] && t.qps.length == 2) = true ∧
    after (exec (.connectionRequest 3 ⟨.newSession, { terms0 with mtu := 2048 }⟩ 5) portOn) (fun t => t.out == [.connection 3 none]) = true ∧
    after (exec (.connectionRequest 3 ⟨.unreliable, terms0⟩ 5) portOn) (fun t => t.out == [.connection 3 none] && t.qps.length == 1) = true := by decide +kernel
theorem test_data_connection : (session portOn 31).state ≠ .closed ∧ liveQps portOn (· == .data 31) = 0 ∧ connectionKind portOn (.data 31) = some (.data 31) ∧ connectionKind portOn (.data 30) = none := by decide +kernel
theorem test_rates : after (exec (.cnpReceive 5 9) portOn) (fun t => (tget? t.qps 5).any fun q => q.rate == 2 ^ 30 && q.rateAt == 9) = true ∧
    after (exec (.cnpRateRecover 5 55000) portOn) (fun t => (tget? t.qps 5).any fun q => q.rate == 2 ^ 31 + 2 ^ 32 / 20) = true ∧
    after (exec (.cnpRateRecover 5 54999) portOn) (fun t => (tget? t.qps 5).any fun q => q.rate == 2 ^ 31) = true ∧
    after (exec (.ceMarkReceive 5 9) portOn) (fun t => t.out == [.cnp 5]) = true := by decide +kernel
theorem test_port_down : after (exec (.hostPortLinkDown 3 5) portOn) (fun t => !(portUp t 3) && t.qps.all (fun q => q.2.failed) && t.sessions.length == 1) = true := by decide +kernel
/-- A BOOTCFG with MAC 02:… for port 3. -/
def hostLanes (s : State) : State := (List.range 4).foldl (fun s j => lane 11 0 (4 + j) 2 (lane 11 1 (4 + j) 2 s)) s
def withMac : State := hostLanes { lit 11 with hostsUp := true, bootCfg := some cfgPort }
theorem test_port_up : portHasMac withMac 3 = true ∧ (engine withMac 11).lit = true ∧ isUp withMac 6 11 = true ∧ after (exec (.hostPortLinkUp 3 5) withMac) (fun t => portUp t 3) = true ∧
    after (exec (.hostPortLinkUp 3 5) (lane 11 1 7 0 withMac)) (fun t => !(portUp t 3)) = true := by decide +kernel

/-! ## Firmware processors -/

theorem test_watchdog : coreRuns plain 34 = true ∧ mayRestart plain 34 = true ∧ (engine plain 23).swap = none ∧
    after (exec (.watchdogExpire 34 5) plain) (fun t => procState t 34 == 1 && fld t .fwpStat 34 0 29 25 == 1 && tget t.restarts 34 [] == [5]) = true := by decide +kernel
theorem test_fwp_write : WritesReg plain .admin .fwpCtl 0 0 0x80000022 := writes_of (by decide +kernel)
theorem test_fwp : after (exec (.fwpRestart .admin 0x80000022 5) plain) (fun t => procState t 34 == 1) = true ∧
    after (exec (.fwpUnfence .admin 0x40000022 5) (setUnit 10 34 .fenced 0x030C plain)) (fun t => unitState t 10 34 == .recovering && procState t 34 == 1) = true := by decide +kernel
def restarting (i n : Nat) : State := setFld .fwpStat i 0 31 30 1 { plain with restarts := [(i, List.replicate n 5)] }
theorem test_restart_done : procState (restarting 34 2) 34 = 1 ∧ inHand (restarting 34 2) 34 = false ∧
    after (exec (.processorRestartDone 34 9) (restarting 34 2)) (fun t => procState t 34 == 0) = true ∧
    after (exec (.processorRestartDone 34 9) (restarting 34 3)) (fun t => unitState t 10 34 == .draining && procState t 34 == 2) = true := by decide +kernel
theorem test_engine_core : after (exec (.engineCoreRestart 11 9) (restarting 22 1)) (fun t => procState t 22 == 0) = true ∧ (engine (restarting 22 1) 11).redo = [] := by decide +kernel
theorem test_failover : isUp (setUnit 10 1 .fenced 0x030C plain) 10 1 = false ∧ nextSteward (setUnit 10 1 .fenced 0x030C plain) 1 = some 2 ∧
    after (exec (.stewardFailover 1 5) (setUnit 10 1 .fenced 0x030C plain)) (fun t => tget t.duties 1 1 == 2 && tget t.duties 4 4 == 4) = true := by decide +kernel


/-! ## Boot, keys, updates and SPDM -/

/-- A vendor image with an empty body, in slot 0 (Table 14.4). -/
def vimg (id svn : Nat) : Image :=
  ⟨leBytes 4 0x57464D44 ++ leBytes 2 id ++ [0, 0] ++ leBytes 4 7 ++ leBytes 4 svn ++ leBytes 4 0 ++ leBytes 4 7 ++ beBytes 48 0x38b060a751ac96384cd9327eb1b1e36a21fdb71114be07434c0cc7bf63f6e1da274edebfe76f65fbd51ad2f14898b95b ++ List.replicate 440 0,
   List.replicate 384 1, List.replicate 48 2, List.replicate 384 3, List.replicate 16224 4, List.replicate 2928 0, []⟩
/-- Its six images staged in bank A, with slot 0 fused and the counter at 3. -/
def bank6 : Bank := ⟨.staged, [1, 2, 3, 4, 5, 6].map fun id => (id, vimg id 3)⟩
/-- No engine has a fabric role, so no link is expected. -/
def sCalm : State := (List.range 8).foldl (fun s e => setFld .optStat e 0 31 28 2 s) plain
def sKeys : State :=
  { sCalm with bootAt := some 0, otp := { plain.otp with vendor := [⟨some (keyDigest (vimg 1 3)), false⟩, ⟨none, false⟩], counter := 3 },
               flash := { plain.flash with bankA := bank6, bankB := bank6 } }
/-- What remains open of an image's verification: the two signatures. -/
def Signed (x : Image) : Prop :=
  Config.rsaVerifies x.rsaKey x.signed x.rsaSig = true ∧ Config.slhVerifies x.slhKey x.signed x.slhSig = true
theorem verified_of {s : State} {id : Nat} {x : Image}
    (h : (imageHeaderOk x id && keySlotOk s.otp.vendor x && bodyDigestOk x && !(Nat.blt (imgSvn x) s.otp.counter)) = true) (k : Signed x) :
    verifyVendor s id x = 0 := by
  simp only [Bool.and_eq_true, Bool.not_eq_true'] at h
  obtain ⟨⟨⟨a, b⟩, c⟩, d⟩ := h
  simp [verifyVendor, imageSigned, a, b, c, d, k.1, k.2]
theorem slot_ok (id : Nat) (h : imgSlot (vimg id 3) = 0) : keySlotOk sKeys.otp.vendor (vimg id 3) = true := by
  simp [keySlotOk, h, sKeys]
  rfl
theorem six_checked : [1, 2, 3, 4, 5, 6].all (fun id => imageHeaderOk (vimg id 3) id && imgSlot (vimg id 3) == 0 && bodyDigestOk (vimg id 3)
    && !(Nat.blt (imgSvn (vimg id 3)) sKeys.otp.counter)) = true := by decide +kernel
theorem six_verified {s : State} {id : Nat} (m : id ∈ [1, 2, 3, 4, 5, 6]) (h : s.otp = sKeys.otp) (k : Signed (vimg id 3)) :
    verifyVendor s id (vimg id 3) = 0 := by
  have c := List.all_eq_true.mp six_checked id m
  simp only [Bool.and_eq_true, beq_iff_eq] at c
  exact verified_of (by simp [h, c, slot_ok id c.1.1.2]) k
/-- With both signatures good, an image passes; with one bit of its body or SVN below the counter it does not. -/
theorem test_vendor (k : Signed (vimg 2 3)) : verifyVendor sKeys 2 (vimg 2 3) = 0 :=
  six_verified (by decide) rfl k
theorem test_bank (k : ∀ id, Signed (vimg id 3)) : bankPasses sKeys (bankOf sKeys sKeys.bootB) = true := by
  have m : ∀ id, id ∈ [1, 2, 3, 4, 5, 6] → bankImage bank6 id = some (vimg id 3) := by
    intro id hm
    simp only [List.mem_cons, List.not_mem_nil, or_false] at hm
    rcases hm with rfl | rfl | rfl | rfl | rfl | rfl <;> rfl
  have e : bankOf sKeys sKeys.bootB = bank6 := rfl
  have f : (bank6.state == .staged && bank6.images.length == 6) = true := rfl
  rw [e, bankPasses, f, Bool.true_and, List.all_eq_true]
  intro id hm
  simp only [m id hm, six_verified hm rfl (k id)]
  rfl
theorem test_fall_back (k : ∀ id, Signed (vimg id 3)) : fallBack sKeys = some sKeys := by simp [fallBack, test_bank k]
theorem test_no_bank : fallBack { plain with bootAt := some 0 } = none ∧
    after (exec (.bootImagesVerified 5) { plain with bootAt := some 0 }) (fun t => t.recovery && !t.verified) = true := by decide +kernel
theorem test_bad_image : verifyVendor sKeys 3 (vimg 2 3) = 5 ∧ keySlotOk [⟨some (keyDigest (vimg 1 3)), true⟩] (vimg 1 3) = false ∧
    bodyDigestOk { vimg 1 3 with body := [1] } = false ∧ imageHeaderOk (vimg 1 65) 1 = false := by decide +kernel

def early : State := { plain with regsUp := true }
theorem test_boot_start : early.inReset = none ∧ early.tripped = false ∧ early.bootAt = none ∧
    after (exec (.bootStart 17 5) early) (fun t => t.bootAt == some 5 && raw t .genStrap 0 0 == 17 && procState t 34 == 3 && procState t 0 == 0 && !t.recovery) = true ∧
    after (exec (.bootStart 0xC000 5) early) (fun t => t.recovery && fld t .attBoot 0 0 5 4 == 3) = true := by decide +kernel
theorem test_keys_ready : after (exec (.identityKeysReady 600000000) sKeys) (fun t => t.keysReady) = true ∧
    after (exec (.identityKeysReady 599999999) sKeys) (fun t => !t.keysReady) = true := by decide +kernel
def onTrial : State := { plain with bootAt := some 0, flash := { plain.flash with rec0 := some ⟨3, true, true, true, 9⟩ } }
theorem test_trial : bootRec onTrial = ⟨3, true, true, true, 9⟩ ∧ bootSel onTrial = 0 ∧ (List.range 35).all (coreRuns onTrial) = true ∧
    after (exec (.trialTimeout 30000000000) onTrial) (fun t => bootRec t == ⟨4, true, false, false, 9⟩ && fld t .updStat 0 0 31 28 == 9) = true ∧
    after (exec (.trialTimeout 30000000000) (setFld .fwpStat 34 0 31 30 1 onTrial)) (fun t => t.inReset.isSome) = true := by decide +kernel
/-- The record that is not the newest is written (R442). -/
theorem test_record : after (exec (.trialTimeout 30000000000) onTrial) (fun t => t.flash.rec0 == some ⟨3, true, true, true, 9⟩ && t.flash.rec1.isSome) = true := by
  decide +kernel
theorem test_ext_write : WritesReg plain .admin .attExtctl 0 0 0x8000000C := writes_of (by decide +kernel)
/-- MR12 receives the digest of 48 zero bytes followed by ATT_EXTD; MR0 is not extended. -/
theorem test_ext : after (exec (.attExtend .admin 0x8000000C 5) plain) (fun t => mr t 12 == digestOf (List.replicate 96 0)) = true ∧
    after (exec (.attExtend .admin 0x8000000B 5) plain) (fun t => mr t 11 == mr plain 11) = true := by decide +kernel
theorem test_own_write : WritesReg plain .admin .attOwnctl 0 0 0x80000002 := writes_of (by decide +kernel)
def enrolled : State := { plain with otp := { plain.otp with owner := [⟨some 5, false⟩, ⟨some 6, false⟩, ⟨none, false⟩, ⟨none, false⟩] } }
theorem test_enrol : after (exec (.attOwnerEnrol .admin 0x80000002 5) enrolled) (fun t => t.otp.owner[2]? == some ⟨some 0, false⟩) = true ∧
    after (exec (.attOwnerEnrol .admin 0x80000001 5) enrolled) (fun t => t.otp.owner[1]? == some ⟨some 6, false⟩ && fld t .attOwnctl 0 0 7 4 == 1) = true := by decide +kernel
theorem test_revoke : after (exec (.attOwnerRevoke .admin 0x40000001 5) enrolled) (fun t => t.otp.owner[1]? == some ⟨some 6, true⟩) = true ∧
    after (exec (.attOwnerRevoke .admin 0x40000002 5) { plain with otp := { plain.otp with owner := [⟨none, false⟩, ⟨none, false⟩, ⟨some 6, false⟩, ⟨none, false⟩] } })
      (fun t => t.otp.owner[2]? == some ⟨some 6, false⟩ && fld t .attOwnctl 0 0 7 4 == 3) = true := by decide +kernel
theorem test_owner_slots : (enrolled.otp.owner[0]?).any (fun k => k.key.isSome && !k.revoked) = true ∧ fld enrolled .attOwnctl 0 0 1 0 = 0 ∧
    (enrolled.otp.owner[1]?).any (fun k => k.key.isSome && !k.revoked) = true ∧ (plain.otp.owner.all fun k => k.key.isNone && !k.revoked) = true := by decide +kernel

/-- A BOOTCFG of version 1 with no administrator, and a set that holds it alone. -/
def cfgBody : List Byte := leBytes 4 1 ++ List.replicate 892 0
def cfgSet : List Byte := leBytes 4 0x57464D44 ++ leBytes 2 0x101 ++ List.replicate 10 0 ++ leBytes 4 896 ++ leBytes 4 0 ++ beBytes 48 0x881bd294b02dae04e48674326ab0f8a9e8f678d8776e63f5e7fcb1cda551b9c613784f2d6c0f1563781f99dfd379b40e ++ List.replicate 20408 0 ++ cfgBody
theorem test_set : setComplete (parseSet 7 cfgSet) = true := by decide +kernel
theorem test_set_passes : firstFailing plain (parseSet 7 cfgSet) = none := by decide +kernel
theorem test_set_fails : setComplete (parseSet 7 [1]) = false ∧
    (let bs := cfgSet.take 21375 ++ [1]; setComplete (parseSet 7 bs) && firstFailing plain (parseSet 7 bs) == some (2, 0x101)) = true := by decide +kernel
theorem test_upd_write : WritesReg plain .admin .updCtl 0 0 0x80000000 := writes_of (by decide +kernel)
theorem test_recovery_stage : after (exec (.updStage .admin 0x80000000 (some [1]) 5) { plain with recovery := true })
    (fun t => fld t .updStat 0 0 31 28 == 5 && !(flag t .updStat 0 0 22)) = true := by decide +kernel
theorem test_stage_ignored : after (exec (.updStage .admin 0x80000000 none 5) { plain with update := some .commit }) (fun t => flag t .updStat 0 0 22) = true := by decide +kernel
theorem test_stage_complete : let s := { plain with update := some (.stage [(0x101, vimg 0x101 0)]) }
    after (exec (.updStageComplete true 5) s) (fun t => fld t .updStat 0 0 31 28 == 1 && t.update.isNone && t.flash.cfg0.state == .staged) = true ∧
    after (exec (.updStageComplete false 5) s) (fun t => fld t .updStat 0 0 31 28 == 6 && t.update.isNone) = true := by decide +kernel
theorem test_request_update : coreRuns sCalm 0 = true ∧ calm sCalm = true ∧ calm { sCalm with emergAt := some 0 } = false ∧ sCalm.update = none ∧ sCalm.deferred = none ∧
    after (exec (.updActivateReset .admin 0x40000000 5) { sCalm with emergAt := some 0 }) (fun t => t.deferred == some .reset && flag t .updStat 0 0 26) = true ∧
    after (exec (.updActivateReset .admin 0x40000000 5) sCalm) (fun t => fld t .updStat 0 0 31 28 == 11) = true := by decide +kernel
theorem test_abort_update : after (exec (.updAbort .admin 0x10000000 5) { plain with deferred := some .reset, emergAt := some 0 }) (fun t => t.deferred.isNone && fld t .updStat 0 0 31 28 == 7) = true := by
  decide +kernel
/-- Bank B is inactive and staged. -/
theorem test_activate : (stagedBank sKeys).isSome = true ∧ programsPresent sKeys = false ∧ (stagedBank plain).isSome = false ∧
    after (exec (.updActivateReset .admin 0x40000000 5) sKeys) (fun t => t.inReset.isSome && (bootRec t).bankB && (bootRec t).trial && !((bootRec t).tried)) = true := by decide +kernel
theorem test_activate_force : let s := { sKeys with progs := [(0, prog0)] }
    programsPresent s = true ∧ flag s .updCtl 0 0 1 = false ∧ after (exec (.updActivateReset .admin 0x40000000 5) s) (fun t => fld t .updStat 0 0 31 28 == 11) = true ∧
    after (exec (.updActivateReset .admin 0x40000002 5) s) (fun t => t.inReset.isSome) = true := by decide +kernel
theorem test_holdoff : let s := { sKeys with deferred := some .reset, emergAt := some 0 }
    after (exec (.emergencyHoldoffEnd 100000000) s) (fun t => t.inReset.isSome) = true ∧ after (exec (.emergencyHoldoffEnd 99999999) s) (fun t => t.inReset.isNone) = true := by decide +kernel
def live (l : List Nat) (paused : Bool) : State := setFld .fwpStat 34 0 31 30 1 { sKeys with update := some (.live l paused false) }
theorem test_holdoff_live : (live [33] true).deferred = none ∧ calm (live [33] true) = true ∧
    after (exec (.emergencyHoldoffEnd 5) (live [33] true)) (fun t => procState t 33 == 1 && t.update == some (.live [33] false false)) = true := by decide +kernel
theorem test_live_step : procState (live [34, 33] false) 34 = 1 ∧ recentRestarts (live [34, 33] false) 34 = 0 ∧
    after (exec (.liveActivationStep false 5) (live [34, 33] false)) (fun t => recentRestarts t 34 == 1 && procState t 34 == 1) = true := by decide +kernel
theorem test_live_bank : stagedBank (live [34, 33] false) = some bank6 ∧ bankImage bank6 (procImage 34) = some (vimg 6 3) := ⟨rfl, rfl⟩
theorem test_live_image (k : Signed (vimg 6 3)) : verifyVendor (live [34, 33] false) (procImage 34) (vimg 6 3) = 0 :=
  six_verified (by decide) rfl k
theorem test_live_fence : let s := { live [34, 33] false with restarts := [(34, [1, 2, 3])] }
    recentRestarts s 34 = 3 ∧ after (exec (.liveActivationStep true 5) s) (fun t => unitState t 10 34 == .draining) = true := by decide +kernel
theorem test_commit : let s := { sKeys with update := some .commit, flash := { sKeys.flash with bankA := ⟨.staged, [(1, vimg 1 9), (2, vimg 2 8)]⟩ } }
    after (exec (.commitComplete 5) s) (fun t => t.otp.counter == 8 && t.update.isNone) = true ∧
    after (exec (.updCommit .admin 0x20000000 5) sKeys) (fun t => t.update == some .commit && flag t .updStat 0 0 27) = true := by decide +kernel

/-- The part in recovery, and verified with a TCP connection and the keys ready. -/
def sRec : State := { plain with bootAt := some 0, recovery := true }
def sSpdm : State := { plain with bootAt := some 0, verified := true, keysReady := true, conns := [4], flash := { plain.flash with chain0 := [1, 2, 3] } }
theorem test_reached : spdmReached sRec .mctp = true ∧ spdmReached sSpdm .mctp = true ∧ spdmReached sSpdm (.tcp 4) = true ∧ spdmReached sSpdm (.tcp 5) = false ∧
    isUp sSpdm 10 0 = true ∧ sSpdm.recovery = false := by decide +kernel
theorem test_certificate : chainOf sSpdm 0 = some [1, 2, 3] ∧ certificate sSpdm 0 1 5 = .certificate 0 [2, 3] 0 ∧ certificate sSpdm 0 0 2 = .certificate 0 [1, 2] 1 ∧
    certificate sSpdm 0 3 1 = .certificate 0 [] 0 ∧ certificate sSpdm 0 4 1 = .invalid ∧ certificate sSpdm 2 0 1 = .invalid := by decide +kernel
theorem test_measure : after (exec (.getMeasurements .mctp 25 false [] 5) sRec) (fun t => t.out == [.spdm .mctp (.measurements [(25, emptyDigest)] []) none]) = true ∧
    after (exec (.getMeasurements .mctp 26 false [] 5) sRec) (fun t => t.out == [.spdm .mctp .invalid none]) = true := by decide +kernel
theorem test_challenge : after (exec (.challenge (.tcp 4) 0 [7] 5) sSpdm) (fun t => t.signQ == [⟨.tcp 4, .challengeAuth 0 (digestOf [1, 2, 3]) [7]⟩] && t.out == []) = true ∧
    after (exec (.challenge (.tcp 4) 0 [7] 5) { sSpdm with keysReady := false }) (fun t => t.out == [.spdm (.tcp 4) .busy none]) = true ∧
    after (exec (.challenge (.tcp 4) 0 [7] 5) { sSpdm with signQ := List.replicate 17 ⟨.mctp, .busy⟩ }) (fun t => t.out == [.spdm (.tcp 4) .busy none]) = true := by decide +kernel
theorem test_sign : (exec (.spdmSignComplete 0) { sSpdm with signQ := [⟨.mctp, .busy⟩] }) =
    .next (emit (.spdm .mctp .busy (some (Config.rsaSign 0, Config.slhSign 0))) { sSpdm with free := 1 }) := rfl
theorem test_tcp : let s := setFld .hstPstat 2 0 31 31 1 { sSpdm with nextConn := 3 }
    portUp s 2 = true ∧ after (exec (.spdmTcpConnect 2 5) s) (fun t => t.conns == [4, 14] && t.out == [.tcp 2 (some 14)]) = true ∧
    after (exec (.spdmTcpConnect 2 5) { s with conns := List.range 8 }) (fun t => t.out == [.tcp 2 none]) = true := by decide +kernel
theorem test_negotiate : after (exec (.negotiateAlgorithms .mctp true false 5) sRec) (fun t => t.out == [.spdm .mctp .invalid none]) = true ∧
    after (exec (.negotiateAlgorithms .mctp true true 5) sRec) (fun t => t.out == [.spdm .mctp .algorithms none]) = true := by decide +kernel


/-! ## Power, heat, margins and overlays -/

/-- Sector 3 with its regulator on. -/
def sec0 : Sector := { Sector.reset with regOff := false }
def sSec (x : Sector) : State := { sCalm with clocksOn := true, sectors := [(3, x)] }
/-- The target is taken from PWR_CTL while the Warden runs, and kept while it does not. -/
theorem test_work_clock : let s := setFld .pwrCtl 0 0 6 0 20 (sSec sec0)
    (sector s 3).regOff = false ∧ after (exec (.workClockUpdate 3 5) s) (fun t => (sector t 3).ftgt == 32) = true ∧
    after (exec (.workClockUpdate 3 5) (setFld .fwpStat 5 0 31 30 1 s)) (fun t => (sector t 3).ftgt == 64) = true := by decide +kernel
def warm (step bnd : Nat) (x : Sector) : State := setFld .thmSect 3 0 23 21 bnd (setFld .pwrSect 3 0 31 28 step (sSec x))
theorem test_ladder_up : sectorOver (warm 4 4 sec0) 3 0 = true ∧ after (exec (.ladderStep 3 0 5) (warm 4 4 sec0)) (fun t => ladder t 3 == 5 && fld t .pwrScnt 3 0 15 0 == 1) = true ∧
    after (exec (.ladderStep 3 0 5) (warm 15 4 sec0)) (fun t => ladder t 3 == 15 && fld t .pwrScnt 3 0 15 0 == 0) = true := by decide +kernel
theorem test_ladder_warn : sectorOver (warm 4 0 { sec0 with warn := true }) 3 0 = false ∧
    after (exec (.ladderStep 3 0 5) (warm 4 0 { sec0 with warn := true, clear := 1980000 })) (fun t => ladder t 3 == 4 && (sector t 3).clear == 0) = true := by decide +kernel
theorem test_ladder_down : after (exec (.ladderStep 3 0 5) (warm 4 0 { sec0 with clear := 1980000 })) (fun t => ladder t 3 == 3 && (sector t 3).clear == 0) = true ∧
    after (exec (.ladderStep 3 0 5) (warm 4 0 { sec0 with clear := 1979999 })) (fun t => ladder t 3 == 4 && (sector t 3).clear == 1999999) = true ∧
    after (exec (.ladderStep 3 0 5) (setFld .pwrEmerg 0 0 3 3 1 (warm 4 0 { sec0 with clear := 1980000 }))) (fun t => ladder t 3 == 4) = true := by decide +kernel
/-- A rise of RATECUT over 40 samples; the same one again within 200 µs of a cut. -/
def rising : Sector := { sec0 with samples := List.replicate 47 300 }
theorem test_rate_cut : let c : Int → List Int := fun d => [250, -40, 300 + d + 8 * rateCut (sSec rising), 0]
    after (exec (.rateEvaluate 3 (c 0) 5) (sSec rising)) (fun t => ladder t 3 == 2 && (sector t 3).cutAt == some 5 && (sector t 3).warn) = true ∧
    after (exec (.rateEvaluate 3 (c 0) 200004) (sSec { rising with cutAt := some 5 })) (fun t => ladder t 3 == 0 && (sector t 3).cutAt == some 5) = true ∧
    after (exec (.rateEvaluate 3 (c 0) 200005) (sSec { rising with cutAt := some 5 })) (fun t => ladder t 3 == 2) = true ∧
    after (exec (.rateEvaluate 3 (c (-1)) 5) (sSec rising)) (fun t => ladder t 3 == 0 && (sector t 3).cutAt.isNone) = true := by decide +kernel
theorem test_hot : after (exec (.rateEvaluate 3 [0, 0, 0, 10 * hotCut (sSec sec0)] 5) (sSec sec0)) (fun t => ladder t 3 == 15 && (sector t 3).hot) = true ∧
    after (exec (.rateEvaluate 3 [10 * hotCut (sSec sec0) - 1, 0, 0, 0, 9999] 5) (sSec sec0)) (fun t => ladder t 3 == 0) = true ∧
    after (exec (.rateEvaluate 3 [-5, -6, -70, -8] 5) (sSec sec0)) (fun t => fld t .thmSect 3 0 31 24 == 255) = true := by decide +kernel
theorem test_brake : after (exec (.pwrBrake true 5) sCalm) (fun t => flag t .pwrEmerg 0 0 3 && ladder t 23 == 15 && ladder t 24 == 0) = true ∧
    after (exec (.pwrBrake false 5) (setFld .pwrSect 3 0 31 28 9 sCalm)) (fun t => ladder t 3 == 9) = true := by decide +kernel
theorem test_converter : dutyRuns sCalm 4 = true ∧ flag sCalm .pwrEmerg 0 0 2 = false ∧
    after (exec (.converterFault true true 5) sCalm) (fun t => flag t .pwrEmerg 0 0 2 && ladder t 23 == 15) = true ∧
    dutyRuns (setFld .fwpStat 4 0 31 30 1 sCalm) 4 = false := by decide +kernel
theorem test_regulator : isUp (warm 4 0 sec0) 3 3 = true ∧
    after (exec (.regulatorFault 3 5) (warm 4 0 sec0)) (fun t => (sector t 3).regOff && ladder t 3 == 4 && unitState t 3 3 == .draining) = true := by decide +kernel
/-- No converter answered: the rails count 399,300 mW; the TDP in force is 1,600 W at least. -/
theorem test_package : let top := 1000 * effTdp sCalm - 399300
    after (exec (.packagePowerSample top [] 5) { sCalm with convs := [] }) (fun t => !t.pkgOver && fld t .pwrPkg 0 0 15 0 == effTdp sCalm) = true ∧
    after (exec (.packagePowerSample (top + 1) [] 5) { sCalm with convs := [] }) (fun t => t.pkgOver) = true ∧
    after (exec (.packagePowerSample (980 * effTdp sCalm - 399300) [] 5) { sCalm with convs := [], pkgOver := true }) (fun t => t.pkgOver) = true ∧
    after (exec (.packagePowerSample (980 * effTdp sCalm - 399301) [] 5) { sCalm with convs := [], pkgOver := true }) (fun t => !t.pkgOver) = true := by decide +kernel
theorem test_readback : after (exec (.avsbusReadback 1750 0xFFFF 5) (setFld .pwrFeed 0 0 31 16 0xFFFE sCalm)) (fun t => t.feedOver) = true ∧
    after (exec (.avsbusReadback 1750 0xFFFE 5) (setFld .pwrFeed 0 0 31 16 0xFFFE sCalm)) (fun t => !t.feedOver) = true := by decide +kernel
theorem test_alarm : let s := setFld .pwrSect 3 0 27 20 60 (sSec sec0)
    after (exec (.pathMonitorAlarm 3 29 5) s) (fun t => fld t .pwrSect 3 0 27 20 == 56 && (sector t 3).guard == 10) = true ∧
    after (exec (.pathMonitorAlarm 3 30 5) s) (fun t => fld t .pwrSect 3 0 27 20 == 60) = true := by decide +kernel
theorem test_thermal_trip : sCalm.tripped = false ∧ after (exec (.thermalTrip 9 118 5) (sSec sec0)) (fun t => t.tripped && raw t .thmTrip 0 0 == 2 ^ 31 + 9 * 256 + 118 && (sector t 3).regOff) = true ∧
    after (exec (.thermalTrip 9 117 5) (sSec sec0)) (fun t => !t.tripped) = true := by decide +kernel

/-! ### Margins -/

def plan3 : List PlanEntry := [⟨0, 0, 0⟩, ⟨0, 0, 0⟩, ⟨0, 0, 0⟩, ⟨60, 2, 300⟩]
theorem test_plan : let s := { sSec sec0 with planAt := some 5, clocksOn := false }
    after (exec (.marginPlanCompute plan3 [1] 10 [] [] (5 + planPeriod s)) s)
      (fun t => t.clocksOn && t.shadow == some ⟨[(0, ⟨0, 0, 0⟩), (1, ⟨0, 0, 0⟩), (2, ⟨0, 0, 0⟩), (3, ⟨60, 2, 300⟩)], some 10⟩ && fld t .ageSect 3 0 15 8 == 255) = true ∧
    after (exec (.marginPlanCompute plan3 [1] 10 [] [] (4 + planPeriod s)) s) (fun t => t.shadow.isNone) = true ∧
    after (exec (.marginPlanCompute plan3 [1] 10 [] [] 6) { s with planNow := true }) (fun t => t.planAt == some 6 && !t.planNow) = true := by decide +kernel
theorem test_age_write : WritesReg sCalm .admin .ageCtl 0 0 1 := writes_of (by decide +kernel)
theorem test_age_now : after (exec (.ageNow .admin 1 5) sCalm) (fun t => t.planNow) = true := by decide +kernel
/-- A raise of the guard, at most 50 mV, is taken at once; a lower one waits for a quiet point. -/
def withPlan (e : PlanEntry) (step : Nat) (x : Sector) : State := { warm step 0 x with shadow := some ⟨[(3, e)], none⟩ }
theorem test_apply_plan : after (exec (.planApply 3 5) (withPlan ⟨60, 0, 0⟩ 1 sec0)) (fun t => (sector t 3).guard == 50) = true ∧
    after (exec (.planApply 3 5) (withPlan ⟨10, 0, 0⟩ 1 { sec0 with guard := 20 })) (fun t => (sector t 3).guard == 20) = true ∧
    after (exec (.planApply 3 5) (withPlan ⟨10, 0, 0⟩ 0 { sec0 with guard := 20 })) (fun t => (sector t 3).guard == 10) = true := by decide +kernel
/-- An overlay of version 9 that raises the voltage of sector 3 by four steps. -/
def overlay3 : List Byte := leBytes 4 0x4C414344 ++ leBytes 4 9 ++ leBytes 4 1 ++ leBytes 4 0x6338b06 ++ List.replicate 16 0 ++ [1, 3, 0, 0, 4, 0, 0, 0]
theorem test_overlay : overlayCheck overlay3 = (0, 0) ∧ overlayCheck (overlay3.take 39 ++ [1]) = (4, 0) ∧
    after (exec (.planApply 3 5) { warm 1 0 sec0 with overlay := some overlay3 }) (fun t => (sector t 3).ovV == 4) = true ∧
    after (exec (.planApply 3 5) { warm 1 0 { sec0 with ovV := 8 } with overlay := some overlay3 }) (fun t => (sector t 3).ovV == 8) = true := by decide +kernel
theorem test_cal_write : WritesReg sCalm .admin .calCtl 0 0 1 := writes_of (by decide +kernel)
def sCal : State := setFld .calLen 0 0 15 0 40 (memWrite 0 overlay3 { sCalm with parts := [(0, mapped)] })
theorem test_cal_store : (match spaceRead sCal 0 0 40 with | .ok bs => bs == overlay3 | .error _ => false) = true ∧ sCal.calBusy = none ∧ fld sCal .calSrcHi 0 0 18 16 = 0 ∧
    after (exec (.calStore .admin 1 5) sCal) (fun t => t.calBusy == some (.store overlay3)) = true ∧
    after (exec (.calStore .admin 1 5) { sCal with mem := [] }) (fun t => t.calBusy.isNone && fld t .calStat 0 0 31 28 == 4) = true := by decide +kernel
theorem test_cal_busy : after (exec (.calApply .admin 2 5) { sCal with calBusy := some .clear }) (fun t => t.calBusy == some .clear && fld t .calStat 0 0 31 28 == 7) = true ∧
    after (exec (.calClear .admin 4 5) sCal) (fun t => t.calBusy == some .clear) = true := by decide +kernel
def stored (c : CalBusy) : State := { sCalm with calBusy := some c, flash := { sCalm.flash with cal0 := some overlay3 } }
/-- The copy that is not the newest is written. -/
theorem test_cal_stored : newestOverlay (stored .apply).flash = some overlay3 ∧
    after (exec (.calCommandComplete true 5) (stored (.store overlay3))) (fun t => t.flash.cal1 == some overlay3 && fld t .calStat 0 0 31 28 == 1) = true ∧
    after (exec (.calCommandComplete false 5) (stored (.store overlay3))) (fun t => t.flash.cal1.isNone && fld t .calStat 0 0 31 28 == 6) = true := by decide +kernel
theorem test_cal_applied : after (exec (.calCommandComplete true 5) (stored .apply)) (fun t => t.overlay == some overlay3 && fld t .calStat 0 0 12 0 == 9) = true := by decide +kernel
theorem test_cal_none : newestOverlay sCalm.flash = none ∧ after (exec (.calCommandComplete true 5) { sCalm with calBusy := some .apply }) (fun t => fld t .calStat 0 0 31 28 == 4) = true := by decide +kernel
theorem test_cal_cleared : after (exec (.calCommandComplete true 5) (stored .clear)) (fun t => t.overlay.isNone && t.flash.cal0.isNone && fld t .calStat 0 0 31 28 == 3) = true := by decide +kernel


/-! ## Containment, census and telemetry -/

theorem test_cause : unitExists 2 5 = true ∧ unitState (fenceCause 2 5 0x0309 plain) 2 5 = .draining ∧
    unitState (fenceCause 2 5 0x0309 (setUnit 2 5 .recovering 0x0309 plain)) 2 5 = .fenced ∧
    after (exec (.fenceCause 2 5 0x0306 5) plain) (fun t => unitState t 2 5 == .draining && raw t .errImbal 0 0 == 1) = true := by decide +kernel
theorem test_uncontained : after (exec (.uncontainedError 3 24 5) plain) (fun t => flag t .errFatal 0 0 31 && unitState t 9 7 == .draining) = true := by decide +kernel
theorem test_err_write : WritesReg plain .admin .errCmd 0 0 0x80000000 := writes_of (by decide +kernel)
def naming (k i : Nat) (s : State) : State := setFld .errUnit 0 0 31 24 k (setFld .errUnit 0 0 23 0 i s)
theorem test_err_fence : after (exec (.errFence .admin 0x80000000 5) (naming 2 5 plain)) (fun t => unitState t 2 5 == .draining && fld t .errCmd 0 0 7 0 == 0) = true ∧
    after (exec (.errFence .admin 0xC0000000 5) (naming 2 32 plain)) (fun t => fld t .errCmd 0 0 7 0 == 1) = true := by decide +kernel
theorem test_err_unfence : after (exec (.errUnfence .admin 0x40000000 5) (naming 2 31 (setUnit 2 31 .fenced 0x0309 plain))) (fun t => unitState t 2 31 == .recovering) = true ∧
    after (exec (.errUnfence .admin 0x40000000 5) (naming 2 31 plain)) (fun t => fld t .errCmd 0 0 7 0 == 4) = true ∧ isUp plain 3 (homeSector 31) = true ∧ isUp plain 3 (farSector 31) = true := by
  decide +kernel
/-- A bench with a split request under way, draining since time 0. -/
def busy (st : FenceState) : State := setUnit 2 0 st 0x0309 sSeg
theorem test_drain_unit : unitWork (busy .draining) 2 0 = true ∧ drainMax (busy .draining) = 1000000 * fld plain .errCtl 0 0 15 0 ∧
    after (exec (.drainEnd 2 0 (drainMax (busy .draining))) (busy .draining)) (fun t => unitState t 2 0 == .fenced) = true ∧
    after (exec (.drainEnd 2 0 (drainMax (busy .draining) - 1)) (busy .draining)) (fun t => unitState t 2 0 == .draining) = true := by decide +kernel
theorem test_drain_idle : after (exec (.drainEnd 2 4 5) (setUnit 2 4 .draining 0x0309 plain)) (fun t => unitState t 2 4 == .fenced) = true := by decide +kernel
def recov (k i : Nat) : State := setUnit k i .recovering 0x0309 plain
theorem test_recovery : unitExists 8 3 = true ∧ after (exec (.recoveryEnd 8 3 true [] 5) (recov 8 3)) (fun t => unitState t 8 3 == .up) = true ∧
    after (exec (.recoveryEnd 2 0 false [] 5) (recov 2 0)) (fun t => unitState t 2 0 == .fenced) = true ∧
    after (exec (.recoveryEnd 2 0 true [4] 5) (recov 2 0)) (fun t => unitState t 2 0 == .fenced && unitState t 1 4 == .fenced) = true ∧
    after (exec (.recoveryEnd 2 0 true [] 5) (recov 2 0)) (fun t => unitState t 2 0 == .up) = true := by decide +kernel
theorem test_recovery_partition : partitionBalanced (recov 9 1) 1 = true ∧ after (exec (.recoveryEnd 9 1 true [] 5) (recov 9 1)) (fun t => unitState t 9 1 == .up) = true := by decide +kernel
theorem test_recovery_kinds : unitExists 3 24 = true ∧ unitExists 4 331 = true ∧ unitExists 6 9 = true ∧ unitExists 7 767 = true ∧
    after (exec (.recoveryEnd 4 331 true [] 5) (recov 4 331)) (fun t => unitState t 4 331 == .up) = true ∧
    after (exec (.recoveryEnd 7 767 true [] 5) (recov 7 767)) (fun t => unitState t 7 767 == .up) = true := by decide +kernel
def censusE : Entry := sysE (wordOf 9 0x60 { zeros with o2 := 2, o3 := 3 }) [0, 0, 4096, 0]
theorem test_census : sysEntry (sSys censusE plain) 0 9 0x60 = some censusE ∧
    after (exec (.census 0 5) (sSys censusE plain)) (fun t => t.census == some ⟨some 0, some plain.nextRop, 0, 0, 4096⟩ && (bench t 0).taken.isNone) = true ∧
    after (exec (.census 0 5) { sSys censusE plain with census := some ⟨none, none, 0, 0, 0⟩ }) (fun t => (bench t 0).taken.isSome) = true := by decide +kernel
theorem test_census_write : WritesReg plain .admin .errCensus 0 0 0x80000000 := writes_of (by decide +kernel)
theorem test_census_go : after (exec (.errCensusGo .admin 0x80000000 5) plain) (fun t => t.census == some ⟨none, none, 0, 0, 0⟩) = true := by decide +kernel
theorem test_census_counts : dutyRuns plain 2 = true ∧ dutyRuns (setFld .fwpStat 2 0 31 30 1 plain) 2 = false ∧
    after (exec (.censusComplete 5) { plain with census := some ⟨some 1, none, 1, 0, 0⟩ }) (fun t => t.census.isNone && fld t .errCensus 0 0 15 0 == 0 && t.censuses == 1) = true := by decide +kernel
theorem test_count : let c : Count := ⟨2, 5, 384, [380, 3, 0, 0], false, false, none⟩
    c.balanced = false ∧ c.bytes.take 8 = [2, 1, 0, 0, 5, 0, 0, 0] ∧ { c with parts := [380, 3, 0, 1] }.balanced = true := by decide +kernel
def postE : Entry := sysE (wordOf 9 0x61 { zeros with o2 := 2, mod := 2, imm := 0x345 }) [0, 77, 0, 0]
theorem test_evpost : sysEntry (sSys postE plain) 0 9 0x61 = some postE ∧ after (exec (.evpost 0 5) (sSys postE plain)) (fun t =>
    (bench t 0).taken.isNone && t.telQ.any fun q => q.rec_.code == 0xF345 && q.rec_.sev == 2 && q.rec_.data == 77) = true := by decide +kernel
theorem test_event : slotsUsed plain 0 = 0 ∧ flag plain .errFatal 0 0 31 = false ∧
    after (exec (.eventRaise 0xB001 0 none 0x0600 9 5) plain) (fun t => raw t .errFatal 0 0 == 2 ^ 31 + 0xB001 && raw t .errFatunit 0 0 == 0x0600) = true ∧
    after (exec (.eventRaise 0xB001 1 none 0 9 5) plain) (fun t => t.telQ.length == 1 && !(flag t .errFatal 0 0 31)) = true := by decide +kernel
/-- One record of time 0 in the queue; a ring of two places, empty or full. -/
def queued : State := { plain with telQ := (enqueue (newRecord plain 0xB001 1 none 0 9) 0 plain).telQ }
def ringed (prod : Nat) : State := setRaw64 .telProdLo .telProdHi 0 0 prod (setFld .telRingHi 0 0 23 16 1 { queued with parts := [(0, mapped)] })
theorem test_queue : queued.telQ.length = 1 ∧ fld queued .telRingHi 0 0 23 16 = 0 ∧ dutyRuns queued 2 = true ∧
    after (exec (.telemetryQueueLeave 1000000) queued) (fun t => t.telQ == []) = true ∧ after (exec (.telemetryQueueLeave 999999) queued) (fun t => t.telQ.length == 1) = true := by decide +kernel
theorem test_ring_unit : after (exec (.telemetryQueueLeave 5) (ringed 3)) (fun t => t.telQ == [] && raw64 t .telProdLo .telProdHi 0 0 == 4 && t.i3cQ.length == 1) = true ∧
    after (exec (.telemetryQueueLeave 5) (ringed (ringPlaces (ringed 0)))) (fun t => t.telQ.length == 1) = true := by decide +kernel
theorem test_subscribed : let r := newRecord plain 0xB001 1 none 0 9
    ((recordLeaves r { plain with adminEvsub := some 1 }).out.any fun x => match x with | .event none y => y == r | _ => false) = true ∧
    (recordLeaves r { plain with adminEvsub := some 0 }).out = [] := by decide +kernel

/-! ## Die links and tests -/

def okDir : DirTest := ⟨0, 0, true⟩
/-- 16 spares keep the full width; with 17 failing the better half is used while it has 16 or fewer. -/
theorem test_repair : dirRepair ⟨8, 8, true⟩ = some (false, 16) ∧ dirRepair ⟨8, 9, true⟩ = some (true, 8) ∧ dirRepair ⟨16, 129, true⟩ = some (true, 16) ∧
    dirRepair ⟨17, 17, true⟩ = none ∧ dirRepair ⟨0, 0, false⟩ = none := by decide +kernel
theorem test_train : awake early = true ∧ ndlState early 327 = 0 ∧ isUp early 4 327 = true ∧
    after (exec (.dieLinkTrain 327 ⟨8, 9, true⟩ ⟨3, 0, true⟩ 5) early) (fun t => ndlState t 327 == 2 && fld t .ndlStat 327 0 26 25 == 1 && fld t .ndlStat 327 0 9 0 == 32 * 3 + 8) = true ∧
    after (exec (.dieLinkTrain 327 okDir ⟨0, 0, false⟩ 5) early) (fun t => unitState t 4 327 == .draining) = true := by decide +kernel
def module0 (st : Nat) (d : NdlDir) : State := setFld .ndlStat 0 0 31 29 st { plain with ndl := [(0, { NdlModule.reset with dir0 := d })] }
def dir0 : NdlDir := ⟨7, 3, [], [], []⟩
/-- A group of one flow fits the one module of its link that is up, whatever the hash. -/
theorem test_group_fits : groupFits (module0 2 dir0) 0 0 [⟨0, 1, 0, 0⟩] = true := by
  have h : roleModules (module0 2 dir0) (moduleLink 0) 0 = [0] := by decide +kernel
  have w : (linkModules (moduleLink 0)).any (fun k => !(k == 0) && (ndlWaiting (module0 2 dir0) k 0).any (flowsMeet [⟨0, 1, 0, 0⟩])) = false := by decide +kernel
  have m : ((ndlDir (ndlModule (module0 2 dir0) 0) 0).moved.find? (flowsMeet [⟨0, 1, 0, 0⟩])).all (· == [⟨0, 1, 0, 0⟩]) = true := by decide +kernel
  simp only [groupFits, w, m, flowModule]
  have z : (0 : Fin 4).val = 0 := rfl
  simp [h, Nat.mod_one]
theorem test_group : isUp (module0 2 dir0) 4 0 = true ∧ groupFits (module0 2 dir0) 0 0 [] = true ∧
    after (exec (.ndlGroupReceive 0 0 ⟨7, []⟩ true 9 5) (module0 2 dir0)) (fun t => (ndlModule t 0).dir0.next == 8 && (ndlModule t 0).dir1.acked == 9) = true ∧
    after (exec (.ndlGroupReceive 0 0 ⟨6, []⟩ true 9 5) (module0 2 dir0)) (fun t => (ndlModule t 0).dir0.next == 7 && t.out == []) = true ∧
    after (exec (.ndlGroupReceive 0 0 ⟨8, []⟩ true 9 5) (module0 2 dir0)) (fun t => t.out == [.ndlReplay 0 0 7] && (ndlModule t 0).dir0.replays == [5]) = true := by decide +kernel
/-- The group that passes RPTHR starts a retrain, the ninth retrain in a second a fence. -/
def overRun (n : Nat) : State := setFld .ndlCtl 0 0 15 0 2 (setFld .ndlStat 0 0 31 29 2 { plain with ndl := [(0, { NdlModule.reset with dir0 := ⟨7, 3, [], [], [1, 2]⟩, retrains := List.replicate n 3 })] })
theorem test_replays : replayLimit (overRun 7) = 2 ∧ after (exec (.ndlGroupReceive 0 0 ⟨7, []⟩ false 9 5) (overRun 7)) (fun t => ndlState t 0 == 3 && overReplays t 0 0) = true ∧
    after (exec (.ndlGroupReceive 0 0 ⟨7, []⟩ false 9 5) (overRun 8)) (fun t => unitState t 4 0 == .draining) = true := by decide +kernel
theorem test_retrain_unit : let s := setFld .ndlCtl 0 0 15 0 1 (module0 3 ⟨7, 3, [], [], [1, 2]⟩)
    isUp s 4 0 = true ∧ overReplays s 0 0 = true ∧ after (exec (.ndlRetrain 0 0 okDir okDir true 5) s) (fun t => ndlState t 0 == 2 && unitState t 4 0 == .up && (ndlModule t 0).dir0.replays == []) = true ∧
    after (exec (.ndlRetrain 0 0 okDir okDir false 5) s) (fun t => ndlState t 0 == 0 && unitState t 4 0 == .draining) = true := by decide +kernel
theorem test_recovering : after (exec (.ndlRetrain 0 0 okDir okDir true 5) (setUnit 4 0 .recovering 0x0309 (module0 3 dir0))) (fun t => unitState t 4 0 == .up) = true ∧
    after (exec (.ndlRetrain 0 0 okDir okDir false 5) (setUnit 4 0 .recovering 0x0309 (module0 3 dir0))) (fun t => unitState t 4 0 == .fenced) = true := by decide +kernel
theorem test_auto : let s := setFld .ndlCtl 0 0 19 16 2 (setUnit 4 0 .fenced 0x030D (module0 2 dir0))
    after (exec (.ndlAutoRecover 0 5) s) (fun t => unitState t 4 0 == .recovering && (ndlModule t 0).autos == [5]) = true ∧
    after (exec (.ndlAutoRecover 0 60000000000) { s with ndl := [(0, { NdlModule.reset with autos := [1, 2] })] }) (fun t => unitState t 4 0 == .fenced) = true ∧
    after (exec (.ndlAutoRecover 0 60000000001) { s with ndl := [(0, { NdlModule.reset with autos := [1, 2] })] }) (fun t => unitState t 4 0 == .recovering) = true := by decide +kernel
theorem test_discovery_unit : early.uciOff = false ∧ flag early .uciStat 0 0 31 = false ∧ after (exec (.ucieDiscovery none [] [] 5) early) (fun t => t.uciOff) = true ∧
    after (exec (.ucieDiscovery (some 77) [32, 0, 16, 24] [true, true, false, false] 5) early)
      (fun t => fld t .uciStat 0 0 30 27 == 13 && fld t .uciStat 0 0 26 25 == 1 && fld t .uciStat 0 0 24 21 == 1 && raw64 t .uciIdLo .uciIdHi 0 0 == 77) = true := by decide +kernel
/-- Two modules of the open site up, its space partition 0. -/
def withDie (en : Nat) : State := setFld .uciCtl 0 0 30 30 en (setFld .uciStat 0 0 31 27 19 { plain with parts := [(0, mapped)], mem := [(64, 9)] })
def dieAnswers (o : Host.Outcome State Fault Refusal) (st : Status) (bs : List Byte) : Bool :=
  after o fun t => t.out.any fun x => match x with | .die a b => a == st && b == bs | _ => false
theorem test_die : flag (withDie 1) .uciStat 0 0 31 = true ∧ fld (withDie 1) .uciStat 0 0 30 27 = 3 ∧
    dieAnswers (exec (.ucieAccess (.read 64) 5) (withDie 1)) 0 (9 :: List.replicate 63 0) = true ∧
    after (exec (.ucieAccess (.write 64 (List.replicate 64 1)) 5) (withDie 1)) (fun t => tget t.mem 127 0 == 1) = true ∧
    after (exec (.ucieAccess (.read 64) 5) (setUnit 9 0 .fenced 0x0309 (withDie 1))) (fun t => dieAnswers (.next t) 0x0305 [] && raw t .uciErr 0 0 == 1) = true := by decide +kernel
theorem test_die_off : after (exec (.ucieAccess (.read 64) 5) (withDie 0)) (fun t => raw t .uciErr 0 0 == 1) = true ∧
    after (exec (.ucieAccess (.read 65) 5) (withDie 1)) (fun t => raw t .uciErr 0 0 == 1) = true := by decide +kernel
theorem test_die_down : let s := setUnit 4 330 .fenced 0x030D (setUnit 4 331 .fenced 0x030D (setUnit 4 329 .fenced 0x030D { withDie 1 with uciDown := [(0, 0)] }))
    after (exec (.ucieModuleDown 0 10000001) s) (fun t => !(flag t .uciStat 0 0 27) && unitState t 4 328 == .draining && !(flag t .uciCtl 0 0 30)) = true ∧
    after (exec (.ucieModuleDown 0 10000000) s) (fun t => flag t .uciStat 0 0 27) = true := by decide +kernel
theorem test_dbg_write : WritesReg plain .admin .dbgLoop 0 0 0x80000000 ∧ WritesReg plain .admin .dbgP1500 0 0 0x80000000 := ⟨writes_of (by decide +kernel), writes_of (by decide +kernel)⟩
theorem test_loop_unit : flag plain .dbgLoop 0 0 30 = false ∧ after (exec (.dbgLoop .admin 0x80000000 5) (setUnit 4 0 .fenced 0x0309 plain)) (fun t => flag t .dbgLoop 0 0 30 && ndlState t 0 == 5 && t.loopAt == 5) = true ∧
    after (exec (.dbgLoop .admin 0x80000000 5) plain) (fun t => fld t .dbgLoop 0 0 17 16 == 1) = true := by decide +kernel
theorem test_loop_end : let s := setFld .dbgLoop 0 0 30 30 1 { plain with loopAt := 5 }
    after (exec (.dbgLoopComplete 600 70000 100005) s) (fun t => !(flag t .dbgLoop 0 0 30) && fld t .dbgLoopres 0 0 31 23 == 511 && fld t .dbgLoopres 0 0 15 0 == 65535) = true ∧
    after (exec (.dbgLoopComplete 600 70000 100004) s) (fun t => flag t .dbgLoop 0 0 30) = true := by decide +kernel
def stackOff (n : Nat) : State := (List.range n).foldl (fun s p => setUnit 7 p .fenced 0x0309 s) plain
theorem test_p1500 : flag plain .dbgP1500 0 0 30 = false ∧ after (exec (.dbgP1500 .admin 0x80000000 5) (stackOff 64)) (fun t => flag t .dbgP1500 0 0 30) = true ∧
    after (exec (.dbgP1500 .admin 0x80000000 5) (stackOff 63)) (fun t => fld t .dbgP1500 0 0 29 28 == 1) = true ∧
    after (exec (.dbgP1500Complete false 5) (setFld .dbgP1500 0 0 30 30 1 plain)) (fun t => fld t .dbgP1500 0 0 30 28 == 2) = true := by decide +kernel

/-! ## Resets and start-up -/

theorem test_board : after (exec (.boardReset 5) s0) (fun t => t.inReset == some .board && t.rstLow && t.benches == [] && t.time == 5) = true ∧
    after (exec (.boardReset 5) { s0 with inReset := some .pwrok }) (fun t => t.inReset == some .pwrok) = true := by decide +kernel
theorem test_power_on : after (exec .powerOnReset { s0 with time := 7 }) (fun t => t.inReset.isNone && t.time == 0 && t.progs == []) = true ∧
    after (exec .powerOnReset { s0 with rstLow := true }) (fun t => t.inReset == some .board) = true := by decide +kernel
theorem test_internal : after (exec (.internalReset 2 5) s0) (fun t => t.inReset == some .refclk) = true ∧
    after (exec (.resetRelease 1000005) { s0 with inReset := some .internal, resetAt := 5 }) (fun t => t.inReset.isNone && t.time == 0) = true ∧
    after (exec (.resetRelease 1000004) { s0 with inReset := some .internal, resetAt := 5 }) (fun t => t.inReset.isSome) = true := by decide +kernel
theorem test_release : after (exec (.resetRelease 5) { s0 with inReset := some .board, rstLow := true }) (fun t => t.inReset.isNone && !t.rstLow) = true ∧
    after (exec (.resetRelease 5) { s0 with inReset := some .pwrok, rstLow := true }) (fun t => t.inReset.isSome && !t.rstLow) = true := by decide +kernel
theorem test_trip_register : let s := setRaw .thmTrip 0 0 0x80000976 { s0 with tripped := true }
    raw (resetBlock none s) .thmTrip 0 0 = 0x80000976 ∧ raw (resetBlock none { s with tripped := false }) .thmTrip 0 0 = regReset .thmTrip := by decide +kernel
theorem test_reset_registers : placeAt (regAddr .schCtl 0 0) = some ⟨.schCtl, 0, 0⟩ ∧ raw (resetBlock none (setRaw .schCtl 0 0 5 s0)) .schCtl 0 0 = regReset .schCtl := by decide +kernel
theorem test_refclk : after (exec (.refclkHoldoverExpire 100005) { s0 with refLost := some 5 }) (fun t => t.inReset == some .refclk && t.refLost == some 5) = true ∧
    after (exec (.refclkHoldoverExpire 100004) { s0 with refLost := some 5 }) (fun t => t.inReset.isNone) = true ∧
    after (exec (.refclkReturn 9) { s0 with refLost := some 5, inReset := some .refclk }) (fun t => t.inReset.isNone && t.refLost.isNone && t.time == 0) = true ∧
    after (exec (.refclkLoss 5) s0) (fun t => t.refLost == some 5) = true := by decide +kernel
theorem test_pll : awake plain = true ∧ plain.pllLock = false ∧ after (exec (.pllLock 5) plain) (fun t => t.pllLock && !((sector t 31).regOff) && fld t .pwrSect 31 0 19 12 == 80) = true ∧
    after (exec (.regulatorsUp 5) { plain with pllLock := true }) (fun t => t.regsUp) = true ∧ after (exec (.regulatorsUp 5) plain) (fun t => !t.regsUp) = true := by decide +kernel
/-- A tray of 2,000 W, Stratus module 2, and LSMs in engines 0 and 11: records of Table 18.5 with their CRCs. -/
def tray : List Byte := leBytes 4 0x44494D31 ++ leBytes 2 4 ++ leBytes 2 64 ++ List.replicate 20 0 ++ leBytes 4 2000 ++ List.replicate 28 0 ++ leBytes 4 0x8E1E154
def stratus2 : List Byte := leBytes 4 0x44494D31 ++ leBytes 2 3 ++ leBytes 2 64 ++ List.replicate 24 0 ++ leBytes 4 2 ++ List.replicate 24 0 ++ leBytes 4 0xC7D08766
def lsmRecord : List Byte := leBytes 4 0x44494D31 ++ leBytes 2 1 ++ leBytes 2 172 ++ List.replicate 160 0 ++ leBytes 4 0xD3E65AD0
def lsmHost : List Byte := leBytes 4 0x44494D31 ++ leBytes 2 2 ++ leBytes 2 108 ++ List.replicate 96 0 ++ leBytes 4 0x73976385
theorem test_records : recordOk 4 64 tray = true ∧ recordOk 3 64 stratus2 = true ∧ recordOk 1 172 lsmRecord = true ∧ recordOk 2 108 lsmHost = true ∧
    recordOk 4 64 (tray.take 63 ++ [9]) = false := by decide +kernel
def fresh : State := { plain with verified := true }
theorem test_identity : fresh.idsRead = false ∧ engineCore fresh 11 = true ∧
    (let t := readStratus 2 (some stratus2) (readTray (some tray) fresh); fld t .pwrTdp 0 0 27 16 == 2000 && flag t .genConfig 0 0 2) = true := by decide +kernel
theorem test_lsm_read : (engine (readLsm 11 (some lsmHost) fresh) 11).lsm = true := by decide +kernel
theorem test_lsm_shown : flag (readLsm 11 (some lsmHost) fresh) .genConfig 0 0 17 = true := by decide +kernel
theorem test_lsm_none : (let t := readLsm 10 none fresh; laneState t 10 1 7 == 8) = true := by decide +kernel
theorem test_no_tray : fld (readTray none fresh) .pwrTdp 0 0 27 16 = 1600 ∧ fld (readTray (some (tray.take 63)) fresh) .pwrTdp 0 0 27 16 = 1600 := by decide +kernel
theorem test_hbm : after (exec (.hbmTrainingDone [9, 800] 5) fresh) (fun t => flag t .memStat 11 0 0 && !(isUp t 7 9) && isUp t 7 10) = true := by decide +kernel
theorem test_ports : let s := { withMac with verified := true, hostsUp := false }
    awake s = true ∧ after (exec (.hostPortsTrained [true, true, true, true] 5) s) (fun t => t.hostsUp && flag t .hstPstat 3 0 31 && !(flag t .hstPstat 2 0 31)) = true := by decide +kernel


/-! ## Well-formedness: a term that each check refuses, beside one that it takes -/

theorem test_wf_vpn : (Instr.driftDemandFetch 0 (2 ^ 27) 0).wf = false ∧ (Instr.driftDemandFetch 0 (2 ^ 27 - 1) 0).wf = true ∧
    (Instr.driftFragmentArrive 0 (2 ^ 27) 3 0).wf = false ∧ (Instr.driftMoveComplete 0 (2 ^ 27) 0).wf = false := by decide +kernel
theorem test_wf_hbm : (Instr.hbmAccess 65 .read [] 0).wf = false ∧ (Instr.hbmAccess (2 ^ 42) .read [] 0).wf = false ∧ (Instr.hbmAccess 64 (.write [1]) [] 0).wf = false ∧
    (Instr.hbmAccess 64 .read [(36, 1)] 0).wf = false ∧ (Instr.hbmAccess 64 .read [(35, 1)] 0).wf = true ∧ (Instr.hbmScrub 1 [] false 0).wf = false ∧ (Instr.hbmScrub 0 [(36, 1)] false 0).wf = false := by
  decide +kernel
theorem test_wf_atomic : (Instr.nearMemoryAtomic 2 .addI32 1 0).wf = false ∧ (Instr.nearMemoryAtomic 4 .addI64 1 0).wf = false ∧ (Instr.nearMemoryAtomic 4 .addI32 1 0).wf = true ∧
    (Instr.nearMemoryAtomic (2 ^ 42) .addI32 1 0).wf = false := by decide +kernel
def noFlits : Packet := { pkt0 with route := { route0 with nflit := 0 } }
theorem test_wf_packet : (Instr.packetInject 0 noFlits 0).wf = false ∧ (Instr.packetArrive peer { pkt0 with route := { route0 with nflit := 18 } } 0).wf = false ∧
    (Instr.packetArrive peer pkt0 0).wf = true ∧ (Instr.requestArrive noFlits 0).wf = false ∧ (Instr.responseArrive noFlits 0).wf = false := by decide +kernel
theorem test_wf_flit : flitOk { flit 1 with seq := 4096 } = false ∧ flitOk { flit 1 with ack := 4096 } = false ∧ flitOk { flit 1 with tail := false, packet := some pkt0 } = false ∧
    flitOk { flit 1 with packet := some noFlits } = false ∧ flitOk (flit 1) = true ∧ (Instr.nakReceive peer 4096 0).wf = false := by decide +kernel
theorem test_wf_weather : (Instr.weatherRecord [] 0).wf = false ∧ (Instr.weatherRecord (List.replicate 480 ⟨[0, 0, 0, 0], [0, 0, 0]⟩) 0).wf = false ∧
    (Instr.weatherRecord (List.replicate 480 ⟨[0, 0, 0, 0], [0, 0, 0, 0]⟩) 0).wf = true ∧ (Instr.weatherAppend [0]).wf = false := by decide +kernel
theorem test_wf_tag : (Instr.nackResend (2 ^ 14) 0).wf = false ∧ (Instr.nackResend (2 ^ 14 - 1) 0).wf = true ∧ (Instr.remoteRetransmit (2 ^ 14) true 0).wf = false := by decide +kernel
theorem test_wf_gateway : (Instr.gatewayForward (.inward 3 0 0 0 (some []) 0) 0).wf = false ∧ (Instr.gatewayForward (.inward 3 0 0 0 none 0) 0).wf = false ∧
    (Instr.gatewayForward (.inward 3 0 0 0 none 4097) 0).wf = false ∧ (Instr.gatewayForward (.inward 3 0 0 0 none 4096) 0).wf = true := by decide +kernel
theorem test_wf_collective : let m := CollMsg.chunk (sigC 0x83 128) 0 0 0 [1]
    (Instr.chunkArrive 0 0 m 0).wf = false ∧ (Instr.signatureArrive 0 0 m 0).wf = false ∧ (Instr.goArrive 0 (.go 0 0 16 (List.replicate 9 0) 0) 0).wf = false ∧
    (Instr.collectiveAbort 0 (.result 0 0 0 0 0 [1] false) 0).wf = false ∧ (Instr.collectiveResend 0 0 m 0).wf = false ∧ (Instr.chunkArrive 0 0 (.chunk (sigC 0x83 128) 0 0 0 [1, 2]) 0).wf = true ∧
    (Instr.signatureArrive 0 0 (.contribution ⟨0, 0, 0, 0, 0, 0, 0⟩ 0 (List.replicate 9 0) 0 16) 0).wf = false := by decide +kernel
theorem test_wf_message : (Instr.messageReceive 5 { msg 4 31 0 with length := 8 } 0).wf = false ∧ (Instr.messageReceive 5 (msg 4 31 0) 0).wf = true ∧
    (Instr.challenge .mctp 0 [7] 0).wf = false ∧ (Instr.getMeasurements .mctp 1 true [7] 0).wf = false ∧ (Instr.challenge .mctp 0 (List.replicate 32 7) 0).wf = true := by decide +kernel
theorem test_wf_power : (Instr.packagePowerSample 0 [none] 0).wf = false ∧ (Instr.marginPlanCompute [] [] 0 [] [] 0).wf = false ∧
    (Instr.marginPlanCompute (List.replicate 24 ⟨0, 0, 0⟩) (List.replicate 12 0) 0 [(11, 15)] [11] 0).wf = true ∧
    (Instr.marginPlanCompute (List.replicate 24 ⟨0, 0, 0⟩) (List.replicate 12 0) 0 [(11, 16)] [] 0).wf = false ∧
    (Instr.marginPlanCompute (List.replicate 24 ⟨0, 0, 0⟩) (List.replicate 12 0) 0 [] [12] 0).wf = false := by decide +kernel
theorem test_wf_units : unitOk 0 0 = false ∧ unitOk 1 13 = false ∧ unitOk 2 32 = false ∧ unitOk 3 32 = false ∧ unitOk 4 332 = false ∧ unitOk 5 1536 = false ∧ unitOk 5 1288 = false ∧
    unitOk 5 1287 = true ∧ unitOk 6 12 = false ∧ unitOk 7 768 = false ∧ unitOk 8 4 = false ∧ unitOk 9 8 = false ∧ unitOk 10 35 = false ∧ unitOk 10 34 = true := by decide +kernel
theorem test_wf_fence : (Instr.fenceCause 2 32 0x0309 0).wf = false ∧ (Instr.drainEnd 2 32 0).wf = false ∧ (Instr.recoveryEnd 2 31 true [16] 0).wf = false ∧
    (Instr.recoveryEnd 2 31 true [12] 0).wf = true ∧ (Instr.uncontainedError 0 0 0).wf = false := by decide +kernel
theorem test_wf_die_links : (Instr.ndlRetrain 0 0 ⟨130, 0, true⟩ okDir true 0).wf = false ∧ (Instr.dieLinkTrain 0 okDir ⟨0, 130, true⟩ 0).wf = false ∧
    (Instr.dieLinkTrain 0 okDir ⟨129, 129, true⟩ 0).wf = true ∧ (Instr.ucieDiscovery none [] [] 0).wf = false ∧ (Instr.dbgLoopComplete 0 (2 ^ 32) 0).wf = false := by decide +kernel
theorem test_wf_die : (Instr.ucieAccess (.read 1) 0).wf = false ∧ (Instr.ucieAccess (.write 64 [1]) 0).wf = false ∧ (Instr.ucieAccess (.atomic 4 .addI64 1 0) 0).wf = false ∧
    (Instr.ucieAccess (.atomic 4 .addI32 1 0) 0).wf = true := by decide +kernel
theorem test_wf_start : (Instr.identityRead none [] [] [] 0).wf = false ∧ (Instr.identityRead none (List.replicate 4 none) (List.replicate 12 none) (List.replicate 5 true) 0).wf = true ∧
    (Instr.hbmTrainingDone [768] 0).wf = false ∧ (Instr.hostPortsTrained [true] 0).wf = false := by decide +kernel


/-! ## More states that the clauses of the statements speak of -/

/-- A line of granule 1 that its check code cannot correct: 65536 / 64. -/
def withBad : State := on { run0 with badLines := [1024] }
theorem test_bench_line : takes withBad 0 0x10 { fmem with imm := 0 } = true ∧ storeBad (bench withBad 0) 65536 8 = true ∧
    gives (exec (.sld 0 { fmem with imm := 0 }) withBad) (seqFault 0 0x0301 withBad) = true ∧
    takes withBad 0 0x20 { zeros with o1 := 0x85, o2 := 5, imm := 1 } = true ∧
    (let s := on { run0 with badLines := [1024], scalars := [(5, 256)] }
     gives (exec (.thset 0 { zeros with o1 := 0x85, o2 := 5, imm := 1 }) s) (seqFault 0 0x0301 s)) = true := by decide +kernel
theorem test_thset_refused : gives (exec (.thset 0 { zeros with o1 := 0x85, o2 := 4 }) s0) (passed s0 0) = true ∧
    gives (exec (.thset 0 { zeros with o1 := 0x85, o2 := 4, imm := 258 }) s0) (seqFault 0 0x0201 s0) = true ∧
    gives (exec (.thset 0 { zeros with o1 := 0x85, imm := 1 }) s0) (seqFault 0 0x0206 s0) = true ∧
    gives (exec (.thmov 0 { zeros with o1 := 0x85, o2 := 0x86 }) s0) (seqFault 0 0x0202 s0) = true ∧
    gives (exec (.thget 0 { zeros with o1 := 5, o2 := 0x86 }) s0) (seqFault 0 0x0202 s0) = true := by decide +kernel
/-- An instruction in flight writes t6 and reads t5. -/
def inFlight : State := on { withT with handles := [(5, ⟨256, 1, 0⟩), (6, ⟨256, 3, 0⟩)], uses := [(5, ⟨none, [3]⟩), (6, ⟨some 3, []⟩)] }
theorem test_handle_waits : (writerLive (bench inFlight 0) 6 && readersLive (bench inFlight 0) 5) = true ∧
    gives (exec (.thget 0 { zeros with o1 := 5, o2 := 0x86 }) inFlight) (seqStall 0 4 inFlight) = true ∧
    gives (exec (.thmov 0 { zeros with o1 := 0x87, o2 := 0x86 }) inFlight) (seqStall 0 4 inFlight) = true ∧
    gives (exec (.thset 0 { zeros with o1 := 0x85, o2 := 4, imm := 1 }) inFlight) (seqStall 0 4 inFlight) = true := by decide +kernel
/-- CALL outside the stream, RET to an offset outside it, and the corners of LOOP. -/
theorem test_control_faults : gives (exec (.call 0 { zeros with imm := 62 }) s0) (seqFault 0 0x0207 s0) = true ∧
    (let s := on { run0 with rets := [⟨1024, 0⟩] }; gives (exec (.ret 0 zeros) s) (seqFault 0 0x0207 s)) = true ∧
    gives (exec (.loop 0 { zeros with imm := 2 }) s0) (issued 0 80 run0 s0) = true ∧
    gives (exec (.loop 0 { zeros with imm := 61 }) s0) (seqFault 0 0x0207 s0) = true ∧
    gives (exec (.loop 0 { zeros with o2 := 1, imm := 1 }) s0) (seqFault 0 0x0201 s0) = true ∧
    gives (exec (.loop 0 { zeros with o2 := 1 }) s0) (passed s0 0) = true ∧
    gives (exec (.loop 0 { zeros with o2 := 2, imm := 62 }) s0) (seqFault 0 0x0207 s0) = true ∧
    (let s := on { run0 with loops := List.replicate 4 ⟨0, 64, 1, 0⟩ }; gives (exec (.loop 0 { zeros with o2 := 2, imm := 1 }) s) (seqFault 0 0x0208 s)) = true := by
  decide +kernel
theorem test_wait_faults : gives (exec (.waitc 0 { zeros with o2 := 0xC4, imm := 1 }) s0) (seqFault 0 0x0205 s0) = true ∧
    gives (exec (.waitc 0 { zeros with o2 := 0xC4, imm := 17 }) s1) (seqFault 0 0x0201 s1) = true ∧
    gives (exec (.yield 0 { zeros with imm := 6 }) s0) (seqFault 0 0x020A s0) = true ∧
    (let s := { s0 with progs := [(0, { prog0 with preempt := some 3 })] }
     after (exec (.yield 0 { zeros with imm := 5 }) s) fun t => (bench t 0).yielded == some 5 && (bench t 0).cause == 9) = true := by decide +kernel
theorem test_channel_faults : gives (exec (.chopen 0 { zeros with o1 := 0xC4 }) s0) (passed s0 0) = true ∧
    (let f := { fopen with imm := 0x01085FF000000000 }; chopenBad run0 (wordOf 0 0x28 f) = true ∧ gives (exec (.chopen 0 f) s0) (seqFault 0 0x0204 s0) = true) ∧
    gives (exec (.chopen 0 fopen) s1) (seqFault 0 0x0203 s1) = true ∧
    gives (exec (.chclose 0 { zeros with o1 := 0xC4 }) s0) (seqFault 0 0x0205 s0) = true ∧
    gives (exec (.chstat 0 { zeros with o1 := 5, o2 := 0xC4 }) s0) (seqFault 0 0x0205 s0) = true := by decide +kernel
theorem test_stream_lost : (match streamWords { sStream with parts := [] } 0 { run0 with cause := 1 } 32 bufferWords with | .error st => st == 0x0501 | .ok _ => false) = true ∧
    after (exec (.streamBufferFill 0) { sStream with parts := [] }) (fun t => t.reports == [⟨0, 0, 0, 15, 32, 0x0501⟩]) = true := by decide +kernel
/-- Channel 2 was opened for a producer in role 5; station 6 of role 0 writes to it through an out port. -/
def wrongE : Entry := { ent (wordOf 3 4 { zeros with fmt := 0x24, o1 := 0xC2, o2 := 2, o3 := 2, imm := 0x0101 }) [0, 3, 5, 0] with phase := .queued, ports := [some ⟨2, .out, 0⟩, none, none, none] }
def sWrong : State := on { run0 with queues := [(6, [wrongE])], chans := [(2, { chan0 [] with bridge := true, prodRole := 5 })] }
theorem test_producer : nextStart sWrong 0 6 = some wrongE ∧ producerBad sWrong 0 6 wrongE = true ∧
    after (exec (.stationStart 0 6) sWrong) (fun t => t.reports == [⟨0, 0, 0, 6, 64, 0x0205⟩]) = true := by decide +kernel
/-- An executed SPXF retires once its packet is complete in its slot. -/
def xfDone (w : List (List Byte)) : State :=
  on { run0 with queues := [(10, [{ spXf with phase := .executed }])], chans := [(1, chan0 [[7]]), (2, { chan0 [] with prod := 10, writing := w })] }
theorem test_spxf_lands : spxfLanded (xfDone [[1]]) 0 10 { spXf with phase := .executed } = false ∧ spxfLanded (xfDone []) 0 10 { spXf with phase := .executed } = true ∧
    gives (exec (.stationRetire 0 10) (xfDone [[1]])) (xfDone [[1]]) = true ∧
    after (exec (.stationRetire 0 10) (xfDone [])) (fun t => tget (bench t 0).queues 10 [] == []) = true := by decide +kernel
/-- DQT with UNROT of a packet that is not rotated; a rotated one of one row is rotated back. -/
def dqtU : Entry := ent (wordOf 2 2 { zeros with fmt := 0x24, o1 := 0xC1, o2 := 0x82, mod := 1 }) [0, 0, 0, 0]
def rotPk : List Byte := headerBytes (newPkt 0x13 1 1 5 9 0 4 1) ++ List.replicate (pktLen 0x13 false - 64) 0
theorem test_dqt_unrot : after (exec (.dqt 0 1) (station 5 dqtU [pk 0x13 1 1] [])) (fun t => t.reports == [⟨0, 0, 0, 5, 64, 0x0184⟩]) = true ∧
    (match sourcePkt (station 5 dqtU [rotPk] []) 0 5 dqtU 1 with | .ok p => p.rot | .error _ => false) = true := by decide +kernel
/-- CRED of one and of two packets from a port that holds one, and of one from an empty port. -/
def credP (n : Nat) : Entry := ent (wordOf 5 1 { zeros with fmt := 0x22, o1 := 0xC1, o2 := 0x82, imm := BitVec.ofNat 60 n }) [0, 0, 0, 0]
def sCredP (n : Nat) (p : List (List Byte)) : State := { station 9 (credP n) p [] with benches := [(0, { bench (station 9 (credP n) p []) 0 with store := headers })] }
theorem test_cred_port : (startedEntry (sCredP 1 [pk 0x22 1 1]) 0 9 5 1 = some (credP 1) ∧ good (credCheck (sCredP 1 [pk 0x22 1 1]) 0 9 (credP 1)) = true) ∧
    after (exec (.cred 0) (sCredP 1 [pk 0x22 1 1])) (done 9) = true := by decide +kernel
theorem test_cred_partial : good (credCheck (sCredP 2 [pk 0x22 1 1]) 0 9 (credP 2)) = true ∧
    after (exec (.cred 0) (sCredP 2 [pk 0x22 1 1])) (fun t => (tget (bench t 0).queues 9 []).all fun e => e.hist == 1 && e.phase == .started) = true := by decide +kernel
theorem test_cred_waits : gives (exec (.cred 0) (sCredP 1 [])) (sCredP 1 []) = true := by decide +kernel


/-! ### Programs and pages -/

theorem test_hopeless : (match hopeless (atTime 5 sNever) 0 with | some (n, x) => n == 0 && x == waiting | none => false) = true ∧ hopeless (atTime 5 (imageOnly waiting)) 0 = none ∧
    after (exec (.programPlace 0 5) sNever) (fun t => t.progs == []) = true := by decide +kernel
theorem test_image_refused : let s := { imageOnly waiting with parts := [] }
    hopeless (atTime 5 s) 0 = none ∧ firstWaiting (atTime 5 s) 0 = some (0, waiting) ∧
      (match readImage (atTime 5 s) 0 0 12288 with | .error st => st == 0x0501 | .ok _ => false) = true := by decide +kernel
/-- Bench 0 is taken by a running program of lower priority. -/
def crowded : State := { imageOnly { waiting with pri := 2 } with progs := [(0, { waiting with pri := 2 }), (1, { prog0 with pri := 1 })], benches := [(0, { run0 with prog := some 1 })] }
theorem test_no_room : (match readImage (atTime 5 crowded) 0 0 12288 with | .ok d => assign (atTime 5 crowded) d.roles d.roles (freeBenches (atTime 5 crowded) 0) [] [] == none | .error _ => false) = true ∧
    firstWaiting (atTime 5 crowded) 0 = some (0, { waiting with pri := 2 }) := by decide +kernel
def savedProg : Prog := { prog0 with state := .saved, place := [], saved := [{ run0 with seq := 3, yielded := some 5 }], saveFrames := [[3]], savePages := 1 }
theorem test_saved_placed : firstWaiting (sLife savedProg Bench.reset) 0 = some (0, savedProg) ∧ hopeless (atTime 5 (sLife savedProg Bench.reset)) 0 = none ∧
    assign (atTime 5 (sLife savedProg Bench.reset)) savedProg.roles savedProg.roles (freeBenches (atTime 5 (sLife savedProg Bench.reset)) 0) [] [] = some [0] ∧
    after (exec (.programPlace 0 5) (sLife savedProg Bench.reset)) (fun t => (tget? t.progs 0).any fun x => x.state == .restoring && x.place == [0]) = true := by decide +kernel
/-- The save page is frame 0 of the reserve, group 0; a partition of rate 1 without tokens waits there. -/
def slowPart : Partition := { Partition.reset with tokens := (List.range 96).map fun g => (g, 0) }
def slowSave : State := setFld .alcBw 0 0 8 0 1 { sLife (asked .preempting) (yielding 3) with parts := [(0, slowPart)] }
theorem test_save_admitted : (takeAll 0 [1] (atTime 9 (sLife (asked .preempting) (yielding 3))) []).isSome = true ∧
    (match takeAll 0 [1] (atTime 9 slowSave) [] with
      | some (fs, _) => (fs.flatMap fun f => savedParts f (stoppedBytes (asked .preempting) (yielding 3))).any fun c => !(admittedAt (atTime 9 slowSave) 0 c.1)
      | none => false) = true ∧
    after (exec (.preemptSaveComplete 0 9) slowSave) (fun t => (tget? t.progs 0).any fun x => x.state == .preempting) = true := by decide +kernel
theorem test_restore_role : let x : Prog := { prog0 with state := .restoring, saved := [{ run0 with pc := 64 }], saveFrames := [[3]], savePages := 1 }
    x.place.Nodup ∧ after (exec (.restoreComplete 0 9) (sLife x run0)) (fun t => (bench t 0).pc == 64 && (tget? t.progs 0).any fun y => y.saved == [] && y.savePages == 0) = true := by decide +kernel

/-- A QNT issued before the SEEDSET, still queued, takes seed slot 3. -/
def seedFirst : Entry := { ent (wordOf 2 1 { zeros with fmt := 0x13, o1 := 0xC1, o2 := 0x82, mod := 1, imm := 0x30000 }) [0, 0, 0, 0] with phase := .queued, eid := 0 }
theorem test_seedset_waits : let x := { run0 with queues := [(4, [seedFirst])], taken := some seedE }
    seedSlot seedFirst.word = some 3 ∧ seedWanted x 3 seedE = true ∧ seedWanted run0 3 seedE = false ∧
      after (exec (.seedset 0) { sMap with benches := [(0, x)], progs := [(0, prog0)] }) (fun t => (bench t 0).taken.isSome && (bench t 0).seeds == []) = true := by decide +kernel
theorem test_assay_waits : let s := { sClr with parts := [(0, { mapped with assayQ := [(0, ⟨3, 1, [(0, 7)], 0⟩)] })] }
    (roleKey s 0 == some 0 && !(roleSynced s 0)) = true ∧ gives (exec (.asyclr 0) s) s = true := by decide +kernel

def sAsk (x : Partition) : State := quota { plain with parts := [(0, x)] }
theorem test_demand_fails : leaf? (sAsk { mapped with leaves := [], demand := [0] }) 0 0 = none ∧
    after (exec (.driftDemandFetch 0 0 5) (sAsk { mapped with leaves := [], demand := [0] })) (fun t => (partition t 0).demand == []) = true ∧
    (leaf? (sAsk { cold with leaves := [(0, { leaf0 524288 with res := 1, fen := true })] }) 0 0).any (fun l => l.fen && !l.t2d) = true ∧
    after (exec (.driftDemandFetch 0 0 5) (sAsk { cold with leaves := [(0, { leaf0 524288 with res := 1, fen := true })] })) (fun t => (partition t 0).moves == [] && (partition t 0).demand == []) =
      true := by decide +kernel
/-- A fragment that is admitted, one that is not, and one with an uncorrectable line in it. -/
def bad3 : List (Nat × BitVec 16) := [(0, 1), (1, 1), (2, 1)]
def moves0 : State := { sCold with parts := [(0, moving 0)] }
theorem test_fragment : admittedAt (atTime 5 moves0) 0 (8256 * 2 ^ 21) = true ∧
    after (exec (.driftFragmentArrive 0 0 0 5) moves0) (fun t => (tget? (partition t 0).moves 0).any fun m => m.frags == [0]) = true := by decide +kernel
theorem test_fragment_waits : let s := setFld .alcBw 0 0 8 0 1 { moves0 with parts := [(0, { moving 0 with tokens := (List.range 96).map fun g => (g, 0) })] }
    admittedAt (atTime 5 s) 0 (8256 * 2 ^ 21) = false ∧ after (exec (.driftFragmentArrive 0 0 0 5) s) (fun t => (partition t 0).waits == [groupOf 8256]) = true := by decide +kernel
theorem test_no_module : let s := marks 40 (setFld .genConfig 0 0 3 0 0 sMap)
    after (exec (.driftDemote 0 5) (setFld .genConfig 0 0 3 0 0 (marks 40 sMap))) (fun t => (partition t 0).highWarn && t.telQ.any fun q => q.rec_.code == 0xC006) = true ∧
      (partition s 0).highWarn = false ∧ nextTier2 (setFld .genConfig 0 0 3 0 0 (marks 40 sMap)) = none := by decide +kernel

/-! ### Memory -/

theorem test_stored_error : flawBad { plain with flaws := [(1, bad3)] } 1 = true ∧
    after (exec (.hbmAccess 64 .read [] 5) { plain with flaws := [(1, bad3)] }) (fun t => t.out == [.line 64 0x0581 []]) = true ∧
    after (exec (.hbmAccess 64 (.write (List.replicate 64 1)) [] 5) { plain with flaws := [(1, bad3)] }) (fun t => t.flaws == []) = true ∧
    after (exec (.nearMemoryAtomic 64 .addI64 5 0) { plain with flaws := [(1, bad3)] }) (fun t => t.mem == [] && t.out == [.atomic 64 0x0581 0]) = true := by decide +kernel
/-- Line 0 of frame 0 of Stratus module 0. -/
def t2Line : Nat := 524288 * 2 ^ 21
theorem test_module_error : isTier2 (t2Line / 2 ^ 21) = true ∧ lineFenced (quota plain) t2Line = false ∧
    after (exec (.hbmAccess t2Line .read bad3 5) (quota plain)) (fun t => t.out.head? == some (.line t2Line 0x0581 []) && raw t .t2mUecnt 0 0 == 1 && t.poison == []) = true := by decide +kernel
theorem test_module_fenced : let s := setUnit 8 0 .fenced 0x030E (quota plain)
    lineFenced s t2Line = true ∧ after (exec (.hbmAccess t2Line .read [] 5) s) (fun t => t.out == [.line t2Line 0x0301 []]) = true := by decide +kernel


/-! ### Lanes and lasers -/

theorem test_parked_peer : let s := lane 0 1 5 2 (lane 0 0 11 2 plain)
    after (exec (.lossOfLight 0 ⟨5, true⟩ 9) s) (fun t => laneState t 0 1 5 == 5 && laneState t 0 0 11 == 5) = true ∧
      shuttered (modEngine 0 (fun x => { x with opened := [0] }) booted) 0 0 5 = true ∧ shuttered booted 0 1 5 = false := by decide +kernel
/-- A memory fibre that still sees a colour is not open. -/
theorem test_memory_fibre : engineRole plain 9 = 2 ∧ fibreLit (lane 9 1 48 2 plain) 9 3 = true ∧ fibreLit plain 9 3 = false ∧
    after (exec (.fibreOpenDetect 9 3) (lane 9 1 48 2 plain)) (fun t => (engine t 9).opened == []) = true := by decide +kernel
theorem test_fade_dead : let s := setFld .optLsr 9 15 29 29 1 faded
    knownDead (engine s 9) 15 = false ∧ after (exec (.laserFadeDeclare 9 15 (reading 59 360) 5) s) (fun t => (engine t 9).queue == [(15, true), (3, true)]) = true := by decide +kernel
/-- The spare starts at its own bias, and the switch takes it over for the colour. -/
theorem test_spare_bias : tget (engine (nextOf (exec (.swapWarm 9 5) faded)) 9).bias 31 0 = Config.startBias 9 31 := by
  rw [show nextOf (exec (.swapWarm 9 5) faded) = swapWarm 9 (atTime 5 faded) from rfl]
  rfl
theorem test_spare_taken : after (exec (.swapSwitch 9 9) (modEngine 9 (fun x => { x with bias := [(15, 360), (31, 200)] }) (swapping 4 true))) (fun t => tget (engine t 9).bias 15 0 == 200) = true := by
  decide +kernel
theorem test_rate_floor : after (exec (.pathMonitorAlarm 3 29 5) (setFld .pwrSect 3 0 27 20 34 (sSec sec0))) (fun t => fld t .pwrSect 3 0 27 20 == 32) = true := by decide +kernel
/-- The hottest of four sensors counts, with the overlay's offset of each. -/
theorem test_sensors : sensorCount 3 = 4 ∧ sensorCount 24 = 2 ∧ hottest plain 3 [250, 300, -40, 0, 999] = 300 ∧ hottest plain 24 [-50, -60, 999] = -50 := by decide +kernel

/-! ### Requests of other nodes -/

theorem test_unknown_source : let s := { sHome (reqP (hdr 0 12) []) [] with sources := [] }
    sourceOf s 18 = none ∧ after (exec (.requestArrive (reqP (hdr 0 12) []) 5) s) (fun t => t.accepted == [(18, 12)]) = true := by decide +kernel
/-- A read is answered by reading again, a write from what was kept. -/
theorem test_again : let s := sHome (reqP (hdr 0 12) []) [(12, { kept (hdr 0 12) [] with done := true })]
    after (exec (.requestArrive (reqP (hdr 0 12) []) 5) s) (fun t => raw t .rmaDup 0 0 == 1 && t.out.any (fun x => match x with | .flit l _ => l.far == 18 | _ => false)) = true ∧
    after (exec (.requestArrive (reqP (hdr 0 12) []) 5) { s with parts := [(0, cold)] }) (fun t => raw t .rmaDup 0 0 == 1 && (homeReq t 18 12).any fun r => r.again) = true := by decide +kernel
theorem test_home_slow : let s := setFld .alcBw 0 0 8 0 1 { sApply2 (hdr 1 12) bytes8 with parts := [(0, { mapped with tokens := (List.range 96).map fun g => (g, 0) })] }
    admittedAt (atTime 5 s) 0 (paOf (leaf0 0) 64) = false ∧ after (exec (.requestApply 18 12 5) s) (fun t => t.mem == [] && (partition t 0).waits == [groupOf 0]) = true := by decide +kernel
theorem test_home_wakes : let s := { sApply2 (hdr 0 12) [] with sources := [(18, src18 [(12, { kept (hdr 0 12) [] with wait := some 0 })])] }
    homeKey s 18 12 = 18 ∧ after (exec (.requestApply 18 12 5) s) (fun t => (homeReq t 18 12).any fun r => r.done && r.status == 0) = true := by decide +kernel
theorem test_home_denied : let s := setFld .rmaCtl 0 0 16 16 1 { sHome (reqP (hdr 1 12) bytes8) [] with owners := [(0, [(0, .exclusive 3)])] }
    ownDenied s 0 64 true 18 = true ∧ after (exec (.requestArrive (reqP (hdr 1 12) bytes8) 5) s) (fun t => (homeReq t 18 12).any fun r => r.status == 0x0486) = true := by decide +kernel
/-- An operation of a role that has been saved completes in what was saved. -/
theorem test_saved_op : let s := { sOp with progs := [(0, { savedProg with saved := [run0] })] }
    (match tget? (completeOp 3 0 [7] s).progs 0 with | some x => x.saved.map (fun b => getS b 5) == [7] | none => false) = true ∧
      (completeOp 3 0x0488 [] s).reports = [⟨0, 32, 0, 13, 64, 0x0488⟩] := by decide +kernel
theorem test_notice_response : let p : Packet := ⟨{ route0 with src := 18, typ := 1, slice := 7 }, .notice 0x0404 (some { hdr 0 12 with op := 0x10 }) none⟩
    let s := { sHome p [(12, { kept (hdr 0 12) [] with done := true })] with arrived := [⟨0, 0, p, none⟩] }
    (takeArrived (fun a => a.pkt == p) (atTime 5 s)).isSome = true ∧ after (exec (.responseArrive p 5) { s with parts := [(0, cold)] }) (fun t => (homeReq t 18 12).any fun r => r.again) = true := by decide +kernel
/-- Two stores that go on from each other go out in one transfer. -/
def gwS (off seq : Nat) : Packet := ⟨{ route0 with src := 18, slice := 7 }, .gateway 5 9 { requestHdr 1 false true 0 off with seq := BitVec.ofNat 16 seq, inst := 3, tag := 6 } bytes8⟩
def sRun : State := { sGw with sources := [(18, src18 [(12, ⟨gwS 64 12, 0, false, none, 0, 0, false⟩), (13, ⟨gwS 72 13, 0, false, none, 0, 0, false⟩)])], accepted := [(18, 12), (18, 13)] }
theorem test_gateway_run : after (exec (.gatewayForward (.outward 18 12 0 []) 5) sRun) (fun t => t.out.head? == some (.gatewayOp 4 9 true 64 (bytes8 ++ bytes8) 16) &&
    (homeReq t 18 13).any fun r => r.done) = true := by decide +kernel
theorem test_gateway_atomic : let p : Packet := ⟨{ route0 with src := 18, slice := 7 }, .gateway 5 9 { hdr 2 12 with op := 2 } bytes8⟩
    let s := { sGw with sources := [(18, src18 [(12, ⟨p, 0, false, none, 0, 0, false⟩)])] }
    after (exec (.gatewayForward (.outward 18 12 0 []) 5) s) (fun t => (homeReq t 18 12).any fun r => r.done && r.status == 0x048A) = true := by decide +kernel

/-! ### Collectives -/

theorem test_go_again : after (exec (.goArrive 0 goM 5) (sRound { fresh0 with seen := [⟨3, 0, 0, 0, 0⟩] } [(0, coll0 0x80 0 none)] 17 goM)) (fun t => raw t .colDup 0 0 == 1 && t.colls.length == 1) = true := by
  decide +kernel
/-- An abort before the program is placed is recorded for the members to come. -/
theorem test_abort_first : let s := { sRound fresh0 [] 18 abM with progs := [], groups := [] }
    collLive s 0 4 = none ∧ lateAbort s 0 4 0 = false ∧ after (exec (.collectiveAbort 0 abM 5) s) (fun t => (partition t 0).early == [⟨4, 0, 0x0702, 1, 1⟩]) = true := by decide +kernel
theorem test_abort_taken : let s := { sColl group0 (collE 0x80 4) with parts := [(0, { mapped with early := [⟨4, 0, 0x0702, 1, 1⟩] })] }
    after (exec (.cbar 0 5) s) (fun t => t.colls == [] && (partition t 0).early == [] && t.reports == [⟨0, 0, 0, 13, 64, 0x0702⟩]) = true := by decide +kernel
/-- Members 1 and 2 on nodes 33 and 34 of another fabric group: the lowest sends their signatures in one summary. -/
def group3 : GroupDesc := { group0 with members := [(0, 0), (1, 0), (2, 0)], nodes := [some 17, some 33, some 34] }
def sumM : CollMsg := .summary 4 0 1 [⟨1, sigC 0x80 0, [], 0⟩, ⟨2, sigC 0x80 0, [], 0⟩]
theorem test_summary : leadOf group3 2 = 1 ∧ ledBy group3 1 = [1, 2] ∧ (let s := { sRound (round0 [⟨0, sigC 0x80 0, [], 0⟩]) [(0, coll0 0x80 0 none)] 33 sumM with progs := [(0, { prog0 with groups := [group3] })] }
    (takeColl 0 (some 33) sumM (atTime 5 s)).isSome && after (exec (.signatureArrive 0 33 sumM 5) s) (fun t => (collGroup t 0 4 0).rounds == [])) = true := by decide +kernel
theorem test_chunk_stray : let s := sRound gone [(0, coll0 0x83 0 (some 16))] 19 chM
    after (exec (.chunkArrive 0 19 chM 5) s) (fun t => (collGroup t 0 4 0).staged == [] && t.arrived == []) = true := by decide +kernel

/-! ### Hosts -/

theorem test_not_reached : pathServed { plain with qps := [] } .admin (regAddr .pwrTdp 0 0) 700 true = false ∧
    after (exec (.registerWrite .admin (BitVec.ofNat 32 (regAddr .pwrTdp 0 0)) 700 5) { plain with qps := [] }) (fun t => t.out == []) = true := by decide +kernel
/-- A hub sector that is off answers no register of its units. -/
theorem test_hub_off : regFenced { plain with sectors := [] } (regAddr .schCtl 0 0) = true ∧
    after (exec (.registerWrite .admin (BitVec.ofNat 32 (regAddr .schBench 0 0)) 1 5) { plain with sectors := [] }) (fun t => t.out.any fun x => match x with | .access _ _ st _ => st == 0x0304 | _ => false) = true := by
  decide +kernel
theorem test_closing_serves : let s := { sMail 31 (msg 4 31 0) with sessions := [(31, { sess0 with state := .freeing })] }
    qpMailbox s 5 = some 31 ∧ (session s 31).state = .freeing ∧ qpPaused (atTime 5 s) 5 = false ∧ (mailbox s 31).queue = [msg 4 31 0] := by decide +kernel

end Sys2Proof.Tests
end

section
/-! SUPPORT. Where registers lie: an address names one place at most (R33). -/

namespace Sys2Proof.Machine

/-- Every register stands in the list of all registers. -/
theorem mem_allRegs (r : Reg) : r ∈ allRegs := by
  cases r <;> decide

/-- A row whose instances have addresses of their own: a count above 1 has a stride, and the inner instances end before the next outer
one. -/
def rowSpaced (w : RegRow) : Bool :=
  (!(w.s1 == 0) || w.n1 == 1 && w.n2 == 1) && (!(w.s2 == 0) || w.n2 == 1) && (w.s1 == 0 || Nat.blt ((w.n2 - 1) * w.s2) w.s1)

theorem rowSpaced_regRow (r : Reg) : rowSpaced (regRow r) = true := by
  have h : ∀ r ∈ allRegs, rowSpaced (regRow r) = true := by decide +kernel
  exact h r (mem_allRegs r)

/-- A place of a register is found at its address in the register's row. -/
theorem placeIn_regAddr {r : Reg} {i j : Nat} (hi : i < (regRow r).n1) (hj : j < (regRow r).n2) :
    placeIn (regAddr r i j) r = some ⟨r, i, j⟩ := by
  have hs := rowSpaced_regRow r
  simp only [rowSpaced, Bool.and_eq_true, Bool.or_eq_true, Bool.not_eq_true', beq_eq_false_iff_ne, beq_iff_eq, Nat.blt_eq] at hs
  obtain ⟨⟨outer, inner⟩, fits⟩ := hs
  have ho : regAddr r i j - (regRow r).base = i * (regRow r).s1 + j * (regRow r).s2 := by simp only [regAddr]; omega
  have hi' : (bif (regRow r).s1 == 0 then 0 else (i * (regRow r).s1 + j * (regRow r).s2) / (regRow r).s1) = i := by
    by_cases h1 : (regRow r).s1 = 0
    · have : i = 0 := by omega
      simp [h1, this]
    · have hlt : j * (regRow r).s2 < (regRow r).s1 :=
        Nat.lt_of_le_of_lt (Nat.mul_le_mul_right _ (Nat.le_sub_one_of_lt hj)) (fits.resolve_left h1)
      have : ((regRow r).s1 == 0) = false := by simpa using h1
      rw [this, cond_false, Nat.add_comm, Nat.add_mul_div_right _ _ (Nat.pos_of_ne_zero h1), Nat.div_eq_of_lt hlt, Nat.zero_add]
  have hj' : (bif (regRow r).s2 == 0 then 0 else j * (regRow r).s2 / (regRow r).s2) = j := by
    by_cases h2 : (regRow r).s2 = 0
    · have : j = 0 := by omega
      simp [h2, this]
    · have : ((regRow r).s2 == 0) = false := by simpa using h2
      rw [this, cond_false, Nat.mul_div_cancel _ (Nat.pos_of_ne_zero h2)]
  have hb : Nat.ble (regRow r).base (regAddr r i j) = true := by
    rw [Nat.ble_eq]; simp only [regAddr]; omega
  have hi2 : Nat.blt i (regRow r).n1 = true := by simpa using hi
  have hj2 : Nat.blt j (regRow r).n2 = true := by simpa using hj
  simp only [placeIn, ho, hi', Nat.add_sub_cancel_left, hj', hb, hi2, hj2, beq_self_eq_true, Bool.and_self, cond_true]

/-- What is found in a row at an address is a place of the row that has this address. -/
theorem regAddr_of_placeIn {a : Nat} {r : Reg} {p : Place} (h : placeIn a r = some p) :
    p.i < (regRow r).n1 ∧ p.j < (regRow r).n2 ∧ a = regAddr r p.i p.j := by
  unfold placeIn at h
  extract_lets w o i o1 j at h
  cases hc : Nat.ble w.base a && Nat.blt i w.n1 && Nat.blt j w.n2 && o1 == j * w.s2
  · rw [hc] at h; contradiction
  · rw [hc, cond_true, Option.some.injEq] at h
    subst h
    simp only [Bool.and_eq_true, Nat.ble_eq, Nat.blt_eq, beq_iff_eq] at hc
    obtain ⟨⟨⟨hb, hi⟩, hj⟩, h1⟩ := hc
    have him : i * w.s1 ≤ o := by
      show (bif w.s1 == 0 then 0 else o / w.s1) * w.s1 ≤ o
      cases w.s1 == 0
      · exact Nat.div_mul_le_self o w.s1
      · rw [cond_true, Nat.zero_mul]; exact Nat.zero_le o
    refine ⟨hi, hj, ?_⟩
    show a = w.base + i * w.s1 + j * w.s2
    omega

/-- How far the inner instances of a row reach modulo `m`. -/
def innerSpan (m : Nat) (w : RegRow) : Nat := bif w.s2 % m == 0 then 0 else (w.n2 - 1) * w.s2

/-- Modulo `m`, which divides the outer strides, the instances of `v` lie below those of `w`. -/
def apartModulo (m : Nat) (v w : RegRow) : Bool :=
  v.s1 % m == 0 && w.s1 % m == 0 && Nat.blt (v.base % m + innerSpan m v) (w.base % m) && Nat.blt (w.base % m + innerSpan m w) m

/-- The rows `v` and `w` have no address in common: `v` ends before `w` begins, or they interleave and an address modulo a stride tells
them apart. -/
def rowsApart (v w : RegRow) : Bool :=
  Nat.blt (v.base + (v.n1 - 1) * v.s1 + (v.n2 - 1) * v.s2) w.base || apartModulo w.s1 v w || apartModulo w.s2 v w

/-- Modulo a divisor of its outer stride an address lies in the reach of its row's inner instances. -/
theorem rowAddr_mod {m : Nat} {w : RegRow} (i : Nat) {j : Nat} (hj : j < w.n2) (hm : w.s1 % m = 0) (hs : w.base % m + innerSpan m w < m) :
    w.base % m ≤ (w.base + i * w.s1 + j * w.s2) % m ∧ (w.base + i * w.s1 + j * w.s2) % m ≤ w.base % m + innerSpan m w := by
  have hd : (w.base + i * w.s1 + j * w.s2) % m = (w.base % m + j * w.s2) % m := by
    obtain ⟨k, hk⟩ := Nat.dvd_of_mod_eq_zero hm
    rw [hk, Nat.mul_left_comm, Nat.add_right_comm, Nat.add_mul_mod_self_left, Nat.mod_add_mod]
  rw [hd]
  unfold innerSpan at hs ⊢
  cases h2 : w.s2 % m == 0
  · rw [h2, cond_false] at hs
    have hle : j * w.s2 ≤ (w.n2 - 1) * w.s2 := Nat.mul_le_mul_right _ (Nat.le_sub_one_of_lt hj)
    have hlt : w.base % m + j * w.s2 < m := by omega
    rw [Nat.mod_eq_of_lt hlt, cond_false]
    exact ⟨Nat.le_add_right _ _, Nat.add_le_add_left hle _⟩
  · obtain ⟨k, hk⟩ := Nat.dvd_of_mod_eq_zero (by simpa using h2 : w.s2 % m = 0)
    rw [hk, Nat.mul_left_comm, Nat.add_mul_mod_self_left, Nat.mod_mod, cond_true]
    omega

/-- Instances of rows that are apart modulo `m` have addresses of their own. -/
theorem rowAddr_ne_of_apartModulo {m : Nat} {v w : RegRow} (h : apartModulo m v w = true) {i j i' j' : Nat} (hj : j < v.n2)
    (hj' : j' < w.n2) : v.base + i * v.s1 + j * v.s2 ≠ w.base + i' * w.s1 + j' * w.s2 := by
  simp only [apartModulo, Bool.and_eq_true, beq_iff_eq, Nat.blt_eq] at h
  obtain ⟨⟨⟨hv, hw⟩, hlt⟩, hm⟩ := h
  have hwlo := (rowAddr_mod i' hj' hw hm).1
  have hvhi := (rowAddr_mod i hj hv (by omega)).2
  intro he
  rw [he] at hvhi
  omega

/-- Instances of registers whose rows are apart have addresses of their own. -/
theorem regAddr_ne_of_rowsApart {r' r : Reg} (h : rowsApart (regRow r') (regRow r) = true) {i j i' j' : Nat} (hi' : i' < (regRow r').n1)
    (hj' : j' < (regRow r').n2) (hj : j < (regRow r).n2) : regAddr r' i' j' ≠ regAddr r i j := by
  simp only [rowsApart, Bool.or_eq_true, Nat.blt_eq] at h
  rcases h with (below | outer) | inner
  · have h1 : i' * (regRow r').s1 ≤ ((regRow r').n1 - 1) * (regRow r').s1 := Nat.mul_le_mul_right _ (Nat.le_sub_one_of_lt hi')
    have h2 : j' * (regRow r').s2 ≤ ((regRow r').n2 - 1) * (regRow r').s2 := Nat.mul_le_mul_right _ (Nat.le_sub_one_of_lt hj')
    simp only [regAddr]
    omega
  · exact rowAddr_ne_of_apartModulo outer hj' hj
  · exact rowAddr_ne_of_apartModulo inner hj' hj

/-- A place of a register is not found in a row that is apart from the register's. -/
theorem placeIn_of_rowsApart {r' r : Reg} (h : rowsApart (regRow r') (regRow r) = true) (i : Nat) {j : Nat} (hj : j < (regRow r).n2) :
    placeIn (regAddr r i j) r' = none := by
  cases hp : placeIn (regAddr r i j) r' with
  | none => rfl
  | some p =>
    obtain ⟨pi, pj, ha⟩ := regAddr_of_placeIn hp
    exact absurd ha.symm (regAddr_ne_of_rowsApart h pi pj hj)

/-- The rows of the register tables are apart, each from those after it. -/
theorem allRegs_apart : allRegs.Pairwise fun r' r => rowsApart (regRow r') (regRow r) = true := by
  decide +kernel

/-- In a list of registers whose rows are apart, a place that exists is found at its address. -/
theorem findPlace_regAddr {r : Reg} {i j : Nat} (hi : i < (regRow r).n1) (hj : j < (regRow r).n2) (hl : noLane ⟨r, i, j⟩ = false) :
    ∀ {l : List Reg}, (l.Pairwise fun r' r => rowsApart (regRow r') (regRow r) = true) → r ∈ l →
      findPlace (regAddr r i j) l = some ⟨r, i, j⟩
  | r' :: l, apart, mem => by
    rw [List.pairwise_cons] at apart
    rcases List.mem_cons.mp mem with rfl | later
    · simp only [findPlace, placeIn_regAddr hi hj, hl, cond_false]
    · simp only [findPlace, placeIn_of_rowsApart (apart.1 r later) i hj]
      exact findPlace_regAddr hi hj hl apart.2 later

/-- What stands at the address of a place that exists is that place. -/
theorem placeAt_regAddr {r : Reg} {i j : Nat} (hi : i < (regRow r).n1) (hj : j < (regRow r).n2) (hl : noLane ⟨r, i, j⟩ = false) :
    placeAt (regAddr r i j) = some ⟨r, i, j⟩ :=
  findPlace_regAddr hi hj hl allRegs_apart (mem_allRegs r)

end Sys2Proof.Machine
end

section
/-! SUPPORT. The fields of a register: what a field of a sum of fields is, after a write (Table 0.5) and in what a register reads as. -/

namespace Sys2Proof.Machine

/-! ## Fields of sums -/

/-- Bits below a multiple of a higher power of two do not see it. -/
theorem bits_mul_add_below (c v : Nat) {n h l : Nat} (hl : l ≤ h) (hn : h < n) : bits (c * 2 ^ n + v) h l = bits v h l := by
  have hs : 2 ^ n = 2 ^ (n - (h + 1)) * 2 ^ (h + 1 - l) * 2 ^ l := by
    rw [← Nat.pow_add, ← Nat.pow_add]
    congr 1
    omega
  rw [bits, bits, hs, ← Nat.mul_assoc, ← Nat.mul_assoc, Nat.add_comm, Nat.add_mul_div_right _ _ (Nat.two_pow_pos l),
    Nat.add_mul_mod_self_right]

/-- A field above what is less than its lowest bit. -/
theorem bits_mul_add_self {x v h l : Nat} (hx : x < 2 ^ (h + 1 - l)) (hv : v < 2 ^ l) : bits (x * 2 ^ l + v) h l = x := by
  rw [bits, Nat.add_comm, Nat.add_mul_div_right _ _ (Nat.two_pow_pos l), Nat.div_eq_of_lt hv, Nat.zero_add, Nat.mod_eq_of_lt hx]

theorem bits_lt (v h l : Nat) : bits v h l < 2 ^ (h + 1 - l) := Nat.mod_lt _ (Nat.two_pow_pos _)

/-- Bits of a conjunction. -/
theorem bits_and (v w h l : Nat) : bits (v &&& w) h l = bits v h l &&& bits w h l := by
  rw [bits, bits, bits, Nat.and_div_two_pow, Nat.and_mod_two_pow]

/-- Fields in falling order below bit `top`, none of which overlap. -/
def fieldsFit : Nat → List RegField → Bool
  | _, [] => true
  | top, f :: l => Nat.ble f.lo f.hi && Nat.blt f.hi top && fieldsFit f.lo l

/-- The number whose field `f` is `x f`. -/
def fieldSum (x : RegField → Nat) : List RegField → Nat
  | [] => 0
  | f :: l => x f * 2 ^ f.lo + fieldSum x l

/-- A sum that is made field by field. -/
theorem foldl_eq_fieldSum {g : Nat → RegField → Nat} (x : RegField → Nat) :
    ∀ {l : List RegField}, (∀ f ∈ l, ∀ a, g a f = a + x f * 2 ^ f.lo) → ∀ a, l.foldl g a = a + fieldSum x l
  | [], _, a => rfl
  | f :: l, h, a => by
    rw [List.foldl_cons, h f List.mem_cons_self, foldl_eq_fieldSum x (fun f' m => h f' (List.mem_cons_of_mem _ m)), fieldSum,
      Nat.add_assoc]

theorem fieldsFit_cons {top : Nat} {f : RegField} {l : List RegField} :
    fieldsFit top (f :: l) = true ↔ f.lo ≤ f.hi ∧ f.hi < top ∧ fieldsFit f.lo l = true := by
  simp only [fieldsFit, Bool.and_eq_true, Nat.ble_eq, Nat.blt_eq, and_assoc]

/-- A field is not empty and lies below the top. -/
theorem fieldsFit_mem : ∀ {l : List RegField} {top : Nat} {f : RegField}, fieldsFit top l = true → f ∈ l →
    f.lo ≤ f.hi ∧ f.hi < top
  | g :: l, top, f, fit, mem => by
    obtain ⟨hlo, hhi, rest⟩ := fieldsFit_cons.mp fit
    rcases List.mem_cons.mp mem with rfl | later
    · exact ⟨hlo, hhi⟩
    · have hf := fieldsFit_mem rest later
      exact ⟨hf.1, by omega⟩

section
variable {x : RegField → Nat} (hx : ∀ f, x f < 2 ^ (f.hi + 1 - f.lo))
include hx

/-- Fields that fit below `top` sum to less than `2 ^ top`. -/
theorem fieldSum_lt : ∀ {l : List RegField} {top : Nat}, fieldsFit top l = true → fieldSum x l < 2 ^ top
  | [], top, _ => Nat.two_pow_pos top
  | f :: l, top, fit => by
    obtain ⟨hlo, hhi, rest⟩ := fieldsFit_cons.mp fit
    have hl : fieldSum x l < 2 ^ f.lo := fieldSum_lt rest
    calc x f * 2 ^ f.lo + fieldSum x l < (x f + 1) * 2 ^ f.lo := by rw [Nat.add_mul, Nat.one_mul]; omega
      _ ≤ 2 ^ (f.hi + 1 - f.lo) * 2 ^ f.lo := Nat.mul_le_mul_right _ (hx f)
      _ = 2 ^ (f.hi + 1) := by rw [← Nat.pow_add]; congr 1; omega
      _ ≤ 2 ^ top := Nat.pow_le_pow_right (by decide) hhi

/-- Each field of a sum of fields that fit is the one that was put there. -/
theorem bits_fieldSum : ∀ {l : List RegField} {top : Nat} {f : RegField}, fieldsFit top l = true → f ∈ l →
    bits (fieldSum x l) f.hi f.lo = x f
  | g :: l, top, f, fit, mem => by
    obtain ⟨hlo, hhi, rest⟩ := fieldsFit_cons.mp fit
    rcases List.mem_cons.mp mem with rfl | later
    · exact bits_mul_add_self (hx f) (fieldSum_lt hx rest)
    · obtain ⟨below, under⟩ := fieldsFit_mem rest later
      rw [fieldSum, bits_mul_add_below _ _ below under]
      exact bits_fieldSum rest later

end

/-! ## Registers -/

/-- The fields of every register fit into its 32 bits. -/
theorem fieldsFit_regRow (r : Reg) : fieldsFit 32 (regRow r).fields = true := by
  have h : ∀ r ∈ allRegs, fieldsFit 32 (regRow r).fields = true := by decide +kernel
  exact h r (mem_allRegs r)

/-- A written field keeps its size. -/
theorem fieldWritten_lt (lock : Bool) (old v : Nat) (f : RegField) : fieldWritten lock old v f < 2 ^ (f.hi + 1 - f.lo) := by
  have ho := bits_lt old f.hi f.lo
  have hv := bits_lt v f.hi f.lo
  unfold fieldWritten
  cases f.acc
  case rwl => cases lock <;> assumption
  case rw1c => exact Nat.lt_of_le_of_lt (Nat.sub_le _ _) ho
  all_goals assumption

theorem merged_eq_fieldSum (lock : Bool) {r : Reg} (old v : Nat) (hr : r ≠ .stwPkey) :
    merged lock r old v = fieldSum (fieldWritten lock old v) (regRow r).fields := by
  have hk : (r == .stwPkey) = false := by simpa using hr
  rw [merged, hk, cond_false, foldl_eq_fieldSum (fieldWritten lock old v) (fun _ _ _ => rfl), Nat.zero_add]

/-- A write leaves each field as its access kind says. -/
theorem bits_merged (lock : Bool) {r : Reg} (old v : Nat) {f : RegField} (hr : r ≠ .stwPkey) (hf : f ∈ (regRow r).fields) :
    bits (merged lock r old v) f.hi f.lo = fieldWritten lock old v f := by
  rw [merged_eq_fieldSum lock old v hr]
  exact bits_fieldSum (fieldWritten_lt lock old v) (fieldsFit_regRow r) hf

/-- The ones of a field that reads as its value. -/
def fieldMask (f : RegField) : Nat := bif f.acc == .wo || f.acc == .rsv then 0 else 2 ^ (f.hi + 1 - f.lo) - 1

theorem fieldMask_lt (f : RegField) : fieldMask f < 2 ^ (f.hi + 1 - f.lo) := by
  have hp := Nat.two_pow_pos (f.hi + 1 - f.lo)
  unfold fieldMask
  cases f.acc == .wo || f.acc == .rsv
  · exact Nat.sub_one_lt_of_lt hp
  · exact hp

theorem readMask_eq_fieldSum (r : Reg) : readMask r = fieldSum fieldMask (regRow r).fields := by
  unfold readMask
  rw [foldl_eq_fieldSum fieldMask, Nat.zero_add]
  intro f mem a
  have hlo := (fieldsFit_mem (fieldsFit_regRow r) mem).1
  unfold fieldMask
  cases f.acc == .wo || f.acc == .rsv
  · rw [cond_false, cond_false, Nat.sub_mul, Nat.one_mul, ← Nat.pow_add]
    congr 3
    omega
  · rw [cond_true, cond_true, Nat.zero_mul, Nat.add_zero]

/-- A WO or RSV field reads as zero. -/
theorem bits_readPlace_hidden (s : State) (p : Place) {f : RegField} (hf : f ∈ (regRow p.reg).fields)
    (ha : f.acc = .wo ∨ f.acc = .rsv) : bits (readPlace s p) f.hi f.lo = 0 := by
  have hm : bits (readMask p.reg) f.hi f.lo = 0 := by
    rw [readMask_eq_fieldSum, bits_fieldSum fieldMask_lt (fieldsFit_regRow p.reg) hf]
    rcases ha with ha | ha <;> rw [fieldMask, ha] <;> rfl
  unfold readPlace
  extract_lets a v
  show bits (v &&& readMask p.reg) f.hi f.lo = 0
  rw [bits_and, hm, Nat.and_zero]

/-- Settles O32: the rows of the register tables are pairwise apart, and the fields of a row fit into the 32 bits. -/
theorem registers : Obligations.Registers := by
  unfold Obligations.Registers
  refine ⟨fun r i j hi hj hl => placeAt_regAddr hi hj hl, fun lock r old v f hr hf => ?_, fun s p f hf ha =>
    bits_readPlace_hidden s p hf ha⟩
  rw [bits_merged lock old v hr hf]
  unfold fieldWritten
  cases f.acc
  case rwl => cases lock <;> rfl
  all_goals rfl

end Sys2Proof.Machine
end

section
/-! SUPPORT. Writes of registers over paths: what a served write comes to, register by register (R33, R36, R37, R13). -/

namespace Sys2Proof.Machine

/-! ## A served write -/

/-- Part time that has come to `t` stays there. -/
theorem atTime_atTime (t : Time) (s : State) : atTime t (atTime t s) = atTime t s := by
  have h : Nat.max (Nat.max s.time t) t = Nat.max s.time t := Nat.max_eq_left (Nat.le_max_right _ _)
  simp only [atTime, h]

/-- A served write is answered with the status of the access, and leaves what the access leaves. -/
theorem pathWrite_served {path : Path} {a : Nat} {v : W32} {s : State} (h : pathServed s path a v.toNat true = true) {st : Status}
    {y : State} (hy : regWriteM path a v.toNat none (pathTaken path a v.toNat s) = (st, y)) :
    pathWrite path a v none s = collStops (pathTaken path a v.toNat s) (emit (.access path (BitVec.ofNat 32 a) st 0) y) := by
  simp only [pathWrite, h, hy, Bool.not_true, cond_false]

section
variable {u : State} {path : Path} {a : Nat} {x : Place} (v : Nat) (mctp : Option (List Byte)) (hd : decoded a = true)
  (hx : placeAt a = some x)
include hd hx

/-- A path that may not write the register is refused (R36). -/
theorem regWriteM_forbidden (hm : mayWrite u path a (some x) = false) : regWriteM path a v mctp u = (0x081D, u) := by
  simp only [regWriteM, hd, hx, hm, Bool.not_true, Bool.not_false, cond_false, cond_true]

/-- A register of a fenced unit takes no write (R37). -/
theorem regWriteM_fenced (hm : mayWrite u path a (some x) = true) (hf : regFenced u a = true) :
    regWriteM path a v mctp u = (0x0304, u) := by
  simp only [regWriteM, hd, hx, hm, hf, Bool.not_true, cond_false, cond_true]

/-- A register that takes writes is written through the path. -/
theorem regWriteM_open (hm : mayWrite u path a (some x) = true) (hf : regFenced u a = false) (hw : writable x.reg = true) :
    regWriteM path a v mctp u = writeThrough (pathNo path) x v mctp u := by
  simp only [regWriteM, hd, hx, hm, hf, hw, Bool.not_true, cond_false, cond_true]

end

/-- A register that is no half of a 64-bit quantity takes a write that its block accepts. -/
theorem writeThrough_accepted {k : Nat} {x : Place} {v : Nat} (mctp : Option (List Byte)) {u : State} (hi : x.reg.hiOf = none)
    (lo : x.reg.loOf = none) (hb : blockStatus u x v = 0) : writeThrough k x v mctp u = (0, commitPlace x v mctp u) := by
  simp only [writeThrough, hi, lo, hb, beq_self_eq_true, cond_true]

/-- The served write of a register is the write through the path. -/
theorem regCommand_through {s : State} {path : Path} {r : Reg} {i j : Nat} {v : W32} (h : WritesReg s path r i j v)
    (hw : writable r = true) {st : Status} {y : State}
    (hy : writeThrough (pathNo path) ⟨r, i, j⟩ v.toNat none (fetched path r i j v s) = (st, y)) :
    regCommand path r i j v s = answered path r i j st (fetched path r i j v s) y := by
  obtain ⟨served, here, dec, may, opn⟩ := h
  unfold fetched at *
  exact pathWrite_served served ((regWriteM_open v.toNat none dec here may opn hw).trans hy)

/-- A LO register is held for its HI, unless its block refuses it (R13). -/
theorem regCommand_lo {s : State} {path : Path} {r hi : Reg} {i j : Nat} {v : W32} (h : WritesReg s path r i j v)
    (hr : r.hiOf = some hi) (hw : writable r = true) :
    regCommand path r i j v s =
      if blockStatus (fetched path r i j v s) ⟨r, i, j⟩ v.toNat = 0 then
        answered path r i j 0 (fetched path r i j v s) (heldLo path r i j v (fetched path r i j v s))
      else answered path r i j (blockStatus (fetched path r i j v s) ⟨r, i, j⟩ v.toNat) (fetched path r i j v s)
        (fetched path r i j v s) := by
  split
  case isTrue hb =>
    apply regCommand_through h hw
    simp only [writeThrough, hr, writeLo, hb, beq_self_eq_true, Bool.not_true, cond_false, BitVec.ofNat_toNat, BitVec.setWidth_eq]
    rfl
  case isFalse hb =>
    apply regCommand_through h hw
    have hb' := beq_eq_false_iff_ne.mpr hb
    simp only [writeThrough, hr, writeLo, hb', Bool.not_false, cond_true]

/-- A HI register that its block refuses. -/
theorem regCommand_hi_refused {s : State} {path : Path} {r lo : Reg} {i j : Nat} {v : W32} (h : WritesReg s path r i j v)
    (hr : r.hiOf = none) (hl : r.loOf = some lo) (hw : writable r = true)
    (hb : blockStatus (fetched path r i j v s) ⟨r, i, j⟩ v.toNat ≠ 0) :
    regCommand path r i j v s = answered path r i j (blockStatus (fetched path r i j v s) ⟨r, i, j⟩ v.toNat) (fetched path r i j v s)
        (fetched path r i j v s) := by
  apply regCommand_through h hw
  have hb' := beq_eq_false_iff_ne.mpr hb
  simp only [writeThrough, hr, hl, writeHi, hb', Bool.not_false, cond_true]

/-- A HI register takes effect, and with it the LO value that the path holds, when the block accepts both and a write of either sets off
nothing else (R13). -/
theorem regCommand_hi {s : State} {path : Path} {r lo : Reg} {i j : Nat} {v : W32} (h : WritesReg s path r i j v)
    (hr : r.hiOf = none) (hl : r.loOf = some lo) (hw : writable r = true)
    (hb : blockStatus (fetched path r i j v s) ⟨r, i, j⟩ v.toNat = 0)
    (hbl : ∀ w, tget? (pathRegs (fetched path r i j v s) (pathNo path)).held (regAddr lo i j) = some w →
      blockStatus (fetched path r i j v s) ⟨lo, i, j⟩ w.toNat = 0)
    (chi : ∀ (w : W32) u, commitPlace ⟨r, i, j⟩ w.toNat none u = written r i j w u)
    (clo : ∀ (w : W32) u, commitPlace ⟨lo, i, j⟩ w.toNat none u = written lo i j w u) :
    regCommand path r i j v s =
      answered path r i j 0 (fetched path r i j v s) (writtenHi path lo r i j v (fetched path r i j v s)) := by
  apply regCommand_through h hw
  unfold writtenHi
  cases hh : tget? (pathRegs (fetched path r i j v s) (pathNo path)).held (regAddr lo i j) with
  | none => simp only [writeThrough, hr, hl, writeHi, hb, hh, chi, beq_self_eq_true, Bool.not_true, cond_false]
  | some w =>
    have hlo := hbl w hh
    simp only [writeThrough, hr, hl, writeHi, hb, hh, hlo, chi, clo, beq_self_eq_true, Bool.not_true, cond_false]

/-! ## The registers with a rule -/

/-- The low field of a number. -/
theorem bits_zero (v h : Nat) : bits v h 0 = v % 2 ^ (h + 1) := by
  rw [bits, Nat.pow_zero, Nat.div_one, Nat.sub_zero]

/-- An accepted write of NUM_CTL; one that clears ASYEN flushes the updates (R204). -/
theorem commitPlace_numCtl (p : Nat) (v : W32) (u : State) :
    commitPlace ⟨.numCtl, p, 0⟩ v.toNat none u =
      if flag u .numCtl p 0 0 = true ∧ bit v.toNat 0 = false then assayFlush p (written .numCtl p 0 v u)
      else written .numCtl p 0 v u := by
  show (bif flag u .numCtl p 0 0 && !(bit v.toNat 0) then assayFlush p (written .numCtl p 0 v u) else written .numCtl p 0 v u) = _
  cases flag u .numCtl p 0 0 <;> cases bit v.toNat 0 <;> rfl

theorem blockStatus_schSaveq (u : State) (p j v : Nat) :
    blockStatus u ⟨.schSaveq, p, j⟩ v = if locked u .schSaveq p = true then 0 else saveqStatus u p (v % 2 ^ 16) := by
  show (bif locked u .schSaveq p then 0 else saveqStatus u p (bits v 15 0)) = _
  rw [bits_zero, Bool.cond_eq_ite]

theorem blockStatus_fabPslice (u : State) (p j v : Nat) :
    blockStatus u ⟨.fabPslice, p, j⟩ v = if locked u .fabPslice 0 = true then 0 else psliceStatus u p v :=
  Bool.cond_eq_ite ..

/-- The quota registers of the two tiers. -/
theorem blockStatus_quota (u : State) (tier2 : Bool) (p j v : Nat) :
    blockStatus u ⟨if tier2 = true then .alcT2q else .alcHbmq, p, j⟩ v =
      quotaStatus u p tier2 (if tier2 = true then v % 2 ^ 21 else v % 2 ^ 19) := by
  cases tier2
  · exact congrArg (quotaStatus u p false) (bits_zero v 18)
  · exact congrArg (quotaStatus u p true) (bits_zero v 20)

/-- A served quota write: an accepted HBM quota is held against what is available (R226, R277). -/
theorem regCommand_quota {s : State} {path : Path} {p : Nat} {tier2 : Bool} {v : W32} {r : Reg}
    (hr : r = if tier2 = true then .alcT2q else .alcHbmq) (h : WritesReg s path r p 0 v) :
    regCommand path r p 0 v s =
      let u := fetched path r p 0 v s
      let st := quotaStatus u p tier2 (if tier2 = true then v.toNat % 2 ^ 21 else v.toNat % 2 ^ 19)
      if st = 0 then answered path r p 0 0 u (if tier2 = true then written r p 0 v u else checkQuotas (written r p 0 v u))
      else answered path r p 0 st u u := by
  subst hr
  extract_lets u st
  have hst : blockStatus u ⟨if tier2 = true then .alcT2q else .alcHbmq, p, 0⟩ v.toNat = st := blockStatus_quota u tier2 p 0 v.toNat
  cases tier2 <;> rw [regCommand_writes h rfl rfl rfl, hst] <;> rfl

/-- NUM_ASYBASE_HI while ASYEN is 0 and while it is 1 (R210). -/
theorem regCommand_numAsybaseHi {s : State} {path : Path} {p : Nat} {v : W32} (h : WritesReg s path .numAsybaseHi p 0 v) :
    regCommand path .numAsybaseHi p 0 v s =
      let u := fetched path .numAsybaseHi p 0 v s
      if flag u .numCtl p 0 0 = true then answered path .numAsybaseHi p 0 0x0602 u u
      else answered path .numAsybaseHi p 0 0 u (writtenHi path .numAsybaseLo .numAsybaseHi p 0 v u) := by
  extract_lets u
  have hst : ∀ r : Reg, r = .numAsybaseHi ∨ r = .numAsybaseLo → ∀ w,
      blockStatus u ⟨r, p, 0⟩ w = failIf (flag u .numCtl p 0 0) 0x0602 := by
    rintro r (rfl | rfl) w <;> rfl
  split
  case isTrue hf =>
    have hhi : blockStatus u ⟨.numAsybaseHi, p, 0⟩ v.toNat = 0x0602 := by rw [hst _ (.inl rfl), hf]; rfl
    rw [regCommand_hi_refused h rfl rfl rfl (by rw [hhi]; decide), hhi]
  case isFalse hf =>
    have ok : failIf (flag u .numCtl p 0 0) 0x0602 = 0 := by rw [Bool.eq_false_iff.mpr hf]; rfl
    exact regCommand_hi h rfl rfl rfl ((hst _ (.inl rfl) _).trans ok) (fun w _ => (hst _ (.inr rfl) _).trans ok) (fun _ _ => rfl)
      (fun _ _ => rfl)

/-- NUM_ASYBASE_LO (R210). -/
theorem regCommand_numAsybaseLo {s : State} {path : Path} {p : Nat} {v : W32} (h : WritesReg s path .numAsybaseLo p 0 v) :
    regCommand path .numAsybaseLo p 0 v s =
      let u := fetched path .numAsybaseLo p 0 v s
      if flag u .numCtl p 0 0 = true then answered path .numAsybaseLo p 0 0x0602 u u
      else answered path .numAsybaseLo p 0 0 u (heldLo path .numAsybaseLo p 0 v u) := by
  extract_lets u
  have hst : blockStatus u ⟨.numAsybaseLo, p, 0⟩ v.toNat = failIf (flag u .numCtl p 0 0) 0x0602 := rfl
  rw [regCommand_lo h rfl rfl, hst]
  cases flag u .numCtl p 0 0 <;> rfl

/-! ## Bandwidth buckets -/

theorem partition_setRaw (r : Reg) (i j v : Nat) (s : State) (p : Nat) : partition (setRaw r i j v s) p = partition s p := rfl

section
variable (p d : Nat)

/-- The depth of the buckets is that of ALC_BW. -/
theorem bucketDepth_rebucket (g : Nat) (s : State) : bucketDepth (rebucket p d g s) p = bucketDepth s p := rfl

/-- A bucket cut to a depth has an entry, and no other entry changes. -/
theorem tokens_rebucket (g g' : Nat) (s : State) :
    tget? (partition (rebucket p d g s) p).tokens g' =
      if g' = g then some (Nat.min d (bucket s p g)) else tget? (partition s p).tokens g' := by
  rw [rebucket, partition_modPartition_self]
  split
  case isTrue hg => rw [hg, tget?_tset_self]
  case isFalse hg => exact tget?_tset_ne _ _ _ _ hg

/-- A bucket cut once to a depth is not changed by a second cut. -/
theorem min_bucket_rebucket (g g' : Nat) (s : State) : Nat.min d (bucket (rebucket p d g s) p g') = Nat.min d (bucket s p g') := by
  rw [bucket, tget, tokens_rebucket, bucketDepth_rebucket]
  by_cases hg : g' = g
  · rw [if_pos hg, Option.getD_some, hg]
    exact Nat.min_eq_right (Nat.min_le_left _ _)
  · rw [if_neg hg]; rfl

/-- The buckets of a list cut to a depth. -/
theorem tokens_foldl_rebucket (g : Nat) : ∀ (l : List Nat) (s : State),
    tget? (partition (l.foldl (fun s g => rebucket p d g s) s) p).tokens g =
      if g ∈ l then some (Nat.min d (bucket s p g)) else tget? (partition s p).tokens g
  | [], s => by rw [if_neg List.not_mem_nil]; rfl
  | a :: l, s => by
    rw [List.foldl_cons, tokens_foldl_rebucket g l, min_bucket_rebucket, tokens_rebucket]
    by_cases hl : g ∈ l
    · rw [if_pos hl, if_pos (List.mem_cons_of_mem a hl)]
    · by_cases ha : g = a
      · rw [if_neg hl, if_pos ha, ha, if_pos List.mem_cons_self]
      · rw [if_neg hl, if_neg ha, if_neg (by simp [ha, hl])]

end

/-- The depth of a partition's buckets after ALC_BW takes a value. -/
theorem bucketDepth_setRaw (p v : Nat) (s : State) :
    bucketDepth (setRaw .alcBw p 0 v s) p = Nat.max 1 (bits v 27 16) * 1024 * 8 := by
  have hb : bits (v % 2 ^ 32) 27 16 = bits v 27 16 := by
    conv => rhs; rw [← Nat.div_add_mod' v (2 ^ 32), bits_mul_add_below _ _ (by decide) (by decide)]
  rw [bucketDepth, fld, raw_setRaw_self, hb]

/-- ALC_BW takes its value, and the buckets are cut to the new depth when it is another one. -/
theorem bwWritten_eq (p v : Nat) (s : State) :
    bwWritten p v s =
      if bucketDepth (setRaw .alcBw p 0 v s) p = bucketDepth s p then setRaw .alcBw p 0 v s
      else setRaw .alcBw p 0 v ((List.range 96).foldl (fun x g => rebucket p (bucketDepth (setRaw .alcBw p 0 v s) p) g x) s) := by
  rw [bucketDepth_setRaw, bwWritten, Bool.cond_eq_ite]
  simp only [beq_iff_eq]

theorem raw_bwWritten (p v : Nat) (s : State) : raw (bwWritten p v s) .alcBw p 0 = v % 2 ^ 32 := by
  rw [bwWritten_eq]
  split <;> exact raw_setRaw_self ..

/-- When ALC_BW takes a value the buckets keep their tokens over a change of DEPTH, up to the new depth. -/
theorem bucket_bwWritten (p v : Nat) (s : State) {g : Nat} (hg : g < 96) :
    bucket (bwWritten p v s) p g = if bucketDepth (bwWritten p v s) p = bucketDepth s p then bucket s p g
      else Nat.min (bucketDepth (bwWritten p v s) p) (bucket s p g) := by
  rw [bwWritten_eq]
  generalize hd : bucketDepth (setRaw .alcBw p 0 v s) p = d
  have depth : ∀ u, bucketDepth (setRaw .alcBw p 0 v u) p = d := fun u => by rw [← hd, bucketDepth_setRaw, bucketDepth_setRaw]
  by_cases he : d = bucketDepth s p
  · rw [if_pos he, depth, if_pos he, bucket, tget, depth, partition_setRaw, he]
    rfl
  · rw [if_neg he, depth, if_neg he, bucket, tget, depth, partition_setRaw, tokens_foldl_rebucket, if_pos (List.mem_range.mpr hg),
      Option.getD_some]

/-! ## The commands -/

/-- A command that writes a register over a path, at the time of the command. -/
theorem exec_eq_of_regCommand {c : Instr} {path : Path} {r : Reg} {i j : Nat} {v : W32} {t : Time} {s y : State}
    (hc : exec c (atTime t s) = .next (regCommand path r i j v (atTime t (atTime t s))))
    (h : regCommand path r i j v (atTime t s) = y) : exec c (atTime t s) = .next y := by
  rw [hc, atTime_atTime, h]

/-- REGISTER_WRITE of an address whose register the access finds: it is answered with the status of the access. -/
theorem exec_registerWrite {path : Path} {addr v : W32} {t : Time} {s : State}
    (h : pathServed (atTime t s) path addr.toNat v.toNat true = true) {st : Status} {y : State}
    (hy : regWriteM path addr.toNat v.toNat none (pathTaken path addr.toNat v.toNat (atTime t s)) = (st, y)) :
    exec (.registerWrite path addr v t) (atTime t s) =
      .next (collStops (pathTaken path addr.toNat v.toNat (atTime t s)) (emit (.access path addr st 0) y)) := by
  show Host.Outcome.next (pathWrite path addr.toNat v none (atTime t (atTime t s))) = _
  rw [atTime_atTime, pathWrite_served h hy, BitVec.ofNat_toNat, BitVec.setWidth_eq]

/-- Settles O33, register by register from what a served write comes to. -/
theorem registerWrites : Obligations.RegisterWrites := by
  unfold Obligations.RegisterWrites
  intro path p value t s
  refine ⟨fun addr x served dec here => ⟨fun may => ?forbidden, fun may fenced => ?fenced, fun may opn hw hi lo hb => ?plain⟩,
    fun h => ?numCtl, fun h => ?schBench, fun h => ?schCtl, fun h => ?schSaveq, fun tier2 h => ?quota, fun h => ⟨fun hb => ?bwRefused,
    fun hb => ⟨commitPlace ⟨.alcBw, p, 0⟩ value.toNat none (fetched path .alcBw p 0 value (atTime t s)), ?bwTaken, ?bwRaw,
    fun g hg => bucket_bwWritten _ _ _ hg⟩⟩, fun h => ?fabPslice, fun h => ?asybaseLo, fun h => ?asybaseHi, fun r h => ?rankLo,
    fun r h hb hbl => ?rankHi⟩
  case forbidden => exact exec_registerWrite served (regWriteM_forbidden _ none dec here may)
  case fenced => exact exec_registerWrite served (regWriteM_fenced _ none dec here may fenced)
  case plain =>
    exact exec_registerWrite served ((regWriteM_open _ none dec here may opn hw).trans (writeThrough_accepted none hi lo hb))
  case numCtl =>
    refine exec_eq_of_regCommand rfl ?_
    rw [regCommand_writes h rfl rfl rfl, commitPlace_numCtl]
    rfl
  case schBench => exact exec_eq_of_regCommand rfl (regCommand_writes h rfl rfl rfl)
  case schCtl => exact exec_eq_of_regCommand rfl (regCommand_writes h rfl rfl rfl)
  case schSaveq =>
    refine exec_eq_of_regCommand rfl ?_
    rw [regCommand_writes h rfl rfl rfl, blockStatus_schSaveq]
    rfl
  case quota =>
    refine exec_eq_of_regCommand ?_ (regCommand_quota rfl h)
    cases tier2 <;> rfl
  case bwRefused =>
    refine exec_eq_of_regCommand rfl ?_
    rw [regCommand_writes h rfl rfl rfl]
    exact if_neg hb
  case bwTaken => exact exec_eq_of_regCommand rfl ((regCommand_writes h rfl rfl rfl).trans (if_pos hb))
  case bwRaw => exact (raw_bwWritten _ _ _).trans (raw_setRaw_self _ _ _ _ _).symm
  case fabPslice =>
    refine exec_eq_of_regCommand rfl ?_
    rw [regCommand_writes h rfl rfl rfl, blockStatus_fabPslice]
    rfl
  case asybaseLo => exact exec_eq_of_regCommand rfl (regCommand_numAsybaseLo h)
  case asybaseHi => exact exec_eq_of_regCommand rfl (regCommand_numAsybaseHi h)
  case rankLo => exact exec_eq_of_regCommand rfl (regCommand_lo h rfl rfl)
  case rankHi => exact exec_eq_of_regCommand rfl (regCommand_hi h rfl rfl rfl hb hbl (fun _ _ => rfl) (fun _ _ => rfl))

end Sys2Proof.Machine
end

section
/-! SUPPORT. What every command keeps: each is one of the four that can start the part, or carries the state on. -/

namespace Sys2Proof.Machine

/-- The commands that can be the start event of a reset (Table 18.6, R478). -/
def StartsPart (c : Instr) : Prop :=
  c = .powerOnReset ∨ (∃ u, c = .resetRelease u) ∨ (∃ u, c = .refclkReturn u) ∨ ∃ n, c = .vfeedRestore n

/-- Every command carries the state on, apart from those that can start the part. -/
theorem exec_carries_or_startsPart (c : Instr) (s : State) : (∃ t, exec c s = .next t ∧ Carries s t) ∨ StartsPart c :=
  match c with
  | .registerWrite path addr value t => .inl (keeps_execRegisterWrite path addr value t s)
  | .workClockUpdate sector t => .inl (keeps_execWorkClockUpdate sector t s)
  | .issueStep b t => .inl (keeps_execIssueStep b t s)
  | .streamBufferFill b => .inl (keeps_execStreamBufferFill b s)
  | .stationStart b ord => .inl (keeps_execStationStart b ord s)
  | .stationRetire b ord => .inl (keeps_execStationRetire b ord s)
  | .sadd b f => .inl (keeps_execSadd b f s)
  | .ssub b f => .inl (keeps_execSsub b f s)
  | .smul b f => .inl (keeps_execSmul b f s)
  | .sand b f => .inl (keeps_execSand b f s)
  | .sor b f => .inl (keeps_execSor b f s)
  | .sxor b f => .inl (keeps_execSxor b f s)
  | .sshl b f => .inl (keeps_execSshl b f s)
  | .sshr b f => .inl (keeps_execSshr b f s)
  | .ssra b f => .inl (keeps_execSsra b f s)
  | .smin b f => .inl (keeps_execSmin b f s)
  | .smax b f => .inl (keeps_execSmax b f s)
  | .sli b f => .inl (keeps_execSli b f s)
  | .slih b f => .inl (keeps_execSlih b f s)
  | .saddi b f => .inl (keeps_execSaddi b f s)
  | .sld b f => .inl (keeps_execSld b f s)
  | .sst b f => .inl (keeps_execSst b f s)
  | .scmp b f => .inl (keeps_execScmp b f s)
  | .plog b f => .inl (keeps_execPlog b f s)
  | .thset b f => .inl (keeps_execThset b f s)
  | .thmov b f => .inl (keeps_execThmov b f s)
  | .thget b f => .inl (keeps_execThget b f s)
  | .chopen b f => .inl (keeps_execChopen b f s)
  | .chclose b f => .inl (keeps_execChclose b f s)
  | .pbind b f => .inl (keeps_execPbind b f s)
  | .chstat b f => .inl (keeps_execChstat b f s)
  | .br b f => .inl (keeps_execBr b f s)
  | .brs b f => .inl (keeps_execBrs b f s)
  | .loop b f => .inl (keeps_execLoop b f s)
  | .call b f => .inl (keeps_execCall b f s)
  | .ret b f => .inl (keeps_execRet b f s)
  | .waitq b f => .inl (keeps_execWaitq b f s)
  | .waitp b f => .inl (keeps_execWaitp b f s)
  | .fence b f => .inl (keeps_execFence b f s)
  | .waitc b f => .inl (keeps_execWaitc b f s)
  | .yield b f => .inl (keeps_execYield b f s)
  | .endRole b f => .inl (keeps_execEnd b f s)
  | .nop b f => .inl (keeps_execNop b f s)
  | .benchid b f => .inl (keeps_execBenchid b f s)
  | .systemQueueTake b t => .inl (keeps_execSystemQueueTake b t s)
  | .segmentEnd req seg t => .inl (keeps_execSegmentEnd req seg t s)
  | .faultArbitration hub n t => .inl (keeps_execFaultArbitration hub n t s)
  | .programEnd prog t => .inl (keeps_execProgramEnd prog t s)
  | .channelWriteComplete b ch => .inl (keeps_execChannelWriteComplete b ch s)
  | .creditReturn b ch => .inl (keeps_execCreditReturn b ch s)
  | .channelCloseComplete b ch t => .inl (keeps_execChannelCloseComplete b ch t s)
  | .mma b ix => .inl (keeps_execMma b ix s)
  | .mmadr b ix => .inl (keeps_execMmadr b ix s)
  | .accld b ix => .inl (keeps_execAccld b ix s)
  | .accz b ix => .inl (keeps_execAccz b ix s)
  | .qnt b ix => .inl (keeps_execQnt b ix s)
  | .dqt b ix => .inl (keeps_execDqt b ix s)
  | .had b ix => .inl (keeps_execHad b ix s)
  | .asy b ix => .inl (keeps_execAsy b ix s)
  | .vseq b ix => .inl (keeps_execVseq b ix s)
  | .vred b ix => .inl (keeps_execVred b ix s)
  | .fxload b ix => .inl (keeps_execFxload b ix s)
  | .vfill b ix => .inl (keeps_execVfill b ix s)
  | .swt b => .inl (keeps_execSwt b s)
  | .swx b => .inl (keeps_execSwx b s)
  | .swga b => .inl (keeps_execSwga b s)
  | .swsc b => .inl (keeps_execSwsc b s)
  | .swc b => .inl (keeps_execSwc b s)
  | .cred b => .inl (keeps_execCred b s)
  | .cxsum b => .inl (keeps_execCxsum b s)
  | .sprd b ix t => .inl (keeps_execSprd b ix t s)
  | .spwr b ix t => .inl (keeps_execSpwr b ix t s)
  | .sptld b ix t => .inl (keeps_execSptld b ix t s)
  | .sptst b ix t => .inl (keeps_execSptst b ix t s)
  | .spxf b ix => .inl (keeps_execSpxf b ix s)
  | .sppf b ix => .inl (keeps_execSppf b ix s)
  | .henc b => .inl (keeps_execHenc b s)
  | .hdec b => .inl (keeps_execHdec b s)
  | .hsum b => .inl (keeps_execHsum b s)
  | .collectiveChunkFold b => .inl (keeps_execCollectiveChunkFold b s)
  | .assayUpdateApply p hub t => .inl (keeps_execAssayUpdateApply p hub t s)
  | .seedset b => .inl (keeps_execSeedset b s)
  | .asyclr b => .inl (keeps_execAsyclr b s)
  | .numhist b => .inl (keeps_execNumhist b s)
  | .asysync b => .inl (keeps_execAsysync b s)
  | .numCtlWrite path p value t => .inl (keeps_execNumCtlWrite path p value t s)
  | .numAsybaseWrite path p hi value t => .inl (keeps_execNumAsybaseWrite path p hi value t s)
  | .galloc b => .inl (keeps_execGalloc b s)
  | .gfree b => .inl (keeps_execGfree b s)
  | .palloc b t => .inl (keeps_execPalloc b t s)
  | .pfree b => .inl (keeps_execPfree b s)
  | .ppin b t => .inl (keeps_execPpin b t s)
  | .pprot b => .inl (keeps_execPprot b s)
  | .pquery b => .inl (keeps_execPquery b s)
  | .pageWalk req seg t => .inl (keeps_execPageWalk req seg t s)
  | .driftDemandFetch p vpn t => .inl (keeps_execDriftDemandFetch p vpn t s)
  | .driftFragmentArrive p vpn frag t => .inl (keeps_execDriftFragmentArrive p vpn frag t s)
  | .driftMoveComplete p vpn t => .inl (keeps_execDriftMoveComplete p vpn t s)
  | .driftDemote p t => .inl (keeps_execDriftDemote p t s)
  | .heatDecay p t => .inl (keeps_execHeatDecay p t s)
  | .frameScrub hub => .inl (keeps_execFrameScrub hub s)
  | .alcQuotaWrite path p tier2 value t => .inl (keeps_execAlcQuotaWrite path p tier2 value t s)
  | .schBenchWrite path p value t => .inl (keeps_execSchBenchWrite path p value t s)
  | .schCtlWrite path p value t => .inl (keeps_execSchCtlWrite path p value t s)
  | .schSaveqWrite path p value t => .inl (keeps_execSchSaveqWrite path p value t s)
  | .alcBwWrite path p value t => .inl (keeps_execAlcBwWrite path p value t s)
  | .tokenRefill => .inl (keeps_execTokenRefill s)
  | .launchRecordTake sess list t => .inl (keeps_execLaunchRecordTake sess list t s)
  | .programPlace p t => .inl (keeps_execProgramPlace p t s)
  | .programStart prog t => .inl (keeps_execProgramStart prog t s)
  | .roleStopAtYield prog role => .inl (keeps_execRoleStopAtYield prog role s)
  | .yieldTimeout prog t => .inl (keeps_execYieldTimeout prog t s)
  | .preemptSaveComplete prog t => .inl (keeps_execPreemptSaveComplete prog t s)
  | .restoreComplete prog t => .inl (keeps_execRestoreComplete prog t s)
  | .hbmAccess pa acc err t => .inl (keeps_execHbmAccess pa acc err t s)
  | .hbmScrub pa err wrote t => .inl (keeps_execHbmScrub pa err wrote t s)
  | .stackTempSample stack temp t => .inl (keeps_execStackTempSample stack temp t s)
  | .nearMemoryAtomic pa op operand compare => .inl (keeps_execNearMemoryAtomic pa op operand compare s)
  | .moduleParityLoss m odd t => .inl (keeps_execModuleParityLoss m odd t s)
  | .ringLoopUpdate e dir l lockErr heater temp t => .inl (keeps_execRingLoopUpdate e dir l lockErr heater temp t s)
  | .lanePowerSample e l power berHigh ber temp t => .inl (keeps_execLanePowerSample e l power berHigh ber temp t s)
  | .lossOfLight e l t => .inl (keeps_execLossOfLight e l t s)
  | .laneRetrain e dir l near far t => .inl (keeps_execLaneRetrain e dir l near far t s)
  | .laneUp e dir l berLow t => .inl (keeps_execLaneUp e dir l berLow t s)
  | .laserBiasStep e k power => .inl (keeps_execLaserBiasStep e k power s)
  | .laserFadeDeclare e k r t => .inl (keeps_execLaserFadeDeclare e k r t s)
  | .swapWarm e t => .inl (keeps_execSwapWarm e t s)
  | .swapLock e err t => .inl (keeps_execSwapLock e err t s)
  | .swapQuiesce e t => .inl (keeps_execSwapQuiesce e t s)
  | .swapSwitch e t => .inl (keeps_execSwapSwitch e t s)
  | .swapResume e t => .inl (keeps_execSwapResume e t s)
  | .swapAbandon e t => .inl (keeps_execSwapAbandon e t s)
  | .calibrationDue e why t => .inl (keeps_execCalibrationDue e why t s)
  | .calibrationWindow e k t => .inl (keeps_execCalibrationWindow e k t s)
  | .optCalnow path e value t => .inl (keeps_execOptCalnow path e value t s)
  | .optPark path e value t => .inl (keeps_execOptPark path e value t s)
  | .optSwapReq path e value t => .inl (keeps_execOptSwapReq path e value t s)
  | .optSwapUnfence path e value t => .inl (keeps_execOptSwapUnfence path e value t s)
  | .fibreOpenDetect e f => .inl (keeps_execFibreOpenDetect e f s)
  | .shutterProbe e f found => .inl (keeps_execShutterProbe e f found s)
  | .engineCoreRestart e t => .inl (keeps_execEngineCoreRestart e t s)
  | .helloSend e f k t => .inl (keeps_execHelloSend e f k t s)
  | .helloReceive e f k h t => .inl (keeps_execHelloReceive e f k h t s)
  | .discoveryComplete t => .inl (keeps_execDiscoveryComplete t s)
  | .packetInject p pkt t => .inl (keeps_execPacketInject p pkt t s)
  | .packetArrive link pkt t => .inl (keeps_execPacketArrive link pkt t s)
  | .fabSwap path value t => .inl (keeps_execFabSwap path value t s)
  | .fabForce path value t => .inl (keeps_execFabForce path value t s)
  | .drainMarkerArrive link typ stage t => .inl (keeps_execDrainMarkerArrive link typ stage t s)
  | .drainRelease t => .inl (keeps_execDrainRelease t s)
  | .drainWarnTimeout t => .inl (keeps_execDrainWarnTimeout t s)
  | .flitReceive link flit wire fec t => .inl (keeps_execFlitReceive link flit wire fec t s)
  | .flitGapTimeout link t => .inl (keeps_execFlitGapTimeout link t s)
  | .replayTimeout link t => .inl (keeps_execReplayTimeout link t s)
  | .nakReceive link ack t => .inl (keeps_execNakReceive link ack t s)
  | .linkFailure link t => .inl (keeps_execLinkFailure link t s)
  | .weatherRecord lanes t => .inl (keeps_execWeatherRecord lanes t s)
  | .weatherAppend bytes => .inl (keeps_execWeatherAppend bytes s)
  | .fabPsliceWrite path p value t => .inl (keeps_execFabPsliceWrite path p value t s)
  | .rld b t => .inl (keeps_execRld b t s)
  | .rst b t => .inl (keeps_execRst b t s)
  | .ramo b t => .inl (keeps_execRamo b t s)
  | .rput b t => .inl (keeps_execRput b t s)
  | .rget b t => .inl (keeps_execRget b t s)
  | .rown b t => .inl (keeps_execRown b t s)
  | .rankTableWrite path p r hi value t => .inl (keeps_execRankTableWrite path p r hi value t s)
  | .requestArrive pkt t => .inl (keeps_execRequestArrive pkt t s)
  | .requestApply src seq t => .inl (keeps_execRequestApply src seq t s)
  | .responseArrive pkt t => .inl (keeps_execResponseArrive pkt t s)
  | .nackResend tag t => .inl (keeps_execNackResend tag t s)
  | .remoteRetransmit tag notice t => .inl (keeps_execRemoteRetransmit tag notice t s)
  | .floorSend home t => .inl (keeps_execFloorSend home t s)
  | .rmaPurge path value t => .inl (keeps_execRmaPurge path value t s)
  | .gatewayForward g t => .inl (keeps_execGatewayForward g t s)
  | .gatewayConnectionLost rdom t => .inl (keeps_execGatewayConnectionLost rdom t s)
  | .cbar b t => .inl (keeps_execCbar b t s)
  | .csred b t => .inl (keeps_execCsred b t s)
  | .ctar b t => .inl (keeps_execCtar b t s)
  | .ctrs b t => .inl (keeps_execCtrs b t s)
  | .ctag b t => .inl (keeps_execCtag b t s)
  | .ctbc b t => .inl (keeps_execCtbc b t s)
  | .signatureArrive p src msg t => .inl (keeps_execSignatureArrive p src msg t s)
  | .notReadyResend p group seq member t => .inl (keeps_execNotReadyResend p group seq member t s)
  | .goArrive p msg t => .inl (keeps_execGoArrive p msg t s)
  | .chunkArrive p src msg t => .inl (keeps_execChunkArrive p src msg t s)
  | .collectiveAbort p msg t => .inl (keeps_execCollectiveAbort p msg t s)
  | .collectiveTimeout p group seq member t => .inl (keeps_execCollectiveTimeout p group seq member t s)
  | .collectiveResend p dst msg t => .inl (keeps_execCollectiveResend p dst msg t s)
  | .openSession qp part key t => .inl (keeps_execOpen qp part key t s)
  | .attach qp sess token key t => .inl (keeps_execAttach qp sess token key t s)
  | .close qp force t => .inl (keeps_execClose qp force t s)
  | .heartbeat qp t => .inl (keeps_execHeartbeat qp t s)
  | .regread qp addrs t => .inl (keeps_execRegread qp addrs t s)
  | .regwrite qp writes t => .inl (keeps_execRegwrite qp writes t s)
  | .mrreg qp base len access t => .inl (keeps_execMrreg qp base len access t s)
  | .mrdereg qp rkey t => .inl (keeps_execMrdereg qp rkey t s)
  | .intakeAdd qp base entries cap notify t => .inl (keeps_execIntakeAdd qp base entries cap notify t s)
  | .intakeDel qp list t => .inl (keeps_execIntakeDel qp list t s)
  | .cancel qp list record force t => .inl (keeps_execCancel qp list record force t s)
  | .evsub qp severity t => .inl (keeps_execEvsub qp severity t s)
  | .gwconn qp rdom addr port t => .inl (keeps_execGwconn qp rdom addr port t s)
  | .messageReceive qp m t => .inl (keeps_execMessageReceive qp m t s)
  | .leaseCheck t => .inl (keeps_execLeaseCheck t s)
  | .orphrunExpire sess t => .inl (keeps_execOrphrunExpire sess t s)
  | .holdExpire sess t => .inl (keeps_execHoldExpire sess t s)
  | .sessionFreed sess t => .inl (keeps_execSessionFreed sess t s)
  | .tailNotice sess list t => .inl (keeps_execTailNotice sess list t s)
  | .rdmaDataAccess qp rkey va write len t => .inl (keeps_execRdmaDataAccess qp rkey va write len t s)
  | .statusWindowRead qp rkey addr len t => .inl (keeps_execStatusWindowRead qp rkey addr len t s)
  | .hostFrameReceive port fr t => .inl (keeps_execHostFrameReceive port fr t s)
  | .cnpReceive qp t => .inl (keeps_execCnpReceive qp t s)
  | .ceMarkReceive qp t => .inl (keeps_execCeMarkReceive qp t s)
  | .cnpRateRecover qp t => .inl (keeps_execCnpRateRecover qp t s)
  | .connectionRequest port ask t => .inl (keeps_execConnectionRequest port ask t s)
  | .hostPortLinkDown port t => .inl (keeps_execHostPortLinkDown port t s)
  | .watchdogExpire ix t => .inl (keeps_execWatchdogExpire ix t s)
  | .fwpRestart path value t => .inl (keeps_execFwpRestart path value t s)
  | .fwpUnfence path value t => .inl (keeps_execFwpUnfence path value t s)
  | .processorRestartDone ix t => .inl (keeps_execProcessorRestartDone ix t s)
  | .stewardFailover ix t => .inl (keeps_execStewardFailover ix t s)
  | .bootStart straps t => .inl (keeps_execBootStart straps t s)
  | .bootImagesVerified t => .inl (keeps_execBootImagesVerified t s)
  | .identityKeysReady t => .inl (keeps_execIdentityKeysReady t s)
  | .trialTimeout t => .inl (keeps_execTrialTimeout t s)
  | .updStage path value mctp t => .inl (keeps_execUpdStage path value mctp t s)
  | .updActivateLive path value t => .inl (keeps_execUpdActivateLive path value t s)
  | .updActivateReset path value t => .inl (keeps_execUpdActivateReset path value t s)
  | .updCommit path value t => .inl (keeps_execUpdCommit path value t s)
  | .updAbort path value t => .inl (keeps_execUpdAbort path value t s)
  | .emergencyHoldoffEnd t => .inl (keeps_execEmergencyHoldoffEnd t s)
  | .liveActivationStep ok t => .inl (keeps_execLiveActivationStep ok t s)
  | .attExtend path value t => .inl (keeps_execAttExtend path value t s)
  | .attOwnerEnrol path value t => .inl (keeps_execAttOwnerEnrol path value t s)
  | .attOwnerRevoke path value t => .inl (keeps_execAttOwnerRevoke path value t s)
  | .getVersion src t => .inl (keeps_execGetVersion src t s)
  | .getCapabilities src t => .inl (keeps_execGetCapabilities src t s)
  | .negotiateAlgorithms src rsa3072 sha384 t => .inl (keeps_execNegotiateAlgorithms src rsa3072 sha384 t s)
  | .getDigests src t => .inl (keeps_execGetDigests src t s)
  | .getCertificate src slot offset len t => .inl (keeps_execGetCertificate src slot offset len t s)
  | .challenge src slot nonce t => .inl (keeps_execChallenge src slot nonce t s)
  | .getMeasurements src index signed nonce t => .inl (keeps_execGetMeasurements src index signed nonce t s)
  | .spdmUnsupported src code t => .inl (keeps_execSpdmUnsupported src code t s)
  | .spdmSignComplete t => .inl (keeps_execSpdmSignComplete t s)
  | .spdmTcpConnect port t => .inl (keeps_execSpdmTcpConnect port t s)
  | .avsbusReadback mv amps t => .inl (keeps_execAvsbusReadback mv amps t s)
  | .packagePowerSample sectorMw rails t => .inl (keeps_execPackagePowerSample sectorMw rails t s)
  | .ladderStep sector amps t => .inl (keeps_execLadderStep sector amps t s)
  | .rateEvaluate sector sensors t => .inl (keeps_execRateEvaluate sector sensors t s)
  | .pwrBrake low t => .inl (keeps_execPwrBrake low t s)
  | .converterFault active confirmed t => .inl (keeps_execConverterFault active confirmed t s)
  | .regulatorFault sector t => .inl (keeps_execRegulatorFault sector t s)
  | .thermalTrip sensor temp t => .inl (keeps_execThermalTrip sensor temp t s)
  | .pathMonitorAlarm sector slack t => .inl (keeps_execPathMonitorAlarm sector slack t s)
  | .marginPlanCompute entries refresh vfeed lasers heaters t => .inl (keeps_execMarginPlanCompute entries refresh vfeed lasers heaters t s)
  | .ageNow path value t => .inl (keeps_execAgeNow path value t s)
  | .planApply sector t => .inl (keeps_execPlanApply sector t s)
  | .calStore path value t => .inl (keeps_execCalStore path value t s)
  | .calApply path value t => .inl (keeps_execCalApply path value t s)
  | .calClear path value t => .inl (keeps_execCalClear path value t s)
  | .errFence path value t => .inl (keeps_execErrFence path value t s)
  | .errUnfence path value t => .inl (keeps_execErrUnfence path value t s)
  | .fenceCause kind index cause t => .inl (keeps_execFenceCause kind index cause t s)
  | .drainEnd kind index t => .inl (keeps_execDrainEnd kind index t s)
  | .recoveryEnd kind index pass failed t => .inl (keeps_execRecoveryEnd kind index pass failed t s)
  | .uncontainedError kind index t => .inl (keeps_execUncontainedError kind index t s)
  | .census b t => .inl (keeps_execCensus b t s)
  | .errCensusGo path value t => .inl (keeps_execErrCensusGo path value t s)
  | .censusComplete t => .inl (keeps_execCensusComplete t s)
  | .evpost b t => .inl (keeps_execEvpost b t s)
  | .eventRaise code sev part unit data t => .inl (keeps_execEventRaise code sev part unit data t s)
  | .telemetryQueueLeave t => .inl (keeps_execTelemetryQueueLeave t s)
  | .ndlGroupReceive m dir group checkOk ack t => .inl (keeps_execNdlGroupReceive m dir group checkOk ack t s)
  | .ndlRetrain m dir r0 r1 inTime t => .inl (keeps_execNdlRetrain m dir r0 r1 inTime t s)
  | .ndlAutoRecover m t => .inl (keeps_execNdlAutoRecover m t s)
  | .dieLinkTrain m r0 r1 t => .inl (keeps_execDieLinkTrain m r0 r1 t s)
  | .ucieDiscovery id rate narrow t => .inl (keeps_execUcieDiscovery id rate narrow t s)
  | .ucieAccess a t => .inl (keeps_execUcieAccess a t s)
  | .ucieModuleDown m t => .inl (keeps_execUcieModuleDown m t s)
  | .dbgLoop path value t => .inl (keeps_execDbgLoop path value t s)
  | .dbgP1500 path value t => .inl (keeps_execDbgP1500 path value t s)
  | .powerOnReset => .inr (.inl rfl)
  | .boardReset t => .inl (keeps_execBoardReset t s)
  | .pwrokFall t => .inl (keeps_execPwrokFall t s)
  | .internalReset cause t => .inl (keeps_execInternalReset cause t s)
  | .refclkLoss t => .inl (keeps_execRefclkLoss t s)
  | .refclkHoldoverExpire t => .inl (keeps_execRefclkHoldoverExpire t s)
  | .refclkReturn _ => .inr (.inr (.inr (.inl ⟨_, rfl⟩)))
  | .pllLock t => .inl (keeps_execPllLock t s)
  | .regulatorsUp t => .inl (keeps_execRegulatorsUp t s)
  | .identityRead tray stratus lsms converters t => .inl (keeps_execIdentityRead tray stratus lsms converters t s)
  | .laserEnable e t => .inl (keeps_execLaserEnable e t s)
  | .lsmPresenceChange e present t => .inl (keeps_execLsmPresenceChange e present t s)
  | .hbmTrainingDone fails t => .inl (keeps_execHbmTrainingDone fails t s)
  | .hostPortsTrained up t => .inl (keeps_execHostPortsTrained up t s)
  | .laneAbsentTimeout e f k t => .inl (keeps_execLaneAbsentTimeout e f k t s)
  | .vfeedRestore _ => .inr (.inr (.inr (.inr ⟨_, rfl⟩)))
  | .resetRelease _ => .inr (.inr (.inl ⟨_, rfl⟩))
  | .hostPortLinkUp port t => .inl (keeps_execHostPortLinkUp port t s)
  | .moduleFailureReport m t => .inl (keeps_execModuleFailureReport m t s)
  | .updStageComplete flashOk t => .inl (keeps_execUpdStageComplete flashOk t s)
  | .commitComplete t => .inl (keeps_execCommitComplete t s)
  | .calCommandComplete flashOk t => .inl (keeps_execCalCommandComplete flashOk t s)
  | .dbgLoopComplete first errs t => .inl (keeps_execDbgLoopComplete first errs t s)
  | .dbgP1500Complete pass t => .inl (keeps_execDbgP1500Complete pass t s)
  | .quantumExpire prog t => .inl (keeps_execQuantumExpire prog t s)
  | .lsmHoursUpdate e ok t => .inl (keeps_execLsmHoursUpdate e ok t s)

/-- Every command, those that start the part included, answers a next state and keeps what `Keeps` names. -/
theorem exec_keeps (c : Instr) (s : State) : ∃ t, exec c s = .next t ∧ Keeps s t := by
  rcases exec_carries_or_startsPart c s with ⟨t, ht, h⟩ | rfl | ⟨u, rfl⟩ | ⟨u, rfl⟩ | ⟨n, rfl⟩
  · exact ⟨t, ht, h.toKeeps⟩
  · exact keeps_execPowerOnReset s
  · exact keeps_execResetRelease u s
  · exact keeps_execRefclkReturn u s
  · exact keeps_execVfeedRestore n s

/-! ## Part time over the commands that start the part -/

/-- Part time starts at zero or does not step back. -/
def TimeRuns (s t : State) : Prop := t.time = 0 ∨ s.time ≤ t.time

theorem timeRuns_startEvent (s u : State) : TimeRuns s (startEvent u) := .inl rfl

theorem timeRuns_atTime (t : Time) (s : State) : TimeRuns s (atTime t s) := .inr (Nat.le_max_left ..)

theorem timeRuns_powerOn (s : State) : TimeRuns s (powerOn s) := by
  unfold powerOn
  cases s.rstLow
  · exact timeRuns_startEvent s _
  · exact .inr (carries_resetBlock (some .board) s (Carries.refl s)).time

theorem timeRuns_resetRelease {s u : State} (h : TimeRuns s u) : TimeRuns s (resetRelease u) := by
  unfold resetRelease
  split
  · exact timeRuns_startEvent s _
  · cases Nat.ble (u.resetAt + 1000000) u.time
    · exact h
    · cases u.rstLow
      · exact timeRuns_startEvent s _
      · exact h
  · exact h

theorem timeRuns_refclkReturn {s u : State} (h : TimeRuns s u) : TimeRuns s (refclkReturn u) := by
  unfold refclkReturn
  dsimp only
  split
  · exact timeRuns_startEvent s _
  · exact h

theorem timeRuns_vfeedRestore (n : Nat) (s : State) : TimeRuns s (vfeedRestore n s) := by
  unfold vfeedRestore
  cases Nat.ble 100000000 n
  · exact .inr (Nat.le_refl _)
  · exact timeRuns_startEvent s _

/-- Part time over a command that can start the part. -/
theorem exec_timeRuns_of_startsPart {c : Instr} (hc : StartsPart c) (s : State) : ∃ t, exec c s = .next t ∧ TimeRuns s t := by
  rcases hc with rfl | ⟨u, rfl⟩ | ⟨u, rfl⟩ | ⟨n, rfl⟩
  · exact ⟨_, rfl, timeRuns_powerOn s⟩
  · exact ⟨_, rfl, timeRuns_resetRelease (timeRuns_atTime u s)⟩
  · exact ⟨_, rfl, timeRuns_refclkReturn (timeRuns_atTime u s)⟩
  · exact ⟨_, rfl, timeRuns_vfeedRestore n s⟩

/-! ## The statements -/

/-- Settles O3, from what every command keeps; the queue, what has been sent and the free values are the model's own (log entries 4, 6
and 7). -/
theorem everyCommandAnswers : Obligations.EveryCommandAnswers := by
  unfold Obligations.EveryCommandAnswers
  intro c s
  obtain ⟨t, ht, h⟩ := exec_keeps c s
  exact ⟨t, ht, h.pending, h.out, h.free⟩

/-- Settles O6: a command carries part time on, or is one of the four that can start the part. -/
theorem timeNeverStepsBack : Obligations.TimeNeverStepsBack := by
  unfold Obligations.TimeNeverStepsBack
  intro c s t ht
  rcases exec_carries_or_startsPart c s with ⟨u, hu, h⟩ | hc
  · cases hu.symm.trans ht
    exact .inl h.time
  · obtain ⟨u, hu, h⟩ := exec_timeRuns_of_startsPart hc s
    cases hu.symm.trans ht
    exact .inr ⟨hc, h⟩

/-- Settles O1, by the definition of a step; the queue and the idle step are the model's choice (log entries 2 and 3). -/
theorem stepTakesTheFront : Obligations.StepTakesTheFront := by
  unfold Obligations.StepTakesTheFront
  refine ⟨fun c rest s => rfl, fun s h => ?_⟩
  unfold step
  rw [h]

end Sys2Proof.Machine
end

section
/-! SUPPORT. What stays in the control registers when others are written, and over a fold of steps. -/

namespace Sys2Proof.Machine

/-! ## Folds of steps -/

section
variable {α : Type} {R : State → State → Prop} (refl : ∀ s, R s s) (trans : ∀ {s t u}, R s t → R t u → R s u) {f : State → α → State}
include refl trans

/-- A relation that holds over every step of a fold holds over the fold. -/
theorem rel_foldl {l : List α} (step : ∀ x ∈ l, ∀ s, R s (f s x)) (s : State) : R s (l.foldl f s) := by
  induction l generalizing s with
  | nil => exact refl s
  | cons x l ih =>
    exact trans (step x List.mem_cons_self s) (ih (fun y hy => step y (List.mem_cons_of_mem x hy)) (f s x))

/-- The step of a fold for one entry: the relation holds over the steps before it and over those after it. -/
theorem rel_foldl_at {l : List α} (step : ∀ x ∈ l, ∀ s, R s (f s x)) {x : α} (hx : x ∈ l) (s : State) :
    ∃ u, R s u ∧ R (f u x) (l.foldl f s) := by
  obtain ⟨a, b, rfl⟩ := List.append_of_mem hx
  refine ⟨a.foldl f s, rel_foldl refl trans (fun y hy => step y (by simp [hy])) s, ?_⟩
  rw [List.foldl_append, List.foldl_cons]
  exact rel_foldl refl trans (fun y hy => step y (by simp [hy])) _

end

/-! ## Places of registers -/

/-- Place (i, j) of the register exists: it is the one found at its address. -/
def Stands (r : Reg) (i j : Nat) : Prop := placeAt (regAddr r i j) = some ⟨r, i, j⟩

theorem stands_of_lt {r : Reg} {i j : Nat} (hi : i < (regRow r).n1) (hj : j < (regRow r).n2) (hl : noLane ⟨r, i, j⟩ = false) :
    Stands r i j :=
  placeAt_regAddr hi hj hl

/-- The lanes of an engine, 8 of a host engine, have their registers. -/
theorem stands_laneReg {e d l : Nat} (he : e < 12) (hl : l < engineLanes e) : Stands (laneReg d) e l := by
  have hn : noLane ⟨laneReg d, e, l⟩ = false := by
    unfold noLane isHostEngine
    unfold engineLanes at hl
    cases hh : Nat.ble 10 e
    · rw [Bool.and_false, Bool.false_and]
    · rw [hh, cond_true] at hl
      have : Nat.ble 8 l = false := by rw [Bool.eq_false_iff, ne_eq, Nat.ble_eq]; omega
      rw [this, Bool.and_false]
  have h64 : l < 64 := by
    unfold engineLanes at hl
    cases hh : Nat.ble 10 e <;> rw [hh] at hl
    · exact hl
    · exact Nat.lt_of_lt_of_le hl (by decide)
  unfold laneReg at hn ⊢
  cases hd : d == 0 <;> rw [hd] at hn <;> exact stands_of_lt he h64 hn

/-- Places that are not the same have addresses of their own. -/
theorem regAddr_ne_of_stands {r r' : Reg} {i j i' j' : Nat} (h : Stands r i j) (h' : Stands r' i' j')
    (hne : Place.mk r i j ≠ ⟨r', i', j'⟩) : regAddr r i j ≠ regAddr r' i' j' := by
  intro e
  unfold Stands at h h'
  rw [e, h', Option.some.injEq] at h
  exact hne h.symm

/-! ## Registers that keep their values -/

/-- Every register but those of a list keeps its value. -/
def KeepsRegs (w : List Reg) (s t : State) : Prop := ∀ r i j, Stands r i j → r ∉ w → raw t r i j = raw s r i j

theorem KeepsRegs.refl (w : List Reg) (s : State) : KeepsRegs w s s := fun _ _ _ _ _ => rfl

theorem KeepsRegs.trans {w : List Reg} {s t u : State} (h : KeepsRegs w s t) (g : KeepsRegs w t u) : KeepsRegs w s u :=
  fun r i j hr hw => (g r i j hr hw).trans (h r i j hr hw)

theorem KeepsRegs.mono {w w' : List Reg} {s t : State} (hw : w ⊆ w') (h : KeepsRegs w s t) : KeepsRegs w' s t :=
  fun r i j hr hn => h r i j hr (fun hm => hn (hw hm))

/-- A state with the same registers. -/
theorem KeepsRegs.of_ctl {s t : State} (w : List Reg) (h : t.ctl = s.ctl) : KeepsRegs w s t := fun r i j _ _ => by
  unfold raw
  rw [h]

theorem keepsRegs_setRaw {w : List Reg} {r : Reg} {i j : Nat} (hr : Stands r i j) (hw : r ∈ w) (v : Nat) (s : State) :
    KeepsRegs w s (setRaw r i j v s) := by
  intro r' i' j' hs hn
  refine raw_setRaw_ne s v (regAddr_ne_of_stands hs hr fun e => ?_)
  rw [Place.mk.injEq] at e
  exact hn (e.1 ▸ hw)

theorem keepsRegs_setFld {w : List Reg} {r : Reg} {i j : Nat} (hr : Stands r i j) (hw : r ∈ w) (h l v : Nat) (s : State) :
    KeepsRegs w s (setFld r i j h l v s) :=
  keepsRegs_setRaw hr hw _ s

theorem keepsRegs_bumpFld {w : List Reg} {r : Reg} {i j : Nat} (hr : Stands r i j) (hw : r ∈ w) (h l n : Nat) (s : State) :
    KeepsRegs w s (bumpFld r i j h l n s) :=
  keepsRegs_setFld hr hw h l _ s

/-- Some registers of a list take other values, and nothing else changes. -/
structure WritesRegs (w : List Reg) (s t : State) : Prop where
  rest : ∃ c, t = { s with ctl := c }
  regs : KeepsRegs w s t

theorem WritesRegs.refl (w : List Reg) (s : State) : WritesRegs w s s := ⟨⟨s.ctl, rfl⟩, KeepsRegs.refl w s⟩

theorem WritesRegs.trans {w : List Reg} {s t u : State} (h : WritesRegs w s t) (g : WritesRegs w t u) : WritesRegs w s u := by
  obtain ⟨⟨c, rfl⟩, hr⟩ := h
  obtain ⟨⟨c', rfl⟩, gr⟩ := g
  exact ⟨⟨c', rfl⟩, hr.trans gr⟩

theorem writesRegs_setFld {w : List Reg} {r : Reg} {i j : Nat} (hr : Stands r i j) (hw : r ∈ w) (h l v : Nat) (s : State) :
    WritesRegs w s (setFld r i j h l v s) :=
  ⟨⟨_, rfl⟩, keepsRegs_setFld hr hw h l v s⟩

/-- A field of a register that keeps its value. -/
theorem KeepsRegs.fld_eq {w : List Reg} {s t : State} (h : KeepsRegs w s t) {r : Reg} {i j : Nat} (hr : Stands r i j) (hw : r ∉ w)
    (hi lo : Nat) : fld t r i j hi lo = fld s r i j hi lo := by
  rw [fld, h r i j hr hw, fld]

theorem KeepsRegs.flag_eq {w : List Reg} {s t : State} (h : KeepsRegs w s t) {r : Reg} {i j : Nat} (hr : Stands r i j) (hw : r ∉ w)
    (n : Nat) : flag t r i j n = flag s r i j n := by
  rw [flag, h r i j hr hw, flag]

/-! ## One-bit fields -/

/-- A flag is its one-bit field. -/
theorem flag_eq_fld (s : State) (r : Reg) (i j n : Nat) : flag s r i j n = (fld s r i j n n == 1) := by
  rw [flag, fld, bit, bits, Nat.add_sub_cancel_left, Nat.pow_one]

theorem flag_setFld_one (s : State) (r : Reg) (i j : Nat) {n : Nat} (hn : n < 32) : flag (setFld r i j n n 1 s) r i j n = true := by
  rw [flag_eq_fld, fld_setFld_self s r i j 1 (Nat.le_refl n) hn, Nat.add_sub_cancel_left]
  rfl

/-- Setting a flag clears no flag of the register. -/
theorem flag_setFld_one_of_flag {s : State} {r : Reg} {i j m : Nat} (h : flag s r i j m = true) {n : Nat} (hn : n < 32) :
    flag (setFld r i j n n 1 s) r i j m = true := by
  rcases Nat.lt_trichotomy m n with hlt | rfl | hgt
  · rw [flag_eq_fld, fld_setFld_below s r i j 1 (Nat.le_refl n) hn hlt (Nat.le_refl m), ← flag_eq_fld, h]
  · exact flag_setFld_one s r i j hn
  · rw [flag_eq_fld, fld_setFld_above s r i j 1 (Nat.le_refl n) hn hgt, ← flag_eq_fld, h]

/-! ## Events -/

/-- The registers in which the event queue counts and holds (R505). -/
def eventRegs : List Reg :=
  [.telCond, .telLosti, .telLostw, .telOvff, .telOvfe, .telDropt, .errFatal, .errFatunit, .errFattimeLo, .errFattimeHi]

theorem stands_eventRegs {r : Reg} (h : r ∈ eventRegs) : Stands r 0 0 := by
  have ok : ∀ r ∈ eventRegs, 0 < (regRow r).n1 ∧ 0 < (regRow r).n2 ∧ noLane ⟨r, 0, 0⟩ = false := by decide
  obtain ⟨hi, hj, hl⟩ := ok r h
  exact stands_of_lt hi hj hl

/-- An event changes the event queue and its registers, and nothing else. -/
structure Tells (s t : State) : Prop where
  rest : ∃ c q, t = { s with ctl := c, telQ := q }
  regs : KeepsRegs eventRegs s t

theorem Tells.refl (s : State) : Tells s s := ⟨⟨s.ctl, s.telQ, rfl⟩, KeepsRegs.refl _ s⟩

theorem Tells.trans {s t u : State} (h : Tells s t) (g : Tells t u) : Tells s u := by
  obtain ⟨⟨c, q, rfl⟩, hr⟩ := h
  obtain ⟨⟨c', q', rfl⟩, gr⟩ := g
  exact ⟨⟨c', q', rfl⟩, hr.trans gr⟩

theorem tells_setRaw {r : Reg} (hr : r ∈ eventRegs) (v : Nat) (s : State) : Tells s (setRaw r 0 0 v s) :=
  ⟨⟨_, s.telQ, rfl⟩, keepsRegs_setRaw (stands_eventRegs hr) hr v s⟩

theorem tells_bump {r : Reg} (hr : r ∈ eventRegs) (n : Nat) (s : State) : Tells s (bump r 0 0 n s) := tells_setRaw hr _ s

theorem tells_queue (q : List QueuedRecord) (s : State) : Tells s { s with telQ := q } :=
  ⟨⟨s.ctl, q, rfl⟩, KeepsRegs.of_ctl _ rfl⟩

theorem tells_enqueue (r : TelRecord) (c : Nat) (s : State) : Tells s (enqueue r c s) := tells_queue _ s

theorem tells_cond {s a b : State} {c : Bool} (ha : Tells s a) (hb : Tells s b) : Tells s (bif c then a else b) := by
  cases c
  · exact hb
  · exact ha

theorem tells_foldOr (r : TelRecord) {lost : Reg} (hl : lost ∈ eventRegs) (s : State) : Tells s (foldOr r lost s) :=
  tells_cond ((tells_queue _ s).trans (tells_bump (by decide) 1 _)) (tells_cond (tells_enqueue r 0 s) (tells_bump hl 1 s))

theorem tells_holdFatal (r : TelRecord) (s : State) : Tells s (holdFatal r s) :=
  tells_cond (Tells.refl s) <|
    (((tells_setRaw (by decide) _ s).trans (tells_setRaw (by decide) _ _)).trans (tells_setRaw (by decide) _ _)).trans
      (tells_setRaw (by decide) _ _)

/-- Raising an event tells it, whatever its severity. -/
theorem tells_raise (code : BitVec 16) (sev : Nat) (part : Option Nat) (unit : Nat) (data : W64) (s : State) :
    Tells s (raise code sev part unit data s) := by
  unfold raise
  extract_lets r u
  split
  next =>
    refine (tells_holdFatal r s).trans (tells_cond (tells_enqueue r 0 _) (tells_cond (tells_enqueue r 1 _)
      (tells_cond (tells_enqueue r 2 _) (tells_bump (by decide) 1 _))))
  next => exact tells_cond (tells_enqueue r 0 s) (tells_cond (tells_enqueue r 1 s) (tells_bump (by decide) 1 s))
  next => exact tells_cond (tells_foldOr r (by decide) s) (tells_enqueue r 0 s)
  next => exact tells_cond (tells_foldOr r (by decide) s) (tells_enqueue r 0 s)
  next => exact tells_cond (tells_cond (tells_bump (by decide) 1 s) (tells_enqueue r 0 s)) (Tells.refl s)

end Sys2Proof.Machine
end

section
/-! SUPPORT. Resets: what a reset and the start event leave (R530, R542 to R544). -/

namespace Sys2Proof.Machine

/-- The registers that show flash and OTP. -/
def attRegs : List Reg := [.attBoot, .attSvn, .attKeys]

/-- Showing flash and OTP writes its registers only. -/
theorem writesRegs_showAtt (s : State) : WritesRegs attRegs s (showAtt s) := by
  have boot := fun h l v s => writesRegs_setFld (stands_of_lt (r := .attBoot) (i := 0) (j := 0) (by decide) (by decide) rfl)
    (show .attBoot ∈ attRegs by decide) h l v s
  have svn := fun h l v s => writesRegs_setFld (stands_of_lt (r := .attSvn) (i := 0) (j := 0) (by decide) (by decide) rfl)
    (show .attSvn ∈ attRegs by decide) h l v s
  have keys := fun h l v s => writesRegs_setFld (stands_of_lt (r := .attKeys) (i := 0) (j := 0) (by decide) (by decide) rfl)
    (show .attKeys ∈ attRegs by decide) h l v s
  unfold showAtt
  extract_lets r act other s1 s2 s3 s4
  have h2 : WritesRegs attRegs s s2 := (boot 31 16 _ s).trans <| (boot 3 3 _ s1).trans <| (boot 0 0 _ _).trans (boot 7 7 _ _)
  have h3 : WritesRegs attRegs s s3 := h2.trans <| (svn 6 0 _ s2).trans (svn 15 8 _ _)
  have h4 : WritesRegs attRegs s s4 := by
    show WritesRegs attRegs s (bif s3.verified then _ else s3)
    cases s3.verified
    · exact h3
    · exact h3.trans (svn 23 16 _ s3)
  exact h4.trans <| (keys 7 4 _ s4).trans <| (keys 11 8 _ _).trans (keys 15 12 _ _)

/-- The fuses that a COMMIT cut short blows are the only thing it changes, but for the free values that say which. -/
theorem cutShort_rest (s : State) : ∃ n o, cutShort s = { s with free := n, otp := o } := by
  unfold cutShort
  split
  · exact ⟨_, _, rfl⟩
  · exact ⟨s.free, s.otp, rfl⟩

/-- Without a COMMIT there is nothing to cut short. -/
theorem cutShort_of_ne {s : State} (h : s.update ≠ some .commit) : cutShort s = s := by
  unfold cutShort
  split
  next hc => exact absurd hc h
  next => rfl

/-- The state of a reset before its registers show flash and OTP. -/
def cleared (cause : Option ResetCause) (s : State) : State :=
  { State.reset with
    time := s.time, free := s.free, out := s.out, pending := s.pending, flash := { s.flash with hours := ageHours s }, otp := s.otp,
    tripped := s.tripped, rstLow := s.rstLow, inReset := cause, resetAt := s.time,
    ctl := (bif s.tripped then [(regAddr .thmTrip 0 0, BitVec.ofNat 32 (raw s .thmTrip 0 0))] else []) }

/-- A reset leaves the cleared state, in whose registers flash and OTP show. -/
theorem resetBlock_eq (cause : Option ResetCause) (s : State) : resetBlock cause s = showAtt (cleared cause (cutShort s)) := by
  unfold resetBlock cleared
  rfl

/-- A latched trip stays in THM_TRIP. -/
theorem raw_thmTrip_cleared (cause : Option ResetCause) {s : State} (h : s.tripped = true) :
    raw (cleared cause s) .thmTrip 0 0 = raw s .thmTrip 0 0 := by
  have hc : (cleared cause s).ctl = [(regAddr .thmTrip 0 0, BitVec.ofNat 32 (raw s .thmTrip 0 0))] := by
    unfold cleared
    rw [h, cond_true]
  rw [raw, hc, tget, tget?, beq_self_eq_true, cond_true, Option.getD_some, BitVec.toNat_ofNat, Nat.mod_eq_of_lt (raw_lt s _ 0 0)]

/-- Every register but THM_TRIP is cleared to its Reset value. -/
theorem raw_cleared (cause : Option ResetCause) (s : State) {r : Reg} {i j : Nat} (hs : Stands r i j) (hr : r ≠ .thmTrip) :
    raw (cleared cause s) r i j = regReset r % 2 ^ 32 := by
  have trip : Stands .thmTrip 0 0 := stands_of_lt (by decide) (by decide) rfl
  have hne : regAddr .thmTrip 0 0 ≠ regAddr r i j := regAddr_ne_of_stands trip hs fun e => hr (by rw [Place.mk.injEq] at e; exact e.1.symm)
  have hn : tget? (cleared cause s).ctl (regAddr r i j) = none := by
    unfold cleared
    cases s.tripped
    · rfl
    · rw [cond_true, tget?, beq_false_of_ne hne]
      rfl
  rw [raw, tget, hn, Option.getD_none, BitVec.toNat_ofNat]

/-- What a reset leaves (R543). -/
theorem resetBlock_leaves (c : Option ResetCause) (s : State) :
    let v := resetBlock c s
    v.inReset = c ∧ v.resetAt = s.time ∧ v.time = s.time ∧ v.pending = s.pending ∧ v.out = s.out ∧ v.tripped = s.tripped ∧
      v.rstLow = s.rstLow ∧ (s.update ≠ some .commit → v.otp = s.otp) ∧ v.flash = { s.flash with hours := ageHours s } ∧
      v.units = [] ∧ v.mem = [] ∧ v.benches = [] ∧ v.parts = [] ∧ v.progs = [] ∧ v.telQ = [] ∧ v.sessions = [] ∧ v.engines = [] ∧
      (s.tripped = true → raw v .thmTrip 0 0 = raw s .thmTrip 0 0) ∧
      ∀ r i j, placeAt (regAddr r i j) = some ⟨r, i, j⟩ → r ≠ .thmTrip → r ≠ .attBoot → r ≠ .attSvn → r ≠ .attKeys →
        raw v r i j = regReset r % 2 ^ 32 := by
  have trip : Stands .thmTrip 0 0 := stands_of_lt (by decide) (by decide) rfl
  obtain ⟨n, o, hcut⟩ := cutShort_rest s
  have otp : s.update ≠ some .commit → o = s.otp := by
    intro hu
    rw [cutShort_of_ne hu] at hcut
    rw [hcut]
  obtain ⟨⟨ctl, hrest⟩, shown⟩ := writesRegs_showAtt (cleared c (cutShort s))
  have held : s.tripped = true → raw (resetBlock c s) .thmTrip 0 0 = raw s .thmTrip 0 0 := by
    intro ht
    rw [resetBlock_eq, shown _ _ _ trip (by decide), hcut]
    exact raw_thmTrip_cleared c (s := { s with free := n, otp := o }) ht
  have values : ∀ r i j, placeAt (regAddr r i j) = some ⟨r, i, j⟩ → r ≠ .thmTrip → r ≠ .attBoot → r ≠ .attSvn → r ≠ .attKeys →
      raw (resetBlock c s) r i j = regReset r % 2 ^ 32 := by
    intro r i j hs hr hb hv hk
    rw [resetBlock_eq, shown r i j hs (by simp [attRegs, hb, hv, hk])]
    exact raw_cleared c _ hs hr
  rw [resetBlock_eq] at held values ⊢
  rw [hrest, hcut] at held values ⊢
  exact ⟨rfl, rfl, rfl, rfl, rfl, rfl, rfl, otp, rfl, rfl, rfl, rfl, rfl, rfl, rfl, rfl, rfl, held, values⟩

/-! ## What resets the part -/

theorem boardReset_eq (s : State) :
    boardReset s = resetBlock (some (if s.inReset = some .pwrok then .pwrok else .board)) { s with rstLow := true } := by
  unfold boardReset
  split
  next h => rw [if_pos h]
  next h => rw [if_neg h]

theorem powerOn_eq (s : State) :
    powerOn s = if s.rstLow = true then resetBlock (some .board) s else startEvent (resetBlock none s) :=
  Bool.cond_eq_ite ..

theorem internalReset_eq (cause : Fin 3) (s : State) :
    internalReset cause.val s = resetBlock (some (if cause = 2 then .refclk else .internal)) s := by
  unfold internalReset
  rw [Bool.cond_eq_ite]
  congr 2
  simp only [beq_iff_eq, Fin.ext_iff]
  rfl

/-- The end of a reset, by its cause (R542, R544). -/
theorem resetRelease_board {s : State} (h : s.inReset = some .board) : resetRelease s = startEvent { s with rstLow := false } := by
  unfold resetRelease
  rw [h]

theorem resetRelease_internal {s : State} (h : s.inReset = some .internal) :
    resetRelease s = if s.resetAt + 1000000 ≤ s.time ∧ s.rstLow = false then startEvent s else s := by
  unfold resetRelease
  rw [h]
  by_cases ht : s.resetAt + 1000000 ≤ s.time
  · have : Nat.ble (s.resetAt + 1000000) s.time = true := Nat.ble_eq_true_of_le ht
    cases hl : s.rstLow <;> simp [this, ht]
  · have : Nat.ble (s.resetAt + 1000000) s.time = false := by rwa [Bool.eq_false_iff, ne_eq, Nat.ble_eq]
    simp [this, ht]

theorem resetRelease_other {s : State} (h : s.inReset = none ∨ s.inReset = some .pwrok ∨ s.inReset = some .refclk) :
    resetRelease s = { s with rstLow := false } := by
  unfold resetRelease
  rcases h with h | h | h <;> rw [h]

/-! ## REFCLK (R530) -/

theorem refclkLoss_eq (s : State) : refclkLoss s = if s.refLost = none then { s with refLost := some s.time } else s := by
  unfold refclkLoss
  rw [Bool.cond_eq_ite]
  simp only [Option.isNone_iff_eq_none]

theorem holdoverExpire_eq {s : State} {t0 : Time} (h : s.refLost = some t0) (hr : s.inReset = none) :
    holdoverExpire s = if t0 + 100000 ≤ s.time then { resetBlock (some .refclk) s with refLost := some t0 } else s := by
  unfold holdoverExpire
  rw [h, hr]
  simp only [Option.isNone_none, Bool.and_true, Bool.cond_eq_ite, Nat.ble_eq]
  rfl

theorem refclkReturn_eq (s : State) :
    refclkReturn s = if s.inReset = some .refclk then startEvent { s with refLost := none } else { s with refLost := none } := by
  unfold refclkReturn
  dsimp only
  split
  next h => rw [if_pos h]
  next h => rw [if_neg h]

end Sys2Proof.Machine
end

section
/-! SUPPORT. Start-up: PLL lock, the stacks and the host ports (R225, R303, R536, Table 18.7). -/

namespace Sys2Proof.Machine

/-! ## PLL lock (R536) -/

/-- The regulators that have started stay so, at 0.75 V. -/
def RegulatorsStart (s t : State) : Prop :=
  t.pllLock = s.pllLock ∧
  ∀ k, k < 32 → (sector s k).regOff = false ∧ fld s .pwrSect k 0 19 12 = 80 → (sector t k).regOff = false ∧ fld t .pwrSect k 0 19 12 = 80

/-- The regulator of a sector starts at 0.75 V. -/
def regulatorOn (s : State) (k : Nat) : State := setFld .pwrSect k 0 19 12 80 (modSector k (fun x => { x with regOff := false }) s)

theorem stands_pwrSect {k : Nat} (hk : k < 32) : Stands .pwrSect k 0 := stands_of_lt hk (by decide) rfl

theorem regulatorOn_self (s : State) (k : Nat) :
    (sector (regulatorOn s k) k).regOff = false ∧ fld (regulatorOn s k) .pwrSect k 0 19 12 = 80 := by
  refine ⟨?_, fld_setFld_self _ .pwrSect k 0 80 (by decide) (by decide)⟩
  show (tget (tset s.sectors k _) k Sector.reset).regOff = false
  rw [tget_tset_self]

theorem regulatorsStart_regulatorOn {k : Nat} (hk : k < 32) (s : State) : RegulatorsStart s (regulatorOn s k) := by
  refine ⟨rfl, fun n hn h => ?_⟩
  by_cases e : n = k
  · rw [e]
    exact regulatorOn_self s k
  · have hp : Place.mk .pwrSect n 0 ≠ ⟨.pwrSect, k, 0⟩ := fun c => e (by rw [Place.mk.injEq] at c; exact c.2.1)
    refine ⟨?_, ?_⟩
    · show (tget (tset s.sectors k _) n Sector.reset).regOff = false
      rw [tget_tset_ne _ k n _ _ e]
      exact h.1
    · exact (fld_setFld_ne _ 80 (regAddr_ne_of_stands (stands_pwrSect hn) (stands_pwrSect hk) hp)).trans h.2

/-- PLL lock starts every sector's regulator. -/
theorem pllLocked_starts {s : State} (ha : awake s = true) (hl : s.pllLock = false) :
    (pllLocked s).pllLock = true ∧ ∀ k, k < 32 → (sector (pllLocked s) k).regOff = false ∧ fld (pllLocked s) .pwrSect k 0 19 12 = 80 := by
  have he : pllLocked s = (List.range 32).foldl regulatorOn { s with pllLock := true } := by
    unfold pllLocked
    rw [ha, hl, Bool.not_false, Bool.and_self, cond_true]
    rfl
  have refl : ∀ s, RegulatorsStart s s := fun s => ⟨rfl, fun _ _ => id⟩
  have trans : ∀ {s t u}, RegulatorsStart s t → RegulatorsStart t u → RegulatorsStart s u :=
    fun h g => ⟨g.1.trans h.1, fun k hk => g.2 k hk ∘ h.2 k hk⟩
  have step : ∀ k ∈ List.range 32, ∀ s, RegulatorsStart s (regulatorOn s k) :=
    fun k hk s => regulatorsStart_regulatorOn (List.mem_range.mp hk) s
  rw [he]
  refine ⟨(rel_foldl refl trans step { s with pllLock := true }).1, fun k hk => ?_⟩
  obtain ⟨u, -, after⟩ := rel_foldl_at refl trans step (List.mem_range.mpr hk) { s with pllLock := true }
  exact after.2 k hk (regulatorOn_self u k)

theorem regulatorsUp_eq (s : State) :
    regulatorsUp s = if awake s = true ∧ s.pllLock = true then { s with regsUp := true } else s := by
  rw [regulatorsUp, Bool.cond_eq_ite]
  simp only [Bool.and_eq_true]

/-! ## Stacks (R225) -/

/-- What the fencing of pseudo-channels keeps: those fenced stay so, and MEM_STAT is as it was. -/
structure PoolsFence (s t : State) : Prop where
  fenced : ∀ c, isUp s 7 c = false → isUp t 7 c = false
  stat : ∀ m, m < 12 → raw t .memStat m 0 = raw s .memStat m 0

theorem PoolsFence.refl (s : State) : PoolsFence s s := ⟨fun _ => id, fun _ _ => rfl⟩

theorem PoolsFence.trans {s t u : State} (h : PoolsFence s t) (g : PoolsFence t u) : PoolsFence s u :=
  ⟨fun c => g.fenced c ∘ h.fenced c, fun m hm => (g.stat m hm).trans (h.stat m hm)⟩

/-- A step that leaves the units and the registers. -/
theorem PoolsFence.of_eq {s t : State} (hu : t.units = s.units) (hc : t.ctl = s.ctl) : PoolsFence s t := by
  refine ⟨fun c h => ?_, fun m _ => ?_⟩
  · unfold isUp unitState at h ⊢
    rw [hu]
    exact h
  · unfold raw
    rw [hc]

theorem stands_memStat {m : Nat} (hm : m < 12) : Stands .memStat m 0 := stands_of_lt hm (by decide) rfl

/-- A step that leaves the units and writes other registers than MEM_STAT. -/
theorem PoolsFence.of_regs {w : List Reg} {s t : State} (hu : t.units = s.units) (hr : KeepsRegs w s t) (hw : .memStat ∉ w) :
    PoolsFence s t :=
  ⟨(PoolsFence.of_eq (t := { s with units := t.units }) hu rfl).fenced, fun _ hm => hr _ _ _ (stands_memStat hm) hw⟩

theorem PoolsFence.foldl {α : Type} {f : State → α → State} {l : List α} (step : ∀ x ∈ l, ∀ s, PoolsFence s (f s x)) (s : State) :
    PoolsFence s (l.foldl f s) :=
  rel_foldl PoolsFence.refl PoolsFence.trans step s

theorem poolsFence_cond {s a b : State} {c : Bool} (ha : PoolsFence s a) (hb : PoolsFence s b) : PoolsFence s (bif c then a else b) := by
  cases c
  · exact hb
  · exact ha

theorem poolsFence_raise (code : BitVec 16) (sev : Nat) (part : Option Nat) (unit : Nat) (data : W64) (s : State) :
    PoolsFence s (raise code sev part unit data s) := by
  have h := tells_raise code sev part unit data s
  obtain ⟨c, q, hrest⟩ := h.rest
  exact .of_regs (by rw [hrest]) h.regs (by decide)

/-- A fence state that is not Up leaves no unit Up that was not. -/
theorem isUp_setUnit_of_not (kind index : Nat) {st : FenceState} (hst : st ≠ .up) (cause : Status) {s : State} {k c : Nat}
    (h : isUp s k c = false) : isUp (setUnit kind index st cause s) k c = false := by
  by_cases e : unitId k c = unitId kind index
  · have hs : unitState (setUnit kind index st cause s) k c = st := by
      have := unitState_setUnit_self kind index st cause s
      unfold unitState at this ⊢
      rwa [e]
    rw [isUp, hs]
    exact beq_false_of_ne hst
  · rwa [isUp, unitState_setUnit_ne st cause s e, ← isUp]

theorem poolsFence_setUnit (kind index : Nat) {st : FenceState} (hst : st ≠ .up) (cause : Status) (s : State) :
    PoolsFence s (setUnit kind index st cause s) := by
  refine ⟨fun c => isUp_setUnit_of_not kind index hst cause, fun m _ => ?_⟩
  cases st
  case up => exact absurd rfl hst
  all_goals rfl

theorem poolsFence_noteCause (kind index : Nat) (cause : Status) (s : State) : PoolsFence s (noteCause kind index cause s) := by
  have count : Stands .errCount 0 0 := stands_of_lt (by decide) (by decide) rfl
  unfold noteCause
  extract_lets s1
  have h1 : PoolsFence s s1 := .of_regs rfl (keepsRegs_bumpFld count (w := [.errCount]) (by decide) 15 0 1 s) (by decide)
  split
  · exact h1.trans ((poolsFence_setUnit kind index (by decide) cause s1).trans (poolsFence_raise ..))
  · exact h1.trans (poolsFence_setUnit kind index (by decide) cause s1)
  · exact h1

/-- After a cause has reached it a unit is not Up. -/
theorem isUp_noteCause (kind index : Nat) (cause : Status) (s : State) : isUp (noteCause kind index cause s) kind index = false := by
  unfold noteCause
  extract_lets s1
  split
  next =>
    obtain ⟨c, q, hrest⟩ := (tells_raise 0x9001 1 (unitPart kind index) (unitId kind index) (BitVec.ofNat 64 (2 ^ 16 + cause.toNat))
      (setUnit kind index .draining cause s1)).rest
    rw [hrest]
    show (unitState (setUnit kind index .draining cause s1) kind index == .up) = false
    rw [unitState_setUnit_self]
    rfl
  next =>
    rw [isUp, unitState_setUnit_self]
    rfl
  next hu _ =>
    exact beq_false_of_ne hu

theorem poolsFence_modPartition (p : Nat) (f : Partition → Partition) (s : State) : PoolsFence s (modPartition p f s) := .of_eq rfl rfl

theorem poolsFence_releaseFrame (frame : Nat) (s : State) : PoolsFence s (releaseFrame frame s) :=
  poolsFence_cond (.of_eq rfl rfl) (.of_eq rfl rfl)

theorem poolsFence_askAgain (p vpn : Nat) (s : State) : PoolsFence s (askAgain p vpn s) :=
  poolsFence_cond (.of_eq rfl rfl) (PoolsFence.refl s)

theorem poolsFence_abortMove (p vpn : Nat) (s : State) : PoolsFence s (abortMove p vpn s) := by
  unfold abortMove
  split
  · exact ((PoolsFence.of_eq rfl rfl : PoolsFence s (dropTlb p vpn s)).trans (poolsFence_modPartition p _ _)).trans
      ((poolsFence_releaseFrame _ _).trans (poolsFence_askAgain p vpn _))
  · exact PoolsFence.refl s

theorem poolsFence_abortMoves (q : Nat → Bool) (s : State) : PoolsFence s (abortMoves q s) :=
  .foldl (fun p _ s => .foldl (fun m _ s => poolsFence_cond (poolsFence_abortMove p m.1 s) (PoolsFence.refl s)) s) s

/-- PGE_STALLUS lies 16 bytes above a multiple of 4 KiB, MEM_STAT at one: no partition number, however large, leads from one to the
other. -/
theorem memStat_ne_pgeStallus (m p : Nat) : regAddr .memStat m 0 ≠ regAddr .pgeStallus p 0 := by
  simp only [regAddr, regRow]
  omega

theorem poolsFence_endWait (req seg : Nat) (st : SegState) (status : Status) (s : State) : PoolsFence s (endWait req seg st status s) := by
  unfold endWait
  split
  next => exact PoolsFence.refl s
  next r _ =>
    split
    next => exact PoolsFence.refl s
    next g _ =>
      have seg' : PoolsFence s (modSeg req seg (fun g => { g with state := st, status := status }) s) := by
        unfold modSeg
        split
        · exact .of_eq rfl rfl
        · exact PoolsFence.refl s
      refine seg'.trans ⟨fun _ => id, fun m _ => raw_setFld_ne _ _ (memStat_ne_pgeStallus m r.part)⟩

theorem poolsFence_failWaiting (p vpn : Nat) (st : Status) (s : State) : PoolsFence s (failWaiting p vpn st s) := by
  have home : ∀ u, PoolsFence u (failHome p vpn st u) := fun u => .of_eq rfl rfl
  exact (poolsFence_modPartition p _ s).trans ((PoolsFence.foldl (fun w _ u => poolsFence_endWait w.1 w.2 .refused st u) _).trans (home _))

theorem poolsFence_setFen (p : Nat → Bool) (s : State) : PoolsFence s (setFen p s) := by
  have failed : ∀ u, PoolsFence u (failFenced p u) := fun u =>
    .foldl (fun x _ u => .foldl (fun l _ u => poolsFence_cond (poolsFence_failWaiting x.1 l.1 0x0301 u) (PoolsFence.refl u)) u) u
  refine PoolsFence.trans ?_ (failed _)
  exact .of_eq rfl rfl

theorem poolsFence_withdrawReserve (g : Nat) (s : State) : PoolsFence s (withdrawReserve g s) := by
  have build : ∀ p level index u, PoolsFence u (buildTable p level index u) := by
    intro p level index u
    unfold buildTable
    split
    · exact .of_eq rfl rfl
    · exact PoolsFence.refl u
  unfold withdrawReserve
  refine PoolsFence.trans ?_ (PoolsFence.foldl (fun t _ u => build _ _ _ u) _)
  exact .of_eq rfl rfl

theorem poolsFence_checkQuotas (s : State) : PoolsFence s (checkQuotas s) :=
  have raised : PoolsFence s (raise 0xC005 1 none 0 0 { s with quotaErr := true }) := by
    refine PoolsFence.trans ?_ (poolsFence_raise ..)
    exact .of_eq rfl rfl
  poolsFence_cond raised (poolsFence_cond (PoolsFence.refl s) (.of_eq rfl rfl))

/-- Once a pseudo-channel's cause is noted, its fencing keeps what the fencing of pools keeps. -/
theorem poolsFence_causePc_after (pc : Nat) (cause : Status) (s : State) :
    PoolsFence (noteCause 7 pc cause s) (causePc pc cause s) := by
  have avail : Stands .alcAvail 0 0 := stands_of_lt (by decide) (by decide) rfl
  unfold causePc
  cases isUp s 7 pc
  · exact PoolsFence.refl _
  · rw [cond_true]
    extract_lets g was free s1 q s2
    have h2 : PoolsFence s1 s2 :=
      (poolsFence_abortMoves q s1).trans ((poolsFence_setFen q _).trans (poolsFence_withdrawReserve g _))
    clear_value free s2
    have h3 : PoolsFence s2 (setFld .alcAvail 0 0 20 0 (alcAvail s2 - free) s2) :=
      .of_regs rfl (keepsRegs_setFld avail (w := [.alcAvail]) (by decide) 20 0 _ s2) (by decide)
    exact h2.trans (h3.trans (poolsFence_checkQuotas _))

theorem poolsFence_causePc (pc : Nat) (cause : Status) (s : State) : PoolsFence s (causePc pc cause s) :=
  (poolsFence_noteCause 7 pc cause s).trans (poolsFence_causePc_after pc cause s)

/-- A stack's UP is never cleared while the stacks' UP are set. -/
def StacksRise (s t : State) : Prop := ∀ m, m < 12 → flag s .memStat m 0 0 = true → flag t .memStat m 0 0 = true

theorem stacksRise_setFld {m : Nat} (hm : m < 12) (s : State) : StacksRise s (setFld .memStat m 0 0 0 1 s) := by
  intro n hn h
  by_cases e : n = m
  · rw [e]
    exact flag_setFld_one s .memStat m 0 (by decide)
  · have hp : Place.mk .memStat n 0 ≠ ⟨.memStat, m, 0⟩ := fun c => e (by rw [Place.mk.injEq] at c; exact c.2.1)
    rw [flag, raw_setFld_ne s 1 (regAddr_ne_of_stands (stands_memStat hn) (stands_memStat hm) hp), ← flag, h]

/-- When training is done every stack is UP, and the pseudo-channels that failed it are not Up. -/
theorem hbmTrained_serves {s : State} (hv : s.verified = true) (fails : List Nat) :
    (∀ m, m < 12 → flag (hbmTrained fails s) .memStat m 0 0 = true) ∧
      ∀ c, c ∈ fails → c < 768 → isUp (hbmTrained fails s) 7 c = false := by
  unfold hbmTrained
  rw [hv, cond_true]
  generalize hu : (List.range 12).foldl (fun s m => setFld .memStat m 0 0 0 1 s) s = u
  have up : ∀ m, m < 12 → flag u .memStat m 0 0 = true := by
    intro m hm
    obtain ⟨x, -, after⟩ := rel_foldl_at (R := StacksRise) (fun _ _ _ => id) (fun h g m hm => g m hm ∘ h m hm)
      (fun n hn s => stacksRise_setFld (List.mem_range.mp hn) s) (List.mem_range.mpr hm) s
    rw [← hu]
    exact after m hm (flag_setFld_one x .memStat m 0 (by decide))
  have step : ∀ c ∈ fails.filter (fun c => Nat.blt c 768), ∀ s, PoolsFence s (causePc c 0x030D s) :=
    fun c _ s => poolsFence_causePc c 0x030D s
  refine ⟨fun m hm => ?_, fun c hc hlt => ?_⟩
  · rw [flag, (PoolsFence.foldl step u).stat m hm, ← flag, up m hm]
  · have hmem : c ∈ fails.filter (fun c => Nat.blt c 768) := List.mem_filter.mpr ⟨hc, Nat.ble_eq_true_of_le hlt⟩
    obtain ⟨x, -, after⟩ := rel_foldl_at PoolsFence.refl PoolsFence.trans step hmem u
    exact after.fenced c ((poolsFence_causePc_after c 0x030D x).fenced c (isUp_noteCause 7 c 0x030D x))

/-! ## Host ports (R303, R318) -/

/-- What a port needs to come up: its address, its engine lit and not fenced, its lanes. -/
def portReady (s : State) (p : Nat) : Bool :=
  portHasMac s p && (engine s (10 + p / 2)).lit && isUp s 6 (10 + p / 2) && portLanesUp s p

theorem stands_hstPstat {p : Nat} (hp : p < 4) : Stands .hstPstat p 0 := stands_of_lt hp (by decide) rfl

theorem raisePort_eq (p : Nat) (s : State) : raisePort p s = bif portReady s p then setFld .hstPstat p 0 31 31 1 s else s := rfl

theorem writesRegs_raisePort {p : Nat} (hp : p < 4) (s : State) : WritesRegs [.hstPstat] s (raisePort p s) := by
  rw [raisePort_eq]
  cases portReady s p
  · exact WritesRegs.refl _ s
  · exact writesRegs_setFld (stands_hstPstat hp) (by decide) 31 31 1 s

/-- What a port needs is not in HST_PSTAT. -/
theorem portReady_of_writesRegs {s t : State} (h : WritesRegs [.hstPstat] s t) {p : Nat} (hp : p < 4) : portReady t p = portReady s p := by
  have lanes : portLanesUp t p = portLanesUp s p := by
    rw [Bool.eq_iff_iff, portLanesUp, portLanesUp]
    simp only [List.all_eq_true]
    refine forall₂_congr fun j hj => forall₂_congr fun d _ => ?_
    have hlane : p % 2 * 4 + j < engineLanes (10 + p / 2) := by
      have hj' := List.mem_range.mp hj
      rw [engineLanes, Nat.ble_eq_true_of_le (by omega), cond_true]
      omega
    have hd : laneReg d ∉ [Reg.hstPstat] := by unfold laneReg; cases d == 0 <;> decide
    rw [laneState, laneState, h.regs.fld_eq (stands_laneReg (by omega) hlane) hd]
  obtain ⟨⟨c, hc⟩, -⟩ := h
  rw [portReady, portReady, lanes, hc]
  rfl

/-- UP of a port after another or the same port has been raised. -/
theorem flag_raisePort {p q : Nat} (hp : p < 4) (hq : q < 4) (s : State) :
    flag (raisePort q s) .hstPstat p 0 31 = (flag s .hstPstat p 0 31 || (p == q && portReady s p)) := by
  rw [raisePort_eq]
  by_cases e : p = q
  · rw [e, beq_self_eq_true, Bool.true_and]
    cases portReady s q
    · rw [cond_false, Bool.or_false]
    · rw [cond_true, flag_setFld_one s .hstPstat q 0 (by decide), Bool.or_true]
  · have hpl : Place.mk .hstPstat p 0 ≠ ⟨.hstPstat, q, 0⟩ := fun c => e (by rw [Place.mk.injEq] at c; exact c.2.1)
    rw [beq_false_of_ne e, Bool.false_and, Bool.or_false]
    cases portReady s q
    · rfl
    · rw [cond_true, flag, raw_setFld_ne s 1 (regAddr_ne_of_stands (stands_hstPstat hp) (stands_hstPstat hq) hpl), ← flag]

/-- One port of those that HOST_PORTS_TRAINED names. -/
def portTrained (up : List Bool) (s : State) (p : Nat) : State := bif (up[p]?).getD false then raisePort p s else s

theorem writesRegs_portTrained (up : List Bool) {p : Nat} (hp : p < 4) (s : State) : WritesRegs [.hstPstat] s (portTrained up s p) := by
  unfold portTrained
  cases (up[p]?).getD false
  · exact WritesRegs.refl _ s
  · exact writesRegs_raisePort hp s

theorem flag_portTrained (up : List Bool) {p q : Nat} (hp : p < 4) (hq : q < 4) (s : State) :
    flag (portTrained up s q) .hstPstat p 0 31 = (flag s .hstPstat p 0 31 || (p == q && ((up[p]?).getD false && portReady s p))) := by
  unfold portTrained
  by_cases e : p = q
  · rw [e]
    cases (up[q]?).getD false
    · simp
    · rw [cond_true, flag_raisePort hq hq, Bool.true_and]
  · rw [beq_false_of_ne e, Bool.false_and, Bool.or_false]
    cases (up[q]?).getD false
    · rfl
    · rw [cond_true, flag_raisePort hp hq, beq_false_of_ne e, Bool.false_and, Bool.or_false]

/-- UP of a port after the ports of a list have been gone through. -/
theorem flag_foldl_portTrained (up : List Bool) {p : Nat} (hp : p < 4) {l : List Nat} (hl : ∀ q ∈ l, q < 4) (s : State) :
    flag (l.foldl (portTrained up) s) .hstPstat p 0 31 =
      (flag s .hstPstat p 0 31 || (l.contains p && ((up[p]?).getD false && portReady s p))) := by
  induction l generalizing s with
  | nil => simp
  | cons q l ih =>
    have hq := hl q List.mem_cons_self
    rw [List.foldl_cons, ih (fun x hx => hl x (List.mem_cons_of_mem q hx)), flag_portTrained up hp hq,
      portReady_of_writesRegs (writesRegs_portTrained up hq s) hp, List.contains_cons, Bool.or_assoc, Bool.and_or_distrib_right]

theorem hostPortsTrained_waits {s : State} (up : List Bool) (h : s.verified = false ∨ awake s = false) : hostPortsTrained up s = s := by
  unfold hostPortsTrained
  rcases h with h | h
  · rw [h]
    rfl
  · rw [h, Bool.not_false, Bool.or_true, cond_true]

/-- The ports that have trained come up when they are ready, and the others stay as they were. -/
theorem hostPortsTrained_raises {s : State} (up : List Bool) (hv : s.verified = true) (ha : awake s = true) :
    (hostPortsTrained up s).hostsUp = true ∧ ∀ p, p < 4 → flag (hostPortsTrained up s) .hstPstat p 0 31 =
      (flag s .hstPstat p 0 31 || (up[p]? == some true && portReady s p)) := by
  have he : hostPortsTrained up s = (List.range 4).foldl (portTrained up) { s with hostsUp := true } := by
    unfold hostPortsTrained
    rw [hv, ha]
    rfl
  rw [he]
  refine ⟨?_, fun p hp => ?_⟩
  · obtain ⟨c, hc⟩ := (rel_foldl (WritesRegs.refl _) WritesRegs.trans
      (fun q hq s => writesRegs_portTrained up (List.mem_range.mp hq) s) { s with hostsUp := true }).rest
    rw [hc]
  · have hup : (up[p]?).getD false = (up[p]? == some true) := by
      cases up[p]? with
      | none => rfl
      | some b => cases b <;> rfl
    rw [flag_foldl_portTrained up hp (fun q hq => List.mem_range.mp hq), hup,
      List.contains_iff_mem.mpr (List.mem_range.mpr hp), Bool.true_and]
    rfl

end Sys2Proof.Machine
end

section
/-! SUPPORT. Start-up: the identity memories (R313, R537 to R539). -/

namespace Sys2Proof.Machine

/-! ## What the reading of identity memories keeps -/

/-- The registers that the reading of identity memories may write after the tray's. -/
def identityRegs : List Reg := [.genConfig, .optTxl, .optRxl, .hstPstat, .optStat, .optLsr, .attMrcnt] ++ eventRegs

/-- The registers among them in which nothing is shown that must stay. -/
def freeRegs : List Reg := [.hstPstat, .optStat, .optLsr, .attMrcnt] ++ eventRegs

theorem freeRegs_subset : freeRegs ⊆ identityRegs := by decide

/-- What stays while identity memories are read and measured: what has been found is found. -/
structure Finds (s t : State) : Prop where
  idsRead : t.idsRead = s.idsRead
  units : t.units = s.units
  regs : KeepsRegs identityRegs s t
  config : ∀ n, flag s .genConfig 0 0 n = true → flag t .genConfig 0 0 n = true
  lsm : ∀ e, (engine s e).lsm = true → (engine t e).lsm = true
  lanes : ∀ e d l, e < 12 → l < engineLanes e → laneState s e d l = 8 → laneState t e d l = 8

/-- A reading finds without measuring. -/
structure Reads (s t : State) : Prop extends Finds s t where
  mrs : t.mrs = s.mrs

theorem Finds.refl (s : State) : Finds s s := ⟨rfl, rfl, KeepsRegs.refl _ s, fun _ => id, fun _ => id, fun _ _ _ _ _ => id⟩

theorem Finds.trans {s t u : State} (h : Finds s t) (g : Finds t u) : Finds s u :=
  ⟨g.idsRead.trans h.idsRead, g.units.trans h.units, h.regs.trans g.regs, fun n => g.config n ∘ h.config n, fun e => g.lsm e ∘ h.lsm e,
    fun e d l he hl => g.lanes e d l he hl ∘ h.lanes e d l he hl⟩

theorem Reads.refl (s : State) : Reads s s := ⟨Finds.refl s, rfl⟩

theorem Reads.trans {s t u : State} (h : Reads s t) (g : Reads t u) : Reads s u := ⟨h.toFinds.trans g.toFinds, g.mrs.trans h.mrs⟩

theorem stands_genConfig : Stands .genConfig 0 0 := stands_of_lt (by decide) (by decide) rfl

theorem laneReg_not_mem_freeRegs (d : Nat) : laneReg d ∉ freeRegs := by
  unfold laneReg
  cases d == 0 <;> decide

/-- A step that writes none of the registers in which something is shown, and takes no engine's LSM away. -/
theorem Finds.of_free {s t : State} (hi : t.idsRead = s.idsRead) (hu : t.units = s.units) (hr : KeepsRegs freeRegs s t)
    (he : ∀ e, (engine s e).lsm = true → (engine t e).lsm = true) : Finds s t :=
  ⟨hi, hu, hr.mono freeRegs_subset, fun n h => (hr.flag_eq stands_genConfig (by decide) n).trans h, he,
    fun e d l h12 hl h => (hr.fld_eq (stands_laneReg h12 hl) (laneReg_not_mem_freeRegs d) 3 0).trans h⟩

theorem reads_of_writesRegs {s t : State} (h : WritesRegs freeRegs s t) : Reads s t := by
  obtain ⟨⟨c, rfl⟩, hr⟩ := h
  exact ⟨.of_free rfl rfl hr (fun _ => id), rfl⟩

theorem reads_raise (code : BitVec 16) (sev : Nat) (part : Option Nat) (unit : Nat) (data : W64) (s : State) :
    Reads s (raise code sev part unit data s) := by
  have h := tells_raise code sev part unit data s
  obtain ⟨c, q, hrest⟩ := h.rest
  have hr : KeepsRegs freeRegs s (raise code sev part unit data s) := h.regs.mono (by decide)
  rw [hrest] at hr ⊢
  exact ⟨.of_free rfl rfl hr (fun _ => id), rfl⟩

theorem reads_cond {s a b : State} {c : Bool} (ha : Reads s a) (hb : Reads s b) : Reads s (bif c then a else b) := by
  cases c
  · exact hb
  · exact ha

theorem Reads.foldl {α : Type} {f : State → α → State} {l : List α} (step : ∀ x ∈ l, ∀ s, Reads s (f s x)) (s : State) :
    Reads s (l.foldl f s) :=
  rel_foldl Reads.refl Reads.trans step s

/-- An engine changed in a way that leaves its LSM fitted. -/
theorem reads_modEngine (e : Nat) {f : Engine → Engine} (hf : ∀ x, x.lsm = true → (f x).lsm = true) (s : State) :
    Reads s (modEngine e f s) := by
  refine ⟨.of_free rfl rfl (KeepsRegs.of_ctl _ rfl) fun d h => ?_, rfl⟩
  by_cases hd : d = e
  · rw [hd, engine_modEngine_self]
    exact hf _ (hd ▸ h)
  · rwa [engine_modEngine_ne f s hd]

/-- A flag of GEN_CONFIG is set for what has been found. -/
theorem reads_setConfig {n : Nat} (hn : n < 32) (s : State) : Reads s (setFld .genConfig 0 0 n n 1 s) := by
  have hr : KeepsRegs [.genConfig] s (setFld .genConfig 0 0 n n 1 s) := keepsRegs_setFld stands_genConfig (by decide) n n 1 s
  have hlane : ∀ d, laneReg d ∉ [Reg.genConfig] := fun d => by unfold laneReg; cases d == 0 <;> decide
  exact ⟨⟨rfl, rfl, hr.mono (by decide), fun m h => flag_setFld_one_of_flag h hn, fun _ => id,
    fun e d l he hl h => (hr.fld_eq (stands_laneReg he hl) (hlane d) 3 0).trans h⟩, rfl⟩

/-! ## Unused lanes (R310) -/

/-- The lane register of a lane set to unused, before the port of a host lane loses its link. -/
def laneMarked (e d l : Nat) (f : LaneAux → LaneAux) (s : State) : State := modLane e d l f (setFld (laneReg d) e l 3 0 8 s)

theorem laneState_laneMarked (e d l : Nat) (f : LaneAux → LaneAux) (s : State) : laneState (laneMarked e d l f s) e d l = 8 :=
  fld_setFld_self s (laneReg d) e l 8 (by decide) (by decide)

theorem reads_laneMarked {e d l : Nat} (he : e < 12) (hl : l < engineLanes e) (f : LaneAux → LaneAux) (s : State) :
    Reads s (laneMarked e d l f s) := by
  have hmem : laneReg d ∈ [Reg.optTxl, .optRxl] := by unfold laneReg; cases d == 0 <;> decide
  have hr : KeepsRegs [.optTxl, .optRxl] s (setFld (laneReg d) e l 3 0 8 s) := keepsRegs_setFld (stands_laneReg he hl) hmem 3 0 8 s
  have marked : Reads s (setFld (laneReg d) e l 3 0 8 s) := by
    refine ⟨⟨rfl, rfl, hr.mono (by decide), fun n h => (hr.flag_eq stands_genConfig (by decide) n).trans h, fun _ => id,
      fun e' d' l' he' hl' h => ?_⟩, rfl⟩
    by_cases hp : Place.mk (laneReg d') e' l' = ⟨laneReg d, e, l⟩
    · rw [Place.mk.injEq] at hp
      obtain ⟨hd, rfl, rfl⟩ := hp
      rw [laneState, hd]
      exact fld_setFld_self s (laneReg d) e' l' 8 (by decide) (by decide)
    · exact (fld_setFld_ne s 8 (regAddr_ne_of_stands (stands_laneReg he' hl') (stands_laneReg he hl) hp)).trans h
  refine marked.trans ?_
  unfold laneMarked modLane
  refine reads_modEngine e ?_ _
  exact fun _ h => h

theorem reads_hostPortFail {port : Nat} (hp : port < 4) (s : State) : Reads s (hostPortFail port s) := by
  have hr := keepsRegs_setFld (w := freeRegs) (stands_hstPstat hp) (by decide) 31 31 0
    { s with qps := s.qps.map fun q => bif q.2.port == port then (q.1, { q.2 with failed := true }) else q }
  exact ⟨.of_free rfl rfl (KeepsRegs.trans (KeepsRegs.of_ctl _ rfl) hr) (fun _ => id), rfl⟩

/-- A lane that becomes unused: its register is marked, and the port of a host lane may fail. -/
theorem reads_setLane_after {e l : Nat} (d : Nat) (he : e < 12) (hl : l < engineLanes e) (s : State) :
    ∃ f, Reads (laneMarked e d l f s) (setLane e d l 8 s) := by
  unfold setLane
  extract_lets old s1
  have failed : ∀ c : Bool, Reads s1 (bif isHostEngine e && c then hostPortFail (lanePort e l) s1 else s1) := by
    intro c
    cases hh : isHostEngine e
    · exact Reads.refl s1
    · have h10 : 10 ≤ e := by unfold isHostEngine at hh; rwa [Nat.ble_eq] at hh
      have h8 : l < 8 := by rwa [engineLanes, Nat.ble_eq_true_of_le h10, cond_true] at hl
      have hp : lanePort e l < 4 := by
        unfold lanePort
        omega
      exact reads_cond (reads_hostPortFail hp s1) (Reads.refl s1)
  rw [Bool.and_assoc, Bool.and_assoc]
  exact ⟨_, failed _⟩

theorem reads_setLane {e l : Nat} (d : Nat) (he : e < 12) (hl : l < engineLanes e) (s : State) : Reads s (setLane e d l 8 s) := by
  obtain ⟨f, h⟩ := reads_setLane_after d he hl s
  exact (reads_laneMarked he hl f s).trans h

theorem laneState_setLane {e l : Nat} (d : Nat) (he : e < 12) (hl : l < engineLanes e) (s : State) :
    laneState (setLane e d l 8 s) e d l = 8 := by
  obtain ⟨f, h⟩ := reads_setLane_after d he hl s
  exact h.lanes e d l he hl (laneState_laneMarked e d l f s)

/-- One direction of an engine becomes unused. -/
def dirUnused (e : Nat) (s : State) (d : Nat) : State := (List.range (engineLanes e)).foldl (fun s l => setLane e d l 8 s) s

theorem lanesUnused_eq (e : Nat) (s : State) : lanesUnused e s = (List.range 2).foldl (dirUnused e) s := rfl

theorem reads_dirUnused {e : Nat} (d : Nat) (he : e < 12) (s : State) : Reads s (dirUnused e s d) :=
  .foldl (fun _ hl s => reads_setLane d he (List.mem_range.mp hl) s) s

theorem reads_lanesUnused {e : Nat} (he : e < 12) (s : State) : Reads s (lanesUnused e s) := by
  rw [lanesUnused_eq]
  exact .foldl (fun d _ s => reads_dirUnused d he s) s

/-- Every lane of an engine is unused afterwards. -/
theorem laneState_lanesUnused {e d l : Nat} (he : e < 12) (hd : d < 2) (hl : l < engineLanes e) (s : State) :
    laneState (lanesUnused e s) e d l = 8 := by
  have dir : ∀ u, laneState (dirUnused e u d) e d l = 8 := by
    intro u
    obtain ⟨x, -, after⟩ := rel_foldl_at Reads.refl Reads.trans
      (fun n hn s => reads_setLane d he (List.mem_range.mp hn) s) (List.mem_range.mpr hl) u
    exact after.lanes e d l he hl (laneState_setLane d he hl x)
  rw [lanesUnused_eq]
  obtain ⟨x, -, after⟩ := rel_foldl_at Reads.refl Reads.trans (fun n _ s => reads_dirUnused n he s) (List.mem_range.mpr hd) s
  exact after.lanes e d l he hl (dir x)

/-! ## The records (R537, R539) -/

/-- The board's capability after the tray has been read (R539). -/
def trayCap (r : IdRecord) : Nat :=
  match r with
  | some bs => if recordOk 4 64 bs = true then clampTdp (leAt bs 28 2) else 1600
  | none => 1600

theorem stands_pwrTdp : Stands .pwrTdp 0 0 := stands_of_lt (by decide) (by decide) rfl

/-- The tray's capability enters PWR_TDP, and an absent or wrong record raises an event. -/
theorem reads_readTray_after (r : IdRecord) (s : State) : Reads (setFld .pwrTdp 0 0 27 16 (trayCap r) s) (readTray r s) := by
  unfold readTray trayCap
  cases r with
  | none => exact reads_raise ..
  | some bs =>
    cases h : recordOk 4 64 bs
    · dsimp only
      rw [h, if_neg Bool.false_ne_true, cond_false]
      exact reads_raise ..
    · dsimp only
      rw [h, if_pos rfl]
      exact Reads.refl _

theorem trayCap_lt (r : IdRecord) : trayCap r < 2 ^ 12 := by
  have clamp : ∀ n, clampTdp n < 2 ^ 12 := fun n =>
    Nat.lt_of_le_of_lt (Nat.max_le.mpr ⟨by decide, Nat.min_le_left 2800 n⟩) (by decide : 2800 < 2 ^ 12)
  unfold trayCap
  split
  · split
    · exact clamp _
    · decide
  · decide

theorem fld_pwrTdp_readTray (r : IdRecord) (s : State) : fld (readTray r s) .pwrTdp 0 0 27 16 = trayCap r := by
  rw [(reads_readTray_after r s).regs.fld_eq stands_pwrTdp (by decide),
    fld_setFld_self s .pwrTdp 0 0 (trayCap r) (by decide) (by decide), Nat.mod_eq_of_lt (trayCap_lt r)]

theorem reads_readStratus {m : Nat} (hm : m < 4) (r : IdRecord) (s : State) : Reads s (readStratus m r s) := by
  unfold readStratus
  split
  · exact reads_cond (reads_setConfig (by omega) s) (reads_raise ..)
  · exact Reads.refl s

/-- A module whose record is valid and names its slot is present. -/
theorem flag_readStratus {m : Nat} (hm : m < 4) {bs : List Byte} (ok : recordOk 3 64 bs = true) (slot : leAt bs 32 4 % 4 = m) (s : State) :
    flag (readStratus m (some bs) s) .genConfig 0 0 m = true := by
  unfold readStratus
  dsimp only
  rw [ok, beq_iff_eq.mpr slot, Bool.and_self, cond_true]
  exact flag_setFld_one s .genConfig 0 0 (by omega)

theorem stands_optLsr {e k : Nat} (he : e < 12) (hk : k < laserCount e) : Stands .optLsr e k := by
  have h16 : k < 16 := by
    unfold laserCount at hk
    cases hh : isHostEngine e <;> rw [hh] at hk
    · exact hk
    · exact Nat.lt_of_lt_of_le hk (by decide)
  exact stands_of_lt he h16 rfl

theorem reads_readSpares {e : Nat} (he : e < 12) (bs : List Byte) (s : State) : Reads s (readSpares e bs s) :=
  .foldl (fun _ hk s =>
    have hs := stands_optLsr he (List.mem_range.mp hk)
    reads_of_writesRegs ((writesRegs_setFld hs (by decide) 28 28 _ s).trans (writesRegs_setFld hs (by decide) 31 30 _ _))) s

/-- The state once the engine core has accepted the record of its LSM. -/
def lsmTaken (e : Nat) (s : State) : State :=
  setFld .optStat e 0 27 27 1 (setFld .genConfig 0 0 (6 + e) (6 + e) 1 (modEngine e (fun x => { x with lsm := true }) s))

theorem reads_lsmTaken {e : Nat} (he : e < 12) (s : State) : Reads s (lsmTaken e s) := by
  have stat : Stands .optStat e 0 := stands_of_lt he (show 0 < 1 by decide) rfl
  exact (reads_modEngine e (fun _ _ => rfl) s).trans <| (reads_setConfig (by omega) _).trans <|
    reads_of_writesRegs (writesRegs_setFld stat (by decide) 27 27 1 _)

theorem lsmTaken_shows {e : Nat} (he : e < 12) (s : State) :
    (engine (lsmTaken e s) e).lsm = true ∧ flag (lsmTaken e s) .genConfig 0 0 (6 + e) = true := by
  have stat : Stands .optStat e 0 := stands_of_lt he (show 0 < 1 by decide) rfl
  have kept := keepsRegs_setFld (w := [.optStat]) stat (by decide) 27 27 1
    (setFld .genConfig 0 0 (6 + e) (6 + e) 1 (modEngine e (fun x => { x with lsm := true }) s))
  refine ⟨?_, ?_⟩
  · show (engine (modEngine e (fun x => { x with lsm := true }) s) e).lsm = true
    rw [engine_modEngine_self]
  · exact (kept.flag_eq stands_genConfig (by decide) _).trans (flag_setFld_one _ .genConfig 0 0 (by omega))

/-- Whether the record of an engine's LSM is valid: TYPE 1 on a fabric or memory engine, TYPE 2 on a host engine. -/
def lsmRecordOk (e : Nat) (bs : List Byte) : Bool := bif isHostEngine e then recordOk 2 108 bs else recordOk 1 172 bs

theorem lsmRecordOk_eq (e : Nat) (bs : List Byte) :
    lsmRecordOk e bs = recordOk (if e < 10 then 1 else 2) (if e < 10 then 172 else 108) bs := by
  unfold lsmRecordOk isHostEngine
  by_cases h : e < 10
  · have : Nat.ble 10 e = false := by rwa [Bool.eq_false_iff, ne_eq, Nat.ble_eq, Nat.not_le]
    rw [this, if_pos h, if_pos h, cond_false]
  · rw [Nat.ble_eq_true_of_le (Nat.le_of_not_lt h), if_neg h, if_neg h, cond_true]

/-- An LSM that answers is noted as present first. -/
def lsmPresent (e : Nat) (s : State) : State := modEngine e (fun x => { x with present := true }) s

theorem readLsm_some (e : Nat) (bs : List Byte) (s : State) :
    readLsm e (some bs) s =
      bif !(engineCore (lsmPresent e s) e) then lanesUnused e (lsmPresent e s)
      else bif lsmRecordOk e bs then readSpares e bs (lsmTaken e (lsmPresent e s))
      else lanesUnused e (raise 0xB005 1 none (unitId 6 e) 0 (lsmPresent e s)) := rfl

theorem reads_readLsm {e : Nat} (he : e < 12) (r : IdRecord) (s : State) : Reads s (readLsm e r s) := by
  cases r with
  | none => exact reads_lanesUnused he s
  | some bs =>
    have present : Reads s (lsmPresent e s) := by
      refine reads_modEngine e ?_ s
      exact fun _ h => h
    rw [readLsm_some]
    refine present.trans (reads_cond (reads_lanesUnused he _) (reads_cond ?_ ?_))
    · exact (reads_lsmTaken he _).trans (reads_readSpares he bs _)
    · exact (reads_raise ..).trans (reads_lanesUnused he _)

/-- Whether an engine core runs shows in its unit and in FWP_STAT. -/
theorem engineCore_of_regs {w : List Reg} {s t : State} (hu : t.units = s.units) (hr : KeepsRegs w s t) (hw : .fwpStat ∉ w) {e : Nat}
    (he : e < 12) : engineCore t e = engineCore s e := by
  have stat : Stands .fwpStat (11 + e) 0 := stands_of_lt (show 11 + e < 35 by omega) (show 0 < 1 by decide) rfl
  unfold engineCore coreRuns isUp unitState
  rw [hu, hr.fld_eq stat hw]

theorem Finds.engineCore_eq {s t : State} (h : Finds s t) {e : Nat} (he : e < 12) : engineCore t e = engineCore s e :=
  engineCore_of_regs h.units h.regs (by decide) he

/-- The LSM of an engine whose core runs, with a valid record. -/
theorem readLsm_shows {e : Nat} (he : e < 12) {bs : List Byte} {s : State} (core : engineCore s e = true) (ok : lsmRecordOk e bs = true) :
    (engine (readLsm e (some bs) s) e).lsm = true ∧ flag (readLsm e (some bs) s) .genConfig 0 0 (6 + e) = true := by
  have run : engineCore (lsmPresent e s) e = true := core
  rw [readLsm_some, run, ok, Bool.not_true, cond_false, cond_true]
  obtain ⟨hl, hc⟩ := lsmTaken_shows he (lsmPresent e s)
  have spares := reads_readSpares he bs (lsmTaken e (lsmPresent e s))
  exact ⟨spares.lsm e hl, spares.config _ hc⟩

/-! ## Measuring into MR10 (R313, R538) -/

/-- A measurement register extended by a digest (R450). -/
def mrExtended (m d : BitVec 384) : BitVec 384 := digestOf (digestBytes m ++ digestBytes d)

theorem finds_extendMr (d : BitVec 384) (s : State) : Finds s (extendMr 10 d s) := by
  have count : Stands .attMrcnt 10 0 := stands_of_lt (by decide) (by decide) rfl
  have hr := keepsRegs_bumpFld (w := freeRegs) count (by decide) 31 0 1 { s with mrs := tset s.mrs 10 (mrExtended (mr s 10) d) }
  exact .of_free rfl rfl (KeepsRegs.trans (KeepsRegs.of_ctl _ rfl) hr) (fun _ => id)

theorem mr_extendMr (d : BitVec 384) (s : State) : mr (extendMr 10 d s) 10 = mrExtended (mr s 10) d := by
  show tget (tset s.mrs 10 (mrExtended (mr s 10) d)) 10 0 = _
  rw [tget_tset_self]

/-- MR10 extended by a digest for each entry of a list. -/
def measureAll {α : Type} (g : α → BitVec 384) (l : List α) (s : State) : State := l.foldl (fun s x => extendMr 10 (g x) s) s

theorem finds_measureAll {α : Type} (g : α → BitVec 384) (l : List α) (s : State) : Finds s (measureAll g l s) :=
  rel_foldl Finds.refl Finds.trans (fun x _ s => finds_extendMr (g x) s) s

theorem mr_measureAll {α : Type} (g : α → BitVec 384) (l : List α) (s : State) :
    mr (measureAll g l s) 10 = (l.map g).foldl mrExtended (mr s 10) := by
  induction l generalizing s with
  | nil => rfl
  | cons x l ih =>
    show mr (measureAll g l (extendMr 10 (g x) s)) 10 = _
    rw [ih, mr_extendMr, List.map_cons, List.foldl_cons]

/-! ## Converters (Table 18.4) -/

theorem reads_probeConverters (l : List Bool) (s : State) : Reads s (probeConverters l s) := by
  have answered : Reads s { s with convs := (List.range 5).map fun n => (l[n]?).getD false } :=
    ⟨.of_free rfl rfl (KeepsRegs.of_ctl _ rfl) (fun _ => id), rfl⟩
  exact answered.trans (.foldl (fun n _ s => reads_cond (Reads.refl s) (reads_raise ..)) _)

theorem convs_probeConverters (l : List Bool) (s : State) : (probeConverters l s).convs = (List.range 5).map fun n => (l[n]?).getD false := by
  refine rel_foldl (R := fun s t => t.convs = s.convs) (fun _ => rfl) (fun h g => g.trans h) (fun n _ s => ?_)
    { s with convs := (List.range 5).map fun n => (l[n]?).getD false }
  cases (l[n]?).getD false
  · obtain ⟨c, q, hrest⟩ := (tells_raise (Config.eventCode 2) 1 none 0 (BitVec.ofNat 64 (0x40 + n)) s).rest
    rw [cond_false, hrest]
  · rfl

/-! ## IDENTITY_READ -/

section
variable (tray : IdRecord) (stratus lsms : List IdRecord) (converters : List Bool)

/-- The modules' records are read. -/
def stratusTaken (s : State) : State := (List.range 4).foldl (fun s m => readStratus m (nthRecord stratus m) s) s

/-- The LSMs' records are read. -/
def lsmsTaken (s : State) : State := (List.range 12).foldl (fun s e => readLsm e (nthRecord lsms e) s) s

/-- The straps and every record are measured, in this order (R538). -/
def idsMeasured (s : State) : State :=
  measureAll (fun e => idDigest (nthRecord lsms e)) (List.range 12)
    (measureAll (fun m => idDigest (nthRecord stratus m)) (List.range 4)
      (extendMr 10 (idDigest tray) (extendMr 10 (digestOf (leBytes 4 (raw s .genStrap 0 0))) s)))

theorem identityRead_eq {s : State} (hv : s.verified = true) (hr : s.idsRead = false) :
    identityRead tray stratus lsms converters s =
      probeConverters converters (idsMeasured tray stratus lsms (lsmsTaken lsms (stratusTaken stratus
        (readTray tray { s with idsRead := true })))) := by
  unfold identityRead
  rw [hv, hr, Bool.not_true, Bool.or_self, cond_false]
  rfl

theorem reads_stratusTaken (s : State) : Reads s (stratusTaken stratus s) :=
  .foldl (fun _ hm s => reads_readStratus (List.mem_range.mp hm) _ s) s

theorem reads_lsmsTaken (s : State) : Reads s (lsmsTaken lsms s) :=
  .foldl (fun _ he s => reads_readLsm (List.mem_range.mp he) _ s) s

theorem finds_idsMeasured (s : State) : Finds s (idsMeasured tray stratus lsms s) :=
  (finds_extendMr _ s).trans <| (finds_extendMr _ _).trans <| (finds_measureAll ..).trans (finds_measureAll ..)

variable {stratus lsms}

theorem nthRecord_of_getElem? {l : List IdRecord} {n : Nat} {r : IdRecord} (h : l[n]? = some r) : nthRecord l n = r := by
  rw [nthRecord, h, Option.getD_some]

theorem stratusTaken_shows {m : Nat} (hm : m < 4) {bs : List Byte} (h : stratus[m]? = some (some bs)) (ok : recordOk 3 64 bs = true)
    (slot : leAt bs 32 4 % 4 = m) (s : State) : flag (stratusTaken stratus s) .genConfig 0 0 m = true := by
  obtain ⟨u, -, after⟩ := rel_foldl_at Reads.refl Reads.trans
    (fun m hm s => reads_readStratus (List.mem_range.mp hm) (nthRecord stratus m) s) (List.mem_range.mpr hm) s
  refine after.config m ?_
  rw [nthRecord_of_getElem? h]
  exact flag_readStratus hm ok slot u

theorem lsmsTaken_at {e : Nat} (he : e < 12) (s : State) :
    ∃ u, Reads s u ∧ Reads (readLsm e (nthRecord lsms e) u) (lsmsTaken lsms s) :=
  rel_foldl_at Reads.refl Reads.trans (fun e he s => reads_readLsm (List.mem_range.mp he) (nthRecord lsms e) s) (List.mem_range.mpr he) s

theorem lsmsTaken_shows {e : Nat} (he : e < 12) {bs : List Byte} (h : lsms[e]? = some (some bs)) {s : State} (core : engineCore s e = true)
    (ok : lsmRecordOk e bs = true) :
    (engine (lsmsTaken lsms s) e).lsm = true ∧ flag (lsmsTaken lsms s) .genConfig 0 0 (6 + e) = true := by
  obtain ⟨u, before, after⟩ := lsmsTaken_at (lsms := lsms) he s
  rw [nthRecord_of_getElem? h] at after
  obtain ⟨hl, hc⟩ := readLsm_shows he ((before.engineCore_eq he).trans core) ok
  exact ⟨after.lsm e hl, after.config _ hc⟩

theorem lsmsTaken_unused {e d l : Nat} (he : e < 12) (hd : d < 2) (hl : l < engineLanes e) (h : lsms[e]? = some none) (s : State) :
    laneState (lsmsTaken lsms s) e d l = 8 := by
  obtain ⟨u, -, after⟩ := lsmsTaken_at (lsms := lsms) he s
  rw [nthRecord_of_getElem? h] at after
  exact after.lanes e d l he hl (laneState_lanesUnused he hd hl u)

variable (stratus lsms)

theorem mr_idsMeasured (s : State) :
    mr (idsMeasured tray stratus lsms s) 10 =
      ([digestOf (leBytes 4 (raw s .genStrap 0 0)), idDigest tray] ++ (List.range 4).map (fun m => idDigest (nthRecord stratus m)) ++
        (List.range 12).map (fun e => idDigest (nthRecord lsms e))).foldl mrExtended (mr s 10) := by
  unfold idsMeasured
  rw [mr_measureAll, mr_measureAll, mr_extendMr, mr_extendMr, List.foldl_append, List.foldl_append, List.foldl_cons, List.foldl_cons,
    List.foldl_nil]

end

end Sys2Proof.Machine
end

section
/-! SUPPORT. Resets and start-up as the statement of chapters 1 and 18 has them. -/

namespace Sys2Proof.Machine

/-- What the identity memories come to when they are read (R313, R537 to R539). -/
theorem identityRead_comes {s : State} (tray : IdRecord) (stratus lsms : List IdRecord) (converters : List Bool) (hv : s.verified = true)
    (hr : s.idsRead = false) :
    let v := identityRead tray stratus lsms converters s
    v.idsRead = true ∧
      fld v .pwrTdp 0 0 27 16 = trayCap tray ∧
      (∀ m bs, m < 4 → stratus[m]? = some (some bs) → recordOk 3 64 bs = true → leAt bs 32 4 % 4 = m → flag v .genConfig 0 0 m = true) ∧
      (∀ e bs, e < 12 → lsms[e]? = some (some bs) → engineCore s e = true → lsmRecordOk e bs = true →
        (engine v e).lsm = true ∧ flag v .genConfig 0 0 (6 + e) = true) ∧
      (∀ e d l, e < 12 → lsms[e]? = some none → d < 2 → l < engineLanes e → laneState v e d l = 8) ∧
      v.convs = (List.range 5).map (fun n => (converters[n]?).getD false) ∧
      mr v 10 = ([digestOf (leBytes 4 (raw s .genStrap 0 0)), idDigest tray] ++
        (List.range 4).map (fun m => idDigest (nthRecord stratus m)) ++
        (List.range 12).map (fun e => idDigest (nthRecord lsms e))).foldl mrExtended (mr s 10) := by
  have strap : Stands .genStrap 0 0 := stands_of_lt (by decide) (by decide) rfl
  rw [identityRead_eq tray stratus lsms converters hv hr]
  generalize h0 : setFld .pwrTdp 0 0 27 16 (trayCap tray) { s with idsRead := true } = s0
  generalize h1 : readTray tray { s with idsRead := true } = s1
  generalize h2 : stratusTaken stratus s1 = s2
  generalize h3 : lsmsTaken lsms s2 = s3
  generalize h4 : idsMeasured tray stratus lsms s3 = s4
  intro v
  have capRegs : KeepsRegs [.pwrTdp] s s0 := h0 ▸
    (KeepsRegs.of_ctl _ rfl).trans (keepsRegs_setFld stands_pwrTdp (by decide) 27 16 _ { s with idsRead := true })
  have capRest : s0.idsRead = true ∧ s0.units = s.units ∧ s0.mrs = s.mrs := h0 ▸ ⟨rfl, rfl, rfl⟩
  have trayRead : Reads s0 s1 := h0 ▸ h1 ▸ reads_readTray_after tray { s with idsRead := true }
  have stratusRead : Reads s1 s2 := h2 ▸ reads_stratusTaken stratus s1
  have lsmsRead : Reads s2 s3 := h3 ▸ reads_lsmsTaken lsms s2
  have measured : Finds s3 s4 := h4 ▸ finds_idsMeasured tray stratus lsms s3
  have probed : Reads s4 v := reads_probeConverters converters s4
  have until2 : Reads s0 s2 := trayRead.trans stratusRead
  have until3 : Reads s0 s3 := until2.trans lsmsRead
  have from3 : Finds s3 v := measured.trans probed.toFinds
  have from2 : Finds s2 v := lsmsRead.toFinds.trans from3
  have from1 : Finds s1 v := stratusRead.toFinds.trans from2
  refine ⟨?read, ?cap, ?stratus, ?lsm, ?unused, convs_probeConverters converters s4, ?measured⟩
  case read => rw [from1.idsRead, trayRead.idsRead, capRest.1]
  case cap => rw [from1.regs.fld_eq stands_pwrTdp (by decide), ← h1, fld_pwrTdp_readTray]
  case stratus =>
    intro m bs hm h ok slot
    exact from2.config m (h2 ▸ stratusTaken_shows hm h ok slot s1)
  case lsm =>
    intro e bs he h core ok
    have core2 : engineCore s2 e = true := by
      rw [until2.engineCore_eq he, engineCore_of_regs capRest.2.1 capRegs (by decide) he, core]
    obtain ⟨hl, hc⟩ := lsmsTaken_shows he h core2 ok
    rw [h3] at hl hc
    exact ⟨from3.lsm e hl, from3.config _ hc⟩
  case unused =>
    intro e d l he h hd hl
    exact from3.lanes e d l he hl (h3 ▸ lsmsTaken_unused he hd hl h s2)
  case measured =>
    have strap3 : raw s3 .genStrap 0 0 = raw s .genStrap 0 0 :=
      (until3.regs _ _ _ strap (by decide)).trans (capRegs _ _ _ strap (by decide))
    have mr3 : mr s3 10 = mr s 10 := by rw [mr, mr, until3.mrs, capRest.2.2]
    rw [mr, probed.mrs, ← mr, ← h4, mr_idsMeasured, strap3, mr3]

/-- Settles O60, from what each reset and each step of start-up comes to; what a reset keeps, its releases and what each start-up event
needs are the model's choices (log entries 240 to 242). -/
theorem resetsAndStartUp : Obligations.ResetsAndStartUp := by
  unfold Obligations.ResetsAndStartUp
  intro t s u ext
  refine ⟨?power, ?board, rfl, ?internal, fun c => resetBlock_leaves c s, ⟨rfl, rfl⟩, ⟨?relBoard, ?relInternal, ?relOther⟩, ?loss,
    ?holdover, ?return_, ?pll, ?regs, ?ids, ?hbm, ?ports⟩
  case power => exact congrArg Host.Outcome.next (powerOn_eq s)
  case board => exact congrArg Host.Outcome.next (boardReset_eq u)
  case internal => exact fun cause => congrArg Host.Outcome.next (internalReset_eq cause u)
  case relBoard => exact fun h => congrArg Host.Outcome.next (resetRelease_board (s := u) h)
  case relInternal => exact fun h => congrArg Host.Outcome.next (resetRelease_internal (s := u) h)
  case relOther => exact fun h => congrArg Host.Outcome.next (resetRelease_other (s := u) h)
  case loss => exact congrArg Host.Outcome.next (refclkLoss_eq u)
  case holdover => exact fun t0 h hr => congrArg Host.Outcome.next (holdoverExpire_eq (s := u) h hr)
  case return_ => exact congrArg Host.Outcome.next (refclkReturn_eq u)
  case pll => exact fun ha hl => ⟨pllLocked u, rfl, pllLocked_starts (s := u) ha hl⟩
  case regs => exact congrArg Host.Outcome.next (regulatorsUp_eq u)
  case ids =>
    intro tray stratus lsms converters hv hr
    obtain ⟨read, cap, modules, lsm, unused, convs, measured⟩ := identityRead_comes (s := u) tray stratus lsms converters hv hr
    refine ⟨identityRead tray stratus lsms converters u, rfl, read, cap, modules, fun e bs h core ok => ?_,
      fun e h d l hl => unused e d l e.isLt h d.isLt hl, convs, measured⟩
    exact lsm e bs e.isLt h core ((lsmRecordOk_eq e bs).trans ok)
  case hbm => exact fun fails hv => ⟨hbmTrained fails u, rfl, hbmTrained_serves (s := u) hv fails⟩
  case ports =>
    intro up
    refine ⟨fun h => congrArg Host.Outcome.next (hostPortsTrained_waits (s := u) up h), fun hv ha => ?_⟩
    obtain ⟨hosts, flags⟩ := hostPortsTrained_raises (s := u) up hv ha
    refine ⟨hostPortsTrained up u, rfl, hosts, fun p => ?_⟩
    rw [flags p p.isLt]
    simp only [portReady, Bool.and_assoc]
    rfl

end Sys2Proof.Machine
end

section
/-! SUPPORT. The turns of stations and channels as the statement of chapter 2 has them (R49, R51, R53, R54, R108, R109, R123). -/

namespace Sys2Proof.Machine

/-! ## Stations -/

/-- What becomes of the queued instruction that a station may start: a check of its fails, that of the channel's producer first, or it
starts. -/
def startOutcome (b ord : Nat) (s : State) (e : Entry) : State :=
  bif firstStatus [failIf (producerBad s b ord e) 0x0205, startChecks s b ord e] == 0 then modEntry b ord e.eid (startedAs s b) s
  else stationFault b ord e (firstStatus [failIf (producerBad s b ord e) 0x0205, startChecks s b ord e]) s

/-- STATION_START acts on the instruction that the station may start next, if there is one. -/
theorem stationStart_eq (b ord : Nat) (s : State) : stationStart b ord s = (nextStart s b ord).elim s (startOutcome b ord s) := by
  unfold stationStart nextStart
  dsimp only
  cases (tget (bench s b).queues ord []).find? fun e => e.phase == .queued with
  | none => rfl
  | some e =>
    dsimp only
    by_cases may : (bench s b).halted.contains ord = false ∧ isUp s 2 b = true ∧ isUp s 1 (b * 16 + ord) = true ∧ mayStart s b ord e = true
    · obtain ⟨hh, hb, hs, hm⟩ := may
      rw [if_pos ⟨hh, hb, hs, hm⟩, hh, hb, hs, hm]
      rfl
    · have idle : ((bench s b).halted.contains ord || !(isUp s 2 b) || !(isUp s 1 (b * 16 + ord)) || !(mayStart s b ord e)) = true := by
        refine eq_true_of_ne_false fun hf => may ?_
        simpa only [Bool.or_eq_false_iff, Bool.not_eq_false', and_assoc] using hf
      rw [if_neg may, Option.elim_none, idle, cond_true]

/-- A write to a channel that was opened for another producer faults; no line of bench store is at fault (R82). -/
theorem startOutcome_producerBad {b ord : Nat} {s : State} {e : Entry} (h : producerBad s b ord e = true) :
    startOutcome b ord s e = reportFault b ord e.off 0x0205 s := by
  unfold startOutcome
  rw [h]
  rfl

/-- With the producer right, the first status is that of the start checks. -/
theorem firstStatus_startChecks {b ord : Nat} {s : State} {e : Entry} (h : producerBad s b ord e = false) :
    firstStatus [failIf (producerBad s b ord e) 0x0205, startChecks s b ord e] = startChecks s b ord e := by
  rw [h]
  show (bif startChecks s b ord e == 0 then 0 else startChecks s b ord e) = _
  by_cases hz : startChecks s b ord e = 0
  · rw [hz]
    rfl
  · rw [beq_false_of_ne hz, cond_false]

theorem startOutcome_passes {b ord : Nat} {s : State} {e : Entry} (h : producerBad s b ord e = false) (hc : startChecks s b ord e = 0) :
    startOutcome b ord s e = modEntry b ord e.eid (startedAs s b) s := by
  rw [startOutcome, firstStatus_startChecks h, hc]
  rfl

theorem startOutcome_fails {b ord : Nat} {s : State} {e : Entry} (h : producerBad s b ord e = false) (hc : startChecks s b ord e ≠ 0) :
    startOutcome b ord s e = stationFault b ord e (startChecks s b ord e) s := by
  rw [startOutcome, firstStatus_startChecks h, beq_false_of_ne hc, cond_false]

/-- An executed SPXF holds its turn until its packet is complete in its slot. -/
def awaitsSlot (s : State) (b ord : Nat) (e : Entry) : Bool := wUnit e.word == 6 && wOpc e.word == 5 && !(spxfLanded s b ord e)

theorem awaitsSlot_eq_true {s : State} {b ord : Nat} {e : Entry} :
    awaitsSlot s b ord e = true ↔ wUnit e.word = 6 ∧ wOpc e.word = 5 ∧ spxfLanded s b ord e = false := by
  simp only [awaitsSlot, Bool.and_eq_true, beq_iff_eq, Bool.not_eq_true', and_assoc]

/-- STATION_RETIRE looks at the oldest instruction of the station. -/
theorem stationRetire_eq {b ord : Nat} {s : State} {e : Entry} {rest : List Entry} (h : tget (bench s b).queues ord [] = e :: rest) :
    stationRetire b ord s = bif !(e.phase == .executed) then s else bif awaitsSlot s b ord e then s
      else modBench b (fun x => dropUses e.eid { x with queues := tset x.queues ord rest })
        (consumeInputs b e (e.effs.foldl (applyEff b) s)) := by
  unfold stationRetire
  rw [h]
  rfl

theorem stationRetire_retires {b ord : Nat} {s : State} {e : Entry} {rest : List Entry} (h : tget (bench s b).queues ord [] = e :: rest)
    (hp : e.phase = .executed) (hw : awaitsSlot s b ord e = false) : stationRetire b ord s =
      modBench b (fun x => dropUses e.eid { x with queues := tset x.queues ord rest })
        (consumeInputs b e (e.effs.foldl (applyEff b) s)) := by
  rw [stationRetire_eq h, hp, hw]
  rfl

theorem stationRetire_waits {b ord : Nat} {s : State} {e : Entry} {rest : List Entry} (h : tget (bench s b).queues ord [] = e :: rest)
    (hw : e.phase ≠ .executed ∨ awaitsSlot s b ord e = true) : stationRetire b ord s = s := by
  rw [stationRetire_eq h]
  rcases hw with hp | hw
  · rw [beq_false_of_ne hp]
    rfl
  · rw [hw, cond_true, Bool.cond_self]

/-! ## The system queue and channels -/

theorem sysTake_takes {b : Nat} {s : State} {e : Entry} {rest : List Entry} (ht : (bench s b).taken = none)
    (hq : (bench s b).sysq = e :: rest) (hh : (bench s b).halted.contains 13 = false) :
    sysTake b s = setBench b { bench s b with taken := some e, sysq := rest } s := by
  unfold sysTake
  extract_lets x
  rw [show x.taken = none from ht, show x.sysq = e :: rest from hq]
  dsimp only
  rw [hh, cond_false]

/-- A channel that stands is changed in its place. -/
theorem modChan_of_some {b id : Nat} {s : State} {c : Channel} (f : Channel → Channel) (h : tget? (bench s b).chans id = some c) :
    modChan b id f s = setBench b { bench s b with chans := tset (bench s b).chans id (f c) } s := by
  unfold modChan modBench
  dsimp only
  rw [h]

theorem channelClose_ready {b id : Nat} {s : State} {c : Channel} (h : tget? (bench s b).chans id = some c) (hc : c.closing = true)
    (hr : closeReady s b id c = true) : channelClose b id s = modBench b (dropChan id c) s := by
  unfold channelClose chan?
  rw [h]
  dsimp only
  rw [hc, hr]
  rfl

/-- Settles O17, turn by turn. That the channel's producer is checked when a station starts its write is the model's choice (log entry 38),
and so is that an SPXF retires when its packet has left the writes in progress (log entry 49). -/
theorem stationTurns : Obligations.StationTurns := by
  unfold Obligations.StationTurns
  intro b ord id t s x
  have starts : exec (.stationStart b ord) s = .next ((nextStart s b ord).elim s (startOutcome b ord s)) :=
    congrArg Host.Outcome.next (stationStart_eq b ord s)
  refine ⟨fun e he hp hc => ?_, fun e he hp hc => ?_, fun e he hp => ?_, fun hn => ?_, fun e rest hq hp hw => ?_, fun e rest hq hw => ?_,
    fun e rest ht hq hh => ?_, fun c p ps hc hw => ?_, fun c hc => ?_, fun c hc hcl hr => ?_⟩
  · rw [starts, he, Option.elim_some, startOutcome_passes hp hc]
  · rw [starts, he, Option.elim_some, startOutcome_fails hp hc]
  · rw [starts, he, Option.elim_some, startOutcome_producerBad hp]
  · rw [starts, hn, Option.elim_none]
  · refine congrArg Host.Outcome.next (stationRetire_retires hq hp (Bool.eq_false_iff.mpr fun h => ?_))
    obtain ⟨hu, ho, hl⟩ := awaitsSlot_eq_true.mp h
    rw [hw hu ho] at hl
    contradiction
  · exact congrArg Host.Outcome.next (stationRetire_waits hq (hw.imp_right awaitsSlot_eq_true.mpr))
  · exact congrArg Host.Outcome.next (sysTake_takes (s := atTime t s) ht hq hh)
  · refine congrArg Host.Outcome.next ((modChan_of_some _ hc).trans ?_)
    rw [hw]
  · exact congrArg Host.Outcome.next (modChan_of_some _ hc)
  · exact congrArg Host.Outcome.next (channelClose_ready (s := atTime t s) hc hcl hr)

end Sys2Proof.Machine
end

section
/-! SUPPORT. Fault reports and the arbiter (R60, R113, R114). -/

namespace Sys2Proof.Machine

/-! ## The winner -/

theorem reportBefore_iff {a b : FaultReport} : reportBefore a b = true ↔ a.role < b.role ∨ (a.role = b.role ∧ a.ord ≤ b.ord) := by
  simp only [reportBefore, Bool.or_eq_true, Bool.and_eq_true, Nat.blt_eq, beq_iff_eq, Nat.ble_eq]

theorem reportBefore_refl (a : FaultReport) : reportBefore a a = true :=
  reportBefore_iff.mpr (.inr ⟨rfl, Nat.le_refl _⟩)

theorem reportBefore_trans {a b c : FaultReport} (h : reportBefore a b = true) (g : reportBefore b c = true) :
    reportBefore a c = true := by
  rw [reportBefore_iff] at *
  omega

theorem reportBefore_of_not {a b : FaultReport} (h : reportBefore a b = false) : reportBefore b a = true := by
  rw [Bool.eq_false_iff, ne_eq, reportBefore_iff] at h
  rw [reportBefore_iff]
  omega

theorem winner_cons_ne {n : Nat} {r : FaultReport} {l : List FaultReport} (h : r.prog ≠ n) : winner n (r :: l) = winner n l := by
  rw [winner, beq_false_of_ne h, cond_false]

theorem winner_cons_eq {n : Nat} {r : FaultReport} {l : List FaultReport} (h : r.prog = n) :
    winner n (r :: l) = some ((winner n l).elim r fun q => bif reportBefore r q then r else q) := by
  rw [winner, h, beq_self_eq_true, cond_true]
  cases winner n l with
  | none => rfl
  | some q => cases hb : reportBefore r q <;> simp only [hb, cond_true, cond_false, Option.elim_some]

/-- Only a program without a report has no winner. -/
theorem winner_eq_none {n : Nat} {l : List FaultReport} : winner n l = none ↔ ∀ r ∈ l, r.prog ≠ n := by
  induction l with
  | nil => simp [winner]
  | cons r l ih =>
    rw [List.forall_mem_cons]
    by_cases h : r.prog = n
    · simp [winner_cons_eq h, h]
    · rw [winner_cons_ne h, ih]
      exact ⟨fun g => ⟨h, g⟩, And.right⟩

/-- The winner is a report of the program, and none of the program's goes before it. -/
theorem winner_eq_some {n : Nat} {l : List FaultReport} {w : FaultReport} (h : winner n l = some w) :
    w ∈ l ∧ w.prog = n ∧ ∀ r ∈ l, r.prog = n → reportBefore w r = true := by
  induction l generalizing w with
  | nil => contradiction
  | cons r l ih =>
    by_cases hr : r.prog = n
    · rw [winner_cons_eq hr, Option.some.injEq] at h
      cases hl : winner n l with
      | none =>
        rw [hl, Option.elim_none] at h
        subst h
        refine ⟨List.mem_cons_self, hr, List.forall_mem_cons.mpr ⟨fun _ => reportBefore_refl r, fun q hq hn => ?_⟩⟩
        exact absurd hn (winner_eq_none.mp hl q hq)
      | some q =>
        obtain ⟨hq, hn, least⟩ := ih hl
        rw [hl, Option.elim_some] at h
        cases hb : reportBefore r q <;> rw [hb] at h <;> subst h
        · exact ⟨List.mem_cons_of_mem _ hq, hn, List.forall_mem_cons.mpr ⟨fun _ => reportBefore_of_not hb, least⟩⟩
        · exact ⟨List.mem_cons_self, hr, List.forall_mem_cons.mpr ⟨fun _ => reportBefore_refl _,
            fun p hp hm => reportBefore_trans hb (least p hp hm)⟩⟩
    · rw [winner_cons_ne hr] at h
      obtain ⟨hw, hn, least⟩ := ih h
      exact ⟨List.mem_cons_of_mem _ hw, hn, List.forall_mem_cons.mpr ⟨fun hm => absurd hm hr, least⟩⟩

/-! ## The programs of some reports -/

/-- A program's number put behind others, unless it stands among them. -/
def addReported (l : List Nat) (r : FaultReport) : List Nat := bif l.contains r.prog then l else l ++ [r.prog]

/-- The programs that some reports name, each once. -/
def reportedProgs (rs : List FaultReport) : List Nat := rs.foldl addReported []

theorem mem_addReported {l : List Nat} {r : FaultReport} {n : Nat} : n ∈ addReported l r ↔ n ∈ l ∨ n = r.prog := by
  unfold addReported
  cases h : l.contains r.prog
  · rw [cond_false, List.mem_append, List.mem_singleton]
  · rw [cond_true, or_iff_left_of_imp]
    rintro rfl
    exact List.contains_iff_mem.mp h

theorem nodup_addReported {l : List Nat} (hl : l.Nodup) (r : FaultReport) : (addReported l r).Nodup := by
  unfold addReported
  cases h : l.contains r.prog
  · rw [cond_false, List.nodup_append]
    refine ⟨hl, List.nodup_cons.mpr ⟨List.not_mem_nil, List.nodup_nil⟩, fun a ha b hb e => ?_⟩
    rw [← List.mem_singleton.mp hb, ← e, List.contains_iff_mem.mpr ha] at h
    contradiction
  · exact hl

theorem mem_foldl_addReported {rs : List FaultReport} {l : List Nat} {n : Nat} :
    n ∈ rs.foldl addReported l ↔ n ∈ l ∨ ∃ r ∈ rs, n = r.prog := by
  induction rs generalizing l with
  | nil => simp
  | cons r rs ih => simp only [List.foldl_cons, ih, mem_addReported, List.mem_cons, exists_eq_or_imp, or_assoc]

theorem nodup_reportedProgs (rs : List FaultReport) : (reportedProgs rs).Nodup :=
  List.foldlRecOn rs addReported List.nodup_nil fun _ hl r _ => nodup_addReported hl r

/-- The programs named are those with a winner. -/
theorem mem_reportedProgs {rs : List FaultReport} {n : Nat} {w : FaultReport} (h : winner n rs = some w) : n ∈ reportedProgs rs := by
  obtain ⟨hw, hn, -⟩ := winner_eq_some h
  exact mem_foldl_addReported.mpr (.inr ⟨w, hw, hn.symm⟩)

/-! ## A program stops (R60) -/

/-- A bench with nothing queued for its stations or a hub, and nothing taken by one. -/
def Quiet (x : Bench) : Prop := x.queues = [] ∧ x.sysq = [] ∧ x.taken = none

theorem quiet_stopBench (x : Bench) : Quiet (stopBench x) := ⟨rfl, rfl, rfl⟩

/-- Benches that stop, one after the other. -/
def stopBenches (l : List Nat) (s : State) : State := l.foldl (fun s b => modBench b stopBench s) s

theorem stopBenches_rest (l : List Nat) (s : State) : ∃ bs, stopBenches l s = { s with benches := bs } := by
  unfold stopBenches
  refine rel_foldl (R := fun s t => ∃ bs, t = { s with benches := bs }) (fun s => ⟨s.benches, rfl⟩) ?_ (fun b _ s => ⟨_, rfl⟩) s
  rintro s _ _ ⟨bs, rfl⟩ ⟨bs', rfl⟩
  exact ⟨bs', rfl⟩

/-- Quiet benches stay quiet. -/
def KeepsQuiet (s t : State) : Prop := ∀ b, Quiet (bench s b) → Quiet (bench t b)

theorem KeepsQuiet.refl (s : State) : KeepsQuiet s s := fun _ => id

theorem KeepsQuiet.trans {s t u : State} (h : KeepsQuiet s t) (g : KeepsQuiet t u) : KeepsQuiet s u := fun b hb => g b (h b hb)

theorem keepsQuiet_stop (b : Nat) (s : State) : KeepsQuiet s (modBench b stopBench s) := by
  intro c hc
  by_cases e : c = b
  · rw [e, bench_modBench_self]
    exact quiet_stopBench _
  · rwa [bench_modBench_ne _ s e]

theorem keepsQuiet_stopBenches (l : List Nat) (s : State) : KeepsQuiet s (stopBenches l s) :=
  rel_foldl KeepsQuiet.refl KeepsQuiet.trans (fun b _ s => keepsQuiet_stop b s) s

theorem quiet_stopBenches {l : List Nat} {b : Nat} (hb : b ∈ l) (s : State) : Quiet (bench (stopBenches l s) b) := by
  obtain ⟨u, -, after⟩ := rel_foldl_at KeepsQuiet.refl KeepsQuiet.trans (fun c _ t => keepsQuiet_stop c t) hb s
  refine after b ?_
  rw [bench_modBench_self]
  exact quiet_stopBench _

/-- A stopped program (R60, R61). -/
def stoppedProg (x : Prog) : Prog := { x with state := .ending, preempt := none, standing := false }

theorem stopProg_of_some {n : Nat} {s : State} {x : Prog} (h : tget? s.progs n = some x) :
    ∃ q, stopProg n s = setProg n (stoppedProg x) { stopBenches x.place s with reqs := q } := by
  unfold stopProg
  rw [h]
  exact ⟨_, rfl⟩

/-- A program that stops is ending, without a preemption request, and its benches keep nothing queued. -/
theorem stopProg_shows {n : Nat} {s : State} {x : Prog} (h : tget? s.progs n = some x) :
    tget? (stopProg n s).progs n = some (stoppedProg x) ∧ ∀ b ∈ x.place, Quiet (bench (stopProg n s) b) := by
  obtain ⟨q, e⟩ := stopProg_of_some h
  rw [e]
  exact ⟨tget?_tset_self .., fun b hb => quiet_stopBenches hb s⟩

theorem stopProg_reports (n : Nat) (s : State) : (stopProg n s).reports = s.reports := by
  cases h : tget? s.progs n with
  | none => rw [stopProg, h]
  | some x =>
    obtain ⟨q, e⟩ := stopProg_of_some h
    obtain ⟨bs, hbs⟩ := stopBenches_rest x.place s
    rw [e, hbs]
    rfl

/-! ## One program's reports -/

/-- A step that leaves a program as it is, and what is quiet quiet. -/
structure SparesProg (p : Nat) (s t : State) : Prop where
  prog : tget? t.progs p = tget? s.progs p
  quiet : KeepsQuiet s t

theorem SparesProg.refl (p : Nat) (s : State) : SparesProg p s s := ⟨rfl, KeepsQuiet.refl s⟩

theorem SparesProg.trans {p : Nat} {s t u : State} (h : SparesProg p s t) (g : SparesProg p t u) : SparesProg p s u :=
  ⟨g.prog.trans h.prog, h.quiet.trans g.quiet⟩

theorem sparesProg_setProg {n p : Nat} (h : p ≠ n) (x : Prog) (s : State) : SparesProg p s (setProg n x s) :=
  ⟨tget?_tset_ne s.progs n p x h, KeepsQuiet.refl _⟩

theorem sparesProg_stopProg {n p : Nat} (h : p ≠ n) (s : State) : SparesProg p s (stopProg n s) := by
  cases hx : tget? s.progs n with
  | none =>
    unfold stopProg
    rw [hx]
    exact SparesProg.refl p s
  | some x =>
    obtain ⟨q, e⟩ := stopProg_of_some hx
    obtain ⟨bs, hbs⟩ := stopBenches_rest x.place s
    have stops : SparesProg p s { stopBenches x.place s with reqs := q } := ⟨by rw [hbs], keepsQuiet_stopBenches x.place s⟩
    rw [e]
    exact stops.trans (sparesProg_setProg h _ _)

variable {rs : List FaultReport} {n : Nat} {s : State} {x : Prog} {w : FaultReport}

/-- The number of a program's reports among some. -/
def reportCount (rs : List FaultReport) (n : Nat) : Nat := (rs.filter fun r => r.prog == n).length

/-- A program that takes the fault of a report and counts its other reports (R113). -/
def faultedProg (rs : List FaultReport) (n : Nat) (w : FaultReport) (x : Prog) : Prog :=
  { x with fault := some ⟨w.role, w.ord, w.off, w.status⟩, fcount := x.fcount + (reportCount rs n - 1) }

theorem arbitrate_unreported (h : winner n rs = none) : arbitrate rs n s = s := by
  unfold arbitrate
  rw [h]
  split <;> trivial

theorem arbitrate_first (hx : tget? s.progs n = some x) (hw : winner n rs = some w) (hf : x.fault = none) :
    arbitrate rs n s = stopProg n (setProg n (faultedProg rs n w x) s) := by
  unfold arbitrate
  rw [hx, hw]
  dsimp only
  rw [hf]
  rfl

theorem arbitrate_later (hx : tget? s.progs n = some x) (hw : winner n rs = some w) (hf : x.fault ≠ none) :
    arbitrate rs n s = setProg n { x with fcount := x.fcount + reportCount rs n } s := by
  obtain ⟨f, hf⟩ := Option.ne_none_iff_exists'.mp hf
  unfold arbitrate
  rw [hx, hw]
  dsimp only
  rw [hf]
  rfl

/-- What the reports of one program come to: nothing, its stop, or a count. -/
theorem arbitrate_cases (rs : List FaultReport) (n : Nat) (s : State) :
    arbitrate rs n s = s ∨ (∃ x, arbitrate rs n s = stopProg n (setProg n x s)) ∨ ∃ x, arbitrate rs n s = setProg n x s := by
  cases hx : tget? s.progs n with
  | none => exact .inl (by rw [arbitrate, hx])
  | some x =>
    cases hw : winner n rs with
    | none => exact .inl (arbitrate_unreported hw)
    | some w =>
      by_cases hf : x.fault = none
      · exact .inr (.inl ⟨_, arbitrate_first hx hw hf⟩)
      · exact .inr (.inr ⟨_, arbitrate_later hx hw hf⟩)

theorem sparesProg_arbitrate {p : Nat} (h : p ≠ n) : SparesProg p s (arbitrate rs n s) := by
  rcases arbitrate_cases rs n s with e | ⟨x, e⟩ | ⟨x, e⟩ <;> rw [e]
  · exact SparesProg.refl p s
  · exact (sparesProg_setProg h x s).trans (sparesProg_stopProg h _)
  · exact sparesProg_setProg h x s

theorem arbitrate_reports : (arbitrate rs n s).reports = s.reports := by
  rcases arbitrate_cases rs n s with e | ⟨x, e⟩ | ⟨x, e⟩ <;> rw [e]
  · exact stopProg_reports n _
  · rfl

/-! ## The reports of one cycle (R113, R114) -/

/-- Every program reported on has its reports arbitrated. -/
def arbitrateAll (rs : List FaultReport) (s : State) : State := (reportedProgs rs).foldl (fun s n => arbitrate rs n s) s

/-- A program's reports are arbitrated once: what comes before and after spares it. -/
theorem arbitrateAll_at (s : State) (hw : winner n rs = some w) :
    ∃ t, SparesProg n s t ∧ SparesProg n (arbitrate rs n t) (arbitrateAll rs s) := by
  obtain ⟨a, b, e⟩ := List.append_of_mem (mem_reportedProgs hw)
  have once := nodup_reportedProgs rs
  rw [e, List.nodup_append, List.nodup_cons] at once
  obtain ⟨-, ⟨hb, -⟩, ha⟩ := once
  have spare : ∀ l : List Nat, n ∉ l → ∀ u, SparesProg n u (l.foldl (fun s n => arbitrate rs n s) u) := fun l hl =>
    rel_foldl (SparesProg.refl n) SparesProg.trans fun m hm _ => sparesProg_arbitrate fun em => hl (em ▸ hm)
  refine ⟨a.foldl (fun s n => arbitrate rs n s) s, spare a (fun hm => ha n hm n List.mem_cons_self rfl) s, ?_⟩
  rw [arbitrateAll, e, List.foldl_append, List.foldl_cons]
  exact spare b hb _

theorem arbitrateAll_reports (rs : List FaultReport) (s : State) : (arbitrateAll rs s).reports = s.reports :=
  rel_foldl (R := fun s t => t.reports = s.reports) (fun _ => rfl) (fun h g => g.trans h) (fun _ _ _ => arbitrate_reports) s

/-- A program without a recorded fault takes that of the winner and stops. -/
theorem arbitrateAll_first (hx : tget? s.progs n = some x) (hw : winner n rs = some w) (hf : x.fault = none) :
    tget? (arbitrateAll rs s).progs n = some (stoppedProg (faultedProg rs n w x)) ∧
      ∀ b ∈ x.place, Quiet (bench (arbitrateAll rs s) b) := by
  obtain ⟨t, before, after⟩ := arbitrateAll_at s hw
  have stop := stopProg_shows (s := setProg n (faultedProg rs n w x) t) (tget?_tset_self ..)
  rw [← arbitrate_first (before.prog.trans hx) hw hf] at stop
  exact ⟨after.prog.trans stop.1, fun b hb => after.quiet b (stop.2 b hb)⟩

/-- A program with a recorded fault counts its reports. -/
theorem arbitrateAll_later (hx : tget? s.progs n = some x) (hw : winner n rs = some w) (hf : x.fault ≠ none) :
    tget? (arbitrateAll rs s).progs n = some { x with fcount := x.fcount + reportCount rs n } := by
  obtain ⟨t, before, after⟩ := arbitrateAll_at s hw
  rw [after.prog, arbitrate_later (before.prog.trans hx) hw hf]
  exact tget?_tset_self ..

/-- A program without a report stays as it was. -/
theorem arbitrateAll_unreported (s : State) (h : winner n rs = none) : tget? (arbitrateAll rs s).progs n = tget? s.progs n := by
  refine rel_foldl (R := fun s t => tget? t.progs n = tget? s.progs n) (fun _ => rfl) (fun h g => g.trans h) (fun m _ s => ?_) s
  by_cases e : n = m
  · rw [← e, arbitrate_unreported h]
  · exact (sparesProg_arbitrate e).prog

end Sys2Proof.Machine
end

section
/-! SUPPORT. What the freeing of pages and the writing of records leave: programs, and benches but for their TLBs. -/

namespace Sys2Proof.Machine

/-! ## Tables of which every entry changes -/

/-- An entry of a table whose entries all change in their places. -/
theorem tget?_map {α β : Type} {f : Nat × α → Nat × β} (hf : ∀ c, (f c).1 = c.1) (t : Tab α) (n : Nat) :
    tget? (t.map f) n = (tget? t n).map fun v => (f (n, v)).2 := by
  induction t with
  | nil => rfl
  | cons c t ih =>
    obtain ⟨k, v⟩ := c
    obtain ⟨w, e⟩ : ∃ w, f (k, v) = (k, w) := ⟨(f (k, v)).2, Prod.ext (hf (k, v)) rfl⟩
    rw [List.map_cons, e, tget?, tget?]
    cases h : k == n
    · exact ih
    · have hk : k = n := by simpa using h
      rw [cond_true, cond_true, Option.map_some, ← hk, e]

/-! ## The relation -/

/-- The same bench but for its TLBs. -/
def SameRole (x y : Bench) : Prop := ∃ l, y = { x with tlbs := l }

/-- A step that leaves programs as they are, and benches but for their TLBs. -/
structure LeavesRoles (s t : State) : Prop where
  progs : t.progs = s.progs
  role : ∀ b, SameRole (bench s b) (bench t b)

theorem LeavesRoles.of_eq {s t : State} (hp : t.progs = s.progs) (hb : t.benches = s.benches) : LeavesRoles s t :=
  ⟨hp, fun b => ⟨(bench s b).tlbs, by rw [bench, hb, bench]⟩⟩

theorem LeavesRoles.refl (s : State) : LeavesRoles s s := .of_eq rfl rfl

theorem LeavesRoles.trans {s t u : State} (h : LeavesRoles s t) (g : LeavesRoles t u) : LeavesRoles s u := by
  refine ⟨g.progs.trans h.progs, fun b => ?_⟩
  obtain ⟨l, hl⟩ := h.role b
  obtain ⟨m, hm⟩ := g.role b
  exact ⟨m, by rw [hm, hl]⟩

theorem LeavesRoles.foldl {α : Type} {f : State → α → State} {l : List α} (step : ∀ x ∈ l, ∀ s, LeavesRoles s (f s x)) (s : State) :
    LeavesRoles s (l.foldl f s) :=
  rel_foldl LeavesRoles.refl LeavesRoles.trans step s

theorem leavesRoles_cond {s a b : State} {c : Bool} (ha : LeavesRoles s a) (hb : LeavesRoles s b) : LeavesRoles s (bif c then a else b) := by
  cases c
  · exact hb
  · exact ha

/-! ## Pages and frames -/

theorem leavesRoles_modPartition (p : Nat) (f : Partition → Partition) (s : State) : LeavesRoles s (modPartition p f s) := .of_eq rfl rfl

theorem leavesRoles_dropTlb (p vpn : Nat) (s : State) : LeavesRoles s (dropTlb p vpn s) := by
  refine ⟨rfl, fun b => ?_⟩
  unfold bench tget
  rw [dropTlb, tget?_map fun c => by cases benchPart s c.1 == p <;> rfl]
  cases tget? s.benches b with
  | none => exact ⟨Bench.reset.tlbs, rfl⟩
  | some x =>
    rw [Option.map_some, Option.getD_some, Option.getD_some]
    cases benchPart s b == p
    · exact ⟨x.tlbs, rfl⟩
    · exact ⟨_, rfl⟩

theorem leavesRoles_releaseFrame (frame : Nat) (s : State) : LeavesRoles s (releaseFrame frame s) :=
  leavesRoles_cond (.of_eq rfl rfl) (.of_eq rfl rfl)

theorem leavesRoles_abortMove (p vpn : Nat) (s : State) : LeavesRoles s (abortMove p vpn s) := by
  unfold abortMove
  split
  · exact ((leavesRoles_dropTlb p vpn s).trans (leavesRoles_modPartition p _ _)).trans
      ((leavesRoles_releaseFrame _ _).trans (leavesRoles_cond (leavesRoles_modPartition p _ _) (LeavesRoles.refl _)))
  · exact LeavesRoles.refl s

theorem leavesRoles_abortMoveOut (p vpn : Nat) (s : State) : LeavesRoles s (abortMoveOut p vpn s) := by
  unfold abortMoveOut
  split
  · exact leavesRoles_cond (LeavesRoles.refl s)
      (((leavesRoles_dropTlb p vpn s).trans (leavesRoles_modPartition p _ _)).trans (leavesRoles_releaseFrame _ _))
  · exact LeavesRoles.refl s

theorem leavesRoles_modSeg (req seg : Nat) (f : Seg → Seg) (s : State) : LeavesRoles s (modSeg req seg f s) := by
  unfold modSeg
  split
  · exact .of_eq rfl rfl
  · exact LeavesRoles.refl s

theorem leavesRoles_endWait (req seg : Nat) (st : SegState) (status : Status) (s : State) :
    LeavesRoles s (endWait req seg st status s) := by
  unfold endWait
  split
  · exact LeavesRoles.refl s
  · split
    · exact LeavesRoles.refl s
    · exact (leavesRoles_modSeg req seg _ s).trans (.of_eq rfl rfl)

theorem leavesRoles_failWaiting (p vpn : Nat) (st : Status) (s : State) : LeavesRoles s (failWaiting p vpn st s) := by
  have home : ∀ u, LeavesRoles u (failHome p vpn st u) := fun u => .of_eq rfl rfl
  exact (leavesRoles_modPartition p _ s).trans ((LeavesRoles.foldl (fun w _ u => leavesRoles_endWait w.1 w.2 .refused st u) _).trans (home _))

theorem leavesRoles_unmapPage (p vpn : Nat) (s : State) : LeavesRoles s (unmapPage p vpn s) := by
  unfold unmapPage
  split
  · exact LeavesRoles.refl s
  · extract_lets u
    have hu : LeavesRoles s u :=
      ((leavesRoles_dropTlb p vpn s).trans (leavesRoles_abortMove p vpn _)).trans (leavesRoles_failWaiting p vpn 0x0501 _)
    refine hu.trans ?_
    split
    · exact LeavesRoles.refl u
    · exact leavesRoles_cond (leavesRoles_modPartition p _ u) ((leavesRoles_modPartition p _ u).trans (leavesRoles_releaseFrame _ _))

theorem leavesRoles_reapPages (p : Nat) (s : State) : LeavesRoles s (reapPages p s) :=
  .foldl (fun _ _ u => leavesRoles_cond (LeavesRoles.refl u)
    ((leavesRoles_modPartition p _ u).trans (leavesRoles_releaseFrame _ _))) s

theorem leavesRoles_freeScoped (p n : Nat) (s : State) : LeavesRoles s (freeScoped p n s) :=
  .foldl (fun l _ u => leavesRoles_unmapPage p l.1 u) s

theorem leavesRoles_releaseSaved (x : Prog) (s : State) : LeavesRoles s (releaseSaved x s) :=
  .foldl (fun f _ u => leavesRoles_releaseFrame f u) s

/-! ## Writes of device-virtual space -/

theorem leavesRoles_memWrite (pa : Nat) (bs : List Byte) (s : State) : LeavesRoles s (memWrite pa bs s) := .of_eq rfl rfl

theorem leavesRoles_writeArrived (p va : Nat) (bs : List Byte) (s : State) : LeavesRoles s (writeArrived p va bs s) := by
  unfold writeArrived
  split
  · exact leavesRoles_cond (.foldl (fun _ _ u => leavesRoles_cond (leavesRoles_memWrite _ _ u) (LeavesRoles.refl u)) s) (LeavesRoles.refl s)
  · exact LeavesRoles.refl s

theorem leavesRoles_pageWrite (p va : Nat) (bs : List Byte) (s : State) : LeavesRoles s (pageWrite p va bs s) := by
  unfold pageWrite
  extract_lets u
  refine (leavesRoles_abortMoveOut p (va / 2 ^ 21) s).trans ?_
  split
  · exact LeavesRoles.refl u
  · exact (leavesRoles_memWrite _ bs u).trans (leavesRoles_writeArrived p va bs _)

theorem leavesRoles_listWrite (p va : Nat) (bs : List Byte) (s : State) : LeavesRoles s (listWrite p va bs s) := by
  unfold listWrite spaceWrite
  extract_lets st
  cases st == 0
  · exact LeavesRoles.refl s
  · exact .foldl (fun c _ u => leavesRoles_pageWrite p c.1 _ u) s

theorem leavesRoles_modList (q l : Nat) (f : IntakeList → IntakeList) (s : State) : LeavesRoles s (modList q l f s) := by
  unfold modList
  split
  · exact .of_eq rfl rfl
  · exact LeavesRoles.refl s

theorem leavesRoles_emit (o : Output) (s : State) : LeavesRoles s (emit o s) := .of_eq rfl rfl

theorem leavesRoles_completeRecord (q l n : Nat) (bytes : List Byte) (st : Status) (s : State) :
    LeavesRoles s (completeRecord q l n bytes st s) := by
  unfold completeRecord
  split
  · exact LeavesRoles.refl s
  · extract_lets p a b c d
    have hd : LeavesRoles s d := (((leavesRoles_listWrite p _ bytes s).trans (leavesRoles_listWrite p _ [3] a)).trans
      (leavesRoles_modList q l _ b)).trans (leavesRoles_listWrite p _ _ c)
    clear_value d
    exact hd.trans (leavesRoles_cond (leavesRoles_emit _ d) (LeavesRoles.refl d))

/-! ## The end of a program (R59, R62) -/

/-- A program that completes is gone, and nothing else of programs and benches changes but TLBs. -/
theorem completeProg_leaves (n : Nat) (x : Prog) (st : Status) (s : State) :
    (completeProg n x st s).progs = terase s.progs n ∧ ∀ b, SameRole (bench s b) (bench (completeProg n x st s) b) := by
  unfold completeProg
  extract_lets f bytes u
  have hu : LeavesRoles s u := by
    show LeavesRoles s (match x.sess with | some q => completeRecord q x.list x.recIdx bytes st s | none => s)
    split
    · exact leavesRoles_completeRecord ..
    · exact LeavesRoles.refl s
  have saved := leavesRoles_releaseSaved x { u with progs := terase u.progs n }
  refine ⟨by rw [saved.progs, hu.progs], fun b => ?_⟩
  obtain ⟨l, hl⟩ := hu.role b
  obtain ⟨m, hm⟩ := saved.role b
  exact ⟨m, hm.trans (by rw [show bench { u with progs := terase u.progs n } b = bench u b from rfl, hl])⟩

/-- A bench without a program and without what a role holds there (R59, R62). -/
def Vacant (x : Bench) : Prop := x.prog = none ∧ x.grans = [] ∧ x.chans = [] ∧ x.accs = [] ∧ x.store = []

theorem vacant_releaseBench (x : Bench) : Vacant (releaseBench x) := ⟨rfl, rfl, rfl, rfl, rfl⟩

theorem Vacant.of_sameRole {x y : Bench} (h : Vacant x) (g : SameRole x y) : Vacant y := by
  obtain ⟨l, rfl⟩ := g
  exact h

/-- One bench of a program that ends is released; the census is told of its channels (R59). -/
def releaseRole (p b : Nat) (s : State) : State := setBench b (releaseBench (bench s b)) (noteClosed p (discarded b (bench s b)) s)

/-- Programs stay as they are and vacant benches vacant. -/
structure Vacates (s t : State) : Prop where
  progs : t.progs = s.progs
  vacant : ∀ b, Vacant (bench s b) → Vacant (bench t b)

theorem Vacates.refl (s : State) : Vacates s s := ⟨rfl, fun _ => id⟩

theorem Vacates.trans {s t u : State} (h : Vacates s t) (g : Vacates t u) : Vacates s u :=
  ⟨g.progs.trans h.progs, fun b hb => g.vacant b (h.vacant b hb)⟩

theorem vacates_releaseRole (p b : Nat) (s : State) : Vacates s (releaseRole p b s) := by
  refine ⟨rfl, fun c hc => ?_⟩
  by_cases e : c = b
  · rw [e, releaseRole, bench_setBench_self]
    exact vacant_releaseBench _
  · rw [releaseRole, bench_setBench_ne _ _ e]
    exact hc

/-- Every bench of a program that ends is released. -/
theorem foldl_releaseRole (p : Nat) (l : List Nat) (s : State) :
    (l.foldl (fun s b => releaseRole p b s) s).progs = s.progs ∧
      ∀ b ∈ l, Vacant (bench (l.foldl (fun s b => releaseRole p b s) s) b) := by
  refine ⟨(rel_foldl Vacates.refl Vacates.trans (fun b _ u => vacates_releaseRole p b u) s).progs, fun b hb => ?_⟩
  obtain ⟨u, -, after⟩ := rel_foldl_at Vacates.refl Vacates.trans (fun b _ u => vacates_releaseRole p b u) hb s
  refine after.vacant b ?_
  rw [releaseRole, bench_setBench_self]
  exact vacant_releaseBench _

/-- A program that ends is gone and its benches are vacant. -/
theorem endProg_leaves (n : Nat) (x : Prog) (st : Status) (s : State) :
    (endProg n x st s).progs = terase s.progs n ∧ ∀ b ∈ x.place, Vacant (bench (endProg n x st s) b) := by
  unfold endProg
  extract_lets a c
  have released : a.progs = s.progs ∧ ∀ b ∈ x.place, Vacant (bench a b) := foldl_releaseRole x.part x.place s
  have hc : LeavesRoles a c := .of_eq rfl rfl
  clear_value c a
  have pages := (hc.trans (leavesRoles_freeScoped x.part n c)).trans (leavesRoles_reapPages x.part _)
  obtain ⟨progs, vacant⟩ := released
  obtain ⟨gone, roles⟩ := completeProg_leaves n x st (reapPages x.part (freeScoped x.part n c))
  exact ⟨by rw [gone, pages.progs, progs], fun b hb => ((vacant b hb).of_sameRole (pages.role b)).of_sameRole (roles b)⟩

end Sys2Proof.Machine
end

section
/-! SUPPORT. Faults and ends of programs as the statement of chapter 2 has them (R59 to R61, R113, R114). -/

namespace Sys2Proof.Machine

/-- FAULT_ARBITRATION: the oldest reports of the hub are arbitrated and gone. -/
theorem faultArbitration_eq (hub n : Nat) (s : State) : faultArbitration hub n s =
    arbitrateAll ((s.reports.filter (reportTo s hub)).take n) { s with
      reports := s.reports.filter (fun r => (tget? s.progs r.prog).isSome && !(reportTo s hub r)) ++
        (s.reports.filter (reportTo s hub)).drop n } := rfl

/-- Whether a program that is ending, or whose roles have all ended with nothing queued, has nothing left to wait for (R59). -/
def mayEnd (s : State) (n : Nat) (x : Prog) : Bool :=
  (x.state == .ending || ((x.state == .running || x.state == .preempting) && x.place.all fun b => (bench s b).seq == 4 && benchIdle (bench s b)))
    && !(outstanding s n x) && !(s.reports.any fun r => r.prog == n)

theorem mayEnd_iff {s : State} {n : Nat} {x : Prog} : mayEnd s n x = true ↔
    (x.state = .ending ∨ ((x.state = .running ∨ x.state = .preempting) ∧
        ∀ b ∈ x.place, (bench s b).seq = 4 ∧ benchIdle (bench s b) = true)) ∧
      outstanding s n x = false ∧ s.reports.any (fun r => r.prog == n) = false := by
  simp only [mayEnd, Bool.and_eq_true, Bool.or_eq_true, beq_iff_eq, List.all_eq_true, Bool.not_eq_true', and_assoc]

/-- The status with which a program ends: its fault's, or that of the command that stopped it, or 0. -/
def endStatus (x : Prog) : Status :=
  match x.fault, x.endWith with
  | some f, _ => f.status
  | none, some e => if x.state = .ending then e else 0
  | none, none => 0

theorem programEnd_eq {s : State} {n : Nat} {x : Prog} (h : tget? s.progs n = some x) :
    programEnd n s = bif mayEnd s n x then endProg n x (endStatus x) s else s := by
  have status : (match x.fault, x.endWith with
      | some f, _ => f.status
      | none, some e => bif x.state == .ending then e else 0
      | none, none => 0) = endStatus x := by
    unfold endStatus
    cases x.fault with
    | some f => rfl
    | none =>
      cases x.endWith with
      | none => rfl
      | some e => simp only [Bool.cond_eq_ite, beq_iff_eq]
  unfold programEnd
  rw [h, ← status]
  rfl

end Sys2Proof.Machine

namespace Sys2Proof
open Sys2Proof.Machine

/-- Settles O25: a hub's reports are arbitrated program by program, each program once; a program that ends releases its benches, and what
the freeing of its pages and the writing of its record then do leaves them vacant. -/
theorem faultArbitration : Obligations.FaultArbitration := by
  unfold Obligations.FaultArbitration
  refine ⟨?arbitration, ?winner, ?end_⟩
  case arbitration =>
    intro hub n t s mine now
    refine ⟨Machine.faultArbitration hub.val n (atTime t s), rfl, ?_, fun p x w hx hw hf => ?_, fun p x w hx hw hf => ?_, fun p hw => ?_⟩
    · exact arbitrateAll_reports now _
    · exact arbitrateAll_first (s := { atTime t s with reports := _ }) hx hw hf
    · exact arbitrateAll_later (s := { atTime t s with reports := _ }) hx hw hf
    · exact arbitrateAll_unreported { atTime t s with reports := _ } hw
  case winner =>
    intro n l w h
    obtain ⟨hw, hn, least⟩ := winner_eq_some h
    exact ⟨hw, hn, fun r hr hp => reportBefore_iff.mp (least r hr hp)⟩
  case end_ =>
    intro n t s x hx ended done st
    have ends : exec (.programEnd n t) s = .next (bif mayEnd s n x then endProg n x (endStatus x) (atTime t s) else atTime t s) :=
      congrArg Host.Outcome.next (programEnd_eq (s := atTime t s) hx)
    refine ⟨fun hd => ?_, fun hd => ?_⟩
    · rw [ends, Bool.eq_false_iff.mpr fun h => hd (mayEnd_iff.mp h), cond_false]
    · obtain ⟨gone, vacant⟩ := endProg_leaves n x st (atTime t s)
      rw [ends, mayEnd_iff.mpr hd]
      exact ⟨_, rfl, rfl, gone, vacant⟩

end Sys2Proof
end

section
/-! SUPPORT. A state that refutes the statement of the life of programs: SCH_CTL of a partition that the part does not have. -/

namespace Sys2Proof.Machine

/-- SCH_CTL of partition 0x2000, were there one, would stand where MEM_CECNT of stack 0 stands. -/
theorem schCtl_at_memCecnt : regAddr .schCtl 0x2000 0 = regAddr .memCecnt 0 0 := by decide

/-- An intake list of one record at address 0, with records of any priority. -/
def strayList : IntakeList := { base := 0, entries := 1, cap := 7, notify := false, head := 0, done := 0, stopped := false }

/-- Its page lies in frame 0 of HBM. -/
def strayLeaf : Leaf :=
  { res := 0, wr := true, pin := true, psc := false, t2d := false, fen := false, prog := 0, frame := 0, heat := 0, owner := none }

/-- A session of partition 0x2000 with such a list, whose record is posted with priority 7; the register at SCH_CTL's address reads EN with
MAXPRI 7; the line of the list's header shows one correctable symbol error. -/
def strayState : State :=
  { State.reset with
    sessions := [(0, { Session.reset with state := .open_, part := 0x2000, lists := [(0, strayList)] })]
    parts := [(0x2000, { Partition.reset with leaves := [(0, strayLeaf)] })]
    ctl := [(regAddr .schCtl 0x2000 0, 0x87)]
    mem := [(0, 1), (76, 7), (77, 1)]
    flaws := [(0, [(0, 1)])] }

/-- The list's header: TAIL 1. -/
def strayHeader : List Byte := 1 :: List.replicate 11 0

/-- The record: priority 7, Posted. -/
def strayRecord : List Byte := List.replicate 12 0 ++ [7, 1] ++ List.replicate 50 0

theorem strayState_header : spaceRead strayState 0x2000 0 12 = .ok strayHeader := by rfl

theorem strayState_record : spaceRead (spaceSeen 0x2000 0 12 strayState) 0x2000 64 64 = .ok strayRecord := by rfl

/-- The read of the header counts its corrected error in MEM_CECNT, and so in what stands for MAXPRI: the program is taken with priority 0,
not 7. -/
theorem launchTake_strayState : (launchTake 0 0 strayState).progs.map (fun x => x.2.pri) = [0] := by rfl

/-- Refutes O26: its clause of LAUNCH_RECORD_TAKE takes MAXPRI from SCH_CTL as it stood before the list was read, and lets the session's
partition be any number. SCH_CTL of a number that no partition has may be a register in which the reading of the list counts a corrected
error. OPEN gives no session such a partition (R421); a premise that it is below 8 is missing. -/
theorem not_programLife : ¬ Obligations.ProgramLife := by
  unfold Obligations.ProgramLife
  intro life
  obtain ⟨take, -⟩ := life 0 strayState
  obtain ⟨v, hv, -, -, progs⟩ := take 0 0 strayList strayHeader strayRecord rfl rfl (by decide) rfl (by decide) (by decide)
    strayState_header (by decide) (by decide) strayState_record (by decide)
  have taken : launchTake 0 0 strayState = v := Host.Outcome.next.inj hv
  have pri : v.progs.map (fun x => x.2.pri) = [7] := by rw [progs]; rfl
  rw [← taken, launchTake_strayState] at pri
  exact absurd pri (by decide)

end Sys2Proof.Machine
end

section
/-! SUPPORT. What the execution of a station's started instruction comes to, and the orders in which regions, statuses and counts are read
(R54, R112, R202). -/

namespace Sys2Proof.Machine

/-! ## Executing -/

section
variable {s : State} {b ord unit opc : Nat} {f : Entry → ExecRes} {e : Entry}

/-- An instruction with effects holds them until it retires (R54). -/
theorem stationExec_effs {l : List Eff} (h : startedEntry s b ord unit opc = some e) (hf : f e = .effs l) :
    stationExec b ord unit opc f s = executed b ord e l s := by
  rw [stationExec, h]
  dsimp only
  rw [hf]
  rfl

/-- A fault that no line of bench store causes does no more than report itself (R113). -/
theorem stationFault_eq_reportFault {st : Status} (hst : st ≠ arrayError) : stationFault b ord e st s = reportFault b ord e.off st s := by
  rw [stationFault, beq_false_of_ne hst, cond_false]

theorem stationExec_fault {st : Status} (h : startedEntry s b ord unit opc = some e) (hf : f e = .fault st) (hst : st ≠ arrayError) :
    stationExec b ord unit opc f s = reportFault b ord e.off st s := by
  rw [stationExec, h]
  dsimp only
  rw [hf]
  exact stationFault_eq_reportFault hst

/-- A trap counts its tile first (R202). -/
theorem stationExec_trap {st : Status} {u : AssayUpd} (h : startedEntry s b ord unit opc = some e) (hf : f e = .trap st u)
    (hst : st ≠ arrayError) : stationExec b ord unit opc f s = reportFault b ord e.off st (postAssay b u s) := by
  rw [stationExec, h]
  dsimp only
  rw [hf]
  exact stationFault_eq_reportFault hst

end

/-! ## Statuses and flags -/

@[simp] theorem failIf_false (st : Status) : failIf false st = 0 := rfl

/-- Failures that do not apply are passed over. -/
@[simp] theorem firstStatus_zero_cons (l : List Status) : firstStatus (0 :: l) = firstStatus l := rfl

/-- A flag at a place of a header. -/
theorem b01_mul (c : Bool) (n : Nat) : b01 c * n = if c = true then n else 0 := by
  cases c
  · exact Nat.zero_mul n
  · exact Nat.one_mul n

theorem b01_not_mul (c : Bool) (n : Nat) : b01 (!c) * n = if c = true then 0 else n := by
  cases c
  · exact Nat.one_mul n
  · exact Nat.zero_mul n

/-! ## Regions -/

theorem mem_region {rows cols r c : Nat} : (r, c) ∈ region rows cols ↔ r < rows ∧ c < cols := by
  simp only [region, List.mem_flatMap, List.mem_map, List.mem_range, Prod.mk.injEq]
  constructor
  · rintro ⟨r, hr, c, hc, rfl, rfl⟩
    exact ⟨hr, hc⟩
  · rintro ⟨hr, hc⟩
    exact ⟨r, hr, c, hc, rfl, rfl⟩

/-- A region with one row more ends with that row. -/
theorem region_succ (rows cols : Nat) : region (rows + 1) cols = region rows cols ++ (List.range cols).map fun c => (rows, c) := by
  simp only [region, List.range_succ, List.flatMap_append, List.flatMap_singleton]

theorem length_region (rows cols : Nat) : (region rows cols).length = rows * cols := by
  induction rows with
  | zero => exact (Nat.zero_mul cols).symm
  | succ rows ih => rw [region_succ, List.length_append, ih, List.length_map, List.length_range, Nat.succ_mul]

/-- A region is listed row by row. -/
theorem getElem?_region {rows cols r c : Nat} (hr : r < rows) (hc : c < cols) : (region rows cols)[r * cols + c]? = some (r, c) := by
  induction rows with
  | zero => omega
  | succ rows ih =>
    rw [region_succ]
    rcases Nat.lt_succ_iff_lt_or_eq.mp hr with hlt | rfl
    · have inside : r * cols + c < (region rows cols).length := by
        rw [length_region]
        calc r * cols + c < r * cols + cols := by omega
          _ = (r + 1) * cols := (Nat.succ_mul r cols).symm
          _ ≤ rows * cols := Nat.mul_le_mul_right cols hlt
      rw [List.getElem?_append_left inside, ih hlt]
    · rw [List.getElem?_append_right (by rw [length_region]; omega), length_region, Nat.add_sub_cancel_left, List.getElem?_map,
        List.getElem?_range hc]
      rfl

/-- The array of a region's values, read by row and column. -/
theorem getD_region_map {α : Type} (f : Nat × Nat → α) (d : α) {rows cols r c : Nat} (hr : r < rows) (hc : c < cols) :
    (((region rows cols).map f).toArray[r * cols + c]?).getD d = f (r, c) := by
  rw [List.getElem?_toArray, List.getElem?_map, getElem?_region hr hc]
  rfl

/-- A table made from a list by a key that tells its elements apart: it holds those elements and no other. -/
theorem tget?_map_key {α β : Type} [DecidableEq β] {l : List β} {key : β → Nat} (val : β → α) {y : β}
    (inj : ∀ x ∈ l, key x = key y → x = y) : tget? (l.map fun x => (key x, val x)) (key y) = if y ∈ l then some (val y) else none := by
  induction l with
  | nil => rfl
  | cons x l ih =>
    have rest := ih fun z hz => inj z (List.mem_cons_of_mem x hz)
    rw [List.map_cons, tget?, rest]
    by_cases hx : x = y
    · subst hx
      rw [beq_self_eq_true, cond_true, if_pos List.mem_cons_self]
    · have hk : (key x == key y) = false := beq_false_of_ne fun h => hx (inj x List.mem_cons_self h)
      simp only [hk, cond_false, List.mem_cons, Ne.symm hx, false_or]

end Sys2Proof.Machine
end

section
/-! SUPPORT. The Anvil as the statements of chapter 4 have it (R125 to R132). -/

namespace Sys2Proof.Machine

/-! ## The sum of R126 -/

/-- A sum of products with one product more. -/
theorem dot_succ (f g : Nat → Val) (n : Nat) : dot f g (n + 1) = valAdd (dot f g n) (valMul (f n) (g n)) := by
  rw [dot, List.range_succ, List.foldl_append]
  rfl

/-- A sum of products reads its operands below its length. -/
theorem dot_congr {f f' g g' : Nat → Val} {n : Nat} (hf : ∀ k < n, f k = f' k) (hg : ∀ k < n, g k = g' k) : dot f g n = dot f' g' n := by
  induction n with
  | zero => rfl
  | succ n ih =>
    rw [dot_succ, dot_succ, ih (fun k hk => hf k (Nat.lt_succ_of_lt hk)) (fun k hk => hg k (Nat.lt_succ_of_lt hk)),
      hf n (Nat.lt_succ_self n), hg n (Nat.lt_succ_self n)]

/-- The product of the tile scales of an MMA, of those operands that have one (R126). -/
def mmaScale (p q : Pkt) : Ex := exMul (bif isTqFmt p.fmt then p.scale else Ex.one) (bif isTqFmt q.fmt then q.scale else Ex.one)

/-- The buffer that an MMA adds to (R128). -/
def mmaOld (acc : Accum) (clr : Bool) : Accum := bif clr then Accum.clear else acc

/-- Element (m, n) that an MMA leaves, from the operands themselves (R126). -/
def mmaNew (acc : Accum) (clr : Bool) (p q : Pkt) (x : Nat × Nat) : W32 :=
  (mmaElem (mmaScale p q) (p.atAk x.1) (q.atAk x.2) p.kExt (tget (mmaOld acc clr).val (x.1 * 128 + x.2) 0)).1

/-- The arrays that an MMA reads its operands from hold their elements: the buffer is the table of the elements of R126. -/
theorem mmaResult_val (acc : Accum) (clr : Bool) (p q : Pkt) :
    (mmaResult acc clr p q).val = (region p.aExt q.aExt).map fun x => (x.1 * 128 + x.2, mmaNew acc clr p q x) := by
  unfold mmaResult
  dsimp only
  rw [List.map_map]
  refine List.map_congr_left fun x hx => ?_
  obtain ⟨hm, hn⟩ := mem_region.mp hx
  dsimp only [Function.comp]
  have product := dot_congr (n := p.kExt) (fun k hk => getD_region_map (fun y => p.atAk y.1 y.2) .nan hm hk)
    (fun k hk => getD_region_map (fun y => q.atAk y.1 y.2) .nan hn hk)
  rw [mmaElem, product]
  rfl

/-- A place of an element is that of no other while columns are below 128. -/
theorem tget_mmaResult (acc : Accum) (clr : Bool) {p q : Pkt} {m n : Nat} (hq : q.aExt ≤ 128) (hn : n < 128) :
    tget (mmaResult acc clr p q).val (m * 128 + n) 0 = if m < p.aExt ∧ n < q.aExt then mmaNew acc clr p q (m, n) else 0 := by
  have inj : ∀ x ∈ region p.aExt q.aExt, x.1 * 128 + x.2 = m * 128 + n → x = (m, n) := fun x hx h => by
    obtain ⟨-, hx2⟩ := mem_region.mp hx
    exact Prod.ext (by omega) (by omega)
  rw [tget, mmaResult_val, tget?_map_key (y := (m, n)) (mmaNew acc clr p q) inj]
  simp only [mem_region]
  split <;> rfl

/-- Settles O19: the table of the elements of R126, read inside the product's region and outside of it. -/
theorem mmaElements : Obligations.MmaElements := by
  unfold Obligations.MmaElements
  intro acc clr p q _ hq t old
  refine ⟨rfl, fun m n hm hn => ?_, fun m n hn hout => ?_⟩
  · have hold : (mmaOld acc clr).val = old := by cases clr <;> rfl
    have hscale : mmaScale p q = t := by simp only [mmaScale, Bool.cond_eq_ite, t]
    rw [tget_mmaResult acc clr hq (by omega), if_pos ⟨hm, hn⟩, mmaNew, hold, hscale]
    rfl
  · rw [tget_mmaResult acc clr hq hn, if_neg (by omega)]

/-! ## The instructions -/

section
variable {s : State} {b ord : Nat} {e : Entry}

theorem mmaExec_ok {p q : Pkt} (h : mmaSources s b ord e = .ok (p, q)) (hc : mmaCheck (accum s b e.word) e.word p q = 0) :
    mmaExec b ord e s = .effs [.accum (bufferOf e.word) (mmaResult (accum s b e.word) (bit (wMod e.word) 1) p q)] := by
  rw [mmaExec, h]
  dsimp only
  rw [hc]
  rfl

/-- The header of MMADR's packet with its counts, and the packet before FP32 elements are taken over unchanged (R131). -/
def mmadrValues (s : State) (b : Nat) (e : Entry) (rows cols : Nat) : NewPkt × List Byte :=
  valuePkt { newPkt (wFmt e.word) rows cols (sidTag (eVal e 2)) (sidSeq (eVal e 2)) 0 0 0 with sat := (accum s b e.word).sat } false
    fun r c => valOf (f32Val (tget (accum s b e.word).val (r * 128 + c) 0))

theorem mmadrExec_of_ext {rows cols : Nat} (h : (accum s b e.word).ext = some (rows, cols)) : mmadrExec b e s =
    .effs (writePkt s b e 1 (if wFmt e.word = 0x24 then plainPkt (mmadrValues s b e rows cols).1
        fun r c => (widen 0x24 (tget (accum s b e.word).val (r * 128 + c) 0).toNat).toNat else (mmadrValues s b e rows cols).2) ++
      (if bit (wMod e.word) 1 = true then [] else [.accum (bufferOf e.word) Accum.clear]) ++
      [pktAssay e.eid (mmadrValues s b e rows cols).1]) := by
  unfold mmadrExec
  dsimp only
  rw [h]
  simp only [Bool.cond_eq_ite, beq_iff_eq]
  rfl

theorem mmadrExec_empty (h : (accum s b e.word).ext = none) : mmadrExec b e s = .fault 0x018E := by
  unfold mmadrExec
  dsimp only
  rw [h]

theorem accldExec_ok {p : Pkt} (h : sourceFmt s b ord e 1 (wFmt e.word) (· == 0x24) = .ok p) : accldExec b ord e s =
    .effs [.accum (bufferOf e.word) ⟨(region p.rows p.cols).map fun q => (q.1 * 128 + q.2, p.wide q.1 q.2), some (p.rows, p.cols), 0⟩] := by
  rw [accldExec, h]

end

/-- Settles O18, instruction by instruction. -/
theorem anvilInstructions : Obligations.AnvilInstructions := by
  unfold Obligations.AnvilInstructions
  intro b i e s acc el hdr
  refine ⟨fun p q h hp hc => ?_, fun rows cols h hx => ?_, fun h hx => ?_, fun p h hp => ?_, fun h => ?_⟩
  · exact congrArg Host.Outcome.next (stationExec_effs h (mmaExec_ok hp hc))
  · exact ⟨_, _, congrArg Host.Outcome.next (stationExec_effs h (mmadrExec_of_ext hx)), rfl, rfl⟩
  · exact congrArg Host.Outcome.next (stationExec_fault h (mmadrExec_empty hx) (by decide))
  · exact congrArg Host.Outcome.next (stationExec_effs h (accldExec_ok hp))
  · exact congrArg Host.Outcome.next (stationExec_effs h rfl)

end Sys2Proof.Machine
end

section
/-! SUPPORT. The Temper as the statement of chapter 4 has it (R134 to R140, R202). -/

namespace Sys2Proof.Machine

section
variable {s : State} {b ord : Nat} {e : Entry} {p : Pkt}

/-- TRAPNF stops a tile only when a non-finite element stands in it (R202). -/
theorem trapNf_passes {t : Bool} {n : Nat} (h : t = false ∨ n = 0) : (t && !(n == 0)) = false := by
  rcases h with rfl | rfl
  · rfl
  · exact Bool.and_false t

theorem trapNf_stops {t : Bool} {n : Nat} (ht : t = true) (hn : n ≠ 0) : (t && !(n == 0)) = true := by
  rw [ht, beq_false_of_ne hn]
  rfl

/-! ## QNT -/

theorem qntExec_ok (h : wideSource s b ord e 1 = .ok p) (hn : trapNf s b = false ∨ nonFinites p = 0) : qntExec b ord e s =
    .effs (writePkt s b e 2 (qntPacket e.word p (eVal e 3) (eVal e 4) e.seed e.hist e.eid).1 ++
      [.assay (qntPacket e.word p (eVal e 3) (eVal e 4) e.seed e.hist e.eid).2]) := by
  rw [qntExec, h]
  dsimp only
  rw [trapNf_passes hn, cond_false]

theorem qntExec_trap (h : wideSource s b ord e 1 = .ok p) (ht : trapNf s b = true) (hn : nonFinites p ≠ 0) :
    qntExec b ord e s = .trap 0x0601 (trapUpd (sidTag (eVal e 3)) e.eid (nonFinites p)) := by
  rw [qntExec, h]
  dsimp only
  rw [trapNf_stops ht hn, cond_true]

/-! ## DQT -/

/-- The tile of a DQT: the source's values, rotated back with UNROT (R138, R200). -/
def dqtTile (e : Entry) (p : Pkt) : Tile :=
  if bit (wMod e.word) 0 = true then rotate (tileOf p p.orient p.val) p.rotblk e.seed.toNat true else tileOf p p.orient p.val

/-- The packet of a DQT: over the source's rows and columns, marked rotated while it still is. -/
def dqtPacket (e : Entry) (p : Pkt) : NewPkt × List Byte :=
  tileValuePkt (newPkt (wFmt e.word) p.rows p.cols p.tag p.seq p.stream
    ((if p.orient = true then 8 else 0) + if p.rot = true ∧ bit (wMod e.word) 0 = false then 4 else 0)
    (if bit (wMod e.word) 0 = true then 0 else p.rotblk)) (dqtTile e p) p.orient

theorem dqtExec_ok (h : sourcePkt s b ord e 1 = .ok p) (hr : bit (wMod e.word) 0 = true → p.rot = true) :
    dqtExec b ord e s = .effs (writePkt s b e 2 (dqtPacket e p).2 ++ [pktAssay e.eid (dqtPacket e p).1]) := by
  have rotated : (bit (wMod e.word) 0 && !p.rot) = false := by
    cases hu : bit (wMod e.word) 0
    · rfl
    · rw [hr hu]
      rfl
  rw [dqtExec, h]
  dsimp only
  rw [rotated, cond_false]
  simp only [Bool.cond_eq_ite, b01_mul, Bool.and_eq_true, Bool.not_eq_true']
  rfl

theorem dqtExec_notRotated (h : sourcePkt s b ord e 1 = .ok p) (hu : bit (wMod e.word) 0 = true) (hr : p.rot = false) :
    dqtExec b ord e s = .fault 0x0184 := by
  rw [dqtExec, h]
  dsimp only
  rw [hu, hr]
  rfl

/-! ## HAD -/

/-- The tile of a HAD (R139, R548). -/
def hadTile (e : Entry) (p : Pkt) : Tile :=
  rotate (tileOf p (bit (wMod e.word) 1) fun r c => valOf (f32Val (p.wide r c))) (wImmBits e.word 2 0) e.seed.toNat (bit (wMod e.word) 0)

/-- Rows and columns of a tile whose K axis is rows when `kax`. -/
def tileExtents (t : Tile) (kax : Bool) : Nat × Nat := if kax = true then (t.kExt, t.aExt) else (t.aExt, t.kExt)

theorem tileExtents_rows (t : Tile) (kax : Bool) : (tileExtents t kax).1 = bif kax then t.kExt else t.aExt := by cases kax <;> rfl
theorem tileExtents_cols (t : Tile) (kax : Bool) : (tileExtents t kax).2 = bif kax then t.aExt else t.kExt := by cases kax <;> rfl

/-- The packet of a HAD: its extent along K is that of the rotated tile, it is marked rotated unless it was rotated back. -/
def hadPacket (e : Entry) (p : Pkt) : NewPkt × List Byte :=
  tileValuePkt (newPkt 0x24 (tileExtents (hadTile e p) (bit (wMod e.word) 1)).1 (tileExtents (hadTile e p) (bit (wMod e.word) 1)).2
    p.tag p.seq p.stream ((if bit (wMod e.word) 1 = true then 8 else 0) + if bit (wMod e.word) 0 = true then 0 else 4)
    (if bit (wMod e.word) 0 = true then 0 else wImmBits e.word 2 0)) (hadTile e p) (bit (wMod e.word) 1)

theorem hadExec_ok (h : sourceFmt s b ord e 1 (wFmt e.word) (fun _ => false) = .ok p) (hb : hadBad e.word p = false) :
    hadExec b ord e s = .effs (writePkt s b e 2 (hadPacket e p).2 ++ [pktAssay e.eid (hadPacket e p).1]) := by
  rw [hadExec, h]
  dsimp only
  rw [hb, cond_false, ← tileExtents_rows, ← tileExtents_cols, b01_mul (bit _ 1), b01_not_mul, Bool.cond_eq_ite]
  rfl

/-! ## ASY -/

/-- The tile whose statistics ASY counts (R140). -/
def asyTile (p : Pkt) : Tile := tileOf p false fun r c => valOf (f32Val (p.wide r c))

/-- The greatest magnitude that ASY reports. -/
def asyBig (p : Pkt) : Nat := f32OfMag (magOf (tileMax (asyTile p)) false)

theorem asyExec_ok (h : sourceFmt s b ord e 1 (wFmt e.word) isWideFmt = .ok p)
    (hn : trapNf s b = false ∨ (inputStats (asyTile p)).1 = 0) :
    asyExec b ord e s = .effs [.assay ⟨wImmBits e.word 15 0, e.eid,
      [(0, (inputStats (asyTile p)).2), (7, (inputStats (asyTile p)).1), (8, 1), (9, asyBig p)], asyBig p⟩] := by
  rw [asyExec, h]
  dsimp only
  rw [show tileOf p false _ = asyTile p from rfl, trapNf_passes hn, cond_false]
  rfl

theorem asyExec_trap (h : sourceFmt s b ord e 1 (wFmt e.word) isWideFmt = .ok p) (ht : trapNf s b = true)
    (hn : (inputStats (asyTile p)).1 ≠ 0) :
    asyExec b ord e s = .trap 0x0601 (trapUpd (wImmBits e.word 15 0) e.eid (inputStats (asyTile p)).1) := by
  rw [asyExec, h]
  dsimp only
  rw [show tileOf p false _ = asyTile p from rfl, trapNf_stops ht hn, cond_true]

end

/-- Settles O20, instruction by instruction. That a HAD keeps TAG, SEQ and STREAM of its source is deduced (log entry 266), and so is that a
DQT leaves the rounded inverse at the positions that a rotation added (log entry 281). -/
theorem temperInstructions : Obligations.TemperInstructions := by
  unfold Obligations.TemperInstructions
  intro b i e p s k w un kax wide full dq hd
  refine ⟨fun h hp hn => ?_, fun h hp ht hn => ?_, fun h hp hr => ?_, fun h hp hu hr => ?_, fun h hp hb => ?_, fun h hp hn => ?_,
    fun h hp ht hn => ?_⟩
  · exact congrArg Host.Outcome.next (stationExec_effs h (qntExec_ok hp hn))
  · exact congrArg Host.Outcome.next (stationExec_trap h (qntExec_trap hp ht hn) (by decide))
  · exact ⟨_, _, congrArg Host.Outcome.next (stationExec_effs h (dqtExec_ok hp hr)), rfl⟩
  · exact congrArg Host.Outcome.next (stationExec_fault h (dqtExec_notRotated hp hu hr) (by decide))
  · exact ⟨_, _, congrArg Host.Outcome.next (stationExec_effs h (hadExec_ok hp hb)), rfl⟩
  · exact congrArg Host.Outcome.next (stationExec_effs h (asyExec_ok hp hn))
  · exact congrArg Host.Outcome.next (stationExec_trap h (asyExec_trap hp ht hn) (by decide))

end Sys2Proof.Machine
end

section
/-! SUPPORT. The Flux and the Swage as the statement of chapter 4 has them (R141 to R150). -/

namespace Sys2Proof.Machine

section
variable {s : State} {b ord : Nat} {e : Entry} {p : Pkt}

/-! ## VSEQ -/

/-- The lanes of a VSEQ after its chain, by row and column of the output shape (R143, R144). -/
def vseqLanes (ps : List (Nat × Pkt)) (ch : Chain) : Nat → Nat → Lane :=
  gridOf (vseqShape ps).1 (vseqShape ps).2 ⟨[], false⟩ fun r c => laneRun ch (vseqLane ps r c)

/-- The packet of output operand `n` (R144). -/
def vseqPacket (w : W128) (ps : List (Nat × Pkt)) (ch : Chain) (n : Nat) : NewPkt × List Byte :=
  lanePkt (vseqHeader w ps n) (fun r c => (vseqLanes ps ch r c).sat) fun r c => (((vseqLanes ps ch r c).v)[n - 1]?).getD 0

theorem vseqExec_ok {ps : List (Nat × Pkt)} {ch : Chain} (h : vseqCheck s b ord e = .ok (ps, ch)) : vseqExec b ord e s =
    .effs ((vseqOuts e.word).flatMap fun n =>
      writePkt s b e n (vseqPacket e.word ps ch n).2 ++ [pktAssay e.eid (vseqPacket e.word ps ch n).1]) := by
  rw [vseqExec, h]
  rfl

/-! ## VRED -/

/-- Element `j` of line `l`, as a magnitude with MOD[3]. -/
def vredElem (w : W128) (p : Pkt) (l j : Nat) : W32 :=
  if bit (wMod w) 3 = true then f32Abs (if bit (wMod w) 2 = true then p.wide j l else p.wide l j)
  else if bit (wMod w) 2 = true then p.wide j l else p.wide l j

/-- The lines reduced, columns with MOD[2] and else rows, with their saturations. -/
def vredLines (w : W128) (p : Pkt) : List (W32 × Nat) :=
  (List.range (if bit (wMod w) 2 = true then p.cols else p.rows)).map fun l =>
    reduceLine (wModBits w 1 0) ((List.range (if bit (wMod w) 2 = true then p.rows else p.cols)).map (vredElem w p l))

/-- The packet of a VRED: one row or one column of the reduced lines. -/
def vredPacket (e : Entry) (p : Pkt) : NewPkt × List Byte :=
  let cols := bit (wMod e.word) 2
  let n := if cols = true then p.cols else p.rows
  lanePkt { newPkt (wFmt e.word) (if cols = true then 1 else n) (if cols = true then n else 1) (sidTag (eVal e 3)) (sidSeq (eVal e 3)) 0 0 0
    with sat := sumNat ((vredLines e.word p).map (·.2)) } (fun _ _ => false)
    fun r c => (((vredLines e.word p)[if cols = true then c else r]?).getD (0, 0)).1

theorem vredExec_ok (h : vredSource s b ord e = .ok p) :
    vredExec b ord e s = .effs (writePkt s b e 2 (vredPacket e p).2 ++ [pktAssay e.eid (vredPacket e p).1]) := by
  rw [vredExec, h]
  simp only [Bool.cond_eq_ite, List.getElem?_toArray]
  rfl

/-! ## FXLOAD and VFILL -/

/-- Word `n` of the chain at the address of an FXLOAD (R141). -/
def fxloadWord (s : State) (b : Nat) (e : Entry) (n : Nat) : W32 :=
  BitVec.ofNat 32 (leAt (storeRead s b (eVal e 1).toNat 128) (4 * n) 4)

/-- The chain at that address: 16 constants, then the steps. -/
def fxloadChain (s : State) (b : Nat) (e : Entry) : Chain :=
  ⟨(List.range 16).map (fxloadWord s b e), (List.range (wImmBits e.word 7 3)).map fun n => fxloadWord s b e (16 + n)⟩

theorem fxloadCheck_passes (ha : (eVal e 1).toNat % 128 = 0) (hh : holdsBytes (bench s b) (eVal e 1).toNat 128 = true)
    (hb : storeBad (bench s b) (eVal e 1).toNat 128 = false) (hs : (fxloadChain s b e).steps.all stepOk = true) :
    fxloadCheck s b e = .ok (fxloadChain s b e) := by
  unfold fxloadCheck
  dsimp only
  rw [ha, hh, hb]
  exact congrArg (cond · _ _) hs

theorem fxloadExec_ok {c : Chain} (h : fxloadCheck s b e = .ok c) : fxloadExec b e s = .effs [.chain (slotOf e.word) c] := by
  rw [fxloadExec, h]

/-- The packet of a VFILL: every element is the value (R146). -/
def vfillPacket (e : Entry) : NewPkt × List Byte :=
  lanePkt (newPkt (wFmt e.word) (wImmBits e.word 7 0) (wImmBits e.word 15 8) (sidTag (eVal e 3)) (sidSeq (eVal e 3)) 0 0 0)
    (fun _ _ => false) fun _ _ => BitVec.ofNat 32 ((eVal e 2).toNat % 2 ^ 32)

theorem vfillExec_eq : vfillExec b e s = .effs (writePkt s b e 1 (vfillPacket e).2 ++ [pktAssay e.eid (vfillPacket e).1]) := by
  unfold vfillExec
  rw [bits_zero]
  rfl

/-! ## SWT and SWX -/

theorem swtExec_ok (h : plainSource s b ord e = .ok p) : swtExec b ord e s =
    .effs (writePkt s b e 2 (plainPkt { keepHdr p with rows := p.cols, cols := p.rows, flags := p.flags ^^^ 8 }
      fun r c => p.code (c * 128 + r))) := by
  rw [swtExec, h]
  rfl

/-- The destination's header after the copy, but for its count of zeros (R148). -/
def swxHeader (g : SwxRegion) (p q : Pkt) : NewPkt :=
  { keepHdr q with rows := Nat.max q.rows (g.dr + g.nr), cols := Nat.max q.cols (g.dc + g.nc), sat := q.sat + p.sat,
                   spovf := q.spovf + p.spovf, under := q.under + p.under, maxabs := Nat.max q.maxabs p.maxabs }

theorem swxExec_ok {q : Pkt} (h : swxCheck s b ord e = .ok (p, q)) : swxExec b ord e s =
    .effs (writePkt s b e 2 (swxPacket (swxRegion e.word) p q { swxHeader (swxRegion e.word) p q with
      zero := zeroCount (parsePkt (swxPacket (swxRegion e.word) p q (swxHeader (swxRegion e.word) p q))) })) := by
  rw [swxExec, h]
  rfl

/-! ## SWGA, SWSC and SWC -/

/-- The rows that a SWGA gathers. -/
def gatheredRows (s : State) (b f : Nat) (l : List Nat) : List Byte := l.flatMap fun a => storeRead s b a (rowBytes f)

/-- The header of a SWGA before its elements are counted: it takes nothing from the rows (R149). -/
def swgaBare (e : Entry) : NewPkt := newPkt (wFmt e.word) (eVal e 3).toNat 128 (sidTag (eVal e 4)) (sidSeq (eVal e 4)) 0 0 0

/-- What the gathered elements count to. -/
def swgaStats (s : State) (b : Nat) (e : Entry) (l : List Nat) : Stats :=
  let p := parsePkt (headerBytes (swgaBare e) ++ gatheredRows s b (wFmt e.word) l)
  (region (eVal e 3).toNat 128).foldl (fun t q => t.count (p.unscaled q.1 q.2) false false) ⟨0, 0, 0, Ex.zero⟩

/-- The header of a SWGA with its counts. -/
def swgaHeader (s : State) (b : Nat) (e : Entry) (l : List Nat) : NewPkt :=
  { swgaBare e with zero := (swgaStats s b e l).zero, maxabs := f32OfMag (magOf (swgaStats s b e l).big false) }

theorem swgaExec_ok {l : List Nat} (h : indexTable s b (eVal e 1).toNat (eVal e 3).toNat (wFmt e.word) = .ok l)
    (hb : ∀ a ∈ l, storeBad (bench s b) a (rowBytes (wFmt e.word)) = false) : swgaExec b e s =
    .effs (writePkt s b e 2 (headerBytes (swgaHeader s b e l) ++ gatheredRows s b (wFmt e.word) l ++
      List.replicate ((128 - (eVal e 3).toNat) * rowBytes (wFmt e.word)) 0)) := by
  have clean : (l.any fun a => storeBad (bench s b) a (rowBytes (wFmt e.word))) = false :=
    List.any_eq_false.mpr fun a ha => ne_true_of_eq_false (hb a ha)
  rw [swgaExec]
  dsimp only
  rw [h]
  dsimp only
  rw [clean]
  rfl

theorem swscExec_ok {l : List Nat} (hp : plainSource s b ord e = .ok p) (hl : indexTable s b (eVal e 2).toNat (eVal e 3).toNat p.fmt = .ok l) :
    swscExec b ord e s = .effs ((List.range l.length).zipWith (fun r a => Eff.store a (rowOfPkt p r)) l) := by
  rw [swscExec, hp]
  dsimp only
  rw [hl]

/-- What a role holds lies in bench store (R221). -/
theorem le_benchBytes_of_holdsBytes {x : Bench} {a n : Nat} (h : holdsBytes x a n = true) : a + n ≤ benchBytes := by
  rw [holdsBytes, Bool.and_eq_true] at h
  exact Nat.le_of_ble_eq_true h.1

theorem swcCheck_passes (hd : (eVal e 1).toNat % 64 = 0) (ha : (eVal e 2).toNat % 64 = 0) (hn : (eVal e 3).toNat % 64 = 0)
    (hhd : holdsBytes (bench s b) (eVal e 1).toNat (eVal e 3).toNat = true)
    (hha : holdsBytes (bench s b) (eVal e 2).toNat (eVal e 3).toNat = true)
    (hb : storeBad (bench s b) (eVal e 2).toNat (eVal e 3).toNat = false) : swcCheck s b e = 0 := by
  have short : Nat.blt benchBytes (eVal e 3).toNat = false := by
    have held := le_benchBytes_of_holdsBytes hhd
    rw [← Bool.not_eq_true, Nat.blt_eq]
    omega
  unfold swcCheck
  dsimp only
  rw [hd, ha, hn, hhd, hha, hb, short]
  rfl

theorem swcExec_ok (h : swcCheck s b e = 0) :
    swcExec b e s = .effs [.store (eVal e 1).toNat (storeRead s b (eVal e 2).toNat (eVal e 3).toNat)] := by
  rw [swcExec, h]
  rfl

end

/-! ## The statement -/

/-- Settles O21, instruction by instruction. -/
theorem fluxAndSwage : Obligations.FluxAndSwage := by
  unfold Obligations.FluxAndSwage
  refine ⟨fun b i e s => ?_, fun b e s => ?_⟩
  · intro k w
    refine ⟨fun ps ch h hc => ?_, fun p h hp => ?_, fun h ha hh hb hs => ?_, fun h => ?_⟩
    · exact congrArg Host.Outcome.next (stationExec_effs h (vseqExec_ok hc))
    · exact ⟨_, _, congrArg Host.Outcome.next (stationExec_effs h (vredExec_ok hp)), rfl⟩
    · exact congrArg Host.Outcome.next (stationExec_effs h (fxloadExec_ok (fxloadCheck_passes ha hh hb hs)))
    · exact ⟨_, _, congrArg Host.Outcome.next (stationExec_effs h vfillExec_eq), rfl⟩
  · intro w
    refine ⟨fun p h hp => ?_, fun p q h hc => ?_, fun l h hl hb => ?_, fun p l h hp hl => ?_, fun h hd ha hn hhd hha hb => ?_⟩
    · exact congrArg Host.Outcome.next (stationExec_effs h (swtExec_ok hp))
    · exact congrArg Host.Outcome.next (stationExec_effs h (swxExec_ok hc))
    · exact ⟨_, congrArg Host.Outcome.next (stationExec_effs h (swgaExec_ok hl hb)), rfl, rfl, rfl, rfl, rfl⟩
    · exact congrArg Host.Outcome.next (stationExec_effs h (swscExec_ok hp hl))
    · exact congrArg Host.Outcome.next (stationExec_effs h (swcExec_ok (swcCheck_passes hd ha hn hhd hha hb)))

end Sys2Proof.Machine
end

section
/-! SUPPORT. The Crucible and the Hallmark as the statement of chapter 4 has them (R151, R152, R161 to R164, R408). -/

namespace Sys2Proof.Machine

/-! ## CRED -/

section
variable {s : State} {b ord : Nat} {e : Entry}

/-- A CRED whose channel holds no packet waits as it is, however many packets it has left to fold (R151). -/
theorem credSteps_waits {port : Port} {c : Channel} (hp : ePort e 1 = some port) (hc : chan? s b port.id = some c) (hn : c.packets = [])
    (n : Nat) : credSteps b ord n e s = modEntry b ord e.eid (fun _ => e) s := by
  cases n with
  | zero => rfl
  | succ n =>
    rw [credSteps, hp]
    dsimp only
    rw [hc]
    dsimp only
    rw [hn]
    rfl

/-- The entry of a CRED after a packet more that is not its last: the accumulator as folded so far. -/
def credFolded (s : State) (b : Nat) (e : Entry) (x a : Pkt) : Entry :=
  { e with hist := e.hist + 1, effs := writePkt s b e 2 (credFold (wModBits e.word 1 0) x a).2 }

/-- The entry of a CRED after its last packet: it has executed. -/
def credDone (s : State) (b : Nat) (e : Entry) (x a : Pkt) : Entry :=
  { e with hist := e.hist + 1, phase := .executed
           effs := writePkt s b e 2 (credFold (wModBits e.word 1 0) x a).2 ++ [pktAssay e.eid (credFold (wModBits e.word 1 0) x a).1] }

/-- From a handle the one packet is folded where it stands. -/
theorem credSteps_handle {x a : Pkt} (hp : ePort e 1 = none) (hk : credCheck s b ord e = .ok (x, a)) (n : Nat) :
    credSteps b ord (n + 1) e s = bif e.hist + 1 == credN e.word then modEntry b ord e.eid (fun _ => credDone s b e x a) s
      else credSteps b ord n (credFolded s b e x a) s := by
  rw [credSteps, hp]
  dsimp only
  rw [hk]
  rfl

/-- From a port the oldest packet is folded and leaves the queue, its credit held. -/
theorem credSteps_port {x a : Pkt} {port : Port} {c : Channel} (hp : ePort e 1 = some port) (hc : chan? s b port.id = some c)
    (hn : c.packets ≠ []) (hk : credCheck s b ord e = .ok (x, a)) (n : Nat) : credSteps b ord (n + 1) e s =
      bif e.hist + 1 == credN e.word then modEntry b ord e.eid (fun _ => credDone s b e x a) (readPacket b port.id s)
      else credSteps b ord n (credFolded s b e x a) (readPacket b port.id s) := by
  rw [credSteps, hp]
  dsimp only
  rw [hc]
  dsimp only
  rw [Bool.eq_false_iff.mpr (mt List.isEmpty_iff.mp hn), hk]
  rfl

/-- Reading a packet takes it from the front of the channel's queue. -/
theorem chan?_readPacket {id : Nat} {c : Channel} (h : chan? s b id = some c) :
    chan? (readPacket b id s) b id = some { c with packets := c.packets.drop 1, reading := c.reading + 1 } := by
  rw [readPacket, modChan_of_some _ h, chan?, bench_setBench_self]
  exact tget?_tset_self _ _ _

/-- CRED runs the steps of the packets that it has left. -/
theorem cred_eq (h : startedEntry s b 9 5 0x01 = some e) : cred b s = credSteps b 9 (credN e.word - e.hist) e s := by
  rw [cred, h]

/-- The last packet of a handle's CRED is its only one. -/
theorem cred_handle {x a : Pkt} (h : startedEntry s b 9 5 0x01 = some e) (hp : ePort e 1 = none) (hN : credN e.word = 1)
    (hh : e.hist = 0) (hk : credCheck s b 9 e = .ok (x, a)) : cred b s = modEntry b 9 e.eid (fun _ => credDone s b e x a) s := by
  rw [cred_eq h, hN, hh, credSteps_handle hp hk 0, hh, hN]
  rfl

theorem cred_lastPacket {x a : Pkt} {port : Port} {c : Channel} (h : startedEntry s b 9 5 0x01 = some e) (hp : ePort e 1 = some port)
    (hc : chan? s b port.id = some c) (hn : c.packets ≠ []) (hk : credCheck s b 9 e = .ok (x, a)) (hl : e.hist + 1 = credN e.word) :
    cred b s = modEntry b 9 e.eid (fun _ => credDone s b e x a) (readPacket b port.id s) := by
  rw [cred_eq h, ← hl, Nat.add_sub_cancel_left, credSteps_port hp hc hn hk 0, beq_iff_eq.mpr hl, cond_true]

/-- After the only packet of its channel a CRED that has packets left waits for the next. -/
theorem cred_onlyPacket {x a : Pkt} {port : Port} {c : Channel} {bs : List Byte} (h : startedEntry s b 9 5 0x01 = some e)
    (hp : ePort e 1 = some port) (hc : chan? s b port.id = some c) (hn : c.packets = [bs]) (hk : credCheck s b 9 e = .ok (x, a))
    (hl : e.hist + 1 < credN e.word) :
    cred b s = modEntry b 9 e.eid (fun _ => credFolded s b e x a) (readPacket b port.id s) := by
  obtain ⟨n, left⟩ : ∃ n, credN e.word - e.hist = n + 1 := ⟨credN e.word - e.hist - 1, by omega⟩
  have emptied : ({ c with packets := c.packets.drop 1, reading := c.reading + 1 } : Channel).packets = [] := by rw [hn]; rfl
  rw [cred_eq h, left, credSteps_port hp hc (by rw [hn]; exact List.cons_ne_nil _ _) hk n, beq_false_of_ne (Nat.ne_of_lt hl), cond_false,
    credSteps_waits (e := credFolded s b e x a) hp (chan?_readPacket hc) emptied n]
  rfl

theorem cred_waits {port : Port} {c : Channel} (h : startedEntry s b 9 5 0x01 = some e) (hp : ePort e 1 = some port)
    (hc : chan? s b port.id = some c) (hn : c.packets = []) : cred b s = modEntry b 9 e.eid (fun _ => e) s := by
  rw [cred_eq h, credSteps_waits hp hc hn]

end

/-! ## CXSUM -/

/-- A sum kept beside a count is the sum, beside the number of elements counted. -/
theorem foldl_sum_count {α : Type} (f : α → Int) (g : α → Bool) (l : List α) (a : Int) (n : Nat) :
    l.foldl (fun t x => (t.1 + f x, t.2 + b01 (g x))) (a, n) = (l.foldl (fun t x => t + f x) a, n + (l.filter g).length) := by
  induction l generalizing a n with
  | nil => rfl
  | cons x l ih =>
    rw [List.foldl_cons, List.foldl_cons, ih]
    cases hg : g x
    · rw [List.filter_cons_of_neg (ne_true_of_eq_false hg)]
      rfl
    · rw [List.filter_cons_of_pos hg, List.length_cons, Nat.add_comm _ 1, ← Nat.add_assoc]
      rfl

section
variable {s : State} {b ord : Nat} {e : Entry}

/-- Element (r, c) of a CXSUM in fixed point, squared with MOD[0] (R152). -/
def cxsumElem (w : W128) (p : Pkt) (r c : Nat) : Int × Bool × Bool :=
  fixOf (if bit (wMod w) 0 = true then valMul (valOf (f32Val (p.wide r c))) (valOf (f32Val (p.wide r c)))
    else valOf (f32Val (p.wide r c)))

/-- The sum of a CXSUM, not clamped: the elements and what stands at the destination. -/
def cxsumTotal (s : State) (b : Nat) (e : Entry) (p : Pkt) : Int :=
  (region p.rows p.cols).foldl (fun t q => t + (cxsumElem e.word p q.1 q.2).1) (signed 128 (leNat (storeRead s b (eVal e 2).toNat 16)))

/-- How many elements clamped. -/
def cxsumClamped (w : W128) (p : Pkt) : Nat := ((region p.rows p.cols).filter fun q => (cxsumElem w p q.1 q.2).2.1).length

theorem cxsumExec_ok {p : Pkt} (h : cxsumCheck s b ord e = .ok p) : cxsumExec b ord e s =
    .effs [.store (eVal e 2).toNat (leBytes 16 (unsign 128 (fixClamp (cxsumTotal s b e p)).1)),
      .clamps (cxsumClamped e.word p + if (fixClamp (cxsumTotal s b e p)).2 = true then 1 else 0)] := by
  have sum := foldl_sum_count (fun q => (cxsumElem e.word p q.1 q.2).1) (fun q => (cxsumElem e.word p q.1 q.2).2.1) (region p.rows p.cols)
    (signed 128 (leNat (storeRead s b (eVal e 2).toNat 16))) 0
  unfold cxsumElem at sum
  rw [cxsumExec, h]
  simp only [Bool.cond_eq_ite]
  rw [sum, Nat.zero_add, b01, Bool.cond_eq_ite]
  rfl

/-! ## HENC, HDEC and HSUM -/

theorem hencExec_ok (hc : shardCheck s b e = 0) (hb : ∀ i < shardK e.word, shardBad s b e i = false) : hencExec b e s =
    .effs ((List.range (shardM e.word)).map fun i => shardStore e (shardK e.word + i)
      (parityOf (eVal e 3).toNat i ((List.range (shardK e.word)).map (shardBytes s b e)))) := by
  have clean : (List.range (shardK e.word)).any (shardBad s b e) = false :=
    List.any_eq_false.mpr fun i hi => ne_true_of_eq_false (hb i (List.mem_range.mp hi))
  rw [hencExec, hc]
  dsimp only
  rw [clean]
  rfl

/-- The survivors that HDEC reads: the lowest-numbered ones, as many as there are data shards (R163). -/
def survivors (w : W128) : List Nat := ((List.range (shardK w + shardM w)).filter fun i => !bit (eraseMask w) i).take (shardK w)

/-- The data shards from the survivors: the inverse of their rows of the generator, applied to their bytes (R163). -/
def rebuiltData (s : State) (b : Nat) (e : Entry) : List (List Nat) :=
  (invertMatrix (shardK e.word) ((survivors e.word).map (genRow (shardK e.word)))).map fun r =>
    combine (eVal e 3).toNat (r.zip ((survivors e.word).map (shardBytes s b e)))

theorem hdecExec_ok (hc : shardCheck s b e = 0) (hb : ∀ i ∈ survivors e.word, shardBad s b e i = false) : hdecExec b e s =
    .effs (((List.range (shardK e.word + shardM e.word)).filter fun i => bit (eraseMask e.word) i).map fun i =>
      shardStore e i (if i < shardK e.word then ((rebuiltData s b e)[i]?).getD []
        else parityOf (eVal e 3).toNat (i - shardK e.word) (rebuiltData s b e))) := by
  have clean : (survivors e.word).any (shardBad s b e) = false :=
    List.any_eq_false.mpr fun i hi => ne_true_of_eq_false (hb i hi)
  unfold survivors at clean
  rw [hdecExec, hc]
  dsimp only
  rw [clean]
  simp only [Bool.cond_eq_ite, Nat.blt_eq]
  rfl

theorem hsumExec_ok (hc : hsumCheck s b e = 0) : hsumExec b e s =
    .effs [.store (eVal e 3).toNat (leBytes 8 (if wModBits e.word 1 0 = 0 then
        crc32cFrom (storeRead s b (eVal e 1).toNat (eVal e 2).toNat)
          ((if bit (wMod e.word) 2 = true then leNat (storeRead s b (eVal e 3).toNat 8) else 0) % 2 ^ 32)
      else crc64 (storeRead s b (eVal e 1).toNat (eVal e 2).toNat)
        (if bit (wMod e.word) 2 = true then leNat (storeRead s b (eVal e 3).toNat 8) else 0)))] := by
  rw [hsumExec, hc]
  simp only [Bool.cond_eq_ite, beq_iff_eq]
  rfl

end

/-- Settles O22, instruction by instruction. That each clamp of a CXSUM counts as one saturation of its bench is deduced (log entry 282), and
so is the low half of the result that a continued CRC-32C starts from (log entry 54). -/
theorem crucibleAndHallmark : Obligations.CrucibleAndHallmark := by
  unfold Obligations.CrucibleAndHallmark
  intro b e s w n
  refine ⟨fun x a h hp hN hh hk => ?_, fun x a port c h hp hc hn hk hl => ?_, fun x a port c bs h hp hc hn hk hl => ?_,
    fun port c h hp hc hn => ?_, fun p h hp => ?_, fun h hc hb => ?_, fun h hc hb => ?_, fun h hc => ?_⟩
  · refine congrArg Host.Outcome.next ((cred_handle h hp hN hh hk).trans ?_)
    rw [credDone, hh]
  · refine congrArg Host.Outcome.next ((cred_lastPacket h hp hc hn hk hl).trans ?_)
    rw [credDone, hl]
  · exact congrArg Host.Outcome.next (cred_onlyPacket h hp hc hn hk hl)
  · exact congrArg Host.Outcome.next (cred_waits h hp hc hn)
  · exact congrArg Host.Outcome.next (stationExec_effs h (cxsumExec_ok hp))
  · exact congrArg Host.Outcome.next (stationExec_effs h (hencExec_ok hc hb))
  · exact congrArg Host.Outcome.next (stationExec_effs h (hdecExec_ok hc hb))
  · exact congrArg Host.Outcome.next (stationExec_effs h (hsumExec_ok hc))

end Sys2Proof.Machine
end

section
/-! SUPPORT. Byte strings written over and read back, little-endian (R8). -/

namespace Sys2Proof.Machine

@[simp] theorem length_leBytes (n v : Nat) : (leBytes n v).length = n := by
  induction n generalizing v with
  | zero => rfl
  | succ n ih => rw [leBytes, List.length_cons, ih]

/-- The bytes of a number spell it modulo their range. -/
theorem leNat_leBytes (n v : Nat) : leNat (leBytes n v) = v % 256 ^ n := by
  induction n generalizing v with
  | zero => rw [leBytes, leNat, Nat.pow_zero, Nat.mod_one]
  | succ n ih => rw [leBytes, leNat, ih, BitVec.toNat_ofNat, Nat.pow_succ' (m := 256), Nat.mod_mul]

section
variable {bs new : List Byte} {o : Nat}

/-- Bytes written over a string within its length leave the length as it is. -/
theorem length_overBytes (h : o + new.length ≤ bs.length) : (overBytes bs o new).length = bs.length := by
  simp only [overBytes, List.length_append, List.length_take, List.length_drop]
  omega

theorem drop_overBytes (h : o ≤ bs.length) : (overBytes bs o new).drop o = new ++ bs.drop (o + new.length) := by
  rw [overBytes, List.append_assoc, List.drop_left' (List.length_take_of_le h)]

/-- What has been written over a string is read back from its place. -/
theorem sliceBytes_overBytes (h : o ≤ bs.length) : sliceBytes (overBytes bs o new) o new.length = new := by
  rw [sliceBytes, drop_overBytes h, List.take_left]
  simp only [Nat.sub_self, List.replicate_zero, List.append_nil]

/-- The bytes before and behind what is written over a string stay. -/
theorem getElem?_overBytes (h : o ≤ bs.length) {i : Nat} (hi : i < o ∨ o + new.length ≤ i) : (overBytes bs o new)[i]? = bs[i]? := by
  have front : (bs.take o).length = o := List.length_take_of_le h
  obtain before | behind := hi
  · rw [overBytes, List.append_assoc, List.getElem?_append_left (by omega), List.getElem?_take_of_lt before]
  · rw [overBytes, List.getElem?_append_right (by rw [List.length_append]; omega), List.getElem?_drop]
    congr 1
    rw [List.length_append]
    omega

/-- A number written over a string is read back modulo the range of its bytes. -/
theorem leAt_overBytes_leBytes (h : o ≤ bs.length) (n v : Nat) : leAt (overBytes bs o (leBytes n v)) o n = v % 256 ^ n := by
  have read := sliceBytes_overBytes (new := leBytes n v) h
  rw [length_leBytes] at read
  rw [leAt, read, leNat_leBytes]

end

end Sys2Proof.Machine
end

section
/-! SUPPORT. What a record of the Assay table and the numeric system instructions come to (R186, R194, R205 to R212), and the statements
of chapter 6. -/

namespace Sys2Proof.Machine

/-! ## Records -/

/-- The counters of a record lie below PEND (Table 6.4). -/
theorem assayField_end_le (k : Nat) : (assayField k).1 + (assayField k).2 ≤ 60 := by
  unfold assayField
  split <;> decide

section
variable {bs : List Byte} (hbs : bs.length = 128) (k n : Nat)
include hbs

theorem length_assayAdd : (assayAdd bs k n).length = 128 := by
  have inside := assayField_end_le k
  exact (length_overBytes (by rw [length_leBytes]; omega)).trans hbs

/-- A counter is raised and held at its largest value, which its bytes can spell (R206). -/
theorem leAt_assayAdd : leAt (assayAdd bs k n) (assayField k).1 (assayField k).2 =
    Nat.min (256 ^ (assayField k).2 - 1) (leAt bs (assayField k).1 (assayField k).2 + n) := by
  have inside := assayField_end_le k
  have spelt : satTo (256 ^ (assayField k).2 - 1) (leAt bs (assayField k).1 (assayField k).2 + n) < 256 ^ (assayField k).2 :=
    Nat.lt_of_le_of_lt (Nat.min_le_left ..) (Nat.sub_lt (Nat.pow_pos (by decide)) (by decide))
  exact (leAt_overBytes_leBytes (by omega) _ _).trans (Nat.mod_eq_of_lt spelt)

theorem getElem?_assayAdd {i : Nat} (hi : i < (assayField k).1 ∨ (assayField k).1 + (assayField k).2 ≤ i) :
    (assayAdd bs k n)[i]? = bs[i]? := by
  have inside := assayField_end_le k
  exact getElem?_overBytes (by omega) (by rwa [length_leBytes])

end

/-- A record that can be read is committed (R194). -/
theorem commitAt_ok {p a : Nat} {s : State} {bs : List Byte} (h : spaceRead s p a 128 = .ok bs) : commitAt p a s =
    (spaceWrite p (a + 60) (List.replicate 4 0 ++ sliceBytes bs 60 4 ++ sliceBytes bs 64 60) (spaceSeen p a 128 s)).2 := by
  rw [commitAt, h]
  rfl

/-- Settles O28: a counter is written over its own bytes, which can spell its largest value. -/
theorem assayRecord : Obligations.AssayRecord := by
  unfold Obligations.AssayRecord
  refine ⟨fun bs k n hbs _ => ?_, fun p a s bs h => commitAt_ok h⟩
  exact ⟨length_assayAdd hbs k n, leAt_assayAdd hbs k n, fun i hi => getElem?_assayAdd hbs k n hi⟩

/-! ## Commands -/

section
variable {s : State} {b unit opc : Nat} {e : Entry}

/-- A command on the taken system-queue entry of its instruction acts on it. -/
theorem onSys_taken {f : Entry → State → State} (h : sysEntry s b unit opc = some e) : onSys b unit opc f s = f e s := by
  rw [onSys, h]

theorem seedsetEntry_waits (h : seedWanted (bench s b) (wImmBits e.word 3 0) e = true) : seedsetEntry b e s = s := by
  rw [seedsetEntry, h, cond_true]

theorem seedsetEntry_loads (h : seedWanted (bench s b) (wImmBits e.word 3 0) e = false) : seedsetEntry b e s =
    sysRetire b (setBench b { bench s b with seeds := tset (bench s b).seeds (wImmBits e.word 3 0) (eVal e 2) } s) := by
  rw [seedsetEntry, h, cond_false]
  rfl

/-- An instruction on TAGs faults once ASYEN has been cleared (R212). -/
theorem tagInstr_off {f : Nat → Nat → State → State} (h : flag s .numCtl (benchPart s b) 0 0 = false) :
    tagInstr b e f s = reportFault b 13 e.off 0x0602 s := by
  rw [tagInstr, h]
  rfl

/-- It waits for the updates that its role has posted (R208, R209). -/
theorem tagInstr_waits {f : Nat → Nat → State → State} (h : flag s .numCtl (benchPart s b) 0 0 = true) (hr : roleSynced s b = false) :
    tagInstr b e f s = s := by
  rw [tagInstr, h, hr]
  rfl

theorem tagInstr_retires {f : Nat → Nat → State → State} (h : flag s .numCtl (benchPart s b) 0 0 = true) (hr : roleSynced s b = true) :
    tagInstr b e f s = sysRetire b ((tagRange e).foldl (fun u tag => f (benchPart s b) tag u) s) := by
  rw [tagInstr, h, hr]
  rfl

theorem clearRecord_of_hist (hist : Bool) (p tag : Nat) (s : State) : clearRecord (bif hist then 128 else 64) p tag s =
    (spaceWrite p (assayAddr s p tag) (List.replicate (if hist = true then 128 else 64) 0) s).2 := by
  rw [clearRecord, Bool.cond_eq_ite]

theorem asysyncEntry_eq : asysyncEntry b e s = if roleSynced s b = true then sysRetire b s else s := by
  rw [asysyncEntry, Bool.cond_eq_ite]

end

/-- A hub takes the oldest update of its parity out of the posted ones and applies it; where the record lies does not depend on what is
posted (R207, R208). -/
theorem assayApply_oldest {s : State} {p hub n : Nat} {x : Nat × AssayUpd}
    (hn : firstIdx (fun (y : Nat × AssayUpd) => y.2.tag % 2 == hub) (partition s p).assayQ = some n)
    (hx : (partition s p).assayQ[n]? = some x) : assayApply p hub s = updateAt p (assayAddr s p x.2.tag) x.2
      (setPartition p { partition s p with assayQ := listDrop (partition s p).assayQ n } s) := by
  rw [assayApply, hn]
  dsimp only
  rw [hx]
  rfl

/-- Settles O27, instruction by instruction. That ASYSYNC, ASYCLR and NUMHIST wait for the updates that the role posted on
whatever bench is deduced (log entry 56). -/
theorem assayCommands : Obligations.AssayCommands := by
  unfold Obligations.AssayCommands
  intro b e s p w
  refine ⟨fun h hw => ?_, fun h hw => ?_, fun h hf hr => ?_, fun h hf hr => ?_, fun h hf hr => ?_, fun h hf hr => ?_,
    fun h hf => ?_, fun h hf => ?_, fun h => ?_, fun q hub t n x hn hx => ?_⟩
  · exact congrArg Host.Outcome.next ((onSys_taken h).trans (seedsetEntry_waits hw))
  · exact congrArg Host.Outcome.next ((onSys_taken h).trans (seedsetEntry_loads hw))
  · refine congrArg Host.Outcome.next ((onSys_taken h).trans ((tagInstr_retires hf hr).trans ?_))
    simp only [clearRecord_of_hist, p, w]
  · exact congrArg Host.Outcome.next ((onSys_taken h).trans (tagInstr_retires hf hr))
  · exact congrArg Host.Outcome.next ((onSys_taken h).trans (tagInstr_waits hf hr))
  · exact congrArg Host.Outcome.next ((onSys_taken h).trans (tagInstr_waits hf hr))
  · exact congrArg Host.Outcome.next ((onSys_taken h).trans (tagInstr_off hf))
  · exact congrArg Host.Outcome.next ((onSys_taken h).trans (tagInstr_off hf))
  · exact congrArg Host.Outcome.next ((onSys_taken h).trans asysyncEntry_eq)
  · exact congrArg Host.Outcome.next (assayApply_oldest (s := atTime t s) hn hx)

end Sys2Proof.Machine
end

section
/-! SUPPORT. What a step keeps: the canonical form of device memory (R228, R269). -/

namespace Sys2Proof.Machine

/-- A step keeps what every command keeps; it only takes a command out of the queue. -/
theorem step_keeps {s t : State} (h : step s = .next t) : ∃ rest, Keeps { s with pending := rest } t := by
  unfold step at h
  split at h
  case h_1 =>
    cases h
    exact ⟨s.pending, Keeps.refl s⟩
  case h_2 c rest _ =>
    obtain ⟨u, hu, keeps⟩ := exec_keeps c { s with pending := rest }
    cases hu.symm.trans h
    exact ⟨rest, keeps⟩

/-- Settles O4: the queue is no part of device memory, and every command keeps its form. -/
theorem stepKeepsMemoryForm : Obligations.StepKeepsMemoryForm := by
  unfold Obligations.StepKeepsMemoryForm
  intro s t h form
  obtain ⟨rest, keeps⟩ := step_keeps h
  exact keeps.mem form

end Sys2Proof.Machine
end

section
/-! SUPPORT. Bytes and lines of device memory: what is read back, what a scrub clears and what a copy takes along (R228, R269, R270), and the
statement of them. -/

namespace Sys2Proof.Machine

/-! ## Reads -/

@[simp] theorem length_memRead (s : State) (pa n : Nat) : (memRead s pa n).length = n := by
  induction n generalizing pa with
  | zero => rfl
  | succ n ih => rw [memRead, List.length_cons, ih]

theorem getElem_memRead (s : State) {pa n k : Nat} (h : k < (memRead s pa n).length) : (memRead s pa n)[k] = memGet s (pa + k) := by
  induction n generalizing pa k with
  | zero => exact absurd h (Nat.not_lt_zero k)
  | succ n ih =>
    cases k with
    | zero => rfl
    | succ k =>
      have rest := ih (pa := pa + 1) (Nat.lt_of_succ_lt_succ h)
      rw [Nat.add_assoc, Nat.add_comm 1] at rest
      exact rest

/-- What has been written is read back from its place. -/
theorem memRead_memWrite (pa : Nat) (bs : List Byte) (s : State) : memRead (memWrite pa bs s) pa bs.length = bs := by
  refine List.ext_getElem (length_memRead ..) fun k h hk => ?_
  rw [getElem_memRead, memGet_memWrite_inside s pa bs k hk]

/-! ## Frames -/

/-- An entry of a table from which keys have been dropped. -/
theorem tget?_filter_key {α : Type} (keep : Nat → Bool) (t : Tab α) (n : Nat) :
    tget? (t.filter fun c => keep c.1) n = if keep n = true then tget? t n else none := by
  induction t with
  | nil => exact (ite_self none).symm
  | cons c t ih =>
    obtain ⟨k, v⟩ := c
    by_cases hk : k = n
    · subst hk
      cases h : keep k <;> simp [h, tget?, ih]
    · cases h : keep k <;> simp [h, tget?, beq_false_of_ne hk, ih]

/-- A scrubbed frame reads zero, every other as before (R228). -/
theorem memGet_zeroFrame (f : Nat) (s : State) (a : Nat) : memGet (zeroFrame f s) a = if a / 2 ^ 21 = f then 0 else memGet s a := by
  unfold memGet tget zeroFrame
  rw [tget?_filter_key fun n => !(n / 2 ^ 21 == f)]
  by_cases h : a / 2 ^ 21 = f
  · rw [if_pos h, h, beq_self_eq_true]
    rfl
  · rw [if_neg h, beq_false_of_ne h]
    rfl

/-- A scrubbed frame holds no poisoned line, and no line of another changes (R269). -/
theorem poisoned_zeroFrame (f : Nat) (s : State) (l : Nat) : poisoned (zeroFrame f s) l = if l / 32768 = f then false else poisoned s l := by
  unfold poisoned zeroFrame
  rw [Bool.eq_iff_iff, List.contains_iff_mem, List.mem_filter]
  by_cases h : l / 32768 = f
  · simp [h]
  · simp [h, beq_false_of_ne h]

/-- A copy arrives as its source was read. -/
theorem memGet_copyFrame_inside (src dst off : Nat) {n k : Nat} (s : State) (hk : k < n) :
    memGet (copyFrame src dst off n s) (dst * 2 ^ 21 + off + k) = memGet s (src * 2 ^ 21 + off + k) := by
  have inside : k < (memRead s (src * 2 ^ 21 + off) n).length := by rwa [length_memRead]
  exact (memGet_memWrite_inside s _ _ k inside).trans (getElem_memRead s inside)

theorem memGet_copyFrame_outside (src : Nat) {dst off n a : Nat} (s : State) (ha : a < dst * 2 ^ 21 + off ∨ dst * 2 ^ 21 + off + n ≤ a) :
    memGet (copyFrame src dst off n s) a = memGet s a :=
  memGet_memWrite_outside s _ a _ (by rwa [length_memRead])

/-- Settles O31, from what a scrub leaves of memory and poison and what a write of the bytes read leaves. -/
theorem scrubbedFramesReadZero : Obligations.ScrubbedFramesReadZero := by
  unfold Obligations.ScrubbedFramesReadZero
  exact ⟨memGet_zeroFrame, poisoned_zeroFrame, fun src dst off _ s _ _ hk => memGet_copyFrame_inside src dst off s hk,
    fun src _ _ _ s _ _ ha => memGet_copyFrame_outside src s ha⟩

end Sys2Proof.Machine
end

section
/-! SUPPORT. The instructions of allocation as the statement of chapter 7 has them (R222 to R224, R230 to R235, R238). -/

namespace Sys2Proof.Machine

theorem blt_eq_false {m n : Nat} (h : n ≤ m) : Nat.blt m n = false :=
  Bool.eq_false_iff.mpr fun lt => Nat.not_lt.mpr h (Nat.blt_eq.mp lt)

section
variable {s : State} {b : Nat} {e : Entry}

/-! ## Granules -/

theorem gallocEntry_grants {g : Nat} (hn : wImmBits e.word 8 0 ≤ 192)
    (hg : freeRun (bench s b) (bit (wMod e.word) 0) (wImmBits e.word 8 0) = some g) :
    gallocEntry b e s = sysResult b e (BitVec.ofNat 64 (g * 65536))
      (setBench b ((List.range (wImmBits e.word 8 0)).foldl (fun x k => grant (g + k) .alloc x) (bench s b)) s) := by
  unfold gallocEntry
  dsimp only
  rw [blt_eq_false hn, cond_false, hg]
  rfl

theorem gallocEntry_full (hn : wImmBits e.word 8 0 ≤ 192)
    (hg : freeRun (bench s b) (bit (wMod e.word) 0) (wImmBits e.word 8 0) = none) :
    gallocEntry b e s = if wSoft e.word = true then sysResult b e 0 s else reportFault b 13 e.off 0x0281 s := by
  unfold gallocEntry
  dsimp only
  rw [blt_eq_false hn, cond_false, hg]
  exact Bool.cond_eq_ite ..

theorem gfreeEntry_returns (hn : wImmBits e.word 8 0 ≤ 192) (ha : (eVal e 2).toNat % 65536 = 0)
    (hg : ∀ k < wImmBits e.word 8 0, tget? (bench s b).grans ((eVal e 2).toNat / 65536 + k) = some .alloc)
    (hr : earlierRetired (bench s b) e.eid = true) : gfreeEntry b e s = sysRetire b (setBench b
      (((List.range (wImmBits e.word 8 0)).map (· + (eVal e 2).toNat / 65536)).foldl (fun x g => ungrant g x) (bench s b)) s) := by
  have held : ((List.range (wImmBits e.word 8 0)).map (· + (eVal e 2).toNat / 65536)).all
      (fun g => tget? (bench s b).grans g == some .alloc) = true := by
    simp only [List.all_map, List.all_eq_true, List.mem_range, Function.comp_apply, beq_iff_eq]
    intro k hk
    rw [Nat.add_comm]
    exact hg k hk
  unfold gfreeEntry
  dsimp only
  rw [blt_eq_false hn, held, ha, hr]
  rfl

/-! ## Pages -/

/-- PALLOC of an unmapped range whose pages find their frames (R230 to R232). -/
theorem pallocEntry_places {p h c : Nat} {s' : State} (hp : benchPart s b = p)
    (pin : bit (wMod e.word) 5 = true → wModBits e.word 1 0 ≠ 1 ∧ bit (wMod e.word) 4 = false)
    (range : rangeBad (eVal e 2).toNat (eVal e 3).toNat = false)
    (free : ∀ v ∈ pageRange (eVal e 2).toNat (eVal e 3).toNat, leaf? s p v = none ∧ tget? (partition s p).going v = none)
    (split : splitTiers s p (wModBits e.word 1 0) (eVal e 3).toNat (bit (wMod e.word) 5) (wSoft e.word) = .ok (h, c))
    (place : placePages ⟨bit (wMod e.word) 2, bit (wMod e.word) 3, bit (wMod e.word) 4, bit (wMod e.word) 5, ((bench s b).prog).getD 0,
      (tget? s.progs (((bench s b).prog).getD 0)).bind (·.sess)⟩ p (pageRange (eVal e 2).toNat (h + c)) h 0 s = .placed s') :
    pallocEntry b e s = sysResult b e (BitVec.ofNat 64 (h + c)) s' := by
  have pinned : (bit (wMod e.word) 5 && (wModBits e.word 1 0 == 1 || bit (wMod e.word) 4)) = false := by
    cases h5 : bit (wMod e.word) 5
    · rfl
    · obtain ⟨tier, t2d⟩ := pin h5
      rw [beq_false_of_ne tier, t2d]
      rfl
  have unmapped : (pageRange (eVal e 2).toNat (eVal e 3).toNat).any (fun v => (leaf? s p v).isSome) = false :=
    List.any_eq_false.mpr fun v hv => by simp [(free v hv).1]
  have gone : (pageRange (eVal e 2).toNat (eVal e 3).toNat).any (fun v => thas (partition s p).going v) = false :=
    List.any_eq_false.mpr fun v hv => by simp [thas, (free v hv).2]
  have prog : (match (bench s b).prog with | some n => n | none => 0) = ((bench s b).prog).getD 0 := by
    cases (bench s b).prog <;> rfl
  have owner : (match tget? s.progs (match (bench s b).prog with | some n => n | none => 0) with | some x => x.sess | none => none) =
      (tget? s.progs (((bench s b).prog).getD 0)).bind (·.sess) := by
    rw [prog]
    cases tget? s.progs (((bench s b).prog).getD 0) <;> rfl
  unfold pallocEntry
  dsimp only
  rw [hp, pinned, range, unmapped, gone, split]
  dsimp only [cond_false]
  generalize hq : placePages _ p (pageRange (eVal e 2).toNat (h + c)) h 0 s = q
  have placed : q = .placed s' := hq.symm.trans <|
    (congr (congrArg (fun n o => placePages ⟨_, _, _, _, n, o⟩ p _ h 0 s) prog) owner).trans place
  rw [placed]

/-- PFREE of a mapped range that nothing uses: it retires when no translated segment is left in it (R233, R235). -/
theorem pfreeEntry_unmaps {p : Nat} (hp : benchPart s b = p) (phase : e.phase ≠ .started)
    (range : rangeBad (eVal e 2).toNat (eVal e 3).toNat = false)
    (mapped : allMapped s p (pageRange (eVal e 2).toNat (eVal e 3).toNat) = true)
    (idle : (pageRange (eVal e 2).toNat (eVal e 3).toNat).any (pageInUse s p) = false) {vs : List Nat}
    (hvs : pageRange (eVal e 2).toNat (eVal e 3).toNat = vs) {v : State}
    (hv : vs.foldl (fun s a => revokePage p a (unmapPage p a s)) s = v) :
    pfreeEntry b e s = if vs.any (fun a => thas (partition v p).going a) = true
      then setBench b { bench v b with taken := some { e with phase := .started } } v else sysRetire b v := by
  unfold pfreeEntry
  dsimp only
  rw [hp, beq_false_of_ne phase, range, mapped, idle, hvs, hv, Bool.not_true, cond_false, cond_false, cond_false, cond_false]
  exact Bool.cond_eq_ite ..

/-- A PFREE that has unmapped its range waits for the segments already translated (R233). -/
theorem pfreeEntry_waits {p : Nat} (hp : benchPart s b = p) (phase : e.phase = .started) {vs : List Nat}
    (hvs : pageRange (eVal e 2).toNat (eVal e 3).toNat = vs) :
    pfreeEntry b e s = if vs.any (fun a => thas (partition (reapPages p s) p).going a) = true then reapPages p s
      else sysRetire b (reapPages p s) := by
  unfold pfreeEntry
  dsimp only
  rw [hp, phase, hvs, beq_self_eq_true, cond_true]
  exact Bool.cond_eq_ite ..

/-- PPIN with MOD[0] takes the pins of a range that must not stay pinned (R235). -/
theorem ppinEntry_unpins {p : Nat} (hp : benchPart s b = p) (unpin : bit (wMod e.word) 0 = true)
    (range : rangeBad (eVal e 2).toNat (eVal e 3).toNat = false)
    (mapped : allMapped s p (pageRange (eVal e 2).toNat (eVal e 3).toNat) = true)
    (idle : (pageRange (eVal e 2).toNat (eVal e 3).toNat).any (pageInUse s p) = false) :
    ppinEntry b e s = sysRetire b ((pageRange (eVal e 2).toNat (eVal e 3).toNat).foldl (fun s a => pinPage p a false s) s) := by
  unfold ppinEntry
  dsimp only
  rw [hp, unpin, range, mapped, idle]
  rfl

/-- PPIN of a range in HBM, none of it T2D, within the pin limit (R234). -/
theorem ppinEntry_pins {p : Nat} (hp : benchPart s b = p) (unpin : bit (wMod e.word) 0 = false)
    (range : rangeBad (eVal e 2).toNat (eVal e 3).toNat = false)
    (mapped : allMapped s p (pageRange (eVal e 2).toNat (eVal e 3).toNat) = true)
    (resident : ∀ a ∈ pageRange (eVal e 2).toNat (eVal e 3).toNat, ∀ l, leaf? s p a = some l → l.res = 0 ∧ l.t2d = false)
    (limit : pinnedPages s p + ((pageRange (eVal e 2).toNat (eVal e 3).toNat).filter fun a =>
      match leaf? s p a with | some l => !l.pin | none => false).length ≤ pinLimit s p) :
    ppinEntry b e s = sysRetire b ((pageRange (eVal e 2).toNat (eVal e 3).toNat).foldl (fun s a => pinPage p a true s) s) := by
  have t2d : (pageRange (eVal e 2).toNat (eVal e 3).toNat).any
      (fun v => match leaf? s p v with | some l => l.t2d | none => false) = false := by
    refine List.any_eq_false.mpr fun v hv => ?_
    cases hl : leaf? s p v with
    | none => exact Bool.false_ne_true
    | some l => exact Bool.eq_false_iff.mp (resident v hv l hl).2
  have away : (pageRange (eVal e 2).toNat (eVal e 3).toNat).filter
      (fun v => match leaf? s p v with | some l => !(l.res == 0) | none => false) = [] := by
    refine List.filter_eq_nil_iff.mpr fun v hv => ?_
    cases hl : leaf? s p v with
    | none => exact Bool.false_ne_true
    | some l =>
      dsimp only
      rw [(resident v hv l hl).1]
      exact Bool.false_ne_true
  unfold ppinEntry
  dsimp only
  rw [hp, unpin, range, mapped, Bool.not_true, cond_false, cond_false, cond_false]
  refine (congrArg (bif · then _ else _) t2d).trans ?_
  refine (congrArg (bif · then _ else _) (blt_eq_false limit)).trans ?_
  rw [cond_false]
  generalize hq : List.filter (α := Nat) _ _ = q
  rw [show q = [] from hq.symm.trans away]

/-- PPROT of a mapped range (R230). -/
theorem pprotEntry_protects {p : Nat} (hp : benchPart s b = p) (range : rangeBad (eVal e 2).toNat (eVal e 3).toNat = false)
    (mapped : allMapped s p (pageRange (eVal e 2).toNat (eVal e 3).toNat) = true) :
    pprotEntry b e s = sysRetire b ((pageRange (eVal e 2).toNat (eVal e 3).toNat).foldl (fun s a => match leaf? s p a with
      | some l => setLeaf p a { l with wr := bit (wMod e.word) 0 } (dropTlb p a s) | none => s) s) := by
  unfold pprotEntry
  dsimp only
  rw [hp, range, mapped]
  rfl

end

/-- Settles O29, instruction by instruction. That the range, mapping, quota and pin checks are the hub engine's, and that PPIN pins the pages
of its range together, is deduced (log entries 62 and 63). -/
theorem allocationInstructions : Obligations.AllocationInstructions := by
  unfold Obligations.AllocationInstructions
  intro b e t s p u w n va vs
  have taken : ∀ {unit opc : Nat} {f : Entry → State → State}, sysEntry s b unit opc = some e → onSys b unit opc f u = f e u :=
    fun h => onSys_taken h
  refine ⟨fun g h hn hg => ?galloc, fun h hn hg => ?gallocFull, fun h hn ha hg hr => ?gfree,
    fun k c v h pin range free split place => ?palloc, fun h phase range mapped idle => ?pfree, fun h phase => ?pfreeStarted,
    fun h unpin range mapped idle => ?unpin, fun h unpin range mapped resident limit => ?pin, fun h range mapped => ?pprot,
    fun h => ?pquery⟩
  case galloc => exact congrArg Host.Outcome.next ((onSys_taken h).trans (gallocEntry_grants hn hg))
  case gallocFull => exact congrArg Host.Outcome.next ((onSys_taken h).trans (gallocEntry_full hn hg))
  case gfree => exact congrArg Host.Outcome.next ((onSys_taken h).trans (gfreeEntry_returns hn ha hg hr))
  case palloc => exact congrArg Host.Outcome.next ((taken h).trans (pallocEntry_places rfl pin range free split place))
  case pfree => exact congrArg Host.Outcome.next ((onSys_taken h).trans (pfreeEntry_unmaps rfl phase range mapped idle rfl rfl))
  case pfreeStarted => exact congrArg Host.Outcome.next ((onSys_taken h).trans (pfreeEntry_waits rfl phase rfl))
  case unpin => exact congrArg Host.Outcome.next ((taken h).trans (ppinEntry_unpins rfl unpin range mapped idle))
  case pin => exact congrArg Host.Outcome.next ((taken h).trans (ppinEntry_pins rfl unpin range mapped resident limit))
  case pprot => exact congrArg Host.Outcome.next ((onSys_taken h).trans (pprotEntry_protects rfl range mapped))
  case pquery => exact congrArg Host.Outcome.next (onSys_taken h)

end Sys2Proof.Machine
end

section
/-! SUPPORT. Walks and Drift as the statement of chapter 7 has them (R239, R241 to R247, R270). -/

namespace Sys2Proof.Machine

/-! ## Walks (R239) -/

theorem pageWalk_walks {s : State} {q n : Nat} {r : Req} {g : Seg} (hr : tget? s.reqs q = some r) (hg : r.segs[n]? = some g)
    (hw : g.state = .walking) (mapped : (leaf? s r.part (g.va / 2 ^ 21)).isSome = true) :
    pageWalk q n s = touchSegment q n r g (modBench r.bench
      (fun x => { x with tlbs := tset x.tlbs (r.ord % 2) (touchLru 256 (g.va / 2 ^ 21) (tget x.tlbs (r.ord % 2) [])) })
      { s with walks := tset s.walks (r.part % 2) (touchLru 64 (r.part * 2 ^ 18 + g.va / 2 ^ 21 / 512) (tget s.walks (r.part % 2) [])) }) := by
  unfold pageWalk
  rw [hr]
  dsimp only
  rw [hg]
  dsimp only
  rw [hw, beq_self_eq_true, cond_true]
  exact congrArg (fun c => touchSegment q n r g (bif c then _ else _)) mapped

/-! ## Demand fetches (R241, R244, R247) -/

/-- Drift turns to a page: it is asked for, or hinted while nothing is asked for and no demotion is due. -/
def TurnsTo (x : Partition) (v : Nat) : Prop :=
  x.demand.contains v = true ∨ (x.prefetch.contains v = true ∧ x.demand = [] ∧ x.demoting = false)

/-- A page is no longer asked for. -/
def forgetPage (v : Nat) (x : Partition) : Partition :=
  { x with demand := x.demand.filter (· != v), prefetch := x.prefetch.filter (· != v) }

section
variable {s : State} {p v : Nat} (asked : TurnsTo (partition s p) v)
include asked

theorem turnsTo_bool : (!((partition s p).demand.contains v ||
    ((partition s p).prefetch.contains v && (partition s p).demand.isEmpty && !(partition s p).demoting))) = false := by
  rcases asked with demanded | ⟨hinted, none, idle⟩
  · rw [demanded]
    rfl
  · rw [hinted, none, idle]
    rfl

theorem demandFetch_unmapped (hl : leaf? s p v = none) : demandFetch p v s = failWaiting p v 0x0501 s := by
  unfold demandFetch
  dsimp only
  rw [turnsTo_bool asked, cond_false, hl]

variable {l : Leaf} (hl : leaf? s p v = some l) (res : l.res = 1) (t2d : l.t2d = false)
include hl res t2d

theorem demandFetch_fenced (fenced : l.fen = true ∨ frameFenced s l.frame = true) : demandFetch p v s = failWaiting p v 0x0301 s := by
  have gone : (l.fen || frameFenced s l.frame) = true := (Bool.or_eq_true ..).mpr fenced
  unfold demandFetch
  dsimp only
  rw [turnsTo_bool asked, cond_false, hl]
  dsimp only
  rw [res, t2d, gone]
  rfl

theorem demandFetch_begins {g f : Nat} (fen : l.fen = false) (up : frameFenced s l.frame = false) (room : hbmRoom s p = some (g, f)) :
    demandFetch p v s = modPartition p (forgetPage v) (beginIn p v l f g false s) := by
  unfold demandFetch
  dsimp only
  rw [turnsTo_bool asked, cond_false, hl]
  dsimp only
  rw [res, t2d, fen, up, room]
  rfl

end

/-- A page on its way to a frame of HBM (R241, R266). -/
theorem partition_beginIn (p v : Nat) (l : Leaf) (f g : Nat) (pinAfter : Bool) (s : State) : partition (beginIn p v l f g pinAfter s) p =
    { partition s p with lastGroup := some g, moves := tset (partition s p).moves v ⟨true, f, [], pinAfter⟩
                         leaves := tset (partition s p).leaves v { l with res := 2 } } := by
  rw [beginIn, partition_modPartition_self, takeHbm, partition_modPartition_self]
  rfl

theorem frames_beginIn (p v : Nat) (l : Leaf) (f g : Nat) (pinAfter : Bool) (s : State) :
    (beginIn p v l f g pinAfter s).frames = tset s.frames f .used := rfl

/-! ## The end of waits -/

/-- Segments that wait for a page go on or fail: requests change, and the registers that count. -/
def Wakes (s t : State) : Prop := ∃ ctl reqs, t = { s with ctl := ctl, reqs := reqs }

theorem Wakes.refl (s : State) : Wakes s s := ⟨s.ctl, s.reqs, rfl⟩

theorem Wakes.trans {s t u : State} (h : Wakes s t) (g : Wakes t u) : Wakes s u := by
  obtain ⟨_, _, rfl⟩ := h
  obtain ⟨_, _, rfl⟩ := g
  exact ⟨_, _, rfl⟩

section
variable {s t : State} (h : Wakes s t)
include h

theorem Wakes.partition_eq (p : Nat) : partition t p = partition s p := by
  obtain ⟨_, _, rfl⟩ := h
  rfl

theorem Wakes.mem_eq : t.mem = s.mem := by
  obtain ⟨_, _, rfl⟩ := h
  rfl

theorem Wakes.poison_eq : t.poison = s.poison := by
  obtain ⟨_, _, rfl⟩ := h
  rfl

theorem Wakes.frames_eq : t.frames = s.frames := by
  obtain ⟨_, _, rfl⟩ := h
  rfl

theorem Wakes.scrubQ_eq : t.scrubQ = s.scrubQ := by
  obtain ⟨_, _, rfl⟩ := h
  rfl

end

theorem wakes_bump (r : Reg) (i j n : Nat) (s : State) : Wakes s (bump r i j n s) := ⟨_, s.reqs, rfl⟩

theorem wakes_modSeg (req seg : Nat) (f : Seg → Seg) (s : State) : Wakes s (modSeg req seg f s) := by
  unfold modSeg
  split
  · exact ⟨s.ctl, _, rfl⟩
  · exact Wakes.refl s

theorem wakes_endWait (req seg : Nat) (st : SegState) (status : Status) (s : State) : Wakes s (endWait req seg st status s) := by
  unfold endWait
  split
  · exact Wakes.refl s
  · split
    · exact Wakes.refl s
    · exact (wakes_modSeg req seg _ s).trans (wakes_bump ..)

theorem wakes_foldl_endWait (l : List (Nat × Nat)) (s : State) : Wakes s (l.foldl (fun s w => endWait w.1 w.2 .moving 0 s) s) :=
  rel_foldl Wakes.refl Wakes.trans (fun w _ u => wakes_endWait w.1 w.2 .moving 0 u) s

theorem wakes_resumeReads (p v : Nat) (frags : List Nat) (s : State) : Wakes s (resumeReads p v frags s) := by
  refine rel_foldl Wakes.refl Wakes.trans (fun w _ u => ?_) s
  simp only [Bool.cond_eq_ite]
  split
  · exact Wakes.refl u
  · split
    · exact Wakes.refl u
    · split
      · exact wakes_endWait w.1 w.2 .moving 0 u
      · exact Wakes.refl u

/-! ## Fragments (R245, R247, R251, R270) -/

section
variable {s : State} {p v k : Nat} {m : PageMove} {l : Leaf}

theorem fragmentArrive_of_missing (hm : tget? (partition s p).moves v = some m) (hl : leaf? s p v = some l)
    (missing : m.frags.contains k = false) : fragmentArrive p v k s =
      whenAdmitted p ((if m.toHbm = true then m.target else l.frame) * 2 ^ 21 + k * 65536) 65536 (fragmentMove p v k m l) s := by
  unfold fragmentArrive
  rw [hm, hl]
  dsimp only
  rw [missing, cond_false, Bool.cond_eq_ite]

theorem whenAdmitted_waits {pa n : Nat} {f : State → State} (h : admittedAt s p pa = false) : whenAdmitted p pa n f s = waitAt p pa s := by
  rw [whenAdmitted, h, cond_false]

theorem whenAdmitted_goesOn {pa n : Nat} {f : State → State} (h : admittedAt s p pa = true) :
    whenAdmitted p pa n f s = f (spendAt p pa n s) := by
  rw [whenAdmitted, h, cond_true]

variable {y : State} (hy : flawsSeen (l.frame * 2 ^ 21 + k * 65536) 65536 s = y)
include hy

/-- An error found on the way that has ended the move leaves nothing to copy (R246). -/
theorem fragmentMove_ended (h : thas (partition y p).moves v = false) : fragmentMove p v k m l s = y := by
  unfold fragmentMove
  dsimp only
  rw [hy, h]
  rfl

/-- A fragment is copied and counted among those that have arrived; reads that wait for it go on. -/
theorem fragmentMove_copies (h : thas (partition y p).moves v = true) :
    Wakes (modPartition p (fun x => { x with moves := tset x.moves v { m with frags := insertNat k m.frags } })
      (copyFrame l.frame m.target (k * 65536) 65536 y)) (fragmentMove p v k m l s) := by
  unfold fragmentMove
  dsimp only
  rw [hy, h, Bool.not_true, cond_false]
  cases m.toHbm
  · exact Wakes.refl _
  · exact wakes_resumeReads ..

end

/-! ## The end of a move (R228, R245) -/

/-- A frame freed waits for scrubbing, or is withdrawn when its unit is fenced. -/
theorem frames_releaseFrame (f : Nat) (s : State) :
    tget? (releaseFrame f s).frames f = some (if frameFenced s f = true then .withdrawn else .scrub) := by
  unfold releaseFrame
  cases frameFenced s f <;> exact tget?_tset_self ..

theorem scrubQ_releaseFrame {f : Nat} {s : State} (h : frameFenced s f = false) :
    tget (releaseFrame f s).scrubQ (frameNumber f % 2) [] = tget s.scrubQ (frameNumber f % 2) [] ++ [f] := by
  rw [releaseFrame, h]
  exact tget_tset_self ..

theorem partition_releaseFrame (f : Nat) (s : State) (p : Nat) : partition (releaseFrame f s) p = partition s p := by
  unfold releaseFrame
  cases frameFenced s f <;> rfl

/-- The leaf of a page whose 32 fragments have arrived is switched to the new frame. -/
def switchPage (v : Nat) (m : PageMove) (l : Leaf) (x : Partition) : Partition :=
  { x with moves := terase x.moves v, leaves := tset x.leaves v { l with res := if m.toHbm = true then 0 else 1, frame := m.target } }

theorem moveComplete_switches {s : State} {p v : Nat} {m : PageMove} {l : Leaf} (hm : tget? (partition s p).moves v = some m)
    (hl : leaf? s p v = some l) (full : m.frags.length = 32) :
    Wakes (releaseFrame l.frame (modPartition p (switchPage v m l) (dropTlb p v s))) (moveComplete p v s) := by
  unfold moveComplete
  rw [hm, hl]
  dsimp only
  rw [full, beq_self_eq_true, cond_true]
  unfold switchPage
  cases m.toHbm
  · exact wakes_bump ..
  · exact (wakes_bump ..).trans (wakes_foldl_endWait ..)

/-! ## Demotions (R243, R247) -/

/-- The HBM use that Drift compares with its marks: pages on their way out no longer count (log entry 64). -/
def stayingUse (s : State) (p : Nat) : Nat := hbmUse s p - ((partition s p).moves.filter fun m => !m.2.toHbm).length

/-- Demotions are due (R243). -/
def demotionDue (p : Nat) (s : State) : State := modPartition p (fun x => { x with demoting := true }) s

section
variable {s : State} {p : Nat}

theorem partition_demotionDue : partition (demotionDue p s) p = { partition s p with demoting := true } := partition_modPartition_self ..

theorem t2Use_demotionDue : t2Use (demotionDue p s) p = t2Use s p := by rw [t2Use, partition_demotionDue, t2Use]

theorem coldest_demotionDue : coldest (demotionDue p s) p = coldest s p := by rw [coldest, partition_demotionDue, coldest]

/-- The coldest page begins to move out (R243). -/
theorem beginDemote_begins {v f : Nat} {l : Leaf} (cold : coldest s p = some (v, l)) (room : nextTier2 s = some f)
    (quota : t2Use s p < t2Quota s p) : beginDemote p s = some (modPartition p (fun x => { x with
      moves := tset x.moves v ⟨false, f, [], false⟩, leaves := tset x.leaves v { l with res := 3 } }) (useFrame f (dropTlb p v s))) := by
  unfold beginDemote
  rw [cold, room]
  dsimp only
  rw [Nat.blt_eq.mpr quota, cond_true]

variable (marks : lowMark s p < highMark s p) (high : highMark s p * hbmQuota s p < stayingUse s p * 100)
include marks high

/-- What Drift does once use has risen above HIWM. -/
theorem driftDemote_high : driftDemote p s =
    bif !((nextTier2 s).isSome && Nat.blt (t2Use s p) (t2Quota s p)) then
      bif (partition s p).highWarn then demotionDue p s
      else raise 0xC006 2 (some p) 0 0 (modPartition p (fun x => { x with highWarn := true }) (demotionDue p s))
    else bif !((partition s p).demand.isEmpty) then demotionDue p s
    else (beginDemote p (demotionDue p s)).getD (demotionDue p s) := by
  have above : Nat.blt (highMark s p * hbmQuota s p) (stayingUse s p * 100) = true := Nat.blt_eq.mpr high
  have due : Nat.blt (lowMark s p) (highMark s p) = true := Nat.blt_eq.mpr marks
  have same : modPartition p (fun x => { x with demoting := true, highWarn := x.highWarn && true }) s = demotionDue p s := by
    simp only [Bool.and_true]
    rfl
  have units : nextTier2 (demotionDue p s) = nextTier2 s ∧ t2Quota (demotionDue p s) p = t2Quota s p := ⟨rfl, rfl⟩
  unfold driftDemote
  dsimp only
  unfold stayingUse at above
  rw [above, due, Bool.true_and, Bool.true_or, same, units.1, units.2, t2Use_demotionDue, partition_demotionDue, Bool.not_true, cond_false]
  cases beginDemote p (demotionDue p s) <;> rfl

theorem driftDemote_begins {v f : Nat} {l : Leaf} (idle : (partition s p).demand = []) (cold : coldest s p = some (v, l))
    (room : nextTier2 s = some f) (quota : t2Use s p < t2Quota s p) : driftDemote p s = modPartition p (fun x => { x with
      moves := tset x.moves v ⟨false, f, [], false⟩, leaves := tset x.leaves v { l with res := 3 } })
      (useFrame f (dropTlb p v (demotionDue p s))) := by
  have begun := beginDemote_begins (coldest_demotionDue.trans cold) (show nextTier2 (demotionDue p s) = some f from room)
    (Nat.lt_of_le_of_lt (Nat.le_of_eq t2Use_demotionDue) quota)
  rw [driftDemote_high marks high, room, Nat.blt_eq.mpr quota, idle, begun]
  rfl

theorem driftDemote_warns (full : nextTier2 s = none ∨ t2Quota s p ≤ t2Use s p) : driftDemote p s =
    if (partition s p).highWarn = true then demotionDue p s
    else raise 0xC006 2 (some p) 0 0 (modPartition p (fun x => { x with highWarn := true }) (demotionDue p s)) := by
  have none : ((nextTier2 s).isSome && Nat.blt (t2Use s p) (t2Quota s p)) = false := by
    rcases full with gone | used
    · rw [gone]
      rfl
    · rw [blt_eq_false used, Bool.and_false]
  rw [driftDemote_high marks high, none, Bool.not_false, cond_true, Bool.cond_eq_ite]

end

end Sys2Proof.Machine
end

section
/-! SUPPORT. Bandwidth tokens, and the events of paging as the statement of chapter 7 has them (R228, R239, R241 to R245, R251). -/

namespace Sys2Proof.Machine

/-! ## HEAT and scrubbing (R228, R242) -/

theorem heatDecay_halves {s : State} {p : Nat} (period : fld s .pgeCtl p 0 7 0 ≠ 0)
    (due : (partition s p).decayed + fld s .pgeCtl p 0 7 0 * 100000 ≤ s.time) :
    heatDecay p s = setPartition p { partition s p with
      decayed := s.time, leaves := (partition s p).leaves.map fun l => (l.1, { l.2 with heat := l.2.heat / 2 }) } s := by
  have runs : fld s .pgeCtl p 0 7 0 * 100000 ≠ 0 := Nat.mul_ne_zero period (by decide)
  unfold heatDecay
  dsimp only
  rw [beq_false_of_ne runs, blt_eq_false due]
  rfl

/-- The frame freed first is scrubbed, and free again unless its unit is fenced. -/
theorem frameScrub_scrubs {s : State} {hub f : Nat} {q : List Nat} (first : tget s.scrubQ hub [] = f :: q) :
    frameScrub hub s = zeroFrame f { s with
      scrubQ := tset s.scrubQ hub q
      frames := if frameFenced s f = true then tset s.frames f .withdrawn else terase s.frames f } := by
  have unit : frameFenced (zeroFrame f { s with scrubQ := tset s.scrubQ hub q }) f = frameFenced s f := rfl
  unfold frameScrub
  rw [first]
  dsimp only
  rw [unit]
  cases frameFenced s f <;> rfl

/-! ## Tokens (R251) -/

/-- The steps of a fold over different entries of which one matters: the relation holds over all before it and all after it. -/
theorem rel_foldl_once {α : Type} {R : State → State → Prop} (refl : ∀ s, R s s) (trans : ∀ {s t u}, R s t → R t u → R s u)
    {f : State → α → State} {l : List α} (nodup : l.Nodup) {x : α} (hx : x ∈ l) (other : ∀ y, y ≠ x → ∀ s, R s (f s y)) (s : State) :
    ∃ u, R s u ∧ R (f u x) (l.foldl f s) := by
  obtain ⟨a, b, rfl⟩ := List.append_of_mem hx
  obtain ⟨-, hb, apart⟩ := List.nodup_append.mp nodup
  refine ⟨a.foldl f s, rel_foldl refl trans (fun y hy => other y (apart y hy x List.mem_cons_self)) s, ?_⟩
  rw [List.foldl_append, List.foldl_cons]
  exact rel_foldl refl trans (fun y hy => other y (ne_of_mem_of_not_mem hy (List.nodup_cons.mp hb).1)) _

/-- A step that leaves the registers, the bucket of partition `p` at group `g` and what `p` owes there. -/
structure LeavesBucket (p g : Nat) (s t : State) : Prop where
  ctl : t.ctl = s.ctl
  tokens : tget? (partition t p).tokens g = tget? (partition s p).tokens g
  owed : tget? (partition t p).owed g = tget? (partition s p).owed g

section
variable {p g : Nat}

theorem LeavesBucket.refl (s : State) : LeavesBucket p g s s := ⟨rfl, rfl, rfl⟩

theorem LeavesBucket.trans {s t u : State} (h : LeavesBucket p g s t) (k : LeavesBucket p g t u) : LeavesBucket p g s u :=
  ⟨k.ctl.trans h.ctl, k.tokens.trans h.tokens, k.owed.trans h.owed⟩

theorem bucketDepth_of_ctl {s t : State} (h : t.ctl = s.ctl) (q : Nat) : bucketDepth t q = bucketDepth s q := by
  rw [bucketDepth, fld, raw, h]
  rfl

theorem LeavesBucket.bucket_eq {s t : State} (h : LeavesBucket p g s t) : bucket t p g = bucket s p g := by
  rw [bucket, tget, h.tokens, bucketDepth_of_ctl h.ctl]
  rfl

theorem LeavesBucket.owedAt_eq {s t : State} (h : LeavesBucket p g s t) : owedAt t p g = owedAt s p g := by
  rw [owedAt, tget, h.owed]
  rfl

/-- The refill of another bucket, of this partition or another. -/
theorem leavesBucket_refillBucket {q k : Nat} (other : q ≠ p ∨ k ≠ g) (depth add : Nat) (s : State) :
    LeavesBucket p g s (refillBucket q depth add k s) := by
  unfold refillBucket
  by_cases hq : p = q
  · subst hq
    have hk : g ≠ k := (other.resolve_left (· rfl)).symm
    refine ⟨rfl, ?_, ?_⟩ <;> dsimp only <;> rw [partition_modPartition_self]
    · exact tget?_tset_ne _ _ _ _ hk
    · cases owedAt s p k - Nat.min add (owedAt s p k) == 0
      · exact tget?_tset_ne _ _ _ _ hk
      · exact tget?_terase_ne _ _ _ hk
  · refine ⟨rfl, ?_, ?_⟩ <;> dsimp only <;> rw [partition_modPartition_ne _ _ hq]

/-- A bucket first pays what it owes, then gains what is left up to its depth. -/
theorem bucket_refillBucket (p depth add g : Nat) (s : State) :
    bucket (refillBucket p depth add g s) p g = Nat.min depth (bucket s p g + (add - owedAt s p g)) := by
  have pay : add - Nat.min add (owedAt s p g) = add - owedAt s p g := by simp only [Nat.min_def]; split <;> omega
  rw [bucket, refillBucket, partition_modPartition_self]
  dsimp only
  rw [tget_tset_self, pay]

theorem owedAt_refillBucket (p depth add g : Nat) (s : State) : owedAt (refillBucket p depth add g s) p g = owedAt s p g - add := by
  have left : owedAt s p g - Nat.min add (owedAt s p g) = owedAt s p g - add := by simp only [Nat.min_def]; split <;> omega
  rw [owedAt, refillBucket, partition_modPartition_self]
  dsimp only
  rw [left]
  by_cases paid : owedAt s p g - add = 0
  · rw [paid, beq_self_eq_true, cond_true, tget, tget?_terase_self, Option.getD_none]
  · rw [beq_false_of_ne paid, cond_false, tget_tset_self]

end

/-- One cycle of the buckets of a partition. -/
def refillPart (s : State) (p : Nat) : State :=
  bif fld s .alcBw p 0 8 0 == 0 then s
  else (List.range 96).foldl (fun u g => refillBucket p (bucketDepth u p) (fld s .alcBw p 0 8 0 * 5) g u) s

theorem tokenRefill_eq (s : State) : tokenRefill s = (List.range 8).foldl refillPart s := rfl

theorem leavesBucket_refillPart {p q : Nat} (g : Nat) (other : q ≠ p) (s : State) : LeavesBucket p g s (refillPart s q) := by
  unfold refillPart
  cases fld s .alcBw q 0 8 0 == 0
  · rw [cond_false]
    exact rel_foldl LeavesBucket.refl LeavesBucket.trans (fun k _ u => leavesBucket_refillBucket (.inl other) _ _ u) s
  · exact LeavesBucket.refl s

section
variable {s : State} {p g : Nat} (hg : g < 96) (rate : fld s .alcBw p 0 8 0 ≠ 0)
include hg rate

theorem refillPart_refills : ∃ u, LeavesBucket p g s u ∧
    LeavesBucket p g (refillBucket p (bucketDepth u p) (fld s .alcBw p 0 8 0 * 5) g u) (refillPart s p) := by
  unfold refillPart
  rw [beq_false_of_ne rate, cond_false]
  exact rel_foldl_once LeavesBucket.refl LeavesBucket.trans List.nodup_range (List.mem_range.mpr hg)
    (fun k hk u => leavesBucket_refillBucket (.inr hk) (bucketDepth u p) (fld s .alcBw p 0 8 0 * 5) u) s

theorem bucket_refillPart : bucket (refillPart s p) p g =
    Nat.min (bucketDepth s p) (bucket s p g + (fld s .alcBw p 0 8 0 * 5 - owedAt s p g)) := by
  obtain ⟨u, before, after⟩ := refillPart_refills hg rate
  rw [after.bucket_eq, bucket_refillBucket, before.bucket_eq, before.owedAt_eq, bucketDepth_of_ctl before.ctl]

theorem owedAt_refillPart : owedAt (refillPart s p) p g = owedAt s p g - fld s .alcBw p 0 8 0 * 5 := by
  obtain ⟨u, before, after⟩ := refillPart_refills hg rate
  rw [after.owedAt_eq, owedAt_refillBucket, before.owedAt_eq]

/-- One cycle refills every bucket once. -/
theorem tokenRefill_refills (hp : p < 8) : bucket (tokenRefill s) p g =
      Nat.min (bucketDepth s p) (bucket s p g + (5 * fld s .alcBw p 0 8 0 - owedAt s p g)) ∧
    owedAt (tokenRefill s) p g = owedAt s p g - 5 * fld s .alcBw p 0 8 0 := by
  obtain ⟨u, before, after⟩ := rel_foldl_once LeavesBucket.refl LeavesBucket.trans List.nodup_range (List.mem_range.mpr hp)
    (fun q hq v => leavesBucket_refillPart (p := p) g hq v) s
  have same : fld u .alcBw p 0 8 0 = fld s .alcBw p 0 8 0 := by rw [fld, raw, before.ctl]; rfl
  have runs : fld u .alcBw p 0 8 0 ≠ 0 := same ▸ rate
  rw [tokenRefill_eq, after.bucket_eq, after.owedAt_eq, bucket_refillPart hg runs, owedAt_refillPart hg runs, before.bucket_eq,
    before.owedAt_eq, bucketDepth_of_ctl before.ctl, same, Nat.mul_comm]
  exact ⟨rfl, rfl⟩

end

/-! ## The statement -/

/-- Settles O30, event by event. That use is counted without the pages on their way out is deduced (log entry 64), and so is that fragments
arrive in any order (log entry 65) and that a bucket owes what an admitted access lacks (log entry 272). -/
theorem pagingEvents : Obligations.PagingEvents := by
  unfold Obligations.PagingEvents
  intro t s u
  refine ⟨fun q n r g l hr hg hw hl => ?walk, fun p v => ?fetch, fun p v k m l hm hl missing => ?fragment,
    fun p v m l hm hl full => ?complete, fun p => ?demote, fun p period due => ?decay, fun hub f q first => ?scrub,
    ⟨tokenRefill s, rfl, fun p g hg rate => tokenRefill_refills hg rate p.isLt⟩⟩
  case walk => exact congrArg Host.Outcome.next (pageWalk_walks (s := u) hr hg hw (Option.isSome_iff_exists.mpr ⟨l, hl⟩))
  case fetch =>
    intro x asked
    refine ⟨fun l g f turns hl res t2d fen up room => ?begins, fun turns hl => ?unmapped, fun l turns hl res t2d gone => ?fenced⟩
    case begins =>
      refine ⟨_, congrArg Host.Outcome.next (demandFetch_begins (s := u) turns hl res t2d fen up room), ?_⟩
      unfold leaf?
      rw [partition_modPartition_self, partition_beginIn]
      exact ⟨tget?_tset_self .., tget?_tset_self .., tget?_tset_self .., rfl, rfl, rfl⟩
    case unmapped => exact congrArg Host.Outcome.next (demandFetch_unmapped (s := u) turns hl)
    case fenced => exact congrArg Host.Outcome.next (demandFetch_fenced (s := u) turns hl res t2d gone)
  case fragment =>
    intro a y
    have arrives : exec (.driftFragmentArrive p v k t) s = .next (whenAdmitted p a 65536 (fragmentMove p v k m l) u) :=
      congrArg Host.Outcome.next (fragmentArrive_of_missing (s := u) hm hl missing)
    refine ⟨fun held => ?held, fun goes ended => ?ended, fun goes moves => ?copies⟩
    case held => rw [arrives, whenAdmitted_waits held]
    case ended => rw [arrives, whenAdmitted_goesOn goes, fragmentMove_ended rfl ended]
    case copies =>
      have moved := fragmentMove_copies (m := m) (rfl : flawsSeen _ 65536 (spendAt p a 65536 u) = y) moves
      refine ⟨_, arrives.trans (congrArg Host.Outcome.next (whenAdmitted_goesOn goes)), ?_⟩
      generalize copyFrame l.frame m.target (k * 65536) 65536 y = w at moved ⊢
      refine ⟨?_, moved.mem_eq, moved.poison_eq⟩
      rw [moved.partition_eq, partition_modPartition_self]
      exact tget?_tset_self ..
  case complete =>
    have switched := moveComplete_switches (s := u) hm hl full
    refine ⟨_, rfl, ?_⟩
    rw [leaf?, switched.partition_eq, switched.frames_eq, switched.scrubQ_eq, partition_releaseFrame, partition_modPartition_self]
    exact ⟨tget?_tset_self .., frames_releaseFrame .., fun up => scrubQ_releaseFrame up⟩
  case demote =>
    intro use
    refine ⟨fun v l f marks high idle cold room quota => ?begins, fun marks high full => ?warns⟩
    case begins =>
      refine ⟨_, congrArg Host.Outcome.next (driftDemote_begins (s := u) marks high idle cold room quota), ?_⟩
      rw [leaf?, partition_modPartition_self]
      exact ⟨tget?_tset_self .., tget?_tset_self .., tget?_tset_self ..⟩
    case warns => exact congrArg Host.Outcome.next (driftDemote_warns (s := u) marks high full)
  case decay => exact congrArg Host.Outcome.next (heatDecay_halves (s := u) period due)
  case scrub => exact congrArg Host.Outcome.next (frameScrub_scrubs first)

end Sys2Proof.Machine
end

section
/-! SUPPORT. Reads and writes of a line of memory, and what a scrub leaves of it (R246, R268 to R271, R275, R287). -/

namespace Sys2Proof.Machine

/-! ## Codewords (R267, R268) -/

theorem rsDecode_nil : rsDecode [] = some [] := by rfl

theorem decodedData_nil (data : List Byte) : decodedData data [] [] = data := rfl

theorem length_listMod {α : Type} (l : List α) (n : Nat) (f : α → α) : (listMod l n f).length = l.length := by
  induction l generalizing n with
  | nil => rfl
  | cons x l ih =>
    cases n with
    | zero => rfl
    | succ n => exact congrArg Nat.succ (ih n)

theorem length_xorSymbols (data : List Byte) (ds : List (Nat × Nat)) : (xorSymbols data ds).length = data.length := by
  unfold xorSymbols
  induction ds generalizing data with
  | nil => rfl
  | cons d ds ih =>
    rw [List.foldl_cons, ih]
    cases Nat.blt d.1 32
    · rfl
    · exact (length_listMod ..).trans (length_listMod ..)

theorem length_decodedData (data : List Byte) (err : List (Nat × BitVec 16)) (ds : List (Nat × Nat)) :
    (decodedData data err ds).length = data.length :=
  (length_xorSymbols ..).trans (length_xorSymbols ..)

theorem length_sliceBytes (bs : List Byte) (o n : Nat) : (sliceBytes bs o n).length = n := by
  rw [sliceBytes, List.length_append, List.length_replicate]
  exact Nat.add_sub_cancel' (List.length_take_le ..)

/-! ## Writes of a line -/

/-- The 64 bytes of a line touch that line only. -/
theorem linesOf_line (line : Nat) : linesOf (line * 64) 64 = [line] := by
  have last : (line * 64 + 64 - 1) / 64 - line * 64 / 64 + 1 = 1 := by omega
  have first : line * 64 / 64 = line := by omega
  unfold linesOf
  rw [last, first]
  exact congrArg (· :: []) (Nat.zero_add line)

section
variable {line : Nat} {bs : List Byte} (len : bs.length = 64)
include len

/-- A write of a whole line clears its poison and no other (R269). -/
theorem poison_memWrite_line (s : State) : (memWrite (line * 64) bs s).poison = s.poison.filter (· != line) := by
  have whole : [line].filter (fun l => Nat.ble (line * 64) (l * 64) && Nat.ble (l * 64 + 64) (line * 64 + 64)) = [line] := by simp
  have same : ∀ l, (!([line].contains l)) = (l != line) := fun l => by
    rw [List.contains_cons, List.contains_nil, Bool.or_false, bne]
  unfold memWrite
  dsimp only
  rw [len, linesOf_line, whole]
  simp only [same]

/-- A line is written, whatever its codeword then shows. -/
theorem flawWrite_poison (err : List (Nat × BitVec 16)) (s : State) : (flawWrite line bs err s).poison = s.poison.filter (· != line) := by
  unfold flawWrite
  split
  · exact poison_memWrite_line len s
  · next ds _ =>
    cases ds.isEmpty <;> exact poison_memWrite_line ((length_decodedData ..).trans len) s

end

/-- A codeword without an error shows the bytes written. -/
theorem flawWrite_sound {line : Nat} {bs : List Byte} {err : List (Nat × BitVec 16)} (sound : realErrs err = []) (s : State) :
    flawWrite line bs err s = memWrite (line * 64) bs s := by
  unfold flawWrite
  rw [sound, rsDecode_nil]
  rfl

/-! ## HBM_ACCESS -/

section
variable {pa : Nat} {s : State} {err : List (Nat × BitVec 16)} (aligned : pa % 64 = 0)
  (memory : isHbm (pa / 2 ^ 21) = true ∨ isTier2 (pa / 2 ^ 21) = true)
include aligned memory

theorem hbmAccess_eq (acc : Access64) : hbmAccess pa acc err s =
    match acc with
    | .read => lineAccessRead pa err s
    | .write data =>
      if frameFenced s (pa / 2 ^ 21) = true then emit (.line pa 0x0301 []) s
      else emit (.line pa 0 []) (flawWrite (pa / 64) (sliceBytes data 0 64) err s) := by
  have line : (!(pa % 64 == 0) || !(isHbm (pa / 2 ^ 21) || isTier2 (pa / 2 ^ 21))) = false := by
    rw [aligned, (Bool.or_eq_true ..).mpr memory]
    rfl
  unfold hbmAccess
  rw [line, cond_false]
  cases acc
  · rfl
  · exact Bool.cond_eq_ite ..

end

section
variable {pa : Nat} {s : State} {err : List (Nat × BitVec 16)}

theorem lineShows_fenced (fenced : lineFenced s pa = true) : lineShows pa err s = s := by
  unfold lineShows
  rw [fenced]
  rfl

theorem lineAccessRead_fenced (fenced : lineFenced s pa = true) : lineAccessRead pa err s = emit (.line pa 0x0301 []) s := by
  unfold lineAccessRead
  dsimp only
  rw [lineShows_fenced fenced, fenced]
  rfl

variable (up : lineFenced s pa = false)
include up

section
variable (bad : poisoned s (pa / 64) = true)
include bad

theorem lineShows_poisoned : lineShows pa err s = if isHbm (pa / 2 ^ 21) = true then poisonRead (pcOf pa) s
    else raise 0x0582 1 none (unitId 8 (moduleOf (pa / 2 ^ 21))) 0 s := by
  unfold lineShows
  dsimp only
  rw [up, bad, cond_false, cond_true, Bool.cond_eq_ite]

theorem lineAccessRead_poisoned : lineAccessRead pa err s = emit (.line pa 0x0582 []) (if isHbm (pa / 2 ^ 21) = true
    then poisonRead (pcOf pa) s else raise 0x0582 1 none (unitId 8 (moduleOf (pa / 2 ^ 21))) 0 s) := by
  unfold lineAccessRead
  dsimp only
  rw [lineShows_poisoned up bad, up, bad]
  rfl

end

variable (clean : poisoned s (pa / 64) = false)
include clean

/-- An uncorrectable error is counted, and the HBM line that shows it is poisoned (R269, R273, R287). -/
theorem lineShows_bad (bad : rsDecode err = none) : lineShows pa err s = if isHbm (pa / 2 ^ 21) = true
    then uncorrectable (pa / 64) (pcOf pa) s
    else raise 0x0581 1 none (unitId 8 (moduleOf (pa / 2 ^ 21))) 0 (bump .t2mUecnt (moduleOf (pa / 2 ^ 21)) 0 1 s) := by
  unfold lineShows moduleReport
  dsimp only
  rw [up, clean, bad]
  cases isHbm (pa / 2 ^ 21) <;> rfl

/-- A correctable error is counted. -/
theorem lineShows_corrects {ds : List (Nat × Nat)} (right : rsDecode err = some ds) : lineShows pa err s = if ds = [] then s
    else if isHbm (pa / 2 ^ 21) = true then corrected (pcOf pa) s else bump .t2mCecnt (moduleOf (pa / 2 ^ 21)) 0 1 s := by
  unfold lineShows moduleReport
  dsimp only
  rw [up, clean, right]
  cases ds <;> cases isHbm (pa / 2 ^ 21) <;> rfl

theorem lineAccessRead_bad (bad : rsDecode (flawOf s (pa / 64) ++ realErrs err) = none) : lineAccessRead pa err s =
    emit (.line pa 0x0581 []) (if isHbm (pa / 2 ^ 21) = true then uncorrectable (pa / 64) (pcOf pa) s
      else raise 0x0581 1 none (unitId 8 (moduleOf (pa / 2 ^ 21))) 0 (bump .t2mUecnt (moduleOf (pa / 2 ^ 21)) 0 1 s)) := by
  unfold lineAccessRead
  dsimp only
  rw [lineShows_bad up clean bad, up, clean, bad]
  rfl

theorem lineAccessRead_corrects {ds : List (Nat × Nat)} (right : rsDecode (flawOf s (pa / 64) ++ realErrs err) = some ds) :
    lineAccessRead pa err s =
      emit (.line pa 0 (decodedData (memRead s pa 64) (flawOf s (pa / 64) ++ realErrs err) ds)) (if ds = [] then s
        else if isHbm (pa / 2 ^ 21) = true then corrected (pcOf pa) s else bump .t2mCecnt (moduleOf (pa / 2 ^ 21)) 0 1 s) := by
  unfold lineAccessRead
  dsimp only
  rw [lineShows_corrects up clean right, up, clean, right]
  rfl

theorem lineAccessRead_sound (sound : flawOf s (pa / 64) ++ realErrs err = []) :
    lineAccessRead pa err s = emit (.line pa 0 (memRead s pa 64)) s := by
  have right : rsDecode (flawOf s (pa / 64) ++ realErrs err) = some [] := by rw [sound, rsDecode_nil]
  rw [lineAccessRead_corrects up clean right, sound, decodedData_nil, if_pos rfl]

end

/-! ## Scrubbing (R271) -/

section
variable {pa : Nat} {s : State} {err : List (Nat × BitVec 16)} {wrote : Bool}

/-- The memory core takes a line that it has not read in its pass. -/
theorem hbmScrub_takes (aligned : pa % 64 = 0) (hbm : isHbm (pa / 2 ^ 21) = true) (period : fld s .memScrub (pcOf pa / 64) 0 7 0 ≠ 0)
    (core : memoryCoreRuns s (pcOf pa / 64) = true) (fresh : (tget s.scrubbed (pcOf pa / 64) []).contains (pa / 64) = false) :
    hbmScrub pa err wrote s = scrubbedLine (pcOf pa / 64) (pa / 64) (scrubRead pa err wrote s) := by
  unfold hbmScrub
  dsimp only
  rw [aligned, hbm, beq_false_of_ne period, core, fresh]
  rfl

theorem scrubRead_passes (h : pcFenced s (pcOf pa) = true ∨ (wrote = false ∧ poisoned s (pa / 64) = true)) :
    scrubRead pa err wrote s = s := by
  have skip : (pcFenced s (pcOf pa) || (!wrote && poisoned s (pa / 64))) = true := by
    rcases h with fenced | ⟨rfl, bad⟩
    · rw [fenced, Bool.true_or]
    · rw [bad, Bool.not_false, Bool.true_and, Bool.or_true]
  unfold scrubRead
  dsimp only
  rw [skip, cond_true]

variable (up : pcFenced s (pcOf pa) = false) (reads : wrote = true ∨ poisoned s (pa / 64) = false) {shown : List (Nat × BitVec 16)}
  (hs : (if wrote = true then [] else flawOf s (pa / 64)) ++ realErrs err = shown)
include up reads hs

/-- What the memory core makes of a line that it reads. -/
theorem scrubRead_reads : scrubRead pa err wrote s =
    match rsDecode shown with
    | none => if wrote = true then countBad (pcOf pa) s else uncorrectable (pa / 64) (pcOf pa) s
    | some [] => s
    | some ds =>
      let v := rowError (pcOf pa / 64) (pcOf pa) pa (fld s .memScrub (pcOf pa / 64) 0 31 16) (corrected (pcOf pa) s)
      if wrote = true then v else memWrite pa (decodedData (memRead s pa 64) shown ds) v := by
  have look : (pcFenced s (pcOf pa) || (!wrote && poisoned s (pa / 64))) = false := by
    rw [up]
    rcases reads with rfl | clean
    · rfl
    · rw [clean, Bool.and_false, Bool.or_false]
  rw [← hs]
  unfold scrubRead
  dsimp only
  rw [look, cond_false]
  cases wrote <;> rfl

theorem scrubRead_bad (bad : rsDecode shown = none) :
    scrubRead pa err wrote s = if wrote = true then countBad (pcOf pa) s else uncorrectable (pa / 64) (pcOf pa) s := by
  rw [scrubRead_reads up reads hs, bad]

theorem scrubRead_sound (sound : rsDecode shown = some []) : scrubRead pa err wrote s = s := by
  rw [scrubRead_reads up reads hs, sound]

theorem scrubRead_corrects {d : Nat × Nat} {ds : List (Nat × Nat)} (right : rsDecode shown = some (d :: ds)) :
    scrubRead pa err wrote s =
      let v := rowError (pcOf pa / 64) (pcOf pa) pa (fld s .memScrub (pcOf pa / 64) 0 31 16) (corrected (pcOf pa) s)
      if wrote = true then v else memWrite pa (decodedData (memRead s pa 64) shown (d :: ds)) v := by
  rw [scrubRead_reads up reads hs, right]

end

end Sys2Proof.Machine
end

section
/-! SUPPORT. The temperature of a stack (R278, R280). -/

namespace Sys2Proof.Machine

/-- The refresh rate that a stack takes at a temperature. -/
def refreshTaken (s : State) (stack : Nat) (temp : Int) : Nat :=
  if memoryCoreRuns s stack = true then Nat.max (refreshRate (tget s.refBand stack 0) temp) (tget s.minRefresh stack 0) else 2

theorem refreshTaken_mod (s : State) (stack : Nat) (temp : Int) : refreshTaken s stack temp % 4 = if memoryCoreRuns s stack = true
    then Nat.max (refreshRate (tget s.refBand stack 0) temp) (tget s.minRefresh stack 0) % 4 else 2 := by
  unfold refreshTaken
  split <;> rfl

/-- A stack shows its temperature and its refresh rate. -/
def tempShown (stack : Nat) (temp : Int) (s : State) : State :=
  setFld .memStat stack 0 31 24 (unsign 8 temp) (setFld .memStat stack 0 17 16 (refreshTaken s stack temp)
    { s with refBand := tset s.refBand stack (refreshRate (tget s.refBand stack 0) temp) })

theorem stackTemp_eq (stack : Nat) (temp : Int) (s : State) : stackTemp stack temp s =
    if flag s .memStat stack 0 1 = false ∧ 105 ≤ temp then
      raise 0xC004 1 none 0 (BitVec.ofNat 64 stack) (setFld .memStat stack 0 1 1 1 (tempShown stack temp s))
    else if flag s .memStat stack 0 1 = true ∧ temp < 102 then emergEnds (setFld .memStat stack 0 1 1 0 (tempShown stack temp s))
    else tempShown stack temp s := by
  unfold stackTemp tempShown refreshTaken
  simp only [Bool.cond_eq_ite, Bool.and_eq_true, Bool.not_eq_true', decide_eq_true_eq]

/-- MEM_STAT of a stack after a sample, with HOT as given. -/
structure ShowsTemp (s : State) (stack : Nat) (temp : Int) (hot : Nat) (v : State) : Prop where
  degrees : fld v .memStat stack 0 31 24 = (temp % 256).toNat
  rate : fld v .memStat stack 0 17 16 = refreshTaken s stack temp % 4
  mark : fld v .memStat stack 0 1 1 = hot

section
variable {stack : Nat} {temp : Int} {s v : State} {hot : Nat}

theorem ShowsTemp.of_ctl {w : State} (h : ShowsTemp s stack temp hot v) (hc : w.ctl = v.ctl) : ShowsTemp s stack temp hot w := by
  have same : ∀ hi lo, fld w .memStat stack 0 hi lo = fld v .memStat stack 0 hi lo := fun hi lo => by rw [fld, raw, hc]; rfl
  exact ⟨(same ..).trans h.degrees, (same ..).trans h.rate, (same ..).trans h.mark⟩

theorem showsTemp_tempShown (stack : Nat) (temp : Int) (s : State) :
    ShowsTemp s stack temp (fld s .memStat stack 0 1 1) (tempShown stack temp s) := by
  have byte : unsign 8 temp % 2 ^ (31 + 1 - 24) = (temp % 256).toNat := by
    unfold unsign
    omega
  unfold tempShown
  refine ⟨(fld_setFld_self _ _ _ _ _ (by decide) (by decide)).trans byte, ?_, ?_⟩
  · exact (fld_setFld_below _ _ _ _ _ (by decide) (by decide) (by decide) (by decide)).trans
      (fld_setFld_self _ _ _ _ _ (by decide) (by decide))
  · exact (fld_setFld_below _ _ _ _ _ (by decide) (by decide) (by decide) (by decide)).trans
      (fld_setFld_below _ _ _ _ _ (by decide) (by decide) (by decide) (by decide))

theorem ShowsTemp.setHot (h : ShowsTemp s stack temp hot v) {n : Nat} (hn : n < 2) :
    ShowsTemp s stack temp n (setFld .memStat stack 0 1 1 n v) := by
  refine ⟨?_, ?_, ?_⟩
  · rw [fld_setFld_above _ _ _ _ _ (by decide) (by decide) (by decide), h.degrees]
  · rw [fld_setFld_above _ _ _ _ _ (by decide) (by decide) (by decide), h.rate]
  · rw [fld_setFld_self _ _ _ _ _ (by decide) (by decide)]
    exact Nat.mod_eq_of_lt hn

theorem ShowsTemp.raised (h : ShowsTemp s stack temp hot v) (hs : stack < 12) (code : BitVec 16) (sev : Nat) (part : Option Nat) (unit : Nat)
    (data : W64) : ShowsTemp s stack temp hot (raise code sev part unit data v) := by
  have same : ∀ hi lo, fld (raise code sev part unit data v) .memStat stack 0 hi lo = fld v .memStat stack 0 hi lo :=
    (tells_raise code sev part unit data v).regs.fld_eq (stands_memStat hs) (by decide)
  exact ⟨(same ..).trans h.degrees, (same ..).trans h.rate, (same ..).trans h.mark⟩

/-- A one-bit field is its flag. -/
theorem fld_eq_b01_flag (s : State) (r : Reg) (i j n : Nat) : fld s r i j n n = b01 (flag s r i j n) := by
  have lt : fld s r i j n n < 2 := by
    rw [fld, bits, Nat.add_sub_cancel_left]
    exact Nat.mod_lt _ (by decide)
  rw [flag_eq_fld]
  generalize fld s r i j n n = x at lt ⊢
  match x, lt with
  | 0, _ => rfl
  | 1, _ => rfl

/-- HOT comes at 105 degrees and goes below 102; in between it stays. -/
theorem stackTemp_shows (hs : stack < 12) (temp : Int) (s : State) : ShowsTemp s stack temp
    (if 105 ≤ temp then 1 else if temp < 102 then 0 else fld s .memStat stack 0 1 1) (stackTemp stack temp s) := by
  have shown := showsTemp_tempShown stack temp s
  rw [fld_eq_b01_flag] at shown ⊢
  rw [stackTemp_eq]
  generalize flag s .memStat stack 0 1 = hot at shown ⊢
  by_cases rises : 105 ≤ temp
  · rw [if_pos rises]
    cases hot
    · rw [if_pos ⟨rfl, rises⟩]
      exact (shown.setHot (by decide)).raised hs ..
    · rw [if_neg (by simp), if_neg (by omega)]
      exact shown
  · rw [if_neg rises, if_neg (fun h : _ ∧ _ => rises h.2)]
    by_cases falls : temp < 102
    · rw [if_pos falls]
      cases hot
      · rw [if_neg (by simp)]
        exact shown
      · rw [if_pos ⟨rfl, falls⟩]
        exact (shown.setHot (by decide)).of_ctl rfl
    · rw [if_neg falls, if_neg (fun h : _ ∧ _ => falls h.2)]
      exact shown

end

end Sys2Proof.Machine
end

section
/-! SUPPORT. Near-memory atomics (R282, R284): what finding an error leaves of memory and of the count of atomics. -/

namespace Sys2Proof.Machine

/-! ## What events and fences leave -/

/-- A step that leaves the bytes of memory and the counts of atomics. -/
structure LeavesWords (s t : State) : Prop where
  mem : t.mem = s.mem
  count : ∀ m, m < 12 → raw64 t .memAtomLo .memAtomHi m 0 = raw64 s .memAtomLo .memAtomHi m 0

theorem LeavesWords.refl (s : State) : LeavesWords s s := ⟨rfl, fun _ _ => rfl⟩

theorem LeavesWords.trans {s t u : State} (h : LeavesWords s t) (g : LeavesWords t u) : LeavesWords s u :=
  ⟨g.mem.trans h.mem, fun m hm => (g.count m hm).trans (h.count m hm)⟩

theorem LeavesWords.foldl {α : Type} {f : State → α → State} {l : List α} (step : ∀ x ∈ l, ∀ s, LeavesWords s (f s x)) (s : State) :
    LeavesWords s (l.foldl f s) :=
  rel_foldl LeavesWords.refl LeavesWords.trans step s

theorem leavesWords_cond {s a b : State} {c : Bool} (ha : LeavesWords s a) (hb : LeavesWords s b) : LeavesWords s (bif c then a else b) := by
  cases c
  · exact hb
  · exact ha

/-- A step that leaves memory and the registers. -/
theorem LeavesWords.of_eq {s t : State} (hm : t.mem = s.mem) (hc : t.ctl = s.ctl) : LeavesWords s t :=
  ⟨hm, fun m _ => by rw [raw64, raw, raw, hc]; rfl⟩

theorem stands_memAtom {m : Nat} (hm : m < 12) : Stands .memAtomLo m 0 ∧ Stands .memAtomHi m 0 :=
  ⟨stands_of_lt hm (by decide) rfl, stands_of_lt hm (by decide) rfl⟩

/-- A step that leaves memory and writes other registers than those of the counts. -/
theorem LeavesWords.of_regs {w : List Reg} {s t : State} (hm : t.mem = s.mem) (hr : KeepsRegs w s t) (lo : .memAtomLo ∉ w)
    (hi : .memAtomHi ∉ w) : LeavesWords s t := by
  refine ⟨hm, fun m hm => ?_⟩
  obtain ⟨stLo, stHi⟩ := stands_memAtom hm
  rw [raw64, hr _ _ _ stLo lo, hr _ _ _ stHi hi, raw64]

theorem leavesWords_raise (code : BitVec 16) (sev : Nat) (part : Option Nat) (unit : Nat) (data : W64) (s : State) :
    LeavesWords s (raise code sev part unit data s) := by
  have h := tells_raise code sev part unit data s
  obtain ⟨c, q, hrest⟩ := h.rest
  exact .of_regs (by rw [hrest]) h.regs (by decide) (by decide)

theorem leavesWords_noteCause (kind index : Nat) (cause : Status) (s : State) : LeavesWords s (noteCause kind index cause s) := by
  have count : Stands .errCount 0 0 := stands_of_lt (by decide) (by decide) rfl
  have unit : ∀ st u, LeavesWords u (setUnit kind index st cause u) := fun st u => by cases st <;> exact .of_eq rfl rfl
  unfold noteCause
  extract_lets s1
  have h1 : LeavesWords s s1 :=
    .of_regs rfl (keepsRegs_bumpFld count (w := [.errCount]) (by decide) 15 0 1 s) (by decide) (by decide)
  split
  · exact h1.trans ((unit .draining s1).trans (leavesWords_raise ..))
  · exact h1.trans (unit .fenced s1)
  · exact h1

/-! ## A pseudo-channel is fenced (R274) -/

theorem leavesWords_modPartition (p : Nat) (f : Partition → Partition) (s : State) : LeavesWords s (modPartition p f s) := .of_eq rfl rfl

theorem leavesWords_abortMove (p vpn : Nat) (s : State) : LeavesWords s (abortMove p vpn s) := by
  have release : ∀ f u, LeavesWords u (releaseFrame f u) := fun f u => leavesWords_cond (.of_eq rfl rfl) (.of_eq rfl rfl)
  have ask : ∀ u, LeavesWords u (askAgain p vpn u) := fun u => leavesWords_cond (leavesWords_modPartition p _ u) (LeavesWords.refl u)
  unfold abortMove
  split
  · exact (LeavesWords.of_eq rfl rfl : LeavesWords s (modPartition p _ (dropTlb p vpn s))).trans ((release _ _).trans (ask _))
  · exact LeavesWords.refl s

theorem leavesWords_abortMoves (q : Nat → Bool) (s : State) : LeavesWords s (abortMoves q s) :=
  .foldl (fun p _ u => .foldl (fun m _ u => leavesWords_cond (leavesWords_abortMove p m.1 u) (LeavesWords.refl u)) u) s

/-- PGE_STALLUS lies 16 bytes above a multiple of 4 KiB and the counts of atomics 36 and 40 bytes above one, whatever the partition. -/
theorem memAtom_ne_pgeStallus (m p : Nat) :
    regAddr .memAtomLo m 0 ≠ regAddr .pgeStallus p 0 ∧ regAddr .memAtomHi m 0 ≠ regAddr .pgeStallus p 0 := by
  simp only [regAddr, regRow]
  omega

theorem leavesWords_endWait (req seg : Nat) (st : SegState) (status : Status) (s : State) :
    LeavesWords s (endWait req seg st status s) := by
  unfold endWait
  split
  next => exact LeavesWords.refl s
  next r _ =>
    split
    next => exact LeavesWords.refl s
    next g _ =>
      have seg' : LeavesWords s (modSeg req seg (fun g => { g with state := st, status := status }) s) := by
        unfold modSeg
        split
        · exact .of_eq rfl rfl
        · exact LeavesWords.refl s
      refine seg'.trans ⟨rfl, fun m _ => ?_⟩
      obtain ⟨lo, hi⟩ := memAtom_ne_pgeStallus m r.part
      rw [raw64, bump, bumpFld, raw_setFld_ne _ _ lo, raw_setFld_ne _ _ hi, raw64]

theorem leavesWords_setFen (p : Nat → Bool) (s : State) : LeavesWords s (setFen p s) := by
  have waits : ∀ q v u, LeavesWords u (failWaiting q v 0x0301 u) := fun q v u =>
    ((leavesWords_modPartition q _ u).trans (.foldl (fun w _ u => leavesWords_endWait w.1 w.2 .refused 0x0301 u) _)).trans (.of_eq rfl rfl)
  have failed : ∀ u, LeavesWords u (failFenced p u) := fun u =>
    .foldl (fun x _ u => .foldl (fun l _ u => leavesWords_cond (waits x.1 l.1 u) (LeavesWords.refl u)) u) u
  refine LeavesWords.trans ?_ (failed _)
  exact .of_eq rfl rfl

theorem leavesWords_withdrawReserve (g : Nat) (s : State) : LeavesWords s (withdrawReserve g s) := by
  have build : ∀ p level index u, LeavesWords u (buildTable p level index u) := by
    intro p level index u
    unfold buildTable
    split
    · exact .of_eq rfl rfl
    · exact LeavesWords.refl u
  unfold withdrawReserve
  refine LeavesWords.trans ?_ (LeavesWords.foldl (fun t _ u => build _ _ _ u) _)
  exact .of_eq rfl rfl

theorem leavesWords_checkQuotas (s : State) : LeavesWords s (checkQuotas s) := by
  have raised : LeavesWords s (raise 0xC005 1 none 0 0 { s with quotaErr := true }) := by
    refine LeavesWords.trans ?_ (leavesWords_raise ..)
    exact .of_eq rfl rfl
  exact leavesWords_cond raised (leavesWords_cond (LeavesWords.refl s) (.of_eq rfl rfl))

theorem leavesWords_causePc (pc : Nat) (cause : Status) (s : State) : LeavesWords s (causePc pc cause s) := by
  have avail : Stands .alcAvail 0 0 := stands_of_lt (by decide) (by decide) rfl
  unfold causePc
  cases isUp s 7 pc
  · exact leavesWords_noteCause ..
  · rw [cond_true]
    extract_lets g was free s1 q s2
    have h2 : LeavesWords s s2 := (leavesWords_noteCause 7 pc cause s).trans <|
      (leavesWords_abortMoves q s1).trans <| (leavesWords_setFen q _).trans (leavesWords_withdrawReserve g _)
    clear_value free s2
    have h3 : LeavesWords s2 (setFld .alcAvail 0 0 20 0 (alcAvail s2 - free) s2) :=
      .of_regs rfl (keepsRegs_setFld avail (w := [.alcAvail]) (by decide) 20 0 _ s2) (by decide) (by decide)
    exact h2.trans (h3.trans (leavesWords_checkQuotas _))

/-! ## An error is found (R269, R273) -/

theorem pcOf_lt (pa : Nat) : pcOf pa < 768 := by
  have group : groupOf (pa / 2 ^ 21) < 96 := Nat.mod_lt _ (by decide)
  have chan : Nat.xor (bits pa 20 8 % 8) (bits pa 20 8 / 8 % 8) < 2 ^ 3 :=
    Nat.xor_lt_two_pow (Nat.mod_lt _ (by decide)) (Nat.mod_lt _ (by decide))
  unfold pcOf
  dsimp only
  omega

section
variable {pc : Nat} (hpc : pc < 768)
include hpc

theorem keepsRegs_lastErr (kind : Nat) (s : State) : KeepsRegs [.memLasterr] s (lastErr pc kind s) :=
  keepsRegs_setRaw (stands_of_lt (show pc / 64 < 12 by omega) (by decide) rfl) (by decide) _ s

/-- A count of a stack's errors and MEM_LASTERR. -/
theorem leavesWords_counted {r : Reg} (hr : r = .memCecnt ∨ r = .memUecnt) (kind : Nat) (s : State) :
    LeavesWords s (lastErr pc kind (bump r (pc / 64) 0 1 s)) := by
  have stack : pc / 64 < 12 := by omega
  have stands : Stands r (pc / 64) 0 := by
    rcases hr with rfl | rfl <;> exact stands_of_lt stack (by decide) rfl
  have counted : KeepsRegs [.memCecnt, .memUecnt, .memLasterr] s (bump r (pc / 64) 0 1 s) :=
    keepsRegs_bumpFld stands (by rcases hr with rfl | rfl <;> decide) 31 0 1 s
  exact .of_regs rfl (counted.trans ((keepsRegs_lastErr hpc kind _).mono (by decide))) (by decide) (by decide)

theorem leavesWords_corrected (s : State) : LeavesWords s (corrected pc s) := by
  have told : ∀ u, LeavesWords u (raise 0xC001 3 none (unitId 7 pc) 0 (lastErr pc 1 (bump .memCecnt (pc / 64) 0 1 u))) := fun u =>
    (leavesWords_counted hpc (.inl rfl) 1 u).trans (leavesWords_raise ..)
  unfold corrected
  extract_lets c sec n u v
  have hu : LeavesWords s u := .of_eq rfl rfl
  have hv : LeavesWords s v := hu.trans (told u)
  exact leavesWords_cond (hv.trans (leavesWords_raise ..)) hv

theorem leavesWords_countBad (s : State) : LeavesWords s (countBad pc s) := by
  have told : ∀ u, LeavesWords u (raise 0x0581 1 none (unitId 7 pc) 0 (lastErr pc 2 (bump .memUecnt (pc / 64) 0 1 u))) := fun u =>
    (leavesWords_counted hpc (.inr rfl) 2 u).trans (leavesWords_raise ..)
  unfold countBad
  extract_lets c times thr u v
  have hu : LeavesWords s u := .of_eq rfl rfl
  have hv : LeavesWords s v := hu.trans (told u)
  exact leavesWords_cond (hv.trans (leavesWords_causePc pc 0x030C v)) hv

theorem leavesWords_uncorrectable (line : Nat) (s : State) : LeavesWords s (uncorrectable line pc s) :=
  (LeavesWords.of_eq rfl rfl : LeavesWords s (poisonLine line s)).trans (leavesWords_countBad hpc _)

theorem leavesWords_poisonRead (s : State) : LeavesWords s (poisonRead pc s) := by
  unfold poisonRead
  have noted : LeavesWords s (lastErr pc 3 s) := .of_regs rfl (keepsRegs_lastErr hpc 3 s) (by decide) (by decide)
  exact noted.trans (leavesWords_raise ..)

end

/-- What the read of an HBM line finds leaves the bytes and the counts of atomics. -/
theorem leavesWords_lineSeen {pa : Nat} (hbm : isHbm (pa / 2 ^ 21) = true) (s : State) : LeavesWords s (lineSeen pa s) := by
  have hpc := pcOf_lt pa
  unfold lineSeen lineShows
  dsimp only
  rw [hbm, cond_true, Bool.not_true, cond_false]
  refine leavesWords_cond (LeavesWords.refl s) (leavesWords_cond (leavesWords_poisonRead hpc s) ?_)
  split
  · exact leavesWords_uncorrectable hpc _ s
  · exact LeavesWords.refl s
  · exact leavesWords_corrected hpc s

/-! ## The atomics -/

/-- A 64-bit quantity written to its two registers is read back modulo 2^64. -/
theorem raw64_setRaw64 {lo hi : Reg} {i j : Nat} (apart : regAddr lo i j ≠ regAddr hi i j) (v : Nat) (s : State) :
    raw64 (setRaw64 lo hi i j v s) lo hi i j = v % 2 ^ 64 := by
  rw [raw64, setRaw64, raw_setRaw_ne _ _ apart, raw_setRaw_self, raw_setRaw_self, Nat.mod_mod, Nat.mod_mod, ← Nat.mod_mul, ← Nat.pow_add]

section
variable {pa : Nat} {op : AtomicOp} {x y : Nat} {s : State}

theorem atomicAt_fenced (h : groupGone s pa = true) : atomicAt pa op x y s = (0x0301, 0, s) := by
  unfold atomicAt
  dsimp only
  rw [h, cond_true]

variable (up : groupGone s pa = false)
include up

theorem atomicAt_poisoned (bad : poisoned s (pa / 64) = true) : atomicAt pa op x y s = (0x0582, 0, lineSeen pa s) := by
  unfold atomicAt
  dsimp only
  rw [up, bad, cond_false, cond_true]

variable (clean : poisoned s (pa / 64) = false)
include clean

theorem atomicAt_bad (bad : flawBad s (pa / 64) = true) : atomicAt pa op x y s = (0x0581, 0, lineSeen pa s) := by
  unfold atomicAt
  dsimp only
  rw [up, clean, bad, cond_false, cond_false, cond_true]

/-- The new word is written, the old one answered and the atomic counted. -/
theorem atomicAt_applies (hbm : isHbm (pa / 2 ^ 21) = true) (sound : flawBad s (pa / 64) = false) :
    (atomicAt pa op x y s).1 = 0 ∧
    (atomicAt pa op x y s).2.1 = BitVec.ofNat 64 (atomicOld op (leNat (memRead s pa (atomicWidth op))) x) ∧
    (atomicAt pa op x y s).2.2.mem =
      (memWrite pa (leBytes (atomicWidth op) (atomicNew op (leNat (memRead s pa (atomicWidth op))) x y).1) s).mem ∧
    raw64 (atomicAt pa op x y s).2.2 .memAtomLo .memAtomHi (pcOf pa / 64) 0 =
      (raw64 s .memAtomLo .memAtomHi (pcOf pa / 64) 0 + 1) % 2 ^ 64 := by
  have stack : pcOf pa / 64 < 12 := by have := pcOf_lt pa; omega
  have seen := leavesWords_lineSeen hbm s
  obtain ⟨stLo, stHi⟩ := stands_memAtom stack
  have apart : regAddr .memAtomLo (pcOf pa / 64) 0 ≠ regAddr .memAtomHi (pcOf pa / 64) 0 :=
    regAddr_ne_of_stands stLo stHi (by simp)
  have sat : Stands .memAtomsat (pcOf pa / 64) 0 := stands_of_lt stack (by decide) rfl
  unfold atomicAt
  dsimp only
  rw [up, clean, sound, cond_false, cond_false, cond_false]
  generalize hw : memWrite pa _ (lineSeen pa s) = w
  have bytes : w.mem = (memWrite pa (leBytes (atomicWidth op) (atomicNew op (leNat (memRead s pa (atomicWidth op))) x y).1) s).mem := by
    rw [← hw, memWrite, seen.mem]
    rfl
  have count : raw64 w .memAtomLo .memAtomHi (pcOf pa / 64) 0 = raw64 s .memAtomLo .memAtomHi (pcOf pa / 64) 0 := by
    rw [← seen.count _ stack, ← hw]
    rfl
  refine ⟨rfl, rfl, ?_⟩
  have counted := raw64_setRaw64 apart (raw64 w .memAtomLo .memAtomHi (pcOf pa / 64) 0 + 1) w
  generalize hv : setRaw64 .memAtomLo .memAtomHi (pcOf pa / 64) 0 (raw64 w .memAtomLo .memAtomHi (pcOf pa / 64) 0 + 1) w = v at counted ⊢
  have same : v.mem = w.mem := by rw [← hv]; rfl
  have clamped : LeavesWords v (bif (atomicNew op (leNat (memRead s pa (atomicWidth op))) x y).2 then bump .memAtomsat (pcOf pa / 64) 0 1 v
      else v) :=
    leavesWords_cond (.of_regs rfl (keepsRegs_bumpFld sat (w := [.memAtomsat]) (by decide) 31 0 1 v) (by decide) (by decide))
      (LeavesWords.refl v)
  exact ⟨clamped.mem.trans (same.trans bytes), (clamped.count _ stack).trans (counted.trans (by rw [count]))⟩

end

end Sys2Proof.Machine
end

section
/-! SUPPORT. The memory tiers as the statement of chapter 8 has them (R246, R268, R269, R271, R275, R278, R280 to R282, R284, R287, R288). -/

namespace Sys2Proof.Machine

/-! ## Stratus modules (R288) -/

theorem parityLoss_loses {s : State} {m e : Nat} {odd : Bool} (he : (bif odd then 9 else 8) = e) (fitted : modulePresent s m = true)
    (gone : (moduleLanes m).all (laneGone s e) = true) (kept : flag s .t2mStat m 0 (bif odd then 28 else 29) = false) :
    parityLoss m odd s = loseParity m (b01 odd) s := by
  unfold parityLoss
  dsimp only
  rw [he, fitted, gone, kept]
  rfl

theorem moduleFailure_fences {s : State} {m : Nat} (fitted : modulePresent s m = true) :
    moduleFailure m s = fenceCause 8 m 0x030E s := by
  rw [moduleFailure, fitted, cond_true]

/-! ## Atomics (R282, R284) -/

theorem nearAtomic_acts {pa : Nat} {op : AtomicOp} {x y : W64} {s : State} (aligned : pa % atomicWidth op = 0)
    (hbm : isHbm (pa / 2 ^ 21) = true) : nearAtomic pa op x y s =
      emit (.atomic pa (atomicAt pa op x.toNat y.toNat s).1 (atomicAt pa op x.toNat y.toNat s).2.1)
        (atomicAt pa op x.toNat y.toNat s).2.2 := by
  unfold nearAtomic
  rw [aligned, hbm]
  rfl

theorem mem_out_emit (o : Output) (s : State) : o ∈ (emit o s).out := List.mem_append_right _ (List.mem_singleton_self o)

/-- Settles O34, command by command. That the errors of a codeword are operands and stay with its line is the model's choice (log entry 14),
and so is that a pass takes each line once (log entry 279); the event of a read of a poisoned line is deduced (log entry 76). -/
theorem memoryTiers : Obligations.MemoryTiers := by
  unfold Obligations.MemoryTiers
  intro t s u
  refine ⟨fun pa data err aligned memory up => ?write, fun pa data err aligned memory fenced => ?writeFenced,
    fun pa err aligned memory => ?read, fun pa err wrote aligned hbm period core fresh => ?scrub, fun stack temp => ?temperature,
    fun pa op x y aligned hbm => ?atomic, fun m odd fitted gone kept => ?parity, fun m fitted => ?failure⟩
  case write =>
    have len : (sliceBytes data 0 64).length = 64 := length_sliceBytes ..
    refine ⟨_, congrArg Host.Outcome.next ((hbmAccess_eq (s := u) aligned memory _).trans (if_neg (Bool.eq_false_iff.mp up))), rfl,
      flawWrite_poison len err u, fun sound _ => ?_⟩
    have line : pa / 64 * 64 = pa := Nat.div_mul_cancel (Nat.dvd_of_mod_eq_zero aligned)
    have back := memRead_memWrite pa (sliceBytes data 0 64) u
    rw [len] at back
    rw [flawWrite_sound sound, line, back]
  case writeFenced => exact congrArg Host.Outcome.next ((hbmAccess_eq (s := u) aligned memory _).trans (if_pos fenced))
  case read =>
    intro hbm shown module_
    have reads : exec (.hbmAccess pa .read err t) s = .next (lineAccessRead pa err u) :=
      congrArg Host.Outcome.next (hbmAccess_eq (s := u) aligned memory _)
    rw [reads]
    exact ⟨fun fenced => congrArg _ (lineAccessRead_fenced (s := u) fenced),
      fun up bad => congrArg _ (lineAccessRead_poisoned (s := u) up bad),
      fun up clean bad => congrArg _ (lineAccessRead_bad (s := u) up clean bad),
      fun ds up clean right => congrArg _ (lineAccessRead_corrects (s := u) up clean right),
      fun up clean sound => congrArg _ (lineAccessRead_sound (s := u) up clean sound)⟩
  case scrub =>
    intro pc shown ended
    have takes : exec (.hbmScrub pa err wrote t) s = .next (scrubbedLine (pc / 64) (pa / 64) (scrubRead pa err wrote u)) :=
      congrArg Host.Outcome.next (hbmScrub_takes (s := u) aligned hbm period core fresh)
    have ends : ∀ {v}, scrubRead pa err wrote u = v → ended v := fun h => takes.trans (by rw [h])
    exact ⟨fun skips => ends (scrubRead_passes (s := u) skips), fun up looks bad => ends (scrubRead_bad (s := u) up looks rfl bad),
      fun up looks sound => ends (scrubRead_sound (s := u) up looks rfl sound),
      fun d ds up looks right => ends (scrubRead_corrects (s := u) up looks rfl right)⟩
  case temperature =>
    obtain ⟨degrees, rate, mark⟩ := stackTemp_shows (s := u) stack.isLt temp
    exact ⟨_, rfl, degrees, rate.trans (refreshTaken_mod ..), mark⟩
  case atomic =>
    refine ⟨_, congrArg Host.Outcome.next (nearAtomic_acts aligned hbm), ?_⟩
    intro old new stack refused
    have seen := leavesWords_lineSeen hbm s
    refine ⟨fun gone => ?_, fun up bad => ?_, fun up clean bad => ?_, fun up clean sound => ?_⟩
    · dsimp only [refused]
      rw [atomicAt_fenced gone]
      exact ⟨rfl, mem_out_emit ..⟩
    · dsimp only [refused]
      rw [atomicAt_poisoned up bad]
      exact ⟨seen.mem, mem_out_emit ..⟩
    · dsimp only [refused]
      rw [atomicAt_bad up clean bad]
      exact ⟨seen.mem, mem_out_emit ..⟩
    · obtain ⟨status, answer, bytes, count⟩ := atomicAt_applies (op := op) (x := x.toNat) (y := y.toNat) up clean hbm sound
      rw [status, answer]
      exact ⟨bytes, mem_out_emit .., count⟩
  case parity =>
    cases odd
    · exact congrArg Host.Outcome.next (parityLoss_loses (s := u) rfl fitted gone kept)
    · exact congrArg Host.Outcome.next (parityLoss_loses (s := u) rfl fitted gone kept)
  case failure => exact congrArg Host.Outcome.next (moduleFailure_fences (s := u) fitted)

end Sys2Proof.Machine
end

section
/-! SUPPORT. Which way a packet takes through a router, and the hop stages and classes of chapter 10 (R337 to R340, R345). -/

namespace Sys2Proof.Machine

/-! ## What a router leaves of a packet -/

/-- What a router leaves as it was in a packet that it sends on, but for the class: where the packet goes, its TYPE, its epoch and its body. -/
structure SameErrand (p q : Packet) : Prop where
  dst   : q.route.dst = p.route.dst
  typ   : q.route.typ = p.route.typ
  epoch : q.route.epoch = p.route.epoch
  body  : q.body = p.body

/-- A packet sent on in its class, at hop stage `stg`. -/
structure GoesOn (p q : Packet) (stg : Nat) : Prop extends SameErrand p q where
  cls   : q.route.cls = p.route.cls
  stage : q.route.stg = BitVec.ofNat 2 stg

theorem goesOn_setStg (p : Packet) (stg : Nat) : GoesOn p (setStg p stg) stg := ⟨⟨rfl, rfl, rfl, rfl⟩, rfl, rfl⟩

section
variable {s : State} {p q : Packet} {e stg n k : Nat} {gl : Option Nat}

theorem goesOn_of_sendLocal (h : sendLocal s p stg n = .send k q gl) : GoesOn p q stg := by
  cases h
  exact goesOn_setStg p stg

/-- A packet for a global lane goes out at stage 1, on its own lane or on another (R338). -/
theorem goesOn_of_sendGlobal (h : sendGlobal s p e = .send k q gl) : GoesOn p q 1 := by
  have onLane : ∀ {lane : Nat} {w : Option Nat}, (match glFar s lane with
      | some n => Hop.send (8192 + n) (setStg { p with route := { p.route with gl := BitVec.ofNat 9 lane } } 1) w
      | none => Hop.drop 0x0404) = .send k q gl → GoesOn p q 1 := by
    intro lane w hl
    split at hl <;> cases hl
    exact ⟨⟨rfl, rfl, rfl, rfl⟩, rfl, rfl⟩
  unfold sendGlobal at h
  simp only [Bool.cond_eq_ite] at h
  split at h
  · exact onLane h
  · split at h
    · exact onLane h
    · split at h
      · cases h
      · split at h
        · exact onLane h
        · cases h

/-- A packet that takes an exit keeps its class; its stage is 0 on the way to the exit's port, 1 on a lane of this part. -/
theorem goesOn_of_takeExit (h : takeExit s p e = .send k q gl) : ∃ stg, GoesOn p q stg := by
  unfold takeExit at h
  split at h
  · cases h
  · simp only [Bool.cond_eq_ite] at h
    split at h
    · obtain ⟨⟨dst, typ, epoch, body⟩, cls, stage⟩ := goesOn_of_sendGlobal h
      exact ⟨1, ⟨dst, typ, epoch, body⟩, cls, stage⟩
    · obtain ⟨⟨dst, typ, epoch, body⟩, cls, stage⟩ := goesOn_of_sendLocal h
      exact ⟨0, ⟨dst, typ, epoch, body⟩, cls, stage⟩

/-- A packet that is injected keeps its class, directly and by an intermediate group (R337). -/
theorem goesOn_of_injectHop {x : TableSet} (h : injectHop s x p = .send k q gl) : ∃ stg, GoesOn p q stg := by
  unfold injectHop at h
  simp only [Bool.cond_eq_ite] at h
  split at h
  · cases h
  · exact ⟨2, goesOn_of_sendLocal h⟩
  · split at h
    · obtain ⟨stg, ⟨dst, typ, epoch, body⟩, cls, stage⟩ := goesOn_of_takeExit h
      exact ⟨stg, ⟨dst, typ, epoch, body⟩, cls, stage⟩
    · exact goesOn_of_takeExit h
  · exact goesOn_of_takeExit h

/-! ## Arrival -/

/-- The stage of a packet within its TYPE, as the drain markers number it: 3 × CLASS + STG (R340, R348). -/
theorem packetStage_of_goesOn (h : GoesOn p q stg) (hs : stg < 4) : packetStage q = 3 * p.route.cls.toNat + stg := by
  rw [packetStage, h.cls, h.stage, BitVec.toNat_ofNat, Nat.mod_eq_of_lt hs]

/-- At an intermediate group a packet of class 0 changes to class 1 and is routed anew (R337, R340). -/
theorem arriveHop_rises {x : TableSet} (h : arriveHop s x p stg = .send k q gl) :
    3 * p.route.cls.toNat + stg < packetStage q ∧ SameErrand p q := by
  unfold arriveHop at h
  dsimp only at h
  split at h
  case h_1 =>
    have on := goesOn_of_sendGlobal h
    exact ⟨by rw [packetStage_of_goesOn on (by decide)]; omega, on.toSameErrand⟩
  case h_2 =>
    have last : ∀ {n}, sendLocal s p 2 n = .send k q gl → 3 * p.route.cls.toNat + 1 < packetStage q ∧ SameErrand p q := fun hl =>
      have on := goesOn_of_sendLocal hl
      ⟨by rw [packetStage_of_goesOn on (by decide)]; omega, on.toSameErrand⟩
    simp only [Bool.cond_eq_ite, beq_iff_eq] at h
    split at h
    · split at h
      · cases h
      · next first =>
        have low : p.route.cls.toNat = 0 := by
          have := p.route.cls.isLt
          have : p.route.cls.toNat ≠ 1 := fun e => first (BitVec.eq_of_toNat_eq e)
          omega
        have again : ∀ {stg}, GoesOn { p with route := { p.route with cls := 1, via := false } } q stg →
            3 * p.route.cls.toNat + 1 < packetStage q ∧ SameErrand p q := fun ⟨⟨dst, typ, epoch, body⟩, cls, _⟩ =>
          ⟨by rw [packetStage, cls, low]; exact Nat.lt_of_lt_of_le (by decide) (Nat.le_add_right 3 _), dst, typ, epoch, body⟩
        split at h
        · cases h
        · split at h
          · cases h
          · exact again (goesOn_of_sendLocal h)
          · obtain ⟨_, on⟩ := goesOn_of_takeExit h
            exact again on
    · split at h
      · cases h
      · exact last h
  case h_3 => cases h

/-- A copy of a multicast packet that goes on from hop stage `stg` goes at a later one (R345). -/
theorem treeHops_rises (h : Hop.send k q gl ∈ treeHops s e p (some stg)) : ∃ n, stg < n ∧ n < 4 ∧ GoesOn p q n := by
  have deliver : Hop.send k q gl ∉ (bif bit e 16 then [Hop.deliver p] else []) := by cases bit e 16 <;> simp
  match stg, h with
  | 0, h =>
    obtain hd | hg := List.mem_append.mp h
    · exact absurd hd deliver
    · obtain ⟨lane, -, hl⟩ := List.mem_filterMap.mp hg
      simp only [Bool.cond_eq_ite] at hl
      refine ⟨1, by decide, by decide, ?_⟩
      split at hl
      · cases hl
      · rw [Option.some.injEq] at hl
        split at hl
        · split at hl
          · cases hl
            exact ⟨⟨rfl, rfl, rfl, rfl⟩, rfl, rfl⟩
          · split at hl <;> cases hl
            exact ⟨⟨rfl, rfl, rfl, rfl⟩, rfl, rfl⟩
        · cases hl
  | 1, h =>
    obtain hd | hm := List.mem_append.mp h
    · exact absurd hd deliver
    · obtain ⟨port, -, hl⟩ := List.mem_map.mp hm
      rw [Bool.cond_eq_ite] at hl
      split at hl
      · exact ⟨2, by decide, by decide, goesOn_of_sendLocal hl⟩
      · cases hl
  | _ + 2, h => cases List.mem_singleton.mp h

end

/-- Settles O39, from what a router does with a packet at each hop stage. -/
theorem hopStagesRise : Obligations.HopStagesRise := by
  unfold Obligations.HopStagesRise
  refine ⟨fun s x p stg k q gl h => ?arrival, fun s e p stg k q gl h => ?copy, fun s x p k q gl h => ?injection⟩
  case arrival =>
    obtain ⟨rises, dst, typ, epoch, body⟩ := arriveHop_rises h
    exact ⟨rises, dst, typ, epoch, body⟩
  case copy =>
    obtain ⟨n, later, small, on⟩ := treeHops_rises h
    exact ⟨by rw [on.stage, BitVec.toNat_ofNat, Nat.mod_eq_of_lt small]; exact later, on.cls, on.body⟩
  case injection =>
    obtain ⟨_, on⟩ := goesOn_of_injectHop h
    exact ⟨on.cls, on.dst, on.body⟩

end Sys2Proof.Machine
end

section
/-! SUPPORT. The link layer as the statement of chapter 10 has it: flits, gaps, replays and the failure of a link (R351 to R354). -/

namespace Sys2Proof.Machine

/-! ## Links, counters and outputs -/

@[simp] theorem link_modLink_self (k : Nat) (f : Link → Link) (s : State) : link (modLink k f s) k = f (link s k) := by
  simp [link, modLink]

/-- A counter of 32 bits rises and stays at its greatest value. -/
theorem raw_bump_self (r : Reg) (i j n : Nat) (s : State) : raw (bump r i j n s) r i j = Nat.min (2 ^ 32 - 1) (raw s r i j + n) := by
  have whole : fld s r i j 31 0 = raw s r i j := by
    rw [fld, bits_zero]
    exact Nat.mod_eq_of_lt (raw_lt s r i j)
  have small : Nat.min (2 ^ 32 - 1) (raw s r i j + n) < 2 ^ 32 := Nat.lt_of_le_of_lt (Nat.min_le_left _ _) (by decide)
  have read := bits_setBits_self (raw s r i j) 31 0 (satTo (2 ^ (31 + 1 - 0) - 1) (raw s r i j + n))
  rw [bump, bumpFld, whole, raw_setFld_self s r i j _ (by decide) (by decide)]
  rw [bits_zero, Nat.mod_eq_of_lt (setBits_lt _ _ _ _ (raw_lt s r i j) (by decide) (by decide))] at read
  exact read.trans (Nat.mod_eq_of_lt small)

/-- Outputs sent one after the other. -/
theorem foldl_emit {α : Type} (o : α → Output) (l : List α) (s : State) :
    l.foldl (fun s x => emit (o x) s) s = { s with out := s.out ++ l.map o } := by
  induction l generalizing s with
  | nil => rw [List.map_nil, List.append_nil]; rfl
  | cons x l ih => rw [List.foldl_cons, ih, emit, List.map_cons, List.append_assoc, List.singleton_append]

/-! ## Replays and acknowledgements (R352) -/

section
variable {k : Nat} {s : State}

theorem replay_up (up : linkUp s k = true) : replay k s = modLink k (fun l => { l with tryAt := s.time })
    (bump .fabReplay 0 0 (link s k).unacked.length { s with
      out := s.out ++ (link s k).unacked.map fun f => .flit (keyLink k) { f.flit with ack := ((link s k).next + 4095) % 4096 } }) := by
  rw [replay, up, cond_true]
  dsimp only
  rw [foldl_emit]

theorem replay_down (down : linkUp s k = false) : replay k s = s := by rw [replay, down, cond_false]

/-- The first entry that satisfies a predicate, behind entries that do not. -/
theorem firstIdx_append {α : Type} {p : α → Bool} {a b : List α} {x : α} (before : ∀ y ∈ a, p y = false) (here : p x = true) :
    firstIdx p (a ++ x :: b) = some a.length := by
  induction a with
  | nil => rw [List.nil_append, firstIdx, here]; rfl
  | cons y a ih =>
    rw [List.cons_append, firstIdx, before y List.mem_cons_self, ih fun z hz => before z (List.mem_cons_of_mem y hz)]
    rfl

/-- An acknowledgement takes the flits up to its own. -/
theorem unacked_takeAck {x : Link} {a b : List SentFlit} {f : SentFlit} (now : Time) (hx : x.unacked = a ++ f :: b)
    (first : ∀ g ∈ a, g.flit.seq ≠ f.flit.seq) : (takeAck f.flit.seq now x).unacked = b := by
  have idx : firstIdx (fun g : SentFlit => g.flit.seq == f.flit.seq) x.unacked = some a.length :=
    hx ▸ firstIdx_append (fun g hg => beq_false_of_ne (first g hg)) (beq_self_eq_true _)
  rw [takeAck, idx]
  show x.unacked.drop (a.length + 1) = b
  rw [hx, List.drop_append, List.drop_of_length_le (Nat.le_succ _), Nat.add_sub_cancel_left]
  rfl

/-- Without an acknowledgement for REPLAYTO the sender replays. -/
theorem replayTimeout_eq : replayTimeout k s =
    if (link s k).unacked ≠ [] ∧ (link s k).tryAt + 10 * fld s .fabLtime 0 0 15 0 ≤ s.time then replay k s else s := by
  unfold replayTimeout
  simp only [Bool.cond_eq_ite, Bool.and_eq_true, Bool.not_eq_true', List.isEmpty_eq_false_iff, Nat.ble_eq]

/-! ## Receiving (R351, R352) -/

theorem sendIdle_sends (nak : Bool) : ∃ f, (sendIdle k nak s).out = s.out ++ [.flit (keyLink k) f] ∧ f.nak = nak ∧ f.idle = true ∧
    f.packet = none ∧ f.ack = ((link s k).next + 4095) % 4096 := ⟨_, rfl, rfl, rfl, rfl, rfl⟩

theorem sequencedFlit_eq (f : Flit) : sequencedFlit k f s =
    if (f.seq + 4096 - (link s k).next) % 4096 = 0 then noteGap k (drainHeld 512 k (deliverFlit k f s))
    else if (f.seq + 4096 - (link s k).next) % 4096 < 2048 ∧ (link s k).held.length < 512 ∧ (∀ g ∈ (link s k).held, g.seq ≠ f.seq) then
      noteGap k (modLink k (fun x => { x with held := x.held ++ [f] }) s)
    else s := by
  unfold sequencedFlit
  simp only [Bool.cond_eq_ite, beq_iff_eq, Bool.and_eq_true, Nat.blt_eq, Bool.not_eq_true', List.any_eq_false, and_assoc, ne_eq]

theorem gapTimeout_eq : gapTimeout k s = if ∃ g, (link s k).gap = some g ∧ g + 2000 ≤ s.time
    then sendIdle k true (modLink k (fun x => { x with gap := some s.time }) s) else s := by
  unfold gapTimeout
  cases (link s k).gap with
  | none => simp
  | some g => simp only [Bool.cond_eq_ite, Nat.ble_eq, Option.some.injEq, exists_eq_left']

/-- What a flit that came whole sets off: its acknowledgement, credits and NAK are taken, then its packet bytes. -/
def takeWhole (k : Nat) (f : Flit) (s : State) : State :=
  let v := modLink k (fun x => takeCredits f (takeAck f.ack s.time x)) s
  let v := if f.nak = true then replay k v else v
  pumpAll (if f.idle = true then v else sendIdle k false (sequencedFlit k f v))

/-- Codewords that could not be corrected are counted where a flit is the first to touch them. -/
def countFec (fec : Option Nat) (s : State) : State :=
  match fec with
  | some n => bump .fabFecunc 0 0 n s
  | none => s

theorem flitReceive_eq (f : Flit) (bytes : List Byte) (crc : W32) (fec : Option Nat) : flitReceive k f bytes crc fec s =
    if ¬ (s.swapped = true ∨ isMemory k = true) then countFec fec s
    else if crc ≠ flitCrc f bytes ∨ fec ≠ none then sendIdle k true (bump .fabCrcerr 0 0 1 (countFec fec s))
    else takeWhole k f s := by
  have swapped : (countFec fec s).swapped = s.swapped := by cases fec <;> rfl
  have heard : (!s.swapped && !isMemory k) = true ↔ ¬ (s.swapped = true ∨ isMemory k = true) := by
    simp only [Bool.and_eq_true, Bool.not_eq_true', not_or, Bool.not_eq_true]
  have bad : (fec.isSome || !(crc == flitCrc f bytes)) = true ↔ crc ≠ flitCrc f bytes ∨ fec ≠ none := by
    rw [Bool.or_eq_true, Option.isSome_iff_ne_none, Bool.not_eq_true', beq_eq_false_iff_ne, or_comm]
  show (bif !(countFec fec s).swapped && !isMemory k then _ else bif fec.isSome || !(crc == flitCrc f bytes) then _ else _) = _
  rw [swapped, Bool.cond_eq_ite, Bool.cond_eq_ite]
  refine ite_congr (propext heard) (fun _ => rfl) fun _ => ite_congr (propext bad) (fun _ => rfl) fun whole => ?_
  obtain ⟨_, rfl⟩ : crc = flitCrc f bytes ∧ fec = none := by simpa [not_or] using whole
  unfold takeWhole
  simp only [Bool.cond_eq_ite]

/-! ## Link failure (R354) -/

/-- Whether a link fails now: acknowledgements stand still for LINKTO, or it has no up lane for LINKTO in an outage in which it has not
failed yet. -/
theorem linkFailed_iff : linkFailed s k = true ↔ isMemory k = false ∧ (if linkUp s k = true then
      (link s k).unacked ≠ [] ∧ (link s k).ackAt + 1000 * fld s .fabLtime 0 0 31 16 ≤ s.time
    else linkDownSince s k + 1000 * fld s .fabLtime 0 0 31 16 ≤ s.time ∧ (link s k).failedAt ≠ some (linkDownSince s k)) := by
  unfold linkFailed
  cases isMemory k
  · cases linkUp s k <;> simp
  · simp

theorem linkFailure_eq : linkFailure k s =
    if linkLanes s k ≠ [] ∧ linkFailed s k = true then
      pumpAll ((failedPackets (link s k)).2.foldl (fun y p => dropPacket p.1 0x0404 p.2 y)
        ((failedPackets (link s k)).1.foldl (fun y p => dropPacket p.1 0x0407 p.2 y)
          (bump .fabLinkfail 0 0 1 (modLink k (fun x => { Link.reset with
            marks := x.marks, failedAt := if linkUp s k = true then none else some (linkDownSince s k) }) s))))
    else s := by
  unfold linkFailure
  simp only [Bool.cond_eq_ite, Bool.and_eq_true, Bool.not_eq_true', List.isEmpty_eq_false_iff]

end

/-- Settles O41, command by command. That both ends begin again at SEQ 0 is the model's reading (log entry 95), and so are the 2 µs that
begin again with a NAK (log entry 110) and that a link without lanes does not fail (log entry 109). -/
theorem fabricLinks : Obligations.FabricLinks := by
  unfold Obligations.FabricLinks
  intro l t s u k
  refine ⟨fun f bytes crc fec => ?receive, fun f => sequencedFlit_eq f, congrArg Host.Outcome.next gapTimeout_eq, sendIdle_sends,
    congrArg Host.Outcome.next replayTimeout_eq, fun ack => rfl, fun up => ?replay, replay_down,
    fun x a f b hx first => unacked_takeAck u.time hx first, ?failure⟩
  case receive =>
    refine congrArg (fun v => Host.Outcome.next (collPump v)) ((flitReceive_eq (s := u) f bytes crc fec).trans ?_)
    cases fec <;> rfl
  case replay =>
    rw [replay_up up, link_modLink_self]
    exact ⟨rfl, raw_bump_self .fabReplay 0 0 _ _, rfl, rfl⟩
  case failure =>
    refine congrArg Host.Outcome.next ((linkFailure_eq (s := u)).trans (ite_congr ?_ (fun _ => rfl) fun _ => rfl))
    rw [linkFailed_iff]
    rfl

end Sys2Proof.Machine
end

section
/-! SUPPORT. Table epochs as the statement of chapter 10 has them: swaps, drain markers and the release of the old set (R347 to R350). -/

namespace Sys2Proof.Machine

/-! ## What holds of some entry of a table -/

theorem any_of_tget {α : Type} {p : α → Bool} {d : α} (hd : p d = false) {t : Tab α} {n : Nat} (h : p (tget t n d) = true) :
    (t.any fun c => p c.2) = true := by
  induction t with
  | nil => exact absurd h (Bool.eq_false_iff.mp hd)
  | cons c t ih =>
    obtain ⟨k, w⟩ := c
    rw [List.any_cons, Bool.or_eq_true]
    rw [tget, tget?] at h
    cases hk : k == n
    · rw [hk] at h
      exact .inr (ih h)
    · rw [hk] at h
      exact .inl h

/-- An entry that changes in nothing a predicate sees. -/
theorem any_tset {α : Type} {p : α → Bool} {d : α} (hd : p d = false) {v : α} (t : Tab α) {n : Nat} (hv : p v = p (tget t n d)) :
    ((tset t n v).any fun c => p c.2) = t.any fun c => p c.2 := by
  induction t with
  | nil =>
    rw [tset, List.any_cons, hv]
    exact (Bool.or_false _).trans hd
  | cons c t ih =>
    obtain ⟨k, w⟩ := c
    rw [tset]
    cases hk : n == k
    · have hne : (k == n) = false := by rw [beq_eq_false_iff_ne] at hk ⊢; exact hk.symm
      have later : p v = p (tget t n d) := by rw [hv, tget, tget?, hne]; rfl
      cases Nat.blt n k
      · rw [cond_false, cond_false, List.any_cons, List.any_cons, ih later]
      · rw [cond_false, cond_true, List.any_cons]
        cases hp : p v
        · rfl
        · rw [List.any_cons, any_of_tget hd (later ▸ hp), Bool.or_true]; rfl
    · have here : p v = p w := by
        have same : (k == n) = true := by rw [beq_iff_eq] at hk ⊢; exact hk.symm
        rw [hv, tget, tget?, same]; rfl
      rw [cond_true, List.any_cons, List.any_cons, here]

/-! ## Markers that go out (R348) -/

/-- Drain markers go out: what the state holds of packets and of the markers that came stays, and with it all that the sending of markers
looks at. -/
structure MarkersGo (s t : State) : Prop where
  rest : ∃ o m l, t = { s with out := o, sentMarks := m, links := l }
  seen : ∀ p : Link → Bool, (∀ x m, p { x with toMark := m } = p x) → p Link.reset = false →
    (t.links.any fun c => p c.2) = s.links.any fun c => p c.2
  marks : ∀ k, (link t k).marks = (link s k).marks

theorem MarkersGo.of_links {s t : State} (rest : ∃ o m, t = { s with out := o, sentMarks := m }) : MarkersGo s t := by
  obtain ⟨o, m, rfl⟩ := rest
  exact ⟨⟨o, m, s.links, rfl⟩, fun _ _ _ => rfl, fun _ => rfl⟩

theorem MarkersGo.refl (s : State) : MarkersGo s s := .of_links ⟨s.out, s.sentMarks, rfl⟩

theorem MarkersGo.trans {s t u : State} (h : MarkersGo s t) (g : MarkersGo t u) : MarkersGo s u := by
  refine ⟨?_, fun p hp h0 => (g.seen p hp h0).trans (h.seen p hp h0), fun k => (g.marks k).trans (h.marks k)⟩
  obtain ⟨o, m, l, rfl⟩ := h.rest
  obtain ⟨o', m', l', rfl⟩ := g.rest
  exact ⟨o', m', l', rfl⟩

/-- A marker that waits for a lane of its link. -/
theorem markersGo_wait (k m : Nat) (s : State) : MarkersGo s (modLink k (fun l => { l with toMark := l.toMark ++ [m] }) s) := by
  refine ⟨⟨s.out, s.sentMarks, _, rfl⟩, fun p hp h0 => any_tset h0 _ (hp _ _), fun j => ?_⟩
  by_cases hj : j = k
  · rw [hj, link_modLink_self]
  · rw [link, modLink, tget_tset_ne _ _ _ _ _ hj, link]

section
variable {s t : State} (h : MarkersGo s t) (typ stage : Nat)
include h

theorem MarkersGo.oldWaits_eq : oldWaits t typ stage = oldWaits s typ stage := by
  have seen := h.seen (fun x => (x.queue.any fun it => oldPacket s typ it.pkt && packetStage it.pkt == stage) ||
    x.unacked.any fun f => oldPacket s typ f.pkt && packetStage f.pkt == stage) (fun _ _ => rfl) rfl
  obtain ⟨o, m, l, rfl⟩ := h.rest
  exact seen

theorem MarkersGo.oldHeld_eq : oldHeld t typ stage = oldHeld s typ stage := by
  have seen := h.seen (fun x =>
    (x.held.any fun f => match f.packet with | some p => oldPacket s typ p && Nat.blt (packetStage p) stage | none => false) ||
      x.part.any fun c => c.1 / 8 == typ && Nat.blt (3 * (c.1 / 4 % 2) + c.1 % 4) stage) (fun _ _ => rfl) rfl
  obtain ⟨o, m, l, rfl⟩ := h.rest
  exact congrArg (· || s.stewardQ.any fun x => x.2.isSome && oldPacket s typ x.1 && Nat.blt (packetStage x.1) stage) seen

theorem MarkersGo.stageMarked_eq : stageMarked t typ stage = stageMarked s typ stage := by
  have came := h.marks
  obtain ⟨o, m, l, rfl⟩ := h.rest
  show (stageLinks s (stage % 3)).all (fun k => !linkUp s k || (link _ k).marks.contains (6 * typ + stage)) = _
  simp only [came]
  rfl

end

/-- A marker may go out: no old packet of its TYPE waits on a link of its stage or in an input queue before it, and the markers of every
earlier stage have come and are among those in `sent`. -/
def MayGo (s : State) (sent : List Nat) (m : Nat) : Prop :=
  oldWaits s (m / 6) (m % 6) = false ∧ oldHeld s (m / 6) (m % 6) = false ∧
    ∀ e, e < m % 6 → stageMarked s (m / 6) e = true ∧ 6 * (m / 6) + e ∈ sent

theorem MayGo.mono {s : State} {a b : List Nat} {m : Nat} (h : MayGo s a m) (hab : ∀ n ∈ a, n ∈ b) : MayGo s b m := by
  obtain ⟨waits, held, before⟩ := h
  exact ⟨waits, held, fun e he => (before e he).imp_right (hab _)⟩

theorem MarkersGo.mayGo_iff {s t : State} (h : MarkersGo s t) (sent : List Nat) (m : Nat) : MayGo t sent m ↔ MayGo s sent m := by
  unfold MayGo
  simp only [h.oldWaits_eq, h.oldHeld_eq, h.stageMarked_eq]

/-- Steps of a drain: markers go out, each when it may. -/
structure DrainSteps (s t : State) : Prop where
  go : MarkersGo s t
  sent : ∀ m ∈ s.sentMarks, m ∈ t.sentMarks
  new : ∀ m ∈ t.sentMarks, m ∈ s.sentMarks ∨ (m < 24 ∧ MayGo s t.sentMarks m)

theorem DrainSteps.refl (s : State) : DrainSteps s s := ⟨.refl s, fun _ h => h, fun _ h => .inl h⟩

theorem DrainSteps.trans {s t u : State} (h : DrainSteps s t) (g : DrainSteps t u) : DrainSteps s u := by
  refine ⟨h.go.trans g.go, fun m hm => g.sent m (h.sent m hm), fun m hm => ?_⟩
  obtain ht | ⟨small, may⟩ := g.new m hm
  · exact (h.new m ht).imp_right fun ⟨small, may⟩ => ⟨small, may.mono g.sent⟩
  · exact .inr ⟨small, (h.go.mayGo_iff _ _).mp may⟩

/-- A marker goes out on a link with an up lane; where the lanes are only held it waits for one of them. -/
def markLink (m : Nat) (s : State) (k : Nat) : State :=
  bif linkUp s k then emit (.marker (keyLink k) (m / 6) (m % 6) (oldEpoch s)) s
  else bif linkHeld s k then modLink k (fun l => { l with toMark := l.toMark ++ [m] }) s
  else s

theorem markersGo_markLink (m : Nat) (s : State) (k : Nat) : MarkersGo s (markLink m s k) ∧ (markLink m s k).sentMarks = s.sentMarks := by
  unfold markLink
  cases linkUp s k
  · cases linkHeld s k
    · exact ⟨.refl s, rfl⟩
    · exact ⟨markersGo_wait k m s, rfl⟩
  · exact ⟨.of_links ⟨_, _, rfl⟩, rfl⟩

theorem markersGo_foldl_markLink (m : Nat) (l : List Nat) (s : State) :
    MarkersGo s (l.foldl (markLink m) s) ∧ (l.foldl (markLink m) s).sentMarks = s.sentMarks :=
  rel_foldl (R := fun u v => MarkersGo u v ∧ v.sentMarks = u.sentMarks) (fun u => ⟨.refl u, rfl⟩)
    (fun a b => ⟨a.1.trans b.1, b.2.trans a.2⟩) (fun k _ u => markersGo_markLink m u k) s

/-- The marker of a stage goes out on every link of it when it may, and otherwise nothing happens (R348). -/
theorem sendMark_cases (s : State) (m : Nat) : sendMark s m = s ∨ (MayGo s s.sentMarks m ∧
    sendMark s m = (stageLinks s (m % 6 % 3)).foldl (markLink m) { s with sentMarks := s.sentMarks ++ [m] }) := by
  have shape : sendMark s m = bif !(s.sentMarks.contains m) &&
      (List.range (m % 6)).all (fun e => stageMarked s (m / 6) e && s.sentMarks.contains (6 * (m / 6) + e)) &&
      !(oldWaits s (m / 6) (m % 6)) && !(oldHeld s (m / 6) (m % 6)) then
    (stageLinks s (m % 6 % 3)).foldl (markLink m) { s with sentMarks := s.sentMarks ++ [m] } else s := rfl
  rw [shape, Bool.cond_eq_ite]
  split
  case isTrue may =>
    simp only [Bool.and_eq_true, List.all_eq_true, List.mem_range, Bool.not_eq_true', List.contains_iff_mem] at may
    obtain ⟨⟨⟨-, before⟩, waits⟩, held⟩ := may
    exact .inr ⟨⟨waits, held, before⟩, rfl⟩
  case isFalse => exact .inl rfl

theorem drainSteps_sendMark {m : Nat} (small : m < 24) (s : State) : DrainSteps s (sendMark s m) := by
  obtain stays | ⟨may, goes⟩ := sendMark_cases s m
  · rw [stays]
    exact .refl s
  · obtain ⟨go, sent⟩ := markersGo_foldl_markLink m (stageLinks s (m % 6 % 3)) { s with sentMarks := s.sentMarks ++ [m] }
    have grows : ∀ n ∈ s.sentMarks, n ∈ s.sentMarks ++ [m] := fun n => List.mem_append_left _
    rw [goes]
    refine ⟨(MarkersGo.of_links ⟨s.out, _, rfl⟩).trans go, ?_, ?_⟩
    · rw [sent]
      exact grows
    · rw [sent]
      refine fun n hn => (List.mem_append.mp hn).imp_right fun hn => ?_
      rw [List.mem_singleton.mp hn]
      exact ⟨small, may.mono grows⟩

theorem drainSteps_drainProgress (s : State) : DrainSteps s (drainProgress s) := by
  rw [drainProgress, Bool.cond_eq_ite]
  split
  · exact rel_foldl DrainSteps.refl DrainSteps.trans (fun m hm => drainSteps_sendMark (List.mem_range.mp hm)) s
  · exact .refl s

theorem mem_drainProgress {s : State} {m : Nat} (h : m ∈ (drainProgress s).sentMarks) :
    m ∈ s.sentMarks ∨ (m < 24 ∧ s.fabOld ≠ none ∧ MayGo s (drainProgress s).sentMarks m) := by
  cases hd : s.fabOld with
  | none =>
    rw [drainProgress, draining, hd] at h
    exact .inl h
  | some x => exact ((drainSteps_drainProgress s).new m h).imp_right fun ⟨small, may⟩ => ⟨small, Option.some_ne_none x, may⟩

/-! ## Swap and release (R347, R349, R350) -/

theorem draining_iff {s : State} : draining s = true ↔ s.fabOld ≠ none := Option.isSome_iff_ne_none

theorem fabSwapStatus_eq (s : State) : fabSwapStatus s = if flag s .fabTbl 0 0 29 = true ∧ s.fabOld = none then 0 else 0x0406 := by
  unfold fabSwapStatus draining failIf
  cases flag s .fabTbl 0 0 29 <;> cases s.fabOld <;> rfl

/-- A served write of FAB_TBL: a refused swap refuses the write. -/
theorem regCommand_fabTbl {s : State} {path : Path} {v : W32} (h : WritesReg s path .fabTbl 0 0 v) :
    regCommand path .fabTbl 0 0 v s =
      let w := fetched path .fabTbl 0 0 v s
      let st := if bit v.toNat 31 = true then fabSwapStatus w else 0
      let y := written .fabTbl 0 0 v w
      let y := if bit v.toNat 31 = true then fabSwap y else y
      let y := if bit v.toNat 30 = true then fabForce y else y
      if st = 0 then answered path .fabTbl 0 0 0 w y else answered path .fabTbl 0 0 st w w := by
  extract_lets w st y swapped forced
  have status : blockStatus w ⟨.fabTbl, 0, 0⟩ v.toNat = st := Bool.cond_eq_ite ..
  have effect : commitPlace ⟨.fabTbl, 0, 0⟩ v.toNat none w = forced := by
    show (bif bit v.toNat 30 then fabForce (bif bit v.toNat 31 then fabSwap y else y) else (bif bit v.toNat 31 then fabSwap y else y)) = _
    rw [Bool.cond_eq_ite, Bool.cond_eq_ite]
  rw [regCommand_writes h rfl rfl rfl, status, effect]

theorem flag_fabSwap (s : State) : flag (fabSwap s) .fabTbl 0 0 29 = false := by
  have cleared : flag (setFld .fabTbl 0 0 29 29 0 s) .fabTbl 0 0 29 = false := by
    rw [flag_eq_fld, fld_setFld_self s _ 0 0 0 (by decide) (by decide)]
    rfl
  obtain ⟨o, m, l, rest⟩ := (drainSteps_drainProgress _).go.rest
  rw [fabSwap, rest]
  exact cleared

/-- The part becomes fabric-ready at the first swap after discovery (R333). -/
theorem fabReady_fabSwap {s : State} (found : s.discovered = true) (first : s.fabReady = none) : (fabSwap s).fabReady = some s.time := by
  obtain ⟨o, m, l, rest⟩ := (drainSteps_drainProgress _).go.rest
  rw [fabSwap, rest]
  dsimp only [setFld_fabReady, setFld_discovered, setFld_time]
  rw [first, found]
  rfl

/-- A link without the markers that came and those that wait. -/
def unmarked (l : Link) : Link := { l with marks := [], toMark := [] }

/-- A released set leaves no marker that came or waits. -/
theorem link_releaseOld (s : State) (k : Nat) : link (releaseOld s) k = unmarked (link s k) := by
  have entry : tget? (releaseOld s).links k = (tget? s.links k).map unmarked :=
    tget?_map (f := fun l : Nat × Link => (l.1, unmarked l.2)) (fun _ => rfl) s.links k
  rw [link, tget, entry, link, tget]
  cases tget? s.links k <;> rfl

theorem fabForce_none {s : State} (h : s.fabOld = none) : fabForce s = s := by rw [fabForce, draining, h]; rfl

theorem fabForce_some {s : State} (h : s.fabOld ≠ none) : fabForce s = releaseOld s := by
  rw [fabForce, draining_iff.mpr h, cond_true]

/-- The drain is complete: the old set is released and the managers are told (R349). -/
theorem drainRelease_done {s : State} (old : s.fabOld ≠ none) (done : ∀ m, m < 24 →
      stageMarked (drainProgress s) (m / 6) (m % 6) = true ∧ m ∈ (drainProgress s).sentMarks ∧
      oldWaits (drainProgress s) (m / 6) (m % 6) = false ∧ oldHeld (drainProgress s) (m / 6) 6 = false) :
    drainRelease s = (List.range 4).foldl (fun y n => if flag y .fabMgr n 0 31 = true then
      sendMgmt (fld y .fabMgr n 0 12 0) .drained y else y) (releaseOld (drainProgress s)) := by
  have drains : draining (drainProgress s) = true := by
    obtain ⟨o, m, l, rest⟩ := (drainSteps_drainProgress s).go.rest
    rw [rest]
    exact draining_iff.mpr old
  have all : ((List.range 24).all fun m => stageMarked (drainProgress s) (m / 6) (m % 6) && (drainProgress s).sentMarks.contains m &&
      !(oldWaits (drainProgress s) (m / 6) (m % 6)) && !(oldHeld (drainProgress s) (m / 6) 6)) = true := by
    rw [List.all_eq_true]
    intro m hm
    obtain ⟨came, sent, waits, held⟩ := done m (List.mem_range.mp hm)
    rw [came, List.contains_iff_mem.mpr sent, waits, held]
    rfl
  unfold drainRelease
  dsimp only
  rw [drains, all, Bool.true_and, cond_true]
  simp only [Bool.cond_eq_ite]

theorem drainWarn_late {s : State} (old : s.fabOld ≠ none) (first : s.drainWarned = false)
    (late : s.drainAt + 1000000 * fld s .fabCtl 0 0 15 8 < s.time) :
    drainWarn s = raise 0xB00C 2 none 0 0 { s with drainWarned := true } := by
  rw [drainWarn, draining_iff.mpr old, first, Nat.blt_eq.mpr late]
  rfl

/-- Settles O42, command by command. That a released set is filled with values of the part's own is the model's choice (log entry 106), and
which packets hold a marker back (log entry 273) and that FORCE tells no manager (log entry 109) are its readings. -/
theorem tableEpochs : Obligations.TableEpochs := by
  unfold Obligations.TableEpochs
  intro t s u
  refine ⟨fun path value h => ?write, fabSwapStatus_eq s, ?swap, ⟨fabForce_none, fun old => ?force⟩, fun l typ stage => ?marker,
    fun m hm => mem_drainProgress hm, fun old done => congrArg Host.Outcome.next (drainRelease_done (s := u) old done),
    fun old first late => congrArg Host.Outcome.next (drainWarn_late (s := u) old first late)⟩
  case write => exact ⟨congrArg Host.Outcome.next (regCommand_fabTbl h), congrArg Host.Outcome.next (regCommand_fabTbl h)⟩
  case swap =>
    have flagged := flag_fabSwap s
    have ready := @fabReady_fabSwap s
    obtain ⟨o, m, l, rest⟩ := (drainSteps_drainProgress _).go.rest
    rw [fabSwap, rest] at flagged ready ⊢
    exact ⟨rfl, rfl, rfl, flagged, rfl, rfl, ready⟩
  case force =>
    rw [fabForce_some old]
    exact ⟨rfl, rfl, fun k => by rw [link_releaseOld]; exact ⟨rfl, rfl⟩, rfl, rfl, fun d => ⟨rfl, rfl⟩⟩
  case marker =>
    refine congrArg (fun f => Host.Outcome.next (drainProgress (modLink (linkKey l) f u))) (funext fun x => ?_)
    simp only [Bool.cond_eq_ite, List.contains_iff_mem]

end Sys2Proof.Machine
end

section
/-! SUPPORT. Injection, arrival and delivery of packets as the statement of chapter 10 has them (R336, R337, R341, R343 to R346, R355). -/

namespace Sys2Proof.Machine

/-! ## Injection (R336, R343, R344, R346) -/

/-- A packet whose header the network interface has filled for a slice. -/
def withHeader (s : State) (slice : BitVec 12) (pkt : Packet) : Packet :=
  { pkt with route := { pkt.route with
      src := BitVec.ofNat 13 (ownNode s), epoch := BitVec.ofNat 2 s.epoch, cls := 0, via := false, igrp := 0, slice := slice,
      nflit := flitsOf pkt.body, gl := 0, gm := 0, stg := 0, rsv := 0 } }

/-- An entry names a way: V is 1, MODE is not reserved, and a MODE that needs an exit has a valid one (R335). -/
def entryFits (e : Nat) : Prop := rtV e = true ∧ rtMode e < 5 ∧ (2 ≤ rtMode e → rtExits e ≠ [])

/-- A tree takes a multicast packet of a partition: a collective packet or one of the Steward, of the tree's owner (R344). -/
def treeTakes (part : Nat) (tr : Nat) (pkt : Packet) : Prop :=
  2 ≤ pkt.route.typ.toNat ∧ bit tr 20 = true ∧ (pkt.route.typ = 3 ∨ bits tr 19 17 = part)

theorem entry_refused_iff (e : Nat) : (!(rtV e) || Nat.ble 5 (rtMode e) ||
    (rtMode e == 2 || rtMode e == 3 || rtMode e == 4) && (rtExits e).isEmpty) = true ↔ ¬ entryFits e := by
  simp only [entryFits, Bool.or_eq_true, Bool.and_eq_true, Bool.not_eq_true', Nat.ble_eq, beq_iff_eq, List.isEmpty_iff]
  cases rtV e
  · simp
  · by_cases hx : rtExits e = []
    · simp only [hx, ne_eq, not_true_eq_false, reduceCtorEq, false_or, and_true, true_and, imp_false]
      omega
    · simp only [hx, ne_eq, not_false_eq_true, reduceCtorEq, false_or, and_false, or_false, implies_true, and_true, true_and]
      omega

section
variable {s : State} {part : Nat} {pkt : Packet} {slice : BitVec 12}

/-- Without a slice nothing is injected but for the Steward. -/
theorem inject_unsliced (again : Bool) (typ : pkt.route.typ ≠ 3) (free : flag s .fabPslice part 0 31 = false) :
    inject part pkt again s = .refused 0x0402 := by
  have none : (bif pkt.route.typ == 3 then some 0xFFF else partSlice s part) = none := by
    rw [beq_false_of_ne typ, cond_false, partSlice, free, cond_false]
  unfold inject
  dsimp only
  rw [none]

/-- The slice in the header of a packet: the Steward's, or that of the partition. -/
def Sliced (s : State) (part : Nat) (pkt : Packet) (slice : BitVec 12) : Prop :=
  (pkt.route.typ = 3 ∨ flag s .fabPslice part 0 31 = true) ∧
    slice = if pkt.route.typ = 3 then 0xFFF else BitVec.ofNat 12 (fld s .fabPslice part 0 11 0)

theorem slice_of_sliced (h : Sliced s part pkt slice) :
    ∃ n, (bif pkt.route.typ == 3 then some 0xFFF else partSlice s part) = some n ∧ BitVec.ofNat 12 n = slice := by
  obtain ⟨has, rfl⟩ := h
  by_cases typ : pkt.route.typ = 3
  · exact ⟨0xFFF, by rw [typ]; rfl, by rw [if_pos typ]; rfl⟩
  · refine ⟨fld s .fabPslice part 0 11 0, ?_, (if_neg typ).symm⟩
    rw [beq_false_of_ne typ, cond_false, partSlice, has.resolve_left typ, cond_true]

section
variable (sliced : Sliced s part pkt slice)
include sliced

/-- With a slice the injection comes down to the tests of the tree or of the entry, then of the partition. -/
theorem inject_sliced (again : Bool) : inject part pkt again s =
    let k := withHeader s slice pkt
    let tr := s.fabActive.tree (pkt.route.dst.toNat % 1024)
    let e := s.fabActive.route pkt.route.dst.toNat
    bif pkt.route.mc then
      bif Nat.blt pkt.route.typ.toNat 2 || !(bit tr 20) || (!(pkt.route.typ == 3) && !(bits tr 19 17 == part)) then .refused 0x0401
      else .sent ((treeHops s tr k none).foldl (fun y h => doHop k none y h) s)
    else bif !(rtV e) || Nat.ble 5 (rtMode e) || (rtMode e == 2 || rtMode e == 3 || rtMode e == 4) && (rtExits e).isEmpty then .refused 0x0401
    else bif !(pkt.route.typ == 3) && !(rtAllows e part) then .refused 0x0402
    else routeOut k again s := by
  obtain ⟨n, has, rfl⟩ := slice_of_sliced sliced
  unfold inject
  dsimp only
  rw [has]
  rfl

/-- A multicast packet goes out on the tree, each copy on its own, when the tree takes it (R344, R345). -/
theorem inject_multicast (again : Bool) (mc : pkt.route.mc = true) :
    let tr := s.fabActive.tree (pkt.route.dst.toNat % 1024)
    let k := withHeader s slice pkt
    (¬ treeTakes part tr pkt → inject part pkt again s = .refused 0x0401) ∧
    (treeTakes part tr pkt → inject part pkt again s = .sent ((treeHops s tr k none).foldl (fun y h => doHop k none y h) s)) := by
  intro tr k
  have refused : (Nat.blt pkt.route.typ.toNat 2 || !(bit tr 20) || (!(pkt.route.typ == 3) && !(bits tr 19 17 == part))) = true ↔
      ¬ treeTakes part tr pkt := by
    simp only [treeTakes, Bool.or_eq_true, Bool.and_eq_true, Bool.not_eq_true', Nat.blt_eq, beq_eq_false_iff_ne, ne_eq, Classical.not_and_iff_not_or_not,
      not_or, Nat.not_le, Bool.not_eq_true, or_assoc]
  rw [inject_sliced sliced, mc]
  dsimp only
  rw [cond_true, Bool.cond_eq_ite]
  exact ⟨fun no => if_pos (refused.mpr no), fun yes => if_neg fun r => refused.mp r yes⟩

/-- A unicast packet is routed when its entry names a way and takes its partition (R336, R344). -/
theorem inject_unicast (again : Bool) (uni : pkt.route.mc = false) :
    let e := s.fabActive.route pkt.route.dst.toNat
    (¬ entryFits e → inject part pkt again s = .refused 0x0401) ∧
    (entryFits e → pkt.route.typ ≠ 3 → rtAllows e part = false → inject part pkt again s = .refused 0x0402) ∧
    (entryFits e → (pkt.route.typ = 3 ∨ rtAllows e part = true) → inject part pkt again s = routeOut (withHeader s slice pkt) again s) := by
  intro e
  rw [inject_sliced sliced, uni]
  dsimp only
  rw [cond_false, Bool.cond_eq_ite]
  refine ⟨fun no => if_pos ((entry_refused_iff _).mpr no), fun fits typ closed => ?_, fun fits open_ => ?_⟩
  · rw [if_neg fun r => (entry_refused_iff _).mp r fits, beq_false_of_ne typ, closed]
    rfl
  · rw [if_neg fun r => (entry_refused_iff _).mp r fits]
    obtain typ | allowed := open_
    · rw [typ]
      rfl
    · rw [allowed, Bool.not_true, Bool.and_false, cond_false]

end

theorem packetInject_sent {v : State} (h : inject part pkt false s = .sent v) : packetInject part pkt s = pumpAll v := by
  rw [packetInject, h]

/-- A packet that must wait for its ORD path is not taken. -/
theorem packetInject_held (h : inject part pkt false s = .held) : packetInject part pkt s = s := by
  rw [packetInject, h]

/-- A refusal is told, and ends the request of a live transaction and nothing else (R336, R388). -/
theorem packetInject_refused {st : Status} (h : inject part pkt false s = .refused st) :
    (∀ hdr d x, pkt.body = .transport hdr d → tget? s.txns hdr.tag.toNat = some x → x.hdr = hdr → x.part = part → pkt.route.typ = 0 →
      packetInject part pkt s = sendWaiting (finishTxn hdr.tag.toNat st [] (emit (.injectRefused part st) s))) ∧
    ((∀ hdr d x, pkt.body = .transport hdr d → tget? s.txns hdr.tag.toNat = some x →
        ¬ (x.hdr = hdr ∧ x.part = part ∧ pkt.route.typ = 0)) → packetInject part pkt s = emit (.injectRefused part st) s) := by
  refine ⟨fun hdr d x body live hhdr hpart typ => ?_, fun other => ?_⟩
  · rw [packetInject, h]
    dsimp only
    rw [body]
    dsimp only [emit_txns]
    rw [live]
    dsimp only
    rw [hhdr, hpart, typ, beq_self_eq_true, beq_self_eq_true]
    rfl
  · rw [packetInject, h]
    dsimp only [emit_txns]
    split
    case h_1 hdr d body =>
      split
      case h_1 x live =>
        have no := other hdr d x body live
        rw [Bool.cond_eq_ite, if_neg]
        simpa only [Bool.and_eq_true, beq_iff_eq, and_assoc] using no
      case h_2 => rfl
    case h_2 => rfl

/-! ## ORD paths (R343) -/

theorem routeOut_unordered {p : Packet} (again : Bool) (ord : p.route.ord = false) :
    routeOut p again s = .sent (doHop p none { s with free := s.free + 1 } (injectHop s s.fabActive p)) := by
  rw [routeOut, ord]
  rfl

/-- An ORD packet goes out when its path is a new one, the one it took, or one that no other awaits. -/
theorem routeOut_ordered {p : Packet} (again : Bool) (ord : p.route.ord = true)
    (path : ∀ q, tget? s.ordPaths p.route.dst.toNat = some q →
      pathOf s (injectHop s s.fabActive p) = some q ∨ ordOutstanding s p.route.dst.toNat = false) :
    routeOut p again s = .sent (ordOut p (injectHop s s.fabActive p) { s with free := s.free + 1 }) := by
  unfold routeOut
  dsimp only
  rw [ord, cond_true]
  split
  case h_1 q hq =>
    have goes : (pathOf s (injectHop s s.fabActive p) == some q || !(ordOutstanding s p.route.dst.toNat)) = true := by
      obtain same | quiet := path q hq
      · rw [same, beq_self_eq_true, Bool.true_or]
      · rw [quiet, Bool.not_false, Bool.or_true]
    rw [goes, cond_true]
  case h_2 => rfl

/-- A new ORD packet waits while its path would change under others. -/
theorem routeOut_held {p : Packet} {q : Nat × Nat × Nat} (ord : p.route.ord = true) (kept : tget? s.ordPaths p.route.dst.toNat = some q)
    (changes : pathOf s (injectHop s s.fabActive p) ≠ some q) (awaited : ordOutstanding s p.route.dst.toNat = true) :
    routeOut p false s = .held := by
  unfold routeOut
  dsimp only
  rw [ord, kept, cond_true]
  dsimp only
  rw [beq_false_of_ne changes, awaited]
  rfl

end

/-! ## Arrival, delivery and drops -/

/-- Before the first swap of table sets an arriving packet is ignored (R333). -/
theorem packetArrive_unready (l : LinkId) (p : Packet) {s : State} (h : s.swapped = false) : packetArrive l p s = s := by
  rw [packetArrive, h, cond_false]

section
variable (l : LinkId) {p : Packet} {s : State} (swapped : s.swapped = true)
include swapped

theorem packetArrive_swapped : packetArrive l p s = pumpAll (arrivePacket p p.route.stg.toNat none s) := by
  rw [packetArrive, swapped, cond_true]

theorem packetArrive_bad (bad : routeBad p = true) : packetArrive l p s = pumpAll (bump .fabDropRoute 0 0 1 s) := by
  rw [packetArrive_swapped l swapped, arrivePacket, bad, cond_true]
  rfl

theorem packetArrive_unknown (good : routeBad p = false) (unknown : setOf s p.route.epoch.toNat = none) :
    packetArrive l p s = pumpAll (dropPacket p 0x0403 none s) := by
  rw [packetArrive_swapped l swapped, arrivePacket, good, cond_false, unknown]

/-- The set of a packet's epoch routes it, and each copy of a multicast packet on its own. -/
theorem packetArrive_routed {x : TableSet} (good : routeBad p = false) (known : setOf s p.route.epoch.toNat = some x) :
    packetArrive l p s = pumpAll (if p.route.mc = true then
        (treeHops s (x.tree (p.route.dst.toNat % 1024)) p (some p.route.stg.toNat)).foldl (fun y h => doHop p none y h)
          { s with free := s.free + 1 }
      else doHop p none { s with free := s.free + 1 } (arriveHop s x p p.route.stg.toNat)) := by
  refine (packetArrive_swapped l swapped).trans (congrArg pumpAll ?_)
  rw [arrivePacket, good, cond_false, known]
  dsimp only
  rw [Bool.cond_eq_ite]
  rfl

end

/-- A packet whose delivery is refused is dropped with the status. -/
theorem doHop_deliver_error {p : Packet} {o : Option Origin} {s : State} {st : Status} (h : deliverTo p o s = .error st) :
    doHop p o s (.deliver p) = dropPacket p st o s := by
  rw [doHop, h]

theorem doHop_deliver_ok {p : Packet} {o : Option Origin} {s v : State} (h : deliverTo p o s = .ok v) : doHop p o s (.deliver p) = v := by
  rw [doHop, h]

section
variable {p : Packet} {s : State}

/-- A packet is delivered to the partition that holds its slice (R341, R346). -/
theorem doHop_deliver_partition (typ : p.route.typ ≠ 3) :
    (slicePart s p.route.slice.toNat = none → doHop p none s (.deliver p) = dropPacket p 0x0405 none s) ∧
    ∀ n, slicePart s p.route.slice.toNat = some n → doHop p none s (.deliver p) =
      { s with arrived := s.arrived ++ [⟨s.time, n, p, none⟩] } := by
  refine ⟨fun free => doHop_deliver_error ?_, fun n bound => doHop_deliver_ok ?_⟩
  · rw [deliverTo, beq_false_of_ne typ, cond_false, free]
  · rw [deliverTo, beq_false_of_ne typ, cond_false, bound]
    cases p.route.typ == 0 <;> rfl

/-- A management packet is for the Steward, which takes those that it accepts (R346). -/
theorem doHop_deliver_steward (typ : p.route.typ = 3) :
    (p.route.slice ≠ 0xFFF → doHop p none s (.deliver p) = dropPacket p 0x0405 none s) ∧
    (p.route.slice = 0xFFF → doHop p none s (.deliver p) =
      if stewardTakes s p = true then { s with stewardQ := s.stewardQ ++ [(p, none)] } else s) := by
  refine ⟨fun other => doHop_deliver_error ?_, fun own => doHop_deliver_ok ?_⟩
  · rw [deliverTo, typ, beq_false_of_ne other]
    rfl
  · rw [deliverTo, typ, own]
    cases stewardTakes s p
    · rfl
    · cases hq : Nat.blt s.stewardQ.length 64 <;> rfl

theorem stewardTakes_iff : stewardTakes s p = true ↔ isManager s p.route.src.toNat = true ∨ p.body = .drained ∨ ∃ b, p.body = .weather b := by
  unfold stewardTakes
  split
  case h_1 body => simp [body]
  case h_2 b body => simp [body]
  case h_3 notDrained notWeather =>
    exact ⟨.inl, fun h => h.resolve_right fun h => h.elim notDrained fun ⟨b, hb⟩ => notWeather b hb⟩

/-- A dropped packet is counted, and its source is told (R355). -/
theorem dropPacket_tells (st : Status) (told : isNotice p = false) :
    dropPacket p st none s = sendNotice 0 p st (bump (dropCounter st) 0 0 1 (noteDrop 0 1 0 s)) := by
  rw [dropPacket, told]
  rfl

end

end Sys2Proof.Machine
end

section
/-! SUPPORT. Hellos, discovery and weather records as the statement of chapter 10 has them (R331 to R333, R356). -/

namespace Sys2Proof.Machine

/-! ## A fenced lane (Table 9.10) -/

/-- An Up unit that a cause reaches is Draining, and of the registers only the count of causes and those of events change. -/
theorem noteCause_up {kind index : Nat} {s : State} (cause : Status) (up : isUp s kind index = true) :
    unitState (noteCause kind index cause s) kind index = .draining ∧ KeepsRegs (.errCount :: eventRegs) s (noteCause kind index cause s) := by
  have count : Stands .errCount 0 0 := stands_of_lt (by decide) (by decide) rfl
  have counted : KeepsRegs (.errCount :: eventRegs) s (bumpFld .errCount 0 0 15 0 1 s) := keepsRegs_bumpFld count (by decide) 15 0 1 s
  have was : unitState (bumpFld .errCount 0 0 15 0 1 s) kind index = .up := beq_iff_eq.mp up
  unfold noteCause
  dsimp only
  rw [was]
  have told := tells_raise 0x9001 1 (unitPart kind index) (unitId kind index) (BitVec.ofNat 64 (2 ^ 16 + cause.toNat))
    (setUnit kind index .draining cause (bumpFld .errCount 0 0 15 0 1 s))
  refine ⟨?_, counted.trans ((KeepsRegs.of_ctl _ rfl).trans (told.regs.mono (List.subset_cons_self ..)))⟩
  obtain ⟨c, q, rest⟩ := told.rest
  rw [rest]
  exact unitState_setUnit_self ..

/-- An engine that is no host engine has 64 receive lanes, each with its register. -/
theorem stands_receiveLane {e l : Nat} (he : e < 10) (hl : l < 64) : isHostEngine e = false ∧ Stands .optRxl e l := by
  have host : isHostEngine e = false := by rw [isHostEngine, Bool.eq_false_iff, ne_eq, Nat.ble_eq]; omega
  have lanes : engineLanes e = 64 := by rw [engineLanes, ← isHostEngine, host, cond_false]
  exact ⟨host, stands_laneReg (d := 1) (by omega) (lanes ▸ hl)⟩

/-- What the fence of an Up receive lane leaves: the lane is fenced and drains, and of the registers only its own, the count of causes and
those of events have changed. -/
structure LaneFenced (e l : Nat) (s t : State) : Prop where
  drains : unitState t 5 (laneUnit e 1 l) = .draining
  fenced : laneState t e 1 l = 6
  regs : KeepsRegs (.optRxl :: .errCount :: eventRegs) s t

/-- A receive lane of an engine that is no host engine takes a state, and no unit does. -/
theorem setLane_receive {e l : Nat} (he : e < 10) (hl : l < 64) {st : Nat} (small : st < 16) (s : State) :
    laneState (setLane e 1 l st s) e 1 l = st ∧ KeepsRegs [.optRxl] s (setLane e 1 l st s) ∧ (setLane e 1 l st s).units = s.units := by
  obtain ⟨host, stands⟩ := stands_receiveLane he hl
  unfold setLane
  dsimp only
  rw [host, Bool.false_and, Bool.false_and, Bool.false_and, cond_false]
  refine ⟨(fld_setFld_self s .optRxl e l st (by decide) (by decide)).trans (Nat.mod_eq_of_lt small), ?_, rfl⟩
  exact keepsRegs_setFld stands (by decide) 3 0 st s

theorem laneFenced_causeLane {e l : Nat} (he : e < 10) (hl : l < 64) (cause : Status) {s : State}
    (up : isUp s 5 (laneUnit e 1 l) = true) (used : laneState s e 1 l ≠ 8) : LaneFenced e l s (causeLane (laneUnit e 1 l) cause s) := by
  obtain ⟨drains, regs⟩ := noteCause_up cause up
  have place : laneUnit e 1 l / 128 = e ∧ laneUnit e 1 l / 64 % 2 = 1 ∧ laneUnit e 1 l % 64 = l := by
    unfold laneUnit
    omega
  have same : laneState (noteCause 5 (laneUnit e 1 l) cause s) e 1 l = laneState s e 1 l :=
    regs.fld_eq (stands_receiveLane he hl).2 (by decide) 3 0
  unfold causeLane
  dsimp only
  obtain ⟨engine_, direction, lane⟩ := place
  rw [up, Bool.true_or, cond_true, engine_, direction, lane, same, beq_false_of_ne used, cond_false]
  obtain ⟨state, rx, units⟩ := setLane_receive he hl (st := 6) (by decide) (noteCause 5 (laneUnit e 1 l) cause s)
  refine ⟨?_, state, (regs.mono (List.subset_cons_self ..)).trans (rx.mono (by decide))⟩
  rw [unitState, units, ← unitState]
  exact drains

theorem LaneFenced.tells {e l : Nat} (he : e < 10) (hl : l < 64) {s t u : State} (h : LaneFenced e l s t) (told : Tells t u) :
    LaneFenced e l s u := by
  refine ⟨?_, (told.regs.fld_eq (stands_receiveLane he hl).2 (by decide) 3 0).trans h.fenced,
    h.regs.trans (told.regs.mono (by decide))⟩
  obtain ⟨c, q, rest⟩ := told.rest
  rw [rest]
  exact h.drains

/-! ## Hellos (R331) -/

theorem helloSend_eq (e f k : Nat) (s : State) : helloSend e f k s =
    if engineRole s e ≤ 1 ∧ laneState s e 0 (16 * f + k) = 2 then
      emit (.hello e (16 * f + k) ⟨BitVec.ofNat 13 (ownNode s), BitVec.ofNat 16 (ownDomain s), e, f, k⟩) s
    else s := by
  unfold helloSend
  simp only [Bool.cond_eq_ite, Bool.and_eq_true, Nat.ble_eq, beq_iff_eq]

theorem helloOk_iff (s : State) (e l : Nat) (h : Hello) : helloOk s e l h = true ↔ h.domain.toNat = ownDomain s ∧
    (∀ m, tget? s.helloFrom (64 * e + l) = some m → m = h.node.toNat) ∧
    (if wiringFixed s = true then ∃ m, s.fabMap = some m ∧ tget? m (64 * e + l) = some h.node.toNat
     else if engineRole s e = 0 then h.node.toNat = groupNo (ownNode s) * 16 + (portNo (ownNode s) + pairedLane s e l % 16) % 16
     else groupNo h.node.toNat ≠ groupNo (ownNode s)) := by
  unfold helloOk
  dsimp only
  rw [Bool.and_eq_true, Bool.and_eq_true, beq_iff_eq, and_assoc]
  refine and_congr_right' (and_congr ?first ?place)
  case first => cases tget? s.helloFrom (64 * e + l) <;> simp
  case place =>
    cases wiringFixed s
    · by_cases role : engineRole s e = 0 <;> simp [role]
    · cases s.fabMap <;> simp

/-- Whether a receive lane takes hellos: an up lane of the fabric other than λ00. -/
def hears (s : State) (e l k : Nat) : Prop := engineRole s e ≤ 1 ∧ k ≠ 0 ∧ laneState s e 1 l = 2

theorem deaf_iff (s : State) (e l k : Nat) :
    (!(Nat.ble (engineRole s e) 1) || k == 0 || !(laneState s e 1 l == 2)) = true ↔ ¬ hears s e l k := by
  simp only [hears, Bool.or_eq_true, Bool.not_eq_true', beq_iff_eq, ne_eq, Classical.not_and_iff_not_or_not, Decidable.not_not, or_assoc,
    Bool.eq_false_iff, Nat.ble_eq]

theorem helloReceive_deaf {e f k : Nat} {h : Hello} {s : State} (deaf : ¬ hears s e (16 * f + k) k) : helloReceive e f k h s = s := by
  unfold helloReceive
  dsimp only
  rw [(deaf_iff s e (16 * f + k) k).mpr deaf, cond_true]

/-- The first hello of a receive lane fixes the node it comes from. -/
def heard (e l : Nat) (h : Hello) (s : State) : State :=
  { s with helloFrom := if thas s.helloFrom (64 * e + l) = true then s.helloFrom else tset s.helloFrom (64 * e + l) h.node.toNat }

/-- A hello that passes is recorded, and for a global lane FAB_GLMAP shows the node. -/
theorem helloReceive_passes {e f k : Nat} {h : Hello} {s : State} (hear : hears s e (16 * f + k) k) (ok : helloOk s e (16 * f + k) h = true) :
    helloReceive e f k h s =
      let v := heard e (16 * f + k) h s
      if engineRole s e = 1 then
        match laneGl s e (pairedLane s e (16 * f + k)) with
        | some g =>
          let w := setRaw .fabGlmap g 0 (2 ^ 31 + h.node.toNat) v
          pumpAll (if (8192 + h.node.toNat) ∉ stageLinks v 1 ∧ linkUp w (8192 + h.node.toNat) = true then
            catchUpMarks (8192 + h.node.toNat) w else w)
        | none => v
      else v := by
  have open_ : (!(Nat.ble (engineRole s e) 1) || k == 0 || !(laneState s e 1 (16 * f + k) == 2)) = false :=
    Bool.eq_false_iff.mpr fun deaf => (deaf_iff s e _ k).mp deaf hear
  have recorded : (bif thas s.helloFrom (64 * e + (16 * f + k)) then s
      else { s with helloFrom := tset s.helloFrom (64 * e + (16 * f + k)) h.node.toNat }) = heard e (16 * f + k) h s := by
    unfold heard
    cases thas s.helloFrom (64 * e + (16 * f + k)) <;> rfl
  unfold helloReceive
  dsimp only
  rw [open_, cond_false, ok, cond_true, recorded]
  by_cases role : engineRole s e = 1
  · rw [if_pos role, role, beq_self_eq_true, cond_true]
    cases laneGl s e (pairedLane s e (16 * f + k)) with
    | none => rfl
    | some g =>
      dsimp only
      rw [Bool.cond_eq_ite]
      simp only [Bool.and_eq_true, Bool.not_eq_true', List.contains_eq_mem, decide_eq_false_iff_not]
  · rw [if_neg role, beq_false_of_ne role, cond_false]

/-- MISWIRE of the global lane, if the receive lane has one. -/
def miswired (gl : Option Nat) (s : State) : State :=
  match gl with
  | some g => setFld .fabGlmap g 0 30 30 1 s
  | none => s

theorem units_miswired (gl : Option Nat) (s : State) : (miswired gl s).units = s.units := by cases gl <;> rfl

/-- FAB_GLMAP lies above the lane registers of E0 to E7. -/
theorem laneState_miswired {e l : Nat} (he : e < 8) (hl : l < 64) (gl : Option Nat) (s : State) :
    laneState (miswired gl s) e 1 l = laneState s e 1 l := by
  cases gl with
  | none => rfl
  | some g =>
    refine fld_setFld_ne s 1 ?_
    show 0x04001004 + e * 0x20000 + l * 8 ≠ 0x05001000 + g * 4 + 0 * 0
    omega

/-- A hello that fails sets MISWIRE and fences an Up lane. -/
theorem helloReceive_fails {e f k : Nat} {h : Hello} {s : State} (hear : hears s e (16 * f + k) k)
    (bad : helloOk s e (16 * f + k) h = false) : helloReceive e f k h s =
      let w := miswired (if engineRole s e = 1 then laneGl s e (pairedLane s e (16 * f + k)) else none) s
      if isUp s 5 (laneUnit e 1 (16 * f + k)) = true then
        raise 0xB00A 1 none (unitId 5 (laneUnit e 1 (16 * f + k))) 0 (causeLane (laneUnit e 1 (16 * f + k)) 0x030D w)
      else w := by
  have open_ : (!(Nat.ble (engineRole s e) 1) || k == 0 || !(laneState s e 1 (16 * f + k) == 2)) = false :=
    Bool.eq_false_iff.mpr fun deaf => (deaf_iff s e _ k).mp deaf hear
  have gl : (bif engineRole s e == 1 then laneGl s e (pairedLane s e (16 * f + k)) else none) =
      if engineRole s e = 1 then laneGl s e (pairedLane s e (16 * f + k)) else none := by
    rw [Bool.cond_eq_ite]
    simp only [beq_iff_eq]
  unfold helloReceive
  dsimp only
  rw [open_, cond_false, bad, cond_false, gl]
  generalize (if engineRole s e = 1 then laneGl s e (pairedLane s e (16 * f + k)) else none) = gl
  show (bif isUp (miswired gl s) 5 _ then raise _ _ _ _ _ (causeLane _ _ (miswired gl s)) else miswired gl s) = _
  rw [isUp, unitState, units_miswired, ← unitState, ← isUp, Bool.cond_eq_ite]

/-- The engines of the fabric are E0 to E7. -/
theorem lt_of_engineRole_le {s : State} {e : Nat} (h : engineRole s e ≤ 1) : e < 8 := by
  refine Nat.lt_of_not_le fun big => ?_
  have memory : Nat.ble 8 e = true := Nat.ble_eq_true_of_le big
  rw [engineRole, memory, cond_true] at h
  cases host : Nat.ble 10 e <;> rw [host] at h
  · exact absurd h (by decide)
  · exact absurd h (by decide)

/-- What a hello that fails leaves of the lane and of FAB_GLMAP. -/
theorem helloReceive_miswire {e f k : Nat} {h : Hello} {s : State} (hl : 16 * f + k < 64) (hear : hears s e (16 * f + k) k)
    (bad : helloOk s e (16 * f + k) h = false) :
    (isUp s 5 (laneUnit e 1 (16 * f + k)) = true →
      unitState (helloReceive e f k h s) 5 (laneUnit e 1 (16 * f + k)) = .draining ∧ laneState (helloReceive e f k h s) e 1 (16 * f + k) = 6) ∧
    ∀ g, engineRole s e = 1 → laneGl s e (pairedLane s e (16 * f + k)) = some g → g < 384 →
      flag (helloReceive e f k h s) .fabGlmap g 0 30 = true := by
  rw [helloReceive_fails hear bad]
  obtain ⟨role, -, lit⟩ := hear
  have he := lt_of_engineRole_le role
  generalize hgl : (if engineRole s e = 1 then laneGl s e (pairedLane s e (16 * f + k)) else none) = gl
  dsimp only
  generalize hw : miswired gl s = w
  have mark : ∀ g, engineRole s e = 1 → laneGl s e (pairedLane s e (16 * f + k)) = some g → flag w .fabGlmap g 0 30 = true := by
    intro g glob lane
    rw [← hw, ← hgl, if_pos glob, lane]
    exact flag_setFld_one s .fabGlmap g 0 (by decide)
  split
  case isFalse down => exact ⟨fun up => absurd up down, fun g glob lane _ => mark g glob lane⟩
  case isTrue up =>
    have upW : isUp w 5 (laneUnit e 1 (16 * f + k)) = true := by
      rw [← hw, isUp, unitState, units_miswired, ← unitState, ← isUp]
      exact up
    have usedW : laneState w e 1 (16 * f + k) ≠ 8 := by
      rw [← hw, laneState_miswired he hl, lit]
      decide
    have lane : LaneFenced e (16 * f + k) w (causeLane (laneUnit e 1 (16 * f + k)) 0x030D w) :=
      laneFenced_causeLane (by omega) hl 0x030D upW usedW
    obtain ⟨drains, fenced, regs⟩ := lane.tells (by omega) hl (tells_raise 0xB00A 1 none (unitId 5 (laneUnit e 1 (16 * f + k))) 0 _)
    refine ⟨fun _ => ⟨drains, fenced⟩, fun g glob lane small => ?_⟩
    rw [regs.flag_eq (stands_of_lt small (by decide) rfl) (by decide)]
    exact mark g glob lane

/-! ## Discovery (R333, R546) -/

theorem laneAwaited_iff (s : State) (e l : Nat) :
    laneAwaited s e l = true ↔ engineRole s e ≤ 1 ∧ laneState s e 1 l ≤ 1 ∧ (e * 64 + l) ∉ s.absent := by
  simp only [laneAwaited, Bool.and_eq_true, Nat.ble_eq, Bool.not_eq_true', List.contains_eq_mem, decide_eq_false_iff_not, and_assoc]

theorem anyAwaited_iff (s : State) : ((List.range 8).any fun e => (List.range 64).any (laneAwaited s e)) = true ↔
    ∃ e l, e < 8 ∧ l < 64 ∧ laneAwaited s e l = true := by
  simp only [List.any_eq_true, List.mem_range]
  exact ⟨fun ⟨e, he, l, hl, h⟩ => ⟨e, l, he, hl, h⟩, fun ⟨e, l, he, hl, h⟩ => ⟨e, he, l, hl, h⟩⟩

theorem discoveryComplete_waits {s : State} (h : s.discovered = true ∨ ∃ e l, e < 8 ∧ l < 64 ∧ laneAwaited s e l = true) :
    discoveryComplete s = s := by
  have stays := h.imp_right (anyAwaited_iff s).mpr
  rw [discoveryComplete, Bool.or_eq_true _ _ |>.mpr stays, cond_true]

/-- With no lane awaited discovery is done, and with a set of epoch 1 or later the part is fabric-ready. -/
theorem discoveryComplete_done {s : State} (first : s.discovered = false) (none : ∀ e l, e < 8 → l < 64 → laneAwaited s e l = false) :
    discoveryComplete s = if s.swapped = true then
        { s with discovered := true, fabReady := some s.time, wxAt := s.time, wxDrops := dropCount s, wxReplays := raw s .fabReplay 0 0 }
      else { s with discovered := true } := by
  have noLane : ((List.range 8).any fun e => (List.range 64).any (laneAwaited s e)) = false :=
    Bool.eq_false_iff.mpr fun h => by
      obtain ⟨e, l, he, hl, awaited⟩ := (anyAwaited_iff s).mp h
      exact absurd awaited (Bool.eq_false_iff.mp (none e l he hl))
  rw [discoveryComplete, first, noLane, Bool.false_or, cond_false, Bool.cond_eq_ite]

/-! ## Weather records (R356) -/

theorem weatherRecord_early {s : State} (lanes : List WeatherLane) (h : s.fabReady = none ∨ s.time < s.wxAt + 100000) :
    weatherRecord lanes s = s := by
  have waits : (s.fabReady.isSome && Nat.ble (s.wxAt + 100000) s.time) = false := by
    obtain h | h := h
    · rw [h]
      rfl
    · rw [Bool.eq_false_iff.mpr fun due => Nat.not_le_of_lt h (Nat.le_of_ble_eq_true due), Bool.and_false]
  rw [weatherRecord, waits, cond_false]

/-- A period ends, and every DIV-th record goes to DEST while EN is 1. -/
theorem weatherRecord_due {s : State} (lanes : List WeatherLane) {r : Time} (ready : s.fabReady = some r) (due : s.wxAt + 100000 ≤ s.time) :
    weatherRecord lanes s =
      let v := { s with wxAt := s.wxAt + 100000, wxPeriod := s.wxPeriod + 1, wxDrops := dropCount s, wxReplays := raw s .fabReplay 0 0 }
      if flag s .fabWx 0 0 31 = true ∧ (s.wxPeriod + 1) % Nat.max 1 (fld s .fabWx 0 0 23 16) = 0
        then sendMgmt (fld s .fabWx 0 0 12 0) (.weather (weatherBytes lanes s)) v else v := by
  unfold weatherRecord
  rw [ready, Nat.ble_eq_true_of_le due]
  dsimp only [Option.isSome_some]
  rw [Bool.and_true, cond_true, Bool.cond_eq_ite]
  simp only [Bool.and_eq_true, beq_iff_eq]

/-- A record has the 32 bytes of its head and 8 for each of 480 lanes (Table 10.10). -/
theorem length_weatherBytes (lanes : List WeatherLane) (s : State) : (weatherBytes lanes s).length = 3872 := by
  simp only [weatherBytes, List.length_append, List.length_flatMap, length_leBytes, List.map_const', List.sum_replicate_nat, List.length_range]

/-- A record that came in is put in the ring, unless the ring has no slots. -/
theorem weatherAppend_takes {bytes : List Byte} {s v : State} {p : Packet} (h : takeMgmt (fun p => p.body == .weather bytes) s = some (p, v)) :
    weatherAppend bytes s = if fld v .fabWxringHi 0 0 23 16 = 0 then v else ringPut (fld v .fabWxringHi 0 0 26 24)
      (fld v .fabWxringHi 0 0 15 0 * 2 ^ 32 + fld v .fabWxringLo 0 0 31 21 * 2 ^ 21) (512 * fld v .fabWxringHi 0 0 23 16) bytes v := by
  rw [weatherAppend, h]
  dsimp only
  rw [Bool.cond_eq_ite]
  refine ite_congr (propext ?_) (fun _ => rfl) fun _ => rfl
  rw [beq_iff_eq]
  omega

theorem weatherAppend_none {bytes : List Byte} {s : State} (h : takeMgmt (fun p => p.body == .weather bytes) s = none) :
    weatherAppend bytes s = s := by rw [weatherAppend, h]

theorem ringPut_ok {p base slots : Nat} {bytes c : List Byte} {s : State} (h : spaceRead s p base 8 = .ok c) :
    ringPut p base slots bytes s =
      (spaceWrite p base (leBytes 8 (leNat c + 1)) (spaceWrite p (base + 4096 * (1 + leNat c % (slots - 1))) bytes (spaceSeen p base 8 s)).2).2 := by
  rw [ringPut, h]

theorem ringPut_error {p base slots : Nat} {bytes : List Byte} {s : State} {st : Status} (h : spaceRead s p base 8 = .error st) :
    ringPut p base slots bytes s = spaceSeen p base 8 s := by
  rw [ringPut, h]

end Sys2Proof.Machine
end

section
/-! SUPPORT. Packets, hellos, discovery and weather records as the statement of chapter 10 has them (R331, R333, R335 to R337, R341, R344 to
R346, R350, R355, R356). -/

namespace Sys2Proof.Machine

/-- Settles O40, command by command. The model's readings and choices that it rests on: no notice for a packet with a reserved header value
(log entry 98), 0x0401 and 0x0404 for no valid exit (99), the order of the injection checks (100), a management packet of a node that is no
manager (101), management packets of the Steward (102) and what discovery waits for (108). -/
theorem fabricPackets : Obligations.FabricPackets := by
  unfold Obligations.FabricPackets
  refine ⟨fun t s => ?packets, fun t s => ?lanes⟩
  case packets =>
    intro u
    refine ⟨fun p pkt => ?inject, fun l pkt => ?arrive, fun p typ => doHop_deliver_partition (s := u) typ,
      fun p typ => ?steward, fun p st told => dropPacket_tells (s := u) st told⟩
    case inject =>
      intro e tr mg sliced fits ownTree refused r k hop v
      have refuses : ∀ {st}, inject p pkt false u = .refused st → refused st := fun h =>
        (packetInject_refused h).imp
          (fun ends hdr d x body live hhdr hpart typ => congrArg Host.Outcome.next (ends hdr d x body live hhdr hpart typ))
          (fun told other => congrArg Host.Outcome.next (told other))
      have sends : ∀ {y}, inject p pkt false u = .sent y → exec (.packetInject p pkt t) s = .next (pumpAll y) := fun h =>
        congrArg Host.Outcome.next (packetInject_sent h)
      have header : sliced → Sliced u p pkt r.slice := fun has => ⟨has, rfl⟩
      refine ⟨fun no => ?unsliced, fun has mc => ?multicast, fun has uni => ?unicast⟩
      case unsliced =>
        obtain ⟨typ, free⟩ := not_or.mp no
        exact refuses (inject_unsliced false typ (Bool.eq_false_iff.mpr free))
      case multicast =>
        obtain ⟨out, onTree⟩ := inject_multicast (header has) false mc
        exact ⟨fun no => refuses (out no), fun own => sends (onTree own)⟩
      case unicast =>
        obtain ⟨unfit, closed, routed⟩ := inject_unicast (header has) false uni
        refine ⟨fun no => refuses (unfit no), fun fit typ no => refuses (closed fit typ no), fun fit allowed => ⟨fun ord => ?_, fun ord =>
          ⟨fun path => ?_, fun q kept changes awaited => ?_⟩⟩⟩
        · exact sends ((routed fit allowed).trans (routeOut_unordered (p := k) false ord))
        · exact sends ((routed fit allowed).trans (routeOut_ordered (p := k) false ord path))
        · exact congrArg Host.Outcome.next
            (packetInject_held ((routed fit allowed).trans (routeOut_held (p := k) ord kept changes awaited)))
    case arrive =>
      exact ⟨fun first => congrArg Host.Outcome.next (packetArrive_unready l pkt (s := u) first),
        fun ready bad => congrArg Host.Outcome.next (packetArrive_bad l (s := u) ready bad),
        fun ready good unknown => congrArg Host.Outcome.next (packetArrive_unknown l (s := u) ready good unknown),
        fun x ready good known => congrArg Host.Outcome.next (packetArrive_routed l (s := u) ready good known)⟩
    case steward =>
      obtain ⟨other, own⟩ := doHop_deliver_steward (s := u) typ
      exact ⟨other, own, stewardTakes_iff⟩
  case lanes =>
    intro u
    refine ⟨fun e f k => congrArg Host.Outcome.next (helloSend_eq e f k u), fun e f k h => ?hello, laneAwaited_iff s,
      fun waits => congrArg Host.Outcome.next (discoveryComplete_waits (s := u) waits),
      fun first none => congrArg Host.Outcome.next (discoveryComplete_done (s := u) first none),
      fun lanes => ⟨fun r ready due => congrArg Host.Outcome.next (weatherRecord_due (s := u) lanes ready due),
        fun early => congrArg Host.Outcome.next (weatherRecord_early (s := u) lanes early)⟩,
      fun lanes => length_weatherBytes lanes s,
      fun bytes => ⟨fun none => congrArg Host.Outcome.next (weatherAppend_none none),
        fun p v takes => congrArg Host.Outcome.next (weatherAppend_takes takes)⟩,
      fun p base slots bytes => ⟨fun c read => ringPut_ok read, fun st fails => ringPut_error fails⟩⟩
    case hello =>
      intro l open_
      have hears_iff : open_ ↔ hears u e l k := and_congr_right' (and_congr_left' (not_congr Fin.ext_iff))
      have hl : l < 64 := by omega
      refine ⟨fun deaf => congrArg Host.Outcome.next (helloReceive_deaf fun hear => deaf (hears_iff.mpr hear)),
        fun hear ok => congrArg Host.Outcome.next (helloReceive_passes (hears_iff.mp hear) ok),
        fun hear bad => ⟨_, rfl, ?_⟩, helloOk_iff s e l h⟩
      exact helloReceive_miswire hl (hears_iff.mp hear) bad

end Sys2Proof.Machine
end

section
/-! SUPPORT. The arrival of a request at its home (R368, R370, R373 to R376, R380, R384). -/

namespace Sys2Proof.Machine

/-! ## Checks and packets taken -/

/-- A Boolean check read as the condition that it decides. -/
theorem cond_of_iff {α : Type} {b : Bool} {p : Prop} [Decidable p] (h : b = true ↔ p) (x y : α) :
    (bif b then x else y) = if p then x else y := by
  rw [Bool.cond_eq_ite]
  exact ite_congr (propext h) (fun _ => rfl) fun _ => rfl

/-- Credits go back to links and to nothing else. -/
theorem returnAll_eq (o : Option Origin) (s : State) : ∃ l, returnAll o s = { s with links := l } := by
  cases o with
  | none => exact ⟨s.links, rfl⟩
  | some o => exact ⟨_, rfl⟩

/-- Taking a packet changes the packets that have arrived and the credits of links. -/
theorem takeArrived_frame {q : Arrived → Bool} {s y : State} {a : Arrived} (h : takeArrived q s = some (a, y)) :
    ∃ l m, y = { s with arrived := l, links := m } := by
  unfold takeArrived at h
  split at h
  · cases h
  next n _ =>
    obtain ⟨x, -, taken⟩ := Option.map_eq_some_iff.mp h
    obtain ⟨-, rfl⟩ := Prod.mk.inj taken
    obtain ⟨m, credits⟩ := returnAll_eq x.orig { s with arrived := listDrop s.arrived n }
    exact ⟨_, m, credits⟩

/-! ## The window of a source -/

/-- Whether the home keeps the source of a request with the request's INST (R376). -/
def SourceKnown (s : State) (src : Nat) (h : Transport) : Prop := ∃ x, sourceOf s src = some x ∧ x.inst = h.inst.toNat

/-- Whether `z` is `y` once a request has told its source's INST and floor: the floor rises, or a new INST drops what was kept (R373,
R376). -/
def SourceTold (src : Nat) (h : Transport) (y z : State) : Prop :=
  (SourceKnown y src h ∧ z = raiseFloor src (seqDiff h.seq.toNat h.lag.toNat) y) ∨
  (¬ SourceKnown y src h ∧ z = { dropSource src y with
    sources := tset (dropSource src y).sources src ⟨h.inst.toNat, seqDiff h.seq.toNat h.lag.toNat, [], []⟩ })

/-- A request as the home first keeps it. -/
def freshReq (pkt : Packet) (p : Nat) : HomeReq := ⟨pkt, p, false, none, 0, 0, false⟩

/-- The request enters the window of its source `x` and the order of acceptance, an atomic with an entry of the ledger made (R374), an
access that ownership denies with its refusal (R384). -/
def acceptRequest (pkt : Packet) (p : Nat) (h : Transport) (x : Source) (z : State) : State :=
  let src := pkt.route.src.toNat
  let w := if h.op = 2 then modPartition p (fun x => { x with ledgerMade := x.ledgerMade + 1 }) z else z
  let deny := h.op.toNat < 5 ∧ isGwPacket pkt = false ∧ ownDenied z p h.offset.toNat (isWriteOp h.op.toNat) src = true
  { w with
    sources := tset w.sources src { x with
      reqs := tset x.reqs h.seq.toNat { freshReq pkt p with status := if deny then 0x0486 else 0 }, nacked := terase x.nacked h.seq.toNat }
    accepted := w.accepted ++ [(src, h.seq.toNat)] }

/-- What a request comes to against the window of its source `x`, in the state `z` that knows the source; one that waits leaves the state
`u` in which it had not been taken (R373 to R375, R380). -/
def windowTake (pkt : Packet) (p : Nat) (h : Transport) (x : Source) (u z : State) : State :=
  let src := pkt.route.src.toNat
  let seq := h.seq.toNat
  if 1024 ≤ seqDiff seq x.floor then bump .rmaStale 0 0 1 z
  else match tget? x.reqs seq with
    | some r => if r.done = true ∧ r.again = false then answerAgain src r h (bump .rmaDup 0 0 1 z) else bump .rmaDup 0 0 1 z
    | none =>
      if h.op = 2 ∧ 65536 ≤ ledgerUsed z then nack p src h z
      else if ordReady z src seq h = false ∧ 64 ≤ heldOrds z src then nack p src h z
      else if queueBusy z (freshReq pkt p) = true then u
      else acceptRequest pkt p h x z

theorem requestArrive_none {pkt : Packet} {s : State}
    (h : takeArrived (fun a => a.pkt == pkt && a.pkt.route.typ == 0) s = none ∨ packetHdr pkt = none) : requestArrive pkt s = s := by
  unfold requestArrive
  obtain h | h := h <;> rw [h]
  cases takeArrived (fun a => a.pkt == pkt && a.pkt.route.typ == 0) s <;> rfl

section
variable {pkt : Packet} {a : Arrived} {u y : State} {h : Transport} {payload : List Byte}
  (take : takeArrived (fun a => a.pkt == pkt && a.pkt.route.typ == 0) u = some (a, y)) (body : packetHdr pkt = some (h, payload))
include take body

/-- A request with a bad header, or for a gateway that this part is not, is discarded and counted (R368, R389). -/
theorem requestArrive_bad (bad : hdrBad h payload = true ∨ (isGwPacket pkt = true ∧ flag u .rmaGw 0 0 31 = false)) :
    requestArrive pkt u = bump .rmaDrophdr 0 0 1 y := by
  unfold requestArrive
  rw [take, body]
  dsimp only
  rw [cond_of_iff (p := hdrBad h payload = true ∨ (isGwPacket pkt = true ∧ flag u .rmaGw 0 0 31 = false)) (by simp), if_pos bad]

/-- Any other request meets the window of its source. -/
theorem requestArrive_window (good : ¬ (hdrBad h payload = true ∨ (isGwPacket pkt = true ∧ flag u .rmaGw 0 0 31 = false))) {z : State}
    (told : SourceTold pkt.route.src.toNat h y z) {x : Source} (kept : sourceOf z pkt.route.src.toNat = some x) :
    requestArrive pkt u = windowTake pkt a.part h x u z := by
  have state : ∀ known : Bool, (known = true ↔ SourceKnown y pkt.route.src.toNat h) →
      (bif known then raiseFloor pkt.route.src.toNat (seqDiff h.seq.toNat h.lag.toNat) y
        else { dropSource pkt.route.src.toNat y with
          sources := tset (dropSource pkt.route.src.toNat y).sources pkt.route.src.toNat
            ⟨h.inst.toNat, seqDiff h.seq.toNat h.lag.toNat, [], []⟩ }) = z := by
    intro known iff
    obtain ⟨same, rfl⟩ | ⟨new, rfl⟩ := told
    · rw [iff.mpr same, cond_true]
    · rw [Bool.eq_false_iff.mpr fun same => new (iff.mp same), cond_false]
  unfold requestArrive
  rw [take, body]
  dsimp only
  rw [cond_of_iff (p := hdrBad h payload = true ∨ (isGwPacket pkt = true ∧ flag u .rmaGw 0 0 31 = false)) (by simp), if_neg good,
    state _ (by unfold SourceKnown; cases sourceOf y pkt.route.src.toNat <;> simp), kept]
  dsimp only
  rw [cond_of_iff Nat.ble_eq.to_iff, windowTake]
  refine ite_congr rfl (fun _ => rfl) fun _ => ?_
  cases tget? x.reqs h.seq.toNat with
  | some r => exact cond_of_iff (by simp) _ _
  | none =>
    have made : ∀ v w : State, (bif h.op == 2 then v else w) = if h.op = 2 then v else w := fun v w => cond_of_iff beq_iff_eq v w
    have denied : ∀ v w : Status, (bif Nat.blt h.op.toNat 5 && !(isGwPacket pkt) &&
          ownDenied z a.part h.offset.toNat (isWriteOp h.op.toNat) pkt.route.src.toNat then v else w) =
        if h.op.toNat < 5 ∧ isGwPacket pkt = false ∧ ownDenied z a.part h.offset.toNat (isWriteOp h.op.toNat) pkt.route.src.toNat = true
          then v else w := fun v w => cond_of_iff (by simp [Nat.blt_eq, and_assoc]) v w
    dsimp only
    rw [made, denied, cond_of_iff (p := h.op = 2 ∧ 65536 ≤ ledgerUsed z) (by simp),
      cond_of_iff (p := ordReady z pkt.route.src.toNat h.seq.toNat h = false ∧ 64 ≤ heldOrds z pkt.route.src.toNat) (by simp)]
    refine ite_congr rfl (fun _ => rfl) fun _ => ite_congr rfl (fun _ => rfl) fun _ => ?_
    rw [Bool.cond_eq_ite]
    rfl

end

section
variable {pkt : Packet} {p : Nat} {h : Transport} {x : Source} {u z : State}

/-- SEQ numbers wrap: one that is not among the 1,024 from the floor on is below it (R373; log entry 120). -/
theorem windowTake_stale (far : 1024 ≤ seqDiff h.seq.toNat x.floor) : windowTake pkt p h x u z = bump .rmaStale 0 0 1 z := if_pos far

variable (near : seqDiff h.seq.toNat x.floor < 1024)
include near

theorem windowTake_seen {r : HomeReq} (seen : tget? x.reqs h.seq.toNat = some r) : windowTake pkt p h x u z =
    if r.done = true ∧ r.again = false then answerAgain pkt.route.src.toNat r h (bump .rmaDup 0 0 1 z) else bump .rmaDup 0 0 1 z := by
  rw [windowTake, if_neg (Nat.not_le_of_lt near), seen]

variable (new : tget? x.reqs h.seq.toNat = none)
include new

theorem windowTake_nack (full : (h.op = 2 ∧ 65536 ≤ ledgerUsed z) ∨
      (ordReady z pkt.route.src.toNat h.seq.toNat h = false ∧ 64 ≤ heldOrds z pkt.route.src.toNat)) :
    windowTake pkt p h x u z = nack p pkt.route.src.toNat h z := by
  rw [windowTake, if_neg (Nat.not_le_of_lt near), new]
  by_cases ledger : h.op = 2 ∧ 65536 ≤ ledgerUsed z
  · exact if_pos ledger
  · exact (if_neg ledger).trans (if_pos (full.resolve_left ledger))

variable (room : ¬ ((h.op = 2 ∧ 65536 ≤ ledgerUsed z) ∨
  (ordReady z pkt.route.src.toNat h.seq.toNat h = false ∧ 64 ≤ heldOrds z pkt.route.src.toNat)))
include room

theorem windowTake_waits (busy : queueBusy z (freshReq pkt p) = true) : windowTake pkt p h x u z = u := by
  obtain ⟨ledger, ords⟩ := not_or.mp room
  rw [windowTake, if_neg (Nat.not_le_of_lt near), new]
  exact (if_neg ledger).trans ((if_neg ords).trans (if_pos busy))

theorem windowTake_accepts (free : queueBusy z (freshReq pkt p) = false) : windowTake pkt p h x u z = acceptRequest pkt p h x z := by
  obtain ⟨ledger, ords⟩ := not_or.mp room
  rw [windowTake, if_neg (Nat.not_le_of_lt near), new]
  exact (if_neg ledger).trans ((if_neg ords).trans (if_neg (Bool.eq_false_iff.mp free)))

end

end Sys2Proof.Machine
end

section
/-! SUPPORT. What an accepted request comes to at its home, and what a home keeps of a source (R366, R370, R373, R376, R381 to R383,
R387). -/

namespace Sys2Proof.Machine

/-! ## Sources that a home drops (R376, R381) -/

/-- What was accepted of a dropped source is kept under a number that names the source and is no node's. -/
theorem lostKey_mod (s : State) {n : Nat} (hn : n < 8192) : lostKey s n % 8192 = n := by
  rw [lostKey, Nat.mul_comm, Nat.mul_add_mod, Nat.mod_eq_of_lt hn]

theorem le_lostKey (s : State) (n : Nat) : 8192 ≤ lostKey s n := by
  unfold lostKey
  omega

theorem dropSource_unknown {n : Nat} {s : State} (h : sourceOf s n = none) : dropSource n s = s := by rw [dropSource, h]

section
variable {n : Nat} {s : State} {x : Source} (known : sourceOf s n = some x)
include known

/-- A source without requests still to be applied leaves nothing. -/
theorem dropSource_done (done : (x.reqs.filter fun r => !r.2.done) = []) :
    dropSource n s = { s with sources := terase s.sources n } := by
  rw [dropSource, known]
  dsimp only
  rw [done]
  rfl

/-- The requests still to be applied stay, and keep their places in the order of acceptance. -/
theorem dropSource_left (left : (x.reqs.filter fun r => !r.2.done) ≠ []) : dropSource n s = { s with
    sources := tset (terase s.sources n) (lostKey s n) { x with reqs := x.reqs.filter fun r => !r.2.done, nacked := [] }
    accepted := s.accepted.map fun a => if a.1 = n then (lostKey s n, a.2) else a } := by
  have some_left : (x.reqs.filter fun r => !r.2.done).isEmpty = false := by
    rw [← Bool.not_eq_true, List.isEmpty_iff]
    exact left
  rw [dropSource, known]
  dsimp only
  rw [some_left, cond_false]
  simp only [Bool.cond_eq_ite, beq_iff_eq]

end

/-- A drop takes the source away and changes no other node's, nor memory. -/
theorem dropSource_keeps {n : Nat} (hn : n < 8192) (s : State) : sourceOf (dropSource n s) n = none ∧
    (∀ m, m < 8192 → m ≠ n → sourceOf (dropSource n s) m = sourceOf s m) ∧ (dropSource n s).mem = s.mem := by
  have other : ∀ m, m < 8192 → m ≠ lostKey s n := fun m hm => Nat.ne_of_lt (Nat.lt_of_lt_of_le hm (le_lostKey s n))
  cases known : sourceOf s n with
  | none =>
    rw [dropSource_unknown known]
    exact ⟨known, fun _ _ _ => rfl, rfl⟩
  | some x =>
    by_cases done : (x.reqs.filter fun r => !r.2.done) = []
    · rw [dropSource_done known done]
      exact ⟨tget?_terase_self _ _, fun m _ ne => tget?_terase_ne _ _ _ ne, rfl⟩
    · rw [dropSource_left known done]
      exact ⟨(tget?_tset_ne _ _ _ _ (other n hn)).trans (tget?_terase_self _ _),
        fun m hm ne => (tget?_tset_ne _ _ _ _ (other m hm)).trans (tget?_terase_ne _ _ _ ne), rfl⟩

/-- A served write of RMA_PURGE: GO drops the source that NODE names (R376). -/
theorem regCommand_rmaPurge {s : State} {path : Path} {v : W32} (h : WritesReg s path .rmaPurge 0 0 v) :
    regCommand path .rmaPurge 0 0 v s =
      let w := fetched path .rmaPurge 0 0 v s
      let y := written .rmaPurge 0 0 v w
      answered path .rmaPurge 0 0 0 w (if bit v.toNat 31 = true then dropSource (bits v.toNat 12 0) y else y) := by
  extract_lets w y
  have effect : commitPlace ⟨.rmaPurge, 0, 0⟩ v.toNat none w =
      if bit v.toNat 31 = true then dropSource (bits v.toNat 12 0) y else y := Bool.cond_eq_ite ..
  rw [regCommand_writes h rfl rfl rfl, effect]
  exact if_pos rfl

/-! ## Ownership (Table 11.9) -/

section
variable {s : State} {p region : Nat}

theorem ownResult_unowned (room : (tget s.owners p []).length < 65536) (free : regionOwner s p region = none) (node : Nat) :
    ownResult s p region 1 node = (0, some (.shared 1)) ∧ ownResult s p region 2 node = (0, some (.exclusive node)) ∧
      ownResult s p region 0 node = (0, none) := by
  have fits : Nat.ble 65536 (tget s.owners p []).length = false := by
    rw [← Bool.not_eq_true, Nat.ble_eq]
    omega
  simp only [ownResult, free, fits, cond_false, and_self]

theorem ownResult_other {n node q : Nat} (owned : regionOwner s p region = some (.exclusive n)) (other : n ≠ node) (hq : q ≤ 2) :
    (ownResult s p region q node).1 = 0x0485 := by
  have differs : (n == node) = false := beq_eq_false_iff_ne.mpr other
  obtain rfl | rfl | rfl : q = 0 ∨ q = 1 ∨ q = 2 := by omega
  all_goals simp only [ownResult, owned, differs, cond_false]

theorem ownResult_owner {node : Nat} (owned : regionOwner s p region = some (.exclusive node)) :
    ownResult s p region 0 node = (0, none) ∧ ownResult s p region 1 node = (0, some (.shared 1)) ∧
      (ownResult s p region 2 node).1 = 0x0485 := by
  simp only [ownResult, owned, beq_self_eq_true, cond_true, and_self]

theorem ownResult_shared {k : Nat} (shared : regionOwner s p region = some (.shared k)) (node : Nat) :
    (ownResult s p region 2 node).1 = 0x0485 ∧ (k < 65535 → ownResult s p region 1 node = (0, some (.shared (k + 1)))) ∧
      ownResult s p region 0 node = (0, if k ≤ 1 then none else some (.shared (k - 1))) := by
  refine ⟨?_, fun small => ?_, ?_⟩ <;> simp only [ownResult, shared]
  · have fits : Nat.ble 65535 k = false := by
      rw [← Bool.not_eq_true, Nat.ble_eq]
      omega
    rw [fits, cond_false]
  · rw [cond_of_iff Nat.ble_eq.to_iff]

end

/-! ## Applying -/

/-- An accepted request that is to be read again, or is not yet done, first in its turn and behind its ORD predecessor (R370, R373,
R381). -/
def HomeTurn (s : State) (a q : Nat) (r : HomeReq) (h : Transport) : Prop :=
  r.again = true ∨ (r.done = false ∧ inTurn s a q r = true ∧ ordReady s a q h = true)

/-- What a read, a write or an atomic comes to at its home, by what its page is (R251, R387). -/
def accessHome (a q : Nat) (r : HomeReq) (h : Transport) (payload : List Byte) (s : State) : Option (Except Status Leaf) → State
  | some (.error st) => finishHome a q r h st 0 [] s
  | some (.ok l) => applyAt a q r h payload l s
  | none => waitPage r.part (h.offset.toNat / 2 ^ 21) (modHomeReq a q (fun r => { r with wait := some (h.offset.toNat / 2 ^ 21) }) s)

/-- What ROWN comes to at its home: the region's owner changes when Table 11.9 grants it (R382, R383). -/
def ownHome (a q : Nat) (r : HomeReq) (h : Transport) (s : State) : State :=
  let region := h.offset.toNat / 2 ^ 21
  let o := ownResult s r.part region h.arg.toNat (a % 8192)
  finishHome a q r h o.1 0 [] (if o.1 = 0 then { s with owners := tset s.owners r.part (match o.2 with
    | some w => tset (tget s.owners r.part []) region w | none => terase (tget s.owners r.part []) region) } else s)

/-- What a request comes to once its turn has come and nothing refuses it, by its operation. -/
def applyHome (a q : Nat) (r : HomeReq) (h : Transport) (payload : List Byte) (s : State) : State :=
  if h.op = 6 then finishHome a q r h 0 0 [] s
  else if h.op = 5 then ownHome a q r h s
  else accessHome a q r h payload s (homePage s r.part h)

section
variable {a q : Nat} {r : HomeReq} {h : Transport} {payload : List Byte} {s : State} (kept : homeReq s a q = some r)
include kept

/-- A request that waits for no page looks at none. -/
theorem homeWake_ready (ready : r.wait = none) : homeWake a q s = s := by rw [homeWake, kept]; dsimp only; rw [ready]

variable (body : packetHdr r.pkt = some (h, payload))
include body

/-- The page that a request waits for is on its way: the request waits on. -/
theorem homeWake_waits {w : Nat} (waits : r.wait = some w)
    (away : ∃ l, leaf? s r.part w = some l ∧ l.res ≠ 0 ∧ l.res ≠ 3 ∧ l.t2d = false) (frags : homeFrags s r.part h = false) :
    homeWake a q s = s := by
  obtain ⟨l, leaf, notHbm, notTier2, notDirect⟩ := away
  rw [homeWake, kept]
  dsimp only
  rw [waits, body]
  dsimp only
  rw [leaf, frags]
  dsimp only
  rw [beq_eq_false_iff_ne.mpr notHbm, beq_eq_false_iff_ne.mpr notTier2, notDirect]
  rfl

/-- The page that a request waited for can be used, or is gone: the request waits no longer. -/
theorem homeWake_wakes {w : Nat} (waits : r.wait = some w)
    (here : ∀ l, leaf? s r.part w = some l → l.res = 0 ∨ l.res = 3 ∨ l.t2d = true) :
    homeWake a q s = modHomeReq a q (fun r => { r with wait := none }) s := by
  rw [homeWake, kept]
  dsimp only
  rw [waits, body]
  dsimp only
  cases leaf : leaf? s r.part w with
  | none => rfl
  | some l =>
    obtain res | res | direct := here l leaf
    · simp [res]
    · simp [res]
    · simp [direct]

omit kept body in
theorem homeTurn_iff : (r.again || (!r.done && inTurn s a q r && ordReady s a q h)) = true ↔ HomeTurn s a q r h := by
  simp [HomeTurn, and_assoc]

theorem requestApply_eq : requestApply a q s =
    bif isGwPacket r.pkt || r.wait.isSome || !(r.again || (!r.done && inTurn s a q r && ordReady s a q h)) then s
    else bif !(r.status == 0) then finishHome a q r h r.status 0 [] s
    else applyHome a q r h payload s := by
  have op_of : ∀ k : BitVec 5, h.op.toNat = k.toNat → h.op = k := fun _ => BitVec.eq_of_toNat_eq
  rw [requestApply, kept]
  dsimp only
  rw [body]
  dsimp only
  congr 2
  unfold applyHome
  split
  next op => rw [if_pos (op_of 6 op)]
  next op =>
    rw [op_of 5 op, if_neg (by decide), if_pos rfl]
    exact congrArg (finishHome a q r h _ 0 []) (cond_of_iff beq_iff_eq _ _)
  next notFloor notOwn =>
    rw [if_neg fun op => notFloor (congrArg BitVec.toNat op), if_neg fun op => notOwn (congrArg BitVec.toNat op)]
    rcases homePage s r.part h with _ | x | x <;> rfl

/-- A request that waits for its page is not applied. -/
theorem requestApply_waits {w : Nat} (waits : r.wait = some w) : requestApply a q s = s := by
  rw [requestApply_eq kept body, waits, Option.isSome_some, Bool.or_true, Bool.true_or, cond_true]

theorem requestApply_idle (early : ¬ HomeTurn s a q r h) : requestApply a q s = s := by
  rw [requestApply_eq kept body, Bool.eq_false_iff.mpr fun turn => early (homeTurn_iff.mp turn), Bool.not_false, Bool.or_true, cond_true]

variable (near : isGwPacket r.pkt = false) (ready : r.wait = none) (turn : HomeTurn s a q r h)
include near ready turn

theorem requestApply_refused (refused : r.status ≠ 0) : requestApply a q s = finishHome a q r h r.status 0 [] s := by
  rw [requestApply_eq kept body, near, ready, homeTurn_iff.mpr turn, beq_eq_false_iff_ne.mpr refused]
  rfl

theorem requestApply_allowed (allowed : r.status = 0) : requestApply a q s = applyHome a q r h payload s := by
  rw [requestApply_eq kept body, near, ready, homeTurn_iff.mpr turn, allowed]
  rfl

end

section
variable (a q : Nat) (r : HomeReq) {h : Transport} (payload : List Byte) (s : State)

theorem applyHome_floor (op : h.op = 6) : applyHome a q r h payload s = finishHome a q r h 0 0 [] s := if_pos op

theorem applyHome_own (op : h.op = 5) : applyHome a q r h payload s = ownHome a q r h s := by
  rw [applyHome, op, if_neg (by decide), if_pos rfl]

theorem applyHome_access (op : h.op.toNat < 5) : applyHome a q r h payload s = accessHome a q r h payload s (homePage s r.part h) := by
  have differs : ∀ k : BitVec 5, 5 ≤ k.toNat → h.op ≠ k := fun k hk same => by
    rw [same] at op
    omega
  rw [applyHome, if_neg (differs 6 (by decide)), if_neg (differs 5 (by decide))]

end

theorem applyAt_eq (a q : Nat) (r : HomeReq) (h : Transport) (payload : List Byte) (l : Leaf) (s : State) :
    applyAt a q r h payload l s =
      let w := homeApply r.part l h payload (heatPage r.part (h.offset.toNat / 2 ^ 21) s)
      if admittedAt s r.part (paOf l h.offset.toNat) = true then finishHome a q r h w.1 w.2.1 w.2.2.1 w.2.2.2
      else waitAt r.part (paOf l h.offset.toNat) s := Bool.cond_eq_ite ..

end Sys2Proof.Machine
end

section
/-! SUPPORT. Responses, retries and floors at the source of requests (R372, R375, R377 to R379). -/

namespace Sys2Proof.Machine

/-! ## Responses (R375, R377) -/

/-- Whether a response fits an outstanding transaction: its SEQ, its operation, and the node that was asked. -/
def ResponseFits (x : Txn) (pkt : Packet) (h : Transport) : Prop :=
  x.hdr.seq = h.seq ∧ answers x.hdr.op.toNat h.op.toNat = true ∧ entryNode x.rank = pkt.route.src.toNat

theorem responseArrive_none {pkt : Packet} {h : Transport} {data : List Byte} {s : State} (body : pkt.body = .transport h data)
    (take : takeArrived (fun a => a.pkt == pkt && a.pkt.route.typ == 1) s = none) : responseArrive pkt s = s := by
  rw [responseArrive, body]
  dsimp only
  rw [take]

/-- A notice that a response was dropped makes the home answer again (R377). -/
theorem responseArrive_notice {pkt : Packet} {st : Status} {h : Transport} {m : Option CollMsg} {a : Arrived} {s y : State}
    (body : pkt.body = .notice st (some h) m) (op : 0x10 ≤ h.op.toNat) (take : takeArrived (fun a => a.pkt == pkt) s = some (a, y)) :
    responseArrive pkt s = respondAgain st h y := by
  rw [responseArrive, body]
  dsimp only
  rw [Nat.ble_eq_true_of_le op, take]
  rfl

section
variable {pkt : Packet} {h : Transport} {data : List Byte} {a : Arrived} {s y : State} (body : pkt.body = .transport h data)
  (take : takeArrived (fun a => a.pkt == pkt && a.pkt.route.typ == 1) s = some (a, y))
include body take

theorem responseArrive_unknown (ended : tget? s.txns h.tag.toNat = none) : responseArrive pkt s = bump .rmaDup 0 0 1 y := by
  obtain ⟨l, m, rfl⟩ := takeArrived_frame take
  rw [responseArrive, body]
  dsimp only
  rw [take]
  dsimp only
  rw [ended]

variable {x : Txn} (live : tget? s.txns h.tag.toNat = some x)
include live

omit body take live in
theorem responseFits_iff :
    (!(x.hdr.seq == h.seq) || !(answers x.hdr.op.toNat h.op.toNat) || !(entryNode x.rank == pkt.route.src.toNat)) = false ↔
      ResponseFits x pkt h := by
  simp [ResponseFits, and_assoc]

theorem responseArrive_live : responseArrive pkt s =
    bif !(x.hdr.seq == h.seq) || !(answers x.hdr.op.toNat h.op.toNat) || !(entryNode x.rank == pkt.route.src.toNat) then
      bump .rmaDup 0 0 1 y
    else if h.op = 0x14 then { y with txns := tset s.txns h.tag.toNat { x with nacked := true, sent := s.time } }
    else sendWaiting (finishTxn h.tag.toNat (BitVec.ofNat 16 h.offset.toNat) data y) := by
  obtain ⟨l, m, rfl⟩ := takeArrived_frame take
  rw [responseArrive, body]
  dsimp only
  rw [take]
  dsimp only
  rw [live]
  dsimp only
  rw [cond_of_iff (beq_iff_eq (a := h.op))]

theorem responseArrive_misfit (no : ¬ ResponseFits x pkt h) : responseArrive pkt s = bump .rmaDup 0 0 1 y := by
  rw [responseArrive_live body take live, eq_true_of_ne_false fun fits => no (responseFits_iff.mp fits), cond_true]

/-- A NACK marks the request to be sent again, another response ends its transaction. -/
theorem responseArrive_fits (fits : ResponseFits x pkt h) : responseArrive pkt s =
    if h.op = 0x14 then { y with txns := tset s.txns h.tag.toNat { x with nacked := true, sent := s.time } }
    else sendWaiting (finishTxn h.tag.toNat (BitVec.ofNat 16 h.offset.toNat) data y) := by
  rw [responseArrive_live body take live, responseFits_iff.mpr fits, cond_false]

end

/-! ## Retries (R375, R377) -/

section
variable {tag : Nat} {x : Txn} {s : State} (live : tget? s.txns tag = some x)
include live

theorem nackResend_eq : nackResend tag s = if x.nacked = true ∧ x.sent + 2000 ≤ s.time then resend tag s else s := by
  rw [nackResend, live]
  dsimp only
  exact cond_of_iff (by rw [Bool.and_eq_true, Nat.ble_eq]) _ _

theorem remoteRetransmit_timer : remoteRetransmit tag false s =
    if x.nacked = false ∧ x.sent + 1000 * Nat.max 1 (fld s .rmaTimer 0 0 15 0) ≤ s.time then retry tag x s else s := by
  rw [remoteRetransmit, live]
  dsimp only
  rw [cond_false]
  exact cond_of_iff (by rw [Bool.and_eq_true, Bool.not_eq_true', Nat.ble_eq, rtoNs]) _ _

/-- The drop notices that make a request be sent again: those of its own header, for a link that failed or a path that is gone (R377). -/
def dropNotice (tag : Nat) (x : Txn) (a : Arrived) : Bool :=
  match a.pkt.body with
  | .notice st (some h) _ => (st == 0x0404 || st == 0x0407) && Nat.blt h.op.toNat 0x10 && h.tag.toNat == tag && h.seq == x.hdr.seq
  | _ => false

theorem remoteRetransmit_notice : remoteRetransmit tag true s =
    match takeArrived (dropNotice tag x) s with
    | some (_, y) => retry tag x y
    | none => s := by
  rw [remoteRetransmit, live]
  rfl

end

theorem retry_ends {tag : Nat} {x : Txn} {s : State} (used : fld s .rmaTimer 0 0 31 28 ≤ x.tries) :
    retry tag x s = sendWaiting (finishTxn tag (if x.hdr.op = 0 ∨ x.hdr.op = 4 then 0x0487 else 0x0488) [] s) := by
  have status : giveUpStatus x.hdr.op.toNat = if x.hdr.op = 0 ∨ x.hdr.op = 4 then 0x0487 else 0x0488 :=
    cond_of_iff (by simp [← BitVec.toNat_inj]) _ _
  rw [retry, Nat.ble_eq_true_of_le used, cond_true, status]

theorem retry_again {tag : Nat} {x : Txn} {s : State} (left : x.tries < fld s .rmaTimer 0 0 31 28) :
    retry tag x s = resend tag (bump .rmaRetry x.part 0 1 { s with txns := tset s.txns tag { x with tries := x.tries + 1 } }) := by
  have more : Nat.ble (fld s .rmaTimer 0 0 31 28) x.tries = false := by
    rw [← Bool.not_eq_true, Nat.ble_eq]
    omega
  rw [retry, more, cond_false]

/-! ## Floors and the window (R372, R378, R379) -/

theorem floorSend_eq (home : Nat) (s : State) : floorSend home s =
    let x := pairOf s home
    if x.floorDue = true ∧ x.sentAt + 20000 ≤ s.time then
      enterRequest { owner := .floor, part := x.part, near := x.near, rank := 1 + home * 2 ^ 16, hdr := requestHdr 6 false false 0 0,
                     payload := [], sent := s.time, tries := 0, nacked := false }
        { s with pairs := tset s.pairs home { x with floorDue := false } }
    else s := cond_of_iff (by simp) _ _

/-- A request goes out only below OUTMAX and within 1,024 of the floor of its pair (R372, R379). -/
theorem trySend_sent {x : Txn} {s v : State} (sent : trySend x s = .sent v) : outCount s x.part < outMax s x.part ∧
    seqDiff (pairOf s (entryNode x.rank)).next (pairFloor (pairOf s (entryNode x.rank))) < 1024 := by
  unfold trySend at sent
  dsimp only at sent
  split at sent
  · cases sent
  · rw [Bool.cond_eq_ite] at sent
    split at sent
    · cases sent
    next admitted =>
      simpa using admitted

end Sys2Proof.Machine
end

section
/-! SUPPORT. Gateways between domains (R389, R390). -/

namespace Sys2Proof.Machine

/-! ## Transfers -/

/-- A write that one transfer takes on adds its bytes to it, up to 64 KiB; any other ends the transfer (R389). -/
theorem gatewayRun_cons (s : State) (d : BitVec 16) (n : BitVec 13) (ord : Bool) (start : Nat) (a : Nat × Nat) (l run : List (Nat × Nat))
    (bs : List Byte) : gatewayRun s d n ord start (a :: l) run bs = (run, bs) ∨
      ∃ p, (bs ++ p).length ≤ 65536 ∧
        gatewayRun s d n ord start (a :: l) run bs = gatewayRun s d n ord start l (run ++ [a]) (bs ++ p) := by
  rw [gatewayRun]
  cases gatewayWrite s a with
  | none => exact .inl rfl
  | some w =>
    obtain ⟨d', n', h, p⟩ := w
    dsimp only
    rw [Bool.cond_eq_ite]
    split
    case isTrue joins =>
      simp only [Bool.and_eq_true, Nat.ble_eq] at joins
      obtain ⟨⟨-, small⟩, -⟩ := joins
      exact .inr ⟨p, by rwa [List.length_append], rfl⟩
    case isFalse => exact .inl rfl

/-- A transfer grows from the one it began as: by writes of its list, and to 64 KiB at most. -/
theorem gatewayRun_grows (s : State) (d : BitVec 16) (n : BitVec 13) (ord : Bool) (start : Nat) (l run : List (Nat × Nat))
    (bs : List Byte) : let r := gatewayRun s d n ord start l run bs
    run <+: r.1 ∧ (∀ b ∈ r.1, b ∈ run ∨ b ∈ l) ∧ bs <+: r.2 ∧ (bs.length ≤ 65536 → r.2.length ≤ 65536) := by
  induction l generalizing run bs with
  | nil => exact ⟨List.prefix_rfl, fun _ => .inl, List.prefix_rfl, id⟩
  | cons a l ih =>
    obtain ends | ⟨p, small, goes⟩ := gatewayRun_cons s d n ord start a l run bs
    · rw [ends]
      exact ⟨List.prefix_rfl, fun _ => .inl, List.prefix_rfl, id⟩
    · obtain ⟨runs, mems, bytes, bound⟩ := ih (run ++ [a]) (bs ++ p)
      rw [goes]
      refine ⟨(List.prefix_append run [a]).trans runs, fun b hb => ?_, (List.prefix_append bs p).trans bytes, fun _ => bound small⟩
      obtain hb | hb := mems b hb
      · obtain hb | hb := List.mem_append.mp hb
        · exact .inl hb
        · exact .inr (List.mem_singleton.mp hb ▸ List.mem_cons_self)
      · exact .inr (List.mem_cons_of_mem a hb)

/-! ## Outward -/

/-- An accepted request of a gateway that is to be read again, or is not yet done and behind its ORD predecessor (R370, R390). -/
def GatewayTurn (s : State) (a q : Nat) (r : HomeReq) (h : Transport) : Prop :=
  r.again = true ∨ (r.done = false ∧ ordReady s a q h = true)

/-- A request is carried by the connection `k`: a write with the writes that go on from it (R389). -/
def carryOut (a q : Nat) (r : HomeReq) (rdom : BitVec 16) (rnode : BitVec 13) (h : Transport) (payload : List Byte) (st : Status)
    (data : List Byte) (k : Nat) (s : State) : State :=
  if isWriteOp h.op.toNat = true then
    let later := ((s.accepted.dropWhile fun b => !(b == (a, q))).drop 1).filter fun b => b.1 == a
    let run := gatewayRun s rdom rnode h.ord h.offset.toNat later [(a, q)] payload
    run.1.foldl (gatewayEnd st []) (emit (.gatewayOp k rnode.toNat true h.offset.toNat run.2 run.2.length) s)
  else finishHome a q r h st 0 (sliceBytes data 0 (reqLen h)) (emit (.gatewayOp k rnode.toNat false h.offset.toNat [] (reqLen h)) s)

/-- What a request to a gateway comes to once its turn has come, with the connection for its traffic if there is one (R389, R390). -/
def forwardTo (a q : Nat) (r : HomeReq) (rdom : BitVec 16) (rnode : BitVec 13) (h : Transport) (payload : List Byte) (st : Status)
    (data : List Byte) (s : State) : Option Nat → State
  | none => s
  | some k => if qpPaused s k = true then s else carryOut a q r rdom rnode h payload st data k s

theorem gatewayTurn_iff {s : State} {a q : Nat} {r : HomeReq} {h : Transport} :
    (!(r.again || (!r.done && ordReady s a q h))) = false ↔ GatewayTurn s a q r h := by
  rw [Bool.not_eq_false', Bool.or_eq_true, Bool.and_eq_true, Bool.not_eq_true']
  rfl

section
variable {a q : Nat} {r : HomeReq} {rdom : BitVec 16} {rnode : BitVec 13} {h : Transport} {payload : List Byte} {s : State}
  (kept : homeReq s a q = some r) (body : r.pkt.body = .gateway rdom rnode h payload) (st : Status) (data : List Byte)
include kept body

theorem gatewayOut_eq : gatewayOut a q st data s =
    bif !(r.again || (!r.done && ordReady s a q h)) then s
    else if h.op = 6 then finishHome a q r h 0 0 [] s
    else if h.op = 2 ∨ h.op = 5 then finishHome a q r h 0x048A 0 [] s
    else forwardTo a q r rdom rnode h payload st data s (gatewayQp s rdom.toNat h.ord) := by
  have op_iff : ∀ k : BitVec 5, (h.op.toNat == k.toNat) = true ↔ h.op = k := fun _ => beq_iff_eq.trans BitVec.toNat_inj
  have floor : (h.op.toNat == 6) = true ↔ h.op = 6 := op_iff 6
  have refused : (h.op.toNat == 2 || h.op.toNat == 5) = true ↔ h.op = 2 ∨ h.op = 5 :=
    (Bool.or_eq_true _ _).to_iff.trans (or_congr (op_iff 2) (op_iff 5))
  rw [gatewayOut, kept]
  dsimp only
  rw [body]
  dsimp only
  rw [cond_of_iff floor, cond_of_iff refused]
  cases gatewayQp s rdom.toNat h.ord with
  | none => rfl
  | some k =>
    dsimp only
    rw [Bool.cond_eq_ite (qpPaused s k), Bool.cond_eq_ite (isWriteOp h.op.toNat)]
    rfl

theorem gatewayOut_idle (early : ¬ GatewayTurn s a q r h) : gatewayOut a q st data s = s := by
  rw [gatewayOut_eq kept body, eq_true_of_ne_false fun turn => early (gatewayTurn_iff.mp turn), cond_true]

variable (turn : GatewayTurn s a q r h)
include turn

theorem gatewayOut_floor (op : h.op = 6) : gatewayOut a q st data s = finishHome a q r h 0 0 [] s := by
  rw [gatewayOut_eq kept body, gatewayTurn_iff.mpr turn, cond_false, if_pos op]

/-- Atomics and ownership changes are not carried (R389). -/
theorem gatewayOut_refused (op : h.op = 2 ∨ h.op = 5) : gatewayOut a q st data s = finishHome a q r h 0x048A 0 [] s := by
  have notFloor : h.op ≠ 6 := by
    obtain op | op := op <;> rw [op] <;> decide
  rw [gatewayOut_eq kept body, gatewayTurn_iff.mpr turn, cond_false, if_neg notFloor, if_pos op]

variable (notAtomic : h.op ≠ 2) (notOwn : h.op ≠ 5) (notFloor : h.op ≠ 6)
include notAtomic notOwn notFloor

theorem gatewayOut_forwards : gatewayOut a q st data s =
    forwardTo a q r rdom rnode h payload st data s (gatewayQp s rdom.toNat h.ord) := by
  rw [gatewayOut_eq kept body, gatewayTurn_iff.mpr turn, cond_false, if_neg notFloor, if_neg (not_or.mpr ⟨notAtomic, notOwn⟩)]

/-- Without a connection for its traffic, or while the connection's port is held back, a request waits (R390, R418). -/
theorem gatewayOut_waits
    (held : gatewayQp s rdom.toNat h.ord = none ∨ ∃ k, gatewayQp s rdom.toNat h.ord = some k ∧ qpPaused s k = true) :
    gatewayOut a q st data s = s := by
  rw [gatewayOut_forwards kept body st data turn notAtomic notOwn notFloor]
  obtain away | ⟨k, qp, paused⟩ := held
  · rw [away]
    rfl
  · rw [qp]
    exact if_pos paused

theorem gatewayOut_carries {k : Nat} (qp : gatewayQp s rdom.toNat h.ord = some k) (open_ : qpPaused s k = false) :
    gatewayOut a q st data s = carryOut a q r rdom rnode h payload st data k s := by
  rw [gatewayOut_forwards kept body st data turn notAtomic notOwn notFloor, qp]
  exact if_neg (Bool.eq_false_iff.mp open_)

end

section
variable (a q : Nat) (r : HomeReq) (rdom : BitVec 16) (rnode : BitVec 13) {h : Transport} (payload : List Byte) (st : Status)
  (data : List Byte) (k : Nat) (s : State)

theorem carryOut_reads (read : isWriteOp h.op.toNat = false) : carryOut a q r rdom rnode h payload st data k s =
    finishHome a q r h st 0 (sliceBytes data 0 (reqLen h)) (emit (.gatewayOp k rnode.toNat false h.offset.toNat [] (reqLen h)) s) :=
  if_neg (Bool.eq_false_iff.mp read)

/-- A write goes out with writes of its source that go on from it, together at most 64 KiB, and they all complete (R389; log entry
286). -/
theorem carryOut_writes (write : isWriteOp h.op.toNat = true) : ∃ run : List (Nat × Nat) × List Byte, (a, q) ∈ run.1 ∧
    (∀ b ∈ run.1, b.1 = a) ∧ payload <+: run.2 ∧ (payload.length ≤ 65536 → run.2.length ≤ 65536) ∧
    carryOut a q r rdom rnode h payload st data k s =
      run.1.foldl (gatewayEnd st []) (emit (.gatewayOp k rnode.toNat true h.offset.toNat run.2 run.2.length) s) := by
  obtain ⟨runs, mems, bytes, bound⟩ := gatewayRun_grows s rdom rnode h.ord h.offset.toNat
    (((s.accepted.dropWhile fun b => !(b == (a, q))).drop 1).filter fun b => b.1 == a) [(a, q)] payload
  refine ⟨_, runs.subset List.mem_cons_self, fun b hb => ?_, bytes, bound, if_pos write⟩
  obtain hb | hb := mems b hb
  · rw [List.mem_singleton.mp hb]
  · exact eq_of_beq (List.mem_filter.mp hb).2

end

/-! ## Inward -/

/-- A request of the gateway's own for what another domain's gateway delivered over queue pair `qp`: a write when it brought bytes, and
otherwise a read. -/
def InwardTxn (qp p rnode : Nat) (ord : Bool) (w : Option (List Byte)) (x : Txn) : Prop :=
  x.owner = .gateway qp ∧ x.part = p ∧ entryNode x.rank = rnode ∧ x.hdr.ord = ord ∧
    (w.isSome = true → x.hdr.op = 1 ∨ x.hdr.op = 3) ∧ (w = none → x.hdr.op = 0 ∨ x.hdr.op = 4)

theorem op_requestHdr_cond (b : Bool) (m n : Nat) (ord wide : Bool) (arg off : Nat) :
    (requestHdr (bif b then m else n) ord wide arg off).op = BitVec.ofNat 5 m ∨
      (requestHdr (bif b then m else n) ord wide arg off).op = BitVec.ofNat 5 n := by
  cases b
  · exact .inr rfl
  · exact .inl rfl

theorem entryNode_node {n : Nat} (hn : n < 8192) : entryNode (1 + n * 2 ^ 16) = n := by
  rw [entryNode, bits]
  omega

theorem gatewayIn_sends {qp p rnode off n : Nat} {w : Option (List Byte)} {s : State} {x : QueuePair} {rdom : Nat} {ord : Bool}
    (known : tget? s.qps qp = some x) (kind : x.kind = .gateway rdom ord) (up : x.failed = false) (on : flag s .rmaGw 0 0 31 = true)
    (node : rnode < 8192) : ∃ ts : List Txn, gatewayIn qp p rnode off w n s = sendWaiting { s with sendQ := s.sendQ ++ ts } ∧
      ∀ t ∈ ts, InwardTxn qp p rnode ord w t := by
  unfold gatewayIn
  rw [known]
  dsimp only
  rw [kind]
  dsimp only
  rw [up, on, Bool.not_true, Bool.or_false, cond_false]
  refine ⟨_, rfl, fun t ht => ?_⟩
  obtain ⟨⟨o, k⟩, -, rfl⟩ := List.mem_map.mp ht
  refine ⟨rfl, rfl, entryNode_node node, rfl, fun write => ?_, fun read => ?_⟩
  · rw [write, cond_true]
    exact op_requestHdr_cond _ 1 3 _ _ _ _
  · subst read
    exact op_requestHdr_cond _ 0 4 _ _ _ _

/-! ## A lost connection (R390) -/

section
variable {rdom : Nat} {a : Nat × Nat} {r : HomeReq} {d : BitVec 16} {n : BitVec 13} {h : Transport} {payload : List Byte} {s : State}
  (kept : homeReq s a.1 a.2 = some r) (body : r.pkt.body = .gateway d n h payload) (lost : d.toNat = rdom)
include kept body lost

theorem loseGateway_eq (open_ : r.done = false) : loseGateway rdom s a = finishHome a.1 a.2 r h 0x0489 0 [] s := by
  rw [loseGateway, kept]
  dsimp only
  rw [body]
  dsimp only
  rw [lost, open_, beq_self_eq_true]
  rfl

theorem loseAgain_eq (again : r.again = true) : loseAgain rdom s a = finishHome a.1 a.2 r h 0x0489 0 [] s := by
  rw [loseAgain, kept]
  dsimp only
  rw [body]
  dsimp only
  rw [lost, again, beq_self_eq_true]
  rfl

end

end Sys2Proof.Machine
end

section
/-! SUPPORT. The exchange between source and home, and gateways, as the statement of chapter 11 has them (R368, R370, R372 to R378, R381,
R382, R389). -/

namespace Sys2Proof.Machine

/-- Settles O45, command by command. The model's readings and choices that it rests on: what was accepted of a dropped source stays to be
applied (log entry 270), which SEQ numbers are stale (120), that the overflow pools take any pseudo-channel (122), that an access owes the
tokens it did not find (272), which notices a request is matched to and which resend it (115, 116), which requests a dropped response is
answered for (285), that a gateway packet carries the far domain and node (117) and is counted in RMA_DROPHDR while GWEN is 0, and which
writes a gateway combines (286). -/
theorem remoteExchange : Obligations.RemoteExchange := by
  unfold Obligations.RemoteExchange
  refine ⟨fun t s => ?home, fun t s => ?source⟩
  case home =>
    intro u
    refine ⟨fun pkt absent => congrArg Host.Outcome.next (requestArrive_none absent), fun pkt a y h payload take body => ?arrive,
      fun src seq r h payload => ?apply, fun p region node room => ⟨fun free => ownResult_unowned room free node,
        fun n owned other q hq => ownResult_other owned other hq, fun owned => ownResult_owner owned,
        fun k shared => ownResult_shared shared node⟩,
      fun path value served => congrArg Host.Outcome.next (regCommand_rmaPurge served), fun n hn => ?drop⟩
    case arrive =>
      intro src seq bad known d
      refine ⟨fun isBad => congrArg Host.Outcome.next (requestArrive_bad take body isBad), fun z x good told kept => ?_⟩
      have arrives : ∀ {v}, windowTake pkt a.part h x u z = v → exec (.requestArrive pkt t) s = .next v := fun window =>
        congrArg Host.Outcome.next ((requestArrive_window take body good told kept).trans window)
      exact ⟨fun far => arrives (windowTake_stale far), fun r near seen => arrives (windowTake_seen near seen),
        fun near new => ⟨fun full => arrives (windowTake_nack near new full),
          fun room busy => arrives (windowTake_waits near new room busy),
          fun room free => arrives (windowTake_accepts near new room free)⟩⟩
    case apply =>
      intro a q region turn kept body near
      refine ⟨fun w waits => ⟨rfl, fun away frags => ?waits, fun here => homeWake_wakes (s := u) kept body waits here⟩,
        fun ready => ?ready⟩
      case waits =>
        exact congrArg Host.Outcome.next ((congrArg (requestApply a q) (homeWake_waits (s := u) kept body waits away frags)).trans
          (requestApply_waits (s := u) kept body waits))
      case ready =>
        have wakes : exec (.requestApply src seq t) s = .next (requestApply a q u) :=
          congrArg (fun v => Host.Outcome.next (requestApply a q v)) (homeWake_ready (s := u) kept ready)
        have applies : ∀ {v}, requestApply a q u = v → exec (.requestApply src seq t) s = .next v := fun h => wakes.trans (congrArg _ h)
        have allows := requestApply_allowed (s := u) kept body near ready
        refine ⟨fun early => applies (requestApply_idle kept body early), fun inTurn =>
          ⟨fun refused => applies (requestApply_refused kept body near ready inTurn refused),
            fun allowed op => applies ((allows inTurn allowed).trans (applyHome_floor a q r payload u op)),
            fun allowed op => applies ((allows inTurn allowed).trans (applyHome_own a q r payload u op)), fun allowed op => ?access⟩⟩
        case access =>
          have access := (allows inTurn allowed).trans (applyHome_access a q r payload u op)
          exact ⟨fun st page => applies (access.trans (by rw [page]; rfl)),
            fun l page => applies (access.trans (by rw [page]; exact applyAt_eq a q r h payload l u)),
            fun page => applies (access.trans (by rw [page]; rfl))⟩
    case drop =>
      obtain ⟨gone, others, mem⟩ := dropSource_keeps hn s
      refine ⟨gone, others, mem, fun x known => ⟨lostKey_mod s hn, le_lostKey s n, fun done => ?_, fun left => ?_⟩⟩
      · rw [dropSource_done known done]
      · rw [dropSource_left known left]
        exact ⟨tget?_tset_self _ _ _, rfl⟩
  case source =>
    intro u
    refine ⟨fun pkt h data body => ⟨fun absent => congrArg Host.Outcome.next (responseArrive_none body absent), fun a y take =>
        ⟨fun ended => congrArg Host.Outcome.next (responseArrive_unknown body take ended), fun x live =>
          ⟨fun no => congrArg Host.Outcome.next (responseArrive_misfit body take live no),
            fun fits => congrArg Host.Outcome.next (responseArrive_fits body take live fits)⟩⟩⟩,
      fun pkt st h m a y body op take => congrArg Host.Outcome.next (responseArrive_notice body op take),
      fun tag x live => ⟨congrArg Host.Outcome.next (nackResend_eq (s := u) live),
        congrArg Host.Outcome.next (remoteRetransmit_timer (s := u) live), ?notice,
        fun used => retry_ends (s := u) used, fun left => retry_again (s := u) left⟩,
      fun home => congrArg Host.Outcome.next (floorSend_eq home.toNat u), fun x v sent => trySend_sent sent,
      fun src seq r rdom rnode h payload st data => ?outward,
      fun qp p rnode off w n x rdom ord known kind up on => ?inward, fun rdom => rfl,
      fun rdom r d n h payload a kept body lost => ⟨loseGateway_eq kept body lost, loseAgain_eq kept body lost⟩⟩
    case notice => exact congrArg Host.Outcome.next (remoteRetransmit_notice (s := u) live)
    case outward =>
      intro a go turn kept body
      have goes : ∀ {v}, gatewayOut a seq.toNat st data u = v → go = .next v := fun h => congrArg Host.Outcome.next h
      refine ⟨fun early => goes (gatewayOut_idle (s := u) kept body st data early),
        fun inTurn op => goes (gatewayOut_floor (s := u) kept body st data inTurn op),
        fun inTurn op => goes (gatewayOut_refused (s := u) kept body st data inTurn op), fun inTurn notAtomic notOwn notFloor =>
          ⟨fun held => goes (gatewayOut_waits (s := u) kept body st data inTurn notAtomic notOwn notFloor held),
            fun k qp open_ => ?carried⟩⟩
      case carried =>
        have carries := gatewayOut_carries (s := u) kept body st data inTurn notAtomic notOwn notFloor qp open_
        refine ⟨fun read => goes (carries.trans (carryOut_reads a seq.toNat r rdom rnode payload st data k u read)), fun write => ?_⟩
        obtain ⟨run, first, same, bytes, bound, sends⟩ := carryOut_writes a seq.toNat r rdom rnode payload st data k u write
        exact ⟨run, first, same, bytes, bound, goes (carries.trans sends)⟩
    case inward =>
      obtain ⟨ts, sends, own⟩ := gatewayIn_sends (s := u) (p := p.val) (off := off.toNat) (n := n) (w := w) known kind up on rnode.isLt
      exact ⟨ts, congrArg Host.Outcome.next sends, own⟩

end Sys2Proof.Machine
end

section
/-! SUPPORT. What a round of contributions comes to, and the statement of it (R402 to R404, R407, R408). -/

namespace Sys2Proof.Machine

/-! ## Values of a round reduced (R407, R408) -/

/-- The contribution of a member to element `k` of a scalar reduction. -/
def elemOf (k : Nat) (j : GatherItem) : Int := (j.values[k]?).getD 0

/-- The values of one element reduced in order of arrival, before they are brought into their format. -/
def csredTotal (stype rop : Nat) : List Int → Int
  | [] => 0
  | v :: vs => vs.foldl (fun a x => (csredOp stype rop a x).1) v

/-- Whether a value saturated is kept beside the reduced value and does not change it. -/
theorem foldl_csredOp_fst (stype rop k : Nat) (l : List GatherItem) (a : Int × Bool) :
    (l.foldl (fun (a : Int × Bool) j => let q := csredOp stype rop a.1 (elemOf k j); (q.1, a.2 || q.2)) a).1 =
      (l.map (elemOf k)).foldl (fun a x => (csredOp stype rop a x).1) a.1 := by
  induction l generalizing a with
  | nil => rfl
  | cons j l ih => exact ih _

/-- An element of the result is the total of what the members give for it, in the format of its type. -/
theorem csredReduce_getElem? {items : List GatherItem} {i : GatherItem} {k : Nat} (first : items.head? = some i)
    (inside : k < i.values.length) (mode : Nat) : (csredReduce mode items).1[k]? =
      some (csredEnd (bits mode 4 2) (csredTotal (bits mode 4 2) (bits mode 1 0) (items.map (elemOf k)))).1 := by
  obtain ⟨rest, rfl⟩ := List.head?_eq_some_iff.mp first
  have total := foldl_csredOp_fst (bits mode 4 2) (bits mode 1 0) k rest (elemOf k i, false)
  simp only [csredReduce, List.map_map, List.getElem?_map, List.getElem?_range inside, Option.map_some, Function.comp_apply]
  exact congrArg (fun v => some (csredEnd (bits mode 4 2) v).1) total

theorem csredOp_sum {stype : Nat} (notF32 : stype ≠ 2) (a x : Int) : csredOp stype 0 a x = (a + x, false) := by
  unfold csredOp
  split <;> simp_all

theorem csredTotal_sum {stype : Nat} (notF32 : stype ≠ 2) (vs : List Int) : csredTotal stype 0 vs = vs.sum := by
  cases vs with
  | nil => rfl
  | cons v vs =>
    simp only [csredTotal, csredOp_sum notF32]
    rw [List.sum_eq_foldl, List.foldl_cons, Int.zero_add]

/-- An unsigned minimum is the least of the values (R407). -/
theorem min?_eq_csredTotal {vs : List Int} (given : vs ≠ []) : vs.min? = some (csredTotal 1 1 vs) := by
  have least : (fun a x => (csredOp 1 1 a x).1) = min := by
    funext a x
    change (bif decide (x < a) then x else a) = min a x
    rw [Bool.cond_decide]
    omega
  obtain ⟨v, vs, rfl⟩ := List.exists_cons_of_ne_nil given
  rw [List.min?_cons', csredTotal, least]

/-- An unsigned maximum is the greatest of the values (R407). -/
theorem max?_eq_csredTotal {vs : List Int} (given : vs ≠ []) : vs.max? = some (csredTotal 1 2 vs) := by
  have greatest : (fun a x => (csredOp 1 2 a x).1) = max := by
    funext a x
    change (bif decide (a < x) then x else a) = max a x
    rw [Bool.cond_decide]
    omega
  obtain ⟨v, vs, rfl⟩ := List.exists_cons_of_ne_nil given
  rw [List.max?_cons', csredTotal, greatest]

theorem csredEnd_unsigned {v : Int} (inside : 0 ≤ v ∧ v < 2 ^ 64) : (csredEnd 1 v).1 = v := by
  change ((unsign 64 v : Nat) : Int) = v
  rw [unsign]
  omega

/-! ## The round decided (R402 to R404) -/

section
variable {p n : Nat} {d : GroupDesc} {seq : Nat} {r : Gather} {s : State} {z : GatherItem}

/-- A round in which every member agrees sends GO to the members: the status of the injection, and the state after it. -/
def goSent (p n : Nat) (d : GroupDesc) (seq : Nat) (r : Gather) (z : GatherItem) (s : State) : Status × State :=
  let v := if z.sig.op = 0x81 then csredReduce z.sig.mode.toNat r.items else ([], 0)
  sendAll p d (.go (BitVec.ofNat 16 d.group) (BitVec.ofNat 32 seq) d.chunk v.1 (BitVec.ofNat 2 v.2))
    (modGroup p d.group n (fun x => { x with rounds := terase x.rounds seq, folded := x.folded + r.items.length }) s)

theorem not_disagrees {m : Nat} (same : ∀ i ∈ r.items, i.member = m → i.sig = z.sig) :
    (r.items.any fun i => i.member == m && !(i.sig == z.sig)) = false := by
  simpa using same

variable (own : r.items.find? (fun i => i.member == 0) = some z)
include own

theorem decideRound_agreed (same : ∀ i ∈ r.items, i.member < d.members.length → i.sig = z.sig) : decideRound p n d seq r s =
    if (goSent p n d seq r z s).1 = 0 then (goSent p n d seq r z s).2
    else match openColl (goSent p n d seq r z s).2 p d.group 0 seq with
      | some c => refusedColl c.1 (goSent p n d seq r z s).1 (goSent p n d seq r z s).2
      | none => (goSent p n d seq r z s).2 := by
  have agreed : (List.range d.members.length).find? (fun m => r.items.any fun i => i.member == m && !(i.sig == z.sig)) = none :=
    List.find?_range_eq_none.mpr fun m hm => congrArg not (not_disagrees fun i hi member => same i hi (member ▸ hm))
  rw [decideRound, own]
  dsimp only
  rw [agreed]
  dsimp only
  rw [cond_of_iff (beq_iff_eq (a := z.sig.op)), cond_of_iff beq_iff_eq]
  rfl

/-- The lowest of the members that disagree with member 0 is named in the abort (R404). -/
theorem decideRound_disagreed {m : Nat} (hm : m < d.members.length) (other : ∃ i ∈ r.items, i.member = m ∧ i.sig ≠ z.sig)
    (lowest : ∀ i ∈ r.items, i.member < m → i.sig = z.sig) :
    decideRound p n d seq r s = sendAbort p d seq 0x0701 m (dropRound p d.group n seq s) := by
  have found : (List.range d.members.length).find? (fun m => r.items.any fun i => i.member == m && !(i.sig == z.sig)) = some m :=
    List.find?_range_eq_some.mpr ⟨by simpa using other, List.mem_range.mpr hm,
      fun k hk => congrArg not (not_disagrees fun i hi member => lowest i hi (member ▸ hk))⟩
  rw [decideRound, own]
  dsimp only
  rw [found]

end

/-- Settles O46: a round is decided by whether some member's signature differs, and each element of it is the total of the values that
were given, brought into its format. When GO is refused at injection the collective of member 0 ends (log entry 129). -/
theorem csredReduces : Obligations.CsredReduces := by
  unfold Obligations.CsredReduces
  refine ⟨fun p n d seq r s z own => ⟨fun same => ?agreed, fun m => decideRound_disagreed own⟩, fun items i k => ?reduced⟩
  case agreed =>
    have decided := decideRound_agreed (p := p) (n := n) (seq := seq) (s := s) own same
    exact ⟨fun sent => decided.trans (if_pos sent), fun c refused open_ => (decided.trans (if_neg refused)).trans (by
      rw [show openColl (goSent p n d seq r z s).2 p d.group 0 seq = some c from open_]
      rfl)⟩
  case reduced =>
    intro vs first inside
    have reduced := csredReduce_getElem? first inside
    refine ⟨(reduced 0x00).trans (congrArg (fun v => some (csredEnd 0 v).1) (csredTotal_sum (by decide) vs)),
      (reduced 0x04).trans (congrArg (fun v => some (csredEnd 1 v).1) (csredTotal_sum (by decide) vs)),
      (reduced 0x0C).trans (congrArg (fun v => some (csredEnd 3 v).1) (csredTotal_sum (by decide) vs)), fun words => ?_⟩
    have given : vs ≠ [] := by
      obtain ⟨rest, rfl⟩ := List.head?_eq_some_iff.mp first
      exact List.cons_ne_nil _ _
    obtain ⟨memMin, least⟩ := List.min?_eq_some_iff.mp (min?_eq_csredTotal given)
    obtain ⟨memMax, greatest⟩ := List.max?_eq_some_iff.mp (max?_eq_csredTotal given)
    exact ⟨_, _, (reduced 0x05).trans (congrArg some (csredEnd_unsigned (words _ memMin))),
      (reduced 0x06).trans (congrArg some (csredEnd_unsigned (words _ memMax))), memMin, memMax, fun v hv => ⟨least v hv, greatest v hv⟩⟩

end Sys2Proof.Machine
end

section
/-! SUPPORT. Groups of collectives: what is read back of a group that was changed, and what the aborts that came early for it leave of the
rest of the state (R396, R405, R413). -/

namespace Sys2Proof.Machine

/-! ## Groups -/

/-- What a part keeps of a group is that of the program asked for (R396). -/
@[simp] theorem collGroup_prog (s : State) (p g n : Nat) : (collGroup s p g n).prog = n := by
  unfold collGroup
  split
  next x _ =>
    cases own : x.prog == n
    · rfl
    · exact beq_iff_eq.mp own
  · rfl

/-- A group that was changed for its program reads as changed. -/
theorem collGroup_modGroup {f : CollGroup → CollGroup} {s : State} {p g n : Nat} (keeps : (f (collGroup s p g n)).prog = n) :
    collGroup (modGroup p g n f s) p g n = f (collGroup s p g n) := by
  rw [collGroup, modGroup, tget?_tset_self]
  dsimp only
  rw [keeps, beq_self_eq_true, cond_true]

/-- A change of an open collective changes the table of them alone. -/
theorem modColl_eq (id : Nat) (f : Coll → Coll) (s : State) : ∃ l, modColl id f s = { s with colls := l } := by
  unfold modColl
  split
  · exact ⟨_, rfl⟩
  · exact ⟨s.colls, rfl⟩

/-! ## Aborts that came early (R405) -/

/-- An abort taken up is recorded for every member of this part, and the stop of a member makes the group dead (R413). -/
theorem collGroup_takeEarly (p n : Nat) (d : GroupDesc) (s : State) (a : EarlyAbort) : collGroup (takeEarly p n d s a) p d.group n =
    { collGroup s p d.group n with
      aborts := (collGroup s p d.group n).aborts ++ (localMembers s d).map (fun m => ⟨m, a.seq, a.status, a.who, a.rank⟩)
      dead := if a.status = 0x0703 ∧ (collGroup s p d.group n).dead = none then some (a.who, a.rank)
        else (collGroup s p d.group n).dead } := by
  refine (collGroup_modGroup (collGroup_prog s p d.group n)).trans ?_
  rw [cond_of_iff (p := a.status = 0x0703 ∧ (collGroup s p d.group n).dead = none) (by simp)]

/-- Taking up the early aborts of a group changes the partition that held them and the group. -/
theorem takeEarlies_eq (p n : Nat) (d : GroupDesc) (s : State) : ∃ l k, takeEarlies p n d s = { s with parts := l, groups := k } := by
  have steps : ∀ (as : List EarlyAbort) (v : State), ∃ k, as.foldl (takeEarly p n d) v = { v with groups := k } := by
    intro as
    induction as with
    | nil => exact fun v => ⟨v.groups, rfl⟩
    | cons a as ih =>
      intro v
      obtain ⟨k, hk⟩ := ih (takeEarly p n d v a)
      exact ⟨k, hk⟩
  obtain ⟨k, hk⟩ := steps ((partition s p).early.filter fun a => a.group == d.group)
    (modPartition p (fun q => { q with early := q.early.filter fun a => !(a.group == d.group) }) s)
  exact ⟨_, k, hk⟩

theorem memberOf_takeEarlies (p n b : Nat) (d : GroupDesc) (s : State) :
    memberOf (takeEarlies p n d s) d (bench (takeEarlies p n d s) b).role = memberOf s d (bench s b).role := by
  obtain ⟨l, k, hs⟩ := takeEarlies_eq p n d s
  rw [hs]
  rfl

theorem takeEarlies_time (p n : Nat) (d : GroupDesc) (s : State) : (takeEarlies p n d s).time = s.time := by
  obtain ⟨l, k, hs⟩ := takeEarlies_eq p n d s
  rw [hs]

end Sys2Proof.Machine
end

section
/-! SUPPORT. The collective instructions as the statement of chapter 12 has them (R396, R397, R400, R403, R405, R413). -/

namespace Sys2Proof.Machine

/-! ## Completion (R397, R400) -/

section
variable {b off n : Nat} {w : W128} {s : State}

theorem reportColl_own (prog : (bench s b).prog = some n) (st : Status) (v : W64) : reportColl b (some n) off w st v s =
    if st ≠ 0 ∧ wSoft w = false then
      reportFault b 13 off st (modBench b (fun x => setPred (wIndex w 4 % 16) (putS (wImmBits w 21 16) v x)) s)
    else modBench b (fun x => setPred (wIndex w 4 % 16) (putS (wImmBits w 21 16) v x)) s := by
  rw [reportColl, prog, beq_self_eq_true, Bool.not_true, cond_false]
  exact cond_of_iff (by simp) _ _

/-- A completion for a program that is no longer on the bench writes nothing. -/
theorem reportColl_other {k : Nat} (prog : (bench s b).prog = some n) (other : k ≠ n) (st : Status) (v : W64) :
    reportColl b (some k) off w st v s = s := by
  rw [reportColl, prog, beq_false_of_ne fun same => other (Option.some.inj same).symm]
  rfl

end

/-! ## Acceptance (R396, R403, R405) -/

section
variable {b n : Nat} {e : Entry} {d : GroupDesc} {s : State}

/-- The state in which a collective of sequence `seq` has been accepted for member `m`: it has left the system queue, the sequence has
risen, and an abort recorded for it is used up (R396, R405). -/
def issuedBy (b n p : Nat) (d : GroupDesc) (m seq : Nat) (w : State) : State :=
  sysRetire b (modGroup p d.group n (fun x => { x with
    seqs := tset x.seqs m ((seq + 1) % 2 ^ 32), aborts := x.aborts.filter fun a => !(a.member == m && a.seq == seq) }) w)

/-- The collective that a word opens for a member. -/
def openedColl (b n p : Nat) (e : Entry) (d : GroupDesc) (m seq : Nat) : Coll :=
  let vf := if wOpc e.word = 0x81 then csredValues e else ([], 0)
  { prog := n, bench := b, part := p, group := d.group, member := m, off := e.off, word := e.word, sig := signatureOf e d seq,
    dst := (eVal e 1).toNat, src := (eVal e 2).toNat, values := vf.1, flags := vf.2, go := none, goAt := 0, pos := 0, got := [],
    folded := [], sat := false }

/-- The state with the collective open, and with the round of its sequence when the member gathers its fabric group's (R403). -/
def openedState (p n : Nat) (d : GroupDesc) (m seq time : Nat) (c : Coll) (y : State) : State :=
  let v := { y with colls := tset y.colls y.nextColl c, nextColl := y.nextColl + 1 }
  if m = leadOf d m then modGroup p d.group n (fun x => { x with rounds := tset x.rounds seq ⟨time, []⟩ }) v else v

section
variable {p m seq : Nat} {w y : State} {x : CollGroup} (hp : benchPart s b = p) (hm : memberOf s d (bench s b).role = m)
  (hw : takeEarlies p n d s = w) (hx : collGroup w p d.group n = x) (hseq : nextSeq x m = seq) (hy : issuedBy b n p d m seq w = y)
include hp hm hw hx hseq hy

theorem acceptColl_aborted {a : CollAbort} (found : x.aborts.find? (fun a => a.member == m && a.seq == seq) = some a) :
    acceptColl b e n d s = reportColl b (some n) e.off e.word a.status (collStatus a.status false false a.who a.rank) y := by
  subst hp hm hw hx hseq hy
  unfold acceptColl
  dsimp only
  rw [memberOf_takeEarlies, found]
  rfl

variable (clear : x.aborts.find? (fun a => a.member == m && a.seq == seq) = none)
include clear

theorem acceptColl_dead {who rank : Nat} (dead : x.dead = some (who, rank)) :
    acceptColl b e n d s = reportColl b (some n) e.off e.word 0x0704 (collStatus 0x0704 false false who rank) y := by
  subst hp hm hw hx hseq hy
  unfold acceptColl
  dsimp only
  rw [memberOf_takeEarlies, clear]
  dsimp only
  rw [dead]
  rfl

/-- The contribution goes to the part of the fabric group's lowest member (R403); a refusal at injection completes the collective (log
entry 129). -/
theorem acceptColl_sends (alive : x.dead = none) {z : Nat} (lead : nodeOfMember d (leadOf d m) = some z) {r : Status × State}
    (sent : sendColl p z (contributionOf (openedColl b n p e d m seq) d)
      (openedState p n d m seq s.time (openedColl b n p e d m seq) y) = r) :
    acceptColl b e n d s = if r.1 = 0 then r.2 else refusedColl y.nextColl r.1 r.2 := by
  have time : y.time = s.time := by rw [← hy, ← hw]; exact takeEarlies_time p n d s
  subst sent
  rw [← time, ← cond_of_iff beq_iff_eq]
  subst hp hm hw hx hseq hy
  unfold acceptColl
  dsimp only
  rw [memberOf_takeEarlies, clear]
  dsimp only
  rw [alive]
  dsimp only
  rw [lead, cond_of_iff (beq_iff_eq (a := wOpc e.word)), cond_of_iff (beq_iff_eq (a := memberOf s d (bench s b).role))]
  rfl

end

/-- The collectives of a member that stand open on a group. -/
def openCount (s : State) (n g m : Nat) : Nat := (s.colls.filter fun c => c.2.prog == n && c.2.group == g && c.2.member == m).length

variable (prog : (bench s b).prog = some n) (group : groupOfWord s b e.word = some d)
include prog group

theorem collEntry_waits (full : waitsToSend s b = true ∨ 8 ≤ openCount s n d.group (memberOf s d (bench s b).role)) :
    collEntry b e s = s := by
  rw [collEntry, prog, group]
  exact (cond_of_iff (by rw [Bool.or_eq_true, Nat.ble_eq]; rfl) _ _).trans (if_pos full)

theorem collEntry_accepts (sent : waitsToSend s b = false) (room : openCount s n d.group (memberOf s d (bench s b).role) < 8) :
    collEntry b e s = acceptColl b e n d s := by
  rw [collEntry, prog, group]
  dsimp only
  rw [sent, Bool.false_or]
  exact (cond_of_iff Nat.ble_eq.to_iff _ _).trans (if_neg (Nat.not_le_of_lt room))

end

/-! ## The instructions -/

/-- The six collective instructions of Table 12.3, by opcode. -/
def CollInstr (b : BenchId) (t : Time) (i : Instr) (opc : Nat) : Prop :=
  (i = .cbar b t ∧ opc = 0x80) ∨ (i = .csred b t ∧ opc = 0x81) ∨ (i = .ctar b t ∧ opc = 0x82) ∨ (i = .ctrs b t ∧ opc = 0x83) ∨
    (i = .ctag b t ∧ opc = 0x84) ∨ (i = .ctbc b t ∧ opc = 0x85)

theorem exec_collective {b : BenchId} {t : Time} {i : Instr} {opc : Nat} (kind : CollInstr b t i opc) (s : State) :
    exec i s = .next (onSys b 8 opc (collEntry b) (atTime t s)) := by
  obtain ⟨rfl, rfl⟩ | ⟨rfl, rfl⟩ | ⟨rfl, rfl⟩ | ⟨rfl, rfl⟩ | ⟨rfl, rfl⟩ | ⟨rfl, rfl⟩ := kind <;> rfl

/-- Settles O47: the six instructions have one meaning, the acceptance of the entry taken. The model's readings and choices that it rests
on: contributions through the lowest member of a fabric group (log entry 125), a refusal at injection (129), a recorded abort before a dead
group (133) and aborts kept for a group that is not active yet (284). -/
theorem collectiveInstructions : Obligations.CollectiveInstructions := by
  unfold Obligations.CollectiveInstructions
  intro b e t s i opc n d kind taken prog group u p m w x seq y busy
  have entry : exec i s = .next (collEntry b e u) :=
    (exec_collective kind s).trans (congrArg Host.Outcome.next (onSys_taken (s := u) taken))
  refine ⟨fun full => ?waits, fun sent room => ?accepts, collGroup_takeEarly p n d, reportColl_own prog,
    fun k st v other => reportColl_other prog other st v⟩
  case waits =>
    exact entry.trans (congrArg _ (collEntry_waits (s := u) prog group full))
  case accepts =>
    have accepts : ∀ {v}, acceptColl b e n d u = v → exec i s = .next v := fun h =>
      entry.trans (congrArg _ ((collEntry_accepts (s := u) prog group sent room).trans h))
    exact ⟨fun a found => accepts (acceptColl_aborted (s := u) rfl rfl rfl rfl rfl rfl found),
      fun k r clear dead => accepts (acceptColl_dead (s := u) rfl rfl rfl rfl rfl rfl clear dead),
      fun z clear alive lead => accepts (acceptColl_sends (s := u) rfl rfl rfl rfl rfl rfl clear alive lead rfl)⟩

end Sys2Proof.Machine
end

section
/-! SUPPORT. Signature rounds, GO, resends, timeouts and aborts of collectives (R402 to R407, R412, R413). -/

namespace Sys2Proof.Machine

/-! ## Which packets a part takes up (R402) -/

/-- Whether a packet for member `l` that came from `src` in the name of member `m` belongs here. -/
abbrev BelongsHere (s : State) (d : GroupDesc) (l m src : Nat) : Prop :=
  nodeOfMember d l = some (ownNode s) ∧ nodeOfMember d m = some src

/-- Whether a member has not come to a sequence, or its program is saved. -/
abbrev NotReadyFor (x : Prog) (q : CollGroup) (m seq : Nat) : Prop := x.state = .saved ∨ notReached q m seq = true

theorem belongsElsewhere_iff {s : State} {d : GroupDesc} {l m src : Nat} :
    (!(nodeOfMember d l == some (ownNode s)) || !(nodeOfMember d m == some src)) = true ↔ ¬ BelongsHere s d l m src := by
  rw [Bool.or_eq_true, Bool.not_eq_true', Bool.not_eq_true', beq_eq_false_iff_ne, beq_eq_false_iff_ne,
    Classical.not_and_iff_not_or_not]

theorem notReadyFor_iff {x : Prog} {q : CollGroup} {m seq : Nat} :
    (x.state == .saved || notReached q m seq) = true ↔ NotReadyFor x q m seq := by
  rw [Bool.or_eq_true, beq_iff_eq]

/-! ## Signature rounds (R402, R403) -/

section
variable {p src : Nat} {s y : State}

theorem signatureArrive_none {msg : CollMsg} (absent : takeColl p (some src) msg s = none) : signatureArrive p src msg s = s := by
  unfold signatureArrive
  rw [absent]

theorem signatureArrive_contribution {sig : Signature} {m : Nat} {values : List Int} {flags : BitVec 2} {chunk : Nat}
    (take : takeColl p (some src) (.contribution sig m values flags chunk) s = some y) :
    signatureArrive p src (.contribution sig m values flags chunk) s =
      roundArrive p src sig.group.toNat sig.seq.toNat m m 0 [⟨m, sig, values, flags.toNat⟩] y := by
  unfold signatureArrive
  rw [take]

theorem signatureArrive_summary {g : BitVec 16} {seq : BitVec 32} {lead : Nat} {items : List GatherItem}
    (take : takeColl p (some src) (.summary g seq lead items) s = some y) :
    signatureArrive p src (.summary g seq lead items) s = roundArrive p src g.toNat seq.toNat 0 lead 4 items y := by
  unfold signatureArrive
  rw [take]

end

theorem roundArrive_absent {s : State} {p g : Nat} (absent : collLive s p g = none) (src seq lead from_ kind : Nat)
    (items : List GatherItem) : roundArrive p src g seq lead from_ kind items s = answerNotReady p src g seq from_ none s := by
  rw [roundArrive, absent]

theorem roundArrive_live {s : State} {p g n : Nat} {x : Prog} {d : GroupDesc} (live : collLive s p g = some (n, x, d))
    (src seq lead from_ kind : Nat) (items : List GatherItem) {l : Nat} (hl : (if kind = 0 then leadOf d lead else lead) = l) :
    roundArrive p src g seq lead from_ kind items s =
      if ¬ BelongsHere s d l from_ src then s
      else if NotReadyFor x (collGroup s p g n) l seq then answerNotReady p src g seq from_ none s
      else if (⟨kind, seq, from_, 0, 0⟩ : CollSeen) ∈ (collGroup s p g n).seen then dupColl p g n items.length s
      else gather p n d seq l items (modGroup p g n (fun x => { x with
        seen := x.seen ++ [⟨kind, seq, from_, 0, 0⟩], received := x.received + items.length }) s) := by
  rw [roundArrive, live]
  dsimp only
  rw [cond_of_iff (beq_iff_eq (a := kind)), hl, cond_of_iff belongsElsewhere_iff, cond_of_iff notReadyFor_iff,
    cond_of_iff List.contains_iff_mem]

section
variable {p n seq : Nat} {d : GroupDesc} {items : List GatherItem} {s : State}

/-- Contributions of a round given up are discarded (R404). -/
theorem gather_over (ended : tget? (collGroup s p d.group n).rounds seq = none) (l : Nat) : gather p n d seq l items s =
    modGroup p d.group n (fun x => { x with aborted := x.aborted + items.length }) s := by
  rw [gather, ended]

/-- The contributions of a round decide it at member 0's part, and go on to it from another fabric group's (R403). -/
theorem gather_open {r z : Gather} (round : tget? (collGroup s p d.group n).rounds seq = some r) (hz : { r with items := r.items ++ items } = z)
    (l : Nat) : gather p n d seq l items s =
      let v := modGroup p d.group n (fun x => { x with rounds := tset x.rounds seq z }) s
      if l = 0 then (if z.items.length = d.members.length then decideRound p n d seq z v else v)
      else if z.items.length = (ledBy d l).length then sendSummary p d seq l z v else v := by
  subst hz
  rw [gather, round]
  dsimp only
  rw [cond_of_iff (beq_iff_eq (a := l)), cond_of_iff beq_iff_eq, cond_of_iff beq_iff_eq]

end

/-! ## GO (R403, R406, R407, R412) -/

section
variable {p : Nat} {s y : State} {g : BitVec 16} {seq : BitVec 32} {chunk : Nat} {vs : List Int} {flags : BitVec 2}

theorem goArrive_none (gone : takeColl p none (.go g seq chunk vs flags) s = none) : goArrive p (.go g seq chunk vs flags) s = s := by
  unfold goArrive
  rw [gone]

section
variable (take : takeColl p none (.go g seq chunk vs flags) s = some y)
include take

theorem goArrive_absent (absent : collLive y p g.toNat = none) : goArrive p (.go g seq chunk vs flags) s = y := by
  unfold goArrive
  rw [take]
  dsimp only
  rw [absent]

theorem goArrive_live {n : Nat} {x : Prog} {d : GroupDesc} (live : collLive y p g.toNat = some (n, x, d)) :
    goArrive p (.go g seq chunk vs flags) s =
      if (⟨3, seq.toNat, 0, 0, 0⟩ : CollSeen) ∈ (collGroup y p g.toNat n).seen then dupColl p g.toNat n 0 y
      else collPump ((localMembers y d).foldl (goMember p g.toNat seq.toNat chunk vs flags.toNat)
        (modGroup p g.toNat n (fun x => { x with seen := x.seen ++ [⟨3, seq.toNat, 0, 0, 0⟩] }) (endGather p g.toNat n seq.toNat y))) := by
  unfold goArrive
  rw [take]
  dsimp only
  rw [live]
  exact cond_of_iff List.contains_iff_mem _ _

end

end

section
variable {p g seq m : Nat} {s : State}

theorem goMember_none (ended : openColl s p g m seq = none) (chunk : Nat) (vs : List Int) (flags : Nat) :
    goMember p g seq chunk vs flags s m = s := by
  rw [goMember, ended]

variable {id : Nat} {c : Coll} (open_ : openColl s p g m seq = some (id, c))
include open_

theorem goMember_again (told : c.go ≠ none) (chunk : Nat) (vs : List Int) (flags : Nat) : goMember p g seq chunk vs flags s m = s := by
  rw [goMember, open_]
  dsimp only
  rw [Option.isSome_iff_ne_none.mpr told, cond_true]

variable (first : c.go = none) (chunk : Nat) (vs : List Int) (flags : Nat)
include first

/-- GO completes a barrier (R406). -/
theorem goMember_barrier (op : collOpc c = 0x80) : goMember p g seq chunk vs flags s m =
    completeColl id 0 0 0 (modColl id (fun c => { c with go := some chunk, goAt := s.time }) s) := by
  rw [goMember, open_]
  dsimp only
  rw [first, op]
  rfl

/-- GO carries the results of a scalar reduction, which completes (R407). -/
theorem goMember_scalar (op : collOpc c = 0x81) : goMember p g seq chunk vs flags s m =
    completeColl id 0 0 0 (modColl id (fun c => { c with flags := flags })
      (if (bench s c.bench).prog = some c.prog then
        modBench c.bench (csredWrite c vs) (modColl id (fun c => { c with go := some chunk, goAt := s.time }) s)
      else modColl id (fun c => { c with go := some chunk, goAt := s.time }) s)) := by
  have same : bench (modColl id (fun c => { c with go := some chunk, goAt := s.time }) s) c.bench = bench s c.bench := by
    obtain ⟨l, hl⟩ := modColl_eq id (fun c => { c with go := some chunk, goAt := s.time }) s
    rw [hl]
    rfl
  rw [← cond_of_iff (beq_iff_eq (a := (bench s c.bench).prog)), ← same, goMember, open_]
  dsimp only
  rw [first, op]
  rfl

/-- GO lets a tensor collective send (R410). -/
theorem goMember_tensor (notBarrier : collOpc c ≠ 0x80) (notScalar : collOpc c ≠ 0x81) : goMember p g seq chunk vs flags s m =
    modColl id (fun c => { c with go := some chunk, goAt := s.time }) s := by
  rw [goMember, open_]
  dsimp only
  rw [first]
  split
  · exact absurd ‹_› notBarrier
  · exact absurd ‹_› notScalar
  · rfl

end

/-! ## Answers not-ready and notices (R402, R412) -/

/-- A packet that came at least 2 µs ago with the answer not-ready to a member's contribution. -/
def toldNotReady (p g seq m time : Nat) (a : Arrived) : Bool := a.part == p && Nat.ble (a.time + 2000) time && (match a.pkt.body with
  | .collective (.notReady h q k _) => h.toNat == g && q.toNat == seq && k == m
  | _ => false)

/-- The answer of member 0's part to another fabric group's lowest member, which was to its summary (R403). -/
abbrev AnswersSummary (d : GroupDesc) (m : Nat) (a : Arrived) : Prop :=
  m ≠ 0 ∧ leadOf d m = m ∧ nodeOfMember d m ≠ nodeOfMember d 0 ∧ some a.pkt.route.src.toNat = nodeOfMember d 0

theorem answersSummary_iff {d : GroupDesc} {m : Nat} {a : Arrived} :
    (!(m == 0) && leadOf d m == m && !(nodeOfMember d m == nodeOfMember d 0) && some a.pkt.route.src.toNat == nodeOfMember d 0) = true ↔
      AnswersSummary d m a := by
  simp [and_assoc]

section
variable {p g seq m : Nat} {s y : State}

theorem notReadyResend_none (told : takeArrived (toldNotReady p g seq m s.time) s = none) : notReadyResend p g seq m s = s := by
  unfold notReadyResend
  extract_lets fits
  rw [show fits = toldNotReady p g seq m s.time from rfl, told]

variable {a : Arrived} (told : takeArrived (toldNotReady p g seq m s.time) s = some (a, y))
include told

theorem notReadyResend_over (ended : openColl y p g m seq = none ∨ collLive y p g = none) : notReadyResend p g seq m s = y := by
  unfold notReadyResend
  extract_lets fits
  rw [show fits = toldNotReady p g seq m s.time from rfl, told]
  dsimp only
  obtain ended | ended := ended
  · rw [ended]
  · rw [ended]
    cases openColl y p g m seq <;> rfl

section
variable {id n : Nat} {c : Coll} {x : Prog} {d : GroupDesc} (open_ : openColl y p g m seq = some (id, c))
  (live : collLive y p g = some (n, x, d))
include open_ live

section
variable {h : BitVec 16} {q : BitVec 32} {k : Nat} (body : a.pkt.body = .collective (.notReady h q k none))
include body

/-- A contribution that was not taken is sent again while GO has not come, in the summary or on its own (R402, R403). -/
theorem notReadyResend_signature : notReadyResend p g seq m s =
    if c.go ≠ none then y
    else if AnswersSummary d m a then
      (match tget? (collGroup y p g c.prog).rounds seq with | some r => sendSummary p d seq m r y | none => y)
    else match nodeOfMember d (leadOf d m) with
      | some z => let r := sendColl p z (contributionOf c d) y; if r.1 = 0 then r.2 else refusedColl id r.1 r.2
      | none => y := by
  unfold notReadyResend
  extract_lets fits
  rw [show fits = toldNotReady p g seq m s.time from rfl, told]
  dsimp only
  rw [open_, live]
  dsimp only
  rw [body]
  dsimp only
  rw [cond_of_iff answersSummary_iff, cond_of_iff (Option.isSome_iff_ne_none (o := c.go))]
  refine ite_congr rfl (fun _ => rfl) fun _ => ite_congr rfl (fun _ => rfl) fun _ => ?_
  cases nodeOfMember d (leadOf d m) with
  | none => rfl
  | some z => exact cond_of_iff beq_iff_eq _ _

end

section
variable {h : BitVec 16} {q : BitVec 32} {k dst i : Nat} (body : a.pkt.body = .collective (.notReady h q k (some (dst, i))))
include body

/-- A chunk whose source cannot be read any more aborts the collective (R413). -/
theorem notReadyResend_unread {st : Status} (bad : spaceRead y p (sourceAt c dst i) (chunkLen c i) = .error st) :
    notReadyResend p g seq m s = dataFail id (spaceSeen p (sourceAt c dst i) (chunkLen c i) y) := by
  unfold notReadyResend
  extract_lets fits
  rw [show fits = toldNotReady p g seq m s.time from rfl, told]
  dsimp only
  rw [open_, live]
  dsimp only
  rw [body]
  dsimp only
  rw [bad]

theorem notReadyResend_chunk {bs : List Byte} {z : Nat} (read : spaceRead y p (sourceAt c dst i) (chunkLen c i) = .ok bs)
    (node : nodeOfMember d dst = some z) {r : Status × State}
    (sent : sendColl p z (.chunk c.sig m dst i bs) (spaceSeen p (sourceAt c dst i) (chunkLen c i) y) = r) :
    notReadyResend p g seq m s = if r.1 = 0 then r.2 else refusedColl id r.1 r.2 := by
  unfold notReadyResend
  extract_lets fits
  rw [show fits = toldNotReady p g seq m s.time from rfl, told]
  dsimp only
  rw [open_, live]
  dsimp only
  rw [body]
  dsimp only
  rw [read, node, ← sent]
  exact cond_of_iff beq_iff_eq _ _

end

end

end

/-- A notice that came at least 2 µs ago of a collective packet that was dropped (R355). -/
def toldDropped (p time : Nat) (msg : CollMsg) (a : Arrived) : Bool := a.part == p && Nat.ble (a.time + 2000) time && (match a.pkt.body with
  | .notice _ _ (some m) => m == msg
  | _ => false)

section
variable {p g : Nat} {msg : CollMsg} {s y : State} {a : Arrived} (group : resendGroup msg = some g)
  (told : takeArrived (toldDropped p s.time msg) s = some (a, y))
include group told

theorem collResend_absent (absent : collLive s p g = none) (dst : Nat) : collResend p dst msg s = y := by
  unfold collResend
  extract_lets fits
  rw [show fits = toldDropped p s.time msg from rfl, told, group]
  dsimp only
  rw [absent]

/-- A packet that a member's part missed is sent to it again. -/
theorem collResend_live {n : Nat} {x : Prog} {d : GroupDesc} (live : collLive s p g = some (n, x, d)) (dst : Nat) :
    collResend p dst msg s = if dst ∈ groupNodes d then (sendColl p dst msg (bump .colResend 0 0 1 y)).2 else s := by
  unfold collResend
  extract_lets fits
  rw [show fits = toldDropped p s.time msg from rfl, told, group]
  dsimp only
  rw [live]
  exact cond_of_iff List.contains_iff_mem _ _

end

/-! ## Timeouts (R413) -/

section
variable {p g seq m n : Nat} {s : State} {x : Prog} {d : GroupDesc}

theorem collTimeout_absent (absent : collLive s p g = none) : collTimeout p g seq m s = s := by
  rw [collTimeout, absent]

/-- The abort of a collective whose member `k` did not send in time, if there is such a member. -/
def timedOut (p : Nat) (d : GroupDesc) (seq : Nat) (k : Option Nat) (v s : State) : State :=
  match k with
  | some k => sendAbort p d seq 0x0702 k v
  | none => s

variable (live : collLive s p g = some (n, x, d))
include live

/-- At member 0's part the signatures of a round have to come in time. -/
theorem collTimeout_round {r : Gather} (round : tget? (collGroup s p g n).rounds seq = some r) : collTimeout p g seq 0 s =
    if r.since + colto s p ≤ s.time then
      timedOut p d seq ((List.range d.members.length).find? fun k => !(r.items.any fun i => i.member == k)) (dropRound p g n seq s) s
    else s := by
  rw [collTimeout, live]
  dsimp only
  rw [beq_self_eq_true, cond_true, round]
  exact cond_of_iff Nat.ble_eq.to_iff _ _

/-- After GO the chunks of a member's collective have to come in time. -/
theorem collTimeout_member {id : Nat} {c : Coll} (noRound : m = 0 → tget? (collGroup s p g n).rounds seq = none)
    (open_ : openColl s p g m seq = some (id, c)) : collTimeout p g seq m s =
    if c.go ≠ none ∧ c.goAt + colto s p ≤ s.time then timedOut p d seq (missingMember (collGroup s p g n) c) s s else s := by
  have gathered : (bif m == 0 then tget? (collGroup s p g n).rounds seq else none) = none := by
    rw [cond_of_iff (beq_iff_eq (a := m))]
    split
    · exact noRound ‹_›
    · rfl
  rw [collTimeout, live]
  dsimp only
  rw [gathered]
  dsimp only
  rw [open_]
  exact cond_of_iff (by rw [Bool.and_eq_true, Option.isSome_iff_ne_none, Nat.ble_eq]) _ _

end

/-! ## Aborts (R404, R405, R413) -/

section
variable {p : Nat} {s y : State} {g : BitVec 16} {seq : BitVec 32} {st : Status} {who : Nat} {rank : BitVec 14}

theorem abortArrive_none (gone : takeColl p none (.abort g seq st who rank) s = none) : abortArrive p (.abort g seq st who rank) s = s := by
  unfold abortArrive
  rw [gone]

variable (take : takeColl p none (.abort g seq st who rank) s = some y)
include take

/-- An abort for a group that is not active yet is kept for it, but for a sequence that its last program had reached (R405). -/
theorem abortArrive_early (absent : collLive y p g.toNat = none) : abortArrive p (.abort g seq st who rank) s =
    if lateAbort y p g.toNat seq.toNat = true then y
    else modPartition p (fun q => { q with early := q.early ++ [⟨g.toNat, seq.toNat, st, who, rank.toNat⟩] }) y := by
  unfold abortArrive
  rw [take]
  dsimp only
  rw [absent]
  exact Bool.cond_eq_ite _ _ _

variable {n : Nat} {x : Prog} {d : GroupDesc} (live : collLive y p g.toNat = some (n, x, d))
include live

/-- An abort ends the collectives of the members of this part and the round of its sequence; the stop of a member ends every round and
makes the group dead (R404, R413). -/
theorem abortArrive_live {v w z : State}
    (noted : (if (localMembers y d).any (fun m => notReached (collGroup y p g.toNat n) m seq.toNat ||
        (openColl y p g.toNat m seq.toNat).isSome) = true then noteAbort p g.toNat st who rank.toNat y else y) = v)
    (members : (localMembers y d).foldl (abortMember p g.toNat seq.toNat n st who rank.toNat) v = w)
    (rounds : (if st = 0x0703 then (collGroup w p g.toNat n).rounds.map (·.1) else [seq.toNat]).foldl
      (fun z r => dropRound p g.toNat n r z) w = z) :
    abortArrive p (.abort g seq st who rank) s =
      collPump (if st = 0x0703 then modGroup p g.toNat n (fun x => { x with dead := some (who, rank.toNat) }) z else z) := by
  subst rounds members noted
  unfold abortArrive
  rw [take]
  dsimp only
  rw [live]
  simp only [cond_of_iff (beq_iff_eq (a := st)), Bool.cond_eq_ite]

end

/-- An abort for a sequence that a member has not reached is recorded for it (R405). -/
theorem exists_mem_aborts_abortMember {s : State} {p g n m seq : Nat} (early : notReached (collGroup s p g n) m seq = true) (st : Status)
    (who rank : Nat) : ∃ a ∈ (collGroup (abortMember p g seq n st who rank s m) p g n).aborts, a.member = m ∧ a.seq = seq ∧ a.status = st := by
  refine ⟨⟨m, seq, st, who, rank⟩, ?_, rfl, rfl, rfl⟩
  rw [abortMember, early]
  rw [cond_true, collGroup_modGroup (collGroup_prog ..)]
  exact List.mem_append_right _ List.mem_cons_self

end Sys2Proof.Machine
end

section
/-! SUPPORT. Chunks of tensor collectives (R402, R405, R409, R410, R412, R413). -/

namespace Sys2Proof.Machine

/-! ## Contributions to a member's block (R410, R412) -/

section
variable {p src g seq m dst k : Nat} {msg : CollMsg} {bs : List Byte} {s y : State} (take : takeColl p (some src) msg s = some y)
include take

theorem contributionArrive_absent (absent : collLive s p g = none) : contributionArrive p src msg g seq m dst k bs s =
    answerNotReady p src g seq m (some (dst, k)) y := by
  rw [contributionArrive, take]
  dsimp only
  rw [absent]

section
variable {n : Nat} {x : Prog} {d : GroupDesc} (live : collLive s p g = some (n, x, d))
include live

theorem contributionArrive_elsewhere (elsewhere : ¬ BelongsHere s d dst m src) :
    contributionArrive p src msg g seq m dst k bs s = y := by
  rw [contributionArrive, take]
  dsimp only
  rw [live]
  exact (cond_of_iff belongsElsewhere_iff _ _).trans (if_pos elsewhere)

variable (here : BelongsHere s d dst m src)
include here

/-- A contribution for a member of this part that another part sent: not ready, a second copy, or taken by the block's member. -/
theorem contributionArrive_here : contributionArrive p src msg g seq m dst k bs s =
    if NotReadyFor x (collGroup s p g n) dst seq then answerNotReady p src g seq m (some (dst, k)) y
    else if (⟨1, seq, m, dst, k⟩ : CollSeen) ∈ (collGroup s p g n).seen then dupColl p g n 1 y
    else
      let noted := modGroup p g n (fun x => { x with seen := x.seen ++ [⟨1, seq, m, dst, k⟩], received := x.received + 1 }) y
      match openColl s p g dst seq with
      | none => modGroup p g n (fun x => { x with aborted := x.aborted + 1 }) noted
      | some (_, c) =>
        if c.go = none ∨ d.depth ≤ ((collGroup s p g n).staged.filter fun z => z.member == dst).length then s
        else modGroup p g n (fun x => { x with staged := x.staged ++ [⟨seq, m, dst, k, bs⟩] }) noted := by
  rw [contributionArrive, take]
  dsimp only
  rw [live]
  refine ((cond_of_iff belongsElsewhere_iff _ _).trans (if_neg (not_not_intro here))).trans ?_
  refine (cond_of_iff notReadyFor_iff _ _).trans (ite_congr rfl (fun _ => rfl) fun _ => ?_)
  refine (cond_of_iff List.contains_iff_mem _ _).trans (ite_congr rfl (fun _ => rfl) fun _ => ?_)
  cases openColl s p g dst seq with
  | none => rfl
  | some c => exact cond_of_iff (by rw [Bool.or_eq_true, Option.isNone_iff_eq_none, Nat.ble_eq]) _ _

end

end

/-! ## Results (R409, R410, R412) -/

/-- The collectives of sequence `seq` that members of this part have open. -/
def openHere (s : State) (p g : Nat) (d : GroupDesc) (seq : Nat) : List (Nat × Coll) :=
  (localMembers s d).filterMap fun q => openColl s p g q seq

section
variable {p src g seq m k : Nat} {msg : CollMsg} {bs : List Byte} {sat : Bool} {s y : State} (take : takeColl p (some src) msg s = some y)
include take

theorem resultArrive_absent (absent : collLive s p g = none) : resultArrive p src msg g seq m k bs sat s = y := by
  rw [resultArrive, take]
  dsimp only
  rw [absent]

/-- A result is written once for every member of this part; it waits while one of them waits for GO. -/
theorem resultArrive_live {n : Nat} {x : Prog} {d : GroupDesc} (live : collLive s p g = some (n, x, d)) :
    resultArrive p src msg g seq m k bs sat s =
      if (⟨2, seq, m, 0, k⟩ : CollSeen) ∈ (collGroup s p g n).seen then dupColl p g n 0 y
      else if ∃ c ∈ openHere s p g d seq, c.2.go = none then s
      else (openHere s p g d seq).foldl (fun z c => writeChunk c.1 m k bs sat z)
        (modGroup p g n (fun x => { x with seen := x.seen ++ [⟨2, seq, m, 0, k⟩] }) y) := by
  rw [resultArrive, take]
  dsimp only
  rw [live]
  refine (cond_of_iff List.contains_iff_mem _ _).trans (ite_congr rfl (fun _ => rfl) fun _ => ?_)
  exact cond_of_iff (by simp only [List.any_eq_true, Option.isNone_iff_eq_none]; rfl) _ _

end

/-! ## Folding (R151, R410, R413) -/

/-- The oldest staged contribution of a member that runs on the bench, with its collective. -/
def oldestStaged (b : Nat) (s : State) : Option (Staged × Nat × Coll) :=
  s.groups.findSome? fun q => q.2.staged.findSome? fun y => match openColl s (q.1 / 65536) (q.1 % 65536) y.member y.seq with
    | some c => bif c.2.bench == b then some (y, c) else none
    | none => none

/-- Whether CRU0 of a bench runs. -/
abbrev Cru0Runs (s : State) (b : Nat) : Prop := (bench s b).halted.contains 9 = false ∧ isUp s 1 (b * 16 + 9) = true

theorem cru0Stopped_iff {s : State} {b : Nat} :
    ((bench s b).halted.contains 9 || !(isUp s 1 (b * 16 + 9))) = true ↔ ¬ Cru0Runs s b := by
  rw [Bool.or_eq_true, Bool.not_eq_true', Classical.not_and_iff_not_or_not, Bool.not_eq_false, Bool.not_eq_true]

/-- A staged contribution folded into the accumulator of its chunk. -/
def foldStaged (c : Coll) (y : Staged) (s : State) : State :=
  let r := fun (a : ChunkAcc) => foldElems (wModBits c.word 1 0) a.vals (chunkElems c y.data)
  modGroup c.part c.group c.prog (fun x => { x with
    staged := x.staged.filter (fun z => !(z == y)), folded := x.folded + 1,
    accs := modFirst (fun a => a.seq == y.seq && a.member == y.member && a.chunk == y.chunk)
      (fun a => { a with vals := (r a).1, sat := a.sat || (r a).2, folded := a.folded ++ [y.sender] }) x.accs }) s

section
variable {b : Nat} {s : State}

theorem chunkFold_none (idle : oldestStaged b s = none) : chunkFold b s = s := by
  unfold chunkFold
  extract_lets todo
  rw [show todo = oldestStaged b s from rfl, idle]

variable {y : Staged} {id : Nat} {c : Coll} (oldest : oldestStaged b s = some (y, id, c))
include oldest

theorem chunkFold_stopped (stopped : ¬ Cru0Runs s b) : chunkFold b s = s := by
  unfold chunkFold
  extract_lets todo
  rw [show todo = oldestStaged b s from rfl, oldest]
  dsimp only
  rw [cond_of_iff cru0Stopped_iff, if_pos stopped]

/-- The accumulator begins with the member's own contribution; when that cannot be read the collective is aborted (R413). -/
theorem chunkFold_runs (runs : Cru0Runs s b) : chunkFold b s =
    if (ensureAcc id y.chunk s).1 = true then collPump (endTensor id (finishChunk id y.chunk (foldStaged c y (ensureAcc id y.chunk s).2)))
    else dataFail id (ensureAcc id y.chunk s).2 := by
  unfold chunkFold
  extract_lets todo
  rw [show todo = oldestStaged b s from rfl, oldest]
  dsimp only
  rw [cond_of_iff cru0Stopped_iff, if_neg (not_not_intro runs)]
  cases (ensureAcc id y.chunk s).1 <;> rfl

end

/-! ## The statement of chapter 12 -/

/-- Settles O48, packet by packet. The model's readings and choices that it rests on: gathering at the lowest member of a fabric group (log
entries 125, 283), which packets are staged (128), that a refusal at injection completes the member's collective (129), that a member whose
data cannot be moved aborts it with 0x0707 (131), from when COLTO counts (135), how second copies count (137), that a packet sent again goes
to the part that missed it (138) and aborts kept for a group that is not active yet (284). -/
theorem collectiveTraffic : Obligations.CollectiveTraffic := by
  unfold Obligations.CollectiveTraffic
  refine ⟨fun p t s => ?traffic, fun p src t s sig m dst k bs y => ?contribution, fun p src t s g seq m dst k bs sat y => ?result,
    fun b s => ?fold⟩
  case traffic =>
    intro u
    refine ⟨fun src msg absent => congrArg Host.Outcome.next (signatureArrive_none (s := u) absent),
      fun src sig m values flags ch y take => congrArg Host.Outcome.next (signatureArrive_contribution (s := u) take),
      fun src g seq lead items y take => congrArg Host.Outcome.next (signatureArrive_summary (s := u) take),
      fun src g seq lead from_ kind items => ⟨fun absent => roundArrive_absent absent src seq lead from_ kind items,
        fun n x d live => ?round⟩,
      fun n d seq l items => ⟨fun ended => gather_over ended l, fun r round => ?gather⟩,
      fun g seq ch vs flags => ⟨fun gone => congrArg Host.Outcome.next (goArrive_none (s := u) gone), fun y take =>
        ⟨fun absent => congrArg Host.Outcome.next (goArrive_absent (s := u) take absent), fun n x d live => ?go⟩⟩,
      fun g seq ch vs flags m => ⟨fun ended => goMember_none ended ch vs flags, fun id c open_ =>
        ⟨fun told => goMember_again open_ told ch vs flags, fun first => ⟨goMember_barrier open_ first ch vs flags,
          goMember_scalar open_ first ch vs flags, goMember_tensor open_ first ch vs flags⟩⟩⟩,
      fun g seq m => ⟨fun told => congrArg Host.Outcome.next (notReadyResend_none (s := u) told), fun a y told =>
        ⟨fun ended => congrArg Host.Outcome.next (notReadyResend_over (s := u) told ended), fun id c n x d open_ live => ?resend⟩⟩,
      fun dst msg g a y group told => ⟨fun absent => congrArg Host.Outcome.next (collResend_absent (s := u) group told absent dst.toNat),
        fun n x d live => congrArg Host.Outcome.next (collResend_live (s := u) group told live dst.toNat)⟩,
      fun g seq m => ⟨fun absent => congrArg Host.Outcome.next (collTimeout_absent (s := u) absent), fun n x d live => ?timeout⟩,
      fun g seq st who rank => ⟨fun gone => congrArg Host.Outcome.next (abortArrive_none (s := u) gone), fun y take =>
        ⟨fun absent => congrArg Host.Outcome.next (abortArrive_early (s := u) take absent),
          fun n x d live => congrArg Host.Outcome.next (abortArrive_live (s := u) take live rfl rfl rfl)⟩⟩,
      fun g seq n st who rank m early => exists_mem_aborts_abortMember early st who rank⟩
    case round =>
      intro q l mine early got
      have arrives := roundArrive_live live src seq lead from_ kind items (l := l) rfl
      exact ⟨fun elsewhere => arrives.trans (if_pos elsewhere),
        fun here notYet => (arrives.trans (if_neg (not_not_intro here))).trans (if_pos notYet),
        fun here ready again => ((arrives.trans (if_neg (not_not_intro here))).trans (if_neg ready)).trans (if_pos again),
        fun here ready first => ((arrives.trans (if_neg (not_not_intro here))).trans (if_neg ready)).trans (if_neg first)⟩
    case gather =>
      intro r' z
      have gathers := gather_open (items := items) round rfl l
      exact ⟨fun own => gathers.trans (if_pos own), fun other => gathers.trans (if_neg other)⟩
    case go =>
      intro key
      have arrives := goArrive_live (s := u) take live
      exact ⟨fun again => congrArg Host.Outcome.next (arrives.trans (if_pos again)),
        fun first => congrArg Host.Outcome.next (arrives.trans (if_neg first))⟩
    case resend =>
      intro ofSummary sentBy
      refine ⟨fun body => ?_, fun dst k body =>
        ⟨fun st bad => congrArg Host.Outcome.next (notReadyResend_unread (s := u) told open_ live body bad),
          fun bs z read node => congrArg Host.Outcome.next (notReadyResend_chunk (s := u) told open_ live body read node rfl)⟩⟩
      have resends := notReadyResend_signature (s := u) told open_ live body
      refine ⟨fun gone => congrArg Host.Outcome.next (resends.trans (if_pos gone)), fun r waits summary round => ?_,
        fun z waits own lead => ?_⟩
      · refine congrArg Host.Outcome.next ((resends.trans (if_neg (not_not_intro waits))).trans ((if_pos summary).trans ?_))
        rw [round]
      · refine congrArg Host.Outcome.next ((resends.trans (if_neg (not_not_intro waits))).trans ((if_neg own).trans ?_))
        rw [lead]
    case timeout =>
      intro q ended
      refine ⟨fun r own round => ?_, fun id c noRound open_ => ?_⟩
      · subst own
        have times := collTimeout_round (s := u) live round
        exact ⟨fun early => congrArg Host.Outcome.next (times.trans (if_neg (Nat.not_le_of_lt early))),
          fun late => congrArg Host.Outcome.next (times.trans (if_pos late))⟩
      · have times := collTimeout_member (s := u) live noRound open_
        exact ⟨fun early => congrArg Host.Outcome.next (times.trans (if_neg fun late => early.elim late.1 (Nat.not_lt_of_le late.2))),
          fun gone late => congrArg Host.Outcome.next (times.trans (if_pos ⟨gone, late⟩))⟩
  case contribution =>
    intro u msg g seq key answer take
    have arrives : ∀ {v}, contributionArrive p src.toNat msg g seq m dst k bs u = v → exec (.chunkArrive p src msg t) s = .next (collPump v) :=
      fun h => congrArg (fun v => Host.Outcome.next (collPump v)) h
    refine ⟨fun absent => arrives (contributionArrive_absent (s := u) take absent), fun n x d live => ?_⟩
    intro q mine early noted
    have taken (here : BelongsHere u d dst m src.toNat) :=
      contributionArrive_here (s := u) (seq := seq) (k := k) (bs := bs) take live here
    refine ⟨fun elsewhere => arrives (contributionArrive_elsewhere (s := u) take live elsewhere),
      fun here notYet => arrives ((taken here).trans (if_pos notYet)),
      fun here ready again => arrives ((taken here).trans ((if_neg ready).trans (if_pos again))), fun here ready first => ?_⟩
    have new := ((taken here).trans (if_neg ready)).trans (if_neg first)
    refine ⟨fun ended => arrives (new.trans ?_), fun id c open_ => ⟨fun waits => arrives (new.trans ?_), fun gone room => arrives (new.trans ?_)⟩⟩
    · rw [show openColl u p g dst seq = none from ended]
    · rw [show openColl u p g dst seq = some (id, c) from open_]
      exact if_pos waits
    · rw [show openColl u p g dst seq = some (id, c) from open_]
      exact if_neg (not_or.mpr ⟨gone, room⟩)
  case result =>
    intro msg key take
    have arrives : ∀ {v}, resultArrive p src.toNat msg g.toNat seq.toNat m k bs sat (atTime t s) = v →
        exec (.chunkArrive p src msg t) s = .next (collPump v) := fun h => congrArg (fun v => Host.Outcome.next (collPump v)) h
    refine ⟨fun absent => arrives (resultArrive_absent (s := atTime t s) take absent), fun n x d live => ?_⟩
    have taken := resultArrive_live (s := atTime t s) (seq := seq.toNat) (m := m) (k := k) (bs := bs) (sat := sat) take live
    exact ⟨fun again => arrives (taken.trans (if_pos again)),
      fun first waits => arrives ((taken.trans (if_neg first)).trans (if_pos waits)),
      fun first gone => arrives ((taken.trans (if_neg first)).trans (if_neg fun ⟨c, hc, waits⟩ => gone c hc waits))⟩
  case fold =>
    intro oldest runs
    refine ⟨fun idle => congrArg Host.Outcome.next ?_, fun y id c next up => ?_⟩
    · by_cases empty : oldestStaged b s = none
      · exact chunkFold_none empty
      · obtain ⟨⟨y, id, c⟩, next⟩ := Option.ne_none_iff_exists'.mp empty
        exact chunkFold_stopped next (idle.resolve_left empty)
    · intro z r
      have folds := chunkFold_runs next up
      exact ⟨fun unread => congrArg Host.Outcome.next (folds.trans (if_neg (ne_true_of_eq_false unread))),
        fun read => congrArg Host.Outcome.next (folds.trans (if_pos read))⟩

end Sys2Proof.Machine
end

section
/-! SUPPORT. The fuses, the latched thermal trip and the state after reset, over every command (R445, R451, R452, R478, R543). -/

namespace Sys2Proof.Machine

/-- A reset keeps the thermal-trip latch. -/
theorem resetBlock_tripped (c : Option ResetCause) (s : State) : (resetBlock c s).tripped = s.tripped := by
  obtain ⟨_, _, _, _, _, tripped, _⟩ := resetBlock_leaves c s
  exact tripped

theorem startEvent_tripped (s : State) : (startEvent s).tripped = s.tripped := rfl

theorem powerOn_tripped (s : State) : (powerOn s).tripped = s.tripped := by
  rw [powerOn_eq]
  split
  · exact resetBlock_tripped _ s
  · rw [startEvent_tripped, resetBlock_tripped]

/-- The release of a reset keeps the latch, whatever the reset waits for. -/
theorem resetRelease_tripped (s : State) : (resetRelease s).tripped = s.tripped := by
  unfold resetRelease
  split
  next => rfl
  next =>
    cases Nat.ble (s.resetAt + 1000000) s.time
    · rfl
    · cases s.rstLow <;> rfl
  next => rfl

theorem refclkReturn_tripped (s : State) : (refclkReturn s).tripped = s.tripped := by
  rw [refclkReturn_eq]
  split <;> rfl

/-- VFEED restored after 100 ms or more starts the part with the latch clear; restored earlier it changes nothing (R478). -/
theorem vfeedRestore_eq (n : Nat) (s : State) :
    vfeedRestore n s = if 100000000 ≤ n then startEvent (resetBlock none { s with tripped := false, rstLow := false }) else s := by
  rw [vfeedRestore, Bool.cond_eq_ite]
  simp only [Nat.ble_eq]

/-- The latch after VFEED_RESTORE. -/
theorem vfeedRestore_tripped {n : Nat} {s : State} (h : s.tripped = true) : (vfeedRestore n s).tripped = false ↔ 100000000 ≤ n := by
  rw [vfeedRestore_eq]
  by_cases hn : 100000000 ≤ n
  · rw [if_pos hn, startEvent_tripped, resetBlock_tripped]
    exact iff_of_true rfl hn
  · rw [if_neg hn, h]
    exact iff_of_false (by decide) hn

/-- A command that can start the part keeps the latch, apart from VFEED_RESTORE. -/
theorem exec_tripped_of_startsPart {c : Instr} (hc : StartsPart c) (hv : ∀ n, c ≠ .vfeedRestore n) (s : State) :
    ∃ t, exec c s = .next t ∧ t.tripped = s.tripped := by
  rcases hc with rfl | ⟨u, rfl⟩ | ⟨u, rfl⟩ | ⟨n, rfl⟩
  · exact ⟨_, rfl, powerOn_tripped s⟩
  · exact ⟨_, rfl, resetRelease_tripped (atTime u s)⟩
  · exact ⟨_, rfl, refclkReturn_tripped (atTime u s)⟩
  · exact absurd rfl (hv n)

/-- Settles O7: commands that carry the state on keep the latch, and so do the start events of a reset but VFEED_RESTORE. -/
theorem tripStaysLatched : Obligations.TripStaysLatched := by
  unfold Obligations.TripStaysLatched
  refine ⟨fun c s t ht trip hv => ?_, fun n s trip => ⟨_, rfl, vfeedRestore_tripped trip⟩⟩
  rcases exec_carries_or_startsPart c s with ⟨u, hu, carries⟩ | hc
  · cases hu.symm.trans ht
    exact carries.trip trip
  · obtain ⟨u, hu, kept⟩ := exec_tripped_of_startsPart hc hv s
    cases hu.symm.trans ht
    rw [kept, trip]

/-- Settles O5: the queue is no part of OTP, and every command, resets included, only blows fuses. -/
theorem fusesOnlyBlow : Obligations.FusesOnlyBlow := by
  unfold Obligations.FusesOnlyBlow
  intro s t h
  obtain ⟨rest, keeps⟩ := step_keeps h
  exact keeps.otp

/-- A register that nothing has written reads its Reset value. -/
theorem raw_of_ctl_nil {s : State} (h : s.ctl = []) (r : Reg) (i j : Nat) : raw s r i j = regReset r % 2 ^ 32 := by
  rw [raw, h, tget, tget?, Option.getD_none, BitVec.toNat_ofNat]

/-- Settles O2: every store of the reset state is empty, and an absent entry is at its reset value; that memory which nothing has written
reads 0 is the model's choice (log entries 21 and 25). -/
theorem resetState : Obligations.ResetState := by
  unfold Obligations.ResetState
  exact ⟨rfl, reset_wf, fun _ => rfl, raw_of_ctl_nil rfl, fun _ _ => rfl, fun _ => rfl, rfl, rfl, rfl, rfl⟩

end Sys2Proof.Machine
end

section
/-! SUPPORT. The SPDM responder as the statement of chapter 14 has it (R457 to R461). -/

namespace Sys2Proof.Machine

section
variable {s : State} {src : SpdmFrom} (reached : spdmReached s src = true)
include reached

/-- An answer that a fenced boot core still gives. -/
theorem spdmBasic_of_reached (b : SpdmBody) : spdmBasic src b s = emit (.spdm src b none) s := by
  rw [spdmBasic, reached]; rfl

/-- An unsigned answer with the boot core Up. -/
theorem spdmPlain_of_up (up : isUp s 10 0 = true) (b : SpdmBody) : spdmPlain src b s = emit (.spdm src b none) s := by
  rw [spdmPlain, bootCoreFenced, reached, up]; rfl

/-- The signing engine takes one more request: the keys are ready, the boot core runs, and fewer than 17 are in hand (R461). -/
def SignerTakes (s : State) : Prop := s.keysReady = true ∧ coreRuns s 0 = true ∧ s.signQ.length < 17

/-- A signed answer waits, or is Busy. -/
theorem spdmSigned_of_up (up : isUp s 10 0 = true) (normal : s.recovery = false) (b : SpdmBody) :
    (SignerTakes s → spdmSigned src b s = { s with signQ := s.signQ ++ [⟨src, b⟩] }) ∧
    (¬ SignerTakes s → spdmSigned src b s = emit (.spdm src .busy none) s) := by
  have served : spdmSigned src b s = bif !s.keysReady || !(coreRuns s 0) || Nat.ble 17 s.signQ.length then emit (.spdm src .busy none) s
      else { s with signQ := s.signQ ++ [⟨src, b⟩] } := by
    rw [spdmSigned, bootCoreFenced, reached, up, normal]; rfl
  rw [served]
  refine ⟨fun ⟨keys, runs, room⟩ => ?_, fun full => ?_⟩
  · have : Nat.ble 17 s.signQ.length = false := by rw [Bool.eq_false_iff, ne_eq, Nat.ble_eq]; omega
    rw [keys, runs, this]; rfl
  · cases keys : s.keysReady
    · rfl
    · cases runs : coreRuns s 0
      · rfl
      · have : Nat.ble 17 s.signQ.length = true := by
          rw [Nat.ble_eq]
          exact Nat.le_of_not_lt fun room => full ⟨keys, runs, room⟩
        rw [this]; rfl

end

/-- CHALLENGE of a slot with a chain is a signed answer. -/
theorem challenge_of_chain {s : State} {slot : Nat} {c : List Byte} (h : chainOf s slot = some c) (src : SpdmFrom) (nonce : List Byte) :
    challenge src slot nonce s = spdmSigned src (.challengeAuth slot (digestOf c) nonce) s := by
  rw [challenge, h]

/-- GET_MEASUREMENTS of one index (Table 14.10). -/
theorem getMeasurements_one {index : Nat} (low : 1 ≤ index) (high : index ≤ 25) (src : SpdmFrom) (signed : Bool) (nonce : List Byte)
    (s : State) :
    getMeasurements src index signed nonce s =
      bif signed then spdmSigned src (.measurements [(index, measurement s index)] nonce) s
      else spdmPlain src (.measurements [(index, measurement s index)] nonce) s := by
  have all : (index == 0xFF) = false := by rw [beq_eq_false_iff_ne]; omega
  rw [getMeasurements, all, cond_false, Nat.ble_eq_true_of_le low, Nat.ble_eq_true_of_le high]
  cases signed <;> rfl

/-- GET_MEASUREMENTS of all, unsigned. -/
theorem getMeasurements_all (src : SpdmFrom) (nonce : List Byte) (s : State) :
    getMeasurements src 0xFF false nonce s =
      spdmPlain src (.measurements ((List.range 25).map fun k => (k + 1, measurement s (k + 1))) nonce) s := rfl

/-- The portion of a chain, and what remains after it. -/
theorem certificate_of_chain {s : State} {slot offset : Nat} {c : List Byte} (h : chainOf s slot = some c) (ho : offset ≤ c.length)
    (len : Nat) :
    certificate s slot offset len =
      .certificate slot ((c.drop offset).take len) (c.length - offset - ((c.drop offset).take len).length) := by
  rw [certificate, h]
  dsimp only
  rw [Nat.ble_eq_true_of_le ho, cond_true]

theorem signComplete_cons {s : State} {q : SignReq} {l : List SignReq} (h : s.signQ = q :: l) :
    signComplete s =
      emit (.spdm q.src q.body (some (Config.rsaSign s.free, Config.slhSign s.free))) { s with free := s.free + 1, signQ := l } := by
  rw [signComplete, h]
  rfl

/-- A connection attempt on a port that is up (R457). -/
theorem tcpConnect_of_up {s : State} {port : Nat} (up : portUp s port = true) :
    tcpConnect port s = if s.conns.length < 8
      then emit (.tcp port (some (4 * s.nextConn + port))) { s with conns := s.conns ++ [4 * s.nextConn + port], nextConn := s.nextConn + 1 }
      else emit (.tcp port none) s := by
  rw [tcpConnect, up, Bool.not_true, cond_false, Bool.cond_eq_ite]
  simp only [Nat.blt_eq]

/-- Settles O55: request by request, from what the three kinds of answers come to. Sixteen that wait beside the one being signed, and ERROR
for an offer of one algorithm alone, are the model's reading (log entries 185 and 186). -/
theorem spdmResponder : Obligations.SpdmResponder := by
  unfold Obligations.SpdmResponder
  intro src t s
  refine ⟨fun reached => ⟨?version, ?capabilities, fun rsa sha => ?algorithms, fun up => ⟨?digests, fun slot offset len => ?certificate,
    fun code => ?unsupported, fun index nonce low high => ?measurement, fun nonce => ?measurements, fun normal =>
    ⟨fun slot nonce c chain => ⟨fun ready => ?challenge, fun busy => ?busy⟩, fun index nonce low high ready => ?signed⟩⟩⟩,
    fun slot offset len c chain ho => certificate_of_chain chain ho len, fun q l waits => ?complete, fun port up => ?connect⟩
  case version => exact congrArg _ (spdmBasic_of_reached (s := atTime t s) reached .version)
  case capabilities => exact congrArg _ (spdmBasic_of_reached (s := atTime t s) reached .capabilities)
  case algorithms =>
    refine congrArg _ ((spdmBasic_of_reached (s := atTime t s) reached _).trans ?_)
    cases rsa <;> cases sha <;> rfl
  case digests => exact congrArg _ (spdmPlain_of_up (s := atTime t s) reached up _)
  case certificate => exact congrArg _ (spdmPlain_of_up (s := atTime t s) reached up _)
  case unsupported => exact congrArg _ (spdmPlain_of_up (s := atTime t s) reached up _)
  case measurement =>
    exact congrArg _ ((getMeasurements_one low high src false nonce (atTime t s)).trans (spdmPlain_of_up (s := atTime t s) reached up _))
  case measurements =>
    exact congrArg _ ((getMeasurements_all src nonce (atTime t s)).trans (spdmPlain_of_up (s := atTime t s) reached up _))
  case challenge =>
    exact congrArg _ ((challenge_of_chain (s := atTime t s) chain src nonce).trans
      ((spdmSigned_of_up (s := atTime t s) reached up normal _).1 ready))
  case busy =>
    exact congrArg _ ((challenge_of_chain (s := atTime t s) chain src nonce).trans
      ((spdmSigned_of_up (s := atTime t s) reached up normal _).2 busy))
  case signed =>
    exact congrArg _ ((getMeasurements_one low high src true nonce (atTime t s)).trans
      ((spdmSigned_of_up (s := atTime t s) reached up normal _).1 ready))
  case complete => exact congrArg _ (signComplete_cons (s := atTime t s) waits)
  case connect => exact congrArg _ (tcpConnect_of_up (s := atTime t s) up)

end Sys2Proof.Machine
end

section
/-! SUPPORT. Updates as the statement of chapter 14 has them: staging, activation, COMMIT and ABORT (R449, R451 to R456). -/

namespace Sys2Proof.Machine

/-! ## UPD_CTL and UPD_STAT -/

/-- STAGE of UPD_CTL: ignored while a request runs or waits, or while the boot core does not run. -/
theorem stageRequest_eq (s : State) :
    (bif s.update.isSome || s.deferred.isSome || !(coreRuns s 0) then ignored s else stage none s) =
      if s.update.isSome = true ∨ s.deferred.isSome = true ∨ coreRuns s 0 = false then ignored s else stage none s := by
  rw [Bool.cond_eq_ite]
  simp only [Bool.or_eq_true, Bool.not_eq_true', or_assoc]

/-- A write of UPD_CTL does STAGE, ACTIVATE, COMMIT and ABORT in this order. -/
theorem updCtlWritten_eq (v : Nat) (s : State) :
    updCtlWritten v none s =
      let y := if bit v 31 = true then
        (if s.update.isSome = true ∨ s.deferred.isSome = true ∨ coreRuns s 0 = false then ignored s else stage none s) else s
      let y := if bit v 30 = true then request (if bit v 0 = true then .live else .reset) y else y
      let y := if bit v 29 = true then request .commit y else y
      if bit v 28 = true then abortUpdate y else y := by
  unfold updCtlWritten
  rw [stageRequest_eq]
  simp only [Bool.cond_eq_ite]

/-- The write of UPD_CTL over a path. -/
theorem regCommand_updCtl {s : State} {path : Path} {v : W32} (h : WritesReg s path .updCtl 0 0 v) :
    regCommand path .updCtl 0 0 v s = answered path .updCtl 0 0 0 (fetched path .updCtl 0 0 v s)
      (updCtlWritten v.toNat none (written .updCtl 0 0 v (fetched path .updCtl 0 0 v s))) :=
  regCommand_writes h rfl rfl rfl

/-- What showing flash and OTP leaves: everything but registers, and the registers of updates and processors. -/
theorem showAtt_leaves (s : State) : ∃ c, showAtt s = { s with ctl := c } := (writesRegs_showAtt s).rest

theorem fld_updStat_showAtt (s : State) (h l : Nat) : fld (showAtt s) .updStat 0 0 h l = fld s .updStat 0 0 h l :=
  (writesRegs_showAtt s).regs.fld_eq (stands_of_lt (by decide) (by decide) rfl) (by decide) h l

theorem flag_updStat_showAtt (s : State) (n : Nat) : flag (showAtt s) .updStat 0 0 n = flag s .updStat 0 0 n := by
  rw [flag_eq_fld, fld_updStat_showAtt, flag_eq_fld]

/-- A request that fails at once shows its RESULT. -/
theorem fld_failUpdate (r id : Nat) (s : State) : fld (failUpdate r id s) .updStat 0 0 31 28 = r % 16 :=
  fld_setFld_self _ _ _ _ _ (by decide) (by decide)

/-- An update that ends shows its RESULT and is not BUSY. -/
theorem fld_endUpdate (r : Nat) (s : State) :
    fld (endUpdate r s) .updStat 0 0 31 28 = r % 16 ∧ flag (endUpdate r s) .updStat 0 0 27 = false := by
  refine ⟨fld_setFld_self _ _ _ _ _ (by decide) (by decide), ?_⟩
  have busy : fld (setFld .updStat 0 0 27 26 0 { s with update := none, deferred := none }) .updStat 0 0 27 26 = 0 :=
    fld_setFld_self _ _ _ _ _ (by decide) (by decide)
  rw [flag_eq_fld, endUpdate, fld_setFld_below _ _ _ _ _ (by decide) (by decide) (by decide) (by decide)]
  rw [fld, bits] at busy ⊢
  rw [beq_eq_false_iff_ne]
  omega

/-! ## Staging (R453) -/

/-- The target of a set lies in flash. -/
theorem setTarget_leaves (images : List (Nat × Image)) (st : BankState) (s : State) : ∃ f, setTarget images st s = { s with flash := f } := by
  unfold setTarget
  split
  · exact ⟨_, rfl⟩
  · exact ⟨_, rfl⟩

/-- A complete set without a failing image is written as staging, and UPD_STAT shows BUSY. -/
theorem stageBytes_of_verified {bs : List Byte} {s : State} (complete : setComplete (parseSet 7 bs) = true)
    (passes : firstFailing s (parseSet 7 bs) = none) :
    (stageBytes bs s).update = some (.stage (parseSet 7 bs)) ∧ flag (stageBytes bs s) .updStat 0 0 27 = true := by
  obtain ⟨f, target⟩ := setTarget_leaves (parseSet 7 bs) .staging { s with update := some (.stage (parseSet 7 bs)) }
  have staged : stageBytes bs s =
      showAtt (setProgress 0 (setBusy true { s with update := some (.stage (parseSet 7 bs)), flash := f })) := by
    simp only [stageBytes, complete, passes, target, Bool.not_true, cond_false]
  rw [staged]
  constructor
  · obtain ⟨c, shown⟩ := showAtt_leaves (setProgress 0 (setBusy true { s with update := some (.stage (parseSet 7 bs)), flash := f }))
    rw [shown]
    rfl
  · rw [flag_updStat_showAtt, flag_eq_fld, setProgress, fld_setFld_above _ _ _ _ _ (by decide) (by decide) (by decide), ← flag_eq_fld]
    exact flag_setFld_one _ _ _ _ (by decide)

/-- A complete set with a failing image is refused with the image's RESULT. -/
theorem stageBytes_of_failing {bs : List Byte} {s : State} {r id : Nat} (complete : setComplete (parseSet 7 bs) = true)
    (fails : firstFailing s (parseSet 7 bs) = some (r, id)) : stageBytes bs s = failUpdate r id s := by
  simp only [stageBytes, complete, fails, Bool.not_true, cond_false]

/-- UPD_STAGE_COMPLETE when the flash took the set. -/
theorem stageComplete_ok {images : List (Nat × Image)} {s : State} (h : s.update = some (.stage images)) :
    fld (stageComplete true s) .updStat 0 0 31 28 = 1 ∧ flag (stageComplete true s) .updStat 0 0 27 = false ∧
      (stageComplete true s).update = none := by
  have done : stageComplete true s = showAtt (setProgress 100 (endUpdate 1 (setTarget images .staged s))) := by
    simp only [stageComplete, h, cond_true]
  obtain ⟨result, busy⟩ := fld_endUpdate 1 (setTarget images .staged s)
  rw [done]
  refine ⟨?_, ?_, ?_⟩
  · rw [fld_updStat_showAtt, setProgress, fld_setFld_above _ _ _ _ _ (by decide) (by decide) (by decide), result]
  · rw [flag_updStat_showAtt, flag_eq_fld, setProgress, fld_setFld_above _ _ _ _ _ (by decide) (by decide) (by decide), ← flag_eq_fld, busy]
  · obtain ⟨c, shown⟩ := showAtt_leaves (setProgress 100 (endUpdate 1 (setTarget images .staged s)))
    rw [shown]
    rfl

theorem stageComplete_failed {images : List (Nat × Image)} {s : State} (h : s.update = some (.stage images)) :
    stageComplete false s = endUpdate 6 s := by
  simp only [stageComplete, h, cond_false]

/-! ## Activation and COMMIT (R449, R451, R454 to R456) -/

/-- Nothing runs or waits, and the boot core runs. -/
def UpdateIdle (s : State) : Prop := s.update = none ∧ s.deferred = none ∧ coreRuns s 0 = true

/-- A request while another runs or waits, or the boot core does not run, is ignored; in an emergency it is deferred; else it starts. -/
theorem request_eq (d : Deferred) (s : State) :
    (¬ UpdateIdle s → request d s = ignored s) ∧ (UpdateIdle s → calm s = true → request d s = startRequest d s) ∧
      (UpdateIdle s → calm s = false → request d s = raise 0xD003 3 none 0 0 (setDefer true { s with deferred := some d })) := by
  have asked : request d s = bif s.update.isSome || s.deferred.isSome || !(coreRuns s 0) then ignored s
      else bif calm s then startRequest d s else raise 0xD003 3 none 0 0 (setDefer true { s with deferred := some d }) := rfl
  have idle : UpdateIdle s ↔ (s.update.isSome || s.deferred.isSome || !(coreRuns s 0)) = false := by
    unfold UpdateIdle
    cases s.update <;> cases s.deferred <;> cases coreRuns s 0 <;> simp
  rw [asked, idle, Bool.not_eq_false]
  refine ⟨fun h => by rw [h, cond_true], fun h calm => by rw [h, calm, cond_false, cond_true], fun h stir => by
    rw [h, stir, cond_false, cond_false]⟩

/-- A request that is deferred stays pending, with DEFER shown. -/
theorem deferred_request (d : Deferred) (s : State) :
    (raise 0xD003 3 none 0 0 (setDefer true { s with deferred := some d })).deferred = some d ∧
      flag (raise 0xD003 3 none 0 0 (setDefer true { s with deferred := some d })) .updStat 0 0 26 = true := by
  have told := tells_raise 0xD003 3 none 0 0 (setDefer true { s with deferred := some d })
  constructor
  · obtain ⟨c, q, rest⟩ := told.rest
    rw [rest]
    rfl
  · rw [told.regs.flag_eq (stands_of_lt (by decide) (by decide) rfl) (by decide)]
    exact flag_setFld_one _ _ _ _ (by decide)

theorem flag_updCtl_setDefer (b : Bool) (s : State) (n : Nat) : flag (setDefer b s) .updCtl 0 0 n = flag s .updCtl 0 0 n := by
  rw [flag_eq_fld, setDefer, fld_setFld_ne _ _ (by decide), ← flag_eq_fld]

/-- A reset activation may act: a bank is staged, and no program is present or UPD_CTL overrides that (R455). -/
def ResetMayAct (s : State) : Prop := (stagedBank s).isSome = true ∧ (programsPresent s = false ∨ flag s .updCtl 0 0 1 = true)

/-- A reset activation resets the part, or fails with RESULT 11. -/
theorem startRequest_reset (s : State) :
    (ResetMayAct s → startRequest .reset s = activateReset (setDefer false { s with deferred := none })) ∧
      (¬ ResetMayAct s → startRequest .reset s = failUpdate 11 0 (setDefer false { s with deferred := none })) := by
  have asked : startRequest .reset s = bif (stagedBank s).isNone || (programsPresent s && !(flag s .updCtl 0 0 1))
      then failUpdate 11 0 (setDefer false { s with deferred := none }) else activateReset (setDefer false { s with deferred := none }) := by
    have same : flag (setDefer false { s with deferred := none }) .updCtl 0 0 1 = flag s .updCtl 0 0 1 :=
      flag_updCtl_setDefer false { s with deferred := none } 1
    rw [← same]
    rfl
  rw [asked]
  unfold ResetMayAct
  cases stagedBank s <;> cases programsPresent s <;> cases flag s .updCtl 0 0 1 <;> simp

/-- The hold-off ends with a request pending. -/
theorem holdoffEnd_deferred {s : State} {d : Deferred} (still : calm s = true) (runs : coreRuns s 0 = true) (waits : s.deferred = some d) :
    holdoffEnd s = startRequest d s := by
  simp only [holdoffEnd, still, runs, waits, Bool.not_true, Bool.or_self, cond_false]

/-- The hold-off ends with a live activation that pauses. -/
theorem holdoffEnd_paused {s : State} {l : List Nat} {stop : Bool} (still : calm s = true) (runs : coreRuns s 0 = true)
    (nothing : s.deferred = none) (paused : s.update = some (.live l true stop)) : holdoffEnd s = nextLive (setDefer false s) l := by
  simp only [holdoffEnd, still, runs, nothing, paused, Bool.not_true, Bool.or_self, cond_false]

section
variable {s : State} {i : Nat} {l : List Nat} {stop : Bool} (live : s.update = some (.live (i :: l) false stop)) (waits : procState s i = 1)
include live waits

/-- The processor in hand has restarted three times: it is fenced. -/
theorem liveStep_fenced (often : 3 ≤ recentRestarts s i) (ok : Bool) : liveStep ok s = causeProcessor i 0x030C s := by
  simp only [liveStep, live, waits, Nat.ble_eq_true_of_le often, beq_self_eq_true, Bool.not_true, cond_false, cond_true]

/-- The processor in hand starts on its verified image, or restarts. -/
theorem liveStep_started (seldom : recentRestarts s i < 3) {b : Bank} {x : Image} (staged : stagedBank s = some b)
    (image : bankImage b (procImage i) = some x) (ok : Bool) :
    liveStep ok s = bif ok && verifyVendor s (procImage i) x == 0 then liveGoesOn l stop (installImage i x s) else beginRestart i s := by
  have few : Nat.ble 3 (recentRestarts s i) = false := by rw [Bool.eq_false_iff, ne_eq, Nat.ble_eq]; omega
  simp only [liveStep, live, waits, few, staged, image, Option.bind_some, beq_self_eq_true, Bool.not_true, cond_false]

end

/-- COMMIT brings the fused counter up to the set SVN of the active bank, revokes the slots of REVOKE and ends (R451, R452). -/
theorem commitComplete_leaves {s : State} (h : s.update = some .commit) :
    (commitComplete s).otp.counter = Nat.max s.otp.counter (setSvn (bankOf s (bootRec s).bankB)) ∧
      (commitComplete s).otp.vendor = revokeSlots (revokeMask (bankOf s (bootRec s).bankB)) s.otp.vendor 0 ∧
      (commitComplete s).update = none ∧ flag (commitComplete s) .updStat 0 0 27 = false := by
  unfold commitComplete
  rw [h]
  dsimp only
  refine ⟨?_, ?_, ?_, ?_⟩
  case refine_4 =>
    rw [flag_updStat_showAtt, flag_eq_fld, setBusy, fld_setFld_self _ _ _ _ _ (by decide) (by decide)]
    rfl
  all_goals
    obtain ⟨c, shown⟩ := showAtt_leaves (setBusy false { s with otp := { s.otp with
      counter := Nat.max s.otp.counter (setSvn (bankOf s (bootRec s).bankB)),
      vendor := revokeSlots (revokeMask (bankOf s (bootRec s).bankB)) s.otp.vendor 0 }, update := none })
    rw [shown]
    rfl

/-- Settles O54: the write of UPD_CTL, and each request from what it comes to. The order of the four requests and IGN while the boot core
does not run (log entry 177), conditions checked when a request starts (178) and processors passed over (179) are the model's reading. -/
theorem updates : Obligations.Updates := by
  unfold Obligations.Updates
  intro t s
  refine ⟨fun path value h => ?write, fun path value bs recovery awake => ?mctp, fun bs l complete hl passes => ?staged,
    fun bs r id complete fails => ?failing, fun d => ⟨(request_eq d s).1, (request_eq d s).2.1, fun idle stir =>
      ⟨_, rfl, ?deferred⟩⟩, fun bank free => (startRequest_reset s).1 ⟨bank, free⟩, fun barred => ?barred,
    fun images staging => ⟨congrArg _ (stageComplete_failed (s := atTime t s) staging), _, rfl, stageComplete_ok (s := atTime t s) staging⟩,
    fun d waits still runs => ?holdoff, fun l stop none_ paused still runs => ?paused,
    fun i l stop b x live restarting seldom staged image => ⟨fun verified => ?started, ?restarted⟩,
    fun i l stop live restarting often ok => congrArg _ (liveStep_fenced (s := atTime t s) live restarting often ok),
    fun commits => ⟨_, rfl, commitComplete_leaves (s := atTime t s) commits⟩⟩
  case write =>
    have same := (regCommand_updCtl (v := value) h).trans
      (congrArg (answered path .updCtl 0 0 0 (fetched path .updCtl 0 0 value (atTime t s))) (updCtlWritten_eq _ _))
    exact ⟨congrArg _ same, congrArg _ same, congrArg _ same, congrArg _ same, congrArg _ same⟩
  case mctp =>
    show Host.Outcome.next (bif true && s.recovery && s.inReset.isNone then _ else _) = _
    rw [recovery, awake]
    rfl
  case staged =>
    subst hl
    exact ⟨_, rfl, stageBytes_of_verified complete passes⟩
  case failing =>
    rw [stageBytes_of_failing complete fails]
    exact ⟨fld_failUpdate r id s, rfl, rfl⟩
  case deferred =>
    rw [(request_eq d s).2.2 idle stir]
    exact deferred_request d s
  case barred =>
    have no : ¬ ResetMayAct s := by
      rintro ⟨bank, free⟩
      rcases barred with unstaged | ⟨present, kept⟩
      · rw [unstaged] at bank; contradiction
      · rcases free with gone | overridden
        · rw [gone] at present; contradiction
        · rw [overridden] at kept; contradiction
    rw [(startRequest_reset s).2 no]
    exact fld_failUpdate 11 0 _
  case holdoff => exact congrArg _ (holdoffEnd_deferred (s := atTime t s) still runs waits)
  case paused => exact congrArg _ (holdoffEnd_paused (s := atTime t s) still runs none_ paused)
  case started =>
    refine congrArg _ ((liveStep_started (s := atTime t s) live restarting seldom staged image true).trans ?_)
    rw [show verifyVendor (atTime t s) (procImage i) x = 0 from verified]
    rfl
  case restarted => exact congrArg _ (liveStep_started (s := atTime t s) live restarting seldom staged image false)

end Sys2Proof.Machine
end

section
/-! SUPPORT. A state that refutes the statement of containment and telemetry: PGE_STALLUS of a partition that the part does not have. -/

namespace Sys2Proof.Machine

/-- PGE_STALLUS of partition 0x5E00, were there one, would stand where ERR_IMBAL stands. -/
theorem pgeStallus_at_errImbal : regAddr .pgeStallus 0x5E00 0 = regAddr .errImbal 0 0 := by decide

/-- A segment of page 0 that has waited for Drift since time 0. -/
def strayWait : Seg :=
  { va := 0, loc := 0, len := 64, state := .waiting, status := 0, since := 0, todo := 0, okN := 0, unk := false }

/-- The request of partition 0x5E00 that the segment belongs to. -/
def strayReq : Req :=
  { prog := none, role := 0, bench := 0, eid := 0, part := 0x5E00, ord := 0, off := 0, write := false, segs := [strayWait], record := none,
    pred := 0, soft := false, done := false, rank := none, ordered := false, nearDev := false, buf := none, head := false, faulted := false,
    first := none, land := [] }

/-- 1 µs after reset, page 0 of partition 0x5E00 lies in the first frame of Stratus module 0, and the request waits for it. -/
def strayWaitState : State :=
  { State.reset with
    time := 1000
    parts := [(0x5E00, { Partition.reset with leaves := [(0, { strayLeaf with res := 1, frame := 0x80000 })] })]
    reqs := [(0, strayReq)] }

/-- Fencing the module for a failed check ends the wait, whose microsecond is counted besides the imbalance. -/
theorem imbalance_strayWaitState : raw (imbalance 8 0 strayWaitState) .errImbal 0 0 = 2 := by decide +kernel

/-- Refutes O58: its first clause says that a failed check counts one in ERR_IMBAL, and nothing else does. The fence of a Stratus module
also ends the waits for its pages (R246), each counted in PGE_STALLUS of its partition, and PGE_STALLUS of a number that no partition has
may be ERR_IMBAL. A premise that the partition of every request is below 8 is missing. -/
theorem not_containmentAndTelemetry : ¬ Obligations.ContainmentAndTelemetry := by
  unfold Obligations.ContainmentAndTelemetry
  intro contained
  obtain ⟨causes, -⟩ := contained 0 strayWaitState
  obtain ⟨-, -, v, hv, -, counted⟩ := causes 8 0 0 rfl
  have caused : imbalance 8 0 strayWaitState = v := Host.Outcome.next.inj hv
  rw [← caused, imbalance_strayWaitState] at counted
  exact absurd counted (by decide)

end Sys2Proof.Machine
end

section
/-! SUPPORT. What the fence of a unit leaves of another unit (R490, R493): a cause that reaches a sector reaches its benches and their
stations, and nothing else. -/

namespace Sys2Proof.Machine

/-! ## Sectors and benches -/

/-- A step that leaves the fence state of the unit with identifier `n`. -/
def LeavesUnit (n : Nat) (s t : State) : Prop := tget? t.units n = tget? s.units n

theorem LeavesUnit.refl (n : Nat) (s : State) : LeavesUnit n s s := rfl

theorem LeavesUnit.trans {n : Nat} {s t u : State} (h : LeavesUnit n s t) (g : LeavesUnit n t u) : LeavesUnit n s u :=
  Eq.trans g h

theorem LeavesUnit.of_units {n : Nat} {s t : State} (h : t.units = s.units) : LeavesUnit n s t := congrArg (tget? · n) h

theorem LeavesUnit.foldl {n : Nat} {α : Type} {f : State → α → State} {l : List α} (step : ∀ x ∈ l, ∀ s, LeavesUnit n s (f s x)) (s : State) :
    LeavesUnit n s (l.foldl f s) :=
  rel_foldl (LeavesUnit.refl n) LeavesUnit.trans step s

theorem leavesUnit_cond {n : Nat} {s a b : State} {c : Bool} (ha : LeavesUnit n s a) (hb : LeavesUnit n s b) :
    LeavesUnit n s (bif c then a else b) := by
  cases c
  · exact hb
  · exact ha

/-- The state of a unit whose entry is left. -/
theorem LeavesUnit.unitState_eq {kind index : Nat} {s t : State} (h : LeavesUnit (unitId kind index) s t) :
    unitState t kind index = unitState s kind index := by
  unfold unitState
  rw [show tget? t.units _ = _ from h]

theorem LeavesUnit.isUp_eq {kind index : Nat} {s t : State} (h : LeavesUnit (unitId kind index) s t) : isUp t kind index = isUp s kind index := by
  rw [isUp, h.unitState_eq, isUp]

theorem leavesUnit_raise (n : Nat) (code : BitVec 16) (sev : Nat) (part : Option Nat) (unit : Nat) (data : W64) (s : State) :
    LeavesUnit n s (raise code sev part unit data s) := by
  obtain ⟨c, q, rest⟩ := (tells_raise code sev part unit data s).rest
  exact .of_units (by rw [rest])

section
variable {n kind index : Nat} (apart : n ≠ unitId kind index)
include apart

theorem leavesUnit_setUnit (st : FenceState) (cause : Status) (s : State) : LeavesUnit n s (setUnit kind index st cause s) := by
  cases st
  case up => exact tget?_terase_ne _ _ _ apart
  all_goals exact tget?_tset_ne _ _ _ _ apart

theorem leavesUnit_noteCause (cause : Status) (s : State) : LeavesUnit n s (noteCause kind index cause s) := by
  unfold noteCause
  extract_lets u
  have counted : LeavesUnit n s u := .of_units rfl
  split
  · exact counted.trans ((leavesUnit_setUnit apart .draining cause u).trans (leavesUnit_raise ..))
  · exact counted.trans (leavesUnit_setUnit apart .fenced cause u)
  · exact counted

end

theorem leavesUnit_benchDrains (n b : Nat) (s : State) : LeavesUnit n s (benchDrains b s) := by
  have fault : ∀ ord off st u, LeavesUnit n u (reportFault b ord off st u) := by
    intro ord off st u
    unfold reportFault
    extract_lets x
    split
    · exact LeavesUnit.refl n u
    · exact .of_units rfl
  unfold benchDrains
  extract_lets x
  split
  · exact LeavesUnit.refl n s
  · exact (fault ..).trans (.of_units rfl)

theorem leavesUnit_stationsFenced {n b : Nat} (apart : ∀ k, k < 13 → n ≠ unitId 1 (b * 16 + k)) (s : State) :
    LeavesUnit n s (stationsFenced b s) :=
  .foldl (fun k hk u => leavesUnit_cond (leavesUnit_setUnit (apart k (List.mem_range.mp hk)) .fenced 0x030F u) (LeavesUnit.refl n u)) s

/-- A cause that reaches a bench leaves every unit but the bench and its stations. -/
theorem leavesUnit_causeBench {n b : Nat} (apart : n ≠ unitId 2 b) (stations : ∀ k, k < 13 → n ≠ unitId 1 (b * 16 + k)) (cause : Status)
    (s : State) : LeavesUnit n s (causeBench b cause s) := by
  have noted := leavesUnit_noteCause apart cause s
  exact leavesUnit_cond (noted.trans (leavesUnit_benchDrains n b _))
    (leavesUnit_cond (noted.trans (leavesUnit_stationsFenced stations _)) noted)

theorem lt_of_mem_sectorBenches {sec b : Nat} (h : b ∈ sectorBenches sec) : b < 32 :=
  List.mem_range.mp (List.mem_filter.mp h).1

/-- The benches of a sector reached by its fence leave every unit of a kind above benches. -/
theorem leavesUnit_sectorBenches {n : Nat} (above : 3 * 2 ^ 24 ≤ n) (sec : Nat) (s : State) :
    LeavesUnit n s ((sectorBenches sec).foldl (fun s b => causeBench b 0x030F s) s) :=
  .foldl (fun b hb u => leavesUnit_causeBench (by have := lt_of_mem_sectorBenches hb; unfold unitId; omega)
    (fun k hk => by have := lt_of_mem_sectorBenches hb; unfold unitId; omega) 0x030F u) s

/-- A cause that reaches a sector leaves every other unit of a kind above benches. -/
theorem leavesUnit_causeSector {n sec : Nat} (above : 3 * 2 ^ 24 ≤ n) (apart : n ≠ unitId 3 sec) (cause : Status) (s : State) :
    LeavesUnit n s (causeSector sec cause s) := by
  have noted := leavesUnit_noteCause apart cause s
  exact leavesUnit_cond (noted.trans (leavesUnit_cond (leavesUnit_sectorBenches above sec _) (LeavesUnit.refl n _))) noted

/-- An Up sector that a cause reaches is Draining. -/
theorem unitState_causeSector {sec : Nat} {s : State} (up : isUp s 3 sec = true) (cause : Status) :
    unitState (causeSector sec cause s) 3 sec = .draining := by
  have above : 3 * 2 ^ 24 ≤ unitId 3 sec := Nat.le_add_right ..
  have drains := (noteCause_up cause up).1
  unfold causeSector
  rw [up, cond_true]
  exact (leavesUnit_cond (leavesUnit_sectorBenches above sec _) (LeavesUnit.refl _ _)).unitState_eq.trans drains

end Sys2Proof.Machine
end

section
/-! SUPPORT. Power and heat as the statement of chapter 15 has them: work clocks, the ladder, temperatures, brakes, package power, alarms and
the thermal trip (R466 to R478, R480). -/

namespace Sys2Proof.Machine

/-! ## Sectors and their registers -/

theorem sector_modSector_self (k : Nat) (f : Sector → Sector) (s : State) : sector (modSector k f s) k = f (sector s k) := tget_tset_self ..

theorem fld_bumpFld_self (r : Reg) (i j n : Nat) {h l : Nat} (hl : l ≤ h) (hh : h < 32) (s : State) :
    fld (bumpFld r i j h l n s) r i j h l = Nat.min (2 ^ (h + 1 - l) - 1) (fld s r i j h l + n) := by
  have pos := Nat.two_pow_pos (h + 1 - l)
  have low : Nat.min (2 ^ (h + 1 - l) - 1) (fld s r i j h l + n) ≤ 2 ^ (h + 1 - l) - 1 := Nat.min_le_left _ _
  rw [bumpFld, fld_setFld_self _ _ _ _ _ hl hh, satTo, Nat.mod_eq_of_lt (by omega)]

theorem ladder_lt (s : State) (k : Nat) : ladder s k < 16 := bits_lt _ 31 28

theorem band_lt (s : State) (k : Nat) : band s k < 8 := bits_lt _ 23 21

theorem bandAt_lt {old : Nat} (h : old < 8) (temp : Int) : bandAt old temp < 8 := by
  unfold bandAt
  simp only [Bool.cond_eq_ite, decide_eq_true_eq, Nat.min_def]
  repeat' split
  all_goals omega

/-- An event leaves the sectors and every register but its own. -/
theorem sector_raise (code : BitVec 16) (sev : Nat) (part : Option Nat) (unit : Nat) (data : W64) (s : State) (k : Nat) :
    sector (raise code sev part unit data s) k = sector s k := by
  obtain ⟨c, q, rest⟩ := (tells_raise code sev part unit data s).rest
  rw [rest]
  rfl

/-- A field of a register that is not one of an event's is as before the event. -/
theorem fld_raise {r : Reg} {i j : Nat} (stands : Stands r i j) (other : r ∉ eventRegs) (code : BitVec 16) (sev : Nat) (part : Option Nat)
    (unit : Nat) (data : W64) (s : State) (h l : Nat) : fld (raise code sev part unit data s) r i j h l = fld s r i j h l :=
  (tells_raise code sev part unit data s).regs.fld_eq stands other h l

/-- Setting the ladder writes STEP, and may end an emergency. -/
theorem setLadder_eq (k step : Nat) (s : State) : ∃ e, setLadder k step s = { setFld .pwrSect k 0 31 28 step s with emergAt := e } := by
  unfold setLadder
  extract_lets u
  cases ladder s k == 15 && !(step == 15)
  · exact ⟨u.emergAt, rfl⟩
  · exact ⟨some u.time, rfl⟩

theorem ladder_setLadder {step : Nat} (h : step < 16) (k : Nat) (s : State) : ladder (setLadder k step s) k = step := by
  obtain ⟨e, set⟩ := setLadder_eq k step s
  rw [set]
  exact (fld_setFld_self s .pwrSect k 0 step (by decide) (by decide)).trans (Nat.mod_eq_of_lt h)

theorem sector_setLadder (k step : Nat) (s : State) : sector (setLadder k step s) = sector s := by
  obtain ⟨e, set⟩ := setLadder_eq k step s
  rw [set]
  rfl

section
variable {k : Nat} (hk : k < 32)
include hk

theorem stands_thmSect : Stands .thmSect k 0 := stands_of_lt hk (by decide) rfl

theorem stands_pwrScnt : Stands .pwrScnt k 0 := stands_of_lt hk (by decide) rfl

theorem keepsRegs_setLadder (step : Nat) (s : State) : KeepsRegs [.pwrSect] s (setLadder k step s) := by
  obtain ⟨e, set⟩ := setLadder_eq k step s
  rw [set]
  exact (keepsRegs_setFld (stands_pwrSect hk) (by decide) 31 28 step s).trans (.of_ctl _ rfl)

theorem keepsRegs_cutTo (step : Nat) (s : State) : KeepsRegs [.pwrSect, .pwrScnt] s (cutTo k step s) := by
  unfold cutTo
  have counted : KeepsRegs [.pwrSect, .pwrScnt] (modSector k (fun x => { x with clear := 0 }) s)
      (bumpFld .pwrScnt k 0 31 16 1 (modSector k (fun x => { x with clear := 0 }) s)) :=
    keepsRegs_bumpFld (stands_pwrScnt hk) (by decide) 31 16 1 _
  exact (KeepsRegs.of_ctl _ rfl).trans (counted.trans ((keepsRegs_setLadder hk step _).mono (by decide)))

end

theorem ladder_cutTo {step : Nat} (h : step < 16) (k : Nat) (s : State) : ladder (cutTo k step s) k = step := ladder_setLadder h k _

theorem sector_cutTo (k step : Nat) (s : State) : sector (cutTo k step s) k = { sector s k with clear := 0 } := by
  rw [cutTo, sector_setLadder]
  exact sector_modSector_self k (fun x => { x with clear := 0 }) s

/-! ## The work clock (R470, R486) -/

section
variable {k : Nat} {s : State}

theorem workClock_off (off : s.clocksOn = false ∨ (sector s k).regOff = true) : workClock k s = s := by
  have no : (!s.clocksOn || (sector s k).regOff) = true := by
    rcases off with clocks | reg
    · rw [clocks]; rfl
    · rw [reg, Bool.or_true]
  unfold workClock
  rw [no, cond_true]

/-- The target of a sector: PWR_CTL as clamped, or as the sector has it while its Warden does not run. -/
def clockTarget (s : State) (k : Nat) : Nat := if coreRuns s (wardenOf k) = true then clampFtgt (fld s .pwrCtl 0 0 6 0) else (sector s k).ftgt

/-- The least of target, fmax_sector and the band's limit, cut by the ladder; 300 times the clock in 25 MHz. -/
def clockCap (s : State) (k : Nat) : Nat :=
  Nat.min (clockTarget s k) (Nat.min (fmaxSector s k) (bandFmax (band s k))) * (300 - 13 * ladder s k)

theorem clockCap_lt (s : State) (k : Nat) : clockCap s k / 300 < 256 := by
  have top : bandFmax (band s k) ≤ 76 := by
    unfold bandFmax
    simp only [Bool.cond_eq_ite]
    split <;> [omega; split <;> omega]
  have least : Nat.min (clockTarget s k) (Nat.min (fmaxSector s k) (bandFmax (band s k))) ≤ bandFmax (band s k) :=
    (Nat.min_le_right _ _).trans (Nat.min_le_right _ _)
  have cap : clockCap s k ≤ 76 * 300 := Nat.mul_le_mul (least.trans top) (Nat.sub_le ..)
  omega

/-- A voltage is taken from a sector's factory value, overlay and guard alone. -/
theorem voltAt_congr {s t : State} {k : Nat} (ov : (sector t k).ovV = (sector s k).ovV) (guard : (sector t k).guard = (sector s k).guard)
    (f b : Nat) : voltAt t k f b = voltAt s k f b := by
  rw [voltAt, voltAt, ov, guard]

theorem withinVolt_congr {s t : State} {k b : Nat} (volt : ∀ f, voltAt t k f b = voltAt s k f b) (n : Nat) :
    withinVolt t k b n = withinVolt s k b n := by
  induction n with
  | zero => rfl
  | succ n ih => rw [withinVolt, withinVolt, volt, ih]

theorem fmaxSector_atTime (t : Time) (s : State) (k : Nat) : fmaxSector (atTime t s) k = fmaxSector s k :=
  withinVolt_congr (s := s) (t := atTime t s) (fun _ => rfl) _

/-- The sector takes its target, unless its Warden does not run. -/
def aimed (k : Nat) (s : State) : State :=
  bif coreRuns s (wardenOf k) then modSector k (fun x => { x with ftgt := clampFtgt (fld s .pwrCtl 0 0 6 0) }) s else s

theorem aimed_ctl (k : Nat) (s : State) : (aimed k s).ctl = s.ctl := by
  unfold aimed
  cases coreRuns s (wardenOf k) <;> rfl

theorem sector_aimed (k : Nat) (s : State) : sector (aimed k s) k = { sector s k with ftgt := clockTarget s k } := by
  unfold aimed clockTarget
  cases coreRuns s (wardenOf k)
  · rfl
  · exact sector_modSector_self k (fun x => { x with ftgt := clampFtgt (fld s .pwrCtl 0 0 6 0) }) s

theorem fld_aimed (k : Nat) (s : State) (r : Reg) (i j h l : Nat) : fld (aimed k s) r i j h l = fld s r i j h l := by
  rw [fld, raw, aimed_ctl]
  rfl

theorem voltAt_aimed (k : Nat) (s : State) (f b : Nat) : voltAt (aimed k s) k f b = voltAt s k f b :=
  voltAt_congr (by rw [sector_aimed]) (by rw [sector_aimed]) f b

theorem fmaxSector_aimed (k : Nat) (s : State) : fmaxSector (aimed k s) k = fmaxSector s k := by
  have shown : band (aimed k s) k = band s k := fld_aimed ..
  rw [fmaxSector, fmaxSector, shown, sector_aimed, withinVolt_congr fun f => voltAt_aimed k s f _]

/-- How many of 16 clocks pass at a cap of 300 times 25 MHz. -/
def clockGate (cap : Nat) : Nat := bif Nat.blt cap (32 * 300) then (16 * cap + 9599) / 9600 else 16

/-- A sector takes its clock, gate and voltage at a cap. -/
def clockSet (k cap : Nat) (s : State) : State :=
  setFld .pwrSect k 0 27 20 (Nat.max 32 (cap / 300)) (setFld .pwrSect k 0 19 12 (voltCode (voltAt s k (Nat.max 32 (cap / 300)) (band s k)))
    (modSector k (fun x => { x with gate := clockGate cap }) s))

theorem workClock_on (clocks : s.clocksOn = true) (reg : (sector s k).regOff = false) :
    workClock k s = clockSet k (clockCap s k) (aimed k s) := by
  have shown : band (aimed k s) k = band s k := fld_aimed ..
  have stepped : ladder (aimed k s) k = ladder s k := fld_aimed ..
  have target : (sector (aimed k s) k).ftgt = clockTarget s k := by rw [sector_aimed]
  have unfolded : workClock k s = bif !s.clocksOn || (sector s k).regOff then s else
      clockSet k (Nat.min (sector (aimed k s) k).ftgt (Nat.min (fmaxSector (aimed k s) k) (bandFmax (band (aimed k s) k))) *
        (300 - 13 * ladder (aimed k s) k)) (aimed k s) := rfl
  rw [unfolded, clocks, reg, Bool.not_true, Bool.or_self, cond_false, shown, stepped, target, fmaxSector_aimed]
  rfl

theorem voltCode_lt (v : Int) : voltCode v < 256 := Nat.lt_of_le_of_lt (Nat.min_le_left 160 _) (by decide)

theorem workClock_leaves (clocks : s.clocksOn = true) (reg : (sector s k).regOff = false) :
    let f := Nat.max 32 (clockCap s k / 300)
    fld (workClock k s) .pwrSect k 0 27 20 = f ∧ (sector (workClock k s) k).gate = clockGate (clockCap s k) ∧
      fld (workClock k s) .pwrSect k 0 19 12 = voltCode (voltAt s k f (band s k)) ∧ (sector (workClock k s) k).ftgt = clockTarget s k ∧
      ladder (workClock k s) k = ladder s k := by
  have top : Nat.max 32 (clockCap s k / 300) < 256 := Nat.max_lt.mpr ⟨by decide, clockCap_lt s k⟩
  have shown : band (aimed k s) k = band s k := fld_aimed ..
  have gated : sector (clockSet k (clockCap s k) (aimed k s)) k = { sector (aimed k s) k with gate := clockGate (clockCap s k) } :=
    sector_modSector_self k (fun x => { x with gate := clockGate (clockCap s k) }) (aimed k s)
  rw [workClock_on clocks reg]
  refine ⟨?_, by rw [gated], ?_, by rw [gated, sector_aimed], ?_⟩
  · rw [clockSet, fld_setFld_self _ _ _ _ _ (by decide) (by decide)]
    exact Nat.mod_eq_of_lt top
  · rw [clockSet, fld_setFld_below _ _ _ _ _ (by decide) (by decide) (by decide) (by decide),
      fld_setFld_self _ _ _ _ _ (by decide) (by decide), shown, voltAt_aimed]
    exact Nat.mod_eq_of_lt (voltCode_lt _)
  · rw [clockSet, ladder, fld_setFld_above _ _ _ _ _ (by decide) (by decide) (by decide),
      fld_setFld_above _ _ _ _ _ (by decide) (by decide) (by decide)]
    exact fld_aimed ..

end

/-! ## The ladder (R471 to R473) -/

/-- PWR_SECT shows a sector's current. -/
def showAmps (k amps : Nat) (s : State) : State := setFld .pwrSect k 0 11 0 (satTo 4095 amps) s

section
variable {k amps : Nat} {s : State}

theorem ladder_showAmps : ladder (showAmps k amps s) k = ladder s k :=
  fld_setFld_above s .pwrSect k 0 _ (by decide) (by decide) (by decide)

theorem amps_showAmps : fld (showAmps k amps s) .pwrSect k 0 11 0 = Nat.min 4095 amps := by
  rw [showAmps, fld_setFld_self _ _ _ _ _ (by decide) (by decide)]
  exact Nat.mod_eq_of_lt (Nat.lt_of_le_of_lt (Nat.min_le_left 4095 amps) (by decide))

/-- Setting the ladder leaves the current shown. -/
theorem amps_setLadder (step : Nat) (s : State) : fld (setLadder k step s) .pwrSect k 0 11 0 = fld s .pwrSect k 0 11 0 := by
  obtain ⟨e, set⟩ := setLadder_eq k step s
  rw [set]
  exact fld_setFld_below s .pwrSect k 0 step (by decide) (by decide) (by decide) (by decide)

/-- The ladder of a sector that is over goes one step up, which is counted. -/
def stepUp (k : Nat) (s : State) : State :=
  if ladder s k < 15 then bumpFld .pwrScnt k 0 15 0 1 (setLadder k (ladder s k + 1) s) else s

/-- Clear time restarts. -/
def restartClear (k : Nat) (s : State) : State := modSector k (fun x => { x with clear := 0 }) s

/-- The clear time of a sector after one more sample. -/
def waitClear (k clear : Nat) (s : State) : State := modSector k (fun x => { x with clear := clear }) s

theorem clear_waitClear (k clear : Nat) (s : State) : (sector (waitClear k clear s) k).clear = clear := by
  rw [waitClear, sector_modSector_self]

theorem clear_restartClear (k : Nat) (s : State) : (sector (restartClear k s) k).clear = 0 := clear_waitClear k 0 s

/-- A sector that is not over, without a warning, goes one step down after 2 ms, unless the brake holds it (R473, R476). -/
def StepsDown (s : State) (k : Nat) : Prop :=
  2000000 ≤ (sector s k).clear + 20000 ∧ 0 < ladder s k ∧ ¬ (k < 24 ∧ flag s .pwrEmerg 0 0 3 = true)

/-- The condition under which the model steps down. -/
theorem stepsDown_iff (s : State) (k : Nat) :
    (Nat.ble 2000000 ((sector s k).clear + 20000) && Nat.blt 0 (ladder s k) && !(isCompute k && flag s .pwrEmerg 0 0 3)) = true ↔
      StepsDown s k := by
  unfold StepsDown isCompute
  rw [Bool.and_eq_true, Bool.and_eq_true, Nat.ble_eq, Nat.blt_eq, Bool.not_eq_true', Bool.and_eq_false_iff, ← Bool.not_eq_true,
    Nat.blt_eq, ← Bool.not_eq_true, not_and_or, and_assoc]

section
variable (hk : k < 32)
include hk

theorem pwrScnt_ne_pwrSect : regAddr .pwrScnt k 0 ≠ regAddr .pwrSect k 0 :=
  regAddr_ne_of_stands (stands_pwrScnt hk) (stands_pwrSect hk) (by simp)

theorem band_showAmps : band (showAmps k amps s) k = band s k :=
  fld_setFld_ne s _ (regAddr_ne_of_stands (stands_thmSect hk) (stands_pwrSect hk) (by simp))

theorem sectorOver_showAmps : sectorOver (showAmps k amps s) k amps = sectorOver s k amps := by
  rw [sectorOver, sectorOver, ladder_showAmps, band_showAmps hk]
  rfl

theorem flag_showAmps (n : Nat) : flag (showAmps k amps s) .pwrEmerg 0 0 n = flag s .pwrEmerg 0 0 n :=
  (keepsRegs_setFld (w := [.pwrSect]) (stands_pwrSect hk) (by decide) 11 0 _ s).flag_eq
    (stands_of_lt (by decide) (by decide) rfl) (by decide) n

theorem fld_stepUp : fld (stepUp k s) .pwrSect k 0 11 0 = fld s .pwrSect k 0 11 0 ∧ ladder (stepUp k s) k = Nat.min 15 (ladder s k + 1) ∧
    fld (stepUp k s) .pwrScnt k 0 15 0 =
      (if ladder s k < 15 then Nat.min 65535 (fld s .pwrScnt k 0 15 0 + 1) else fld s .pwrScnt k 0 15 0) := by
  have apart := pwrScnt_ne_pwrSect hk
  unfold stepUp
  by_cases low : ladder s k < 15
  · rw [if_pos low, if_pos low]
    refine ⟨?_, ?_, ?_⟩
    · rw [bumpFld, fld_setFld_ne _ _ apart.symm, amps_setLadder]
    · rw [ladder, bumpFld, fld_setFld_ne _ _ apart.symm, ← ladder, ladder_setLadder (by omega)]
      exact (Nat.min_eq_right (by omega)).symm
    · rw [fld_bumpFld_self _ _ _ _ (by decide) (by decide),
        (keepsRegs_setLadder hk _ s).fld_eq (stands_pwrScnt hk) (by decide)]
      rfl
  · rw [if_neg low, if_neg low]
    refine ⟨rfl, ?_, rfl⟩
    have := ladder_lt s k
    rw [show Nat.min 15 (ladder s k + 1) = 15 from Nat.min_eq_left (by omega)]
    omega

theorem ladderStep_over (above : sectorOver s k amps = true) :
    ladderStep k amps s = restartClear k (stepUp k (showAmps k amps s)) := by
  have unfolded : ladderStep k amps s = bif sectorOver (showAmps k amps s) k amps then
      restartClear k (bif Nat.blt (ladder (showAmps k amps s) k) 15 then
        bumpFld .pwrScnt k 0 15 0 1 (setLadder k (ladder (showAmps k amps s) k + 1) (showAmps k amps s)) else showAmps k amps s) else _ := rfl
  rw [unfolded, sectorOver_showAmps hk, above, cond_true, stepUp, Bool.cond_eq_ite]
  simp only [Nat.blt_eq]

section
variable (under : sectorOver s k amps = false)
include under

theorem ladderStep_warn (warn : (sector s k).warn = true) : ladderStep k amps s = restartClear k (showAmps k amps s) := by
  have unfolded : ladderStep k amps s = bif sectorOver (showAmps k amps s) k amps then _ else
      bif (sector s k).warn then restartClear k (showAmps k amps s) else _ := rfl
  rw [unfolded, sectorOver_showAmps hk, under, cond_false, warn, cond_true]

theorem ladderStep_calm (calm : (sector s k).warn = false) :
    ladderStep k amps s = bif Nat.ble 2000000 ((sector s k).clear + 20000) && Nat.blt 0 (ladder s k)
        && !(isCompute k && flag s .pwrEmerg 0 0 3)
      then setLadder k (ladder s k - 1) (restartClear k (showAmps k amps s))
      else waitClear k ((sector s k).clear + 20000) (showAmps k amps s) := by
  have unfolded : ladderStep k amps s = bif sectorOver (showAmps k amps s) k amps then _ else bif (sector s k).warn then _ else
      bif Nat.ble 2000000 ((sector s k).clear + 20000) && Nat.blt 0 (ladder (showAmps k amps s) k)
          && !(isCompute k && flag (showAmps k amps s) .pwrEmerg 0 0 3)
        then setLadder k (ladder (showAmps k amps s) k - 1) (restartClear k (showAmps k amps s))
        else waitClear k ((sector s k).clear + 20000) (showAmps k amps s) := rfl
  rw [unfolded, sectorOver_showAmps hk, under, cond_false, calm, cond_false, ladder_showAmps, flag_showAmps hk]

theorem ladderStep_down (calm : (sector s k).warn = false) (down : StepsDown s k) :
    ladderStep k amps s = setLadder k (ladder s k - 1) (restartClear k (showAmps k amps s)) := by
  rw [ladderStep_calm hk under calm, (stepsDown_iff s k).mpr down, cond_true]

theorem ladderStep_wait (calm : (sector s k).warn = false) (stay : ¬ StepsDown s k) :
    ladderStep k amps s = waitClear k ((sector s k).clear + 20000) (showAmps k amps s) := by
  rw [ladderStep_calm hk under calm, Bool.eq_false_iff.mpr (mt (stepsDown_iff s k).mp stay), cond_false]

end

/-- LADDER_STEP shows the current whatever the ladder does. -/
theorem amps_ladderStep : fld (ladderStep k amps s) .pwrSect k 0 11 0 = Nat.min 4095 amps := by
  cases above : sectorOver s k amps
  case true =>
    rw [ladderStep_over hk above]
    exact (fld_stepUp hk).1.trans amps_showAmps
  case false =>
    cases warned : (sector s k).warn
    case true =>
      rw [ladderStep_warn hk above warned]
      exact amps_showAmps
    case false =>
      by_cases down : StepsDown s k
      · rw [ladderStep_down hk above warned down, amps_setLadder]
        exact amps_showAmps
      · rw [ladderStep_wait hk above warned down]
        exact amps_showAmps

end
end

/-! ## Temperatures (R474 to R477) -/

/-- What the ladder, the temperature and the cuts of a sector come to, with THM_CTL and the last cut of the part. -/
structure HeatView where
  ladder : Nat
  band : Nat
  temp : Nat
  limits : Nat
  now : Time
  lastCut : Option Time
  sector : Sector

def heatView (k : Nat) (s : State) : HeatView :=
  ⟨ladder s k, band s k, fld s .thmSect k 0 31 24, raw s .thmCtl 0 0, s.time, s.cutAt, sector s k⟩

theorem heatView_modSector (k : Nat) (f : Sector → Sector) (s : State) :
    heatView k (modSector k f s) = { heatView k s with sector := f (sector s k) } := by
  rw [heatView, sector_modSector_self]
  rfl

theorem stands_thmCtl : Stands .thmCtl 0 0 := stands_of_lt (by decide) (by decide) rfl

/-- A step that writes other registers than those of the view, and keeps time, cuts and the sector. -/
theorem heatView_of_regs {w : List Reg} {k : Nat} {s t : State} (hk : k < 32) (regs : KeepsRegs w s t) (sect : .pwrSect ∉ w)
    (therm : .thmSect ∉ w) (ctl : .thmCtl ∉ w) (time : t.time = s.time) (cut : t.cutAt = s.cutAt) (same : sector t k = sector s k) :
    heatView k t = heatView k s := by
  rw [heatView, ladder, band, regs.fld_eq (stands_pwrSect hk) sect, regs.fld_eq (stands_thmSect hk) therm,
    regs.fld_eq (stands_thmSect hk) therm, regs _ _ _ stands_thmCtl ctl, time, cut, same]
  rfl

theorem heatView_raise {k : Nat} (hk : k < 32) (code : BitVec 16) (sev : Nat) (part : Option Nat) (unit : Nat) (data : W64) (s : State) :
    heatView k (raise code sev part unit data s) = heatView k s := by
  have told := tells_raise code sev part unit data s
  obtain ⟨c, q, rest⟩ := told.rest
  exact heatView_of_regs hk told.regs (by decide) (by decide) (by decide) (by rw [rest]) (by rw [rest]) (sector_raise ..)

theorem heatView_cutTo {k step : Nat} (hk : k < 32) (h : step < 16) (s : State) :
    heatView k (cutTo k step s) = { heatView k s with ladder := step, sector := { sector s k with clear := 0 } } := by
  have kept := keepsRegs_cutTo hk step s
  obtain ⟨e, set⟩ := setLadder_eq k step (bumpFld .pwrScnt k 0 31 16 1 (modSector k (fun x => { x with clear := 0 }) s))
  have time : (cutTo k step s).time = s.time := by rw [cutTo, set]; rfl
  have cut : (cutTo k step s).cutAt = s.cutAt := by rw [cutTo, set]; rfl
  rw [heatView, ladder_cutTo h, sector_cutTo, band, kept.fld_eq (stands_thmSect hk) (by decide), kept.fld_eq (stands_thmSect hk) (by decide),
    kept _ _ _ stands_thmCtl (by decide), time, cut]
  rfl

/-- A write of THM_SECT beside the temperature and the band. -/
theorem heatView_setThmSect {k h l : Nat} (hk : k < 32) (hl : l ≤ h) (hh : h < 21) (v : Nat) (s : State) :
    heatView k (setFld .thmSect k 0 h l v s) = heatView k s := by
  have kept : KeepsRegs [.thmSect] s (setFld .thmSect k 0 h l v s) := keepsRegs_setFld (stands_thmSect hk) (by decide) h l v s
  rw [heatView, ladder, kept.fld_eq (stands_pwrSect hk) (by decide), kept _ _ _ stands_thmCtl (by decide), band,
    fld_setFld_above _ _ _ _ _ hl (by omega) (by omega), fld_setFld_above _ _ _ _ _ hl (by omega) (by omega)]
  rfl

theorem unsign_lt (v : Int) : unsign 8 v < 256 := by
  unfold unsign
  omega

/-- The temperature is written to THM_SECT. -/
theorem heatView_setTemp {k : Nat} (hk : k < 32) (c : Int) (s : State) :
    heatView k (setFld .thmSect k 0 31 24 (unsign 8 c) s) = { heatView k s with temp := (c % 256).toNat } := by
  have kept : KeepsRegs [.thmSect] s (setFld .thmSect k 0 31 24 (unsign 8 c) s) := keepsRegs_setFld (stands_thmSect hk) (by decide) _ _ _ s
  rw [heatView, ladder, kept.fld_eq (stands_pwrSect hk) (by decide), kept _ _ _ stands_thmCtl (by decide), band,
    fld_setFld_self _ _ _ _ _ (by decide) (by decide), fld_setFld_below _ _ _ _ _ (by decide) (by decide) (by decide) (by decide),
    Nat.mod_eq_of_lt (show unsign 8 c < 2 ^ (31 + 1 - 24) from unsign_lt c)]
  rfl

/-- The band is written to THM_SECT. -/
theorem heatView_setBand {k b : Nat} (hk : k < 32) (h : b < 8) (s : State) :
    heatView k (setFld .thmSect k 0 23 21 b s) = { heatView k s with band := b } := by
  have kept : KeepsRegs [.thmSect] s (setFld .thmSect k 0 23 21 b s) := keepsRegs_setFld (stands_thmSect hk) (by decide) _ _ _ s
  rw [heatView, ladder, kept.fld_eq (stands_pwrSect hk) (by decide), kept _ _ _ stands_thmCtl (by decide), band,
    fld_setFld_self _ _ _ _ _ (by decide) (by decide), fld_setFld_above _ _ _ _ _ (by decide) (by decide) (by decide),
    Nat.mod_eq_of_lt (show b < 2 ^ (23 + 1 - 21) from h)]
  rfl

/-- A sector takes a temperature: it is shown, with the band that follows from it. -/
theorem heatView_sectorTemp {k : Nat} (hk : k < 32) (temp : Int) (s : State) : ∃ b, heatView k (sectorTemp k temp s) =
    { heatView k s with band := bandAt (band s k) (temp / 10), temp := (temp / 10 % 256).toNat, sector := { sector s k with bandAt := b } } := by
  unfold sectorTemp
  extract_lets c old new u1 u2 u3
  have shown : heatView k u2 = { heatView k s with temp := (c % 256).toNat } := by
    refine Eq.trans ?_ (heatView_setTemp hk c s)
    unfold u2
    cases decide (sfld u1 .thmSect k 7 0 < c)
    · rfl
    · exact heatView_setThmSect hk (by decide) (by decide) _ u1
  have same : sector u2 k = sector s k := congrArg HeatView.sector shown
  cases eq : new == old
  case true =>
    refine ⟨(sector s k).bandAt, ?_⟩
    rw [cond_true, shown, show bandAt (band s k) (temp / 10) = band s k from beq_iff_eq.mp eq]
    rfl
  case false =>
    have taken : heatView k u3 = { heatView k s with
        band := new, temp := (c % 256).toNat, sector := { sector s k with bandAt := some u2.time } } := by
      unfold u3
      rw [heatView_setBand hk (bandAt_lt (band_lt s k) c), heatView_modSector, shown, same]
    refine ⟨some u2.time, Eq.trans ?_ taken⟩
    cases old == 4 <;> rfl

/-! A limit of THM_CTL as the view has it. -/

theorem hotCut_congr {s t : State} (h : raw t .thmCtl 0 0 = raw s .thmCtl 0 0) : hotCut t = hotCut s := by rw [hotCut, fld, h]; rfl

theorem rateCut_congr {s t : State} (h : raw t .thmCtl 0 0 = raw s .thmCtl 0 0) : rateCut t = rateCut s := by rw [rateCut, fld, h]; rfl

theorem rateWarn_congr {s t : State} (h : raw t .thmCtl 0 0 = raw s .thmCtl 0 0) : rateWarn t = rateWarn s := by
  rw [rateWarn, fld, h, rateCut_congr h]
  rfl

/-! What a sample is held against. -/

/-- The samples of a sector with one more. -/
def samplesWith (s : State) (k : Nat) (temp : Int) : List Int := (temp :: (sector s k).samples).take 48

def isHot (s : State) (temp : Int) : Bool := decide (((10 * hotCut s : Nat) : Int) ≤ temp)

def risesToWarn (s : State) (l : List Int) : Bool := decide (((8 * rateWarn s : Nat) : Int) ≤ riseOf l)

def risesToCut (s : State) (l : List Int) : Bool := decide (((8 * rateCut s : Nat) : Int) ≤ riseOf l)

/-- 200 µs have passed since the sector's last cut of the present rise. -/
def cutDue (s : State) (k : Nat) : Bool := match (sector s k).cutAt with | some t0 => Nat.ble (t0 + 200000) s.time | none => true

/-- The ladder's step once HOTCUT has been looked at. -/
def hotStep (s : State) (k : Nat) (temp : Int) : Nat := bif isHot s temp && !(sector s k).hot then 15 else ladder s k

theorem hotStep_lt (s : State) (k : Nat) (temp : Int) : hotStep s k temp < 16 := by
  unfold hotStep
  cases isHot s temp && !(sector s k).hot
  · exact ladder_lt s k
  · exact (by decide : 15 < 16)

/-- The sector after a sample, apart from a cut of the rate of rise. -/
def sampled (s : State) (k : Nat) (temp : Int) (b : Option Time) (clear : Nat) : Sector :=
  { sector s k with
    samples := samplesWith s k temp, bandAt := b, clear := clear, hot := isHot s temp, warn := risesToWarn s (samplesWith s k temp),
    cutAt := bif risesToCut s (samplesWith s k temp) then (sector s k).cutAt else none }

/-- The view after a sample, apart from a cut of the rate of rise. -/
def sampledView (s : State) (k : Nat) (temp : Int) (b : Option Time) (clear : Nat) : HeatView :=
  { heatView k s with
    band := bandAt (band s k) (temp / 10), temp := (temp / 10 % 256).toNat, ladder := hotStep s k temp, sector := sampled s k temp b clear }

theorem heatView_rateCutNow {k : Nat} (hk : k < 32) (s : State) : heatView k (rateCutNow k s) = { heatView k s with
    ladder := Nat.min 15 (ladder s k + 2), lastCut := some s.time, sector := { sector s k with clear := 0, cutAt := some s.time } } := by
  have low : Nat.min 15 (ladder s k + 2) < 16 := Nat.lt_of_le_of_lt (Nat.min_le_left _ _) (by decide)
  unfold rateCutNow
  extract_lets u
  have cut := heatView_cutTo hk low s
  have now : u.time = s.time := congrArg HeatView.now cut
  have shown : heatView k { u with cutAt := some u.time } = { heatView k u with lastCut := some u.time } := rfl
  rw [heatView_modSector, shown, cut, now]
  exact congrArg (fun x : Sector => HeatView.mk _ _ _ _ _ _ { x with cutAt := some s.time }) (sector_cutTo ..)

/-- RATE_EVALUATE: the view after a sample. -/
theorem heatView_tempSample {k : Nat} (hk : k < 32) (temp : Int) (s : State) : ∃ b clear, heatView k (tempSample k temp s) =
    bif risesToCut s (samplesWith s k temp) && cutDue s k then
      { sampledView s k temp b clear with
        ladder := Nat.min 15 (hotStep s k temp + 2), lastCut := some s.time
        sector := { sampled s k temp b clear with clear := 0, cutAt := some s.time } }
    else sampledView s k temp b clear := by
  unfold tempSample
  extract_lets u1 x rise u2 hot u3 warn u4 cut due u5
  obtain ⟨b, shown⟩ := heatView_sectorTemp hk temp (modSector k (fun x => { x with samples := (temp :: x.samples).take 48 }) s)
  rw [heatView_modSector, sector_modSector_self] at shown
  have view2 : heatView k u2 = { heatView k s with
      band := bandAt (band s k) (temp / 10), temp := (temp / 10 % 256).toNat
      sector := { sector s k with samples := samplesWith s k temp, bandAt := b } } :=
    (heatView_setThmSect hk (by decide) (by decide) _ u1).trans shown
  have sec2 : sector u2 k = { sector s k with samples := samplesWith s k temp, bandAt := b } := congrArg HeatView.sector view2
  have limits2 : raw u2 .thmCtl 0 0 = raw s .thmCtl 0 0 := congrArg HeatView.limits view2
  have hot_eq : hot = isHot s temp := by unfold hot isHot; rw [hotCut_congr limits2]
  have x_hot : x.hot = (sector s k).hot := congrArg (fun v => v.sector.hot) view2
  have rises : rise = riseOf (samplesWith s k temp) := congrArg (fun v => riseOf v.sector.samples) view2
  have view3 : ∃ clear, heatView k u3 = { heatView k s with
      band := bandAt (band s k) (temp / 10), temp := (temp / 10 % 256).toNat, ladder := hotStep s k temp
      sector := { sector s k with samples := samplesWith s k temp, bandAt := b, clear := clear } } := by
    unfold u3 hotStep
    rw [hot_eq, x_hot]
    cases isHot s temp && !(sector s k).hot
    · exact ⟨(sector s k).clear, view2⟩
    · refine ⟨0, ?_⟩
      rw [cond_true, cond_true, heatView_raise hk, heatView_cutTo hk (by decide), view2, sec2]
  obtain ⟨clear, view3⟩ := view3
  have view4 : heatView k u4 = heatView k u3 := by
    unfold u4
    cases warn && !x.warn
    · rfl
    · rw [cond_true, heatView_raise hk]
  rw [view3] at view4
  have limits3 : raw u3 .thmCtl 0 0 = raw s .thmCtl 0 0 := congrArg HeatView.limits view3
  have limits4 : raw u4 .thmCtl 0 0 = raw s .thmCtl 0 0 := congrArg HeatView.limits view4
  have sec4 : sector u4 k = { sector s k with samples := samplesWith s k temp, bandAt := b, clear := clear } := congrArg HeatView.sector view4
  have warn_eq : warn = risesToWarn s (samplesWith s k temp) := by unfold warn risesToWarn; rw [rateWarn_congr limits3, rises]
  have cut_eq : cut = risesToCut s (samplesWith s k temp) := by unfold cut risesToCut; rw [rateCut_congr limits4, rises]
  have x_cut : x.cutAt = (sector s k).cutAt := congrArg (fun v => v.sector.cutAt) view2
  have now4 : u4.time = s.time := congrArg HeatView.now view4
  have due_eq : due = cutDue s k := by unfold due cutDue; rw [x_cut, now4] <;> rfl
  have view5 : heatView k u5 = sampledView s k temp b clear := by
    unfold u5
    rw [heatView_modSector, view4, sec4, hot_eq, warn_eq, cut_eq]
    rfl
  refine ⟨b, clear, ?_⟩
  rw [cut_eq, due_eq]
  cases risesToCut s (samplesWith s k temp) && cutDue s k
  · exact view5
  · have ladder5 : ladder u5 k = hotStep s k temp := congrArg HeatView.ladder view5
    have now5 : u5.time = s.time := congrArg HeatView.now view5
    have sec5 : sector u5 k = sampled s k temp b clear := congrArg HeatView.sector view5
    rw [cond_true, cond_true, heatView_rateCutNow hk, view5, ladder5, now5, sec5]

/-! The highest reading of a sector (R17, Table 15.8). -/

theorem maxInt_cons (v : Int) {l : List Int} (h : l ≠ []) : maxInt (v :: l) = max v (maxInt l) := by
  cases l with
  | nil => exact absurd rfl h
  | cons w l => rfl

/-- The highest of some readings is one of them, and none is higher. -/
theorem maxInt_spec {l : List Int} (h : l ≠ []) : maxInt l ∈ l ∧ ∀ v ∈ l, v ≤ maxInt l := by
  induction l with
  | nil => exact absurd rfl h
  | cons v l ih =>
    by_cases e : l = []
    · subst e
      exact ⟨List.mem_singleton.mpr rfl, fun w hw => by rw [List.mem_singleton.mp hw]; exact Int.le_refl _⟩
    · obtain ⟨mem, most⟩ := ih e
      rw [maxInt_cons v e]
      refine ⟨?_, fun w hw => ?_⟩
      · rcases max_choice v (maxInt l) with is | is
        · rw [is]; exact List.mem_cons_self
        · rw [is]; exact List.mem_cons_of_mem v mem
      · rcases List.mem_cons.mp hw with rfl | inside
        · exact le_max_left ..
        · exact (most w inside).trans (le_max_right ..)

/-- The readings that count for a sector, with their offsets. -/
def readings (s : State) (k : Nat) (sensors : List Int) : List Int :=
  (sensors.take (sensorCount k)).zipIdx.map fun v => v.1 + ovItem s.overlay 3 (4 * k + v.2)

theorem mem_readings {s : State} {k : Nat} {sensors : List Int} {r : Int} :
    r ∈ readings s k sensors ↔ ∃ n v, n < sensorCount k ∧ sensors[n]? = some v ∧ r = v + ovItem s.overlay 3 (4 * k + n) := by
  unfold readings
  rw [List.mem_map]
  constructor
  · rintro ⟨⟨v, n⟩, mem, rfl⟩
    have got := List.mem_zipIdx_iff_getElem?.mp mem
    rw [List.getElem?_take] at got
    split at got
    next low => exact ⟨n, v, low, got, rfl⟩
    next => contradiction
  · rintro ⟨n, v, low, got, rfl⟩
    refine ⟨(v, n), List.mem_zipIdx_iff_getElem?.mpr ?_, rfl⟩
    rw [List.getElem?_take, if_pos low]
    exact got

theorem readings_ne_nil (s : State) (k : Nat) {sensors : List Int} (h : sensors ≠ []) : readings s k sensors ≠ [] := by
  obtain ⟨v, l, rfl⟩ := List.exists_cons_of_ne_nil h
  have some_ : 0 < sensorCount k := by
    unfold sensorCount
    cases isCompute k <;> decide
  exact List.ne_nil_of_mem (mem_readings.mpr ⟨0, v, some_, rfl, rfl⟩)

/-! ## Brake, converters and regulators (R468, R476) -/

/-- What a cut of every compute sector keeps: the registers but PWR_SECT and PWR_SCNT, and sectors at step 15 stay there. -/
structure CutsOn (s t : State) : Prop where
  regs : KeepsRegs [.pwrSect, .pwrScnt] s t
  full : ∀ k, k < 32 → ladder s k = 15 → ladder t k = 15

theorem CutsOn.refl (s : State) : CutsOn s s := ⟨KeepsRegs.refl _ s, fun _ _ => id⟩

theorem CutsOn.trans {s t u : State} (h : CutsOn s t) (g : CutsOn t u) : CutsOn s u :=
  ⟨h.regs.trans g.regs, fun k hk => g.full k hk ∘ h.full k hk⟩

/-- A cut leaves the ladder of another sector. -/
theorem ladder_cutTo_ne {k n : Nat} (hk : k < 32) (hn : n < 32) (apart : n ≠ k) (step : Nat) (s : State) :
    ladder (cutTo k step s) n = ladder s n := by
  have other : regAddr .pwrSect n 0 ≠ regAddr .pwrSect k 0 :=
    regAddr_ne_of_stands (stands_pwrSect hn) (stands_pwrSect hk) fun e => apart (by rw [Place.mk.injEq] at e; exact e.2.1)
  have count : regAddr .pwrSect n 0 ≠ regAddr .pwrScnt k 0 := regAddr_ne_of_stands (stands_pwrSect hn) (stands_pwrScnt hk) (by simp)
  obtain ⟨e, set⟩ := setLadder_eq k step (bumpFld .pwrScnt k 0 31 16 1 (modSector k (fun x => { x with clear := 0 }) s))
  rw [cutTo, set]
  exact (fld_setFld_ne _ _ other).trans (fld_setFld_ne _ _ count)

theorem cutsOn_cutTo {k : Nat} (hk : k < 32) (s : State) : CutsOn s (cutTo k 15 s) := by
  refine ⟨keepsRegs_cutTo hk 15 s, fun n hn full => ?_⟩
  by_cases e : n = k
  · rw [e]
    exact ladder_cutTo (by decide) k s
  · rw [ladder_cutTo_ne hk hn e, full]

/-- Every compute sector goes to step 15; no register changes but theirs. -/
theorem cutCompute_spec (s : State) : KeepsRegs [.pwrSect, .pwrScnt] s (cutCompute s) ∧ ∀ k, k < 24 → ladder (cutCompute s) k = 15 := by
  have step : ∀ k ∈ List.range 24, ∀ s, CutsOn s (cutTo k 15 s) := fun k hk s =>
    cutsOn_cutTo (Nat.lt_trans (List.mem_range.mp hk) (by decide)) s
  refine ⟨(rel_foldl CutsOn.refl CutsOn.trans step s).regs, fun k hk => ?_⟩
  obtain ⟨u, -, after⟩ := rel_foldl_at CutsOn.refl CutsOn.trans step (List.mem_range.mpr hk) s
  exact after.full k (by omega) (ladder_cutTo (by decide) k u)

theorem stands_pwrEmerg : Stands .pwrEmerg 0 0 := stands_of_lt (by decide) (by decide) rfl

/-- PWR_EMERG is not a sector's register. -/
theorem ladder_setEmerg {k : Nat} (hk : k < 32) (h l v : Nat) (s : State) : ladder (setFld .pwrEmerg 0 0 h l v s) k = ladder s k :=
  fld_setFld_ne s v (regAddr_ne_of_stands (stands_pwrSect hk) stands_pwrEmerg (by simp))

theorem flag_setFld_b01 (s : State) (r : Reg) (i j : Nat) {n : Nat} (hn : n < 32) (b : Bool) :
    flag (setFld r i j n n (b01 b) s) r i j n = b := by
  rw [flag_eq_fld, fld_setFld_self _ _ _ _ _ (Nat.le_refl n) hn, Nat.add_sub_cancel_left]
  cases b <;> rfl

theorem pwrBrake_leaves (low : Bool) (s : State) : flag (pwrBrake low s) .pwrEmerg 0 0 3 = low ∧
    ∀ k, k < 24 → ladder (pwrBrake low s) k = (if low = true then 15 else ladder s k) := by
  obtain ⟨kept, full⟩ := cutCompute_spec (setFld .pwrEmerg 0 0 3 3 (b01 low) s)
  have shown := flag_setFld_b01 s .pwrEmerg 0 0 (n := 3) (by decide) low
  cases low
  case false => exact ⟨shown, fun k hk => ladder_setEmerg (by omega) ..⟩
  case true => exact ⟨(kept.flag_eq stands_pwrEmerg (by decide) 3).trans shown, full⟩

/-- A converter's fault that acts shows in PWR_EMERG, and cuts every compute sector when it is new. -/
theorem converterFault_acts {confirmed : Bool} {s : State} (acts : confirmed = true ∨ dutyRuns s 4 = false) :
    flag (converterFault true confirmed s) .pwrEmerg 0 0 2 = true ∧
      (flag s .pwrEmerg 0 0 2 = false → ∀ k, k < 24 → ladder (converterFault true confirmed s) k = 15) := by
  have act : (confirmed || !(dutyRuns s 4)) = true := by
    rcases acts with yes | gone
    · rw [yes, Bool.true_or]
    · rw [gone, Bool.not_false, Bool.or_true]
  have acted : converterFault true confirmed s = bif flag s .pwrEmerg 0 0 2 then setFld .pwrEmerg 0 0 2 2 1 s
      else raise 0xA003 1 none 0 0 (cutCompute (setFld .pwrEmerg 0 0 2 2 1 s)) := by
    unfold converterFault
    rw [cond_true, act, cond_true]
  rw [acted]
  have shown : flag (setFld .pwrEmerg 0 0 2 2 1 s) .pwrEmerg 0 0 2 = true := flag_setFld_one s .pwrEmerg 0 0 (by decide)
  obtain ⟨kept, full⟩ := cutCompute_spec (setFld .pwrEmerg 0 0 2 2 1 s)
  generalize cutCompute (setFld .pwrEmerg 0 0 2 2 1 s) = u at kept full
  cases flag s .pwrEmerg 0 0 2
  case true => exact ⟨shown, fun e => absurd e (by decide)⟩
  case false =>
    rw [cond_false]
    refine ⟨?_, fun _ k hk => ?_⟩
    · rw [(tells_raise ..).regs.flag_eq stands_pwrEmerg (by decide), kept.flag_eq stands_pwrEmerg (by decide), shown]
    · rw [ladder, fld_raise (stands_pwrSect (by omega)) (by decide), ← ladder, full k hk]

theorem converterFault_waits {confirmed : Bool} {s : State} (waits : ¬ (confirmed = true ∨ dutyRuns s 4 = false)) :
    converterFault true confirmed s = s := by
  rw [not_or, Bool.not_eq_true, Bool.not_eq_false] at waits
  obtain ⟨no, runs⟩ := waits
  unfold converterFault
  dsimp only
  rw [cond_true, no, runs, Bool.not_true, Bool.or_self, cond_false]

theorem converterFault_ends (confirmed : Bool) (s : State) : flag (converterFault false confirmed s) .pwrEmerg 0 0 2 = false ∧
    ∀ k, k < 24 → ladder (converterFault false confirmed s) k = ladder s k := by
  unfold converterFault
  dsimp only
  rw [cond_false]
  cases was : flag s .pwrEmerg 0 0 2
  case false => exact ⟨was, fun _ _ => rfl⟩
  case true => exact ⟨flag_setFld_b01 s .pwrEmerg 0 0 (n := 2) (by decide) false, fun k hk => ladder_setEmerg (by omega) ..⟩

theorem regulatorFault_eq (k : Nat) (s : State) : regulatorFault k s =
    setFld .pwrSect k 0 27 0 0 (modSector k (fun x => { x with regOff := true }) (causeSector k 0x030A s)) := rfl

theorem regulatorFault_leaves (k : Nat) (s : State) : (sector (regulatorFault k s) k).regOff = true ∧
    fld (regulatorFault k s) .pwrSect k 0 27 0 = 0 ∧ (isUp s 3 k = true → unitState (regulatorFault k s) 3 k = .draining) := by
  have fenced (up : isUp s 3 k = true) : unitState (causeSector k 0x030A s) 3 k = .draining := unitState_causeSector up 0x030A
  rw [regulatorFault_eq]
  generalize causeSector k 0x030A s = u at fenced
  have off := sector_modSector_self k (fun x => { x with regOff := true }) u
  exact ⟨congrArg Sector.regOff off, fld_setFld_self _ _ _ _ _ (by decide) (by decide), fenced⟩

/-! ## Package power (R466, R469) -/

/-- A power sample shows the mean of the last ten and the highest mean. -/
theorem packagePower_leaves (mw : Nat) (new : List (Option Nat)) (s : State) :
    let rails := (List.range 4).map (railPower s new)
    let pkg := ((mw + sumNat rails) :: s.pkg).take 10
    let mean := sumNat pkg / pkg.length
    let w := Nat.min 65535 (mean / 1000)
    let v := packagePower mw new s
    v.rails = rails ∧ v.pkg = pkg ∧ (v.pkgOver = true ↔ if s.pkgOver = true then 980 * effTdp s ≤ mean else 1000 * effTdp s < mean) ∧
      fld v .pwrPkg 0 0 15 0 = w ∧ fld v .pwrPkg 0 0 31 16 = Nat.max w (fld s .pwrPkg 0 0 31 16) := by
  intro rails pkg mean w v
  have low : w < 2 ^ (15 + 1 - 0) := Nat.lt_of_le_of_lt (Nat.min_le_left 65535 _) (by decide)
  have high : Nat.max w (fld s .pwrPkg 0 0 31 16) < 2 ^ (31 + 1 - 16) := Nat.max_lt.mpr ⟨low, bits_lt _ 31 16⟩
  refine ⟨rfl, rfl, ?_, ?_, ?_⟩
  · have flagged : v.pkgOver = bif s.pkgOver then Nat.ble (980 * effTdp s) mean else Nat.blt (1000 * effTdp s) mean := rfl
    rw [flagged]
    cases s.pkgOver
    · exact iff_of_eq Nat.blt_eq
    · exact iff_of_eq Nat.ble_eq
  · unfold v packagePower
    dsimp only
    rw [fld_setFld_below _ _ _ _ _ (by decide) (by decide) (by decide) (by decide), fld_setFld_self _ _ _ _ _ (by decide) (by decide)]
    exact Nat.mod_eq_of_lt low
  · unfold v packagePower
    dsimp only
    rw [fld_setFld_self _ _ _ _ _ (by decide) (by decide), fld_setFld_above _ _ _ _ _ (by decide) (by decide) (by decide)]
    exact Nat.mod_eq_of_lt high

/-! ## Path monitors (R480) -/

/-- The clock of a sector after an alarm: 100 MHz lower, not below 0.80 GHz. -/
def alarmClock (k : Nat) (s : State) : State :=
  setFld .pwrSect k 0 27 20 (bif (sector s k).regOff then fld s .pwrSect k 0 27 20 else Nat.max 32 (fld s .pwrSect k 0 27 20 - 4))
    (modSector k (fun x => { x with alarmAt := some s.time }) s)

/-- The Warden raises the guard of a sector. -/
def alarmGuard (k : Nat) (s : State) : State :=
  bif coreRuns s (wardenOf k) then modSector k (fun x => { x with guard := Nat.min 50 (x.guard + 10) }) s else s

theorem pathAlarm_wide {k slack : Nat} (h : 30 ≤ slack) (s : State) : pathAlarm k slack s = s := by
  unfold pathAlarm
  rw [Nat.ble_eq_true_of_le h, cond_true]

theorem pathAlarm_thin {k slack : Nat} (h : slack < 30) (s : State) :
    pathAlarm k slack s = raise 0xA004 2 none (unitId 3 k) 0 (bumpFld .ageSect k 0 7 0 1 (alarmGuard k (alarmClock k s))) := by
  have thin : Nat.ble 30 slack = false := by rw [Bool.eq_false_iff, ne_eq, Nat.ble_eq]; omega
  unfold pathAlarm
  rw [thin, cond_false]
  rfl

theorem alarmGuard_ctl (k : Nat) (s : State) : (alarmGuard k s).ctl = s.ctl := by
  unfold alarmGuard
  cases coreRuns s (wardenOf k) <;> rfl

theorem fld_alarmGuard (k : Nat) (s : State) (r : Reg) (i j h l : Nat) : fld (alarmGuard k s) r i j h l = fld s r i j h l := by
  rw [fld, raw, alarmGuard_ctl]
  rfl

theorem sector_alarmGuard (k : Nat) (s : State) : sector (alarmGuard k s) k =
    { sector s k with guard := if coreRuns s (wardenOf k) = true then Nat.min 50 ((sector s k).guard + 10) else (sector s k).guard } := by
  unfold alarmGuard
  cases coreRuns s (wardenOf k)
  · rfl
  · exact sector_modSector_self k (fun x => { x with guard := Nat.min 50 (x.guard + 10) }) s

section
variable {k : Nat} (hk : k < 24)
include hk

theorem stands_ageSect : Stands .ageSect k 0 := stands_of_lt (show k < 32 by omega) (by decide) rfl

theorem stands_wardenOf : Stands .fwpStat (wardenOf k) 0 := by
  have compute : isCompute k = true := by rw [isCompute, Nat.blt_eq]; exact hk
  refine stands_of_lt (show wardenOf k < 35 from ?_) (by decide) rfl
  rw [wardenOf, compute, cond_true]
  omega

theorem coreRuns_alarmClock (s : State) : coreRuns (alarmClock k s) (wardenOf k) = coreRuns s (wardenOf k) := by
  have stat : fld (alarmClock k s) .fwpStat (wardenOf k) 0 31 30 = fld s .fwpStat (wardenOf k) 0 31 30 :=
    fld_setFld_ne _ _ (regAddr_ne_of_stands (stands_wardenOf hk) (stands_pwrSect (by omega)) (by simp))
  rw [coreRuns, stat]
  rfl

theorem pathAlarm_leaves {slack : Nat} (h : slack < 30) (s : State) :
    let v := pathAlarm k slack s
    fld v .pwrSect k 0 27 20 =
        (if (sector s k).regOff = true then fld s .pwrSect k 0 27 20 else Nat.max 32 (fld s .pwrSect k 0 27 20 - 4)) ∧
      (sector v k).alarmAt = some s.time ∧
      (sector v k).guard = (if coreRuns s (wardenOf k) = true then Nat.min 50 ((sector s k).guard + 10) else (sector s k).guard) ∧
      fld v .ageSect k 0 7 0 = Nat.min 255 (fld s .ageSect k 0 7 0 + 1) := by
  have sect : Stands .pwrSect k 0 := stands_pwrSect (by omega)
  have apart : regAddr .pwrSect k 0 ≠ regAddr .ageSect k 0 := regAddr_ne_of_stands sect (stands_ageSect hk) (by simp)
  have clock : sector (alarmClock k s) k = { sector s k with alarmAt := some s.time } :=
    sector_modSector_self k (fun x => { x with alarmAt := some s.time }) s
  have guarded : sector (bumpFld .ageSect k 0 7 0 1 (alarmGuard k (alarmClock k s))) k = sector (alarmGuard k (alarmClock k s)) k := rfl
  have code : fld s .pwrSect k 0 27 20 < 2 ^ (27 + 1 - 20) := bits_lt _ 27 20
  dsimp only
  rw [pathAlarm_thin h, sector_raise, guarded, sector_alarmGuard, clock, coreRuns_alarmClock hk]
  refine ⟨?_, rfl, rfl, ?_⟩
  · rw [fld_raise sect (by decide), bumpFld, fld_setFld_ne _ _ apart, fld_alarmGuard, alarmClock,
      fld_setFld_self _ _ _ _ _ (by decide) (by decide)]
    cases (sector s k).regOff
    · exact Nat.mod_eq_of_lt (Nat.max_lt.mpr ⟨by decide, by omega⟩)
    · exact Nat.mod_eq_of_lt code
  · rw [fld_raise (stands_ageSect hk) (by decide), fld_bumpFld_self _ _ _ _ (by decide) (by decide), fld_alarmGuard, alarmClock,
      fld_setFld_ne _ _ apart.symm]
    rfl

end

/-! ## The thermal trip (R478) -/

/-- A table whose keys are below a place finds there what stands behind it. -/
theorem tget?_filter_blt_append {α : Type} (l : Tab α) (n : Nat) (v : α) (top : Nat) (h : top ≤ n) :
    tget? (l.filter (fun c => Nat.blt c.1 top) ++ [(n, v)]) n = some v := by
  induction l with
  | nil => simp [tget?]
  | cons x l ih =>
    cases low : Nat.blt x.1 top
    case false => rw [List.filter_cons_of_neg (by simp [low]), ih]
    case true =>
      have apart : x.1 ≠ n := by rw [Nat.blt_eq] at low; omega
      rw [List.filter_cons, if_pos low, List.cons_append, tget?, beq_false_of_ne apart, cond_false, ih]

theorem thermalTrip_cool {temp : Int} {s : State} (sensor : Nat) (cool : temp < 118 ∨ s.tripped = true) : thermalTrip sensor temp s = s := by
  have no : (s.tripped || decide (temp < 118)) = true := by
    rcases cool with low | latched
    · rw [decide_eq_true low, Bool.or_true]
    · rw [latched, Bool.true_or]
  unfold thermalTrip
  rw [no, cond_true]

/-- At 118 °C the trip is latched, and lasers and regulators but that of H0.S0 go off. -/
theorem thermalTrip_hot {sensor : Nat} {temp : Int} {s : State} (hs : sensor < 256) (hot : 118 ≤ temp) (fresh : s.tripped = false) :
    let v := thermalTrip sensor temp s
    v.tripped = true ∧ raw v .thmTrip 0 0 = 2 ^ 31 + sensor * 256 + (temp % 256).toNat ∧ (∀ e, (engine v e).lit = false) ∧
      (∀ k, k ≠ 24 → (sector v k).regOff = true) ∧ (sector v 24).regOff = false ∧ v.otp = s.otp := by
  have yes : (s.tripped || decide (temp < 118)) = false := by
    rw [fresh, Bool.false_or, decide_eq_false_iff_not]
    omega
  have low : (temp % 256).toNat < 256 := by omega
  have held := tget?_filter_blt_append s.ctl (regAddr .thmTrip 0 0) (BitVec.ofNat 32 (2 ^ 31 + sensor * 256 + unsign 8 temp)) 0x100000 (by decide)
  unfold thermalTrip
  rw [yes, cond_false]
  refine ⟨rfl, ?_, fun e => rfl, fun k hk => ?_, ?_, rfl⟩
  · show BitVec.toNat (Option.getD (tget? (s.ctl.filter (fun c => Nat.blt c.1 0x100000) ++ [(regAddr .thmTrip 0 0,
      BitVec.ofNat 32 (2 ^ 31 + sensor * 256 + unsign 8 temp))]) (regAddr .thmTrip 0 0)) _) = _
    rw [held, Option.getD_some, BitVec.toNat_ofNat]
    exact Nat.mod_eq_of_lt (by unfold unsign; omega)
  · show (tget (tset _ 24 _) k Sector.reset).regOff = true
    rw [tget_tset_ne _ 24 k _ _ hk]
    rfl
  · show (tget (tset _ 24 _) 24 Sector.reset).regOff = false
    rw [tget_tset_self]

/-- The statement's readings of a ladder step. -/
theorem ladderStep_leaves {k amps : Nat} (hk : k < 32) (s : State) :
    let x := sector s k
    let v := ladderStep k amps s
    (sectorOver s k amps = true → ladder v k = Nat.min 15 (ladder s k + 1) ∧ (sector v k).clear = 0 ∧
      fld v .pwrScnt k 0 15 0 = (if ladder s k < 15 then Nat.min 65535 (fld s .pwrScnt k 0 15 0 + 1) else fld s .pwrScnt k 0 15 0)) ∧
    (sectorOver s k amps = false → x.warn = true → ladder v k = ladder s k ∧ (sector v k).clear = 0) ∧
    (sectorOver s k amps = false → x.warn = false →
      if 2000000 ≤ x.clear + 20000 ∧ 0 < ladder s k ∧ ¬ (k < 24 ∧ flag s .pwrEmerg 0 0 3 = true)
      then ladder v k = ladder s k - 1 ∧ (sector v k).clear = 0 else ladder v k = ladder s k ∧ (sector v k).clear = x.clear + 20000) := by
  intro x v
  unfold v
  refine ⟨fun above => ?_, fun under warned => ?_, fun under calm => ?_⟩
  · obtain ⟨-, up, count⟩ := fld_stepUp (s := showAmps k amps s) hk
    rw [ladder_showAmps] at up count
    rw [ladderStep_over hk above]
    refine ⟨up, clear_restartClear .., count.trans ?_⟩
    rw [showAmps, fld_setFld_ne _ _ (pwrScnt_ne_pwrSect hk)]
  · rw [ladderStep_warn hk under warned]
    exact ⟨ladder_showAmps, clear_restartClear ..⟩
  · have down : StepsDown s k → ladder (ladderStep k amps s) k = ladder s k - 1 ∧ (sector (ladderStep k amps s) k).clear = 0 := fun down => by
      rw [ladderStep_down hk under calm down, sector_setLadder]
      have := ladder_lt s k
      exact ⟨ladder_setLadder (by omega) k _, clear_restartClear ..⟩
    have stay : ¬ StepsDown s k → ladder (ladderStep k amps s) k = ladder s k ∧
        (sector (ladderStep k amps s) k).clear = (sector s k).clear + 20000 := fun stay => by
      rw [ladderStep_wait hk under calm stay]
      exact ⟨ladder_showAmps, clear_waitClear ..⟩
    unfold StepsDown at down stay
    -- 2 ms as a number without a value: the comparison is not evaluated
    generalize 2000000 = clearTime at down stay ⊢
    exact ite_prop_iff_and.mpr ⟨down, stay⟩

theorem cutDue_iff (s : State) (k : Nat) : cutDue s k = true ↔ ∀ t0, (sector s k).cutAt = some t0 → t0 + 200000 ≤ s.time := by
  unfold cutDue
  cases (sector s k).cutAt with
  | none => exact ⟨fun _ _ none_ => absurd none_ (by simp), fun _ => rfl⟩
  | some t0 =>
    rw [Nat.ble_eq]
    exact ⟨fun due t1 same => Option.some.inj same ▸ due, fun due => due t0 rfl⟩

/-- The statement's readings of a temperature sample. -/
theorem tempSample_leaves {k : Nat} (hk : k < 32) (temp : Int) (s : State) :
    let x := sector s k
    let l := (temp :: x.samples).take 48
    let hot := 10 * (hotCut s : Int) ≤ temp
    let cut := 8 * (rateCut s : Int) ≤ riseOf l
    let due := ∀ t0, x.cutAt = some t0 → t0 + 200000 ≤ s.time
    let step := if hot ∧ x.hot = false then 15 else ladder s k
    let v := tempSample k temp s
    band v k = bandAt (band s k) (temp / 10) ∧
      fld v .thmSect k 0 31 24 = (temp / 10 % 256).toNat ∧ (sector v k).samples = l ∧ ((sector v k).hot = true ↔ hot) ∧
      ((sector v k).warn = true ↔ 8 * (rateWarn s : Int) ≤ riseOf l) ∧
      (cut → due → ladder v k = Nat.min 15 (step + 2) ∧ (sector v k).cutAt = some s.time ∧ v.cutAt = some s.time) ∧
      (cut → ¬ due → ladder v k = step ∧ (sector v k).cutAt = x.cutAt) ∧
      (¬ cut → ladder v k = step ∧ (sector v k).cutAt = none) := by
  intro x l hot cut due step v
  obtain ⟨b, clear, view⟩ := heatView_tempSample hk temp s
  have is_hot : isHot s temp = true ↔ hot := by rw [isHot, decide_eq_true_eq]; rfl
  have is_warn : risesToWarn s l = true ↔ 8 * (rateWarn s : Int) ≤ riseOf l := by rw [risesToWarn, decide_eq_true_eq]; rfl
  have is_cut : risesToCut s l = true ↔ cut := by rw [risesToCut, decide_eq_true_eq]; rfl
  have stepped : hotStep s k temp = step := by
    unfold hotStep step
    rw [Bool.cond_eq_ite]
    simp only [Bool.and_eq_true, Bool.not_eq_true', is_hot]
    rfl
  by_cases cuts : cut
  · by_cases dues : due
    · rw [show risesToCut s (samplesWith s k temp) = true from is_cut.mpr cuts, (cutDue_iff s k).mpr dues, Bool.and_self, cond_true, stepped] at view
      have sec : sector v k = { sampled s k temp b clear with clear := 0, cutAt := some s.time } := congrArg HeatView.sector view
      rw [sec]
      exact ⟨congrArg HeatView.band view, congrArg HeatView.temp view, rfl, is_hot, is_warn,
        fun _ _ => ⟨congrArg HeatView.ladder view, rfl, congrArg HeatView.lastCut view⟩, fun _ no => absurd dues no, fun no => absurd cuts no⟩
    · have sec : heatView k v = sampledView s k temp b clear := by
        rw [view, Bool.eq_false_iff.mpr (mt (cutDue_iff s k).mp dues), Bool.and_false, cond_false]
      have same : sector v k = sampled s k temp b clear := congrArg HeatView.sector sec
      have held : (sampled s k temp b clear).cutAt = x.cutAt := by
        unfold sampled
        rw [show risesToCut s (samplesWith s k temp) = true from is_cut.mpr cuts]
        rfl
      rw [same]
      exact ⟨congrArg HeatView.band sec, congrArg HeatView.temp sec, rfl, is_hot, is_warn, fun _ yes => absurd yes dues,
        fun _ _ => ⟨(congrArg HeatView.ladder sec).trans stepped, held⟩, fun no => absurd cuts no⟩
  · have gone : risesToCut s (samplesWith s k temp) = false := Bool.eq_false_iff.mpr (mt is_cut.mp cuts)
    have sec : heatView k v = sampledView s k temp b clear := by rw [view, gone, Bool.false_and, cond_false]
    have same : sector v k = sampled s k temp b clear := congrArg HeatView.sector sec
    have held : (sampled s k temp b clear).cutAt = none := by
      unfold sampled
      rw [gone]
      rfl
    rw [same]
    exact ⟨congrArg HeatView.band sec, congrArg HeatView.temp sec, rfl, is_hot, is_warn, fun yes => absurd yes cuts, fun yes => absurd yes cuts,
      fun _ => ⟨(congrArg HeatView.ladder sec).trans stepped, held⟩⟩

theorem hottest_spec (s : State) (k : Nat) {sensors : List Int} (h : sensors ≠ []) :
    (∀ n v, n < sensorCount k → sensors[n]? = some v → v + ovItem s.overlay 3 (4 * k + n) ≤ hottest s k sensors) ∧
      ∃ n v, n < sensorCount k ∧ sensors[n]? = some v ∧ hottest s k sensors = v + ovItem s.overlay 3 (4 * k + n) := by
  obtain ⟨mem, most⟩ := maxInt_spec (readings_ne_nil s k h)
  exact ⟨fun n v low got => most _ (mem_readings.mpr ⟨n, v, low, got, rfl⟩), mem_readings.mp mem⟩

/-- Settles O56, command by command. The running mean of the last ten samples (log entry 197), whole and tenth degrees (189), work clocks from
the first plan on (192) and the floor of an alarm (292) are the model's reading. -/
theorem powerAndHeat : Obligations.PowerAndHeat := by
  unfold Obligations.PowerAndHeat
  intro t s
  refine ⟨fun k clocks reg => ⟨_, rfl, ?clock⟩, fun k off => congrArg _ (workClock_off (s := atTime t s) off),
    fun k amps => ⟨_, rfl, amps_ladderStep (s := atTime t s) k.isLt, ladderStep_leaves (s := atTime t s) k.isLt⟩,
    fun k sensors => ⟨_, rfl, tempSample_leaves k.isLt (hottest s k sensors) (atTime t s)⟩,
    fun k sensors some_ => hottest_spec s k some_, fun low => ⟨_, rfl, pwrBrake_leaves low (atTime t s)⟩,
    fun confirmed => ⟨fun acts => ⟨_, rfl, converterFault_acts (s := atTime t s) acts⟩,
      fun waits => congrArg _ (converterFault_waits (s := atTime t s) waits), _, rfl, converterFault_ends confirmed (atTime t s)⟩,
    fun k => ⟨_, rfl, regulatorFault_leaves k (atTime t s)⟩, fun mw new => ⟨_, rfl, packagePower_leaves mw new (atTime t s)⟩,
    fun mv amps => ?feed, fun k slack => ⟨fun wide => congrArg _ (pathAlarm_wide wide (atTime t s)),
      fun thin => ⟨_, rfl, pathAlarm_leaves k.isLt thin (atTime t s)⟩⟩,
    fun sensor temp => ⟨fun cool => congrArg _ (thermalTrip_cool (s := atTime t s) _ cool),
      fun hot fresh => ⟨_, rfl, thermalTrip_hot (s := atTime t s) sensor.isLt hot fresh⟩⟩⟩
  case clock =>
    obtain ⟨clock, gate, volt, target, step⟩ := workClock_leaves (k := k) (s := atTime t s) clocks reg
    have cap : clockCap (atTime t s) k = clockCap s k := by
      rw [clockCap, fmaxSector_atTime]
      rfl
    rw [cap] at clock gate volt
    refine ⟨clock, gate.trans ?_, volt, target, step⟩
    rw [clockGate, Bool.cond_eq_ite]
    simp only [Nat.blt_eq]
    rfl
  case feed =>
    show Host.Outcome.next (avsReadback amps (atTime t s)) = _
    unfold avsReadback
    rw [Bool.cond_eq_ite]
    have decided : Nat.blt (fld s .pwrFeed 0 0 31 16) amps = decide (fld s .pwrFeed 0 0 31 16 < amps) := by
      rw [Bool.eq_iff_iff, Nat.blt_eq, decide_eq_true_eq]
    exact congrArg (fun b => Host.Outcome.next (if dutyRuns s 4 = true then { atTime t s with feedOver := b } else atTime t s)) decided

end Sys2Proof.Machine
end

section
/-! SUPPORT. Messages and the requests of a mailbox as the statement of chapter 13 has them (R421 to R432, R434, R504). -/

namespace Sys2Proof.Machine

/-! ## Receiving (R427, R428) -/

theorem renewLease_mailboxes (k : Nat) (s : State) : (renewLease k s).mailboxes = s.mailboxes := by
  unfold renewLease
  cases Nat.blt k 32 && (session s k).state == .open_ <;> rfl

theorem mailbox_renewLease (k n : Nat) (s : State) : mailbox (renewLease k s) n = mailbox s n := by
  rw [mailbox, renewLease_mailboxes, mailbox]

/-- A full mailbox refuses. -/
theorem receiveStatus_full {s : State} {k : Nat} {m : Message} (full : 64 ≤ (mailbox s k).queue.length) : receiveStatus s k m ≠ 0 := by
  unfold receiveStatus
  extract_lets v
  rw [Nat.ble_eq_true_of_le full, cond_true]
  cases sessionPasses k m
  · exact (by decide : (0x0810 : Status) ≠ 0)
  rw [Bool.not_true, cond_false]
  cases version : v == 0
  · exact beq_eq_false_iff_ne.mp version
  rw [Bool.not_true, cond_false]
  cases typeAllowed k m.typ.toNat
  · exact (by decide : (0x0811 : Status) ≠ 0)
  rw [Bool.not_true, cond_false]
  cases state : stateStatus s k m.typ.toNat == 0
  · exact beq_eq_false_iff_ne.mp state
  · exact (by decide : (0x0802 : Status) ≠ 0)

section
variable {qp k : Nat} {m : Message} {s : State} (box : qpMailbox s qp = some k)
include box

theorem messageReceive_bad (bad : headerPasses m = false) : messageReceive qp m s = emit (.reply qp (refusal m 0x0810)) s := by
  simp only [messageReceive, box, bad, Bool.not_false, cond_true]

variable (good : headerPasses m = true)
include good

theorem messageReceive_again {r : Reply} (again : (mailbox s k).replies.find? (fun r => r.seq == m.seq) = some r) :
    messageReceive qp m s = emit (.reply qp r) (renewLease k s) := by
  simp only [messageReceive, box, good, mailbox_renewLease, again, Bool.not_true, cond_false]

variable (fresh : (mailbox s k).replies.find? (fun r => r.seq == m.seq) = none)
include fresh

theorem messageReceive_queued (queued : ∃ o ∈ (mailbox s k).queue, o.seq = m.seq) : messageReceive qp m s = renewLease k s := by
  have any : ((mailbox s k).queue.any fun o => o.seq == m.seq) = true := by
    obtain ⟨o, mem, same⟩ := queued
    exact List.any_eq_true.mpr ⟨o, mem, beq_iff_eq.mpr same⟩
  simp only [messageReceive, box, good, mailbox_renewLease, fresh, any, Bool.not_true, cond_false, cond_true]

theorem messageReceive_new (new : ∀ o ∈ (mailbox s k).queue, o.seq ≠ m.seq) : messageReceive qp m s =
    if receiveStatus (renewLease k s) k m = 0 then setMailbox k { mailbox s k with queue := (mailbox s k).queue ++ [m] } (renewLease k s)
    else emit (.reply qp (refusal m (receiveStatus (renewLease k s) k m))) (renewLease k s) := by
  have none_ : ((mailbox s k).queue.any fun o => o.seq == m.seq) = false :=
    List.any_eq_false.mpr fun o mem same => new o mem (beq_iff_eq.mp same)
  simp only [messageReceive, box, good, mailbox_renewLease, fresh, none_, Bool.not_true, cond_false]
  rw [Bool.cond_eq_ite]
  simp only [beq_iff_eq]

end

/-- MESSAGE_RECEIVE on a part that is awake. -/
theorem received {qp : Nat} {m : Message} {t : Time} {s : State} (wakes : awake s = true) (normal : s.recovery = false) :
    (bif awake s && !s.recovery then messageReceive qp m (atTime t s) else atTime t s) = messageReceive qp m (atTime t s) := by
  rw [wakes, normal]
  rfl

/-- A message that reaches no mailbox changes nothing. -/
theorem messageReceive_lost {qp : Nat} {m : Message} {t : Time} {s : State}
    (lost : awake s = false ∨ s.recovery = true ∨ qpMailbox s qp = none) :
    (bif awake s && !s.recovery then messageReceive qp m (atTime t s) else atTime t s) = atTime t s := by
  rcases lost with asleep | recovers | none_
  · rw [asleep]
    rfl
  · rw [recovers, Bool.not_true, Bool.and_false]
    rfl
  · have box : qpMailbox (atTime t s) qp = none := none_
    have kept : messageReceive qp m (atTime t s) = atTime t s := by simp only [messageReceive, box]
    rw [kept]
    cases awake s && !s.recovery <;> rfl

/-! ## Serving -/

/-- The request at the front, once it has been taken out of the mailbox. -/
def taken (s : State) (k : Nat) (rest : List Message) : State := setMailbox k { mailbox s k with queue := rest } s

section
variable {s : State} {qp typ k : Nat} {m : Message} {rest : List Message}

/-- What stands at the front of a mailbox that serves is answered with what its request comes to. -/
theorem serve_front {force notify : Option Bool} (f : Nat → State → Served) (box : qpMailbox s qp = some k)
    (front : (mailbox s k).queue = m :: rest) (runs : awake s = true ∧ s.recovery = false ∧ dutyRuns s 1 = true) (flows : qpPaused s qp = false)
    (type_ : m.typ.toNat = typ) (forced : ∀ b, force = some b → bit m.flags.toNat 1 = b) (noted : ∀ b, notify = some b → bit m.flags.toNat 2 = b) :
    serve qp typ force notify f s = replied s qp k m rest fun y =>
      bif Nat.blt k 32 && ((session s k).state == .closed || (session s k).state == .freeing) then ends 0x0815 y else f k y := by
  obtain ⟨wake, normal, steward⟩ := runs
  have flagged : ∀ (o : Option Bool) (n : Nat), (∀ b, o = some b → bit m.flags.toNat n = b) → o = none ∨ o = some (bit m.flags.toNat n) := by
    intro o n h
    cases o with
    | none => exact .inl rfl
    | some b => exact .inr (congrArg some (h b rfl).symm)
  unfold serve replied
  rcases flagged force 1 forced with rfl | rfl <;> rcases flagged notify 2 noted with rfl | rfl <;>
    simp only [box, front, wake, normal, steward, flows, type_, Bool.not_false, Bool.and_true, beq_self_eq_true, cond_true]

theorem serve_eq (h : Serves s qp typ k m rest) {force notify : Option Bool} (f : Nat → State → Served)
    (forced : ∀ b, force = some b → bit m.flags.toNat 1 = b) (noted : ∀ b, notify = some b → bit m.flags.toNat 2 = b) :
    serve qp typ force notify f s = replied s qp k m rest (f k) := by
  obtain ⟨box, front, runs, flows, type_, stands⟩ := h
  have there : (Nat.blt k 32 && ((session s k).state == .closed || (session s k).state == .freeing)) = false := by
    cases low : Nat.blt k 32
    · rfl
    · obtain ⟨open_, kept⟩ := stands (Nat.blt_eq.mp low)
      rw [beq_false_of_ne open_, beq_false_of_ne kept]
      rfl
  rw [serve_front f box front runs flows type_ forced noted, there]
  rfl

/-- A served request is what it comes to once it has been taken out. -/
theorem replied_congr {f g : State → Served} (same : f (taken s k rest) = g (taken s k rest)) : replied s qp k m rest f = replied s qp k m rest g :=
  congrArg (fun r => collStops s (answer qp k m r)) same

/-- A request without flags. -/
theorem serve_plain (h : Serves s qp typ k m rest) (f : Nat → State → Served) : serve qp typ none none f s = replied s qp k m rest (f k) :=
  serve_eq h f (fun _ e => absurd e (by simp)) (fun _ e => absurd e (by simp))

/-- A request of a session whose freeing has begun. -/
theorem serve_gone (f : Nat → State → Served) (box : qpMailbox s qp = some k) (front : (mailbox s k).queue = m :: rest)
    (runs : awake s = true ∧ s.recovery = false ∧ dutyRuns s 1 = true) (flows : qpPaused s qp = false) (type_ : m.typ.toNat = typ)
    (low : k < 32) (gone : (session s k).state = .closed ∨ (session s k).state = .freeing) :
    serve qp typ none none f s = replied s qp k m rest (ends 0x0815) := by
  have ended : (Nat.blt k 32 && ((session s k).state == .closed || (session s k).state == .freeing)) = true := by
    rw [Nat.blt_eq.mpr low]
    rcases gone with is | is <;> rw [is] <;> rfl
  rw [serve_front f box front runs flows type_ (fun _ e => absurd e (by simp)) (fun _ e => absurd e (by simp)), ended]
  rfl

end

theorem mem_keepLast_append {α : Type} (n : Nat) (l : List α) (x : α) : x ∈ keepLast (n + 1) (l ++ [x]) := by
  unfold keepLast
  rw [List.drop_append_of_le_length (by simp)]
  exact List.mem_append_right _ (List.mem_singleton.mpr rfl)

/-- A reply goes out and is kept with the mailbox. -/
theorem answer_leaves (qp k : Nat) (m : Message) (r : Served) : ∃ o new, (answer qp k m r).out = r.state.out ++ [.reply qp o] ∧
    o.status = r.status ∧ o.seq = m.seq ∧ o.typ = m.typ ||| 0x8000 ∧ o.body = r.body ∧ o ∈ (mailbox (answer qp k m r) new).replies := by
  have moved : ∀ old new u, (moveMailbox old new u).out = u.out := by
    intro old new u
    unfold moveMailbox
    cases old == new <;> rfl
  unfold answer
  extract_lets new reply s x
  refine ⟨reply, new, ?_, rfl, rfl, rfl, rfl, ?_⟩
  · exact congrArg (· ++ [Output.reply qp reply]) (moved k new r.state)
  · show reply ∈ (tget (tset s.mailboxes new _) new ⟨[], []⟩).replies
    rw [tget_tset_self]
    exact mem_keepLast_append 63 x.replies reply

/-! ## OPEN, ATTACH, CLOSE (R421, R425, R426) -/

/-- The join key opens a partition whose scheduler is enabled (R421). -/
def MayJoin (s : State) (part : Nat) (key : W32) : Prop := part < 8 ∧ raw s .stwPkey part 0 = key.toNat ∧ flag s .schCtl part 0 7 = true

theorem openMail_eq (qp part : Nat) (key : W32) (s : State) :
    (¬ MayJoin s part key → openMail qp part key s = ends 0x0812 s) ∧
    (MayJoin s part key → lowest (fun n => (session s n).state == .closed) 32 0 = none → openMail qp part key s = ends 0x0813 s) ∧
    ∀ n, MayJoin s part key → lowest (fun n => (session s n).state == .closed) 32 0 = some n →
      let x : Session := { state := .open_, part := part, token := Config.attachToken s.free, window := Config.remoteKey (s.free + 1),
                           renewed := s.time, since := 0, regions := [], lists := [], evsub := none }
      openMail qp part key s = ⟨0, .opened n x.token x.window, useQp qp (.mailbox n) (setSession n x { s with free := s.free + 2 })⟩ := by
  have joins : (!(Nat.blt part 8) || !(raw s .stwPkey part 0 == key.toNat) || !(flag s .schCtl part 0 7)) = false ↔ MayJoin s part key := by
    unfold MayJoin
    rw [Bool.or_eq_false_iff, Bool.or_eq_false_iff, Bool.not_eq_false', Bool.not_eq_false', Bool.not_eq_false', Nat.blt_eq, beq_iff_eq, and_assoc]
  refine ⟨fun no => ?_, fun may full => ?_, fun n may free => ?_⟩
  · rw [← joins, Bool.not_eq_false] at no
    rw [openMail, no, cond_true]
  · simp only [openMail, joins.mpr may, full, cond_false]
  · simp only [openMail, joins.mpr may, free, cond_false, takeFree]

/-- ATTACH with token and key opens a session that stands (R425). -/
theorem attachMail_eq {qp n : Nat} (hn : n < 32) (token key : W32) (s : State) : attachMail qp n token key s =
    if (session s n).state = .closed ∨ (session s n).state = .freeing then ends 0x0815 s
    else if (session s n).token = token ∧ raw s .stwPkey (session s n).part 0 = key.toNat then
      ends 0 (useQp qp (.mailbox n) (retireMailbox n ((sessionProgs s n).foldl (fun s p => letGo p s)
        (setSession n { session s n with state := .open_, renewed := s.time } s))))
    else ends 0x0812 s := by
  have keyed : (!((session s n).token == token) || !(raw s .stwPkey (session s n).part 0 == key.toNat)) = true ↔
      ¬ ((session s n).token = token ∧ raw s .stwPkey (session s n).part 0 = key.toNat) := by
    rw [Bool.or_eq_true, Bool.not_eq_true', Bool.not_eq_true', beq_eq_false_iff_ne, beq_eq_false_iff_ne, not_and_or]
  have gone : (!(Nat.blt n 32) || (session s n).state == .closed || (session s n).state == .freeing) = true ↔
      (session s n).state = .closed ∨ (session s n).state = .freeing := by
    rw [Nat.blt_eq.mpr hn, Bool.not_true, Bool.false_or, Bool.or_eq_true, beq_iff_eq, beq_iff_eq]
  unfold attachMail
  dsimp only
  rw [Bool.cond_eq_ite, Bool.cond_eq_ite]
  simp only [gone, keyed, ite_not]

/-- CLOSE frees a session, unless it is Open, has programs and FORCE is 0 (R426). -/
theorem closeMail_eq (k : Nat) (force : Bool) (s : State) : closeMail k force s =
    if force = false ∧ (session s k).state = .open_ ∧ sessionProgs s k ≠ [] then ends 0x0818 s else ends 0 (beginFreeing k 0x0819 s) := by
  unfold closeMail
  rw [Bool.cond_eq_ite]
  simp only [Bool.and_eq_true, Bool.not_eq_true', beq_iff_eq, List.isEmpty_eq_false_iff, and_assoc]

/-! ## Requests on any mailbox (R423, R429) -/

theorem heartbeatMail_eq (k : Nat) (s : State) : heartbeatMail k s =
    ⟨0, .lease (if k < 32 then ((session s k).renewed + leaseLength s (session s k).part - s.time) / 1000000 else Config.adminLease), s⟩ := by
  unfold heartbeatMail
  rw [Bool.cond_eq_ite]
  by_cases low : k < 32
  · rw [if_pos (Nat.blt_eq.mpr low), if_pos low]
  · rw [if_neg (mt Nat.blt_eq.mp low), if_neg low]

theorem regreadMail_eq (addrs : List W32) (k : Nat) (s : State) : regreadMail addrs k s =
    if addrs = [] then ⟨1, .values [], s⟩ else if 1024 < addrs.length then ends (Config.requestRefusal 5) s
    else ⟨(readAll (keyPath k) addrs s).1, .values (readAll (keyPath k) addrs s).2.1, (readAll (keyPath k) addrs s).2.2⟩ := by
  unfold regreadMail
  dsimp only
  rw [Bool.cond_eq_ite, Bool.cond_eq_ite]
  simp only [List.isEmpty_iff, Nat.blt_eq]

theorem regwriteMail_eq (writes : List (W32 × W32)) (k : Nat) (s : State) : regwriteMail writes k s =
    if writes = [] then ends 1 s else if 1024 < writes.length then ends (Config.requestRefusal 5) s
    else if (writeAll (keyPath k) 0 writes s).1 = 0 then ends 0 (writeAll (keyPath k) 0 writes s).2.2
    else ⟨(writeAll (keyPath k) 0 writes s).1, .refusedAt (writeAll (keyPath k) 0 writes s).2.1, (writeAll (keyPath k) 0 writes s).2.2⟩ := by
  unfold regwriteMail
  dsimp only
  rw [Bool.cond_eq_ite, Bool.cond_eq_ite, Bool.cond_eq_ite]
  simp only [List.isEmpty_iff, Nat.blt_eq, beq_iff_eq]

theorem evsubMail_eq (sev k : Nat) (s : State) : evsubMail sev k s =
    ends 0 (if k < 32 then modSession k (fun x => { x with evsub := some sev }) s else { s with adminEvsub := some sev }) := by
  unfold evsubMail
  rw [Bool.cond_eq_ite]
  simp only [Nat.blt_eq]

/-! ## Regions and lists (R430, R432, R434) -/

theorem mrregMail_eq (base len : Nat) (access : BitVec 2) (k : Nat) (s : State) : mrregMail base len access k s =
    let x := session s k
    let r : Region := { rkey := Config.remoteKey s.free, base := base, len := len, read := bit access.toNat 0, write := bit access.toNat 1, revoked := [] }
    if base % 4096 = 0 ∧ len % 4096 = 0 ∧ (∀ v ∈ rangePages base len, (leaf? s x.part v).isSome = true) then
      if 256 ≤ x.regions.length then ends 0x081A s
      else ⟨0, .rkey r.rkey, modSession k (fun x => { x with regions := x.regions ++ [r] }) { s with free := s.free + 1 }⟩
    else ends 0x081B s := by
  have mapped : (!(base % 4096 == 0) || !(len % 4096 == 0) || !((rangePages base len).all fun v => (leaf? s (session s k).part v).isSome)) = true ↔
      ¬ (base % 4096 = 0 ∧ len % 4096 = 0 ∧ ∀ v ∈ rangePages base len, (leaf? s (session s k).part v).isSome = true) := by
    rw [← Bool.not_and, ← Bool.not_and, Bool.not_eq_true', ← Bool.not_eq_true, Bool.and_eq_true, Bool.and_eq_true, beq_iff_eq, beq_iff_eq,
      List.all_eq_true, and_assoc]
  unfold mrregMail
  dsimp only
  rw [Bool.cond_eq_ite, Bool.cond_eq_ite]
  simp only [mapped, ite_not, Nat.ble_eq]
  rfl

theorem mrderegMail_eq (rkey : W32) (k : Nat) (s : State) : mrderegMail rkey k s =
    if ∃ r ∈ (session s k).regions, r.rkey = rkey then
      ends 0 (modSession k (fun x => { x with regions := x.regions.filter fun r => !(r.rkey == rkey) }) s)
    else ends (Config.requestRefusal 0) s := by
  unfold mrderegMail
  rw [Bool.cond_eq_ite]
  simp only [List.any_eq_true, beq_iff_eq]

/-- A list as it is added: HEAD and DONE at 0. -/
def emptyList (base entries cap : Nat) (notify : Bool) : IntakeList :=
  { base := base, entries := entries, cap := cap % 8, notify := notify, head := 0, done := 0, stopped := false }

/-- A list may lie where its entries are within limits and its pages are pinned in HBM (R432). -/
def ListLies (s : State) (k base entries : Nat) : Prop :=
  base % 4096 = 0 ∧ ∀ v ∈ rangePages base (64 + 64 * entries), pinnedHbm s (session s k).part v = true

theorem intakeAddMail_eq (base entries cap : Nat) (notify : Bool) (k : Nat) (s : State) :
    ((entries = 0 ∨ 4096 < entries) → intakeAddMail base entries cap notify k s = ends (Config.requestRefusal 1) s) ∧
    (¬ (entries = 0 ∨ 4096 < entries) → ¬ ListLies s k base entries → intakeAddMail base entries cap notify k s = ends 0x081B s) ∧
    (¬ (entries = 0 ∨ 4096 < entries) → ListLies s k base entries → lowest (fun l => !(thas (session s k).lists l)) 8 0 = none →
      intakeAddMail base entries cap notify k s = ends 0x081A s) ∧
    ∀ l, ¬ (entries = 0 ∨ 4096 < entries) → ListLies s k base entries → lowest (fun l => !(thas (session s k).lists l)) 8 0 = some l →
      intakeAddMail base entries cap notify k s = ⟨0, .listNo l, modSession k (fun x => { x with lists := tset x.lists l (emptyList base entries cap notify) }) s⟩ := by
  have size : (!(Nat.ble 1 entries && Nat.ble entries 4096)) = true ↔ (entries = 0 ∨ 4096 < entries) := by
    rw [Bool.not_eq_true', ← Bool.not_eq_true, Bool.and_eq_true, Nat.ble_eq, Nat.ble_eq]
    omega
  have lies : (!(base % 4096 == 0) || !((rangePages base (64 + 64 * entries)).all (pinnedHbm s (session s k).part))) = true ↔ ¬ ListLies s k base entries := by
    unfold ListLies
    rw [← Bool.not_and, Bool.not_eq_true', ← Bool.not_eq_true, Bool.and_eq_true, beq_iff_eq, List.all_eq_true]
  have fits (h : ¬ (entries = 0 ∨ 4096 < entries)) := Bool.not_eq_true _ ▸ mt size.mp h
  have lying (h : ListLies s k base entries) := Bool.not_eq_true _ ▸ mt lies.mp (not_not.mpr h)
  refine ⟨fun bad => ?_, fun good off => ?_, fun good ok full => ?_, fun l good ok free => ?_⟩
  · simp only [intakeAddMail, size.mpr bad, cond_true]
  · simp only [intakeAddMail, fits good, lies.mpr off, cond_true, cond_false]
  · simp only [intakeAddMail, fits good, lying ok, full, cond_false]
  · simp only [intakeAddMail, fits good, lying ok, free, cond_false, emptyList]

theorem session_modSession_self (k : Nat) (f : Session → Session) (s : State) : session (modSession k f s) k = f (session s k) := tget_tset_self ..

theorem intakeDelMail_none {l k : Nat} {s : State} (no : 8 ≤ l ∨ intakeList s k l = none) :
    intakeDelMail l k s = ends (Config.requestRefusal 2) s := by
  have none_ : (bif Nat.blt l 8 then intakeList s k l else none) = none := by
    rcases no with high | gone
    · rw [Bool.eq_false_iff.mpr (mt Nat.blt_eq.mp (by omega)), cond_false]
    · rw [gone]
      cases Nat.blt l 8 <;> rfl
  simp only [intakeDelMail, none_]

/-- A number above 7 under which a list is kept whose records' programs run on. -/
def keptNumber (s : State) (k l : Nat) : Nat :=
  l + 8 * ((lowest (fun j => !(s.progs.any (fromList k (l + 8 * (j + 1))))) s.progs.length 0).getD s.progs.length + 1)

/-- The programs of a list are those of the list kept. -/
def movePrograms (k l : Nat) (s : State) : State :=
  { s with progs := s.progs.map fun (q : Nat × Prog) => bif fromList k l q then (q.1, { q.2 with list := keptNumber s k l }) else q }

section
variable {l k : Nat} {s : State} {x : IntakeList} (low : l < 8) (stands : intakeList s k l = some x)
include low stands

theorem intakeDelMail_idle (idle : s.progs.any (fromList k l) = false) :
    intakeDelMail l k s = ends 0 (modSession k (fun q => { q with lists := terase q.lists l }) s) := by
  simp only [intakeDelMail, Nat.blt_eq.mpr low, stands, idle, cond_true, Bool.not_false]

theorem intakeDelMail_runs (runs : s.progs.any (fromList k l) = true) : intakeDelMail l k s =
    ends 0 (modSession k (fun q => { q with lists := tset q.lists (keptNumber s k l) x })
      (modSession k (fun q => { q with lists := terase q.lists l }) (movePrograms k l s))) := by
  simp only [intakeDelMail, Nat.blt_eq.mpr low, stands, runs, cond_true, Bool.not_true, cond_false]
  rfl

/-- The list is removed, and its programs go on. -/
theorem intakeDelMail_leaves : (intakeDelMail l k s).status = 0 ∧ intakeList (intakeDelMail l k s).state k l = none ∧
    (intakeDelMail l k s).state.mem = s.mem ∧ (intakeDelMail l k s).state.progs.length = s.progs.length := by
  cases any : s.progs.any (fromList k l)
  case false =>
    rw [intakeDelMail_idle low stands any]
    refine ⟨rfl, ?_, rfl, rfl⟩
    show tget? (session (modSession k (fun q => { q with lists := terase q.lists l }) s) k).lists l = none
    rw [session_modSession_self, tget?_terase_self]
  case true =>
    have apart : l ≠ keptNumber s k l := by unfold keptNumber; omega
    rw [intakeDelMail_runs low stands any]
    refine ⟨rfl, ?_, rfl, List.length_map _⟩
    show tget? (session (modSession k (fun q => { q with lists := tset q.lists (keptNumber s k l) x })
      (modSession k (fun q => { q with lists := terase q.lists l }) (movePrograms k l s))) k).lists l = none
    rw [session_modSession_self, session_modSession_self, tget?_tset_ne _ _ _ _ apart, tget?_terase_self]

end

theorem cancelMail_none {l record k : Nat} {force : Bool} {s : State} (no : intakeList s k l = none) :
    cancelMail l record force k s = ends (Config.requestRefusal 3) s := by
  simp only [cancelMail, no]

theorem cancelMail_some {l record k : Nat} {force : Bool} {s : State} {x : IntakeList} (stands : intakeList s k l = some x) :
    cancelMail l record force k s = ends 0 ((s.progs.filter fun q =>
      fromList k l q && q.2.recIdx % x.entries == record % x.entries).foldl (fun s q => cancelProg force q.1 s) s) := by
  simp only [cancelMail, stands]

/-! ## Queue pairs to a gateway (R390, R431) -/

/-- Eight queue pairs asked for. -/
def gatewayPairs (rdom addr port : Nat) (s : State) : State :=
  emit (.gatewayConnect rdom addr port ((List.range 8).map (· + s.nextQp)))
    ((List.range 8).foldl (fun s k => addQp port (.gateway rdom (k == 0)) (gatewayTerms s.nextQp) s) s)

theorem gwconnMail_off {s : State} (off : flag s .rmaGw 0 0 31 = false) (rdom addr port : Nat) : gwconnMail rdom addr port s = ends 0x0811 s := by
  simp only [gwconnMail, off, Bool.not_false, cond_true]

section
variable {s : State} (on : flag s .rmaGw 0 0 31 = true)
include on

theorem gwconnMail_full (full : 56 < liveQps s isGwKind ∨ 1016 < liveQps s (fun _ => true)) (rdom addr port : Nat) :
    gwconnMail rdom addr port s = ends (Config.requestRefusal 4) s := by
  have over_ : (Nat.blt 56 (liveQps s isGwKind) || Nat.blt 1016 (liveQps s fun _ => true)) = true := by
    rw [Bool.or_eq_true, Nat.blt_eq, Nat.blt_eq]
    exact full
  simp only [gwconnMail, on, over_, Bool.not_true, cond_false, cond_true]

theorem gwconnMail_room (gateways : liveQps s isGwKind ≤ 56) (all : liveQps s (fun _ => true) ≤ 1016) (rdom addr port : Nat) :
    gwconnMail rdom addr port s = ends 0 (gatewayPairs rdom addr port s) := by
  have room : (Nat.blt 56 (liveQps s isGwKind) || Nat.blt 1016 (liveQps s fun _ => true)) = false := by
    rw [Bool.or_eq_false_iff, Bool.eq_false_iff, Bool.eq_false_iff, ne_eq, ne_eq, Nat.blt_eq, Nat.blt_eq]
    omega
  simp only [gwconnMail, on, room, Bool.not_true, cond_false, gatewayPairs]

end

/-- Settles O50, request by request. ATTACH moves the mailbox (log entry 143), the lease of the admin HEARTBEAT (146) and the statuses of
refusals (145) are free values, and the order of the checks (142, 148) and the first status of REGREAD (147) are the model's reading. -/
theorem mailboxes : Obligations.Mailboxes := by
  unfold Obligations.Mailboxes
  intro qp k m rest t s u
  refine ⟨fun wakes normal box => ⟨fun bad => ?bad, fun good => ⟨fun r again => ?again, fun fresh new => ?new, fun fresh queued => ?queued,
      fun full => receiveStatus_full (by rw [mailbox_renewLease]; exact full)⟩⟩, fun lost => ?lost, answer_leaves qp k m,
    fun part key h => ?open_, fun n token key h hn => ?attach, fun force h forced => ?close, fun h => ?heartbeat, fun addrs h => ?regread,
    fun writes h => ?regwrite, fun base len access h => ?mrreg, fun rkey h => ?mrdereg, fun base entries cap notify h noted => ?add,
    fun l h => ?del, fun l y => ⟨intakeDelMail_none, fun x low stands => ?deleted⟩, fun l record force h forced => ?cancel,
    fun sev h => ?evsub, fun rdom addr port h => ?gwconn, fun n i typ is box low gone front type_ wakes normal steward flows => ?gone⟩
  case bad => exact congrArg _ ((received wakes normal).trans (messageReceive_bad (s := u) box bad))
  case again => exact congrArg _ ((received wakes normal).trans (messageReceive_again (s := u) box good again))
  case new => exact congrArg _ ((received wakes normal).trans (messageReceive_new (s := u) box good fresh new))
  case queued => exact congrArg _ ((received wakes normal).trans (messageReceive_queued (s := u) box good fresh queued))
  case lost => exact congrArg _ (messageReceive_lost lost)
  case open_ =>
    refine congrArg _ ((serve_plain h _).trans (replied_congr ?_))
    obtain ⟨barred, full, joined⟩ := openMail_eq qp part key (taken u k rest)
    split
    next may =>
      split
      next none_ => exact full may none_
      next n some_ => exact joined n may some_
    next no => exact barred no
  case attach => exact congrArg _ ((serve_plain h _).trans (replied_congr (attachMail_eq hn token key (taken u k rest))))
  case close => exact congrArg _ ((serve_eq h _ (fun b e => Option.some.inj e ▸ forced) (fun _ e => absurd e (by simp))).trans
      (replied_congr (closeMail_eq k force (taken u k rest))))
  case heartbeat => exact congrArg _ ((serve_plain h _).trans (replied_congr (heartbeatMail_eq k (taken u k rest))))
  case regread => exact congrArg _ ((serve_plain h _).trans (replied_congr (regreadMail_eq addrs k (taken u k rest))))
  case regwrite => exact congrArg _ ((serve_plain h _).trans (replied_congr (regwriteMail_eq writes k (taken u k rest))))
  case mrreg => exact congrArg _ ((serve_plain h _).trans (replied_congr (mrregMail_eq base len access k (taken u k rest))))
  case mrdereg => exact congrArg _ ((serve_plain h _).trans (replied_congr (mrderegMail_eq rkey k (taken u k rest))))
  case add =>
    refine congrArg _ ((serve_eq h _ (fun _ e => absurd e (by simp)) (fun b e => Option.some.inj e ▸ noted)).trans (replied_congr ?_))
    obtain ⟨bad, off, full, added⟩ := intakeAddMail_eq base entries cap notify k (taken u k rest)
    split
    next size => exact bad size
    next size =>
      split
      next lies =>
        split
        next none_ => exact full size lies none_
        next l some_ => exact added l size lies some_
      next no => exact off size no
  case del => exact congrArg _ (serve_plain h _)
  case deleted =>
    obtain ⟨status, gone, mem, progs⟩ := intakeDelMail_leaves low stands
    exact ⟨status, gone, mem, progs, intakeDelMail_idle low stands⟩
  case cancel =>
    have flags : ∀ b, some force = some b → bit m.flags.toNat 1 = b := fun b e => Option.some.inj e ▸ forced
    refine ⟨fun none_ => ?_, fun x some_ => ?_⟩
    all_goals
      refine congrArg _ ((serve_eq h _ flags (fun _ e => absurd e (by simp))).trans (replied_congr ?_))
    · exact cancelMail_none none_
    · exact cancelMail_some some_
  case evsub => exact congrArg _ ((serve_plain h _).trans (replied_congr (evsubMail_eq sev k (taken u k rest))))
  case gwconn =>
    refine ⟨fun off => ?_, fun on full => ?_, fun on gateways all => ?_⟩
    all_goals refine congrArg _ ((serve_plain h _).trans (replied_congr ?_))
    · exact gwconnMail_off (s := taken u k rest) off rdom.toNat addr port
    · exact gwconnMail_full (s := taken u k rest) on full rdom.toNat addr port
    · exact gwconnMail_room (s := taken u k rest) on gateways all rdom.toNat addr port
  case gone =>
    have served (f : Nat → State → Served) : serve qp typ none none f u = replied u qp n m rest (ends 0x0815) :=
      serve_gone (s := u) f box front ⟨wakes, normal, steward⟩ flows type_ low gone
    rcases is with ⟨rfl, rfl⟩ | ⟨a, rfl, rfl⟩ | ⟨w, rfl, rfl⟩ | ⟨r, rfl, rfl⟩ | ⟨l, rfl, rfl⟩ | ⟨v, rfl, rfl⟩ <;> exact congrArg _ (served _)

end Sys2Proof.Machine
end

section
/-! SUPPORT. What writes and events leave at an address of the register space, also one where no register stands: SESS_TIMES and PGE_STALLUS
of a number that no partition has. -/

namespace Sys2Proof.Machine

/-- A step that leaves the stored value at an address. -/
def KeepsAt (a : Nat) (s t : State) : Prop := tget? t.ctl a = tget? s.ctl a

theorem KeepsAt.refl (a : Nat) (s : State) : KeepsAt a s s := rfl

theorem KeepsAt.trans {a : Nat} {s t u : State} (h : KeepsAt a s t) (g : KeepsAt a t u) : KeepsAt a s u := Eq.trans g h

theorem KeepsAt.of_ctl {a : Nat} {s t : State} (h : t.ctl = s.ctl) : KeepsAt a s t := congrArg (tget? · a) h

theorem KeepsAt.foldl {a : Nat} {α : Type} {f : State → α → State} {l : List α} (step : ∀ x ∈ l, ∀ s, KeepsAt a s (f s x)) (s : State) :
    KeepsAt a s (l.foldl f s) :=
  rel_foldl (KeepsAt.refl a) KeepsAt.trans step s

theorem keepsAt_cond {a : Nat} {s x y : State} {c : Bool} (hx : KeepsAt a s x) (hy : KeepsAt a s y) : KeepsAt a s (bif c then x else y) := by
  cases c
  · exact hy
  · exact hx

/-- A register at an address whose value is left. -/
theorem KeepsAt.raw_eq {r : Reg} {i j : Nat} {s t : State} (h : KeepsAt (regAddr r i j) s t) : raw t r i j = raw s r i j := by
  rw [raw, tget, show tget? t.ctl _ = _ from h]
  rfl

theorem KeepsAt.fld_eq {r : Reg} {i j : Nat} {s t : State} (k : KeepsAt (regAddr r i j) s t) (h l : Nat) : fld t r i j h l = fld s r i j h l := by
  rw [fld, k.raw_eq, fld]

section
variable {a : Nat}

theorem keepsAt_setRaw {r : Reg} {i j : Nat} (apart : a ≠ regAddr r i j) (v : Nat) (s : State) : KeepsAt a s (setRaw r i j v s) :=
  tget?_tset_ne _ _ _ _ apart

theorem keepsAt_setFld {r : Reg} {i j : Nat} (apart : a ≠ regAddr r i j) (h l v : Nat) (s : State) : KeepsAt a s (setFld r i j h l v s) :=
  keepsAt_setRaw apart _ s

theorem keepsAt_bumpFld {r : Reg} {i j : Nat} (apart : a ≠ regAddr r i j) (h l n : Nat) (s : State) : KeepsAt a s (bumpFld r i j h l n s) :=
  keepsAt_setRaw apart _ s

theorem keepsAt_bump {r : Reg} {i j : Nat} (apart : a ≠ regAddr r i j) (n : Nat) (s : State) : KeepsAt a s (bump r i j n s) :=
  keepsAt_setRaw apart _ s

/-- The addresses of the event queue's registers. -/
def eventAddrs : List Nat := eventRegs.map fun r => regAddr r 0 0

variable (apart : a ∉ eventAddrs)
include apart

theorem ne_of_mem_eventRegs {r : Reg} (hr : r ∈ eventRegs) : a ≠ regAddr r 0 0 := fun e => apart (e ▸ List.mem_map_of_mem hr)

theorem keepsAt_foldOr (r : TelRecord) {lost : Reg} (hl : lost ∈ eventRegs) (s : State) : KeepsAt a s (foldOr r lost s) :=
  keepsAt_cond (keepsAt_bump (ne_of_mem_eventRegs apart (by decide)) 1 _)
    (keepsAt_cond (.of_ctl rfl) (keepsAt_bump (ne_of_mem_eventRegs apart hl) 1 s))

theorem keepsAt_holdFatal (r : TelRecord) (s : State) : KeepsAt a s (holdFatal r s) := by
  have write : ∀ e ∈ eventRegs, ∀ v u, KeepsAt a u (setRaw e 0 0 v u) := fun e he v u => keepsAt_setRaw (ne_of_mem_eventRegs apart he) v u
  exact keepsAt_cond (.refl a s) ((((write .errFatal (by decide) _ s).trans (write .errFatunit (by decide) _ _)).trans
    (write .errFattimeLo (by decide) _ _)).trans (write .errFattimeHi (by decide) _ _))

/-- An event leaves every address but those of its registers. -/
theorem keepsAt_raise (code : BitVec 16) (sev : Nat) (part : Option Nat) (unit : Nat) (data : W64) (s : State) :
    KeepsAt a s (raise code sev part unit data s) := by
  have count : ∀ r ∈ eventRegs, ∀ u, KeepsAt a u (bump r 0 0 1 u) := fun r hr u => keepsAt_bump (ne_of_mem_eventRegs apart hr) 1 u
  have queue : ∀ r c u, KeepsAt a u (enqueue r c u) := fun r c u => .of_ctl rfl
  unfold raise
  extract_lets r u
  split
  next => exact (keepsAt_holdFatal apart r s).trans (keepsAt_cond (queue ..) (keepsAt_cond (queue ..)
      (keepsAt_cond (queue ..) (count .telOvff (by decide) _))))
  next => exact keepsAt_cond (queue ..) (keepsAt_cond (queue ..) (count .telOvfe (by decide) s))
  next => exact keepsAt_cond (keepsAt_foldOr apart r (by decide) s) (queue ..)
  next => exact keepsAt_cond (keepsAt_foldOr apart r (by decide) s) (queue ..)
  next => exact keepsAt_cond (keepsAt_cond (count .telDropt (by decide) s) (queue ..)) (.refl a s)

end

end Sys2Proof.Machine
end

section
/-! SUPPORT. Leases, the end of sessions, RDMA, frames and queue pairs as the statement of chapter 13 has them (R416 to R420, R423 to R435). -/

namespace Sys2Proof.Machine

/-! ## Leases (R423) -/

/-- SESS_TIMES lies 4 bytes above a multiple of 4 KiB, whatever the partition, and the registers of events do not. -/
theorem stwTimes_not_mem_eventAddrs (p : Nat) : regAddr .stwTimes p 0 ∉ eventAddrs := by
  have off : ∀ a ∈ eventAddrs, a % 0x1000 ≠ 4 := by decide
  intro mem
  refine off _ mem ?_
  simp only [regAddr, regRow]
  omega

/-- A step that leaves the session `n`, the time and the times of leases. -/
structure LeavesLease (n : Nat) (s t : State) : Prop where
  session : session t n = session s n
  time : t.time = s.time
  times : ∀ p, raw t .stwTimes p 0 = raw s .stwTimes p 0

theorem LeavesLease.refl (n : Nat) (s : State) : LeavesLease n s s := ⟨rfl, rfl, fun _ => rfl⟩

theorem LeavesLease.trans {n : Nat} {s t u : State} (h : LeavesLease n s t) (g : LeavesLease n t u) : LeavesLease n s u :=
  ⟨g.session.trans h.session, g.time.trans h.time, fun p => (g.times p).trans (h.times p)⟩

theorem leavesLease_standOn (n p : Nat) (s : State) : LeavesLease n s (standOn p s) := by
  have asked : LeavesLease n s (requestPreempt p true s) := by
    unfold requestPreempt modProg
    split
    · exact ⟨rfl, rfl, fun _ => rfl⟩
    · exact LeavesLease.refl n s
  unfold standOn
  split
  next x _ =>
    cases x.state == .running || x.state == .preempting || x.state == .placing || x.state == .restoring
    · exact LeavesLease.refl n s
    · exact asked
  next => exact LeavesLease.refl n s

theorem leavesLease_raise (n : Nat) (code : BitVec 16) (sev : Nat) (part : Option Nat) (unit : Nat) (data : W64) (s : State) :
    LeavesLease n s (raise code sev part unit data s) := by
  obtain ⟨c, q, rest⟩ := (tells_raise code sev part unit data s).rest
  exact ⟨by rw [rest]; rfl, by rw [rest], fun p => (keepsAt_raise (stwTimes_not_mem_eventAddrs p) ..).raw_eq⟩

/-- The session whose lease has run out. -/
def orphaned (s : State) (m : Nat) : State := setSession m { session s m with state := .orphaned, since := s.time } s

theorem leavesLease_orphan (n m : Nat) (s : State) : LeavesLease n (orphaned s m) (orphan m s) := by
  have told : LeavesLease n (orphaned s m) (raise 0xE003 2 (some (session s m).part) 0 0 (orphaned s m)) := leavesLease_raise ..
  exact told.trans (rel_foldl (LeavesLease.refl n) LeavesLease.trans (fun p _ u => leavesLease_standOn n p u) _)

/-- What LEASE_CHECK does to a session while it goes through all: it keeps the session, or finds its lease over. -/
structure LeaseStep (n : Nat) (s t : State) : Prop where
  time : t.time = s.time
  times : ∀ p, raw t .stwTimes p 0 = raw s .stwTimes p 0
  other : (session s n).state ≠ .open_ → session t n = session s n
  orphans : session t n = session s n ∨
    leaseOver s n = true ∧ session t n = { session s n with state := .orphaned, since := s.time }

/-- Whether a lease is over rests on the session, the time and the times of leases. -/
theorem leaseOver_congr {n : Nat} {s t : State} (same : session t n = session s n) (time : t.time = s.time)
    (times : ∀ p, raw t .stwTimes p 0 = raw s .stwTimes p 0) : leaseOver t n = leaseOver s n := by
  have lease : leaseLength t (session s n).part = leaseLength s (session s n).part := by rw [leaseLength, times, leaseLength]
  rw [leaseOver, same, lease, time, leaseOver]

theorem LeaseStep.of_leaves {n : Nat} {s t : State} (h : LeavesLease n s t) : LeaseStep n s t :=
  ⟨h.time, h.times, fun _ => h.session, .inl h.session⟩

theorem LeaseStep.trans {n : Nat} {s t u : State} (h : LeaseStep n s t) (g : LeaseStep n t u) : LeaseStep n s u := by
  have time := g.time.trans h.time
  have times : ∀ p, raw u .stwTimes p 0 = raw s .stwTimes p 0 := fun p => (g.times p).trans (h.times p)
  rcases h.orphans with same | ⟨over_, gone⟩
  · refine ⟨time, times, fun no => (g.other (by rwa [same])).trans same, ?_⟩
    rcases g.orphans with kept | ⟨over', gone⟩
    · exact .inl (kept.trans same)
    · rw [leaseOver_congr same h.time h.times] at over'
      rw [same, h.time] at gone
      exact .inr ⟨over', gone⟩
  · have shut : (session t n).state ≠ .open_ := by
      rw [gone]
      exact (by decide : SessState.orphaned ≠ .open_)
    exact ⟨time, times, fun no => (g.other shut).trans (h.other no), .inr ⟨over_, (g.other shut).trans gone⟩⟩

theorem state_of_leaseOver {s : State} {n : Nat} (over_ : leaseOver s n = true) : (session s n).state = .open_ :=
  beq_iff_eq.mp (Bool.and_eq_true_iff.mp over_).1

/-- One session's turn in LEASE_CHECK. -/
def leaseTurn (s : State) (m : Nat) : State := bif leaseOver s m then orphan m s else s

theorem leaseTurn_self {s : State} {m : Nat} (over_ : leaseOver s m = true) :
    session (leaseTurn s m) m = { session s m with state := .orphaned, since := s.time } := by
  rw [leaseTurn, over_, cond_true, (leavesLease_orphan m m s).session]
  exact tget_tset_self ..

theorem leaseStep_leaseTurn (n m : Nat) (s : State) : LeaseStep n s (leaseTurn s m) := by
  cases over_ : leaseOver s m
  case false =>
    rw [leaseTurn, over_]
    exact .of_leaves (.refl n s)
  case true =>
    have left := leavesLease_orphan n m s
    by_cases e : n = m
    · subst e
      have gone := leaseTurn_self over_
      rw [leaseTurn, over_, cond_true] at gone ⊢
      exact ⟨left.time, left.times, fun no => absurd (state_of_leaseOver over_) no, .inr ⟨over_, gone⟩⟩
    · rw [leaseTurn, over_, cond_true]
      have kept : session (orphaned s m) n = session s n := tget_tset_ne _ _ _ _ _ e
      exact .of_leaves ⟨left.session.trans kept, left.time, left.times⟩

section
variable {n : Nat} {s : State} (wakes : awake s = true) (steward : dutyRuns s 1 = true)
include wakes steward

theorem leaseCheck_eq : leaseCheck s = (List.range 32).foldl leaseTurn s := by
  unfold leaseCheck
  rw [wakes, steward, Bool.and_self, cond_true]
  exact congrArg (fun f => (List.range 32).foldl f s) (funext₂ fun _ _ => rfl)

/-- A lease that has run out makes an Open session Orphaned. -/
theorem leaseCheck_over (hn : n < 32) (over_ : leaseOver s n = true) :
    session (leaseCheck s) n = { session s n with state := .orphaned, since := s.time } := by
  have step : ∀ m ∈ List.range 32, ∀ s, LeaseStep n s (leaseTurn s m) := fun m _ s => leaseStep_leaseTurn n m s
  obtain ⟨u, before, after⟩ := rel_foldl_at (fun s => LeaseStep.of_leaves (.refl n s)) LeaseStep.trans step (List.mem_range.mpr hn) s
  have shut : ∀ v, session v n = { session s n with state := .orphaned, since := s.time } → (session v n).state ≠ .open_ := fun v h => by
    rw [h]
    exact (by decide : SessState.orphaned ≠ .open_)
  have there : session (leaseTurn u n) n = { session s n with state := .orphaned, since := s.time } := by
    rcases before.orphans with same | ⟨-, gone⟩
    · rw [leaseTurn_self ((leaseOver_congr same before.time before.times).trans over_), same, before.time]
    · rw [(leaseStep_leaseTurn n n u).other (shut u gone), gone]
  rw [leaseCheck_eq wakes steward, after.other (shut _ there), there]

/-- A lease that has not run out leaves the session. -/
theorem leaseCheck_holds (holds : leaseOver s n = false) : session (leaseCheck s) n = session s n := by
  have step : ∀ m ∈ List.range 32, ∀ s, LeaseStep n s (leaseTurn s m) := fun m _ s => leaseStep_leaseTurn n m s
  rw [leaseCheck_eq wakes steward]
  rcases (rel_foldl (fun s => LeaseStep.of_leaves (.refl n s)) LeaseStep.trans step s).orphans with same | ⟨over_, -⟩
  · exact same
  · rw [holds] at over_
    contradiction

/-- ORPHRUN has elapsed: the session is Holding and its programs are stopped. -/
theorem orphrunExpire_due (state : (session s n).state = .orphaned)
    (due : (session s n).since + fld s .stwTimes (session s n).part 0 23 16 * 1000000000 ≤ s.time) :
    orphrunExpire n s = (sessionProgs s n).foldl (fun s p => stopUnstopped p s) (setSession n { session s n with state := .holding, since := s.time } s) := by
  unfold orphrunExpire
  dsimp only
  rw [wakes, steward, state, Nat.ble_eq_true_of_le due]
  rfl

/-- HOLD has elapsed: the freeing begins. -/
theorem holdExpire_due (state : (session s n).state = .holding)
    (due : (session s n).since + fld s .stwTimes (session s n).part 0 31 24 * 60000000000 ≤ s.time) :
    holdExpire n s = beginFreeing n 0x0817 s := by
  unfold holdExpire
  dsimp only
  rw [wakes, steward, state, Nat.ble_eq_true_of_le due]
  rfl

end

/-! ## The end of sessions and the lists that are watched (R424, R433) -/

/-- A session of which nothing is left is Closed. -/
theorem sessionFreed_done {n : Nat} {s : State} (state : (session s n).state = .freeing)
    (progs : sessionProgs (reapPages (session s n).part (releaseSession n s)) n = [])
    (pages : ∀ l ∈ (partition (reapPages (session s n).part (releaseSession n s)) (session s n).part).leaves ++
      (partition (reapPages (session s n).part (releaseSession n s)) (session s n).part).going, l.2.owner ≠ some n) :
    let v := reapPages (session s n).part (releaseSession n s)
    sessionFreed n s = { v with sessions := terase v.sessions n, mailboxes := terase v.mailboxes n, qps := v.qps.filter fun q => !(ofSession n q) } := by
  have none_ : (((partition (reapPages (session s n).part (releaseSession n s)) (session s n).part).leaves ++
      (partition (reapPages (session s n).part (releaseSession n s)) (session s n).part).going).any fun l => l.2.owner == some n) = false :=
    List.any_eq_false.mpr fun l hl owns => pages l hl (beq_iff_eq.mp owns)
  simp only [sessionFreed, state, progs, none_, beq_self_eq_true, Bool.not_true, cond_false, List.isEmpty_nil, Bool.or_self]

section
variable {n l : Nat} {s : State}

theorem tailNotice_none (no : 8 ≤ l ∨ tget? (session s n).lists l = none ∨ (session s n).state ≠ .open_ ∨
    flag s .schCtl (session s n).part 0 7 = false) : tailNotice n l s = s := by
  unfold tailNotice
  dsimp only
  split
  next => rfl
  next li some_ =>
    have low : Nat.blt l 8 = true := by
      cases b : Nat.blt l 8
      · rw [b] at some_; contradiction
      · rfl
    rw [low, cond_true] at some_
    have shut : (li.stopped || !((session s n).state == .open_) || !(flag s .schCtl (session s n).part 0 7)) = true := by
      rcases no with high | gone | closed | off
      · rw [Nat.blt_eq] at low; omega
      · rw [gone] at some_; contradiction
      · rw [beq_false_of_ne closed, Bool.not_false, Bool.or_true, Bool.true_or]
      · rw [off, Bool.not_false, Bool.or_true]
    rw [shut, cond_true]

variable {li : IntakeList} (low : l < 8) (list : tget? (session s n).lists l = some li) (runs : li.stopped = false)
  (opened : (session s n).state = .open_) (enabled : flag s .schCtl (session s n).part 0 7 = true)
include low list runs opened enabled

/-- A list that is watched: what its header comes to. -/
theorem tailNotice_watched : tailNotice n l s = match spaceRead s (session s n).part li.base 12 with
    | .error e => stopList n l e (l * 2 ^ 16) (spaceSeen (session s n).part li.base 12 s)
    | .ok h => bif Nat.blt li.entries ((leAt h 0 4 + 2 ^ 32 - li.head % 2 ^ 32) % 2 ^ 32)
        then stopList n l 0xE004 0x081C (spaceSeen (session s n).part li.base 12 s) else spaceSeen (session s n).part li.base 12 s := by
  unfold tailNotice
  extract_lets x
  rw [Nat.blt_eq.mpr low, cond_true, show tget? x.lists l = some li from list]
  split
  next => contradiction
  next li' same =>
    obtain rfl := Option.some.inj same
    rw [runs, show x.state = .open_ from opened, show flag s .schCtl x.part 0 7 = true from enabled, beq_self_eq_true, Bool.not_true,
      Bool.or_self, Bool.or_self, cond_false] <;> rfl

theorem tailNotice_ok {h : List Byte} (read : spaceRead s (session s n).part li.base 12 = .ok h) : tailNotice n l s =
    if li.entries < (leAt h 0 4 + 2 ^ 32 - li.head % 2 ^ 32) % 2 ^ 32 then stopList n l 0xE004 0x081C (spaceSeen (session s n).part li.base 12 s)
    else spaceSeen (session s n).part li.base 12 s := by
  rw [tailNotice_watched low list runs opened enabled, read]
  show (bif Nat.blt li.entries ((leAt h 0 4 + 2 ^ 32 - li.head % 2 ^ 32) % 2 ^ 32) then _ else _) = _
  -- the number of records without a value: the comparison is not evaluated
  generalize (leAt h 0 4 + 2 ^ 32 - li.head % 2 ^ 32) % 2 ^ 32 = ahead
  rw [Bool.cond_eq_ite]
  simp only [Nat.blt_eq]

theorem tailNotice_error {st : Status} (read : spaceRead s (session s n).part li.base 12 = .error st) :
    tailNotice n l s = stopList n l st (l * 2 ^ 16) (spaceSeen (session s n).part li.base 12 s) := by
  rw [tailNotice_watched low list runs opened enabled, read]

end

theorem beginFreeing_idle {n : Nat} {s : State} (idle : sessionProgs s n = []) (st : Status) :
    beginFreeing n st s = releaseSession n (modSession n (fun x => { x with state := .freeing }) s) := by
  rw [beginFreeing, idle, List.foldl_nil]

/-! ## RDMA (R430, R435) -/

section
variable {qp n : Nat} {rkey : W32} {va len : Nat} {s : State} (serves : qpSession s qp = some n)
include serves

/-- A read that a region, or enforced ownership, does not let through fails. -/
theorem rdmaAccess_read_refused (refused : ¬ (rdmaAllowed (session s n) rkey false va len = true ∧ rdmaDenied s (session s n).part va len false = false)) :
    rdmaAccess qp rkey va none len s = emit (.rdma qp .accessError) s := by
  have stops : (!(rdmaAllowed (session s n) rkey false va len) || rdmaDenied s (session s n).part va len false) = true := by
    rw [Bool.or_eq_true, Bool.not_eq_true', ← Bool.not_eq_true, ← Bool.not_eq_false (rdmaDenied ..), ← not_and_or]
    exact refused
  simp only [rdmaAccess, serves, Option.isSome_none, stops, cond_true]

/-- A read that is let through reads the partition's memory. -/
theorem rdmaAccess_read (reads : rdmaAllowed (session s n) rkey false va len = true ∧ rdmaDenied s (session s n).part va len false = false) :
    (∀ bs, spaceRead s (session s n).part va len = .ok bs →
      rdmaAccess qp rkey va none len s = emit (.rdma qp (.done bs)) (spaceSeen (session s n).part va len s)) ∧
    ∀ st, spaceRead s (session s n).part va len = .error st →
      rdmaAccess qp rkey va none len s = emit (.rdma qp .accessError) (spaceSeen (session s n).part va len s) := by
  obtain ⟨allowed, free⟩ := reads
  refine ⟨fun bs read => ?_, fun st read => ?_⟩
  all_goals simp only [rdmaAccess, serves, Option.isSome_none, allowed, free, read, Bool.not_true, Bool.or_self, cond_false]

theorem rdmaAccess_write_refused {bs : List Byte} (refused : ¬ (rdmaAllowed (session s n) rkey true va bs.length = true ∧
    rdmaDenied s (session s n).part va bs.length true = false)) : rdmaAccess qp rkey va (some bs) len s = emit (.rdma qp .accessError) s := by
  have stops : (!(rdmaAllowed (session s n) rkey true va bs.length) || rdmaDenied s (session s n).part va bs.length true) = true := by
    rw [Bool.or_eq_true, Bool.not_eq_true', ← Bool.not_eq_true, ← Bool.not_eq_false (rdmaDenied ..), ← not_and_or]
    exact refused
  simp only [rdmaAccess, serves, Option.isSome_some, stops, cond_true]

theorem rdmaAccess_write {bs : List Byte} (writes : rdmaAllowed (session s n) rkey true va bs.length = true ∧
    rdmaDenied s (session s n).part va bs.length true = false) : rdmaAccess qp rkey va (some bs) len s =
      emit (.rdma qp (if (spaceWrite (session s n).part va bs s).1 = 0 then .done [] else .accessError)) (spaceWrite (session s n).part va bs s).2 := by
  obtain ⟨allowed, free⟩ := writes
  simp only [rdmaAccess, serves, Option.isSome_some, allowed, free, Bool.not_true, Bool.or_self, cond_false]
  rw [Bool.cond_eq_ite]
  simp only [beq_iff_eq]

/-- What the status window does not let through. -/
theorem windowRead_refused {a : Nat} (refused : (session s n).window ≠ rkey ∨ (session s n).state = .closed ∨ a % 4 ≠ 0 ∨ len % 4 ≠ 0) :
    windowRead qp rkey a len s = emit (.rdma qp .accessError) s := by
  have stops : (!((session s n).window == rkey) || (session s n).state == .closed || !(a % 4 == 0) || !(len % 4 == 0)) = true := by
    simp only [Bool.or_eq_true, Bool.not_eq_true', beq_eq_false_iff_ne, beq_iff_eq, or_assoc]
    exact refused
  simp only [windowRead, serves, stops, cond_true]

/-- The status window answers with the registers read. -/
theorem windowRead_words {a : Nat} {i : Fin 32} (is : n = i) (window : (session s n).window = rkey) (stands : (session s n).state ≠ .closed)
    (aligned : a % 4 = 0) (whole : len % 4 = 0) : windowRead qp rkey a len s =
      emit (.rdma qp (.done (windowWords (.window i) (len / 4) a s).1)) (windowWords (.window i) (len / 4) a s).2 := by
  have number : (⟨n % 32, Nat.mod_lt n (by decide)⟩ : Fin 32) = i := Fin.ext (by rw [is]; exact Nat.mod_eq_of_lt i.isLt)
  have passes : (!((session s n).window == rkey) || (session s n).state == .closed || !(a % 4 == 0) || !(len % 4 == 0)) = false := by
    rw [window, beq_false_of_ne stands, aligned, whole, beq_self_eq_true]
    rfl
  simp only [windowRead, serves, passes, cond_false, number]

end

/-! ## Frames (R416, R418) -/

/-- What a frame for the port comes to. -/
def frameServed (port : Nat) (s : State) : HostFrame → State
  | .arp a => answerFrame port (.v4 a) s
  | .neighbour a => answerFrame port (.v6 a) s
  | .icmpEcho a => answerFrame port a s
  | .roce _ qp opcode ce => roceFrame port qp opcode ce s
  | .tcp _ p syn => bif !(p == spdmPort s) then emit (.tcpReset port) s else bif syn then tcpConnect port s else s
  | .pfc prio quanta => pauseFrame port prio.val quanta.toNat s
  | .other => dropFrame port s

section
variable {port : Nat} {s : State}

theorem hostFrame_deaf (deaf : awake s = false ∨ s.recovery = true ∨ portUp s port = false) (fr : HostFrame) : hostFrame port fr s = s := by
  have out : (!(awake s) || s.recovery || !(portUp s port)) = true := by
    rcases deaf with asleep | recovers | down
    · rw [asleep]; rfl
    · rw [recovers, Bool.or_true, Bool.true_or]
    · rw [down, Bool.not_false, Bool.or_true]
  unfold hostFrame
  rw [out, cond_true]

section
variable (wakes : awake s = true) (normal : s.recovery = false) (up : portUp s port = true)
include wakes normal up

/-- A frame for another address is dropped and counted. -/
theorem hostFrame_other {fr : HostFrame} (other : frameFor s port fr = false) : hostFrame port fr s = bump .hstDrop port 0 1 s := by
  unfold hostFrame
  rw [wakes, normal, up, other]
  rfl

/-- A frame that is for the port. -/
theorem hostFrame_own {fr : HostFrame} (own : frameFor s port fr = true) : hostFrame port fr s = frameServed port s fr := by
  unfold hostFrame
  rw [wakes, normal, up, own]
  cases fr <;> rfl

end

theorem pauseFrame_eq (prio quanta : Nat) : pauseFrame port prio quanta s =
    if flag s .hstCtl port 0 31 = true ∧ fld s .hstCtl port 0 2 0 = prio then
      modEngine (10 + port / 2) (fun x => { x with paused := tset x.paused port (s.time + (quanta * 16 + 24) / 25) }) s
    else bump .hstDrop port 0 1 s := by
  unfold pauseFrame
  rw [Bool.cond_eq_ite]
  simp only [Bool.and_eq_true, beq_iff_eq]
  rfl

/-! ## Queue pairs (R417 to R419) -/

theorem roceFrame_drop {qp opcode : Nat} {ce : Bool} (none_ : ∀ q, tget? s.qps qp = some q → q.failed = true ∨ q.port ≠ port) :
    roceFrame port qp opcode ce s = bump .hstDrop port 0 1 s := by
  unfold roceFrame
  split
  next => rfl
  next q some_ =>
    have off : (q.failed || !(q.port == port)) = true := by
      rcases none_ q some_ with failed | other
      · rw [failed, Bool.true_or]
      · rw [beq_false_of_ne other, Bool.not_false, Bool.or_true]
    rw [off]
    rfl

/-- A packet of a queue pair of the port: a notification, an operation, or an invalid request. -/
theorem roceFrame_live {qp opcode : Nat} {ce : Bool} {q : QueuePair} (some_ : tget? s.qps qp = some q) (live : q.failed = false)
    (here : q.port = port) : roceFrame port qp opcode ce s =
      bif opcode == 0x81 then cnpReceive qp (if ce = true then ceMark qp s else s)
      else bif Nat.ble opcode 0x11 then (if ce = true then ceMark qp s else s)
      else emit (.invalidRequest qp) (modQp qp (fun q => { q with failed := true }) (if ce = true then ceMark qp s else s)) := by
  simp only [roceFrame, some_, live, here, beq_self_eq_true, Bool.not_true, Bool.or_self, cond_false, roceOpcode]
  rw [Bool.cond_eq_ite ce]

section
variable {qp : Nat} {q : QueuePair} (some_ : tget? s.qps qp = some q) (live : q.failed = false)
include some_ live

theorem modQp_live (f : QueuePair → QueuePair) : modQp qp f s = { s with qps := tset s.qps qp (f q) } := by
  simp only [modQp, some_, live, cond_false]

theorem cnpReceive_live : cnpReceive qp s =
    { bump .hstCnp q.port 0 1 s with qps := tset s.qps qp { q with rate := q.rate / 2, rateAt := s.time } } := by
  have there : tget? (bump .hstCnp q.port 0 1 s).qps qp = some q := some_
  have halved : cnpReceive qp s = modQp qp (fun q => { q with rate := q.rate / 2, rateAt := s.time }) (bump .hstCnp q.port 0 1 s) := by
    simp only [cnpReceive, some_, live, cond_false]
  rw [halved, modQp_live there live]
  rfl

theorem ceMark_answers (due : ∀ t0, q.sentCnp = some t0 → t0 + 50000 ≤ s.time) :
    ceMark qp s = emit (.cnp qp) { s with qps := tset s.qps qp { q with sentCnp := some s.time } } := by
  have sent : ceMark qp s = emit (.cnp qp) (modQp qp (fun q => { q with sentCnp := some s.time }) s) := by
    cases last : q.sentCnp with
    | none => simp only [ceMark, some_, live, last, Bool.or_self, cond_false]
    | some t0 =>
      have past : Nat.blt s.time (t0 + 50000) = false := Bool.eq_false_iff.mpr (mt Nat.blt_eq.mp (Nat.not_lt.mpr (due t0 last)))
      simp only [ceMark, some_, live, last, past, Bool.or_self, cond_false]
  rw [sent, modQp_live some_ live]

theorem ceMark_quiet {t0 : Time} (last : q.sentCnp = some t0) (soon : s.time < t0 + 50000) : ceMark qp s = s := by
  simp only [ceMark, some_, live, last, Nat.blt_eq.mpr soon, Bool.or_true, cond_true]

theorem rateRecover_due (quiet : q.rateAt + 55000 ≤ s.time) (low : q.rate < 2 ^ 32) : rateRecover qp s =
    { s with qps := tset s.qps qp { q with rate := Nat.min (2 ^ 32) (q.rate + 2 ^ 32 / 20), rateAt := s.time } } := by
  have recovers : (Nat.blt s.time (q.rateAt + 55000) || Nat.ble (2 ^ 32) q.rate) = false := by
    rw [Bool.or_eq_false_iff, Bool.eq_false_iff, Bool.eq_false_iff, ne_eq, ne_eq, Nat.blt_eq, Nat.ble_eq]
    exact ⟨Nat.not_lt.mpr quiet, Nat.not_le.mpr low⟩
  rw [rateRecover, modQp_live some_ live, recovers]
  rfl

end
end

theorem connectionRequest_deaf {port : Nat} {s : State} (deaf : awake s = false ∨ s.recovery = true ∨ portUp s port = false) (kind : ConnKind)
    (terms : ConnTerms) : connectionRequest port kind terms s = s := by
  have out : (!(awake s) || s.recovery || !(portUp s port)) = true := by
    rcases deaf with asleep | recovers | down
    · rw [asleep]; rfl
    · rw [recovers, Bool.or_true, Bool.true_or]
    · rw [down, Bool.not_false, Bool.or_true]
  unfold connectionRequest
  rw [out, cond_true]

/-- A connection request: within the limits it becomes a queue pair. -/
def connectionGiven (s : State) (kind : ConnKind) (terms : ConnTerms) : Option QpKind :=
  if (terms.mtu = 1024 ∨ terms.mtu = 4096) ∧ liveQps s (fun _ => true) < 1024 then connectionKind s kind else none

theorem connectionRequest_heard {port : Nat} {s : State} (wakes : awake s = true) (normal : s.recovery = false) (up : portUp s port = true)
    (kind : ConnKind) (terms : ConnTerms) :
    (∀ q, connectionGiven s kind terms = some q →
      connectionRequest port kind terms s = emit (.connection port (some s.nextQp)) (addQp port q terms s)) ∧
    (connectionGiven s kind terms = none → connectionRequest port kind terms s = emit (.connection port none) s) := by
  have given : (bif mtuOk terms.mtu && Nat.blt (liveQps s fun _ => true) 1024 then connectionKind s kind else none) = connectionGiven s kind terms := by
    unfold connectionGiven mtuOk
    rw [Bool.cond_eq_ite]
    simp only [Bool.and_eq_true, Bool.or_eq_true, beq_iff_eq, Nat.blt_eq]
  unfold connectionRequest
  rw [wakes, normal, up, given]
  refine ⟨fun q some_ => ?_, fun none_ => ?_⟩
  · rw [some_]
    rfl
  · rw [none_]
    rfl

theorem connectionKind_data {s : State} {n : Fin 32} (stands : (session s n).state ≠ .closed) (room : liveQps s (· == .data n.val) < 16) :
    connectionKind s (.data n) = some (.data n) := by
  simp only [connectionKind, beq_false_of_ne stands, Nat.blt_eq.mpr room, Bool.not_false, Bool.and_self, cond_true]

/-! ## Host ports (R303, R318, R420) -/

/-- A port that goes down fails its queue pairs; sessions remain. -/
theorem hostPortDown_leaves (port : Nat) (s : State) : portUp (hostPortDown port s) port = false ∧ (hostPortDown port s).sessions = s.sessions ∧
    ∀ n q, (n, q) ∈ (hostPortDown port s).qps → q.port = port → q.failed = true := by
  refine ⟨?_, rfl, fun n q mem here => ?_⟩
  · have low : fld (hostPortDown port s) .hstPstat port 0 31 31 = 0 := fld_setFld_self _ .hstPstat port 0 0 (by decide) (by decide)
    rw [portUp, flag_eq_fld, low]
    rfl
  · obtain ⟨⟨n', q'⟩, -, is⟩ := List.mem_map.mp (show (n, q) ∈ s.qps.map fun q => bif q.2.port == port then (q.1, { q.2 with failed := true }) else q from mem)
    cases own : q'.port == port
    case true =>
      rw [own, cond_true, Prod.mk.injEq] at is
      rw [← is.2]
    case false =>
      rw [own, cond_false, Prod.mk.injEq] at is
      rw [is.2, here, beq_self_eq_true] at own
      contradiction

theorem hostPortUp_eq (port : Nat) (s : State) : hostPortUp port s =
    if s.hostsUp = true ∧ portHasMac s port = true ∧ (engine s (10 + port / 2)).lit = true ∧ isUp s 6 (10 + port / 2) = true ∧
      portLanesUp s port = true then setFld .hstPstat port 0 31 31 1 s else s := by
  unfold hostPortUp raisePort
  rw [Bool.cond_eq_ite, Bool.cond_eq_ite]
  by_cases hosts : s.hostsUp = true
  · rw [if_pos hosts]
    simp only [Bool.and_eq_true, and_assoc, hosts, true_and]
  · rw [if_neg hosts, if_neg (fun h => hosts h.1)]

theorem portLanesUp_iff (s : State) (port : Nat) :
    portLanesUp s port = true ↔ ∀ j d, j < 4 → d < 2 → laneState s (10 + port / 2) d (port % 2 * 4 + j) = 2 := by
  unfold portLanesUp
  simp only [List.all_eq_true, List.mem_range, beq_iff_eq]
  exact ⟨fun h j d hj hd => h j hj d hd, fun h j hj d hd => h j d hj hd⟩

/-- ECT(0) on every RoCE packet that the part sends, and on nothing else (R418). -/
theorem ecnOf_eq_two (o : Output) : ecnOf o = 2 ↔ (∃ q r, o = .reply q r) ∨ (∃ q r, o = .rdma q r) ∨ (∃ q, o = .cnp q) ∨
    (∃ q n w a b k, o = .gatewayOp q n w a b k) ∨ (∃ q st d, o = .gatewayAnswer q st d) ∨ ∃ q, o = .invalidRequest q := by
  cases o <;> simp [ecnOf]

/-- Settles O51, command by command. The pause quantum (log entry 288), the RoCE opcodes (158), rate units (159), frames of unknown queue
pairs (161) and ECT(0) marks (289) are the model's reading. -/
theorem sessionsAndHostPorts : Obligations.SessionsAndHostPorts := by
  unfold Obligations.SessionsAndHostPorts
  intro t s u
  refine ⟨fun n => ?sessions, fun n st idle => beginFreeing_idle idle st, fun qp n rkey va len wakes serves => ?rdma,
    fun port wakes normal up => ?frames, fun port deaf => ?deaf, fun port qp opcode ce => ?roce, ⟨rfl, rfl, fun n => connectionKind_data⟩,
    fun qp q some_ live => ?pairs, fun port => ⟨_, rfl, hostPortDown_leaves port u⟩, fun port => congrArg _ (hostPortUp_eq port u),
    fun port => portLanesUp_iff s port, ecnOf_eq_two⟩
  case sessions =>
    intro x serves
    have lease : leaseOver u n = true ↔ x.state = .open_ ∧ x.renewed + leaseLength s x.part ≤ u.time := by
      unfold leaseOver
      rw [Bool.and_eq_true, beq_iff_eq, Nat.ble_eq]
      rfl
    refine ⟨fun on open_ over_ => ⟨_, rfl, leaseCheck_over (s := u) on.1 on.2 n.isLt (lease.mpr ⟨open_, over_⟩)⟩,
      fun on open_ holds => ⟨_, rfl, leaseCheck_holds (s := u) on.1 on.2 (Bool.eq_false_iff.mpr fun h => Nat.not_le.mpr holds (lease.mp h).2)⟩,
      fun on state due => congrArg (fun y => Host.Outcome.next (collStops u y)) (orphrunExpire_due (s := u) on.1 on.2 state due),
      fun on state due => congrArg (fun y => Host.Outcome.next (collStops u y)) (holdExpire_due (s := u) on.1 on.2 state due),
      fun state progs pages => congrArg _ (sessionFreed_done (s := u) state progs pages),
      fun l li h low list runs opened enabled read => congrArg _ (tailNotice_ok (s := u) low list runs opened enabled read),
      fun l li st low list runs opened enabled read => congrArg _ (tailNotice_error (s := u) low list runs opened enabled read),
      fun l no => congrArg _ (tailNotice_none (s := u) no)⟩
  case rdma =>
    intro x reads
    have access (write : Option (List Byte)) : exec (.rdmaDataAccess qp rkey va write len t) s = .next (rdmaAccess qp rkey va write len u) := by
      show Host.Outcome.next (bif awake s then _ else _) = _
      rw [wakes]
      rfl
    have window (a : Nat) : exec (.statusWindowRead qp rkey a len t) s = .next (windowRead qp rkey a len u) := by
      show Host.Outcome.next (bif awake s then _ else _) = _
      rw [wakes]
      rfl
    refine ⟨fun refused => ?_, fun bs ok read => ?_, fun st ok read => ?_, fun bs => ⟨fun writes => ?_, fun refused => ?_⟩,
      fun a i is key stands aligned whole => ?_, fun a refused => ?_⟩
    · rw [access, rdmaAccess_read_refused (s := u) serves refused]
    · exact (access none).trans (congrArg _ ((rdmaAccess_read (s := u) serves ok).1 bs read))
    · exact (access none).trans (congrArg _ ((rdmaAccess_read (s := u) serves ok).2 st read))
    · rw [access, rdmaAccess_write (s := u) serves writes]
      rfl
    · rw [access, rdmaAccess_write_refused (s := u) serves refused]
    · rw [window, windowRead_words (s := u) serves is key stands aligned whole]
    · rw [window, windowRead_refused (s := u) serves refused]
  case frames =>
    have own {fr : HostFrame} (h : frameFor u port fr = true) : exec (.hostFrameReceive port fr t) s = .next (frameServed port u fr) :=
      congrArg _ (hostFrame_own (s := u) wakes normal up h)
    refine ⟨fun fr a dst other => ?_, fun a h => own h, fun a h => own h, fun a h => own h, own rfl, fun a p syn h => ?_, fun prio quanta => ?_,
      fun a qp opcode ce h => own h, fun kind terms => ?_⟩
    · refine congrArg _ (hostFrame_other (s := u) wakes normal up ?_)
      unfold frameFor
      rw [dst]
      exact other
    · rw [own (fr := .tcp a p syn) h]
      refine congrArg _ ?_
      unfold frameServed
      dsimp only
      rw [Bool.cond_eq_ite, Bool.cond_eq_ite]
      simp only [Bool.not_eq_true', beq_eq_false_iff_ne]
      rfl
    · exact (own rfl).trans (congrArg _ (pauseFrame_eq ..))
    · obtain ⟨given, refused⟩ := connectionRequest_heard (s := u) wakes normal up kind terms
      split
      next q some_ => exact congrArg _ (given q some_)
      next none_ => exact congrArg _ (refused none_)
  case deaf =>
    exact ⟨fun fr => congrArg _ (hostFrame_deaf (s := u) deaf fr), fun kind terms => congrArg _ (connectionRequest_deaf (s := u) deaf kind terms)⟩
  case roce =>
    refine ⟨roceFrame_drop, fun q some_ live here => ⟨fun cnp => ?_, fun no low => ?_, fun no high => ?_⟩⟩
    · rw [roceFrame_live some_ live here, cnp]
      rfl
    · rw [roceFrame_live some_ live here, beq_false_of_ne no, Nat.ble_eq_true_of_le low]
      rfl
    · rw [roceFrame_live some_ live here, beq_false_of_ne no, Bool.eq_false_iff.mpr (mt Nat.ble_eq.mp (Nat.not_le.mpr high))]
      rfl
  case pairs =>
    exact ⟨congrArg _ (cnpReceive_live (s := u) some_ live), fun due => congrArg _ (ceMark_answers (s := u) some_ live due),
      fun t0 last soon => congrArg _ (ceMark_quiet (s := u) some_ live last soon),
      fun quiet low => congrArg _ (rateRecover_due (s := u) some_ live quiet low)⟩

end Sys2Proof.Machine
end

section
/-! SUPPORT. The boot, measurement registers and owner keys as the statement of chapter 14 has them (R442 to R450, R452, R461). -/

namespace Sys2Proof.Machine

/-! ## The boot record (R442) -/

/-- The copy in force is copy 1, or it is copy 0. -/
theorem bootRecord_inForce (f : Flash) :
    ((bootRecord f).1 = true → ∀ b, f.rec1 = some b → b = (bootRecord f).2) ∧
      ((bootRecord f).1 = false → ∀ a, f.rec0 = some a → a = (bootRecord f).2) := by
  cases h0 : f.rec0 with
  | none =>
    cases h1 : f.rec1 with
    | none => simp [bootRecord, h0, h1]
    | some b => simp [bootRecord, h0, h1]
  | some a =>
    cases h1 : f.rec1 with
    | none => simp [bootRecord, h0, h1]
    | some b => cases lt : Nat.blt a.seq b.seq <;> simp [bootRecord, h0, h1, lt]

/-- A copy with the highest sequence number is in force. -/
theorem bootRecord_newest (f : Flash) (x : BootRec) :
    ((∀ b, f.rec1 = some b → b.seq < x.seq) → (bootRecord { f with rec0 := some x }).2 = x) ∧
      ((∀ a, f.rec0 = some a → a.seq < x.seq) → (bootRecord { f with rec1 := some x }).2 = x) := by
  refine ⟨fun newer => ?_, fun newer => ?_⟩
  · cases old : f.rec1 with
    | none => simp [bootRecord]
    | some b =>
      have higher : Nat.blt x.seq b.seq = false := Bool.eq_false_iff.mpr (mt Nat.blt_eq.mp (Nat.not_lt.mpr (Nat.le_of_lt (newer b old))))
      simp [bootRecord, higher]
  · cases old : f.rec0 with
    | none => simp [bootRecord]
    | some a =>
      have lower : Nat.blt a.seq x.seq = true := Nat.blt_eq.mpr (newer a old)
      simp [bootRecord, lower]

/-- A changed record is in force, with the next sequence number. -/
theorem bootRec_writeRecord {s : State} (fits : (bootRec s).seq + 1 < 2 ^ 32) (r : BootRec) :
    bootRec (writeRecord r s) = { r with seq := (bootRec s).seq + 1 } := by
  have seq : ((bootRecord s.flash).2.seq + 1) % 2 ^ 32 = (bootRec s).seq + 1 := Nat.mod_eq_of_lt fits
  obtain ⟨copy1, copy0⟩ := bootRecord_inForce s.flash
  obtain ⟨newest0, newest1⟩ := bootRecord_newest s.flash { r with seq := (bootRec s).seq + 1 }
  unfold writeRecord
  dsimp only
  rw [seq, bootRec]
  dsimp only
  cases force : (bootRecord s.flash).1
  case true => exact newest0 fun b hb => copy1 force b hb ▸ Nat.lt_succ_self _
  case false => exact newest1 fun a ha => copy0 force a ha ▸ Nat.lt_succ_self _

/-- The record is kept in flash, and nothing else changes with it. -/
theorem writeRecord_leaves (r : BootRec) (s : State) : ∃ f, writeRecord r s = { s with flash := f } := ⟨_, rfl⟩

/-! ## Measurement registers (R450) -/

theorem mr_extendMr_self (n : Nat) (d : BitVec 384) (s : State) : mr (extendMr n d s) n = mrExtended (mr s n) d := tget_tset_self ..

theorem mr_extendMr_ne {n m : Nat} (h : m ≠ n) (d : BitVec 384) (s : State) : mr (extendMr n d s) m = mr s m := tget_tset_ne _ _ _ _ _ h

/-- Extending a measurement register counts it, and leaves the other registers. -/
theorem keepsRegs_extendMr {n : Nat} (hn : n < 16) (d : BitVec 384) (s : State) : KeepsRegs [.attMrcnt] s (extendMr n d s) := by
  have count : Stands .attMrcnt n 0 := stands_of_lt hn (by decide) rfl
  have counted : KeepsRegs [.attMrcnt] { s with mrs := tset s.mrs n (mrExtended (mr s n) d) } (extendMr n d s) :=
    keepsRegs_bumpFld count (by decide) 31 0 1 _
  exact (KeepsRegs.of_ctl _ rfl).trans counted

/-! ## Images (R444) -/

/-- A vendor image passes with its header, an unrevoked key slot, both signatures, its digest and an SVN not below the counter. -/
theorem verifyVendor_eq_zero (s : State) (id : Nat) (x : Image) : verifyVendor s id x = 0 ↔
    imageHeaderOk x id = true ∧ keySlotOk s.otp.vendor x = true ∧ Config.rsaVerifies x.rsaKey x.signed x.rsaSig = true ∧
      Config.slhVerifies x.slhKey x.signed x.slhSig = true ∧ bodyDigestOk x = true ∧ s.otp.counter ≤ imgSvn x := by
  have signed : imageSigned x = (Config.rsaVerifies x.rsaKey x.signed x.rsaSig && Config.slhVerifies x.slhKey x.signed x.slhSig) := rfl
  have current : Nat.blt (imgSvn x) s.otp.counter = false ↔ s.otp.counter ≤ imgSvn x := by
    rw [Bool.eq_false_iff, ne_eq, Nat.blt_eq, Nat.not_lt]
  unfold verifyVendor
  rw [signed, ← current]
  cases imageHeaderOk x id
  · simp
  cases keySlotOk s.otp.vendor x
  · simp
  cases Config.rsaVerifies x.rsaKey x.signed x.rsaSig
  · simp
  cases Config.slhVerifies x.slhKey x.signed x.slhSig
  · simp
  cases bodyDigestOk x
  · simp
  cases Nat.blt (imgSvn x) s.otp.counter <;> simp

/-! ## Processors held and released (R446, R447) -/

theorem stands_fwpStat {k : Nat} (hk : k < 35) : Stands .fwpStat k 0 := stands_of_lt hk (by decide) rfl

/-- A step that writes FWP_STAT alone and leaves the processors that are in state `c` there. -/
structure Gathers (c : Nat) (s t : State) : Prop where
  writes : WritesRegs [.fwpStat] s t
  stay : ∀ k, k < 35 → procState s k = c → procState t k = c

theorem Gathers.refl (c : Nat) (s : State) : Gathers c s s := ⟨.refl _ s, fun _ _ => id⟩

theorem Gathers.trans {c : Nat} {s t u : State} (h : Gathers c s t) (g : Gathers c t u) : Gathers c s u :=
  ⟨h.writes.trans g.writes, fun k hk => g.stay k hk ∘ h.stay k hk⟩

section
variable {c i : Nat} (hi : i < 35)
include hi

theorem gathers_setFwpStat {h l v : Nat} (s : State) (own : procState s i = c → procState (setFld .fwpStat i 0 h l v s) i = c) :
    Gathers c s (setFld .fwpStat i 0 h l v s) := by
  refine ⟨writesRegs_setFld (stands_fwpStat hi) (by decide) h l v s, fun k hk at_ => ?_⟩
  by_cases e : k = i
  · subst e
    exact own at_
  · have apart : regAddr .fwpStat k 0 ≠ regAddr .fwpStat i 0 :=
      regAddr_ne_of_stands (stands_fwpStat hk) (stands_fwpStat hi) fun same => e (by rw [Place.mk.injEq] at same; exact same.2.1)
    exact (fld_setFld_ne s v apart).trans at_

/-- A processor is set to state `c`. -/
theorem gathers_setState (hc : c < 4) (s : State) :
    Gathers c s (setFld .fwpStat i 0 31 30 c s) ∧ procState (setFld .fwpStat i 0 31 30 c s) i = c := by
  have set : procState (setFld .fwpStat i 0 31 30 c s) i = c :=
    (fld_setFld_self s .fwpStat i 0 c (by decide) (by decide)).trans (Nat.mod_eq_of_lt hc)
  exact ⟨gathers_setFwpStat hi s fun _ => set, set⟩

theorem gathers_startProc (s : State) : Gathers 0 s (startProc i s) ∧ procState (startProc i s) i = 0 := by
  have version : ∀ v, Gathers 0 s (setFld .fwpStat i 0 15 0 v s) := fun v => gathers_setFwpStat hi s fun at_ =>
    (fld_setFld_above s .fwpStat i 0 v (by decide) (by decide) (by decide)).trans at_
  obtain ⟨gathers, set⟩ := gathers_setState hi (c := 0) (by decide) (setFld .fwpStat i 0 15 0
    (match tget? s.images (procImage i) with | some x => imgVersion x % 65536 | none => 0) s)
  exact ⟨(version _).trans gathers, set⟩

end

/-- The processors but the boot core are held in reset. -/
def holdProcs (s : State) : State := (List.range 34).foldl (fun s k => setFld .fwpStat (k + 1) 0 31 30 3 s) s

theorem holdProcs_holds (s : State) : WritesRegs [.fwpStat] s (holdProcs s) ∧ ∀ k, 1 ≤ k → k < 35 → procState (holdProcs s) k = 3 := by
  have step : ∀ k ∈ List.range 34, ∀ s, Gathers 3 s (setFld .fwpStat (k + 1) 0 31 30 3 s) := fun k hk s =>
    (gathers_setState (by have := List.mem_range.mp hk; omega) (by decide) s).1
  refine ⟨(rel_foldl (Gathers.refl 3) Gathers.trans step s).writes, fun k low hk => ?_⟩
  obtain ⟨u, -, after⟩ := rel_foldl_at (Gathers.refl 3) Gathers.trans step (List.mem_range.mpr (show k - 1 < 34 by omega)) s
  have set := (gathers_setState (show k - 1 + 1 < 35 by omega) (c := 3) (by decide) u).2
  rw [Nat.sub_add_cancel low] at set after
  exact after.stay k hk set

/-- Every processor runs. -/
def startProcs (s : State) : State := (List.range 35).foldl (fun s i => startProc i s) s

theorem startProcs_run (s : State) : WritesRegs [.fwpStat] s (startProcs s) ∧ ∀ k, k < 35 → procState (startProcs s) k = 0 := by
  have step : ∀ k ∈ List.range 35, ∀ s, Gathers 0 s (startProc k s) := fun k hk s => (gathers_startProc (List.mem_range.mp hk) s).1
  refine ⟨(rel_foldl (Gathers.refl 0) Gathers.trans step s).writes, fun k hk => ?_⟩
  obtain ⟨u, -, after⟩ := rel_foldl_at (Gathers.refl 0) Gathers.trans step (List.mem_range.mpr hk) s
  exact after.stay k hk (gathers_startProc hk u).2

/-! ## BOOT_START (R446, R448, R450) -/

/-- What the boot keeps once straps are sampled: when it began, who owns the part, OTP, the straps, BOOT_SEL as shown, and the states of
processors. -/
structure KeepsBoot (s t : State) : Prop where
  bootAt : t.bootAt = s.bootAt
  owned : t.owned = s.owned
  otp : t.otp = s.otp
  strap : raw t .genStrap 0 0 = raw s .genStrap 0 0
  sel : fld t .attBoot 0 0 5 4 = fld s .attBoot 0 0 5 4
  procs : ∀ k, k < 35 → procState t k = procState s k

theorem KeepsBoot.trans {s t u : State} (h : KeepsBoot s t) (g : KeepsBoot t u) : KeepsBoot s u :=
  ⟨g.bootAt.trans h.bootAt, g.owned.trans h.owned, g.otp.trans h.otp, g.strap.trans h.strap, g.sel.trans h.sel,
    fun k hk => (g.procs k hk).trans (h.procs k hk)⟩

theorem KeepsBoot.of_ctl {s t : State} (bootAt : t.bootAt = s.bootAt) (owned : t.owned = s.owned) (otp : t.otp = s.otp) (ctl : t.ctl = s.ctl) :
    KeepsBoot s t :=
  ⟨bootAt, owned, otp, by rw [raw, ctl]; rfl, by rw [fld, raw, ctl]; rfl, fun k _ => by rw [procState, fld, raw, ctl]; rfl⟩

theorem stands_genStrap : Stands .genStrap 0 0 := stands_of_lt (by decide) (by decide) rfl

theorem stands_attBoot : Stands .attBoot 0 0 := stands_of_lt (by decide) (by decide) rfl

/-- A step that writes other registers. -/
theorem KeepsBoot.of_regs {w : List Reg} {s t : State} (regs : KeepsRegs w s t) (bootAt : t.bootAt = s.bootAt) (owned : t.owned = s.owned)
    (otp : t.otp = s.otp) (strap : .genStrap ∉ w) (boot : .attBoot ∉ w) (stat : .fwpStat ∉ w) : KeepsBoot s t :=
  ⟨bootAt, owned, otp, regs _ _ _ stands_genStrap strap, regs.fld_eq stands_attBoot boot 5 4,
    fun _ hk => regs.fld_eq (stands_fwpStat hk) stat 31 30⟩

/-- Showing flash and OTP leaves BOOT_SEL as shown. -/
theorem sel_showAtt (s : State) : fld (showAtt s) .attBoot 0 0 5 4 = fld s .attBoot 0 0 5 4 := by
  have svn : regAddr .attBoot 0 0 ≠ regAddr .attSvn 0 0 := by decide
  have keys : regAddr .attBoot 0 0 ≠ regAddr .attKeys 0 0 := by decide
  unfold showAtt
  extract_lets r act other s1 s2 s3 s4
  have shown4 : fld s4 .attBoot 0 0 5 4 = fld s3 .attBoot 0 0 5 4 := by
    unfold s4
    cases s3.verified
    · rfl
    · exact fld_setFld_ne _ _ svn
  have shown2 : fld s2 .attBoot 0 0 5 4 = fld s1 .attBoot 0 0 5 4 := by
    unfold s2
    rw [fld_setFld_below _ _ _ _ _ (by decide) (by decide) (by decide) (by decide), fld_setFld_above _ _ _ _ _ (by decide) (by decide) (by decide),
      fld_setFld_above _ _ _ _ _ (by decide) (by decide) (by decide)]
  rw [fld_setFld_ne _ _ keys, fld_setFld_ne _ _ keys, fld_setFld_ne _ _ keys, shown4, fld_setFld_ne _ _ svn, fld_setFld_ne _ _ svn, shown2,
    fld_setFld_below _ _ _ _ _ (by decide) (by decide) (by decide) (by decide)]

theorem keepsBoot_showAtt (s : State) : KeepsBoot s (showAtt s) := by
  have writes := writesRegs_showAtt s
  obtain ⟨c, rest⟩ := writes.rest
  exact ⟨by rw [rest], by rw [rest], by rw [rest], writes.regs _ _ _ stands_genStrap (by decide), sel_showAtt s,
    fun _ hk => writes.regs.fld_eq (stands_fwpStat hk) (by decide) 31 30⟩

theorem keepsBoot_extendMr {n : Nat} (hn : n < 16) (d : BitVec 384) (s : State) : KeepsBoot s (extendMr n d s) :=
  .of_regs (keepsRegs_extendMr hn d s) rfl rfl rfl (by decide) (by decide) (by decide)

/-- The choice of the bank touches the record and RESULT. -/
theorem keepsBoot_trialChoice (s : State) : KeepsBoot s (trialChoice s) ∧ (trialChoice s).mrs = s.mrs ∧ (trialChoice s).recovery = s.recovery := by
  have stands : Stands .updStat 0 0 := stands_of_lt (by decide) (by decide) rfl
  unfold trialChoice
  extract_lets r
  cases r.trial && r.tried
  case true =>
    exact ⟨.of_regs (w := [.updStat]) ((KeepsRegs.of_ctl _ rfl).trans (keepsRegs_setFld stands (by decide) 31 28 10 _)) rfl rfl rfl
      (by decide) (by decide) (by decide), rfl, rfl⟩
  case false =>
    rw [cond_false]
    cases r.trial
    · exact ⟨.of_ctl rfl rfl rfl rfl, rfl, rfl⟩
    · exact ⟨.of_ctl rfl rfl rfl rfl, rfl, rfl⟩

/-- The straps are sampled, and the other processors held. -/
def strapped (straps : Nat) (s : State) : State :=
  holdProcs (setRaw .genStrap 0 0 straps { s with bootAt := some s.time, owned := ownedNow s })

/-- BOOT_SEL is shown and the bank chosen. -/
def bankChosen (sel : Nat) (s : State) : State :=
  bif sel == 0 then trialChoice (setFld .attBoot 0 0 5 4 sel s) else { setFld .attBoot 0 0 5 4 sel s with bootB := sel == 2 }

/-- What MR0 is extended with of the choice of the bank: 0 for bank A, 1 for bank B, 2 for none. -/
def bankByte (sel : Nat) (s : State) : Byte := bif sel == 3 then 2 else BitVec.ofNat 8 (b01 s.bootB)

/-- MR0 is extended with the ROM, the OTP and the choice of the bank. -/
def bootMeasured (sel : Nat) (s : State) : State :=
  extendMr 0 (digestOf [bankByte sel s, BitVec.ofNat 8 sel]) (extendMr 0 (digestOf (otpBytes s)) (extendMr 0 Config.romDigest s))

/-- The part boots, or with BOOT_SEL 3 enters recovery. -/
def bootGoesOn (sel : Nat) (s : State) : State := bif sel == 3 then enterRecovery s else showAtt s

section
variable {straps : Nat} {s : State}

theorem bootStart_eq (wakes : s.inReset = none) (cool : s.tripped = false) (regs : s.regsUp = true) (fresh : s.bootAt = none) :
    bootStart straps s = bootGoesOn (bootSel (strapped straps s))
      (bootMeasured (bootSel (strapped straps s)) (bankChosen (bootSel (strapped straps s)) (strapped straps s))) := by
  have starts : (s.inReset.isSome || s.tripped || !s.regsUp || s.bootAt.isSome) = false := by rw [wakes, cool, regs, fresh]; rfl
  unfold bootStart
  rw [starts, cond_false]
  rfl

theorem raw_genStrap_strapped (h : straps < 2 ^ 16) : raw (strapped straps s) .genStrap 0 0 = straps := by
  rw [strapped, (holdProcs_holds _).1.regs _ _ _ stands_genStrap (by decide), raw_setRaw_self]
  exact Nat.mod_eq_of_lt (by omega)

theorem bootSel_strapped (h : straps < 2 ^ 16) : bootSel (strapped straps s) = straps / 2 ^ 14 := by
  rw [bootSel, fld, raw_genStrap_strapped h, bits]
  exact Nat.mod_eq_of_lt (by omega)

/-- Sampling the straps leaves the measurement registers and OTP. -/
theorem strapped_leaves (straps : Nat) (s : State) : (strapped straps s).bootAt = some s.time ∧ (strapped straps s).owned = ownedNow s ∧
    (strapped straps s).otp = s.otp ∧ (strapped straps s).mrs = s.mrs := by
  obtain ⟨c, rest⟩ := (holdProcs_holds (setRaw .genStrap 0 0 straps { s with bootAt := some s.time, owned := ownedNow s })).1.rest
  rw [strapped, rest]
  exact ⟨rfl, rfl, rfl, rfl⟩

/-- The choice of the bank shows BOOT_SEL and keeps the rest of the boot. -/
theorem bankChosen_leaves {sel : Nat} (hs : sel < 4) (s : State) : KeepsBoot (setFld .attBoot 0 0 5 4 sel s) (bankChosen sel s) ∧
    fld (bankChosen sel s) .attBoot 0 0 5 4 = sel ∧ (bankChosen sel s).mrs = s.mrs := by
  have shown : fld (setFld .attBoot 0 0 5 4 sel s) .attBoot 0 0 5 4 = sel :=
    (fld_setFld_self s .attBoot 0 0 sel (by decide) (by decide)).trans (Nat.mod_eq_of_lt hs)
  obtain ⟨kept, mrs, -⟩ := keepsBoot_trialChoice (setFld .attBoot 0 0 5 4 sel s)
  unfold bankChosen
  cases sel == 0
  · have kept : KeepsBoot (setFld .attBoot 0 0 5 4 sel s) { setFld .attBoot 0 0 5 4 sel s with bootB := sel == 2 } := .of_ctl rfl rfl rfl rfl
    exact ⟨kept, kept.sel.trans shown, rfl⟩
  · exact ⟨kept, kept.sel.trans shown, mrs⟩

/-- The measurement of the boot. -/
theorem bootMeasured_leaves (sel : Nat) (s : State) : KeepsBoot s (bootMeasured sel s) ∧ (bootMeasured sel s).bootB = s.bootB ∧
    mr (bootMeasured sel s) 0 = mrExtended (mrExtended (mrExtended (mr s 0) Config.romDigest) (digestOf (otpBytes s)))
      (digestOf [bankByte sel s, BitVec.ofNat 8 sel]) := by
  have extends_ := fun d u => keepsBoot_extendMr (n := 0) (by decide) d u
  refine ⟨(extends_ _ s).trans ((extends_ _ _).trans (extends_ _ _)), rfl, ?_⟩
  rw [bootMeasured, mr_extendMr_self, mr_extendMr_self, mr_extendMr_self]

theorem bootGoesOn_leaves (sel : Nat) (s : State) : KeepsBoot s (bootGoesOn sel s) ∧ (bootGoesOn sel s).bootB = s.bootB ∧
    (bootGoesOn sel s).mrs = s.mrs ∧ (sel = 3 → (bootGoesOn sel s).recovery = true) := by
  have show_ : ∀ u, KeepsBoot u (showAtt u) ∧ (showAtt u).bootB = u.bootB ∧ (showAtt u).mrs = u.mrs ∧ (showAtt u).recovery = u.recovery := by
    intro u
    obtain ⟨c, rest⟩ := (writesRegs_showAtt u).rest
    exact ⟨keepsBoot_showAtt u, by rw [rest], by rw [rest], by rw [rest]⟩
  unfold bootGoesOn
  cases three : sel == 3
  case true =>
    obtain ⟨kept, bank, mrs, recovery⟩ := show_ (raiseCount { s with recovery := true })
    have counted : KeepsBoot s (raiseCount { s with recovery := true }) := .of_ctl rfl rfl rfl rfl
    exact ⟨counted.trans kept, bank, mrs, fun _ => recovery⟩
  case false =>
    obtain ⟨kept, bank, mrs, -⟩ := show_ s
    exact ⟨kept, bank, mrs, fun is => absurd is (beq_eq_false_iff_ne.mp three)⟩

/-- What BOOT_START leaves, with the straps' BOOT_SEL. -/
theorem bootStart_leaves {sel : Nat} (h : straps < 2 ^ 16) (is : straps / 2 ^ 14 = sel) (wakes : s.inReset = none) (cool : s.tripped = false)
    (regs : s.regsUp = true) (fresh : s.bootAt = none) :
    (bootStart straps s).bootAt = some s.time ∧ raw (bootStart straps s) .genStrap 0 0 = straps ∧
      fld (bootStart straps s) .attBoot 0 0 5 4 = sel ∧ (bootStart straps s).owned = ownedNow s ∧
      (∀ k, 1 ≤ k → k < 35 → procState (bootStart straps s) k = 3) ∧ (sel = 3 → (bootStart straps s).recovery = true) ∧
      mr (bootStart straps s) 0 = mrExtended (mrExtended (mrExtended (mr s 0) Config.romDigest) (digestOf (otpBytes s)))
        (digestOf [bankByte sel (bootStart straps s), BitVec.ofNat 8 sel]) := by
  have four : sel < 4 := by omega
  have sampled : bootSel (strapped straps s) = sel := (bootSel_strapped h).trans is
  obtain ⟨began, owner, otp, mrs⟩ := strapped_leaves straps s
  obtain ⟨choice, shown, mrs'⟩ := bankChosen_leaves four (strapped straps s)
  have boot : KeepsRegs [.attBoot] (strapped straps s) (setFld .attBoot 0 0 5 4 sel (strapped straps s)) :=
    keepsRegs_setFld stands_attBoot (by decide) 5 4 _ _
  have held : ∀ k, 1 ≤ k → k < 35 → procState (strapped straps s) k = 3 := (holdProcs_holds _).2
  have strap := raw_genStrap_strapped (s := s) h
  rw [bootStart_eq wakes cool regs fresh, sampled]
  generalize strapped straps s = y at *
  obtain ⟨measured, bank, mr0⟩ := bootMeasured_leaves sel (bankChosen sel y)
  obtain ⟨goes, bank', mrs'', recovery⟩ := bootGoesOn_leaves sel (bootMeasured sel (bankChosen sel y))
  have later := choice.trans (measured.trans goes)
  refine ⟨by rw [later.bootAt, setFld_bootAt, began], ?_, (measured.trans goes).sel.trans shown, by rw [later.owned, setFld_owned, owner],
    fun k low hk => ?_, recovery, ?_⟩
  · rw [later.strap, boot _ _ _ stands_genStrap (by decide), strap]
  · rw [later.procs k hk, procState, boot.fld_eq (stands_fwpStat hk) (by decide)]
    exact held k low hk
  · have otp' : (bankChosen sel y).otp = s.otp := by rw [choice.otp, setFld_otp, otp]
    have bytes : otpBytes (bankChosen sel y) = otpBytes s := by unfold otpBytes ownedNow; rw [otp']
    have first : mr (bankChosen sel y) 0 = mr s 0 := by rw [mr, mrs', mrs, mr]
    have same : bankByte sel (bootGoesOn sel (bootMeasured sel (bankChosen sel y))) = bankByte sel (bankChosen sel y) := by
      rw [bankByte, bank', bank, bankByte]
    rw [same, ← bytes, ← first, ← mr0, mr, mrs'', mr]

end

/-! ## BOOT_IMAGES_VERIFIED (R447) -/

/-- The bank that boots is the same. -/
def SameBank (s t : State) : Prop := t.bootB = s.bootB

theorem SameBank.refl (s : State) : SameBank s s := Eq.refl s.bootB

theorem SameBank.trans {s t u : State} (h : SameBank s t) (g : SameBank t u) : SameBank s u := Eq.trans g h

theorem SameBank.foldl {α : Type} {f : State → α → State} (step : ∀ s x, SameBank s (f s x)) (l : List α) (s : State) :
    SameBank s (l.foldl f s) :=
  rel_foldl SameBank.refl SameBank.trans (fun x _ s => step s x) s

theorem sameBank_raise (code : BitVec 16) (sev : Nat) (part : Option Nat) (unit : Nat) (data : W64) (s : State) :
    SameBank s (raise code sev part unit data s) := by
  obtain ⟨⟨_, _, rest⟩, -⟩ := tells_raise code sev part unit data s
  rw [SameBank, rest]

theorem sameBank_showAtt (s : State) : SameBank s (showAtt s) := by
  obtain ⟨_, rest⟩ := (writesRegs_showAtt s).rest
  rw [SameBank, rest]

theorem sameBank_setFld (r : Reg) (i j h l v : Nat) (s : State) : SameBank s (setFld r i j h l v s) := rfl

theorem sameBank_extendMr (n : Nat) (d : BitVec 384) (s : State) : SameBank s (extendMr n d s) := rfl

theorem sameBank_setRoles (roles : Nat) (s : State) : SameBank s (setRoles roles s) := by
  refine SameBank.foldl (fun _ _ => ?_) _ s
  rfl

theorem sameBank_moduleRoles (body : Option (List Byte)) (s : State) : SameBank s (moduleRoles body s) := by
  refine SameBank.foldl (fun s l => ?_) _ s
  unfold linkRoles
  extract_lets given s1 rs
  have shown : SameBank s s1 := by unfold s1; cases rolesBad l given <;> rfl
  refine shown.trans (SameBank.foldl (fun _ _ => ?_) _ s1)
  rfl

theorem sameBank_useBootCfg (s : State) : SameBank s (useBootCfg s) := by
  unfold useBootCfg
  split
  next x _ =>
    extract_lets roles s1 s2 s3
    have taken : SameBank s s2 := rfl
    have shown : SameBank s2 s3 := by
      unfold s3
      cases roles == 15
      · exact sameBank_setRoles roles s2
      · exact SameBank.trans (sameBank_setRoles 8 s2) (sameBank_raise 0xB001 1 none 0 0 _)
    exact taken.trans (shown.trans ((sameBank_moduleRoles _ s3).trans (sameBank_extendMr ..)))
  next => exact (sameBank_setRoles 8 s).trans ((sameBank_moduleRoles none _).trans ((sameBank_raise ..).trans (sameBank_extendMr ..)))

theorem sameBank_useFabMap (s : State) : SameBank s (useFabMap s) := by
  unfold useFabMap
  cases flag s .genStrap 0 0 13
  · rfl
  · rw [Bool.not_true, cond_false]
    split
    · rfl
    · exact (sameBank_raise ..).trans (sameBank_extendMr ..)

theorem sameBank_setMinRefresh (m r : Nat) (s : State) : SameBank s (setMinRefresh m r s) := rfl

theorem sameBank_applyOverlay (k : Nat) (s : State) : SameBank s (applyOverlay k s) := by
  unfold applyOverlay
  extract_lets x o
  cases o.1 == x.ovV && o.2 == x.ovF
  · rw [cond_false]
    cases decide (x.ovV < o.1) || Nat.blt x.ovF o.2 || quiet s k <;> rfl
  · rfl

theorem sameBank_applyFeed (s : State) : SameBank s (applyFeed s) := by
  unfold applyFeed
  cases (List.range 24).all (quiet s) && (s.convs[0]?).getD true
  · rfl
  · rw [cond_true]
    extract_lets s1
    have taken : SameBank s s1 := by
      unfold s1
      split
      · split <;> rfl
      · rfl
    exact taken

theorem sameBank_showPlan (s : State) : SameBank s (showPlan s) := rfl

theorem sameBank_overlayInForce (o : Option (List Byte)) (s : State) : SameBank s (overlayInForce o s) := by
  unfold overlayInForce
  extract_lets s1 s2 s3 s4
  have sectors : SameBank s1 s2 := SameBank.foldl (fun s k => sameBank_applyOverlay k s) _ s1
  have refresh : SameBank s2 s3 := SameBank.foldl (fun s m => sameBank_setMinRefresh m _ s) _ s2
  have start : SameBank s s1 := rfl
  have shown : SameBank s3 s4 := sameBank_setFld ..
  exact start.trans (sectors.trans (refresh.trans (shown.trans ((sameBank_setFld ..).trans
    ((sameBank_applyFeed _).trans (sameBank_showPlan _))))))

theorem sameBank_bootOverlay (s : State) : SameBank s (bootOverlay s) := by
  unfold bootOverlay
  split
  · exact (sameBank_overlayInForce _ s).trans (sameBank_extendMr ..)
  · extract_lets s1
    have rejected : SameBank s s1 := by
      unfold s1
      split
      · rfl
      · exact SameBank.trans (t := showCheck _ s) rfl (sameBank_raise ..)
      · exact SameBank.trans (t := showCheck _ s) rfl (sameBank_raise ..)
    exact rejected.trans ((sameBank_overlayInForce none s1).trans (sameBank_extendMr ..))

theorem sameBank_useImages (b : Bank) (s : State) : SameBank s (useImages b s) := by
  unfold useImages
  extract_lets ext s1 s2 s3 s4
  have measured : ∀ id n s, SameBank s (ext id n s) := fun id n s => by unfold ext; split <;> rfl
  have config : SameBank s s1 := (measured 1 1 s).trans (sameBank_useBootCfg _)
  have overlay : SameBank s1 s2 := (sameBank_useFabMap s1).trans ((sameBank_extendMr ..).trans (sameBank_bootOverlay _))
  have banks : SameBank s2 s3 :=
    (measured 2 2 s2).trans ((measured 3 3 _).trans ((measured 4 3 _).trans ((measured 5 4 _).trans (measured 6 5 _))))
  refine config.trans (overlay.trans (banks.trans ?_))
  split <;> rfl

/-- The boot of a bank that passes: its images are in use and every processor runs. -/
def bootsBank (y : State) : State := showAtt (startProcs { (useImages (bankOf y y.bootB) (raiseCount y)) with verified := true })

theorem bootsBank_runs (y : State) : (bootsBank y).verified = true ∧ (bootsBank y).bootB = y.bootB ∧ ∀ i, i < 35 → procState (bootsBank y) i = 0 := by
  have images : SameBank y (useImages (bankOf y y.bootB) (raiseCount y)) := SameBank.trans (t := raiseCount y) rfl (sameBank_useImages ..)
  unfold bootsBank
  generalize useImages (bankOf y y.bootB) (raiseCount y) = w at images
  obtain ⟨writes, run⟩ := startProcs_run { w with verified := true }
  obtain ⟨_, started⟩ := writes.rest
  obtain ⟨_, shown⟩ := (writesRegs_showAtt (startProcs { w with verified := true })).rest
  refine ⟨?_, ?_, fun i hi => ?_⟩
  · rw [shown, started]
  · rw [shown, started]
    exact images
  · exact ((keepsBoot_showAtt _).procs i hi).trans (run i hi)

theorem bootImages_eq {s : State} (began : s.bootAt.isSome = true) (fresh : s.verified = false) (normal : s.recovery = false) :
    (fallBack s = none → bootImages s = enterRecovery s) ∧ ∀ y, fallBack s = some y → bootImages s = bootsBank y := by
  have starts : (s.bootAt.isNone || s.verified || s.recovery) = false := by rw [fresh, normal, ← Option.not_isSome, began]; rfl
  unfold bootImages
  rw [starts, cond_false]
  exact ⟨fun none_ => by rw [none_], fun y some_ => by rw [some_]; rfl⟩

/-- With no bank that passes the part is in recovery, and nothing counts as verified. -/
theorem enterRecovery_leaves (s : State) : (enterRecovery s).recovery = true ∧ (enterRecovery s).verified = s.verified := by
  obtain ⟨_, shown⟩ := (writesRegs_showAtt (raiseCount { s with recovery := true })).rest
  rw [enterRecovery, shown]
  exact ⟨rfl, rfl⟩

theorem fallBack_of_passes {s : State} (h : bankPasses s (bankOf s s.bootB) = true) : fallBack s = some s := by
  rw [fallBack, h, cond_true]

theorem bankPasses_atTime (t : Time) (s : State) (b : Bank) : bankPasses (atTime t s) b = bankPasses s b := by
  unfold bankPasses verifyVendor
  rw [atTime_otp]

/-! ## Timers of the boot (R448, R461) -/

theorem keysReadyNow_eq {s : State} {t0 : Time} (began : s.bootAt = some t0) :
    keysReadyNow s = if t0 + 600000000 ≤ s.time then { s with keysReady := true } else s := by
  unfold keysReadyNow
  rw [began]
  dsimp only
  rw [Bool.cond_eq_ite]
  simp only [Nat.ble_eq]

/-- The trial is kept: its record no longer says so. -/
def trialKept (s : State) : State := setFld .updStat 0 0 31 28 9 (showAtt (writeRecord { bootRec s with trial := false, tried := false } s))

theorem trialTimeout_eq {s : State} {t0 : Time} (began : s.bootAt = some t0) (trial : (bootRec s).trial = true) (tried : (bootRec s).tried = true)
    (sel : bootSel s = 0) (due : t0 + 30000000000 ≤ s.time) :
    ((∀ i, i < 35 → coreRuns s i = true) → trialTimeout s = trialKept s) ∧
      ((∃ i, i < 35 ∧ coreRuns s i = false) → trialTimeout s = internalReset 0 s) := by
  have over_ : ((bootRec s).trial && (bootRec s).tried && bootSel s == 0 && Nat.ble (t0 + 30000000000) s.time) = true := by
    rw [trial, tried, sel, Nat.ble_eq.mpr due]; rfl
  unfold trialTimeout
  rw [began]
  dsimp only
  rw [over_, cond_true]
  refine ⟨fun run => ?_, fun ⟨i, hi, held⟩ => ?_⟩
  · have all : (List.range 35).all (coreRuns s) = true := List.all_eq_true.mpr fun i hi => run i (List.mem_range.mp hi)
    rw [all, cond_true, trialKept]
  · have some_ : (List.range 35).all (coreRuns s) = false := List.all_eq_false.mpr ⟨i, List.mem_range.mpr hi, by rw [held]; decide⟩
    rw [some_, cond_false]

theorem trialKept_record {s : State} (fits : (bootRec s).seq + 1 < 2 ^ 32) :
    bootRec (trialKept s) = { bootRec s with trial := false, tried := false, seq := (bootRec s).seq + 1 } ∧
      fld (trialKept s) .updStat 0 0 31 28 = 9 := by
  obtain ⟨_, shown⟩ := (writesRegs_showAtt (writeRecord { bootRec s with trial := false, tried := false } s)).rest
  refine ⟨?_, fld_setFld_self _ .updStat 0 0 9 (by decide) (by decide)⟩
  rw [← bootRec_writeRecord fits { bootRec s with trial := false, tried := false }, trialKept, bootRec, setFld_flash, shown]
  rfl

/-! ## Owner keys (R445, R452) -/

theorem listMod_getElem? {α : Type} (l : List α) (n : Nat) (f : α → α) : (listMod l n f)[n]? = l[n]?.map f := by
  induction l generalizing n with
  | nil => rfl
  | cons x l ih =>
    cases n with
    | zero => rfl
    | succ n => exact ih n

theorem attOwnctl_ne_att : .attOwnctl ∉ attRegs := by decide

/-- The slot that ATT_OWNCTL names is set, and RESULT shown. -/
theorem setOwner_sets {s : State} {old : KeySlot} (h : s.otp.owner[fld s .attOwnctl 0 0 1 0]? = some old) (k : KeySlot) {result : Nat}
    (hr : result < 16) : (setOwner k result s).otp.owner[fld s .attOwnctl 0 0 1 0]? = some k ∧
      fld (setOwner k result s) .attOwnctl 0 0 7 4 = result := by
  have stands : Stands .attOwnctl 0 0 := stands_of_lt (by decide) (by decide) rfl
  unfold setOwner
  generalize e : ({ s with otp := { s.otp with owner := listMod s.otp.owner (fld s .attOwnctl 0 0 1 0) fun _ => k } } : State) = y
  have slot : y.otp.owner[fld s .attOwnctl 0 0 1 0]? = some k := by rw [← e, listMod_getElem?, h]; rfl
  have writes := writesRegs_showAtt (setFld .attOwnctl 0 0 7 4 result y)
  obtain ⟨_, rest⟩ := writes.rest
  refine ⟨?_, ?_⟩
  · rw [rest]
    exact slot
  · rw [writes.regs.fld_eq stands attOwnctl_ne_att, fld_setFld_self _ _ _ _ _ (by decide) (by decide)]
    exact Nat.mod_eq_of_lt hr

section
variable {s : State} {k : KeySlot} (h : s.otp.owner[fld s .attOwnctl 0 0 1 0]? = some k)
include h

theorem ownerSlot_eq : ownerSlot s = k := by rw [ownerSlot, h]; rfl

/-- An empty slot is enrolled with the digest in ATT_EXTD. -/
theorem ownerEnrol_empty (live : k.revoked = false) (empty : k.key = none) :
    (ownerEnrol s).otp.owner[fld s .attOwnctl 0 0 1 0]? = some { k with key := some (extd s) } ∧ fld (ownerEnrol s) .attOwnctl 0 0 7 4 = 0 := by
  have enrols : ownerEnrol s = setOwner { k with key := some (extd s) } 0 s := by
    unfold ownerEnrol
    rw [ownerSlot_eq h]
    dsimp only
    rw [live, empty]
    rfl
  rw [enrols]
  exact setOwner_sets h _ (by decide)

/-- A slot with a key is left, and RESULT says why. -/
theorem ownerEnrol_taken (taken : k.key.isSome = true) :
    (ownerEnrol s).otp.owner[fld s .attOwnctl 0 0 1 0]? = some k ∧ fld (ownerEnrol s) .attOwnctl 0 0 7 4 ≠ 0 := by
  have refuses : ownerEnrol s = setOwner k (if k.revoked = true then 2 else 1) s := by
    unfold ownerEnrol
    rw [ownerSlot_eq h]
    dsimp only
    rw [taken]
    cases k.revoked <;> rfl
  obtain ⟨slot, result⟩ := setOwner_sets h k (result := if k.revoked = true then 2 else 1) (by split <;> decide)
  rw [refuses]
  exact ⟨slot, by rw [result]; split <;> decide⟩

end

/-- Whether another owner slot is enrolled and unrevoked. -/
def OtherOwner (s : State) : Prop :=
  ∃ j x, j < 4 ∧ j ≠ fld s .attOwnctl 0 0 1 0 ∧ s.otp.owner[j]? = some x ∧ x.key.isSome = true ∧ x.revoked = false

theorem ownerRevoke_eq (s : State) : (OtherOwner s → ownerRevoke s = setOwner { ownerSlot s with revoked := true } 0 s) ∧
    (¬ OtherOwner s → ownerRevoke s = setOwner (ownerSlot s) 3 s) := by
  unfold ownerRevoke
  extract_lets k n left
  have other : left = true ↔ OtherOwner s := by
    unfold left
    rw [List.any_eq_true, OtherOwner]
    refine exists_congr fun j => ?_
    rw [List.mem_range]
    cases s.otp.owner[j]? with
    | none => simp
    | some x => simp [n]
  refine ⟨fun some_ => ?_, fun none_ => ?_⟩
  · rw [other.mpr some_, cond_true]
  · rw [Bool.eq_false_iff.mpr (mt other.mp none_), cond_false]

/-! ## Register writes (R445, R450, R452) -/

theorem attExtend_eq (lock : Bool) (s : State) : attExtend lock s =
    if lock = false ∧ 12 ≤ fld s .attExtctl 0 0 3 0 then extendMr (fld s .attExtctl 0 0 3 0) (extd s) s else s := by
  unfold attExtend
  dsimp only
  cases lock
  · rw [Bool.false_or, Bool.cond_eq_ite]
    by_cases low : fld s .attExtctl 0 0 3 0 < 12
    · rw [if_pos (Nat.blt_eq.mpr low), if_neg fun h => absurd h.2 (Nat.not_le.mpr low)]
    · rw [if_neg (mt Nat.blt_eq.mp low), if_pos ⟨rfl, Nat.not_lt.mp low⟩]
  · rfl

/-- GO extends the register that MR names, unless LOCK was set before the write. -/
theorem regCommand_attExtctl {s : State} {path : Path} {v : W32} (h : WritesReg s path .attExtctl 0 0 v) :
    let w := fetched path .attExtctl 0 0 v s
    let y := written .attExtctl 0 0 v w
    regCommand path .attExtctl 0 0 v s = answered path .attExtctl 0 0 0 w
      (bif bit v.toNat 31 then attExtend (locked w .attExtctl 0) y else y) :=
  regCommand_writes h rfl rfl rfl

theorem extendsIf_eq (go lock : Bool) (s : State) : (bif go then attExtend lock s else s) =
    if go = true ∧ lock = false ∧ 12 ≤ fld s .attExtctl 0 0 3 0 then extendMr (fld s .attExtctl 0 0 3 0) (extd s) s else s := by
  cases go
  · rfl
  · rw [cond_true, attExtend_eq]
    simp only [true_and]

theorem regCommand_attOwnctl {s : State} {path : Path} {v : W32} (h : WritesReg s path .attOwnctl 0 0 v) :
    regCommand path .attOwnctl 0 0 v s = answered path .attOwnctl 0 0 0 (fetched path .attOwnctl 0 0 v s)
      (ownCtlWritten v.toNat (written .attOwnctl 0 0 v (fetched path .attOwnctl 0 0 v s))) :=
  regCommand_writes h rfl rfl rfl

theorem ownCtlWritten_eq (v : Nat) (s : State) : ownCtlWritten v s =
    let y := if bit v 31 = true then ownerEnrol s else s
    if bit v 30 = true then ownerRevoke y else y := by
  unfold ownCtlWritten
  rw [Bool.cond_eq_ite, Bool.cond_eq_ite]

/-- Settles O53: each step of the boot is said once above, and every register write is carried by the rule for a served write. Which bytes
MR0 digests of the choice of the bank, recovery by BOOT_SEL, the decision 30 s into a trial and the ownership sampled at BOOT_START are the
model's readings (log entries 169, 172, 173 and 174). -/
theorem bootAndKeys : Obligations.BootAndKeys := by
  unfold Obligations.BootAndKeys
  intro t s u ext
  refine ⟨fun straps wakes cool regs fresh => ?_, fun began unverified normal => ⟨fun none_ => ?_, fun y some_ => ?_, fun passes => ?_⟩,
    verifyVendor_eq_zero s, fun t0 began => ⟨fun due => ?_, fun early => ?_⟩, fun t0 began trial tried sel due => ?_,
    fun r fits => bootRec_writeRecord fits r, fun n d => ⟨mr_extendMr_self n d s, fun m other => mr_extendMr_ne other d s⟩,
    fun path value h => ?_, fun path value h => ?_, fun k slot => ⟨ownerEnrol_empty slot, ownerEnrol_taken slot, fun j x hj other hx key live => ?_,
      fun alone => ?_⟩⟩
  · obtain ⟨bootAt, strap, sel, owner, held, recovery, mr0⟩ := bootStart_leaves (s := u) straps.isLt rfl wakes cool regs fresh
    refine ⟨bootStart straps.toNat u, rfl, bootAt, strap, sel, owner, held, recovery, _, mr0, ?_⟩
    rw [bankByte, Bool.cond_eq_ite]
    simp only [beq_iff_eq]
  · refine ⟨bootImages u, rfl, ?_⟩
    obtain ⟨recovers, same⟩ := enterRecovery_leaves u
    rw [(bootImages_eq (s := u) began unverified normal).1 none_]
    exact ⟨recovers, same.trans unverified⟩
  · refine ⟨bootImages u, rfl, ?_⟩
    rw [(bootImages_eq (s := u) began unverified normal).2 y some_]
    exact bootsBank_runs y
  · exact fallBack_of_passes ((bankPasses_atTime t s _).trans passes)
  · exact congrArg Host.Outcome.next ((keysReadyNow_eq (s := u) began).trans (if_pos due))
  · exact congrArg Host.Outcome.next ((keysReadyNow_eq (s := u) began).trans (if_neg (Nat.not_le.mpr early)))
  · obtain ⟨keep, reset⟩ := trialTimeout_eq (s := u) began trial tried sel due
    exact ⟨fun run fits => ⟨_, congrArg Host.Outcome.next (keep run), trialKept_record (s := u) fits⟩,
      fun held => congrArg Host.Outcome.next (reset held)⟩
  · exact congrArg Host.Outcome.next ((regCommand_attExtctl h).trans (congrArg _ (extendsIf_eq _ _ _)))
  · have same := (regCommand_attOwnctl h).trans (congrArg _ (ownCtlWritten_eq _ _))
    exact ⟨congrArg Host.Outcome.next same, congrArg Host.Outcome.next same⟩
  · rw [(ownerRevoke_eq s).1 ⟨j, x, hj, other, hx, key, live⟩, ownerSlot_eq slot]
    exact (setOwner_sets slot _ (by decide)).1
  · have none_ : ¬ OtherOwner s := by
      rintro ⟨j, x, hj, other, hx, key, live⟩
      rcases alone j x hj other hx with empty | revoked
      · rw [empty] at key
        exact absurd key (by decide)
      · exact absurd (live.symm.trans revoked) (by decide)
    rw [(ownerRevoke_eq s).2 none_, ownerSlot_eq slot]
    exact (setOwner_sets slot _ (by decide)).1

end Sys2Proof.Machine
end

section
/-! SUPPORT. What a fence that reaches an engine or a sector leaves of a native link module: its registers, its fence state and its groups (R518). -/

namespace Sys2Proof.Machine

/-- Units of two kinds have different identifiers. -/
theorem unitId_ne_of_kind {k i k' i' : Nat} (kind : k ≠ k') (hi : i < 2 ^ 24) (hi' : i' < 2 ^ 24) : unitId k i ≠ unitId k' i' := by
  unfold unitId
  omega

/-- A cause noted of a unit leaves every address but those of the count of causes and of events. -/
theorem keepsAt_noteCause {a : Nat} (count : a ≠ regAddr .errCount 0 0) (apart : a ∉ eventAddrs) (kind index : Nat) (cause : Status) (s : State) :
    KeepsAt a s (noteCause kind index cause s) := by
  have unit : ∀ st u, KeepsAt a u (setUnit kind index st cause u) := fun st u => by cases st <;> exact .of_ctl rfl
  have counted : KeepsAt a s (bumpFld .errCount 0 0 15 0 1 s) := keepsAt_bumpFld count 15 0 1 s
  unfold noteCause
  extract_lets u
  split
  · exact counted.trans ((unit .draining u).trans (keepsAt_raise apart ..))
  · exact counted.trans (unit .fenced u)
  · exact counted

/-- It leaves outputs and the groups of modules. -/
theorem noteCause_leaves (kind index : Nat) (cause : Status) (s : State) :
    (noteCause kind index cause s).out = s.out ∧ (noteCause kind index cause s).ndl = s.ndl := by
  unfold noteCause
  extract_lets u
  split
  · obtain ⟨c, q, rest⟩ := (tells_raise 0x9001 1 (unitPart kind index) (unitId kind index) (BitVec.ofNat 64 (2 ^ 16 + cause.toNat))
      (setUnit kind index .draining cause u)).rest
    rw [rest]
    exact ⟨rfl, rfl⟩
  · exact ⟨rfl, rfl⟩
  · exact ⟨rfl, rfl⟩

/-- The registers of module `m` that its groups are judged by. -/
def moduleAddrs (m : Nat) : List Nat := [regAddr .ndlStat m 0, regAddr .ndlReplay m 0]

/-- A step that leaves the registers and groups of module `m`, and the outputs. -/
structure KeepsModule (m : Nat) (s t : State) : Prop where
  regs : ∀ a ∈ moduleAddrs m, KeepsAt a s t
  out : t.out = s.out
  ndl : t.ndl = s.ndl

/-- It leaves the fence state of the module too. -/
structure Spares (m : Nat) (s t : State) : Prop extends KeepsModule m s t where
  unit : LeavesUnit (unitId 4 m) s t

section
variable {m : Nat}

theorem KeepsModule.trans {s t u : State} (h : KeepsModule m s t) (g : KeepsModule m t u) : KeepsModule m s u :=
  ⟨fun a ha => (h.regs a ha).trans (g.regs a ha), g.out.trans h.out, g.ndl.trans h.ndl⟩

theorem KeepsModule.of_ctl {s t : State} (ctl : t.ctl = s.ctl) (out : t.out = s.out) (ndl : t.ndl = s.ndl) : KeepsModule m s t :=
  ⟨fun _ _ => .of_ctl ctl, out, ndl⟩

theorem KeepsModule.ndlState_eq {s t : State} (h : KeepsModule m s t) : ndlState t m = ndlState s m :=
  (h.regs _ (List.mem_cons_self ..)).fld_eq 31 29

theorem KeepsModule.replays_eq {s t : State} (h : KeepsModule m s t) : raw t .ndlReplay m 0 = raw s .ndlReplay m 0 :=
  (h.regs _ (List.mem_cons_of_mem _ (List.mem_cons_self ..))).raw_eq

theorem Spares.refl (s : State) : Spares m s s := ⟨.of_ctl rfl rfl rfl, .refl _ s⟩

theorem Spares.trans {s t u : State} (h : Spares m s t) (g : Spares m t u) : Spares m s u :=
  ⟨h.toKeepsModule.trans g.toKeepsModule, h.unit.trans g.unit⟩

theorem Spares.of_ctl {s t : State} (ctl : t.ctl = s.ctl) (units : t.units = s.units) (out : t.out = s.out) (ndl : t.ndl = s.ndl) : Spares m s t :=
  ⟨.of_ctl ctl out ndl, .of_units units⟩

theorem Spares.foldl {α : Type} {f : State → α → State} {l : List α} (step : ∀ x ∈ l, ∀ s, Spares m s (f s x)) (s : State) :
    Spares m s (l.foldl f s) :=
  rel_foldl Spares.refl Spares.trans step s

theorem spares_cond {s a b : State} {c : Bool} (ha : Spares m s a) (hb : Spares m s b) : Spares m s (bif c then a else b) := by
  cases c
  · exact hb
  · exact ha

theorem spares_setFld {r : Reg} {i j : Nat} (apart : regAddr r i j ∉ moduleAddrs m) (h l v : Nat) (s : State) : Spares m s (setFld r i j h l v s) :=
  ⟨⟨fun _ ha => keepsAt_setFld (fun e => apart (e ▸ ha)) h l v s, rfl, rfl⟩, .of_units rfl⟩

/-- Below the modules' registers none of theirs stands. -/
theorem not_mem_moduleAddrs {a : Nat} (below : a < 0x08000000) : a ∉ moduleAddrs m := by
  simp only [moduleAddrs, regAddr, regRow, List.mem_cons, List.not_mem_nil, or_false]
  omega

theorem spares_benchDrains (b : Nat) (s : State) : Spares m s (benchDrains b s) := by
  have fault : ∀ ord off st u, Spares m u (reportFault b ord off st u) := by
    intro ord off st u
    unfold reportFault
    extract_lets x
    split
    · exact Spares.refl u
    · exact .of_ctl rfl rfl rfl rfl
  unfold benchDrains
  extract_lets x
  split
  · exact Spares.refl s
  · exact (fault ..).trans (.of_ctl rfl rfl rfl rfl)

theorem spares_modPartition (p : Nat) (f : Partition → Partition) (s : State) : Spares m s (modPartition p f s) := .of_ctl rfl rfl rfl rfl

theorem spares_abortMoves (q : Nat → Bool) (s : State) : Spares m s (abortMoves q s) := by
  have release : ∀ f u, Spares m u (releaseFrame f u) := fun f u => spares_cond (.of_ctl rfl rfl rfl rfl) (.of_ctl rfl rfl rfl rfl)
  have ask : ∀ p v u, Spares m u (askAgain p v u) := fun p v u => spares_cond (spares_modPartition p _ u) (Spares.refl u)
  have abort : ∀ p v u, Spares m u (abortMove p v u) := by
    intro p v u
    unfold abortMove
    split
    · exact (Spares.of_ctl rfl rfl rfl rfl : Spares m u (modPartition p _ (dropTlb p v u))).trans ((release _ _).trans (ask ..))
    · exact Spares.refl u
  exact .foldl (fun p _ u => .foldl (fun x _ u => spares_cond (abort p x.1 u) (Spares.refl u)) u) s

theorem spares_setLane {e l : Nat} (he : e < 12) (hl : l < 64) (d st : Nat) (s : State) : Spares m s (setLane e d l st s) := by
  have lane : regAddr (laneReg d) e l < 0x08000000 := by
    unfold laneReg
    cases d == 0 <;> simp only [cond_true, cond_false, regAddr, regRow] <;> omega
  have port : regAddr .hstPstat (lanePort e l) 0 < 0x08000000 := by
    simp only [regAddr, regRow, lanePort]
    omega
  unfold setLane
  extract_lets old s1
  have shown : Spares m s s1 := (spares_setFld (not_mem_moduleAddrs lane) 3 0 st s).trans (.of_ctl rfl rfl rfl rfl)
  have fails : ∀ u, Spares m u (hostPortFail (lanePort e l) u) := by
    intro u
    refine Spares.trans ?_ (spares_setFld (not_mem_moduleAddrs port) 31 31 0 _)
    exact .of_ctl rfl rfl rfl rfl
  exact spares_cond (shown.trans (fails s1)) shown

variable (hm : m < 328)
include hm

/-- The registers of events and the counts of waits are none of a module's. -/
theorem moduleAddrs_apart {a : Nat} (ha : a ∈ moduleAddrs m) :
    a ∉ eventAddrs ∧ a ≠ regAddr .errCount 0 0 ∧ ∀ p, a ≠ regAddr .pgeStallus p 0 := by
  have range : 0x08000000 ≤ a ∧ a < 0x08100000 ∧ a % 0x40 ≠ 0x10 := by
    simp only [moduleAddrs, regAddr, regRow, List.mem_cons, List.not_mem_nil, or_false] at ha
    omega
  have events : ∀ e ∈ eventAddrs, e < 0x08000000 ∨ 0x08100000 ≤ e := by decide
  refine ⟨fun mem => ?_, ?_, fun p => ?_⟩
  · have := events a mem
    omega
  all_goals
    simp only [regAddr, regRow]
    omega

theorem spares_raise (code : BitVec 16) (sev : Nat) (part : Option Nat) (unit : Nat) (data : W64) (s : State) :
    Spares m s (raise code sev part unit data s) := by
  obtain ⟨c, q, rest⟩ := (tells_raise code sev part unit data s).rest
  exact ⟨⟨fun a ha => keepsAt_raise (moduleAddrs_apart hm ha).1 .., by rw [rest], by rw [rest]⟩, leavesUnit_raise ..⟩

/-- A cause noted of any unit leaves the module's registers. -/
theorem keepsModule_noteCause (kind index : Nat) (cause : Status) (s : State) : KeepsModule m s (noteCause kind index cause s) := by
  obtain ⟨out, ndl⟩ := noteCause_leaves kind index cause s
  refine ⟨fun a ha => ?_, out, ndl⟩
  obtain ⟨events, count, -⟩ := moduleAddrs_apart hm ha
  exact keepsAt_noteCause count events kind index cause s

theorem spares_noteCause {kind index : Nat} (apart : unitId 4 m ≠ unitId kind index) (cause : Status) (s : State) :
    Spares m s (noteCause kind index cause s) :=
  ⟨keepsModule_noteCause hm kind index cause s, leavesUnit_noteCause apart cause s⟩

/-! ## Sectors and benches -/

theorem spares_stationsFenced {b : Nat} (hb : b < 32) (s : State) : Spares m s (stationsFenced b s) := by
  unfold stationsFenced
  refine Spares.foldl (fun k hk u => ?_) s
  have station : unitId 4 m ≠ unitId 1 (b * 16 + k) := unitId_ne_of_kind (by decide) (by omega) (by have := List.mem_range.mp hk; omega)
  have fenced : Spares m u (setUnit 1 (b * 16 + k) .fenced 0x030F u) := ⟨.of_ctl rfl rfl rfl, leavesUnit_setUnit station .fenced 0x030F u⟩
  exact spares_cond fenced (Spares.refl u)

theorem spares_causeBench {b : Nat} (hb : b < 32) (cause : Status) (s : State) : Spares m s (causeBench b cause s) := by
  have noted := spares_noteCause hm (kind := 2) (index := b) (unitId_ne_of_kind (by decide) (by omega) (by omega)) cause s
  have stations := spares_stationsFenced (m := m) hm hb
  unfold causeBench
  exact spares_cond (noted.trans (spares_benchDrains b _)) (spares_cond (noted.trans (stations _)) noted)

theorem spares_causeSector {k : Nat} (hk : k < 32) (cause : Status) (s : State) : Spares m s (causeSector k cause s) := by
  have noted := spares_noteCause hm (kind := 3) (index := k) (unitId_ne_of_kind (by decide) (by omega) (by omega)) cause s
  have benches : ∀ u, Spares m u ((sectorBenches k).foldl (fun s b => causeBench b 0x030F s) u) := fun u =>
    .foldl (fun b hb u => spares_causeBench hm (lt_of_mem_sectorBenches hb) 0x030F u) u
  unfold causeSector
  exact spares_cond (noted.trans (spares_cond (benches _) (Spares.refl _))) noted

/-! ## Pages of a Stratus module -/

theorem spares_endWait (req seg : Nat) (st : SegState) (status : Status) (s : State) : Spares m s (endWait req seg st status s) := by
  unfold endWait
  split
  next => exact Spares.refl s
  next r _ =>
    split
    next => exact Spares.refl s
    next g _ =>
      have changed : Spares m s (modSeg req seg (fun g => { g with state := st, status := status }) s) := by
        unfold modSeg
        split
        · exact .of_ctl rfl rfl rfl rfl
        · exact Spares.refl s
      exact changed.trans (spares_setFld (fun mem => (moduleAddrs_apart hm mem).2.2 r.part rfl) ..)

theorem spares_setFen (p : Nat → Bool) (s : State) : Spares m s (setFen p s) := by
  have waits : ∀ q v u, Spares m u (failWaiting q v 0x0301 u) := fun q v u =>
    ((spares_modPartition q _ u).trans (.foldl (fun w _ u => spares_endWait hm w.1 w.2 .refused 0x0301 u) _)).trans (.of_ctl rfl rfl rfl rfl)
  have failed : ∀ u, Spares m u (failFenced p u) := fun u =>
    .foldl (fun x _ u => .foldl (fun l _ u => spares_cond (waits x.1 l.1 u) (Spares.refl u)) u) u
  refine Spares.trans ?_ (failed _)
  exact .of_ctl rfl rfl rfl rfl

theorem spares_loseParity {k : Nat} (hk : k < 4) (parity : Nat) (s : State) : Spares m s (loseParity k parity s) := by
  have lost : ∀ h l, Spares m s (setFld .t2mStat k 0 h l 1 s) := fun h l =>
    spares_setFld (not_mem_moduleAddrs (by simp only [regAddr, regRow]; omega)) h l 1 s
  have fenced : ∀ u, Spares m u (causeModule k 0x030D u) := by
    intro u
    have noted := spares_noteCause hm (kind := 8) (index := k) (unitId_ne_of_kind (by decide) (by omega) (by omega)) 0x030D u
    exact spares_cond (noted.trans ((spares_abortMoves _ _).trans (spares_setFen hm _ _))) noted
  unfold loseParity
  extract_lets bitNo other q s1
  have pages : Spares m s s1 := (lost bitNo bitNo).trans ((spares_abortMoves q _).trans (spares_setFen hm q _))
  exact spares_cond (spares_cond (pages.trans (fenced s1)) pages) (Spares.refl s)

/-! ## Engines and their lanes -/

theorem spares_causeLane {e l : Nat} {d : Nat} (he : e < 12) (hd : d < 2) (hl : l < 64) (cause : Status) (s : State) :
    Spares m s (causeLane (e * 128 + d * 64 + l) cause s) := by
  have noted := spares_noteCause hm (kind := 5) (index := e * 128 + d * 64 + l) (unitId_ne_of_kind (by decide) (by omega) (by omega)) cause s
  have engine_ : (e * 128 + d * 64 + l) / 128 = e := by omega
  have lane : (e * 128 + d * 64 + l) % 64 = l := by omega
  unfold causeLane
  dsimp only
  rw [engine_, lane]
  exact spares_cond (spares_cond noted (noted.trans (spares_setLane he hl ..))) noted

/-- An engine that is fenced leaves every module of the die links. -/
theorem spares_causeEngine {e : Nat} (he : e < 12) (cause : Status) (s : State) : Spares m s (causeEngine e cause s) := by
  have noted := spares_noteCause hm (kind := 6) (index := e) (unitId_ne_of_kind (by decide) (by omega) (by omega)) cause s
  have short : engineLanes e ≤ 64 := by unfold engineLanes; cases Nat.ble 10 e <;> decide
  have parity : ∀ x u, Spares m u ((List.range 4).foldl (fun s k => loseParity k x s) u) := fun x u =>
    .foldl (fun k hk u => spares_loseParity hm (List.mem_range.mp hk) x u) u
  unfold causeEngine
  extract_lets s1 s2 s3
  have lanes : Spares m s1 s2 := .foldl (fun d hd u => .foldl (fun l hl u =>
    spares_causeLane hm he (List.mem_range.mp hd) (Nat.lt_of_lt_of_le (List.mem_range.mp hl) short) 0x030F u) u) s1
  have opened : Spares m s2 s3 := spares_cond (Spares.refl s2) (.of_ctl rfl rfl rfl rfl)
  have reached := noted.trans (lanes.trans opened)
  exact spares_cond (spares_cond (reached.trans (parity 0 s3)) (spares_cond (reached.trans (parity 1 s3)) reached)) noted

end

end Sys2Proof.Machine
end

section
/-! SUPPORT. Native modules of the die links: the flows they serve, groups that move, training, retrains and replays (R510, R513 to R517). -/

namespace Sys2Proof.Machine

/-! ## The module of a flow (R513) -/

theorem mem_eraseDups {n : Nat} (l : List Nat) : n ∈ l.eraseDups ↔ n ∈ l := by
  induction h : l.length using Nat.strong_induction_on generalizing l with
  | _ k ih =>
    cases l with
    | nil => rfl
    | cons b l =>
      have shorter : (l.filter fun x => !(x == b)).length < k := by
        have := List.length_filter_le (fun x => !(x == b)) l
        rw [List.length_cons] at h
        omega
      rw [List.eraseDups_cons, List.mem_cons, ih _ shorter _ rfl, List.mem_filter, List.mem_cons]
      by_cases e : n = b <;> simp [e]

/-- The modules of a link that carry traffic. -/
def upModules (s : State) (l : Nat) : List Nat := (linkModules l).filter (ndlUp s)

/-- Those of a role. -/
def roleUp (s : State) (l role : Nat) : List Nat := (upModules s l).filter fun m => fld s .ndlStat m 0 28 27 == role

theorem mem_upModules {s : State} {l m : Nat} : m ∈ upModules s l ↔ m ∈ linkModules l ∧ ndlUp s m = true := List.mem_filter

theorem mem_roleUp {s : State} {l role m : Nat} : m ∈ roleUp s l role ↔ (m ∈ linkModules l ∧ ndlUp s m = true) ∧ fld s .ndlStat m 0 28 27 = role := by
  rw [roleUp, List.mem_filter, mem_upModules, beq_iff_eq]

theorem roleUp_eq_nil {s : State} {l role : Nat} :
    roleUp s l role = [] ↔ ¬ ∃ k ∈ linkModules l, ndlUp s k = true ∧ fld s .ndlStat k 0 28 27 = role := by
  rw [List.eq_nil_iff_forall_not_mem, not_exists]
  exact forall_congr' fun m => by rw [mem_roleUp, and_assoc]

theorem roleModules_eq (s : State) (l role : Nat) : roleModules s l role =
    if roleUp s l role ≠ [] then roleUp s l role else if roleUp s l 0 ≠ [] then roleUp s l 0 else upModules s l := by
  have some_ : ∀ (a b : List Nat), (bif !(a.isEmpty) then a else b) = if a ≠ [] then a else b := by
    intro a b
    cases a <;> rfl
  exact (some_ _ _).trans (congrArg (fun b => if roleUp s l role ≠ [] then roleUp s l role else b) (some_ _ _))

/-- A flow has a module once one of its link is up. -/
theorem roleModules_eq_nil {s : State} {l role : Nat} : roleModules s l role = [] ↔ upModules s l = [] := by
  have none_ : ∀ r, upModules s l = [] → roleUp s l r = [] := fun r h => by rw [roleUp, h]; rfl
  rw [roleModules_eq]
  split
  next h => exact iff_of_false h (mt (none_ role) h)
  next =>
    split
    next h => exact iff_of_false h (mt (none_ 0) h)
    next => rfl

theorem flowModule_isSome {s : State} {l : Nat} {f : NdlFlow} : (flowModule s l f).isSome = true ↔ ∃ m ∈ linkModules l, ndlUp s m = true := by
  have some_ : (flowModule s l f).isSome = true ↔ roleModules s l f.role.val ≠ [] := by
    unfold flowModule
    dsimp only
    rw [isSome_getElem?, ← List.length_pos_iff]
    exact ⟨Nat.zero_lt_of_lt, Nat.mod_lt _⟩
  have up : upModules s l ≠ [] ↔ ∃ m ∈ linkModules l, ndlUp s m = true := by
    simp only [← mem_upModules]
    exact ⟨List.exists_mem_of_ne_nil _, fun ⟨_, hm⟩ => List.ne_nil_of_mem hm⟩
  rw [some_, ne_eq, roleModules_eq_nil, ← up]

theorem mem_of_flowModule {s : State} {l m : Nat} {f : NdlFlow} (h : flowModule s l f = some m) : m ∈ roleModules s l f.role.val :=
  List.mem_of_getElem? h

/-- The module of a flow is up, of its role where one is, else general where one is. -/
theorem flowModule_serves {s : State} {l m : Nat} {f : NdlFlow} (h : flowModule s l f = some m) :
    m ∈ linkModules l ∧ ndlUp s m = true ∧
      ((∃ k ∈ linkModules l, ndlUp s k = true ∧ fld s .ndlStat k 0 28 27 = f.role.val) → fld s .ndlStat m 0 28 27 = f.role.val) ∧
      ((¬ ∃ k ∈ linkModules l, ndlUp s k = true ∧ fld s .ndlStat k 0 28 27 = f.role.val) →
        (∃ k ∈ linkModules l, ndlUp s k = true ∧ fld s .ndlStat k 0 28 27 = 0) → fld s .ndlStat m 0 28 27 = 0) := by
  have serves := mem_of_flowModule h
  rw [roleModules_eq] at serves
  have own := roleUp_eq_nil (s := s) (l := l) (role := f.role.val)
  have general := roleUp_eq_nil (s := s) (l := l) (role := 0)
  by_cases hr : roleUp s l f.role.val = []
  · rw [if_neg (not_not_intro hr)] at serves
    have no := own.mp hr
    by_cases h0 : roleUp s l 0 = []
    · rw [if_neg (not_not_intro h0)] at serves
      obtain ⟨link, up⟩ := mem_upModules.mp serves
      exact ⟨link, up, fun yes => absurd yes no, fun _ yes => absurd yes (general.mp h0)⟩
    · rw [if_pos h0] at serves
      obtain ⟨⟨link, up⟩, role⟩ := mem_roleUp.mp serves
      exact ⟨link, up, fun yes => absurd yes no, fun _ _ => role⟩
  · rw [if_pos hr] at serves
    obtain ⟨⟨link, up⟩, role⟩ := mem_roleUp.mp serves
    exact ⟨link, up, fun _ => role, fun no => absurd (own.mpr no) hr⟩

/-! ## Modules and their directions -/

theorem ndlModule_modNdl_self (m : Nat) (f : NdlModule → NdlModule) (s : State) : ndlModule (modNdl m f s) m = f (ndlModule s m) := tget_tset_self ..

theorem ndlModule_modNdl_ne {m k : Nat} (h : k ≠ m) (f : NdlModule → NdlModule) (s : State) : ndlModule (modNdl m f s) k = ndlModule s k :=
  tget_tset_ne _ _ _ _ _ h

/-- A direction that a step does not name is left. -/
theorem ndlDir_modDir_ne {m k d e : Nat} (h : k ≠ m ∨ (e == 0) ≠ (d == 0)) (f : NdlDir → NdlDir) (s : State) :
    ndlDir (ndlModule (modDir m d f s) k) e = ndlDir (ndlModule s k) e := by
  by_cases hk : k = m
  · subst hk
    have other := h.resolve_left (not_not_intro rfl)
    rw [modDir, ndlModule_modNdl_self]
    unfold ndlDir
    revert other
    cases e == 0 <;> cases d == 0 <;> intro other
    · exact absurd rfl other
    · rfl
    · rfl
    · exact absurd rfl other
  · rw [modDir, ndlModule_modNdl_ne hk]

theorem ndlDir_modDir_self {m d e : Nat} (h : (e == 0) = (d == 0)) (f : NdlDir → NdlDir) (s : State) :
    ndlDir (ndlModule (modDir m d f s) m) e = f (ndlDir (ndlModule s m) e) := by
  rw [modDir, ndlModule_modNdl_self]
  unfold ndlDir
  rw [h]
  cases d == 0 <;> rfl

theorem autos_modDir (m d : Nat) (f : NdlDir → NdlDir) (s : State) (k : Nat) : (ndlModule (modDir m d f s) k).autos = (ndlModule s k).autos ∧
    (ndlModule (modDir m d f s) k).retrains = (ndlModule s k).retrains := by
  by_cases hk : k = m
  · subst hk
    rw [modDir, ndlModule_modNdl_self]
    cases d == 0 <;> exact ⟨rfl, rfl⟩
  · rw [modDir, ndlModule_modNdl_ne hk]
    exact ⟨rfl, rfl⟩

/-! ## Groups that move (R513) -/

/-- The flows of the groups that waited at a direction of a module wait at modules that are up. -/
def Delivered (l k d : Nat) (s t : State) : Prop := ∀ g ∈ ndlWaiting s k d, ∀ f ∈ g, ∃ j ∈ linkModules l, ndlUp s j = true ∧
  ∃ h ∈ (ndlDir (ndlModule t j) d).moved, f ∈ h

/-- A step that moves groups of a link: modules that are up gain some, and others keep theirs or have all delivered. -/
structure Moves (l : Nat) (s t : State) : Prop where
  rest : ∃ n, t = { s with ndl := n }
  autos : ∀ k, (ndlModule t k).autos = (ndlModule s k).autos
  replays : ∀ k d, (ndlDir (ndlModule t k) d).replays = (ndlDir (ndlModule s k) d).replays
  gains : ∀ k d, ndlUp s k = true → ∀ g ∈ (ndlDir (ndlModule s k) d).moved, g ∈ (ndlDir (ndlModule t k) d).moved
  stopped : ∀ k d, ndlUp s k = false → ndlWaiting t k d = ndlWaiting s k d ∨ (ndlWaiting t k d = [] ∧ Delivered l k d s t)

section
variable {l : Nat}

theorem Moves.ndlUp_eq {s t : State} (h : Moves l s t) (k : Nat) : ndlUp t k = ndlUp s k := by
  obtain ⟨n, rfl⟩ := h.rest
  rfl

theorem Moves.ndlState_eq {s t : State} (h : Moves l s t) (k : Nat) : ndlState t k = ndlState s k := by
  obtain ⟨n, rfl⟩ := h.rest
  rfl

theorem Moves.fld_eq {s t : State} (m : Moves l s t) (r : Reg) (i j h k : Nat) : fld t r i j h k = fld s r i j h k := by
  obtain ⟨n, rfl⟩ := m.rest
  rfl

theorem Moves.unitState_eq {s t : State} (h : Moves l s t) (kind k : Nat) : unitState t kind k = unitState s kind k := by
  obtain ⟨n, rfl⟩ := h.rest
  rfl

theorem Moves.flowModule_eq {s t : State} (h : Moves l s t) (f : NdlFlow) : flowModule t l f = flowModule s l f := by
  obtain ⟨n, rfl⟩ := h.rest
  rfl

theorem Moves.refl (s : State) : Moves l s s := ⟨⟨s.ndl, rfl⟩, fun _ => rfl, fun _ _ => rfl, fun _ _ _ _ => id, fun _ _ _ => .inl rfl⟩

theorem Delivered.later {k d : Nat} {s t u : State} (h : Delivered l k d s t) (g : Moves l t u) (same : ∀ j,
    ndlUp t j = ndlUp s j) : Delivered l k d s u := by
  intro x hx f hf
  obtain ⟨j, hj, up, y, hy, hfy⟩ := h x hx f hf
  exact ⟨j, hj, up, y, g.gains j d ((same j).trans up) y hy, hfy⟩

theorem Moves.trans {s t u : State} (h : Moves l s t) (g : Moves l t u) : Moves l s u := by
  have same := h.ndlUp_eq
  refine ⟨?_, fun k => (g.autos k).trans (h.autos k), fun k d => (g.replays k d).trans (h.replays k d),
    fun k d up x hx => g.gains k d ((same k).trans up) x (h.gains k d up x hx), fun k d down => ?_⟩
  · obtain ⟨n, rfl⟩ := h.rest
    obtain ⟨n', rfl⟩ := g.rest
    exact ⟨n', rfl⟩
  · rcases g.stopped k d ((same k).trans down) with later | ⟨empty, delivered⟩
    · rcases h.stopped k d down with kept | ⟨empty, delivered⟩
      · exact .inl (later.trans kept)
      · exact .inr ⟨later.trans empty, delivered.later g same⟩
    · rcases h.stopped k d down with kept | ⟨_, before⟩
      · refine .inr ⟨empty, fun x hx f hf => ?_⟩
        rw [← kept] at hx
        obtain ⟨j, hj, up, rest⟩ := delivered x hx f hf
        exact ⟨j, hj, (same j).symm.trans up, rest⟩
      · exact .inr ⟨empty, before.later g same⟩

/-- A stopped module with no group left gains none. -/
theorem Moves.stays_empty {s t : State} (h : Moves l s t) {k d : Nat} (down : ndlUp s k = false) (empty : ndlWaiting s k d = []) :
    ndlWaiting t k d = [] := by
  rcases h.stopped k d down with same | ⟨none_, -⟩
  · exact same.trans empty
  · exact none_

/-- Steps that move groups once those before them have. -/
def MovesFrom (l : Nat) (s t u : State) : Prop := Moves l s t → Moves l t u

theorem MovesFrom.trans {s t u v : State} (h : MovesFrom l s t u) (g : MovesFrom l s u v) : MovesFrom l s t v :=
  fun before => (h before).trans (g (before.trans (h before)))

theorem movesFrom_foldl {α : Type} {f : State → α → State} {xs : List α} {s : State} (step : ∀ x ∈ xs, ∀ u, Moves l s u → Moves l u (f u x)) :
    Moves l s (xs.foldl f s) :=
  rel_foldl (R := MovesFrom l s) (fun u _ => Moves.refl u) MovesFrom.trans step s (Moves.refl s)

theorem movesFrom_foldl_at {α : Type} {f : State → α → State} {xs : List α} {s : State} (step : ∀ x ∈ xs, ∀ u, Moves l s u → Moves l u (f u x))
    {x : α} (hx : x ∈ xs) : ∃ u, Moves l s u ∧ Moves l (f u x) (xs.foldl f s) := by
  obtain ⟨u, before, after⟩ := rel_foldl_at (R := MovesFrom l s) (fun u _ => Moves.refl u) MovesFrom.trans step hx s
  have first := before (Moves.refl s)
  exact ⟨u, first, after (first.trans (step x hx u first))⟩

/-- A group is added to those moved to a module that is up. -/
def addMoved (d : Nat) (s : State) (c : Nat × List NdlFlow) : State := modDir c.1 d (fun x => { x with moved := x.moved ++ [c.2] }) s

theorem moves_addMoved (d : Nat) {s : State} {c : Nat × List NdlFlow} (up : ndlUp s c.1 = true) : Moves l s (addMoved d s c) := by
  have dirs : ∀ k e, ndlDir (ndlModule (addMoved d s c) k) e = ndlDir (ndlModule s k) e ∨ (k = c.1 ∧
      ndlDir (ndlModule (addMoved d s c) k) e = { ndlDir (ndlModule s k) e with moved := (ndlDir (ndlModule s k) e).moved ++ [c.2] }) := by
    intro k e
    by_cases same : k = c.1 ∧ (e == 0) = (d == 0)
    · obtain ⟨rfl, he⟩ := same
      exact .inr ⟨rfl, ndlDir_modDir_self he _ s⟩
    · exact .inl (ndlDir_modDir_ne (by rw [ne_eq, ne_eq, ← not_and_or]; exact same) _ s)
  refine ⟨⟨_, rfl⟩, fun k => (autos_modDir ..).1, fun k e => ?_, fun k e _ g hg => ?_, fun k e down => .inl ?_⟩
  · rcases dirs k e with h | ⟨-, h⟩ <;> rw [h]
  · rcases dirs k e with h | ⟨-, h⟩ <;> rw [h]
    · exact hg
    · exact List.mem_append_left _ hg
  · rcases dirs k e with h | ⟨rfl, -⟩
    · rw [ndlWaiting, h, ndlWaiting]
    · exact absurd (up.symm.trans down) (by decide)

theorem mem_splitGroup {s : State} {g : List NdlFlow} {c : Nat × List NdlFlow} (h : c ∈ splitGroup s l g) : ndlUp s c.1 = true := by
  obtain ⟨m, hm, rfl⟩ := List.mem_map.mp h
  obtain ⟨f, -, serves⟩ := List.mem_filterMap.mp ((mem_eraseDups _).mp hm)
  exact (flowModule_serves serves).2.1

theorem splitGroup_step {d : Nat} {s : State} {g : List NdlFlow} :
    ∀ c ∈ splitGroup s l g, ∀ u, Moves l s u → Moves l u (addMoved d u c) :=
  fun _ hc _ before => moves_addMoved d ((before.ndlUp_eq _).trans (mem_splitGroup hc))

theorem moves_moveGroup (d : Nat) (s : State) (g : List NdlFlow) : Moves l s (moveGroup l d s g) := movesFrom_foldl splitGroup_step

/-- Each flow of a group that moves goes to the module that serves it. -/
theorem moveGroup_delivers {d e : Nat} (he : (e == 0) = (d == 0)) {s : State} (some_ : ∃ k ∈ linkModules l, ndlUp s k = true) {g : List NdlFlow}
    {f : NdlFlow} (hf : f ∈ g) : ∃ j ∈ linkModules l, ndlUp s j = true ∧ ∃ h ∈ (ndlDir (ndlModule (moveGroup l d s g) j) e).moved, f ∈ h := by
  obtain ⟨j, serves⟩ := Option.isSome_iff_exists.mp ((flowModule_isSome (f := f)).mpr some_)
  obtain ⟨link, up, -, -⟩ := flowModule_serves serves
  have part : (j, g.filter fun f => flowModule s l f == some j) ∈ splitGroup s l g :=
    List.mem_map_of_mem ((mem_eraseDups _).mpr (List.mem_filterMap.mpr ⟨f, hf, serves⟩))
  obtain ⟨u, before, after⟩ := movesFrom_foldl_at (splitGroup_step (d := d)) part
  refine ⟨j, link, up, g.filter fun f => flowModule s l f == some j, ?_, List.mem_filter.mpr ⟨hf, beq_iff_eq.mpr serves⟩⟩
  have added := moves_addMoved (l := l) d (c := (j, g.filter fun f => flowModule s l f == some j)) ((before.ndlUp_eq j).trans up)
  refine after.gains j e (((before.trans added).ndlUp_eq j).trans up) _ ?_
  rw [addMoved, ndlDir_modDir_self he]
  exact List.mem_append_right _ (List.mem_singleton_self _)

/-- The groups of one direction of a stopped module move. -/
theorem moves_moveDir {m d : Nat} {s : State} (some_ : ∃ k ∈ linkModules l, ndlUp s k = true) (down : ndlUp s m = false) :
    Moves l s (moveDir l m d s) ∧ ∀ e, (e == 0) = (d == 0) → ndlWaiting (moveDir l m d s) m e = [] := by
  have self : ∀ e, (e == 0) = (d == 0) → ndlWaiting s m e = ndlWaiting s m d := by
    intro e he
    rw [ndlWaiting, ndlDir, he, ← ndlDir, ndlWaiting]
  unfold moveDir
  generalize hw : modDir m d (fun x => { x with unacked := [], moved := [] }) s = w
  have dirs : ∀ k e, (k ≠ m ∨ (e == 0) ≠ (d == 0)) → ndlDir (ndlModule w k) e = ndlDir (ndlModule s k) e := fun k e h => by
    rw [← hw, ndlDir_modDir_ne h]
  have cleared : ∀ e, (e == 0) = (d == 0) → ndlDir (ndlModule w m) e = { ndlDir (ndlModule s m) e with unacked := [], moved := [] } := fun e he => by
    rw [← hw, ndlDir_modDir_self he]
  have same : ∀ k, ndlUp w k = ndlUp s k := fun k => by rw [← hw]; rfl
  have step : ∀ g ∈ ndlWaiting s m d, ∀ u, Moves l w u → Moves l u (moveGroup l d u g) := fun g _ u _ => moves_moveGroup d u g
  have moves := movesFrom_foldl step
  have empty : ∀ e, (e == 0) = (d == 0) → ndlWaiting ((ndlWaiting s m d).foldl (moveGroup l d) w) m e = [] := fun e he =>
    moves.stays_empty ((same m).trans down) (by rw [ndlWaiting, cleared e he]; rfl)
  refine ⟨⟨?_, fun k => (moves.autos k).trans ?_, fun k e => (moves.replays k e).trans ?_, fun k e up g hg => ?_, fun k e stopped => ?_⟩, empty⟩
  · obtain ⟨n, rest⟩ := moves.rest
    exact ⟨n, by rw [rest, ← hw]; rfl⟩
  · rw [← hw]
    exact (autos_modDir ..).1
  · by_cases h : k = m ∧ (e == 0) = (d == 0)
    · obtain ⟨rfl, he⟩ := h
      rw [cleared e he]
    · rw [dirs k e (not_and_or.mp h)]
  · have other : k ≠ m := fun e => absurd (down.symm.trans (e ▸ up)) (by decide)
    refine moves.gains k e ((same k).trans up) g ?_
    rw [dirs k e (.inl other)]
    exact hg
  · by_cases h : k = m ∧ (e == 0) = (d == 0)
    · obtain ⟨rfl, he⟩ := h
      refine .inr ⟨empty e he, fun g hg f hf => ?_⟩
      rw [self e he] at hg
      obtain ⟨u, before, after⟩ := movesFrom_foldl_at step hg
      have up_ : ∀ j, ndlUp u j = ndlUp s j := fun j => (before.ndlUp_eq j).trans (same j)
      obtain ⟨j, link, up, x, hx, hfx⟩ := moveGroup_delivers he (s := u) (by simpa only [up_] using some_) hf
      exact ⟨j, link, (up_ j).symm.trans up, x, after.gains j e (((moves_moveGroup d u g).ndlUp_eq j).trans up) x hx, hfx⟩
    · have unmoved : ndlWaiting w k e = ndlWaiting s k e := by rw [ndlWaiting, dirs k e (not_and_or.mp h), ndlWaiting]
      rcases moves.stopped k e ((same k).trans stopped) with kept | ⟨none_, delivered⟩
      · exact .inl (kept.trans unmoved)
      · refine .inr ⟨none_, fun g hg f hf => ?_⟩
        rw [← unmoved] at hg
        obtain ⟨j, link, up, rest⟩ := delivered g hg f hf
        exact ⟨j, link, (same j).symm.trans up, rest⟩

/-- Both directions of a stopped module. -/
def moveModule (l : Nat) (s : State) (m : Nat) : State := moveDir l m 1 (moveDir l m 0 s)

theorem moves_moveModule {m : Nat} {s : State} (some_ : ∃ k ∈ linkModules l, ndlUp s k = true) (down : ndlUp s m = false) :
    Moves l s (moveModule l s m) ∧ ∀ d, ndlWaiting (moveModule l s m) m d = [] := by
  obtain ⟨first, empty0⟩ := moves_moveDir (d := 0) some_ down
  have up_ := first.ndlUp_eq
  obtain ⟨second, empty1⟩ := moves_moveDir (l := l) (m := m) (d := 1) (s := moveDir l m 0 s) (by simpa only [up_] using some_) ((up_ m).trans down)
  refine ⟨first.trans second, fun d => ?_⟩
  cases hd : d == 0
  · exact empty1 d hd
  · exact second.stays_empty ((up_ m).trans down) (empty0 d hd)

theorem moves_moveStopped (l : Nat) (s : State) : Moves l s (moveStopped l s) ∧ ((∃ k ∈ linkModules l, ndlUp s k = true) →
    ∀ m ∈ linkModules l, ndlUp s m = false → ∀ d, ndlWaiting (moveStopped l s) m d = []) := by
  by_cases some_ : ∃ k ∈ linkModules l, ndlUp s k = true
  · have step : ∀ m ∈ (linkModules l).filter (fun m => !(ndlUp s m)), ∀ u, Moves l s u → Moves l u (moveModule l u m) := fun m hm u before =>
      (moves_moveModule (by simpa only [before.ndlUp_eq] using some_)
        ((before.ndlUp_eq m).trans (Bool.not_eq_true' _ ▸ (List.mem_filter.mp hm).2))).1
    have starts : moveStopped l s = ((linkModules l).filter fun m => !(ndlUp s m)).foldl (moveModule l) s := by
      have any : (linkModules l).any (ndlUp s) = true := List.any_eq_true.mpr some_
      rw [moveStopped, any]
      rfl
    rw [starts]
    refine ⟨movesFrom_foldl step, fun _ m link down d => ?_⟩
    obtain ⟨u, before, after⟩ := movesFrom_foldl_at step (List.mem_filter.mpr ⟨link, by rw [down]; rfl⟩)
    obtain ⟨moves, empty⟩ := moves_moveModule (m := m) (s := u) (by simpa only [before.ndlUp_eq] using some_) ((before.ndlUp_eq m).trans down)
    exact after.stays_empty (((before.trans moves).ndlUp_eq m).trans down) (empty d)
  · have none_ : (linkModules l).any (ndlUp s) = false := Bool.eq_false_iff.mpr (mt List.any_eq_true.mp some_)
    rw [moveStopped, none_]
    exact ⟨Moves.refl s, fun yes => absurd yes some_⟩

/-- A group of a stopped module moves to modules that are up. -/
theorem moveStopped_delivers {m d : Nat} {s : State} (link : m ∈ linkModules l) (down : ndlUp s m = false)
    (some_ : ∃ k ∈ linkModules l, ndlUp s k = true) : ndlWaiting (moveStopped l s) m d = [] ∧ Delivered l m d s (moveStopped l s) := by
  obtain ⟨moves, empty⟩ := moves_moveStopped l s
  have none_ := empty some_ m link down d
  rcases moves.stopped m d down with same | ⟨-, delivered⟩
  · have before : ndlWaiting s m d = [] := same.symm.trans none_
    exact ⟨none_, fun g hg => by rw [before] at hg; exact absurd hg List.not_mem_nil⟩
  · exact ⟨none_, delivered⟩

end

/-! ## Fences of a module (R518) -/

/-- A module that a cause reaches: its groups move, and what is fenced with it leaves the module. -/
theorem fenceCause_module {m : Nat} (hm : m < 328) (cause : Status) (s : State) :
    ∃ w, Moves (moduleLink m) (noteCause 4 m cause s) w ∧ Spares m w (fenceCause 4 m cause s) := by
  have native : fenceCause 4 m cause s = causeNative m cause s := by
    show (bif Nat.blt m 328 then causeNative m cause s else causeUcie m cause s) = _
    rw [Nat.blt_eq.mpr hm, cond_true]
  have link : moduleLink m - 8 < 12 := by
    unfold moduleLink
    rw [Bool.cond_eq_ite, Bool.cond_eq_ite]
    simp only [Nat.blt_eq]
    split
    · omega
    · split <;> omega
  rw [native]
  refine ⟨_, (moves_moveStopped (moduleLink m) (noteCause 4 m cause s)).1, ?_⟩
  unfold causeNative
  extract_lets was l w
  have sectors : ∀ u, Spares m u ((List.range 4).foldl (fun s d =>
      bif (dieLinks d).contains l && (dieLinks d).all (linkDead s) then
        (List.range 6).foldl (fun s k => causeSector (6 * d + k) 0x030D s) s
      else s) u) := fun u => .foldl (fun d hd u => spares_cond (.foldl (fun k hk u =>
        spares_causeSector hm (by have := List.mem_range.mp hd; have := List.mem_range.mp hk; omega) 0x030D u) u) (Spares.refl u)) u
  exact spares_cond (Spares.refl w) (spares_cond (spares_causeEngine hm link 0x030D w) (sectors w))

/-- The fence of a module leaves its STATE, its count of replays and the replays of its directions. -/
theorem fenceCause_leaves {m : Nat} (hm : m < 328) (cause : Status) (s : State) :
    ndlState (fenceCause 4 m cause s) m = ndlState s m ∧ raw (fenceCause 4 m cause s) .ndlReplay m 0 = raw s .ndlReplay m 0 ∧
      (fenceCause 4 m cause s).out = s.out ∧
      ∀ d, (ndlDir (ndlModule (fenceCause 4 m cause s) m) d).replays = (ndlDir (ndlModule s m) d).replays := by
  obtain ⟨w, moves, spares⟩ := fenceCause_module hm cause s
  have noted := keepsModule_noteCause hm 4 m cause s
  have ndl : ∀ {x y : State}, y.ndl = x.ndl → ndlModule y m = ndlModule x m := fun h => by rw [ndlModule, h, ndlModule]
  refine ⟨spares.ndlState_eq.trans ((moves.ndlState_eq m).trans noted.ndlState_eq), ?_, ?_, fun d => ?_⟩
  · obtain ⟨n, rfl⟩ := moves.rest
    exact spares.replays_eq.trans noted.replays_eq
  · obtain ⟨n, rfl⟩ := moves.rest
    exact spares.out.trans noted.out
  · rw [ndl spares.ndl, moves.replays m d, ndl noted.ndl]

theorem fenceCause_drains {m : Nat} (hm : m < 328) {s : State} (up : isUp s 4 m = true) (cause : Status) :
    unitState (fenceCause 4 m cause s) 4 m = .draining := by
  obtain ⟨w, moves, spares⟩ := fenceCause_module hm cause s
  rw [spares.unit.unitState_eq, moves.unitState_eq]
  exact (noteCause_up cause up).1

/-! ## Training and repair (R514, R515) -/

theorem dirRepair_eq (r : DirTest) : dirRepair r = if r.clockOk = false then none
    else if r.failLow + r.failHigh ≤ 16 then some (false, r.failLow + r.failHigh)
    else if Nat.min r.failLow r.failHigh ≤ 16 then some (true, Nat.min r.failLow r.failHigh) else none := by
  unfold dirRepair
  dsimp only
  rw [Bool.cond_eq_ite, Bool.cond_eq_ite, Bool.cond_eq_ite]
  simp only [Bool.not_eq_true', Nat.ble_eq]

/-- At most 16 spares are used. -/
theorem dirRepair_spares {r : DirTest} {a : Bool × Nat} (h : dirRepair r = some a) : a.2 ≤ 16 := by
  rw [dirRepair_eq] at h
  split at h
  · exact absurd h (by simp)
  · split at h
    · cases h
      assumption
    · split at h
      · cases h
        assumption
      · exact absurd h (by simp)

theorem stands_ndlStat {m : Nat} (hm : m < 328) : Stands .ndlStat m 0 := stands_of_lt hm (by decide) rfl

/-- A module in service shows the widths and spares of its test. -/
theorem moduleRuns_shows (m : Nat) {a b : Bool × Nat} (ha : a.2 ≤ 16) (hb : b.2 ≤ 16) (s : State) :
    ndlState (moduleRuns m a b s) m = 2 ∧ fld (moduleRuns m a b s) .ndlStat m 0 26 25 = 2 * b01 b.1 + b01 a.1 ∧
      fld (moduleRuns m a b s) .ndlStat m 0 9 0 = 32 * b.2 + a.2 := by
  have bit_ : ∀ x, b01 x < 2 := fun x => by cases x <;> decide
  unfold moduleRuns
  generalize hy : setFld .ndlStat m 0 9 0 (32 * b.2 + a.2) (setNdlState m 2 s) = y
  have state : ndlState y m = 2 := by
    rw [← hy, ndlState, fld_setFld_above _ _ _ _ _ (by decide) (by decide) (by decide), setNdlState,
      fld_setFld_self _ _ _ _ _ (by decide) (by decide)]
    rfl
  have spares : fld y .ndlStat m 0 9 0 = 32 * b.2 + a.2 := by
    rw [← hy, fld_setFld_self _ _ _ _ _ (by decide) (by decide)]
    exact Nat.mod_eq_of_lt (by omega)
  have widths : 2 * b01 b.1 + b01 a.1 < 4 := by
    have := bit_ a.1
    have := bit_ b.1
    omega
  have moves := (moves_moveStopped (moduleLink m) (setFld .ndlStat m 0 26 25 (2 * b01 b.1 + b01 a.1) y)).1
  rw [moves.ndlState_eq, moves.fld_eq, moves.fld_eq, ndlState, fld_setFld_above _ _ _ _ _ (by decide) (by decide) (by decide),
    fld_setFld_self _ _ _ _ _ (by decide) (by decide), fld_setFld_below _ _ _ _ _ (by decide) (by decide) (by decide) (by decide)]
  exact ⟨state, Nat.mod_eq_of_lt widths, spares⟩

theorem moduleRuns_units (m : Nat) (a b : Bool × Nat) (s : State) : (moduleRuns m a b s).units = s.units := by
  obtain ⟨n, rest⟩ := (moves_moveStopped (moduleLink m)
    (setFld .ndlStat m 0 26 25 (2 * b01 b.1 + b01 a.1) (setFld .ndlStat m 0 9 0 (32 * b.2 + a.2) (setNdlState m 2 s)))).1.rest
  rw [moduleRuns, rest]
  rfl

theorem dieLinkTrain_eq {m : Nat} {s : State} (awake_ : awake s = true) (regs : s.regsUp = true) (fresh : ndlState s m = 0) (up : isUp s 4 m = true)
    (r0 r1 : DirTest) : (∀ a b, dirRepair r0 = some a → dirRepair r1 = some b → dieLinkTrain m r0 r1 s = moduleRuns m a b s) ∧
      (dirRepair r0 = none ∨ dirRepair r1 = none → dieLinkTrain m r0 r1 s = fenceCause 4 m 0x030D s) := by
  have starts : (!(awake s) || !s.regsUp || !(ndlState s m == 0) || !(isUp s 4 m)) = false := by rw [awake_, regs, fresh, up]; rfl
  unfold dieLinkTrain
  rw [starts, cond_false]
  refine ⟨fun a b ha hb => by rw [ha, hb], fun fails => ?_⟩
  rcases fails with fail | fail
  · rw [fail]
  · rw [fail]
    cases dirRepair r0 <;> rfl

/-! ## Retrains (R516, R517) -/

theorem clearReplays_leaves (m : Nat) (s : State) : (∃ n, clearReplays m s = { s with ndl := n }) ∧
    ∀ d, (ndlDir (ndlModule (clearReplays m s) m) d).replays = [] := by
  refine ⟨⟨_, rfl⟩, fun d => ?_⟩
  unfold clearReplays
  cases hd : d == 0
  · rw [ndlDir_modDir_ne (.inr (by rw [hd]; decide)), ndlDir_modDir_self (by rw [hd]; rfl)]
  · rw [ndlDir_modDir_self (by rw [hd]; rfl)]

/-- A retrain that may end does so. -/
theorem ndlRetrain_eq {m d : Nat} {s : State} (retrains : ndlState s m = 3)
    (ends : unitState s 4 m = .recovering ∨ (isUp s 4 m = true ∧ overReplays s m d = true)) (r0 r1 : DirTest) (inTime : Bool) :
    (∀ a b, dirRepair r0 = some a → dirRepair r1 = some b → inTime = true → ndlRetrain m d r0 r1 inTime s =
      if unitState s 4 m = .recovering then unitUp 4 m (clearReplays m (moduleRuns m a b s)) else clearReplays m (moduleRuns m a b s)) ∧
    (dirRepair r0 = none ∨ dirRepair r1 = none ∨ inTime = false → ndlRetrain m d r0 r1 inTime s =
      if unitState s 4 m = .recovering then recoveryFails 4 m (setNdlState m 0 (clearReplays m s))
      else fenceCause 4 m 0x030D (setNdlState m 0 (clearReplays m s))) := by
  have goes : (!(ndlState s m == 3) || !(unitState s 4 m == .recovering || (isUp s 4 m && overReplays s m d))) = false := by
    rw [retrains]
    rcases ends with back | ⟨up, many⟩
    · rw [back]; rfl
    · rw [up, many, Bool.and_true, Bool.or_true]; rfl
  unfold ndlRetrain
  dsimp only
  rw [goes, cond_false]
  have back_ : ∀ x y : State, (bif unitState s 4 m == .recovering then x else y) = if unitState s 4 m = .recovering then x else y := by
    intro x y
    rw [Bool.cond_eq_ite]
    simp only [beq_iff_eq]
  refine ⟨fun a b ha hb time => by rw [ha, hb, time]; exact back_ _ _, fun fails => ?_⟩
  rw [← back_]
  rcases fails with fail | fail | fail <;> rw [fail]
  · cases dirRepair r0 <;> rfl
  · cases dirRepair r0 <;> cases dirRepair r1 <;> rfl

section
variable {m : Nat} (hm : m < 328) {s : State}
include hm

/-- A module that returns to Up keeps its STATE and its groups. -/
theorem unitUp_module (s : State) : unitState (unitUp 4 m s) 4 m = .up ∧ ndlState (unitUp 4 m s) m = ndlState s m ∧ (unitUp 4 m s).ndl = s.ndl := by
  have told : Spares m (setUnit 4 m .up 0 s) (unitUp 4 m s) := spares_raise hm ..
  exact ⟨told.unit.unitState_eq.trans (unitState_setUnit_self ..), told.ndlState_eq, told.ndl⟩

theorem recoveryFails_module (s : State) : unitState (recoveryFails 4 m s) 4 m = .fenced ∧ ndlState (recoveryFails 4 m s) m = ndlState s m := by
  have told : Spares m (setUnit 4 m .fenced (tget s.units (unitId 4 m) ⟨.up, 0, 0⟩).cause s) (recoveryFails 4 m s) := by
    unfold recoveryFails
    exact spares_raise hm ..
  exact ⟨told.unit.unitState_eq.trans (unitState_setUnit_self ..), told.ndlState_eq⟩

/-- A retrain that repairs both directions in time ends in service. -/
theorem ndlRetrain_repairs {d : Nat} (retrains : ndlState s m = 3)
    (ends : unitState s 4 m = .recovering ∨ (isUp s 4 m = true ∧ overReplays s m d = true)) {r0 r1 : DirTest} {a b : Bool × Nat}
    (ha : dirRepair r0 = some a) (hb : dirRepair r1 = some b) : ndlState (ndlRetrain m d r0 r1 true s) m = 2 ∧
      unitState (ndlRetrain m d r0 r1 true s) 4 m = .up ∧ ∀ e, (ndlDir (ndlModule (ndlRetrain m d r0 r1 true s) m) e).replays = [] := by
  have state := (moduleRuns_shows m (dirRepair_spares ha) (dirRepair_spares hb) s).1
  have units := moduleRuns_units m a b s
  obtain ⟨⟨n, rest⟩, cleared⟩ := clearReplays_leaves m (moduleRuns m a b s)
  rw [(ndlRetrain_eq retrains ends r0 r1 true).1 a b ha hb rfl]
  have state' : ndlState (clearReplays m (moduleRuns m a b s)) m = 2 := by rw [rest]; exact state
  have unit' : unitState (clearReplays m (moduleRuns m a b s)) 4 m = unitState s 4 m := by rw [rest, unitState, unitState, ← units]
  generalize clearReplays m (moduleRuns m a b s) = y at cleared state' unit'
  by_cases back : unitState s 4 m = .recovering
  · rw [if_pos back]
    obtain ⟨up, kept, ndl⟩ := unitUp_module hm y
    exact ⟨kept.trans state', up, fun e => by rw [ndlModule, ndl, ← ndlModule, cleared e]⟩
  · rw [if_neg back]
    exact ⟨state', unit'.trans (beq_iff_eq.mp (ends.resolve_left back).1), cleared⟩

/-- A retrain that fails, or ends late, fences the module again. -/
theorem ndlRetrain_fails {d : Nat} (retrains : ndlState s m = 3)
    (ends : unitState s 4 m = .recovering ∨ (isUp s 4 m = true ∧ overReplays s m d = true)) {r0 r1 : DirTest} {inTime : Bool}
    (fails : dirRepair r0 = none ∨ dirRepair r1 = none ∨ inTime = false) : ndlState (ndlRetrain m d r0 r1 inTime s) m = 0 ∧
      (unitState s 4 m = .recovering → unitState (ndlRetrain m d r0 r1 inTime s) 4 m = .fenced) ∧
      (¬ unitState s 4 m = .recovering → unitState (ndlRetrain m d r0 r1 inTime s) 4 m = .draining) := by
  obtain ⟨⟨n, rest⟩, -⟩ := clearReplays_leaves m s
  rw [(ndlRetrain_eq retrains ends r0 r1 inTime).2 fails]
  have state : ndlState (setNdlState m 0 (clearReplays m s)) m = 0 :=
    (fld_setFld_self _ .ndlStat m 0 0 (by decide) (by decide)).trans (Nat.zero_mod _)
  have unit : unitState (setNdlState m 0 (clearReplays m s)) 4 m = unitState s 4 m := by rw [rest]; rfl
  generalize setNdlState m 0 (clearReplays m s) = y at state unit
  by_cases back : unitState s 4 m = .recovering
  · rw [if_pos back]
    obtain ⟨fenced, kept⟩ := recoveryFails_module hm y
    exact ⟨kept.trans state, fun _ => fenced, fun no => absurd back no⟩
  · rw [if_neg back]
    have up : isUp y 4 m = true := by rw [isUp, unit]; exact (ends.resolve_left back).1
    exact ⟨(fenceCause_leaves hm 0x030D y).1.trans state, fun yes => absurd yes back, fun _ => fenceCause_drains hm up 0x030D⟩

/-- The part recovers a fenced module by itself. -/
theorem beginRecovery_module (s : State) : unitState (beginRecovery 4 m s) 4 m = .recovering ∧ ndlState (beginRecovery 4 m s) m = 3 ∧
    (ndlModule (beginRecovery 4 m s) m).autos = (ndlModule s m).autos := by
  have apart : regAddr .ndlStat m 0 ≠ regAddr .ndlRetrain m 0 :=
    regAddr_ne_of_stands (stands_ndlStat hm) (stands_of_lt hm (by decide) rfl) (by simp)
  have begins : beginRecovery 4 m s = moveStopped (moduleLink m) (bump .ndlRetrain m 0 1 (setFld .ndlStat m 0 31 29 3
      (setUnit 4 m .recovering (tget s.units (unitId 4 m) ⟨.up, 0, 0⟩).cause s))) := by
    show (bif Nat.blt m 328 then _ else _) = _
    rw [Nat.blt_eq.mpr hm, cond_true]
  have moves := (moves_moveStopped (moduleLink m) (bump .ndlRetrain m 0 1 (setFld .ndlStat m 0 31 29 3
    (setUnit 4 m .recovering (tget s.units (unitId 4 m) ⟨.up, 0, 0⟩).cause s)))).1
  rw [begins, moves.unitState_eq, moves.ndlState_eq, moves.autos]
  refine ⟨unitState_setUnit_self 4 m .recovering (tget s.units (unitId 4 m) ⟨.up, 0, 0⟩).cause s, ?_, rfl⟩
  rw [ndlState, bump, bumpFld, fld_setFld_ne _ _ apart, fld_setFld_self _ _ _ _ _ (by decide) (by decide)]
  rfl

end

theorem autoRecover_eq {m : Nat} {s : State} (fenced : unitState s 4 m = .fenced) (test : ndlState s m ≠ 5) : autoRecover m s =
    let ts := (ndlModule s m).autos.filter fun t0 => Nat.blt s.time (t0 + 60000000000)
    if ts.length < fld s .ndlCtl 0 0 19 16 then beginRecovery 4 m (modNdl m (fun x => { x with autos := ts ++ [s.time] }) s) else s := by
  unfold autoRecover
  dsimp only
  rw [fenced, beq_false_of_ne test, Bool.cond_eq_ite]
  simp only [beq_self_eq_true, Bool.not_false, Bool.and_true, Bool.true_and, Nat.blt_eq]

/-! ## Groups and replays (R510, R516) -/

/-- The group is accepted, and its acknowledgement taken for the other direction. -/
def groupTaken (m d ack : Nat) (flows : List NdlFlow) (s : State) : State :=
  modDir m (1 - d) (fun y => { y with acked := ack }) (modDir m d (fun y => { y with
    next := y.next + 1, unacked := dropGroup flows y.unacked,
    moved := bif y.unacked.contains flows then y.moved else dropGroup flows y.moved }) s)

/-- The replay is counted, and the group waits with those sent here. -/
def asksAgain (now : Time) (flows : List NdlFlow) (y : NdlDir) : NdlDir :=
  countReplay now (bif y.unacked.contains flows then y else { y with unacked := y.unacked ++ [flows], moved := dropGroup flows y.moved })

theorem asksAgain_waits (now : Time) (flows : List NdlFlow) (y : NdlDir) :
    (asksAgain now flows y).replays = y.replays.filter (fun t0 => Nat.blt now (t0 + 1000000)) ++ [now] ∧ flows ∈ (asksAgain now flows y).unacked := by
  unfold asksAgain
  cases known : y.unacked.contains flows
  · exact ⟨rfl, List.mem_append_right _ (List.mem_singleton_self _)⟩
  · exact ⟨rfl, List.contains_iff_mem.mp known⟩

/-- The receiver asks for the group it lacks, and the group stays to be sent again. -/
def groupAsked (m d : Nat) (flows : List NdlFlow) (s : State) : State :=
  modDir m d (asksAgain s.time flows)
    (bump .ndlReplay m 0 1 (emit (.ndlReplay m d (ndlDir (ndlModule s m) d).next) s))

section
variable {m d seq ack : Nat} {ok : Bool} {flows : List NdlFlow} {s : State}

theorem groupReceive_ignores (h : ndlUp s m = false ∨ (ok = true ∧ seq < (ndlDir (ndlModule s m) d).next) ∨ groupFits s m d flows = false) :
    groupReceive m d seq ok ack flows s = s := by
  unfold groupReceive
  dsimp only
  rcases h with down | ⟨passed, old⟩ | unfit
  · rw [down]; rfl
  · rw [passed, Nat.blt_eq.mpr old]
    cases ndlUp s m <;> rfl
  · rw [unfit]
    cases ndlUp s m <;> cases ok && Nat.blt seq (ndlDir (ndlModule s m) d).next <;> rfl

theorem groupReceive_eq (up : ndlUp s m = true) (new : ¬ (ok = true ∧ seq < (ndlDir (ndlModule s m) d).next)) (fits : groupFits s m d flows = true) :
    (ok = true → seq = (ndlDir (ndlModule s m) d).next → groupReceive m d seq ok ack flows s = groupTaken m d ack flows s) ∧
    (ok = false ∨ (ndlDir (ndlModule s m) d).next < seq → groupReceive m d seq ok ack flows s =
      if replayLimit (groupAsked m d flows s) < (ndlDir (ndlModule (groupAsked m d flows s) m) d).replays.length then
        beginRetrain m (groupAsked m d flows s) else groupAsked m d flows s) := by
  have new_ : (ok && Nat.blt seq (ndlDir (ndlModule s m) d).next) = false := by
    rw [Bool.eq_false_iff, ne_eq, Bool.and_eq_true, Nat.blt_eq]
    exact new
  unfold groupReceive
  dsimp only
  rw [up, new_, fits, Bool.not_true, cond_false, cond_false, cond_false]
  refine ⟨fun passed next => ?_, fun other => ?_⟩
  · rw [passed, next, Bool.true_and, beq_self_eq_true, cond_true]
    rfl
  · have other_ : (ok && seq == (ndlDir (ndlModule s m) d).next) = false := by
      rcases other with bad | later
      · rw [bad]; rfl
      · rw [beq_false_of_ne (Nat.ne_of_gt later), Bool.and_false]
    rw [other_, cond_false, Bool.cond_eq_ite]
    simp only [Nat.blt_eq]
    rfl

end

section
variable {m d : Nat} (hd : d < 2) (flows : List NdlFlow) (s : State)
include hd

/-- An accepted group is no longer waited for. -/
theorem groupTaken_accepts (ack : Nat) : (ndlDir (ndlModule (groupTaken m d ack flows s) m) d).next = (ndlDir (ndlModule s m) d).next + 1 ∧
    (ndlDir (ndlModule (groupTaken m d ack flows s) m) (1 - d)).acked = ack ∧
    ndlWaiting (groupTaken m d ack flows s) m d = (if flows ∈ (ndlDir (ndlModule s m) d).unacked then (ndlDir (ndlModule s m) d).moved
      else (ndlDir (ndlModule s m) d).moved.erase flows) ++ (ndlDir (ndlModule s m) d).unacked.erase flows := by
  have other : (d == 0) ≠ (1 - d == 0) := by
    rcases (by omega : d = 0 ∨ d = 1) with rfl | rfl <;> decide
  have here : ndlDir (ndlModule (groupTaken m d ack flows s) m) d = { ndlDir (ndlModule s m) d with
      next := (ndlDir (ndlModule s m) d).next + 1, unacked := dropGroup flows (ndlDir (ndlModule s m) d).unacked,
      moved := bif (ndlDir (ndlModule s m) d).unacked.contains flows then (ndlDir (ndlModule s m) d).moved
        else dropGroup flows (ndlDir (ndlModule s m) d).moved } := by
    rw [groupTaken, ndlDir_modDir_ne (.inr other), ndlDir_modDir_self rfl]
  refine ⟨by rw [here], by rw [groupTaken, ndlDir_modDir_self rfl], ?_⟩
  rw [ndlWaiting, here]
  dsimp only
  rw [Bool.cond_eq_ite, dropGroup, dropGroup]
  simp only [List.contains_iff_mem]

end

section
variable {m d : Nat} (flows : List NdlFlow) (s : State)

/-- What asking again leaves at the direction. -/
theorem groupAsked_dir : (ndlDir (ndlModule (groupAsked m d flows s) m) d).replays =
      (ndlDir (ndlModule s m) d).replays.filter (fun t0 => Nat.blt s.time (t0 + 1000000)) ++ [s.time] ∧
    flows ∈ (ndlDir (ndlModule (groupAsked m d flows s) m) d).unacked := by
  rw [groupAsked, ndlDir_modDir_self rfl]
  exact asksAgain_waits s.time flows (ndlDir (ndlModule s m) d)

/-- What asking again leaves of the rest. -/
theorem groupAsked_leaves (hm : m < 328) : .ndlReplay m d (ndlDir (ndlModule s m) d).next ∈ (groupAsked m d flows s).out ∧
    raw (groupAsked m d flows s) .ndlReplay m 0 = Nat.min (2 ^ 32 - 1) (raw s .ndlReplay m 0 + 1) ∧
    ndlState (groupAsked m d flows s) m = ndlState s m ∧ isUp (groupAsked m d flows s) 4 m = isUp s 4 m ∧
    replayLimit (groupAsked m d flows s) = replayLimit s ∧ recentRetrains (groupAsked m d flows s) m = recentRetrains s m := by
  have stands : Stands .ndlReplay m 0 := stands_of_lt hm (by decide) rfl
  have stat : regAddr .ndlStat m 0 ≠ regAddr .ndlReplay m 0 := regAddr_ne_of_stands (stands_ndlStat hm) stands (by simp)
  have limit : regAddr .ndlCtl 0 0 ≠ regAddr .ndlReplay m 0 :=
    regAddr_ne_of_stands (stands_of_lt (by decide) (by decide) rfl) stands (by simp)
  refine ⟨List.mem_append_right _ (List.mem_singleton_self _),
    raw_bump_self .ndlReplay m 0 1 (emit (.ndlReplay m d (ndlDir (ndlModule s m) d).next) s),
    fld_setFld_ne (emit (.ndlReplay m d (ndlDir (ndlModule s m) d).next) s) _ stat, rfl, ?_, ?_⟩
  · exact congrArg (Nat.max 1) (fld_setFld_ne (emit (.ndlReplay m d (ndlDir (ndlModule s m) d).next) s) _ limit)
  · rw [recentRetrains, groupAsked, (autos_modDir ..).2]
    rfl

/-- A retrain begins, or the ninth within a second fences the module. -/
theorem beginRetrain_leaves (hm : m < 328) (up : isUp s 4 m = true) : (beginRetrain m s).out = s.out ∧
    raw (beginRetrain m s) .ndlReplay m 0 = raw s .ndlReplay m 0 ∧
    (∀ e, (ndlDir (ndlModule (beginRetrain m s) m) e).replays = (ndlDir (ndlModule s m) e).replays) ∧
    (if 8 ≤ (recentRetrains s m).length then unitState (beginRetrain m s) 4 m = .draining else ndlState (beginRetrain m s) m = 3) := by
  have stands : Stands .ndlReplay m 0 := stands_of_lt hm (by decide) rfl
  have stat : regAddr .ndlReplay m 0 ≠ regAddr .ndlStat m 0 := regAddr_ne_of_stands stands (stands_ndlStat hm) (by simp)
  have begun : Stands .ndlRetrain m 0 := stands_of_lt hm (by decide) rfl
  have count : regAddr .ndlReplay m 0 ≠ regAddr .ndlRetrain m 0 := regAddr_ne_of_stands stands begun (by simp)
  have stat' : regAddr .ndlStat m 0 ≠ regAddr .ndlRetrain m 0 := regAddr_ne_of_stands (stands_ndlStat hm) begun (by simp)
  have many : Nat.blt 8 (recentRetrains s m ++ [s.time]).length = true ↔ 8 ≤ (recentRetrains s m).length := by
    rw [Nat.blt_eq, List.length_append, List.length_singleton]
    omega
  unfold beginRetrain
  dsimp only
  generalize hy : modNdl m (fun x => { x with retrains := recentRetrains s m ++ [s.time] }) s = y
  have replays : ∀ e, (ndlDir (ndlModule y m) e).replays = (ndlDir (ndlModule s m) e).replays := fun e => by
    rw [← hy, ndlModule_modNdl_self]
    rfl
  have same : y.out = s.out ∧ y.ctl = s.ctl ∧ isUp y 4 m = isUp s 4 m := by rw [← hy]; exact ⟨rfl, rfl, rfl⟩
  obtain ⟨out, ctl, unit⟩ := same
  have raw_ : raw y .ndlReplay m 0 = raw s .ndlReplay m 0 := by rw [raw, ctl, raw]
  by_cases h : 8 ≤ (recentRetrains s m).length
  · rw [many.mpr h, cond_true, if_pos h]
    obtain ⟨-, count_, out_, dirs⟩ := fenceCause_leaves hm 0x030C y
    exact ⟨out_.trans out, count_.trans raw_, fun e => (dirs e).trans (replays e), fenceCause_drains hm (unit.trans up) 0x030C⟩
  · rw [Bool.eq_false_iff.mpr (mt many.mp h), cond_false, if_neg h]
    have moves := (moves_moveStopped (moduleLink m) (bump .ndlRetrain m 0 1 (setNdlState m 3 y))).1
    refine ⟨?_, ?_, fun e => (moves.replays m e).trans (replays e), ?_⟩
    · obtain ⟨n, rest⟩ := moves.rest
      rw [rest]
      exact out
    · obtain ⟨n, rest⟩ := moves.rest
      have kept : raw (bump .ndlRetrain m 0 1 (setNdlState m 3 y)) .ndlReplay m 0 = raw s .ndlReplay m 0 := by
        rw [bump, bumpFld, raw_setFld_ne _ _ count, setNdlState, raw_setFld_ne _ _ stat, raw_]
      rw [rest]
      exact kept
    · rw [moves.ndlState_eq, ndlState, bump, bumpFld, fld_setFld_ne _ _ stat', setNdlState, fld_setFld_self _ _ _ _ _ (by decide) (by decide)]
      rfl

end

/-- A group that is not the next one: the receiver asks again, and too many replays start a retrain. -/
theorem groupReceive_asks {m d seq ack : Nat} (hm : m < 328) {ok : Bool} {flows : List NdlFlow} {s : State} (up : ndlUp s m = true)
    (new : ¬ (ok = true ∧ seq < (ndlDir (ndlModule s m) d).next)) (fits : groupFits s m d flows = true)
    (other : ok = false ∨ (ndlDir (ndlModule s m) d).next < seq) :
    let x := ndlDir (ndlModule s m) d
    let l := x.replays.filter (fun t0 => Nat.blt s.time (t0 + 1000000)) ++ [s.time]
    let v := groupReceive m d seq ok ack flows s
    .ndlReplay m d x.next ∈ v.out ∧ raw v .ndlReplay m 0 = Nat.min (2 ^ 32 - 1) (raw s .ndlReplay m 0 + 1) ∧
      (ndlDir (ndlModule v m) d).replays = l ∧
      (l.length ≤ replayLimit s → ndlState v m = 2 ∧ flows ∈ (ndlDir (ndlModule v m) d).unacked) ∧
      (replayLimit s < l.length → if 8 ≤ (recentRetrains s m).length then unitState v 4 m = .draining else ndlState v m = 3) := by
  intro x l v
  obtain ⟨replays, waits⟩ := groupAsked_dir (m := m) (d := d) flows s
  obtain ⟨asked, count, state, unit, limit, recent⟩ := groupAsked_leaves (d := d) flows s hm
  obtain ⟨isUp_, serves⟩ := (Bool.and_eq_true _ _).mp up
  have goes := (groupReceive_eq (ack := ack) up new fits).2 other
  rw [limit, replays] at goes
  by_cases many : replayLimit s < l.length
  · have begins : v = beginRetrain m (groupAsked m d flows s) := goes.trans (if_pos many)
    obtain ⟨out, count', replays', ends⟩ := beginRetrain_leaves (groupAsked m d flows s) hm (unit.trans isUp_)
    rw [recent] at ends
    rw [begins]
    exact ⟨out ▸ asked, count'.trans count, (replays' d).trans replays, fun few => absurd many (Nat.not_lt.mpr few), fun _ => ends⟩
  · have stays : v = groupAsked m d flows s := goes.trans (if_neg many)
    rw [stays]
    exact ⟨asked, count, replays, fun _ => ⟨state.trans (beq_iff_eq.mp serves), waits⟩, fun more => absurd more many⟩

end Sys2Proof.Machine
end

section
/-! SUPPORT. The open site, the tests of chapter 17, and its statement of modules, site and tests (R519, R521 to R525). -/

namespace Sys2Proof.Machine

/-! ## The open site (R519, R521, R522) -/

theorem rateCode_le (r : Nat) : rateCode r ≤ 3 := by
  unfold rateCode
  cases r == 32 <;> cases r == 24 <;> cases r == 16 <;> decide

/-- The codes of the four modules of the open site. -/
def siteCodes (rate : List Nat) : List Nat := (List.range 4).map fun i => rateCode ((rate[i]?).getD 0)

/-- Bits of UCI_STAT, one per module. -/
def siteBits (p : Nat → Bool) : Nat := sumNat ((List.range 4).map fun i => bif p i then 2 ^ i else 0)

theorem siteBits_lt (p : Nat → Bool) : siteBits p < 16 := by
  have each : ∀ a b c d : Bool, (((0 + (bif a then 2 ^ 0 else 0)) + (bif b then 2 ^ 1 else 0)) + (bif c then 2 ^ 2 else 0)) +
      (bif d then 2 ^ 3 else 0) < 16 := by decide
  exact each (p 0) (p 1) (p 2) (p 3)

theorem bit_siteBits (p : Nat → Bool) (i : Fin 4) : bit (siteBits p) i = p i := by
  have each : ∀ a b c d : Bool, ∀ i : Fin 4, bit ((((0 + (bif a then 2 ^ 0 else 0)) + (bif b then 2 ^ 1 else 0)) + (bif c then 2 ^ 2 else 0)) +
      (bif d then 2 ^ 3 else 0)) i = (match i with | 0 => a | 1 => b | 2 => c | 3 => d) := by decide
  refine (each (p 0) (p 1) (p 2) (p 3) i).trans ?_
  match i with
  | 0 => rfl
  | 1 => rfl
  | 2 => rfl
  | 3 => rfl

theorem slowest_siteCodes_le (rate : List Nat) : slowest (siteCodes rate) ≤ 3 := by
  have codes : ∀ c ∈ siteCodes rate, c ≤ 3 := fun c hc => by
    obtain ⟨i, -, rfl⟩ := List.mem_map.mp hc
    exact rateCode_le _
  have least : ∀ (l : List Nat) (n : Nat), n ≤ 3 → l.foldl Nat.min n ≤ 3 := by
    intro l
    induction l with
    | nil => exact fun _ => id
    | cons x l ih => exact fun n hn => ih _ (Nat.le_trans (Nat.min_le_left n x) hn)
  have most : ∀ (l : List Nat) (n : Nat), (∀ c ∈ l, c ≤ 3) → n ≤ 3 → l.foldl Nat.max n ≤ 3 := by
    intro l
    induction l with
    | nil => exact fun _ _ => id
    | cons x l ih => exact fun n hl hn => ih _ (fun c hc => hl c (List.mem_cons_of_mem x hc)) (Nat.max_le.mpr ⟨hn, hl x (List.mem_cons_self ..)⟩)
  exact least _ _ (most _ 0 codes (by decide))

/-- UCI_STAT as discovery leaves it. -/
def discoveredStat (rate : List Nat) (narrow : List Bool) : Nat :=
  let up := fun i => !(((siteCodes rate)[i]?).getD 0 == 0)
  2 ^ 31 + siteBits up * 2 ^ 27 + slowest (siteCodes rate) * 2 ^ 25 + siteBits (fun i => up i && (narrow[i]?).getD false) * 2 ^ 21

theorem discoveredStat_shows (rate : List Nat) (narrow : List Bool) : discoveredStat rate narrow < 2 ^ 32 ∧
    bit (discoveredStat rate narrow) 31 = true ∧
    ∀ i : Fin 4, bit (discoveredStat rate narrow) (27 + i) = !(rateCode ((rate[(i : Nat)]?).getD 0) == 0) := by
  have slow := slowest_siteCodes_le rate
  unfold discoveredStat
  extract_lets up
  have ups := siteBits_lt up
  have nar := siteBits_lt fun i => up i && (narrow[i]?).getD false
  have shown := bit_siteBits up
  generalize siteBits (fun i => up i && (narrow[i]?).getD false) = b at nar
  generalize slowest (siteCodes rate) = c at slow
  refine ⟨by omega, ?_, fun i => ?_⟩
  · rw [bit, beq_iff_eq]
    omega
  · have code : up i = !(rateCode ((rate[(i : Nat)]?).getD 0) == 0) := by
      match i with
      | 0 => rfl
      | 1 => rfl
      | 2 => rfl
      | 3 => rfl
    rw [← code, ← shown i]
    generalize siteBits up = a at ups
    unfold bit
    congr 1
    have lowBits : (2 ^ 31 + a * 2 ^ 27 + c * 2 ^ 25 + b * 2 ^ 21) / 2 ^ 27 = 16 + a := by omega
    rw [Nat.pow_add, ← Nat.div_div_eq_div_mul, lowBits]
    match i with
    | 0 => show (16 + a) / 2 ^ 0 % 2 = a / 2 ^ 0 % 2; omega
    | 1 => show (16 + a) / 2 ^ 1 % 2 = a / 2 ^ 1 % 2; omega
    | 2 => show (16 + a) / 2 ^ 2 % 2 = a / 2 ^ 2 % 2; omega
    | 3 => show (16 + a) / 2 ^ 3 % 2 = a / 2 ^ 3 % 2; omega

/-- The die's identity and the rates are in the registers. -/
def siteFound (id stat : Nat) (s : State) : State :=
  setRaw64 .uciIdLo .uciIdHi 0 0 id (setFld .genConfig 0 0 4 4 1 (setRaw .uciStat 0 0 stat s))

/-- The state of a discovered die. -/
def discovered (id : Nat) (rate : List Nat) (narrow : List Bool) (s : State) : State :=
  extendMr 10 (digestOf (leBytes 8 id)) { siteFound id (discoveredStat rate narrow) s with
    uciDown := ((List.range 4).filter fun i => !(!(((siteCodes rate)[i]?).getD 0 == 0))).map fun i => (i, s.time) }

theorem siteFound_shows (id stat : Nat) (s : State) : raw (siteFound id stat s) .uciStat 0 0 = stat % 2 ^ 32 ∧
    raw64 (siteFound id stat s) .uciIdLo .uciIdHi 0 0 = id % 2 ^ 64 ∧ flag (siteFound id stat s) .genConfig 0 0 4 = true := by
  refine ⟨?_, raw64_setRaw64 (by decide) .., ?_⟩
  · rw [siteFound, setRaw64, raw_setRaw_ne _ _ (by decide), raw_setRaw_ne _ _ (by decide), raw_setFld_ne _ _ (by decide), raw_setRaw_self]
  · rw [siteFound, setRaw64, flag, raw_setRaw_ne _ _ (by decide), raw_setRaw_ne _ _ (by decide)]
    exact flag_setFld_one _ .genConfig 0 0 (by decide)

theorem ucieDiscovery_eq {s : State} (awake_ : awake s = true) (regs : s.regsUp = true) (on : s.uciOff = false)
    (fresh : flag s .uciStat 0 0 31 = false) (rate : List Nat) (narrow : List Bool) :
    ucieDiscovery none rate narrow s = { s with uciOff := true } ∧
      ∀ id : W64, ucieDiscovery (some id) rate narrow s = discovered id.toNat rate narrow s := by
  have starts : (!(awake s) || !s.regsUp || s.uciOff || flag s .uciStat 0 0 31) = false := by rw [awake_, regs, on, fresh]; rfl
  unfold ucieDiscovery
  rw [starts]
  exact ⟨rfl, fun id => rfl⟩

/-- The rest of the discovery writes ATT_MRCNT alone. -/
theorem keepsRegs_discovered (id : Nat) (rate : List Nat) (narrow : List Bool) (s : State) :
    KeepsRegs [.attMrcnt] (siteFound id (discoveredStat rate narrow) s) (discovered id rate narrow s) := by
  have noted : KeepsRegs [.attMrcnt] (siteFound id (discoveredStat rate narrow) s) { siteFound id (discoveredStat rate narrow) s with
    uciDown := ((List.range 4).filter fun i => !(!(((siteCodes rate)[i]?).getD 0 == 0))).map fun i => (i, s.time) } := .of_ctl _ rfl
  exact noted.trans (keepsRegs_extendMr (by decide) _ _)

/-- What a discovered die shows. -/
theorem discovered_shows (id : W64) (rate : List Nat) (narrow : List Bool) (s : State) :
    flag (discovered id.toNat rate narrow s) .uciStat 0 0 31 = true ∧
      raw64 (discovered id.toNat rate narrow s) .uciIdLo .uciIdHi 0 0 = id.toNat ∧
      flag (discovered id.toNat rate narrow s) .genConfig 0 0 4 = true ∧
      ∀ i : Fin 4, flag (discovered id.toNat rate narrow s) .uciStat 0 0 (27 + i) = !(rateCode ((rate[(i : Nat)]?).getD 0) == 0) := by
  have kept := keepsRegs_discovered id.toNat rate narrow s
  have same : ∀ r, Stands r 0 0 → r ∉ [Reg.attMrcnt] → raw (discovered id.toNat rate narrow s) r 0 0 =
      raw (siteFound id.toNat (discoveredStat rate narrow) s) r 0 0 := fun r stands other => kept r 0 0 stands other
  obtain ⟨small, present, ups⟩ := discoveredStat_shows rate narrow
  obtain ⟨stat, ids, config⟩ := siteFound_shows id.toNat (discoveredStat rate narrow) s
  rw [Nat.mod_eq_of_lt small] at stat
  rw [Nat.mod_eq_of_lt id.isLt] at ids
  refine ⟨?_, ?_, ?_, fun i => ?_⟩
  · rw [flag, same _ (stands_of_lt (by decide) (by decide) rfl) (by decide), stat, present]
  · rw [raw64, same _ (stands_of_lt (by decide) (by decide) rfl) (by decide), same _ (stands_of_lt (by decide) (by decide) rfl) (by decide),
      ← raw64, ids]
  · rw [flag, same _ (stands_of_lt (by decide) (by decide) rfl) (by decide), ← flag, config]
  · rw [flag, same _ (stands_of_lt (by decide) (by decide) rfl) (by decide), stat, ups i]

theorem mr_discovered (id : Nat) (rate : List Nat) (narrow : List Bool) (s : State) :
    mr (discovered id rate narrow s) 10 = mrExtended (mr s 10) (digestOf (leBytes 8 id)) := mr_extendMr_self ..

/-- An access whose page is looked up: refused, served or kept waiting. -/
def dieLookedUp (a : DieAccess) (s : State) : Option (Except Status Leaf) → State
  | some (.error st) => dieRefused st s
  | some (.ok l) => if admittedAt s (diePart s) (paOf l (dieVa a)) = true then
      dieServe a l (heatPage (diePart s) (dieVa a / 2 ^ 21) { s with uciTlb := touchLru 256 (dieVa a / 2 ^ 21) s.uciTlb })
    else waitAt (diePart s) (paOf l (dieVa a)) s
  | none => askDrift (diePart s) (dieVa a / 2 ^ 21) (heatPage (diePart s) (dieVa a / 2 ^ 21) s)

theorem ucieAccess_absent {s : State} (h : flag s .uciStat 0 0 31 = false ∨ fld s .uciStat 0 0 30 27 = 0) (a : DieAccess) : ucieAccess a s = s := by
  unfold ucieAccess
  rcases h with h | h
  · rw [h]; rfl
  · rw [h, beq_self_eq_true, Bool.or_true, cond_true]

theorem ucieAccess_eq {s : State} (known : flag s .uciStat 0 0 31 = true) (up : fld s .uciStat 0 0 30 27 ≠ 0) (a : DieAccess) :
    ucieAccess a s = if flag s .uciCtl 0 0 30 = false then dieRefused (Config.dieRefusal 0) s
      else if isUp s 9 (diePart s) = false then dieRefused 0x0305 s
      else if dieAligned a = false then dieRefused (Config.dieRefusal 1) s
      else dieLookedUp a s (diePage s a) := by
  have here : (!(flag s .uciStat 0 0 31) || fld s .uciStat 0 0 30 27 == 0) = false := by rw [known, beq_false_of_ne up]; rfl
  unfold ucieAccess
  rw [here, cond_false]
  cases flag s .uciCtl 0 0 30
  · rfl
  cases isUp s 9 (diePart s)
  · rfl
  cases dieAligned a
  · rfl
  rw [if_neg (by decide), if_neg (by decide), if_neg (by decide), Bool.not_true, cond_false, cond_false, cond_false]
  cases diePage s a with
  | none => rfl
  | some r =>
    cases r with
    | error st => rfl
    | ok l => exact Bool.cond_eq_ite ..

theorem dieRefused_counts (st : Status) (s : State) : (dieRefused st s).out = s.out ++ [.die st []] ∧
    raw (dieRefused st s) .uciErr 0 0 = Nat.min (2 ^ 32 - 1) (raw s .uciErr 0 0 + 1) :=
  ⟨rfl, raw_bump_self .uciErr 0 0 1 s⟩

/-- A module that stays down is fenced, and EN is clear once none is left. -/
theorem ucieModuleDown_leaves {m : Nat} (hm : m < 4) {s : State} (known : flag s .uciStat 0 0 31 = true)
    (late : ∀ t0, tget? s.uciDown m = some t0 → t0 + 10000000 < s.time) : flag (ucieModuleDown m s) .uciStat 0 0 (27 + m) = false ∧
    isUp (ucieModuleDown m s) 4 (328 + m) = false ∧
    ((∀ k < 4, k ≠ m → isUp s 4 (328 + k) = false) → flag (ucieModuleDown m s) .uciCtl 0 0 30 = false) := by
  have down : ucieModuleDown m s = causeUcie (328 + m) 0x030D (setFld .uciStat 0 0 (27 + m) (27 + m) 0 s) := by
    unfold ucieModuleDown
    extract_lets late_
    have over_ : late_ = true := by
      unfold late_
      cases h : tget? s.uciDown m with
      | none => rfl
      | some t0 => exact Nat.blt_eq.mpr (late t0 h)
    rw [known, over_, Bool.not_true, Bool.or_false, cond_false]
    have site : Nat.blt (328 + m) 328 = false := Bool.eq_false_iff.mpr (mt Nat.blt_eq.mp (by omega))
    show (bif Nat.blt (328 + m) 328 then causeNative (328 + m) 0x030D _ else causeUcie (328 + m) 0x030D _) = _
    rw [site, cond_false]
  rw [down]
  generalize hw : setFld .uciStat 0 0 (27 + m) (27 + m) 0 s = w
  have clear : flag w .uciStat 0 0 (27 + m) = false := by
    rw [← hw, flag_eq_fld, fld_setFld_self _ _ _ _ _ (Nat.le_refl _) (by omega), Nat.zero_mod]
    rfl
  have stat : regAddr .uciStat 0 0 ≠ regAddr .errCount 0 0 ∧ regAddr .uciStat 0 0 ∉ eventAddrs := by decide
  have noted : raw (noteCause 4 (328 + m) 0x030D w) .uciStat 0 0 = raw w .uciStat 0 0 := (keepsAt_noteCause stat.1 stat.2 ..).raw_eq
  have fenced := isUp_noteCause 4 (328 + m) 0x030D w
  have others : ∀ k, k < 4 → k ≠ m → isUp (noteCause 4 (328 + m) 0x030D w) 4 (328 + k) = isUp s 4 (328 + k) := fun k hk other => by
    have apart : unitId 4 (328 + k) ≠ unitId 4 (328 + m) := by unfold unitId; omega
    rw [(leavesUnit_noteCause apart 0x030D w).isUp_eq, ← hw]
    rfl
  unfold causeUcie
  extract_lets x
  have flag_ : flag x .uciStat 0 0 (27 + m) = false := by rw [flag, noted, ← flag, clear]
  cases last : (List.range 4).all fun k => !(isUp x 4 (328 + k))
  · rw [cond_false]
    refine ⟨flag_, fenced, fun alone => absurd (List.all_eq_true.mpr fun k hk => ?_) (Bool.eq_false_iff.mp last)⟩
    by_cases same : k = m
    · rw [same, fenced]; rfl
    · have low := List.mem_range.mp hk
      rw [others k low same, alone k low same]; rfl
  · have apart : regAddr .uciStat 0 0 ≠ regAddr .uciCtl 0 0 := by decide
    rw [cond_true]
    refine ⟨?_, fenced, fun _ => ?_⟩
    · rw [flag, raw_setFld_ne _ _ apart, ← flag, flag_]
    · rw [flag_eq_fld, fld_setFld_self _ _ _ _ _ (by decide) (by decide)]
      rfl

/-! ## Test (R523, R525) -/

theorem stands_dbgLoop : Stands .dbgLoop 0 0 := stands_of_lt (by decide) (by decide) rfl

theorem dbgLoop_ne_ndlStat {m : Nat} (hm : m < 328) : regAddr .dbgLoop 0 0 ≠ regAddr .ndlStat m 0 :=
  regAddr_ne_of_stands stands_dbgLoop (stands_ndlStat hm) (by simp)

/-- The loopback test begins. -/
def loopBegun (s : State) : State := setFld .dbgLoop 0 0 17 16 0 (setFld .dbgLoop 0 0 30 30 1 { s with loopAt := s.time })

theorem flag_loopBegun (s : State) : flag (loopBegun s) .dbgLoop 0 0 30 = true := by
  rw [loopBegun, flag_eq_fld, fld_setFld_above _ _ _ _ _ (by decide) (by decide) (by decide), ← flag_eq_fld]
  exact flag_setFld_one _ _ _ _ (by decide)

theorem dbgLoopWritten_eq {v : Nat} {s : State} (go : bit v 31 = true) (idle : flag s .dbgLoop 0 0 30 = false) : dbgLoopWritten v s =
    if bits v 26 18 < 332 ∧ unitState s 4 (bits v 26 18) = .fenced then
      if bits v 26 18 < 328 then setNdlState (bits v 26 18) 5 (loopBegun s) else loopBegun s
    else setFld .dbgLoop 0 0 17 16 1 s := by
  have may : (Nat.blt (bits v 26 18) 332 && unitState s 4 (bits v 26 18) == .fenced) = true ↔
      bits v 26 18 < 332 ∧ unitState s 4 (bits v 26 18) = .fenced := by
    rw [Bool.and_eq_true, Nat.blt_eq, beq_iff_eq]
  unfold dbgLoopWritten
  dsimp only
  rw [go, idle, Bool.not_true, Bool.or_false, cond_false]
  by_cases h : bits v 26 18 < 332 ∧ unitState s 4 (bits v 26 18) = .fenced
  · rw [if_pos h, may.mpr h, Bool.not_true, cond_false, Bool.cond_eq_ite]
    simp only [Nat.blt_eq]
    rfl
  · rw [if_neg h, Bool.eq_false_iff.mpr (mt may.mp h)]
    rfl

/-- A loopback test starts on a fenced module alone. -/
theorem dbgLoopWritten_starts {v : Nat} {s : State} (go : bit v 31 = true) (idle : flag s .dbgLoop 0 0 30 = false) :
    if bits v 26 18 < 332 ∧ unitState s 4 (bits v 26 18) = .fenced then
      flag (dbgLoopWritten v s) .dbgLoop 0 0 30 = true ∧ (dbgLoopWritten v s).loopAt = s.time ∧
        (bits v 26 18 < 328 → ndlState (dbgLoopWritten v s) (bits v 26 18) = 5)
    else flag (dbgLoopWritten v s) .dbgLoop 0 0 30 = false ∧ fld (dbgLoopWritten v s) .dbgLoop 0 0 17 16 = 1 := by
  rw [dbgLoopWritten_eq go idle]
  by_cases h : bits v 26 18 < 332 ∧ unitState s 4 (bits v 26 18) = .fenced
  · rw [if_pos h, if_pos h]
    by_cases native : bits v 26 18 < 328
    · rw [if_pos native]
      refine ⟨?_, rfl, fun _ => ?_⟩
      · rw [setNdlState, flag, raw_setFld_ne _ _ (dbgLoop_ne_ndlStat native), ← flag, flag_loopBegun]
      · rw [ndlState, setNdlState, fld_setFld_self _ _ _ _ _ (by decide) (by decide)]
        rfl
    · rw [if_neg native]
      exact ⟨flag_loopBegun s, rfl, fun is => absurd is native⟩
  · rw [if_neg h, if_neg h]
    refine ⟨?_, ?_⟩
    · rw [flag_eq_fld, fld_setFld_above _ _ _ _ _ (by decide) (by decide) (by decide), ← flag_eq_fld, idle]
    · rw [fld_setFld_self _ _ _ _ _ (by decide) (by decide)]
      rfl

/-- The loopback test has ended. -/
def loopEnded (first errs : Nat) (s : State) : State :=
  setRaw .dbgLoopres 0 0 (Nat.min first 0x1FF * 2 ^ 23 + satTo 65535 errs) (setFld .dbgLoop 0 0 30 30 0 s)

theorem loopEnded_shows (first errs : Nat) (s : State) : flag (loopEnded first errs s) .dbgLoop 0 0 30 = false ∧
    fld (loopEnded first errs s) .dbgLoopres 0 0 31 23 = Nat.min first 0x1FF ∧
      fld (loopEnded first errs s) .dbgLoopres 0 0 15 0 = Nat.min 65535 errs := by
  have apart : regAddr .dbgLoop 0 0 ≠ regAddr .dbgLoopres 0 0 := by decide
  have first_ : Nat.min first 0x1FF ≤ 0x1FF := Nat.min_le_right ..
  have errs_ : Nat.min 65535 errs ≤ 65535 := Nat.min_le_left ..
  unfold loopEnded satTo
  generalize Nat.min first 0x1FF = a at first_
  generalize Nat.min 65535 errs = b at errs_
  refine ⟨?_, ?_, ?_⟩
  · rw [flag, raw_setRaw_ne _ _ apart, ← flag, flag_eq_fld, fld_setFld_self _ _ _ _ _ (by decide) (by decide)]
    rfl
  all_goals
    rw [fld, raw_setRaw_self, bits]
    omega

theorem loopComplete_early {s : State} (early : s.time < s.loopAt + 100000) (first errs : Nat) : loopComplete first errs s = s := by
  unfold loopComplete
  rw [Nat.blt_eq.mpr early, Bool.or_true, cond_true]

theorem loopComplete_ends {s : State} (runs : flag s .dbgLoop 0 0 30 = true) (due : s.loopAt + 100000 ≤ s.time) (first errs : Nat) :
    flag (loopComplete first errs s) .dbgLoop 0 0 30 = false ∧ fld (loopComplete first errs s) .dbgLoopres 0 0 31 23 = Nat.min first 0x1FF ∧
      fld (loopComplete first errs s) .dbgLoopres 0 0 15 0 = Nat.min 65535 errs := by
  have due_ : Nat.blt s.time (s.loopAt + 100000) = false := Bool.eq_false_iff.mpr (mt Nat.blt_eq.mp (Nat.not_lt.mpr due))
  obtain ⟨idle, result, count⟩ := loopEnded_shows first errs s
  have ends : loopComplete first errs s = bif Nat.blt (fld s .dbgLoop 0 0 26 18) 328 && ndlState (loopEnded first errs s)
    (fld s .dbgLoop 0 0 26 18) == 5
      then setNdlState (fld s .dbgLoop 0 0 26 18) 0 (loopEnded first errs s) else loopEnded first errs s := by
    unfold loopComplete
    rw [runs, due_, Bool.not_true, Bool.or_false, cond_false]
    rfl
  rw [ends]
  cases native : Nat.blt (fld s .dbgLoop 0 0 26 18) 328
  · exact ⟨idle, result, count⟩
  · cases ndlState (loopEnded first errs s) (fld s .dbgLoop 0 0 26 18) == 5
    · exact ⟨idle, result, count⟩
    · have hm := Nat.blt_eq.mp native
      have stands : Stands .dbgLoopres 0 0 := stands_of_lt (by decide) (by decide) rfl
      have res : regAddr .dbgLoopres 0 0 ≠ regAddr .ndlStat (fld s .dbgLoop 0 0 26 18) 0 := regAddr_ne_of_stands stands (stands_ndlStat hm) (by simp)
      rw [Bool.and_self, cond_true, setNdlState, fld_setFld_ne _ _ res, fld_setFld_ne _ _ res, flag, raw_setFld_ne _ _ (dbgLoop_ne_ndlStat hm),
        ← flag]
      exact ⟨idle, result, count⟩

/-- An IEEE 1500 test starts on a stack that is fenced whole. -/
theorem p1500Written_starts {v : Nat} {s : State} (go : bit v 31 = true) (idle : flag s .dbgP1500 0 0 30 = false) :
    let ok := bits v 3 0 < 12 ∧ ∀ p, p < 64 → unitState s 7 (bits v 3 0 * 64 + p) = .fenced
    (ok → flag (p1500Written v s) .dbgP1500 0 0 30 = true) ∧
      (¬ ok → flag (p1500Written v s) .dbgP1500 0 0 30 = false ∧ fld (p1500Written v s) .dbgP1500 0 0 29 28 = 1) := by
  intro ok
  have may : (Nat.blt (bits v 3 0) 12 && (List.range 64).all (fun p => unitState s 7 (bits v 3 0 * 64 + p) == .fenced)) = true ↔ ok := by
    rw [Bool.and_eq_true, Nat.blt_eq, List.all_eq_true]
    simp only [List.mem_range, beq_iff_eq, ok]
  unfold p1500Written
  dsimp only
  rw [go, idle, Bool.not_true, Bool.or_false, cond_false]
  refine ⟨fun h => ?_, fun h => ?_⟩
  · have whole : fld (setFld .dbgP1500 0 0 30 28 4 s) .dbgP1500 0 0 30 28 = 4 := fld_setFld_self _ _ _ _ _ (by decide) (by decide)
    rw [may.mpr h, cond_true, flag, bit, beq_iff_eq]
    rw [fld, bits] at whole
    omega
  · rw [Bool.eq_false_iff.mpr (mt may.mp h), cond_false]
    refine ⟨?_, ?_⟩
    · rw [flag_eq_fld, fld_setFld_above _ _ _ _ _ (by decide) (by decide) (by decide), ← flag_eq_fld, idle]
    · rw [fld_setFld_self _ _ _ _ _ (by decide) (by decide)]
      rfl

theorem p1500Complete_ends {s : State} (runs : flag s .dbgP1500 0 0 30 = true) (pass : Bool) : flag (p1500Complete pass s) .dbgP1500 0 0 30 = false ∧
    fld (p1500Complete pass s) .dbgP1500 0 0 29 28 = if pass = true then 0 else 2 := by
  have whole : fld (setFld .dbgP1500 0 0 30 28 (bif pass then 0 else 2) s) .dbgP1500 0 0 30 28 = (bif pass then 0 else 2) % 2 ^ (30 + 1 - 28) :=
    fld_setFld_self _ _ _ _ _ (by decide) (by decide)
  unfold p1500Complete
  rw [runs, cond_true, flag, bit]
  rw [fld, bits] at *
  cases pass
  · rw [cond_false] at *
    refine ⟨beq_false_of_ne ?_, ?_⟩
    · omega
    · rw [if_neg (by decide)]
      omega
  · rw [cond_true] at *
    refine ⟨beq_false_of_ne ?_, ?_⟩
    · omega
    · rw [if_pos rfl]
      omega

theorem regCommand_dbgLoop {s : State} {path : Path} {v : W32} (h : WritesReg s path .dbgLoop 0 0 v) :
    regCommand path .dbgLoop 0 0 v s = answered path .dbgLoop 0 0 0 (fetched path .dbgLoop 0 0 v s)
      (dbgLoopWritten v.toNat (written .dbgLoop 0 0 v (fetched path .dbgLoop 0 0 v s))) :=
  regCommand_writes h rfl rfl rfl

theorem regCommand_dbgP1500 {s : State} {path : Path} {v : W32} (h : WritesReg s path .dbgP1500 0 0 v) :
    regCommand path .dbgP1500 0 0 v s = answered path .dbgP1500 0 0 0 (fetched path .dbgP1500 0 0 v s)
      (p1500Written v.toNat (written .dbgP1500 0 0 v (fetched path .dbgP1500 0 0 v s))) :=
  regCommand_writes h rfl rfl rfl

/-! ## JTAG (R524) -/

theorem jtagActs_eq (s : State) (i : JtagInstr) : jtagActs s i = if i.drives = true ∧ bootSel s ≠ 3 then .bypass else i := by
  unfold jtagActs
  by_cases recovery : bootSel s = 3
  · rw [recovery, if_neg fun h => h.2 rfl]
    cases i.drives <;> rfl
  · rw [beq_false_of_ne recovery, Bool.not_false, Bool.and_true, Bool.cond_eq_ite]
    simp only [ne_eq, recovery, not_false_eq_true, and_true]

/-- IDCODE of a die with stepping `n` and part number `part`. -/
theorem idcode_fields {n part : Nat} (hp : part < 2 ^ 16) (d : BitVec 32)
    (h : d = BitVec.ofNat 32 (n % 16 * 2 ^ 28 + part * 2 ^ 12 + 0x2D3 * 2 + 1)) :
    d.toNat % 2 ^ 12 = 0x2D3 * 2 + 1 ∧ d.toNat / 2 ^ 12 % 2 ^ 16 = part := by
  rw [h, BitVec.toNat_ofNat]
  omega

theorem jtagIdcode_fields (d : JtagDie) : d ∈ jtagChain ∧ (jtagIdcode d).toNat % 2 ^ 12 = 0x2D3 * 2 + 1 ∧
    (jtagIdcode d).toNat / 2 ^ 12 % 2 ^ 16 = (if d = .h0 ∨ d = .h1 then 0x9802 else 0x9801) := by
  have hub : ∀ d, d = .h0 ∨ d = .h1 → (jtagIdcode d).toNat % 2 ^ 12 = 0x2D3 * 2 + 1 ∧ (jtagIdcode d).toNat / 2 ^ 12 % 2 ^ 16 = 0x9802 := by
    rintro d (rfl | rfl) <;> exact idcode_fields (by decide) _ rfl
  have compute : ∀ d, ¬ (d = .h0 ∨ d = .h1) → (jtagIdcode d).toNat % 2 ^ 12 = 0x2D3 * 2 + 1 ∧ (jtagIdcode d).toNat / 2 ^ 12 % 2 ^ 16 = 0x9801 := by
    intro d h
    refine idcode_fields (n := Config.genStep.toNat / 2 ^ 8) (by decide) _ ?_
    cases d with
    | h0 => exact absurd (.inl rfl) h
    | h1 => exact absurd (.inr rfl) h
    | c0 => rfl
    | c1 => rfl
    | c2 => rfl
    | c3 => rfl
  have chained : d ∈ jtagChain := by cases d <;> decide
  by_cases h : d = .h0 ∨ d = .h1
  · rw [if_pos h]
    exact ⟨chained, hub d h⟩
  · rw [if_neg h]
    exact ⟨chained, compute d h⟩

/-- Settles O59, clause by clause from the lemmas above. Spares that count at half width, groups without a width of sequence, the window of
retrains that slides, the free refusal statuses of the die, time down counted since discovery, flows by a hash and JTAG as functions that no
command calls are the model's readings (log entries 223, 224, 225, 230, 232, 233 and 234). -/
theorem dieLinksAndTests : Obligations.DieLinksAndTests := by
  unfold Obligations.DieLinksAndTests
  intro t s u ext
  refine ⟨dirRepair_eq, fun m r0 r1 => ⟨fun awake_ regs fresh up => ?_, fun dir retrains ends => ⟨fun a b ha hb => ?_, fun inTime fails => ?_⟩⟩,
    fun m dir seq ack ok flows => ⟨fun ignored => ?_, fun up new fits => ⟨fun passed next => ?_, fun other => ?_⟩⟩,
    fun l f => ⟨flowModule_isSome.symm, fun m serves => flowModule_serves serves⟩,
    fun l m d link down some_ => moveStopped_delivers link down some_, jtagActs_eq s, jtagIdcode_fields,
    fun m fenced test => ⟨fun few => ?_, fun many => ?_⟩, fun rate narrow awake_ regs on fresh => ?_, fun a absent => ?_,
    fun a known up => ?_, fun st => dieRefused_counts st s, fun m known late => ?_, fun path value => ⟨fun h => ?_, fun h => ?_⟩,
    fun v go => ⟨fun idle => dbgLoopWritten_starts go idle, fun idle => p1500Written_starts go idle⟩,
    fun runs first errs => ⟨fun early => ?_, fun due => ?_⟩, fun runs pass => ?_⟩
  · obtain ⟨repairs, fails⟩ := dieLinkTrain_eq (m := m) (s := u) awake_ regs fresh up r0 r1
    refine ⟨fun a b ha hb => ⟨dieLinkTrain m r0 r1 u, rfl, ?_⟩, fun broken => ⟨dieLinkTrain m r0 r1 u, rfl, ?_⟩⟩
    · rw [repairs a b ha hb]
      exact moduleRuns_shows m (dirRepair_spares ha) (dirRepair_spares hb) u
    · rw [fails broken]
      exact fenceCause_drains (s := u) m.isLt up 0x030D
  · obtain ⟨state, up, replays⟩ := ndlRetrain_repairs m.isLt (s := u) (d := dir) retrains ends ha hb
    exact ⟨_, rfl, state, up, fun d => replays d⟩
  · exact ⟨_, rfl, ndlRetrain_fails m.isLt (s := u) (d := dir) retrains ends fails⟩
  · exact congrArg Host.Outcome.next (groupReceive_ignores (s := u) ignored)
  · obtain ⟨next_, acked, waiting⟩ := groupTaken_accepts (m := m) dir.isLt flows u ack
    refine ⟨_, congrArg Host.Outcome.next ((groupReceive_eq (s := u) up new fits).1 passed next), next_, acked, rfl, waiting⟩
  · exact ⟨_, rfl, groupReceive_asks m.isLt (s := u) up new fits other⟩
  · obtain ⟨recovering, state, autos⟩ := beginRecovery_module m.isLt (modNdl m (fun x => { x with autos :=
      ((ndlModule u m).autos.filter fun t0 => Nat.blt u.time (t0 + 60000000000)) ++ [u.time] }) u)
    refine ⟨_, congrArg Host.Outcome.next ((autoRecover_eq (s := u) fenced test).trans (if_pos few)), recovering,
      autos.trans (congrArg NdlModule.autos (ndlModule_modNdl_self ..)), state⟩
  · exact congrArg Host.Outcome.next ((autoRecover_eq (s := u) fenced test).trans (if_neg (Nat.not_lt.mpr many)))
  · obtain ⟨off, found⟩ := ucieDiscovery_eq (s := u) awake_ regs on fresh rate narrow
    refine ⟨congrArg Host.Outcome.next off, fun id => ⟨_, congrArg Host.Outcome.next (found id), ?_⟩⟩
    obtain ⟨present, ids, config, ups⟩ := discovered_shows id rate narrow u
    refine ⟨present, ids, config, mr_discovered id.toNat rate narrow u, fun i => ?_⟩
    rw [ups i, Bool.not_eq_true', beq_eq_false_iff_ne]
  · exact congrArg Host.Outcome.next (ucieAccess_absent (s := u) absent a)
  · refine congrArg Host.Outcome.next ((ucieAccess_eq (s := u) known up a).trans ?_)
    refine congrArg (ite _ _) (congrArg (ite _ _) (congrArg (ite _ _) ?_))
    cases diePage u a with
    | none => rfl
    | some looked => cases looked <;> rfl
  · obtain ⟨stat, fenced, off⟩ := ucieModuleDown_leaves m.isLt (s := u) known late
    exact ⟨_, rfl, stat, fenced, fun others => off fun k hk other => others ⟨k, hk⟩ fun e => other (congrArg Fin.val e)⟩
  · exact congrArg Host.Outcome.next (regCommand_dbgLoop h)
  · exact congrArg Host.Outcome.next (regCommand_dbgP1500 h)
  · exact congrArg Host.Outcome.next (loopComplete_early (s := u) early first errs)
  · exact ⟨_, rfl, loopComplete_ends (s := u) runs due first errs⟩
  · exact ⟨_, rfl, p1500Complete_ends (s := u) runs pass⟩

end Sys2Proof.Machine
end
